-- ==== Sys2Proof/Word.lean ====
section
/-! DEFINITION. The plain words of the model: a byte, a 32-bit register word (R7), and the type of a sparse table. -/
namespace Sys2Proof

/-- One byte, as the host interface and the links carry them. -/
abbrev Byte := BitVec 8

/-- One 32-bit register (R7: every register is 32 bits wide). -/
abbrev Word := BitVec 32

/-- A sparse table: key and value pairs with strictly rising keys, holding no pair equal to what an unlisted key
reads as. The operations that keep this form are in `Machine/Tab.lean`. -/
abbrev Tab (α : Type) := List (Nat × α)

end Sys2Proof
end

