-- ==== Sys2Proof/Types.lean ====
section
/-! DEFINITION. The operand types of the commands: host memory as a command's data, endpoint entries (Table XC-3),
requests and their parts (Tables HST-3 and HST-4), fault messages (Table FLT-1). -/
namespace Sys2Proof.Machine

/-- Host memory as one command finds it: readable regions, each a start address and its bytes. A read that no region
covers fails (R322, R337). -/
abbrev HostMem := List (Nat × List Byte)

/-- An end of a connection: words 1 and 2 of Table XC-3. `kind` 0 frond, 1 client lane, 2 HO ODU4 endpoint, 3 none. -/
structure XcEnd where
  kind : Nat := 3
  tsLow : Nat := 0
  id : Nat := 0
  deriving DecidableEq, Repr

/-- An endpoint entry (Table XC-3). `rsv`: a reserved bit of the written entry is set. -/
structure XcEntry where
  kind : Nat := 0
  tenant : Nat := 0
  oduType : Nat := 0
  state : Nat := 0
  tsCount : Nat := 0
  src : XcEnd := {}
  dst : XcEnd := {}
  legbKind : Nat := 3
  legbTsLow : Nat := 0
  legbFrond : Nat := 0
  selMode : Nat := 0
  prefMode : Nat := 0
  taken : Nat := 0
  imuxM : Nat := 0
  imuxEnd : Nat := 0
  lstate : Nat := 0
  hold : Nat := 0
  saEn : Bool := false
  saId : Nat := 0
  granules : Nat := 0
  members : Nat := 0
  pmProfile : Nat := 0
  pmEn : Bool := false
  tcmLevel : Nat := 0
  layer : Nat := 0
  expPt : Nat := 0
  rsv : Bool := false
  deriving DecidableEq, Repr

/-- The effect a descriptor asks for: its opcode and operands (Table HST-4 and the descriptor tables of the chapters).
`malformed`: a reserved opcode. -/
inductive ReqBody where
  | malformed (opcode : Nat)
  | nop
  | funcStop (kind id : Nat)
  | funcStart (kind id : Nat)
  | lineSetup (frond n count slotM : Nat) (gridN : Int) (tableEn : Bool) (codes : List Nat)
  | loadTable (frond : Nat) (codes : List Nat)
  | filterLoad (frond addr swap : Nat)
  | lineOh (target id layer item mode addr : Nat)
  | gccSend (frond len addr : Nat)
  | gccRxPost (tag addr : Nat)
  | portSetup (lane width client rate txclk rclk group : Nat)
  | epCreate (ep : Nat) (entry : XcEntry) (slotAddr : Nat)
  | epChange (ep groups : Nat) (entry : XcEntry)
  | epDelete (ep : Nat)
  | epRead (ep buf : Nat)
  | pmAnchor (a : Nat)
  | pmProfile (k addr : Nat)
  | pmZero (on : Bool)
  | pmClear (ep : Nat)
  | pmRead (ep count buf : Nat)
  | quotaSet (units sas grans : Nat)
  | quotaRead (buf : Nat)
  | tenantCreate
  | tenantDelete
  | saCreate (sa role peer peerSa soft : Nat)
  | saChange (sa role peer peerSa soft : Nat)
  | saDelete (sa : Nat)
  | keyLoad (sa addr : Nat)
  | keyDiscard (sa : Nat)
  | keyRoll (sa r : Nat)
  | saRead (sa buf : Nat)
  | timInput (input : Nat) (enable : Bool) (freq : Nat) (delay : Int)
  | timPrio (wtr addr : Nat)
  | timDpll (dpll mode force : Nat) (revert : Bool) (bw hoSpec : Nat)
  | timOutput (output freq src sq mode : Nat) (step : Bool) (phase : Nat)
  | timTwin (action lead peer : Nat) (lanes : Nat)
  | timTod (src : Nat) (stepEn : Bool)
  | mshSetup (portEn mode addr hop : Nat) (remoteEn cfgServe : Bool) (faultSev faultDst protDst : Nat)
  | mshRemote (allow : List Nat)
  | mshSend (dst len addr : Nat)
  | mshDbRead (buf : Nat)
  | pwrFrond (frond : Nat) (setLt setShed shed : Bool) (lt : Nat)
  | pwrThermal (warn thr : Nat)
  | calRun (frond : Nat)
  | calAbort (frond : Nat)
  | calExport (frond buf : Nat)
  | calRestore (frond addr : Nat)
  | memPass (memory frond off len buf : Nat)
  | memInject (memory frond flip off : Nat)
  | fltReact (kind action : Nat) (alert : Bool)
  | fltClear (alert first safe : Bool)
  | fltLogRead (first count buf : Nat)
  | fltFirstRead (buf : Nat)
  | fltInject (sev addr : Nat)
  | fltSetup (evSev : Nat)
  | updConfig (host gcc : Bool)
  | updBegin (pkg total : Nat)
  | updSpore (addr : Nat)
  | updAbort
  | updActivate (a : Nat)
  | updRelay (frond source first : Nat)
  | updStatus (buf : Nat)
  | settingsStore (copy addr len : Nat)
  | monSeq (addr : Nat)
  | monLimit (limit persist : Nat) (fault : Bool) (sev : Nat) (low high : Int) (hyst : Nat)
  | monMap (addr : Nat)
  | monSample (ch : Nat)
  | monTest (ch d : Nat)
  | pcErbRead (frond addr : Nat)
  deriving DecidableEq, Repr

/-- Where a request comes from (R324): a command ring, a configuring Rhizome message, or a record of the
configuration image (R475). -/
inductive ReqSrc where
  | host (fn ring : Nat)
  | mesh (sender seq : Nat)
  | image (record : Nat)
  deriving DecidableEq, Repr

/-- One part of a request: its header fields and its effect (Table HST-3). `bad`: a reserved bit of the descriptor is set. -/
structure Part where
  tenant : Nat
  any : Bool
  eff : Nat
  opcode : Nat
  body : ReqBody
  bad : Bool := false
  deriving DecidableEq, Repr

/-- A request: `dn` is the descriptor number of its first part, `seq` that number as written (R319), `eff` its
effective tick with next possible resolved. `overlong`: its 16th part has CHAIN = 1 (R320). `pended`: it waits in the
pending-command table (R40). `mem`: operand data that the request itself brings, a Rhizome message's slot lists or an image's
BLOBs. -/
structure Request where
  src : ReqSrc
  dn : Nat
  seq : Nat
  eff : Nat
  overlong : Bool := false
  pended : Bool := false
  mem : HostMem := []
  parts : List Part
  deriving DecidableEq, Repr

/-- The header of a one-part request that a descriptor row of the command table carries: the issuing function and
ring, the descriptor number, the tenant named and ANY. -/
structure ReqHdr where
  fn : Nat
  ring : Nat
  dn : Nat
  tenant : Nat
  any : Bool := false
  deriving DecidableEq, Repr

/-- The fuses (R466, R517): `loaded` once FUSE has read them; grade 0 GT-4824, 1 GT-2424, 2 GT-1224; SILICON and FUSE_MAP of GLB_REV; the UID; the
security state, 0x5 SECURED or 0xA RETIRED; revoked key sets (bit s); the device key; the ECDSA and ML-DSA key hashes of key
sets 0 and 1 (Table SEC-3); the anti-rollback fuse count; AVS targets in mV, at 256 times the rail plus the junction
temperature in whole degrees plus 128. -/
structure FuseSt where
  loaded : Bool := false
  grade : Nat := 0
  rev : Nat := 0
  fuseMap : Nat := 0
  uid : Nat := 0
  secState : Nat := 5
  revoked : Nat := 0
  deviceKey : List Byte := []
  keySets : List (List Byte × List Byte) := []
  rollback : Nat := 0
  avs : Tab Nat := []
  deriving DecidableEq, Repr

/-- A fault message (Table FLT-1). -/
structure FaultMsg where
  source : Nat
  kind : Nat
  sev : Nat
  clear : Bool
  addr : Nat
  tick : Nat
  deriving DecidableEq, Repr

/-- A twin egress record (Table TCK-8). -/
structure TwinRec where
  lane : Nat
  egress : Nat
  ep : Nat
  frame : Nat
  adapt : Nat
  flags : Nat
  deriving DecidableEq, Repr

/-! ### Measurements that a device event brings -/

/-- What the look-ahead measurement of one superframe found (R102, R103): how many lit sub-carriers show a plateau, the
fit estimate in ps/nm, the largest departure from the fit and the largest move of an alignment that the estimate would
make, both in 1/64 sample. -/
structure FitObs where
  plateaus : Nat
  dEst : Int
  departure : Nat
  move : Nat
  deriving DecidableEq, Repr

/-- One received superframe as its last body symbol leaves carrier recovery. `instant`: the DSP cycle of the tick;
`pos`: the filtered position of the arrival instant plus L, in cycles from the start of the tick after the last stamp
(R36); `peak` in 1/1,024 and `fine` in 1/64 symbol: the part C correlation and its offset from the prediction; `marks`:
marked Fiddlehead symbols of the worst lit sub-carrier; `header`: the 480 bits that the header decoder gives; `eps`: the
residual frequency in derotator units; `pilots`, `pilotsMarked`; `flooded`: the stamp tick counts as flooded; `slips`:
the pilots that detected a phase slip; `snr` in 1/16 dB and `singular` in 1/1,024: the convergence measures of R119. -/
structure ArrivalObs where
  instant : Nat
  pos : Int
  fit : Option FitObs
  peak : Nat
  fine : Int
  marks : Nat
  header : Nat
  eps : Int
  pilots : Nat
  pilotsMarked : Nat
  flooded : Bool
  slips : List Nat
  snr : Int
  singular : Nat
  deriving DecidableEq, Repr

/-- What inner decoding of one superframe found: the pass at whose end each codeword is settled (R168), the erased bits
of the coded stream that R139 does not erase (R166), the bytes of the deinterleaver buffer that fail parity, and the
bytes of the working memory that fail, each with the codeword it was decoding (R167). -/
structure InnerObs where
  settle : List (Option Nat)
  erased : List Nat
  dint : List Nat
  work : List (Nat × Nat)
  deriving DecidableEq, Repr

/-- What outer decoding of one superframe gave: the outer codewords that failed, the outer codeword of each bit that the
outer decoder corrected, per inner codeword the sent bits whose decoded value differs from the sign of their LLR, and
NGMI in 1/1,024 over the bits of CLEAN codewords of the slot. `boh`: the body overhead; `slices`: the bytes of each
slice in the slice region (82,233 each); `frame`: bytes of the frame buffers that fail parity, with the payload byte
each holds; `msi`: the slots whose MSI was received whole in the superframe, with the value. -/
structure OuterObs where
  failed : List Nat
  corrected : List Nat
  diff : List Nat
  ngmi : Nat
  boh : Nat
  slices : List (List Byte)
  frame : List (Nat × Nat)
  msi : List (Nat × Nat)
  deriving DecidableEq, Repr

/-- What one frame's overhead shows in one layer, 0 PM or 1..6 TCM: a near-end and a far-end errored block (none: an
errored mark on the byte), dBDI of the layer in force, a defect of the layer (aTSF of a TCM level) in force. -/
structure OhObs where
  layer : Nat
  near : Option Bool
  far : Option Bool
  bdi : Bool
  tsf : Bool
  deriving DecidableEq, Repr

/-- One ODU frame extracted in slot T+3, or a member's share of one: the stamp of the superframe that carries its last
byte, its MFAS, the SF_COUNT of the superframe that carries its FAS, its bytes, an errored or poison mark (or missing),
the member that holds its first block, the deskew bytes that fail parity, what its overhead shows. -/
structure OduObs where
  stamp : Nat
  mfas : Nat
  sf : Nat
  bytes : List Byte
  marked : Bool
  phase : Nat
  parity : List Nat
  oh : List OhObs
  deriving DecidableEq, Repr

/-- A frame that comes to the cross-connect from a client end, toward DST or toward SRC. -/
structure UpObs where
  toDst : Bool
  bytes : List Byte
  deriving DecidableEq, Repr

end Sys2Proof.Machine
end

