-- ==== Sys2Proof/Syntax.lean ====
section
/-! DEFINITION. The commands of the block: one constructor per row of the command table, with the operands that the
row carries. What each operand stands for is said at the meaning of the command. -/
namespace Sys2Proof

open Machine in
/-- A command: what a host, a device pin, a neighbour module or the passing of time does to the module. -/
inductive Instr where
  /-- TICK_BOUNDARY (R42). -/
  | tickBoundary (mem : HostMem) (taps : List (Nat × Int × Int))
  /-- WAITING_EVENT_WRITE (R333). -/
  | waitingEventWrite (fn : Fin 256)
  /-- MSIX_MESSAGE (R335). -/
  | msixMessage (fn : Fin 256) (v : Fin 8) (masked : Bool)
  /-- DOORBELL_READ (R315). -/
  | doorbellRead (mem : HostMem)
  /-- READ_DATA_WRITE (R330). -/
  | readDataWrite
  /-- RING_ENABLE (R314). -/
  | ringEnable (fn : Fin 256) (r : Fin 5)
  /-- RING_DISABLE (R314). -/
  | ringDisable (fn : Fin 256) (r : Fin 5)
  /-- TENANT_RANGE_WRITE (R310). -/
  | tenantRangeWrite (fn : Fin 256) (base : Fin 1024) (count : Fin 2048)
  /-- FUNCTION_LEVEL_RESET (R338). -/
  | functionLevelReset (fn : Fin 256)
  /-- VF_ENABLE_CLEAR (R338). -/
  | vfEnableClear
  /-- BUS_MASTER_DISABLE (R337). -/
  | busMasterDisable (fn : Fin 256)
  /-- NOP (R321). -/
  | nop (h : ReqHdr) (mem : HostMem)
  /-- FUNC_STOP (R327). -/
  | funcStop (h : ReqHdr) (mem : HostMem) (kind id : Nat)
  /-- FUNC_START (R327). -/
  | funcStart (h : ReqHdr) (mem : HostMem) (kind id : Nat)
  /-- LINE_SETUP (R148). -/
  | lineSetup (h : ReqHdr) (mem : HostMem) (f n count slotM : Nat) (gridN : Int) (en : Bool) (codes : List Nat)
  /-- LOAD_TABLE (R147). -/
  | loadTable (h : ReqHdr) (mem : HostMem) (f : Nat) (codes : List Nat)
  /-- FILTER_LOAD (R69). -/
  | filterLoad (h : ReqHdr) (mem : HostMem) (f addr swap : Nat)
  /-- LINE_OH (R193). -/
  | lineOh (h : ReqHdr) (mem : HostMem) (target id layer item mode addr : Nat)
  /-- GCC_SEND (R206). -/
  | gccSend (h : ReqHdr) (mem : HostMem) (f len addr : Nat)
  /-- GCC_RX_POST (R334). -/
  | gccRxPost (h : ReqHdr) (mem : HostMem) (tag addr : Nat)
  /-- PORT_SETUP (R261). -/
  | portSetup (h : ReqHdr) (mem : HostMem) (lane width client rate txclk rclk group : Nat)
  /-- EP_CREATE (R234). -/
  | epCreate (h : ReqHdr) (mem : HostMem) (e : Nat) (x : XcEntry) (addr : Nat)
  /-- EP_CHANGE (R235). -/
  | epChange (h : ReqHdr) (mem : HostMem) (e g : Nat) (x : XcEntry)
  /-- EP_DELETE (R236). -/
  | epDelete (h : ReqHdr) (mem : HostMem) (e : Nat)
  /-- EP_READ (R330). -/
  | epRead (h : ReqHdr) (mem : HostMem) (e buf : Nat)
  /-- PM_SETUP_ANCHOR (R209). -/
  | pmSetupAnchor (h : ReqHdr) (mem : HostMem) (a : Nat)
  /-- PM_SETUP_PROFILE (R220). -/
  | pmSetupProfile (h : ReqHdr) (mem : HostMem) (k addr : Nat)
  /-- PM_SETUP_ZERO_SUPPRESS (R224). -/
  | pmSetupZeroSuppress (h : ReqHdr) (mem : HostMem) (on : Bool)
  /-- PM_CLEAR (R222). -/
  | pmClear (h : ReqHdr) (mem : HostMem) (e : Nat)
  /-- PM_READ (R226). -/
  | pmRead (h : ReqHdr) (mem : HostMem) (e n buf : Nat)
  /-- QUOTA_SET (R256). -/
  | quotaSet (h : ReqHdr) (mem : HostMem) (units sas grans : Nat)
  /-- QUOTA_READ (R254). -/
  | quotaRead (h : ReqHdr) (mem : HostMem) (buf : Nat)
  /-- TENANT_CREATE (R312). -/
  | tenantCreate (h : ReqHdr) (mem : HostMem)
  /-- TENANT_DELETE (R312). -/
  | tenantDelete (h : ReqHdr) (mem : HostMem)
  /-- SA_CREATE (R297). -/
  | saCreate (h : ReqHdr) (mem : HostMem) (i role peer peerSa soft : Nat)
  /-- SA_CHANGE (R297). -/
  | saChange (h : ReqHdr) (mem : HostMem) (i role peer peerSa soft : Nat)
  /-- SA_DELETE (R297). -/
  | saDelete (h : ReqHdr) (mem : HostMem) (i : Nat)
  /-- KEY_LOAD (R299). -/
  | keyLoad (h : ReqHdr) (mem : HostMem) (i addr : Nat)
  /-- KEY_DISCARD (R299). -/
  | keyDiscard (h : ReqHdr) (mem : HostMem) (i : Nat)
  /-- KEY_ROLL (R300). -/
  | keyRoll (h : ReqHdr) (mem : HostMem) (i r : Nat)
  /-- SA_READ (R306). -/
  | saRead (h : ReqHdr) (mem : HostMem) (i buf : Nat)
  /-- TIM_INPUT (R408). -/
  | timInput (h : ReqHdr) (mem : HostMem) (input : Nat) (enable : Bool) (freq : Nat) (delay : Int)
  /-- TIM_PRIO (R389). -/
  | timPrio (h : ReqHdr) (mem : HostMem) (wtr addr : Nat)
  /-- TIM_DPLL (R390). -/
  | timDpll (h : ReqHdr) (mem : HostMem) (d mode force : Nat) (revert : Bool) (bw hoSpec : Nat)
  /-- TIM_OUTPUT (R400). -/
  | timOutput (h : ReqHdr) (mem : HostMem) (output freq src sq mode : Nat) (step : Bool) (phase : Nat)
  /-- TIM_TWIN_SETUP (R408). -/
  | timTwinSetup (h : ReqHdr) (mem : HostMem) (lead peer lanes : Nat)
  /-- TIM_TWIN_REMOVE (R408). -/
  | timTwinRemove (h : ReqHdr) (mem : HostMem) (lead peer lanes : Nat)
  /-- TIM_TOD (R406). -/
  | timTod (h : ReqHdr) (mem : HostMem) (src : Nat) (stepEn : Bool)
  /-- MSH_SETUP (R441). -/
  | mshSetup (h : ReqHdr) (mem : HostMem) (portEn mode addr hop : Nat) (remote serve : Bool) (sev fdst pdst : Nat)
  /-- MSH_REMOTE (R432). -/
  | mshRemote (h : ReqHdr) (mem : HostMem) (allow : List Nat)
  /-- MSH_SEND (R441). -/
  | mshSend (h : ReqHdr) (mem : HostMem) (dst len addr : Nat)
  /-- MSH_DB_READ (R441). -/
  | mshDbRead (h : ReqHdr) (mem : HostMem) (buf : Nat)
  /-- PWR_FROND (R453). -/
  | pwrFrond (h : ReqHdr) (mem : HostMem) (f : Nat) (setLt setShed shed : Bool) (lt : Nat)
  /-- PWR_THERMAL (R464). -/
  | pwrThermal (h : ReqHdr) (mem : HostMem) (warn thr : Nat)
  /-- CAL_RUN (R525). -/
  | calRun (h : ReqHdr) (mem : HostMem) (f : Nat)
  /-- CAL_ABORT (R532). -/
  | calAbort (h : ReqHdr) (mem : HostMem) (f : Nat)
  /-- CAL_EXPORT (R533). -/
  | calExport (h : ReqHdr) (mem : HostMem) (f buf : Nat)
  /-- CAL_RESTORE (R534). -/
  | calRestore (h : ReqHdr) (mem : HostMem) (f addr : Nat)
  /-- MEM_PASS (R562). -/
  | memPass (h : ReqHdr) (mem : HostMem) (memory frond off len buf : Nat)
  /-- MEM_INJECT (R563). -/
  | memInject (h : ReqHdr) (mem : HostMem) (memory frond flip off : Nat)
  /-- FLT_REACT (R578). -/
  | fltReact (h : ReqHdr) (mem : HostMem) (kind action : Nat) (alert : Bool)
  /-- FLT_CLEAR_ALERT (R574). -/
  | fltClearAlert (h : ReqHdr) (mem : HostMem)
  /-- FLT_CLEAR_FIRST (R576). -/
  | fltClearFirst (h : ReqHdr) (mem : HostMem)
  /-- FLT_CLEAR_SAFE (R572). -/
  | fltClearSafe (h : ReqHdr) (mem : HostMem)
  /-- FLT_LOG_READ (R578). -/
  | fltLogRead (h : ReqHdr) (mem : HostMem) (first count buf : Nat)
  /-- FLT_FIRST_READ (R578). -/
  | fltFirstRead (h : ReqHdr) (mem : HostMem) (buf : Nat)
  /-- FLT_INJECT (R578). -/
  | fltInject (h : ReqHdr) (mem : HostMem) (sev addr : Nat)
  /-- FLT_SETUP (R579). -/
  | fltSetup (h : ReqHdr) (mem : HostMem) (evSev : Nat)
  /-- UPD_CONFIG (R520). -/
  | updConfig (h : ReqHdr) (mem : HostMem) (host gcc : Bool)
  /-- UPD_BEGIN (R508). -/
  | updBegin (h : ReqHdr) (mem : HostMem) (pkg total : Nat)
  /-- UPD_SPORE (R510). -/
  | updSpore (h : ReqHdr) (mem : HostMem) (addr : Nat)
  /-- UPD_ABORT (R520). -/
  | updAbort (h : ReqHdr) (mem : HostMem)
  /-- UPD_ACTIVATE (R513). -/
  | updActivate (h : ReqHdr) (mem : HostMem) (a : Nat)
  /-- UPD_RELAY (R511). -/
  | updRelay (h : ReqHdr) (mem : HostMem) (f source first : Nat)
  /-- UPD_STATUS (R520). -/
  | updStatus (h : ReqHdr) (mem : HostMem) (buf : Nat)
  /-- SETTINGS_STORE (R519). -/
  | settingsStore (h : ReqHdr) (mem : HostMem) (copy addr len : Nat)
  /-- MON_SEQ (R542). -/
  | monSeq (h : ReqHdr) (mem : HostMem) (addr : Nat)
  /-- MON_LIMIT (R546). -/
  | monLimit (h : ReqHdr) (mem : HostMem) (limit persist : Nat) (fault : Bool) (sev : Nat) (low high : Int)
      (hyst : Nat)
  /-- MON_MAP (R546). -/
  | monMap (h : ReqHdr) (mem : HostMem) (addr : Nat)
  /-- MON_SAMPLE (R544). -/
  | monSample (h : ReqHdr) (mem : HostMem) (ch : Nat)
  /-- MON_TEST (R547). -/
  | monTest (h : ReqHdr) (mem : HostMem) (ch d : Nat)
  /-- PC_ERB_READ (R590). -/
  | pcErbRead (h : ReqHdr) (mem : HostMem) (f addr : Nat)
  /-- LATCHED_PAIR_READ (R638). -/
  | latchedPairRead (fn : Fin 256) (off : Nat) (form : Bool)
  /-- REGISTER_READ_CLEAR (R9). -/
  | registerReadClear (fn : Fin 256) (off : Nat) (form : Bool)
  /-- REGISTER_WRITE (R637). -/
  | registerWrite (fn : Fin 256) (off : Nat) (form : Bool) (v : Word)
  /-- ACQ_RESTART (R90). -/
  | acqRestart (f : Fin 48)
  /-- EQ_STATE_DISCARD (R123). -/
  | eqStateDiscard (f : Fin 48)
  /-- WARM_RESET_REQUEST (R481). -/
  | warmResetRequest (v : Word)
  /-- BLOCK_RESET_REQUEST (R485). -/
  | blockResetRequest (id : Fin 4096)
  /-- LOAD_WINDOW_GO (R476). -/
  | loadWindowGo (v : Word)
  /-- CALENDAR_SET (R492). -/
  | calendarSet (date time : Word)
  /-- EPOCH_SET (R495). -/
  | epochSet (epoch : BitVec 64)
  /-- CRYPTO_GATE_WRITE (R642). -/
  | cryptoGateWrite (f : Fin 48) (gate : Bool)
  /-- PC_FROZEN_CLEAR (R587). -/
  | pcFrozenClear (f : Fin 48)
  /-- CAL_TONE_WRITE (R526). -/
  | calToneWrite (v : Word)
  /-- SEC_KE_KEY_WRITE (R366). -/
  | secKeKeyWrite (w : Fin 8) (v : Word)
  /-- KE_ENCRYPT (R367). -/
  | keEncrypt
  /-- KE_DECRYPT (R367). -/
  | keDecrypt
  /-- KE_CLEAR_SAVE (R370). -/
  | keClearSave
  /-- KE_WRAPPED_SAVE (R370). -/
  | keWrappedSave
  /-- KE_CLEAR_RESTORE (R370). -/
  | keClearRestore
  /-- KE_WRAPPED_RESTORE (R370). -/
  | keWrappedRestore
  /-- KE_ZEROISE (R370). -/
  | keZeroise
  /-- KE_OP_DONE (R367). -/
  | keOpDone
  /-- MASK_RESEED (R364). -/
  | maskReseed
  /-- MBX_WORD_WRITE (R343). -/
  | mbxWordWrite (c : Fin 10) (w : Fin 15) (v : Word)
  /-- MBX_POST (R342). -/
  | mbxPost (c : Fin 10) (v : Word)
  /-- MBX_OUTBOUND_READ (R342). -/
  | mbxOutboundRead (c : Fin 10) (w : Fin 16)
  /-- MBX_PROCESSOR_READ (R346). -/
  | mbxProcessorRead (c : Fin 10)
  /-- MBX_REPLY_POST (R346). -/
  | mbxReplyPost (c : Fin 10)
  /-- MBX_CROSSING (R351). -/
  | mbxCrossing (c : Fin 10)
  /-- PING (R345). -/
  | ping (c : Fin 8)
  /-- FW_INFO (R345). -/
  | fwInfo (c : Fin 8)
  /-- DIAG_TEXT (R345). -/
  | diagText (c : Fin 8) (words : List Word)
  /-- SEC_FW_INFO (R374). -/
  | secFwInfo (c : Fin 2)
  /-- KEK_INSTALL (R375). -/
  | kekInstall (c : Fin 2)
  /-- KEK_ERASE (R375). -/
  | kekErase (c : Fin 2)
  /-- KEK_STATUS (R374). -/
  | kekStatus (c : Fin 2)
  /-- HOLD_STATUS (R374). -/
  | holdStatus (c : Fin 2)
  /-- HOLD_RELEASE (R380). -/
  | holdRelease (c : Fin 2)
  /-- ENTROPY_READ (R374). -/
  | entropyRead (c : Fin 2)
  /-- DECOMMISSION_ARM (R376). -/
  | decommissionArm (c : Fin 2)
  /-- DECOMMISSION (R376). -/
  | decommission (c : Fin 2)
  /-- BAR2_ACCESS_DENIED (R359). -/
  | bar2AccessDenied (off : Nat) (read : Bool)
  /-- IDE_KM_MESSAGE (R360). -/
  | ideKmMessage (msg : List Byte) (secure : Bool)
  /-- ENTROPY_STARTUP_PASS (R372). -/
  | entropyStartupPass
  /-- ENTROPY_HEALTH_FAILURE (R373). -/
  | entropyHealthFailure (test : Fin 3)
  /-- COLD_RESET_POWER (R481). -/
  | coldResetPower
  /-- COLD_RESET_PIN (R481). -/
  | coldResetPin
  /-- RST_N_RELEASE (R466). -/
  | rstNRelease (boot clk : Fin 4) (flash copies : List (Nat × List Byte))
  /-- FUSE_LOAD_DONE (R467). -/
  | fuseLoadDone (fuse : FuseSt) (fail : Bool) (bad : List Nat)
  /-- SECURE_SLOT_VERIFIED (R361). -/
  | secureSlotVerified
  /-- CONFIG_IMAGE_READ (R472). -/
  | configImageRead
  /-- LOAD_WINDOW_TRANSFER_DONE (R476). -/
  | loadWindowTransferDone (mem : HostMem)
  /-- CFG_REQUEST_RETRY (R477). -/
  | cfgRequestRetry (p : Fin 6)
  /-- MESH_CONFIG_TIMEOUT (R477). -/
  | meshConfigTimeout
  /-- CAL_PHASE_DONE (R478). -/
  | calPhaseDone
  /-- MGMT_WATCHDOG (R481). -/
  | mgmtWatchdog
  /-- LOOP_WATCHDOG (R568). -/
  | loopWatchdog (f : Fin 48)
  /-- BLOCK_RESET_END (R485). -/
  | blockResetEnd (id : Fin 4096)
  /-- POWER_DOWN_ORDERLY (R447). -/
  | powerDownOrderly
  /-- MAIN_SUPPLY_LOSS (R447). -/
  | mainSupplyLoss
  /-- RAIL_FAULT (R445). -/
  | railFault (r : Fin 14) (mv : Nat)
  /-- PEAT_SECOND (R489). -/
  | peatSecond (fails : List Nat)
  /-- PEAT_SWITCH_TO_VBAK (R449). -/
  | peatSwitchToVbak
  /-- PEAT_RETURN_TO_VKEEP (R449). -/
  | peatReturnToVkeep
  /-- PEAT_POWER_LOSS (R451). -/
  | peatPowerLoss
  /-- PEAT_POWER_RETURN (R503). -/
  | peatPowerReturn (backup : Bool)
  /-- PPS_EDGE_STAMP (R404). -/
  | ppsEdgeStamp (i : Fin 2) (cycle : Fin 10000)
  /-- TOD_MESSAGE (R406). -/
  | todMessage (i : Fin 2) (b : List Byte)
  /-- CANDIDATE_ABSENT (R384). -/
  | candidateAbsent (src : Fin 128)
  /-- MEASUREMENT_WINDOW_END (R386). -/
  | measurementWindowEnd (obs : List (Nat × Int × Nat))
  /-- DPLL_LOCKED (R394). -/
  | dpllLocked (d : Fin 4) (err fofs : Int)
  /-- DPLL_LOCK_LOST (R394). -/
  | dpllLockLost (d : Fin 4) (err fofs : Int)
  /-- HOLDOVER_OOS (R395). -/
  | holdoverOos (d : Fin 4)
  /-- TIMING_REPORT_SEND (R387). -/
  | timingReportSend
  /-- TIMING_REPORT (R388). -/
  | timingReport (p : Fin 6) (state depth followed : Nat)
  /-- PPS_OUT_PULSE (R403). -/
  | ppsOutPulse
  /-- OUTPUT_CHANGE_RESUME (R400). -/
  | outputChangeResume (k : Fin 8)
  /-- TWIN_PHASE_SEND (R438). -/
  | twinPhaseSend
  /-- TWIN_PHASE (R398). -/
  | twinPhase (lead ofs : Nat) (probe : Option (Nat × Nat × Nat)) (arr : Fin 160000)
  /-- TWIN_PROBE_SEND (R438). -/
  | twinProbeSend
  /-- TWIN_PROBE (R438). -/
  | twinProbe (tick ofs : Nat) (arr : Fin 160000)
  /-- TWIN_EGRESS_SEND (R439). -/
  | twinEgressSend
  /-- TWIN_EGRESS (R51). -/
  | twinEgress (recs : List TwinRec)
  /-- TWIN_ALIGNED (R51). -/
  | twinAligned
  /-- TWIN_LAPSED (R51). -/
  | twinLapsed
  /-- TWIN_REALIGN (R51). -/
  | twinRealign
  /-- TWIN_STEER_LIMIT (R399). -/
  | twinSteerLimit (ppb : Int)
  /-- MESH_BLOCK_LOCK (R415). -/
  | meshBlockLock (p : Fin 6) (l : Fin 4) (errs : Nat) (heads : List Bool)
  /-- MESH_BLOCK_LOCK_LOSS (R415). -/
  | meshBlockLockLoss (p : Fin 6) (l : Fin 4) (errs : Nat) (cdr : Bool) (heads : List Bool)
  /-- MESH_PORT_ALIGN (R416). -/
  | meshPortAlign (p : Fin 6) (o : List (Nat × Nat × Nat))
  /-- MESH_ALIGN_LOSS (R416). -/
  | meshAlignLoss (p : Fin 6) (o : List (Nat × Nat × Nat))
  /-- HELLO_SEND (R418). -/
  | helloSend (p : Fin 6)
  /-- HELLO (R418). -/
  | hello (p : Fin 6) (errs : Nat) (b : List Byte)
  /-- MESH_HELLO_TIMEOUT (R418). -/
  | meshHelloTimeout (p : Fin 6)
  /-- DB_REQ (R421). -/
  | dbReq (p : Fin 6) (errs : Nat) (b : List Byte)
  /-- LSA (R428). -/
  | lsa (p : Fin 6) (errs : Nat) (b : List Byte)
  /-- LSA_ORIGINATE (R428). -/
  | lsaOriginate
  /-- LSA_EXPIRY (R428). -/
  | lsaExpiry (a : Fin 4096)
  /-- CLAIM (R425). -/
  | claim (p : Fin 6) (errs : Nat) (b : List Byte)
  /-- DB_COLLECT_END (R425). -/
  | dbCollectEnd
  /-- CLAIM_COMPLETE (R425). -/
  | claimComplete
  /-- ROUTE_COMPUTE (R429). -/
  | routeCompute
  /-- MESH_MESSAGE_TRANSMIT (R422). -/
  | meshMessageTransmit (p : Fin 6)
  /-- REMOTE_CMD (R432). -/
  | remoteCmd (p : Fin 6) (errs : Nat) (b : List Byte)
  /-- REMOTE_CPL (R433). -/
  | remoteCpl (p : Fin 6) (errs : Nat) (b : List Byte)
  /-- KEY_ROLL_MESSAGE (R302). -/
  | keyRollMessage (p : Fin 6) (errs : Nat) (b : List Byte)
  /-- PROT_STATE (R436). -/
  | protState (p : Fin 6) (errs : Nat) (b : List Byte)
  /-- FAULT_REPORT (R436). -/
  | faultReport (p : Fin 6) (errs : Nat) (b : List Byte)
  /-- CFG_REQ (R434). -/
  | cfgReq (p : Fin 6) (errs : Nat) (b : List Byte)
  /-- CFG_DATA (R434). -/
  | cfgData (p : Fin 6) (errs : Nat) (b : List Byte)
  /-- AVS_EVALUATION (R444). -/
  | avsEvaluation (r : Fin 8)
  /-- WAKE_COMPLETE (R454). -/
  | wakeComplete (f : Fin 48)
  /-- THERM_THROTTLE (R460). -/
  | thermThrottle (f : Fin 48)
  /-- THERM_SHED (R461). -/
  | thermShed
  /-- THERMAL_TRIP (R462). -/
  | thermalTrip (sensor : Fin 52) (deg : Nat)
  /-- TELEMETRY_REFRESH (R463). -/
  | telemetryRefresh
  /-- PMBUS_PAGE_WRITE (R463). -/
  | pmbusPageWrite (p : Fin 256)
  /-- PMBUS_PAGE_READ (R463). -/
  | pmbusPageRead
  /-- PMBUS_VOUT_MODE (R463). -/
  | pmbusVoutMode
  /-- PMBUS_STATUS_WORD (R463). -/
  | pmbusStatusWord
  /-- PMBUS_STATUS_CML (R463). -/
  | pmbusStatusCml
  /-- PMBUS_READ_VOUT (R463). -/
  | pmbusReadVout
  /-- PMBUS_READ_IOUT (R463). -/
  | pmbusReadIout
  /-- PMBUS_READ_TEMPERATURE_1 (R463). -/
  | pmbusReadTemperature1
  /-- PMBUS_READ_POUT (R463). -/
  | pmbusReadPout
  /-- PMBUS_MFR_SPECIFIC_00 (R463). -/
  | pmbusMfrSpecific00
  /-- PMBUS_MFR_SPECIFIC_01 (R463). -/
  | pmbusMfrSpecific01
  /-- PMBUS_UNSUPPORTED (R463). -/
  | pmbusUnsupported
  /-- RX_POWER_LOW (R58). -/
  | rxPowerLow (f : Fin 48) (power : Int)
  /-- RX_POWER_HIGH (R58). -/
  | rxPowerHigh (f : Fin 48) (power : Int)
  /-- LO_LOW (R58). -/
  | loLow (f : Fin 48) (power : Int)
  /-- MUTE_SWITCH_DONE (R57). -/
  | muteSwitchDone (f : Fin 48)
  /-- SUBCONV_STUCK (R62). -/
  | subconvStuck (f : Fin 48) (adc : Fin 4) (k : Fin 128) (same others : Bool)
  /-- SUBCONV_RECOVERED (R62). -/
  | subconvRecovered (f : Fin 48) (adc : Fin 4) (k : Fin 128) (distinct : Bool)
  /-- FIR_BANK_SWAP (R70). -/
  | firBankSwap (f : Fin 48)
  /-- FAST_GAIN_STEP (R86). -/
  | fastGainStep (f : Fin 48) (rms : List Int) (saturated total : Nat)
  /-- GAIN_TRIM (R88). -/
  | gainTrim (f : Fin 48) (rms : Int) (flooded : Bool)
  /-- FIDDLEHEAD_DETECTION (R82). -/
  | fiddleheadDetection (f : Fin 48) (metric : List Nat) (plateauEnd : Nat) (freq fine : Int) (predicted : Bool)
      (edge : Option Int)
  /-- SUPERFRAME_ARRIVAL (R36). -/
  | superframeArrival (f : Fin 48) (o : ArrivalObs)
  /-- FLOODED_TICK (R95). -/
  | floodedTick (f : Fin 48) (marks : List Nat) (total : Nat)
  /-- WARM_FALLBACK (R89). -/
  | warmFallback (f : Fin 48) (power : Int)
  /-- ACQ_TIMEOUT (R89). -/
  | acqTimeout (f : Fin 48)
  /-- DLOA (R199). -/
  | dloa (f : Fin 48)
  /-- CD_SEARCH_CANDIDATE_END (R105). -/
  | cdSearchCandidateEnd (f : Fin 48)
  /-- PRECONVERGENCE_END (R106). -/
  | preconvergenceEnd (f : Fin 48) (settled : Bool)
  /-- CD_TRACKING (R107). -/
  | cdTracking (f : Fin 48) (residual : Int) (dgd pdl : Nat)
  /-- CD_HOST_RAMP_STEP (R108). -/
  | cdHostRampStep (f : Fin 48)
  /-- SOP_RATE_EVALUATION (R112). -/
  | sopRateEvaluation (f : Fin 48) (rate : Nat)
  /-- FOFS_RANGE (R118). -/
  | fofsRange (f : Fin 48) (fofs : Int)
  /-- SNR_MEASUREMENT (R121). -/
  | snrMeasurement (f : Fin 48) (empty : Bool) (sums : List (Nat × Nat × Nat × Nat))
  /-- EQ_STAMP_REFRESH (R122). -/
  | eqStampRefresh (f : Fin 48)
  /-- LASER_OFF_GRID (R128). -/
  | laserOffGrid (f : Fin 48) (offset : Int)
  /-- LOAD_REQUEST_EVALUATION (R141). -/
  | loadRequestEvaluation (f : Fin 48)
  /-- LOAD_REQUEST_TIMEOUT (R142). -/
  | loadRequestTimeout (f : Fin 48)
  /-- TX_LOAD_SWAP (R144). -/
  | txLoadSwap (f : Fin 48)
  /-- PRECD_RAMP_STEP (R150). -/
  | precdRampStep (f : Fin 48)
  /-- LAUNCH_POWER_RESTORED (R153). -/
  | launchPowerRestored (f : Fin 48) (power : Int) (limited : Bool)
  /-- INNER_DECODE (R169). -/
  | innerDecode (f : Fin 48) (o : InnerObs)
  /-- OUTER_DECODE (R172). -/
  | outerDecode (f : Fin 48) (o : OuterObs)
  /-- DLOF (R188). -/
  | dlof (f : Fin 48)
  /-- DLOM (R189). -/
  | dlom (f : Fin 48)
  /-- DDEG (R198). -/
  | ddeg (f : Fin 48)
  /-- GCC_FRAME_RECEIVE (R205). -/
  | gccFrameReceive (f : Fin 48)
  /-- GCC_FRAME_TRANSMIT (R206). -/
  | gccFrameTransmit (f : Fin 48)
  /-- SLF_FRAME_ENCODE (R174). -/
  | slfFrameEncode (f : Fin 48) (poison : List Nat)
  /-- TX_ASSEMBLY (R149). -/
  | txAssembly (f : Fin 48)
  /-- SUPERFRAME_TRANSMIT (R35). -/
  | superframeTransmit (f : Fin 48) (clipped : List (Nat × Nat))
  /-- CLIENT_INGRESS_MAP (R278). -/
  | clientIngressMap (p : Fin 288) (codewords unc : Nat) (corr : List (Nat × Nat)) (sop : Bool) (otuc : Option
      (Bool × Bool))
  /-- ODU_EXTRACT (R244). -/
  | oduExtract (e : Fin 131072) (src : Fin 8) (o : OduObs)
  /-- EGRESS_DECISION (R250). -/
  | egressDecision (e : Fin 131072) (needDst needSrc : Nat)
  /-- XC_SWITCH (R237). -/
  | xcSwitch (e : Fin 131072) (ups : List UpObs)
  /-- CLIENT_EGRESS_MAP (R279). -/
  | clientEgressMap (p : Fin 288) (made : Nat) (level : Int) (ovf : Option (Fin 2))
  /-- LICHEN_PAIRED (R248). -/
  | lichenPaired (e : Fin 131072)
  /-- LICHEN_SINGLE (R248). -/
  | lichenSingle (e : Fin 131072)
  /-- DELTA_CHANGE (R249). -/
  | deltaChange (e : Fin 131072)
  /-- LICHEN_REANCHOR (R249). -/
  | lichenReanchor (e : Fin 131072)
  /-- LEG_FAIL (R251). -/
  | legFail (e : Fin 131072) (l : Fin 2)
  /-- LEG_CLEAR (R251). -/
  | legClear (e : Fin 131072) (l : Fin 2)
  /-- IMUX_SKEW_EXCEEDED (R244). -/
  | imuxSkewExceeded (e : Fin 131072)
  /-- KEY_ROLL_APPLY (R300). -/
  | keyRollApply (i : Fin 16384)
  /-- PREVIOUS_KEY_ERASE (R301). -/
  | previousKeyErase (i : Fin 16384)
  /-- CLIENT_LANE_SIGNAL (R267). -/
  | clientLaneSignal (l : Fin 288) (sig cdr : Bool)
  /-- AM_LOCK (R267). -/
  | amLock (p : Fin 288) (k lane : Nat) (inverted : Bool)
  /-- AM_LOCK_LOSS (R267). -/
  | amLockLoss (p : Fin 288) (k : Nat)
  /-- DESKEW_COMPLETE (R267). -/
  | deskewComplete (p : Fin 288)
  /-- BLOCK_LOCK (R269). -/
  | blockLock (p : Fin 288) (n : Nat)
  /-- BLOCK_LOCK_LOSS (R269). -/
  | blockLockLoss (p : Fin 288) (n : Nat)
  /-- HI_SER_CHANGE (R268). -/
  | hiSerChange (p : Fin 288) (on : Bool)
  /-- CLIENT_FAULT_RX (R281). -/
  | clientFaultRx (p : Fin 288) (lf rf : Bool)
  /-- FLEXO_DEFECT_SET (R277). -/
  | flexoDefectSet (p : Fin 288) (d : Fin 3) (inst : Nat)
  /-- FLEXO_DEFECT_CLR (R277). -/
  | flexoDefectClr (p : Fin 288) (d : Fin 3) (inst : Nat)
  /-- PM_SECOND_END (R208). -/
  | pmSecondEnd
  /-- PM_RECORD_EXPORT (R224). -/
  | pmRecordExport
  /-- MON_FRAME_START (R539). -/
  | monFrameStart
  /-- MON_CONVERSION_END (R539). -/
  | monConversionEnd (code : Fin 4096) (value : Int)
  /-- URGENT_REQUEST (R543). -/
  | urgentRequest (src : Fin 3) (ch : Fin 256) (at' : Fin 10000)
  /-- URGENT_CONVERSION_END (R545). -/
  | urgentConversionEnd (code : Fin 4096) (value : Int)
  /-- MON_TEST_DONE (R547). -/
  | monTestDone (code : Fin 4096)
  /-- CONFIRMATION_READ (R555). -/
  | confirmationRead
  /-- SCRUB_TICK (R560). -/
  | scrubTick (upsets : List (Nat × Nat × Nat × Nat))
  /-- MEM_PASS_DONE (R562). -/
  | memPassDone
  /-- FAULT_MESSAGE (R570). -/
  | faultMessage (m : FaultMsg)
  /-- COLLECTOR_PARITY_FAILURE (R577). -/
  | collectorParityFailure (c : Fin 2)
  /-- UPD_ERASE_DONE (R508). -/
  | updEraseDone
  /-- SPORE_PROGRAMMED (R509). -/
  | sporeProgrammed (same : Bool)
  /-- SPORE_FRAME (R511). -/
  | sporeFrame (f : Fin 48)
  /-- SPORE_ACK_SEND (R511). -/
  | sporeAckSend
  /-- SPORE_ACK (R511). -/
  | sporeAck (f : Fin 48)
  /-- UPD_VERIFY_DONE (R512). -/
  | updVerifyDone
  /-- PRELOAD_DONE (R513). -/
  | preloadDone (bad : Option (Fin 6))
  /-- FW_ACTIVATION_SWITCH (R514). -/
  | fwActivationSwitch
  /-- SELF_CHECK_REPORT (R515). -/
  | selfCheckReport (p : Fin 6) (pass : Bool)
  /-- TRIAL_TIMEOUT (R515). -/
  | trialTimeout
  /-- FUSE_PROGRAMMING (R517). -/
  | fuseProgramming
  /-- SETTINGS_STORE_DONE (R519). -/
  | settingsStoreDone (mem : HostMem) (same : Bool)
  /-- CAL_MUTE_CHECK (R528). -/
  | calMuteCheck (f : Fin 48)
  /-- CAL_PRECHECK_END (R528). -/
  | calPrecheckEnd (f : Fin 48) (pwr fofs : Int) (spread : Nat)
  /-- CAL_TONE_LOST (R532). -/
  | calToneLost (f : Fin 48) (pwr : Int)
  /-- CAL_STEP_END (R529). -/
  | calStepEnd (f : Fin 48) (vals : List Int) (tap : Bool) (quad : Option (Nat × Nat))
  /-- CAL_BANK_SWAP (R530). -/
  | calBankSwap (f : Fin 48)
  /-- BUS_MASTER_ENABLE_RETURN (R337). -/
  | busMasterEnableReturn (fn : Fin 256)
  /-- RAIL_IN_TOLERANCE (R448). -/
  | railInTolerance (r : Fin 14)
  /-- BOUNDARY_SCAN (R605). -/
  | boundaryScan (tms tdi trstN : Bool) (pads : List Bool)
  deriving DecidableEq, Repr

end Sys2Proof
end

