-- ==== Sys2Proof/Decode.lean ====
section
/-! DEFINITION. The command that a table word spells. The rows of the command table give no bits, so no word spells a command:
the module is a block, and its commands are events, accesses and descriptors, not words of a program. How a descriptor's 64 bytes
are read stands in `Machine/Parse.lean`. -/
namespace Sys2Proof

/-- The command of a word of `nbits` bits, for the rows that give bits: none of them does. -/
def decodeTableWord (_nbits _w : Nat) : Option Instr := none

end Sys2Proof
end

