-- ==== Sys2Proof/Config.lean ====
section
/-! DEFINITION. What one part fixes and the spec does not state, and the free values: constants without a body, of
which no proof can know anything. -/
namespace Sys2Proof

/-- The free values: `Config.free n` is the n-th value the spec leaves open. A step that needs one reads the counter
`State.freeCtr`, uses `Config.free` of it, and advances the counter (assumption 1). -/
opaque Config.free : Nat → Nat

/-- The MSI bytes that stand for an entry of the tributary slot table, 0 for none and the endpoint plus 1 for an owner:
their coding is ITU-T G.709's, which the spec does not give (assumption 2). -/
opaque Config.msiOf : Nat → Nat

/-- What a byte of memory 0x11 belongs to: a slot of the tributary slot table by its key, or 2^60 plus a granule. The
layout of that memory is left open (assumption 4). -/
opaque Config.tableObject : Nat → Nat

/-- The entry of the pending-command table, 0..4,095, that holds a descriptor: function, ring and descriptor number. The spec
does not say which entry a descriptor takes (assumption 4). -/
opaque Config.pendingEntry : Nat → Nat → Nat → Nat

/-- SHA-384 (FIPS 180-4), which Table SEC-3 names by its standard (assumption 3). -/
opaque Config.sha384 : List (BitVec 8) → List (BitVec 8)

/-- ECDSA P-384 verification with SHA-384 (FIPS 186-5): public key, message, signature (assumption 3). -/
opaque Config.ecdsaOk : List (BitVec 8) → List (BitVec 8) → List (BitVec 8) → Bool

/-- ML-DSA-87 verification with an empty context (FIPS 204): public key, message, signature (assumption 3). -/
opaque Config.mldsaOk : List (BitVec 8) → List (BitVec 8) → List (BitVec 8) → Bool

/-- The low 12 bits of IDCODE, which the spec leaves to the BSDL file (assumption 5). -/
opaque Config.bsdlId : Nat

/-- The upper six bits that Capture-IR loads, which IEEE Std 1149.1 leaves to the BSDL file (assumption 5). -/
opaque Config.bsdlIr : Nat

end Sys2Proof
end

