-- ==== Sys2Proof/Machine/Tab.lean ====
section
/-! DEFINITION. The operations on sparse tables. `d` is what an unlisted key reads as. -/
namespace Sys2Proof.Machine

/-- What key `k` reads as. -/
def Tab.get {α : Type} (d : Nat → α) : Tab α → Nat → α
  | [], k => d k
  | (j, v) :: t, k => if k = j then v else Tab.get d t k

/-- The table without key `k`. -/
def Tab.erase {α : Type} : Tab α → Nat → Tab α
  | [], _ => []
  | (j, v) :: t, k => if k = j then Tab.erase t k else (j, v) :: Tab.erase t k

/-- The table with `k` bound to `v`, placed in key order. -/
def Tab.insert {α : Type} (k : Nat) (v : α) : Tab α → Tab α
  | [] => [(k, v)]
  | (j, w) :: t =>
    if k < j then (k, v) :: (j, w) :: t
    else if k = j then (k, v) :: t
    else (j, w) :: Tab.insert k v t

/-- Binds `k` to `v`; the value an unlisted key reads as is not listed. -/
def Tab.set {α : Type} [DecidableEq α] (d : Nat → α) (t : Tab α) (k : Nat) (v : α) : Tab α :=
  if v = d k then Tab.erase t k else Tab.insert k v t

/-- Keys rise strictly and every key is at least `lo`. -/
def Tab.rising {α : Type} : Nat → Tab α → Bool
  | _, [] => true
  | lo, (j, _) :: t => decide (lo ≤ j) && Tab.rising (j + 1) t

/-- No listed value equals what its key reads as when unlisted. -/
def Tab.noDefault {α : Type} [DecidableEq α] (d : Nat → α) (t : Tab α) : Bool :=
  t.all fun p => decide (p.2 ≠ d p.1)

/-- The canonical form: two tables in it that read alike at every key are the same list. -/
def Tab.wf {α : Type} [DecidableEq α] (d : Nat → α) (t : Tab α) : Bool :=
  Tab.rising 0 t && Tab.noDefault d t

/-- Insertion into a list that `le` orders, after its equals. -/
def insertBy {α : Type} (le : α → α → Bool) (x : α) : List α → List α
  | [] => [x]
  | y :: l => if le y x then y :: insertBy le x l else x :: y :: l

/-- A stable sort by `le`. -/
def sortBy {α : Type} (le : α → α → Bool) : List α → List α
  | [] => []
  | l => l.foldl (fun acc x => insertBy le x acc) []

/-- The first `n` of the byte string `l`, read low byte first (R7). -/
def leNat : List Byte → Nat
  | [] => 0
  | b :: l => b.toNat + 256 * leNat l

/-- `n` bytes of `v`, low byte first. -/
def natLe : Nat → Nat → List Byte
  | 0, _ => []
  | n + 1, v => BitVec.ofNat 8 v :: natLe n (v / 256)

/-- `n` bytes of `v`, high byte first. -/
def natBe (n v : Nat) : List Byte := (natLe n v).reverse

/-- A byte string read high byte first. -/
def beNat (l : List Byte) : Nat := leNat l.reverse

/-- `len` bytes of `l` from byte `off`, zeros past its end. -/
def slice (l : List Byte) (off len : Nat) : List Byte :=
  (List.range len).map fun i => (l[off + i]?).getD 0

/-- A little-endian field of `n` bytes at byte `off`. -/
def fieldAt (l : List Byte) (off n : Nat) : Nat := leNat (slice l off n)

/-- Two's complement reading of the low `w` bits of `v`. -/
def toSigned (w v : Nat) : Int :=
  let u := v % 2 ^ w
  if u < 2 ^ (w - 1) then (u : Int) else (u : Int) - (2 ^ w : Nat)

/-- Two's complement coding of `i` in `w` bits. -/
def ofSigned (w : Nat) (i : Int) : Nat := (i % ((2 ^ w : Nat) : Int)).toNat

/-- `i` clamped to `lo..hi`. -/
def clampInt (lo hi i : Int) : Int := if i < lo then lo else if hi < i then hi else i

/-- The greatest value in `lo..lo + 2 ^ n - 1` that satisfies a downward closed test, `lo` when none does. -/
def searchMax (test : Int → Bool) : Nat → Int → Int
  | 0, lo => lo
  | n + 1, lo => if test (lo + 2 ^ n) then searchMax test n (lo + 2 ^ n) else searchMax test n lo

/-- Adds `n` to a count that is held at `m`. -/
def satAdd (m c n : Nat) : Nat := min m (c + n)

/-- The smallest integer at least `a / b`. -/
def ceilDiv (a b : Nat) : Nat := (a + b - 1) / b

end Sys2Proof.Machine
end

