-- ==== Sys2Proof/Machine/Regs.lean ====
section
/-! DEFINITION. The register map: every register of BAR0 and BAR2 with its offset, its fields, their access codes
(Table SCO-3) and their reset values, as the register tables of the chapters and Tables REG-1..REG-12 give them.
BAR2 offset x is written 0x1000000 + x. A reset value that comes from fuses, Peat, pins or straps stands as 0 here
and is written by the step that samples it. -/
namespace Sys2Proof.Machine

/-- Access codes of Table SCO-3 (R9). -/
inductive Acc where
  | ro | rw | wo | w1c | rc | wt | hld
  deriving DecidableEq, Repr

/-- A register field: the register's absolute offset, its lowest bit and its width. -/
structure Fld where
  off : Nat
  lo : Nat
  w : Nat
  deriving DecidableEq, Repr

/-- A field of a register description. -/
structure FieldD where
  lo : Nat
  w : Nat
  acc : Acc
  reset : Nat
  deriving DecidableEq, Repr

/-- A register, or a regular array of registers: its name, the offset of the first, the strides and counts of its
indices, and its fields. Bits in no field are reserved (R8). -/
structure RegD where
  name : String
  base : Nat
  dims : List (Nat × Nat)
  fields : List FieldD
  deriving DecidableEq, Repr

/-- Whether distance `d` from the first register of an array falls on one of its registers. -/
def inDims : List (Nat × Nat) → Nat → Bool
  | [], d => d == 0
  | (st, n) :: l, d => decide (d / st < n) && inDims l (d % st)

/-- Whether the register at `off` is described by `r`. -/
def RegD.covers (r : RegD) (off : Nat) : Bool := decide (r.base ≤ off) && inDims r.dims (off - r.base)

/-- Registers of the region `glb`. -/
def glbRegs : List RegD := [
  ⟨"GLB_TICK_LO", 0x40, [], [⟨0, 32, .ro, 0x0⟩]⟩,
  ⟨"GLB_TICK_HI", 0x44, [], [⟨0, 32, .ro, 0x0⟩]⟩,
  ⟨"GLB_PM_ANCHOR_LO", 0x60, [], [⟨0, 32, .ro, 0x0⟩]⟩,
  ⟨"GLB_PM_ANCHOR_HI", 0x64, [], [⟨0, 32, .ro, 0x0⟩]⟩,
  ⟨"GLB_PM_STAT", 0x68, [], [⟨16, 16, .rc, 0x0⟩, ⟨0, 1, .ro, 0x0⟩]⟩,
  ⟨"GLB_PM_BACKLOG", 0x6c, [], [⟨0, 19, .ro, 0x0⟩]⟩,
  ⟨"GLB_ID", 0x0, [], [⟨16, 16, .ro, 0x0⟩, ⟨0, 16, .ro, 0x0⟩]⟩,
  ⟨"GLB_REV", 0x4, [], [⟨28, 4, .ro, 0x0⟩, ⟨16, 8, .ro, 0x0⟩]⟩,
  ⟨"GLB_GRADE", 0x8, [], [⟨8, 2, .ro, 0x0⟩, ⟨6, 2, .ro, 0x0⟩, ⟨0, 6, .ro, 0x0⟩]⟩,
  ⟨"GLB_FRD_EN_LO", 0xc, [], [⟨0, 32, .ro, 0x0⟩]⟩,
  ⟨"GLB_FRD_EN_HI", 0x10, [], [⟨0, 16, .ro, 0x0⟩]⟩,
  ⟨"GLB_FW_MGMT", 0x14, [], [⟨0, 32, .ro, 0x0⟩]⟩,
  ⟨"GLB_FW_LOOP", 0x18, [], [⟨0, 32, .ro, 0x0⟩]⟩,
  ⟨"GLB_FW_STAT", 0x1c, [], [⟨25, 1, .ro, 0x0⟩, ⟨24, 1, .ro, 0x0⟩, ⟨16, 8, .ro, 0x0⟩, ⟨8, 8, .ro, 0x0⟩, ⟨1, 1, .ro, 0x0⟩, ⟨0, 1, .ro, 0x0⟩]⟩,
  ⟨"GLB_SCRATCH", 0x20, [], [⟨0, 32, .rw, 0x0⟩]⟩,
  ⟨"GLB_CAP", 0x24, [], [⟨24, 5, .ro, 0x11⟩, ⟨16, 5, .ro, 0xe⟩, ⟨8, 5, .ro, 0xa⟩, ⟨0, 5, .ro, 0xc⟩]⟩,
  ⟨"GLB_ACC_ERR", 0x2c, [], [⟨24, 8, .ro, 0x0⟩, ⟨16, 1, .ro, 0x0⟩, ⟨0, 16, .rc, 0x0⟩]⟩,
  ⟨"GLB_SUMMARY", 0x28, [], [⟨16, 3, .ro, 0x0⟩, ⟨10, 2, .ro, 0x0⟩, ⟨7, 1, .ro, 0x0⟩, ⟨6, 1, .ro, 0x0⟩, ⟨5, 1, .ro, 0x0⟩, ⟨4, 1, .ro, 0x0⟩, ⟨0, 3, .ro, 0x1⟩]⟩]

/-- Registers of the region `host`. -/
def hostRegs : List RegD := [
  ⟨"HST_FN_CTL", 0x10000, [(0x100, 256)], [⟨4, 1, .wt, 0x0⟩, ⟨0, 4, .wt, 0x0⟩]⟩,
  ⟨"HST_FN_STAT", 0x10004, [(0x100, 256)], [⟨16, 13, .ro, 0x0⟩, ⟨12, 4, .w1c, 0x0⟩, ⟨11, 1, .w1c, 0x0⟩, ⟨10, 1, .w1c, 0x0⟩, ⟨9, 1, .w1c, 0x0⟩, ⟨8, 1, .w1c, 0x0⟩, ⟨2, 1, .w1c, 0x0⟩, ⟨1, 1, .w1c, 0x0⟩, ⟨0, 1, .w1c, 0x0⟩]⟩,
  ⟨"HST_FN_TENANT", 0x10008, [(0x100, 256)], [⟨16, 11, .rw, 0x0⟩, ⟨0, 10, .rw, 0x0⟩]⟩,
  ⟨"HST_IRQ_MOD", 0x1000c, [(0x100, 256)], [⟨0, 10, .rw, 0x1⟩]⟩,
  ⟨"HST_DB_ADDR_LO", 0x10010, [(0x100, 256)], [⟨6, 26, .rw, 0x0⟩]⟩,
  ⟨"HST_DB_ADDR_HI", 0x10014, [(0x100, 256)], [⟨0, 32, .rw, 0x0⟩]⟩,
  ⟨"HST_EQ_BASE_LO", 0x10018, [(0x100, 256)], [⟨12, 20, .rw, 0x0⟩]⟩,
  ⟨"HST_EQ_BASE_HI", 0x1001c, [(0x100, 256)], [⟨0, 32, .rw, 0x0⟩]⟩,
  ⟨"HST_EQ_CFG", 0x10020, [(0x100, 256)], [⟨0, 5, .rw, 0x4⟩]⟩,
  ⟨"HST_EQ_CNT", 0x10024, [(0x100, 256)], [⟨0, 32, .ro, 0x0⟩]⟩,
  ⟨"HST_EQ_LOST", 0x10028, [(0x100, 256)], [⟨0, 32, .rc, 0x0⟩]⟩,
  ⟨"HST_CR_BASE_LO", 0x10030, [(0x100, 256), (0x20, 4)], [⟨12, 20, .rw, 0x0⟩]⟩,
  ⟨"HST_CR_BASE_HI", 0x10034, [(0x100, 256), (0x20, 4)], [⟨0, 32, .rw, 0x0⟩]⟩,
  ⟨"HST_CQ_BASE_LO", 0x10038, [(0x100, 256), (0x20, 4)], [⟨12, 20, .rw, 0x0⟩]⟩,
  ⟨"HST_CQ_BASE_HI", 0x1003c, [(0x100, 256), (0x20, 4)], [⟨0, 32, .rw, 0x0⟩]⟩,
  ⟨"HST_RING_CFG", 0x10040, [(0x100, 256), (0x20, 4)], [⟨0, 5, .rw, 0x4⟩]⟩,
  ⟨"HST_CR_FETCHED", 0x10044, [(0x100, 256), (0x20, 4)], [⟨0, 32, .ro, 0x0⟩]⟩,
  ⟨"HST_CQ_WRITTEN", 0x10048, [(0x100, 256), (0x20, 4)], [⟨0, 32, .ro, 0x0⟩]⟩]

/-- Registers of the region `mailbox`. -/
def mailboxRegs : List RegD := [
  ⟨"MBX_IN_D", 0x20000, [(0x100, 8), (0x4, 16)], [⟨0, 32, .wo, 0x0⟩]⟩,
  ⟨"MBX_OUT_D", 0x20040, [(0x100, 8), (0x4, 16)], [⟨0, 32, .ro, 0x0⟩]⟩,
  ⟨"MBX_STAT", 0x20080, [(0x100, 8)], [⟨20, 4, .ro, 0x0⟩, ⟨16, 4, .ro, 0x0⟩, ⟨8, 1, .ro, 0x0⟩, ⟨0, 7, .ro, 0x0⟩]⟩,
  ⟨"MBX_INSTAT", 0x20084, [(0x100, 8)], [⟨2, 1, .w1c, 0x0⟩, ⟨1, 1, .ro, 0x0⟩, ⟨0, 1, .ro, 0x0⟩]⟩,
  ⟨"MBX_CTL", 0x20088, [(0x100, 8)], [⟨2, 1, .rw, 0x0⟩, ⟨1, 1, .rw, 0x0⟩, ⟨0, 1, .rw, 0x1⟩]⟩,
  ⟨"MBX_CNT", 0x2008c, [(0x100, 8)], [⟨16, 16, .rc, 0x0⟩, ⟨0, 16, .rc, 0x0⟩]⟩,
  ⟨"MBX_SUMMARY", 0x20800, [], [⟨8, 8, .ro, 0x0⟩, ⟨0, 8, .ro, 0x0⟩]⟩]

/-- Registers of the region `bar2`. -/
def bar2Regs : List RegD := [
  ⟨"MBXS_IN_D", 0x1000000, [(0x100, 2), (0x4, 16)], [⟨0, 32, .wo, 0x0⟩]⟩,
  ⟨"MBXS_OUT_D", 0x1000040, [(0x100, 2), (0x4, 16)], [⟨0, 32, .ro, 0x0⟩]⟩,
  ⟨"MBXS_STAT", 0x1000080, [(0x100, 2)], [⟨20, 4, .ro, 0x0⟩, ⟨16, 4, .ro, 0x0⟩, ⟨8, 1, .ro, 0x0⟩, ⟨0, 7, .ro, 0x0⟩]⟩,
  ⟨"MBXS_INSTAT", 0x1000084, [(0x100, 2)], [⟨2, 1, .w1c, 0x0⟩, ⟨1, 1, .ro, 0x0⟩, ⟨0, 1, .ro, 0x0⟩]⟩,
  ⟨"MBXS_CTL", 0x1000088, [(0x100, 2)], [⟨2, 1, .rw, 0x0⟩, ⟨1, 1, .rw, 0x0⟩, ⟨0, 1, .rw, 0x1⟩]⟩,
  ⟨"MBXS_CNT", 0x100008c, [(0x100, 2)], [⟨16, 16, .rc, 0x0⟩, ⟨0, 16, .rc, 0x0⟩]⟩,
  ⟨"SEC_KE_KEY", 0x1001000, [(0x4, 8)], [⟨0, 32, .wo, 0x0⟩]⟩,
  ⟨"SEC_KE_IN", 0x1001020, [(0x4, 4)], [⟨0, 32, .wo, 0x0⟩]⟩,
  ⟨"SEC_KE_OUT", 0x1001030, [(0x4, 4)], [⟨0, 32, .ro, 0x0⟩]⟩,
  ⟨"SEC_KE_CV", 0x1001040, [(0x4, 4)], [⟨0, 32, .rw, 0x0⟩]⟩,
  ⟨"SEC_KE_CMD", 0x1001050, [], [⟨0, 3, .wo, 0x0⟩]⟩,
  ⟨"SEC_KE_STAT", 0x1001054, [], [⟨8, 4, .ro, 0x0⟩, ⟨1, 1, .ro, 0x0⟩, ⟨0, 1, .ro, 0x0⟩]⟩,
  ⟨"SEC_KE_CTX", 0x1001080, [(0x4, 16)], [⟨0, 32, .rw, 0x0⟩]⟩,
  ⟨"SEC_STATE", 0x1002000, [], [⟨8, 2, .ro, 0x0⟩, ⟨4, 1, .ro, 0x0⟩, ⟨0, 4, .ro, 0x0⟩]⟩,
  ⟨"SEC_ENT_STAT", 0x1002004, [], [⟨16, 16, .rc, 0x0⟩, ⟨0, 2, .ro, 0x0⟩]⟩,
  ⟨"SEC_HOLD_STAT", 0x1002008, [], [⟨16, 16, .rc, 0x0⟩, ⟨0, 6, .ro, 0x0⟩]⟩,
  ⟨"SEC_DENIED", 0x100200c, [], [⟨0, 32, .rc, 0x0⟩]⟩]

/-- Registers of the region `timing`. -/
def timingRegs : List RegD := [
  ⟨"TIM_DPLL_STAT", 0x30000, [(0x10, 4)], [⟨31, 1, .ro, 0x0⟩, ⟨30, 1, .ro, 0x0⟩, ⟨24, 2, .ro, 0x0⟩, ⟨16, 7, .ro, 0x7f⟩, ⟨12, 4, .ro, 0x0⟩, ⟨0, 2, .ro, 0x0⟩]⟩,
  ⟨"TIM_DPLL_FOFS", 0x30004, [(0x10, 4)], [⟨0, 32, .ro, 0x0⟩]⟩,
  ⟨"TIM_DPLL_HOTIME", 0x30008, [(0x10, 4)], [⟨0, 32, .ro, 0x0⟩]⟩,
  ⟨"TIM_DPLL_PHERR", 0x3000c, [(0x10, 4)], [⟨0, 32, .ro, 0x0⟩]⟩,
  ⟨"TIM_PRES", 0x30040, [(0x4, 3)], [⟨0, 32, .ro, 0x0⟩]⟩,
  ⟨"TIM_QUAL", 0x30050, [(0x4, 3)], [⟨0, 32, .ro, 0x0⟩]⟩,
  ⟨"TIM_PPS_EDGE_LO", 0x30060, [(0x10, 2)], [⟨0, 32, .ro, 0x0⟩]⟩,
  ⟨"TIM_PPS_EDGE_HI", 0x30064, [(0x10, 2)], [⟨0, 32, .ro, 0x0⟩]⟩,
  ⟨"TIM_PPS_POS", 0x30068, [(0x10, 2)], [⟨31, 1, .ro, 0x0⟩, ⟨0, 14, .ro, 0x0⟩]⟩,
  ⟨"TIM_TOD_STAT", 0x30080, [], [⟨16, 16, .rc, 0x0⟩, ⟨2, 1, .ro, 0x0⟩, ⟨0, 2, .ro, 0x3⟩]⟩,
  ⟨"TIM_TWIN", 0x30090, [], [⟨30, 2, .ro, 0x0⟩, ⟨29, 1, .ro, 0x0⟩, ⟨0, 16, .ro, 0x0⟩]⟩,
  ⟨"TIM_PPSOUT", 0x300a0, [], [⟨31, 1, .ro, 0x0⟩, ⟨0, 18, .ro, 0x0⟩]⟩]

/-- Registers of the region `mesh`. -/
def meshRegs : List RegD := [
  ⟨"MSH_STAT", 0x40000, [], [⟨29, 3, .ro, 0x0⟩, ⟨12, 12, .ro, 0x0⟩, ⟨0, 12, .ro, 0x0⟩]⟩,
  ⟨"MSH_UID_LO", 0x40004, [], [⟨0, 32, .ro, 0x0⟩]⟩,
  ⟨"MSH_UID_HI", 0x40008, [], [⟨0, 32, .ro, 0x0⟩]⟩,
  ⟨"MSH_CNT", 0x4000c, [], [⟨24, 8, .rc, 0x0⟩, ⟨16, 8, .rc, 0x0⟩, ⟨8, 8, .rc, 0x0⟩, ⟨0, 8, .rc, 0x0⟩]⟩,
  ⟨"MSH_PORT_STAT", 0x40010, [(0x10, 6)], [⟨20, 12, .ro, 0x0⟩, ⟨12, 8, .ro, 0x0⟩, ⟨8, 4, .ro, 0x0⟩, ⟨4, 4, .ro, 0x0⟩, ⟨2, 1, .ro, 0x0⟩, ⟨1, 1, .ro, 0x0⟩, ⟨0, 1, .ro, 0x1⟩]⟩,
  ⟨"MSH_PORT_ERR", 0x40014, [(0x10, 6)], [⟨16, 16, .rc, 0x0⟩, ⟨8, 8, .rc, 0x0⟩, ⟨0, 8, .rc, 0x0⟩]⟩,
  ⟨"MSH_PORT_MSG", 0x40018, [(0x10, 6)], [⟨16, 16, .rc, 0x0⟩, ⟨0, 16, .rc, 0x0⟩]⟩]

/-- Registers of the region `power`. -/
def powerRegs : List RegD := [
  ⟨"PWR_FSTAT_A", 0x50000, [(0x4, 4)], [⟨3, 1, .ro, 0x0⟩, ⟨7, 1, .ro, 0x0⟩, ⟨11, 1, .ro, 0x0⟩, ⟨15, 1, .ro, 0x0⟩, ⟨19, 1, .ro, 0x0⟩, ⟨23, 1, .ro, 0x0⟩, ⟨27, 1, .ro, 0x0⟩, ⟨31, 1, .ro, 0x0⟩, ⟨0, 3, .ro, 0x0⟩, ⟨4, 3, .ro, 0x0⟩, ⟨8, 3, .ro, 0x0⟩, ⟨12, 3, .ro, 0x0⟩, ⟨16, 3, .ro, 0x0⟩, ⟨20, 3, .ro, 0x0⟩, ⟨24, 3, .ro, 0x0⟩, ⟨28, 3, .ro, 0x0⟩]⟩,
  ⟨"PWR_FSTAT_B", 0x50018, [(0x4, 2)], [⟨3, 1, .ro, 0x0⟩, ⟨7, 1, .ro, 0x0⟩, ⟨11, 1, .ro, 0x0⟩, ⟨15, 1, .ro, 0x0⟩, ⟨19, 1, .ro, 0x0⟩, ⟨23, 1, .ro, 0x0⟩, ⟨27, 1, .ro, 0x0⟩, ⟨31, 1, .ro, 0x0⟩, ⟨0, 3, .ro, 0x0⟩, ⟨4, 3, .ro, 0x0⟩, ⟨8, 3, .ro, 0x0⟩, ⟨12, 3, .ro, 0x0⟩, ⟨16, 3, .ro, 0x0⟩, ⟨20, 3, .ro, 0x0⟩, ⟨24, 3, .ro, 0x0⟩, ⟨28, 3, .ro, 0x0⟩]⟩,
  ⟨"PWR_MSTAT", 0x50010, [], [⟨24, 8, .ro, 0x0⟩, ⟨16, 8, .ro, 0x0⟩, ⟨9, 1, .ro, 0x0⟩, ⟨8, 1, .ro, 0x0⟩, ⟨4, 1, .ro, 0x0⟩, ⟨0, 2, .ro, 0x0⟩]⟩,
  ⟨"PWR_CNT", 0x50014, [], [⟨16, 16, .rc, 0x0⟩, ⟨0, 16, .rc, 0x0⟩]⟩,
  ⟨"PWR_AVS", 0x50020, [(0x4, 8)], [⟨16, 11, .ro, 0x0⟩, ⟨0, 11, .ro, 0x28a⟩]⟩,
  ⟨"PWR_THERM", 0x50040, [], [⟨8, 8, .ro, 0x78⟩, ⟨0, 8, .ro, 0x6e⟩]⟩,
  ⟨"PWR_SHED", 0x50044, [(0x4, 2)], [⟨0, 32, .ro, 0x0⟩]⟩,
  ⟨"PWR_SHEDACT", 0x50060, [(0x4, 2)], [⟨0, 32, .ro, 0x0⟩]⟩,
  ⟨"PWR_CAP", 0x50068, [(0x4, 6)], [⟨0, 2, .ro, 0x0⟩, ⟨4, 2, .ro, 0x0⟩, ⟨8, 2, .ro, 0x0⟩, ⟨12, 2, .ro, 0x0⟩, ⟨16, 2, .ro, 0x0⟩, ⟨20, 2, .ro, 0x0⟩, ⟨24, 2, .ro, 0x0⟩, ⟨28, 2, .ro, 0x0⟩]⟩,
  ⟨"PWR_LT", 0x50100, [(0x4, 48)], [⟨0, 32, .ro, 0x0⟩]⟩]

/-- Registers of the region `boot`. -/
def bootRegs : List RegD := [
  ⟨"RST_STRAP", 0x60000, [], [⟨10, 2, .ro, 0x0⟩, ⟨8, 2, .ro, 0x0⟩, ⟨2, 2, .ro, 0x0⟩, ⟨0, 2, .ro, 0x0⟩]⟩,
  ⟨"RST_BOOT_STAT", 0x60004, [], [⟨4, 4, .ro, 0x0⟩, ⟨0, 3, .ro, 0x1⟩]⟩,
  ⟨"RST_BOOT_REPORT", 0x60008, [], [⟨16, 16, .ro, 0xffff⟩, ⟨10, 6, .ro, 0x0⟩, ⟨9, 1, .ro, 0x0⟩, ⟨8, 1, .ro, 0x0⟩, ⟨7, 1, .ro, 0x0⟩, ⟨6, 1, .ro, 0x0⟩, ⟨4, 2, .ro, 0x0⟩, ⟨0, 3, .ro, 0x0⟩]⟩,
  ⟨"RST_CAUSE", 0x6000c, [], [⟨0, 3, .ro, 0x0⟩]⟩,
  ⟨"RST_CTL", 0x60010, [], [⟨16, 16, .wo, 0x0⟩, ⟨0, 1, .wo, 0x0⟩]⟩,
  ⟨"RST_BLOCK", 0x60014, [], [⟨0, 12, .wt, 0x0⟩]⟩,
  ⟨"RST_BLK_STAT", 0x60018, [], [⟨30, 2, .ro, 0x0⟩, ⟨0, 12, .ro, 0x0⟩]⟩,
  ⟨"RST_ISO_CNT", 0x6001c, [], [⟨0, 32, .rc, 0x0⟩]⟩,
  ⟨"RST_LOAD_ADDR_LO", 0x60020, [], [⟨12, 20, .rw, 0x0⟩]⟩,
  ⟨"RST_LOAD_ADDR_HI", 0x60024, [], [⟨0, 32, .rw, 0x0⟩]⟩,
  ⟨"RST_LOAD_LEN", 0x60028, [], [⟨0, 27, .rw, 0x0⟩]⟩,
  ⟨"RST_LOAD_CTL", 0x6002c, [], [⟨8, 4, .ro, 0x0⟩, ⟨4, 2, .rw, 0x0⟩, ⟨0, 1, .wo, 0x0⟩]⟩]

/-- Registers of the region `peat`. -/
def peatRegs : List RegD := [
  ⟨"PEAT_CAL_DATE", 0x70000, [], [⟨16, 16, .ro, 0x0⟩, ⟨8, 8, .ro, 0x0⟩, ⟨0, 8, .ro, 0x0⟩]⟩,
  ⟨"PEAT_CAL_TIME", 0x70004, [], [⟨16, 8, .ro, 0x0⟩, ⟨8, 8, .ro, 0x0⟩, ⟨0, 8, .ro, 0x0⟩]⟩,
  ⟨"PEAT_CAL_SUB", 0x70008, [], [⟨0, 15, .ro, 0x0⟩]⟩,
  ⟨"PEAT_CAL_STAT", 0x7000c, [], [⟨31, 1, .ro, 0x0⟩, ⟨30, 1, .ro, 0x0⟩, ⟨8, 3, .ro, 0x0⟩, ⟨4, 4, .ro, 0x0⟩]⟩,
  ⟨"PEAT_CAL_SETDATE", 0x70010, [], [⟨0, 32, .rw, 0x7d00101⟩]⟩,
  ⟨"PEAT_CAL_SETTIME", 0x70014, [], [⟨0, 32, .rw, 0x0⟩]⟩,
  ⟨"PEAT_CAL_CMD", 0x70018, [], [⟨0, 1, .wt, 0x0⟩]⟩,
  ⟨"PEAT_ESEC_LO", 0x70020, [], [⟨0, 32, .ro, 0x0⟩]⟩,
  ⟨"PEAT_ESEC_HI", 0x70024, [], [⟨0, 32, .ro, 0x0⟩]⟩,
  ⟨"PEAT_EPOCH_LO", 0x70028, [], [⟨0, 32, .ro, 0x0⟩]⟩,
  ⟨"PEAT_EPOCH_HI", 0x7002c, [], [⟨0, 32, .ro, 0x0⟩]⟩,
  ⟨"PEAT_EPOCH_NEW_LO", 0x70030, [], [⟨0, 32, .rw, 0x0⟩]⟩,
  ⟨"PEAT_EPOCH_NEW_HI", 0x70034, [], [⟨0, 32, .rw, 0x0⟩]⟩,
  ⟨"PEAT_EPOCH_CMD", 0x70038, [], [⟨0, 1, .wt, 0x0⟩]⟩,
  ⟨"PEAT_CNT_SEL", 0x70040, [], [⟨0, 8, .rw, 0x0⟩]⟩,
  ⟨"PEAT_CNT_VAL", 0x70044, [], [⟨0, 32, .ro, 0x0⟩]⟩,
  ⟨"PEAT_LS_ADDR", 0x70048, [], [⟨2, 14, .rw, 0x0⟩]⟩,
  ⟨"PEAT_LS_DATA", 0x7004c, [], [⟨0, 32, .ro, 0x0⟩]⟩,
  ⟨"PEAT_STAT", 0x70050, [], [⟨8, 8, .ro, 0x0⟩, ⟨4, 1, .w1c, 0x0⟩, ⟨3, 1, .w1c, 0x0⟩, ⟨2, 1, .w1c, 0x0⟩, ⟨1, 1, .w1c, 0x0⟩]⟩]

/-- Registers of the region `fault`. -/
def faultRegs : List RegD := [
  ⟨"FLT_STAT", 0x80000, [], [⟨7, 1, .ro, 0x0⟩, ⟨6, 1, .ro, 0x0⟩, ⟨5, 1, .ro, 0x0⟩, ⟨4, 1, .ro, 0x0⟩, ⟨3, 1, .ro, 0x0⟩, ⟨2, 1, .ro, 0x0⟩, ⟨1, 1, .ro, 0x0⟩, ⟨0, 1, .ro, 0x0⟩]⟩,
  ⟨"FLT_LOG_WR", 0x80004, [], [⟨0, 32, .ro, 0x0⟩]⟩,
  ⟨"FLT_CNT", 0x80008, [], [⟨16, 16, .rc, 0x0⟩, ⟨0, 16, .rc, 0x0⟩]⟩,
  ⟨"FLT_LATCH", 0x80010, [(0x4, 4)], [⟨0, 32, .ro, 0x0⟩]⟩]

/-- Registers of the region `monitor`. -/
def monitorRegs : List RegD := [
  ⟨"MON_STAT", 0x90000, [], [⟨16, 8, .ro, 0x0⟩, ⟨8, 1, .ro, 0x0⟩, ⟨0, 8, .ro, 0x0⟩]⟩,
  ⟨"MON_CNT", 0x90004, [], [⟨16, 16, .rc, 0x0⟩, ⟨0, 16, .rc, 0x0⟩]⟩,
  ⟨"MON_TEST_RES", 0x90008, [], [⟨31, 1, .ro, 0x0⟩, ⟨30, 1, .ro, 0x0⟩, ⟨16, 12, .ro, 0x0⟩, ⟨0, 10, .ro, 0x0⟩]⟩,
  ⟨"MON_LIMSTAT", 0x90010, [(0x4, 8)], [⟨0, 32, .ro, 0x0⟩]⟩,
  ⟨"MON_RES", 0x90400, [(0x4, 256)], [⟨31, 1, .ro, 0x0⟩, ⟨30, 1, .ro, 0x0⟩, ⟨29, 1, .ro, 0x0⟩, ⟨16, 12, .ro, 0x0⟩, ⟨0, 16, .ro, 0x0⟩]⟩]

/-- Registers of the region `memInt`. -/
def memIntRegs : List RegD := [
  ⟨"MEM_STAT", 0xa0000, [], [⟨31, 1, .ro, 0x0⟩, ⟨30, 1, .ro, 0x0⟩, ⟨0, 9, .ro, 0x0⟩]⟩,
  ⟨"MEM_CTL", 0xa0004, [], [⟨0, 1, .wt, 0x1⟩]⟩,
  ⟨"MEM_CE", 0xa0008, [], [⟨16, 16, .rc, 0x0⟩, ⟨0, 16, .rc, 0x0⟩]⟩,
  ⟨"MEM_UE", 0xa000c, [], [⟨16, 16, .rc, 0x0⟩, ⟨0, 16, .rc, 0x0⟩]⟩,
  ⟨"MEM_LAST_LO", 0xa0010, [], [⟨0, 32, .ro, 0x0⟩]⟩,
  ⟨"MEM_LAST_HI", 0xa0014, [], [⟨30, 2, .ro, 0x0⟩, ⟨0, 8, .ro, 0x0⟩]⟩]

/-- Registers of the region `calib`. -/
def calibRegs : List RegD := [
  ⟨"CAL_TONE", 0xb0000, [], [⟨31, 1, .ro, 0x0⟩, ⟨0, 26, .rw, 0x0⟩]⟩,
  ⟨"CAL_INPUT", 0xb0004, [], [⟨16, 16, .ro, 0x8000⟩, ⟨0, 16, .ro, 0x0⟩]⟩,
  ⟨"CAL_FSTAT", 0xb0010, [(0x4, 6)], [⟨3, 1, .ro, 0x0⟩, ⟨7, 1, .ro, 0x0⟩, ⟨11, 1, .ro, 0x0⟩, ⟨15, 1, .ro, 0x0⟩, ⟨19, 1, .ro, 0x0⟩, ⟨23, 1, .ro, 0x0⟩, ⟨27, 1, .ro, 0x0⟩, ⟨31, 1, .ro, 0x0⟩, ⟨0, 3, .ro, 0x0⟩, ⟨4, 3, .ro, 0x0⟩, ⟨8, 3, .ro, 0x0⟩, ⟨12, 3, .ro, 0x0⟩, ⟨16, 3, .ro, 0x0⟩, ⟨20, 3, .ro, 0x0⟩, ⟨24, 3, .ro, 0x0⟩, ⟨28, 3, .ro, 0x0⟩]⟩,
  ⟨"CAL_RESULT", 0xb0040, [(0x4, 48)], [⟨28, 4, .ro, 0xe⟩, ⟨24, 2, .ro, 0x0⟩, ⟨0, 10, .ro, 0x0⟩]⟩,
  ⟨"CAL_GEN", 0xb0100, [(0x4, 48)], [⟨0, 32, .ro, 0x0⟩]⟩]

/-- Registers of the region `xc`. -/
def xcRegs : List RegD := [
  ⟨"XC_EP_USED", 0xc0000, [], [⟨0, 18, .ro, 0x0⟩]⟩,
  ⟨"XC_GRAN", 0xc0004, [], [⟨16, 14, .ro, 0x2000⟩, ⟨0, 14, .ro, 0x0⟩]⟩,
  ⟨"XC_UNITS", 0xc0008, [], [⟨0, 17, .ro, 0x0⟩]⟩,
  ⟨"XC_QUOTA_STAT", 0xc000c, [], [⟨31, 1, .ro, 0x0⟩, ⟨0, 10, .ro, 0x0⟩]⟩]

/-- Registers of the region `cry`. -/
def cryRegs : List RegD := [
  ⟨"CRY_SA_USED", 0xd0000, [], [⟨0, 15, .ro, 0x0⟩]⟩,
  ⟨"CRY_SA_STAT", 0xd0004, [], [⟨16, 15, .ro, 0x0⟩, ⟨0, 15, .ro, 0x0⟩]⟩,
  ⟨"CRY_EVT", 0xd0008, [], [⟨16, 16, .rc, 0x0⟩, ⟨0, 16, .rc, 0x0⟩]⟩]

/-- Registers of the region `client`. -/
def clientRegs : List RegD := [
  ⟨"CLT_LANE_CTL", 0xe0000, [(0x10, 288)], [⟨2, 1, .wt, 0x0⟩, ⟨1, 1, .wt, 0x0⟩, ⟨0, 1, .wt, 0x0⟩]⟩,
  ⟨"CLT_LANE_EQ", 0xe0004, [(0x10, 288)], [⟨31, 1, .ro, 0x0⟩, ⟨16, 4, .wt, 0x0⟩, ⟨8, 6, .wt, 0x0⟩, ⟨0, 5, .wt, 0x0⟩]⟩,
  ⟨"CLT_LANE_STAT", 0xe0008, [(0x10, 288)], [⟨23, 9, .ro, 0x1ff⟩, ⟨18, 2, .ro, 0x0⟩, ⟨3, 1, .ro, 0x0⟩, ⟨1, 1, .ro, 0x0⟩, ⟨0, 1, .ro, 0x0⟩]⟩,
  ⟨"CLT_LANE_SER", 0xe000c, [(0x10, 288)], [⟨0, 32, .rc, 0x0⟩]⟩,
  ⟨"CLT_PORT_STAT", 0xe4000, [(0x10, 288)], [⟨28, 4, .ro, 0x0⟩, ⟨22, 6, .ro, 0x0⟩, ⟨16, 6, .ro, 0x0⟩, ⟨14, 2, .ro, 0x0⟩, ⟨11, 3, .ro, 0x0⟩, ⟨7, 1, .ro, 0x0⟩, ⟨6, 1, .ro, 0x0⟩, ⟨5, 1, .ro, 0x0⟩, ⟨4, 1, .ro, 0x0⟩, ⟨3, 1, .ro, 0x0⟩, ⟨2, 1, .ro, 0x0⟩, ⟨1, 1, .ro, 0x0⟩, ⟨0, 1, .ro, 0x0⟩]⟩,
  ⟨"CLT_PORT_UNC", 0xe4004, [(0x10, 288)], [⟨0, 32, .rc, 0x0⟩]⟩,
  ⟨"CLT_PORT_CW", 0xe4008, [(0x10, 288)], [⟨0, 32, .rc, 0x0⟩]⟩,
  ⟨"CLT_PORT_ADAPT", 0xe400c, [(0x10, 288)], [⟨24, 8, .rc, 0x0⟩, ⟨12, 12, .rc, 0x0⟩, ⟨0, 12, .rc, 0x0⟩]⟩]

/-- Registers of the region `frond`. -/
def frondRegs : List RegD := [
  ⟨"FRD_ID", 0x100000, [(0x10000, 48)], [⟨16, 3, .ro, 0x0⟩, ⟨9, 1, .ro, 0x0⟩, ⟨8, 1, .ro, 0x1⟩, ⟨0, 6, .ro, 0x0⟩]⟩,
  ⟨"FRD_CRYGATE", 0x100004, [(0x10000, 48)], [⟨1, 1, .ro, 0x0⟩, ⟨0, 1, .hld, 0x0⟩]⟩,
  ⟨"FRD_RX_CTL", 0x100100, [(0x10000, 48)], [⟨4, 2, .ro, 0x0⟩, ⟨0, 1, .wt, 0x0⟩]⟩,
  ⟨"FRD_RX_PHD", 0x100110, [(0x10000, 48), (0x4, 4)], [⟨31, 1, .ro, 0x0⟩, ⟨16, 14, .ro, 0x0⟩, ⟨0, 14, .wt, 0x0⟩]⟩,
  ⟨"FRD_RX_FIRSTAT", 0x100120, [(0x10000, 48)], [⟨16, 16, .ro, 0x0⟩, ⟨1, 1, .ro, 0x0⟩, ⟨0, 1, .ro, 0x0⟩]⟩,
  ⟨"FRD_RX_SATFLG", 0x100124, [(0x10000, 48)], [⟨9, 1, .w1c, 0x0⟩, ⟨8, 1, .w1c, 0x0⟩, ⟨7, 1, .w1c, 0x0⟩, ⟨6, 1, .w1c, 0x0⟩, ⟨5, 1, .w1c, 0x0⟩, ⟨4, 1, .w1c, 0x0⟩, ⟨3, 1, .w1c, 0x0⟩, ⟨2, 1, .w1c, 0x0⟩, ⟨1, 1, .w1c, 0x0⟩, ⟨0, 1, .w1c, 0x0⟩]⟩,
  ⟨"FRD_RX_TIA", 0x100128, [(0x10000, 48)], [⟨24, 5, .ro, 0x0⟩, ⟨16, 5, .ro, 0x0⟩, ⟨8, 5, .ro, 0x0⟩, ⟨0, 5, .ro, 0x0⟩]⟩,
  ⟨"FRD_RX_ROT", 0x10012c, [(0x10000, 48)], [⟨0, 32, .ro, 0x0⟩]⟩,
  ⟨"FRD_ACQ_CTL", 0x100200, [(0x10000, 48)], [⟨16, 4, .wt, 0x8⟩, ⟨8, 6, .wt, 0x20⟩, ⟨3, 1, .wt, 0x1⟩, ⟨2, 1, .wt, 0x1⟩, ⟨0, 1, .wt, 0x0⟩]⟩,
  ⟨"FRD_ACQ_STAT", 0x100204, [(0x10000, 48)], [⟨20, 4, .ro, 0x0⟩, ⟨16, 2, .ro, 0x0⟩, ⟨8, 1, .ro, 0x0⟩, ⟨0, 3, .ro, 0x0⟩]⟩,
  ⟨"FRD_ACQ_LOSS", 0x100208, [(0x10000, 48)], [⟨24, 8, .rc, 0x0⟩, ⟨16, 8, .rc, 0x0⟩, ⟨8, 8, .rc, 0x0⟩, ⟨0, 8, .rc, 0x0⟩]⟩,
  ⟨"FRD_ACQ_LAST", 0x10020c, [(0x10000, 48)], [⟨31, 1, .ro, 0x0⟩, ⟨0, 31, .ro, 0x0⟩]⟩,
  ⟨"FRD_EQ_CTL", 0x100300, [(0x10000, 48)], [⟨23, 1, .wt, 0x0⟩, ⟨16, 4, .wt, 0xa⟩, ⟨12, 2, .wt, 0x2⟩, ⟨8, 2, .wt, 0x3⟩, ⟨4, 2, .wt, 0x0⟩]⟩,
  ⟨"FRD_EQ_CD", 0x100304, [(0x10000, 48)], [⟨0, 19, .wt, 0x0⟩]⟩,
  ⟨"FRD_EQ_SLOPE", 0x100308, [(0x10000, 48)], [⟨0, 12, .wt, 0x0⟩]⟩,
  ⟨"FRD_EQ_CD_STAT", 0x10030c, [(0x10000, 48)], [⟨31, 1, .ro, 0x0⟩, ⟨0, 19, .ro, 0x0⟩]⟩,
  ⟨"FRD_EQ_CD_EST", 0x100310, [(0x10000, 48)], [⟨31, 1, .ro, 0x0⟩, ⟨0, 19, .ro, 0x0⟩]⟩,
  ⟨"FRD_EQ_STAT", 0x100314, [(0x10000, 48)], [⟨24, 2, .ro, 0x0⟩, ⟨16, 1, .ro, 0x0⟩, ⟨0, 9, .ro, 0x0⟩]⟩,
  ⟨"FRD_EQ_FOFS", 0x100318, [(0x10000, 48)], [⟨0, 32, .ro, 0x0⟩]⟩,
  ⟨"FRD_EQ_PMD", 0x10031c, [(0x10000, 48)], [⟨8, 12, .ro, 0x0⟩, ⟨0, 8, .ro, 0x0⟩]⟩,
  ⟨"FRD_EQ_SLIP", 0x100320, [(0x10000, 48)], [⟨0, 16, .rc, 0x0⟩]⟩,
  ⟨"FRD_EQ_GEN_SEC_LO", 0x100324, [(0x10000, 48)], [⟨0, 32, .ro, 0x0⟩]⟩,
  ⟨"FRD_EQ_GEN_SEC_HI", 0x100328, [(0x10000, 48)], [⟨0, 32, .ro, 0x0⟩]⟩,
  ⟨"FRD_EQ_GEN_TEMP", 0x10032c, [(0x10000, 48)], [⟨16, 16, .ro, 0x0⟩, ⟨0, 10, .ro, 0x0⟩]⟩,
  ⟨"FRD_EQ_SNR", 0x100340, [(0x10000, 48), (0x4, 16)], [⟨31, 1, .ro, 0x0⟩, ⟨16, 12, .ro, 0x0⟩, ⟨15, 1, .ro, 0x0⟩, ⟨0, 12, .ro, 0x0⟩]⟩,
  ⟨"FRD_LD_CTL", 0x100400, [(0x10000, 48)], [⟨24, 8, .wt, 0x10⟩, ⟨16, 8, .wt, 0x20⟩, ⟨10, 6, .wt, 0x30⟩, ⟨6, 4, .wt, 0x4⟩, ⟨1, 1, .wt, 0x1⟩, ⟨0, 1, .wt, 0x1⟩]⟩,
  ⟨"FRD_LD_LIMIT", 0x100404, [(0x10000, 48)], [⟨16, 7, .wt, 0x70⟩, ⟨8, 7, .wt, 0x20⟩, ⟨0, 6, .wt, 0x10⟩]⟩,
  ⟨"FRD_LD_STAT", 0x100408, [(0x10000, 48)], [⟨28, 4, .ro, 0x0⟩, ⟨24, 4, .ro, 0x0⟩, ⟨23, 1, .ro, 0x0⟩, ⟨15, 8, .ro, 0x0⟩, ⟨12, 3, .ro, 0x0⟩, ⟨9, 3, .ro, 0x0⟩, ⟨5, 4, .ro, 0x0⟩, ⟨4, 1, .ro, 0x0⟩]⟩,
  ⟨"FRD_LD_SUM", 0x10040c, [(0x10000, 48)], [⟨16, 6, .ro, 0x0⟩, ⟨0, 12, .ro, 0x0⟩]⟩,
  ⟨"FRD_LD_CNT", 0x100410, [(0x10000, 48)], [⟨24, 8, .rc, 0x0⟩, ⟨16, 8, .rc, 0x0⟩, ⟨8, 8, .rc, 0x0⟩, ⟨0, 8, .rc, 0x0⟩]⟩,
  ⟨"FRD_SC_PLAN", 0x100414, [(0x10000, 48)], [⟨26, 6, .ro, 0x0⟩, ⟨21, 5, .ro, 0x0⟩, ⟨15, 6, .ro, 0x0⟩, ⟨0, 12, .ro, 0x0⟩]⟩,
  ⟨"FRD_TX_CTL", 0x100500, [(0x10000, 48)], [⟨16, 8, .wt, 0x0⟩, ⟨8, 8, .wt, 0x0⟩, ⟨1, 1, .wt, 0x0⟩, ⟨0, 1, .wt, 0x0⟩]⟩,
  ⟨"FRD_TX_PRECD", 0x100504, [(0x10000, 48)], [⟨0, 17, .wt, 0x0⟩]⟩,
  ⟨"FRD_TX_SKEW", 0x100510, [(0x10000, 48), (0x4, 4)], [⟨31, 1, .ro, 0x0⟩, ⟨16, 14, .ro, 0x0⟩, ⟨0, 14, .wt, 0x0⟩]⟩,
  ⟨"FRD_TX_STAT", 0x100520, [(0x10000, 48)], [⟨16, 16, .ro, 0x0⟩, ⟨8, 8, .ro, 0x80⟩, ⟨3, 1, .ro, 0x0⟩, ⟨2, 1, .ro, 0x0⟩, ⟨1, 1, .ro, 0x1⟩, ⟨0, 1, .w1c, 0x0⟩]⟩,
  ⟨"FRD_FEC_CTL", 0x100600, [(0x10000, 48)], [⟨16, 10, .wt, 0x370⟩, ⟨0, 6, .wt, 0x20⟩]⟩,
  ⟨"FRD_FEC_STAT", 0x100604, [(0x10000, 48)], [⟨31, 1, .ro, 0x0⟩, ⟨16, 10, .ro, 0x0⟩, ⟨0, 11, .ro, 0x0⟩]⟩,
  ⟨"FRD_FEC_ITER", 0x100608, [(0x10000, 48)], [⟨18, 14, .ro, 0x0⟩, ⟨12, 6, .ro, 0x0⟩, ⟨0, 12, .ro, 0x0⟩]⟩,
  ⟨"FRD_FEC_EVT", 0x10060c, [(0x10000, 48)], [⟨16, 16, .rc, 0x0⟩, ⟨0, 16, .rc, 0x0⟩]⟩,
  ⟨"FRD_FEC_CNT_LO", 0x100610, [(0x10000, 48), (0x8, 7)], [⟨0, 32, .ro, 0x0⟩]⟩,
  ⟨"FRD_FEC_CNT_HI", 0x100614, [(0x10000, 48), (0x8, 7)], [⟨0, 32, .ro, 0x0⟩]⟩,
  ⟨"FRD_SLF_CTL", 0x100700, [(0x10000, 48)], [⟨28, 4, .wt, 0x5⟩, ⟨24, 4, .wt, 0x2⟩, ⟨20, 4, .wt, 0x5⟩, ⟨16, 4, .wt, 0x2⟩, ⟨15, 1, .wt, 0x1⟩, ⟨12, 3, .wt, 0x1⟩, ⟨11, 1, .wt, 0x0⟩, ⟨10, 1, .wt, 0x0⟩, ⟨8, 2, .wt, 0x0⟩, ⟨6, 2, .wt, 0x0⟩]⟩,
  ⟨"FRD_SLF_DEG", 0x100704, [(0x10000, 48)], [⟨28, 4, .wt, 0x7⟩, ⟨8, 20, .wt, 0x1f802⟩]⟩,
  ⟨"FRD_SLF_DEF", 0x100708, [(0x10000, 48)], [⟨15, 1, .ro, 0x0⟩, ⟨14, 1, .ro, 0x0⟩, ⟨13, 1, .ro, 0x0⟩, ⟨12, 1, .ro, 0x0⟩, ⟨11, 1, .ro, 0x0⟩, ⟨10, 1, .ro, 0x0⟩, ⟨9, 1, .ro, 0x0⟩, ⟨8, 1, .ro, 0x0⟩, ⟨7, 1, .ro, 0x0⟩, ⟨6, 1, .ro, 0x0⟩, ⟨5, 1, .ro, 0x0⟩, ⟨4, 1, .ro, 0x0⟩, ⟨3, 1, .ro, 0x0⟩, ⟨2, 1, .ro, 0x0⟩, ⟨1, 1, .ro, 0x0⟩, ⟨0, 1, .ro, 0x0⟩]⟩,
  ⟨"FRD_SLF_DEFLAT", 0x10070c, [(0x10000, 48)], [⟨0, 16, .w1c, 0x0⟩]⟩,
  ⟨"FRD_SLF_TCMDEF", 0x100710, [(0x10000, 48)], [⟨0, 30, .ro, 0x0⟩]⟩,
  ⟨"FRD_SLF_STAT", 0x100714, [(0x10000, 48)], [⟨31, 1, .ro, 0x0⟩, ⟨30, 1, .ro, 0x0⟩, ⟨29, 1, .ro, 0x0⟩, ⟨0, 24, .ro, 0xffffff⟩]⟩,
  ⟨"FRD_SLF_CNT", 0x100718, [(0x10000, 48)], [⟨16, 16, .rc, 0x0⟩, ⟨0, 16, .rc, 0x0⟩]⟩,
  ⟨"FRD_SLF_GCC", 0x10071c, [(0x10000, 48)], [⟨24, 8, .rc, 0x0⟩, ⟨16, 8, .rc, 0x0⟩, ⟨8, 8, .rc, 0x0⟩, ⟨0, 8, .rc, 0x0⟩]⟩,
  ⟨"FRD_PC_CYC_LO", 0x100800, [(0x10000, 48)], [⟨0, 32, .ro, 0x0⟩]⟩,
  ⟨"FRD_PC_CYC_HI", 0x100804, [(0x10000, 48)], [⟨0, 16, .ro, 0x0⟩]⟩,
  ⟨"FRD_PC_CTL", 0x100810, [(0x10000, 48), (0x10, 8)], [⟨11, 1, .wt, 0x0⟩, ⟨10, 1, .wt, 0x0⟩, ⟨9, 1, .wt, 0x0⟩, ⟨8, 1, .wt, 0x0⟩, ⟨0, 8, .wt, 0x0⟩]⟩,
  ⟨"FRD_PC_CNT_LO", 0x100814, [(0x10000, 48), (0x10, 8)], [⟨0, 32, .wt, 0x0⟩]⟩,
  ⟨"FRD_PC_CNT_HI", 0x100818, [(0x10000, 48), (0x10, 8)], [⟨0, 16, .wt, 0x0⟩]⟩,
  ⟨"FRD_PC_STAT", 0x100890, [(0x10000, 48)], [⟨8, 1, .w1c, 0x0⟩, ⟨0, 8, .w1c, 0x0⟩]⟩,
  ⟨"FRD_PC_ERBSTAT", 0x100894, [(0x10000, 48)], [⟨16, 16, .rc, 0x0⟩, ⟨0, 11, .ro, 0x0⟩]⟩,
  ⟨"FRD_PC_ERBCTL", 0x100898, [(0x10000, 48)], [⟨0, 1, .wt, 0x0⟩]⟩,
  ⟨"FRD_PC_RELOAD_LO", 0x1008a0, [(0x10000, 48), (0x8, 8)], [⟨0, 32, .wt, 0x0⟩]⟩,
  ⟨"FRD_PC_RELOAD_HI", 0x1008a4, [(0x10000, 48), (0x8, 8)], [⟨0, 16, .wt, 0x0⟩]⟩,
  ⟨"FRD_PC_SLOTS_A", 0x1008e0, [(0x10000, 48)], [⟨16, 16, .ro, 0x0⟩, ⟨0, 16, .ro, 0x0⟩]⟩,
  ⟨"FRD_PC_SLOTS_B", 0x1008e4, [(0x10000, 48)], [⟨16, 16, .ro, 0x0⟩, ⟨0, 16, .ro, 0x0⟩]⟩]

/-- The registers of the region in which `off` lies (Tables REG-1, REG-2). -/
def regionRegs (off : Nat) : List RegD :=
  if 0x1000000 ≤ off then bar2Regs
  else if 0x100000 ≤ off then frondRegs
  else match off / 0x10000 with

  | 0 => glbRegs
  | 1 => hostRegs
  | 2 => mailboxRegs
  | 3 => timingRegs
  | 4 => meshRegs
  | 5 => powerRegs
  | 6 => bootRegs
  | 7 => peatRegs
  | 8 => faultRegs
  | 9 => monitorRegs
  | 10 => memIntRegs
  | 11 => calibRegs
  | 12 => xcRegs
  | 13 => cryRegs
  | 14 => clientRegs
  | _ => []

/-- The description of the register at `off`; none: the offset is reserved. -/
def regAt (off : Nat) : Option RegD := (regionRegs off).find? fun r => r.covers off

/-- Bits `lo..lo + w - 1` of `x`. -/
def bitsGet (x : Word) (lo w : Nat) : Nat := x.toNat / 2 ^ lo % 2 ^ w

/-- `x` with `v` in bits `lo..lo + w - 1`. -/
def bitsPut (x : Word) (lo w v : Nat) : Word :=
  BitVec.ofNat 32 (x.toNat % 2 ^ lo + v % 2 ^ w * 2 ^ lo + x.toNat / 2 ^ (lo + w) * 2 ^ (lo + w))

/-- The reset value that a register's fields make. -/
def fieldsReset (fs : List FieldD) : Word := fs.foldl (fun x f => bitsPut x f.lo f.w f.reset) 0

/-- The value of every register that nothing has changed since reset: its reset value, 0 at a reserved offset (R8).
FRD_ID holds its own frond's index (Table REG-11). -/
def regReset (off : Nat) : Word :=
  match regAt off with
  | none => 0
  | some r =>
    if r.base = 0x100000 then BitVec.ofNat 32 (0x100 + (off - 0x100000) / 0x10000)
    else fieldsReset r.fields

/-! ### The fields by the spec's names -/
namespace R

def GLB_TICK_LO_TICK_LO : Fld := ⟨0x40, 0, 32⟩
def GLB_TICK_HI_TICK_HI : Fld := ⟨0x44, 0, 32⟩
def GLB_PM_ANCHOR_LO_ANCHOR_LO : Fld := ⟨0x60, 0, 32⟩
def GLB_PM_ANCHOR_HI_ANCHOR_HI : Fld := ⟨0x64, 0, 32⟩
def GLB_PM_STAT_EXPORT_LOST : Fld := ⟨0x68, 16, 16⟩
def GLB_PM_STAT_ZERO_SUPPRESS : Fld := ⟨0x68, 0, 1⟩
def GLB_PM_BACKLOG_RECORDS : Fld := ⟨0x6c, 0, 19⟩
def GLB_ID_MAKER : Fld := ⟨0x0, 16, 16⟩
def GLB_ID_PART : Fld := ⟨0x0, 0, 16⟩
def GLB_REV_SILICON : Fld := ⟨0x4, 28, 4⟩
def GLB_REV_FUSE_MAP : Fld := ⟨0x4, 16, 8⟩
def GLB_GRADE_GRADE : Fld := ⟨0x8, 8, 2⟩
def GLB_GRADE_COLLECTORS : Fld := ⟨0x8, 6, 2⟩
def GLB_GRADE_FRONDS : Fld := ⟨0x8, 0, 6⟩
def GLB_FRD_EN_LO_EN_LO : Fld := ⟨0xc, 0, 32⟩
def GLB_FRD_EN_HI_EN_HI : Fld := ⟨0x10, 0, 16⟩
def GLB_FW_MGMT_MGMT : Fld := ⟨0x14, 0, 32⟩
def GLB_FW_LOOP_LOOP : Fld := ⟨0x18, 0, 32⟩
def GLB_FW_STAT_RECOVERY : Fld := ⟨0x1c, 25, 1⟩
def GLB_FW_STAT_TRIAL : Fld := ⟨0x1c, 24, 1⟩
def GLB_FW_STAT_FUSES : Fld := ⟨0x1c, 16, 8⟩
def GLB_FW_STAT_SEC_VERSION : Fld := ⟨0x1c, 8, 8⟩
def GLB_FW_STAT_RUN_SLOT : Fld := ⟨0x1c, 1, 1⟩
def GLB_FW_STAT_ACTIVE_SLOT : Fld := ⟨0x1c, 0, 1⟩
def GLB_SCRATCH_SCRATCH : Fld := ⟨0x20, 0, 32⟩
def GLB_CAP_EP_BITS : Fld := ⟨0x24, 24, 5⟩
def GLB_CAP_SA_BITS : Fld := ⟨0x24, 16, 5⟩
def GLB_CAP_TEN_BITS : Fld := ⟨0x24, 8, 5⟩
def GLB_CAP_MSH_BITS : Fld := ⟨0x24, 0, 5⟩
def GLB_ACC_ERR_LAST_REGION : Fld := ⟨0x2c, 24, 8⟩
def GLB_ACC_ERR_LAST_BAR2 : Fld := ⟨0x2c, 16, 1⟩
def GLB_ACC_ERR_COUNT : Fld := ⟨0x2c, 0, 16⟩
def GLB_SUMMARY_MESH : Fld := ⟨0x28, 16, 3⟩
def GLB_SUMMARY_MSTATE : Fld := ⟨0x28, 10, 2⟩
def GLB_SUMMARY_DEGRADED : Fld := ⟨0x28, 7, 1⟩
def GLB_SUMMARY_TRIPPED : Fld := ⟨0x28, 6, 1⟩
def GLB_SUMMARY_ALERT : Fld := ⟨0x28, 5, 1⟩
def GLB_SUMMARY_SAFE : Fld := ⟨0x28, 4, 1⟩
def GLB_SUMMARY_PHASE : Fld := ⟨0x28, 0, 3⟩
def HST_FN_CTL_EQ_EN (fn : Nat) : Fld := ⟨0x10000 + 0x100 * fn, 4, 1⟩
def HST_FN_CTL_CR_EN (fn : Nat) : Fld := ⟨0x10000 + 0x100 * fn, 0, 4⟩
def HST_FN_STAT_PENDING (fn : Nat) : Fld := ⟨0x10004 + 0x100 * fn, 16, 13⟩
def HST_FN_STAT_COUNT_ERR (fn : Nat) : Fld := ⟨0x10004 + 0x100 * fn, 12, 4⟩
def HST_FN_STAT_EQ_COUNT_ERR (fn : Nat) : Fld := ⟨0x10004 + 0x100 * fn, 11, 1⟩
def HST_FN_STAT_CFG_ERR (fn : Nat) : Fld := ⟨0x10004 + 0x100 * fn, 10, 1⟩
def HST_FN_STAT_TEN_REJECT (fn : Nat) : Fld := ⟨0x10004 + 0x100 * fn, 9, 1⟩
def HST_FN_STAT_BME_LOST (fn : Nat) : Fld := ⟨0x10004 + 0x100 * fn, 8, 1⟩
def HST_FN_STAT_OP_READ_ERR (fn : Nat) : Fld := ⟨0x10004 + 0x100 * fn, 2, 1⟩
def HST_FN_STAT_DESC_READ_ERR (fn : Nat) : Fld := ⟨0x10004 + 0x100 * fn, 1, 1⟩
def HST_FN_STAT_DB_READ_ERR (fn : Nat) : Fld := ⟨0x10004 + 0x100 * fn, 0, 1⟩
def HST_FN_TENANT_COUNT (fn : Nat) : Fld := ⟨0x10008 + 0x100 * fn, 16, 11⟩
def HST_FN_TENANT_BASE (fn : Nat) : Fld := ⟨0x10008 + 0x100 * fn, 0, 10⟩
def HST_IRQ_MOD_INTERVAL (fn : Nat) : Fld := ⟨0x1000c + 0x100 * fn, 0, 10⟩
def HST_DB_ADDR_LO_ADDR_LO (fn : Nat) : Fld := ⟨0x10010 + 0x100 * fn, 6, 26⟩
def HST_DB_ADDR_HI_ADDR_HI (fn : Nat) : Fld := ⟨0x10014 + 0x100 * fn, 0, 32⟩
def HST_EQ_BASE_LO_BASE_LO (fn : Nat) : Fld := ⟨0x10018 + 0x100 * fn, 12, 20⟩
def HST_EQ_BASE_HI_ADDR_HI (fn : Nat) : Fld := ⟨0x1001c + 0x100 * fn, 0, 32⟩
def HST_EQ_CFG_LOG2SIZE (fn : Nat) : Fld := ⟨0x10020 + 0x100 * fn, 0, 5⟩
def HST_EQ_CNT_COUNT (fn : Nat) : Fld := ⟨0x10024 + 0x100 * fn, 0, 32⟩
def HST_EQ_LOST_LOST (fn : Nat) : Fld := ⟨0x10028 + 0x100 * fn, 0, 32⟩
def HST_CR_BASE_LO_BASE_LO (fn r : Nat) : Fld := ⟨0x10030 + 0x100 * fn + 0x20 * r, 12, 20⟩
def HST_CR_BASE_HI_ADDR_HI (fn r : Nat) : Fld := ⟨0x10034 + 0x100 * fn + 0x20 * r, 0, 32⟩
def HST_CQ_BASE_LO_BASE_LO (fn r : Nat) : Fld := ⟨0x10038 + 0x100 * fn + 0x20 * r, 12, 20⟩
def HST_CQ_BASE_HI_ADDR_HI (fn r : Nat) : Fld := ⟨0x1003c + 0x100 * fn + 0x20 * r, 0, 32⟩
def HST_RING_CFG_LOG2SIZE (fn r : Nat) : Fld := ⟨0x10040 + 0x100 * fn + 0x20 * r, 0, 5⟩
def HST_CR_FETCHED_COUNT (fn r : Nat) : Fld := ⟨0x10044 + 0x100 * fn + 0x20 * r, 0, 32⟩
def HST_CQ_WRITTEN_COUNT (fn r : Nat) : Fld := ⟨0x10048 + 0x100 * fn + 0x20 * r, 0, 32⟩
def MBX_IN_D_IN (c w : Nat) : Fld := ⟨0x20000 + 0x100 * c + 0x4 * w, 0, 32⟩
def MBX_OUT_D_OUT (c w : Nat) : Fld := ⟨0x20040 + 0x100 * c + 0x4 * w, 0, 32⟩
def MBX_STAT_OUT_LEN (c : Nat) : Fld := ⟨0x20080 + 0x100 * c, 20, 4⟩
def MBX_STAT_OUT_QUEUED (c : Nat) : Fld := ⟨0x20080 + 0x100 * c, 16, 4⟩
def MBX_STAT_OUT_FULL (c : Nat) : Fld := ⟨0x20080 + 0x100 * c, 8, 1⟩
def MBX_STAT_CROSS_RUN (c : Nat) : Fld := ⟨0x20080 + 0x100 * c, 0, 7⟩
def MBX_INSTAT_COLLISION (c : Nat) : Fld := ⟨0x20084 + 0x100 * c, 2, 1⟩
def MBX_INSTAT_DAMAGED (c : Nat) : Fld := ⟨0x20084 + 0x100 * c, 1, 1⟩
def MBX_INSTAT_IN_FULL (c : Nat) : Fld := ⟨0x20084 + 0x100 * c, 0, 1⟩
def MBX_CTL_NOTICE_EN (c : Nat) : Fld := ⟨0x20088 + 0x100 * c, 2, 1⟩
def MBX_CTL_IN_EMPTY_IE (c : Nat) : Fld := ⟨0x20088 + 0x100 * c, 1, 1⟩
def MBX_CTL_OUT_IE (c : Nat) : Fld := ⟨0x20088 + 0x100 * c, 0, 1⟩
def MBX_CNT_REQ_DISCARD (c : Nat) : Fld := ⟨0x2008c + 0x100 * c, 16, 16⟩
def MBX_CNT_NOTICE_DROP (c : Nat) : Fld := ⟨0x2008c + 0x100 * c, 0, 16⟩
def MBXS_IN_D_IN (c w : Nat) : Fld := ⟨0x1000000 + 0x100 * c + 0x4 * w, 0, 32⟩
def MBXS_OUT_D_OUT (c w : Nat) : Fld := ⟨0x1000040 + 0x100 * c + 0x4 * w, 0, 32⟩
def MBXS_STAT_OUT_LEN (c : Nat) : Fld := ⟨0x1000080 + 0x100 * c, 20, 4⟩
def MBXS_STAT_OUT_QUEUED (c : Nat) : Fld := ⟨0x1000080 + 0x100 * c, 16, 4⟩
def MBXS_STAT_OUT_FULL (c : Nat) : Fld := ⟨0x1000080 + 0x100 * c, 8, 1⟩
def MBXS_STAT_CROSS_RUN (c : Nat) : Fld := ⟨0x1000080 + 0x100 * c, 0, 7⟩
def MBXS_INSTAT_COLLISION (c : Nat) : Fld := ⟨0x1000084 + 0x100 * c, 2, 1⟩
def MBXS_INSTAT_DAMAGED (c : Nat) : Fld := ⟨0x1000084 + 0x100 * c, 1, 1⟩
def MBXS_INSTAT_IN_FULL (c : Nat) : Fld := ⟨0x1000084 + 0x100 * c, 0, 1⟩
def MBXS_CTL_NOTICE_EN (c : Nat) : Fld := ⟨0x1000088 + 0x100 * c, 2, 1⟩
def MBXS_CTL_IN_EMPTY_IE (c : Nat) : Fld := ⟨0x1000088 + 0x100 * c, 1, 1⟩
def MBXS_CTL_OUT_IE (c : Nat) : Fld := ⟨0x1000088 + 0x100 * c, 0, 1⟩
def MBXS_CNT_REQ_DISCARD (c : Nat) : Fld := ⟨0x100008c + 0x100 * c, 16, 16⟩
def MBXS_CNT_NOTICE_DROP (c : Nat) : Fld := ⟨0x100008c + 0x100 * c, 0, 16⟩
def MBX_SUMMARY_IN_FULL : Fld := ⟨0x20800, 8, 8⟩
def MBX_SUMMARY_OUT_FULL : Fld := ⟨0x20800, 0, 8⟩
def SEC_KE_KEY_KEY (w : Nat) : Fld := ⟨0x1001000 + 0x4 * w, 0, 32⟩
def SEC_KE_IN_IN (w : Nat) : Fld := ⟨0x1001020 + 0x4 * w, 0, 32⟩
def SEC_KE_OUT_OUT (w : Nat) : Fld := ⟨0x1001030 + 0x4 * w, 0, 32⟩
def SEC_KE_CV_CV (w : Nat) : Fld := ⟨0x1001040 + 0x4 * w, 0, 32⟩
def SEC_KE_CMD_OP : Fld := ⟨0x1001050, 0, 3⟩
def SEC_KE_STAT_ERR : Fld := ⟨0x1001054, 8, 4⟩
def SEC_KE_STAT_KEY_VALID : Fld := ⟨0x1001054, 1, 1⟩
def SEC_KE_STAT_BUSY : Fld := ⟨0x1001054, 0, 1⟩
def SEC_KE_CTX_CTX (w : Nat) : Fld := ⟨0x1001080 + 0x4 * w, 0, 32⟩
def SEC_STATE_REVOKED : Fld := ⟨0x1002000, 8, 2⟩
def SEC_STATE_BOOT_SLOT : Fld := ⟨0x1002000, 4, 1⟩
def SEC_STATE_STATE : Fld := ⟨0x1002000, 0, 4⟩
def SEC_ENT_STAT_RESTARTS : Fld := ⟨0x1002004, 16, 16⟩
def SEC_ENT_STAT_STATE : Fld := ⟨0x1002004, 0, 2⟩
def SEC_HOLD_STAT_IGNORED : Fld := ⟨0x1002008, 16, 16⟩
def SEC_HOLD_STAT_DEFERRED : Fld := ⟨0x1002008, 0, 6⟩
def SEC_DENIED_DENIED : Fld := ⟨0x100200c, 0, 32⟩
def TIM_DPLL_STAT_HIST_VALID (d : Nat) : Fld := ⟨0x30000 + 0x10 * d, 31, 1⟩
def TIM_DPLL_STAT_HO_OOS (d : Nat) : Fld := ⟨0x30000 + 0x10 * d, 30, 1⟩
def TIM_DPLL_STAT_MODE (d : Nat) : Fld := ⟨0x30000 + 0x10 * d, 24, 2⟩
def TIM_DPLL_STAT_SOURCE (d : Nat) : Fld := ⟨0x30000 + 0x10 * d, 16, 7⟩
def TIM_DPLL_STAT_ENTRY (d : Nat) : Fld := ⟨0x30000 + 0x10 * d, 12, 4⟩
def TIM_DPLL_STAT_STATE (d : Nat) : Fld := ⟨0x30000 + 0x10 * d, 0, 2⟩
def TIM_DPLL_FOFS_FOFS (d : Nat) : Fld := ⟨0x30004 + 0x10 * d, 0, 32⟩
def TIM_DPLL_HOTIME_HOTIME (d : Nat) : Fld := ⟨0x30008 + 0x10 * d, 0, 32⟩
def TIM_DPLL_PHERR_PHERR (d : Nat) : Fld := ⟨0x3000c + 0x10 * d, 0, 32⟩
def TIM_PRES_PRES (k : Nat) : Fld := ⟨0x30040 + 0x4 * k, 0, 32⟩
def TIM_QUAL_QUAL (k : Nat) : Fld := ⟨0x30050 + 0x4 * k, 0, 32⟩
def TIM_PPS_EDGE_LO_TICK_LO (i : Nat) : Fld := ⟨0x30060 + 0x10 * i, 0, 32⟩
def TIM_PPS_EDGE_HI_TICK_HI (i : Nat) : Fld := ⟨0x30064 + 0x10 * i, 0, 32⟩
def TIM_PPS_POS_VALID (i : Nat) : Fld := ⟨0x30068 + 0x10 * i, 31, 1⟩
def TIM_PPS_POS_CYCLE (i : Nat) : Fld := ⟨0x30068 + 0x10 * i, 0, 14⟩
def TIM_TOD_STAT_REJECT : Fld := ⟨0x30080, 16, 16⟩
def TIM_TOD_STAT_LOCKED : Fld := ⟨0x30080, 2, 1⟩
def TIM_TOD_STAT_SOURCE : Fld := ⟨0x30080, 0, 2⟩
def TIM_TWIN_STATE : Fld := ⟨0x30090, 30, 2⟩
def TIM_TWIN_LEAD : Fld := ⟨0x30090, 29, 1⟩
def TIM_TWIN_OFFSET : Fld := ⟨0x30090, 0, 16⟩
def TIM_PPSOUT_AT_TARGET : Fld := ⟨0x300a0, 31, 1⟩
def TIM_PPSOUT_POSITION : Fld := ⟨0x300a0, 0, 18⟩
def MSH_STAT_STATE : Fld := ⟨0x40000, 29, 3⟩
def MSH_STAT_ADDR : Fld := ⟨0x40000, 12, 12⟩
def MSH_STAT_HELD : Fld := ⟨0x40000, 0, 12⟩
def MSH_UID_LO_UID_LO : Fld := ⟨0x40004, 0, 32⟩
def MSH_UID_HI_UID_HI : Fld := ⟨0x40008, 0, 32⟩
def MSH_CNT_NOROUTE : Fld := ⟨0x4000c, 24, 8⟩
def MSH_CNT_HOP_DROP : Fld := ⟨0x4000c, 16, 8⟩
def MSH_CNT_TX_DROP : Fld := ⟨0x4000c, 8, 8⟩
def MSH_CNT_RX_DISCARD : Fld := ⟨0x4000c, 0, 8⟩
def MSH_PORT_STAT_NBR_ADDR (p : Nat) : Fld := ⟨0x40010 + 0x10 * p, 20, 12⟩
def MSH_PORT_STAT_LANE_MAP (p : Nat) : Fld := ⟨0x40010 + 0x10 * p, 12, 8⟩
def MSH_PORT_STAT_BLOCK_LOCK (p : Nat) : Fld := ⟨0x40010 + 0x10 * p, 8, 4⟩
def MSH_PORT_STAT_CDR_LOCK (p : Nat) : Fld := ⟨0x40010 + 0x10 * p, 4, 4⟩
def MSH_PORT_STAT_ALIGNED (p : Nat) : Fld := ⟨0x40010 + 0x10 * p, 2, 1⟩
def MSH_PORT_STAT_UP (p : Nat) : Fld := ⟨0x40010 + 0x10 * p, 1, 1⟩
def MSH_PORT_STAT_ENABLED (p : Nat) : Fld := ⟨0x40010 + 0x10 * p, 0, 1⟩
def MSH_PORT_ERR_CODE_ERR (p : Nat) : Fld := ⟨0x40014 + 0x10 * p, 16, 16⟩
def MSH_PORT_ERR_LOCK_LOSS (p : Nat) : Fld := ⟨0x40014 + 0x10 * p, 8, 8⟩
def MSH_PORT_ERR_ALIGN_LOSS (p : Nat) : Fld := ⟨0x40014 + 0x10 * p, 0, 8⟩
def MSH_PORT_MSG_HCRC_ERR (p : Nat) : Fld := ⟨0x40018 + 0x10 * p, 16, 16⟩
def MSH_PORT_MSG_PCRC_ERR (p : Nat) : Fld := ⟨0x40018 + 0x10 * p, 0, 16⟩
def PWR_MSTAT_HOT : Fld := ⟨0x50010, 24, 8⟩
def PWR_MSTAT_HOT_ID : Fld := ⟨0x50010, 16, 8⟩
def PWR_MSTAT_WARN : Fld := ⟨0x50010, 9, 1⟩
def PWR_MSTAT_TRIPPED : Fld := ⟨0x50010, 8, 1⟩
def PWR_MSTAT_PEAT_SRC : Fld := ⟨0x50010, 4, 1⟩
def PWR_MSTAT_MSTATE : Fld := ⟨0x50010, 0, 2⟩
def PWR_CNT_RAIL_FAULTS : Fld := ⟨0x50014, 16, 16⟩
def PWR_CNT_WAKE_LATE : Fld := ⟨0x50014, 0, 16⟩
def PWR_AVS_MEAS (r : Nat) : Fld := ⟨0x50020 + 0x4 * r, 16, 11⟩
def PWR_AVS_TGT (r : Nat) : Fld := ⟨0x50020 + 0x4 * r, 0, 11⟩
def PWR_THERM_T_THR : Fld := ⟨0x50040, 8, 8⟩
def PWR_THERM_T_WARN : Fld := ⟨0x50040, 0, 8⟩
def PWR_SHED_SHED (k : Nat) : Fld := ⟨0x50044 + 0x4 * k, 0, 32⟩
def PWR_SHEDACT_SHEDACT (k : Nat) : Fld := ⟨0x50060 + 0x4 * k, 0, 32⟩
def PWR_LT_LT (f : Nat) : Fld := ⟨0x50100 + 0x4 * f, 0, 32⟩
def RST_STRAP_PIN_CLK : Fld := ⟨0x60000, 10, 2⟩
def RST_STRAP_PIN_BOOT : Fld := ⟨0x60000, 8, 2⟩
def RST_STRAP_CLK_MODE : Fld := ⟨0x60000, 2, 2⟩
def RST_STRAP_BOOT_SRC : Fld := ⟨0x60000, 0, 2⟩
def RST_BOOT_STAT_FAIL_REASON : Fld := ⟨0x60004, 4, 4⟩
def RST_BOOT_STAT_PHASE : Fld := ⟨0x60004, 0, 3⟩
def RST_BOOT_REPORT_FIRST_REFUSED : Fld := ⟨0x60008, 16, 16⟩
def RST_BOOT_REPORT_REFUSED : Fld := ⟨0x60008, 10, 6⟩
def RST_BOOT_REPORT_FW_FALLBACK : Fld := ⟨0x60008, 9, 1⟩
def RST_BOOT_REPORT_FW_SLOT : Fld := ⟨0x60008, 8, 1⟩
def RST_BOOT_REPORT_FW_RECOVERY : Fld := ⟨0x60008, 7, 1⟩
def RST_BOOT_REPORT_CFG_COPY : Fld := ⟨0x60008, 6, 1⟩
def RST_BOOT_REPORT_CFG_SRC : Fld := ⟨0x60008, 4, 2⟩
def RST_BOOT_REPORT_CFG_RESULT : Fld := ⟨0x60008, 0, 3⟩
def RST_CAUSE_CAUSE : Fld := ⟨0x6000c, 0, 3⟩
def RST_CTL_KEY : Fld := ⟨0x60010, 16, 16⟩
def RST_CTL_WARM : Fld := ⟨0x60010, 0, 1⟩
def RST_BLOCK_BLOCK_ID : Fld := ⟨0x60014, 0, 12⟩
def RST_BLK_STAT_RESULT : Fld := ⟨0x60018, 30, 2⟩
def RST_BLK_STAT_IN_RESET : Fld := ⟨0x60018, 0, 12⟩
def RST_ISO_CNT_COUNT : Fld := ⟨0x6001c, 0, 32⟩
def RST_LOAD_ADDR_LO_ADDR_LO : Fld := ⟨0x60020, 12, 20⟩
def RST_LOAD_ADDR_HI_ADDR_HI : Fld := ⟨0x60024, 0, 32⟩
def RST_LOAD_LEN_LEN : Fld := ⟨0x60028, 0, 27⟩
def RST_LOAD_CTL_RESULT : Fld := ⟨0x6002c, 8, 4⟩
def RST_LOAD_CTL_KIND : Fld := ⟨0x6002c, 4, 2⟩
def RST_LOAD_CTL_GO : Fld := ⟨0x6002c, 0, 1⟩
def PEAT_CAL_DATE_YEAR : Fld := ⟨0x70000, 16, 16⟩
def PEAT_CAL_DATE_MONTH : Fld := ⟨0x70000, 8, 8⟩
def PEAT_CAL_DATE_DAY : Fld := ⟨0x70000, 0, 8⟩
def PEAT_CAL_TIME_HOUR : Fld := ⟨0x70004, 16, 8⟩
def PEAT_CAL_TIME_MINUTE : Fld := ⟨0x70004, 8, 8⟩
def PEAT_CAL_TIME_SECOND : Fld := ⟨0x70004, 0, 8⟩
def PEAT_CAL_SUB_SUBSEC : Fld := ⟨0x70008, 0, 15⟩
def PEAT_CAL_STAT_VALID : Fld := ⟨0x7000c, 31, 1⟩
def PEAT_CAL_STAT_EXPIRED : Fld := ⟨0x7000c, 30, 1⟩
def PEAT_CAL_STAT_RESULT : Fld := ⟨0x7000c, 8, 3⟩
def PEAT_CAL_STAT_REASON : Fld := ⟨0x7000c, 4, 4⟩
def PEAT_CAL_SETDATE_SETDATE : Fld := ⟨0x70010, 0, 32⟩
def PEAT_CAL_SETTIME_SETTIME : Fld := ⟨0x70014, 0, 32⟩
def PEAT_CAL_CMD_GO : Fld := ⟨0x70018, 0, 1⟩
def PEAT_ESEC_LO_ESEC_LO : Fld := ⟨0x70020, 0, 32⟩
def PEAT_ESEC_HI_ESEC_HI : Fld := ⟨0x70024, 0, 32⟩
def PEAT_EPOCH_LO_EPOCH_LO : Fld := ⟨0x70028, 0, 32⟩
def PEAT_EPOCH_HI_EPOCH_HI : Fld := ⟨0x7002c, 0, 32⟩
def PEAT_EPOCH_NEW_LO_NEW : Fld := ⟨0x70030, 0, 32⟩
def PEAT_EPOCH_NEW_HI_NEW : Fld := ⟨0x70034, 0, 32⟩
def PEAT_EPOCH_CMD_GO : Fld := ⟨0x70038, 0, 1⟩
def PEAT_CNT_SEL_INDEX : Fld := ⟨0x70040, 0, 8⟩
def PEAT_CNT_VAL_VALUE : Fld := ⟨0x70044, 0, 32⟩
def PEAT_LS_ADDR_WORD : Fld := ⟨0x70048, 2, 14⟩
def PEAT_LS_DATA_DATA : Fld := ⟨0x7004c, 0, 32⟩
def PEAT_STAT_SPARE_USED : Fld := ⟨0x70050, 8, 8⟩
def PEAT_STAT_LS_ERR : Fld := ⟨0x70050, 4, 1⟩
def PEAT_STAT_PEAT_LOST : Fld := ⟨0x70050, 3, 1⟩
def PEAT_STAT_UNANNOUNCED : Fld := ⟨0x70050, 2, 1⟩
def PEAT_STAT_EPOCH_REJECT : Fld := ⟨0x70050, 1, 1⟩
def FLT_STAT_LOST_ALL : Fld := ⟨0x80000, 7, 1⟩
def FLT_STAT_DEGRADED : Fld := ⟨0x80000, 6, 1⟩
def FLT_STAT_RETIRED : Fld := ⟨0x80000, 5, 1⟩
def FLT_STAT_FIRST_VALID : Fld := ⟨0x80000, 4, 1⟩
def FLT_STAT_ALERT : Fld := ⟨0x80000, 3, 1⟩
def FLT_STAT_FAULT_N : Fld := ⟨0x80000, 2, 1⟩
def FLT_STAT_BLOCKING : Fld := ⟨0x80000, 1, 1⟩
def FLT_STAT_SAFE : Fld := ⟨0x80000, 0, 1⟩
def FLT_LOG_WR_COUNT : Fld := ⟨0x80004, 0, 32⟩
def FLT_CNT_LOST : Fld := ⟨0x80008, 16, 16⟩
def FLT_CNT_SAFE_ENTRIES : Fld := ⟨0x80008, 0, 16⟩
def FLT_LATCH_LATCH (k : Nat) : Fld := ⟨0x80010 + 0x4 * k, 0, 32⟩
def MON_STAT_HOST_QUEUED : Fld := ⟨0x90000, 16, 8⟩
def MON_STAT_TEST_BUSY : Fld := ⟨0x90000, 8, 1⟩
def MON_STAT_ENTRY : Fld := ⟨0x90000, 0, 8⟩
def MON_CNT_SKIPPED : Fld := ⟨0x90004, 16, 16⟩
def MON_CNT_ABORTS : Fld := ⟨0x90004, 0, 16⟩
def MON_TEST_RES_VALID : Fld := ⟨0x90008, 31, 1⟩
def MON_TEST_RES_PASS : Fld := ⟨0x90008, 30, 1⟩
def MON_TEST_RES_CODE : Fld := ⟨0x90008, 16, 12⟩
def MON_TEST_RES_D : Fld := ⟨0x90008, 0, 10⟩
def MON_LIMSTAT_OUT (k : Nat) : Fld := ⟨0x90010 + 0x4 * k, 0, 32⟩
def MON_RES_VALID (c : Nat) : Fld := ⟨0x90400 + 0x4 * c, 31, 1⟩
def MON_RES_HIGH (c : Nat) : Fld := ⟨0x90400 + 0x4 * c, 30, 1⟩
def MON_RES_LOW (c : Nat) : Fld := ⟨0x90400 + 0x4 * c, 29, 1⟩
def MON_RES_CODE (c : Nat) : Fld := ⟨0x90400 + 0x4 * c, 16, 12⟩
def MON_RES_VALUE (c : Nat) : Fld := ⟨0x90400 + 0x4 * c, 0, 16⟩
def MEM_STAT_PASS_BUSY : Fld := ⟨0xa0000, 31, 1⟩
def MEM_STAT_FENCE_FULL : Fld := ⟨0xa0000, 30, 1⟩
def MEM_STAT_FENCED : Fld := ⟨0xa0000, 0, 9⟩
def MEM_CTL_SCRUB_EN : Fld := ⟨0xa0004, 0, 1⟩
def MEM_CE_CE_SCRUB : Fld := ⟨0xa0008, 16, 16⟩
def MEM_CE_CE_READ : Fld := ⟨0xa0008, 0, 16⟩
def MEM_UE_PARITY : Fld := ⟨0xa000c, 16, 16⟩
def MEM_UE_UNCORR : Fld := ⟨0xa000c, 0, 16⟩
def MEM_LAST_LO_OFFSET : Fld := ⟨0xa0010, 0, 32⟩
def MEM_LAST_HI_KIND : Fld := ⟨0xa0014, 30, 2⟩
def MEM_LAST_HI_MEMORY : Fld := ⟨0xa0014, 0, 8⟩
def CAL_TONE_TONE_BAD : Fld := ⟨0xb0000, 31, 1⟩
def CAL_TONE_KHZ : Fld := ⟨0xb0000, 0, 26⟩
def CAL_INPUT_PWR : Fld := ⟨0xb0004, 16, 16⟩
def CAL_INPUT_FOFS : Fld := ⟨0xb0004, 0, 16⟩
def CAL_RESULT_REASON (f : Nat) : Fld := ⟨0xb0040 + 0x4 * f, 28, 4⟩
def CAL_RESULT_KIND (f : Nat) : Fld := ⟨0xb0040 + 0x4 * f, 24, 2⟩
def CAL_RESULT_TEMP (f : Nat) : Fld := ⟨0xb0040 + 0x4 * f, 0, 10⟩
def CAL_GEN_GEN (f : Nat) : Fld := ⟨0xb0100 + 0x4 * f, 0, 32⟩
def XC_EP_USED_USED : Fld := ⟨0xc0000, 0, 18⟩
def XC_GRAN_FREE : Fld := ⟨0xc0004, 16, 14⟩
def XC_GRAN_USED : Fld := ⟨0xc0004, 0, 14⟩
def XC_UNITS_USED : Fld := ⟨0xc0008, 0, 17⟩
def XC_QUOTA_STAT_ANY : Fld := ⟨0xc000c, 31, 1⟩
def XC_QUOTA_STAT_OVER : Fld := ⟨0xc000c, 0, 10⟩
def CRY_SA_USED_USED : Fld := ⟨0xd0000, 0, 15⟩
def CRY_SA_STAT_LIMITED : Fld := ⟨0xd0004, 16, 15⟩
def CRY_SA_STAT_KEY_ERR : Fld := ⟨0xd0004, 0, 15⟩
def CRY_EVT_UNWRAP_FAIL : Fld := ⟨0xd0008, 16, 16⟩
def CRY_EVT_ROLL_DIVERGE : Fld := ⟨0xd0008, 0, 16⟩
def CLT_LANE_CTL_SQUELCH (l : Nat) : Fld := ⟨0xe0000 + 0x10 * l, 2, 1⟩
def CLT_LANE_CTL_RX_INV (l : Nat) : Fld := ⟨0xe0000 + 0x10 * l, 1, 1⟩
def CLT_LANE_CTL_TX_INV (l : Nat) : Fld := ⟨0xe0000 + 0x10 * l, 0, 1⟩
def CLT_LANE_EQ_EQ_INVALID (l : Nat) : Fld := ⟨0xe0004 + 0x10 * l, 31, 1⟩
def CLT_LANE_EQ_PRE2 (l : Nat) : Fld := ⟨0xe0004 + 0x10 * l, 16, 4⟩
def CLT_LANE_EQ_PRE1 (l : Nat) : Fld := ⟨0xe0004 + 0x10 * l, 8, 6⟩
def CLT_LANE_EQ_POST1 (l : Nat) : Fld := ⟨0xe0004 + 0x10 * l, 0, 5⟩
def CLT_LANE_STAT_PORT (l : Nat) : Fld := ⟨0xe0008 + 0x10 * l, 23, 9⟩
def CLT_LANE_STAT_RATE (l : Nat) : Fld := ⟨0xe0008 + 0x10 * l, 18, 2⟩
def CLT_LANE_STAT_AM_INV (l : Nat) : Fld := ⟨0xe0008 + 0x10 * l, 3, 1⟩
def CLT_LANE_STAT_CDR_LOCK (l : Nat) : Fld := ⟨0xe0008 + 0x10 * l, 1, 1⟩
def CLT_LANE_STAT_SIG_DET (l : Nat) : Fld := ⟨0xe0008 + 0x10 * l, 0, 1⟩
def CLT_LANE_SER_CORR (l : Nat) : Fld := ⟨0xe000c + 0x10 * l, 0, 32⟩
def CLT_PORT_STAT_CLIENT (l : Nat) : Fld := ⟨0xe4000 + 0x10 * l, 28, 4⟩
def CLT_PORT_STAT_WIDTH (l : Nat) : Fld := ⟨0xe4000 + 0x10 * l, 22, 6⟩
def CLT_PORT_STAT_INST (l : Nat) : Fld := ⟨0xe4000 + 0x10 * l, 16, 6⟩
def CLT_PORT_STAT_RATE (l : Nat) : Fld := ⟨0xe4000 + 0x10 * l, 14, 2⟩
def CLT_PORT_STAT_RXSTATE (l : Nat) : Fld := ⟨0xe4000 + 0x10 * l, 11, 3⟩
def CLT_PORT_STAT_TX_REPL (l : Nat) : Fld := ⟨0xe4000 + 0x10 * l, 7, 1⟩
def CLT_PORT_STAT_RF_RX (l : Nat) : Fld := ⟨0xe4000 + 0x10 * l, 6, 1⟩
def CLT_PORT_STAT_LF_RX (l : Nat) : Fld := ⟨0xe4000 + 0x10 * l, 5, 1⟩
def CLT_PORT_STAT_HI_SER (l : Nat) : Fld := ⟨0xe4000 + 0x10 * l, 4, 1⟩
def CLT_PORT_STAT_ALIGNED (l : Nat) : Fld := ⟨0xe4000 + 0x10 * l, 3, 1⟩
def CLT_PORT_STAT_AM_LOCK (l : Nat) : Fld := ⟨0xe4000 + 0x10 * l, 2, 1⟩
def CLT_PORT_STAT_RUNNING (l : Nat) : Fld := ⟨0xe4000 + 0x10 * l, 1, 1⟩
def CLT_PORT_STAT_SSF (l : Nat) : Fld := ⟨0xe4000 + 0x10 * l, 0, 1⟩
def CLT_PORT_UNC_UNC (l : Nat) : Fld := ⟨0xe4004 + 0x10 * l, 0, 32⟩
def CLT_PORT_CW_CW (l : Nat) : Fld := ⟨0xe4008 + 0x10 * l, 0, 32⟩
def CLT_PORT_ADAPT_OVF (l : Nat) : Fld := ⟨0xe400c + 0x10 * l, 24, 8⟩
def CLT_PORT_ADAPT_INS (l : Nat) : Fld := ⟨0xe400c + 0x10 * l, 12, 12⟩
def CLT_PORT_ADAPT_DEL (l : Nat) : Fld := ⟨0xe400c + 0x10 * l, 0, 12⟩
def FRD_ID_PSTATE (f : Nat) : Fld := ⟨0x100000 + 0x10000 * f, 16, 3⟩
def FRD_ID_LINE_RUN (f : Nat) : Fld := ⟨0x100000 + 0x10000 * f, 9, 1⟩
def FRD_ID_ENABLED (f : Nat) : Fld := ⟨0x100000 + 0x10000 * f, 8, 1⟩
def FRD_ID_FROND (f : Nat) : Fld := ⟨0x100000 + 0x10000 * f, 0, 6⟩
def FRD_CRYGATE_HELD (f : Nat) : Fld := ⟨0x100004 + 0x10000 * f, 1, 1⟩
def FRD_CRYGATE_GATE (f : Nat) : Fld := ⟨0x100004 + 0x10000 * f, 0, 1⟩
def FRD_RX_CTL_INSRC (f : Nat) : Fld := ⟨0x100100 + 0x10000 * f, 4, 2⟩
def FRD_RX_CTL_MUTE (f : Nat) : Fld := ⟨0x100100 + 0x10000 * f, 0, 1⟩
def FRD_RX_PHD_CLAMPED (f q : Nat) : Fld := ⟨0x100110 + 0x10000 * f + 0x4 * q, 31, 1⟩
def FRD_RX_PHD_CAL_DELAY (f q : Nat) : Fld := ⟨0x100110 + 0x10000 * f + 0x4 * q, 16, 14⟩
def FRD_RX_PHD_USER_DELAY (f q : Nat) : Fld := ⟨0x100110 + 0x10000 * f + 0x4 * q, 0, 14⟩
def FRD_RX_FIRSTAT_ACTIVE_ID (f : Nat) : Fld := ⟨0x100120 + 0x10000 * f, 16, 16⟩
def FRD_RX_FIRSTAT_PENDING (f : Nat) : Fld := ⟨0x100120 + 0x10000 * f, 1, 1⟩
def FRD_RX_FIRSTAT_ACTIVE (f : Nat) : Fld := ⟨0x100120 + 0x10000 * f, 0, 1⟩
def FRD_RX_SATFLG_DMX (f : Nat) : Fld := ⟨0x100124 + 0x10000 * f, 9, 1⟩
def FRD_RX_SATFLG_RSMP (f : Nat) : Fld := ⟨0x100124 + 0x10000 * f, 8, 1⟩
def FRD_RX_SATFLG_FIR_Y (f : Nat) : Fld := ⟨0x100124 + 0x10000 * f, 7, 1⟩
def FRD_RX_SATFLG_FIR_X (f : Nat) : Fld := ⟨0x100124 + 0x10000 * f, 6, 1⟩
def FRD_RX_SATFLG_PHD (f : Nat) : Fld := ⟨0x100124 + 0x10000 * f, 5, 1⟩
def FRD_RX_SATFLG_CORR (f : Nat) : Fld := ⟨0x100124 + 0x10000 * f, 4, 1⟩
def FRD_RX_SATFLG_ADC_YQ (f : Nat) : Fld := ⟨0x100124 + 0x10000 * f, 3, 1⟩
def FRD_RX_SATFLG_ADC_YI (f : Nat) : Fld := ⟨0x100124 + 0x10000 * f, 2, 1⟩
def FRD_RX_SATFLG_ADC_XQ (f : Nat) : Fld := ⟨0x100124 + 0x10000 * f, 1, 1⟩
def FRD_RX_SATFLG_ADC_XI (f : Nat) : Fld := ⟨0x100124 + 0x10000 * f, 0, 1⟩
def FRD_RX_TIA_GAIN_YQ (f : Nat) : Fld := ⟨0x100128 + 0x10000 * f, 24, 5⟩
def FRD_RX_TIA_GAIN_YI (f : Nat) : Fld := ⟨0x100128 + 0x10000 * f, 16, 5⟩
def FRD_RX_TIA_GAIN_XQ (f : Nat) : Fld := ⟨0x100128 + 0x10000 * f, 8, 5⟩
def FRD_RX_TIA_GAIN_XI (f : Nat) : Fld := ⟨0x100128 + 0x10000 * f, 0, 5⟩
def FRD_RX_ROT_FREQ (f : Nat) : Fld := ⟨0x10012c + 0x10000 * f, 0, 32⟩
def FRD_ACQ_CTL_DET_TH (f : Nat) : Fld := ⟨0x100200 + 0x10000 * f, 16, 4⟩
def FRD_ACQ_CTL_AGC_TGT (f : Nat) : Fld := ⟨0x100200 + 0x10000 * f, 8, 6⟩
def FRD_ACQ_CTL_TRIM_EN (f : Nat) : Fld := ⟨0x100200 + 0x10000 * f, 3, 1⟩
def FRD_ACQ_CTL_WARM_EN (f : Nat) : Fld := ⟨0x100200 + 0x10000 * f, 2, 1⟩
def FRD_ACQ_CTL_RESTART (f : Nat) : Fld := ⟨0x100200 + 0x10000 * f, 0, 1⟩
def FRD_ACQ_STAT_LAST_REASON (f : Nat) : Fld := ⟨0x100204 + 0x10000 * f, 20, 4⟩
def FRD_ACQ_STAT_FLOOD_RUN (f : Nat) : Fld := ⟨0x100204 + 0x10000 * f, 16, 2⟩
def FRD_ACQ_STAT_GAIN_FROZEN (f : Nat) : Fld := ⟨0x100204 + 0x10000 * f, 8, 1⟩
def FRD_ACQ_STAT_STATE (f : Nat) : Fld := ⟨0x100204 + 0x10000 * f, 0, 3⟩
def FRD_ACQ_LOSS_HOST (f : Nat) : Fld := ⟨0x100208 + 0x10000 * f, 24, 8⟩
def FRD_ACQ_LOSS_DISPLACED (f : Nat) : Fld := ⟨0x100208 + 0x10000 * f, 16, 8⟩
def FRD_ACQ_LOSS_FIDDLEHEAD_LOST (f : Nat) : Fld := ⟨0x100208 + 0x10000 * f, 8, 8⟩
def FRD_ACQ_LOSS_FLOOD (f : Nat) : Fld := ⟨0x100208 + 0x10000 * f, 0, 8⟩
def FRD_ACQ_LAST_WARM (f : Nat) : Fld := ⟨0x10020c + 0x10000 * f, 31, 1⟩
def FRD_ACQ_LAST_DURATION (f : Nat) : Fld := ⟨0x10020c + 0x10000 * f, 0, 31⟩
def FRD_EQ_CTL_DISCARD (f : Nat) : Fld := ⟨0x100300 + 0x10000 * f, 23, 1⟩
def FRD_EQ_CTL_MU_EXP (f : Nat) : Fld := ⟨0x100300 + 0x10000 * f, 16, 4⟩
def FRD_EQ_CTL_NTAPS (f : Nat) : Fld := ⟨0x100300 + 0x10000 * f, 12, 2⟩
def FRD_EQ_CTL_TRACK (f : Nat) : Fld := ⟨0x100300 + 0x10000 * f, 8, 2⟩
def FRD_EQ_CTL_CD_MODE (f : Nat) : Fld := ⟨0x100300 + 0x10000 * f, 4, 2⟩
def FRD_EQ_CD_CD_VAL (f : Nat) : Fld := ⟨0x100304 + 0x10000 * f, 0, 19⟩
def FRD_EQ_SLOPE_SLOPE (f : Nat) : Fld := ⟨0x100308 + 0x10000 * f, 0, 12⟩
def FRD_EQ_CD_STAT_LIMIT (f : Nat) : Fld := ⟨0x10030c + 0x10000 * f, 31, 1⟩
def FRD_EQ_CD_STAT_APPLIED (f : Nat) : Fld := ⟨0x10030c + 0x10000 * f, 0, 19⟩
def FRD_EQ_CD_EST_VALID (f : Nat) : Fld := ⟨0x100310 + 0x10000 * f, 31, 1⟩
def FRD_EQ_CD_EST_EST (f : Nat) : Fld := ⟨0x100310 + 0x10000 * f, 0, 19⟩
def FRD_EQ_STAT_TRACK_ACT (f : Nat) : Fld := ⟨0x100314 + 0x10000 * f, 24, 2⟩
def FRD_EQ_STAT_RETAINED (f : Nat) : Fld := ⟨0x100314 + 0x10000 * f, 16, 1⟩
def FRD_EQ_STAT_SOP_RATE (f : Nat) : Fld := ⟨0x100314 + 0x10000 * f, 0, 9⟩
def FRD_EQ_FOFS_FOFS (f : Nat) : Fld := ⟨0x100318 + 0x10000 * f, 0, 32⟩
def FRD_EQ_PMD_DGD (f : Nat) : Fld := ⟨0x10031c + 0x10000 * f, 8, 12⟩
def FRD_EQ_PMD_PDL (f : Nat) : Fld := ⟨0x10031c + 0x10000 * f, 0, 8⟩
def FRD_EQ_SLIP_SLIPS (f : Nat) : Fld := ⟨0x100320 + 0x10000 * f, 0, 16⟩
def FRD_EQ_GEN_SEC_LO_SEC_LO (f : Nat) : Fld := ⟨0x100324 + 0x10000 * f, 0, 32⟩
def FRD_EQ_GEN_SEC_HI_SEC_HI (f : Nat) : Fld := ⟨0x100328 + 0x10000 * f, 0, 32⟩
def FRD_EQ_GEN_TEMP_GEN (f : Nat) : Fld := ⟨0x10032c + 0x10000 * f, 16, 16⟩
def FRD_EQ_GEN_TEMP_TEMP (f : Nat) : Fld := ⟨0x10032c + 0x10000 * f, 0, 10⟩
def FRD_EQ_SNR_VALID_H (f j : Nat) : Fld := ⟨0x100340 + 0x10000 * f + 0x4 * j, 31, 1⟩
def FRD_EQ_SNR_SNR_H (f j : Nat) : Fld := ⟨0x100340 + 0x10000 * f + 0x4 * j, 16, 12⟩
def FRD_EQ_SNR_VALID_L (f j : Nat) : Fld := ⟨0x100340 + 0x10000 * f + 0x4 * j, 15, 1⟩
def FRD_EQ_SNR_SNR_L (f j : Nat) : Fld := ⟨0x100340 + 0x10000 * f + 0x4 * j, 0, 12⟩
def FRD_LD_CTL_MIN_GAP (f : Nat) : Fld := ⟨0x100400 + 0x10000 * f, 24, 8⟩
def FRD_LD_CTL_LEAD (f : Nat) : Fld := ⟨0x100400 + 0x10000 * f, 16, 8⟩
def FRD_LD_CTL_GAP (f : Nat) : Fld := ⟨0x100400 + 0x10000 * f, 10, 6⟩
def FRD_LD_CTL_HYST (f : Nat) : Fld := ⟨0x100400 + 0x10000 * f, 6, 4⟩
def FRD_LD_CTL_ACCEPT (f : Nat) : Fld := ⟨0x100400 + 0x10000 * f, 1, 1⟩
def FRD_LD_CTL_REQ_EN (f : Nat) : Fld := ⟨0x100400 + 0x10000 * f, 0, 1⟩
def FRD_LD_LIMIT_CODE_MAX (f : Nat) : Fld := ⟨0x100404 + 0x10000 * f, 16, 7⟩
def FRD_LD_LIMIT_CODE_MIN (f : Nat) : Fld := ⟨0x100404 + 0x10000 * f, 8, 7⟩
def FRD_LD_LIMIT_MAX_MOVES (f : Nat) : Fld := ⟨0x100404 + 0x10000 * f, 0, 6⟩
def FRD_LD_STAT_TX_TID (f : Nat) : Fld := ⟨0x100408 + 0x10000 * f, 28, 4⟩
def FRD_LD_STAT_RX_TID (f : Nat) : Fld := ⟨0x100408 + 0x10000 * f, 24, 4⟩
def FRD_LD_STAT_TX_PEND (f : Nat) : Fld := ⟨0x100408 + 0x10000 * f, 23, 1⟩
def FRD_LD_STAT_TX_IN (f : Nat) : Fld := ⟨0x100408 + 0x10000 * f, 15, 8⟩
def FRD_LD_STAT_SEEN_STATUS (f : Nat) : Fld := ⟨0x100408 + 0x10000 * f, 12, 3⟩
def FRD_LD_STAT_DONE_STATUS (f : Nat) : Fld := ⟨0x100408 + 0x10000 * f, 9, 3⟩
def FRD_LD_STAT_REQ_SEQ (f : Nat) : Fld := ⟨0x100408 + 0x10000 * f, 5, 4⟩
def FRD_LD_STAT_REQ_OUT (f : Nat) : Fld := ⟨0x100408 + 0x10000 * f, 4, 1⟩
def FRD_LD_SUM_LIT (f : Nat) : Fld := ⟨0x10040c + 0x10000 * f, 16, 6⟩
def FRD_LD_SUM_Q (f : Nat) : Fld := ⟨0x10040c + 0x10000 * f, 0, 12⟩
def FRD_LD_CNT_REFUSED (f : Nat) : Fld := ⟨0x100410 + 0x10000 * f, 24, 8⟩
def FRD_LD_CNT_ACCEPTED (f : Nat) : Fld := ⟨0x100410 + 0x10000 * f, 16, 8⟩
def FRD_LD_CNT_RX_SWAPS (f : Nat) : Fld := ⟨0x100410 + 0x10000 * f, 8, 8⟩
def FRD_LD_CNT_TX_SWAPS (f : Nat) : Fld := ⟨0x100410 + 0x10000 * f, 0, 8⟩
def FRD_SC_PLAN_SLOT_M (f : Nat) : Fld := ⟨0x100414 + 0x10000 * f, 26, 6⟩
def FRD_SC_PLAN_N (f : Nat) : Fld := ⟨0x100414 + 0x10000 * f, 21, 5⟩
def FRD_SC_PLAN_COUNT (f : Nat) : Fld := ⟨0x100414 + 0x10000 * f, 15, 6⟩
def FRD_SC_PLAN_GRID_N (f : Nat) : Fld := ⟨0x100414 + 0x10000 * f, 0, 12⟩
def FRD_TX_CTL_BOOST (f : Nat) : Fld := ⟨0x100500 + 0x10000 * f, 16, 8⟩
def FRD_TX_CTL_PWR (f : Nat) : Fld := ⟨0x100500 + 0x10000 * f, 8, 8⟩
def FRD_TX_CTL_PRECD_EN (f : Nat) : Fld := ⟨0x100500 + 0x10000 * f, 1, 1⟩
def FRD_TX_CTL_SQUELCH (f : Nat) : Fld := ⟨0x100500 + 0x10000 * f, 0, 1⟩
def FRD_TX_PRECD_PRECD (f : Nat) : Fld := ⟨0x100504 + 0x10000 * f, 0, 17⟩
def FRD_TX_SKEW_CLAMPED (f q : Nat) : Fld := ⟨0x100510 + 0x10000 * f + 0x4 * q, 31, 1⟩
def FRD_TX_SKEW_CAL_SKEW (f q : Nat) : Fld := ⟨0x100510 + 0x10000 * f + 0x4 * q, 16, 14⟩
def FRD_TX_SKEW_USER_SKEW (f q : Nat) : Fld := ⟨0x100510 + 0x10000 * f + 0x4 * q, 0, 14⟩
def FRD_TX_STAT_LFOFS (f : Nat) : Fld := ⟨0x100520 + 0x10000 * f, 16, 16⟩
def FRD_TX_STAT_PWR_MEAS (f : Nat) : Fld := ⟨0x100520 + 0x10000 * f, 8, 8⟩
def FRD_TX_STAT_PWR_LIMIT (f : Nat) : Fld := ⟨0x100520 + 0x10000 * f, 3, 1⟩
def FRD_TX_STAT_RAMPING (f : Nat) : Fld := ⟨0x100520 + 0x10000 * f, 2, 1⟩
def FRD_TX_STAT_DARK (f : Nat) : Fld := ⟨0x100520 + 0x10000 * f, 1, 1⟩
def FRD_TX_STAT_CLIP (f : Nat) : Fld := ⟨0x100520 + 0x10000 * f, 0, 1⟩
def FRD_FEC_CTL_NGMI_TH (f : Nat) : Fld := ⟨0x100600 + 0x10000 * f, 16, 10⟩
def FRD_FEC_CTL_ITER_MAX (f : Nat) : Fld := ⟨0x100600 + 0x10000 * f, 0, 6⟩
def FRD_FEC_STAT_NGMI_VALID (f : Nat) : Fld := ⟨0x100604 + 0x10000 * f, 31, 1⟩
def FRD_FEC_STAT_NGMI (f : Nat) : Fld := ⟨0x100604 + 0x10000 * f, 16, 10⟩
def FRD_FEC_STAT_W (f : Nat) : Fld := ⟨0x100604 + 0x10000 * f, 0, 11⟩
def FRD_FEC_ITER_POOL_LEFT (f : Nat) : Fld := ⟨0x100608 + 0x10000 * f, 18, 14⟩
def FRD_FEC_ITER_MAX_ITER (f : Nat) : Fld := ⟨0x100608 + 0x10000 * f, 12, 6⟩
def FRD_FEC_ITER_MEAN (f : Nat) : Fld := ⟨0x100608 + 0x10000 * f, 0, 12⟩
def FRD_FEC_EVT_TX_POISON (f : Nat) : Fld := ⟨0x10060c + 0x10000 * f, 16, 16⟩
def FRD_FEC_EVT_POOL_EMPTY (f : Nat) : Fld := ⟨0x10060c + 0x10000 * f, 0, 16⟩
def FRD_FEC_CNT_LO_CNT_LO (f j : Nat) : Fld := ⟨0x100610 + 0x10000 * f + 0x8 * j, 0, 32⟩
def FRD_FEC_CNT_HI_CNT_HI (f j : Nat) : Fld := ⟨0x100614 + 0x10000 * f + 0x8 * j, 0, 32⟩
def FRD_SLF_CTL_FA_M (f : Nat) : Fld := ⟨0x100700 + 0x10000 * f, 28, 4⟩
def FRD_SLF_CTL_FA_N (f : Nat) : Fld := ⟨0x100700 + 0x10000 * f, 24, 4⟩
def FRD_SLF_CTL_MF_M (f : Nat) : Fld := ⟨0x100700 + 0x10000 * f, 20, 4⟩
def FRD_SLF_CTL_MF_N (f : Nat) : Fld := ⟨0x100700 + 0x10000 * f, 16, 4⟩
def FRD_SLF_CTL_MF_EN (f : Nat) : Fld := ⟨0x100700 + 0x10000 * f, 15, 1⟩
def FRD_SLF_CTL_GCC_SEL (f : Nat) : Fld := ⟨0x100700 + 0x10000 * f, 12, 3⟩
def FRD_SLF_CTL_TIMACT_PM (f : Nat) : Fld := ⟨0x100700 + 0x10000 * f, 11, 1⟩
def FRD_SLF_CTL_TIMACT_SM (f : Nat) : Fld := ⟨0x100700 + 0x10000 * f, 10, 1⟩
def FRD_SLF_CTL_TIMMODE_PM (f : Nat) : Fld := ⟨0x100700 + 0x10000 * f, 8, 2⟩
def FRD_SLF_CTL_TIMMODE_SM (f : Nat) : Fld := ⟨0x100700 + 0x10000 * f, 6, 2⟩
def FRD_SLF_DEG_DEGM (f : Nat) : Fld := ⟨0x100704 + 0x10000 * f, 28, 4⟩
def FRD_SLF_DEG_DEGTHR (f : Nat) : Fld := ⟨0x100704 + 0x10000 * f, 8, 20⟩
def FRD_SLF_DEF_SSF (f : Nat) : Fld := ⟨0x100708 + 0x10000 * f, 15, 1⟩
def FRD_SLF_DEF_MSIM (f : Nat) : Fld := ⟨0x100708 + 0x10000 * f, 14, 1⟩
def FRD_SLF_DEF_PLM (f : Nat) : Fld := ⟨0x100708 + 0x10000 * f, 13, 1⟩
def FRD_SLF_DEF_OCI_PM (f : Nat) : Fld := ⟨0x100708 + 0x10000 * f, 12, 1⟩
def FRD_SLF_DEF_LCK_PM (f : Nat) : Fld := ⟨0x100708 + 0x10000 * f, 11, 1⟩
def FRD_SLF_DEF_AIS_PM (f : Nat) : Fld := ⟨0x100708 + 0x10000 * f, 10, 1⟩
def FRD_SLF_DEF_DEG_PM (f : Nat) : Fld := ⟨0x100708 + 0x10000 * f, 9, 1⟩
def FRD_SLF_DEF_BDI_PM (f : Nat) : Fld := ⟨0x100708 + 0x10000 * f, 8, 1⟩
def FRD_SLF_DEF_TIM_PM (f : Nat) : Fld := ⟨0x100708 + 0x10000 * f, 7, 1⟩
def FRD_SLF_DEF_DEG_SM (f : Nat) : Fld := ⟨0x100708 + 0x10000 * f, 6, 1⟩
def FRD_SLF_DEF_BDI_SM (f : Nat) : Fld := ⟨0x100708 + 0x10000 * f, 5, 1⟩
def FRD_SLF_DEF_TIM_SM (f : Nat) : Fld := ⟨0x100708 + 0x10000 * f, 4, 1⟩
def FRD_SLF_DEF_LOM (f : Nat) : Fld := ⟨0x100708 + 0x10000 * f, 3, 1⟩
def FRD_SLF_DEF_LOF (f : Nat) : Fld := ⟨0x100708 + 0x10000 * f, 2, 1⟩
def FRD_SLF_DEF_LOA (f : Nat) : Fld := ⟨0x100708 + 0x10000 * f, 1, 1⟩
def FRD_SLF_DEF_LOS (f : Nat) : Fld := ⟨0x100708 + 0x10000 * f, 0, 1⟩
def FRD_SLF_DEFLAT_LATCHED (f : Nat) : Fld := ⟨0x10070c + 0x10000 * f, 0, 16⟩
def FRD_SLF_TCMDEF_TCM (f : Nat) : Fld := ⟨0x100710 + 0x10000 * f, 0, 30⟩
def FRD_SLF_STAT_FAR_ACQ (f : Nat) : Fld := ⟨0x100714 + 0x10000 * f, 31, 1⟩
def FRD_SLF_STAT_OTUCN_IF (f : Nat) : Fld := ⟨0x100714 + 0x10000 * f, 30, 1⟩
def FRD_SLF_STAT_OTUCN_IM (f : Nat) : Fld := ⟨0x100714 + 0x10000 * f, 29, 1⟩
def FRD_SLF_STAT_SLICE_OOF (f : Nat) : Fld := ⟨0x100714 + 0x10000 * f, 0, 24⟩
def FRD_SLF_CNT_JC_DISAGREE (f : Nat) : Fld := ⟨0x100718 + 0x10000 * f, 16, 16⟩
def FRD_SLF_CNT_DISCONT (f : Nat) : Fld := ⟨0x100718 + 0x10000 * f, 0, 16⟩
def FRD_SLF_GCC_HCRC_ERR (f : Nat) : Fld := ⟨0x10071c + 0x10000 * f, 24, 8⟩
def FRD_SLF_GCC_PCRC_ERR (f : Nat) : Fld := ⟨0x10071c + 0x10000 * f, 16, 8⟩
def FRD_SLF_GCC_UNKNOWN (f : Nat) : Fld := ⟨0x10071c + 0x10000 * f, 8, 8⟩
def FRD_SLF_GCC_TX_DROP (f : Nat) : Fld := ⟨0x10071c + 0x10000 * f, 0, 8⟩
def FRD_PC_CYC_LO_CYC_LO (f : Nat) : Fld := ⟨0x100800 + 0x10000 * f, 0, 32⟩
def FRD_PC_CYC_HI_CYC_HI (f : Nat) : Fld := ⟨0x100804 + 0x10000 * f, 0, 16⟩
def FRD_PC_CTL_FREEZE (f j : Nat) : Fld := ⟨0x100810 + 0x10000 * f + 0x10 * j, 11, 1⟩
def FRD_PC_CTL_EXACT (f j : Nat) : Fld := ⟨0x100810 + 0x10000 * f + 0x10 * j, 10, 1⟩
def FRD_PC_CTL_OVF_IE (f j : Nat) : Fld := ⟨0x100810 + 0x10000 * f + 0x10 * j, 9, 1⟩
def FRD_PC_CTL_EN (f j : Nat) : Fld := ⟨0x100810 + 0x10000 * f + 0x10 * j, 8, 1⟩
def FRD_PC_CTL_EVENT (f j : Nat) : Fld := ⟨0x100810 + 0x10000 * f + 0x10 * j, 0, 8⟩
def FRD_PC_CNT_LO_CNT_LO (f j : Nat) : Fld := ⟨0x100814 + 0x10000 * f + 0x10 * j, 0, 32⟩
def FRD_PC_CNT_HI_CNT_HI (f j : Nat) : Fld := ⟨0x100818 + 0x10000 * f + 0x10 * j, 0, 16⟩
def FRD_PC_STAT_FROZEN (f : Nat) : Fld := ⟨0x100890 + 0x10000 * f, 8, 1⟩
def FRD_PC_STAT_OVF (f : Nat) : Fld := ⟨0x100890 + 0x10000 * f, 0, 8⟩
def FRD_PC_ERBSTAT_DROPPED (f : Nat) : Fld := ⟨0x100894 + 0x10000 * f, 16, 16⟩
def FRD_PC_ERBSTAT_USED (f : Nat) : Fld := ⟨0x100894 + 0x10000 * f, 0, 11⟩
def FRD_PC_ERBCTL_ERB_MODE (f : Nat) : Fld := ⟨0x100898 + 0x10000 * f, 0, 1⟩
def FRD_PC_RELOAD_LO_RELOAD_LO (f j : Nat) : Fld := ⟨0x1008a0 + 0x10000 * f + 0x8 * j, 0, 32⟩
def FRD_PC_RELOAD_HI_RELOAD_HI (f j : Nat) : Fld := ⟨0x1008a4 + 0x10000 * f + 0x8 * j, 0, 16⟩
def FRD_PC_SLOTS_A_WASTED (f : Nat) : Fld := ⟨0x1008e0 + 0x10000 * f, 16, 16⟩
def FRD_PC_SLOTS_A_RETIRED (f : Nat) : Fld := ⟨0x1008e0 + 0x10000 * f, 0, 16⟩
def FRD_PC_SLOTS_B_BACK (f : Nat) : Fld := ⟨0x1008e4 + 0x10000 * f, 16, 16⟩
def FRD_PC_SLOTS_B_FRONT (f : Nat) : Fld := ⟨0x1008e4 + 0x10000 * f, 0, 16⟩

/-- STATE of frond f in PWR_FSTAT0..5 (Table PWR-8). -/
def PWR_FSTAT_STATE (f : Nat) : Fld :=
  ⟨if f < 32 then 0x50000 + 4 * (f / 8) else 0x50018 + 4 * (f / 8 - 4), 4 * (f % 8), 3⟩
/-- WAKING of frond f in PWR_FSTAT0..5. -/
def PWR_FSTAT_WAKING (f : Nat) : Fld :=
  ⟨if f < 32 then 0x50000 + 4 * (f / 8) else 0x50018 + 4 * (f / 8 - 4), 4 * (f % 8) + 3, 1⟩
/-- CAP of frond f in PWR_CAP0..5 (Table PWR-14). -/
def PWR_CAP (f : Nat) : Fld := ⟨0x50068 + 4 * (f / 8), 4 * (f % 8), 2⟩
/-- USABLE of frond f in CAL_FSTAT0..5 (Table CAL-11). -/
def CAL_FSTAT_USABLE (f : Nat) : Fld := ⟨0xb0010 + 4 * (f / 8), 4 * (f % 8) + 3, 1⟩
/-- STEP of frond f in CAL_FSTAT0..5. -/
def CAL_FSTAT_STEP (f : Nat) : Fld := ⟨0xb0010 + 4 * (f / 8), 4 * (f % 8), 3⟩
end R

end Sys2Proof.Machine
end

