-- ==== Sys2Proof/Machine/State.lean ====
section
/-! DEFINITION. The state of the module, as plain data, and its value at reset. Every register field that the host can
read or write has its one home in `State.regs` (a sparse table over BAR0 and BAR2 offsets; the map is
`Machine/Regs.lean`); the rest of the state, which the spec names without a register, stands in the records below. -/
namespace Sys2Proof.Machine

/-- What stops the machine for good. No meaning of this model raises it: a block's commands always have an effect.
The one constructor is for a state that no command reaches. -/
inductive Fault where
  /-- Raised by nobody. Safe: a model that stops allows nothing the hardware forbids. -/
  | unreachable
  deriving DecidableEq, Repr

/-- Why a command has no meaning here. -/
inductive Refusal where
  /-- Raised by a dispatch arm whose command has no meaning yet. Safe: the model stops where the hardware goes on. -/
  | notModelled (mnemonic : String)
  deriving DecidableEq, Repr

/-- A run of consecutive ticks in which a condition was met: its length and the last tick counted. -/
structure Run where
  n : Nat := 0
  last : Nat := 0
  deriving DecidableEq, Repr

/-! ### Host interface (chapter 13) -/

/-- A value an event carries after its object: a 4-byte word, an 8-byte value, or bytes laid out by the owning
chapter (R331). -/
inductive EVal where
  | w (v : Nat)
  | q (v : Nat)
  | raw (b : List Byte)
  deriving DecidableEq, Repr

/-- Which event rings an event goes to: the home rings of tenants (R313), or one function's ring (READ_DONE). -/
inductive EvTo where
  | tenants (l : List Nat)
  | fn (f : Nat)
  deriving DecidableEq, Repr

/-- An event record before it is written (Table HST-9). -/
structure Event where
  code : Nat
  obj : Nat
  tick : Nat
  tenant : Nat := 0
  dest : EvTo := .tenants [0]
  vals : List EVal := []
  deriving DecidableEq, Repr

/-- A completion (Table HST-7) with the ring it goes to. -/
structure Completion where
  src : ReqSrc
  dn : Nat
  seq : Nat
  status : Nat
  part : Nat := 0
  atApply : Bool := false
  detail : Nat := 0
  opcode : Nat
  parts : Nat := 1
  eff : Nat
  doneTick : Nat
  result : Nat := 0
  deriving DecidableEq, Repr

/-- What the module writes to host memory, answers on PCIe, or sends from a contact, in the order it does so. -/
inductive Output where
  | completion (fn ring index : Nat) (phase : Bool) (c : Completion)
  | event (fn index : Nat) (phase lost : Bool) (e : Event)
  | data (fn addr : Nat) (bytes : List Byte) (poison : Bool := false)
  | msix (fn vector : Nat)
  | readReply (fn off : Nat) (value : Word)
  | unsupportedRequest (fn off : Nat)
  | completerAbort (fn off : Nat)
  | mboxReply (channel : Nat) (words : List Word)
  | pmbusReply (value : Nat) (bytes : Nat)
  | pmbusNack
  | mesh (port : Nat) (bytes : List Byte)
  | gcc (frond : Nat) (bytes : List Byte)
  | tdo (bit : Bool)
  | tickOut (cycles : Nat)
  | ppsOut (cycle : Nat)
  | doe (bytes : List Byte)
  | odu (ep : Nat) (toDst : Bool) (kind : Nat) (bytes : List Byte)
  deriving DecidableEq, Repr

/-- One command ring with its completion ring, as latched at enable (R314). `requests` counts the requests fetched
since enable, each of which reserves one completion entry (R317); `head` is CQ_HEAD and `tail` CR_TAIL as last read. -/
structure Ring where
  crBase : Nat := 0
  cqBase : Nat := 0
  log2 : Nat := 4
  head : Nat := 0
  tail : Nat := 0
  requests : Nat := 0
  deriving DecidableEq, Repr

/-- One MSI-X vector (R335). -/
structure Vector8 where
  masked : Bool := true
  pending : Bool := false
  fresh : Bool := false
  last : Option Nat := none
  deriving DecidableEq, Repr

/-- What a function holds beside its host block (R309, R335, R337). -/
structure FnState where
  vfEnabled : Bool := false
  busMaster : Bool := false
  rings : Tab Ring := []
  eqBase : Nat := 0
  eqLog2 : Nat := 4
  eqHead : Nat := 0
  eqLostMark : Bool := false
  waiting : List Event := []
  vectors : Tab Vector8 := []
  dropped : Bool := false
  deriving DecidableEq, Repr

/-- Read-out data on its way to host memory (R330). -/
structure ReadJob where
  fn : Nat
  ring : Nat
  seq : Nat
  addr : Nat
  data : List Byte
  poison : Bool := false
  eff : Nat
  doneBy : Nat
  deriving DecidableEq, Repr

/-- A tenant (R254, R312). -/
structure TenantRec where
  active : Bool := false
  unitQuota : Nat := 0
  saQuota : Nat := 0
  granQuota : Nat := 0
  overUnits : Bool := false
  overSa : Bool := false
  overGran : Bool := false
  deriving DecidableEq, Repr

/-- The state of the host interface beside its registers. -/
structure HostSt where
  fns : Tab FnState := []
  requests : List Request := []
  done : List Completion := []
  events : List Event := []
  reads : List ReadJob := []
  readBudgetUsed : Nat := 0
  posted : List (Nat × Nat) := []
  gccDrops : Tab Nat := []
  gccDropTick : Tab Nat := []
  tenants : Tab TenantRec := []
  release : List (Nat × Nat) := []
  bootReport : Bool := false
  deriving DecidableEq, Repr

/-! ### Fault collection (chapter 25) -/

/-- A reaction entry (R567). -/
structure React where
  action : Nat
  alert : Bool
  deriving DecidableEq, Repr

/-- The pinned record (Table FLT-5). -/
structure Pinned where
  msg : FaultMsg
  flags : Nat
  count : Nat
  logIndex : Nat
  esec : Nat
  date : Nat
  time : Nat
  pseq : Nat
  deriving DecidableEq, Repr

/-- The fault collector beside its registers. `log` keeps the last 4,096 logged messages by entry, each with its
message number; `safeNext` (kind and source), `warmNext` and `blockNext` are the actions decided in this tick. -/
structure FaultSt where
  react : Tab React := []
  log : Tab (Option (Nat × FaultMsg)) := []
  logged : Nat := 0
  loggedTick : Nat := 0
  pinned : Option Pinned := none
  pinClearTick : Option Nat := none
  safeNext : Option (Nat × Nat) := none
  warmNext : Option Nat := none
  blockNext : List Nat := []
  evSev : Nat := 1
  held : List FaultMsg := []
  alertN : Bool := true
  faultN : Bool := false
  deriving DecidableEq, Repr

/-! ### Cross-connect (chapter 10) -/

/-- A copy of an ODU frame at the cross-connect. `src`: 0 SRC or leg A, 1 DST, 2 leg B, 4 + j member j of an
inverse-multiplexed end; `arr`: the tick of its extraction; `signal`: a carried replacement signal (Table SLF-8); `auth`:
the key slot, INV and epoch it authenticated under; `phase`: the member that holds the first block of the frame; `done`: its
frame has been released or dropped. -/
structure Copy where
  src : Nat
  stamp : Nat
  arr : Nat
  mfas : Nat
  sf : Nat
  clean : Bool
  signal : Option Nat
  auth : Option (Nat × Nat × Nat)
  phase : Nat
  bytes : List Byte
  oh : List OhObs := []
  done : Bool := false
  deriving DecidableEq, Repr

/-- What the egress decision of tick `made` leaves for the cross-connect. `kind`: 0 a clean frame, 1 a replacement frame, 2 + i carried
signal i; `leg`: the leg taken. -/
structure Decided where
  made : Nat
  toDst : Bool
  kind : Nat
  leg : Nat
  bytes : List Byte
  deriving DecidableEq, Repr

/-- An endpoint: its entry, its slot lists (R323), its counters (Table XC-7), the tick of its creation or restart, the frames released
toward SRC, the frames it holds, the state of a Lichen
pair or an inverse-multiplexed group (R244..R251). `refLeg`: 0 leg A, 1 leg B. -/
structure Endpoint where
  entry : XcEntry := {}
  born : Nat := 0
  slotsSrc : List Nat := []
  slotsDst : List Nat := []
  slotsLegB : List Nat := []
  frames : Nat := 0
  framesSrc : Nat := 0
  replaced : Nat := 0
  legChanges : Nat := 0
  reanchors : Nat := 0
  copies : List Copy := []
  decided : List Decided := []
  refLeg : Nat := 0
  delta : Nat := 0
  matchedRun : Run := {}
  aloneRun : Run := {}
  aloneLeg : Nat := 0
  deltaRun : Run := {}
  shiftRun : Run := {}
  refOffset : Option Nat := none
  exceeded : Bool := false
  failRun : Tab Run := []
  clearRun : Tab Run := []
  failed : List Nat := []
  switchTick : Option Nat := none
  skewRun : Run := {}
  skewBad : Bool := false
  encTick : Option Nat := none
  deriving DecidableEq, Repr
/-! ### Receive front end of a frond (chapter 3) -/

/-- A front filter bank (Table RFE-4): 64 coefficient words for X, then 64 for Y. -/
structure FirBank where
  id : Nat := 0
  mainX : Nat := 32
  mainY : Nat := 32
  taps : List Word :=
    (List.range 128).map fun i => if i % 64 = 32 then (0x400 : Word) else 0
  deriving DecidableEq, Repr

/-- The receive front end beside its registers. Powers are in 0.01 dBm; `stuck` lists the stuck sub-converters as
(ADC, index); `swapAt` is the tick of a scheduled bank swap. -/
structure RxSt where
  bank0 : FirBank := {}
  bank1 : FirBank := {}
  swapAt : Option Nat := none
  gain : Nat := 0
  rot : Int := 0
  stuck : List (Nat × Nat) := []
  stuckRun : Tab Run := []
  freeRun : Tab Run := []
  dark : Bool := false
  linePower : Int := 0
  laserPower : Int := 0
  low : Bool := false
  high : Bool := false
  loLow : Bool := false
  lowRun : Run := {}
  lowClr : Run := {}
  highRun : Run := {}
  highClr : Run := {}
  loRun : Run := {}
  loClr : Run := {}
  insrcTick : Option Nat := none
  deriving DecidableEq, Repr

/-! ### Acquisition, equaliser, loading and transmit chain of a frond (chapters 4, 5 and 6) -/

/-- Acquisition beside FRD_ACQ_*. `leftTick`: when ACQUIRED or IDLE was left; `coldTick`: entry into COLD; `warm`: the
attempt runs from WARM; `periods`: superframe periods in WARM with light and no detection; `unverified`: consecutive
unverified Fiddleheads; `lag`: the stamp lag L in DSP cycles (R36); `phase`: the symbol timing phase in 1/64 symbol. -/
structure AcqSt where
  leftTick : Nat := 0
  coldTick : Nat := 0
  warm : Bool := false
  periods : Nat := 0
  unverified : Nat := 0
  coarse : Nat := 0
  phase : Int := 0
  lag : Nat := 0
  lastStamp : Nat := 0
  floodRun : Nat := 0
  floodTick : Nat := 0
  trimRun : Run := {}
  trimStep : Int := 0
  trimTick : Nat := 0
  lossTick : Option Nat := none
  deriving DecidableEq, Repr

/-- The equaliser beside FRD_EQ_*. `d` and `slope`: the applied dispersion and slope; `cands`: the candidates of the
cold search still to try, the first in trial; `fitRun`: superframes in a row with an accepted fit; `kept`: a retained
state exists; `keptTaps`: taps, rotator, slow offsets and timing phase are part of it; `deepest`: the deepest power
state since F0 or F1 was last left (R123); `trackNext`, `trackHost`: a tracking mode that AUTO or the host puts in force
with the next received superframe. -/
structure EqSt where
  d : Int := 0
  slope : Int := 0
  lastFit : Int := 0
  cands : List Int := []
  candTick : Nat := 0
  fitRun : Nat := 0
  searching : Bool := false
  preconv : Bool := false
  preTick : Nat := 0
  kept : Bool := false
  keptTaps : Bool := false
  discard : Bool := false
  deepest : Nat := 0
  track : Nat := 0
  trackNext : Option Nat := none
  trackHost : Option Nat := none
  slowRun : Run := {}
  sopRun : Run := {}
  sopRaised : Bool := false
  fofsRun : Run := {}
  fofsRaised : Bool := false
  windowBad : Bool := false
  hostRamp : Bool := false
  ntaps : Nat := 15
  deriving DecidableEq, Repr

/-- A pending swap of the transmit loading table: announced from `start`, in force from `swap` (R144, R147). -/
structure TxSwap where
  codes : List Nat
  tid : Nat
  cause : Nat
  start : Nat
  swap : Nat
  deriving DecidableEq, Repr

/-- The announcement last received from the far end (Table SUB-3), predicting a swap at stamp `swapStamp`. -/
structure RxNotice where
  tid : Nat
  codes : List Nat
  swapStamp : Nat
  deriving DecidableEq, Repr

/-- Loading beside FRD_LD_*. `txCodes`, `rxCodes`: the transmit table and the table of the last received header;
`reqCodes`, `reqBase`, `reqTick`: the own request and the tick it was issued or ended; `acks`: the latest
acknowledgements, newest first: the first superframe that carries each, its sequence and status; `startCodes`: the
starting table of the line set-up (R148); `snrSum`, `snrCnt`: the sums of the
160-tick window of R141 per sub-carrier. -/
structure LdSt where
  txCodes : List Nat := List.replicate 32 0
  rxCodes : List Nat := List.replicate 32 0
  pend : Option TxSwap := none
  reqCodes : List Nat := List.replicate 32 0
  reqBase : Nat := 0
  reqTick : Nat := 0
  reqEnd : Nat := 0
  acks : List (Nat × Nat × Nat) := []
  startCodes : List Nat := List.replicate 32 0
  lastSwap : Option Nat := none
  notice : Option RxNotice := none
  rxKnown : Bool := false
  inferred : Nat := 0
  inferTick : Option Nat := none
  planTick : Option Nat := none
  zeroNext : List Nat := []
  snrSum : List Int := List.replicate 32 0
  snrCnt : List Nat := List.replicate 32 0
  deriving DecidableEq, Repr

/-- The transmit chain beside FRD_TX_*. `precd`: the pre-compensation in force; `squelched`: a cause of R153 holds. -/
structure TxSt where
  precd : Int := 0
  precdTick : Nat := 0
  squelched : Bool := true
  power : Int := 0
  limitRun : Bool := false
  gridRun : Run := {}
  gridRaised : Bool := false
  deriving DecidableEq, Repr

/-! ### FEC and line frame of a frond (chapters 7 and 8) -/

/-- A delivered superframe that waits for inner decoding: its stamp, SF_COUNT when its header was decoded, the
sub-carriers whose body LLRs are all 0 (R139), the table it was demapped under, and whether it begins after a
discontinuity (R186). -/
structure Arrived where
  stamp : Nat
  sf : Option Nat
  zeroed : List Nat
  codes : List Nat
  first : Bool
  deriving DecidableEq, Repr

/-- What inner decoding leaves for the outer decoder (R169, R170): whether each codeword settled, the codewords
whose working memory failed (R167), and the erased LLRs. -/
structure InnerResult where
  stamp : Nat
  sf : Option Nat
  first : Bool
  settled : List Bool
  memFail : List Nat
  erased : Nat
  deriving DecidableEq, Repr

/-- The FEC beside FRD_FEC_*. `inner`: superframes decoded in slot T+1 that wait for slot T+2. `iterWas`: the iteration
limit in force in the previous tick (R171). -/
structure FecSt where
  arrived : List Arrived := []
  inner : List InnerResult := []
  uncTick : Option Nat := none
  poolTick : Option Nat := none
  lowRun : Nat := 0
  lowTick : Option Nat := none
  lowRaised : Bool := false
  iterWas : Nat := 32
  deriving DecidableEq, Repr

/-- A received byte with its errored or poison mark. -/
abbrev OhByte := Byte × Bool

/-- Frame alignment of one slice (Table SLF-4): 0 search, 1 candidate, 2 in frame; `count`: matches, or errored FAS in a
row; `buf`: the bytes held, from the start of the candidate or of the current frame; `bip`: the BIP-8 of the last two
complete frames, the later first. -/
structure SliceFa where
  st : Nat := 0
  count : Nat := 0
  buf : List OhByte := []
  bip : List Nat := []
  deriving DecidableEq, Repr

/-- One overhead layer (R193..R198): 0 SM, 1 PM, 2..7 TCM1..TCM6. TTI bytes under reception and accepted, the BDI and
STAT persistence counts, the degrade count, the near-end and far-end blocks of the PM second and the errored ones. `mode`: a TCM level is OPERATIONAL. -/
structure OhLayer where
  ttiSent : List Byte := List.replicate 64 0
  ttiExp : List Byte := List.replicate 64 0
  ttiRx : List Byte := []
  ttiPrev : List Byte := []
  ttiSame : Nat := 0
  ttiGood : Bool := true
  ttiAcc : Option (List Byte) := none
  bdiOn : Nat := 0
  bdiOff : Nat := 0
  statCand : Nat := 1
  statRun : Nat := 0
  statAcc : Nat := 1
  mode : Bool := false
  dLtc : Bool := false
  dTim : Bool := false
  dBdi : Bool := false
  dDeg : Bool := false
  dAis : Bool := false
  dLck : Bool := false
  dOci : Bool := false
  blocks : Nat := 0
  farBlocks : Nat := 0
  badRun : Nat := 0
  goodRun : Nat := 0
  pmN : Nat := 0
  pmBad : Nat := 0
  pmFarN : Nat := 0
  pmFarBad : Nat := 0
  deriving DecidableEq, Repr

/-- Acceptance of one PSI byte (R197): the candidate, how many multiframes in a row, the accepted value. -/
structure PsiAcc where
  cand : Nat := 0
  run : Nat := 0
  acc : Option Nat := none
  deriving DecidableEq, Repr

/-- A GCC frame waiting to be sent (Table SLF-9). -/
structure GccFrame where
  typ : Nat
  payload : List Byte
  deriving DecidableEq, Repr

/-- The line frame beside FRD_SLF_*. `releaseTick`: release of the line function (R185); `tickAllIf`: every frame start of
this tick was in frame (R188); `mfIdx`: the aligned multiframe count; `ssfSecond`: aSSF was in force in this second;
`beiSum`: violations to report per layer and slice (R194); `gccRx`: received channel bytes not yet taken, an unusable one
marked; `gccHost`, `gccFw`: queued frames; `gccFwRx`: frames received for update firmware; `dMsim`: slots with dMSIM;
`acqBoundary`: ACQUIRED held at the last boundary; `txBoh`, `txHeader`, `txBei`, `txBdi`: what was last sent. -/
structure SlfSt where
  slices : Tab SliceFa := []
  inFrame : Bool := false
  tickAllIf : Bool := false
  oofRun : Run := {}
  ifRun : Run := {}
  inMf : Bool := false
  mfCount : Nat := 0
  mfMiss : Nat := 0
  mfIdx : Nat := 0
  lastMfas : Nat := 0
  omRun : Run := {}
  imRun : Run := {}
  layers : Tab OhLayer := []
  psi : Tab PsiAcc := []
  dMsim : List Nat := []
  releaseTick : Nat := 0
  ssfSecond : Bool := false
  beiSum : Tab Nat := []
  gccRx : List OhByte := []
  gccSeq : Nat := 0
  gccHost : List GccFrame := []
  gccFw : List GccFrame := []
  gccFwRx : List GccFrame := []
  gccLastFw : Bool := false
  acqBoundary : Bool := false
  txBoh : Nat := 0
  txHeader : Nat := 0
  txBei : Tab Nat := []
  txBdi : List Bool := []
  deriving DecidableEq, Repr

/-! ### Frond statistics (R218) -/

/-- One frond bin in progress (Table PM-2). `worst`: the bit errors and sent bits of the PM second with the highest
pre-FEC BER. -/
structure FrondBin where
  codewords : Nat := 0
  uncorrected : Nat := 0
  innerBits : Nat := 0
  sentBits : Nat := 0
  worst : Option (Nat × Nat) := none
  ngmiMin : Option Nat := none
  snrMin : Option Int := none
  uncSeconds : Nat := 0
  losses : Nat := 0
  slips : Nat := 0
  seconds : Nat := 0
  suspect : Bool := false
  sat : Bool := false
  deriving DecidableEq, Repr

/-- The frond's bins, and what the PM second in progress has gathered: codewords, UNCORRECTED codewords, INNER_BITS, sent bits,
whether a superframe was delivered, whether aSSF and dBDI of SM and PM were in force; the starts of the two bins. -/
structure FrondPm where
  b15 : FrondBin := {}
  b24 : FrondBin := {}
  secCw : Nat := 0
  secUnc : Nat := 0
  secInner : Nat := 0
  secSent : Nat := 0
  secAny : Bool := false
  ssf : Bool := false
  smBdi : Bool := false
  pmBdi : Bool := false
  start : Nat := 0
  start24 : Nat := 0
  deriving DecidableEq, Repr

/-! ### Pipeline counters (chapter 26) -/

/-- An exact record (Table CNT-2). -/
structure ExactRec where
  tick : Nat
  event : Nat
  counter : Nat
  cycle : Nat
  detail : Nat
  deriving DecidableEq, Repr

/-- The pipeline counters of a frond. `counts`: the counts as they run (the registers show the last boundary); `stopped`:
counters frozen at their own overflow; `allStop`: every counter stopped; `ovf`: overflows and skid of this tick per
counter; `freezeTick`: the tick of an overflow with FREEZE; `slots`: RETIRED, WASTED and BACK_STARVED of the superframes
decoded in this tick and their number. -/
structure PcSt where
  cyc : Nat := 0
  counts : List Nat := List.replicate 8 0
  stopped : List Bool := List.replicate 8 false
  allStop : Bool := false
  resume : Bool := false
  freezeTick : Option Nat := none
  ovf : List (Nat × Nat) := List.replicate 8 (0, 0)
  erb : List ExactRec := []
  dropped : Nat := 0
  fullRaised : Bool := false
  slots : Nat × Nat × Nat × Nat := (0, 0, 0, 0)
  acqFrom : Option (Nat × Nat) := none
  deriving DecidableEq, Repr

/-! ### Memory integrity (chapter 24) -/

/-- The parity findings of one instance since its last MEM_PARITY. -/
structure ParityRun where
  last : Option Nat := none
  count : Nat := 0
  msgTick : Option Nat := none
  first : Option Nat := none
  deriving DecidableEq, Repr

/-- A range pass (R562): its byte range as keys, how far it is, what it found. -/
structure MemPassSt where
  memory : Nat
  frond : Option Nat
  first : Nat
  len : Nat
  buf : Nat
  fn : Nat
  ring : Nat
  start : Nat
  done : Nat := 0
  corrected : Nat := 0
  uncorrected : Nat := 0
  firstUe : Nat := 0xffffffff
  fenceFull : Bool := false
  deriving DecidableEq, Repr

/-- Memory integrity. A byte of a protected memory is named by the 40 address bits of its fault message (R556).
`flips`: the bits of its stored 13-bit codeword that differ from the codeword of its content (R552); `fence`: the fence
list; `confirm`: bytes to re-read, with the tick of the finding. -/
structure MemSt where
  flips : Tab Nat := []
  fence : List Nat := []
  confirm : List (Nat × Nat) := []
  fullRaised : Bool := false
  ceTick : Tab (Option Nat) := []
  parity : Tab ParityRun := []
  scrub : Nat := 0
  pass : Option MemPassSt := none
  deriving DecidableEq, Repr

/-! ### Peat (chapter 20) -/

/-- The calendar (R491); the sub-second count has its own rule (assumption on PEAT_CAL_SUB). -/
structure Cal where
  year : Nat := 2000
  month : Nat := 1
  day : Nat := 1
  hour : Nat := 0
  minute : Nat := 0
  second : Nat := 0
  deriving DecidableEq, Repr

/-- The Peat domain: what every reset keeps. `store` is the life store by word index; `remap` lists the words remapped
to the spare pool, in order (R502). `floor`: stamps below it were made before a loss of Peat power (R503). `hotLow`: HOT
has read 40 degrees or less since the last thermal cycle counted. `commitDue`: an event counter or the epoch changed in
this Peat second. `held`: events that wait for release (R504). `subTick`: the tick of the last reset of the sub-second
count. `pinTime`: the Peat second of the last copy of a changed pinned record, `pinDue` one that waits. -/
structure PeatSt where
  powered : Bool := true
  onBackup : Bool := false
  esec : Nat := 0
  cal : Cal := {}
  valid : Bool := false
  expired : Bool := false
  subTick : Option Nat := none
  epoch : Nat := 0
  prevEpoch : Nat := 0
  counters : Tab Nat := []
  store : Tab Word := []
  remap : List Nat := []
  badCopies : List Nat := []
  lifeSeq : Nat := 0
  lastCommit : Nat := 0
  commitDue : Bool := false
  markerSeq : Nat := 0
  pinSeq : Nat := 0
  pinTime : Option Nat := none
  pinDue : Bool := false
  floor : Nat := 0
  hotLow : Bool := true
  held : List Event := []
  deriving DecidableEq, Repr

/-! ### Boot, reset and fuses (chapters 1, 15, 19 and 21) -/

/-- A record of the configuration image as applied at release (Table BOOT-5). -/
inductive ImgRec where
  | regWrite (off : Nat) (value : Word)
  | descriptor (bytes : List Byte)
  | blob (off : Nat) (bytes : List Byte)
  | calSet (bytes : List Byte)
  deriving DecidableEq, Repr

/-- A configuration image that passed R473 and R474. -/
structure Image where
  schema : Nat
  target : Nat
  generation : Nat
  epoch : Nat
  calRun : Bool
  bytes : List Byte
  records : List ImgRec
  deriving DecidableEq, Repr

/-- A block in reset (R485): its ID, the tick at which the reset ends, and the accesses its wrapper refused. `suspended`:
a thermal trip gated it. -/
structure BlockReset where
  id : Nat
  ends : Nat
  refused : Nat := 0
  suspended : Bool := false
  deriving DecidableEq, Repr

/-- Boot and reset beside RST_*. `rstN`, `pwrOk`: pin levels; `pinBoot`, `pinClk`: strap pins now; `warm`: a module warm
reset is in progress; `warmReq`: the cause of a requested one; `blockReqs`: block resets that take effect at the next
boundary; `tried`: the slots that SECURE has tried; `image`: the accepted image; `mesh`, `meshTotal`, `meshPort`: image bytes
received over the mesh; `unannounced`, `reverted`: reported at release; `load`: the kind, address and length of the load-window
transfer in progress; `report`: RST_BOOT_REPORT of this boot as gathered so far. -/
structure BootSt where
  rstN : Bool := true
  pwrOk : Bool := true
  pinBoot : Nat := 0
  pinClk : Nat := 0
  warm : Bool := false
  warmReq : Option Nat := none
  blockReqs : List Nat := []
  inReset : List BlockReset := []
  tried : List Nat := []
  image : Option Image := none
  mesh : List Byte := []
  meshTotal : Nat := 0
  meshPort : Option Nat := none
  held : List FaultMsg := []
  unannounced : Bool := false
  reverted : Bool := false
  load : Option (Nat × Nat × Nat) := none
  report : Nat := 0xffff0000
  deriving DecidableEq, Repr

/-! ### Security associations and the secure domain (chapters 12 and 15) -/

/-- A key in a slot: KEY, SALT, EPOCH, the INV of the next frame it encrypts, the highest INV released (R294), the last
tick in which it authenticated a copy. -/
structure KeySlot where
  key : List Byte
  salt : List Byte
  epoch : Nat
  inv : Nat := 0
  hi : Option Nat := none
  authTick : Option Nat := none
  deriving DecidableEq, Repr

/-- A security association (Table CRY-6). `state`: Table CRY-3; `nxt`: 0 empty, 1 new, 2 previous; `rolledAt`: R of the
last roll; `lastRx`: the epoch of the previous release; the last three: AUTH_FAIL failures of the tick. -/
structure SaRec where
  state : Nat := 0
  cur : Nat := 0
  nxt : Nat := 0
  role : Nat := 0
  tenant : Nat := 0
  bound : Option Nat := none
  slot0 : Option KeySlot := none
  slot1 : Option KeySlot := none
  soft : Nat := 0
  softSeen : Bool := false
  rollTick : Option Nat := none
  rolledAt : Nat := 0
  peer : Nat := 0
  peerSa : Nat := 0
  authFail : Nat := 0
  authOk : Nat := 0
  replay : Nat := 0
  plain : Nat := 0
  lastRx : Option Nat := none
  failEvent : Option Nat := none
  failTick : Nat := 0
  failures : Nat := 0
  failReason : Nat := 0
  deriving DecidableEq, Repr

/-- A tenant's key-encryption key, with the tick its install took effect. -/
structure Kek where
  key : List Byte
  tick : Nat
  deriving DecidableEq, Repr

/-- An action on a KEK that takes effect at the next boundary (R375): install, or erase with a reason. -/
inductive KekAct where
  | install (tenant : Nat) (key : List Byte)
  | erase (tenant reason : Nat)
  deriving DecidableEq, Repr

/-- A deferred effect on a held block (R379): its kind (Table SEC-12), its source, the frond state asked for. -/
structure Deferred where
  kind : Nat
  source : Nat
  target : Nat
  deriving DecidableEq, Repr

/-- The secure domain beside its registers. `keyWords`: the key words written since KEY0; `keReady`: the tick and ERR
result awaited by BUSY; `ops`: operations since the last reseed; `nonce`: the boot nonce; `challenge`: the channel, its
value and the tick of the reply; `released`: holds released by HOLD_RELEASE that wait for the boundary; `down`: crypto units that do not run; `keDown`: the
key engine or the entropy source was stopped; `freed`: held units whose deferred frond state a HOLD_RELEASE allows; `denied`,
`deniedTick`: for BAR2_DENIED; `entFails`: ticks of recent entropy failures; `loads`: KEY_LOADs accepted per effective
tick. -/
structure SecSt where
  ide : Bool := false
  keks : Tab (Option Kek) := []
  kekActs : List KekAct := []
  keyWords : List Nat := []
  busyOp : Nat := 0
  ops : Nat := 0
  nonce : List Byte := []
  challenge : Option (Nat × Nat × Nat) := none
  retireNext : Bool := false
  deferred : Tab (Option Deferred) := []
  released : List Nat := []
  down : List Nat := []
  keDown : Bool := false
  freed : List Nat := []
  denied : Nat := 0
  deniedTick : Option Nat := none
  entFails : List Nat := []
  loads : Tab Nat := []
  deriving DecidableEq, Repr

/-! ### Client ports (chapter 11) -/

/-- A port by its first lane. `hits`, `misses`: alignment markers found and missed in a row per PCS lane, FEC lane or
instance; `locked`: the locked ones; `waitSop`: idles are mapped until the next start of packet; `level`: the egress
buffer level; `adapt`: the adaptation of the tick; `repl`: a replacement run is on; `txRow`: the row of Table CLT-5 in
force, 1..6; `kinds`: frames switched toward the port, each with the tick of the switching and its kind; the remainders of counters in units of 1,024; the OTUCn of
a FlexO-x port with its defects; what the PM second in
progress has gathered; `own`: the port's own egress decisions by egress tick (Table TCK-8). -/
structure PortSt where
  client : Nat := 0
  width : Nat := 0
  rate : Nat := 0
  inst : Nat := 0
  txclk : Nat := 0
  rclk : Option Nat := none
  group : Nat := 0
  running : Bool := false
  release : Nat := 0
  hits : Tab Nat := []
  misses : Tab Nat := []
  locked : List Nat := []
  inverted : List Nat := []
  aligned : Bool := false
  blockLock : Bool := false
  hiSer : Bool := false
  gidm : Bool := false
  pidm : List Nat := []
  rdi : Bool := false
  rxState : Nat := 0
  waitSop : Bool := false
  lf : Bool := false
  rf : Bool := false
  level : Int := 2048
  adapt : Int := 0
  adaptTick : Option Nat := none
  repl : Bool := false
  txRow : Nat := 4
  kinds : List (Nat × Nat) := []
  cwRem : Nat := 0
  insRem : Nat := 0
  delRem : Nat := 0
  ovfTick : Option Nat := none
  inFrame : Bool := false
  inMf : Bool := false
  dLof : Bool := false
  dLom : Bool := false
  oofRun : Run := {}
  ifRun : Run := {}
  omRun : Run := {}
  imRun : Run := {}
  layers : Tab OhLayer := []
  secCw : Nat := 0
  secUnc : Nat := 0
  secNear : Bool := false
  secFar : Bool := false
  own : List TwinRec := []
  deriving DecidableEq, Repr

/-! ### Endpoint performance monitoring (chapter 9) -/

/-- One PM second of an endpoint, as classified (Table PM-1): near end SES, ES, BBE; far end the same and whether it is
excluded; whether it counts as unavailable. -/
structure SecRec where
  endTick : Nat
  neSes : Bool
  neEs : Bool
  neBbe : Nat
  feSes : Bool
  feEs : Bool
  feBbe : Nat
  feOut : Bool
  neUn : Bool
  feUn : Bool
  deriving DecidableEq, Repr

/-- A bin: the eight counts of Table PM-4, thresholds already raised, SUSPECT, SAT, seconds committed, its start and its
closing boundary. -/
structure EpBin where
  counts : List Nat := List.replicate 8 0
  fired : List Nat := []
  suspect : Bool := false
  sat : Bool := false
  secs : Nat := 0
  start : Nat := 0
  endTick : Nat := 0
  deriving DecidableEq, Repr

/-- PM of an endpoint. `startTick`: the first PM second counted begins there; `window`: the pending seconds, oldest first;
`neAvail`, `feAvail`: availability; `neRun`, `feRun`: seconds in a row against it; `closing15`, `closing24`: bins closed at a
boundary whose seconds are still pending; `last15`, `last24`: the last closed bins. The rest: what the PM second in progress
has gathered. -/
structure EpPm where
  startTick : Nat := 0
  window : List SecRec := []
  neAvail : Bool := true
  feAvail : Bool := true
  neRun : Nat := 0
  feRun : Nat := 0
  b15 : EpBin := {}
  b24 : EpBin := {}
  closing15 : List EpBin := []
  closing24 : List EpBin := []
  last15 : Option EpBin := none
  last24 : Option EpBin := none
  secBlocks : Nat := 0
  secBad : Nat := 0
  secFarBlocks : Nat := 0
  secFarBad : Nat := 0
  secDefect : Bool := false
  secFarDefect : Bool := false
  deriving DecidableEq, Repr

/-- A PM bin record that waits to be written: its tenant, its object (an endpoint or a frond), its bin length, the tick from
which it may be written, its bytes 16..63 (R223, R224); `zero`: eight counts of 0 and no flag. -/
structure PmRecord where
  tenant : Nat
  obj : Nat
  len : Nat
  due : Nat
  frondRec : Bool
  zero : Bool
  bytes : List Byte
  deriving DecidableEq, Repr

/-- Performance monitoring as a whole: the anchor, the profiles, what each endpoint counts, the records that wait in the
order they are written, the records written in a tick. -/
structure PmSt where
  anchor : Nat := 0
  profiles : Tab (List Nat) := []
  eps : Tab (Option EpPm) := []
  waiting : List PmRecord := []
  budgetTick : Nat := 0
  budgetUsed : Nat := 0
  deriving DecidableEq, Repr


/-! ### Timing and the twin (chapters 16 and 2) -/

/-- An input REFIN0..3 (0..3) or PPSIN0..1 (4..5). `code`: FREQ, or bit 0 for a falling edge. -/
structure TimInput where
  enable : Bool := false
  code : Nat := 0
  delay : Int := 0
  deriving DecidableEq, Repr

/-- A candidate (Table TIM-1): the tick from which it has been present, whether it is qualified, whether it was
disqualified since it was enabled, its offset in the last complete window in 0.001 ppm, the latest timing report of a mesh
candidate: its tick, DPLL0 state, DEPTH and FOLLOWED. -/
structure Cand where
  since : Option Nat := none
  qual : Bool := false
  disq : Bool := false
  offset : Option Int := none
  rptTick : Option Nat := none
  rptState : Nat := 0
  rptDepth : Nat := 0
  rptFollowed : Nat := 0
  deriving DecidableEq, Repr

/-- A DPLL beside TIM_DPLLd_*. `bw`: the five codes of TIM_DPLL; `inRun`, `edgeRun`: ticks or edges within the lock
limit; `outRun`: ticks outside it; `lockedAt`: the tick it became LOCKED; `lockLen`: the length of its most recent ended
LOCKED period; `hoTick`: entry into HOLDOVER; `goal`: the frequency that FREE_RUN or HOLDOVER moves to. -/
structure Dpll where
  mode : Nat := 0
  force : Nat := 0
  revert : Bool := true
  bw : Nat := 0x46c3
  hoSpec : Nat := 86400
  inRun : Run := {}
  edgeRun : Nat := 0
  outRun : Run := {}
  lockedAt : Option Nat := none
  lockLen : Nat := 0
  hoTick : Nat := 0
  goal : Int := 0
  deriving DecidableEq, Repr

/-- An output: CLKOUT0..7 (0..7), MCLK0..1 (8..9). It is held static until tick `heldTo` after a change. -/
structure TimOut where
  freq : Nat := 0
  src : Nat := 0
  sq : Nat := 0
  heldTo : Option Nat := none
  deriving DecidableEq, Repr

/-- A time-of-day label: its date and time, whether its SECOND is 60, and the leap-second flags of its message. -/
structure TodLabel where
  cal : Cal
  leap : Bool
  flags : Nat
  deriving DecidableEq, Repr

/-- Time-of-day reception beside one PPSIN: the label for the next edge, the label of the last edge, consecutive edges in
sequence, the date of the last message that announced a positive leap second. -/
structure TodIn where
  next : Option TodLabel := none
  prev : Option TodLabel := none
  run : Nat := 0
  leapDay : Option Nat := none
  deriving DecidableEq, Repr

/-- The twin relationship. `uid`: the peer; `lanes`: the twin-aligned lanes; `offset`: the twin offset; `sub`: the last
measured sub-tick offset in 1/32 core cycle and its tick; `rtt`: the round trip in 1/16 core cycle; `probe`: the last probe sent;
`gotProbe`: the last probe received: the TICK it carried, arrival tick and offset; `recs`: records received, by egress tick
times 512 plus lane; `missed`: missed ticks in a row per lane; `psi`: the steering phase, in ppb times ticks. -/
structure TwinSt where
  on : Bool := false
  uid : Nat := 0
  peer : Nat := 0
  lanes : Nat := 0
  offset : Option Int := none
  sub : Int := 0
  subTick : Option Nat := none
  rtt : Option Int := none
  probe : Option (Nat × Nat) := none
  gotProbe : Option (Nat × Nat × Nat) := none
  recs : Tab (Option TwinRec) := []
  missed : Tab Nat := []
  missTotal : Nat := 0
  lookTick : Option Nat := none
  goodRun : Run := {}
  farRun : Run := {}
  lapsedAt : Nat := 0
  psi : Int := 0
  limitRun : Run := {}
  deriving DecidableEq, Repr

/-- The timing block beside its registers. `stepDue`: a time step for the next boundary. -/
structure TimSt where
  inputs : Tab TimInput := []
  wtr : Nat := 300
  prio : List Nat := List.replicate 16 0
  dplls : Tab Dpll := []
  cands : Tab Cand := []
  outs : Tab TimOut := []
  ppsMode : Nat := 0
  ppsStep : Bool := false
  ppsTarget : Nat := 0
  ppsLast : Option Nat := none
  lastEdge : Tab (Option Nat) := []
  todSrc : Nat := 3
  todStep : Bool := false
  tod : Tab TodIn := []
  stepDue : Option (Cal × Nat) := none
  twin : TwinSt := {}
  deriving DecidableEq, Repr

/-! ### The Rhizome mesh (chapter 17) -/

/-- A lane's receiver: consecutive good headers, the headers of the last 64 that were bad (1) or not, oldest first, the
LANE value and ALIGN_CNT of its last alignment blocks, how many it has received in a row. -/
structure MeshLane where
  good : Nat := 0
  recent : List Bool := []
  lane : Option Nat := none
  blocks : Nat := 0
  deriving DecidableEq, Repr

/-- A mesh port beside its registers: what its last HELLO carried and when it came, the tick in which a HELLO with another
UID came, alignment rounds missed in a row, the messages queued by class, the HELLO last sent and when. -/
structure MeshPort where
  lanes : Tab MeshLane := []
  aMiss : Nat := 0
  uid : Option Nat := none
  epoch : Nat := 0
  flags : Nat := 0
  helloTick : Option Nat := none
  uidTick : Option Nat := none
  queue : List (Nat × List Byte) := []
  sentHello : Option (List Byte) := none
  sentTick : Nat := 0
  deriving DecidableEq, Repr

/-- A database entry (R428). -/
structure LsaRec where
  uid : Nat
  seq : Nat
  epoch : Nat
  flags : Nat
  nbrs : List Nat
  tick : Nat
  deriving DecidableEq, Repr

/-- The mesh beside its registers. `routes`: hops and port per address; `cand`: the address claimed and when CLAIM was
flooded; `collect`: the tick the first port came UP; `claims`: the claim record, the lowest UID that claims an
address and when; `recorded`: the epoch recorded on entry into READ_ONLY; `lsaSeq`,
`lsaTick`, `lsaSent`: the own LSA; `mseq`: messages originated; `unreach`: the tick of the last MESH_UNREACHABLE per
address; `faultTick`, `faultSent`: FAULT_REPORTs of a tick. -/
structure MeshSt where
  ports : Tab MeshPort := []
  db : Tab (Option LsaRec) := []
  routes : Tab (Option (Nat × Nat)) := []
  routeTick : Option Nat := none
  dbChanged : Bool := false
  claims : Tab (Option (Nat × Nat)) := []
  addrMode : Nat := 0
  addr : Nat := 0
  hopLimit : Nat := 32
  remoteEn : Bool := false
  cfgServe : Bool := false
  faultSev : Nat := 0
  faultDst : Nat := 0
  protDst : Nat := 0
  allow : List Nat := []
  started : Bool := false
  collect : Option Nat := none
  cand : Option (Nat × Nat) := none
  recorded : Nat := 0
  lsaSeq : Nat := 0
  lsaTick : Nat := 0
  lsaSent : Option (List Byte) := none
  mseq : Nat := 0
  unreach : Tab (Option Nat) := []
  faultTick : Option Nat := none
  faultSent : Nat := 0
  deriving DecidableEq, Repr

/-! ### Mailboxes (chapter 14) -/

/-- A mailbox channel beside its registers: the outbound queue (each message with whether it is a notice), the message that
the processor has read and not yet handled, whether its reply is discarded, whether a slot was read since the last boundary, the notices dropped and not
yet reported with the tick of the last report. -/
structure MbxCh where
  queue : List (Bool × List Nat) := []
  inHand : Option (List Nat) := none
  mute : Bool := false
  read : Bool := false
  drops : Nat := 0
  dropTick : Option Nat := none
  deriving DecidableEq, Repr
/-! ### Calibration (chapter 22) -/

/-- A calibration in progress (R525): its KIND, admission tick and latched tone; whether checks 1 and 2 have passed; the
boundary at which the step in progress began; the run of ticks with the tone low; the tone power of check 3; the shadow
bank; the boundary of its swap once complete. -/
structure CalRun where
  kind : Nat
  start : Nat
  tone : Nat
  passed : Bool := false
  stepTick : Nat := 0
  lost : Run := {}
  pwr : Int := 0
  shadow : List Byte := []
  ready : Option Nat := none
  deriving DecidableEq, Repr

/-- The calibration of a frond: the set in force (none: uncalibrated, neutral values), the calibration that exists, a restored
set with the boundary of its swap, the calibration mute (R527), the reason for which the frond waits in F1 for a usable set
(R455, R478). -/
structure FrondCal where
  act : Option (List Byte) := none
  run : Option CalRun := none
  restore : Option (List Byte × Nat) := none
  mute : Bool := false
  failed : Option Nat := none
  deriving DecidableEq, Repr

/-! ### Supplies and power states (chapter 18) -/

/-- Power of a frond beside PWR_*: the tick a wake began and the state it left, whether it passes through a wake
calibration, the target for which a HOLD_RELEASE freed it, whether CAL_STALE_ASLEEP was raised, when its iteration cap last
changed. -/
structure FrondPow where
  wakeTick : Nat := 0
  wakeFrom : Nat := 0
  viaCal : Bool := false
  freeFor : Option Nat := none
  stale : Bool := false
  capTick : Option Nat := none
  deriving DecidableEq, Repr

/-- Telemetry as last refreshed (R463), by PMBus page: voltage in mV, current in 10 mA, and the hottest sensor fed by the
rail in 1/4 degree. -/
structure Tele where
  volt : Tab Int := []
  cur : Tab Int := []
  temp : Tab Int := []
  deriving DecidableEq, Repr

/-- The power manager: per-frond records; runs of ticks above T_THR per sensor, and at or below T_THR - 3 per frond; the run
with every sensor at or below T_WARN; the last shed and restore ticks; the AVS ticks; rails outside their tolerance; the
blocks stay gated after a trip (R462); the PMBus page, STATUS_CML and CML, the telemetry. -/
structure PowSt where
  fr : Tab FrondPow := []
  hot : Tab Run := []
  cool : Tab Run := []
  coolAll : Run := {}
  shedTick : Option Nat := none
  backTick : Option Nat := none
  avsTick : Tab (Option Nat) := []
  railsOut : List Nat := []
  gated : Bool := false
  page : Nat := 0
  cmlBits : Nat := 0
  tele : Tele := {}
  deriving DecidableEq, Repr

/-! ### Monitor converter (chapter 23) -/

/-- A limit (R546). -/
structure MonLimit where
  low : Int := 0
  high : Int := 0
  hyst : Nat := 0
  persist : Nat := 1
  fault : Bool := false
  sev : Nat := 0
  deriving DecidableEq, Repr

/-- An urgent conversion in progress: its source (0 calibration, 1 loop controllers, 2 host), its channel, its start in core
cycles from the frame start, whether it is the test's. -/
structure MonUrgent where
  src : Nat
  ch : Nat
  start : Nat
  test : Bool
  deriving DecidableEq, Repr

/-- The monitor converter beside MON_*. Instants are core cycles from `frameStart`; the frame lasts `frameLen`. `idx`, `start`,
`idle`: the entry in progress, when it started, whether it is empty; `idx` 250: no entry is left. `queue`: urgent requests that
wait (source, channel, test); `used`: urgent conversions of the frame by source. `pub`: results not yet published (channel,
code, value, filter). `pers`: results in a row above HIGH, below LOW and within, per channel. `test`: channel, D and the cycle
count from tick 0 at which the input has settled. -/
structure MonSt where
  table : List (Nat × Nat) := List.replicate 168 (0xff, 0)
  on : Bool := false
  frameStart : Nat := 0
  frameLen : Nat := 400000
  idx : Nat := 0
  start : Nat := 0
  idle : Bool := false
  urgent : Option MonUrgent := none
  queue : List (Nat × Nat × Bool) := []
  used : List Nat := [0, 0, 0]
  pub : List (Nat × Nat × Int × Nat) := []
  limits : Tab MonLimit := []
  map : Tab Nat := []
  pers : Tab (Nat × Nat × Nat) := []
  test : Option (Nat × Nat × Nat) := none
  skipTick : Option Nat := none
  skipAcc : Nat := 0
  deriving DecidableEq, Repr

/-! ### Firmware update and the boot flash (chapters 19 and 21) -/

/-- What the manifest of a firmware gives of it (R640, Table UPD-2): the versions of parts 1 and 2, the security version, the
settings schema range; the slot it came from; whether it came through the load window. -/
structure Firmware where
  mgmt : Nat
  loop : Nat
  sec : Nat
  lo : Nat
  hi : Nat
  slot : Nat
  recovery : Bool := false
  deriving DecidableEq, Repr

/-- A settings store in progress (R519). -/
structure StoreJob where
  copy : Nat
  addr : Nat
  len : Nat
  deriving DecidableEq, Repr

/-- Firmware update. `flash`: the 4,096-byte pages of the two image slots, page p of slot k at 16,384 k + p; `copies`: the
settings copies A and B that hold data (Table BOOT-3). The update state (Table UPD-4): `bitmap` has bit i set when Spore i is
received; `seq` is the sequence of the next commit; `dirty`: the bitmap changed since. `queue`: Spores that wait to be
programmed; `acks`: Spores newly received since the last SPORE_ACK, and `ackDue` at entry into VERIFYING; `ackFrond`: the frond that last brought
one; `loaded`: every part is preloaded; `passed`: parts that passed their self-check; `outcome`: what the next boundary does with the trial, 0 commit or the reason of a
revert; `prev`: the retained previous firmware; `run`: the firmware that runs. -/
structure UpdSt where
  flash : Tab (Option (List Byte)) := []
  copies : Tab (Option (List Byte)) := []
  state : Nat := 0
  active : Nat := 0
  reason : Nat := 0
  fusePending : Bool := false
  pkg : Nat := 0
  total : Nat := 0
  actTick : Nat := 0
  bitmap : Nat := 0
  received : Nat := 0
  seq : Nat := 0
  dirty : Bool := false
  acceptHost : Bool := true
  acceptGcc : Bool := false
  queue : List (Nat × List Byte) := []
  dups : Nat := 0
  rejects : Nat := 0
  rejTick : Option Nat := none
  ackFrond : Option Nat := none
  acks : Nat := 0
  ackTick : Nat := 0
  ackDue : Bool := false
  peerTick : Tab (Option Nat) := []
  loaded : Bool := false
  passed : List Nat := []
  outcome : Option Nat := none
  prev : Option Firmware := none
  run : Option Firmware := none
  store : Option StoreJob := none
  deriving DecidableEq, Repr


/-! ### The test access port (chapter 27) -/

/-- The states of the IEEE 1149.1 controller. -/
inductive TapState where
  | reset | idle
  | selectDr | captureDr | shiftDr | exit1Dr | pauseDr | exit2Dr | updateDr
  | selectIr | captureIr | shiftIr | exit1Ir | pauseIr | exit2Ir | updateIr
  deriving DecidableEq, Repr

/-- What the boundary cells do to the contacts: nothing, drive the latched levels, hold them high-impedance, drive the
latched levels with the pulses or the train of IEEE 1149.6. -/
inductive PadDrive where
  | normal | latched | highZ | pulse | train
  deriving DecidableEq, Repr

/-- The test access port: the controller, the instruction in force and the one being shifted, the data register being
shifted, the cell to be shifted out first at its head, the latched boundary cells, what they do. -/
structure Tap where
  st : TapState := .reset
  ir : Nat := 1
  irShift : Nat := 0
  dr : List Bool := []
  latch : List Bool := []
  drive : PadDrive := .normal
  deriving DecidableEq, Repr


/-- What frond `f` holds beside its registers. -/
structure Frond where
  rx : RxSt := {}
  acq : AcqSt := {}
  eq : EqSt := {}
  ld : LdSt := {}
  tx : TxSt := {}
  fec : FecSt := {}
  slf : SlfSt := {}
  pm : FrondPm := {}
  pc : PcSt := {}
  deriving DecidableEq, Repr

/-- The whole state. -/
structure State where
  pending : List Instr := []
  tick : Nat := 0
  regs : Tab Word := []
  latches : Tab Word := []
  wtq : List (Nat × Nat) := []
  freeCtr : Nat := 0
  out : List Output := []
  fuse : FuseSt := {}
  boot : BootSt := {}
  host : HostSt := {}
  flt : FaultSt := {}
  fronds : Tab Frond := []
  eps : Tab Endpoint := []
  slotOwner : Tab Nat := []
  ports : Tab PortSt := []
  sas : Tab SaRec := []
  sec : SecSt := {}
  pm : PmSt := {}
  xcFrozen : Option (Tab Endpoint) := none
  peat : PeatSt := {}
  mem : MemSt := {}
  tim : TimSt := {}
  mesh : MeshSt := {}
  mbx : Tab MbxCh := []
  cals : Tab FrondCal := []
  pow : PowSt := {}
  mon : MonSt := {}
  upd : UpdSt := {}
  tap : Tap := {}
  deriving DecidableEq, Repr

/-- The machine right after reset. -/
def State.reset : State := {}

end Sys2Proof.Machine
end

