-- ==== Sys2Proof/Machine/Ops.lean ====
section
/-! DEFINITION. The named operations over the state: registers and their fields, free values, outputs, events, runs of
consecutive ticks, the per-object records. -/
namespace Sys2Proof.Machine

/-! ### Registers -/

/-- The register at offset `off`, as the device holds it. -/
def State.reg (s : State) (off : Nat) : Word := Tab.get regReset s.regs off

/-- Writes a whole register. -/
def State.setReg (s : State) (off : Nat) (v : Word) : State := { s with regs := Tab.set regReset s.regs off v }

/-- A register field. -/
def State.rd (s : State) (f : Fld) : Nat := bitsGet (s.reg f.off) f.lo f.w

/-- Writes a register field; the register's other bits stay. -/
def State.wr (s : State) (f : Fld) (v : Nat) : State := s.setReg f.off (bitsPut (s.reg f.off) f.lo f.w v)

/-- A field read as two's complement. -/
def State.rdS (s : State) (f : Fld) : Int := toSigned f.w (s.rd f)

/-- Writes a signed value to a field. -/
def State.wrS (s : State) (f : Fld) (i : Int) : State := s.wr f (ofSigned f.w i)

/-- Writes a one-bit field. -/
def State.wrB (s : State) (f : Fld) (b : Bool) : State := s.wr f (if b then 1 else 0)

/-- A one-bit field as a truth value. -/
def State.flag (s : State) (f : Fld) : Bool := s.rd f != 0

/-- Adds to a count field that is held at its largest value. -/
def State.bump (s : State) (f : Fld) (n : Nat) : State := s.wr f (satAdd (2 ^ f.w - 1) (s.rd f) n)

/-- Sets the bits of `m` in a W1C field (the device side of Table SCO-3). -/
def State.setBits (s : State) (f : Fld) (m : Nat) : State := s.wr f (s.rd f ||| m)

/-- Returns the registers of `lo..hi` to their reset values. -/
def State.resetRegs (s : State) (lo hi : Nat) : State :=
  { s with regs := s.regs.filter fun p => !(decide (lo ≤ p.1) && decide (p.1 ≤ hi)) }

/-! ### Free values and outputs -/

/-- A value the spec leaves open (assumption 1), and the state with the counter advanced. -/
def State.fresh (s : State) : Nat × State := (Config.free s.freeCtr, { s with freeCtr := s.freeCtr + 1 })

/-- Appends to what the module has sent. -/
def State.emit (s : State) (o : Output) : State := { s with out := s.out ++ [o] }

/-! ### Runs of consecutive ticks -/

/-- One more tick of a condition: the run grows when the tick follows the last one counted, starts afresh at 1 after a
gap, and is 0 when the condition fails. A second look in one tick does not count twice. -/
def Run.step (r : Run) (tick : Nat) (c : Bool) : Run :=
  if c then
    if 0 < r.n ∧ r.last = tick then r
    else if 0 < r.n ∧ r.last + 1 = tick then ⟨r.n + 1, tick⟩
    else ⟨1, tick⟩
  else ⟨0, tick⟩

/-! ### Events -/

/-- Raises an event of a module-wide object, to the ring of T0000. -/
def State.raise (s : State) (code obj : Nat) (vals : List EVal := []) : State :=
  { s with host := { s.host with events := s.host.events ++ [{ code := code, obj := obj, tick := s.tick, vals := vals }] } }

/-- Raises an event of tenant `ten`, to its home ring (R313). -/
def State.raiseFor (s : State) (ten code obj : Nat) (vals : List EVal := []) : State :=
  { s with host := { s.host with events := s.host.events ++
      [{ code := code, obj := obj, tick := s.tick, tenant := ten, dest := .tenants [ten], vals := vals }] } }

/-- Raises an event record already laid out. -/
def State.raiseEv (s : State) (e : Event) : State :=
  { s with host := { s.host with events := s.host.events ++ [e] } }

/-- Raises an event that carries a running count: one event for an object in a tick, with the latest count (R331). -/
def State.raiseCounted (s : State) (code obj count : Nat) : State :=
  if s.host.events.any fun e => e.code == code && e.obj == obj && e.tick == s.tick then
    { s with host := { s.host with events := s.host.events.map fun e =>
        if e.code == code && e.obj == obj && e.tick == s.tick then { e with vals := [.w count] } else e } }
  else s.raise code obj [.w count]

/-- `num / den` in whole units where the spec gives no rounding: exact when it divides, else one of the two neighbours,
left open (assumption 1). -/
def State.wholeUnits (s : State) (num den : Nat) : Nat × State :=
  if num % den = 0 then (num / den, s)
  else
    let (v, s) := s.fresh
    (num / den + v % 2, s)

/-- `a / b` to the nearest whole, a tie left open between its neighbours (assumption 1). -/
def State.nearestOpen (s : State) (a : Int) (b : Nat) : Int × State :=
  let q := a / (b : Int)
  let r := a % (b : Int)
  if 2 * r < b then (q, s)
  else if (b : Int) < 2 * r then (q + 1, s)
  else
    let (v, s) := s.fresh
    (q + (v % 2 : Nat), s)

/-- An event raised at most once per `period` ticks that carries a count of occurrences (R331): the state, the tick of
the last one raised, the occurrences not yet reported. -/
def State.rateEvent (s : State) (code obj period : Nat) (last : Option Nat) (acc n : Nat) : State × Option Nat × Nat :=
  let raise := (s.raise code obj [.w (acc + n)], some s.tick, 0)
  match last with
  | none => raise
  | some t =>
    if t = s.tick then
      ({ s with host := { s.host with events := s.host.events.map fun e =>
          if e.code == code && e.obj == obj && e.tick == s.tick then
            { e with vals := e.vals.map fun v => match v with
              | .w k => .w (k + n)
              | v => v }
          else e } }, last, acc)
    else if t + period ≤ s.tick then raise
    else (s, last, acc + n)

/-- A signed value in an event word. -/
def EVal.s (i : Int) : EVal := .w (ofSigned 32 i)

/-! ### Fronds -/

/-- The number of enabled fronds (Table SCO-1). -/
def State.frondCount (s : State) : Nat :=
  match s.fuse.grade with
  | 0 => 48
  | 1 => 24
  | _ => 12

/-- Frond `f` is enabled in this grade (R4). -/
def State.frondEnabled (s : State) (f : Nat) : Bool := decide (f < s.frondCount)

/-- Every enabled frond. -/
def State.frondIds (s : State) : List Nat := List.range s.frondCount

/-- What frond `f` holds beside its registers. -/
def State.frond (s : State) (f : Nat) : Frond := Tab.get (fun _ => {}) s.fronds f

/-- Writes the record of frond `f`. -/
def State.setFrond (s : State) (f : Nat) (x : Frond) : State :=
  { s with fronds := Tab.set (fun _ => {}) s.fronds f x }

/-- Changes the record of frond `f`. -/
def State.modFrond (s : State) (f : Nat) (g : Frond → Frond) : State := s.setFrond f (g (s.frond f))

/-- Boot has reached RUN (Table BOOT-1): the block regions answer and datapath work is done. -/
def State.running (s : State) : Bool := s.rd R.RST_BOOT_STAT_PHASE == 5

/-- The acquisition state of frond `f` (Table ACQ-10). -/
def State.acqState (s : State) (f : Nat) : Nat := s.rd (R.FRD_ACQ_STAT_STATE f)

/-- The power state F0..F4 of frond `f` (Table PWR-8). -/
def State.pState (s : State) (f : Nat) : Nat := s.rd (R.PWR_FSTAT_STATE f)

/-! ### Endpoints -/

/-- Endpoint `e`; a free one reads as the empty entry. -/
def State.ep (s : State) (e : Nat) : Endpoint := Tab.get (fun _ => {}) s.eps e

/-- Writes endpoint `e`. -/
def State.setEp (s : State) (e : Nat) (x : Endpoint) : State :=
  { s with eps := Tab.set (fun _ => {}) s.eps e x }

/-! ### Tenants and functions -/

/-- Tenant `t`; T0000 is always active (R312). -/
def State.tenant (s : State) (t : Nat) : TenantRec :=
  let r := Tab.get (fun _ => {}) s.host.tenants t
  if t = 0 then { r with active := true } else r

/-- Writes the record of tenant `t`. -/
def State.setTenant (s : State) (t : Nat) (r : TenantRec) : State :=
  { s with host := { s.host with tenants := Tab.set (fun _ => {}) s.host.tenants t r } }

/-- What function `fn` holds beside its host block. -/
def State.fnState (s : State) (fn : Nat) : FnState := Tab.get (fun _ => {}) s.host.fns fn

/-- Writes the record of function `fn`. -/
def State.setFn (s : State) (fn : Nat) (x : FnState) : State :=
  { s with host := { s.host with fns := Tab.set (fun _ => {}) s.host.fns fn x } }

/-- Changes the record of function `fn`. -/
def State.modFn (s : State) (fn : Nat) (g : FnState → FnState) : State := s.setFn fn (g (s.fnState fn))

end Sys2Proof.Machine
end

