-- ==== Sys2Proof/Machine/PipeOps.lean ====
section
/-! DEFINITION. Counting the occurrences of a countable event on the programmable counters of a frond (R581..R589). -/
namespace Sys2Proof.Machine

/-- Changes the pipeline counters of frond `f`. -/
def State.modPc (s : State) (f : Nat) (g : PcSt → PcSt) : State := s.modFrond f fun x => { x with pc := g x.pc }

/-- RELOAD of counter `j`. -/
def State.pcReload (s : State) (f j : Nat) : Nat :=
  s.rd (R.FRD_PC_RELOAD_LO_RELOAD_LO f j) + 2 ^ 32 * s.rd (R.FRD_PC_RELOAD_HI_RELOAD_HI f j)

/-- EVENT of counter `j`, a reserved code applied as 0 (R581). -/
def State.pcEvent (s : State) (f j : Nat) : Nat :=
  let e := s.rd (R.FRD_PC_CTL_EVENT f j)
  if e < 0x18 then e else 0

/-- Writes an exact record (R589). -/
def State.exactRecord (s : State) (f : Nat) (r : ExactRec) : State :=
  let x := (s.frond f).pc
  let mode := s.rd (R.FRD_PC_ERBCTL_ERB_MODE f)
  if 1024 ≤ x.erb.length then
    let s := s.bump (R.FRD_PC_ERBSTAT_DROPPED f) 1
    s.modPc f fun y => { y with dropped := y.dropped + 1, erb := if mode = 1 then y.erb.drop 1 ++ [r] else y.erb }
  else
    let s := s.modPc f fun y => { y with erb := y.erb ++ [r] }
    let n := x.erb.length + 1
    let s := s.wr (R.FRD_PC_ERBSTAT_USED f) n
    if n = 1024 then s.raise 0x1902 f [.w mode] else s

/-- One overflow of counter `j` at an occurrence (R585..R589). -/
def State.pcOverflow (s : State) (f j code cycle detail : Nat) : State :=
  let s := s.setBits (R.FRD_PC_STAT_OVF f) (2 ^ j)
  let s := s.modPc f fun y => { y with ovf := y.ovf.set j ((y.ovf.getD j (0, 0)).1 + 1, 0) }
  let s := if s.flag (R.FRD_PC_CTL_EXACT f j) then
      s.exactRecord f { tick := s.tick, event := code, counter := j, cycle := cycle, detail := detail } else s
  if s.flag (R.FRD_PC_CTL_FREEZE f j) then
    (s.modPc f fun y => { y with stopped := y.stopped.set j true, freezeTick := some s.tick }).wrB (R.FRD_PC_STAT_FROZEN f) true
  else s

/-- Counts occurrences `i .. n - 1` on counter `j`; `place i` is the cycle and DETAIL of occurrence `i`. `fuel` bounds the
overflows. -/
def State.pcRun (s : State) (f j code n : Nat) (place : Nat → Nat × Nat) : Nat → Nat → State
  | 0, _ => s
  | fuel + 1, i =>
    let x := (s.frond f).pc
    if x.stopped.getD j false ∨ n ≤ i then s
    else
      let c := x.counts.getD j 0
      let need := 2 ^ 48 - c
      if n - i < need then
        s.modPc f fun y => { y with
          counts := y.counts.set j (c + (n - i))
          ovf := y.ovf.set j ((y.ovf.getD j (0, 0)).1,
            if (y.ovf.getD j (0, 0)).1 = 0 then 0 else (y.ovf.getD j (0, 0)).2 + (n - i)) }
      else
        let s := s.modPc f fun y => { y with counts := y.counts.set j (s.pcReload f j) }
        let (cy, d) := place (i + need - 1)
        State.pcRun (s.pcOverflow f j code cy d) f j code n place fuel (i + need)

/-- `n` occurrences of a countable event, in event order (R581). A counter counts while its EN is 1 and the counters are
not frozen (R582, R587). -/
def State.pcCount (s : State) (f code n : Nat) (place : Nat → Nat × Nat) : State :=
  (List.range 8).foldl (fun s j =>
    let x := (s.frond f).pc
    if s.flag (R.FRD_PC_CTL_EN f j) && s.pcEvent f j == code && code != 0 && !x.allStop then
      s.pcRun f j code n place (n + 1) 0
    else s) s

/-- Occurrences without a cycle, listed by DETAIL. -/
def State.pcList (s : State) (f code : Nat) (l : List Nat) : State :=
  s.pcCount f code l.length fun i => (0x3fff, l.getD i 0)

/-- Occurrences that all have the same DETAIL. -/
def State.pcMany (s : State) (f code n detail : Nat) : State := s.pcCount f code n fun _ => (0x3fff, detail)

end Sys2Proof.Machine
end

