-- ==== Sys2Proof/Machine/FrondOps.lean ====
section
/-! DEFINITION. Shared operations of a frond: requantisation (R64), the acquisition state changes (Tables ACQ-3..ACQ-5),
the equaliser state and its stamp (R122, R123), dispersion (R100), loading tables (R137..R139). -/
namespace Sys2Proof.Machine

/-! ### Numbers -/

/-- Convergent rounding of `acc / 2^shift` (R64): nearest, an exact half to the even integer. -/
def roundShift (acc : Int) (shift : Nat) : Int :=
  let m : Int := 2 ^ shift
  let q := acc / m
  let r := acc % m
  let half : Int := 2 ^ (shift - 1)
  if half < r ∨ (r = half ∧ q % 2 = 1) then q + 1 else q

/-- Requantisation to a working sample (R64): the value in -511..511, and whether it was clamped. -/
def requantise (acc : Int) (shift : Nat) : Int × Bool :=
  let q := roundShift acc shift
  if 511 < q then (511, true) else if q < -511 then (-511, true) else (q, false)

/-- Convergent rounding of `a / b` for a positive `b`. -/
def roundDiv (a : Int) (b : Nat) : Int :=
  let q := a / (b : Int)
  let r := a % (b : Int)
  if (b : Int) < 2 * r ∨ (2 * r = (b : Int) ∧ q % 2 = 1) then q + 1 else q

/-! ### Dispersion -/

/-- Takes `d` as the applied dispersion, clamped to R100's range; LIMIT follows, and CD_LIMIT is raised at each entry
into a limit. -/
def State.setD (s : State) (f : Nat) (d : Int) : State :=
  let c := clampInt (-200000) 200000 d
  let at' := decide (c = 200000 ∨ c = -200000)
  let entered := at' && !decide (c = (s.frond f).eq.d ∧ s.flag (R.FRD_EQ_CD_STAT_LIMIT f))
  let s := s.modFrond f fun x => { x with eq := { x.eq with d := c } }
  let s := s.wrB (R.FRD_EQ_CD_STAT_LIMIT f) at'
  if entered then s.raise 0x0302 f [EVal.s c] else s

/-- Takes `d` and raises CD_ESTIMATE (Table EQL-5). -/
def State.estimateD (s : State) (f : Nat) (d : Int) : State :=
  let s := s.setD f d
  s.raise 0x0301 f [EVal.s (s.frond f).eq.d]

/-! ### The generation stamp and retained state (R122, R123) -/

/-- The junction temperature of frond `f` in 1/4 degree: channel f of the monitor converter (Table MON-1). -/
def State.junction (s : State) (f : Nat) : Int := s.rdS (R.MON_RES_VALUE f)

/-- The stamp's epoch-seconds. -/
def State.stampSec (s : State) (f : Nat) : Nat :=
  s.rd (R.FRD_EQ_GEN_SEC_LO_SEC_LO f) + 2 ^ 32 * s.rd (R.FRD_EQ_GEN_SEC_HI_SEC_HI f)

/-- Refreshes the generation stamp: the Peat epoch-seconds counter and the junction temperature (R122). -/
def State.refreshStamp (s : State) (f : Nat) : State :=
  let e := s.peat.esec
  let s := s.wr (R.FRD_EQ_GEN_SEC_LO_SEC_LO f) e
  let s := s.wr (R.FRD_EQ_GEN_SEC_HI_SEC_HI f) (e / 2 ^ 32)
  s.wr (R.FRD_EQ_GEN_TEMP_TEMP f) (ofSigned 10 (s.junction f))

/-- Drops the retained equaliser state. -/
def State.dropRetained (s : State) (f : Nat) : State :=
  let s := s.modFrond f fun x => { x with eq := { x.eq with kept := false, keptTaps := false } }
  s.wrB (R.FRD_EQ_STAT_RETAINED f) false

/-- The age in seconds and the temperature difference that the stamp rule of R123 compares. -/
def State.stampAge (s : State) (f : Nat) : Nat × Int :=
  (s.peat.esec - s.stampSec f, s.junction f - s.rdS (R.FRD_EQ_GEN_TEMP_TEMP f))

/-- The stamp rule of R123: a kept state is usable when its stamp is at most 86,400 s old and the temperature differs by
at most 15 degrees; an unusable one is discarded and raises EQ_STATE_STALE. -/
def State.stampRule (s : State) (f : Nat) : State :=
  if (s.frond f).eq.kept then
    let (age, dt) := s.stampAge f
    if (s.frond f).eq.discard then
      (s.dropRetained f).modFrond f fun x => { x with eq := { x.eq with discard := false } }
    else if age ≤ 86400 ∧ -60 ≤ dt ∧ dt ≤ 60 ∧ s.peat.floor ≤ s.stampSec f then s
    else (s.dropRetained f).raise 0x0306 f [.w age, EVal.s dt]
  else s

/-! ### The cold search (R105) -/

/-- The eleven candidates of AUTO. -/
def searchCandidates : List Int :=
  [0, 40000, -40000, 80000, -80000, 120000, -120000, 160000, -160000, 200000, -200000]

/-- CD_MODE as applied: 0 AUTO, 1 HINT, 2 FIXED; 3 is applied as AUTO (Table EQL-6). -/
def State.cdMode (s : State) (f : Nat) : Nat :=
  let m := s.rd (R.FRD_EQ_CTL_CD_MODE f)
  if m = 3 then 0 else m

/-- The candidates of one search: the retained D first when a usable retained state exists, then the hint in HINT unless
it equals the retained D, then the eleven (R105). -/
def State.candidates (s : State) (f : Nat) : List Int :=
  let hint := s.rdS (R.FRD_EQ_CD_CD_VAL f)
  let kept := (s.frond f).eq.kept
  (if kept then [(s.frond f).eq.d] else []) ++
  (if s.cdMode f = 1 ∧ ¬(kept ∧ hint = (s.frond f).eq.d) then [hint] else []) ++ searchCandidates

/-- Starts the dispersion search of COLD, or takes CD_VAL in FIXED (R105). -/
def State.startSearch (s : State) (f : Nat) : State :=
  if s.cdMode f = 2 then
    let s := s.setD f (s.rdS (R.FRD_EQ_CD_CD_VAL f))
    s.modFrond f fun x => { x with eq := { x.eq with
      searching := false, cands := [], preconv := true, preTick := s.tick, slope := s.rdS (R.FRD_EQ_SLOPE_SLOPE f) } }
  else
    let cs := s.candidates f
    let s := s.setD f (cs.headD 0)
    s.modFrond f fun x => { x with eq := { x.eq with
      searching := true, cands := cs, candTick := s.tick, fitRun := 0, preconv := false,
      slope := s.rdS (R.FRD_EQ_SLOPE_SLOPE f) } }

/-! ### Calibration, power and reset as the frond sees them -/

/-- The calibration record of frond `f`. -/
def State.frondCal (s : State) (f : Nat) : FrondCal := Tab.get (fun _ => {}) s.cals f

/-- The line input is muted, by the host or by the calibration mute (R57, R527). -/
def State.muted (s : State) (f : Nat) : Bool := s.flag (R.FRD_RX_CTL_MUTE f) || (s.frondCal f).mute

/-- A calibration of the frond is in progress (R528). -/
def State.calibrating (s : State) (f : Nat) : Bool := (s.frondCal f).run.any CalRun.passed

/-- Block `b` is in reset (R485). -/
def State.inBlockReset (s : State) (b : Nat) : Bool := s.boot.inReset.any fun x => x.id == b

/-- The frond is in F0 and not in reset: bodies are decoded and defects declared (R456, R487). -/
def State.frondLive (s : State) (f : Nat) : Bool := s.pState f == 0 && !s.inBlockReset (0x100 + f)

/-- A change of the ADC input source at this boundary (R56). -/
def State.setInsrc (s : State) (f v : Nat) : State :=
  if s.rd (R.FRD_RX_CTL_INSRC f) = v then s
  else (s.wr (R.FRD_RX_CTL_INSRC f) v).modFrond f fun x => { x with rx := { x.rx with insrcTick := some s.tick } }

/-- Every sample of DSP cycle `cycle` of this tick is marked saturated after a change of source. -/
def State.insrcMarked (s : State) (f cycle : Nat) : Bool :=
  decide ((s.frond f).rx.insrcTick = some s.tick) && decide (cycle < 16)

/-! ### Acquisition states (Tables ACQ-3, ACQ-4) -/

/-- Sets the acquisition state; the gain loop runs in COLD and WARM and is frozen in TRAIN, CONFIRM and ACQUIRED (R87). -/
def State.setAcq (s : State) (f st : Nat) : State :=
  let s := s.wr (R.FRD_ACQ_STAT_STATE f) st
  s.wrB (R.FRD_ACQ_STAT_GAIN_FROZEN f) (decide (3 ≤ st))

/-- Entry into COLD: a state marked by DISCARD is dropped (R123); without a kept state the derotator word starts at 0
(R72). -/
def State.enterCold (s : State) (f : Nat) : State :=
  let s := if (s.frond f).eq.discard then
      (s.dropRetained f).modFrond f fun x => { x with eq := { x.eq with discard := false } }
    else s
  let s := if (s.frond f).eq.kept then s else s.modFrond f fun x => { x with rx := { x.rx with rot := 0 } }
  let s := s.setAcq f 1
  let s := s.modFrond f fun x => { x with acq := { x.acq with coldTick := s.tick, warm := false, unverified := 0 } }
  s.startSearch f

/-- Entry into WARM: the kept dispersion, taps and rotator stay (R106). -/
def State.enterWarm (s : State) (f : Nat) : State :=
  let s := s.setAcq f 2
  s.modFrond f fun x => { x with acq := { x.acq with periods := 0, warm := true, unverified := 0 } }

/-- Ends the own loading request (R142). -/
def State.endRequest (s : State) (f : Nat) : State :=
  let s := s.wrB (R.FRD_LD_STAT_REQ_OUT f) false
  s.modFrond f fun x => { x with ld := { x.ld with reqEnd := s.tick } }

/-- The loss counter of a reason of Table ACQ-5; reason 5 has none. -/
def lossField (f : Nat) : Nat → Option Fld
  | 1 => some (R.FRD_ACQ_LOSS_FLOOD f)
  | 2 => some (R.FRD_ACQ_LOSS_FIDDLEHEAD_LOST f)
  | 3 => some (R.FRD_ACQ_LOSS_DISPLACED f)
  | 4 => some (R.FRD_ACQ_LOSS_HOST f)
  | _ => none

/-- An exit from ACQUIRED with reason 1..4 counts in the frond's bins (Table PM-2). -/
def State.pmLoss (s : State) (f n : Nat) : State :=
  let g := fun (b : FrondBin) => { b with losses := satAdd 0xffffffff b.losses n, sat := b.sat || decide (0xffffffff < b.losses + n) }
  s.modFrond f fun x => { x with pm := { x.pm with b15 := g x.pm.b15, b24 := g x.pm.b24 } }

/-- An arrival slip counts in the frond's bins. -/
def State.pmSlip (s : State) (f : Nat) : State :=
  let g := fun (b : FrondBin) => { b with slips := satAdd 0xffffffff b.slips 1, sat := b.sat || decide (0xffffffff < b.slips + 1) }
  s.modFrond f fun x => { x with pm := { x.pm with b15 := g x.pm.b15, b24 := g x.pm.b24 } }

/-- What every exit from ACQUIRED does: ACQ_LOST with its reason, the loss count, the stamp refresh of R122, the end of
the own loading request, a cancelled gain trim. -/
def State.leaveAcquired (s : State) (f reason : Nat) : State :=
  let s := s.raise 0x0202 f [.w reason]
  let s := s.wr (R.FRD_ACQ_STAT_LAST_REASON f) reason
  let s := match lossField f reason with
    | some c => (s.bump c 1).pmLoss f 1
    | none => s
  let s := s.refreshStamp f
  let s := if s.flag (R.FRD_LD_STAT_REQ_OUT f) then s.endRequest f else s
  let s := s.wrB (R.FRD_EQ_STAT_RETAINED f) (!(s.frond f).eq.discard)
  s.modFrond f fun x => { x with
    acq := { x.acq with leftTick := s.tick, trimStep := 0, trimRun := {}, lossTick := some s.tick }
    eq := { x.eq with kept := true, keptTaps := true } }

/-- A further trigger in the tick of a loss: the frond lost acquisition once, and the lowest reason code is the one
reported and counted (R90). -/
def State.amendLoss (s : State) (f reason : Nat) : State :=
  let last := s.rd (R.FRD_ACQ_STAT_LAST_REASON f)
  if (s.frond f).acq.lossTick = some s.tick ∧ reason < last ∧ last ≤ 4 then
    let s := match lossField f last with
      | some c => s.wr c (s.rd c - 1)
      | none => s
    let s := match lossField f reason with
      | some c => s.bump c 1
      | none => s
    let s := s.wr (R.FRD_ACQ_STAT_LAST_REASON f) reason
    { s with host := { s.host with events := s.host.events.map fun e =>
        if e.code == 0x0202 && e.obj == f && e.tick == s.tick then { e with vals := [.w reason] } else e } }
  else s

/-- A loss trigger of Table ACQ-5 in ACQUIRED: WARM, or COLD when WARM_EN is 0. -/
def State.loseAcq (s : State) (f reason : Nat) : State :=
  if s.acqState f = 5 then
    let s := s.leaveAcquired f reason
    if s.flag (R.FRD_ACQ_CTL_WARM_EN f) then s.enterWarm f else s.enterCold f
  else s.amendLoss f reason

/-- Entry into IDLE: function stopped, or entry into F2..F4; reason 5, not counted (R90). -/
def State.enterIdle (s : State) (f : Nat) : State :=
  if s.acqState f = 0 then s
  else
    let s := if s.acqState f = 5 then s.leaveAcquired f 5 else s.wr (R.FRD_ACQ_STAT_LAST_REASON f) 5
    let s := s.setAcq f 0
    s.wrB (R.FRD_EQ_CD_EST_VALID f) false

/-- Leaves IDLE for COLD or WARM; the acquisition duration counts from here. -/
def State.leaveIdle (s : State) (f : Nat) (warm : Bool) : State :=
  let s := s.modFrond f fun x => { x with acq := { x.acq with leftTick := s.tick } }
  if warm then s.enterWarm f else s.enterCold f

/-- RESTART (Tables ACQ-4, ACQ-5): from any state but IDLE to COLD; a loss with reason HOST from ACQUIRED. The retained
state is treated by the stamp rule (R123). -/
def State.restartAcq (s : State) (f : Nat) : State :=
  if s.acqState f = 0 then s
  else
    let s := if s.acqState f = 5 then s.leaveAcquired f 4 else s
    (s.stampRule f).enterCold f

/-- Entry into ACQUIRED: the event, FRD_ACQ_LAST, GEN and the stamp (R122), and the stamp lag L (R36), fixed so that the
arrival instant plus L falls at cycle 4,800 of a tick. `instant` is the arrival instant in DSP cycles of its tick. -/
def State.enterAcquired (s : State) (f instant : Nat) : State :=
  let a := (s.frond f).acq
  let dur := min 0x7fffffff (s.tick - a.leftTick)
  let s := s.setAcq f 5
  let s := s.wrB (R.FRD_ACQ_LAST_WARM f) a.warm
  let s := s.wr (R.FRD_ACQ_LAST_DURATION f) dur
  let s := s.raise 0x0201 f [.w dur, .w (if a.warm then 1 else 0)]
  let s := s.wr (R.FRD_EQ_GEN_TEMP_GEN f) (s.rd (R.FRD_EQ_GEN_TEMP_GEN f) + 1)
  let s := s.refreshStamp f
  s.modFrond f fun x => { x with
    acq := { x.acq with lag := (4800 + 9600 - instant % 9600) % 9600, unverified := 0, floodRun := 0,
                        trimRun := {}, trimStep := 0 }
    eq := { x.eq with windowBad := false }
    pc := { x.pc with acqFrom := some (s.tick, instant) } }

/-! ### Loading tables (R129, R137..R139) -/

/-- A valid loading code: 0 or 32..112. -/
def codeOk (c : Nat) : Bool := c == 0 || (decide (32 ≤ c) && decide (c ≤ 112))

/-- The table sum Q(n) = ceil(213 n / 2). -/
def tableSum (n : Nat) : Nat := (213 * n + 1) / 2

/-- Sub-carrier `k` belongs to the plan set of count `c` (R125). -/
def inPlan (c k : Nat) : Bool := decide (16 - c / 2 ≤ k) && decide (k ≤ 15 + c / 2)

/-- The number of lit sub-carriers. -/
def litCount (codes : List Nat) : Nat := (codes.filter (· != 0)).length

/-- Validity of a loading table for rate `n` and plan count `c` (R137). -/
def tableValid (n c : Nat) (codes : List Nat) : Bool :=
  codes.length == 32 && codes.all codeOk &&
  (List.range 32).all (fun k => inPlan c k || codes.getD k 0 == 0) &&
  decide (4 ≤ litCount codes) && codes.sum == tableSum n

/-- Rank of `k` by nearness to the centre, the lower index first among equals (R138). -/
def nearRank (k : Nat) : Nat := if k ≤ 15 then 2 * (15 - k) else 2 * (k - 16) + 1

/-- The flat table (R138). -/
def flatTable (n c : Nat) : List Nat :=
  let q := tableSum n
  (List.range 32).map fun k =>
    if inPlan c k then q / c + (if nearRank k < q % c then 1 else 0) else 0

/-- A table change that R139 allows: newly lit sub-carriers take code 32, and 1,280 times their number is at most the
table sum. -/
def lightingOk (n : Nat) (old new : List Nat) : Bool :=
  let fresh := (List.range 32).filter fun k => old.getD k 0 == 0 && new.getD k 0 != 0
  fresh.all (fun k => new.getD k 0 == 32) && decide (1280 * fresh.length ≤ tableSum n)

/-- The notice of a swap after `lead` superframes, LEAD below 16 applied as 16 (Table SUB-7). -/
def State.leadOf (s : State) (f : Nat) : Nat := max 16 (s.rd (R.FRD_LD_CTL_LEAD f))

/-- Schedules a swap of the transmit table (R144, R147). -/
def State.scheduleSwap (s : State) (f : Nat) (codes : List Nat) (cause start : Nat) : State :=
  let t : TxSwap := { codes := codes, tid := (s.rd (R.FRD_LD_STAT_TX_TID f) + 1) % 16, cause := cause,
                      start := start, swap := start + s.leadOf f }
  let s := s.modFrond f fun x => { x with ld := { x.ld with pend := some t } }
  s.wrB (R.FRD_LD_STAT_TX_PEND f) true

/-- The swap of the transmit table at its superframe (R144): the new table and TID are in force, LOAD_SWAP_TX. -/
def State.txSwap (s : State) (f : Nat) : State :=
  match (s.frond f).ld.pend with
  | none => s
  | some p =>
    let s := s.modFrond f fun x => { x with ld := { x.ld with txCodes := p.codes, pend := none, lastSwap := some s.tick } }
    let s := s.wr (R.FRD_LD_STAT_TX_TID f) p.tid
    let s := s.wrB (R.FRD_LD_STAT_TX_PEND f) false
    let s := s.wr (R.FRD_LD_STAT_TX_IN f) 0
    let s := s.wr (R.FRD_LD_SUM_LIT f) (litCount p.codes)
    let s := (s.bump (R.FRD_LD_CNT_TX_SWAPS f) 1).pcMany f 0x17 1 (p.tid % 16)
    s.raise 0x0405 f [.w p.tid, .w p.cause]

/-- NXT_IN of the superframe sent in tick `t` under a pending swap. -/
def TxSwap.inAt (p : TxSwap) (t : Nat) : Nat := if p.start ≤ t ∧ t < p.swap then p.swap - t else 0

/-- A swap pending when the function stops is cancelled (R146). -/
def State.cancelSwap (s : State) (f : Nat) : State :=
  let s := s.modFrond f fun x => { x with ld := { x.ld with pend := none } }
  let s := s.wrB (R.FRD_LD_STAT_TX_PEND f) false
  s.wr (R.FRD_LD_STAT_TX_IN f) 0

/-! ### Transmit squelch (R153) -/

/-- A cause of R153 holds. -/
def State.squelchCause (s : State) (f : Nat) : Bool :=
  s.flag (R.FRD_TX_CTL_SQUELCH f) || !s.flag (R.FRD_ID_LINE_RUN f) || s.flag R.FLT_STAT_SAFE ||
  s.pState f != 0 || s.calibrating f || s.inBlockReset (0x100 + f)

/-- Evaluates the squelch at a boundary: a cause that begins sets DARK; DARK stays when the last cause ends, until
launch power is back. -/
def State.squelchUpdate (s : State) (f : Nat) : State :=
  let c := s.squelchCause f
  let s := s.modFrond f fun x => { x with tx := { x.tx with squelched := c } }
  if c then (s.wrB (R.FRD_TX_STAT_DARK f) true).wr (R.FRD_TX_STAT_PWR_MEAS f) 0x80 else s

end Sys2Proof.Machine
end

