-- ==== Sys2Proof/Machine/Codec.lean ====
section
/-! DEFINITION. The codes of the line: check codes, the header word and its convolutional code (R178, R179), the SLF body
layout (R181..R184), the FEC layout, the inner and outer codes and the interleaver (R155..R164), pilots and the
distribution matcher (R131..R135). Bit strings are lists, first bit first. -/
namespace Sys2Proof.Machine

/-! ### Check codes -/

/-- One bit of the reflected CRC-32C register. -/
def crc32cBit (c : Nat) : Nat := if c % 2 = 1 then c / 2 ^^^ 0x82f63b78 else c / 2

/-- CRC-32C (chapter 0): Castagnoli, reflected, initial value and final exclusive-or of all ones. -/
def crc32c (l : List Byte) : Nat :=
  (l.foldl (fun c b => (List.range 8).foldl (fun c _ => crc32cBit c) (c ^^^ b.toNat)) 0xffffffff) ^^^ 0xffffffff

/-- CRC-16 over bits (Table SUB-3): polynomial 0x1021, initial value 0xFFFF, no reflection, no final exclusive-or. -/
def crc16 (l : List Bool) : Nat :=
  l.foldl (fun c b =>
    let top := decide (c / 2 ^ 15 % 2 = 1)
    let c := c * 2 % 2 ^ 16
    if top != b then c ^^^ 0x1021 else c) 0xffff

/-- `n` bits of `v`, most significant first. -/
def bitsBe (n v : Nat) : List Bool := (List.range n).map fun i => decide (v / 2 ^ (n - 1 - i) % 2 = 1)

/-- A bit string read most significant bit first. -/
def natOfBits (l : List Bool) : Nat := l.foldl (fun a b => 2 * a + (if b then 1 else 0)) 0

/-- The bits of bytes, most significant first. -/
def bitsOfBytes (l : List Byte) : List Bool := l.flatMap fun b => bitsBe 8 b.toNat

/-- Bytes of a bit string, most significant first. -/
def bytesOfBits (n : Nat) (l : List Bool) : List Byte :=
  (List.range n).map fun i => BitVec.ofNat 8 (natOfBits ((l.drop (8 * i)).take 8))

/-! ### Loading fields (Tables SUB-2, SUB-3) -/

/-- The 224-bit code field: SCk in bits 7k + 6..7k. -/
def codeField (codes : List Nat) : Nat :=
  ((List.range 32).map fun k => codes.getD k 0 % 128 * 2 ^ (7 * k)).sum

/-- The codes of a 224-bit code field. -/
def codesOf (v : Nat) : List Nat := (List.range 32).map fun k => v / 2 ^ (7 * k) % 128

/-- The header loading block. -/
structure Hlb where
  curTid : Nat
  curCodes : List Nat
  nxtValid : Bool := false
  nxtTid : Nat := 0
  nxtIn : Nat := 0
  nxtCause : Nat := 0
  deriving DecidableEq, Repr

/-- The 256 bits of the HLB. -/
def Hlb.word (h : Hlb) : Nat :=
  h.curTid % 16 * 2 ^ 252 + codeField h.curCodes * 2 ^ 28 + (if h.nxtValid then 2 ^ 27 else 0) +
  h.nxtTid % 16 * 2 ^ 23 + h.nxtIn % 256 * 2 ^ 15 + h.nxtCause % 4 * 2 ^ 13

/-- The HLB that 256 bits carry. -/
def Hlb.ofWord (w : Nat) : Hlb :=
  { curTid := w / 2 ^ 252 % 16, curCodes := codesOf (w / 2 ^ 28 % 2 ^ 224), nxtValid := w / 2 ^ 27 % 2 == 1,
    nxtTid := w / 2 ^ 23 % 16, nxtIn := w / 2 ^ 15 % 256, nxtCause := w / 2 ^ 13 % 4 }

/-- The loading overhead field without its CRC. -/
structure Lof where
  annValid : Bool := false
  annTid : Nat := 0
  annIn : Nat := 0
  annCodes : List Nat := List.replicate 32 0
  reqValid : Bool := false
  reqSeq : Nat := 0
  reqBase : Nat := 0
  reqCodes : List Nat := List.replicate 32 0
  ackSeq : Nat := 0
  ackStatus : Nat := 0
  deriving DecidableEq, Repr

/-- Bits 511..16 of the LOF. -/
def Lof.upper (l : Lof) : Nat :=
  (if l.annValid then 2 ^ 495 else 0) + l.annTid % 16 * 2 ^ 491 + l.annIn % 256 * 2 ^ 483 +
  codeField l.annCodes * 2 ^ 259 + (if l.reqValid then 2 ^ 258 else 0) + l.reqSeq % 16 * 2 ^ 254 +
  l.reqBase % 16 * 2 ^ 250 + codeField l.reqCodes * 2 ^ 26 + l.ackSeq % 16 * 2 ^ 22 + l.ackStatus % 8 * 2 ^ 19

/-- The 512 bits of the LOF with its CRC-16. -/
def Lof.word (l : Lof) : Nat := l.upper * 2 ^ 16 + crc16 (bitsBe 496 l.upper)

/-- The LOF that 512 bits carry; none when its CRC fails (R140). -/
def Lof.ofWord (w : Nat) : Option Lof :=
  let u := w / 2 ^ 16 % 2 ^ 496
  if crc16 (bitsBe 496 u) = w % 2 ^ 16 then
    some { annValid := u / 2 ^ 495 % 2 == 1, annTid := u / 2 ^ 491 % 16, annIn := u / 2 ^ 483 % 256,
           annCodes := codesOf (u / 2 ^ 259 % 2 ^ 224), reqValid := u / 2 ^ 258 % 2 == 1,
           reqSeq := u / 2 ^ 254 % 16, reqBase := u / 2 ^ 250 % 16, reqCodes := codesOf (u / 2 ^ 26 % 2 ^ 224),
           ackSeq := u / 2 ^ 22 % 16, ackStatus := u / 2 ^ 19 % 8 }
  else none

/-! ### The header word (R178..R180) -/

/-- The fields of a header word. -/
structure HeaderWord where
  n : Nat
  count : Nat
  sfCount : Nat
  hlb : Hlb
  deriving DecidableEq, Repr

/-- The 480-bit header word: VER 1, and CRC-32C over bits 479..32 taken as 56 bytes. -/
def HeaderWord.word (h : HeaderWord) : Nat :=
  let u := 2 ^ 444 + h.n % 32 * 2 ^ 439 + h.count % 64 * 2 ^ 433 + h.sfCount % 2 ^ 24 * 2 ^ 409 + h.hlb.word * 2 ^ 153
  u * 2 ^ 32 + crc32c (natBe 56 u)

/-- The header that a 480-bit word carries; none unless its CRC matches and VER is 1 (R180). -/
def HeaderWord.ofWord (w : Nat) : Option HeaderWord :=
  let u := w / 2 ^ 32 % 2 ^ 448
  if crc32c (natBe 56 u) = w % 2 ^ 32 ∧ u / 2 ^ 444 = 1 then
    some { n := u / 2 ^ 439 % 32, count := u / 2 ^ 433 % 64, sfCount := u / 2 ^ 409 % 2 ^ 24,
           hlb := Hlb.ofWord (u / 2 ^ 153 % 2 ^ 256) }
  else none

/-- Parity of the taps that generator `g` (7 bits, most significant first on u_i) selects. -/
def convTap (g : Nat) (u : Nat → Bool) (i : Nat) : Bool :=
  (List.range 7).foldl (fun a d => a != (decide (g / 2 ^ (6 - d) % 2 = 1) && u ((i + 480 - d) % 480))) false

/-- The 960 channel bits of a header word (R179): rate 1/2, tail-biting, generators 0b1011011 and 0b1111001. -/
def headerChannelBits (w : Nat) : List Bool :=
  let u := fun i => decide (w / 2 ^ (479 - i) % 2 = 1)
  (List.range 480).flatMap fun i => [convTap 0x5b u i, convTap 0x79 u i]

/-! ### The SLF body (R181..R185) -/

/-- The justification bit of the superframe sent in tick `x` (R183). -/
def justBit (x : Nat) : Bool := !(x % 16 == 0 || x % 16 == 5 || x % 16 == 10)

/-- The received justification bit (R184): the majority of the unmarked copies; a tie by the SF_COUNT of the same
superframe when its header was decoded, else 1. -/
def receivedJust (copies : List (Option Bool)) (sf : Option Nat) : Bool :=
  let ones := (copies.filter (· == some true)).length
  let zeros := (copies.filter (· == some false)).length
  if ones = zeros then (sf.map justBit).getD true else decide (zeros < ones)

/-- The majority and R183 disagree (JC_DISAGREE). -/
def justDisagree (copies : List (Option Bool)) (sf : Option Nat) : Bool :=
  match sf with
  | none => false
  | some x =>
    let ones := (copies.filter (· == some true)).length
    let zeros := (copies.filter (· == some false)).length
    decide (ones ≠ zeros) && (decide (zeros < ones) != justBit x)

/-- The 1,024 bits of the body overhead (Table SLF-3). -/
def bohWord (lof : Lof) (just rxAcq : Bool) : Nat :=
  lof.word * 2 ^ 512 + (if just then 0xff * 2 ^ 504 else 0) + (if rxAcq then 2 ^ 503 else 0)

/-- The payload block of a superframe (R181, R182): the body overhead, the slice bytes interleaved byte by byte, the
justification opportunity bytes, and stuff up to `b` bits. `slices` holds 82,233 bytes for each slice. -/
def payloadBlock (boh : Nat) (slices : List (List Byte)) (b : Nat) : List Bool :=
  let body := bitsBe 1024 boh ++ ((List.range 82233).flatMap fun j =>
    slices.flatMap fun s => bitsBe 8 ((s.getD j 0).toNat))
  body ++ List.replicate (b - body.length) false

/-! ### FEC layout (R155, R156) -/

/-- C(n), the coded bits of a superframe. -/
def fecC (n : Nat) : Nat := 7625 * tableSum n
/-- W(n), the inner codewords. -/
def fecW (n : Nat) : Nat := ceilDiv (fecC n) 17408
/-- P(n), the punctured bits. -/
def fecP (n : Nat) : Nat := 17408 * fecW n - fecC n
/-- The bits that codeword `t` loses at its end. -/
def fecPunct (n t : Nat) : Nat := fecP n * (t + 1) / fecW n - fecP n * t / fecW n
/-- I(n), the inner information bits. -/
def fecI (n : Nat) : Nat := 14336 * fecW n
/-- The outer codewords before the short one is dropped. -/
def fecV0 (n : Nat) : Nat := ceilDiv (fecI n) 2047
/-- The length of the last outer codeword before it is dropped. -/
def fecR (n : Nat) : Nat := fecI n - 2047 * (fecV0 n - 1)
/-- V(n), the outer codewords. -/
def fecV (n : Nat) : Nat := if fecR n < 34 then fecV0 n - 1 else fecV0 n
/-- The fill bits. -/
def fecFill (n : Nat) : Nat := if fecR n < 34 then fecR n else 0
/-- B(n), the payload bits. -/
def fecB (n : Nat) : Nat := fecI n - 33 * fecV n - fecFill n
/-- The length of outer codeword `v`. -/
def outerLen (n v : Nat) : Nat := if v + 1 = fecV n ∧ fecFill n = 0 then fecR n else 2047
/-- The inner codeword that owns outer codeword `v` (R172). -/
def outerOwner (v : Nat) : Nat := 2047 * v / 14336

/-! ### Inner code (R158..R160) -/

/-- The row group of the information edge of column group `v` in component `k` (Table FEC-2). -/
def infoRow (v k : Nat) : Nat := (v + k) % 3
/-- The shift of an edge (R159). -/
def edgeShift (r v k : Nat) : Nat := (97 * (r + 1) * (v + 1) + 331 * k * (v + 1) + 53 * r * k) % 1024

/-- The sum of the information edges of check `z` of row group `r` at position `t`; `info t x` is information bit x of
codeword t. -/
def infoSum (w : Nat) (info : Nat → Nat → Bool) (t r z : Nat) : Bool :=
  (List.range 14).foldl (fun a v => (List.range 3).foldl (fun a k =>
    if infoRow v k = r then a != info ((t + w - k) % w) (1024 * v + (z + edgeShift r v k) % 1024) else a) a) false

/-- Parity bit `y` of group 14 (R160). -/
def parity14 (w : Nat) (info : Nat → Nat → Bool) (t y : Nat) : Bool :=
  infoSum w info t 0 ((y + 1024 - edgeShift 0 14 0) % 1024)
/-- Parity bit `y` of group 15. -/
def parity15 (w : Nat) (info : Nat → Nat → Bool) (t y : Nat) : Bool :=
  let z := (y + 1024 - edgeShift 1 15 0) % 1024
  infoSum w info t 1 z != parity14 w info t ((z + edgeShift 1 14 0) % 1024)
/-- Parity bit `y` of group 16. -/
def parity16 (w : Nat) (info : Nat → Nat → Bool) (t y : Nat) : Bool :=
  let z := (y + 1024 - edgeShift 2 16 0) % 1024
  (infoSum w info t 2 z != parity14 w info t ((z + edgeShift 2 14 0) % 1024)) !=
    parity15 w info t ((z + edgeShift 2 15 0) % 1024)

/-- Bit `x` of inner codeword `t`. -/
def innerBit (w : Nat) (info : Nat → Nat → Bool) (t x : Nat) : Bool :=
  if x < 14336 then info t x
  else if x < 15360 then parity14 w info t (x - 14336)
  else if x < 16384 then parity15 w info t (x - 15360)
  else parity16 w info t (x - 16384)

/-- A check of row group `r` at position `t` over the codeword bits `cw t x`: 0 when satisfied (R159). -/
def checkSum (w : Nat) (cw : Nat → Nat → Bool) (t r z : Nat) : Bool :=
  let a := infoSum w cw t r z
  let p := fun v => cw t (1024 * v + (z + edgeShift r v 0) % 1024)
  if r = 0 then a != p 14
  else if r = 1 then (a != p 14) != p 15
  else ((a != p 14) != p 15) != p 16

/-! ### Outer code (R161) -/

/-- The generator of the BCH code: the minimal polynomials of alpha, alpha^3 and alpha^5 over x^11 + x^2 + 1, whose
product it is. -/
def bchGen : Nat := 0x26f8a6e7d

/-- Product of polynomials over GF(2), `b` of degree below `d`. -/
def polyMul (d a b : Nat) : Nat :=
  (List.range d).foldl (fun r i => if b / 2 ^ i % 2 = 1 then r ^^^ (a * 2 ^ i) else r) 0

/-- The 33 parity bits of an outer codeword: x^33 u(x) mod g(x), by long division over the information bits. -/
def bchParity (info : List Bool) : Nat :=
  info.foldl (fun r b =>
    let top := decide (r / 2 ^ 32 % 2 = 1)
    let r := r * 2 % 2 ^ 33
    if top != b then r ^^^ (bchGen % 2 ^ 33) else r) 0

/-- A systematic outer codeword: information bits first, then parity. -/
def bchEncode (info : List Bool) : List Bool := info ++ bitsBe 33 (bchParity info)

/-- The inner information block of a payload block: the outer codewords end to end and the fill bits (R156). -/
def innerInfoBlock (n : Nat) (payload : List Bool) : List Bool :=
  ((List.range (fecV n)).flatMap fun v => bchEncode ((payload.drop (2014 * v)).take (outerLen n v - 33))) ++
    List.replicate (fecFill n) false

/-- Bit `i` of the coded stream of an inner information block `blk` (R160): codeword t sends its bits 0..17,407 - p_t. -/
def codedStream (n : Nat) (blk : Nat → Bool) : List Bool :=
  (List.range (fecW n)).flatMap fun t =>
    (List.range (17408 - fecPunct n t)).map fun x => innerBit (fecW n) (fun t x => blk (14336 * t + x)) t x

/-! ### Interleaver (R163, R164) -/

/-- The least integer at least `a` that is coprime to `c`, searched over `fuel` values. -/
def nextCoprime (c : Nat) : Nat → Nat → Nat
  | 0, a => a
  | fuel + 1, a => if Nat.gcd a c = 1 then a else nextCoprime c fuel (a + 1)

/-- The multiplier a(n). -/
def interleaveA (n : Nat) : Nat := nextCoprime (fecC n) 1000 (fecC n * 618034 / 1000000)

/-- The line-order position of coded-stream bit `i`. -/
def linePosition (n i : Nat) : Nat := interleaveA n * i % fecC n

/-- Where line-order position `p` lies under a loading table: sub-carrier, block and bit of the block (R163). -/
def lineSlot (codes : List Nat) (p : Nat) : Nat × Nat × Nat :=
  let perBlock := 25 * codes.sum
  let b := p / perBlock
  let rec go : List (Nat × Nat) → Nat → Nat × Nat × Nat
    | [], q => (0, b, q)
    | (c, k) :: l, q => if q < 25 * c then (k, b, q) else go l (q - 25 * c)
  go codes.zipIdx (p % perBlock)

/-! ### Matcher and pilots (R131..R135) -/

/-- Amplitude bits of a block for a code: K = 25 c - 800 (Table SUB-1). -/
def amplitudeBits (c : Nat) : Nat := 25 * c - 800

/-- Levels per dimension m of the base constellation (Table SUB-1). -/
def baseM (c : Nat) : Nat := if c ≤ 32 then 1 else if c ≤ 47 then 2 else if c ≤ 71 then 3 else if c ≤ 95 then 4 else 5

/-- The amplitudes of the base, ascending. -/
def amplitudes (c : Nat) : List Nat := (List.range (2 ^ (baseM c - 1))).map fun i => 2 * i + 1

/-- Factorial. -/
def fact : Nat → Nat
  | 0 => 1
  | n + 1 => (n + 1) * fact n

/-- The multinomial coefficient of counts. -/
def multinomial (counts : List Nat) : Nat := fact counts.sum / (counts.map fact).foldl (· * ·) 1

/-- The amplitude chosen for one dimension by R132: the index into the base, the rank left, the counts left. -/
def unrankStep (counts : List Nat) : Nat → List Nat → Nat → Option (Nat × Nat × List Nat)
  | _, [], _ => none
  | i, c :: cs, r =>
    if c = 0 then unrankStep counts (i + 1) cs r
    else
      let less := counts.set i (c - 1)
      let w := multinomial less
      if r < w then some (i, r, less) else unrankStep counts (i + 1) cs (r - w)

/-- The amplitude sequence of rank `r` among those of the composition `counts` (R132). -/
def unrank : Nat → List Nat → Nat → List Nat
  | 0, _, _ => []
  | len + 1, counts, r =>
    match unrankStep counts 0 counts r with
    | none => []
    | some (i, r', counts') => (2 * i + 1) :: unrank len counts' r'

/-- The energy of a composition, the sum of count times squared amplitude. -/
def compositionEnergy (counts : List Nat) : Nat :=
  (counts.zipIdx.map fun p => p.1 * (2 * p.2 + 1) ^ 2).sum

/-- The order of compositions by R133: less energy, then the larger multinomial, then the larger counts from amplitude 1
upward. -/
def betterComposition (a b : List Nat) : Bool :=
  let ea := compositionEnergy a
  let eb := compositionEnergy b
  let ma := multinomial a
  let mb := multinomial b
  decide (ea < eb) || (decide (ea = eb) && (decide (mb < ma) || (decide (ma = mb) &&
    ((a.zip b).find? (fun p => p.1 != p.2)).any (fun p => decide (p.2 < p.1)))))

/-- A composition that a code may use: 800 dimensions, at least 2^K sequences (R133). -/
def compositionOk (c : Nat) (counts : List Nat) : Bool :=
  counts.length == 2 ^ (baseM c - 1) && counts.sum == 800 && decide (2 ^ amplitudeBits c ≤ multinomial counts)

/-- N(c), characterised: a composition that may be used and that no other one beats (R133). -/
def IsComposition (c : Nat) (counts : List Nat) : Prop :=
  compositionOk c counts = true ∧ ∀ o, compositionOk c o = true → betterComposition o counts = false

/-- The levels of the 800 dimensions of a block: sign times amplitude (R132); the first 800 bits are the signs. -/
def blockLevels (counts : List Nat) (bits : List Bool) : List Int :=
  let amps := unrank 800 counts (natOfBits (bits.drop 800))
  (bits.take 800).zip amps |>.map fun p => if p.1 then -(p.2 : Int) else (p.2 : Int)

/-- One step of the PRBS9 generator x^9 + x^5 + 1: the register and its output bit (R135). -/
def prbs9 (r : Nat) : Nat × Bool :=
  let b := (r / 2 ^ 8 + r / 2 ^ 4) % 2
  ((r * 2 + b) % 512, b == 1)

/-- The four bits of pilot `q` of sub-carrier `k`: X real, X imaginary, Y real, Y imaginary. -/
def pilotBits (k q : Nat) : List Bool :=
  ((List.range (4 * q + 4)).foldl (fun (st : Nat × List Bool) _ =>
    let (r, b) := prbs9 st.1
    (r, st.2 ++ [b])) (k + 1, [])).2.drop (4 * q)

/-- Body position `p` is a pilot (R135). -/
def isPilot (p : Nat) : Bool := p % 62 == 61

/-! ### LLRs and replacement signals -/

/-- An LLR from the natural LLR in 1/1,024: 4 times it, rounded as R64, clamped to -31..31 (R165). -/
def llrOf (lambda : Int) : Int := clampInt (-31) 31 (roundShift (4 * lambda) 10)

/-- The byte of a replacement signal (Table SLF-8): 0 ODU-AIS, 1 ODU-LCK, 2 ODU-OCI. -/
def replacementByte (sig : Nat) : Byte := if sig = 0 then 0xff else if sig = 1 then 0x55 else 0x66

/-- The PM and TCM STAT of a replacement signal. -/
def replacementStat (sig : Nat) : Nat := if sig = 0 then 7 else if sig = 1 then 5 else 6

end Sys2Proof.Machine
end

