-- ==== Sys2Proof/Machine/MeshOps.lean ====
section
/-! DEFINITION. Sending over the Rhizome: the message format (Table MSH-1), the port queues (R422), origination of link,
flood, broadcast and unicast messages (R419..R423). -/
namespace Sys2Proof.Machine

/-- Changes the mesh record. -/
def State.modMesh (s : State) (g : MeshSt → MeshSt) : State := { s with mesh := g s.mesh }

/-- Mesh port `p`. -/
def State.mport (s : State) (p : Nat) : MeshPort := Tab.get (fun _ => {}) s.mesh.ports p

/-- Writes mesh port `p`. -/
def State.setMport (s : State) (p : Nat) (x : MeshPort) : State :=
  s.modMesh fun m => { m with ports := Tab.set (fun _ => {}) m.ports p x }

/-- Port `p` is UP (R418). -/
def State.meshUp (s : State) (p : Nat) : Bool := s.flag (R.MSH_PORT_STAT_UP p)

/-- The address held; 0 for none. -/
def State.meshAddr (s : State) : Nat := s.rd R.MSH_STAT_ADDR

/-- The mesh state (Table MSH-3). -/
def State.meshState (s : State) : Nat := s.rd R.MSH_STAT_STATE

/-- MEMBER or READ_ONLY. -/
def State.meshMember (s : State) : Bool := s.meshState == 2 || s.meshState == 3

/-- The 18 + LENGTH octets of a message, header and payload fields most significant byte first (Table MSH-1). -/
def meshBytes (typ hops dst src mseq : Nat) (payload : List Byte) : List Byte :=
  let h : List Byte := [0xd2, 0x4b] ++ natBe 1 typ ++ natBe 1 hops ++ natBe 2 dst ++ natBe 2 src ++
    natBe 2 payload.length ++ natBe 2 mseq
  h ++ natBe 2 (crc16 (bitsOfBytes h)) ++ payload ++ natBe 4 (crc32c payload)

/-- Queues a message on port `p` in class `cls`; one that finds its queue full is dropped and counted (R422). -/
def State.meshQueue (s : State) (p cls : Nat) (b : List Byte) : State :=
  let x := s.mport p
  if 64 ≤ (x.queue.filter fun q => q.1 == cls).length then s.bump R.MSH_CNT_TX_DROP 1
  else s.setMport p { x with queue := x.queue ++ [(cls, b)] }

/-- A message of link scope on port `p`: HOPS 1, MSEQ 0. -/
def State.meshLink (s : State) (p typ cls : Nat) (payload : List Byte) : State :=
  s.meshQueue p cls (meshBytes typ 1 0 s.meshAddr 0 payload)

/-- The ports that are UP. -/
def State.upPorts (s : State) : List Nat := (List.range 6).filter s.meshUp

/-- A flooded message, on every UP port but `skip` (R421, R423). -/
def State.meshFlood (s : State) (typ src : Nat) (payload : List Byte) (skip : Option Nat) : State :=
  (s.upPorts.filter fun p => skip != some p).foldl (fun s p =>
    s.meshQueue p 2 (meshBytes typ s.mesh.hopLimit 0xfff src 0 payload)) s

/-- The neighbour on port `p` is a member: its entry is in the database. -/
def State.nbrMember (s : State) (p : Nat) : Bool :=
  (Tab.get (fun _ => none) s.mesh.db (s.rd (R.MSH_PORT_STAT_NBR_ADDR p))).isSome

/-- A message of its own origin takes the next MSEQ. -/
def State.nextMseq (s : State) : Nat × State :=
  (s.mesh.mseq, s.modMesh fun m => { m with mseq := (m.mseq + 1) % 65536 })

/-- No route to `dst`: NOROUTE, and MESH_UNREACHABLE at most once per 160 ticks for an address (R423). -/
def State.noRoute (s : State) (dst : Nat) : State :=
  let s := s.bump R.MSH_CNT_NOROUTE 1
  let last := Tab.get (fun _ => none) s.mesh.unreach dst
  if last.any fun t => decide (s.tick < t + 160) then s
  else (s.modMesh fun m => { m with unreach := Tab.set (fun _ => none) m.unreach dst (some s.tick) }).raise 0x100a dst

/-- A unicast message of its own (R423): HOPS = HOP_LIMIT, on the port that the routing table names. Only a member
originates one (Table MSH-3). -/
def State.meshUnicast (s : State) (typ cls dst : Nat) (payload : List Byte) : State :=
  if !s.meshMember then s
  else
    let (q, s) := s.nextMseq
    match Tab.get (fun _ => none) s.mesh.routes dst with
    | some (_, p) => s.meshQueue p cls (meshBytes typ s.mesh.hopLimit dst s.meshAddr q payload)
    | none => s.noRoute dst

/-- A broadcast of its own, on every UP port whose neighbour is a member. -/
def State.meshBroadcast (s : State) (typ cls : Nat) (payload : List Byte) : State :=
  if !s.meshMember then s
  else
    let (q, s) := s.nextMseq
    (s.upPorts.filter s.nbrMember).foldl (fun s p =>
      s.meshQueue p cls (meshBytes typ s.mesh.hopLimit 0xfff s.meshAddr q payload)) s

/-- KEY_ROLL of an accepted roll of SA `i` at `r` (R302, R435): to PEER, when there is one. -/
def State.keyRollSend (s : State) (i r : Nat) : State :=
  let x := Tab.get (fun _ => ({} : SaRec)) s.sas i
  let epoch := ((if x.cur = 0 then x.slot1 else x.slot0).map KeySlot.epoch).getD 0
  if x.peer = 0 then s
  else s.meshUnicast 0x10 2 x.peer (natBe 2 x.peerSa ++ natBe 2 i ++ natBe 4 epoch ++ natBe 8 r)

/-- FAULT_REPORT of a logged fault (R436): at most 16 in a tick, further ones count in TX_DROP. -/
def State.faultReport (s : State) (sev : Nat) (msg : List Byte) : State :=
  let m := s.mesh
  if m.faultDst = 0 ∨ m.faultSev = 0 ∨ sev < m.faultSev then s
  else
    let n := if m.faultTick = some s.tick then m.faultSent else 0
    if 16 ≤ n then s.bump R.MSH_CNT_TX_DROP 1
    else
      let s := s.modMesh fun m => { m with faultTick := some s.tick, faultSent := n + 1 }
      if m.faultDst = 0xfff then s.meshBroadcast 0x12 2 msg else s.meshUnicast 0x12 2 m.faultDst msg

end Sys2Proof.Machine
end

