-- ==== Sys2Proof/Machine/PeatStore.lean ====
section
/-! DEFINITION. The Peat domain's own operations (chapter 20): the life store with its remapping (R498, R502), the records
of Table PEAT-4, the life counters (R496) and Peat events (R504). -/
namespace Sys2Proof.Machine

/-! ### Words of the life store -/

/-- The first word of the spare pool, 0xB100, and the pool's size in words (Table PEAT-4). -/
def spareBase : Nat := 0xb100 / 4
def spareWords : Nat := (0x10000 - 0xb100) / 4

/-- The word that holds address word `w` after remapping (R502). -/
def PeatSt.phys (p : PeatSt) (w : Nat) : Nat :=
  (p.remap.zipIdx.foldl (fun a x => if x.1 = w then spareBase + x.2 else a) w)

/-- A word of the life store, after remapping. -/
def PeatSt.word (p : PeatSt) (w : Nat) : Word := Tab.get (fun _ => 0) p.store (p.phys w)

/-- Share of the spare pool in use, in percent. -/
def PeatSt.spareUsed (p : PeatSt) : Nat := 100 * p.remap.length / spareWords

/-- Bytes of the life store. -/
def PeatSt.bytes (p : PeatSt) (addr len : Nat) : List Byte :=
  (List.range (len / 4)).flatMap fun i => natLe 4 (p.word (addr / 4 + i)).toNat

/-- Changes the Peat record. -/
def State.modPeat (s : State) (g : PeatSt → PeatSt) : State := { s with peat := g s.peat }

/-- Raises a Peat event; one whose condition is met while the main supplies are absent or boot runs waits for release
(R504). -/
def State.peatRaise (s : State) (code : Nat) (vals : List EVal) : State :=
  if s.boot.pwrOk && s.running then s.raise code 0 vals
  else s.modPeat fun p => { p with held := p.held ++ [{ code := code, obj := 0, tick := 0, vals := vals }] }

/-- One word written and read back (R498, R502): a word in `fails` is remapped; with the pool exhausted it stays bad and
its copy is invalid. -/
def PeatSt.putWord (p : PeatSt) (fails : List Nat) (w : Nat) (v : Word) : PeatSt :=
  if fails.contains w then
    if p.remap.length < spareWords then
      let p := { p with remap := p.remap ++ [w] }
      { p with store := Tab.set (fun _ => 0) p.store (p.phys w) v }
    else { p with badCopies := p.badCopies ++ [w] }
  else { p with store := Tab.set (fun _ => 0) p.store (p.phys w) v, badCopies := p.badCopies.filter (· != w) }

/-- A record written at byte address `addr`. -/
def PeatSt.putBytes (p : PeatSt) (fails : List Nat) (addr : Nat) (b : List Byte) : PeatSt :=
  (List.range (b.length / 4)).foldl (fun p i => p.putWord fails (addr / 4 + i) (BitVec.ofNat 32 (fieldAt b (4 * i) 4))) p

/-- A record with its CRC field at byte `off`: CRC-32C over the record with that field 0. -/
def withCrc (b : List Byte) (off : Nat) : List Byte :=
  let z := b.take off ++ [0, 0, 0, 0] ++ b.drop (off + 4)
  z.take off ++ natLe 4 (crc32c z) ++ z.drop (off + 4)

/-- The copy at `addr` is valid: its CRC matches and no word of it is bad. -/
def PeatSt.copyOk (p : PeatSt) (addr len off : Nat) : Bool :=
  let b := p.bytes addr len
  (b == withCrc b off) && !(p.badCopies.any fun w => decide (addr ≤ 4 * w) && decide (4 * w < addr + len))

/-- The address of the newest valid copy: the greatest sequence number at byte `seqOff`. -/
def PeatSt.newest (p : PeatSt) (copies : List Nat) (len crcOff seqOff seqLen : Nat) : Option Nat :=
  (copies.filter fun a => p.copyOk a len crcOff).foldl (fun best a =>
    match best with
    | none => some a
    | some b => if fieldAt (p.bytes b len) seqOff seqLen < fieldAt (p.bytes a len) seqOff seqLen then some a else some b)
    none

/-! ### Life counters (R496) -/

/-- Life counter `i`. -/
def PeatSt.counter (p : PeatSt) (i : Nat) : Nat := Tab.get (fun _ => 0) p.counters i

/-- Advances life counter `i`, saturating. -/
def PeatSt.count (p : PeatSt) (i : Nat) : PeatSt :=
  { p with counters := Tab.set (fun _ => 0) p.counters i (satAdd 0xffffffff (p.counter i) 1) }

/-- An event counter advances; the life record is committed within this Peat second (R499). -/
def State.bumpLife (s : State) (i : Nat) : State := s.modPeat fun p => { p.count i with commitDue := true }

/-! ### Records of Table PEAT-4 -/

/-- PEAT_CAL_DATE. -/
def Cal.date (c : Cal) : Nat := c.year * 2 ^ 16 + c.month * 2 ^ 8 + c.day

/-- PEAT_CAL_TIME. -/
def Cal.time (c : Cal) : Nat := c.hour * 2 ^ 16 + c.minute * 2 ^ 8 + c.second

/-- The DATE and TIME words of a record: 0 while the calendar is not valid. -/
def PeatSt.dateTime (p : PeatSt) : Nat × Nat := if p.valid then (p.cal.date, p.cal.time) else (0, 0)

/-- The copies of an area. -/
def lifeSlots : List Nat := (List.range 32).map fun i => 0x400 + 1024 * i
def markerSlots : List Nat := [0xb000, 0xb020]
def pinSlots : List Nat := [0xb080, 0xb0c0]
def updSlots : List Nat := [0x8400, 0x9400]
def calSlots (f : Nat) : List Nat := [0xa400 + 32 * f, 0xaa00 + 32 * f]

/-- After a write that left bad words: LIFE_STORE_ERROR when every copy of the area is invalid; wear events at 50 and
90 percent (R502). -/
def State.storeWear (s : State) (before : PeatSt) (copies : List Nat) (len crcOff : Nat) : State :=
  let u0 := before.spareUsed
  let u := s.peat.spareUsed
  let s := if (u0 < 50 ∧ 50 ≤ u) ∨ (u0 < 90 ∧ 90 ≤ u) then s.peatRaise 0x1307 [.w u] else s
  if before.badCopies.length < s.peat.badCopies.length ∧ copies.all (fun a => !s.peat.copyOk a len crcOff) then
    let s := (s.peatRaise 0x1308 [.w (copies.headD 0)]).wrB R.PEAT_STAT_LS_ERR true
    if copies = lifeSlots then s.modPeat fun p => { p with counters := [] } else s
  else s

/-- Commits the life record (Table PEAT-5). -/
def State.commitLife (s : State) (fails : List Nat := []) : State :=
  let p := s.peat
  if p.powered then
    let (d, t) := p.dateTime
    let b := natLe 8 p.lifeSeq ++ natLe 8 p.esec ++ natLe 8 p.epoch ++ natLe 8 p.prevEpoch ++ natLe 4 d ++ natLe 4 t ++
      ((List.range 160).flatMap fun i => natLe 4 (p.counter i)) ++ List.replicate 344 0
    let q := p.putBytes fails (0x400 + 1024 * (p.lifeSeq % 32)) (withCrc b 1020)
    let s := { s with peat := { q with lifeSeq := p.lifeSeq + 1, commitDue := false, lastCommit := p.esec } }
    s.storeWear p lifeSlots 1024 1020
  else s

/-- Writes a power marker (R501): kind 1 power-up, 2 shutdown with TICK. -/
def State.writeMarker (s : State) (kind tick : Nat) (fails : List Nat := []) : State :=
  let p := s.peat
  if p.powered then
    let b := natLe 8 p.markerSeq ++ natLe 4 kind ++ natLe 8 p.esec ++ natLe 8 tick ++ [0, 0, 0, 0]
    let q := p.putBytes fails (0xb000 + 32 * (p.markerSeq % 2)) (withCrc b 28)
    let s := { s with peat := { q with markerSeq := p.markerSeq + 1 } }
    s.storeWear p markerSlots 32 28
  else s

/-! ### The pinned record (Table FLT-5) -/

/-- The 16 bytes of a fault message (Table FLT-1). -/
def FaultMsg.bytes (m : FaultMsg) : List Byte :=
  natLe 4 m.addr ++ natLe 4 (m.addr / 2 ^ 32 % 2 ^ 8 + (if m.clear then 2 ^ 8 else 0) + m.sev % 8 * 2 ^ 9 +
    m.kind % 256 * 2 ^ 12 + m.source % 4096 * 2 ^ 20) ++ natLe 8 m.tick

/-- The message that 16 bytes carry. -/
def FaultMsg.ofBytes (b : List Byte) : FaultMsg :=
  let w := fieldAt b 4 4
  { source := w / 2 ^ 20, kind := w / 2 ^ 12 % 256, sev := w / 2 ^ 9 % 8, clear := w / 2 ^ 8 % 2 == 1,
    addr := fieldAt b 0 4 + w % 2 ^ 8 * 2 ^ 32, tick := fieldAt b 8 8 }

/-- The 64 bytes of the record; an empty one reads 0 but for the sequence it is stored under and its CRC. -/
def pinBytes (r : Option Pinned) (pseq : Nat) : List Byte :=
  let b := match r with
    | some r => r.msg.bytes ++ natLe 4 r.flags ++ natLe 4 r.count ++ natLe 4 r.logIndex ++ natLe 4 0 ++ natLe 8 r.esec ++
        natLe 4 r.date ++ natLe 4 r.time ++ natLe 8 pseq ++ natLe 4 0
    | none => List.replicate 48 0 ++ natLe 8 pseq ++ natLe 4 0
  b ++ natLe 4 (crc32c b)

/-- A stored copy of the pinned record whose CRC over bytes 0..59 matches. -/
def PeatSt.pinOk (p : PeatSt) (addr : Nat) : Bool :=
  let b := p.bytes addr 64
  crc32c (b.take 60) == fieldAt b 60 4 && !(p.badCopies.any fun w => decide (addr ≤ 4 * w) && decide (4 * w < addr + 64))

/-- The record that the newest valid copy holds. -/
def PeatSt.storedPin (p : PeatSt) : Option Pinned :=
  let ok := pinSlots.filter p.pinOk
  let best := ok.foldl (fun (a : Option Nat) x => match a with
    | none => some x
    | some y => if fieldAt (p.bytes y 64) 48 8 < fieldAt (p.bytes x 64) 48 8 then some x else some y) none
  match best with
  | none => none
  | some a =>
    let b := p.bytes a 64
    if fieldAt b 16 4 % 2 = 1 then
      some { msg := FaultMsg.ofBytes (b.take 16), flags := fieldAt b 16 4, count := fieldAt b 20 4, logIndex := fieldAt b 24 4,
             esec := fieldAt b 32 8, date := fieldAt b 40 4, time := fieldAt b 44 4, pseq := fieldAt b 48 8 }
    else none

/-- Writes the pinned record to Peat (R576). -/
def State.storePin (s : State) (fails : List Nat := []) : State :=
  let p := s.peat
  if p.powered then
    let seq := p.pinSeq + 1
    let q := p.putBytes fails (0xb080 + 64 * (seq % 2)) (pinBytes s.flt.pinned seq)
    { s with
      peat := { q with pinSeq := seq, pinDue := false, pinTime := some p.esec }
      flt := { s.flt with pinned := s.flt.pinned.map fun r => { r with pseq := seq } } }
  else s

/-- A change of the record's FLAGS or COUNT: copied at most once in a Peat second (R576). -/
def State.touchPin (s : State) : State :=
  if s.peat.pinTime = some s.peat.esec then s.modPeat fun p => { p with pinDue := true } else s.storePin

end Sys2Proof.Machine
end

