-- ==== Sys2Proof/Machine/Calendar.lean ====
section
/-! DEFINITION. The calendar of the Peat domain (R491..R494) and the configuration epoch (R495). -/
namespace Sys2Proof.Machine

/-- A leap year of the Gregorian calendar. -/
def leapYear (y : Nat) : Bool := (y % 4 == 0 && y % 100 != 0) || y % 400 == 0

/-- The days of a month. -/
def monthDays (y m : Nat) : Nat :=
  if m = 2 then (if leapYear y then 29 else 28)
  else if m = 4 ∨ m = 6 ∨ m = 9 ∨ m = 11 then 30 else 31

/-- The reason of Table PEAT-1 for which a date and time are rejected, 0 for none: the first field that fails. -/
def calReason (c : Cal) : Nat :=
  if c.year < 2000 ∨ 2199 < c.year then 1
  else if c.month < 1 ∨ 12 < c.month then 2
  else if c.day < 1 ∨ monthDays c.year c.month < c.day then 3
  else if 23 < c.hour then 4
  else if 59 < c.minute then 5
  else if 59 < c.second then 6
  else 0

/-- The day after the date of `c`, at the same time. -/
def Cal.nextDay (c : Cal) : Cal :=
  if c.day < monthDays c.year c.month then { c with day := c.day + 1 }
  else if c.month < 12 then { c with month := c.month + 1, day := 1 }
  else { c with year := c.year + 1, month := 1, day := 1 }

/-- The second after `c` (R491). -/
def Cal.next (c : Cal) : Cal :=
  if c.second < 59 then { c with second := c.second + 1 }
  else if c.minute < 59 then { c with minute := c.minute + 1, second := 0 }
  else if c.hour < 23 then { c with hour := c.hour + 1, minute := 0, second := 0 }
  else { c.nextDay with hour := 0, minute := 0, second := 0 }

/-- The last second of the range (R494). -/
def Cal.last : Cal := { year := 2199, month := 12, day := 31, hour := 23, minute := 59, second := 59 }

/-- `n` seconds later, held at the end of the range. -/
def Cal.later : Nat → Cal → Cal
  | 0, c => c
  | n + 1, c => Cal.later n (if c = Cal.last then c else c.next)

/-- The date and time that the layouts of PEAT_CAL_DATE and PEAT_CAL_TIME carry. -/
def calOf (date time : Nat) : Cal :=
  { year := date / 2 ^ 16, month := date / 2 ^ 8 % 256, day := date % 256
    hour := time / 2 ^ 16, minute := time / 2 ^ 8 % 256, second := time % 256 }

/-- One Peat second of the calendar: it stops at the end of its range with EXPIRED and CAL_EXPIRED (R494). -/
def State.calSecond (s : State) : State :=
  let p := s.peat
  if p.expired then s
  else if p.cal = Cal.last then
    ({ s with peat := { p with expired := true } }).peatRaise 0x1303 []
  else { s with peat := { p with cal := p.cal.next } }

/-- GO of PEAT_CAL_CMD takes effect (R492): the values of SETDATE and SETTIME are checked and applied. A set bit
above HOUR in SETTIME makes HOUR fail. -/
def State.calGo (s : State) : State :=
  let c := calOf (s.rd R.PEAT_CAL_SETDATE_SETDATE) (s.rd R.PEAT_CAL_SETTIME_SETTIME)
  match calReason c with
  | 0 =>
    let s := s.modPeat fun p => { p with cal := c, valid := true, expired := false, subTick := some s.tick }
    let s := ((s.wr R.PEAT_CAL_STAT_RESULT 1).wr R.PEAT_CAL_STAT_REASON 0).bumpLife 14
    s.peatRaise 0x1301 [.w c.date, .w c.time]
  | r => ((s.wr R.PEAT_CAL_STAT_RESULT 2).wr R.PEAT_CAL_STAT_REASON r).peatRaise 0x1302 [.w r]

/-- A time step takes effect (R493): the calendar would have read `label` at the edge; the time since is added. -/
def State.calStep (s : State) (label : Cal) (edge : Nat) : State :=
  (s.modPeat fun p => { p with
    cal := label.later ((s.tick - edge) / 160000), valid := true, expired := false, subTick := some edge }).bumpLife 15

/-- GO of PEAT_EPOCH_CMD takes effect (R495): only a greater epoch is taken. -/
def State.epochGo (s : State) : State :=
  let e := s.rd R.PEAT_EPOCH_NEW_LO_NEW + 2 ^ 32 * s.rd R.PEAT_EPOCH_NEW_HI_NEW
  if s.peat.epoch < e then
    (s.modPeat fun p => { p with epoch := e, commitDue := true }).peatRaise 0x1306 [.q e, .w 1]
  else s.wrB R.PEAT_STAT_EPOCH_REJECT true

end Sys2Proof.Machine
end

