-- ==== Sys2Proof/Machine/Faults.lean ====
section
/-! DEFINITION. Fault collection (chapter 25): the reaction table, a message's actions, the log, the pinned record, the
safe state, the two contacts. -/
namespace Sys2Proof.Machine

/-! ### The reaction table (Table FLT-3) -/

/-- A row of Table FLT-3: the kind, its reset entry, its minimum ACTION, whether the entry is fixed. -/
structure KindRow where
  kind : Nat
  action : Nat
  alert : Bool
  least : Nat
  fixed : Bool

/-- Table FLT-3. Actions: LOG 0, BLOCK 1, SAFE 2, WARM 3. -/
def kindRows : List KindRow := [
  ⟨0x01, 0, true, 0, false⟩, ⟨0x02, 0, true, 0, false⟩, ⟨0x03, 0, false, 0, false⟩, ⟨0x04, 2, true, 0, false⟩,
  ⟨0x05, 2, true, 2, true⟩, ⟨0x06, 3, true, 3, true⟩, ⟨0x07, 0, true, 0, false⟩, ⟨0x08, 0, false, 0, false⟩,
  ⟨0x09, 0, true, 0, false⟩, ⟨0x0a, 0, true, 0, false⟩, ⟨0x0b, 1, true, 1, false⟩, ⟨0x0c, 0, true, 0, true⟩,
  ⟨0xfe, 0, false, 0, false⟩]

/-- The row of a kind. -/
def kindRow (k : Nat) : Option KindRow := kindRows.find? fun r => r.kind == k

/-- The reset reaction of a kind. -/
def resetReact (k : Nat) : React :=
  match kindRow k with
  | some r => ⟨r.action, r.alert⟩
  | none => ⟨0, false⟩

/-- The reaction entry in force. -/
def State.reaction (s : State) (k : Nat) : React := Tab.get resetReact s.flt.react k

/-- A block of Table BOOT-8 that exists in this grade. -/
def State.resettable (s : State) (b : Nat) : Bool :=
  (decide (0x010 ≤ b) && decide (b ≤ 0x013)) || (decide (0x100 ≤ b) && decide (b < 0x100 + s.frondCount)) ||
  (decide (0x200 ≤ b) && decide (b ≤ 0x205)) || (decide (0x300 ≤ b) && decide (b < 0x300 + s.frondCount))

/-- Changes the collector. -/
def State.modFlt (s : State) (g : FaultSt → FaultSt) : State := { s with flt := g s.flt }

/-! ### Taking a message (R569, R570, R574..R576) -/

/-- The action of a message: decided in the tick of its arrival, whatever the state of the log (R569, R570). -/
def State.faultAction (s : State) (m : FaultMsg) : State :=
  match (s.reaction m.kind).action with
  | 0 => s
  | 1 => if s.resettable m.source then s.modFlt fun x => { x with blockNext := x.blockNext ++ [m.source] } else s
  | 2 => s.modFlt fun x => { x with safeNext := some (x.safeNext.getD (m.kind, m.source)) }
  | _ =>
    let cause := if m.kind = 0x06 then 3 else 4
    s.modFlt fun x => { x with safeNext := some (x.safeNext.getD (m.kind, m.source)), warmNext := some (min cause (x.warmNext.getD cause)) }

/-- Sets the ALERT latch of a kind (R574). -/
def State.latchAlert (s : State) (k : Nat) : State :=
  s.setBits (R.FLT_LATCH_LATCH (k / 32)) (2 ^ (k % 32))

/-- Pins a message when the record is empty and was not cleared in this tick (R576). -/
def State.pinFault (s : State) (m : FaultMsg) : State :=
  if m.clear ∨ s.flt.pinned.isSome ∨ s.flt.pinClearTick = some s.tick then s
  else
    let (d, t) := s.peat.dateTime
    let r : Pinned := { msg := m, flags := 1, count := 1, logIndex := s.rd R.FLT_LOG_WR_COUNT, esec := s.peat.esec,
                        date := d, time := t, pseq := 0 }
    let s := s.modFlt fun x => { x with pinned := some r }
    let s := (s.wrB R.FLT_STAT_FIRST_VALID true).storePin
    s.raise 0x1802 m.source [.raw m.bytes]

/-- Logs a message: at most 64 in a tick, the surplus in LOST; FAULT_LOGGED by EV_SEV; the pinned record (R575, R576,
R579). -/
def State.logFault (s : State) (m : FaultMsg) : State :=
  let n := if s.flt.loggedTick = s.tick then s.flt.logged else 0
  if 64 ≤ n then s.bump R.FLT_CNT_LOST 1
  else
    let k := s.rd R.FLT_LOG_WR_COUNT
    let had := s.flt.pinned.isSome
    let s := s.modFlt fun x => { x with
      log := Tab.set (fun _ => none) x.log (k % 4096) (some (k, m)), logged := n + 1, loggedTick := s.tick }
    let s := if s.flt.evSev != 0 && decide (s.flt.evSev ≤ m.sev) then s.raise 0x1801 m.source [.raw m.bytes] else s
    let s := s.faultReport m.sev m.bytes
    let s :=
      if had then
        (s.modFlt fun x => { x with pinned := x.pinned.map fun r => { r with count := satAdd 0xffffffff r.count 1 } }).touchPin
      else s.pinFault m
    s.wr R.FLT_LOG_WR_COUNT (k + 1)

/-- A message reaches the collector. While a module warm reset is in progress it is kept and logged after release, with
its own TICK and no action (Table FLT-6); with every collector lost nothing is logged (R577). -/
def State.sendFault (s : State) (m : FaultMsg) : State :=
  if s.flag R.FLT_STAT_LOST_ALL then s
  else if s.boot.warm then { s with boot := { s.boot with held := s.boot.held ++ [m] } }
  else
    let s := if m.clear then s else s.faultAction m
    let s := if !m.clear && (s.reaction m.kind).alert then s.latchAlert m.kind else s
    s.logFault m

/-- Messages kept through a module warm reset are logged after release. -/
def State.logHeld (s : State) : State :=
  let l := s.boot.held
  let s := { s with boot := { s.boot with held := [] } }
  l.foldl State.logFault s

/-! ### The safe state (R571..R573) -/

/-- A blocking condition of R572. -/
def State.blocking (s : State) : Bool := s.flag R.PWR_MSTAT_TRIPPED || s.flag R.FLT_STAT_LOST_ALL

/-- Refreshes BLOCKING. -/
def State.updateBlocking (s : State) : State := s.wrB R.FLT_STAT_BLOCKING s.blocking

/-- Safe-state entry at step 1 (R571): the cross-connect's connections freeze as they stand. -/
def State.enterSafe (s : State) (kind source : Nat) : State :=
  if s.flag R.FLT_STAT_SAFE then s
  else
    let s := s.wrB R.FLT_STAT_SAFE true
    let s := s.bump R.FLT_CNT_SAFE_ENTRIES 1
    let s := { s with xcFrozen := some s.eps }
    let s := match s.flt.pinned with
      | some r => (s.modFlt fun x => { x with pinned := some { r with flags := r.flags ||| 4 } }).touchPin
      | none => s
    s.raise 0x1803 source [.w kind]

/-- A connection as configured, with what its frozen image counted and holds. -/
def thawEp (x y : Endpoint) : Endpoint :=
  if x.entry.kind = 1 ∧ y.entry.kind = 1 ∧ x.born = y.born then
    { y with
      entry := { x.entry with taken := y.entry.taken, lstate := y.entry.lstate }
      slotsSrc := x.slotsSrc
      slotsDst := x.slotsDst
      slotsLegB := x.slotsLegB }
  else x

/-- The safe state ends (R572): configuration applied in it is in force from here. -/
def State.exitSafe (s : State) : State :=
  let s := s.wrB R.FLT_STAT_SAFE false
  match s.xcFrozen with
  | none => s
  | some t => { s with
      eps := s.eps.map fun q => (q.1, thawEp q.2 (Tab.get (fun _ => {}) t q.1))
      xcFrozen := none }

/-- Step 1: the entry that the collector decided in the previous tick. -/
def State.safeStep (s : State) : State :=
  match s.flt.safeNext with
  | none => s
  | some (k, src) => (s.modFlt fun x => { x with safeNext := none }).enterSafe k src

/-- The level of FAULT_N, low while outputs cannot be trusted (R573). -/
def State.faultNLevel (s : State) : Bool := s.running && !s.flag R.FLT_STAT_SAFE && !s.boot.warm

/-- FAULT_N changes at tick boundaries. During a module warm reset its hold cell keeps it (R484). -/
def State.driveFaultN (s : State) : State :=
  if s.boot.warm then s
  else
    let l := s.faultNLevel
    (s.modFlt fun x => { x with faultN := l }).wrB R.FLT_STAT_FAULT_N l

/-- Some ALERT latch is set. -/
def State.anyLatch (s : State) : Bool := (List.range 4).any fun k => s.rd (R.FLT_LATCH_LATCH k) != 0

/-- ALERT_N at the end of a tick (R574); released during every reset (R484). -/
def State.driveAlertN (s : State) : State :=
  let low := s.anyLatch && s.running
  (s.modFlt fun x => { x with alertN := !low }).wrB R.FLT_STAT_ALERT low

/-! ### The collectors (R577) -/

/-- A parity failure retires a collector, or loses the last one. -/
def State.collectorFault (s : State) (c : Nat) : State :=
  if s.flag R.FLT_STAT_LOST_ALL then s
  else if s.fuse.grade = 2 ∨ (s.flag R.FLT_STAT_DEGRADED ∧ s.rd R.FLT_STAT_RETIRED ≠ c) then
    let s := (s.wrB R.FLT_STAT_LOST_ALL true).updateBlocking
    let (k, s) := s.fresh
    let s := s.modFlt fun x => { x with safeNext := some (x.safeNext.getD (k % 256, 0)) }
    s.raise 0x1806 0
  else if s.flag R.FLT_STAT_DEGRADED then s
  else
    let s := (s.wrB R.FLT_STAT_DEGRADED true).wr R.FLT_STAT_RETIRED c
    let s := s.sendFault ⟨0x003 + (1 - c), 0x0c, 5, false, c, s.tick⟩
    let s := match s.flt.pinned with
      | some r => (s.modFlt fun x => { x with pinned := some { r with flags := r.flags ||| 2 } }).touchPin
      | none => s
    s.raise 0x1805 0 [.w c]

/-- FAULT_MESSAGE: a block's message reaches the collector. -/
def execFaultMessage (m : FaultMsg) (s : State) : Host.Outcome State Fault Refusal := .next <| s.sendFault m

/-- COLLECTOR_PARITY_FAILURE of collector A (0) or B (1). -/
def execCollectorParityFailure (c : Fin 2) (s : State) : Host.Outcome State Fault Refusal := .next <|
  s.collectorFault c.val

end Sys2Proof.Machine
end

