-- ==== Sys2Proof/Machine/Defects.lean ====
section
/-! DEFINITION. The line-level defects of a frond (R188..R199) and their consequent actions (Table SLF-7). -/
namespace Sys2Proof.Machine

/-- Overhead layer `l` of frond `f`: 0 SM, 1 PM, 2..7 TCM1..TCM6. -/
def State.layer (s : State) (f l : Nat) : OhLayer := Tab.get (fun _ => {}) (s.frond f).slf.layers l

/-- Writes an overhead layer. -/
def State.setLayer (s : State) (f l : Nat) (x : OhLayer) : State :=
  s.modFrond f fun y => { y with slf := { y.slf with layers := Tab.set (fun _ => {}) y.slf.layers l x } }

/-- The line function of frond `f` runs: released and not stopped (R327). -/
def State.lineRun (s : State) (f : Nat) : Bool := s.flag (R.FRD_ID_LINE_RUN f)

/-- The frond declares defects: its function runs and MUTE = 0 (R199), in F0 and outside a block reset (R456, R487). -/
def State.defectsOn (s : State) (f : Nat) : Bool := s.lineRun f && !s.muted f && s.frondLive f

/-- Bit `i` of FRD_SLF_DEF. -/
def slfDef (f i : Nat) : Fld := ⟨0x100708 + 0x10000 * f, i, 1⟩

/-- aSSF of the OTUCn: dLOS, dLOA, dLOF, or dLOM with MF_EN = 1 (Table SLF-7). -/
def State.aSsf (s : State) (f : Nat) : Bool :=
  s.flag (slfDef f 0) || s.flag (slfDef f 1) || s.flag (slfDef f 2) ||
  (s.flag (slfDef f 3) && s.flag (R.FRD_SLF_CTL_MF_EN f))

/-- Recomputes SSF of FRD_SLF_DEF. -/
def State.updateSsf (s : State) (f : Nat) : State := s.wrB (slfDef f 15) (s.aSsf f)

/-- Declares or clears the defect at bit `i` of FRD_SLF_DEF, with its event; `slot` is the tributary slot of dMSIM. -/
def State.setDefect (s : State) (f i : Nat) (on : Bool) (slot : Nat := 0) : State :=
  if s.flag (slfDef f i) = on then s
  else
    let s := s.wrB (slfDef f i) on
    let s := s.raise (if on then 0x0601 else 0x0602) f [.w i, .w slot]
    s.updateSsf f

/-- dLOS follows RX_POWER_LOW while MUTE = 0 and the function runs (Table SLF-6). -/
def State.updateLos (s : State) (f : Nat) : State :=
  if s.lineRun f && s.frondLive f then s.setDefect f 0 ((s.frond f).rx.low && !s.muted f) else s

/-- MUTE = 1: every defect of the chapter is no longer declared (R199), with the clearing events of Table SLF-6. -/
def State.muteDefects (s : State) (f : Nat) : State :=
  let s := (List.range 15).foldl (fun s i => s.setDefect f i false) s
  (List.range 6).foldl (fun s l =>
    let x := s.layer f (l + 2)
    let codes := [x.dLtc, x.dTim, x.dBdi, x.dDeg, x.dAis || x.dLck || x.dOci]
    let s := (codes.zipIdx.filter (·.1)).foldl (fun s p => s.raise 0x0602 f [.w (16 + 5 * l + p.2), .w 0]) s
    s.setLayer f (l + 2) { x with dLtc := false, dTim := false, dBdi := false, dDeg := false, dAis := false,
                                  dLck := false, dOci := false }) (s.wr (R.FRD_SLF_TCMDEF_TCM f) 0)

/-- A stop of the line function clears the defect states without events and every persistence count (R199). -/
def State.stopDefects (s : State) (f : Nat) : State :=
  let s := s.wr ⟨0x100708 + 0x10000 * f, 0, 16⟩ 0
  let s := s.wr (R.FRD_SLF_TCMDEF_TCM f) 0
  let s := s.wr (R.FRD_SLF_STAT_SLICE_OOF f) 0xffffff
  let s := s.wrB (R.FRD_SLF_STAT_OTUCN_IF f) false
  let s := s.wrB (R.FRD_SLF_STAT_OTUCN_IM f) false
  s.modFrond f fun x => { x with slf := { x.slf with
    slices := [], inFrame := false, tickAllIf := false, oofRun := {}, ifRun := {}, inMf := false, mfCount := 0,
    mfMiss := 0, omRun := {}, imRun := {}, psi := [], dMsim := [], beiSum := [], gccRx := [],
    layers := x.slf.layers.map fun p => (p.1, { p.2 with
      ttiRx := [], ttiPrev := [], ttiSame := 0, ttiGood := true, ttiAcc := none, bdiOn := 0, bdiOff := 0, statRun := 0, statAcc := 1,
      dLtc := false, dTim := false, dBdi := false, dDeg := false, dAis := false, dLck := false, dOci := false,
      blocks := 0, farBlocks := 0, badRun := 0, goodRun := 0 }) } }

/-- Refreshes FRD_SLF_TCMDEF from the TCM levels. -/
def State.updateTcmDef (s : State) (f : Nat) : State :=
  let v := (List.range 6).foldl (fun v l =>
    let x := s.layer f (l + 2)
    let b := fun (c : Bool) (i : Nat) => if c then 2 ^ (5 * l + i) else 0
    v + b x.dLtc 0 + b x.dTim 1 + b x.dBdi 2 + b x.dDeg 3 + b (x.dAis || x.dLck || x.dOci) 4) 0
  s.wr (R.FRD_SLF_TCMDEF_TCM f) v

/-- A TCM defect changed: the event with code 16 + 5(L - 1) + i, and the register. -/
def State.tcmEvent (s : State) (f l i : Nat) (on : Bool) : State :=
  (s.raise (if on then 0x0601 else 0x0602) f [.w (16 + 5 * (l - 2) + i), .w 0]).updateTcmDef f

/-- What the frond sends toward the cross-connect in place of an extracted ODU (Table SLF-7): 0 ODU-AIS, 1 ODU-LCK,
2 ODU-OCI; none: the ODU itself. In F1..F4 it is ODU-OCI (R456). ODU-AIS prevails over ODU-LCK, ODU-LCK over ODU-OCI. -/
def State.frondReplacement (s : State) (f : Nat) : Option Nat :=
  let tcm := (List.range 6).any fun l =>
    let x := s.layer f (l + 2)
    x.mode && (x.dLtc || x.dAis || x.dLck || x.dOci || (x.dTim && s.flag (R.FRD_SLF_CTL_TIMACT_PM f)))
  if s.pState f != 0 then some 2
  else if s.aSsf f || (s.flag (slfDef f 4) && s.flag (R.FRD_SLF_CTL_TIMACT_SM f)) ||
     s.flag (slfDef f 10) || s.flag (slfDef f 11) || s.flag (slfDef f 12) ||
     (s.flag (slfDef f 7) && s.flag (R.FRD_SLF_CTL_TIMACT_PM f)) || tcm || s.flag (slfDef f 13) then some 0
  else if s.muted f then some 1
  else if !s.lineRun f then some 2
  else none

/-- Whether the frond sends SM BDI back to the far end (Table SLF-7). -/
def State.sendSmBdi (s : State) (f : Nat) : Bool :=
  s.aSsf f || (s.flag (slfDef f 4) && s.flag (R.FRD_SLF_CTL_TIMACT_SM f))

/-- Whether the frond sends PM BDI back. -/
def State.sendPmBdi (s : State) (f : Nat) : Bool :=
  s.sendSmBdi f || s.flag (slfDef f 10) || s.flag (slfDef f 11) || s.flag (slfDef f 12) ||
  (s.flag (slfDef f 7) && s.flag (R.FRD_SLF_CTL_TIMACT_PM f))

/-- Whether the frond sends BDI back in TCM level `l` (2..7 for TCM1..TCM6). -/
def State.sendTcmBdi (s : State) (f l : Nat) : Bool :=
  let x := s.layer f l
  x.mode && (x.dLtc || x.dAis || x.dLck || x.dOci || (x.dTim && s.flag (R.FRD_SLF_CTL_TIMACT_PM f)))

/-- Signal degrade passed to the cross-connect: dDEG of SM or PM (Table SLF-7). -/
def State.signalDegrade (s : State) (f : Nat) : Bool := s.flag (slfDef f 6) || s.flag (slfDef f 9)

end Sys2Proof.Machine
end

