-- ==== Sys2Proof/Machine/Req.lean ====
section
/-! DEFINITION. Requests: the context of a part, the ordered checks 5..12 of Table HST-5, the statuses of Table HST-8,
completions (R328, R329), and read-out into host memory (R330). Every descriptor command is checked and applied through
these, with its own checks and its own effect. -/
namespace Sys2Proof.Machine

/-! ### Statuses (Table HST-8) -/
namespace St
def ok : Nat := 0x00
def sequence : Nat := 0x01
def late : Nat := 0x02
def horizon : Nat := 0x03
def pendingFull : Nat := 0x04
def hostRead : Nat := 0x05
def format : Nat := 0x06
def absent : Nat := 0x07
def ownership : Nat := 0x08
def schedule : Nat := 0x09
def slotBusy : Nat := 0x0a
def bankBusy : Nat := 0x0b
def keyUnwrap : Nat := 0x0c
def keyStale : Nat := 0x0d
def queueFull : Nat := 0x0e
def overQuota : Nat := 0x0f
def endpointExhausted : Nat := 0x10
def saExhausted : Nat := 0x11
def granuleExhausted : Nat := 0x12
def tenantExhausted : Nat := 0x13
def addressSpaceFull : Nat := 0x14
def memoryError : Nat := 0x18
def held : Nat := 0x19
end St

/-- The place of one part: who issued it, the tenant it names, ANY, its effective tick, and host memory as the module
reads it in check tick E - 1 (R322). -/
structure Ctx where
  src : ReqSrc
  tenant : Nat
  any : Bool
  eff : Nat
  mem : HostMem
  stops : List (Nat × Nat) := []
  deriving DecidableEq, Repr

/-- One check: its place in Table HST-5, whether it fails, the status and DETAIL it draws. DETAIL has 32 bits; the bits above
them hold what the refusal of a Spore reports (R510): its reject reason plus 16 times its INDEX. -/
structure Ck where
  ord : Nat
  bad : Bool
  status : Nat
  detail : Nat := 0
  deriving DecidableEq, Repr

/-- The status and DETAIL of a refusal. -/
structure Fail where
  status : Nat
  detail : Nat := 0
  deriving DecidableEq, Repr

/-- The first failing check by the order of Table HST-5; checks of one place keep the order they are listed in. -/
def firstFail (l : List Ck) : Option Fail :=
  match (sortBy (fun a b => decide (a.ord ≤ b.ord)) l).find? (fun c => c.bad) with
  | some c => some ⟨c.status, c.detail⟩
  | none => none

/-- What applying a part gives: the state, RESULT, whether its effect on a held block is deferred (HELD), and the failure
when it fails at application (R240), where `s` holds no effect of the part. -/
structure Applied where
  s : State
  result : Nat := 0
  held : Bool := false
  fail : Option Fail := none

/-- Bytes of host memory from `addr`; none when no region holds them all. -/
def readHost (mem : HostMem) (addr len : Nat) : Option (List Byte) :=
  match mem.find? (fun r => decide (r.1 ≤ addr) && decide (addr + len ≤ r.1 + r.2.length)) with
  | some r => some ((r.2.drop (addr - r.1)).take len)
  | none => none

/-- The function that issued a request; a Rhizome message and a record of the image act for T0000 as the PF does. -/
def ReqSrc.fn : ReqSrc → Nat
  | .host fn _ => fn
  | _ => 0

/-- An operand read fails (R322, R337). An address that breaks its alignment is not read (R321). -/
def Ctx.ckRead (c : Ctx) (addr len : Nat) (al : Nat := 64) : Ck :=
  ⟨5, addr % al == 0 && (readHost c.mem addr len).isNone, St.hostRead, 2⟩

/-- A host address that breaks its alignment (R321). -/
def ckAlign (addr n : Nat) : Ck := ⟨6, addr % n != 0, St.format, 0⟩

/-- A format check. -/
def ckFormat (bad : Bool) : Ck := ⟨6, bad, St.format, 0⟩

/-- An absent resource. -/
def ckAbsent (bad : Bool) : Ck := ⟨7, bad, St.absent, 0⟩

/-- A condition of the owning chapter (check 10). -/
def ckCond (bad : Bool) (status : Nat) (detail : Nat := 0) : Ck := ⟨10, bad, status, detail⟩

/-- The first tenant and the size of a function's tenant range (R310): the PF's is T0000..T1023. -/
def State.tenantRange (s : State) (fn : Nat) : Nat × Nat :=
  if fn = 0 then (0, 1024)
  else (s.rd (R.HST_FN_TENANT_BASE fn), s.rd (R.HST_FN_TENANT_COUNT fn))

/-- Tenant `t` lies in the range of function `fn`. -/
def State.inRange (s : State) (fn t : Nat) : Bool :=
  let (b, n) := s.tenantRange fn
  decide (b ≤ t) && decide (t < b + n)

/-- A PF-only opcode names T0000 (R311). -/
def Ctx.ckPf (c : Ctx) : List Ck := [⟨8, c.src.fn != 0, St.ownership, 0⟩, ⟨8, c.tenant != 0, St.ownership, 0⟩]

/-- ANY on an opcode that does not allow it (R320). -/
def Ctx.ckNoAny (c : Ctx) : Ck := ckFormat c.any

/-- The tenant named is active and in the issuing function's range (R311). -/
def Ctx.ckTenant (c : Ctx) (s : State) : List Ck :=
  [⟨7, !(s.tenant c.tenant).active, St.absent, 0⟩, ⟨8, !s.inRange c.src.fn c.tenant, St.ownership, 0⟩]

/-- The tenant named acts on what `owner` owns (R22). -/
def Ctx.ckOwner (c : Ctx) (owner : Nat) : Ck := ⟨8, c.tenant != 0 && c.tenant != owner, St.ownership, 0⟩

/-- The checks of every PF-only opcode. -/
def Ctx.pf (c : Ctx) : List Ck := c.ckNoAny :: c.ckPf

/-- A frond that is not enabled is an absent resource (R4). -/
def State.ckFrond (s : State) (f : Nat) : Ck := ckAbsent (!s.frondEnabled f)

/-! ### Error bits of a function (Table HST-13, RING_ERROR) -/

/-- Sets bits of HST_FN_STAT; a newly set bit raises RING_ERROR and wakes vector 7. -/
def State.fnError (s : State) (fn : Nat) (mask : Nat) : State :=
  let old := bitsGet (s.reg (0x10004 + 0x100 * fn)) 0 16
  let new := old ||| mask
  if new = old then s
  else
    let s := s.setReg (0x10004 + 0x100 * fn) (bitsPut (s.reg (0x10004 + 0x100 * fn)) 0 16 new)
    let s := s.raise 0x0c04 fn [.w new]
    s.modFn fn fun x => { x with
      vectors := Tab.set (fun _ => {}) x.vectors 7 { Tab.get (fun _ => ({} : Vector8)) x.vectors 7 with fresh := true } }

/-! ### Writes to host memory -/

/-- A write to the memory of function `fn`: discarded while its Bus Master Enable is 0 (R337) and while the main supplies go
down (R447). -/
def State.hostWrite (s : State) (fn : Nat) (o : Output) : State :=
  if !s.boot.pwrOk then s
  else if (s.fnState fn).busMaster then s.emit o
  else s.modFn fn fun x => { x with dropped := true }

/-! ### Completions -/

/-- Queues a completion for its ring. -/
def State.complete (s : State) (c : Completion) : State :=
  { s with host := { s.host with done := s.host.done ++ [c] } }

/-- A refused unwrapping counts in UNWRAP_FAIL and raises KEY_UNWRAP_FAIL, to the rings of the SA's tenant and of T0000
(R299, R307). -/
def State.unwrapFail (s : State) (sa reason : Nat) : State :=
  let t := (Tab.get (fun _ => ({} : SaRec)) s.sas sa).tenant
  let s := s.bump R.CRY_EVT_UNWRAP_FAIL 1
  s.raiseEv { code := 0x0a02, obj := sa, tick := s.tick, tenant := t,
              dest := .tenants (if t = 0 then [0] else [t, 0]), vals := [.w reason] }

/-- A rejected Spore is counted and raises UPD_SPORE_REJECT at most once per 160 ticks (R510, R511); `src`: 0 host, 1 and the
frond in bits 13:8 for the GCC. Reason 0: the request failed before its Spore was looked at. -/
def State.sporeReject (s : State) (reason index src : Nat) : State :=
  if reason = 0 then s
  else
    let u := { s.upd with rejects := satAdd 65535 s.upd.rejects 1 }
    if u.rejTick.any fun t => decide (s.tick < t + 160) then { s with upd := u }
    else { s with upd := { u with rejTick := some s.tick } }.raise 0x1402 0 [.w reason, .w index, .w src]

/-- The completion of a request refused with `f` at part `p`; a failed operand read sets OP_READ_ERR (R337). -/
def State.refuse (s : State) (r : Request) (p : Nat) (f : Fail) (atApply : Bool) : State :=
  let s := if f.status = St.hostRead ∧ f.detail = 2 then s.fnError r.src.fn 4 else s
  let s := match (r.parts[p]?).map Part.body with
    | some (.keyLoad sa _) => if f.status = St.keyUnwrap then s.unwrapFail sa f.detail else s
    | some (.updSpore _) => s.sporeReject (f.detail / 2 ^ 32 % 16) (f.detail / 2 ^ 36) 0
    | _ => s
  s.complete {
    src := r.src, dn := r.dn, seq := r.seq, status := f.status, part := p, atApply := atApply,
    detail := f.detail % 2 ^ 32, opcode := (r.parts.head?.map Part.opcode).getD 0, parts := r.parts.length,
    eff := r.eff, doneTick := r.eff }

/-- The completion of an applied request: OK, or HELD when an effect on a held block was deferred (R19). -/
def State.succeed (s : State) (r : Request) (result : Nat) (held : Bool) : State :=
  s.complete {
    src := r.src, dn := r.dn, seq := r.seq, status := if held then St.held else St.ok,
    opcode := (r.parts.head?.map Part.opcode).getD 0, parts := r.parts.length,
    eff := r.eff, doneTick := s.tick, result := result }

/-! ### Read-out (R330) -/

/-- Read-out data not yet written. -/
def State.backlog (s : State) : Nat := (s.host.reads.map fun j => j.data.length).sum

/-- A read that would raise the projected backlog above 16 MiB (R330). The data written so far in this tick counts: the
backlog is taken at the start of check tick E - 1. -/
def State.ckBacklog (s : State) (n : Nat) : Ck :=
  ckCond (decide (16777216 < s.backlog + s.host.readBudgetUsed + n)) St.queueFull

/-- Takes read-out data at step 3: RESULT is DONE_BY, the tick in which its last byte is written at 262,144 bytes a
tick. -/
def State.takeRead (s : State) (c : Ctx) (dn addr : Nat) (data : List Byte) (poison : Bool := false) : Applied :=
  let total := s.backlog + data.length
  let doneBy := s.tick + (total - 1) / 262144
  let ring := match c.src with
    | .host _ r => r
    | _ => 0
  let j : ReadJob := { fn := c.src.fn, ring := ring, seq := dn % 65536, addr := addr, data := data, poison := poison,
                       eff := s.tick, doneBy := doneBy }
  { s := { s with host := { s.host with reads := s.host.reads ++ [j] } }, result := doneBy }

/-! ### A one-part request taken at the current tick -/

/-- The request that a descriptor row of the command table stands for: one part, effective now. -/
def ReqHdr.request (h : ReqHdr) (s : State) (opcode : Nat) (b : ReqBody) : Request :=
  { src := .host h.fn h.ring, dn := h.dn, seq := h.dn % 65536, eff := s.tick,
    parts := [{ tenant := h.tenant, any := h.any, eff := s.tick, opcode := opcode, body := b }] }

/-- The context of that request. -/
def ReqHdr.ctx (h : ReqHdr) (s : State) (mem : HostMem) : Ctx :=
  { src := .host h.fn h.ring, tenant := h.tenant, any := h.any, eff := s.tick, mem := mem }

/-- Checks and applies a one-part request: refused whole with the first failing check, or applied and completed. -/
def runOne (h : ReqHdr) (mem : HostMem) (opcode : Nat) (b : ReqBody) (s : State)
    (chk : Ctx → State → List Ck) (app : Ctx → State → Applied) : State :=
  let c := h.ctx s mem
  let r := h.request s opcode b
  match firstFail (chk c s) with
  | some f => s.refuse r 0 f false
  | none =>
    let a := app c s
    match a.fail with
    | some f => a.s.refuse r 0 f true
    | none => a.s.succeed r a.result a.held

end Sys2Proof.Machine
end

