-- ==== Sys2Proof/Machine/RxFront.lean ====
section
/-! DEFINITION. The receive front end (chapter 3): input power events, MUTE, stuck sub-converters, the front filter
banks, the arithmetic of the filter chain. -/
namespace Sys2Proof.Machine

/-! ### Input power (R58, Table RFE-1). A command brings one tick's average; the condition must hold for 16 ticks. -/

/-- RX_POWER_LOW: raised below -20.0 dBm, cleared at or above -19.0 dBm, each for 16 consecutive ticks; frozen while
MUTE = 1. dLOS follows (R199). -/
def execRxPowerLow (f : Fin 48) (power : Int) (s : State) : Host.Outcome State Fault Refusal := .next <|
  if !s.frondEnabled f.val || s.muted f.val then s
  else
    let x := s.frond f.val
    let lo := x.rx.lowRun.step s.tick (decide (power < -2000))
    let hi := x.rx.lowClr.step s.tick (decide (-1900 ≤ power))
    let s := s.setFrond f.val { x with rx := { x.rx with linePower := power, lowRun := lo, lowClr := hi } }
    if !x.rx.low && decide (16 ≤ lo.n) then
      let s := s.modFrond f.val fun y => { y with rx := { y.rx with low := true } }
      ((s.raise 0x0101 f.val).updateLos f.val)
    else if x.rx.low && decide (16 ≤ hi.n) then
      let s := s.modFrond f.val fun y => { y with rx := { y.rx with low := false } }
      ((s.raise 0x0181 f.val).updateLos f.val)
    else s

/-- RX_POWER_HIGH: raised above +4.0 dBm, cleared at or below +3.5 dBm, each for 16 consecutive ticks; frozen while
MUTE = 1. -/
def execRxPowerHigh (f : Fin 48) (power : Int) (s : State) : Host.Outcome State Fault Refusal := .next <|
  if !s.frondEnabled f.val || s.muted f.val then s
  else
    let x := s.frond f.val
    let hi := x.rx.highRun.step s.tick (decide (400 < power))
    let lo := x.rx.highClr.step s.tick (decide (power ≤ 350))
    let s := s.setFrond f.val { x with rx := { x.rx with linePower := power, highRun := hi, highClr := lo } }
    if !x.rx.high && decide (16 ≤ hi.n) then
      ((s.modFrond f.val fun y => { y with rx := { y.rx with high := true } }).raise 0x0102 f.val)
    else if x.rx.high && decide (16 ≤ lo.n) then
      ((s.modFrond f.val fun y => { y with rx := { y.rx with high := false } }).raise 0x0182 f.val)
    else s

/-- LO_LOW: laser input below +13.0 dBm, cleared at or above +13.5 dBm, each for 16 consecutive ticks. -/
def execLoLow (f : Fin 48) (power : Int) (s : State) : Host.Outcome State Fault Refusal := .next <|
  if !s.frondEnabled f.val then s
  else
    let x := s.frond f.val
    let lo := x.rx.loRun.step s.tick (decide (power < 1300))
    let hi := x.rx.loClr.step s.tick (decide (1350 ≤ power))
    let s := s.setFrond f.val { x with rx := { x.rx with laserPower := power, loRun := lo, loClr := hi } }
    if !x.rx.loLow && decide (16 ≤ lo.n) then
      ((s.modFrond f.val fun y => { y with rx := { y.rx with loLow := true } }).raise 0x0103 f.val)
    else if x.rx.loLow && decide (16 ≤ hi.n) then
      ((s.modFrond f.val fun y => { y with rx := { y.rx with loLow := false } }).raise 0x0183 f.val)
    else s

/-- MUTE_SWITCH_DONE: the optical switch has reached the position that MUTE asks for, at most 100 us after the boundary
at which the write took effect (R57). -/
def execMuteSwitchDone (f : Fin 48) (s : State) : Host.Outcome State Fault Refusal := .next <|
  if s.frondEnabled f.val then
    (s.modFrond f.val fun x => { x with rx := { x.rx with dark := s.muted f.val } })
  else s

/-! ### Stuck sub-converters (R62) -/

/-- The address of a SUBCONV_STUCK message: frond in bits 13:8, ADC in 7:6, sub-converter in 6:0 of the second word. -/
def subconvAddr (f adc k : Nat) : Nat := f * 2 ^ 8 + adc * 2 ^ 6 + k % 128 * 2 ^ 32

/-- The bit of FRD_RX_SATFLG of an ADC (Table RFE-8). -/
def satFlgAdc (f adc : Nat) : Fld := ⟨0x100124 + 0x10000 * f, adc, 1⟩

/-- SUBCONV_STUCK: one tick in which sub-converter `k` gave one code for all its samples (`same`) and every other one of
its ADC gave at least two (`others`). The 16th in a row makes it stuck and sends the message. -/
def execSubconvStuck (f : Fin 48) (adc : Fin 4) (k : Fin 128) (same others : Bool) (s : State) :
    Host.Outcome State Fault Refusal := .next <|
  if !s.frondEnabled f.val then s
  else
    let key := adc.val * 128 + k.val
    let x := s.frond f.val
    let r := (Tab.get (fun _ => {}) x.rx.stuckRun key).step s.tick (same && others)
    let s := s.setFrond f.val { x with rx := { x.rx with stuckRun := Tab.set (fun _ => {}) x.rx.stuckRun key r } }
    if decide (16 ≤ r.n) && !x.rx.stuck.contains (adc.val, k.val) then
      let s := s.modFrond f.val fun y => { y with rx := { y.rx with stuck := y.rx.stuck ++ [(adc.val, k.val)] } }
      let s := s.wr (satFlgAdc f.val adc.val) 1
      (s.sendFault ⟨0x100 + f.val, 0x02, 3, false, subconvAddr f.val adc.val k.val, s.tick⟩)
    else s

/-- SUBCONV_RECOVERED: one tick in which the sub-converter gave at least two codes; the 16th in a row ends the
replacement and sends the clearing message. -/
def execSubconvRecovered (f : Fin 48) (adc : Fin 4) (k : Fin 128) (distinct : Bool) (s : State) :
    Host.Outcome State Fault Refusal := .next <|
  if !s.frondEnabled f.val then s
  else
    let key := adc.val * 128 + k.val
    let x := s.frond f.val
    let r := (Tab.get (fun _ => {}) x.rx.freeRun key).step s.tick distinct
    let s := s.setFrond f.val { x with rx := { x.rx with freeRun := Tab.set (fun _ => {}) x.rx.freeRun key r } }
    if decide (16 ≤ r.n) && x.rx.stuck.contains (adc.val, k.val) then
      let s := s.modFrond f.val fun y => { y with rx := { y.rx with
        stuck := y.rx.stuck.filter (fun p => !decide (p = (adc.val, k.val)))
        stuckRun := Tab.set (fun _ => {}) y.rx.stuckRun key {} } }
      (s.sendFault ⟨0x100 + f.val, 0x02, 3, true, subconvAddr f.val adc.val k.val, s.tick⟩)
    else s

/-- Whether the stuck sub-converters of one ADC are marked instead of replaced: two adjacent ones, or more than 4. -/
def adcMarksStuck (stuck : List (Nat × Nat)) (adc : Nat) : Bool :=
  let ks := (stuck.filter fun p => p.1 == adc).map Prod.snd
  decide (4 < ks.length) || ks.any fun k => ks.contains ((k + 1) % 128)

/-- The corrected sample that replaces one of a stuck sub-converter: the mean of its two neighbours in time, rounded
under R64, with the marks of both. -/
def replaceSample (a b : Int × Bool) : Int × Bool :=
  let (q, m) := requantise (a.1 + b.1) 1
  (q, m || a.2 || b.2)

/-! ### The filter chain (R60..R75) -/

/-- A saturated ADC code (R60). -/
def saturatedCode (c : Int) : Bool := c == -128 || c == 127

/-- Phase delay applied (R65): the sum of the calibrated and the host delay, at most 16,383 units, and CLAMPED. -/
def appliedDelay (cal user : Nat) : Nat × Bool := (min 16383 (cal + user), decide (16383 < cal + user))

/-- One output of a 64-tap FIR (R67): Q1.10 complex taps, convergent rounding with shift 10 in each component. -/
def firOutput (taps samples : List (Int × Int)) : (Int × Bool) × (Int × Bool) :=
  let ps := taps.zip samples
  let re := (ps.map fun p => p.1.1 * p.2.1 - p.1.2 * p.2.2).sum
  let im := (ps.map fun p => p.1.1 * p.2.2 + p.1.2 * p.2.1).sum
  (requantise re 10, requantise im 10)

/-- A coefficient word as its real and imaginary parts (R67). -/
def tapOf (w : Word) : Int × Int := (toSigned 12 (bitsGet w 0 12), toSigned 12 (bitsGet w 16 12))

/-- The inputs of a stage that mark its output at position `n`: offsets of the marking windows of Table RFE-2, the FIR's
by its main tap. -/
def firMarkWindow (mainTap n : Nat) : List Int :=
  (List.range 16).map fun (i : Nat) => (n : Int) - ((mainTap : Int) - 8 + (i : Int))

/-- The derotator word (R72): the nearer limit outside -51,130,563..51,130,563, which is 4.000 GHz. -/
def derotatorWord (w : Int) : Int := clampInt (-51130563) 51130563 w

/-- The channel centre of SCk in units of 10 MHz (R73): (k - 15.5) x 10.5 GHz. -/
def channelCentre (k : Nat) : Int := (2 * (k : Int) - 31) * 525

/-- An output sample is marked when its own requantisation clamps or an input of its marking window is marked (R63). -/
def stageMark (clamped : Bool) (windowMarks : List Bool) : Bool := clamped || windowMarks.any id

/-! ### Front filter banks (R67..R70) -/

/-- The 32-bit words of a byte string, little-endian. -/
def wordsOf (n : Nat) (l : List Byte) : List Word :=
  (List.range n).map fun i => BitVec.ofNat 32 (fieldAt l (4 * i) 4)

/-- The reserved bits of a bank image are 0 (Table RFE-4). -/
def bankReservedOk (ws : List Word) : Bool :=
  let w0 := ws.getD 0 0
  bitsGet w0 14 2 == 0 && bitsGet w0 6 2 == 0 &&
  ((List.range 128).all fun i => let w := ws.getD (1 + i) 0; bitsGet w 12 4 == 0 && bitsGet w 28 4 == 0)

/-- A bank image of 520 bytes with a matching CRC-32C over its first 516. -/
def bankImageOk (img : List Byte) : Bool :=
  img.length == 520 && crc32c (img.take 516) == fieldAt img 516 4 && bankReservedOk (wordsOf 130 img)

/-- The bank that an image gives. -/
def bankOf (img : List Byte) : FirBank :=
  let ws := wordsOf 130 img
  { id := bitsGet (ws.getD 0 0) 16 16, mainX := bitsGet (ws.getD 0 0) 0 6, mainY := bitsGet (ws.getD 0 0) 8 6,
    taps := (ws.drop 1).take 128 }

/-- The checks of FILTER_LOAD (R69). -/
def chkFilterLoad (f addr swap : Nat) (c : Ctx) (s : State) : List Ck :=
  c.pf ++ [c.ckRead addr 520 4, ckAlign addr 4, s.ckFrond f,
    ckFormat (match readHost c.mem addr 520 with
      | some img => !bankImageOk img
      | none => false),
    ⟨9, !(decide (c.eff + 3 ≤ swap) && decide (swap ≤ c.eff + 160000)), St.schedule, 0⟩,
    ckCond ((s.frond f).rx.swapAt.isSome) St.bankBusy]

/-- FILTER_LOAD applied: the image becomes the inactive bank and a swap is scheduled for `swap` (R69). -/
def appFilterLoad (f addr swap : Nat) (c : Ctx) (s : State) : Applied :=
  match readHost c.mem addr 520 with
  | none => { s := s }
  | some img =>
    let act := s.rd (R.FRD_RX_FIRSTAT_ACTIVE f)
    let s := s.modFrond f fun x => { x with rx :=
      if act = 0 then { x.rx with bank1 := bankOf img, swapAt := some swap }
      else { x.rx with bank0 := bankOf img, swapAt := some swap } }
    { s := s.wrB (R.FRD_RX_FIRSTAT_PENDING f) true }

/-- FILTER_LOAD as a request of its own. -/
def execFilterLoad (h : ReqHdr) (mem : HostMem) (f addr swap : Nat) (s : State) : Host.Outcome State Fault Refusal := .next <|
  (runOne h mem 0x12 (.filterLoad f addr swap) s (chkFilterLoad f addr swap) (appFilterLoad f addr swap))

/-- The swap of the front filter banks (R70): the inactive bank becomes active, PENDING clears. -/
def State.firSwap (s : State) (f : Nat) : State :=
  match (s.frond f).rx.swapAt with
  | none => s
  | some t =>
    if t ≤ s.tick then
      let act := 1 - s.rd (R.FRD_RX_FIRSTAT_ACTIVE f)
      let bank := if act = 0 then (s.frond f).rx.bank0 else (s.frond f).rx.bank1
      let s := s.modFrond f fun x => { x with rx := { x.rx with swapAt := none } }
      let s := s.wr (R.FRD_RX_FIRSTAT_ACTIVE f) act
      let s := s.wr (R.FRD_RX_FIRSTAT_ACTIVE_ID f) bank.id
      s.wrB (R.FRD_RX_FIRSTAT_PENDING f) false
    else s

/-- FIR_BANK_SWAP: the scheduled swap of frond `f`, once its tick has come. -/
def execFirBankSwap (f : Fin 48) (s : State) : Host.Outcome State Fault Refusal := .next (s.firSwap f.val)

/-- The phase delays of frond `f`, after a change of the host's or the calibrated part: CLAMPED (R65). -/
def State.delayClamp (s : State) (f q : Nat) : State :=
  s.wrB (R.FRD_RX_PHD_CLAMPED f q)
    (appliedDelay (s.rd (R.FRD_RX_PHD_CAL_DELAY f q)) (s.rd (R.FRD_RX_PHD_USER_DELAY f q))).2

end Sys2Proof.Machine
end

