-- ==== Sys2Proof/Machine/Acq.lean ====
section
/-! DEFINITION. Acquisition, gain control and transients (chapter 4), and the receive side of a superframe's arrival:
stamps and slips (R36, R37), look-ahead fits (R103, R104), convergence (R119), carrier updates (R116), receive tables
(R145). -/
namespace Sys2Proof.Machine

/-! ### Gain (R86..R88) -/

/-- 20 log10(n) in 0.01 dB for n = 16..48. -/
def dbOfSteps : List Nat :=
  [2408, 2461, 2511, 2558, 2602, 2644, 2685, 2723, 2760, 2796, 2830, 2863, 2894, 2925, 2954, 2983, 3010, 3037, 3063,
   3088, 3113, 3136, 3160, 3182, 3204, 3226, 3246, 3267, 3287, 3306, 3326, 3344, 3362]

/-- The target RMS in 0.01 dB re one code step: AGC_TGT applied in 16..48 (Table ACQ-9). -/
def State.agcTarget (s : State) (f : Nat) : Int :=
  let t := s.rd (R.FRD_ACQ_CTL_AGC_TGT f)
  (dbOfSteps.getD (min 48 (max 16 t) - 16) 0 : Nat)

/-- DET_TH as applied: 0..3 as 4. -/
def State.detTh (s : State) (f : Nat) : Nat := max 4 (s.rd (R.FRD_ACQ_CTL_DET_TH f))

/-- The step of one window of the fast gain loop (R86). `rms`: the RMS of each ADC in 0.01 dB re one code step. -/
def gainStep (target : Int) (rms : List Int) (saturated total : Nat) : Int :=
  let m := rms.foldl max (rms.headD 0)
  let err := target - m
  if total < 100 * saturated then -4
  else if 150 < err ∨ err < -150 then clampInt (-4) 4 (roundDiv err 75)
  else 0

/-- FAST_GAIN_STEP: one window of 64 DSP cycles in COLD or WARM moves the four gain codes together. -/
def execFastGainStep (f : Fin 48) (rms : List Int) (saturated total : Nat) (s : State) :
    Host.Outcome State Fault Refusal := .next <|
  if s.acqState f.val = 1 ∨ s.acqState f.val = 2 then
    let st := gainStep (s.agcTarget f.val) rms saturated total
    s.modFrond f.val fun x => { x with rx := { x.rx with gain := (clampInt 0 31 ((x.rx.gain : Int) + st)).toNat } }
  else s

/-- GAIN_TRIM: the largest per-tick RMS of one arrival-stamp tick in ACQUIRED (R88). After 160 such ticks outside the
target by more than 3 dB, none flooded, a step of one code waits for the next predicted Fiddlehead; at a limit
GAIN_LIMIT is raised. -/
def execGainTrim (f : Fin 48) (rms : Int) (flooded : Bool) (s : State) : Host.Outcome State Fault Refusal := .next <|
  if s.acqState f.val = 5 && s.flag (R.FRD_ACQ_CTL_TRIM_EN f.val) then
    let err := s.agcTarget f.val - rms
    let out := decide (300 < err) || decide (err < -300)
    let x := s.frond f.val
    let r := x.acq.trimRun.step s.tick (out && !flooded)
    let dir : Int := if 0 < err then 1 else -1
    if 160 ≤ r.n then
      let s := s.modFrond f.val fun y => { y with acq := { y.acq with trimRun := {} } }
      if (0 < dir ∧ x.rx.gain = 31) ∨ (dir < 0 ∧ x.rx.gain = 0) then s.raise 0x0207 f.val [.w x.rx.gain]
      else s.modFrond f.val fun y => { y with acq := { y.acq with trimStep := dir, trimTick := s.tick } }
    else s.modFrond f.val fun y => { y with acq := { y.acq with
      trimRun := r, trimStep := if flooded then 0 else y.acq.trimStep } }
  else s

/-- A waiting trim takes effect at the first sample of a predicted Fiddlehead. -/
def State.applyTrim (s : State) (f : Nat) : State :=
  s.modFrond f fun x => { x with
    rx := { x.rx with gain := (clampInt 0 31 ((x.rx.gain : Int) + x.acq.trimStep)).toNat }
    acq := { x.acq with trimStep := 0 } }

/-! ### Detection (R81..R83) -/

/-- A detection (R82): at least 42 consecutive values of M(n), given in 1/1,024, at or above DET_TH/16. -/
def detection (th : Nat) (metric : List Nat) : Bool :=
  let run := metric.foldl (fun (st : Nat × Nat) m =>
    let n := if th * 64 ≤ m then st.1 + 1 else 0
    (n, max st.2 n)) (0, 0)
  decide (42 ≤ run.2)

/-- The coarse symbol timing: the plateau end plus 126 samples (R82). -/
def coarseTiming (plateauEnd : Nat) : Nat := plateauEnd + 126

/-- A Fiddlehead is verified (R83): normalised peak at least 0.25, within 2 symbols, at most 64 symbols marked. -/
def fiddleheadVerified (peak : Nat) (fine : Int) (marks : Nat) : Bool :=
  decide (256 ≤ peak) && decide (-128 ≤ fine) && decide (fine ≤ 128) && decide (marks ≤ 64)

/-- FIDDLEHEAD_DETECTION: the detector's metric over a span, the coarse frequency offset in derotator units, the fine
timing against the prediction in 1/64 symbol, whether the predicted Fiddlehead verified, and the word of the band-edge
estimator once its estimate is complete. In COLD (after pre-convergence, R106) and WARM a detection freezes the gain and
enters TRAIN; in ACQUIRED a displaced one loses acquisition (R90). -/
def execFiddleheadDetection (f : Fin 48) (metric : List Nat) (plateauEnd : Nat) (freq fine : Int) (predicted : Bool)
    (edge : Option Int) (s : State) : Host.Outcome State Fault Refusal := .next <|
  let x := s.frond f.val
  let st := s.acqState f.val
  if !detection (s.detTh f.val) metric then s
  else if st = 5 then
    if (512 < fine ∨ fine < -512) ∧ predicted = false then s.loseAcq f.val 3 else s
  else
    match edge with
    | none => s
    | some w =>
      if st = 1 ∧ (x.eq.searching ∨ x.eq.preconv) then s
      else if st = 1 ∨ st = 2 then
        let base := if st = 2 then clampInt (x.rx.rot - 25565281) (x.rx.rot + 25565281) w else w
        let s := s.modFrond f.val fun y => { y with
          rx := { y.rx with rot := derotatorWord (derotatorWord base + freq) }
          acq := { y.acq with coarse := coarseTiming plateauEnd, phase := fine } }
        s.setAcq f.val 3
      else s

/-! ### Timers of COLD and WARM -/

/-- WARM to COLD (Table ACQ-4). -/
def State.warmToCold (s : State) (f : Nat) : State := (s.raise 0x0204 f).enterCold f

/-- WARM_EN = 0 leaves no frond in WARM. -/
def State.warmCheck (s : State) (f : Nat) : State :=
  if s.acqState f = 2 ∧ ¬ s.flag (R.FRD_ACQ_CTL_WARM_EN f) then s.warmToCold f else s

/-- WARM_FALLBACK: one superframe period in WARM without a detection; the 16th with the line input above -20.0 dBm ends
WARM. A dark input waits. -/
def execWarmFallback (f : Fin 48) (power : Int) (s : State) : Host.Outcome State Fault Refusal := .next <|
  if s.acqState f.val = 2 then
    let n := (s.frond f.val).acq.periods + (if -2000 < power then 1 else 0)
    let s := s.modFrond f.val fun x => { x with acq := { x.acq with periods := n } }
    if 16 ≤ n then s.warmToCold f.val else s.warmCheck f.val
  else s

/-- ACQ_TIMEOUT: 32,000 ticks in COLD without reaching ACQUIRED; COLD restarts without the kept state (R123). -/
def execAcqTimeout (f : Fin 48) (s : State) : Host.Outcome State Fault Refusal := .next <|
  if s.acqState f.val = 1 && decide ((s.frond f.val).acq.coldTick + 32000 ≤ s.tick) then
    ((s.dropRetained f.val).raise 0x0203 f.val).enterCold f.val
  else s

/-- ACQ_RESTART: a write of 1 to RESTART takes effect. -/
def execAcqRestart (f : Fin 48) (s : State) : Host.Outcome State Fault Refusal := .next <|
  if s.frondEnabled f.val then s.restartAcq f.val else s

/-- FLOODED_TICK: the end of an arrival-stamp tick with the body symbols `marks` of `total` marked (R93, R95), each as
sub-carrier times 65,536 plus body symbol, ascending. The third flooded tick in a row loses acquisition. An empty tick
of an arrival slip has no such event. -/
def execFloodedTick (f : Fin 48) (marks : List Nat) (total : Nat) (s : State) : Host.Outcome State Fault Refusal := .next <|
  let s := s.pcList f.val 0x11 marks
  let marked := marks.length
  if s.acqState f.val = 5 then
    if total < 16 * marked then
      let n := (s.frond f.val).acq.floodRun + 1
      let s := s.modFrond f.val fun x => { x with
        acq := { x.acq with floodRun := n, floodTick := s.tick, trimStep := 0, trimRun := {} }
        eq := { x.eq with windowBad := true } }
      let s := s.wr (R.FRD_ACQ_STAT_FLOOD_RUN f.val) (min 3 n)
      let (v, s) := s.wholeUnits (1024 * marked) total
      let s := s.pcMany f.val 0x13 1 v
      let s := if n = 1 then s.raise 0x0205 f.val [.w v] else s
      if 3 ≤ n then s.loseAcq f.val 1 else s
    else
      (s.modFrond f.val fun x => { x with acq := { x.acq with floodRun := 0 } }).wr (R.FRD_ACQ_STAT_FLOOD_RUN f.val) 0
  else s

/-! ### Look-ahead fits (R102..R105) -/

/-- The lit sub-carriers of the receive side: those of the last header, or of the plan set before the first (R81). -/
def State.rxLit (s : State) (f : Nat) : List Nat :=
  if (s.frond f).ld.rxKnown then (List.range 32).filter fun k => (s.frond f).ld.rxCodes.getD k 0 != 0
  else (List.range 32).filter (inPlan (s.rd (R.FRD_SC_PLAN_COUNT f)))

/-- A fit is accepted: plateaus on at least half of the lit sub-carriers and at least 4, and no departure above 4 samples
(R103). -/
def fitAccepted (lit : Nat) (o : FitObs) : Bool :=
  decide (4 ≤ o.plateaus) && decide (lit ≤ 2 * o.plateaus) && decide (o.departure ≤ 256)

/-- One superframe's look-ahead measurement (R103..R105). -/
def State.cdFit (s : State) (f : Nat) (o : Option FitObs) : State :=
  let good := o.filter (fitAccepted (s.rxLit f).length)
  match good with
  | none => s.modFrond f fun x => { x with eq := { x.eq with fitRun := 0 } }
  | some o =>
    let s := (s.wrS (R.FRD_EQ_CD_EST_EST f) o.dEst).wrB (R.FRD_EQ_CD_EST_VALID f) true
    let s := s.modFrond f fun x => { x with eq := { x.eq with lastFit := o.dEst, fitRun := x.eq.fitRun + 1 } }
    if s.cdMode f = 2 then s
    else
      let moved := decide (256 < o.move)
      let s := if moved then s.estimateD f o.dEst else s
      let x := (s.frond f).eq
      if s.acqState f = 1 && x.searching && decide (16 ≤ x.fitRun) then
        let s := if moved then s else s.estimateD f o.dEst
        s.modFrond f fun y => { y with eq := { y.eq with
          searching := false, cands := [], preconv := true, preTick := s.tick } }
      else s

/-! ### Settings that wait for a received superframe (R110, R112, R113) -/

/-- The tap count of NTAPS. -/
def tapCount (code : Nat) : Nat := if code = 0 then 7 else if code = 1 then 11 else 15

/-- At the first sample of a received superframe the tap count of NTAPS is in force, and a tracking mode that waits: the
host's before AUTO's (R113). A change in AUTO raises TRACK_CHANGE. -/
def State.trackStep (s : State) (f : Nat) : State :=
  let x := (s.frond f).eq
  let old := s.rd (R.FRD_EQ_STAT_TRACK_ACT f)
  let s := s.modFrond f fun y => { y with eq := { y.eq with
    trackNext := none, trackHost := none, ntaps := tapCount (s.rd (R.FRD_EQ_CTL_NTAPS f)) } }
  match x.trackHost, x.trackNext with
  | some 3, _ => s.modFrond f fun y => { y with eq := { y.eq with slowRun := {} } }
  | some m, _ => s.wr (R.FRD_EQ_STAT_TRACK_ACT f) m
  | none, some m =>
    if m = old then s
    else ((s.wr (R.FRD_EQ_STAT_TRACK_ACT f) m).modFrond f fun y => { y with eq := { y.eq with slowRun := {} } }).raise
      0x0303 f [.w m]
  | none, none => s

/-! ### Receive tables (R139, R145) -/

/-- The received header fits the local plan: N and COUNT agree (R180), its table sums to Q(n) and
lights no sub-carrier outside the plan set (R145). -/
def State.headerPlanOk (s : State) (f : Nat) (h : HeaderWord) : Bool :=
  h.n == s.rd (R.FRD_SC_PLAN_N f) && h.count == s.rd (R.FRD_SC_PLAN_COUNT f) && h.hlb.curCodes.sum == s.rd (R.FRD_LD_SUM_Q f) &&
  (List.range 32).all fun k => inPlan (s.rd (R.FRD_SC_PLAN_COUNT f)) k || h.hlb.curCodes.getD k 0 == 0

/-- LOAD_PLAN_MISMATCH, once per 160 ticks. -/
def State.planMismatch (s : State) (f : Nat) (h : HeaderWord) : State :=
  if (s.frond f).ld.planTick.any fun t => decide (s.tick < t + 160) then s
  else
    let s := s.modFrond f fun x => { x with ld := { x.ld with planTick := some s.tick } }
    s.raise 0x0409 f [.w h.hlb.curCodes.sum, .w (litCount h.hlb.curCodes)]

/-- Sub-carriers lit by going from one table to another. -/
def newlyLit (old new : List Nat) : List Nat :=
  (List.range 32).filter fun k => old.getD k 0 == 0 && new.getD k 0 != 0

/-- The receive table changes at this superframe (R145): `learned` only from its own header, so newly lit sub-carriers
stay at LLR 0 for the following body as well (R139). -/
def State.rxSwap (s : State) (f tid : Nat) (codes : List Nat) (learned : Bool) : State :=
  let fresh := newlyLit (s.frond f).ld.rxCodes codes
  let s := s.modFrond f fun x => { x with ld := { x.ld with
    rxCodes := codes, rxKnown := true, zeroNext := if learned then fresh else [] } }
  let s := (s.wr (R.FRD_LD_STAT_RX_TID f) tid).bump (R.FRD_LD_CNT_RX_SWAPS f) 1
  let s := s.pcMany f 0x17 1 (16 + tid % 16)
  s.raise 0x0406 f [.w tid]

/-- The receive table of a superframe in ACQUIRED, from its header or inferred (R145). Answers the state and the
sub-carriers of this body whose LLRs are 0 (R139). -/
def State.rxTable (s : State) (f stamp : Nat) (hdr : Option HeaderWord) : State × List Nat :=
  let x := (s.frond f).ld
  let carry := x.zeroNext
  let s := s.modFrond f fun y => { y with ld := { y.ld with zeroNext := [] } }
  match hdr with
  | some h =>
    let tid := h.hlb.curTid
    let old := x.rxCodes
    let predicted := x.notice.filter fun n => n.swapStamp == stamp && n.tid == tid
    let (s, zero) :=
      if x.rxKnown ∧ tid ≠ s.rd (R.FRD_LD_STAT_RX_TID f) then
        let s := if predicted.any fun n => n.codes != [] && n.codes != h.hlb.curCodes then s.raise 0x0407 f [.w tid] else s
        (s.rxSwap f tid h.hlb.curCodes predicted.isNone, carry ++ newlyLit old h.hlb.curCodes)
      else
        ((s.modFrond f fun y => { y with ld := { y.ld with rxCodes := h.hlb.curCodes, rxKnown := true } }).wr
          (R.FRD_LD_STAT_RX_TID f) tid, carry)
    let note : Option RxNotice :=
      if h.hlb.nxtValid then
        let known := (x.notice.filter fun n => n.tid == h.hlb.nxtTid).map RxNotice.codes
        some { tid := h.hlb.nxtTid, codes := known.getD [], swapStamp := stamp + h.hlb.nxtIn }
      else none
    (s.modFrond f fun y => { y with ld := { y.ld with notice := note } }, zero)
  | none =>
    let predicted := x.notice.filter fun n => n.swapStamp == stamp && n.codes != []
    let (s, zero) := match predicted with
      | some n => (s.rxSwap f n.tid n.codes false, carry ++ newlyLit x.rxCodes n.codes)
      | none => (s, carry)
    let y := (s.frond f).ld
    let (s, t, n) := s.rateEvent 0x0408 f 160 y.inferTick y.inferred 1
    (s.modFrond f fun y => { y with ld := { y.ld with inferTick := t, inferred := n } }, zero)

/-! ### Arrival (R36, R37, R83, R85, R89, R90, R116, R117, R119) -/

/-- The stamp of the next superframe from its filtered position, and the kind of an arrival slip (R36, R37): 0 an empty
tick, 1 a tick with two. -/
def stampOf (last : Nat) (pos : Int) : Nat × Option Nat :=
  if 9840 ≤ pos then (last + 2, some 0)
  else if pos ≤ -240 then (last, some 1)
  else (last + 1, none)

/-- The equaliser is converged (R119): mean pilot SNR at least 1.5 dB, every singularity measure at least 0.25. -/
def converged (snr : Int) (singular : Nat) : Bool := decide (24 ≤ snr) && decide (256 ≤ singular)

/-- A verified Fiddlehead between 1/16 and 2 symbols off steps the timing phase (R85). -/
def State.timingStep (s : State) (f : Nat) (verified : Bool) (fine : Int) : State :=
  if verified ∧ (4 ≤ fine ∨ fine ≤ -4) then
    (s.modFrond f fun x => { x with acq := { x.acq with phase := x.acq.phase + fine } }).raise 0x0206 f [EVal.s fine]
  else s

/-- The residual frequency of a body updates the derotator word (R116), and phase slips are counted (R117). -/
def State.carrierUpdate (s : State) (f : Nat) (o : ArrivalObs) : State :=
  let s := (s.bump (R.FRD_EQ_SLIP_SLIPS f) o.slips.length).pcList f 0x12 o.slips
  if o.flooded ∨ o.pilots < 2 * o.pilotsMarked then s
  else
    let (d, s) := s.nearestOpen o.eps 4
    s.modFrond f fun x => { x with rx := { x.rx with rot := derotatorWord (x.rx.rot + d) } }

/-- Hands a superframe's body to decoding; outside F0 none is decoded (Table PWR-3). -/
def State.deliver (s : State) (f stamp : Nat) (hdr : Option HeaderWord) (zero : List Nat) (first : Bool := false) :
    State :=
  s.modFrond f fun x => { x with
    acq := { x.acq with lastStamp := stamp }
    fec := if s.frondLive f then { x.fec with arrived := x.fec.arrived ++
      [{ stamp := stamp, sf := hdr.map HeaderWord.sfCount, zeroed := zero, codes := x.ld.rxCodes, first := first }] }
      else x.fec
    pm := if s.frondLive f then { x.pm with secAny := true } else x.pm }

/-- The arrival of a superframe in ACQUIRED. -/
def State.arriveAcquired (s : State) (f : Nat) (o : ArrivalObs) (hdr : Option HeaderWord) (verified : Bool) : State :=
  let s := s.applyTrim f
  let n := if verified then 0 else (s.frond f).acq.unverified + 1
  let s := s.modFrond f fun x => { x with acq := { x.acq with unverified := n } }
  let s := s.timingStep f verified o.fine
  if 2 ≤ n then s.loseAcq f 2
  else
    let (stamp, slip) := stampOf (s.frond f).acq.lastStamp o.pos
    let s := match slip with
      | some k =>
        let s := ((s.pmSlip f).pcMany f 0x03 1 k).raise 0x0b06 f [.w k]
        s.modFrond f fun x => { x with eq := { x.eq with windowBad := true } }
      | none => s
    let (s, zero) := s.rxTable f stamp hdr
    (s.carrierUpdate f o).deliver f stamp hdr zero

/-- SUPERFRAME_ARRIVAL: a received superframe leaves carrier recovery. -/
def execSuperframeArrival (f : Fin 48) (o : ArrivalObs) (s : State) : Host.Outcome State Fault Refusal := .next <|
  let st := s.acqState f.val
  if st = 0 then s
  else
    let s := (s.trackStep f.val).cdFit f.val o.fit
    let verified := fiddleheadVerified o.peak o.fine o.marks
    let raw := HeaderWord.ofWord o.header
    let fits := raw.any (s.headerPlanOk f.val)
    let s := match raw with
      | some h => if (st = 4 ∨ st = 5) ∧ ¬ fits then s.planMismatch f.val h else s
      | none => s
    let hdr := raw.filter (s.headerPlanOk f.val)
    if st = 3 then
      let s := s.carrierUpdate f.val o
      if converged o.snr o.singular then s.setAcq f.val 4 else (s.enterWarm f.val).warmCheck f.val
    else if st = 4 then
      if verified && hdr.isSome then
        let s := s.timingStep f.val verified o.fine
        let s := s.enterAcquired f.val o.instant
        let lag := (s.frond f.val).acq.lag
        let stamp := s.tick + (o.instant + lag) / 9600
        let (s, zero) := s.rxTable f.val stamp hdr
        (s.carrierUpdate f.val o).deliver f.val stamp hdr zero true
      else (s.enterWarm f.val).warmCheck f.val
    else if st = 5 then s.arriveAcquired f.val o hdr verified
    else s

end Sys2Proof.Machine
end

