-- ==== Sys2Proof/Machine/Equaliser.lean ====
section
/-! DEFINITION. The equaliser (chapter 5): the dispersion search, tracking and the host's ramp, polarisation tracking,
carrier offset, SNR per sub-carrier, the generation stamp. -/
namespace Sys2Proof.Machine

/-! ### Dispersion -/

/-- CD_SEARCH_CANDIDATE_END: the candidate in trial has had its 1,600 ticks; the next one, or the first again, is applied
(R105). -/
def execCdSearchCandidateEnd (f : Fin 48) (s : State) : Host.Outcome State Fault Refusal := .next <|
  let x := (s.frond f.val).eq
  if s.acqState f.val = 1 && x.searching && decide (x.candTick + 1600 ≤ s.tick) then
    let rest := x.cands.drop 1
    let cs := if rest.isEmpty then s.candidates f.val else rest
    let s := s.setD f.val (cs.headD 0)
    s.modFrond f.val fun y => { y with eq := { y.eq with cands := cs, candTick := s.tick, fitRun := 0 } }
  else s

/-- PRECONVERGENCE_END: blind adaptation ends after 6,384 ticks, or once its cost has settled for 16 ticks (R106); the
detector is enabled. -/
def execPreconvergenceEnd (f : Fin 48) (settled : Bool) (s : State) : Host.Outcome State Fault Refusal := .next <|
  let x := (s.frond f.val).eq
  if s.acqState f.val = 1 && x.preconv && (settled || decide (x.preTick + 6384 ≤ s.tick)) then
    s.modFrond f.val fun y => { y with eq := { y.eq with preconv := false } }
  else s

/-- CD_TRACKING: the end of a 160-tick window in ACQUIRED with its residual dispersion (R107): above 50 ps/nm D moves
toward it by at most 200 ps/nm, unless the window holds a flooded tick or a slip, or CD_MODE is FIXED. The window also
brings the DGD estimate in 0.25 ps and the PDL estimate in 0.1 dB. -/
def execCdTracking (f : Fin 48) (residual : Int) (dgd pdl : Nat) (s : State) : Host.Outcome State Fault Refusal := .next <|
  if s.acqState f.val = 5 then
    let s := (s.wr (R.FRD_EQ_PMD_DGD f.val) (min 4095 dgd)).wr (R.FRD_EQ_PMD_PDL f.val) (min 255 pdl)
    let x := (s.frond f.val).eq
    let s := s.modFrond f.val fun y => { y with eq := { y.eq with windowBad := false } }
    if s.cdMode f.val ≠ 2 ∧ ¬ x.windowBad ∧ (50 < residual ∨ residual < -50) then
      s.setD f.val (x.d + clampInt (-200) 200 residual)
    else s
  else s

/-- CD_HOST_RAMP_STEP: one step of the host's ramp in ACQUIRED (R108): in FIXED, D toward CD_VAL by at most 200 ps/nm; S
toward SLOPE by at most 20 ps/nm2. -/
def execCdHostRampStep (f : Fin 48) (s : State) : Host.Outcome State Fault Refusal := .next <|
  if s.acqState f.val = 5 then
    let x := (s.frond f.val).eq
    let dS := clampInt (-20) 20 (s.rdS (R.FRD_EQ_SLOPE_SLOPE f.val) - x.slope)
    let s := s.modFrond f.val fun y => { y with eq := { y.eq with slope := y.eq.slope + dS } }
    let target := clampInt (-200000) 200000 (s.rdS (R.FRD_EQ_CD_CD_VAL f.val))
    if s.cdMode f.val = 2 ∧ x.d ≠ target then s.setD f.val (x.d + clampInt (-200) 200 (target - x.d))
    else s
  else s

/-- A write to FRD_EQ_CD, FRD_EQ_SLOPE or CD_MODE takes effect (R108): at once in IDLE, COLD and WARM; in ACQUIRED the
ramp follows. `mode` is CD_MODE as applied before the write. -/
def State.cdWrite (s : State) (f mode : Nat) : State :=
  let st := s.acqState f
  if st ≤ 2 then
    let s := s.modFrond f fun y => { y with eq := { y.eq with slope := s.rdS (R.FRD_EQ_SLOPE_SLOPE f) } }
    if s.cdMode f = 2 then
      let s := s.setD f (s.rdS (R.FRD_EQ_CD_CD_VAL f))
      if st = 1 ∧ (s.frond f).eq.searching then
        s.modFrond f fun y => { y with eq := { y.eq with searching := false, cands := [], preconv := true, preTick := s.tick } }
      else s
    else if st = 1 ∧ mode = 2 then s.startSearch f
    else s
  else s

/-! ### Polarisation (R112) -/

/-- The mode AUTO asks for after a tick with rotation rate `rate`, in 0.1 Mrad/s. `down`: the rate was below the mode's
lower bound for 160 consecutive ticks. -/
def autoTrack (mode rate : Nat) (down : Bool) : Option Nat :=
  if 30 < rate then (if mode = 2 then none else some 2)
  else if 5 ≤ rate ∧ mode = 0 then some 1
  else if down then (if mode = 0 then none else some (mode - 1))
  else none

/-- SOP_RATE_EVALUATION: one tick's rotation rate in 0.1 Mrad/s (R112). -/
def execSopRateEvaluation (f : Fin 48) (rate : Nat) (s : State) : Host.Outcome State Fault Refusal := .next <|
  if !s.frondEnabled f.val then s
  else
    let s := s.wr (R.FRD_EQ_STAT_SOP_RATE f.val) (min 511 rate)
    let x := (s.frond f.val).eq
    let mode := s.rd (R.FRD_EQ_STAT_TRACK_ACT f.val)
    let slow := x.slowRun.step s.tick ((mode == 2 && decide (rate < 30)) || (mode == 1 && decide (rate < 5)))
    let fast := x.sopRun.step s.tick (decide (200 < rate))
    let next := if s.rd (R.FRD_EQ_CTL_TRACK f.val) = 3 then autoTrack mode rate (decide (160 ≤ slow.n)) else none
    let high := decide (16 ≤ fast.n)
    let s := s.modFrond f.val fun y => { y with eq := { y.eq with
      slowRun := slow, sopRun := fast, sopRaised := high, trackNext := if next.isSome then next else x.trackNext } }
    if high && !x.sopRaised then s.raise 0x0304 f.val [.w rate] else s

/-! ### Carrier (R118) -/

/-- FOFS_RANGE: one tick's report of the frequency offset in kHz; a magnitude above 3.6 GHz for 160 consecutive ticks
raises FOFS_RANGE once per run. -/
def execFofsRange (f : Fin 48) (fofs : Int) (s : State) : Host.Outcome State Fault Refusal := .next <|
  if !s.frondEnabled f.val then s
  else
    let s := s.wrS (R.FRD_EQ_FOFS_FOFS f.val) fofs
    let x := (s.frond f.val).eq
    let r := x.fofsRun.step s.tick (decide (3600000 < fofs) || decide (fofs < -3600000))
    let on := decide (160 ≤ r.n)
    let s := s.modFrond f.val fun y => { y with eq := { y.eq with fofsRun := r, fofsRaised := on } }
    if on && !x.fofsRaised then s.raise 0x0305 f.val [EVal.s fofs] else s

/-! ### SNR (R120, R121) -/

/-- 160 log10(a/b) rounded to the nearest whole, within -128..960: the SNR in 1/16 dB (R121). -/
def snrOf (a b : Nat) : Int :=
  if b = 0 then 960
  else searchMax (fun v => decide (v ≤ 960) &&
    (if 0 < v then decide (b ^ 320 * 10 ^ (2 * v - 1).toNat ≤ a ^ 320) else decide (b ^ 320 ≤ a ^ 320 * 10 ^ (1 - 2 * v).toNat)))
    11 (-128)

/-- The SNR and VALID fields of SCk. -/
def snrFields (f k : Nat) : Fld × Fld :=
  if k % 2 = 1 then (R.FRD_EQ_SNR_SNR_H f (k / 2), R.FRD_EQ_SNR_VALID_H f (k / 2))
  else (R.FRD_EQ_SNR_SNR_L f (k / 2), R.FRD_EQ_SNR_VALID_L f (k / 2))

/-- One VALID SNR value: the register, the window of R141, the frond's lowest SNR of its bins (Table PM-2). -/
def State.putSnr (s : State) (f k : Nat) (v : Int) : State :=
  let (fs, fv) := snrFields f k
  let s := (s.wrS fs v).wrB fv true
  let low := fun (b : FrondBin) => { b with snrMin := some (min v (b.snrMin.getD v)) }
  s.modFrond f fun x => { x with
    ld := { x.ld with snrSum := x.ld.snrSum.set k (x.ld.snrSum.getD k 0 + v),
                      snrCnt := x.ld.snrCnt.set k (x.ld.snrCnt.getD k 0 + 1) }
    pm := { x.pm with b15 := low x.pm.b15, b24 := low x.pm.b24 } }

/-- No valid SNR of SCk in this tick. -/
def State.noSnr (s : State) (f k : Nat) (zero : Bool) : State :=
  let (fs, fv) := snrFields f k
  let s := s.wrB fv false
  if zero then s.wr fs 0 else s

/-- SNR_MEASUREMENT: one tick's pilot sums of SC00..SC31: signal, error, pilots marked and pilots in all. A tick without
a superframe keeps the values. -/
def execSnrMeasurement (f : Fin 48) (empty : Bool) (sums : List (Nat × Nat × Nat × Nat)) (s : State) :
    Host.Outcome State Fault Refusal := .next <|
  if !s.frondEnabled f.val || empty then s
  else
    let lit := s.rxLit f.val
    (List.range 32).foldl (fun s k =>
      let (sig, err, marked, pilots) := sums.getD k (0, 0, 0, 0)
      if s.acqState f.val ≠ 5 ∨ ¬ lit.contains k then s.noSnr f.val k true
      else if pilots < 2 * marked then s.noSnr f.val k false
      else s.putSnr f.val k (snrOf sig err)) s

/-! ### Retained state -/

/-- EQ_STAMP_REFRESH: 160,000 ticks in ACQUIRED have passed since the last refresh (R122). -/
def execEqStampRefresh (f : Fin 48) (s : State) : Host.Outcome State Fault Refusal := .next <|
  if s.acqState f.val = 5 then s.refreshStamp f.val else s

/-- EQ_STATE_DISCARD: a write of 1 to DISCARD: the retained state is unusable at the next entry into COLD (R123). -/
def execEqStateDiscard (f : Fin 48) (s : State) : Host.Outcome State Fault Refusal := .next <|
  if s.frondEnabled f.val then
    (s.modFrond f.val fun x => { x with eq := { x.eq with discard := true } }).wrB (R.FRD_EQ_STAT_RETAINED f.val) false
  else s

end Sys2Proof.Machine
end

