-- ==== Sys2Proof/Machine/Loading.lean ====
section
/-! DEFINITION. Loading tables and the transmit chain (chapter 6): the redistribution handshake, LOAD_TABLE and
LINE_SETUP, dispersion pre-compensation, launch power. -/
namespace Sys2Proof.Machine

/-! ### The redistribution handshake (R141..R144) -/

/-- 10 log10(2^(c/16) - 1) in 1/256 dB, convergent rounding, for c = 32..113 (R141). -/
def reqTable : List Nat :=
  [1221, 1285, 1348, 1410, 1472, 1532, 1592, 1652, 1710, 1769, 1826, 1884, 1940, 1997, 2053, 2108, 2163, 2218, 2273,
   2327, 2381, 2435, 2488, 2541, 2594, 2647, 2700, 2752, 2804, 2856, 2908, 2959, 3011, 3062, 3113, 3164, 3215, 3266,
   3317, 3367, 3418, 3468, 3518, 3568, 3618, 3668, 3718, 3768, 3818, 3868, 3917, 3967, 4016, 4066, 4115, 4164, 4214,
   4263, 4312, 4361, 4410, 4459, 4508, 4557, 4606, 4655, 4704, 4753, 4802, 4851, 4899, 4948, 4997, 5045, 5094, 5143,
   5191, 5240, 5289, 5337, 5386, 5434]

/-- The requirement of a code with GAP, in 1/256 dB. -/
def reqOf (gap c : Nat) : Int := ((reqTable.getD (c - 32) 0 + 16 * gap : Nat) : Int)

/-- The margin of a code under a mean SNR, in 1/256 dB. -/
def margin (gap : Nat) (snr : Int) (c : Nat) : Int := snr - reqOf gap c

/-- The first index with the smallest value. -/
def argMin (l : List (Nat × Int)) : Option Nat :=
  (l.foldl (fun (best : Option (Nat × Int)) p => match best with
    | none => some p
    | some b => if p.2 < b.2 then some p else some b) none).map Prod.fst

/-- The lit sub-carriers of a table. -/
def litOf (codes : List Nat) : List Nat := (List.range 32).filter fun k => codes.getD k 0 != 0

/-- The candidate of R141: at most `moves` moves of one code; answers the codes and the moves made. -/
def candidateMoves (gap lo hi : Nat) (snr : Nat → Int) : Nat → List Nat → Nat → List Nat × Nat
  | 0, codes, done => (codes, done)
  | moves + 1, codes, done =>
    let lit := litOf codes
    let c := fun k => codes.getD k 0
    match argMin ((lit.filter fun k => decide (lo < c k)).map fun k => (k, margin gap (snr k) (c k))) with
    | none => (codes, done)
    | some a =>
      match argMin ((lit.filter fun k => k != a && decide (c k < hi)).map fun k => (k, -margin gap (snr k) (c k + 1))) with
      | none => (codes, done)
      | some b =>
        if min (margin gap (snr a) (c a - 1)) (margin gap (snr b) (c b + 1)) ≤ margin gap (snr a) (c a) then (codes, done)
        else candidateMoves gap lo hi snr moves ((codes.set a (c a - 1)).set b (c b + 1)) (done + 1)

/-- CODE_MIN and CODE_MAX as applied, in 32..112 (Table SUB-8). -/
def State.codeLimits (s : State) (f : Nat) : Nat × Nat :=
  let cl := fun v => min 112 (max 32 v)
  (cl (s.rd (R.FRD_LD_LIMIT_CODE_MIN f)), cl (s.rd (R.FRD_LD_LIMIT_CODE_MAX f)))

/-- MAX_MOVES, 0 applied as 1. -/
def State.maxMoves (s : State) (f : Nat) : Nat := max 1 (s.rd (R.FRD_LD_LIMIT_MAX_MOVES f))

/-- The smallest margin of a table. -/
def leastMargin (gap : Nat) (snr : Nat → Int) (codes : List Nat) : Int :=
  let l := (litOf codes).map fun k => margin gap (snr k) (codes.getD k 0)
  l.foldl min (l.headD 0)

/-- LOAD_REQUEST_EVALUATION: the end of a tick t with t mod 160 = 159 (R141). -/
def execLoadRequestEvaluation (f : Fin 48) (s : State) : Host.Outcome State Fault Refusal := .next <|
  if s.tick % 160 ≠ 159 ∨ ¬ s.frondEnabled f.val then s
  else
    let x := (s.frond f.val).ld
    let s := s.modFrond f.val fun y => { y with ld := { y.ld with
      snrSum := List.replicate 32 0, snrCnt := List.replicate 32 0 } }
    let codes := x.rxCodes
    let lit := litOf codes
    let (lo, hi) := s.codeLimits f.val
    if s.acqState f.val ≠ 5 ∨ ¬ s.flag (R.FRD_LD_CTL_REQ_EN f.val) ∨ s.flag (R.FRD_LD_STAT_REQ_OUT f.val) ∨ hi < lo ∨
       lit.any (fun k => decide (x.snrCnt.getD k 0 < 80)) then s
    else
      let gap := s.rd (R.FRD_LD_CTL_GAP f.val)
      let snr := fun k => roundDiv (16 * x.snrSum.getD k 0) (x.snrCnt.getD k 1)
      let (cand, moves) := candidateMoves gap lo hi snr (s.maxMoves f.val) codes 0
      let gain := leastMargin gap snr cand - leastMargin gap snr codes
      if 0 < gain ∧ ((16 * s.rd (R.FRD_LD_CTL_HYST f.val) : Nat) : Int) ≤ gain then
        let seq := (s.rd (R.FRD_LD_STAT_REQ_SEQ f.val) + 1) % 16
        let s := (s.wr (R.FRD_LD_STAT_REQ_SEQ f.val) seq).wrB (R.FRD_LD_STAT_REQ_OUT f.val) true
        let s := s.modFrond f.val fun y => { y with ld := { y.ld with
          reqCodes := cand, reqBase := s.rd (R.FRD_LD_STAT_RX_TID f.val), reqTick := s.tick } }
        let (g, s) := s.wholeUnits gain.toNat 16
        s.raise 0x0401 f.val [.w seq, .w moves, .w g]
      else s

/-- LOAD_REQUEST_TIMEOUT: 32,000 ticks without an acknowledgement (R142). -/
def execLoadRequestTimeout (f : Fin 48) (s : State) : Host.Outcome State Fault Refusal := .next <|
  if s.flag (R.FRD_LD_STAT_REQ_OUT f.val) && decide ((s.frond f.val).ld.reqTick + 32000 ≤ s.tick) then
    (s.endRequest f.val).raise 0x0403 f.val [.w (s.rd (R.FRD_LD_STAT_REQ_SEQ f.val))]
  else s

/-- Moves of a request: half the sum of code differences (R143). -/
def movesOf (a b : List Nat) : Nat :=
  ((List.range 32).map fun k => (a.getD k 0 - b.getD k 0) + (b.getD k 0 - a.getD k 0)).sum / 2

/-- The first condition of Table SUB-4 that a request fails, in the order of its values, else ACCEPTED (R143). -/
def State.requestStatus (s : State) (f : Nat) (l : Lof) : Nat :=
  let x := (s.frond f).ld
  let (lo, hi) := s.codeLimits f
  let n := s.rd (R.FRD_SC_PLAN_N f)
  if l.reqBase ≠ s.rd (R.FRD_LD_STAT_TX_TID f) ∨ x.pend.isSome then 2
  else if hi < lo ∨ l.reqCodes.any (fun c => c != 0 && (decide (c < lo) || decide (hi < c))) ∨
    litOf l.reqCodes ≠ litOf x.txCodes ∨ s.maxMoves f < movesOf l.reqCodes x.txCodes then 3
  else if ¬ tableValid n (s.rd (R.FRD_SC_PLAN_COUNT f)) l.reqCodes then 4
  else if ¬ s.flag (R.FRD_LD_CTL_ACCEPT f) then 5
  else if x.lastSwap.any (fun t => decide (s.tick < t + 160 * s.rd (R.FRD_LD_CTL_MIN_GAP f))) then 6
  else 1

/-- A responder processes a received request at the end of tick d (R143, R144). -/
def State.loadRequest (s : State) (f : Nat) (l : Lof) : State :=
  let x := (s.frond f).ld
  let ack := (x.acks.head?.map fun a => a.2.1).getD 0
  if ¬ l.reqValid ∨ ¬ s.flag (R.FRD_ID_LINE_RUN f) ∨ l.reqSeq = ack then s
  else
    let st := s.requestStatus f l
    let s := if st = 1 then s.scheduleSwap f l.reqCodes 0 (s.tick + 3) else s
    let s := s.bump (if st = 1 then R.FRD_LD_CNT_ACCEPTED f else R.FRD_LD_CNT_REFUSED f) 1
    let s := s.modFrond f fun y => { y with ld := { y.ld with acks := ((s.tick + 3, l.reqSeq, st) :: y.ld.acks).take 8 } }
    s.raise 0x0404 f [.w l.reqSeq, .w st]

/-- The acknowledgement of the own request (R142). -/
def State.loadAck (s : State) (f : Nat) (l : Lof) : State :=
  let seq := s.rd (R.FRD_LD_STAT_REQ_SEQ f)
  if s.flag (R.FRD_LD_STAT_REQ_OUT f) ∧ l.ackSeq = seq then
    ((s.endRequest f).wr (R.FRD_LD_STAT_DONE_STATUS f) l.ackStatus).raise 0x0402 f [.w seq, .w l.ackStatus]
  else s

/-- A received LOF with a good CRC (R140): the announcement, the acknowledgement, the request. -/
def State.takeLof (s : State) (f stamp : Nat) (l : Lof) : State :=
  let s := if l.annValid then
      s.modFrond f fun y => { y with ld := { y.ld with
        notice := some { tid := l.annTid, codes := l.annCodes, swapStamp := stamp + l.annIn } } }
    else s
  (s.loadAck f l).loadRequest f l

/-! ### What the frond sends -/

/-- The transmit table and TID in force for the superframe sent in tick `t`, work done ahead included (R144, R150). -/
def State.txTableAt (s : State) (f t : Nat) : List Nat × Nat :=
  let x := (s.frond f).ld
  match x.pend with
  | some p => if p.swap ≤ t then (p.codes, p.tid) else (x.txCodes, s.rd (R.FRD_LD_STAT_TX_TID f))
  | none => (x.txCodes, s.rd (R.FRD_LD_STAT_TX_TID f))

/-- The acknowledgement that the superframe sent in tick `t` carries. -/
def LdSt.ackAt (x : LdSt) (t : Nat) : Nat × Nat :=
  match x.acks.find? fun a => decide (a.1 ≤ t) with
  | some a => a.2
  | none => (0, 0)

/-- The notice in the header of the superframe sent in tick `t`. -/
def State.txHlb (s : State) (f t : Nat) : Hlb :=
  let (codes, tid) := s.txTableAt f t
  let base : Hlb := { curTid := tid, curCodes := codes }
  match (s.frond f).ld.pend with
  | some p => if 0 < p.inAt t then { base with nxtValid := true, nxtTid := p.tid, nxtIn := p.inAt t, nxtCause := p.cause } else base
  | none => base

/-- The LOF of the superframe sent in tick `t` (Table SUB-3, R140). -/
def State.txLof (s : State) (f t : Nat) : Lof :=
  let x := (s.frond f).ld
  let ack := x.ackAt t
  let base : Lof := { ackSeq := ack.1, ackStatus := ack.2 }
  let base := match x.pend with
    | some p => if 0 < p.inAt t then { base with annValid := true, annTid := p.tid, annIn := p.inAt t, annCodes := p.codes } else base
    | none => base
  let out := s.flag (R.FRD_LD_STAT_REQ_OUT f)
  if 0 < x.reqTick ∧ x.reqTick + 3 ≤ t ∧ (out ∨ t < x.reqEnd + 3) then
    { base with reqValid := true, reqSeq := s.rd (R.FRD_LD_STAT_REQ_SEQ f), reqBase := x.reqBase, reqCodes := x.reqCodes }
  else base

/-- The header word of the superframe sent in tick `t` (R178). -/
def State.txHeader (s : State) (f t : Nat) : HeaderWord :=
  { n := s.rd (R.FRD_SC_PLAN_N f), count := s.rd (R.FRD_SC_PLAN_COUNT f), sfCount := t % 2 ^ 24, hlb := s.txHlb f t }

/-- The scheduled swap of the transmit table of frond `f`, once its tick has come. -/
def State.txSwapDue (s : State) (f : Nat) : State :=
  match (s.frond f).ld.pend with
  | some p => if p.swap ≤ s.tick then s.txSwap f else s
  | none => s

/-- TX_LOAD_SWAP. -/
def execTxLoadSwap (f : Fin 48) (s : State) : Host.Outcome State Fault Refusal := .next (s.txSwapDue f.val)

/-! ### LOAD_TABLE (R147) -/

/-- The checks of LOAD_TABLE. -/
def chkLoadTable (f : Nat) (codes : List Nat) (c : Ctx) (s : State) : List Ck :=
  let n := s.rd (R.FRD_SC_PLAN_N f)
  c.pf ++ [ckFormat (!codes.all codeOk), s.ckFrond f, ckAbsent (n == 0),
    ckCond (!(tableValid n (s.rd (R.FRD_SC_PLAN_COUNT f)) codes && lightingOk n (s.frond f).ld.txCodes codes)) St.format,
    ckCond (s.frond f).ld.pend.isSome St.bankBusy]

/-- LOAD_TABLE applied: announced from the superframe of E, swapped at E + LEAD. -/
def appLoadTable (f : Nat) (codes : List Nat) (_ : Ctx) (s : State) : Applied :=
  { s := s.scheduleSwap f codes 1 s.tick }

/-- LOAD_TABLE as a request of its own. -/
def execLoadTable (h : ReqHdr) (mem : HostMem) (f : Nat) (codes : List Nat) (s : State) :
    Host.Outcome State Fault Refusal := .next <|
  runOne h mem 0x11 (.loadTable f codes) s (chkLoadTable f codes) (appLoadTable f codes)

/-! ### The transmit chain (R128, R150..R153) -/

/-- The pre-compensation that the ramp heads for: PRECD within -40,000..40,000, 0 with PRECD_EN = 0. -/
def State.precdTarget (s : State) (f : Nat) : Int :=
  if s.flag (R.FRD_TX_CTL_PRECD_EN f) then clampInt (-40000) 40000 (s.rdS (R.FRD_TX_PRECD_PRECD f)) else 0

/-- RAMPING follows a write of PRECD or PRECD_EN, and every step. -/
def State.precdRamping (s : State) (f : Nat) : State :=
  s.wrB (R.FRD_TX_STAT_RAMPING f) (decide ((s.frond f).tx.precd ≠ s.precdTarget f))

/-- PRECD_RAMP_STEP: one step of 50 ps/nm, 160 ticks after the last (R150). -/
def execPrecdRampStep (f : Fin 48) (s : State) : Host.Outcome State Fault Refusal := .next <|
  let p := (s.frond f.val).tx.precd
  let s := s.modFrond f.val fun x => { x with tx := { x.tx with
    precd := p + clampInt (-50) 50 (s.precdTarget f.val - p), precdTick := s.tick } }
  s.precdRamping f.val

/-- The transmit skews after a change of the host's or the calibrated part: CLAMPED, as R65 (R151). -/
def State.skewClamp (s : State) (f q : Nat) : State :=
  s.wrB (R.FRD_TX_SKEW_CLAMPED f q)
    (appliedDelay (s.rd (R.FRD_TX_SKEW_CAL_SKEW f q)) (s.rd (R.FRD_TX_SKEW_USER_SKEW f q))).2

/-- PWR as applied, in 0.1 dBm: -2.0..+3.0 dBm (R152). -/
def State.launchTarget (s : State) (f : Nat) : Int := clampInt (-20) 30 (s.rdS (R.FRD_TX_CTL_PWR f))

/-- Requantisation to a DAC code (R151): convergent rounding, clamped to -127..127, CLIP when clamped. -/
def dacCode (acc : Int) (shift : Nat) : Int × Bool :=
  let q := roundShift acc shift
  (clampInt (-127) 127 q, decide (127 < q) || decide (q < -127))

/-- LAUNCH_POWER_RESTORED: the launch power has reached its target, or the most that the laser input allows; DARK clears
and PWR_MEAS reports (R153); TX_PWR_LIMIT once per run (R152). -/
def execLaunchPowerRestored (f : Fin 48) (power : Int) (limited : Bool) (s : State) :
    Host.Outcome State Fault Refusal := .next <|
  if !s.frondEnabled f.val || s.squelchCause f.val then s
  else
    let was := (s.frond f.val).tx.limitRun
    let s := s.modFrond f.val fun x => { x with tx := { x.tx with power := power, limitRun := limited, squelched := false } }
    let s := (s.wrB (R.FRD_TX_STAT_DARK f.val) false).wrS (R.FRD_TX_STAT_PWR_MEAS f.val) power
    let s := s.wrB (R.FRD_TX_STAT_PWR_LIMIT f.val) limited
    if limited && !was then s.raise 0x040b f.val [EVal.s power] else s

/-- LASER_OFF_GRID: one tick's report of the laser offset in 10 MHz; a magnitude above 2.5 GHz for 160 consecutive ticks
raises the event once per run (R128). -/
def execLaserOffGrid (f : Fin 48) (offset : Int) (s : State) : Host.Outcome State Fault Refusal := .next <|
  if !s.frondEnabled f.val then s
  else
    let s := s.wrS (R.FRD_TX_STAT_LFOFS f.val) offset
    let x := (s.frond f.val).tx
    let r := x.gridRun.step s.tick (decide (250 < offset) || decide (offset < -250))
    let on := decide (160 ≤ r.n)
    let s := s.modFrond f.val fun y => { y with tx := { y.tx with gridRun := r, gridRaised := on } }
    if on && !x.gridRaised then s.raise 0x040a f.val [EVal.s offset] else s

end Sys2Proof.Machine
end

