-- ==== Sys2Proof/Machine/MemOps.lean ====
section
/-! DEFINITION. Protected memories (chapter 24): parity, SECDED per byte, findings and the fence list. A byte is named by
its key: the memory ID in bits 39:32 and the offset below, with the frond in bits 31:26 for a per-frond memory (R556). -/
namespace Sys2Proof.Machine

/-- Changes the memory integrity record. -/
def State.modMem (s : State) (g : MemSt → MemSt) : State := { s with mem := g s.mem }

/-- A memory of Table MEM-1 that each frond has a copy of. -/
def perFrond (m : Nat) : Bool := m == 1 || m == 2 || m == 3 || m == 0x17

/-- The key of a byte. The deskew memory's offsets are divided by 8. -/
def memKey (m frond off : Nat) : Nat :=
  m * 2 ^ 32 + (if perFrond m then frond * 2 ^ 26 + off % 2 ^ 26 else if m = 5 then off / 8 else off % 2 ^ 32)

/-- The parts of a key that events carry: memory, frond or 0xFF, offset. -/
def keyVals (k : Nat) : List EVal :=
  let m := k / 2 ^ 32
  if perFrond m then [.w m, .w (k / 2 ^ 26 % 64), .w (k % 2 ^ 26)] else [.w m, .w 0xff, .w (k % 2 ^ 32)]

/-- Size in bytes of a SECDED memory (Table MEM-1), of one instance for the frond tables; none for a parity memory. -/
def memSize : Nat → Option Nat
  | 0x10 => some 4194304
  | 0x11 => some 262144
  | 0x12 => some 16777216
  | 0x13 => some 1048576
  | 0x14 => some 1572864
  | 0x15 => some 32768
  | 0x16 => some 262144
  | 0x17 => some 16384
  | _ => none

/-- MEM_LAST takes a finding: kind 1 corrected, 2 uncorrectable, 3 parity. -/
def State.memLast (s : State) (k kind : Nat) : State :=
  let s := s.wr R.MEM_LAST_LO_OFFSET (k % 2 ^ 32)
  (s.wr R.MEM_LAST_HI_KIND kind).wr R.MEM_LAST_HI_MEMORY (k / 2 ^ 32)

/-- A byte that fails parity (R551): PARITY, MEM_LAST, MEM_PARITY and the fault message at most once per 160 ticks for
each instance. The message carries the first failing address of those ticks. -/
def State.parityFail (s : State) (k : Nat) : State :=
  let inst := if perFrond (k / 2 ^ 32) then k / 2 ^ 26 else k / 2 ^ 32 * 2 ^ 6
  let s := (s.bump R.MEM_UE_PARITY 1).memLast k 3
  let r := Tab.get (fun _ => {}) s.mem.parity inst
  let put := fun (s : State) (r : ParityRun) => s.modMem fun m => { m with parity := Tab.set (fun _ => {}) m.parity inst r }
  let first := r.first.getD k
  match r.last with
  | some t =>
    if t = s.tick then
      put { s with host := { s.host with events := s.host.events.map fun e =>
        if e.code == 0x1703 && e.obj == 0 && e.tick == s.tick && e.vals.take 2 == (keyVals k).take 2 then
          { e with vals := e.vals.take 2 ++ ((e.vals.drop 2).map fun v => match v with
            | .w n => .w (n + 1)
            | v => v) }
        else e } } r
    else if t + 160 ≤ s.tick then
      let s := s.raise 0x1703 0 ((keyVals k).take 2 ++ [.w (r.count + 1)])
      let s := s.sendFault ⟨0x007, 0x08, 3, false, first, s.tick⟩
      put s { r with last := some s.tick, count := 0, first := none }
    else put s { r with count := r.count + 1, first := some first }
  | none =>
    let s := s.raise 0x1703 0 ((keyVals k).take 2 ++ [.w 1])
    let s := s.sendFault ⟨0x007, 0x08, 3, false, k, s.tick⟩
    put s { r with last := some s.tick, count := 0, first := none }

/-- Bits set in a 13-bit mask. -/
def bitCount (m : Nat) : Nat := ((List.range 13).filter fun i => m / 2 ^ i % 2 == 1).length

/-- The mask of a byte's codeword: 0 when it is clean. -/
def State.flip (s : State) (k : Nat) : Nat := Tab.get (fun _ => 0) s.mem.flips k

/-- Bits of a byte's codeword flip, by an upset or by MEM_INJECT. -/
def State.upset (s : State) (k mask : Nat) : State :=
  s.modMem fun m => { m with flips := Tab.set (fun _ => 0) m.flips k ((Tab.get (fun _ => 0) m.flips k) ^^^ (mask % 2 ^ 13)) }

/-- FENCED and FENCE_FULL follow the list. -/
def State.fenceRegs (s : State) : State :=
  (s.wr R.MEM_STAT_FENCED s.mem.fence.length).wrB R.MEM_STAT_FENCE_FULL (decide (256 ≤ s.mem.fence.length))

/-- A write of bytes `off .. off + len - 1` of a memory: their codewords are clean and leave the fence list (R553, R556). -/
def State.memWrite (s : State) (m frond off len : Nat) : State :=
  let lo := memKey m frond off
  let hi := lo + len
  let out := fun (k : Nat) => !(decide (lo ≤ k) && decide (k < hi))
  (s.modMem fun x => { x with flips := x.flips.filter fun p => out p.1, fence := x.fence.filter out }).fenceRegs

/-- Some byte of a range is fenced. -/
def State.fencedIn (s : State) (m frond off len : Nat) : Bool :=
  let lo := memKey m frond off
  s.mem.fence.any fun k => decide (lo ≤ k) && decide (k < lo + len)

/-- A read that corrects a byte (R554). -/
def State.readCorrected (s : State) (k : Nat) : State :=
  let s := (s.bump R.MEM_CE_CE_READ 1).memLast k 1
  let m := k / 2 ^ 32
  if (Tab.get (fun _ => none) s.mem.ceTick m).any fun t => decide (s.tick < t + 160) then s
  else (s.modMem fun x => { x with ceTick := Tab.set (fun _ => none) x.ceTick m (some s.tick) }).raise 0x1701 0 (keyVals k)

/-- A read that finds an uncorrectable byte hands it to the scrubber for the next tick (R555). -/
def State.readUncorrectable (s : State) (k : Nat) : State :=
  let s := s.memLast k 2
  if s.mem.confirm.any (fun c => c.1 == k) then s
  else s.modMem fun x => { x with confirm := x.confirm ++ [(k, s.tick)] }

/-- A read of a byte range of a SECDED memory: the keys it delivers poisoned. -/
def State.memRead (s : State) (m frond off len : Nat) : State × List Nat :=
  let lo := memKey m frond off
  let bad := s.mem.flips.filter fun p => decide (lo ≤ p.1) && decide (p.1 < lo + len)
  bad.foldl (fun (a : State × List Nat) p =>
    if bitCount p.2 = 1 then (a.1.readCorrected p.1, a.2) else (a.1.readUncorrectable p.1, a.2 ++ [p.1])) (s, [])

/-- MEM_UNCORRECTED and the fault message of a confirmed uncorrectable byte (R556); `owner`: the tenant of the object. -/
def State.memUncorrected (s : State) (k : Nat) (owner : Option Nat) : State :=
  let s := (s.bump R.MEM_UE_UNCORR 1).memLast k 2
  let rings := 0 :: (owner.toList.filter (· != 0))
  let s := s.raiseEv { code := 0x1702, obj := 0, tick := s.tick, tenant := owner.getD 0, dest := .tenants rings, vals := keyVals k }
  s.sendFault ⟨0x007, 0x09, 4, false, k, s.tick⟩

/-- Fences a confirmed uncorrectable byte (R556): a byte on the list sends nothing further; with the list full each
finding is reported and MEM_FENCE_FULL raised once. -/
def State.fenceByte (s : State) (k : Nat) (owner : Option Nat) : State :=
  if s.mem.fence.contains k then s
  else if 256 ≤ s.mem.fence.length then s.memUncorrected k owner
  else
    let s := (s.modMem fun x => { x with fence := insertBy (fun a b => decide (a ≤ b)) k x.fence }).fenceRegs
    let s := s.memUncorrected k owner
    if 256 ≤ s.mem.fence.length ∧ ¬ s.mem.fullRaised then
      (s.modMem fun x => { x with fullRaised := true }).raise 0x1704 0
    else s

/-- Endpoint `e` is fenced (Table MEM-2). -/
def State.epFenced (s : State) (e : Nat) : Bool := s.fencedIn 0x10 0 (32 * e) 32

/-- SA `i` is fenced. -/
def State.saFenced (s : State) (i : Nat) : Bool := s.fencedIn 0x13 0 (64 * i) 64

end Sys2Proof.Machine
end

