-- ==== Sys2Proof/Machine/PipeCount.lean ====
section
/-! DEFINITION. The pipeline counters (chapter 26): programmable counters, overflow, freeze, exact records, the slot
account. -/
namespace Sys2Proof.Machine

/-- The 48-bit count register of counter `j`. -/
def State.pcShow (s : State) (f j c : Nat) : State :=
  (s.wr (R.FRD_PC_CNT_LO_CNT_LO f j) c).wr (R.FRD_PC_CNT_HI_CNT_HI f j) (c / 2 ^ 32)

/-- The cycle counter of a frond in F0 or F1: 9,600 DSP cycles a tick. -/
def State.pcCycles (s : State) (f : Nat) : State :=
  let c := ((s.frond f).pc.cyc + 9600) % 2 ^ 48
  let s := s.modPc f fun y => { y with cyc := c }
  (s.wr (R.FRD_PC_CYC_LO_CYC_LO f) c).wr (R.FRD_PC_CYC_HI_CYC_HI f) (c / 2 ^ 32)

/-- DSP cycles of this tick with the frond ACQUIRED: the first of them and how many. Where ACQUIRED ended within the tick, how
many is left open (assumption 1). -/
def State.pcAcquired (s : State) (f : Nat) : Nat × Nat × State :=
  let (start, n) := match (s.frond f).pc.acqFrom with
    | some (t, cy) => if t = s.tick then (cy, 9600 - cy) else (0, 9600)
    | none => (0, 0)
  if s.acqState f = 5 ∨ n = 0 then (start, n, s) else (start, s.fresh.1 % (n + 1), s.fresh.2)

/-- The slot account of the tick (R583). -/
def State.pcSlotAccount (s : State) (f : Nat) : State :=
  let q := (s.frond f).pc.slots
  let front := if q.2.2.2 = 0 then 14000 else 0
  let s := s.pcMany f 0x0a front 0
  let s := (s.wr (R.FRD_PC_SLOTS_A_RETIRED f) q.1).wr (R.FRD_PC_SLOTS_A_WASTED f) q.2.1
  (s.wr (R.FRD_PC_SLOTS_B_FRONT f) front).wr (R.FRD_PC_SLOTS_B_BACK f) q.2.2.1

/-- PC_OVERFLOW of each counter that overflowed in the tick (R586). -/
def State.pcOverflows (s : State) (f : Nat) : State :=
  (List.range 8).foldl (fun s j =>
    let q := (s.frond f).pc.ovf.getD j (0, 0)
    if 0 < q.1 ∧ s.flag (R.FRD_PC_CTL_OVF_IE f j) then s.raise 0x1901 f [.w j, .w q.1, .w q.2] else s) s

/-- The counters that a freeze of this tick stops, or that a resume starts again, and FROZEN; what the tick gathered is cleared
(R586, R587). -/
def State.pcFreezeEnd (s : State) (f : Nat) : State :=
  let froze := (s.frond f).pc.freezeTick = some s.tick
  let s := s.modPc f fun y =>
    if froze then { y with allStop := true, resume := false, ovf := List.replicate 8 (0, 0), slots := (0, 0, 0, 0) }
    else if y.resume then
      { y with
        allStop := false, stopped := List.replicate 8 false, resume := false
        ovf := List.replicate 8 (0, 0)
        slots := (0, 0, 0, 0) }
    else { y with ovf := List.replicate 8 (0, 0), slots := (0, 0, 0, 0) }
  if !froze && !(s.frond f).pc.allStop then s.wrB (R.FRD_PC_STAT_FROZEN f) false else s

/-- The cycles of the tick in ACQUIRED (event 0x01). -/
def State.pcAcqCount (s : State) (f : Nat) : State :=
  let (start, n, s) := s.pcAcquired f
  let s := s.pcCount f 0x01 n fun i => (start + i, 0)
  if s.acqState f = 5 then s else s.modPc f fun y => { y with acqFrom := none }

/-- The slot account of the tick (R583). -/
def State.pcSlotEnd (s : State) (f : Nat) : State :=
  if s.pState f ≤ 1 ∧ s.flag (R.FRD_ID_LINE_RUN f) = true then s.pcSlotAccount f else s

/-- The end of a tick: the cycle counter, DSP cycles with the frond ACQUIRED, the slot account, PC_OVERFLOW, the freeze
of every counter, resumption, and the counts that the registers show (R580..R588). -/
def State.pcTickEnd (s : State) (f : Nat) : State :=
  let s := if s.pState f ≤ 1 then s.pcCycles f else s
  let s := (((s.pcAcqCount f).pcSlotEnd f).pcOverflows f).pcFreezeEnd f
  (List.range 8).foldl (fun s j => s.pcShow f j ((s.frond f).pc.counts.getD j 0)) s

/-- A count register written by the host presets the count from the boundary (R588). -/
def State.pcPreset (s : State) (f j : Nat) : State :=
  let c := (s.rd (R.FRD_PC_CNT_LO_CNT_LO f j) + 2 ^ 32 * s.rd (R.FRD_PC_CNT_HI_CNT_HI f j))
  s.modPc f fun y => { y with counts := y.counts.set j c }

/-- PC_FROZEN_CLEAR: a write of 1 to FROZEN; counting resumes from the next boundary, unless a counter freezes in this
tick (R587, R588). -/
def execPcFrozenClear (f : Fin 48) (s : State) : Host.Outcome State Fault Refusal := .next <|
  if s.frondEnabled f.val && s.flag (R.FRD_PC_STAT_FROZEN f.val) then s.modPc f.val fun y => { y with resume := true } else s

/-- The 16 bytes of an exact record. -/
def ExactRec.bytes (r : ExactRec) : List Byte :=
  natLe 8 r.tick ++ natLe 4 (r.event % 256 * 2 ^ 24 + r.counter % 8 * 2 ^ 21 + r.cycle % 2 ^ 14) ++ natLe 4 r.detail

/-- The checks of PC_ERB_READ (R591). -/
def chkPcErbRead (f addr : Nat) (c : Ctx) (s : State) : List Ck :=
  c.pf ++ [ckAlign addr 64, s.ckFrond f, s.ckBacklog (16 + 16 * (s.frond f).pc.erb.length)]

/-- PC_ERB_READ applied: the header and the records present; the buffer is emptied (R590). -/
def appPcErbRead (f addr dn : Nat) (c : Ctx) (s : State) : Applied :=
  let x := (s.frond f).pc
  let data := natLe 4 x.erb.length ++ natLe 4 x.dropped ++ natLe 1 f ++ List.replicate 7 0 ++ x.erb.flatMap ExactRec.bytes
  let s := s.modPc f fun y => { y with erb := [], dropped := 0 }
  (s.wr (R.FRD_PC_ERBSTAT_USED f) 0).takeRead c dn addr data

/-- PC_ERB_READ as a request of its own. -/
def execPcErbRead (h : ReqHdr) (mem : HostMem) (f addr : Nat) (s : State) : Host.Outcome State Fault Refusal := .next <|
  runOne h mem 0xd8 (.pcErbRead f addr) s (chkPcErbRead f addr) (appPcErbRead f addr h.dn)

/-- A block reset of the frond empties the buffer and sets counts, CYCLES and the slot account to 0 (R590). -/
def State.pcBlockReset (s : State) (f : Nat) : State :=
  let s := s.modPc f fun _ => {}
  let s := (s.wr (R.FRD_PC_CYC_LO_CYC_LO f) 0).wr (R.FRD_PC_CYC_HI_CYC_HI f) 0
  let s := (List.range 8).foldl (fun s j => s.pcShow f j 0) s
  let s := (s.setReg (R.FRD_PC_SLOTS_A_RETIRED f).off 0).setReg (R.FRD_PC_SLOTS_B_FRONT f).off 0
  let s := s.setReg (R.FRD_PC_STAT_OVF f).off 0
  s.setReg (R.FRD_PC_ERBSTAT_USED f).off 0

end Sys2Proof.Machine
end

