-- ==== Sys2Proof/Machine/Fec.lean ====
section
/-! DEFINITION. Soft-decision FEC on receive (chapter 7): the iteration budget, the slot account, codeword outcomes,
counters and events. -/
namespace Sys2Proof.Machine

/-! ### Inner decoding, slot T+1 -/

/-- ITER_MAX as applied: 0 as 1, above 32 as 32 (Table FEC-5). -/
def State.iterMax (s : State) (f : Nat) : Nat := min 32 (max 1 (s.rd (R.FRD_FEC_CTL_ITER_MAX f)))

/-- The iteration cap of R460: 32, 24 or 16. -/
def State.iterCap (s : State) (f : Nat) : Nat := 32 - 8 * s.rd (R.PWR_CAP f)

/-- The most iterations per codeword in force: min(ITER_MAX, cap). -/
def State.iterLimit (s : State) (f : Nat) : Nat := min (s.iterMax f) (s.iterCap f)

/-- The budget of R169: the slots spent, in slot order, as (pass, codeword). `settle t`: the pass at whose end codeword t
is settled. -/
def slotOrder (w limit : Nat) (settle : Nat → Option Nat) : List (Nat × Nat) :=
  let base := min limit (14000 / w)
  ((List.range limit).foldl (fun (acc : Nat × List (Nat × Nat)) p0 =>
    let pass := p0 + 1
    (List.range w).foldl (fun (acc : Nat × List (Nat × Nat)) t =>
      if (settle t).any (fun q => decide (q < pass)) then acc
      else if base < pass ∧ 14000 ≤ acc.1 then acc
      else (acc.1 + 1, (pass, t) :: acc.2)) acc) (0, [])).2.reverse

/-- The erased bits of a superframe, ascending: those of the sub-carriers that R139 zeroes and those given. -/
def erasedBits (n : Nat) (codes zeroed given : List Nat) : List Nat :=
  (List.range (fecC n)).filter fun i => given.contains i || zeroed.contains (lineSlot codes (linePosition n i)).1

/-- Their number: a zeroed sub-carrier with code c carries 305 blocks of 25 c coded bits. -/
def erasedCount (n : Nat) (codes zeroed given : List Nat) : Nat :=
  (zeroed.map fun k => 7625 * codes.getD k 0).sum +
    (given.filter fun i => !zeroed.contains (lineSlot codes (linePosition n i)).1).length

/-- FEC_POOL_EMPTY and its count. -/
def State.poolEmpty (s : State) (f left : Nat) : State :=
  let s := s.bump (R.FRD_FEC_EVT_POOL_EMPTY f) 1
  if (s.frond f).fec.poolTick.any fun t => decide (s.tick < t + 160) then s
  else (s.modFrond f fun x => { x with fec := { x.fec with poolTick := some s.tick } }).raise 0x0502 f [.w left]

/-- INNER_DECODE: the earliest delivered superframe whose slot T+1 has come is decoded within its budget. -/
def execInnerDecode (f : Fin 48) (o : InnerObs) (s : State) : Host.Outcome State Fault Refusal := .next <|
  match (s.frond f.val).fec.arrived with
  | [] => s
  | a :: rest =>
    let n := s.rd (R.FRD_SC_PLAN_N f.val)
    if s.tick ≤ a.stamp ∨ n = 0 then s
    else
      let s := o.dint.foldl (fun s k => s.parityFail (memKey 1 f.val k)) s
      let s := o.work.foldl (fun s k => s.parityFail (memKey 2 f.val k.1)) s
      let w := fecW n
      let limit := if a.stamp + 1 = s.tick then (s.frond f.val).fec.iterWas else s.iterLimit f.val
      let settle := fun t => (o.settle.getD t none).filter fun q => decide (q ≤ limit)
      let order := slotOrder w limit settle
      let used := order.length
      let isSettled := fun t => (settle t).isSome
      let left := ((List.range w).filter fun t => !isSettled t).length
      let retired := order.filter fun p => isSettled p.2
      let wasted := order.filter fun p => !isSettled p.2
      let base := min limit (14000 / w)
      let code := fun (p : Nat × Nat) => p.1 * 2 ^ 26 + p.2
      let most := order.foldl (fun m p => max m p.1) 0
      let erased := erasedCount n a.codes a.zeroed o.erased
      let (mean, s) := s.wholeUnits (16 * used) w
      let s := (s.wr (R.FRD_FEC_ITER_POOL_LEFT f.val) (14000 - used)).wr (R.FRD_FEC_ITER_MAX_ITER f.val) most
      let s := s.wr (R.FRD_FEC_ITER_MEAN f.val) mean
      let (sf, s) := match a.sf with
        | some v => (v, s)
        | none => s.fresh
      let s := s.pcMany f.val 0x02 1 (sf % 2 ^ 24)
      let s := s.pcList f.val 0x08 (retired.map code)
      let s := s.pcList f.val 0x09 (wasted.map code)
      let s := s.pcMany f.val 0x0b (14000 - used) 0
      let s := s.pcList f.val 0x0c ((order.filter fun p => decide (base < p.1)).map code)
      let s := s.pcCount f.val 0x0e erased fun i =>
        (0x3fff, (erasedBits n a.codes a.zeroed o.erased).getD i 0)
      let s := if used = 14000 then (s.pcMany f.val 0x0d 1 left).poolEmpty f.val left else s
      let r : InnerResult := {
        stamp := a.stamp, sf := a.sf, first := a.first, settled := (List.range w).map isSettled
        memFail := o.work.map Prod.snd, erased := erased }
      s.modFrond f.val fun x => { x with
        fec := { x.fec with arrived := rest, inner := x.fec.inner ++ [r] }
        pc := { x.pc with slots := (x.pc.slots.1 + retired.length, x.pc.slots.2.1 + wasted.length,
                                    x.pc.slots.2.2.1 + (14000 - used), x.pc.slots.2.2.2 + 1) } }

/-! ### Outer decoding and outcomes, slot T+2 -/

/-- The outcome of inner codeword `t` (R172): 0 CLEAN, 1 RESCUED, 2 UNCORRECTED. -/
def codewordOutcome (r : InnerResult) (failed : List Nat) (t : Nat) : Nat :=
  if failed.any (fun v => outerOwner v == t) ∨ r.memFail.contains t then 2
  else if r.settled.getD t false then 0 else 1

/-- Adds to 64-bit counter `j`, which wraps (R176). -/
def State.fecCount (s : State) (f j k : Nat) : State :=
  let v := s.rd (R.FRD_FEC_CNT_LO_CNT_LO f j) + 2 ^ 32 * s.rd (R.FRD_FEC_CNT_HI_CNT_HI f j) + k
  (s.wr (R.FRD_FEC_CNT_LO_CNT_LO f j) v).wr (R.FRD_FEC_CNT_HI_CNT_HI f j) (v / 2 ^ 32)

/-- FEC_UNCORRECTED: the UNCORRECTED count of the tick, not raised in the 159 ticks before (R177). -/
def State.fecUncorrected (s : State) (f k : Nat) : State :=
  if k = 0 then s
  else match (s.frond f).fec.uncTick with
    | some t =>
      if t = s.tick then
        { s with host := { s.host with events := s.host.events.map fun e =>
            if e.code == 0x0501 && e.obj == f && e.tick == s.tick then
              { e with vals := e.vals.map fun v => match v with
                | .w n => .w (n + k)
                | v => v }
            else e } }
      else if t + 160 ≤ s.tick then
        (s.modFrond f fun x => { x with fec := { x.fec with uncTick := some s.tick } }).raise 0x0501 f [.w k]
      else s
    | none => (s.modFrond f fun x => { x with fec := { x.fec with uncTick := some s.tick } }).raise 0x0501 f [.w k]

/-- NGMI of the slot (R176) and FEC_NGMI_LOW: 16 consecutive delivered ticks below NGMI_TH or without a value, once per
run (R177). -/
def State.ngmiSlot (s : State) (f : Nat) (valid : Bool) (ngmi : Nat) : State :=
  let s := (s.wrB (R.FRD_FEC_STAT_NGMI_VALID f) valid).wr (R.FRD_FEC_STAT_NGMI f) (if valid then ngmi else 0)
  let low := !valid || decide (ngmi < s.rd (R.FRD_FEC_CTL_NGMI_TH f))
  let x := (s.frond f).fec
  let n := if low then (if x.lowTick = some s.tick ∧ 0 < x.lowRun then x.lowRun else x.lowRun + 1) else 0
  let s := s.modFrond f fun y => { y with fec := { y.fec with
    lowRun := n, lowTick := some s.tick, lowRaised := low && (x.lowRaised || decide (16 ≤ n)) } }
  if decide (16 ≤ n) && !x.lowRaised then s.raise 0x0503 f [.w (s.rd (R.FRD_FEC_STAT_NGMI f))] else s

/-- The FEC's part of OUTER_DECODE: outcomes, counters, events, and what performance monitoring draws from them. -/
def State.outerFec (s : State) (f : Nat) (r : InnerResult) (o : OuterObs) : State :=
  let n := s.rd (R.FRD_SC_PLAN_N f)
  let w := r.settled.length
  let ts := List.range w
  let of' := fun (k : Nat) => ts.filter fun t => codewordOutcome r o.failed t == k
  let clean := of' 0
  let rescued := of' 1
  let unc := of' 2
  let inner := (ts.filter fun t => codewordOutcome r o.failed t != 2).map (fun t => o.diff.getD t 0) |>.sum
  let s := ((s.fecCount f 0 w).fecCount f 1 clean.length).fecCount f 2 rescued.length
  let s := ((s.fecCount f 3 unc.length).fecCount f 4 inner).fecCount f 5 o.corrected.length
  let s := s.fecCount f 6 r.erased
  let s := ((s.pcList f 0x04 ts).pcList f 0x05 clean).pcList f 0x06 rescued
  let s := ((s.pcList f 0x07 unc).pcList f 0x0f o.failed).pcList f 0x10 o.corrected
  let s := (s.fecUncorrected f unc.length).ngmiSlot f (!clean.isEmpty) o.ngmi
  let low := fun (b : FrondBin) => if clean.isEmpty then b else { b with ngmiMin := some (min o.ngmi (b.ngmiMin.getD o.ngmi)) }
  s.modFrond f fun x => { x with pm := { x.pm with
    b15 := low x.pm.b15, b24 := low x.pm.b24
    secCw := x.pm.secCw + w, secUnc := x.pm.secUnc + unc.length, secInner := x.pm.secInner + inner, secSent := x.pm.secSent + fecC n } }

end Sys2Proof.Machine
end

