-- ==== Sys2Proof/Machine/LineFrame.lean ====
section
/-! DEFINITION. The Shuique line frame on receive and transmit (chapter 8): deframing, slice and multiframe alignment,
overhead, line defects, the in-band GCC. -/
namespace Sys2Proof.Machine

/-- Changes the line frame record of frond `f`. -/
def State.modSlf (s : State) (f : Nat) (g : SlfSt → SlfSt) : State := s.modFrond f fun x => { x with slf := g x.slf }

/-! ### Slice alignment (R187) -/

/-- Bytes of a frame. -/
def frameLen : Nat := 15296

/-- The value of byte `i` of a buffer. -/
def bufByte (l : List OhByte) (i : Nat) : Nat := ((l[i]?).map fun b => b.1.toNat).getD 0

/-- FAS bytes 2..5 stand at `i .. i + 3`. -/
def fasMid (l : List OhByte) (i : Nat) : Bool :=
  bufByte l i == 0xf6 && bufByte l (i + 1) == 0xf6 && bufByte l (i + 2) == 0x28 && bufByte l (i + 3) == 0x28

/-- The first index at which FAS bytes 2..5 stand whole. -/
def findFas (l : List OhByte) : Option Nat := (List.range (l.length - 3)).find? (fasMid l)

/-- A frame of a slice: the position of its first byte against the first slice byte of the superframe in hand, whether
its start was checked in this superframe, its MFAS, the bytes it has so far. -/
structure SliceFrame where
  pos : Int
  fresh : Bool
  mfas : Nat
  bytes : List OhByte

/-- Alignment over the bytes held, with FA_M and FA_N: the slice as it stands after them and the frames seen in frame.
`pos`: the position of the first byte of `buf`. -/
def alignSlice (faM faN : Nat) : Nat → SliceFa → Int → List SliceFrame → SliceFa × List SliceFrame
  | 0, x, _, acc => (x, acc)
  | fuel + 1, x, pos, acc =>
    if x.st = 0 then
      match findFas x.buf with
      | none => ({ x with buf := x.buf.drop (x.buf.length - 3) }, acc)
      | some p =>
        let buf := if p = 0 then (0, false) :: x.buf else x.buf.drop (p - 1)
        let pos := pos + p - 1
        if faN ≤ 1 then
          alignSlice faM faN fuel { st := 2, count := 0, buf := buf } pos
            (acc ++ [⟨pos, true, bufByte buf 6, buf.take frameLen⟩])
        else alignSlice faM faN fuel { st := 1, count := 1, buf := buf } pos acc
    else if x.st = 1 then
      let at' := frameLen * x.count
      if x.buf.length < at' + 7 then (x, acc)
      else if fasMid x.buf (at' + 1) then
        if faN ≤ x.count + 1 then
          let buf := x.buf.drop at'
          alignSlice faM faN fuel { st := 2, count := 0, buf := buf } (pos + at')
            (acc ++ [⟨pos + at', true, bufByte buf 6, buf.take frameLen⟩])
        else alignSlice faM faN fuel { x with count := x.count + 1 } pos acc
      else alignSlice faM faN fuel { st := 0, count := 0, buf := x.buf.drop 2 } (pos + 2) acc
    else
      if x.buf.length < frameLen + 7 then (x, acc)
      else
        let bad := !(bufByte x.buf (frameLen + 2) == 0xf6 && bufByte x.buf (frameLen + 3) == 0x28)
        let buf := x.buf.drop frameLen
        if bad && decide (faM ≤ x.count + 1) then
          alignSlice faM faN fuel { st := 0, count := 0, buf := buf.drop 6 } (pos + frameLen + 6) acc
        else
          alignSlice faM faN fuel { x with count := if bad then x.count + 1 else 0, buf := buf } (pos + frameLen)
            (acc ++ [⟨pos + frameLen, true, bufByte buf 6, buf.take frameLen⟩])

/-- One superframe's bytes of a slice. A frame in progress is seen again with the bytes it has gained. -/
def sliceRun (faM faN : Nat) (x : SliceFa) (new : List OhByte) : SliceFa × List SliceFrame :=
  let pos : Int := -(x.buf.length : Int)
  let y := { x with buf := x.buf ++ new }
  let held := if x.st = 2 then [⟨pos, false, bufByte y.buf 6, y.buf.take frameLen⟩] else []
  alignSlice faM faN (x.buf.length + new.length + 2) y pos held

/-- FA_M, FA_N, MF_M and MF_N as applied (Table SLF-12). -/
def State.faM (s : State) (f : Nat) : Nat := max 2 (s.rd (R.FRD_SLF_CTL_FA_M f))
def State.faN (s : State) (f : Nat) : Nat := max 1 (s.rd (R.FRD_SLF_CTL_FA_N f))
def State.mfM (s : State) (f : Nat) : Nat := max 2 (s.rd (R.FRD_SLF_CTL_MF_M f))
def State.mfN (s : State) (f : Nat) : Nat := max 1 (s.rd (R.FRD_SLF_CTL_MF_N f))

/-! ### Layer defects -/

/-- The layer's defects are evaluated: SM and PM always, a TCM level when OPERATIONAL. -/
def State.layerOn (s : State) (f l : Nat) : Bool := decide (l < 2) || (s.layer f l).mode

/-- Declares or clears dTIM of layer `l`. -/
def State.setTim (s : State) (f l : Nat) (on : Bool) : State :=
  if on && !s.defectsOn f then s
  else if l = 0 then s.setDefect f 4 on
  else if l = 1 then s.setDefect f 7 on
  else if (s.layer f l).dTim = on then s
  else (s.setLayer f l { s.layer f l with dTim := on }).tcmEvent f l 1 on

/-- Declares or clears dBDI of layer `l`. -/
def State.setBdi (s : State) (f l : Nat) (on : Bool) : State :=
  if on && !s.defectsOn f then s
  else if l = 0 then s.setDefect f 5 on
  else if l = 1 then s.setDefect f 8 on
  else if (s.layer f l).dBdi = on then s
  else (s.setLayer f l { s.layer f l with dBdi := on }).tcmEvent f l 2 on

/-- Declares or clears dDEG of layer `l`. -/
def State.setDeg (s : State) (f l : Nat) (on : Bool) : State :=
  if on && !s.defectsOn f then s
  else if l = 0 then s.setDefect f 6 on
  else if l = 1 then s.setDefect f 9 on
  else if (s.layer f l).dDeg = on then s
  else (s.setLayer f l { s.layer f l with dDeg := on }).tcmEvent f l 3 on

/-- TIM_MODE of a layer. -/
def State.timMode (s : State) (f l : Nat) : Nat :=
  if l = 0 then s.rd (R.FRD_SLF_CTL_TIMMODE_SM f) else s.rd (R.FRD_SLF_CTL_TIMMODE_PM f)

/-- Two TTIs differ in the parts that a mode selects: SAPI is bytes 0..15, DAPI 16..31 (R193). -/
def ttiDiffers (mode : Nat) (a b : List Byte) : Bool :=
  (mode % 2 == 1 && a.take 16 != b.take 16) || (2 ≤ mode && (a.drop 16).take 16 != (b.drop 16).take 16)

/-- dTIM of layer `l` as the accepted TTI, the expected TTI and the mode stand. -/
def State.evalTim (s : State) (f l : Nat) : State :=
  let x := s.layer f l
  match x.ttiAcc with
  | some a => s.setTim f l (s.layerOn f l && ttiDiffers (s.timMode f l) a x.ttiExp)
  | none => s.setTim f l false

/-- What the STAT of a PM or TCM layer declares (R196). -/
def State.setStat (s : State) (f l v : Nat) : State :=
  let on := s.defectsOn f
  if l = 1 then
    ((s.setDefect f 11 (on && v == 5)).setDefect f 12 (on && v == 6)).setDefect f 10 (on && v == 7)
  else
    let x := s.layer f l
    let any := x.dAis || x.dLck || x.dOci
    let y := { x with dLck := on && v == 5, dOci := on && v == 6, dAis := on && v == 7, dLtc := on && v == 0 }
    let s := s.setLayer f l y
    let s := if x.dLtc != y.dLtc then s.tcmEvent f l 0 y.dLtc else s
    let now := y.dAis || y.dLck || y.dOci
    if any != now then s.tcmEvent f l 4 now else s.updateTcmDef f

/-! ### Overhead of the aligned frames (R192..R197) -/

/-- A TTI byte at index `idx` of its 64-frame period. -/
def State.ohTti (s : State) (f l idx : Nat) (b : OhByte) : State :=
  let x := s.layer f l
  let (rx, good) :=
    if idx = 0 then ([b.1], !b.2)
    else if x.ttiRx.length = idx then (x.ttiRx ++ [b.1], x.ttiGood && !b.2)
    else ([], true)
  let broken := decide (idx ≠ 0 ∧ x.ttiRx.length ≠ idx)
  let x := { x with ttiRx := rx, ttiGood := good, ttiSame := if broken then 0 else x.ttiSame }
  if rx.length < 64 then s.setLayer f l x
  else
    let x := { x with ttiRx := [] }
    if !good then s.setLayer f l x
    else
      let same := if x.ttiPrev = rx then x.ttiSame + 1 else 1
      let x := { x with ttiPrev := rx, ttiSame := same }
      if 3 ≤ same ∧ x.ttiAcc ≠ some rx then
        ((s.setLayer f l { x with ttiAcc := some rx }).raise 0x0603 f [.w l]).evalTim f l
      else s.setLayer f l x

/-- Bits in which two BIP-8 values differ. -/
def bipViolations (a b : Nat) : Nat := ((List.range 8).filter fun i => (a ^^^ b) / 2 ^ i % 2 == 1).length

/-- BIP-8 of a frame: the exclusive-or of columns 15..3,824 of its 4 rows (R194). -/
def frameBip (l : List OhByte) : Nat :=
  (List.range 4).foldl (fun v r => (((l.drop (3824 * r + 14)).take 3810).foldl (fun v b => v ^^^ b.1.toNat) v)) 0

/-- The BIP-8 bytes of layer `l`, one for each slice: violations, the errored block, what BEI will report. -/
def State.ohBip (s : State) (f l : Nat) (bytes : List OhByte) (expect : List (Option Nat)) : State :=
  let v := (bytes.zip expect).map fun p => if p.1.2 then 0 else (p.2.map (bipViolations p.1.1.toNat)).getD 0
  let x := s.layer f l
  let bad := if v.any (· != 0) then 1 else 0
  let s := s.setLayer f l { x with
    blocks := x.blocks + bad, pmBad := x.pmBad + bad
    pmN := x.pmN + (if (bytes.zip expect).any (fun p => !p.1.2 && p.2.isSome) then 1 else 0) }
  let put := fun (t : Tab Nat) (p : Nat × Nat) =>
    Tab.set (fun _ => 0) t (32 * l + p.2) (Tab.get (fun _ => 0) t (32 * l + p.2) + p.1)
  s.modSlf f fun y => { y with beiSum := v.zipIdx.foldl put y.beiSum }

/-- The bytes with BEI, BDI and STAT of layer `l`, one for each slice. -/
def State.ohThird (s : State) (f l : Nat) (bytes : List OhByte) : State :=
  let far := bytes.any fun b => !b.2 && decide (1 ≤ b.1.toNat / 16) && decide (b.1.toNat / 16 ≤ 8)
  let x := s.layer f l
  let bad := if far then 1 else 0
  let s := s.setLayer f l { x with
    farBlocks := x.farBlocks + bad, pmFarBad := x.pmFarBad + bad
    pmFarN := x.pmFarN + (if bytes.any (fun b => !b.2) then 1 else 0) }
  match bytes.head? with
  | none => s
  | some (b, true) => let _ := b; s
  | some (b, false) =>
    let bdi := decide (b.toNat / 8 % 2 = 1)
    let x := s.layer f l
    let x := { x with bdiOn := if bdi then x.bdiOn + 1 else 0, bdiOff := if bdi then 0 else x.bdiOff + 1 }
    let s := s.setLayer f l x
    let s := if 5 ≤ x.bdiOn then s.setBdi f l true else if 5 ≤ x.bdiOff then s.setBdi f l false else s
    if l = 0 then s
    else
      let v := b.toNat % 8
      let x := s.layer f l
      let run := if v = x.statCand then x.statRun + 1 else 1
      let x := { x with statCand := v, statRun := run }
      if run < 3 then s.setLayer f l x
      else
        let acc := if v = 3 ∨ v = 4 then x.statAcc else if v = 2 then 1 else v
        (s.setLayer f l { x with statAcc := acc }).setStat f l acc

/-- One multiframe's value of a PSI field `key`: the value newly accepted after 3 in a row, when it changes (R197). -/
def State.psiStep (s : State) (f key v : Nat) : State × Option Nat :=
  let x := Tab.get (fun _ => {}) (s.frond f).slf.psi key
  let run := if 0 < x.run ∧ x.cand = v then x.run + 1 else 1
  let x := { x with cand := v, run := run }
  let take := decide (3 ≤ run) && x.acc != some v
  let x := if take then { x with acc := some v } else x
  (s.modSlf f fun y => { y with psi := Tab.set (fun _ => {}) y.psi key x }, if take then some v else none)

/-- The PT byte of one multiframe: PT_ACCEPTED and dPLM. -/
def State.ohPt (s : State) (f : Nat) (b : OhByte) : State :=
  if b.2 then s
  else
    let (s, r) := s.psiStep f 0 b.1.toNat
    match r with
    | some v => (s.raise 0x0604 f [.w v]).setDefect f 13 (s.defectsOn f && v != 0x22)
    | none => s

/-- The owner of slot `i` of server `id` of kind `k` (0 frond, 1 FlexO interface, 2 HO ODU4), plus 1; 0 for none. -/
def State.slotEntry (s : State) (k id i : Nat) : Nat := Tab.get (fun _ => 0) s.slotOwner (k * 2 ^ 40 + id * 2 ^ 12 + i)

/-- dMSIM of a slot: its accepted MSI against its entry in the tributary slot table (R197). -/
def State.evalMsi (s : State) (f slot : Nat) : State :=
  match (Tab.get (fun _ => {}) (s.frond f).slf.psi (1000 + slot)).acc with
  | none => s
  | some v =>
    let bad := s.defectsOn f && v != Config.msiOf (s.slotEntry 0 f slot)
    let had := (s.frond f).slf.dMsim.contains slot
    if bad = had then s
    else
      let l := if bad then insertBy (fun a b => decide (a ≤ b)) slot (s.frond f).slf.dMsim
        else (s.frond f).slf.dMsim.filter (· != slot)
      let s := (s.modSlf f fun y => { y with dMsim := l }).wrB (R.FRD_SLF_DEF_MSIM f) (!l.isEmpty)
      s.raise (if bad then 0x0601 else 0x0602) f [.w 14, .w slot]

/-- The MSI of a slot in one multiframe. -/
def State.ohMsi (s : State) (f : Nat) (p : Nat × Nat) : State := ((s.psiStep f (1000 + p.1) p.2).1).evalMsi f p.1

/-- The frame positions of the three bytes of a layer (Table SLF-5). -/
def layerPos : Nat → Nat
  | 0 => 7
  | 1 => 2 * 3824 + 9
  | 2 => 2 * 3824 + 6
  | 3 => 2 * 3824 + 3
  | 4 => 2 * 3824
  | 5 => 3824 + 10
  | 6 => 3824 + 7
  | _ => 3824 + 4

/-- The frame positions of the selected channel (R203). -/
def gccPos (sel : Nat) : List Nat :=
  if sel = 1 then [10, 11] else if sel = 2 then [11472, 11473] else if sel = 3 then [11474, 11475]
  else if sel = 4 then [11472, 11473, 11474, 11475] else []

/-- The overhead of one aligned frame that arrived in this superframe: byte `p` of the frame did when `pos + p` is not
negative and the byte is there. -/
def State.ohFrame (s : State) (f : Nat) (frames : List SliceFrame) : State :=
  match frames.head? with
  | none => s
  | some fr =>
    let here := fun (p : Nat) => decide (0 ≤ fr.pos + p) && decide (p < fr.bytes.length)
    let col := fun (p : Nat) => frames.map fun x => (x.bytes[p]?).getD (0, true)
    let byte := fun (p : Nat) => (fr.bytes[p]?).getD (0, true)
    let expect := (List.range frames.length).map fun i =>
      ((Tab.get (fun _ => {}) (s.frond f).slf.slices i).bip)[1]?
    let mfEn := s.flag (R.FRD_SLF_CTL_MF_EN f)
    let indexed := !mfEn || (s.frond f).slf.inMf
    let idx := if mfEn then (s.frond f).slf.mfIdx else fr.mfas
    let s := [0, 7, 6, 5, 4, 3, 2, 1].foldl (fun s l =>
      if !s.layerOn f l then s
      else
        let p := layerPos l
        let s := if here p && indexed then s.ohTti f l (idx % 64) (byte p) else s
        let s := if here (p + 1) then s.ohBip f l (col (p + 1)) expect else s
        if here (p + 2) then s.ohThird f l (col (p + 2)) else s) s
    let s := (gccPos (s.rd (R.FRD_SLF_CTL_GCC_SEL f))).foldl (fun s p =>
      if here p then s.modSlf f fun y => { y with gccRx := y.gccRx ++ [byte p] } else s) s
    if here 11486 && indexed && idx == 0 then s.ohPt f (byte 11486) else s

/-- Multiframe alignment at an aligned frame start (R189). -/
def State.mfStep (s : State) (f mfas : Nat) : State :=
  let x := (s.frond f).slf
  if !s.flag (R.FRD_SLF_CTL_MF_EN f) then s.modSlf f fun y => { y with inMf := false, lastMfas := mfas }
  else
    let follows := decide (mfas = (x.lastMfas + 1) % 256)
    let cnt := if follows then x.mfCount + 1 else 0
    let miss := if follows then 0 else x.mfMiss + 1
    let idx := (x.mfIdx + 1) % 256
    let (inMf, idx) :=
      if x.inMf then (decide (miss < s.mfM f), idx)
      else if s.mfN f ≤ cnt then (true, mfas) else (false, mfas)
    s.modSlf f fun y => { y with
      inMf := inMf, mfIdx := idx, mfCount := cnt, lastMfas := mfas
      mfMiss := if x.inMf && !inMf then 0 else miss }

/-- The OTUCn leaves frame: multiframe alignment is lost, and what the channel carried is cut. -/
def State.frameLost (s : State) (f : Nat) : State :=
  s.modSlf f fun y => { y with inFrame := false, inMf := false, mfCount := 0, mfMiss := 0, gccRx := y.gccRx ++ [(0, true)] }

/-- One frame start of the superframe, with the frames of every slice there. -/
def State.frameStart (s : State) (f n : Nat) (p : Int) (runs : List (List SliceFrame)) : State :=
  let at' := runs.filterMap fun l => l.find? fun x => decide (x.pos = p)
  let fresh := at'.any SliceFrame.fresh
  let mf := (at'.head?.map SliceFrame.mfas).getD 0
  let ok := decide (at'.length = n) && at'.all fun x => x.mfas == mf
  let s := if !fresh then s
    else if ok then (s.modSlf f fun y => { y with inFrame := true }).mfStep f mf
    else (s.frameLost f).modSlf f fun y => { y with tickAllIf := false }
  if ok && (s.frond f).slf.inFrame then
    let s := s.ohFrame f at'
    at'.zipIdx.foldl (fun s q =>
      if q.1.bytes.length = frameLen then
        s.modSlf f fun y =>
          let z := Tab.get (fun _ => {}) y.slices q.2
          { y with slices := Tab.set (fun _ => {}) y.slices q.2 { z with bip := (frameBip q.1.bytes :: z.bip).take 2 } }
      else s) s
  else s

/-- Puts every slice out of frame at the first byte of the superframe (R186). -/
def State.discontinuity (s : State) (f : Nat) : State :=
  let s := s.bump (R.FRD_SLF_CNT_DISCONT f) 1
  let s := s.modSlf f fun y => { y with slices := [], tickAllIf := false }
  s.frameLost f

/-- OTUCN_IF, OTUCN_IM and SLICE_OOF follow the alignment (Table SLF-17). -/
def State.slfStat (s : State) (f n : Nat) : State :=
  let x := (s.frond f).slf
  let s := (s.wrB (R.FRD_SLF_STAT_OTUCN_IF f) x.inFrame).wrB (R.FRD_SLF_STAT_OTUCN_IM f) x.inMf
  s.wr (R.FRD_SLF_STAT_SLICE_OOF f) ((List.range 24).map fun i =>
    if i < n && (Tab.get (fun _ => {}) x.slices i).st == 2 then 0 else 2 ^ i).sum

/-- A payload byte carries an errored mark: one of its bits lies in a failed outer codeword (R173), or its buffer byte
failed parity. -/
def payloadMark (o : OuterObs) (byte : Nat) : Bool :=
  o.failed.contains (8 * byte / 2014) || o.failed.contains ((8 * byte + 7) / 2014) || o.frame.any fun p => p.2 == byte

/-- Deframing of one superframe (R181..R190). -/
def State.deframe (s : State) (f : Nat) (r : InnerResult) (o : OuterObs) : State :=
  let n := s.rd (R.FRD_SC_PLAN_N f)
  let s := o.frame.foldl (fun s p => s.parityFail (memKey 3 f p.1)) s
  let copies := (List.range 8).map fun i =>
    if payloadMark o 64 then none else some (decide (o.boh / 2 ^ (504 + i) % 2 = 1))
  let just := receivedJust copies r.sf
  let s := if justDisagree copies r.sf then s.bump (R.FRD_SLF_CNT_JC_DISAGREE f) 1 else s
  let s := s.wr (R.FRD_SLF_STAT_FAR_ACQ f) (o.boh / 2 ^ 503 % 2)
  let s := match Lof.ofWord (o.boh / 2 ^ 512 % 2 ^ 512) with
    | some l => s.takeLof f r.stamp l
    | none => s
  let s := if r.first then s.discontinuity f else s
  let runs := (List.range n).map fun i =>
    let raw := ((o.slices.getD i []).take (if just then 82233 else 82232)).zipIdx.map fun b =>
      (b.1, payloadMark o (128 + b.2 * n + i))
    sliceRun (s.faM f) (s.faN f) (Tab.get (fun _ => {}) (s.frond f).slf.slices i) raw
  let put := fun (t : Tab SliceFa) (p : (SliceFa × List SliceFrame) × Nat) => Tab.set (fun _ => {}) t p.2 p.1.1
  let s := s.modSlf f fun y => { y with slices := runs.zipIdx.foldl put y.slices }
  let starts := (runs.flatMap fun x => x.2.map SliceFrame.pos).foldl (fun (l : List Int) p =>
    if l.contains p then l else insertBy (fun a b => decide (a ≤ b)) p l) []
  let s := starts.foldl (fun s p => s.frameStart f n p (runs.map Prod.snd)) s
  let s := if (s.frond f).slf.inFrame && runs.any fun x => x.1.st != 2 then
      (s.frameLost f).modSlf f fun y => { y with tickAllIf := false } else s
  let s := o.msi.foldl (fun s p => s.ohMsi f p) s
  s.slfStat f n

/-- OUTER_DECODE: the earliest superframe whose slot T+2 has come: codeword outcomes and counters, then the line frame.
With the line function stopped nothing is deframed. -/
def execOuterDecode (f : Fin 48) (o : OuterObs) (s : State) : Host.Outcome State Fault Refusal := .next <|
  match (s.frond f.val).fec.inner with
  | [] => s
  | r :: rest =>
    if s.tick < r.stamp + 2 then s
    else
      let s := s.modFrond f.val fun x => { x with fec := { x.fec with inner := rest } }
      let s := s.outerFec f.val r o
      if s.lineRun f.val then s.deframe f.val r o else s

/-! ### Tick-based defects (R188, R189, R198, R199) -/

/-- DLOF: the end of a tick. dLOF after 480 ticks out of frame, cleared after 480 in frame. -/
def execDlof (f : Fin 48) (s : State) : Host.Outcome State Fault Refusal := .next <|
  if !s.defectsOn f.val then s
  else
    let x := (s.frond f.val).slf
    let good := x.tickAllIf && x.inFrame
    let out := x.oofRun.step s.tick (!good)
    let ok := x.ifRun.step s.tick good
    let s := s.modSlf f.val fun y => { y with oofRun := out, ifRun := ok }
    if 480 ≤ out.n then s.setDefect f.val 2 true
    else if 480 ≤ ok.n then s.setDefect f.val 2 false
    else s

/-- DLOM: the end of a tick; with MF_EN = 0 there is no dLOM. -/
def execDlom (f : Fin 48) (s : State) : Host.Outcome State Fault Refusal := .next <|
  if !s.defectsOn f.val then s
  else if !s.flag (R.FRD_SLF_CTL_MF_EN f.val) then s.setDefect f.val 3 false
  else
    let x := (s.frond f.val).slf
    let out := x.omRun.step s.tick (!x.inMf)
    let ok := x.imRun.step s.tick x.inMf
    let s := s.modSlf f.val fun y => { y with omRun := out, imRun := ok }
    if 480 ≤ out.n then s.setDefect f.val 3 true
    else if 480 ≤ ok.n then s.setDefect f.val 3 false
    else s

/-- DLOA: the end of a tick: declared when the acquisition state is not ACQUIRED, MUTE = 0 and the function runs. -/
def execDloa (f : Fin 48) (s : State) : Host.Outcome State Fault Refusal := .next <|
  if s.defectsOn f.val then s.setDefect f.val 1 (s.acqState f.val != 5) else s

/-- DEGM and DEGTHR as applied (Table SLF-13). -/
def State.degM (s : State) (f : Nat) : Nat := min 10 (max 2 (s.rd (R.FRD_SLF_DEG_DEGM f)))
def State.degThr (s : State) (f : Nat) : Nat := max 1 (s.rd (R.FRD_SLF_DEG_DEGTHR f))

/-- The second of one layer: `ssf`, aSSF of the layer in the second. -/
def State.degLayer (s : State) (f l : Nat) (ssf : Bool) : State :=
  let x := s.layer f l
  let bad := decide (s.degThr f ≤ x.blocks)
  let y := if ssf then { x with blocks := 0, farBlocks := 0 }
    else { x with
      blocks := 0, farBlocks := 0
      badRun := if bad then x.badRun + 1 else 0
      goodRun := if bad then 0 else x.goodRun + 1 }
  let s := s.setLayer f l y
  if ssf || !s.layerOn f l then s
  else if s.degM f ≤ y.badRun then s.setDeg f l true
  else if s.degM f ≤ y.goodRun then s.setDeg f l false
  else s

/-- DDEG: the end of a second, an interval of 160,000 ticks. -/
def execDdeg (f : Fin 48) (s : State) : Host.Outcome State Fault Refusal := .next <|
  if (s.tick + 1) % 160000 ≠ 0 then s
  else
    let ssf := (s.frond f.val).slf.ssfSecond || s.aSsf f.val
    let s := (List.range 8).foldl (fun s l => s.degLayer f.val l ssf) s
    s.modSlf f.val fun y => { y with ssfSecond := false }

/-! ### The in-band GCC (R203..R206) -/

/-- The bytes of a GCC frame (Table SLF-9). -/
def GccFrame.bytes (g : GccFrame) (seq : Nat) : List Byte :=
  let head := [0xc5, 0x3a, BitVec.ofNat 8 g.typ, 0] ++ natBe 2 g.payload.length ++ natBe 2 seq
  head ++ natBe 2 (crc16 (bitsOfBytes head)) ++ g.payload ++ natBe 4 (crc32c g.payload)

/-- What the head of the received channel gives: nothing yet, entries to drop with a count (0 none, 1 HCRC_ERR,
2 PCRC_ERR), or a frame with its SEQ. -/
inductive GccHead where
  | wait
  | drop (n count : Nat)
  | frame (n : Nat) (g : GccFrame) (seq : Nat)

/-- The index after the first unusable entry among the first `n`. -/
def cutAt (l : List OhByte) (n : Nat) : Option Nat := ((l.take n).findIdx? Prod.snd).map (· + 1)

/-- Reads the head of the channel (R205). -/
def gccHead (l : List OhByte) : GccHead :=
  match l with
  | [] => .wait
  | b :: _ =>
    if b.2 || b.1 != 0xc5 then .drop 1 0
    else match l[1]? with
      | none => .wait
      | some c =>
        if c.2 then .drop 2 0
        else if c.1 != 0x3a then .drop 1 0
        else match cutAt l 10 with
          | some k => .drop k 0
          | none =>
            if l.length < 10 then .wait
            else
              let h := (l.take 10).map Prod.fst
              let len := beNat ((h.drop 4).take 2)
              if crc16 (bitsOfBytes (h.take 8)) ≠ beNat (h.drop 8) ∨ 4352 < len then .drop 1 1
              else match cutAt l (14 + len) with
                | some k => .drop k 0
                | none =>
                  if l.length < 14 + len then .wait
                  else
                    let pay := ((l.drop 10).take len).map Prod.fst
                    if crc32c pay ≠ beNat (((l.drop (10 + len)).take 4).map Prod.fst) then .drop (14 + len) 2
                    else .frame (14 + len) { typ := (h.getD 2 0).toNat, payload := pay } (beNat ((h.drop 6).take 2))

/-- GCC_RX_DROP, at most once per 160 ticks per frond, with the frames dropped since the last one. -/
def State.gccDrop (s : State) (f : Nat) : State :=
  let acc := Tab.get (fun _ => 0) s.host.gccDrops f
  let last := match Tab.get (fun _ => 0) s.host.gccDropTick f with
    | 0 => none
    | t + 1 => some t
  let (s, t, n) := s.rateEvent 0x0c03 f 160 last acc 1
  { s with host := { s.host with
      gccDrops := Tab.set (fun _ => 0) s.host.gccDrops f n
      gccDropTick := Tab.set (fun _ => 0) s.host.gccDropTick f ((t.map (· + 1)).getD 0) } }

/-- A MGMT frame goes into the oldest posted buffer and GCC_RX is raised; without one, or with the PF's event ring not
enabled, it is dropped (R333, R334). -/
def State.gccMgmt (s : State) (f : Nat) (g : GccFrame) (seq : Nat) : State :=
  match s.host.posted with
  | (tag, addr) :: rest =>
    if s.flag (R.HST_FN_CTL_EQ_EN 0) then
      let s := { s with host := { s.host with posted := rest } }
      (s.hostWrite 0 (.data 0 addr g.payload)).raise 0x0c02 f [.w tag, .w g.payload.length, .w seq]
    else s.gccDrop f
  | [] => s.gccDrop f

/-- A received frame by its type (Table SLF-10). -/
def State.gccDeliver (s : State) (f : Nat) (g : GccFrame) (seq : Nat) : State :=
  if g.typ = 1 then s.gccMgmt f g seq
  else if g.typ = 2 ∨ g.typ = 3 then s.modSlf f fun y => { y with gccFwRx := y.gccFwRx ++ [g] }
  else s.bump (R.FRD_SLF_GCC_UNKNOWN f) 1

/-- Hunts until a frame is received or the bytes run out. -/
def State.gccHunt (s : State) (f : Nat) : Nat → State
  | 0 => s
  | fuel + 1 =>
    match gccHead (s.frond f).slf.gccRx with
    | .wait => s
    | .drop n c =>
      let s := s.modSlf f fun y => { y with gccRx := y.gccRx.drop n }
      let s := if c = 1 then s.bump (R.FRD_SLF_GCC_HCRC_ERR f) 1
        else if c = 2 then s.bump (R.FRD_SLF_GCC_PCRC_ERR f) 1 else s
      s.gccHunt f fuel
    | .frame n g seq => (s.modSlf f fun y => { y with gccRx := y.gccRx.drop n }).gccDeliver f g seq

/-- GCC_FRAME_RECEIVE: the next frame of the received channel is checked and handed to its consumer. -/
def execGccFrameReceive (f : Fin 48) (s : State) : Host.Outcome State Fault Refusal := .next <|
  s.gccHunt f.val ((s.frond f.val).slf.gccRx.length + 1)

/-- GCC_FRAME_TRANSMIT: a frame boundary of the channel: a waiting firmware frame goes first, but at most one between two
host frames (R206). -/
def execGccFrameTransmit (f : Fin 48) (s : State) : Host.Outcome State Fault Refusal := .next <|
  let x := (s.frond f.val).slf
  if !s.lineRun f.val || (gccPos (s.rd (R.FRD_SLF_CTL_GCC_SEL f.val))).isEmpty then s
  else
    let send := fun (g : GccFrame) (y : SlfSt) => (s.modSlf f.val fun _ => { y with
      gccSeq := (x.gccSeq + 1) % 65536 }).emit (.gcc f.val (g.bytes x.gccSeq))
    match x.gccFw, x.gccHost with
    | g :: fw, [] => send g { x with gccFw := fw, gccLastFw := true }
    | g :: fw, h :: hs =>
      if x.gccLastFw then send h { x with gccHost := hs, gccLastFw := false }
      else send g { x with gccFw := fw, gccLastFw := true }
    | [], h :: hs => send h { x with gccHost := hs, gccLastFw := false }
    | [], [] => s

/-- A stop of the line function discards every queued frame; host frames count in TX_DROP (R206). -/
def State.gccStop (s : State) (f : Nat) : State :=
  let n := (s.frond f).slf.gccHost.length
  let s := s.modSlf f fun y => { y with gccHost := [], gccFw := [], gccLastFw := false, gccRx := [], gccSeq := 0 }
  s.bump (R.FRD_SLF_GCC_TX_DROP f) n

/-! ### Transmit (R174, R183, R185, R194) -/

/-- SLF_FRAME_ENCODE: slot T+2 of a superframe; `poison`: the poisoned payload bits, each encoded as 0 and counted
(R174). BEI reports what the received frames gathered (R194), 0 while aSSF holds; BDI follows Table SLF-7. -/
def execSlfFrameEncode (f : Fin 48) (poison : List Nat) (s : State) : Host.Outcome State Fault Refusal := .next <|
  if !s.lineRun f.val then s
  else
    let s := (s.bump (R.FRD_FEC_EVT_TX_POISON f.val) poison.length).pcList f.val 0x15 poison
    let x := (s.frond f.val).slf
    let ssf := s.aSsf f.val
    let bei := if ssf then [] else x.beiSum.map fun p => (p.1, min 8 p.2)
    let bdi := [s.sendSmBdi f.val, s.sendPmBdi f.val] ++ (List.range 6).map fun l => s.sendTcmBdi f.val (l + 2)
    s.modSlf f.val fun y => { y with beiSum := [], txBei := bei, txBdi := bdi }

/-- TX_ASSEMBLY: slot T+3 forms the header of the superframe sent in the next tick (R178). -/
def execTxAssembly (f : Fin 48) (s : State) : Host.Outcome State Fault Refusal := .next <|
  if s.lineRun f.val then
    s.modSlf f.val fun y => { y with txHeader := (s.txHeader f.val (s.tick + 1)).word }
  else s

/-- SUPERFRAME_TRANSMIT: the superframe of this tick is sent; `clipped`: the clamped DAC samples, each as cycle and
channel (R151). Its body overhead carries the LOF, the justification bit and RX_ACQ (Table SLF-3). -/
def execSuperframeTransmit (f : Fin 48) (clipped : List (Nat × Nat)) (s : State) : Host.Outcome State Fault Refusal :=
  .next <|
  if !s.lineRun f.val then s
  else
    let s := s.modSlf f.val fun y => { y with
      txBoh := bohWord (s.txLof f.val s.tick) (justBit s.tick) y.acqBoundary }
    let s := s.pcMany f.val 0x14 1 (s.tick % 2 ^ 24)
    let s := s.pcCount f.val 0x16 clipped.length fun i => clipped.getD i (0, 0)
    if clipped.isEmpty then s else s.wrB (R.FRD_TX_STAT_CLIP f.val) true

end Sys2Proof.Machine
end

