-- ==== Sys2Proof/Machine/Client.lean ====
section
/-! DEFINITION. Client lanes and ports (chapter 11): set-up, receive states, egress adaptation and replacement. A port is
named by its first lane. -/
namespace Sys2Proof.Machine

/-- The port whose first lane is `p`; client 0 where there is none. -/
def State.port (s : State) (p : Nat) : PortSt := Tab.get (fun _ => {}) s.ports p

/-- Writes a port. -/
def State.setPort (s : State) (p : Nat) (x : PortSt) : State :=
  { s with ports := Tab.set (fun _ => {}) s.ports p x }

/-- A port stands at first lane `p`. -/
def State.portExists (s : State) (p : Nat) : Bool := (s.port p).client != 0

/-- The first lane of the port that owns lane `l`; 0x1FF for none. -/
def State.laneOwner (s : State) (l : Nat) : Nat := s.rd (R.CLT_LANE_STAT_PORT l)

/-- PCS or FEC lanes of a client (Table CLT-2), instances for FlexO-x. -/
def pcsLanes (x : PortSt) : Nat :=
  match x.client with
  | 1 => 4
  | 2 => 8
  | 3 => 16
  | 4 => 32
  | 5 => 16
  | _ => x.inst

/-- The lanes of an Ethernet client in a RATE code (Table CLT-2). -/
def etherWidth : Nat → Nat → Option Nat
  | 1, 1 => some 1
  | 2, 1 => some 2
  | 2, 2 => some 1
  | 3, 1 => some 4
  | 3, 2 => some 2
  | 3, 3 => some 1
  | 4, 1 => some 8
  | 4, 2 => some 4
  | 4, 3 => some 2
  | 5, 1 => some 16
  | 5, 2 => some 8
  | 5, 3 => some 4
  | _, _ => none

/-- The combination is in Table CLT-2 or R275, keeps the placement of R260 and the clock rule of R274. -/
def portFormOk (lane width client rate txclk : Nat) : Bool :=
  decide (lane + width ≤ 288) && decide (txclk ≤ 3) &&
  if client = 6 then
    decide (1 ≤ width) && (rate == 1 || rate == 2) && decide (width * rate ≤ 48) &&
    decide (lane / 48 = (lane + width - 1) / 48) && txclk == 0
  else
    match etherWidth client rate with
    | some w => w == width && lane % width == 0
    | none => false

/-- The lanes of a port. -/
def portLanes (p : Nat) (x : PortSt) : List Nat := (List.range x.width).map (p + ·)

/-- Every lane of the port has signal (R267). -/
def State.portSignal (s : State) (p : Nat) : Bool :=
  (portLanes p (s.port p)).all fun l => s.flag (R.CLT_LANE_STAT_SIG_DET l) && s.flag (R.CLT_LANE_STAT_CDR_LOCK l)

/-- Every PCS lane, FEC lane or instance is locked. -/
def portLocked (x : PortSt) : Bool := (List.range (pcsLanes x)).all fun k => x.locked.contains k

/-- The receive state (Table CLT-3). -/
def State.portState (s : State) (p : Nat) : Nat :=
  let x := s.port p
  if !x.running then 0
  else if !s.portSignal p || !portLocked x then 1
  else if !x.aligned then 2
  else if x.client = 6 then (if x.gidm || !x.pidm.isEmpty then 2 else 3)
  else if x.blockLock && !x.hiSer then 3 else 2

/-- The OTUCn of a FlexO-x port is in aSSF (R277). -/
def State.portSsf (s : State) (p : Nat) : Bool :=
  let x := s.port p
  x.rxState != 3 || x.dLof || x.dLom

/-- The near-end defect condition of R282. -/
def portDefect (x : PortSt) : Bool := x.rxState != 3 || x.hiSer || (x.client != 6 && x.lf)

/-- CLT_PORT_STAT follows the port (Table CLT-11). -/
def State.portRegs (s : State) (p : Nat) : State :=
  let x := s.port p
  let s := ((s.wr (R.CLT_PORT_STAT_CLIENT p) x.client).wr (R.CLT_PORT_STAT_WIDTH p) x.width).wr (R.CLT_PORT_STAT_INST p) x.inst
  let s := ((s.wr (R.CLT_PORT_STAT_RATE p) x.rate).wr (R.CLT_PORT_STAT_RXSTATE p) x.rxState).wrB (R.CLT_PORT_STAT_RF_RX p) x.rf
  let s := ((s.wrB (R.CLT_PORT_STAT_LF_RX p) x.lf).wrB (R.CLT_PORT_STAT_HI_SER p) x.hiSer).wrB (R.CLT_PORT_STAT_ALIGNED p) x.aligned
  let s := (s.wrB (R.CLT_PORT_STAT_AM_LOCK p) (x.client != 0 && portLocked x)).wrB (R.CLT_PORT_STAT_RUNNING p) x.running
  s.wrB (R.CLT_PORT_STAT_SSF p) (x.client != 0 && portDefect x)

/-- Re-evaluates the receive state: a lane without signal or lock ends alignment and block lock; CLIENT_UP and
CLIENT_DOWN (R270). On entry into UP idles are mapped until a start of packet (R278). -/
def State.updatePort (s : State) (p : Nat) : State :=
  let x := s.port p
  if x.client = 0 then s
  else
    let x := if x.running && s.portSignal p && portLocked x then x else { x with aligned := false, blockLock := false }
    let s := s.setPort p x
    let st := s.portState p
    let s := s.setPort p { x with rxState := st, waitSop := x.waitSop || (st == 3 && x.rxState != 3) }
    let s := if st = 3 ∧ x.rxState ≠ 3 then s.raise 0x0901 p
      else if st ≠ 3 ∧ x.rxState = 3 then s.raise 0x0902 p [.w st] else s
    s.portRegs p

/-! ### Set-up (R260..R262, R274) -/

/-- An endpoint entry names the port at `p`, or one of its tributary slots. -/
def endNames (p : Nat) (e : XcEnd) : Bool := e.kind == 1 && e.id == p

/-- Some endpoint names the port. -/
def State.portNamed (s : State) (p : Nat) : Bool :=
  s.eps.any fun q => q.2.entry.kind != 0 && (endNames p q.2.entry.src || endNames p q.2.entry.dst)

/-- The checks of PORT_SETUP (R261). -/
def chkPortSetup (lane width client rate txclk rclk : Nat) (c : Ctx) (s : State) : List Ck :=
  let busyLane := (List.range width).any fun i => s.laneOwner (lane + i) != 0x1ff && s.laneOwner (lane + i) != lane
  let idxBusy := rclk < 128 && s.ports.any fun q => q.1 != lane && q.2.rclk == some (rclk % 16)
  c.pf ++ (if client = 0 then [ckFormat (decide (288 ≤ lane)), ckAbsent (!s.portExists lane)]
    else [ckFormat (!portFormOk lane width client rate txclk || decide (6 < client))]) ++
  [ckCond (client != 0 && busyLane) St.slotBusy, ckCond (s.portNamed lane) St.slotBusy,
   ckCond (client != 0 && idxBusy) St.slotBusy]

/-- Takes the lanes of the port at `p` out of it: their registers read as those of a lane in no port. -/
def State.clearLanes (s : State) (p : Nat) : State :=
  (portLanes p (s.port p)).foldl (fun s l => s.setReg (R.CLT_LANE_STAT_PORT l).off (regReset (R.CLT_LANE_STAT_PORT l).off)) s

/-- PORT_SETUP applied: the old port stops and leaves, the new one is formed and, unless it was stopped
(R327), waits for release at step 4. -/
def appPortSetup (lane width client rate txclk rclk group : Nat) (c : Ctx) (s : State) : Applied :=
  let old := s.port lane
  let s := if old.rxState = 3 then s.raise 0x0902 lane [.w 0] else s
  let s := s.clearLanes lane
  if client = 0 then { s := (s.setPort lane {}).resetRegs (0xe4000 + 0x10 * lane) (0xe400f + 0x10 * lane) }
  else
    let x : PortSt := {
      client := client, width := width, rate := rate, inst := if client = 6 then width * rate else 0
      txclk := txclk, rclk := if rclk < 128 then some (rclk % 16) else none, group := group, running := false
      layers := old.layers }
    let s := s.setPort lane x
    let s := (portLanes lane x).foldl (fun s l =>
      (s.wr (R.CLT_LANE_STAT_PORT l) lane).wr (R.CLT_LANE_STAT_RATE l) rate) s
    let again := (old.client == 0 || old.running) && !c.stops.contains (2, lane)
    let s := if again then { s with host := { s.host with release := s.host.release ++ [(2, lane)] } } else s
    { s := s.portRegs lane }

/-- Release of a port (step 4): it runs, its receive state starts afresh, its first marker group goes out (R271). -/
def State.releasePort (s : State) (p : Nat) : State :=
  let x := s.port p
  if x.client = 0 then s
  else
    let s := s.setPort p { x with running := true, release := s.tick, rxState := 1, level := 2048, repl := false }
    (s.updatePort p).portRegs p

/-- A stopped port (FUNC_STOP). -/
def State.stopPort (s : State) (p : Nat) : State :=
  let x := s.port p
  let s := s.setPort p { x with running := false, hits := [], misses := [], locked := [], inverted := [], aligned := false,
                                blockLock := false, hiSer := false, lf := false, rf := false }
  let s := (portLanes p x).foldl (fun s l => s.wrB (R.CLT_LANE_STAT_AM_INV l) false) s
  s.updatePort p

/-! ### Receive (R264, R267..R270, R281) -/

/-- CLIENT_LANE_SIGNAL: SIG_DET and CDR_LOCK of a lane. A lane in no port is powered down (R262), and
a tripped module gates every lane (R462). -/
def execClientLaneSignal (l : Fin 288) (sig cdr : Bool) (s : State) : Host.Outcome State Fault Refusal := .next <|
  let o := s.laneOwner l.val
  if o = 0x1ff ∨ s.pow.gated = true then s
  else
    let s := (s.wrB (R.CLT_LANE_STAT_SIG_DET l.val) sig).wrB (R.CLT_LANE_STAT_CDR_LOCK l.val) cdr
    let x := s.port o
    let s := if sig && cdr then s else s.setPort o { x with hits := [], misses := [], locked := [] }
    s.updatePort o

/-- A marker of PCS lane `k` missed: lock is lost after 4 in a row. -/
def State.markerMiss (s : State) (p k : Nat) : State :=
  let x := s.port p
  let n := Tab.get (fun _ => 0) x.misses k + 1
  let x := { x with hits := Tab.set (fun _ => 0) x.hits k 0, misses := Tab.set (fun _ => 0) x.misses k n }
  let s := s.setPort p { x with locked := if 4 ≤ n then x.locked.filter (· != k) else x.locked }
  s.updatePort p

/-- AM_LOCK: PCS lane, FEC lane or instance `k` finds a marker at its spacing on physical lane `lane`; the second in a row
locks it. A marker in bit-inverted form counts as a mismatch and raises AM_INVERTED once (R264). -/
def execAmLock (p : Fin 288) (k lane : Nat) (inverted : Bool) (s : State) : Host.Outcome State Fault Refusal := .next <|
  let x := s.port p.val
  if !x.running || decide (pcsLanes x ≤ k) then s
  else if inverted then
    let s := s.markerMiss p.val k
    if x.inverted.contains lane then s
    else
      let y := s.port p.val
      let s := s.setPort p.val { y with inverted := y.inverted ++ [lane] }
      (s.wrB (R.CLT_LANE_STAT_AM_INV lane) true).raise 0x0904 lane
  else
    let n := Tab.get (fun _ => 0) x.hits k + 1
    let x := { x with
      hits := Tab.set (fun _ => 0) x.hits k n, misses := Tab.set (fun _ => 0) x.misses k 0
      locked := if decide (2 ≤ n) && !x.locked.contains k then x.locked ++ [k] else x.locked }
    (s.setPort p.val x).updatePort p.val

/-- AM_LOCK_LOSS: an expected marker of `k` mismatches in more than 3 of its 10-bit symbols; the fourth in a row ends its
lock. -/
def execAmLockLoss (p : Fin 288) (k : Nat) (s : State) : Host.Outcome State Fault Refusal := .next <|
  let x := s.port p.val
  if !x.running || decide (pcsLanes x ≤ k) then s else s.markerMiss p.val k

/-- DESKEW_COMPLETE: every lane is locked and the deskew buffer has absorbed the skew. -/
def execDeskewComplete (p : Fin 288) (s : State) : Host.Outcome State Fault Refusal := .next <|
  let x := s.port p.val
  if x.running && s.portSignal p.val && portLocked x then
    (s.setPort p.val { x with aligned := true }).updatePort p.val
  else s

/-- BLOCK_LOCK: `n` valid sync headers in a row; 64 gain block lock (R269). -/
def execBlockLock (p : Fin 288) (n : Nat) (s : State) : Host.Outcome State Fault Refusal := .next <|
  let x := s.port p.val
  if x.running && x.client != 6 && decide (64 ≤ n) then (s.setPort p.val { x with blockLock := true }).updatePort p.val else s

/-- BLOCK_LOCK_LOSS: `n` invalid headers among 1,024 in a row; 65 lose block lock. -/
def execBlockLockLoss (p : Fin 288) (n : Nat) (s : State) : Host.Outcome State Fault Refusal := .next <|
  let x := s.port p.val
  if x.running && decide (65 ≤ n) then (s.setPort p.val { x with blockLock := false }).updatePort p.val else s

/-- HI_SER_CHANGE (R268). -/
def execHiSerChange (p : Fin 288) (on : Bool) (s : State) : Host.Outcome State Fault Refusal := .next <|
  let x := s.port p.val
  if x.running && x.client != 6 then (s.setPort p.val { x with hiSer := on }).updatePort p.val else s

/-- CLIENT_FAULT_RX: whether local and remote fault were received this tick in at least 4 ordered sets at most 128 blocks
apart; each change of either raises the event (R281). -/
def execClientFaultRx (p : Fin 288) (lf rf : Bool) (s : State) : Host.Outcome State Fault Refusal := .next <|
  let x := s.port p.val
  if !x.running || x.client = 6 then s
  else
    let s := (s.setPort p.val { x with lf := lf, rf := rf }).portRegs p.val
    if x.lf != lf || x.rf != rf then s.raise 0x0903 p.val [.w (if lf then 1 else 0), .w (if rf then 1 else 0)] else s

/-- FLEXO_DEFECT_SET: a defect of Table CLT-4 is declared: 0 dGIDM, 1 dPIDM of an instance, 2 dRDI. -/
def execFlexoDefectSet (p : Fin 288) (d : Fin 3) (inst : Nat) (s : State) : Host.Outcome State Fault Refusal := .next <|
  let x := s.port p.val
  if !x.running || x.client ≠ 6 then s
  else
    let had := if d.val = 0 then x.gidm else if d.val = 1 then x.pidm.contains inst else x.rdi
    if had then s
    else
      let y := if d.val = 0 then { x with gidm := true }
        else if d.val = 1 then { x with pidm := x.pidm ++ [inst] } else { x with rdi := true }
      let s := s.raise 0x0906 p.val [.w d.val, .w (if d.val = 1 then inst else 0)]
      (s.setPort p.val y).updatePort p.val

/-- FLEXO_DEFECT_CLR: that defect is cleared. -/
def execFlexoDefectClr (p : Fin 288) (d : Fin 3) (inst : Nat) (s : State) : Host.Outcome State Fault Refusal := .next <|
  let x := s.port p.val
  if x.client ≠ 6 then s
  else
    let had := if d.val = 0 then x.gidm else if d.val = 1 then x.pidm.contains inst else x.rdi
    if !had then s
    else
      let y := if d.val = 0 then { x with gidm := false }
        else if d.val = 1 then { x with pidm := x.pidm.filter (· != inst) } else { x with rdi := false }
      let s := s.raise 0x0907 p.val [.w d.val, .w (if d.val = 1 then inst else 0)]
      (s.setPort p.val y).updatePort p.val

/-- Adds to a counter kept in units of 1,024: what is counted and the remainder. -/
def units1024 (rem n : Nat) : Nat × Nat := ((rem + n) / 1024, (rem + n) % 1024)

/-- dLOF and dLOM of the OTUCn of a FlexO-x port, at the end of a tick (R188, R189, R277). -/
def State.portOtuc (s : State) (p : Nat) (inFrame inMf : Bool) : State :=
  let x := s.port p
  let oof := x.oofRun.step s.tick (!inFrame)
  let inf := x.ifRun.step s.tick inFrame
  let om := x.omRun.step s.tick (!inMf)
  let im := x.imRun.step s.tick inMf
  s.setPort p { x with
    inFrame := inFrame, inMf := inMf, oofRun := oof, ifRun := inf, omRun := om, imRun := im
    dLof := if 480 ≤ oof.n then true else if 480 ≤ inf.n then false else x.dLof
    dLom := if 480 ≤ om.n then true else if 480 ≤ im.n then false else x.dLom }

/-- CLIENT_INGRESS_MAP: slot T+0 of a port: RS codewords decoded and of them uncorrectable, corrected symbols per lane,
whether a start-of-packet block came, and for a FlexO-x port whether its OTUCn is in frame and in multiframe. -/
def execClientIngressMap (p : Fin 288) (codewords unc : Nat) (corr : List (Nat × Nat)) (sop : Bool)
    (otuc : Option (Bool × Bool)) (s : State) : Host.Outcome State Fault Refusal := .next <|
  let x := s.port p.val
  if !x.running then s
  else
    let s := (s.bump (R.CLT_PORT_UNC_UNC p.val) unc)
    let (u, rem) := units1024 x.cwRem codewords
    let s := s.bump (R.CLT_PORT_CW_CW p.val) u
    let s := s.setPort p.val { x with
      cwRem := rem, secCw := x.secCw + codewords, secUnc := x.secUnc + unc
      waitSop := x.waitSop && !sop }
    let s := (corr.filter fun q => (portLanes p.val x).contains q.1).foldl
      (fun s q => s.bump (R.CLT_LANE_SER_CORR q.1) q.2) s
    match otuc with
    | some (a, b) => if x.client = 6 then s.portOtuc p.val a b else s
    | none => s

/-! ### Egress (R272, R273, R279, R280) -/

/-- The adaptation for a buffer level (R272): negative deletes, positive inserts. -/
def adaptation (level : Int) : Int :=
  let d := level - 2048
  if 8 < d then -(min (d - 8) 127) else if d < -8 then min (-d - 8) 127 else 0

/-- The egress decision of an Ethernet port: its adaptation, from the level at the start of the tick, once per tick. -/
def State.portAdapt (s : State) (p : Nat) : State :=
  let x := s.port p
  if x.client = 0 ∨ x.client = 6 ∨ x.adaptTick = some s.tick then s
  else s.setPort p { x with adapt := adaptation x.level, adaptTick := some s.tick }

/-- The ADAPT field of a twin egress record. -/
def adaptCode (a : Int) : Nat := if 0 < a then 128 + a.toNat else (-a).toNat

/-- A running connection names the port. -/
def State.portConnected (s : State) (p : Nat) : Bool :=
  let eps := s.xcFrozen.getD s.eps
  eps.any fun q => q.2.entry.kind == 1 && q.2.entry.state == 1 && (endNames p q.2.entry.src || endNames p q.2.entry.dst)

/-- What a port hands toward the cross-connect: 0 its stream, 1 a local fault stream, 2 + i a replacement signal
(Table CLT-3). -/
def State.portIngress (s : State) (p : Nat) : Nat :=
  let x := s.port p
  if x.client = 6 then
    if x.rxState = 0 then 4 else if s.portSsf p then 2 else 0
  else if x.rxState = 0 then 4
  else if x.rxState = 3 then 0
  else 1

/-- PORT_SETUP as a request of its own. -/
def execPortSetup (h : ReqHdr) (mem : HostMem) (lane width client rate txclk rclk group : Nat) (s : State) :
    Host.Outcome State Fault Refusal := .next <|
  let s := runOne h mem 0x16 (.portSetup lane width client rate txclk rclk group) s
    (chkPortSetup lane width client rate txclk rclk) (appPortSetup lane width client rate txclk rclk group)
  (s.host.release.filter fun r => r.1 == 2).foldl (fun s r => s.releasePort r.2)
    { s with host := { s.host with release := s.host.release.filter fun r => r.1 != 2 } }

end Sys2Proof.Machine
end

