-- ==== Sys2Proof/Machine/Timing.lean ====
section
/-! DEFINITION. Reference selection, holdover and clock outputs (chapter 16). -/
namespace Sys2Proof.Machine

/-- Changes the timing record. -/
def State.modTim (s : State) (g : TimSt → TimSt) : State := { s with tim := g s.tim }

/-- Input `i` of TIM_INPUT. -/
def State.timInput (s : State) (i : Nat) : TimInput := Tab.get (fun _ => {}) s.tim.inputs i

/-- Candidate `src` (Table TIM-1). -/
def State.cand (s : State) (src : Nat) : Cand := Tab.get (fun _ => {}) s.tim.cands src

/-- DPLLd. -/
def State.dpll (s : State) (d : Nat) : Dpll := Tab.get (fun _ => {}) s.tim.dplls d

/-- Writes DPLLd. -/
def State.setDpll (s : State) (d : Nat) (x : Dpll) : State :=
  s.modTim fun t => { t with dplls := Tab.set (fun _ => {}) t.dplls d x }

/-- The source IDs of Table TIM-1 that exist. -/
def sourceIds : List Nat := List.range 0x46 ++ [0x48, 0x49, 0x4a, 0x4b, 0x4c, 0x4d]

/-- Writes candidate `src` and its bits of TIM_PRES and TIM_QUAL. -/
def State.setCand (s : State) (src : Nat) (c : Cand) : State :=
  let s := s.modTim fun t => { t with cands := Tab.set (fun _ => {}) t.cands src c }
  let s := s.wrB ⟨(R.TIM_PRES_PRES (src / 32)).off, src % 32, 1⟩ c.since.isSome
  s.wrB ⟨(R.TIM_QUAL_QUAL (src / 32)).off, src % 32, 1⟩ c.qual

/-! ### Candidates (R384..R388) -/

/-- The input number of a REFIN or PPSIN source. -/
def inputOf (src : Nat) : Nat := src - 0x48

/-- The presence condition of Table TIM-1. That of a REFIN or PPSIN stands until CANDIDATE_ABSENT or a bad edge. -/
def State.candPresent (s : State) (src : Nat) : Bool :=
  if src < 0x30 then s.frondEnabled src && s.acqState src == 5 && !s.aSsf src
  else if src < 0x40 then s.ports.any fun q => q.2.client != 0 && q.2.rclk == some (src - 0x30) && q.2.rxState == 3
  else if src < 0x46 then
    s.meshUp (src - 0x40) && (s.cand src).rptTick.any fun t => decide (s.tick < t + 2560)
  else (s.timInput (inputOf src)).enable && (s.cand src).since.isSome

/-- A qualified candidate is disqualified with a reason. -/
def State.disqualify (s : State) (src reason : Nat) : State :=
  let c := s.cand src
  let s := s.setCand src { c with qual := false, disq := true }
  if c.qual then s.raise 0x0f02 src [.w reason] else s

/-- A candidate becomes absent (R384). -/
def State.candAbsent (s : State) (src : Nat) : State :=
  let s := s.disqualify src 0
  s.setCand src { s.cand src with since := none, offset := none }

/-- The presence of every candidate at the end of the tick. -/
def State.timPresence (s : State) : State :=
  sourceIds.foldl (fun s src =>
    match s.candPresent src, (s.cand src).since with
    | true, none => s.setCand src { s.cand src with since := some s.tick }
    | false, some _ => s.candAbsent src
    | _, _ => s) s

/-- CANDIDATE_ABSENT: the presence condition of a candidate is recognised as failing in this tick: two expected edges of a
REFIN or PPSIN missing, or the condition of a clock that the module itself sees. -/
def execCandidateAbsent (src : Fin 128) (s : State) : Host.Outcome State Fault Refusal := .next <|
  let lost := if src.val < 0x48 then !s.candPresent src.val else decide (src.val ≤ 0x4d)
  if lost && (s.cand src.val).since.isSome then s.candAbsent src.val else s

/-- The conditions of R388 on a mesh candidate: its disqualifying reason, none when it may qualify. -/
def State.meshBar (s : State) (src : Nat) : Option Nat :=
  let c := s.cand src
  if src < 0x40 ∨ 0x46 ≤ src then none
  else if c.rptFollowed = s.meshAddr ∧ c.rptFollowed ≠ 0 then some 2
  else if 14 ≤ c.rptDepth ∨ c.rptState ≠ 2 then some 3
  else none

/-- What the window that ends says of one candidate: its offset in 0.001 ppm, and for a REFIN the ticks for which its edges
have come without a break. -/
def State.windowOf (s : State) (src : Nat) (off : Int) (seen : Nat) : State :=
  let c := s.cand src
  let c := if 0x48 ≤ src ∧ src ≤ 0x4b ∧ c.since.isNone ∧ 0 < seen ∧ (s.timInput (inputOf src)).enable = true then
      { c with since := some (s.tick + 1 - seen) } else c
  match c.since with
  | none => s
  | some p =>
    let full := decide (p + 160000 ≤ s.tick + 1)
    let c := if full then { c with offset := some off } else c
    let s := s.setCand src c
    if c.qual && decide (12000 < off.natAbs) then s.disqualify src 1
    else
      let long := decide (p + 160000 * s.tim.wtr ≤ s.tick + 1) || (!c.disq && full)
      if !c.qual && long && full && decide (off.natAbs ≤ 10000) && (s.meshBar src).isNone then
        (s.setCand src { c with qual := true }).raise 0x0f01 src
      else s

/-- MEASUREMENT_WINDOW_END: the measurements of the window that ends with this tick (R385, R386). -/
def execMeasurementWindowEnd (obs : List (Nat × Int × Nat)) (s : State) : Host.Outcome State Fault Refusal := .next <|
  if s.tick % 160000 = 159999 then
    (obs.filter fun q => sourceIds.contains q.1).foldl (fun s q => s.windowOf q.1 q.2.1 q.2.2) s
  else s

/-! ### Timing reports (R387, R388) -/

/-- DEPTH of this module. -/
def State.timDepth (s : State) : Nat :=
  let src := s.rd (R.TIM_DPLL_STAT_SOURCE 0)
  if s.rd (R.TIM_DPLL_STAT_STATE 0) ≠ 2 then 15
  else if 0x40 ≤ src ∧ src < 0x46 then min 15 ((s.cand src).rptDepth + 1) else 0

/-- The address of the module whose mesh clock DPLL0 follows, 0 for none. -/
def State.timFollowed (s : State) : Nat :=
  let src := s.rd (R.TIM_DPLL_STAT_SOURCE 0)
  if 0x40 ≤ src ∧ src < 0x46 then s.rd (R.MSH_PORT_STAT_NBR_ADDR (src - 0x40)) else 0

/-- The reports of one period, on every UP port. -/
def State.sendReports (s : State) : State :=
  let b := natBe 1 (s.rd (R.TIM_DPLL_STAT_STATE 0)) ++ natBe 1 s.timDepth ++ natBe 2 s.timFollowed
  s.upPorts.foldl (fun s p => s.meshLink p 0x05 1 b) s

/-- TIMING_REPORT_SEND: the reports of a period of 160 ticks. -/
def execTimingReportSend (s : State) : Host.Outcome State Fault Refusal := .next s.sendReports

/-- TIMING_REPORT: a report received on port `p`. -/
def execTimingReport (p : Fin 6) (state depth followed : Nat) (s : State) : Host.Outcome State Fault Refusal := .next <|
  if !s.meshUp p.val then s
  else
    let src := 0x40 + p.val
    let s := s.setCand src { s.cand src with
      rptTick := some s.tick, rptState := state, rptDepth := depth, rptFollowed := followed }
    match s.meshBar src with
    | some r => if (s.cand src).qual then s.disqualify src r else s
    | none => s

/-! ### Selection (R390, R391) -/

/-- Fields of a priority table entry (Table TIM-2). -/
def prioSource (e : Nat) : Nat := e / 2 ^ 25 % 128
def prioLockout (e : Nat) : Bool := e / 2 ^ 24 % 2 == 1
def prioOf (e : Nat) : Nat := e / 2 ^ 20 % 16
def prioMask (e d : Nat) : Bool := e / 2 ^ (16 + d) % 2 == 1

/-- The candidate set of DPLLd, in entry order. -/
def State.candSet (s : State) (d : Nat) : List Nat :=
  (List.range 16).filter fun k =>
    let e := s.tim.prio.getD k 0
    prioMask e d && prioOf e != 0 && !prioLockout e && (s.cand (prioSource e)).qual

/-- The best entry: the lowest PRIO, among equals the lowest index. -/
def State.bestEntry (s : State) (d : Nat) : Option Nat :=
  (s.candSet d).foldl (fun b k =>
    match b with
    | none => some k
    | some j => if prioOf (s.tim.prio.getD k 0) < prioOf (s.tim.prio.getD j 0) then some k else some j) none

/-- The entry selected now. -/
def State.curEntry (s : State) (d : Nat) : Option Nat :=
  if s.rd (R.TIM_DPLL_STAT_SOURCE d) = 0x7f then none else some (s.rd (R.TIM_DPLL_STAT_ENTRY d))

/-- The selection of DPLLd by its mode. -/
def State.selection (s : State) (d : Nat) : Option Nat :=
  let x := s.dpll d
  match x.mode with
  | 0 =>
    if x.revert then s.bestEntry d
    else match s.curEntry d with
      | some k => if (s.candSet d).contains k then some k else s.bestEntry d
      | none => s.bestEntry d
  | 1 => if (s.cand (prioSource (s.tim.prio.getD x.force 0))).qual then some x.force else none
  | _ => none

/-- Its history is valid (R393). -/
def State.histValid (s : State) (d : Nat) : Bool :=
  let x := s.dpll d
  match x.lockedAt with
  | some t => decide (t + 1600000 ≤ s.tick)
  | none => decide (1600000 ≤ x.lockLen)

/-- The holdover timer (R395): HOTIME, and HO_OOS with its event when the timer reaches HO_SPEC. -/
def State.hoTimer (s : State) (d : Nat) : State :=
  let x := s.dpll d
  if s.rd (R.TIM_DPLL_STAT_STATE d) ≠ 3 then s
  else
    let n := (s.tick - x.hoTick) / 160000
    let s := s.wr (R.TIM_DPLL_HOTIME_HOTIME d) n
    if decide (x.hoSpec ≤ n) && !s.flag (R.TIM_DPLL_STAT_HO_OOS d) then
      (s.wrB (R.TIM_DPLL_STAT_HO_OOS d) true).raise 0x0f05 d [.w n]
    else s

/-- HOLDOVER_OOS: the holdover timer of DPLLd. -/
def execHoldoverOos (d : Fin 4) (s : State) : Host.Outcome State Fault Refusal := .next <| s.hoTimer d.val

/-- DPLLd enters a state of Table TIM-4, with DPLL_STATE. The history that HOLDOVER holds is a mean of a waveform that no
command carries: it is free within the 12 ppm of R393 (assumption 1). -/
def State.enterDpll (s : State) (d st : Nat) : State :=
  let old := s.rd (R.TIM_DPLL_STAT_STATE d)
  if old = st then s
  else
    let x := s.dpll d
    let x := if old = 2 then { x with lockLen := s.tick - x.lockedAt.getD s.tick, lockedAt := none } else x
    let x := { x with inRun := {}, edgeRun := 0, outRun := {} }
    let s := ((s.setDpll d x).wr (R.TIM_DPLL_STAT_STATE d) st).raise 0x0f04 d [.w st]
    let s := if st = 1 ∨ st = 2 then s else s.wr (R.TIM_DPLL_PHERR_PHERR d) 0
    let s := if st = 2 then s.setDpll d { x with lockedAt := some s.tick, lockLen := 0 } else s
    let s := if old = 3 then (s.wr (R.TIM_DPLL_HOTIME_HOTIME d) 0).wrB (R.TIM_DPLL_STAT_HO_OOS d) false else s
    if st = 3 then
      let (v, s) := s.fresh
      (s.setDpll d { x with hoTick := s.tick, goal := (v % 24001 : Nat) - (12000 : Int) }).hoTimer d
    else if st = 0 then s.setDpll d { x with goal := 0 }
    else s

/-- Selection of DPLLd at a boundary, after step 4: its entry, its state, its frequency on the way to FREE_RUN or HOLDOVER
(1 ppm/s, R393). -/
def State.selectDpll (s : State) (d : Nat) : State :=
  let x := s.dpll d
  let old := s.curEntry d
  let oldSrc := s.rd (R.TIM_DPLL_STAT_SOURCE d)
  let new := s.selection d
  let newSrc := match new with
    | some k => prioSource (s.tim.prio.getD k 0)
    | none => 0x7f
  let s := s.wr (R.TIM_DPLL_STAT_MODE d) x.mode
  let s := (s.wr (R.TIM_DPLL_STAT_SOURCE d) newSrc).wr (R.TIM_DPLL_STAT_ENTRY d) (new.getD 0)
  let s := if new ≠ old ∨ newSrc ≠ oldSrc then s.raise 0x0f03 d [.w newSrc, .w oldSrc] else s
  let valid := s.histValid d
  let s :=
    if x.mode = 3 then s.enterDpll d 0
    else if x.mode = 2 then s.enterDpll d 3
    else match new with
      | some _ =>
        if newSrc = oldSrc then s
        else if s.rd (R.TIM_DPLL_STAT_STATE d) = 1 then
          s.setDpll d { s.dpll d with inRun := {}, edgeRun := 0, outRun := {} }
        else s.enterDpll d 1
      | none => if old.isNone then s else s.enterDpll d (if valid then 3 else 0)
  let st := s.rd (R.TIM_DPLL_STAT_STATE d)
  let f := s.rdS (R.TIM_DPLL_FOFS_FOFS d)
  let g := (s.dpll d).goal
  let s := if (st = 0 ∨ st = 3) ∧ f ≠ g ∧ s.tick % 160 = 0 then
      s.wrS (R.TIM_DPLL_FOFS_FOFS d) (if f < g then f + 1 else f - 1) else s
  (s.wrB (R.TIM_DPLL_STAT_HIST_VALID d) (s.histValid d)).hoTimer d

/-- Step 8 of Table TCK-5: reference selection of DPLL0..3. -/
def State.selectAll (s : State) : State := (List.range 4).foldl State.selectDpll s

/-- A measurement at the detector of DPLLd: its phase error in 0.1 ns, its output frequency in 0.001 ppm. -/
def State.dpllMeasure (s : State) (d : Nat) (err fofs : Int) : State :=
  let lim : Int := 2 ^ 31
  (s.wrS (R.TIM_DPLL_PHERR_PHERR d) (clampInt (-lim) (lim - 1) err)).wrS (R.TIM_DPLL_FOFS_FOFS d) fofs

/-- The selected source is a PPS. -/
def State.ppsSelected (s : State) (d : Nat) : Bool :=
  let src := s.rd (R.TIM_DPLL_STAT_SOURCE d)
  src == 0x4c || src == 0x4d

/-- DPLL_LOCKED: one tick, or with a PPS selected one edge, of a DPLL in ACQUIRING. 1,600,000 ticks within 20 ns, or 10
edges within 100 ns, make it LOCKED (R394). -/
def execDpllLocked (d : Fin 4) (err fofs : Int) (s : State) : Host.Outcome State Fault Refusal := .next <|
  if s.rd (R.TIM_DPLL_STAT_STATE d.val) ≠ 1 then s
  else
    let s := s.dpllMeasure d.val err fofs
    let x := s.dpll d.val
    let pps := s.ppsSelected d.val
    let x := if pps then { x with edgeRun := if err.natAbs ≤ 1000 then x.edgeRun + 1 else 0 }
      else { x with inRun := x.inRun.step s.tick (decide (err.natAbs ≤ 200)) }
    let s := s.setDpll d.val x
    if (pps ∧ 10 ≤ x.edgeRun) ∨ (¬pps ∧ 1600000 ≤ x.inRun.n) then s.enterDpll d.val 2 else s

/-- DPLL_LOCK_LOST: one tick of a LOCKED DPLL. 160,000 ticks outside 200 ns, or 1 us with a PPS, return it to ACQUIRING
(R394). -/
def execDpllLockLost (d : Fin 4) (err fofs : Int) (s : State) : Host.Outcome State Fault Refusal := .next <|
  if s.rd (R.TIM_DPLL_STAT_STATE d.val) ≠ 2 then s
  else
    let s := s.dpllMeasure d.val err fofs
    let x := s.dpll d.val
    let lim := if s.ppsSelected d.val then 10000 else 2000
    let x := { x with outRun := x.outRun.step s.tick (decide (lim < err.natAbs)) }
    let s := s.setDpll d.val x
    if 160000 ≤ x.outRun.n then s.enterDpll d.val 1 else s

/-! ### Outputs (R400..R403) -/

/-- An output. -/
def State.timOut (s : State) (k : Nat) : TimOut := Tab.get (fun _ => {}) s.tim.outs k

/-- CLKOUTk is squelched (Table TIM-6). -/
def State.clkSquelched (s : State) (k : Nat) : Bool :=
  let o := s.timOut k
  let st := s.rd (R.TIM_DPLL_STAT_STATE o.src)
  match o.sq with
  | 0 => false
  | 1 => st == 0
  | 2 => st == 0 || (st == 3 && s.flag (R.TIM_DPLL_STAT_HO_OOS o.src))
  | _ => st == 0 || st == 3

/-- CLKOUTk toggles: neither off, held nor squelched. MCLK0..1 (8, 9) are never squelched (R401). -/
def State.clkRuns (s : State) (k : Nat) : Bool :=
  let o := s.timOut k
  o.freq != 0 && o.heldTo.isNone && (decide (8 ≤ k) || !s.clkSquelched k)

/-- A held output starts with its new setting at the next boundary but one after its change. -/
def State.resumeOut (s : State) (k : Nat) : State :=
  let o := s.timOut k
  if o.heldTo.any fun t => decide (t ≤ s.tick) then
    s.modTim fun t => { t with outs := Tab.set (fun _ => {}) t.outs k { o with heldTo := none } }
  else s

/-- OUTPUT_CHANGE_RESUME of CLKOUTk. -/
def execOutputChangeResume (k : Fin 8) (s : State) : Host.Outcome State Fault Refusal := .next <| s.resumeOut k.val

/-- TICK_OUT at a boundary: the core cycles for which it stays high. -/
def State.tickOut (s : State) : State := s.emit (.tickOut (if s.tick % 160000 = 0 then 256 else 64))

/-- PPS_OUT at a boundary (R403): a pulse, and the move of its position. A position half a second from its target moves
either way (assumption 1). -/
def State.ppsOut (s : State) : State :=
  let t := s.tim
  let pos := s.rd R.TIM_PPSOUT_POSITION
  let spaced := match t.ppsLast with
    | none => true
    | some l => decide (l + 159000 ≤ s.tick)
  let at' := if t.ppsStep then t.ppsTarget else pos
  let s := s.wrB R.TIM_PPSOUT_AT_TARGET (t.ppsMode != 0 && pos == t.ppsTarget)
  if t.ppsMode = 0 ∨ s.tick % 160000 ≠ at' ∨ spaced = false then s
  else
    let s := (s.modTim fun t => { t with ppsLast := some s.tick }).emit (.ppsOut s.tick)
    let gap := (t.ppsTarget + 160000 - at') % 160000
    let (v, s) := if gap = 80000 then s.fresh else (0, s)
    let next :=
      if gap = 0 then at'
      else if gap < 80000 ∨ (gap = 80000 ∧ v % 2 = 0) then (at' + 1) % 160000
      else (at' + 159999) % 160000
    let s := (s.wr R.TIM_PPSOUT_POSITION next).wrB R.TIM_PPSOUT_AT_TARGET (next == t.ppsTarget)
    if next = t.ppsTarget ∧ pos ≠ t.ppsTarget then s.raise 0x0f08 0 [.w next] else s

/-- PPS_OUT_PULSE: the boundary at which PPS_OUT is due. -/
def execPpsOutPulse (s : State) : Host.Outcome State Fault Refusal := .next s.ppsOut

/-! ### PPS inputs and time of day (R404..R407) -/

/-- The ToD source: 0 or 1 for a PPSIN, 3 for none. -/
def State.todSource (s : State) : Nat :=
  match s.tim.todSrc with
  | 0 =>
    let src := s.rd (R.TIM_DPLL_STAT_SOURCE 0)
    if src = 0x4c then 0 else if src = 0x4d then 1 else 3
  | 1 => 0
  | 2 => 1
  | _ => 3

/-- Time-of-day reception of PPSIN `i`. -/
def State.tod (s : State) (i : Nat) : TodIn := Tab.get (fun _ => {}) s.tim.tod i

/-- Writes it. -/
def State.setTod (s : State) (i : Nat) (x : TodIn) : State :=
  s.modTim fun t => { t with tod := Tab.set (fun _ => {}) t.tod i x }

/-- TIM_TOD_STAT follows the source and its lock; a change of the ToD-locked state raises TOD_LOCK. -/
def State.todStat (s : State) : State :=
  let src := s.todSource
  let on := src != 3 && decide (3 ≤ (s.tod src).run)
  let was := s.flag R.TIM_TOD_STAT_LOCKED
  let old := s.rd R.TIM_TOD_STAT_SOURCE
  let s := (s.wr R.TIM_TOD_STAT_SOURCE src).wrB R.TIM_TOD_STAT_LOCKED on
  if on != was then s.raise 0x0f06 (if on then src else old) [.w (if on then 1 else 0)] else s

/-- The label that a 16-byte message carries (Table TIM-7), when it passes every condition of R406 but the window. -/
def todParse (b : List Byte) (leapDay : Option Nat) : Option TodLabel :=
  let v := fun i n => beNat (slice b i n)
  let flags := v 3 1
  let sec := v 10 1
  let c : Cal := { year := v 4 2, month := v 6 1, day := v 7 1, hour := v 8 1, minute := v 9 1, second := min sec 59 }
  let leap := sec == 60
  let ok := b.length == 16 && v 0 2 == 0x55aa && v 2 1 == 1 && flags % 2 == 1 &&
    crc16 (bitsOfBytes (b.take 14)) == v 14 2 && calReason c == 0 &&
    (decide (sec ≤ 59) || (leap && c.hour == 23 && c.minute == 59 && leapDay == some c.date))
  if ok then some { cal := c, leap := leap, flags := flags } else none

/-- A label follows the one before it: by one second, by two at a negative leap second. -/
def todFollows (p n : TodLabel) : Bool :=
  if p.leap then n.cal == p.cal.next && !n.leap
  else
    let lastMin := p.cal.hour == 23 && p.cal.minute == 59
    (n.cal == p.cal.next && !n.leap) || (n.leap && n.cal == p.cal && lastMin && p.cal.second == 59) ||
    (n.cal == p.cal.next.next && !n.leap && lastMin && p.cal.second == 58 && p.flags / 4 % 2 == 1)

/-- TOD_MESSAGE: a message received completely at TODIN `i`. It must come 16,000 to 152,000 ticks after the edge (R405). -/
def execTodMessage (i : Fin 2) (b : List Byte) (s : State) : Host.Outcome State Fault Refusal := .next <|
  let x := s.tod i.val
  let inTime := (Tab.get (fun _ => none) s.tim.lastEdge i.val).any fun e =>
    decide (e + 16000 ≤ s.tick) && decide (s.tick ≤ e + 152000)
  match todParse b x.leapDay with
  | some l =>
    if inTime then
      s.setTod i.val { x with
        next := some l, leapDay := if l.flags / 2 % 2 = 1 then some l.cal.date else x.leapDay }
    else s.bump R.TIM_TOD_STAT_REJECT 1
  | none => s.bump R.TIM_TOD_STAT_REJECT 1

/-- The time of day at an edge of PPSIN `i` at tick `edge` (R406, R407). -/
def State.todEdge (s : State) (i edge : Nat) : State :=
  let x := s.tod i
  let run := match x.next, x.prev with
    | some n, some p => if todFollows p n then x.run + 1 else 1
    | some _, none => 1
    | none, _ => 0
  let s := (s.setTod i { x with run := run, prev := x.next, next := none }).todStat
  match x.next with
  | none => s
  | some l =>
    if s.todSource = i ∧ s.flag R.TIM_TOD_STAT_LOCKED = true ∧ s.tim.todStep = true then
      if l.cal = s.peat.cal then s.modPeat fun p => { p with subTick := some edge }
      else
        let time := l.cal.time + (if l.leap then 1 else 0)
        (s.modTim fun t => { t with stepDue := some (l.cal, edge) }).raise 0x0f07 i [.w l.cal.date, .w time, .q edge]
    else s

/-- The stamp of an edge: `8/5` core cycles per ns of DELAY; a stamp between two cycles takes either (assumption 1). -/
def State.edgeStamp (s : State) (cycle : Nat) (delay : Int) : Nat × State :=
  let num : Int := 5 * ((s.tick * 10000 + cycle : Nat) : Int) - 8 * delay
  let q := (num / 5).toNat
  if num % 5 = 0 then (q, s)
  else
    let (v, s) := s.fresh
    (q + v % 2, s)

/-- PPS_EDGE_STAMP: an edge of PPSIN `i` at a core cycle of this tick. -/
def execPpsEdgeStamp (i : Fin 2) (cycle : Fin 10000) (s : State) : Host.Outcome State Fault Refusal := .next <|
  let inp := s.timInput (4 + i.val)
  if !inp.enable then s
  else
    let (st, s) := s.edgeStamp cycle.val inp.delay
    let t := st / 10000
    let src := 0x4c + i.val
    let good := match Tab.get (fun _ => none) s.tim.lastEdge i.val with
      | none => true
      | some p => decide (p + 159984 ≤ t) && decide (t ≤ p + 160016)
    let s := (s.wr (R.TIM_PPS_EDGE_LO_TICK_LO i.val) t).wr (R.TIM_PPS_EDGE_HI_TICK_HI i.val) (t / 2 ^ 32)
    let s := (s.wrB (R.TIM_PPS_POS_VALID i.val) true).wr (R.TIM_PPS_POS_CYCLE i.val) (st % 10000)
    let s := s.modTim fun x => { x with lastEdge := Tab.set (fun _ => none) x.lastEdge i.val (some t) }
    let s :=
      if good then
        if (s.cand src).since.isNone then s.setCand src { s.cand src with since := some s.tick } else s
      else if (s.cand src).since.isSome then s.candAbsent src else s
    let s := if s.tim.ppsMode = 2 ∧ s.rd (R.TIM_DPLL_STAT_SOURCE 0) = src then
        s.modTim fun x => { x with ppsTarget := t % 160000 } else s
    s.todEdge i.val t

/-! ### Descriptors (Table TIM-8) -/

/-- The checks of TIM_INPUT. -/
def chkTimInput (input freq : Nat) (delay : Int) (c : Ctx) (_ : State) : List Ck :=
  c.pf ++ [ckFormat (decide (5 < input)),
    ckFormat (if input < 4 then !(decide (1 ≤ freq) && decide (freq ≤ 5)) else decide (1 < freq)),
    ckFormat (decide (delay < -(2 ^ 31)) || decide (2 ^ 31 ≤ delay))]

/-- TIM_INPUT applied. An input newly enabled, or given another frequency or edge, starts afresh. -/
def appTimInput (input : Nat) (enable : Bool) (freq : Nat) (delay : Int) (_ : Ctx) (s : State) : Applied :=
  let old := s.timInput input
  let src := 0x48 + input
  let s := s.modTim fun t => { t with
    inputs := Tab.set (fun _ => {}) t.inputs input { enable := enable, code := freq, delay := if input < 4 then 0 else delay } }
  if enable && (!old.enable || old.code != freq) then
    let s := (if (s.cand src).since.isSome then s.candAbsent src else s).setCand src { since := some s.tick }
    if 4 ≤ input then
      let s := s.wrB (R.TIM_PPS_POS_VALID (input - 4)) false
      { s := (s.modTim fun t => { t with lastEdge := Tab.set (fun _ => none) t.lastEdge (input - 4) none }).setTod (input - 4) {} }
    else { s := s }
  else { s := s }

/-- TIM_INPUT as a request of its own. -/
def execTimInput (h : ReqHdr) (mem : HostMem) (input : Nat) (enable : Bool) (freq : Nat) (delay : Int) (s : State) :
    Host.Outcome State Fault Refusal := .next <|
  runOne h mem 0x60 (.timInput input enable freq delay) s (chkTimInput input freq delay) (appTimInput input enable freq delay)

/-- The words of a priority table image. -/
def prioImage (b : List Byte) : List Nat := (List.range 16).map fun k => fieldAt b (4 * k) 4

/-- A table image that R389 admits. -/
def prioOk (l : List Nat) : Bool :=
  let on := l.filter fun e => prioOf e != 0
  let ids := on.map prioSource
  (ids.all fun i => sourceIds.contains i) && (ids.zipIdx.all fun p => !((ids.drop (p.2 + 1)).contains p.1)) &&
  (on.all fun e => !(decide (0x4c ≤ prioSource e) && decide (prioSource e ≤ 0x4d)) || e / 2 ^ 17 % 8 == 0)

/-- Every FORCED DPLL's entry has its mask bit. -/
def State.forcedOk (s : State) (l : List Nat) : Bool :=
  (List.range 4).all fun d => let x := s.dpll d; x.mode != 1 || prioMask (l.getD x.force 0) d

/-- The checks of TIM_PRIO (R389, R408). -/
def chkTimPrio (wtr addr : Nat) (c : Ctx) (s : State) : List Ck :=
  let l := (readHost c.mem addr 64).map prioImage
  c.pf ++ [c.ckRead addr 64, ckAlign addr 64, ckFormat (decide (720 < wtr)),
    ckFormat (l.any fun l => !prioOk l || !s.forcedOk l),
    ckAbsent (l.any fun l => l.any fun e => prioOf e != 0 && decide (prioSource e < 48) && !s.frondEnabled (prioSource e))]

/-- TIM_PRIO applied. -/
def appTimPrio (wtr addr : Nat) (c : Ctx) (s : State) : Applied :=
  match readHost c.mem addr 64 with
  | some b => { s := s.modTim fun t => { t with wtr := wtr, prio := prioImage b } }
  | none => { s := s }

/-- TIM_PRIO as a request of its own. -/
def execTimPrio (h : ReqHdr) (mem : HostMem) (wtr addr : Nat) (s : State) : Host.Outcome State Fault Refusal := .next <|
  runOne h mem 0x61 (.timPrio wtr addr) s (chkTimPrio wtr addr) (appTimPrio wtr addr)

/-- BW codes in their allowed sets (Table TIM-5): REFIN, PPSIN, line, client, mesh. -/
def bwOk (bw : Nat) : Bool :=
  let f := fun i => bw / 8 ^ i % 8
  let clock := fun c => decide (1 ≤ c) && decide (c ≤ 4)
  clock (f 0) && decide (f 1 ≤ 1) && clock (f 2) && clock (f 3) && decide (2 ≤ f 4) && decide (f 4 ≤ 5) && decide (bw < 2 ^ 15)

/-- The checks of TIM_DPLL. -/
def chkTimDpll (d mode force bw hoSpec : Nat) (c : Ctx) (s : State) : List Ck :=
  c.pf ++ [ckFormat (decide (3 < d) || decide (3 < mode) || decide (15 < force) || !bwOk bw || decide (16777215 < hoSpec)),
    ckFormat (mode == 1 && !prioMask (s.tim.prio.getD force 0) d)]

/-- TIM_DPLL applied; the mode is taken up at the selection of this boundary. -/
def appTimDpll (d mode force : Nat) (revert : Bool) (bw hoSpec : Nat) (_ : Ctx) (s : State) : Applied :=
  { s := s.setDpll d { s.dpll d with mode := mode, force := force, revert := revert, bw := bw, hoSpec := hoSpec } }

/-- TIM_DPLL as a request of its own. -/
def execTimDpll (h : ReqHdr) (mem : HostMem) (d mode force : Nat) (revert : Bool) (bw hoSpec : Nat) (s : State) :
    Host.Outcome State Fault Refusal := .next <|
  runOne h mem 0x62 (.timDpll d mode force revert bw hoSpec) s (chkTimDpll d mode force bw hoSpec)
    (appTimDpll d mode force revert bw hoSpec)

/-- The checks of TIM_OUTPUT. -/
def chkTimOutput (output freq src sq mode phase : Nat) (c : Ctx) (_ : State) : List Ck :=
  c.pf ++ [ckFormat (decide (10 < output) || decide (7 < freq) || decide (3 < src) || decide (3 < sq) ||
    decide (2 < mode) || decide (159999 < phase))]

/-- TIM_OUTPUT applied: a change of FREQ or source of a clock output holds it static (R400). -/
def appTimOutput (output freq src sq mode : Nat) (step : Bool) (phase : Nat) (_ : Ctx) (s : State) : Applied :=
  if output = 10 then
    { s := s.modTim fun t => { t with
        ppsMode := mode, ppsStep := step, ppsTarget := if mode = 1 then phase else t.ppsTarget } }
  else
    let o := s.timOut output
    let changed := decide (output < 8) && (o.freq != freq || o.src != src)
    { s := s.modTim fun t => { t with
        outs := Tab.set (fun _ => {}) t.outs output
          { freq := freq, src := src, sq := sq, heldTo := if changed then some (s.tick + 2) else o.heldTo } } }

/-- TIM_OUTPUT as a request of its own. -/
def execTimOutput (h : ReqHdr) (mem : HostMem) (output freq src sq mode : Nat) (step : Bool) (phase : Nat) (s : State) :
    Host.Outcome State Fault Refusal := .next <|
  runOne h mem 0x63 (.timOutput output freq src sq mode step phase) s (chkTimOutput output freq src sq mode phase)
    (appTimOutput output freq src sq mode step phase)

/-- The checks of TIM_TOD. -/
def chkTimTod (src : Nat) (c : Ctx) (_ : State) : List Ck := c.pf ++ [ckFormat (decide (3 < src))]

/-- TIM_TOD applied. -/
def appTimTod (src : Nat) (stepEn : Bool) (_ : Ctx) (s : State) : Applied :=
  { s := (s.modTim fun t => { t with todSrc := src, todStep := stepEn }).todStat }

/-- TIM_TOD as a request of its own. -/
def execTimTod (h : ReqHdr) (mem : HostMem) (src : Nat) (stepEn : Bool) (s : State) : Host.Outcome State Fault Refusal := .next <|
  runOne h mem 0x65 (.timTod src stepEn) s (chkTimTod src) (appTimTod src stepEn)

end Sys2Proof.Machine
end

