-- ==== Sys2Proof/Machine/Twin.lean ====
section
/-! DEFINITION. The Lichen pair of modules: the twin states (Table TCK-7), the twin port (R437..R439), steering (R398,
R399). Instants within a tick are in 1/16 core cycle, 160,000 to a tick. -/
namespace Sys2Proof.Machine

/-- Changes the twin record. -/
def State.modTwin (s : State) (g : TwinSt → TwinSt) : State := s.modTim fun t => { t with twin := g t.twin }

/-- The twin state (Table TCK-7). -/
def State.twinState (s : State) : Nat := s.rd R.TIM_TWIN_STATE

/-- This module is the lead twin. -/
def State.twinLead (s : State) : Bool := s.flag R.TIM_TWIN_LEAD

/-- MP5 counts as up for Table TCK-7 (R437). -/
def State.mp5Up (s : State) : Bool := s.meshUp 5 && (s.mport 5).uid == some s.tim.twin.uid

/-- Lane `l` is twin-aligned. -/
def State.twinLane (s : State) (l : Nat) : Bool := s.tim.twin.on && s.tim.twin.lanes / 2 ^ l % 2 == 1

/-- Entry into ALIGNING, with the twin offset: the lead twin's TICK minus the follower's at the same boundary. -/
def State.enterAligning (s : State) : State :=
  (s.wr R.TIM_TWIN_STATE 1).raise 0x0b02 0 [.q (ofSigned 64 (s.tim.twin.offset.getD 0))]

/-! ### Set-up and removal (R408) -/

/-- The checks of TIM_TWIN. -/
def chkTimTwin (action lead peer : Nat) (c : Ctx) (s : State) : List Ck :=
  c.pf ++ [ckFormat (decide (1 < action) || decide (2 < lead) || decide (4096 ≤ peer)),
    ckAbsent (action == 1 && !(s.meshUp 5 && s.rd (R.MSH_PORT_STAT_NBR_ADDR 5) == peer)),
    ckCond (action == 1 && s.tim.twin.on) St.slotBusy]

/-- TIM_TWIN applied: set-up records the module on MP5 as the peer; removal enters UNPAIRED. -/
def appTimTwin (action lead peer lanes : Nat) (_ : Ctx) (s : State) : Applied :=
  if action = 1 then
    let leads := lead == 1 || (lead == 0 && decide (s.meshAddr < peer))
    { s := (s.modTwin fun _ => { on := true, uid := (s.mport 5).uid.getD 0, peer := peer, lanes := lanes }).wrB
        R.TIM_TWIN_LEAD leads }
  else
    let was := s.twinState
    let s := (((s.modTwin fun w => { psi := w.psi, missTotal := w.missTotal }).wr R.TIM_TWIN_STATE 0).wrB
      R.TIM_TWIN_LEAD false).wr R.TIM_TWIN_OFFSET 0
    { s := if was = 0 then s else s.raise 0x0b01 0 }

/-- TIM_TWIN with ACTION 1 as a request of its own. -/
def execTimTwinSetup (h : ReqHdr) (mem : HostMem) (lead peer lanes : Nat) (s : State) : Host.Outcome State Fault Refusal :=
  .next <| runOne h mem 0x64 (.timTwin 1 lead peer lanes) s (chkTimTwin 1 lead peer) (appTimTwin 1 lead peer lanes)

/-- TIM_TWIN with ACTION 0 as a request of its own. -/
def execTimTwinRemove (h : ReqHdr) (mem : HostMem) (lead peer lanes : Nat) (s : State) : Host.Outcome State Fault Refusal :=
  .next <| runOne h mem 0x64 (.timTwin 0 lead peer lanes) s (chkTimTwin 0 lead peer) (appTimTwin 0 lead peer lanes)

/-! ### The timing slot (R438) -/

/-- SEND_OFS of a timing slot: the first code-group boundary at or after 512 core cycles. Code groups are 20.48 units long
and their phase against the tick is open (assumption 1). -/
def State.sendOfs (s : State) : Nat × State :=
  let (v, s) := s.fresh
  (8192 + v % 21, s)

/-- The lead twin's phase report of a boundary. -/
def State.sendPhase (s : State) : State :=
  if s.tim.twin.on && s.twinLead && s.meshUp 5 then
    let (o, s) := s.sendOfs
    let b := match s.tim.twin.gotProbe with
      | some (p, t, a) =>
        if t + 1 = s.tick then natBe 8 p ++ natBe 8 t ++ natBe 4 a else List.replicate 8 0xff ++ List.replicate 12 0
      | none => List.replicate 8 0xff ++ List.replicate 12 0
    s.meshLink 5 0x06 0 (natBe 8 s.tick ++ natBe 4 o ++ b)
  else s

/-- TWIN_PHASE_SEND. -/
def execTwinPhaseSend (s : State) : Host.Outcome State Fault Refusal := .next s.sendPhase

/-- The follower's probe, at boundaries where TICK mod 160 = 0. -/
def State.sendProbe (s : State) : State :=
  if s.tim.twin.on && !s.twinLead && s.meshUp 5 then
    let (o, s) := s.sendOfs
    (s.modTwin fun w => { w with probe := some (s.tick, o) }).meshLink 5 0x07 0 (natBe 8 s.tick ++ natBe 4 o)
  else s

/-- TWIN_PROBE_SEND. -/
def execTwinProbeSend (s : State) : Host.Outcome State Fault Refusal := .next s.sendProbe

/-- TWIN_PHASE: the follower receives a phase report whose first octet arrives at `arr` in this tick. `probe`: the TICK of
the probe it answers with that probe's arrival stamp. It measures the round trip and the offset; the first measurement
after set-up pairs the boundaries and enters ALIGNING, whose event carries the offset. -/
def execTwinPhase (lead ofs : Nat) (probe : Option (Nat × Nat × Nat)) (arr : Fin 160000) (s : State) :
    Host.Outcome State Fault Refusal := .next <|
  if !s.tim.twin.on || s.twinLead || !s.mp5Up then s
  else
    let w := s.tim.twin
    let here : Int := ((s.tick * 160000 + arr.val : Nat) : Int)
    let rtt := match probe, w.probe with
      | some (p, pt, po), some (q, qo) =>
        if p = q then
          some ((here - ((q * 160000 + qo : Nat) : Int)) - (((lead * 160000 + ofs : Nat) : Int) - ((pt * 160000 + po : Nat) : Int)))
        else w.rtt
      | _, _ => w.rtt
    match rtt with
    | none => s
    | some r =>
      let inst := 2 * (here - ofs) - r
      let (own, s) := match w.offset with
        | some o => ((lead : Int) - o, s)
        | none => s.nearestOpen inst 320000
      let sub := inst - 320000 * own
      let (ns, s) := s.nearestOpen (5 * sub) 256
      let s := s.modTwin fun w => { w with rtt := some r, offset := some ((lead : Int) - own), sub := sub, subTick := some s.tick }
      let s := s.wrS R.TIM_TWIN_OFFSET (clampInt (-32767) 32767 ns)
      if s.twinState = 0 then s.enterAligning else s

/-- TWIN_PROBE: the lead twin receives a probe of the follower's boundary `tick`. The first after set-up gives it the twin
offset, with which it enters ALIGNING. -/
def execTwinProbe (tick ofs : Nat) (arr : Fin 160000) (s : State) : Host.Outcome State Fault Refusal := .next <|
  if !s.tim.twin.on || !s.twinLead || !s.mp5Up then s
  else
    let s := s.modTwin fun w => { w with gotProbe := some (tick, s.tick, arr.val) }
    match s.tim.twin.offset with
    | some _ => s
    | none =>
      let (own, s) := s.nearestOpen (((s.tick * 160000 + arr.val : Nat) : Int) - ofs) 160000
      (s.modTwin fun w => { w with offset := some (own - tick) }).enterAligning

/-! ### Egress records (R51, R439) -/

/-- The records of the lead twin for egress tick `e`: one for each twin-aligned lane that a port owns. -/
def State.twinRecords (s : State) (e : Nat) : List TwinRec :=
  ((List.range 288).filter fun l => s.twinLane l && s.laneOwner l != 0x1ff).filterMap fun l =>
    ((s.port (s.laneOwner l)).own.find? fun r => r.egress == e).map fun r => { r with lane := l }

/-- A record on the link (Table MSH-4). -/
def TwinRec.bytes (r : TwinRec) : List Byte :=
  natBe 12 (r.lane * 2 ^ 87 + r.egress % 2 ^ 16 * 2 ^ 71 + r.ep * 2 ^ 54 + r.frame % 2 ^ 32 * 2 ^ 22 + r.adapt * 2 ^ 14 +
    r.flags * 2 ^ 6)

/-- Records in messages of at most 85, with fuel for 288 lanes. -/
def State.sendRecords : Nat → List TwinRec → State → State
  | 0, _, s => s
  | _ + 1, [], s => s
  | n + 1, r :: l, s =>
    let part := (r :: l).take 85
    State.sendRecords n ((r :: l).drop 85)
      (s.meshLink 5 0x08 0 (natBe 2 part.length ++ [0, 0] ++ part.flatMap TwinRec.bytes))

/-- TWIN_EGRESS_SEND: in tick E - 3 the lead twin sends the records for egress tick E. -/
def State.sendTwinEgress (s : State) : State :=
  if s.tim.twin.on && s.twinLead && s.meshUp 5 then State.sendRecords 4 (s.twinRecords (s.tick + 3)) s else s

/-- TWIN_EGRESS_SEND. -/
def execTwinEgressSend (s : State) : Host.Outcome State Fault Refusal := .next s.sendTwinEgress

/-- The own egress tick that a record's 16 bits name, the one nearest this tick. -/
def State.ownEgress (s : State) (low : Nat) : Int :=
  let o := s.tim.twin.offset.getD 0
  let d := ((low : Int) - o - s.tick) % 65536
  s.tick + (if d < 32768 then d else d - 65536)

/-- TWIN_EGRESS: records received by the follower; one that comes after the end of tick E - 2 is of no use. -/
def execTwinEgress (recs : List TwinRec) (s : State) : Host.Outcome State Fault Refusal := .next <|
  if !s.tim.twin.on || s.twinLead || !s.mp5Up || s.tim.twin.offset.isNone then s
  else (recs.take 85).foldl (fun s r =>
    let e := s.ownEgress r.egress
    if (s.tick : Int) + 2 ≤ e ∧ s.twinLane r.lane = true then
      s.modTwin fun w => { w with recs := Tab.set (fun _ => none) w.recs (e.toNat * 512 + r.lane) (some r) }
    else s) s

/-- The record that the follower adopts for a lane at egress tick `e`: while ALIGNED. -/
def State.adopted (s : State) (l e : Nat) : Option TwinRec :=
  if s.tim.twin.on && !s.twinLead && s.twinState == 2 && s.twinLane l then
    Tab.get (fun _ => none) s.tim.twin.recs (e * 512 + l)
  else none

/-! ### The twin states (Table TCK-7) -/

/-- The last measured offset lies within 100 ns. -/
def State.twinNear (s : State) : Bool := decide (5 * s.tim.twin.sub.natAbs ≤ 25600)

/-- What this tick says of alignment, once per tick: the follower looks at the offset and at the records for egress tick
t + 2, which had to come by now; the lead twin, which has neither, at MP5. -/
def State.twinLook (s : State) : State :=
  let w := s.tim.twin
  if !w.on || w.lookTick == some s.tick then s
  else
    let lanes := if s.twinLead then [] else (List.range 288).filter fun l => s.twinLane l && s.laneOwner l != 0x1ff
    let got := fun l => (Tab.get (fun _ => none) w.recs ((s.tick + 2) * 512 + l)).isSome
    let missing := lanes.filter fun l => !got l
    let missed := if s.twinLead then
        [(0, if s.mp5Up then 0 else Tab.get (fun _ => 0) w.missed 0 + 1)]
      else lanes.map fun l => (l, if got l then 0 else Tab.get (fun _ => 0) w.missed l + 1)
    let near := s.twinLead || (w.subTick.isSome && s.twinNear)
    s.modTwin fun w => { w with
      lookTick := some s.tick, missed := missed, missTotal := w.missTotal + missing.length
      goodRun := w.goodRun.step s.tick (near && s.mp5Up && missing.isEmpty)
      farRun := w.farRun.step s.tick (!near)
      recs := w.recs.filter fun q => decide (s.tick * 512 < q.1) }

/-- ALIGNED after 160 ticks, from ALIGNING or LAPSED. -/
def State.twinAlign (s : State) : State :=
  let s := s.twinLook
  if (s.twinState = 1 ∨ s.twinState = 3) ∧ 160 ≤ s.tim.twin.goodRun.n then (s.wr R.TIM_TWIN_STATE 2).raise 0x0b03 0 else s

/-- TWIN_ALIGNED: the end of a tick. -/
def execTwinAligned (s : State) : Host.Outcome State Fault Refusal := .next s.twinAlign

/-- LAPSED, from ALIGNED, after 4 ticks above 100 ns or 8 records of a lane missed in a row. -/
def State.twinLapse (s : State) : State :=
  let s := s.twinLook
  let far := decide (4 ≤ s.tim.twin.farRun.n)
  let miss := s.tim.twin.missed.any fun q => decide (8 ≤ q.2)
  if s.twinState = 2 ∧ (far || miss) = true then
    ((s.modTwin fun w => { w with lapsedAt := s.tick, goodRun := {} }).wr R.TIM_TWIN_STATE 3).raise 0x0b04 0 [.w (if far then 0 else 1)]
  else s

/-- TWIN_LAPSED: the end of a tick. -/
def execTwinLapsed (s : State) : Host.Outcome State Fault Refusal := .next s.twinLapse

/-- ALIGNING again after 1,600 ticks in LAPSED. -/
def State.twinAgain (s : State) : State :=
  if s.twinState = 3 ∧ s.tim.twin.lapsedAt + 1600 ≤ s.tick then s.enterAligning else s

/-- TWIN_REALIGN: the end of a tick. -/
def execTwinRealign (s : State) : Host.Outcome State Fault Refusal := .next s.twinAgain

/-- TWIN_STEER_LIMIT: the follower's steering in this tick, in ppb. It moves the steering phase only in a tick with a phase
report, outside LAPSED and UNPAIRED (R399); the 160th tick in a row at 2 ppm raises the event. -/
def execTwinSteerLimit (ppb : Int) (s : State) : Host.Outcome State Fault Refusal := .next <|
  if !s.tim.twin.on || s.twinLead then s
  else
    let steered := s.tim.twin.subTick == some s.tick && (s.twinState == 1 || s.twinState == 2)
    let g := clampInt (-2000) 2000 ppb
    let r := s.tim.twin.limitRun.step s.tick (steered && decide (2000 ≤ ppb.natAbs))
    let again := r.n == s.tim.twin.limitRun.n
    let s := s.modTwin fun w => { w with limitRun := r, psi := if steered then w.psi + g else w.psi }
    if r.n = 160 ∧ again = false then s.raise 0x0f09 0 [.s g] else s

end Sys2Proof.Machine
end

