-- ==== Sys2Proof/Machine/Egress.lean ====
section
/-! DEFINITION. Client egress in slot T+6 (R272, R273, R279, R280), with the adoption of twin egress records (R51, R52). -/
namespace Sys2Proof.Machine

/-- The row of Table CLT-5 for a port with the frames it was given in the slot before. -/
def State.egressRow (s : State) (p : Nat) (replaced : Bool) : Nat :=
  let x := s.port p
  if s.flag R.FLT_STAT_SAFE then 2
  else if !x.running then 3
  else if !s.portConnected p then 4
  else if replaced then 5
  else 6

/-- The adaptation that an ADAPT field codes. -/
def adaptOf (a : Nat) : Int := if 128 ≤ a then ((a - 128 : Nat) : Int) else -(a : Int)

/-- A record differs from the own decision for its lane, other than by a frame decoded with errors here (R52). -/
def twinDiffers (own r : TwinRec) : Bool :=
  !(decide (own.ep = r.ep) && decide (own.frame % 2 ^ 32 = r.frame) && decide (own.adapt = r.adapt) &&
    (decide (own.flags = r.flags) || own.flags % 2 == 1))

/-- TWIN_DIVERGENCE for each lane of the port whose adopted record differs. -/
def State.divergence (s : State) (p e : Nat) (own : Option TwinRec) : State :=
  (portLanes p (s.port p)).foldl (fun s l =>
    match s.adopted l e, own with
    | some r, some o => if twinDiffers o r then s.raise 0x0b05 l [.q e] else s
    | some _, none => s.raise 0x0b05 l [.q e]
    | none, _ => s) s

/-- What the port maps for egress tick `e`: the adaptation, whether a replacement is sent, and the endpoint whose record was missed
(Table TCK-8, R52). -/
def egressPlan (rec own : Option TwinRec) (bad : Bool) : Int × Bool × Option Nat :=
  match rec, own with
  | some r, some o =>
    let miss := decide (o.frame % 2 ^ 32 ≠ r.frame) || decide (o.ep ≠ r.ep)
    (adaptOf r.adapt, bad || miss || r.flags % 2 == 1, if miss && !bad then some r.ep else none)
  | some r, none => (adaptOf r.adapt, true, some r.ep)
  | none, some o => (adaptOf o.adapt, bad, none)
  | none, none => (0, bad, none)

/-- A missed record counts as a replaced frame of its endpoint. -/
def State.missedFrame (s : State) (m : Option Nat) : State :=
  match m with
  | some ep => s.setEp ep { s.ep ep with replaced := satAdd 0xffffffff (s.ep ep).replaced 1 }
  | none => s

/-- Idles inserted and deleted, and an overflow of the egress buffer (R272, R273). -/
def State.egressAdapt (s : State) (p made : Nat) (level adapt : Int) (ovf : Option (Fin 2)) (x y : PortSt) : State :=
  let ins := if 0 < adapt then adapt.toNat else 0
  let del := min made (if adapt < 0 then (-adapt).toNat else 0)
  let (ui, ri) := units1024 x.insRem ins
  let (ud, rd) := units1024 x.delRem del
  let s := (s.bump (R.CLT_PORT_ADAPT_INS p) ui).bump (R.CLT_PORT_ADAPT_DEL p) ud
  let y := { y with insRem := ri, delRem := rd, level := clampInt 0 4096 level }
  match ovf with
  | none => s.setPort p y
  | some k =>
    let s := s.bump (R.CLT_PORT_ADAPT_OVF p) 1
    if x.ovfTick.any fun t => decide (s.tick < t + 160) then s.setPort p y
    else (s.setPort p { y with ovfTick := some s.tick }).raise 0x0905 p [.w k.val]

/-- The output of port `p` in egress tick `e` under `plan` (Table CLT-5). -/
def State.egressSend (s : State) (p e made : Nat) (level : Int) (ovf : Option (Fin 2)) (x : PortSt) (plan : Int × Bool × Option Nat) :
    State :=
  let s := s.missedFrame plan.2.2
  let row := s.egressRow p plan.2.1
  let repl := decide (row ≠ 6)
  let squelched := (portLanes p x).any fun l => s.flag (R.CLT_LANE_CTL_SQUELCH l)
  let s := s.wrB (R.CLT_PORT_STAT_TX_REPL p) (repl || squelched)
  let y := { x with
    txRow := row, kinds := x.kinds.filter fun q => decide (s.tick ≤ q.1), repl := repl
    own := x.own.filter fun r => decide (e < r.egress) }
  if x.client = 6 then s.setPort p y
  else if repl then s.setPort p { y with level := if x.repl then level else 2048 }
  else s.egressAdapt p made level plan.1 ovf x y

/-- CLIENT_EGRESS_MAP: slot T+6: the frames of the slot before are demapped or replaced by Table CLT-5. `made`: idle blocks
deleted of those the adaptation asks for (a deletion that finds no idle is not made); `level`: the buffer level left;
`ovf`: the buffer found full (0) or empty inside a packet (1) (R273). An adopted record's frame that this module does not
hold error-free is replaced and counted. -/
def execClientEgressMap (p : Fin 288) (made : Nat) (level : Int) (ovf : Option (Fin 2)) (s : State) :
    Host.Outcome State Fault Refusal := .next <|
  let x := s.port p.val
  if x.client = 0 then s
  else
    let e := s.tick + 1
    let own := x.own.find? fun r => r.egress == e
    let s := s.divergence p.val e own
    let bad := (x.kinds.filter fun q => decide (q.1 < s.tick)).any fun q => q.2 != 0
    s.egressSend p.val e made level ovf x (egressPlan (s.adopted p.val e) own bad)

end Sys2Proof.Machine
end

