-- ==== Sys2Proof/Machine/Crypto.lean ====
section
/-! DEFINITION. AES-256 (FIPS 197), GCM (NIST SP 800-38D) and AES key wrap (NIST SP 800-38F), which the spec names by
their standards (assumption 3). Blocks are lists of 16 byte values. -/
namespace Sys2Proof.Machine

/-- Multiplication by x in GF(2^8). -/
def gfTwice (a : Nat) : Nat := if 128 ≤ a then (2 * a) % 256 ^^^ 0x1b else 2 * a

/-- Multiplication in GF(2^8). -/
def gfMul (a b : Nat) : Nat :=
  ((List.range 8).foldl (fun (st : Nat × Nat) i =>
    (if b / 2 ^ i % 2 = 1 then st.1 ^^^ st.2 else st.1, gfTwice st.2)) (0, a)).1

/-- The inverse in GF(2^8): the 254th power. -/
def gfInv (a : Nat) : Nat :=
  let sq := fun x => gfMul x x
  let a2 := sq a
  let a4 := sq a2
  let a8 := sq a4
  let a16 := sq a8
  let a32 := sq a16
  let a64 := sq a32
  let a128 := sq a64
  [a4, a8, a16, a32, a64, a128].foldl gfMul a2

/-- Rotation of a byte to the left. -/
def rotByte (a n : Nat) : Nat := (a * 2 ^ n) % 256 + a / 2 ^ (8 - n)

/-- The substitution box. -/
def aesSbox (a : Nat) : Nat :=
  let x := gfInv a
  x ^^^ rotByte x 1 ^^^ rotByte x 2 ^^^ rotByte x 3 ^^^ rotByte x 4 ^^^ 0x63

/-- Its inverse. -/
def aesInvSbox (y : Nat) : Nat :=
  gfInv (rotByte y 1 ^^^ rotByte y 3 ^^^ rotByte y 6 ^^^ 0x05)

/-- The next word of the key schedule from word `i - 8` and word `i - 1`. -/
def aesNextWord (i : Nat) (w8 w1 : List Nat) : List Nat :=
  let t :=
    if i % 8 = 0 then
      match w1 with
      | a :: rest => ((rest ++ [a]).map aesSbox).zipIdx.map fun p =>
          if p.2 = 0 then p.1 ^^^ ((List.range (i / 8 - 1)).foldl (fun r _ => gfTwice r) 1) else p.1
      | [] => []
    else if i % 8 = 4 then w1.map aesSbox
    else w1
  (w8.zip t).map fun p => p.1 ^^^ p.2

/-- The 60 words of the key schedule of a 256-bit key. -/
def aesSchedule (key : List Nat) : List (List Nat) :=
  let w0 := (List.range 8).map fun i => (key.drop (4 * i)).take 4
  (List.range 52).foldl (fun ws k => ws ++ [aesNextWord (k + 8) (ws.getD k []) (ws.getD (k + 7) [])]) w0

/-- Exclusive-or of two byte strings. -/
def xorBytes (a b : List Nat) : List Nat := (a.zip b).map fun p => p.1 ^^^ p.2

/-- The key of round `r`. -/
def roundKey (ws : List (List Nat)) (r : Nat) : List Nat := ((ws.drop (4 * r)).take 4).flatten

/-- Row `r` of column `c` is byte `4 c + r`: rows shift left by their index. -/
def shiftRows (b : List Nat) : List Nat := (List.range 16).map fun i => b.getD ((i + 4 * (i % 4)) % 16) 0

/-- The inverse shift. -/
def invShiftRows (b : List Nat) : List Nat := (List.range 16).map fun i => b.getD ((i + 12 * (i % 4)) % 16) 0

/-- A column transform with the first row `m` of its circulant matrix. -/
def mixWith (m : List Nat) (b : List Nat) : List Nat :=
  (List.range 16).map fun i =>
    (List.range 4).foldl (fun a k => a ^^^ gfMul (b.getD (i / 4 * 4 + k) 0) (m.getD ((k + 4 - i % 4) % 4) 0)) 0

/-- The AES-256 cipher of one block. -/
def aesEncrypt (key block : List Nat) : List Nat :=
  let ws := aesSchedule key
  let b := (List.range 13).foldl (fun b r =>
    xorBytes (mixWith [2, 3, 1, 1] (shiftRows (b.map aesSbox))) (roundKey ws (r + 1))) (xorBytes block (roundKey ws 0))
  xorBytes (shiftRows (b.map aesSbox)) (roundKey ws 14)

/-- The inverse cipher. -/
def aesDecrypt (key block : List Nat) : List Nat :=
  let ws := aesSchedule key
  let b := (List.range 13).foldl (fun b r =>
    mixWith [14, 11, 13, 9] (xorBytes ((invShiftRows b).map aesInvSbox) (roundKey ws (13 - r))))
    (xorBytes block (roundKey ws 14))
  xorBytes ((invShiftRows b).map aesInvSbox) (roundKey ws 0)

/-- A byte string read high byte first. -/
def beVal (l : List Nat) : Nat := l.foldl (fun a b => 256 * a + b) 0

/-- `n` bytes of a value, high byte first. -/
def beList (n v : Nat) : List Nat := (List.range n).map fun i => v / 256 ^ (n - 1 - i) % 256

/-- Byte values of bytes, and back. -/
def toVals (l : List Byte) : List Nat := l.map BitVec.toNat
def toBytes (l : List Nat) : List Byte := l.map (BitVec.ofNat 8)

/-- Multiplication in GF(2^128) in the bit order of GCM. -/
def ghashMul (x h : Nat) : Nat :=
  ((List.range 128).foldl (fun (st : Nat × Nat) i =>
    (if x / 2 ^ (127 - i) % 2 = 1 then st.1 ^^^ st.2 else st.1,
     if st.2 % 2 = 1 then st.2 / 2 ^^^ (0xe1 * 2 ^ 120) else st.2 / 2)) (0, h)).1

/-- Zeros that fill a string to whole blocks. -/
def padBlock (l : List Nat) : List Nat := l ++ List.replicate ((16 - l.length % 16) % 16) 0

/-- GHASH over additional data and ciphertext with their lengths. -/
def ghash (h : Nat) (aad ct : List Nat) : Nat :=
  let l := padBlock aad ++ padBlock ct ++ beList 8 (8 * aad.length) ++ beList 8 (8 * ct.length)
  (List.range (l.length / 16)).foldl (fun y i => ghashMul (y ^^^ beVal ((l.drop (16 * i)).take 16)) h) 0

/-- The counter mode of GCM under a 12-byte IV: block `i` of the text uses counter `i + 2`. -/
def gcmCtr (key iv text : List Nat) : List Nat :=
  ((List.range ((text.length + 15) / 16)).flatMap fun i =>
    xorBytes ((text.drop (16 * i)).take 16) (aesEncrypt key (iv ++ beList 4 (i + 2)))).take text.length

/-- The 12-byte tag: the leftmost 96 bits of the GCM tag (R288). -/
def gcmTag (key iv aad ct : List Nat) : List Nat :=
  let h := beVal (aesEncrypt key (List.replicate 16 0))
  (xorBytes (beList 16 (ghash h aad ct)) (aesEncrypt key (iv ++ [0, 0, 0, 1]))).take 12

/-- One step of AES key unwrap: `t` counts down from 6 n. -/
def unwrapStep (key : List Nat) (n : Nat) (st : List Nat × List (List Nat)) (t : Nat) : List Nat × List (List Nat) :=
  let i := (t - 1) % n
  let b := aesDecrypt key (xorBytes st.1 (beList 8 t) ++ st.2.getD i [])
  (b.take 8, st.2.set i (b.drop 8))

/-- AES key unwrap with the default integrity check value: none when it does not match (SP 800-38F). -/
def keyUnwrap (key wrapped : List Nat) : Option (List Nat) :=
  let n := wrapped.length / 8 - 1
  let r := (List.range n).map fun i => (wrapped.drop (8 * (i + 1))).take 8
  let (a, r) := (List.range (6 * n)).foldl (fun st k => unwrapStep key n st (6 * n - k)) (wrapped.take 8, r)
  if a = List.replicate 8 0xa6 then some r.flatten else none

/-- AES key wrap. -/
def keyWrap (key plain : List Nat) : List Nat :=
  let n := plain.length / 8
  let r := (List.range n).map fun i => (plain.drop (8 * i)).take 8
  let (a, r) := (List.range (6 * n)).foldl (fun (st : List Nat × List (List Nat)) k =>
    let i := k % n
    let b := aesEncrypt key (st.1 ++ st.2.getD i [])
    (xorBytes (b.take 8) (beList 8 (k + 1)), st.2.set i (b.drop 8))) (List.replicate 8 0xa6, r)
  a ++ r.flatten

end Sys2Proof.Machine
end

