-- ==== Sys2Proof/Machine/Tenancy.lean ====
section
/-! DEFINITION. Tenants and their quotas (R22..R25, R254..R256, R312): use, checks, QUOTA_OVER and QUOTA_CLEAR. -/
namespace Sys2Proof.Machine

/-- The kind of server of a slot key: 0 frond, 1 FlexO interface, 2 HO ODU4. -/
def slotKind (k : Nat) : Nat := k / 2 ^ 40

/-- The key of slot `i` of server `id` of kind `k`. -/
def slotKey (k id i : Nat) : Nat := k * 2 ^ 40 + id * 2 ^ 12 + i

/-- Units of a slot: 4 for 5 G, 1 for 1.25 G (R254). -/
def slotUnits (key : Nat) : Nat := if slotKind key = 2 then 1 else 4

/-- Units held by the endpoints that satisfy `mine`. -/
def State.unitsOf (s : State) (mine : Endpoint → Bool) : Nat :=
  ((s.slotOwner.filter fun q => mine (s.ep (q.2 - 1))).map fun q => slotUnits q.1).sum

/-- Units that tenant `t` holds. -/
def State.unitUse (s : State) (t : Nat) : Nat := s.unitsOf fun e => e.entry.tenant == t

/-- SAs that tenant `t` holds. -/
def State.saUse (s : State) (t : Nat) : Nat := (s.sas.filter fun q => q.2.state != 0 && q.2.tenant == t).length

/-- Granules that tenant `t` holds. -/
def State.granUse (s : State) (t : Nat) : Nat :=
  ((s.eps.filter fun q => q.2.entry.kind != 0 && q.2.entry.tenant == t).map fun q => q.2.entry.granules).sum

/-- Granules held module-wide. -/
def State.granHeld (s : State) : Nat := ((s.eps.filter fun q => q.2.entry.kind != 0).map fun q => q.2.entry.granules).sum

/-- A slot whose table entry is fenced (Table MEM-2). -/
def State.slotFenced (s : State) (key : Nat) : Bool :=
  s.mem.fence.any fun k => k / 2 ^ 32 == 0x11 && Config.tableObject (k % 2 ^ 32) == key

/-- Writes of the tributary slot table: the bytes of those slots are clean and leave the fence list (R553). -/
def State.slotsWritten (s : State) (keys : List Nat) : State :=
  let out := fun (k : Nat) => !(k / 2 ^ 32 == 0x11 && keys.contains (Config.tableObject (k % 2 ^ 32)))
  (s.modMem fun x => { x with flips := x.flips.filter fun p => out p.1, fence := x.fence.filter out }).fenceRegs

/-- Granules that are not allocated because their map entry is fenced. -/
def State.granFenced (s : State) : Nat :=
  ((List.range 8192).filter fun g =>
    s.mem.fence.any fun k => k / 2 ^ 32 == 0x11 && Config.tableObject (k % 2 ^ 32) == 2 ^ 60 + g).length

/-- Granules that can be taken. -/
def State.granFree (s : State) : Nat := 8192 - s.granHeld - s.granFenced

/-- A request would raise the use of tenant `t` above its quota (R255). T0000 has no quota. -/
def State.overUnits (s : State) (t add : Nat) : Bool :=
  t != 0 && decide (0 < add) && decide ((s.tenant t).unitQuota < s.unitUse t + add)
def State.overSas (s : State) (t add : Nat) : Bool :=
  t != 0 && decide (0 < add) && decide ((s.tenant t).saQuota < s.saUse t + add)
def State.overGrans (s : State) (t add : Nat) : Bool :=
  t != 0 && decide (0 < add) && decide ((s.tenant t).granQuota < s.granUse t + add)

/-- QUOTA_OVER or QUOTA_CLEAR of one resource, to the rings of the tenant and of T0000. -/
def State.quotaEvent (s : State) (t res : Nat) (above : Bool) : State :=
  s.raiseEv { code := if above then 0x0808 else 0x0809, obj := t, tick := s.tick, tenant := t,
              dest := .tenants [t, 0], vals := [.w res] }

/-- XC_QUOTA_STAT: tenants with an OVER bit. -/
def State.quotaRegs (s : State) : State :=
  let n := (s.host.tenants.filter fun q => q.2.overUnits || q.2.overSa || q.2.overGran).length
  (s.wrB R.XC_QUOTA_STAT_ANY (decide (0 < n))).wr R.XC_QUOTA_STAT_OVER n

/-- The OVER bits of tenant `t` follow use and quota (R256). -/
def State.quotaUpdate (s : State) (t : Nat) : State :=
  if t = 0 then s
  else
    let r := s.tenant t
    let u := decide (r.unitQuota < s.unitUse t)
    let a := decide (r.saQuota < s.saUse t)
    let g := decide (r.granQuota < s.granUse t)
    let s := s.setTenant t { r with overUnits := u, overSa := a, overGran := g }
    let s := if u != r.overUnits then s.quotaEvent t 0 u else s
    let s := if a != r.overSa then s.quotaEvent t 1 a else s
    let s := if g != r.overGran then s.quotaEvent t 2 g else s
    s.quotaRegs

/-- The registers of the cross-connect follow its tables (Tables XC-8..XC-10). -/
def State.xcRegs (s : State) : State :=
  let s := s.wr R.XC_EP_USED_USED (s.eps.filter fun q => q.2.entry.kind != 0).length
  let s := (s.wr R.XC_GRAN_USED s.granHeld).wr R.XC_GRAN_FREE s.granFree
  s.wr R.XC_UNITS_USED (s.unitsOf fun _ => true)

/-! ### QUOTA_SET and QUOTA_READ -/

/-- QUOTA_SET: PF only; it names the tenant whose quotas it sets, T0000 draws FORMAT (R311, R254). -/
def chkQuotaSet (units sas grans : Nat) (c : Ctx) (s : State) : List Ck :=
  [c.ckNoAny, ⟨8, c.src.fn != 0, St.ownership, 0⟩, ckFormat (c.tenant == 0),
   ckFormat (decide (92160 < units) || decide (16384 < sas) || decide (8192 < grans)),
   ckAbsent (!(s.tenant c.tenant).active)]

/-- QUOTA_SET applied. -/
def appQuotaSet (units sas grans : Nat) (c : Ctx) (s : State) : Applied :=
  let r := s.tenant c.tenant
  { s := (s.setTenant c.tenant { r with unitQuota := units, saQuota := sas, granQuota := grans }).quotaUpdate c.tenant }

/-- QUOTA_SET as a request of its own. -/
def execQuotaSet (h : ReqHdr) (mem : HostMem) (units sas grans : Nat) (s : State) : Host.Outcome State Fault Refusal :=
  .next <| runOne h mem 0x27 (.quotaSet units sas grans) s (chkQuotaSet units sas grans) (appQuotaSet units sas grans)

/-- The tenant quota record (Table XC-5). -/
def State.quotaRecord (s : State) (t : Nat) : List Byte :=
  let r := if t = 0 then {} else s.tenant t
  let b := fun (c : Bool) (i : Nat) => if c then 2 ^ i else 0
  natLe 4 r.unitQuota ++ natLe 4 (s.unitUse t) ++ natLe 4 (r.saQuota * 2 ^ 16 + s.saUse t) ++
  natLe 4 (b r.overUnits 31 + b r.overSa 30 + b r.overGran 29 + r.granQuota * 2 ^ 14 + s.granUse t)

/-- The checks of QUOTA_READ. -/
def chkQuotaRead (buf : Nat) (c : Ctx) (s : State) : List Ck :=
  c.ckNoAny :: c.ckTenant s ++ [ckAlign buf 64, s.ckBacklog 16]

/-- QUOTA_READ applied. -/
def appQuotaRead (buf dn : Nat) (c : Ctx) (s : State) : Applied := s.takeRead c dn buf (s.quotaRecord c.tenant)

/-- QUOTA_READ as a request of its own. -/
def execQuotaRead (h : ReqHdr) (mem : HostMem) (buf : Nat) (s : State) : Host.Outcome State Fault Refusal := .next <|
  runOne h mem 0x28 (.quotaRead buf) s (chkQuotaRead buf) (appQuotaRead buf h.dn)

/-! ### TENANT_CREATE and TENANT_DELETE (R311, R312) -/

/-- The lowest inactive tenant. -/
def State.lowestInactive (s : State) : Option Nat := (List.range 1024).find? fun t => !(s.tenant t).active

/-- The checks of TENANT_CREATE. -/
def chkTenantCreate (c : Ctx) (s : State) : List Ck :=
  [⟨8, c.src.fn != 0, St.ownership, 0⟩, ckFormat (c.any && c.tenant != 0),
   ckCond (!c.any && (s.tenant c.tenant).active) St.slotBusy,
   ⟨12, c.any && s.lowestInactive.isNone, St.tenantExhausted, 0⟩]

/-- TENANT_CREATE applied: all quotas 0; RESULT carries an ID chosen under ANY. -/
def appTenantCreate (c : Ctx) (s : State) : Applied :=
  let t := if c.any then s.lowestInactive.getD 0 else c.tenant
  { s := s.setTenant t { active := true }, result := if c.any then t else 0 }

/-- TENANT_CREATE as a request of its own. -/
def execTenantCreate (h : ReqHdr) (mem : HostMem) (s : State) : Host.Outcome State Fault Refusal := .next <|
  runOne h mem 0x29 .tenantCreate s chkTenantCreate appTenantCreate

/-- The key-encryption key of a tenant. -/
def State.kek (s : State) (t : Nat) : Option Kek := Tab.get (fun _ => none) s.sec.keks t

/-- Writes the key-encryption key of a tenant; its byte range in memory 0x15 is written with it. -/
def State.setKek (s : State) (t : Nat) (k : Option Kek) : State :=
  { s with sec := { s.sec with keks := Tab.set (fun _ => none) s.sec.keks t k } }.memWrite 0x15 0 (32 * t) 32

/-- KEK_ERASED with its reason, to the home rings of the tenant and of T0000 (R375). -/
def State.eraseKek (s : State) (t reason : Nat) : State :=
  match s.kek t with
  | none => s
  | some _ =>
    (s.setKek t none).raiseEv {
      code := 0x0e04, obj := t, tick := s.tick, tenant := t
      dest := .tenants (if t = 0 then [0] else [t, 0]), vals := [.w reason] }

/-- The checks of TENANT_DELETE. -/
def chkTenantDelete (c : Ctx) (s : State) : List Ck :=
  [c.ckNoAny, ⟨8, c.src.fn != 0, St.ownership, 0⟩, ⟨8, c.tenant == 0, St.ownership, 0⟩,
   ckAbsent (!(s.tenant c.tenant).active),
   ckCond (s.eps.any (fun q => q.2.entry.kind != 0 && q.2.entry.tenant == c.tenant) ||
     s.sas.any (fun q => q.2.state != 0 && q.2.tenant == c.tenant)) St.slotBusy]

/-- TENANT_DELETE applied: the tenant's key-encryption key is erased, the tenant is inactive. -/
def appTenantDelete (c : Ctx) (s : State) : Applied :=
  { s := ((s.eraseKek c.tenant 1).setTenant c.tenant {}).quotaRegs }

/-- TENANT_DELETE as a request of its own. -/
def execTenantDelete (h : ReqHdr) (mem : HostMem) (s : State) : Host.Outcome State Fault Refusal := .next <|
  runOne h mem 0x2a .tenantDelete s chkTenantDelete appTenantDelete

end Sys2Proof.Machine
end

