-- ==== Sys2Proof/Machine/Sa.lean ====
section
/-! DEFINITION. Security associations (chapter 12): the SA descriptors, keys and rolls, the encrypted frame. -/
namespace Sys2Proof.Machine

/-- SA `i`; a free one reads as the empty record. -/
def State.sa (s : State) (i : Nat) : SaRec := Tab.get (fun _ => {}) s.sas i

/-- Writes SA `i`; its table entry is written with it. -/
def State.setSa (s : State) (i : Nat) (x : SaRec) : State :=
  { s with sas := Tab.set (fun _ => {}) s.sas i x }

/-- CRY_SA_USED and CRY_SA_STAT follow the table. -/
def State.saRegs (s : State) : State :=
  let n := fun (f : SaRec → Bool) => (s.sas.filter fun q => f q.2).length
  let s := s.wr R.CRY_SA_USED_USED (n fun x => x.state != 0)
  (s.wr R.CRY_SA_STAT_LIMITED (n fun x => x.state == 3)).wr R.CRY_SA_STAT_KEY_ERR (n fun x => x.state == 4)

/-- Slot `k` of an SA. -/
def SaRec.slot (x : SaRec) (k : Nat) : Option KeySlot := if k = 0 then x.slot0 else x.slot1

/-- Writes slot `k`. -/
def SaRec.setSlot (x : SaRec) (k : Nat) (v : Option KeySlot) : SaRec :=
  if k = 0 then { x with slot0 := v } else { x with slot1 := v }

/-- The next slot. -/
def SaRec.other (x : SaRec) : Nat := 1 - x.cur

/-- The epoch in a slot, 0 when it is empty. -/
def SaRec.epoch (x : SaRec) (k : Nat) : Nat := ((x.slot k).map KeySlot.epoch).getD 0

/-- An SA event, to the ring of its tenant (R307). -/
def State.saEvent (s : State) (code i : Nat) (vals : List EVal) : State := s.raiseFor (s.sa i).tenant code i vals

/-- The key of slot `k` is written to the SA key RAM (R356). -/
def State.keyWritten (s : State) (i k : Nat) : State := s.memWrite 0x14 0 (96 * i + 48 * k) 48

/-- KEY_ERROR, to the rings of the SA's tenant and of T0000. -/
def State.keyErrorEvent (s : State) (i k : Nat) : State :=
  let t := (s.sa i).tenant
  s.raiseEv { code := 0x0a0a, obj := i, tick := s.tick, tenant := t,
              dest := .tenants (if t = 0 then [0] else [t, 0]), vals := [.w k] }

/-- The key of slot `k` is erased as R304 states. -/
def State.keyErase (s : State) (i k : Nat) : State :=
  let x := s.sa i
  if (x.slot k).isNone then s
  else if k = x.cur then
    ((s.setSa i { x.setSlot k none with state := 4 }).keyErrorEvent i k).saRegs
  else
    let s := (s.setSa i { x.setSlot k none with nxt := 0, rollTick := none }).keyErrorEvent i k
    match x.rollTick with
    | some r => s.saEvent 0x0a0b i [.q r]
    | none => s

/-! ### SA_CREATE, SA_CHANGE, SA_DELETE (R297) -/

/-- The lowest free SA ID. -/
def State.lowestSa (s : State) : Option Nat := (List.range 16384).find? fun i => (s.sa i).state == 0

/-- The named SA exists and the tenant acts on it. -/
def Ctx.ckSa (c : Ctx) (s : State) (i : Nat) : List Ck :=
  c.ckTenant s ++ [ckAbsent ((s.sa i).state == 0), c.ckOwner (s.sa i).tenant]

/-- The checks of SA_CREATE. -/
def chkSaCreate (i : Nat) (c : Ctx) (s : State) : List Ck :=
  c.ckTenant s ++ [ckFormat (decide (16384 ≤ i)),
    ckCond (!c.any && (s.sa i).state != 0) St.slotBusy, ⟨11, s.overSas c.tenant 1, St.overQuota, 0⟩,
    ⟨12, c.any && s.lowestSa.isNone, St.saExhausted, 0⟩]

/-- SA_CREATE applied: EMPTY for the named tenant. -/
def appSaCreate (i role peer peerSa soft : Nat) (c : Ctx) (s : State) : Applied :=
  let i := if c.any then s.lowestSa.getD 0 else i
  let s := s.setSa i { state := 1, role := role, tenant := c.tenant, peer := peer, peerSa := peerSa, soft := soft }
  { s := ((s.memWrite 0x13 0 (64 * i) 64).quotaUpdate c.tenant).saRegs, result := if c.any then i else 0 }

/-- SA_CREATE as a request of its own. -/
def execSaCreate (h : ReqHdr) (mem : HostMem) (i role peer peerSa soft : Nat) (s : State) :
    Host.Outcome State Fault Refusal := .next <|
  runOne h mem 0x30 (.saCreate i role peer peerSa soft) s (chkSaCreate i) (appSaCreate i role peer peerSa soft)

/-- The checks of SA_CHANGE. -/
def chkSaChange (i role : Nat) (c : Ctx) (s : State) : List Ck :=
  c.ckNoAny :: ckFormat (decide (16384 ≤ i)) :: c.ckSa s i ++
    [ckCond ((s.sa i).bound.isSome && (s.sa i).role != role) St.slotBusy]

/-- SA_CHANGE applied. -/
def appSaChange (i role peer peerSa soft : Nat) (_ : Ctx) (s : State) : Applied :=
  { s := s.setSa i { s.sa i with role := role, peer := peer, peerSa := peerSa, soft := soft } }

/-- SA_CHANGE as a request of its own. -/
def execSaChange (h : ReqHdr) (mem : HostMem) (i role peer peerSa soft : Nat) (s : State) :
    Host.Outcome State Fault Refusal := .next <|
  runOne h mem 0x31 (.saChange i role peer peerSa soft) s (chkSaChange i role) (appSaChange i role peer peerSa soft)

/-- The checks of SA_DELETE. -/
def chkSaDelete (i : Nat) (c : Ctx) (s : State) : List Ck :=
  c.ckNoAny :: ckFormat (decide (16384 ≤ i)) :: c.ckSa s i ++
    [ckCond ((s.sa i).bound.isSome || (s.sa i).rollTick.isSome) St.slotBusy]

/-- SA_DELETE applied: both slots are erased, the SA is free. -/
def appSaDelete (i : Nat) (_ : Ctx) (s : State) : Applied :=
  let t := (s.sa i).tenant
  let s := (s.setSa i {}).memWrite 0x13 0 (64 * i) 64
  { s := ((s.memWrite 0x14 0 (96 * i) 96).quotaUpdate t).saRegs }

/-- SA_DELETE as a request of its own. -/
def execSaDelete (h : ReqHdr) (mem : HostMem) (i : Nat) (s : State) : Host.Outcome State Fault Refusal := .next <|
  runOne h mem 0x32 (.saDelete i) s (chkSaDelete i) (appSaDelete i)

/-! ### KEY_LOAD, KEY_DISCARD, KEY_ROLL (R298..R301, R365) -/

/-- The entropy source is FAILED (R373). -/
def State.entropyFailed (s : State) : Bool := s.rd R.SEC_ENT_STAT_STATE == 3

/-- The plaintext of a wrapped key, or the reason for refusing it (R299): 4 no KEK, 1 integrity, 3 content, 2 names. -/
def State.unwrapKey (s : State) (i : Nat) (wrapped : List Byte) : Except Nat KeySlot :=
  let t := (s.sa i).tenant
  match s.kek t with
  | none => .error 4
  | some k =>
    if s.entropyFailed || s.sec.keDown then .error 4
    else match keyUnwrap (toVals k.key) (toVals wrapped) with
      | none => .error 1
      | some p =>
        let b := toBytes p
        let saW := fieldAt b 40 2
        let teW := fieldAt b 42 2
        if fieldAt b 44 1 ≠ 1 ∨ fieldAt b 36 4 = 0 ∨ 16384 ≤ saW ∨ 1024 ≤ teW ∨ fieldAt b 45 3 ≠ 0 then .error 3
        else if saW ≠ i ∨ teW ≠ t then .error 2
        else .ok { key := b.take 32, salt := slice b 32 4, epoch := fieldAt b 36 4 }

/-- The wrapped key as the module reads it. -/
def Ctx.wrapped (c : Ctx) (addr : Nat) : List Byte := (readHost c.mem addr 56).getD []

/-- The checks of KEY_LOAD. -/
def chkKeyLoad (i addr : Nat) (c : Ctx) (s : State) : List Ck :=
  let x := s.sa i
  let r := s.unwrapKey i (c.wrapped addr)
  let reason := match r with
    | .error k => k
    | .ok _ => 0
  let epoch := match r with
    | .ok k => k.epoch
    | .error _ => 0
  c.ckNoAny :: c.ckRead addr 56 :: ckAlign addr 64 :: ckFormat (decide (16384 ≤ i)) :: c.ckSa s i ++
    [⟨9, decide (64 ≤ Tab.get (fun _ => 0) s.sec.loads c.eff), St.schedule, 0⟩,
     ckCond (reason != 0) St.keyUnwrap reason,
     ckCond (x.state != 1 && decide (epoch ≤ x.epoch x.cur)) St.keyStale,
     ckCond (x.state != 1 && x.nxt != 0) St.bankBusy]

/-- KEY_LOAD applied: the current key of an EMPTY SA in slot 0, else the new key of the next slot. -/
def appKeyLoad (i addr : Nat) (c : Ctx) (s : State) : Applied :=
  match s.unwrapKey i (c.wrapped addr) with
  | .error k => { s := s, fail := some ⟨St.keyUnwrap, k⟩ }
  | .ok key =>
    let x := s.sa i
    let n := Tab.get (fun _ => 0) s.sec.loads c.eff
    let s := { s with sec := { s.sec with loads := [(c.eff, n + 1)] } }
    let slot := if x.state = 1 then 0 else x.other
    let x := if x.state = 1 then { x with slot0 := some key, state := 2, cur := 0, softSeen := false }
      else { x.setSlot slot (some key) with nxt := 1 }
    { s := (((s.setSa i x).keyWritten i slot).saEvent 0x0a01 i [.w slot, .w key.epoch]).saRegs }

/-- KEY_LOAD as a request of its own. -/
def execKeyLoad (h : ReqHdr) (mem : HostMem) (i addr : Nat) (s : State) : Host.Outcome State Fault Refusal := .next <|
  runOne h mem 0x33 (.keyLoad i addr) s (chkKeyLoad i addr) (appKeyLoad i addr)

/-- The checks of KEY_DISCARD. -/
def chkKeyDiscard (i : Nat) (c : Ctx) (s : State) : List Ck :=
  c.ckNoAny :: ckFormat (decide (16384 ≤ i)) :: c.ckSa s i ++ [ckCond (s.sa i).rollTick.isSome St.bankBusy]

/-- KEY_DISCARD applied: the next slot is emptied. -/
def appKeyDiscard (i : Nat) (_ : Ctx) (s : State) : Applied :=
  let x := s.sa i
  { s := (s.setSa i { x.setSlot x.other none with nxt := 0 }).keyWritten i x.other }

/-- KEY_DISCARD as a request of its own. -/
def execKeyDiscard (h : ReqHdr) (mem : HostMem) (i : Nat) (s : State) : Host.Outcome State Fault Refusal := .next <|
  runOne h mem 0x34 (.keyDiscard i) s (chkKeyDiscard i) (appKeyDiscard i)

/-- The checks of KEY_ROLL (R300): R in E + 1..E + 1,600,000. -/
def chkKeyRoll (i r : Nat) (c : Ctx) (s : State) : List Ck :=
  let x := s.sa i
  c.ckNoAny :: ckFormat (decide (16384 ≤ i)) :: c.ckSa s i ++
    [ckAbsent (x.nxt != 1), ⟨9, !(decide (c.eff < r) && decide (r ≤ c.eff + 1600000)), St.schedule, 0⟩,
     ckCond x.rollTick.isSome St.bankBusy]

/-- KEY_ROLL applied: the roll is pending. Its schedule goes out over the Rhizome at acceptance (R435). -/
def appKeyRoll (i r : Nat) (_ : Ctx) (s : State) : Applied := { s := s.setSa i { s.sa i with rollTick := some r } }

/-- KEY_ROLL as a request of its own; an accepted roll sends KEY_ROLL to PEER (R302). -/
def execKeyRoll (h : ReqHdr) (mem : HostMem) (i r : Nat) (s : State) : Host.Outcome State Fault Refusal := .next <|
  let ok := (firstFail (chkKeyRoll i r (h.ctx s mem) s)).isNone
  let s := runOne h mem 0x35 (.keyRoll i r) s (chkKeyRoll i r) (appKeyRoll i r)
  if ok then s.keyRollSend i r else s

/-- The roll of SA `i` at its tick (R300, step 2): the slots change places; the SA becomes KEYED. -/
def State.keyRollApply (s : State) (i : Nat) : State :=
  let x := s.sa i
  match x.rollTick with
  | none => s
  | some r =>
    if s.tick < r then s
    else
      let had := (x.slot x.cur).isSome
      let k := x.other
      let key := (x.slot k).map fun v => { v with inv := 0 }
      let x := { x.setSlot k key with
        cur := k, nxt := if had then 2 else 0, rollTick := none, rolledAt := r, softSeen := false
        state := if key.isSome then 2 else 4 }
      ((s.setSa i x).saEvent 0x0a03 i [.w (x.epoch k), .q r]).saRegs

/-- KEY_ROLL_APPLY: the roll tick of SA `i` has come. -/
def execKeyRollApply (i : Fin 16384) (s : State) : Host.Outcome State Fault Refusal := .next <| s.keyRollApply i.val

/-- PREVIOUS_KEY_ERASE: the end of a tick t: the previous key is erased when t is at least R + 15,999, it authenticated
nothing in t - 15,999..t, and the current key has authenticated a copy (R301). -/
def execPreviousKeyErase (i : Fin 16384) (s : State) : Host.Outcome State Fault Refusal := .next <|
  let x := s.sa i.val
  match x.slot x.other with
  | none => s
  | some v =>
    let quiet := match v.authTick with
      | none => true
      | some t => decide (t + 15999 < s.tick)
    let used := ((x.slot x.cur).bind KeySlot.authTick).isSome
    if x.nxt = 2 ∧ x.rolledAt + 15999 ≤ s.tick ∧ quiet = true ∧ used = true then
      ((s.setSa i.val { x.setSlot x.other none with nxt := 0 }).keyWritten i.val x.other).saEvent 0x0a05 i.val [.w v.epoch]
    else s

/-! ### SA_READ (Table CRY-6) -/

/-- The SA record. -/
def SaRec.record (x : SaRec) : List Byte :=
  let inv := ((x.slot x.cur).map KeySlot.inv).getD 0
  let b := fun (c : Bool) (i : Nat) => if c then 2 ^ i else 0
  natLe 4 (x.state * 2 ^ 29 + x.cur * 2 ^ 28 + x.nxt * 2 ^ 26 + b x.rollTick.isSome 25 + x.role * 2 ^ 24 + x.tenant) ++
  natLe 4 (b x.bound.isSome 31 + x.bound.getD 0) ++ natLe 4 (x.epoch x.cur) ++ natLe 4 (x.epoch x.other) ++
  natLe 4 inv ++ natLe 4 (inv / 2 ^ 32 % 2 ^ 16) ++ natLe 4 x.soft ++
  natLe 4 (b x.softSeen 31 + x.soft / 2 ^ 32 % 2 ^ 16) ++ natLe 8 (x.rollTick.getD (2 ^ 64 - 1)) ++
  natLe 4 (x.peerSa * 2 ^ 16 + x.peer) ++ natLe 4 x.authFail ++ natLe 8 x.authOk ++ natLe 4 x.replay ++ natLe 4 x.plain

/-- The checks of SA_READ. A free SA reads as FREE to any tenant; one of another tenant draws OWNERSHIP. -/
def chkSaRead (i buf : Nat) (c : Ctx) (s : State) : List Ck :=
  c.ckNoAny :: ckFormat (decide (16384 ≤ i)) :: ckAlign buf 64 :: c.ckSa s i ++ [s.ckBacklog 64]

/-- SA_READ applied. -/
def appSaRead (i buf dn : Nat) (c : Ctx) (s : State) : Applied := s.takeRead c dn buf (s.sa i).record

/-- SA_READ as a request of its own. -/
def execSaRead (h : ReqHdr) (mem : HostMem) (i buf : Nat) (s : State) : Host.Outcome State Fault Refusal := .next <|
  runOne h mem 0x36 (.saRead i buf) s (chkSaRead i buf) (appSaRead i buf h.dn)

/-! ### The encrypted frame (R288..R295). A frame is its 15,296 bytes in transmission order. -/

/-- The index of row `r`, column `c`, both from 1. -/
def oduIdx (r c : Nat) : Nat := (r - 1) * 3824 + c - 1

/-- Byte `i` of a frame. -/
def frameByte (f : List Byte) (i : Nat) : Nat := ((f[i]?).map BitVec.toNat).getD 0

/-- The positions of Table CRY-1 in order: CTRL, four SEQ bytes, twelve TAG bytes. -/
def encPositions : List Nat :=
  [oduIdx 2 1, oduIdx 2 2, oduIdx 2 3, oduIdx 2 4, oduIdx 2 14, oduIdx 3 13, oduIdx 3 14] ++
  (List.range 10).map fun i => oduIdx 4 (5 + i)

/-- The bytes at those positions. -/
def encOverhead (f : List Byte) : List Nat := encPositions.map (frameByte f)

/-- Puts bytes at positions. -/
def putBytes (f : List Byte) (l : List (Nat × Nat)) : List Byte :=
  l.foldl (fun f p => f.set p.1 (BitVec.ofNat 8 p.2)) f

/-- Rows 1..4, columns 17..3,824. -/
def frameBody (f : List Byte) : List Nat :=
  (List.range 4).flatMap fun r => toVals ((f.drop (3824 * r + 16)).take 3808)

/-- A frame with that area replaced. -/
def withBody (f : List Byte) (body : List Nat) : List Byte :=
  (List.range 4).flatMap fun r => (f.drop (3824 * r)).take 16 ++ toBytes ((body.drop (3808 * r)).take 3808)

/-- The IV (R289). -/
def frameIv (salt : List Byte) (dir inv : Nat) : List Nat := toVals salt ++ [128 * dir, 0] ++ beList 6 inv

/-- The additional authenticated data (R291). -/
def frameAad (ctrl seq : Nat) (f : List Byte) : List Nat :=
  ctrl :: beList 4 seq ++ (List.range 4).flatMap fun r => [frameByte f (3824 * r + 14), frameByte f (3824 * r + 15)]

/-- CTRL of a frame under slot `kp` by the end with role `dir`. -/
def encCtrl (kp dir : Nat) : Nat := 0x80 + 16 * kp + 8 * dir

/-- A frame encrypted under key slot `kp` with `inv`. -/
def encryptFrame (k : KeySlot) (kp dir inv : Nat) (f : List Byte) : List Byte :=
  let ctrl := encCtrl kp dir
  let seq := inv % 2 ^ 32
  let iv := frameIv k.salt dir inv
  let ct := gcmCtr (toVals k.key) iv (frameBody f)
  let tag := gcmTag (toVals k.key) iv (frameAad ctrl seq f) ct
  putBytes (withBody f ct) (encPositions.zip (ctrl :: beList 4 seq ++ tag))

/-- The INV a receiver takes for SEQ (R294): v congruent to SEQ modulo 2^32, nearest to HI + 1, the larger of two. -/
def recoverInv (hi : Option Nat) (seq : Nat) : Nat :=
  let t := (hi.map (· + 1)).getD 0
  let base := t / 2 ^ 32 * 2 ^ 32 + seq
  if base < t then (if t - base < 2 ^ 31 then base else base + 2 ^ 32)
  else if base - t ≤ 2 ^ 31 then base
  else if 2 ^ 32 ≤ base then base - 2 ^ 32 else base

/-- The tag of a received frame matches. -/
def tagOk (k : KeySlot) (dir inv : Nat) (f : List Byte) : Bool :=
  let o := encOverhead f
  let seq := beVal ((o.drop 1).take 4)
  gcmTag (toVals k.key) (frameIv k.salt dir inv) (frameAad (o.headD 0) seq f) (frameBody f) == o.drop 5

/-- A received frame decrypted; the encryption overhead goes back to 0. -/
def decryptFrame (k : KeySlot) (dir inv : Nat) (f : List Byte) : List Byte :=
  putBytes (withBody f (gcmCtr (toVals k.key) (frameIv k.salt dir inv) (frameBody f)))
    (encPositions.map fun i => (i, 0))

end Sys2Proof.Machine
end

