-- ==== Sys2Proof/Machine/XcBase.lean ====
section
/-! DEFINITION. The cross-connect's shared operations: the ends of a connection, the endpoint as traffic sees it, clean
copies, counting of blocks, authentication (R234, R237, R284, R293, R294). -/
namespace Sys2Proof.Machine

/-! ### The endpoint as traffic sees it -/

/-- Endpoint `e` for traffic: frozen as it stood on entry into the safe state (R571). -/
def State.xep (s : State) (e : Nat) : Endpoint :=
  match s.xcFrozen with
  | some t => Tab.get (fun _ => {}) t e
  | none => s.ep e

/-- Writes the endpoint that traffic sees. -/
def State.setXep (s : State) (e : Nat) (x : Endpoint) : State :=
  match s.xcFrozen with
  | some t => { s with xcFrozen := some (Tab.set (fun _ => {}) t e x) }
  | none => s.setEp e x

/-- A Lichen pair. -/
def isLichen (x : XcEntry) : Bool := x.kind == 1 && x.legbKind == 0

/-- An inverse-multiplexed connection. -/
def isImux (x : XcEntry) : Bool := x.kind == 1 && x.imuxM != 0

/-- An end whose server is a frond, directly or through an HO ODU4 (chapter 12). -/
def State.lineEnd (s : State) (d : XcEnd) : Bool :=
  d.kind == 0 || (d.kind == 2 && (s.ep d.id).entry.src.kind == 0)

/-- An end at a client port, directly or through an HO ODU4. -/
def State.clientEnd (s : State) (d : XcEnd) : Bool :=
  d.kind == 1 || (d.kind == 2 && (s.ep d.id).entry.src.kind == 1)

/-- The member fronds of an inverse-multiplexed end, member 0 first. -/
def imuxFronds (x : XcEntry) : List Nat :=
  (if x.imuxEnd = 0 then x.src.id else x.dst.id) ::
    (List.range x.imuxM).map fun j => x.members / 2 ^ (6 * (j + 1)) % 64

/-- The fronds of an end, legs and members included. -/
def State.endFronds (s : State) (x : XcEntry) (src : Bool) : List Nat :=
  let d := if src then x.src else x.dst
  if d.kind = 0 then
    if x.imuxM ≠ 0 ∧ ((x.imuxEnd = 0) = src) then imuxFronds x
    else if src ∧ x.legbKind = 0 then [d.id, x.legbFrond]
    else [d.id]
  else if d.kind = 2 ∧ (s.ep d.id).entry.src.kind = 0 then [(s.ep d.id).entry.src.id]
  else []

/-- The crypto unit of frond `f` does not run (R381, R485). -/
def State.cryptoDown (s : State) (f : Nat) : Bool :=
  s.sec.down.contains (0x300 + f) || s.boot.inReset.any fun b => b.id == 0x300 + f

/-! ### Blocks counted by performance monitoring (R211, R212) -/

/-- One frame's contribution to a PM second of endpoint `e` at layer `l`. -/
def State.pmFrame (s : State) (e l : Nat) (oh : List OhObs) (defect : Bool) : State :=
  match Tab.get (fun _ => none) s.pm.eps e with
  | none => s
  | some p =>
    let p := if defect then { p with secDefect := true } else p
    let p := match oh.find? fun o => o.layer == l with
      | none => p
      | some o =>
        let p := match o.near with
          | some b => { p with secBlocks := p.secBlocks + 1, secBad := p.secBad + (if b then 1 else 0) }
          | none => p
        let p := match o.far with
          | some b => { p with secFarBlocks := p.secFarBlocks + 1, secFarBad := p.secFarBad + (if b then 1 else 0) }
          | none => p
        { p with secFarDefect := p.secFarDefect || o.bdi, secDefect := p.secDefect || o.tsf }
    { s with pm := { s.pm with eps := Tab.set (fun _ => none) s.pm.eps e (some p) } }

/-- The TCM points that observe connection `e`. -/
def State.tcmPoints (s : State) (e : Nat) : List (Nat × Nat) :=
  (s.eps.filter fun q => q.2.entry.kind == 2 && q.2.entry.src.kind == 2 && q.2.entry.src.id == e).map
    fun q => (q.1, q.2.entry.tcmLevel)

/-- The direction that a connection counts: from SRC, unless only DST is a line end (assumption 41). -/
def State.countsToDst (s : State) (x : XcEntry) : Bool := s.lineEnd x.src || !s.lineEnd x.dst

/-- A frame of connection `e` counts for the connection and its TCM points. -/
def State.pmConn (s : State) (e : Nat) (toDst : Bool) (oh : List OhObs) (defect : Bool) : State :=
  if s.countsToDst (s.xep e).entry != toDst then s
  else (s.tcmPoints e).foldl (fun s q => s.pmFrame q.1 q.2 oh defect) (s.pmFrame e 0 oh defect)

/-! ### Replacement signals and frames -/

/-- What a frame's encryption overhead shows of a carried replacement signal: all 0xFF, 0x55 or 0x66 (Table CRY-2). -/
def carriedSignal (f : List Byte) : Option Nat :=
  let o := encOverhead f
  if o.all (· == 0xff) then some 0 else if o.all (· == 0x55) then some 1 else if o.all (· == 0x66) then some 2 else none

/-- The SA bound to a connection. -/
def boundSa (x : XcEntry) : Option Nat := if x.saEn then some x.saId else none

/-! ### Authentication (R293, R294) -/

/-- One failed copy: AUTH_FAIL with the failures of the tick and their lowest reason, at most once per 160 ticks. -/
def State.authFailed (s : State) (i reason : Nat) : State :=
  let x := s.sa i
  let same := decide (x.failTick = s.tick ∧ 0 < x.failures)
  let n := (if same then x.failures else 0) + 1
  let r := if same then min reason x.failReason else reason
  let x := { x with authFail := satAdd 0xffffffff x.authFail 1, failTick := s.tick, failures := n, failReason := r }
  if x.failEvent = some s.tick then
    let s := s.setSa i x
    { s with host := { s.host with events := s.host.events.map fun e =>
        if e.code == 0x0a0c && e.obj == i && e.tick == s.tick then { e with vals := [.w n, .w r] } else e } }
  else if x.failEvent.any fun t => decide (s.tick < t + 160) then s.setSa i x
  else (s.setSa i { x with failEvent := some s.tick }).saEvent 0x0a0c i [.w n, .w r]

/-- What became of a received copy at a bound endpoint: clean, its carried signal, what it authenticated under. -/
structure AuthResult where
  s : State
  clean : Bool := false
  signal : Option Nat := none
  auth : Option (Nat × Nat × Nat) := none
  clear : List Byte := []

/-- A received copy at an endpoint bound to SA `i` (Table CRY-2, R294). `fronds`: the line fronds whose crypto units serve
it. -/
def State.authenticate (s : State) (i : Nat) (down : Bool) (f : List Byte) : AuthResult :=
  match carriedSignal f with
  | some k => { s := s, signal := some k }
  | none =>
    let x := s.sa i
    let o := encOverhead f
    let ctrl := o.headD 0
    if ctrl / 32 ≠ 4 ∨ ctrl % 8 ≠ 0 then { s := s.setSa i { x with plain := satAdd 0xffffffff x.plain 1 } }
    else if ctrl / 8 % 2 = x.role then { s := s.authFailed i 2 }
    else
      let kp := ctrl / 16 % 2
      match (if down then none else x.slot kp) with
      | none => { s := s.authFailed i 1 }
      | some k =>
        let inv := recoverInv k.hi (beVal ((o.drop 1).take 4))
        if tagOk k (1 - x.role) inv f then
          { s := s.setSa i (x.setSlot kp (some { k with authTick := some s.tick })), clean := true
            auth := some (kp, inv, k.epoch), clear := decryptFrame k (1 - x.role) inv f }
        else { s := s.authFailed i 0 }

/-- Ciphertext at an unbound endpoint with a client end (R293). -/
def State.encUnexpected (s : State) (e : Nat) : State :=
  let x := s.xep e
  if x.encTick.any fun t => decide (s.tick < t + 160) then s
  else (s.setXep e { x with encTick := some s.tick }).raiseFor x.entry.tenant 0x0a0d e

/-- Whether an authenticated copy is released under its key (R295, R301): its INV exceeds HI. A key erased since the copy
passed has no HI left to compare; the copy is released (R295: it always decrypts). -/
def State.releaseAuth (s : State) (i : Nat) (auth : Nat × Nat × Nat) : State × Bool :=
  let (kp, inv, epoch) := auth
  let x := s.sa i
  let key := (x.slot kp).filter fun k => k.epoch == epoch
  if (key.bind KeySlot.hi).any fun h => decide (inv ≤ h) then
    (s.setSa i { x with replay := satAdd 0xffffffff x.replay 1 }, false)
  else
    let y := match key with
      | some k => x.setSlot kp (some { k with hi := some inv })
      | none => x
    let s := s.setSa i { y with authOk := (x.authOk + 1) % 2 ^ 64, lastRx := some epoch }
    (if x.lastRx.any fun p => p != epoch then s.saEvent 0x0a04 i [.w epoch] else s, true)

end Sys2Proof.Machine
end

