-- ==== Sys2Proof/Machine/XcFlow.lean ====
section
/-! DEFINITION. Traffic through the cross-connect: extraction into deskew memory, the egress decision, switching
(R48, R49, R237, R243..R253, R284..R295). -/
namespace Sys2Proof.Machine

/-! ### Extraction, slot T+3 -/

/-- The end that copy source `src` belongs to: 0 SRC or leg A, 1 DST, 2 leg B, 4 + j member j. -/
def State.copyFrond (s : State) (x : XcEntry) (src : Nat) : Option Nat :=
  if src = 2 then (if isLichen x then some x.legbFrond else none)
  else if 4 ≤ src then (if isImux x then (imuxFronds x)[src - 4]? else none)
  else (s.endFronds x (src == 0)).head?

/-- The slots of that end. -/
def copySlots (x : Endpoint) (src : Nat) : List Nat :=
  if src = 2 then x.slotsLegB
  else if src = 1 ∨ (4 ≤ src ∧ x.entry.imuxEnd = 1) then x.slotsDst
  else x.slotsSrc

/-- The replacement that frond `f` hands over for an ODU in `slots` (Table SLF-7): 0 ODU-AIS, 1 ODU-LCK, 2 ODU-OCI. -/
def State.serverSignal (s : State) (f : Nat) (slots : List Nat) : Option Nat :=
  match s.frondReplacement f with
  | some 0 => some 0
  | r =>
    if slots.any fun i => (s.frond f).slf.dMsim.contains i then some 0
    else match r with
      | some k => some k
      | none => if s.pState f ≠ 0 then some 2 else none

/-- Two SF_COUNT values differ by at most 1. -/
def sfNear (a b : Nat) : Bool :=
  let d := (a + 2 ^ 24 - b % 2 ^ 24) % 2 ^ 24
  decide (d ≤ 1) || d == 2 ^ 24 - 1

/-- Two copies match (R247). -/
def Copy.sameFrame (a b : Copy) : Bool := a.mfas == b.mfas && sfNear a.sf b.sf

/-- The leg of a copy of a Lichen pair. -/
def Copy.leg (c : Copy) : Nat := if c.src = 2 then 1 else 0

/-- The stamp that times a frame's egress: that of the earlier leg (R48). -/
def egressStamp (x : Endpoint) (c : Copy) : Nat :=
  if isLichen x.entry ∧ c.src ≠ 1 ∧ c.leg ≠ x.refLeg then c.stamp - x.delta else c.stamp

/-- The tick of a frame's egress decision: slot T+4, and the hold of a pair or group (R34). -/
def dueTick (x : Endpoint) (c : Copy) : Nat := egressStamp x c + 4 + x.entry.hold

/-- Adds a copy; one whose frame has been decided is not a candidate (R49). Copies too old to match anything leave. -/
def State.addCopy (s : State) (e : Nat) (c : Copy) : State :=
  let x := s.xep e
  let late := decide (dueTick x c < s.tick) ||
    x.copies.any fun d => d.done && (if 4 ≤ c.src then d.src == c.src else true) && (d.src == 1) == (c.src == 1) && d.sameFrame c
  let old := x.copies.filter fun d => decide (s.tick ≤ d.arr + x.entry.hold + x.delta + 170)
  s.setXep e { x with copies := old ++ [{ c with done := late }] }

/-- What an extracted frame of a connection becomes: a copy that waits for its egress decision, authenticated under the bound SA
(R237, R285, R293). `b`: the copy without content. -/
def State.extractCopy (s : State) (e src : Nat) (sig : Option Nat) (reset fine : Bool) (x : XcEntry) (bytes : List Byte) (b : Copy) :
    State :=
  if reset then s.addCopy e { b with oh := [] }
  else match sig with
  | some k => s.addCopy e { b with signal := some k, oh := [] }
  | none =>
    if bytes.isEmpty then s.addCopy e b
    else if 4 ≤ src then s.addCopy e { b with clean := fine, bytes := bytes }
    else
      match boundSa x with
      | some i =>
        let r := s.authenticate i (s.cryptoDown ((s.copyFrond x src).getD 0)) bytes
        r.s.addCopy e { b with
          clean := r.clean && fine, signal := r.signal, auth := r.auth
          bytes := if r.clean && fine then r.clear else [] }
      | none =>
        if (s.clientEnd x.src || s.clientEnd x.dst) && (encOverhead bytes).headD 0 / 32 == 4 then
          (s.encUnexpected e).addCopy e b
        else s.addCopy e { b with clean := fine, bytes := bytes }

/-- ODU_EXTRACT: one ODU frame, or a member's share of one, is taken out of its server. At a bound endpoint its copy is
authenticated; a frond in reset hands every frame over as missing (R487); ciphertext at an unbound endpoint with a client end is not clean. A termination point of an HO ODU4 counts
its blocks. -/
def execOduExtract (e : Fin 131072) (src : Fin 8) (o : OduObs) (s : State) : Host.Outcome State Fault Refusal := .next <|
  let x := s.xep e.val
  match s.copyFrond x.entry src.val with
  | none => s
  | some f =>
    let sig := s.serverSignal f (copySlots x src.val)
    if x.entry.kind = 3 then (if x.entry.layer = 0 then s.pmFrame e.val 0 o.oh sig.isSome else s)
    else if x.entry.kind ≠ 1 ∨ x.entry.state ≠ 1 then s
    else
      (o.parity.foldl (fun s k => s.parityFail (memKey 5 0 k)) s).extractCopy e.val src.val sig (s.inBlockReset (0x100 + f))
        (!o.marked && o.parity.isEmpty) x.entry o.bytes {
          src := src.val, stamp := o.stamp, arr := s.tick, mfas := o.mfas, sf := o.sf, clean := false, signal := none
          auth := none, phase := o.phase, bytes := [], oh := o.oh }

/-! ### The egress decision, slot T+4 -/

/-- Records one decided frame. -/
def State.decide1 (s : State) (e : Nat) (toDst : Bool) (kind leg : Nat) (bytes : List Byte) (oh : List OhObs) : State :=
  let x := s.xep e
  let d : Decided := { made := s.tick, toDst := toDst, kind := kind, leg := leg, bytes := bytes }
  (s.setXep e { x with decided := x.decided ++ [d] }).pmConn e toDst oh (decide (2 ≤ kind))

/-- The decision on one copy: clean, a carried signal, or a replacement frame. -/
def State.decideCopy (s : State) (e : Nat) (toDst : Bool) (c : Copy) : State :=
  let x := (s.xep e).entry
  if c.clean then
    match boundSa x, c.auth with
    | some i, some a =>
      let (s, ok) := s.releaseAuth i a
      if ok then s.decide1 e toDst 0 c.leg c.bytes c.oh else s.decide1 e toDst 1 c.leg [] c.oh
    | some _, none => s.decide1 e toDst 1 c.leg [] c.oh
    | none, _ => s.decide1 e toDst 0 c.leg c.bytes c.oh
  else match c.signal with
    | some k => s.decide1 e toDst (2 + k) c.leg [] c.oh
    | none => s.decide1 e toDst 1 c.leg [] c.oh

/-- Marks every copy that satisfies `p` as done. -/
def State.markDone (s : State) (e : Nat) (p : Copy → Bool) : State :=
  let x := s.xep e
  s.setXep e { x with copies := x.copies.map fun c => if p c then { c with done := true } else c }

/-- Frames that the ODU rate needs and no copy supplies: `kind` each. -/
def State.fillFrames (s : State) (e : Nat) (toDst : Bool) (kind n : Nat) : State :=
  (List.range n).foldl (fun s _ => s.decide1 e toDst kind 0 [] []) s

/-- Copies of `src` in the order they are due. -/
def dueCopies (x : Endpoint) (tick : Nat) (p : Copy → Bool) : List Copy :=
  sortBy (fun a b => decide (dueTick x a ≤ dueTick x b))
    (x.copies.filter fun c => !c.done && p c && decide (dueTick x c ≤ tick))

/-- The decisions of a direction with one copy of each frame; `need`: the frames that the ODU rate needs in the tick. -/
def State.decidePlain (s : State) (e : Nat) (toDst : Bool) (need : Nat) : State :=
  let x := s.xep e
  let src := if toDst then 0 else 1
  let l := dueCopies x s.tick fun c => c.src == src
  let s := l.foldl (fun s c => s.decideCopy e toDst c) s
  let s := s.markDone e fun c => c.src == src && decide (dueTick x c ≤ s.tick)
  let miss := match s.copyFrond x.entry src with
    | some f => ((s.serverSignal f (copySlots x src)).map (2 + ·)).getD 1
    | none => 1
  s.fillFrames e toDst miss (need - l.length)

/-- The leg that SEL_MODE and PREF_MODE take among clean copies (R250). -/
def pickLeg (mode pref : Nat) (a b : Bool) : Option Nat :=
  if mode = 1 then (if a then some 0 else none)
  else if mode = 2 then (if b then some 1 else none)
  else if a && b then some pref
  else if a then some 0 else if b then some 1 else none

/-- The preferred leg (R250). -/
def State.preferred (s : State) (x : XcEntry) : Nat :=
  let p := if x.prefMode = 0 then 0 else x.taken
  let deg := fun (l : Nat) => s.signalDegrade (if l = 0 then x.src.id else x.legbFrond)
  if deg p && !deg (1 - p) then 1 - p else p

/-- The decision on one frame of a Lichen pair, given a copy of it. -/
def State.decidePair (s : State) (e : Nat) (c : Copy) : State :=
  let x := s.xep e
  let same := x.copies.filter fun d => d.src != 1 && d.sameFrame c && !d.done
  let of' := fun (l : Nat) => same.find? fun d => d.leg == l && d.clean
  let one := decide (x.entry.lstate = 2) || x.exceeded
  let a := (of' 0).isSome && (!one || x.refLeg == 0)
  let b := (of' 1).isSome && (!one || x.refLeg == 1)
  let s := s.markDone e fun d => d.src != 1 && d.sameFrame c
  let dead := same.all fun d => d.signal.isSome
  match (pickLeg x.entry.selMode (s.preferred x.entry) a b).bind of' with
  | some d =>
    let s := s.decideCopy e true d
    let y := s.xep e
    if d.leg ≠ y.entry.taken then
      s.setXep e { y with
        entry := { y.entry with taken := d.leg }
        legChanges := satAdd 0xffffffff y.legChanges 1
        switchTick := some s.tick }
    else s
  | none =>
    let s := s.decide1 e true 1 x.refLeg [] c.oh
    if dead then s.pmConn e true [] true else s

/-- The decisions of a Lichen pair toward DST (Table XC-4, R250, R251). -/
def State.decideLichen (s : State) (e need : Nat) : State :=
  let x := s.xep e
  if x.entry.lstate ≤ 1 then
    (s.markDone e fun c => c.src != 1 && decide (dueTick x c ≤ s.tick)).fillFrames e true 4 need
  else
    let l := dueCopies x s.tick fun c => c.src != 1
    let lead := l.filter fun c => c.leg == x.refLeg || !(x.copies.any fun d => d.src != 1 && d.leg == x.refLeg && d.sameFrame c)
    let s := lead.foldl (fun s c => s.decidePair e c) s
    let s := s.fillFrames e true 1 (need - lead.length)
    let y := s.xep e
    if y.switchTick = some s.tick then s.raiseFor y.entry.tenant 0x0802 e [.w y.entry.taken] else s

/-- The frame that the members' shares make: block b comes from member (phase + b) mod m (R243, R244). -/
def joinShares (m phase : Nat) (shares : List (List Byte)) : List Byte :=
  (List.range 956).flatMap fun b => slice (shares.getD ((phase + b) % m) []) (16 * (b / m)) 16

/-- The decision for the joined bytes of a group's frame. -/
def State.decideJoined (s : State) (e : Nat) (toDst : Bool) (c : Copy) (x : XcEntry) (bytes : List Byte) : State :=
  match boundSa x with
  | some i =>
    let r := s.authenticate i ((imuxFronds x).any s.cryptoDown) bytes
    r.s.decideCopy e toDst { c with src := 0, clean := r.clean, signal := r.signal, auth := r.auth, bytes := r.clear }
  | none =>
    if (s.clientEnd x.src || s.clientEnd x.dst) && (encOverhead bytes).headD 0 / 32 == 4 then
      (s.encUnexpected e).decide1 e toDst 1 0 [] c.oh
    else s.decideCopy e toDst { c with src := 0, bytes := bytes }

/-- The first clean join of a group makes its LSTATE ALIGNED. -/
def State.joinState (s : State) (e : Nat) (x : XcEntry) : State :=
  if x.lstate = 3 then s else s.setXep e { s.xep e with entry := { x with lstate := 3 } }

/-- The decision on one frame of an inverse-multiplexed group, given a share of it (R244, R285). -/
def State.decideGroup (s : State) (e : Nat) (toDst : Bool) (c : Copy) : State :=
  let x := s.xep e
  let m := x.entry.imuxM + 1
  let share := fun (j : Nat) => x.copies.find? fun d => d.src == 4 + j && !d.done && d.sameFrame c
  let l := (List.range m).filterMap share
  let s := s.markDone e fun d => 4 ≤ d.src && d.sameFrame c
  if l.length < m ∨ l.any (fun d => !d.clean) ∨ x.skewBad then s.decide1 e toDst 1 0 [] []
  else (s.joinState e x.entry).decideJoined e toDst c x.entry (joinShares m c.phase (l.map Copy.bytes))

/-- One frame of a group, unless it is settled already; the count of frames decided grows. -/
def State.decideShare (e : Nat) (toDst : Bool) (a : State × Nat) (c : Copy) : State × Nat :=
  if ((a.1.xep e).copies.any fun d => d.done && 4 ≤ d.src && d.sameFrame c) then a
  else (a.1.decideGroup e toDst c, a.2 + 1)

/-- The decisions of the group's direction: a frame is due by its earliest share. -/
def State.decideImux (s : State) (e : Nat) (toDst : Bool) (need : Nat) : State :=
  let a := (dueCopies (s.xep e) s.tick fun c => 4 ≤ c.src).foldl (State.decideShare e toDst) (s, 0)
  a.1.fillFrames e toDst 1 (need - a.2)

/-- What the egress decision leaves at a client port: its adaptation and the own twin egress record of egress tick + 3
(R51, R272). FRAME is the count of the last frame released. -/
def State.portDecision (s : State) (e : Nat) (toDst : Bool) : State :=
  let x := s.xep e
  let d := if toDst then x.entry.dst else x.entry.src
  if d.kind ≠ 1 then s
  else
    let s := s.portAdapt d.id
    let p := s.port d.id
    if p.client = 0 then s
    else
      let mine := x.decided.filter fun q => q.toDst == toDst
      let count := (if toDst then x.frames else x.framesSrc) + mine.length
      let bad := mine.any fun q => q.made == s.tick && q.kind != 0
      let r : TwinRec := { lane := d.id, egress := s.tick + 3, ep := e, frame := count, adapt := adaptCode p.adapt,
                           flags := if bad then 1 else 0 }
      s.setPort d.id { p with own := p.own.filter (fun q => q.egress != s.tick + 3) ++ [r] }

/-- The egress decision of a connection toward DST. -/
def State.egressToDst (s : State) (e need : Nat) (x : XcEntry) : State :=
  if !s.lineEnd x.src then s
  else if isLichen x then s.decideLichen e need
  else if isImux x && x.imuxEnd == 0 then s.decideImux e true need
  else s.decidePlain e true need

/-- The egress decision of a connection toward SRC. -/
def State.egressToSrc (s : State) (e need : Nat) (x : XcEntry) : State :=
  if !s.lineEnd x.dst then s
  else if isImux x && x.imuxEnd == 1 then s.decideImux e false need
  else s.decidePlain e false need

/-- EGRESS_DECISION: the frames due in this tick are decided in each direction whose source is a line end; `needDst`,
`needSrc`: the frames that the ODU rate needs. -/
def execEgressDecision (e : Fin 131072) (needDst needSrc : Nat) (s : State) : Host.Outcome State Fault Refusal := .next <|
  let x := (s.xep e.val).entry
  if x.kind ≠ 1 ∨ x.state ≠ 1 then s
  else ((((s.egressToDst e.val needDst x).egressToSrc e.val needSrc x).portDecision e.val true).portDecision e.val false)

/-! ### Switching -/

/-- Encryption of one frame toward the line (R288..R292, R303): its kind and bytes as sent. -/
def State.encryptOut (s : State) (i : Nat) (down : Bool) (f : List Byte) : State × Nat × List Byte :=
  let x := s.sa i
  if s.flag R.FLT_STAT_SAFE then (s, 1, [])
  else if x.state ≠ 2 ∨ down ∨ s.saFenced i then (s, 3, [])
  else match x.slot x.cur with
    | none => (s, 3, [])
    | some k =>
      let inv := k.inv
      let y := x.setSlot x.cur (some { k with inv := inv + 1 })
      let soft := decide (x.soft ≠ 0 ∧ x.soft ≤ inv + 1) && !x.softSeen
      let hard := decide (2 ^ 47 ≤ inv + 1)
      let y := { y with softSeen := y.softSeen || soft, state := if hard then 3 else 2 }
      let s := s.setSa i y
      let s := if soft then s.saEvent 0x0a08 i [.q (inv + 1)] else s
      let s := if hard then (s.saEvent 0x0a09 i [.w k.epoch]).saRegs else s
      (s, 0, encryptFrame k x.cur x.role inv f)

/-- The port at an end, directly or through an HO ODU4. -/
def State.endPort (s : State) (d : XcEnd) : Option Nat :=
  if d.kind = 1 then some d.id
  else if d.kind = 2 ∧ (s.ep d.id).entry.src.kind = 1 then some (s.ep d.id).entry.src.id
  else none

/-- One frame leaves the cross-connect toward a destination (R237). `block`: its entry or slots cannot be read. -/
def State.sendFrame (s : State) (e : Nat) (toDst block : Bool) (kind : Nat) (bytes : List Byte) : State :=
  let x := s.xep e
  let line := if toDst then s.lineEnd x.entry.dst else s.lineEnd x.entry.src
  let fronds := s.endFronds x.entry (!toDst)
  let (s, kind, bytes) :=
    if x.entry.state ≠ 1 then (s, 4, [])
    else if block then (s, 1, [])
    else if kind ≠ 0 then (s, kind, [])
    else match boundSa x.entry, line with
      | some i, true => s.encryptOut i (fronds.any s.cryptoDown) bytes
      | _, _ => (s, 0, bytes)
  let x := s.xep e
  let s := s.setXep e { x with
    frames := if toDst then (x.frames + 1) % 2 ^ 64 else x.frames
    framesSrc := if toDst then x.framesSrc else (x.framesSrc + 1) % 2 ^ 64
    replaced := if kind = 1 then satAdd 0xffffffff x.replaced 1 else x.replaced }
  let d := if toDst then x.entry.dst else x.entry.src
  let s := if d.kind = 1 ∧ (s.port d.id).client ≠ 0 then
      s.setPort d.id { s.port d.id with kinds := (s.port d.id).kinds ++ [(s.tick, kind)] }
    else s
  s.emit (.odu e toDst kind bytes)

/-- The reads that switching makes in the endpoint table, the SA table and the SA key RAM: whether the entry is poisoned,
and whether the SA's is. An uncorrectable key is erased (R304). -/
def State.switchReads (s : State) (e : Nat) : State × Bool × Bool :=
  let (s, p) := s.memRead 0x10 0 (32 * e) 32
  match boundSa (s.xep e).entry with
  | none => (s, !p.isEmpty, false)
  | some i =>
    let (s, q) := s.memRead 0x13 0 (64 * i) 64
    let s := (List.range 2).foldl (fun s k =>
      let (s, r) := s.memRead 0x14 0 (96 * i + 48 * k) 48
      if r.isEmpty then s else s.keyErase i k) s
    (s, !p.isEmpty, !q.isEmpty)

/-- The slot keys of an end. -/
def endSlotKeys (kind id : Nat) (slots : List Nat) : List Nat :=
  if kind = 0 ∨ kind = 1 ∨ kind = 2 then slots.map fun i => slotKey kind id i else []

/-- Some slot of the entry is fenced. -/
def State.epSlotsFenced (s : State) (x : Endpoint) : Bool :=
  (endSlotKeys x.entry.src.kind x.entry.src.id x.slotsSrc ++ endSlotKeys x.entry.dst.kind x.entry.dst.id x.slotsDst ++
    endSlotKeys 0 x.entry.legbFrond x.slotsLegB).any s.slotFenced

/-- XC_SWITCH: the frames decided in the slot before, and those that come from client ends (`ups`), are switched toward
their destinations, encrypted toward the line of a bound connection. -/
def execXcSwitch (e : Fin 131072) (ups : List UpObs) (s : State) : Host.Outcome State Fault Refusal := .next <|
  let e := e.val
  if (s.xep e).entry.kind ≠ 1 then s
  else
    let (s, bad, saBad) := s.switchReads e
    let x := s.xep e
    let block := bad || s.epFenced e || s.epSlotsFenced x
    let ready := x.decided.filter fun d => decide (d.made < s.tick)
    let s := s.setXep e { x with decided := x.decided.filter fun d => decide (s.tick ≤ d.made) }
    let send := fun (s : State) (toDst : Bool) (kind : Nat) (bytes : List Byte) =>
      let line := if toDst then s.lineEnd x.entry.dst else s.lineEnd x.entry.src
      let kind := if saBad && line && kind == 0 then 3 else kind
      s.sendFrame e toDst block kind bytes
    let s := ready.foldl (fun s d => send s d.toDst d.kind d.bytes) s
    ups.foldl (fun s u =>
      let d := if u.toDst then x.entry.src else x.entry.dst
      match s.endPort d with
      | none => s
      | some p =>
        let i := s.portIngress p
        send s u.toDst (if i ≤ 1 then 0 else i) u.bytes) s

/-! ### Pair states, at the end of a tick (R248, R249, R251) -/

/-- The ticks within which a frame of the ODU comes: 122,368 bits at 31,250 bits per slot and tick. -/
def frameGap (ts : Nat) : Nat := ceilDiv 122368 (31250 * max 1 ts)

/-- A clean copy of leg `l` that arrived in the last `gap` ticks. -/
def cleanSeen (x : Endpoint) (tick gap l : Nat) : Bool :=
  x.copies.any fun c => c.src != 1 && c.clean && c.leg == l && decide (tick < c.arr + gap)

/-- The differentials measured from pairs of matched clean copies of which the later arrived in the last `gap` ticks:
other leg minus `ref`. -/
def measured (x : Endpoint) (tick gap ref : Nat) : List Int :=
  (x.copies.filter fun c => c.src != 1 && c.clean && c.leg == ref).filterMap fun c =>
    (x.copies.find? fun d => d.src != 1 && d.clean && d.leg == 1 - ref && d.sameFrame c &&
      decide (tick < max c.arr d.arr + gap)).map fun d => (d.stamp : Int) - c.stamp

/-- An endpoint that is a running Lichen pair. -/
def lichenRuns (x : Endpoint) : Bool := isLichen x.entry && x.entry.state == 1

/-- A tracked differential above H - 1 (R49). -/
def State.checkExceeded (s : State) (e : Nat) : State :=
  let x := s.xep e
  if decide (x.entry.hold ≤ x.delta) && !x.exceeded then
    (s.setXep e { x with exceeded := true }).raiseFor x.entry.tenant 0x0806 e [.w x.delta]
  else s

/-- SF_COUNT against the arrival stamp on the reference leg, from the latest copy. -/
def refOffsetNow (x : Endpoint) (ref : Nat) : Option Nat :=
  (x.copies.reverse.find? fun c => c.src != 1 && c.leg == ref).map fun c => (c.stamp + 2 ^ 24 - c.sf % 2 ^ 24) % 2 ^ 24

/-- LICHEN_PAIRED: this tick's look at a pair not yet PAIRED: 16 ticks in a row with matched clean frames. -/
def execLichenPaired (e : Fin 131072) (s : State) : Host.Outcome State Fault Refusal := .next <|
  let e := e.val
  let x := s.xep e
  if !lichenRuns x || x.entry.lstate == 3 then s
  else
    let m := measured x s.tick (frameGap x.entry.tsCount) 0
    let run := x.matchedRun.step s.tick (!m.isEmpty)
    if run.n < 16 then s.setXep e { x with matchedRun := run }
    else
      let d := m.getLastD 0
      let ref := if d < 0 then 1 else 0
      let was := x.entry.lstate == 2
      let moved := was && ref != x.refLeg
      let y := { x with
        entry := { x.entry with lstate := 3 }, refLeg := ref, delta := d.natAbs, matchedRun := {}, aloneRun := {}
        deltaRun := {}, shiftRun := {}, refOffset := refOffsetNow x ref, failed := [], failRun := [], clearRun := []
        reanchors := if moved then satAdd 0xffffffff x.reanchors 1 else x.reanchors }
      let s := (s.setXep e y).raiseFor x.entry.tenant 0x0801 e [.w y.delta, .w ref]
      let s := if moved then s.raiseFor x.entry.tenant 0x0805 e [EVal.s (-(y.delta : Int))] else s
      s.checkExceeded e

/-- LICHEN_SINGLE: this tick's look at an UNPAIRED pair: clean frames on one leg only for 1,600 ticks. -/
def execLichenSingle (e : Fin 131072) (s : State) : Host.Outcome State Fault Refusal := .next <|
  let e := e.val
  let x := s.xep e
  if !lichenRuns x || x.entry.lstate != 1 then s
  else
    let gap := frameGap x.entry.tsCount
    let a := cleanSeen x s.tick gap 0
    let b := cleanSeen x s.tick gap 1
    let leg := if b then 1 else 0
    let prev := if leg = x.aloneLeg then x.aloneRun else {}
    let run := prev.step s.tick (a != b)
    if run.n < 1600 then s.setXep e { x with aloneRun := run, aloneLeg := leg }
    else s.setXep e { x with
      entry := { x.entry with lstate := 2 }, aloneRun := {}, refLeg := leg, delta := 0, refOffset := refOffsetNow x leg }

/-- DELTA_CHANGE: this tick's measurement of the differential: a value that has differed from the one tracked in 16 ticks
in a row replaces it. -/
def execDeltaChange (e : Fin 131072) (s : State) : Host.Outcome State Fault Refusal := .next <|
  let e := e.val
  let x := s.xep e
  if !lichenRuns x || x.entry.lstate != 3 then s
  else
    let m := measured x s.tick (frameGap x.entry.tsCount) x.refLeg
    let differs := !m.isEmpty && m.all fun d => d != (x.delta : Int)
    let run := x.deltaRun.step s.tick differs
    let d := m.getLastD 0
    if 16 ≤ run.n ∧ 0 ≤ d then (s.setXep e { x with delta := d.toNat, deltaRun := {} }).checkExceeded e
    else s.setXep e { x with deltaRun := run }

/-- Egress moves by `move`: frames whose new egress tick has passed are dropped. -/
def State.reanchor (s : State) (e : Nat) (x : Endpoint) (move : Int) : State :=
  let y := { x with reanchors := satAdd 0xffffffff x.reanchors 1, shiftRun := {}, deltaRun := {} }
  let s := s.setXep e y
  let s := s.markDone e fun c => c.src != 1 && decide (dueTick y c < s.tick)
  (s.raiseFor x.entry.tenant 0x0805 e [EVal.s move]).checkExceeded e

/-- LICHEN_REANCHOR: this tick's look at the reference leg: its stamps against SF_COUNT have moved by 2 ticks or more for 16
ticks, or the other leg has been the earlier one for 16 ticks. -/
def execLichenReanchor (e : Fin 131072) (s : State) : Host.Outcome State Fault Refusal := .next <|
  let e := e.val
  let x := s.xep e
  if !lichenRuns x || x.entry.lstate != 3 then s
  else
    let m := measured x s.tick (frameGap x.entry.tsCount) x.refLeg
    let d := m.getLastD 0
    let now := refOffsetNow x x.refLeg
    match now, x.refOffset with
    | some n, some b =>
      let diff := toSigned 24 ((n + 2 ^ 24 - b) % 2 ^ 24)
      let early := decide (d < 0)
      let far := decide (diff ≤ -2 ∨ 2 ≤ diff)
      let run := x.shiftRun.step s.tick (far || early)
      let x := { x with shiftRun := run, refOffset := if far then some b else some n }
      if run.n < 16 then s.setXep e x
      else if early then
        let ref := 1 - x.refLeg
        s.reanchor e { x with refLeg := ref, delta := d.natAbs, refOffset := refOffsetNow x ref } d
      else
        let delta := if m.isEmpty then x.delta else d.toNat
        s.reanchor e { x with refOffset := some n, delta := delta } diff
    | some n, none => s.setXep e { x with refOffset := some n }
    | none, _ => s

/-- LEG_FAIL: this tick's look at leg `l` of a PAIRED pair: no clean frame in 16 ticks. -/
def execLegFail (e : Fin 131072) (l : Fin 2) (s : State) : Host.Outcome State Fault Refusal := .next <|
  let e := e.val
  let x := s.xep e
  if !lichenRuns x || x.entry.lstate != 3 then s
  else
    let run := (Tab.get (fun _ => {}) x.failRun l.val).step s.tick (!cleanSeen x s.tick 1 l.val)
    let x := { x with failRun := Tab.set (fun _ => {}) x.failRun l.val run }
    if decide (16 ≤ run.n) && !x.failed.contains l.val then
      (s.setXep e { x with failed := x.failed ++ [l.val], clearRun := Tab.set (fun _ => {}) x.clearRun l.val {} }).raiseFor
        x.entry.tenant 0x0803 e [.w l.val]
    else s.setXep e x

/-- LEG_CLEAR: this tick's look at a failed leg: every frame clean for 160 ticks. -/
def execLegClear (e : Fin 131072) (l : Fin 2) (s : State) : Host.Outcome State Fault Refusal := .next <|
  let e := e.val
  let x := s.xep e
  if !lichenRuns x || x.entry.lstate != 3 || !x.failed.contains l.val then s
  else
    let mine := x.copies.filter fun c => c.src != 1 && c.leg == l.val && c.arr == s.tick
    let good := mine.all Copy.clean && cleanSeen x s.tick (frameGap x.entry.tsCount) l.val
    let run := (Tab.get (fun _ => {}) x.clearRun l.val).step s.tick good
    let x := { x with clearRun := Tab.set (fun _ => {}) x.clearRun l.val run }
    if 160 ≤ run.n then
      (s.setXep e { x with failed := x.failed.filter (· != l.val) }).raiseFor x.entry.tenant 0x0804 e [.w l.val]
    else s.setXep e x

/-- IMUX_SKEW_EXCEEDED: this tick's look at a group: the spread of the members' stamps for one SF_COUNT has been above
H - 1 for 16 ticks. -/
def execImuxSkewExceeded (e : Fin 131072) (s : State) : Host.Outcome State Fault Refusal := .next <|
  let e := e.val
  let x := s.xep e
  if !isImux x.entry || x.entry.state != 1 then s
  else
    let now := x.copies.filter fun c => 4 ≤ c.src && c.arr == s.tick
    let spread := (now.map fun c =>
      ((x.copies.filter fun d => 4 ≤ d.src && d.sf == c.sf).map fun d => c.stamp - d.stamp).foldl max 0).foldl max 0
    let run := x.skewRun.step s.tick (decide (x.entry.hold ≤ spread))
    if decide (16 ≤ run.n) && !x.skewBad then
      (s.setXep e { x with skewRun := run, skewBad := true }).raiseFor x.entry.tenant 0x0807 e [.w spread]
    else s.setXep e { x with skewRun := run }

end Sys2Proof.Machine
end

