-- ==== Sys2Proof/Machine/Pm.lean ====
section
/-! DEFINITION. Performance monitoring (chapter 9): classification of PM seconds, availability, bins, records, thresholds. -/
namespace Sys2Proof.Machine

/-- Ticks of a PM second (R208). -/
def pmSecond : Nat := 160000

/-- Ticks of a bin: 0 the 15-minute, 1 the 24-hour bin (R209). -/
def binTicks (len : Nat) : Nat := if len = 0 then 144000000 else 13824000000

/-- Seconds of a full bin (R210). -/
def binSecs (len : Nat) : Nat := binTicks len / pmSecond

/-- Tick `t` is a bin boundary under anchor `a`. -/
def binBoundary (a len t : Nat) : Bool := (t + binTicks len - a % binTicks len) % binTicks len == 0

/-- The first bin boundary after tick `t`. -/
def nextBoundary (a len t : Nat) : Nat := t + binTicks len - (t + binTicks len - a % binTicks len) % binTicks len

/-! ### Classification (R212) -/

/-- SES, ES and BBE of one direction (Table PM-1). -/
def classify (defect : Bool) (n bad : Nat) : Bool × Bool × Nat :=
  let ses := defect || (decide (1 ≤ n) && decide (ceilDiv (15 * n) 100 ≤ bad))
  (ses, ses || decide (1 ≤ bad), if ses then 0 else bad)

/-- What one PM second gathered: near-end defect, blocks and errored blocks, and the same of the far end. -/
structure SecIn where
  neDefect : Bool
  neN : Nat
  neBad : Nat
  feDefect : Bool
  feN : Nat
  feBad : Nat

/-- A run of seconds against the availability in force: at the tenth, availability turns over and the last 10 seconds
with it (R214). -/
def availStep (avail : Bool) (run : Nat) (ses : Bool) : Bool × Nat × Bool :=
  let run := if ses == avail then run + 1 else 0
  if 10 ≤ run then (!avail, 0, true) else (avail, run, false)

/-- A second joins the pending window (R213..R215). -/
def EpPm.push (p : EpPm) (endTick : Nat) (i : SecIn) : EpPm :=
  let (ns, ne, nb) := classify i.neDefect i.neN i.neBad
  let (fs, fe, fb) := classify i.feDefect i.feN i.feBad
  let out := i.neDefect
  let (na, nr, nturn) := availStep p.neAvail p.neRun ns
  let (fa, fr, fturn) := if out then (p.feAvail, p.feRun, false) else availStep p.feAvail p.feRun fs
  let r : SecRec := { endTick := endTick, neSes := ns, neEs := ne, neBbe := nb, feSes := fs, feEs := fe, feBbe := fb, feOut := out,
                      neUn := !na, feUn := !fa }
  let w := p.window ++ [r]
  let w := if nturn then w.map fun x => { x with neUn := !na } else w
  let w := if fturn then w.map fun x => { x with feUn := !fa } else w
  { p with window := w, neAvail := na, neRun := nr, feAvail := fa, feRun := fr }

/-! ### Commit to a bin (R214, R215, R217, R221) -/

/-- What a second adds to the eight counts (Table PM-4). -/
def SecRec.adds (r : SecRec) : List Nat :=
  let b := fun (c : Bool) => if c then 1 else 0
  let near := if r.neUn then [0, 0, 0, 1] else [b r.neEs, b r.neSes, r.neBbe, 0]
  let far := if r.feOut then [0, 0, 0, 0] else if r.feUn then [0, 0, 0, 1] else [b r.feEs, b r.feSes, r.feBbe, 0]
  near ++ far

/-- A bin with a second counted. -/
def EpBin.take (b : EpBin) (r : SecRec) : EpBin :=
  let l := (b.counts.zip r.adds).map fun q => q.1 + q.2
  { b with counts := l.map (min 0xffffffff), sat := b.sat || l.any (fun v => decide (0xffffffff < v)), secs := b.secs + 1 }

/-- Threshold `k` of profile `p` for a bin length. -/
def State.threshold (s : State) (p len k : Nat) : Nat := (Tab.get (fun _ => []) s.pm.profiles p).getD (8 * len + k) 0

/-- PM_TCA for every enabled threshold that a bin meets and has not raised. -/
def State.binTca (s : State) (e len now : Nat) (b : EpBin) (endTick : Nat) : State × EpBin :=
  let x := s.ep e
  (List.range 8).foldl (fun (a : State × EpBin) k =>
    let th := s.threshold x.entry.pmProfile len k
    let v := a.2.counts.getD k 0
    if decide (0 < th) && decide (th ≤ v) && !a.2.fired.contains k then
      (a.1.raiseEv { code := 0x0701, obj := e, tick := now, tenant := x.entry.tenant, dest := .tenants [x.entry.tenant]
                     vals := [.w k, .w len, .q endTick, .w v] }, { a.2 with fired := a.2.fired ++ [k] })
    else a) (s, b)

/-- What endpoint `e` counts. -/
def State.epPm (s : State) (e : Nat) : Option EpPm := Tab.get (fun _ => none) s.pm.eps e

/-- Writes it; its byte range in memory 0x12 is written with it. -/
def State.setEpPm (s : State) (e : Nat) (p : Option EpPm) : State :=
  { s with pm := { s.pm with eps := Tab.set (fun _ => none) s.pm.eps e p } }

/-- One bin length of an endpoint: the bins closed and pending, and the one in progress. -/
def EpPm.bins (p : EpPm) (len : Nat) : List EpBin × EpBin := if len = 0 then (p.closing15, p.b15) else (p.closing24, p.b24)

/-- Writes them. -/
def EpPm.setBins (p : EpPm) (len : Nat) (c : List EpBin) (b : EpBin) : EpPm :=
  if len = 0 then { p with closing15 := c, b15 := b } else { p with closing24 := c, b24 := b }

/-- A second is committed to the bin of each length that contains it. -/
def State.commitLen (s : State) (e len now : Nat) (r : SecRec) (p : EpPm) : State × EpPm :=
  let (c, b) := p.bins len
  match c.findIdx? fun x => decide (r.endTick ≤ x.endTick) with
  | some i =>
    let (s, x) := s.binTca e len now ((c.getD i {}).take r) ((c.getD i {}).endTick)
    (s, p.setBins len (c.set i x) b)
  | none =>
    let (s, x) := s.binTca e len now (b.take r) (nextBoundary s.pm.anchor len b.start)
    (s, p.setBins len c x)

/-- A second is committed. -/
def State.commitSec (s : State) (e now : Nat) (r : SecRec) (p : EpPm) : State × EpPm :=
  let (s, p) := s.commitLen e 0 now r p
  s.commitLen e 1 now r p

/-! ### Bins and their records (R209, R210, R223..R225) -/

/-- A bin closed at `t`; one that is short is SUSPECT. -/
def EpBin.close (b : EpBin) (len t : Nat) : EpBin :=
  { b with endTick := t, suspect := b.suspect || decide (t < b.start + binTicks len) }

/-- Bytes 16..63 of an endpoint record (Table PM-4). -/
def EpBin.bytes (b : EpBin) (e len : Nat) (final : Bool) : List Byte :=
  let f := fun (c : Bool) (i : Nat) => if c then 2 ^ i else 0
  natLe 4 (f final 21 + f b.sat 20 + f b.suspect 19 + len * 2 ^ 17 + e) ++ natLe 8 b.endTick ++
    (b.counts.flatMap fun v => natLe 4 v) ++ natLe 4 b.secs

/-- The order in which records are written: fronds first, then endpoints, the 15-minute record before the 24-hour one. -/
def PmRecord.le (a b : PmRecord) : Bool :=
  let k := fun (r : PmRecord) => (if r.frondRec then 0 else 2 ^ 40) + 2 * r.obj + r.len
  decide (a.due < b.due) || (a.due == b.due && decide (k a ≤ k b))

/-- A record waits to be written; an older one of the same object and length that still waits is dropped and counted, and
the newer is SUSPECT (R225). -/
def State.queueRecord (s : State) (r : PmRecord) : State :=
  let same := fun (q : PmRecord) => q.frondRec == r.frondRec && q.obj == r.obj && q.len == r.len
  let lost := s.pm.waiting.any same
  let r := if lost then { r with zero := false, bytes := natLe 4 (fieldAt r.bytes 0 4 ||| 2 ^ 19) ++ r.bytes.drop 4 } else r
  let s := if lost then s.bump R.GLB_PM_STAT_EXPORT_LOST 1 else s
  { s with pm := { s.pm with waiting := insertBy PmRecord.le r (s.pm.waiting.filter fun q => !same q) } }

/-- The record of an endpoint's closed bin. -/
def State.epRecord (s : State) (e len due : Nat) (b : EpBin) (final : Bool) : State :=
  s.queueRecord {
    tenant := (s.ep e).entry.tenant, obj := e, len := len, due := due, frondRec := false
    zero := b.counts.all (· == 0) && !b.suspect && !b.sat && !final, bytes := b.bytes e len final }

/-- Bins that closed 9 s before tick `t` are final: the last closed bin, its record due from the next tick. -/
def State.finalLen (s : State) (e len t : Nat) (p : EpPm) : State × EpPm :=
  let (c, b) := p.bins len
  let ready := c.filter fun x => decide (x.endTick + 9 * pmSecond ≤ t)
  let p := p.setBins len (c.filter fun x => decide (t < x.endTick + 9 * pmSecond)) b
  ready.foldl (fun (a : State × EpPm) x =>
    (a.1.epRecord e len (t + 1) x false, if len = 0 then { a.2 with last15 := some x } else { a.2 with last24 := some x }))
    (s, p)

/-- The bin of a length in progress closes at `t` and a new one opens. -/
def EpPm.closeLen (p : EpPm) (len t : Nat) : EpPm :=
  let (c, b) := p.bins len
  p.setBins len (c ++ [b.close len t]) { start := t }

/-- The second that ends joins the window, and bins that end at `t` start closing (R209, R215). -/
def EpPm.roll (p : EpPm) (anchor t : Nat) (i : SecIn) : EpPm :=
  let p := if p.startTick < t then p.push t i else p
  let p := if binBoundary anchor 0 t then p.closeLen 0 t else p
  if binBoundary anchor 1 t then p.closeLen 1 t else p

/-- The oldest pending second is committed once ten are held (R215). -/
def State.commitOldest (s : State) (e t : Nat) (p : EpPm) : State × EpPm :=
  match p.window with
  | r :: rest => if 10 ≤ p.window.length then s.commitSec e t r { p with window := rest } else (s, p)
  | [] => (s, p)

/-- What the PM second in progress has gathered starts again. -/
def EpPm.clearSec (p : EpPm) : EpPm := { p with
  secBlocks := 0, secBad := 0, secFarBlocks := 0, secFarBad := 0, secDefect := false, secFarDefect := false }

/-- The end of a PM second of one endpoint, at boundary `t`. -/
def State.epSecond (s : State) (e t : Nat) (i : SecIn) : State :=
  match s.epPm e with
  | none => s
  | some p =>
    let a := s.commitOldest e t (p.roll s.pm.anchor t i)
    let a := a.1.finalLen e 0 t a.2
    let a := a.1.finalLen e 1 t a.2
    a.1.setEpPm e (some a.2.clearSec)

/-- What the second gave endpoint `e` at its layer (R211, R282). -/
def State.secInput (s : State) (e : Nat) : SecIn :=
  let x := (s.ep e).entry
  if x.kind = 3 ∧ (x.layer = 2 ∨ x.layer = 3) then
    let f := x.src.id
    let l := s.layer f (x.layer - 2)
    let m := (s.frond f).pm
    let ssf := m.ssf || s.aSsf f
    let bdi := if x.layer = 2 then m.smBdi || s.flag (slfDef f 5) else m.pmBdi || s.flag (slfDef f 8)
    ⟨ssf, l.pmN, l.pmBad, bdi, l.pmFarN, l.pmFarBad⟩
  else if x.kind = 3 ∧ x.layer = 4 then
    let p := s.port x.src.id
    ⟨p.secNear || portDefect p, p.secCw, p.secUnc, p.secFar || p.rf || p.rdi, 0, 0⟩
  else
    match s.epPm e with
    | some p => ⟨p.secDefect, p.secBlocks, p.secBad, p.secFarDefect, p.secFarBlocks, p.secFarBad⟩
    | none => ⟨false, 0, 0, false, 0, 0⟩

/-! ### Frond bins (R218, R219) -/

/-- A BER gauge of `a` errors in `b` bits: round(-2,560 log10(a / b)). -/
def berGauge (a b : Nat) : Nat :=
  if b = 0 then 0
  else if a = 0 then 0xffff
  else if b ≤ a then 0
  else
    let g := searchMax (fun g => decide (g ≤ 0) || decide (a ^ 5120 * 10 ^ (2 * g - 1).toNat ≤ b ^ 5120)) 17 0
    min 0xfffe g.toNat

/-- A second counts in a frond bin. -/
def FrondBin.take (b : FrondBin) (m : FrondPm) : FrondBin :=
  let any := m.secAny && decide (0 < m.secSent)
  let worse := match b.worst with
    | some (x, y) => decide (x * m.secSent < m.secInner * y)
    | none => true
  { b with
    codewords := (b.codewords + m.secCw) % 2 ^ 64
    uncorrected := (b.uncorrected + m.secUnc) % 2 ^ 64
    innerBits := if any then b.innerBits + m.secInner else b.innerBits
    sentBits := if any then b.sentBits + m.secSent else b.sentBits
    worst := if any && worse then some (m.secInner, m.secSent) else b.worst
    uncSeconds := b.uncSeconds + (if 0 < m.secUnc then 1 else 0)
    seconds := b.seconds + 1 }

/-- Bytes 16..63 of a frond record (Table PM-5). -/
def FrondBin.bytes (b : FrondBin) (f len t : Nat) : List Byte :=
  let q := fun (c : Bool) (i : Nat) => if c then 2 ^ i else 0
  let gauge := fun (w : Option (Nat × Nat)) => (w.map fun p => berGauge p.1 p.2).getD 0
  natLe 4 (len * 2 ^ 17 + q b.suspect 19 + q b.sat 20 + 2 ^ 22 + f) ++ natLe 8 t ++ natLe 8 b.codewords ++ natLe 8 b.uncorrected ++
    natLe 2 (gauge b.worst) ++ natLe 2 (gauge (if b.sentBits = 0 then none else some (b.innerBits, b.sentBits))) ++
    natLe 2 (b.ngmiMin.getD 0xffff) ++ natLe 2 ((b.snrMin.map (ofSigned 12)).getD 0x8000) ++
    natLe 4 b.uncSeconds ++ natLe 4 b.losses ++ natLe 4 b.slips

/-- A frond bin closes at `t` and its record is due from the next tick. -/
def State.frondClose (s : State) (f len t : Nat) (b : FrondBin) (start : Nat) : State :=
  let b := { b with suspect := b.suspect || decide (t < start + binTicks len) || b.sentBits == 0 }
  s.queueRecord { tenant := 0, obj := f, len := len, due := t + 1, frondRec := true, zero := false, bytes := b.bytes f len t }

/-- The bins of a frond that close at boundary `t`. -/
def State.frondCloseAll (s : State) (f t : Nat) (c15 c24 : Bool) : State :=
  let m := (s.frond f).pm
  let s := if c15 then (s.frondClose f 0 t m.b15 m.start).modFrond f fun x => { x with pm := { x.pm with b15 := {}, start := t } } else s
  if c24 then (s.frondClose f 1 t m.b24 m.start24).modFrond f fun x => { x with pm := { x.pm with b24 := {}, start24 := t } } else s

/-- The end of a PM second of one frond. -/
def State.frondSecond (s : State) (f t : Nat) : State :=
  let m := (s.frond f).pm
  let s := s.modFrond f fun x => { x with
    pm := { x.pm with
      b15 := x.pm.b15.take m, b24 := x.pm.b24.take m, secCw := 0, secUnc := 0, secInner := 0, secSent := 0
      secAny := false, ssf := false, smBdi := false, pmBdi := false }
    slf := { x.slf with layers := x.slf.layers.map fun q =>
      (q.1, { q.2 with pmN := 0, pmBad := 0, pmFarN := 0, pmFarBad := 0 }) } }
  s.frondCloseAll f t (binBoundary s.pm.anchor 0 t) (binBoundary s.pm.anchor 1 t)

/-- PM_SECOND_END: the end of the last tick of a PM second: every endpoint's second and every frond's is classified, the
second of nine seconds before is committed, bins close at their boundaries (R208..R225). -/
def execPmSecondEnd (s : State) : Host.Outcome State Fault Refusal := .next <|
  let t := s.tick + 1
  if t % pmSecond ≠ 0 then s
  else
    let s := s.pm.eps.foldl (fun a q => a.epSecond q.1 t (s.secInput q.1)) s
    let s := s.frondIds.foldl (fun s f => s.frondSecond f t) s
    { s with ports := s.ports.map fun q => (q.1, { q.2 with secCw := 0, secUnc := 0, secNear := false, secFar := false }) }

/-- Each tick: the conditions that a PM second holds "at any tick", and the frond bins' SUSPECT (R212, R218, R282). -/
def State.pmTick (s : State) : State :=
  let s := s.frondIds.foldl (fun s f =>
    let bad := !s.lineRun f || decide (2 ≤ s.pState f)
    let ssf := s.aSsf f
    let sm := s.flag (slfDef f 5)
    let pm := s.flag (slfDef f 8)
    s.modFrond f fun x => { x with
      slf := { x.slf with ssfSecond := x.slf.ssfSecond || ssf }
      pm := { x.pm with
        ssf := x.pm.ssf || ssf, smBdi := x.pm.smBdi || sm, pmBdi := x.pm.pmBdi || pm
        b15 := { x.pm.b15 with suspect := x.pm.b15.suspect || bad }
        b24 := { x.pm.b24 with suspect := x.pm.b24.suspect || bad } } }) s
  { s with ports := s.ports.map fun q => (q.1, { q.2 with
      secNear := q.2.secNear || portDefect q.2, secFar := q.2.secFar || q.2.rf || q.2.rdi }) }

/-! ### Actions on counting (Table PM-3) -/

/-- Counting starts with the next PM second; the first bins are SUSPECT (R216). -/
def State.pmCreate (s : State) (e : Nat) : State :=
  let start := ceilDiv s.tick pmSecond * pmSecond
  (s.setEpPm e (some { startTick := start, b15 := { suspect := true, start := s.tick }, b24 := { suspect := true, start := s.tick } })).memWrite
    0x12 0 (128 * e) 128

/-- Counting ends: pending seconds are committed with the availability in force, the bins in progress close with FINAL. -/
def State.pmDelete (s : State) (e : Nat) : State :=
  match s.epPm e with
  | none => s
  | some p =>
    let w := p.window.map fun r => { r with neUn := !p.neAvail, feUn := !p.feAvail }
    let (s, p) := w.foldl (fun (a : State × EpPm) r => a.1.commitSec e s.tick r a.2) (s, { p with window := [] })
    let s := (List.range 2).foldl (fun s len =>
      let (c, b) := p.bins len
      let now := fun (x : EpBin) => x.endTick == s.tick
      let s := (c.filter fun x => !now x).foldl (fun s x => s.epRecord e len s.tick x false) s
      match c.find? now with
      | some x => s.epRecord e len s.tick x true
      | none => s.epRecord e len s.tick { b.close len s.tick with suspect := true } true) s
    (s.setEpPm e none).memWrite 0x12 0 (128 * e) 128

/-- The counts of the bins in progress and the pending window are emptied; SUSPECT (Table PM-3). -/
def State.pmZero (s : State) (e : Nat) : State :=
  match s.epPm e with
  | none => s
  | some p =>
    let z := fun (b : EpBin) => { b with counts := List.replicate 8 0, suspect := true }
    s.setEpPm e (some { p with window := [], b15 := z p.b15, b24 := z p.b24 })

/-! ### The descriptors -/

/-- The checks of PM_SETUP ITEM 0: the effective tick is a multiple of 160,000, and so is the anchor (R209). -/
def chkPmAnchor (a : Nat) (c : Ctx) (_ : State) : List Ck :=
  c.pf ++ [ckFormat (a % pmSecond != 0), ⟨9, c.eff % pmSecond != 0, St.schedule, 0⟩]

/-- PM_SETUP ITEM 0 applied: every bin in progress closes, unless the old anchor closed it at this boundary. -/
def appPmAnchor (a : Nat) (_ : Ctx) (s : State) : Applied :=
  let t := s.tick
  let s := s.pm.eps.foldl (fun s q =>
    match s.epPm q.1 with
    | none => s
    | some p =>
      let p := if p.b15.start = t then p else p.closeLen 0 t
      s.setEpPm q.1 (some (if p.b24.start = t then p else p.closeLen 1 t))) s
  let s := s.frondIds.foldl (fun s f =>
    let m := (s.frond f).pm
    s.frondCloseAll f t (decide (m.start ≠ t)) (decide (m.start24 ≠ t))) s
  let s := { s with pm := { s.pm with anchor := a } }
  { s := (s.wr R.GLB_PM_ANCHOR_LO_ANCHOR_LO a).wr R.GLB_PM_ANCHOR_HI_ANCHOR_HI (a / 2 ^ 32) }

/-- PM_SETUP_ANCHOR as a request of its own. -/
def execPmSetupAnchor (h : ReqHdr) (mem : HostMem) (a : Nat) (s : State) : Host.Outcome State Fault Refusal := .next <|
  runOne h mem 0x24 (.pmAnchor a) s (chkPmAnchor a) (appPmAnchor a)

/-- The checks of PM_SETUP ITEM 1. -/
def chkPmProfile (k addr : Nat) (c : Ctx) (_ : State) : List Ck :=
  c.pf ++ [c.ckRead addr 64, ckFormat (decide (64 ≤ k)), ckAlign addr 64]

/-- PM_SETUP ITEM 1 applied: the 16 thresholds; counts that meet one raise PM_TCA at once (R221). -/
def appPmProfile (k addr : Nat) (c : Ctx) (s : State) : Applied :=
  let b := (readHost c.mem addr 64).getD []
  let l := (List.range 16).map fun i => fieldAt b (4 * i) 4
  let s := { s with pm := { s.pm with profiles := Tab.set (fun _ => []) s.pm.profiles k l } }
  { s := s.pm.eps.foldl (fun s q =>
      match s.epPm q.1 with
      | none => s
      | some p =>
        if (s.ep q.1).entry.pmProfile ≠ k then s
        else
          let (s, b15) := s.binTca q.1 0 s.tick p.b15 (nextBoundary s.pm.anchor 0 p.b15.start)
          let (s, b24) := s.binTca q.1 1 s.tick p.b24 (nextBoundary s.pm.anchor 1 p.b24.start)
          s.setEpPm q.1 (some { p with b15 := b15, b24 := b24 })) s }

/-- PM_SETUP_PROFILE as a request of its own. -/
def execPmSetupProfile (h : ReqHdr) (mem : HostMem) (k addr : Nat) (s : State) : Host.Outcome State Fault Refusal := .next <|
  runOne h mem 0x24 (.pmProfile k addr) s (chkPmProfile k addr) (appPmProfile k addr)

/-- The checks of PM_SETUP ITEM 2. -/
def chkPmZero (c : Ctx) (_ : State) : List Ck := c.pf

/-- PM_SETUP ITEM 2 applied (R224). -/
def appPmZero (on : Bool) (_ : Ctx) (s : State) : Applied := { s := s.wrB R.GLB_PM_STAT_ZERO_SUPPRESS on }

/-- PM_SETUP_ZERO_SUPPRESS as a request of its own. -/
def execPmSetupZeroSuppress (h : ReqHdr) (mem : HostMem) (on : Bool) (s : State) : Host.Outcome State Fault Refusal := .next <|
  runOne h mem 0x24 (.pmZero on) s chkPmZero (appPmZero on)

/-- The named endpoint exists and the tenant acts on it. -/
def Ctx.ckEp (c : Ctx) (s : State) (e : Nat) : List Ck :=
  c.ckTenant s ++ [ckFormat (decide (131072 ≤ e)), ckAbsent ((s.ep e).entry.kind == 0), c.ckOwner (s.ep e).entry.tenant]

/-- The checks of PM_CLEAR. -/
def chkPmClear (e : Nat) (c : Ctx) (s : State) : List Ck := c.ckNoAny :: c.ckEp s e

/-- PM_CLEAR applied. -/
def appPmClear (e : Nat) (_ : Ctx) (s : State) : Applied := { s := s.pmZero e }

/-- PM_CLEAR as a request of its own. -/
def execPmClear (h : ReqHdr) (mem : HostMem) (e : Nat) (s : State) : Host.Outcome State Fault Refusal := .next <|
  runOne h mem 0x25 (.pmClear e) s (chkPmClear e) (appPmClear e)

/-- A 16-byte event header (Table HST-9). -/
def evHeader (code : Nat) (phase lost : Bool) (tenant tick : Nat) : List Byte :=
  natLe 2 code ++ natLe 1 ((if phase then 128 else 0) + (if lost then 64 else 0)) ++ natLe 1 0 ++ natLe 2 (tenant % 1024) ++
    natLe 2 0 ++ natLe 8 tick

/-- The four records of one endpoint (R226). -/
def State.pmRead1 (s : State) (tenant e : Nat) : List Byte :=
  let hdr := fun (t : Nat) => evHeader 0x0702 false false t s.tick
  let none4 := fun (t : Nat) => hdr t ++ (natLe 4 (3 * 2 ^ 17 + e) ++ List.replicate 44 0)
  let x := s.ep e
  let mine := x.entry.kind != 0 && (tenant == 0 || tenant == x.entry.tenant)
  match (if mine then s.epPm e else none) with
  | none => (List.range 4).flatMap fun _ => none4 tenant
  | some p =>
    let t := x.entry.tenant
    let cur := fun (len : Nat) =>
      let b := (p.bins len).2
      hdr t ++ { b with endTick := nextBoundary s.pm.anchor len s.tick }.bytes e len false
    let last := fun (len : Nat) =>
      match ((p.bins len).1.getLast?).or (if len = 0 then p.last15 else p.last24) with
      | some b => hdr t ++ b.bytes e len false
      | none => none4 t
    cur 0 ++ cur 1 ++ last 0 ++ last 1

/-- The checks of PM_READ. -/
def chkPmRead (e n buf : Nat) (c : Ctx) (s : State) : List Ck :=
  c.ckNoAny :: c.ckTenant s ++
    [ckFormat (decide (131072 ≤ e) || n == 0 || decide (4096 < n) || decide (131072 < e + n)), ckAlign buf 64, s.ckBacklog (256 * n)]

/-- PM_READ applied. -/
def appPmRead (e n buf dn : Nat) (c : Ctx) (s : State) : Applied :=
  s.takeRead c dn buf ((List.range n).flatMap fun i => s.pmRead1 c.tenant (e + i))

/-- PM_READ as a request of its own. -/
def execPmRead (h : ReqHdr) (mem : HostMem) (e n buf : Nat) (s : State) : Host.Outcome State Fault Refusal := .next <|
  runOne h mem 0x26 (.pmRead e n buf) s (chkPmRead e n buf) (appPmRead e n buf h.dn)

end Sys2Proof.Machine
end

