-- ==== Sys2Proof/Machine/XcTable.lean ====
section
/-! DEFINITION. The endpoint table (R231..R236, R242, R245, R252, R284, R323): consistency, EP_CREATE, EP_CHANGE, EP_DELETE,
EP_READ, stop and release of an endpoint. -/
namespace Sys2Proof.Machine

/-! ### Slot lists (R323) -/

/-- Set `j` of a slot list, in rising order. -/
def slotSet (b : List Byte) (j : Nat) : List Nat :=
  (List.range 960).filter fun i => ((b[128 * j + i / 8]?).getD 0).toNat / 2 ^ (i % 8) % 2 == 1

/-- The three sets of the list at `addr`, empty when there is none; whether its reserved bytes are 0. -/
def Ctx.slotSets (c : Ctx) (addr : Nat) : List (List Nat) × Bool :=
  if addr = 0 then ([[], [], []], true)
  else
    let b := (readHost c.mem addr 384).getD []
    ((List.range 3).map (slotSet b), (List.range 3).all fun j => (slice b (128 * j + 120) 8).all (· == 0))

/-- A set fits its server, TS_COUNT and TS_LOW. -/
def setOk (l : List Nat) (server count low : Nat) : Bool :=
  l.length == count && decide (0 < count) && l.all (fun i => decide (i < server)) && l.headD 0 == low

/-! ### Consistency (R234) -/

/-- The ODU and slot count of an Ethernet port (Table XC-2). -/
def etherOdu : Nat → Nat × Nat
  | 1 => (4, 20)
  | 2 => (6, 40)
  | 3 => (6, 80)
  | 4 => (6, 160)
  | _ => (6, 320)

/-- An ODU of `ts` slots in an ODUCn (Table XC-1). -/
def inOducn (odu ts : Nat) : Bool :=
  if odu = 2 ∨ odu = 3 then ts == 2 else if odu = 4 ∨ odu = 5 then ts == 20
  else odu == 6 && decide (1 ≤ ts) && decide (ts ≤ 480)

/-- An ODU of `ts` slots in an HO ODU4. -/
def inHo (odu ts : Nat) : Bool :=
  if odu = 0 then ts == 1 else if odu = 1 then ts == 2 else if odu = 2 ∨ odu = 3 then ts == 8
  else odu == 6 && decide (1 ≤ ts) && decide (ts ≤ 80)

/-- The members of an inverse-multiplexed end at this end of the entry; 1 for another end. -/
def endMembers (x : XcEntry) (src : Bool) : Nat := if x.imuxM ≠ 0 ∧ ((x.imuxEnd = 0) = src) then x.imuxM + 1 else 1

/-- The slots of frond `f`'s OPUCn (R232). -/
def State.frondSlots (s : State) (f : Nat) : Nat := 20 * s.rd (R.FRD_SC_PLAN_N f)

/-- A frond as server of a slot set. -/
def State.ckFrondSet (s : State) (f odu ts low : Nat) (l : List Nat) : List Ck :=
  [s.ckFrond f, ckFormat (!inOducn odu ts || !setOk l (s.frondSlots f) ts low),
   ckCond (l.any fun i => s.slotEntry 0 f i != 0) St.slotBusy]

/-- The endpoint at `e` is an HO ODU4 termination. -/
def State.isHo (s : State) (e : Nat) : Bool := (s.ep e).entry.kind == 3 && (s.ep e).entry.oduType == 5

/-- Another connection names the port at `p`. -/
def State.portUsed (s : State) (p : Nat) : Bool :=
  s.eps.any fun q => q.2.entry.kind == 1 && (endNames p q.2.entry.src || endNames p q.2.entry.dst)

/-- An end of kind none. -/
def noneOk (d : XcEnd) (l : List Nat) : Bool := d.id == 0 && d.tsLow == 0 && l.isEmpty

/-- The checks of one end of a connection. Fronds, ports and HO ODU4 termination points are T0000's server layers, within
every tenant's reach. -/
def State.ckEnd (s : State) (x : XcEntry) (src : Bool) (l : List Nat) : List Ck :=
  let d := if src then x.src else x.dst
  let m := endMembers x src
  match d.kind with
  | 0 =>
    if 1 < m then
      [ckFormat (d.id ≥ 64 || x.oduType != 6 || x.tsCount % m != 0)] ++
        (imuxFronds x).flatMap fun f => s.ckFrondSet f 6 (x.tsCount / m) d.tsLow l
    else ckFormat (decide (64 ≤ d.id)) :: s.ckFrondSet (d.id % 64) x.oduType x.tsCount d.tsLow l
  | 1 =>
    let p := s.port d.id
    if p.client = 6 then
      [ckFormat (!inOducn x.oduType x.tsCount && !(x.oduType == 6 && decide (x.tsCount ≤ 960)) ||
         !setOk l (20 * p.inst) x.tsCount d.tsLow),
       ckCond (l.any fun i => s.slotEntry 1 d.id i != 0) St.slotBusy]
    else
      [ckAbsent (p.client == 0), ckFormat (p.client != 0 && etherOdu p.client != (x.oduType, x.tsCount)),
       ckFormat (d.tsLow != 0 || !l.isEmpty), ckCond (s.portUsed d.id) St.slotBusy]
  | 2 =>
    [ckAbsent (!s.isHo d.id), ckFormat (!inHo x.oduType x.tsCount || !setOk l 80 x.tsCount d.tsLow),
     ckCond (l.any fun i => s.slotEntry 2 d.id i != 0) St.slotBusy]
  | _ => [ckFormat true]

/-- The group of R242: distinct fronds of one rate, released in one tick; not a Lichen leg. -/
def State.ckGroup (s : State) (x : XcEntry) : List Ck :=
  let l := imuxFronds x
  let f0 := l.headD 0
  let same := l.all fun f => s.rd (R.FRD_SC_PLAN_N f) == s.rd (R.FRD_SC_PLAN_N f0) && s.lineRun f &&
    (s.frond f).slf.releaseTick == (s.frond f0).slf.releaseTick
  [ckFormat (decide (l.eraseDups.length < l.length) || !same || x.legbKind == 0 ||
    (if x.imuxEnd = 0 then x.src.kind else x.dst.kind) != 0)]

/-- The pair of R245. -/
def State.ckPair (s : State) (x : XcEntry) (l : List Nat) : List Ck :=
  [ckFormat (x.src.kind != 0 || x.src.id == x.legbFrond || decide (330 < x.tsCount))] ++
    s.ckFrondSet x.legbFrond x.oduType x.tsCount x.legbTsLow l

/-- Binding of SA `i` to endpoint `e` (R284, R297). -/
def State.ckBind (s : State) (x : XcEntry) (e i : Nat) : List Ck :=
  let line := (if s.lineEnd x.src then 1 else 0) + (if s.lineEnd x.dst then 1 else 0)
  let client := (if s.clientEnd x.src then 1 else 0) + (if s.clientEnd x.dst then 1 else 0)
  [ckFormat (x.kind != 1 || line != 1 || client != 1), ckAbsent (decide ((s.sa i).state ≤ 1)),
   ⟨8, (s.sa i).tenant != x.tenant, St.ownership, 0⟩, ckCond ((s.sa i).bound.any (· != e)) St.slotBusy]

/-- The MON group agrees with the kind (Table XC-3). -/
def ckMon (x : XcEntry) : Ck :=
  ckFormat (decide (4 < x.layer) ||
    (if x.kind = 1 then x.layer != 0 || x.tcmLevel != 0
     else if x.kind = 2 then x.layer != 1 || x.tcmLevel == 0 || decide (6 < x.tcmLevel)
     else x.tcmLevel != 0 || x.layer == 1))

/-- Slot sets of the two ends of one frond or interface do not overlap. -/
def selfOverlap (x : XcEntry) (a b c : List Nat) : Bool :=
  (x.src.kind == x.dst.kind && x.src.id == x.dst.id && (decide (x.src.kind = 1 ∧ a.isEmpty) || a.any b.contains)) ||
  (x.legbKind == 0 && x.dst.kind == 0 && x.dst.id == x.legbFrond && b.any c.contains) ||
  (x.imuxM != 0 && (let o := if x.imuxEnd = 0 then x.dst else x.src
     o.kind == 0 && (imuxFronds x).contains o.id && a.any b.contains))

/-- The checks of a whole entry for endpoint `e` (R234). -/
def State.ckEntry (s : State) (c : Ctx) (e : Nat) (x : XcEntry) (sets : List (List Nat)) : List Ck :=
  let a := sets.getD 0 []
  let b := sets.getD 1 []
  let l := sets.getD 2 []
  let lone := x.legbKind == 3 && x.legbFrond == 0 && x.legbTsLow == 0 && l.isEmpty
  let plain := x.imuxM == 0 && x.imuxEnd == 0 && x.members == 0
  [ckFormat (x.rsv || x.kind == 0 || decide (8 ≤ x.oduType) || x.tsCount == 0 || decide (1920 < x.tsCount)),
   ckMon x, ckAbsent (!(s.tenant x.tenant).active), ⟨8, c.tenant != 0 && c.tenant != x.tenant, St.ownership, 0⟩] ++
  (if x.kind = 1 then
    s.ckEnd x true a ++ s.ckEnd x false b ++
    [ckFormat (x.oduType == 5 || x.oduType == 7),
     ckFormat ((x.src.kind == 2) != (x.dst.kind == 2)), ckCond (selfOverlap x a b l) St.slotBusy] ++
    (if x.legbKind = 0 then s.ckPair x l else [ckFormat (!lone)]) ++
    (if x.imuxM ≠ 0 then s.ckGroup x else [ckFormat (!plain)]) ++
    [ckFormat (if x.legbKind = 0 ∨ x.imuxM ≠ 0 then decide (x.hold < 2) else x.hold != 0)] ++
    (if x.saEn then s.ckBind x e x.saId else [])
  else
    [ckFormat (!lone || !plain || x.hold != 0 || x.saEn || x.dst.kind != 3 || !noneOk x.dst b)] ++
    (if x.kind = 2 then
      let o := (s.ep x.src.id).entry
      [ckFormat (x.src.kind != 2 || x.src.tsLow != 0 || !a.isEmpty), ckAbsent (o.kind != 1),
       ckFormat (o.oduType != x.oduType || o.tsCount != x.tsCount), ⟨8, o.tenant != x.tenant, St.ownership, 0⟩]
    else if x.layer = 0 then
      [ckFormat (x.oduType != 5 || x.tsCount != 20 || (x.src.kind != 0 && x.src.kind != 1)),
       ⟨8, x.tenant != 0, St.ownership, 0⟩] ++
      (if x.src.kind = 1 then ckAbsent ((s.port x.src.id).client != 6) :: s.ckEnd x true a else s.ckEnd x true a)
    else if x.layer = 4 then
      let p := s.port x.src.id
      [ckFormat (x.src.kind != 1 || x.src.tsLow != 0 || !a.isEmpty), ckAbsent (p.client == 0),
       ckFormat (p.client != 0 && (x.oduType, x.tsCount) != (if p.client = 6 then (7, 20 * p.inst) else etherOdu p.client))]
    else
      [ckFormat (x.src.kind != 0 || decide (64 ≤ x.src.id) || x.oduType != 7 || x.src.tsLow != 0 || !a.isEmpty),
       s.ckFrond (x.src.id % 64), ⟨8, x.tenant != 0, St.ownership, 0⟩]))

/-! ### Quota and resources -/

/-- The slot keys an entry takes. -/
def entryKeys (x : XcEntry) (sets : List (List Nat)) : List Nat :=
  let a := sets.getD 0 []
  let b := sets.getD 1 []
  let l := sets.getD 2 []
  let one := fun (src : Bool) (l : List Nat) =>
    let d := if src then x.src else x.dst
    if 1 < endMembers x src then (imuxFronds x).flatMap fun f => l.map (slotKey 0 f)
    else if d.kind ≤ 2 then l.map (slotKey d.kind d.id) else []
  if x.kind = 2 then []
  else one true a ++ one false b ++ (if isLichen x then l.map (slotKey 0 x.legbFrond) else [])

/-- The granules of a pair or group (R252). -/
def entryGranules (x : XcEntry) : Nat :=
  if x.kind = 1 ∧ (x.legbKind = 0 ∨ x.imuxM ≠ 0) then ceilDiv (4096 * x.tsCount * (x.hold + 2)) 4194304 else 0

/-- The lowest free endpoint. -/
def State.lowestEp (s : State) : Option Nat := (List.range 131072).find? fun e => (s.ep e).entry.kind == 0

/-! ### EP_CREATE -/

/-- The checks of EP_CREATE. -/
def chkEpCreate (e : Nat) (x : XcEntry) (addr : Nat) (c : Ctx) (s : State) : List Ck :=
  let (sets, clean) := c.slotSets addr
  let id := if c.any then s.lowestEp.getD 0 else e
  let units := ((entryKeys x sets).map slotUnits).sum
  let g := entryGranules x
  c.ckTenant s ++ (if addr = 0 then [] else [c.ckRead addr 384]) ++
  [ckAlign addr 64, ckFormat (!clean || decide (131072 ≤ e)), ckCond (!c.any && (s.ep e).entry.kind != 0) St.slotBusy] ++
  s.ckEntry c id x sets ++
  [⟨11, s.overUnits x.tenant units || s.overGrans x.tenant g, St.overQuota, 0⟩,
   ⟨12, c.any && s.lowestEp.isNone, St.endpointExhausted, 0⟩, ⟨12, decide (s.granFree < g), St.granuleExhausted, 0⟩]

/-- Binds or unbinds the SA of endpoint `e`. -/
def State.bindSa (s : State) (i : Nat) (e : Option Nat) : State := s.setSa i { s.sa i with bound := e }

/-- MSI of the slots of a frond is re-evaluated after the table changed (R197). -/
def State.msiAfter (s : State) (keys : List Nat) : State :=
  keys.foldl (fun s k => if slotKind k = 0 then s.evalMsi (k / 2 ^ 12 % 2 ^ 28) (k % 2 ^ 12) else s) s

/-- EP_CREATE applied. A fenced entry or slot draws MEMORY_ERROR (R240, Table MEM-2). -/
def appEpCreate (e : Nat) (x : XcEntry) (addr : Nat) (c : Ctx) (s : State) : Applied :=
  let (sets, _) := c.slotSets addr
  let e := if c.any then s.lowestEp.getD 0 else e
  let keys := entryKeys x sets
  if keys.any s.slotFenced || s.epFenced e then { s := s, fail := some ⟨St.memoryError, 1⟩ }
  else
    let pair := isLichen x || isImux x
    let x := { x with state := 1, taken := 0, lstate := if pair then 1 else 0, granules := entryGranules x }
    let s := s.setEp e {
      entry := x, born := s.tick, slotsSrc := sets.getD 0 [], slotsDst := sets.getD 1 [], slotsLegB := sets.getD 2 [] }
    let s := { s with slotOwner := keys.foldl (fun t k => Tab.set (fun _ => 0) t k (e + 1)) s.slotOwner }
    let s := (s.memWrite 0x10 0 (32 * e) 32).slotsWritten keys
    let s := if x.saEn then s.bindSa x.saId (some e) else s
    let s := if x.pmEn then s.pmCreate e else s
    { s := ((s.msiAfter keys).quotaUpdate x.tenant).xcRegs, result := if c.any then e else 0 }

/-- EP_CREATE as a request of its own. -/
def execEpCreate (h : ReqHdr) (mem : HostMem) (e : Nat) (x : XcEntry) (addr : Nat) (s : State) :
    Host.Outcome State Fault Refusal := .next <|
  runOne h mem 0x20 (.epCreate e x addr) s (chkEpCreate e x addr) (appEpCreate e x addr)

/-! ### Stop and release (R235, R327, Table XC-4) -/

/-- A stopped endpoint. -/
def State.stopEp (s : State) (e : Nat) : State :=
  let x := s.ep e
  s.setEp e { x with entry := { x.entry with state := 2 }, copies := [], decided := [] }

/-- A released endpoint: a pair or group starts UNPAIRED. -/
def State.releaseEp (s : State) (e : Nat) : State :=
  let x := s.ep e
  if x.entry.kind = 0 ∨ x.entry.state = 1 then s
  else
    let pair := isLichen x.entry || isImux x.entry
    s.setEp e { x with
      entry := { x.entry with state := 1, taken := 0, lstate := if pair then 1 else 0 }, born := s.tick
      copies := [], decided := [], refLeg := 0, delta := 0, matchedRun := {}, aloneRun := {}, deltaRun := {}, shiftRun := {}
      refOffset := none, exceeded := false, failRun := [], clearRun := [], failed := [], skewRun := {}, skewBad := false }

/-- The functions restarted in this boundary are released (step 4); a request of its own releases them at once. -/
def State.releaseEps (s : State) : State :=
  (s.host.release.filter fun r => r.1 == 1).foldl (fun s r => s.releaseEp r.2)
    { s with host := { s.host with release := s.host.release.filter fun r => r.1 != 1 } }

/-! ### EP_CHANGE -/

/-- The entry with the fields of the named groups (R235): bit 0 SELECT, bit 1 MON, bit 2 CRYPT. -/
def changedEntry (old new : XcEntry) (g : Nat) : XcEntry :=
  let x := if g % 2 = 1 then { old with selMode := new.selMode, prefMode := new.prefMode } else old
  let x := if g / 2 % 2 = 1 then { x with
      pmProfile := new.pmProfile, pmEn := new.pmEn, tcmLevel := new.tcmLevel, layer := new.layer, expPt := new.expPt } else x
  if g / 4 % 2 = 1 then { x with saEn := new.saEn, saId := new.saId } else x

/-- The checks of EP_CHANGE. -/
def chkEpChange (e g : Nat) (x : XcEntry) (c : Ctx) (s : State) : List Ck :=
  let old := (s.ep e).entry
  let y := changedEntry old x g
  c.ckNoAny :: c.ckEp s e ++ [ckFormat (g == 0 || decide (8 ≤ g) || x.rsv), ckMon y] ++
  (if g / 4 % 2 = 1 ∧ y.saEn then s.ckBind y e y.saId else [])

/-- Endpoint `e` is released at step 4 of the boundary. -/
def State.epReleaseLater (s : State) (e : Nat) : State := { s with host := { s.host with release := s.host.release ++ [(1, e)] } }

/-- The SA binding of endpoint `e` follows its entry (R287). -/
def State.epRebind (s : State) (e : Nat) (old y : XcEntry) : State :=
  let s := if old.saEn && !(y.saEn && y.saId == old.saId) then s.bindSa old.saId none else s
  if y.saEn then s.bindSa y.saId (some e) else s

/-- PM counting of endpoint `e` follows its entry (R222). -/
def State.epRecount (s : State) (e : Nat) (old y : XcEntry) (kindChange : Bool) : State :=
  let s := if old.pmEn && (!y.pmEn || kindChange) then s.pmDelete e else s
  if y.pmEn && (!old.pmEn || kindChange) then s.pmCreate e else s

/-- A change of several groups stops the endpoint and, when it ran, releases it at step 4 (R235, R327). -/
def State.epRestart (s : State) (e : Nat) (many again : Bool) : State :=
  if !many then s
  else if again then (s.stopEp e).epReleaseLater e
  else s.stopEp e

/-- EP_CHANGE applied: in place for one group, with a restart for more (R235, R327). -/
def appEpChange (e g : Nat) (x : XcEntry) (c : Ctx) (s : State) : Applied :=
  if s.epFenced e then { s := s, fail := some ⟨St.memoryError, 1⟩ }
  else
    let old := (s.ep e).entry
    let y := changedEntry old x g
    let many := decide (1 < g % 2 + g / 2 % 2 + g / 4 % 2)
    let kindChange := many && (old.layer != y.layer || old.tcmLevel != y.tcmLevel)
    let s := (s.setEp e { s.ep e with entry := y }).memWrite 0x10 0 (32 * e) 32
    { s := (((s.epRebind e old y).epRecount e old y kindChange).epRestart e many
        (decide (old.state = 1) && !c.stops.contains (1, e))) }

/-- EP_CHANGE as a request of its own. -/
def execEpChange (h : ReqHdr) (mem : HostMem) (e g : Nat) (x : XcEntry) (s : State) : Host.Outcome State Fault Refusal :=
  .next <| (runOne h mem 0x21 (.epChange e g x) s (chkEpChange e g x) (appEpChange e g x)).releaseEps

/-! ### EP_DELETE (R236) -/

/-- One endpoint leaves the table. -/
def State.dropEp (s : State) (e : Nat) : State :=
  let x := (s.ep e).entry
  let s := s.pmDelete e
  let s := if x.saEn then s.bindSa x.saId none else s
  let keys := (s.slotOwner.filter fun q => q.2 == e + 1).map Prod.fst
  let s := { s with slotOwner := s.slotOwner.filter fun q => q.2 != e + 1 }
  let s := ((s.setEp e {}).memWrite 0x10 0 (32 * e) 32).slotsWritten keys
  (s.msiAfter keys).quotaUpdate x.tenant

/-- The checks of EP_DELETE. -/
def chkEpDelete (e : Nat) (c : Ctx) (s : State) : List Ck := c.ckNoAny :: c.ckEp s e

/-- EP_DELETE applied: the points that observe the connection are deleted with it. -/
def appEpDelete (e : Nat) (_ : Ctx) (s : State) : Applied :=
  let seen := (s.eps.filter fun q => decide (2 ≤ q.2.entry.kind) && q.2.entry.src.kind == 2 && q.2.entry.src.id == e).map Prod.fst
  let s := seen.foldl State.dropEp s
  { s := (s.dropEp e).xcRegs }

/-- EP_DELETE as a request of its own. -/
def execEpDelete (h : ReqHdr) (mem : HostMem) (e : Nat) (s : State) : Host.Outcome State Fault Refusal := .next <|
  runOne h mem 0x22 (.epDelete e) s (chkEpDelete e) (appEpDelete e)

/-! ### EP_READ (R258, R330) -/

/-- The 32 bytes of an entry (Table XC-3). -/
def XcEntry.bytes (x : XcEntry) : List Byte :=
  let b := fun (c : Bool) (i : Nat) => if c then 2 ^ i else 0
  let packEnd := fun (d : XcEnd) => d.kind * 2 ^ 30 + d.tsLow * 2 ^ 20 + d.id
  natLe 4 (x.kind * 2 ^ 30 + x.tenant * 2 ^ 20 + x.oduType * 2 ^ 16 + x.state * 2 ^ 12 + x.tsCount) ++
  natLe 4 (packEnd x.src) ++ natLe 4 (packEnd x.dst) ++
  natLe 4 (x.legbKind * 2 ^ 30 + x.legbTsLow * 2 ^ 20 + x.legbFrond) ++
  natLe 4 (x.selMode * 2 ^ 30 + x.prefMode * 2 ^ 29 + x.taken * 2 ^ 28 + x.imuxM * 2 ^ 26 + x.imuxEnd * 2 ^ 25 +
    x.lstate * 2 ^ 23 + x.hold) ++
  natLe 4 (b x.saEn 31 + x.saId * 2 ^ 16 + x.granules) ++ natLe 4 x.members ++
  natLe 4 (x.pmProfile * 2 ^ 26 + b x.pmEn 25 + x.tcmLevel * 2 ^ 21 + x.layer * 2 ^ 18 + x.expPt * 2 ^ 8)

/-- The 64 bytes that EP_READ writes. -/
def Endpoint.record (x : Endpoint) : List Byte :=
  if x.entry.kind = 0 then List.replicate 64 0
  else x.entry.bytes ++ natLe 8 x.frames ++ natLe 4 x.replaced ++ natLe 4 x.legChanges ++ natLe 4 x.reanchors ++ List.replicate 12 0

/-- What traffic has counted is read from the connection that traffic sees. -/
def State.epRecordNow (s : State) (e : Nat) : List Byte :=
  let x := s.ep e
  let y := if s.xcFrozen.isSome then thawEp x (s.xep e) else x
  y.record

/-- The checks of EP_READ: a free endpoint reads as zeros. -/
def chkEpRead (e buf : Nat) (c : Ctx) (s : State) : List Ck :=
  c.ckNoAny :: c.ckTenant s ++ [ckFormat (decide (131072 ≤ e)), ckAlign buf 64,
    ⟨8, (s.ep e).entry.kind != 0 && c.tenant != 0 && c.tenant != (s.ep e).entry.tenant, St.ownership, 0⟩, s.ckBacklog 64]

/-- EP_READ applied: the read of the table corrects or finds errors; a record with a poisoned byte is written poisoned
(R559, Table MEM-2). -/
def appEpRead (e buf dn : Nat) (c : Ctx) (s : State) : Applied :=
  let (s, bad) := s.memRead 0x10 0 (32 * e) 32
  s.takeRead c dn buf (s.epRecordNow e) (!bad.isEmpty || s.epFenced e)

/-- EP_READ as a request of its own. -/
def execEpRead (h : ReqHdr) (mem : HostMem) (e buf : Nat) (s : State) : Host.Outcome State Fault Refusal := .next <|
  runOne h mem 0x23 (.epRead e buf) s (chkEpRead e buf) (appEpRead e buf h.dn)

end Sys2Proof.Machine
end

