-- ==== Sys2Proof/Machine/Functions.lean ====
section
/-! DEFINITION. Functions and their stop, change and restart (R326, R327): FUNC_STOP, FUNC_START, LINE_SETUP; LINE_OH, and
the host's side of the in-band GCC. -/
namespace Sys2Proof.Machine

/-! ### The line function of a frond -/

/-- Stop of the line function (R146, R199, R206): IDLE, defect states cleared, queued frames discarded, a pending swap
cancelled. -/
def State.stopLine (s : State) (f : Nat) : State :=
  if !s.lineRun f then s
  else
    let s := s.wrB (R.FRD_ID_LINE_RUN f) false
    let s := if s.flag (R.FRD_LD_STAT_REQ_OUT f) then s.endRequest f else s
    let s := ((s.enterIdle f).stopDefects f).gccStop f
    let s := if (s.frond f).ld.pend.isSome then s.cancelSwap f else s
    let s := s.modFrond f fun x => { x with fec := { x.fec with arrived := [], inner := [] } }
    s.squelchUpdate f

/-- Release of the line function (R148): the starting table with TID 0, REQ_SEQ 0, the receiver in COLD. A frond in F2..F4
stays IDLE (Table ACQ-3). -/
def State.releaseLine (s : State) (f : Nat) : State :=
  if s.lineRun f ∨ s.rd (R.FRD_SC_PLAN_N f) = 0 then s
  else
    let n := s.rd (R.FRD_SC_PLAN_N f)
    let c := s.rd (R.FRD_SC_PLAN_COUNT f)
    let codes := if (s.frond f).ld.startCodes.all (· == 0) then flatTable n c else (s.frond f).ld.startCodes
    let s := s.wrB (R.FRD_ID_LINE_RUN f) true
    let s := s.modFrond f fun x => { x with
      slf := { x.slf with releaseTick := s.tick }
      ld := { x.ld with txCodes := codes, rxCodes := List.replicate 32 0, pend := none, acks := [], notice := none, rxKnown := false,
                        reqCodes := List.replicate 32 0 } }
    let s := s.setReg (R.FRD_LD_STAT_TX_TID f).off 0
    let s := (s.wr (R.FRD_LD_SUM_Q f) (tableSum n)).wr (R.FRD_LD_SUM_LIT f) (litCount codes)
    let s := s.wr (R.FRD_FEC_STAT_W f) (fecW n)
    let s := s.squelchUpdate f
    let s := s.updateLos f
    if s.pState f ≤ 1 then (s.stampRule f).leaveIdle f false else s

/-- Releases the functions that a request restarted; a request of its own releases them at once (step 4). -/
def State.releaseAll (s : State) : State :=
  let l := s.host.release
  l.foldl (fun s r => if r.1 = 0 then s.releaseLine r.2 else if r.1 = 1 then s.releaseEp r.2 else s.releasePort r.2)
    { s with host := { s.host with release := [] } }

/-- A function waits for release at step 4. -/
def State.releaseLater (s : State) (kind id : Nat) : State :=
  { s with host := { s.host with release := s.host.release ++ [(kind, id)] } }

/-! ### FUNC_STOP and FUNC_START -/

/-- The checks of FUNC_STOP and FUNC_START: KIND 0 frond, 1 endpoint, 2 client port. -/
def chkFunc (start : Bool) (kind id : Nat) (c : Ctx) (s : State) : List Ck :=
  match kind with
  | 0 => c.pf ++ [s.ckFrond id, ckAbsent (start && s.rd (R.FRD_SC_PLAN_N id) == 0)]
  | 1 => c.ckNoAny :: c.ckEp s id
  | 2 => c.pf ++ [ckAbsent (decide (288 ≤ id) || !s.portExists id)]
  | _ => [ckFormat true]

/-- FUNC_STOP applied. A function that a part of the same request restarted stays stopped (R327). -/
def appFuncStop (kind id : Nat) (_ : Ctx) (s : State) : Applied :=
  let s := { s with host := { s.host with release := s.host.release.filter (· != (kind, id)) } }
  match kind with
  | 0 => { s := s.stopLine id }
  | 1 => { s := if (s.ep id).entry.state = 1 then s.stopEp id else s }
  | _ => { s := if (s.port id).running then s.stopPort id else s }

/-- A function runs. -/
def State.funcRuns (s : State) (kind id : Nat) : Bool :=
  match kind with
  | 0 => s.lineRun id
  | 1 => (s.ep id).entry.state == 1
  | _ => (s.port id).running

/-- FUNC_START applied: release at step 4; a running function is left as it is. -/
def appFuncStart (kind id : Nat) (_ : Ctx) (s : State) : Applied :=
  { s := if s.funcRuns kind id then s else s.releaseLater kind id }

/-- FUNC_STOP as a request of its own. -/
def execFuncStop (h : ReqHdr) (mem : HostMem) (kind id : Nat) (s : State) : Host.Outcome State Fault Refusal := .next <|
  runOne h mem 0x01 (.funcStop kind id) s (chkFunc false kind id) (appFuncStop kind id)

/-- FUNC_START as a request of its own. -/
def execFuncStart (h : ReqHdr) (mem : HostMem) (kind id : Nat) (s : State) : Host.Outcome State Fault Refusal := .next <|
  (runOne h mem 0x02 (.funcStart kind id) s (chkFunc true kind id) (appFuncStart kind id)).releaseAll

/-! ### NOP -/

/-- The checks of NOP: the common ones only. -/
def chkNop (c : Ctx) (s : State) : List Ck := c.ckNoAny :: c.ckTenant s

/-- NOP applied: nothing changes. -/
def appNop (_ : Ctx) (s : State) : Applied := { s := s }

/-- NOP as a request of its own: it completes. -/
def execNop (h : ReqHdr) (mem : HostMem) (s : State) : Host.Outcome State Fault Refusal := .next <|
  runOne h mem 0x00 .nop s chkNop appNop

/-! ### LINE_SETUP (R125..R129, R148, R232) -/

/-- A plan that keeps R125..R129. -/
def planOk (n count slotM : Nat) (gridN : Int) : Bool :=
  decide (2 ≤ n) && decide (n ≤ 24) && decide (4 ≤ count) && decide (count ≤ 32) && count % 2 == 0 &&
  decide (-1376 ≤ gridN) && decide (gridN ≤ 480) && decide (4 ≤ slotM) && decide (slotM ≤ 63) &&
  decide (21 * count + 16 ≤ 25 * slotM) && decide (32 * count ≤ tableSum n) && decide (tableSum n ≤ 112 * count)

/-- The checks of LINE_SETUP. -/
def chkLineSetup (f n count slotM : Nat) (gridN : Int) (en : Bool) (codes : List Nat) (c : Ctx) (s : State) : List Ck :=
  let lost := s.slotOwner.any fun q => slotKind q.1 == 0 && q.1 / 2 ^ 12 % 2 ^ 28 == f && decide (20 * n ≤ q.1 % 2 ^ 12)
  c.pf ++ [ckFormat (!planOk n count slotM gridN), ckFormat (if en then !tableValid n count codes else codes.any (· != 0)),
    s.ckFrond f, ckCond lost St.slotBusy]

/-- LINE_SETUP applied: stop, the new plan, release at step 4 when the function ran. -/
def appLineSetup (f n count slotM : Nat) (gridN : Int) (en : Bool) (codes : List Nat) (c : Ctx) (s : State) : Applied :=
  let ran := s.lineRun f && !c.stops.contains (0, f)
  let s := s.stopLine f
  let s := ((s.wr (R.FRD_SC_PLAN_N f) n).wr (R.FRD_SC_PLAN_COUNT f) count).wr (R.FRD_SC_PLAN_SLOT_M f) slotM
  let s := s.wrS (R.FRD_SC_PLAN_GRID_N f) gridN
  let start := if en then codes else flatTable n count
  let s := s.modFrond f fun x => { x with ld := { x.ld with startCodes := start } }
  { s := if ran then s.releaseLater 0 f else s }

/-- LINE_SETUP as a request of its own. -/
def execLineSetup (h : ReqHdr) (mem : HostMem) (f n count slotM : Nat) (gridN : Int) (en : Bool) (codes : List Nat)
    (s : State) : Host.Outcome State Fault Refusal := .next <|
  (runOne h mem 0x10 (.lineSetup f n count slotM gridN en codes) s (chkLineSetup f n count slotM gridN en codes)
    (appLineSetup f n count slotM gridN en codes)).releaseAll

/-! ### LINE_OH (R193, R196, R277) -/

/-- The checks of LINE_OH. -/
def chkLineOh (target id layer item mode addr : Nat) (c : Ctx) (s : State) : List Ck :=
  c.pf ++ [ckFormat (decide (1 < target) || decide (7 < layer) || decide (2 < item) || decide (1 < mode)),
    ckFormat (item == 2 && decide (layer < 2))] ++
  (if item = 2 then [] else [c.ckRead addr 64, ckAlign addr 64]) ++
  (if target = 0 then [s.ckFrond id] else [ckAbsent ((s.port id).client != 6)])

/-- A TCM level goes OFF: its defects are no longer declared (R199). -/
def State.tcmOff (s : State) (f l : Nat) : State :=
  let s := ((s.setStat f l 1).setTim f l false).setBdi f l false
  let s := s.setDeg f l false
  s.setLayer f l { s.layer f l with mode := false, statAcc := 1, statRun := 0, ttiAcc := none, ttiSame := 0 }

/-- LINE_OH applied. -/
def appLineOh (target id layer item mode addr : Nat) (c : Ctx) (s : State) : Applied :=
  let tti := (readHost c.mem addr 64).getD (List.replicate 64 0)
  let put := fun (x : OhLayer) =>
    if item = 0 then { x with ttiSent := tti } else if item = 1 then { x with ttiExp := tti } else { x with mode := mode == 1 }
  if target = 0 then
    if item = 2 ∧ mode = 0 then { s := s.tcmOff id layer }
    else { s := (s.setLayer id layer (put (s.layer id layer))).evalTim id layer }
  else
    let p := s.port id
    { s := s.setPort id { p with layers := Tab.set (fun _ => {}) p.layers layer (put (Tab.get (fun _ => {}) p.layers layer)) } }

/-- LINE_OH as a request of its own. -/
def execLineOh (h : ReqHdr) (mem : HostMem) (target id layer item mode addr : Nat) (s : State) :
    Host.Outcome State Fault Refusal := .next <|
  runOne h mem 0x13 (.lineOh target id layer item mode addr) s (chkLineOh target id layer item mode addr)
    (appLineOh target id layer item mode addr)

/-! ### GCC_SEND and GCC_RX_POST (R206, R334) -/

/-- The checks of GCC_SEND. -/
def chkGccSend (f len addr : Nat) (c : Ctx) (s : State) : List Ck :=
  c.pf ++ [c.ckRead addr len, ckFormat (decide (4352 < len)), ckAlign addr 64, s.ckFrond f,
    ckCond (decide (16 ≤ (s.frond f).slf.gccHost.length)) St.queueFull]

/-- GCC_SEND applied: the frame is queued as TYPE MGMT. While the line function is stopped a queued frame is discarded and
counted in TX_DROP (R206). -/
def appGccSend (f len addr : Nat) (c : Ctx) (s : State) : Applied :=
  let g : GccFrame := { typ := 1, payload := (readHost c.mem addr len).getD [] }
  if s.lineRun f then { s := s.modSlf f fun y => { y with gccHost := y.gccHost ++ [g] } }
  else { s := s.bump (R.FRD_SLF_GCC_TX_DROP f) 1 }

/-- GCC_SEND as a request of its own. -/
def execGccSend (h : ReqHdr) (mem : HostMem) (f len addr : Nat) (s : State) : Host.Outcome State Fault Refusal := .next <|
  runOne h mem 0x14 (.gccSend f len addr) s (chkGccSend f len addr) (appGccSend f len addr)

/-- The checks of GCC_RX_POST. -/
def chkGccRxPost (addr : Nat) (c : Ctx) (s : State) : List Ck :=
  c.pf ++ [ckAlign addr 64, ckCond (decide (256 ≤ s.host.posted.length)) St.queueFull]

/-- GCC_RX_POST applied. -/
def appGccRxPost (tag addr : Nat) (_ : Ctx) (s : State) : Applied :=
  { s := { s with host := { s.host with posted := s.host.posted ++ [(tag, addr)] } } }

/-- GCC_RX_POST as a request of its own. -/
def execGccRxPost (h : ReqHdr) (mem : HostMem) (tag addr : Nat) (s : State) : Host.Outcome State Fault Refusal := .next <|
  runOne h mem 0x15 (.gccRxPost tag addr) s (chkGccRxPost addr) (appGccRxPost tag addr)

end Sys2Proof.Machine
end

