-- ==== Sys2Proof/Machine/Gate.lean ====
section
/-! DEFINITION. The rules that answer a host access before its access code (R4, R309, R359, R468, R486, R636), the holds of
the secure domain (R286, R378), and the vectors that a mailbox wakes. -/
namespace Sys2Proof.Machine

/-- How a host access is answered: refused as malformed, refused by BAR2, before release, in the region of a disabled frond
or VF or outside a VF's block, at a block in reset, reserved, or under its access code (R636). -/
inductive Verdict where
  | ok
  | badForm
  | denied
  | zero
  | inReset (block : Nat)
  deriving DecidableEq, Repr

/-- The block whose isolation wrapper guards a register (R486, R642, Table BOOT-8). -/
def blockOf (off : Nat) : Option Nat :=
  if 0x1000000 ≤ off then none
  else if 0x100000 ≤ off then
    let f := (off - 0x100000) / 0x10000
    if off % 0x10000 = 4 then some (0x300 + f) else some (0x100 + f)
  else match off / 0x10000 with
    | 2 => some 0x010
    | 4 => some 0x011
    | 9 => some 0x012
    | 11 => some 0x013
    | 14 =>
      if off % 0x10000 < 0x4000 then some (0x200 + (off % 0x10000) / 0x10 / 48)
      else if off % 0x10000 < 0x8000 then some (0x200 + (off % 0x10000 - 0x4000) / 0x10 / 48)
      else none
    | _ => none

/-- Block `b` is in reset. -/
def State.blockInReset (s : State) (b : Nat) : Bool := s.boot.inReset.any fun x => x.id == b

/-- BOOT_FAIL after a fuse error: only the identity registers and the reset region are read (R467). -/
def State.fuseFailed (s : State) : Bool := s.rd R.RST_BOOT_STAT_PHASE == 6 && s.rd R.RST_BOOT_STAT_FAIL_REASON == 1

/-- The identity registers (R639). -/
def identityOff (off : Nat) : Bool := decide (off ≤ 0x10) || off == 0x24

/-- The verdict on an access of the PF at `off`: BAR0, or BAR2 from 0x1000000. `form`: one aligned DWORD, all byte enables. -/
def State.pfVerdict (s : State) (off : Nat) (form : Bool) : Verdict :=
  if !form then .badForm
  else if 0x1000000 ≤ off then (if s.sec.ide then .ok else .denied)
  else
    let region := off / 0x10000
    if s.fuseFailed ∧ region ≠ 6 ∧ !identityOff off then .zero
    else if !s.running ∧ region ≠ 0 ∧ region ≠ 1 ∧ region ≠ 6 then .zero
    else if 0x100000 ≤ off ∧ !s.frondEnabled ((off - 0x100000) / 0x10000) then .zero
    else match (blockOf off).filter s.blockInReset with
      | some b => .inReset b
      | none =>
        if region = 1 ∧ off % 0x10000 / 0x100 ≠ 0 ∧ !(s.fnState (off % 0x10000 / 0x100)).vfEnabled then .zero
        else if (regAt off).isNone then .zero else .ok

/-- The PF offset and the verdict of an access of function `fn` at `off` of its BAR. -/
def State.verdict (s : State) (fn off : Nat) (form : Bool) : Nat × Verdict :=
  if fn = 0 then (off, s.pfVerdict off form)
  else if !form then (off, .badForm)
  else if 0x100 ≤ off ∨ !(s.fnState fn).vfEnabled then (off, .zero)
  else (0x10000 + 0x100 * fn + off, s.pfVerdict (0x10000 + 0x100 * fn + off) form)

/-- A BAR2 request refused (R359): SEC_DENIED, and BAR2_DENIED at most once per 160 ticks. -/
def State.bar2Denied (s : State) : State :=
  let s := s.bump R.SEC_DENIED_DENIED 1
  let (s, t, n) := s.rateEvent 0x0e07 0 160 s.sec.deniedTick s.sec.denied 1
  { s with sec := { s.sec with deniedTick := t, denied := n } }

/-- An access that the isolation wrapper of block `b` refuses (R486). -/
def State.isoCount (s : State) (b : Nat) : State :=
  let s := s.bump R.RST_ISO_CNT_COUNT 1
  { s with boot := { s.boot with inReset := s.boot.inReset.map fun x => if x.id = b then { x with refused := x.refused + 1 } else x } }

/-- A malformed request (R636 rule 1, Table REG-7). -/
def State.accError (s : State) (off : Nat) : State :=
  let s := (s.bump R.GLB_ACC_ERR_COUNT 1).wrB R.GLB_ACC_ERR_LAST_BAR2 (decide (0x1000000 ≤ off))
  s.wr R.GLB_ACC_ERR_LAST_REGION (off / 0x10000 % 256)

/-- A write of the PF at `off` that a row of its own describes: what refuses it, or `act`. -/
def State.pfWrite (s : State) (off : Nat) (act : State → State) : State :=
  match s.pfVerdict off true with
  | .ok => if s.fuseFailed then s else act s
  | .denied => s.bar2Denied
  | .inReset b => s.isoCount b
  | _ => s

/-- An entry counts for vector `v` of function `fn` (R335, R352). -/
def State.wakeVector (s : State) (fn v : Nat) : State :=
  s.modFn fn fun x => { x with
    vectors := Tab.set (fun _ => {}) x.vectors v { Tab.get (fun _ => ({} : Vector8)) x.vectors v with fresh := true } }

/-! ### Holds (R286, R355, R378..R380) -/

/-- A hold ID of Table SEC-1. -/
def State.holdId (s : State) (b : Nat) : Bool :=
  (decide (0x040 ≤ b) && decide (b ≤ 0x042)) || (decide (0x300 ≤ b) && decide (b < 0x300 + s.frondCount))

/-- The fronds that the line end of a bound connection uses. -/
def State.lineFronds (s : State) (x : XcEntry) : List Nat :=
  if s.lineEnd x.src then s.endFronds x true else s.endFronds x false

/-- The crypto unit of frond `f` is held (R286). -/
def State.cryptoHeld (s : State) (f : Nat) : Bool :=
  s.eps.any fun q => q.2.entry.kind == 1 && q.2.entry.state == 1 && q.2.entry.saEn &&
    decide (2 ≤ (s.sa q.2.entry.saId).state) && (s.lineFronds q.2.entry).contains f

/-- Block `b` is held. -/
def State.isHeld (s : State) (b : Nat) : Bool :=
  if b < 0x300 then decide (0x040 ≤ b) && decide (b ≤ 0x042) else s.holdId b && s.cryptoHeld (b - 0x300)

/-- The deferred effect of block `b`. -/
def State.deferredOf (s : State) (b : Nat) : Option Deferred := Tab.get (fun _ => none) s.sec.deferred b

/-- DEFERRED counts the blocks with a deferred effect. -/
def State.setDeferred (s : State) (b : Nat) (d : Option Deferred) : State :=
  let s := { s with sec := { s.sec with deferred := Tab.set (fun _ => none) s.sec.deferred b d } }
  s.wr R.SEC_HOLD_STAT_DEFERRED s.sec.deferred.length

/-- A holdable request is deferred (R378, R379): `kind` of Table SEC-12, `source`, the frond state asked for. -/
def State.defer (s : State) (b kind source target : Nat) : State :=
  (s.setDeferred b (some ⟨kind, source, target⟩)).raise 0x0e01 b [.w kind, .w source]

/-- A request that would leave the block clocked, powered and out of reset cancels what is deferred. -/
def State.cancelDeferred (s : State) (b : Nat) : State :=
  if (s.deferredOf b).isSome then s.setDeferred b none else s

/-- A write to an HLD field, or an RST_BLOCK write, that a hold turns away. -/
def State.holdIgnored (s : State) : State := s.bump R.SEC_HOLD_STAT_IGNORED 1

end Sys2Proof.Machine
end

