-- ==== Sys2Proof/Machine/Mailbox.lean ====
section
/-! DEFINITION. The mailboxes (chapter 14). Channels 0..7 are normal, 8 and 9 secure; a message is its header word and its
payload words. -/
namespace Sys2Proof.Machine

/-- The offset of channel `c`'s registers. -/
def mbBase (c : Nat) : Nat := if c < 8 then 0x20000 + 0x100 * c else 0x1000000 + 0x100 * (c - 8)

/-- The fields of a channel (Tables MBX-5..MBX-9). -/
def mbIn (c w : Nat) : Fld := ⟨mbBase c + 4 * w, 0, 32⟩
def mbOut (c w : Nat) : Fld := ⟨mbBase c + 0x40 + 4 * w, 0, 32⟩
def mbOutLen (c : Nat) : Fld := ⟨mbBase c + 0x80, 20, 4⟩
def mbQueued (c : Nat) : Fld := ⟨mbBase c + 0x80, 16, 4⟩
def mbOutFull (c : Nat) : Fld := ⟨mbBase c + 0x80, 8, 1⟩
def mbRun (c : Nat) : Fld := ⟨mbBase c + 0x80, 0, 7⟩
def mbCollision (c : Nat) : Fld := ⟨mbBase c + 0x84, 2, 1⟩
def mbDamaged (c : Nat) : Fld := ⟨mbBase c + 0x84, 1, 1⟩
def mbInFull (c : Nat) : Fld := ⟨mbBase c + 0x84, 0, 1⟩
def mbNoticeEn (c : Nat) : Fld := ⟨mbBase c + 0x88, 2, 1⟩
def mbEmptyIe (c : Nat) : Fld := ⟨mbBase c + 0x88, 1, 1⟩
def mbOutIe (c : Nat) : Fld := ⟨mbBase c + 0x88, 0, 1⟩
def mbDiscard (c : Nat) : Fld := ⟨mbBase c + 0x8c, 16, 16⟩
def mbNoticeDrop (c : Nat) : Fld := ⟨mbBase c + 0x8c, 0, 16⟩

/-- What channel `c` holds beside its registers. -/
def State.mbCh (s : State) (c : Nat) : MbxCh := Tab.get (fun _ => {}) s.mbx c

/-- Writes it; OUT_QUEUED follows the queue. -/
def State.setMbCh (s : State) (c : Nat) (x : MbxCh) : State :=
  { s with mbx := Tab.set (fun _ => {}) s.mbx c x }.wr (mbQueued c) x.queue.length

/-- MBX_SUMMARY follows the FULL flags of the normal channels. -/
def State.mbSummary (s : State) : State :=
  let bits := fun (f : Nat → Fld) => ((List.range 8).map fun c => if s.flag (f c) then 2 ^ c else 0).sum
  let s := s.wr R.MBX_SUMMARY_IN_FULL (bits mbInFull)
  s.wr R.MBX_SUMMARY_OUT_FULL (((List.range 8).map fun c => if s.flag (mbOutFull c) then 2 ^ c else 0).sum)

/-- The vector of a channel (R352). -/
def mbVector (c : Nat) : Nat := if c < 8 then 5 else 6

/-- A header word (Table MBX-1). -/
def mbHeader (code len : Nat) (rsp : Bool) (status tag : Nat) : Nat :=
  code * 2 ^ 24 + len * 2 ^ 20 + (if rsp then 2 ^ 19 else 0) + status * 2 ^ 16 + tag

/-- The fields of a header word. -/
def mbCode (d0 : Nat) : Nat := d0 / 2 ^ 24
def mbLen (d0 : Nat) : Nat := d0 / 2 ^ 20 % 16
def mbRsp (d0 : Nat) : Bool := d0 / 2 ^ 19 % 2 == 1
def mbTag (d0 : Nat) : Nat := d0 % 2 ^ 16

/-! ### The host's side -/

/-- A write of an inbound word. While the slot is full it overwrites, collides and damages (R343); else a write of D0
posts (R342). -/
def State.mbWrite (s : State) (c w v : Nat) : State :=
  s.pfWrite (mbBase c + 4 * w) fun s =>
    let s := s.wr (mbIn c w) v
    if s.flag (mbInFull c) then (s.wrB (mbCollision c) true).wrB (mbDamaged c) true
    else if w = 0 then (s.wrB (mbInFull c) true).mbSummary
    else s

/-- MBX_WORD_WRITE: a host write of an inbound payload word. -/
def execMbxWordWrite (c : Fin 10) (w : Fin 15) (v : Word) (s : State) : Host.Outcome State Fault Refusal := .next <|
  s.mbWrite c.val (w.val + 1) v.toNat

/-- MBX_POST: a host write of inbound D0. -/
def execMbxPost (c : Fin 10) (v : Word) (s : State) : Host.Outcome State Fault Refusal := .next <| s.mbWrite c.val 0 v.toNat

/-- The next queued message goes into the empty outbound slot (R346). -/
def State.mbPostOut (s : State) (c : Nat) : State :=
  let x := s.mbCh c
  match x.queue with
  | [] => s
  | (_, m) :: rest =>
    if s.flag (mbOutFull c) then s
    else
      let s := s.setMbCh c { x with queue := rest }
      let s := m.zipIdx.foldl (fun s q => s.wr (mbOut c q.2) q.1) s
      let s := ((s.wrB (mbOutFull c) true).wr (mbOutLen c) (mbLen (m.headD 0))).mbSummary
      if s.flag (mbOutIe c) then s.wakeVector 0 (mbVector c) else s

/-- A read of outbound word `w`: the last word of the message clears FULL (R342). -/
def State.mbReadOut (s : State) (c w : Nat) : State :=
  if s.flag (mbOutFull c) ∧ s.rd (mbOutLen c) = w then
    let s := ((s.wrB (mbOutFull c) false).wr (mbRun c) 0).mbSummary
    s.setMbCh c { s.mbCh c with read := true }
  else s

/-- MBX_OUTBOUND_READ: a host read of an outbound word. -/
def execMbxOutboundRead (c : Fin 10) (w : Fin 16) (s : State) : Host.Outcome State Fault Refusal := .next <|
  let off := mbBase c.val + 0x40 + 4 * w.val
  match s.pfVerdict off true with
  | .ok => (s.emit (.readReply 0 off (s.reg off))).mbReadOut c.val w.val
  | .denied => (s.emit (.unsupportedRequest 0 off)).bar2Denied
  | .inReset b => (s.emit (.completerAbort 0 off)).isoCount b
  | _ => s.emit (.readReply 0 off 0)

/-! ### The processor's side -/

/-- Adds to the outbound queue. A full queue loses its oldest notice, counted (R347); a notice that finds only replies is
lost itself. -/
def State.mbQueue (s : State) (c : Nat) (notice : Bool) (m : List Nat) : State :=
  let x := s.mbCh c
  if x.queue.length < 8 then s.setMbCh c { x with queue := x.queue ++ [(notice, m)] }
  else
    let s := s.bump (mbNoticeDrop c) 1
    let (s, t, n) := s.rateEvent 0x0d02 c 160 x.dropTick x.drops 1
    let x := { x with dropTick := t, drops := n }
    match x.queue.findIdx? fun q => q.1 with
    | some i => s.setMbCh c { x with queue := x.queue.eraseIdx i ++ [(notice, m)] }
    | none => s.setMbCh c x

/-- A reply to the message with header `d0` (R345): its payload only when the status is OK. -/
def State.mbReply (s : State) (c d0 status : Nat) (payload : List Nat) : State :=
  let p := if status = 0 then payload else []
  s.mbQueue c false (mbHeader (mbCode d0) p.length true status (mbTag d0) :: p)

/-- The words of the message in the inbound slot. -/
def State.mbMessage (s : State) (c : Nat) : List Nat :=
  (List.range (mbLen (s.rd (mbIn c 0)) + 1)).map fun w => s.rd (mbIn c w)

/-- A code that a row of the command table handles: normal (Table MBX-2) or secure (Table SEC-6). -/
def mbKnown (c code : Nat) : Bool :=
  if c < 8 then code == 1 || code == 2
  else [0x02, 0x40, 0x41, 0x42, 0x48, 0x49, 0x50, 0x5e, 0x5f].contains code

/-- The processor takes the message out of the inbound slot: FULL and DAMAGED clear. A damaged one is answered COLLIDED
(R344), a reply or an unknown code UNKNOWN (R345); another is in hand until its code's row handles it. -/
def State.mbTake (s : State) (c : Nat) : State :=
  let m := s.mbMessage c
  let d0 := m.headD 0
  let bad := s.flag (mbDamaged c)
  let s := (((s.wrB (mbInFull c) false).wrB (mbDamaged c) false).wr (mbRun c) 0).mbSummary
  let s := s.setMbCh c { s.mbCh c with read := true }
  let s := if s.flag (mbEmptyIe c) then s.wakeVector 0 (mbVector c) else s
  if bad then s.mbReply c d0 3 []
  else if mbRsp d0 || !mbKnown c (mbCode d0) then s.mbReply c d0 1 []
  else s.setMbCh c { s.mbCh c with inHand := some m }

/-- The replies waiting in a queue. -/
def mbReplies (x : MbxCh) : Nat := (x.queue.filter fun q => !q.1).length

/-- MBX_PROCESSOR_READ: the channel's processor reads a full inbound slot. It does not while its queue holds 8 replies
(R348), nor while the message before is in hand. -/
def execMbxProcessorRead (c : Fin 10) (s : State) : Host.Outcome State Fault Refusal := .next <|
  let x := s.mbCh c.val
  if s.flag (mbInFull c.val) && decide (mbReplies x < 8) && x.inHand.isNone then s.mbTake c.val else s

/-- MBX_REPLY_POST: a queued message goes into the outbound slot once it is empty. -/
def execMbxReplyPost (c : Fin 10) (s : State) : Host.Outcome State Fault Refusal := .next <| s.mbPostOut c.val

/-- The end of a tick: the crossing run of a channel (R350). -/
def State.mbCross (s : State) (c : Nat) : State :=
  let x := s.mbCh c
  let crossed := s.flag (mbInFull c) && s.flag (mbOutFull c) && !x.read
  let s := s.wr (mbRun c) (if crossed then min 64 (s.rd (mbRun c) + 1) else 0)
  if x.read then s.setMbCh c { x with read := false } else s

/-- MBX_CROSSING: the crossing run of a channel has reached 64 (R351). -/
def execMbxCrossing (c : Fin 10) (s : State) : Host.Outcome State Fault Refusal := .next <|
  let c := c.val
  if s.rd (mbRun c) < 64 then s
  else
    let s := s.sendFault ⟨0x010, 0x03, 2, false, c, s.tick⟩
    if (s.mbCh c).queue.length < 8 then ((s.mbTake c).wr (mbRun c) 0).raise 0x0d01 c [.w 0]
    else
      let s := (((s.wrB (mbInFull c) false).wrB (mbDamaged c) false).wr (mbRun c) 0).mbSummary
      ((s.setMbCh c { s.mbCh c with read := true }).bump (mbDiscard c) 1).raise 0x0d01 c [.w 1]

/-- Handles the message in hand when its code is `code`: `act` gives status and payload. -/
def State.mbHandle (s : State) (c code : Nat) (act : List Nat → State → State × Nat × List Nat) : State :=
  let x := s.mbCh c
  match x.inHand with
  | none => s
  | some m =>
    if mbCode (m.headD 0) ≠ code then s
    else
      let s := s.setMbCh c { x with inHand := none, mute := false }
      let (s, st, p) := act (m.drop 1) s
      if x.mute then s else s.mbReply c (m.headD 0) st p

/-- PING: a PING in hand is answered with its payload. -/
def execPing (c : Fin 8) (s : State) : Host.Outcome State Fault Refusal := .next <|
  s.mbHandle c.val 1 fun p s => (s, 0, p)

/-- The payload of FW_INFO: the versions and the slot and security version of the running firmware (Table MBX-2, R640). -/
def State.fwInfo (s : State) : List Nat :=
  [s.rd R.GLB_FW_MGMT_MGMT, s.rd R.GLB_FW_LOOP_LOOP, s.rd R.GLB_FW_STAT_ACTIVE_SLOT + 2 ^ 8 * s.rd R.GLB_FW_STAT_SEC_VERSION]

/-- FW_INFO: a request of a normal channel. -/
def execFwInfo (c : Fin 8) (s : State) : Host.Outcome State Fault Refusal := .next <|
  s.mbHandle c.val 2 fun p s => if p.isEmpty then (s, 0, s.fwInfo) else (s, 2, [])

/-- DIAG_TEXT: the management processor queues a notice on a channel whose NOTICE_EN is 1 (R345). -/
def execDiagText (c : Fin 8) (words : List Word) (s : State) : Host.Outcome State Fault Refusal := .next <|
  if s.flag (mbNoticeEn c.val) && !words.isEmpty && decide (words.length ≤ 15) then
    s.mbQueue c.val true (mbHeader 3 words.length false 0 0 :: words.map BitVec.toNat)
  else s

/-- The mailboxes' reset (R353). A request already read stays in hand to be carried out; its reply is discarded. -/
def State.mbReset (s : State) : State :=
  let s := (s.resetRegs 0x20000 0x2ffff).resetRegs 0x1000000 0x10001ff
  { s with mbx := (s.mbx.filter fun q => q.2.inHand.isSome).map fun q => (q.1, { inHand := q.2.inHand, mute := true }) }

end Sys2Proof.Machine
end

