-- ==== Sys2Proof/Machine/Secure.lean ====
section
/-! DEFINITION. The secure domain (chapter 15): the key engine's host context, the entropy source, the secure mailbox
messages, key-encryption keys, decommissioning, the release of holds. -/
namespace Sys2Proof.Machine

/-! ### Words and bytes of the key engine (R366) -/

/-- The bytes of words: byte 0 in bits 7:0 of word 0. -/
def wordsBytes (l : List Nat) : List Nat := l.flatMap fun w => (List.range 4).map fun i => w / 2 ^ (8 * i) % 256

/-- Words of bytes. -/
def bytesWords (l : List Nat) : List Nat :=
  (List.range (l.length / 4)).map fun i => ((List.range 4).map fun j => l.getD (4 * i + j) 0 * 2 ^ (8 * j)).sum

/-- The words of a register array. -/
def State.words (s : State) (f : Nat → Fld) (n : Nat) : List Nat := (List.range n).map fun w => s.rd (f w)

/-- Writes the words of a register array. -/
def State.setWords (s : State) (f : Nat → Fld) (l : List Nat) : State := l.zipIdx.foldl (fun s q => s.wr (f q.2) q.1) s

/-- The fused device key. A RETIRED part has it disabled: what AES then gives is not stated, and the bytes are left open
(assumption 1). -/
def State.deviceKey (s : State) : List Nat :=
  if s.fuse.secState = 5 then toVals s.fuse.deviceKey else (List.range 32).map fun i => Config.free (2 ^ 64 + i) % 256

/-- The context wrapping key of a boot nonce (R368). -/
def State.wrapKey (s : State) : List Nat :=
  let n := toVals s.sec.nonce
  aesEncrypt s.deviceKey n ++ aesEncrypt s.deviceKey (n.map (255 - ·))

/-- BOOT_TAG. -/
def State.bootTag (s : State) : Nat := (bytesWords (aesEncrypt s.deviceKey (List.replicate 16 0))).headD 0

/-! ### The host context (R366, R367, R370) -/

/-- SEC_KE_KEY_WRITE: a write of a key word. KEY0 clears KEY_VALID and erases words 1..7; the eighth word completes the
key. While BUSY a write is ignored and sets ERR to BUSY. -/
def execSecKeKeyWrite (w : Fin 8) (v : Word) (s : State) : Host.Outcome State Fault Refusal := .next <|
  s.pfWrite (R.SEC_KE_KEY_KEY w.val).off fun s =>
    if s.flag R.SEC_KE_STAT_BUSY then s.wr R.SEC_KE_STAT_ERR 2
    else
      let s := if w.val = 0 then (s.setWords R.SEC_KE_KEY_KEY (List.replicate 8 0)).wrB R.SEC_KE_STAT_KEY_VALID false else s
      let s := s.wr (R.SEC_KE_KEY_KEY w.val) v.toNat
      let seen := if w.val = 0 then [0] else if s.sec.keyWords.contains w.val then s.sec.keyWords else s.sec.keyWords ++ [w.val]
      let s := { s with sec := { s.sec with keyWords := seen } }
      if (List.range 8).all fun i => seen.contains i then s.wrB R.SEC_KE_STAT_KEY_VALID true else s

/-- The block operations of a command. -/
def keBlocks (op : Nat) : Nat := if op ≤ 2 then 1 else if op = 4 ∨ op = 6 then 36 else 0

/-- Zeroise: key, CV, IN, OUT and the context image. -/
def State.zeroise (s : State) : State :=
  let s := s.resetRegs 0x1001000 0x10010bf
  { s with sec := { s.sec with keyWords := [], busyOp := 0 } }

/-- A write of OP to SEC_KE_CMD (R367): refused with ERR, or started with BUSY. Zeroise acts at once. -/
def State.keCommand (s : State) (op : Nat) : State :=
  s.pfWrite R.SEC_KE_CMD_OP.off fun s =>
    if (op = 1 ∨ op = 2 ∨ op = 4) ∧ !s.flag R.SEC_KE_STAT_KEY_VALID then s.wr R.SEC_KE_STAT_ERR 1
    else if s.flag R.SEC_KE_STAT_BUSY then s.wr R.SEC_KE_STAT_ERR 2
    else if 0 < keBlocks op ∧ 131072 < s.sec.ops + keBlocks op then s.wr R.SEC_KE_STAT_ERR 3
    else if op = 7 then s.zeroise
    else
      let s := (s.wr R.SEC_KE_STAT_ERR 0).wrB R.SEC_KE_STAT_BUSY true
      { s with sec := { s.sec with busyOp := op, ops := s.sec.ops + keBlocks op } }

/-- KE_ENCRYPT: OP 1. -/
def execKeEncrypt (s : State) : Host.Outcome State Fault Refusal := .next <| s.keCommand 1

/-- KE_DECRYPT: OP 2. -/
def execKeDecrypt (s : State) : Host.Outcome State Fault Refusal := .next <| s.keCommand 2

/-- KE_CLEAR_SAVE: OP 3. -/
def execKeClearSave (s : State) : Host.Outcome State Fault Refusal := .next <| s.keCommand 3

/-- KE_WRAPPED_SAVE: OP 4. -/
def execKeWrappedSave (s : State) : Host.Outcome State Fault Refusal := .next <| s.keCommand 4

/-- KE_CLEAR_RESTORE: OP 5. -/
def execKeClearRestore (s : State) : Host.Outcome State Fault Refusal := .next <| s.keCommand 5

/-- KE_WRAPPED_RESTORE: OP 6. -/
def execKeWrappedRestore (s : State) : Host.Outcome State Fault Refusal := .next <| s.keCommand 6

/-- KE_ZEROISE: OP 7. -/
def execKeZeroise (s : State) : Host.Outcome State Fault Refusal := .next <| s.keCommand 7

/-- A wrapped restore (R370): FORMAT, BOOT_TAG, then the integrity check. -/
def State.wrappedRestore (s : State) : State :=
  let ctx := s.words R.SEC_KE_CTX_CTX 16
  if ctx.headD 0 / 2 ^ 24 ≠ 0xc2 then s.wr R.SEC_KE_STAT_ERR 6
  else if ctx.getD 1 0 ≠ s.bootTag then s.wr R.SEC_KE_STAT_ERR 5
  else match keyUnwrap s.wrapKey (wordsBytes (ctx.drop 2)) with
    | none => s.wr R.SEC_KE_STAT_ERR 4
    | some p =>
      let w := bytesWords p
      let s := (s.setWords R.SEC_KE_KEY_KEY (w.take 8)).setWords R.SEC_KE_CV_CV (w.drop 8)
      let s := s.wrB R.SEC_KE_STAT_KEY_VALID true
      { s with sec := { s.sec with keyWords := List.range 8 } }

/-- A clear restore (R370): CV is loaded, the key is gone. -/
def State.clearRestore (s : State) : State :=
  let ctx := s.words R.SEC_KE_CTX_CTX 16
  if ctx.headD 0 / 2 ^ 24 ≠ 0xc1 then s.wr R.SEC_KE_STAT_ERR 6
  else
    let s := s.setWords R.SEC_KE_CV_CV ((ctx.drop 2).take 4)
    let s := (s.setWords R.SEC_KE_KEY_KEY (List.replicate 8 0)).wrB R.SEC_KE_STAT_KEY_VALID false
    { s with sec := { s.sec with keyWords := [] } }

/-- KE_OP_DONE: the command in progress completes: its result is there and BUSY clears. -/
def execKeOpDone (s : State) : Host.Outcome State Fault Refusal := .next <|
  if !s.flag R.SEC_KE_STAT_BUSY then s
  else
    let key := wordsBytes (s.words R.SEC_KE_KEY_KEY 8)
    let blk := wordsBytes (s.words R.SEC_KE_IN_IN 4)
    let cv := s.words R.SEC_KE_CV_CV 4
    let op := s.sec.busyOp
    let s := { s.wrB R.SEC_KE_STAT_BUSY false with sec := { s.sec with busyOp := 0 } }
    match op with
    | 1 => s.setWords R.SEC_KE_OUT_OUT (bytesWords (aesEncrypt key blk))
    | 2 => s.setWords R.SEC_KE_OUT_OUT (bytesWords (aesDecrypt key blk))
    | 3 => s.setWords R.SEC_KE_CTX_CTX ([0xc1 * 2 ^ 24, 0] ++ cv ++ List.replicate 10 0)
    | 4 => s.setWords R.SEC_KE_CTX_CTX
        ([0xc2 * 2 ^ 24, s.bootTag] ++ bytesWords (keyWrap s.wrapKey (key ++ wordsBytes cv)))
    | 5 => s.clearRestore
    | 6 => s.wrappedRestore
    | _ => s

/-- MASK_RESEED: the mask generator is reseeded from the entropy source, which must be HEALTHY (R364). -/
def execMaskReseed (s : State) : Host.Outcome State Fault Refusal := .next <|
  if s.rd R.SEC_ENT_STAT_STATE = 1 then { s with sec := { s.sec with ops := 0 } } else s

/-- CRYPTO_GATE_WRITE: a write of FRD_CRYGATE.GATE, ignored and counted while the unit is held (R642). -/
def execCryptoGateWrite (f : Fin 48) (gate : Bool) (s : State) : Host.Outcome State Fault Refusal := .next <|
  s.pfWrite (R.FRD_CRYGATE_GATE f.val).off fun s =>
    if s.cryptoHeld f.val then s.holdIgnored else s.wrB (R.FRD_CRYGATE_GATE f.val) gate

/-! ### The entropy source (R371..R373) -/

/-- Every tenant's KEK is erased. -/
def State.eraseKeks (s : State) (reason : Nat) : State := (s.sec.keks.map Prod.fst).foldl (fun s t => s.eraseKek t reason) s

/-- What entry into FAILED does (R373). -/
def State.entropyFail (s : State) : State :=
  let s := s.wr R.SEC_ENT_STAT_STATE 3
  let s := ((s.eraseKeks 3).zeroise).raise 0x0e06 0
  s.sendFault ⟨0x042, 0x07, 5, false, 0, s.tick⟩

/-- ENTROPY_STARTUP_PASS: a start-up test passed. -/
def execEntropyStartupPass (s : State) : Host.Outcome State Fault Refusal := .next <|
  if s.rd R.SEC_ENT_STAT_STATE = 0 ∨ s.rd R.SEC_ENT_STAT_STATE = 2 then s.wr R.SEC_ENT_STAT_STATE 1 else s

/-- ENTROPY_HEALTH_FAILURE: a health test (0 repetition count, 1 adaptive proportion) or a start-up test (2) fails. -/
def execEntropyHealthFailure (test : Fin 3) (s : State) : Host.Outcome State Fault Refusal := .next <|
  if s.rd R.SEC_ENT_STAT_STATE = 3 then s
  else
    let l := (s.sec.entFails ++ [s.tick]).filter fun t => decide (s.tick < t + 160000)
    let s := { s with sec := { s.sec with entFails := l } }
    if 3 ≤ l.length then s.entropyFail
    else ((s.wr R.SEC_ENT_STAT_STATE 2).bump R.SEC_ENT_STAT_RESTARTS 1).raise 0x0e05 0 [.w test.val]

/-! ### Key-encryption keys (R374, R375) -/

/-- The key check value. -/
def kcv (key : List Byte) : Nat := (bytesWords (aesEncrypt (toVals key) (List.replicate 16 0))).headD 0

/-- The KEK of a tenant as it will stand when the actions read so far have taken effect. -/
def State.kekAhead (s : State) (t : Nat) : Option (List Byte) :=
  s.sec.kekActs.foldl (fun k a => match a with
    | .install u key => if u = t then some key else k
    | .erase u _ => if u = t then none else k) ((s.kek t).map Kek.key)

/-- An action on a KEK waits for the boundary that ends this tick. -/
def State.kekAct (s : State) (a : KekAct) : State := { s with sec := { s.sec with kekActs := s.sec.kekActs ++ [a] } }

/-- The actions take effect at this boundary, ahead of step 3. -/
def State.kekStep (s : State) : State :=
  let l := s.sec.kekActs
  l.foldl (fun s a => match a with
    | .install t key =>
      (s.setKek t (some ⟨key, s.tick⟩)).raiseEv {
        code := 0x0e03, obj := t, tick := s.tick, tenant := t
        dest := .tenants (if t = 0 then [0] else [t, 0]), vals := [.w (kcv key)] }
    | .erase t r => s.eraseKek t r) { s with sec := { s.sec with kekActs := [] } }

/-- The secure core answers only FW_INFO and KEK_STATUS when no firmware was admitted (R361). -/
def State.secBlocked (s : State) : Bool := s.rd R.RST_BOOT_STAT_PHASE == 6

/-- A 64-bit value as two payload words. -/
def words64 (v : Nat) : List Nat := [v % 2 ^ 32, v / 2 ^ 32 % 2 ^ 32]

/-- The part is RETIRED. -/
def State.retired (s : State) : Bool := s.fuse.secState == 0xa

/-- The secure channel of an index. -/
def secCh (c : Nat) : Nat := 8 + c

/-- SEC_FW_INFO: FW_INFO on a secure channel. -/
def execSecFwInfo (c : Fin 2) (s : State) : Host.Outcome State Fault Refusal := .next <|
  s.mbHandle (secCh c.val) 0x02 fun p s => if p.isEmpty then (s, 0, s.fwInfo) else (s, 2, [])

/-- KEK_INSTALL (Table SEC-6, R375). -/
def execKekInstall (c : Fin 2) (s : State) : Host.Outcome State Fault Refusal := .next <|
  s.mbHandle (secCh c.val) 0x40 fun p s =>
    let t := p.headD 0 % 1024
    let form := p.headD 0 / 2 ^ 16 % 2
    if s.retired || s.secBlocked then (s, 7, [])
    else if p.length ≠ (if form = 0 then 9 else 11) then (s, 2, [])
    else if s.entropyFailed || s.sec.keDown then (s, 6, [])
    else if !(s.tenant t).active then (s, 4, [])
    else
      let key := if form = 0 then some (wordsBytes (p.drop 1))
        else (s.kekAhead t).bind fun k => keyUnwrap (toVals k) (wordsBytes (p.drop 1))
      match key with
      | some k =>
        let k := toBytes k
        (s.kekAct (.install t k), 0, [t] ++ words64 (s.tick + 1) ++ [kcv k])
      | none => if (s.kekAhead t).isNone then (s, 4, []) else (s, 5, [])

/-- KEK_ERASE. -/
def execKekErase (c : Fin 2) (s : State) : Host.Outcome State Fault Refusal := .next <|
  s.mbHandle (secCh c.val) 0x41 fun p s =>
    let t := p.headD 0 % 1024
    if s.secBlocked then (s, 7, [])
    else if p.length ≠ 1 then (s, 2, [])
    else if !(s.tenant t).active then (s, 4, [])
    else (s.kekAct (.erase t 0), 0, t :: words64 (s.tick + 1))

/-- KEK_STATUS. -/
def execKekStatus (c : Fin 2) (s : State) : Host.Outcome State Fault Refusal := .next <|
  s.mbHandle (secCh c.val) 0x42 fun p s =>
    let t := p.headD 0 % 1024
    if p.length ≠ 1 then (s, 2, [])
    else match s.kek t with
      | some k => (s, 0, [t, 1, kcv k.key] ++ words64 k.tick)
      | none => (s, 0, [t, 0, 0, 0, 0])

/-- HOLD_STATUS. -/
def execHoldStatus (c : Fin 2) (s : State) : Host.Outcome State Fault Refusal := .next <|
  s.mbHandle (secCh c.val) 0x48 fun p s =>
    let b := p.headD 0
    if s.secBlocked then (s, 7, [])
    else if p.length ≠ 1 then (s, 2, [])
    else if !s.holdId b then (s, 4, [])
    else
      let d := s.deferredOf b
      (s, 0, [b, (if s.isHeld b then 1 else 0) + (if d.isSome then 2 else 0) + ((d.map Deferred.kind).getD 0) * 2 ^ 8])

/-- HOLD_RELEASE (R380). -/
def execHoldRelease (c : Fin 2) (s : State) : Host.Outcome State Fault Refusal := .next <|
  s.mbHandle (secCh c.val) 0x49 fun p s =>
    let b := p.headD 0
    if s.secBlocked then (s, 7, [])
    else if p.length ≠ 1 then (s, 2, [])
    else if !s.holdId b || (s.deferredOf b).isNone then (s, 4, [])
    else ({ s with sec := { s.sec with released := s.sec.released ++ [b] } }, 0, b :: words64 (s.tick + 1))

/-- ENTROPY_READ: full-entropy words, once the source gives output; 6 when it is FAILED. -/
def execEntropyRead (c : Fin 2) (s : State) : Host.Outcome State Fault Refusal := .next <|
  let st := s.rd R.SEC_ENT_STAT_STATE
  if (st = 0 ∨ st = 2) ∧ !s.secBlocked ∧ !s.sec.keDown then s
  else s.mbHandle (secCh c.val) 0x50 fun p s =>
    let n := p.headD 0
    if s.secBlocked then (s, 7, [])
    else if p.length ≠ 1 ∨ n = 0 ∨ 12 < n then (s, 2, [])
    else if s.entropyFailed || s.sec.keDown then (s, 6, [])
    else
      let (s, l) := (List.range n).foldl (fun (a : State × List Nat) _ =>
        let (v, s) := a.1.fresh
        (s, a.2 ++ [v % 2 ^ 32])) (s, [])
      (s, 0, n :: l)

/-! ### Decommissioning (R376) -/

/-- DECOMMISSION_ARM: a challenge, which replaces any earlier one. -/
def execDecommissionArm (c : Fin 2) (s : State) : Host.Outcome State Fault Refusal := .next <|
  s.mbHandle (secCh c.val) 0x5e fun p s =>
    if s.retired || s.secBlocked then (s, 7, [])
    else if !p.isEmpty then (s, 2, [])
    else
      let (v, s) := s.fresh
      let v := v % 2 ^ 32
      ({ s with sec := { s.sec with challenge := some (secCh c.val, v, s.tick) } }, 0, [v])

/-- DECOMMISSION: with the valid challenge of this channel the part is RETIRED at the next boundary. -/
def execDecommission (c : Fin 2) (s : State) : Host.Outcome State Fault Refusal := .next <|
  s.mbHandle (secCh c.val) 0x5f fun p s =>
    if s.retired || s.secBlocked then (s, 7, [])
    else if p.length ≠ 1 then (s, 2, [])
    else match s.sec.challenge with
      | some (ch, v, t) =>
        if ch = secCh c.val ∧ v = p.headD 0 ∧ s.tick ≤ t + 160000 then
          ({ s with sec := { s.sec with challenge := none, retireNext := true } }, 0, [])
        else (s, 4, [])
      | none => (s, 4, [])

/-- Every key of the SA key RAM is erased with the outcome of R304. -/
def State.eraseSaKeys (s : State) : State :=
  (s.sas.map Prod.fst).foldl (fun s i => (s.keyErase i (s.sa i).cur).keyErase i (1 - (s.sa i).cur)) s

/-- The boundary after an accepted DECOMMISSION: RETIRED, which is never left. -/
def State.retireStep (s : State) : State :=
  if !s.sec.retireNext then s
  else
    let s := { s with sec := { s.sec with retireNext := false, nonce := [] }, fuse := { s.fuse with secState := 0xa } }
    let s := s.wr R.SEC_STATE_STATE 0xa
    (((s.eraseKeks 4).eraseSaKeys).zeroise).raise 0x0e08 0

/-! ### Release of holds (R380, R381) -/

/-- A crypto unit stops or runs again; its keys and INVs stand in the SA key RAM throughout. -/
def State.cryptoStop (s : State) (b : Nat) : State :=
  if s.sec.down.contains b then s else { s with sec := { s.sec with down := s.sec.down ++ [b] } }
def State.cryptoRun (s : State) (b : Nat) : State := { s with sec := { s.sec with down := s.sec.down.filter (· != b) } }

/-- The deferred effect of block `b` is applied: cause 0 at the end of the hold, 1 by HOLD_RELEASE. A frond state below F1 is
then open to the power manager; a reset starts at step 7 of this boundary. -/
def State.applyDeferred (s : State) (b cause : Nat) (d : Deferred) : State :=
  let s := (s.setDeferred b none).raise 0x0e02 b [.w cause]
  if b = 0x041 then s.eraseSaKeys
  else if b < 0x300 then { s.entropyFail with sec := { s.entropyFail.sec with keDown := true } }
  else if d.kind = 3 then { s with boot := { s.boot with blockReqs := s.boot.blockReqs ++ [b] } }
  else if d.kind = 4 then (if cause = 1 then { s with sec := { s.sec with freed := s.sec.freed ++ [b] } } else s)
  else s.cryptoStop b

/-- Step 5: deferred effects of holds that have ended, and of those released. -/
def State.holdStep (s : State) : State :=
  let rel := s.sec.released
  let l := s.sec.deferred
  let s := { s with sec := { s.sec with released := [] } }
  l.foldl (fun s q => match q.2 with
    | some d =>
      if rel.contains q.1 then s.applyDeferred q.1 1 d
      else if s.isHeld q.1 then s else s.applyDeferred q.1 0 d
    | none => s) s

/-- At a boundary a held unit's gate is cleared (R642). -/
def State.gateStep (s : State) : State :=
  s.frondIds.foldl (fun s f => if s.cryptoHeld f then s.wrB (R.FRD_CRYGATE_GATE f) false else s) s

/-! ### BAR2 and IDE (R359, R360) -/

/-- BAR2_ACCESS_DENIED: a BAR2 request outside a secure IDE stream. -/
def execBar2AccessDenied (off : Nat) (read : Bool) (s : State) : Host.Outcome State Fault Refusal := .next <|
  if s.sec.ide then s
  else (if read then s.emit (.unsupportedRequest 0 (0x1000000 + off)) else s).bar2Denied

/-- IDE_KM_MESSAGE: the secure core answers an IDE_KM message over DOE; `secure`: the message leaves a Link or Selective IDE
stream, whose keys it programmed, in the secure state. -/
def execIdeKmMessage (msg : List Byte) (secure : Bool) (s : State) : Host.Outcome State Fault Refusal := .next <|
  { s.emit (.doe msg) with sec := { s.sec with ide := secure } }

end Sys2Proof.Machine
end

