-- ==== Sys2Proof/Machine/Calib.lean ====
section
/-! DEFINITION. Calibration (chapter 22): the calibration set, admission, pre-checks, steps, aborts, the bank swap, export and
restore. -/
namespace Sys2Proof.Machine

/-- Writes the calibration record of frond `f`. -/
def State.setFrondCal (s : State) (f : Nat) (x : FrondCal) : State :=
  { s with cals := Tab.set (fun _ => {}) s.cals f x }

/-! ### The calibration set (Table CAL-6) -/

/-- Puts `v` into bits `lo .. lo + w - 1` of the word at byte `off`. -/
def putField (b : List Byte) (off lo w : Nat) (v : Nat) : List Byte :=
  b.take off ++ natLe 4 (bitsPut (BitVec.ofNat 32 (fieldAt b off 4)) lo w v).toNat ++ b.drop (off + 4)

/-- A field of the values that a step computes: byte offset, lowest bit, width, signed. -/
abbrev CalField := Nat × Nat × Nat × Bool

/-- What each step sets (Table CAL-2), in the order in which a step's values are listed. -/
def stepFields : Nat → List CalField
  | 2 => (List.range 512).map fun i => (64 + 4 * i, 0, 8, true)
  | 3 => ((List.range 512).map fun i => (64 + 4 * i, 8, 12, true)) ++ (List.range 512).map fun i => (64 + 4 * i, 20, 10, true)
  | 4 => (List.range 4).map fun a => (2112 + 4 * a, 0, 14, false)
  | 5 => ((List.range 4).map fun a => (2144 + 4 * a, 0, 8, true)) ++ ((List.range 4).map fun a => (2144 + 4 * a, 8, 12, true)) ++
      (List.range 4).map fun a => (2128 + 4 * a, 0, 14, false)
  | 6 => (List.range 64).map fun i => (2160 + 32 * (i / 16) + 4 * (i % 16 / 2), 16 * (i % 2), 12, true)
  | 7 => (List.range 4).map fun b => (2288 + 2 * b, 0, 16, false)
  | _ => []

/-- The limit of a step in ticks (Table CAL-2). -/
def stepLimit : Nat → Nat
  | 1 => 16000
  | 2 => 3200
  | 3 => 96000
  | 4 => 16000
  | 5 => 48000
  | 6 => 40000
  | _ => 80800

/-- A value lies in its field. -/
def inField (fd : CalField) (v : Int) : Bool :=
  if fd.2.2.2 then decide (-(2 ^ (fd.2.2.1 - 1) : Nat) ≤ v) && decide (v < (2 ^ (fd.2.2.1 - 1) : Nat))
  else decide (0 ≤ v) && decide (v < (2 ^ fd.2.2.1 : Nat))

/-- The values of a step written to a bank. -/
def putValues (b : List Byte) (n : Nat) (vals : List Int) : List Byte :=
  ((stepFields n).zip vals).foldl (fun b q => putField b q.1.1 q.1.2.1 q.1.2.2.1 (ofSigned q.1.2.2.1 q.2)) b

/-- The neutral set (Table CAL-6). -/
def neutralSet (f : Nat) : List Byte :=
  let z := [0x47, 0x57, 0x43, 0x41] ++ natLe 2 1 ++ natLe 1 f ++ List.replicate 2153 0
  let pre := (List.range 4).flatMap fun _ => [0, 0, 0, 0, 0, 0, 0, 0, 0, 4] ++ List.replicate 22 0
  z ++ pre ++ ((List.range 6).flatMap fun _ => natLe 2 0x8000) ++ [0, 0, 0, 0]

/-- The bank in force: neutral while uncalibrated. -/
def State.calBank (s : State) (f : Nat) : List Byte := ((s.frondCal f).act).getD (neutralSet f)

/-- The stamp of a set: epoch-seconds and temperature in 1/4 degree. -/
def setStamp (b : List Byte) : Nat × Int := (fieldAt b 12 8, toSigned 16 (fieldAt b 20 2))

/-- The stamp of a set is usable (R452, R503). -/
def State.setUsable (s : State) (f : Nat) (b : List Byte) : Bool :=
  let (e, t) := setStamp b
  let d := s.junction f - t
  decide (s.peat.esec - e ≤ 86400) && decide (-60 ≤ d) && decide (d ≤ 60) && decide (s.peat.floor ≤ e)

/-- Frond `f` has usable calibration. -/
def State.calUsable (s : State) (f : Nat) : Bool := ((s.frondCal f).act).any (s.setUsable f)

/-- Refreshes USABLE. -/
def State.calRefresh (s : State) (f : Nat) : State := s.wrB (R.CAL_FSTAT_USABLE f) (s.calUsable f)

/-- The registers that report the active bank (R522): CAL_DELAY, CAL_SKEW and their clamps. -/
def State.calRegs (s : State) (f : Nat) : State :=
  let b := s.calBank f
  (List.range 4).foldl (fun s a =>
    let d := fieldAt b (2112 + 4 * a) 4 % 2 ^ 14
    let k := fieldAt b (2128 + 4 * a) 4 % 2 ^ 14
    let s := (s.wr (R.FRD_RX_PHD_CAL_DELAY f a) d).wrB (R.FRD_RX_PHD_CLAMPED f a)
      (appliedDelay d (s.rd (R.FRD_RX_PHD_USER_DELAY f a))).2
    (s.wr (R.FRD_TX_SKEW_CAL_SKEW f a) k).wrB (R.FRD_TX_SKEW_CLAMPED f a)
      (appliedDelay k (s.rd (R.FRD_TX_SKEW_USER_SKEW f a))).2) s

/-! ### The calibration history (R500) -/

/-- Writes the history entry of a swap to the copy that does not govern. -/
def State.calHistory (s : State) (f kind : Nat) (b : List Byte) (fails : List Nat := []) : State :=
  let p := s.peat
  if !p.powered then s
  else
    let slots := calSlots f
    let ok := slots.filter fun a => p.copyOk a 32 28
    let cur := ok.foldl (fun (best : Option Nat) a => match best with
      | none => some a
      | some x => if (fieldAt (p.bytes a 32) 23 1 + 256 - fieldAt (p.bytes x 32) 23 1) % 256 = 1 then some a else some x) none
    let (slot, seq) := match cur with
      | none => (slots.headD 0, 0)
      | some a => (if a = slots.headD 0 then slots.getD 1 0 else slots.headD 0, (fieldAt (p.bytes a 32) 23 1 + 1) % 256)
    let (d, t) := p.dateTime
    let e := natLe 8 p.esec ++ natLe 4 d ++ natLe 4 t ++ slice b 20 2 ++ slice b 8 4 ++ natLe 1 kind ++ natLe 1 seq ++
      [0, 0, 0, 0, 0, 0, 0, 0]
    ({ s with peat := p.putBytes fails slot (withCrc e 28) }).storeWear p slots 32 28

/-! ### Admission, aborts -/

/-- The calibration ends: the mute and the source return (R530, R531). -/
def State.calEnd (s : State) (f : Nat) : State :=
  let x := s.frondCal f
  let s := (s.setFrondCal f { x with run := none, mute := false }).wr (R.CAL_FSTAT_STEP f) 0
  s.setInsrc f (if 3 ≤ s.pState f then 2 else 0)

/-- An abort (R531): the set in force stays; a wake calibration that aborts leaves the frond in F1 (R455). A boot
calibration's WAKE_CAL_FAIL waits for release (R478). -/
def State.calAbort (s : State) (f reason : Nat) : State :=
  match (s.frondCal f).run with
  | none => s
  | some r =>
    let s := (s.calEnd f).wr (R.CAL_RESULT_REASON f) reason
    let s := if 1 ≤ reason ∧ reason ≤ 10 then s.bumpLife (112 + f) else s
    let s := s.raise 0x1502 f [.w reason, .w r.kind, .w 0]
    if r.kind = 2 then s
    else
      let s := s.setFrondCal f { s.frondCal f with failed := some reason }
      if r.kind = 1 then s.raise 0x1103 f [.w reason] else s

/-- The tone as applied: 0 when the written frequency breaks R526. -/
def State.calTone (s : State) : Nat := if s.flag R.CAL_TONE_TONE_BAD then 0 else s.rd R.CAL_TONE_KHZ

/-- Admission of a calibration (R525): with no tone declared it ends at once, NOT_RUN. -/
def State.calAdmit (s : State) (f kind : Nat) : State :=
  let tone := s.calTone
  let x := s.frondCal f
  let s := s.setFrondCal f { x with run := some { kind := kind, start := s.tick, tone := tone, shadow := s.calBank f } }
  let s := s.raise 0x1501 f [.w kind]
  if tone = 0 then s.calAbort f 14
  else
    let s := s.wr (R.CAL_FSTAT_STEP f) 1
    if kind = 2 then s else (s.setFrondCal f { s.frondCal f with mute := true }).muteDefects f

/-! ### CAL_TONE (R526) -/

/-- A frequency that R526 allows. -/
def toneOk (khz : Nat) : Bool :=
  decide (2000000 ≤ khz) && decide (khz ≤ 40000000) &&
    (let m := khz % 3000000
     (decide (300000 ≤ m) && decide (m ≤ 1200000)) || (decide (1800000 ≤ m) && decide (m ≤ 2700000)))

/-- CAL_TONE as a write leaves it. -/
def State.toneSet (s : State) (v : Word) : State :=
  let k := bitsGet v 0 26
  (s.wr R.CAL_TONE_KHZ k).wrB R.CAL_TONE_TONE_BAD (!toneOk k)

/-- CAL_TONE_WRITE. -/
def execCalToneWrite (v : Word) (s : State) : Host.Outcome State Fault Refusal := .next <|
  s.pfWrite 0xb0000 fun s => s.toneSet v

/-! ### Pre-checks (Table CAL-1) -/

/-- CAL_MUTE_CHECK at the end of tick S + 15: checks 1 and 2. During boot every frond counts as in F1. -/
def execCalMuteCheck (f : Fin 48) (s : State) : Host.Outcome State Fault Refusal := .next <|
  let f := f.val
  match (s.frondCal f).run with
  | none => s
  | some r =>
    if r.passed then s
    else if r.kind != 0 && !(s.pState f == 1 && !s.flag (R.PWR_FSTAT_WAKING f)) then s.calAbort f 3
    else
      let mute := if r.kind = 2 then s.flag (R.FRD_RX_CTL_MUTE f) else (s.frondCal f).mute
      if mute && (s.frond f).rx.dark then s.setFrondCal f { s.frondCal f with run := some { r with passed := true } }
      else s.calAbort f 4

/-- CAL_INPUT as measured: power in 0.1 dBm, offset in 0.1 ppm held at the extremes. -/
def State.calInput (s : State) (pwr fofs : Int) : State :=
  (s.wrS R.CAL_INPUT_PWR pwr).wrS R.CAL_INPUT_FOFS (clampInt (-32768) 32767 fofs)

/-- CAL_PRECHECK_END: the tone power of a tick of the window in 0.1 dBm (check 3); in the last tick also the tone frequency
against the latched one in 0.1 ppm (check 4) and the spread of the junction samples in 1/4 degree (check 5). -/
def execCalPrecheckEnd (f : Fin 48) (pwr fofs : Int) (spread : Nat) (s : State) : Host.Outcome State Fault Refusal := .next <|
  let f := f.val
  match (s.frondCal f).run with
  | none => s
  | some r =>
    if !r.passed || s.rd (R.CAL_FSTAT_STEP f) != 1 then s
    else if pwr < -100 then (s.calInput pwr fofs).calAbort f 1
    else if s.tick < r.start + 15999 then s
    else
      let s := s.calInput pwr fofs
      if fofs < -100 ∨ 100 < fofs then s.calAbort f 2
      else if 8 < spread then s.calAbort f 5
      else
        let s := s.setFrondCal f { s.frondCal f with run := some { r with pwr := pwr, stepTick := s.tick + 1 } }
        (s.wr (R.CAL_FSTAT_STEP f) 2).setInsrc f 1

/-! ### Steps (Table CAL-2) -/

/-- CAL_TONE_LOST: a tick in which the tone reads `pwr` (0.1 dBm) in step 3 or 4; the 16th low one in a row aborts. -/
def execCalToneLost (f : Fin 48) (pwr : Int) (s : State) : Host.Outcome State Fault Refusal := .next <|
  let f := f.val
  match (s.frondCal f).run with
  | none => s
  | some r =>
    let st := s.rd (R.CAL_FSTAT_STEP f)
    if st ≠ 3 ∧ st ≠ 4 then s
    else
      let l := r.lost.step s.tick (decide (pwr < -100))
      let s := s.setFrondCal f { s.frondCal f with run := some { r with lost := l } }
      if 16 ≤ l.n then s.calAbort f 6 else s

/-- CAL_STEP_END: the step in progress ends in this tick with the values it computed. `tap`: step 7 found tap power above
the detection floor; `quad`: the quadrature bias that the loop of R152 last settled on. -/
def execCalStepEnd (f : Fin 48) (vals : List Int) (tap : Bool) (quad : Option (Nat × Nat)) (s : State) :
    Host.Outcome State Fault Refusal := .next <|
  let f := f.val
  match (s.frondCal f).run with
  | none => s
  | some r =>
    let st := s.rd (R.CAL_FSTAT_STEP f)
    if st < 2 ∨ r.ready.isSome then s
    else if r.stepTick + stepLimit st < s.tick + 1 then s.calAbort f 9
    else if st = 7 ∧ tap = false then s.calAbort f 10
    else if ((stepFields st).zip vals).any fun q => !inField q.1 q.2 then s.calAbort f 8
    else
      let b := putValues r.shadow st vals
      let b := match quad with
        | some (x, y) => if st = 7 then putField b 2296 0 32 (x % 2 ^ 16 + 2 ^ 16 * y) else b
        | none => b
      let r := { r with shadow := b, stepTick := s.tick + 1, lost := {}, ready := if st = 7 then some (s.tick + 1) else none }
      let s := s.setFrondCal f { s.frondCal f with run := some r }
      if st = 7 then s else s.wr (R.CAL_FSTAT_STEP f) (st + 1)

/-! ### The bank swap (R530, R534) -/

/-- Puts a set in force: FRD_CAL advances, the registers follow, the history entry is written after the swap. -/
def State.calForce (s : State) (f kind : Nat) (b : List Byte) : State :=
  let s := (s.setFrondCal f { s.frondCal f with act := some b }).bumpLife (64 + f)
  let s := ((s.calRegs f).wr (R.CAL_GEN_GEN f) (fieldAt b 8 4)).wr (R.CAL_RESULT_KIND f) kind
  let s := (s.wr (R.CAL_RESULT_TEMP f) (fieldAt b 20 2)).calRefresh f
  s.calHistory f kind b

/-- The set that a completed run leaves, with its GEN and stamp. -/
def State.runSet (s : State) (f : Nat) (r : CalRun) : List Byte :=
  let gen := satAdd 0xffffffff (s.peat.counter (64 + f)) 1
  let head := [0x47, 0x57, 0x43, 0x41] ++ natLe 2 1 ++ natLe 1 f ++ natLe 1 r.kind ++ natLe 4 gen ++ natLe 8 s.peat.esec ++
    natLe 2 (ofSigned 16 (s.junction f)) ++ natLe 2 (ofSigned 16 r.pwr) ++ natLe 8 s.fuse.uid ++ natLe 4 r.tone ++
    List.replicate 28 0
  let b := head ++ slice r.shadow 64 2236
  b ++ natLe 4 (crc32c b)

/-- The swap of frond `f` whose boundary has come: a completed run, or a restored set. -/
def State.calSwap (s : State) (f : Nat) : State :=
  let x := s.frondCal f
  let s := match x.run with
    | none => s
    | some r =>
      if r.ready.any fun t => decide (t ≤ s.tick) then
        let b := s.runSet f r
        let s := ((s.calForce f r.kind b).calEnd f).wr (R.CAL_RESULT_REASON f) 0
        s.raise 0x1502 f [.w 0, .w r.kind, .w (fieldAt b 8 4)]
      else s
  match x.restore with
  | none => s
  | some (b, t) =>
    if t ≤ s.tick then
      let s := (s.setFrondCal f { s.frondCal f with restore := none }).calForce f 3 b
      s.raise 0x1503 f [.w (fieldAt b 8 4), .w (if s.setUsable f b then 1 else 0)]
    else s

/-- CAL_BANK_SWAP. -/
def execCalBankSwap (f : Fin 48) (s : State) : Host.Outcome State Fault Refusal := .next <| s.calSwap f.val

/-! ### Descriptors (Table CAL-7) -/

/-- A calibration of the frond exists or a restore is pending. -/
def State.calBusy (s : State) (f : Nat) : Bool := (s.frondCal f).run.isSome || (s.frondCal f).restore.isSome

/-- The checks of CAL_RUN. -/
def chkCalRun (f : Nat) (c : Ctx) (s : State) : List Ck := c.pf ++ [s.ckFrond f, ckCond (s.calBusy f) St.bankBusy]

/-- CAL_RUN applied: admission at its effective tick. -/
def appCalRun (f : Nat) (_ : Ctx) (s : State) : Applied := { s := s.calAdmit f 2 }

/-- CAL_RUN as a request of its own. -/
def execCalRun (h : ReqHdr) (mem : HostMem) (f : Nat) (s : State) : Host.Outcome State Fault Refusal := .next <|
  runOne h mem 0x90 (.calRun f) s (chkCalRun f) (appCalRun f)

/-- The checks of CAL_ABORT. -/
def chkCalAbort (f : Nat) (c : Ctx) (s : State) : List Ck := c.pf ++ [s.ckFrond f]

/-- CAL_ABORT applied. -/
def appCalAbort (f : Nat) (_ : Ctx) (s : State) : Applied := { s := s.calAbort f 15 }

/-- CAL_ABORT as a request of its own. -/
def execCalAbort (h : ReqHdr) (mem : HostMem) (f : Nat) (s : State) : Host.Outcome State Fault Refusal := .next <|
  runOne h mem 0x91 (.calAbort f) s (chkCalAbort f) (appCalAbort f)

/-- The checks of CAL_EXPORT. -/
def chkCalExport (f buf : Nat) (c : Ctx) (s : State) : List Ck :=
  c.pf ++ [ckAlign buf 64, s.ckFrond f, ckAbsent (s.frondCal f).act.isNone, s.ckBacklog 2304]

/-- CAL_EXPORT applied. -/
def appCalExport (f buf dn : Nat) (c : Ctx) (s : State) : Applied := s.takeRead c dn buf (s.calBank f)

/-- CAL_EXPORT as a request of its own. -/
def execCalExport (h : ReqHdr) (mem : HostMem) (f buf : Nat) (s : State) : Host.Outcome State Fault Refusal := .next <|
  runOne h mem 0x92 (.calExport f buf) s (chkCalExport f buf) (appCalExport f buf h.dn)

/-- The reserved bits of a set are 0. -/
def setReservedOk (b : List Byte) : Bool :=
  let z := fun (off lo w : Nat) => fieldAt b off 4 / 2 ^ lo % 2 ^ w == 0
  (slice b 36 28).all (· == 0) && (List.range 512).all (fun i => z (64 + 4 * i) 30 2) &&
    (List.range 4).all (fun a => z (2112 + 4 * a) 14 18 && z (2128 + 4 * a) 14 18 && z (2144 + 4 * a) 20 12) &&
    (List.range 32).all (fun j => z (2160 + 4 * j) 12 4 && z (2160 + 4 * j) 28 4)

/-- A set that R534 accepts for frond `f`. -/
def State.setOk (s : State) (f : Nat) (b : List Byte) : Bool :=
  b.length == 2304 && fieldAt b 0 4 == 0x41435747 && fieldAt b 4 2 == 1 && fieldAt b 6 1 == f && setReservedOk b &&
    crc32c (b.take 2300) == fieldAt b 2300 4 && fieldAt b 24 8 == s.fuse.uid && decide (fieldAt b 12 8 ≤ s.peat.esec)

/-- The checks of CAL_RESTORE. -/
def chkCalRestore (f addr : Nat) (c : Ctx) (s : State) : List Ck :=
  c.pf ++ [c.ckRead addr 2304, ckAlign addr 64, ckFormat ((readHost c.mem addr 2304).any fun b => !s.setOk f b), s.ckFrond f,
    ckCond (s.calBusy f) St.bankBusy]

/-- CAL_RESTORE applied: the set enters the shadow bank and swaps at the next boundary. -/
def appCalRestore (f addr : Nat) (c : Ctx) (s : State) : Applied :=
  match readHost c.mem addr 2304 with
  | some b => { s := s.setFrondCal f { s.frondCal f with restore := some (b, s.tick + 1) } }
  | none => { s := s }

/-- CAL_RESTORE as a request of its own. -/
def execCalRestore (h : ReqHdr) (mem : HostMem) (f addr : Nat) (s : State) : Host.Outcome State Fault Refusal := .next <|
  runOne h mem 0x93 (.calRestore f addr) s (chkCalRestore f addr) (appCalRestore f addr)

/-- The host clears MUTE during a host calibration, after check 2 (Table CAL-4). -/
def State.calMuteLost (s : State) (f : Nat) : State :=
  match (s.frondCal f).run with
  | some r => if r.kind = 2 && r.passed && !s.flag (R.FRD_RX_CTL_MUTE f) then s.calAbort f 7 else s
  | none => s

/-- The calibration bank of a reset: every calibration aborts with RESET (Table CAL-4). -/
def State.calResetAll (s : State) : State := s.frondIds.foldl (fun s f => s.calAbort f 12) s

end Sys2Proof.Machine
end

