-- ==== Sys2Proof/Machine/Image.lean ====
section
/-! DEFINITION. The configuration image (Tables BOOT-4 and BOOT-5) and the checks R473 and R474. -/
namespace Sys2Proof.Machine

/-- A record's place after one of body length `n`: bodies are padded to a multiple of 8. -/
def padded (n : Nat) : Nat := ceilDiv n 8 * 8

/-- The record with type `t` and body `b` at byte `off` of the image. -/
def imgRec (t off : Nat) (b : List Byte) : Option ImgRec :=
  match t with
  | 1 => some (.regWrite (fieldAt b 0 4) (BitVec.ofNat 32 (fieldAt b 4 4)))
  | 2 => some (.descriptor b)
  | 3 => some (.blob off b)
  | 4 => some (.calSet b)
  | _ => none

/-- Reads `n` records from the bytes `b` that begin at image offset `off`; they fill them exactly. -/
def imgRecords : Nat → Nat → List Byte → Option (List ImgRec)
  | 0, _, b => if b.isEmpty then some [] else none
  | n + 1, off, b =>
    let len := fieldAt b 4 4
    if b.length < 8 + padded len ∨ fieldAt b 2 2 ≠ 0 then none
    else match imgRec (fieldAt b 0 2) (off + 8) ((b.drop 8).take len) with
      | none => none
      | some r => (imgRecords n (off + 8 + padded len) (b.drop (8 + padded len))).map (r :: ·)

/-- A well-formed image (R473): the bytes are the whole image. -/
def parseImage (b : List Byte) : Option Image :=
  let len := fieldAt b 8 4
  if b.length < 64 ∨ fieldAt b 0 4 ≠ 0x46435747 ∨ fieldAt b 6 2 ≠ 64 ∨ len < 64 ∨ 16777216 < len ∨ b.length ≠ len ∨
      fieldAt b 36 4 / 2 ≠ 0 ∨ (slice b 40 20).any (· != 0) ∨
      crc32c (b.take 60 ++ [0, 0, 0, 0] ++ b.drop 64) ≠ fieldAt b 60 4 then none
  else (imgRecords (fieldAt b 32 4) 64 (b.drop 64)).map fun l => {
    schema := fieldAt b 4 2
    target := fieldAt b 24 8
    generation := fieldAt b 12 4
    epoch := fieldAt b 16 8
    calRun := fieldAt b 36 4 % 2 == 1
    bytes := b
    records := l }

/-- The CFG_RESULT code of a well-formed image (R474): 0, 4 schema, 5 target UID. -/
def State.imageCode (s : State) (i : Image) : Nat :=
  let (lo, hi) := match s.upd.run with
    | some f => (f.lo, f.hi)
    | none => (0, 0)
  if i.schema < lo ∨ hi < i.schema then 4
  else if i.target ≠ 0 ∧ i.target ≠ s.fuse.uid then 5
  else 0

end Sys2Proof.Machine
end

