-- ==== Sys2Proof/Machine/Power.lean ====
section
/-! DEFINITION. Supplies and power states (chapter 18): AVS, rails, the frond states and wakes, the module state, heat, the
board controller port. -/
namespace Sys2Proof.Machine

/-- Changes the power manager's record. -/
def State.modPow (s : State) (g : PowSt → PowSt) : State := { s with pow := g s.pow }

/-- The power record of frond `f`. -/
def State.frondPow (s : State) (f : Nat) : FrondPow := Tab.get (fun _ => {}) s.pow.fr f

/-- Writes the power record of frond `f`. -/
def State.setFrondPow (s : State) (f : Nat) (x : FrondPow) : State :=
  s.modPow fun p => { p with fr := Tab.set (fun _ => {}) p.fr f x }

/-- A bit of a two-word map. -/
def State.mapBit (s : State) (fd : Nat → Fld) (f : Nat) : Bool := s.rd (fd (f / 32)) / 2 ^ (f % 32) % 2 == 1

/-- Writes a bit of a two-word map. -/
def State.setMapBit (s : State) (fd : Nat → Fld) (f : Nat) (b : Bool) : State :=
  let v := s.rd (fd (f / 32))
  s.wr (fd (f / 32)) (v - v / 2 ^ (f % 32) % 2 * 2 ^ (f % 32) + (if b then 2 ^ (f % 32) else 0))

/-- Frond `f` is shed (R461). -/
def State.isShed (s : State) (f : Nat) : Bool := s.mapBit R.PWR_SHEDACT_SHEDACT f

/-! ### Frond states (R452..R456) -/

/-- The wake time of a state (Table PWR-3). -/
def wakeTime (st : Nat) (usable : Bool) : Nat :=
  if st = 1 then 2 else if st = 2 then 32 else if st = 3 then (if usable then 3200 else 320000) else if st = 4 then 320000 else 0

/-- The target that the latency tolerance gives (R453). A frond in F3 whose calibration becomes unusable stays there
(R455). -/
def State.ltTarget (s : State) (f : Nat) : Nat :=
  let lt := s.rd (R.PWR_LT_LT f)
  if 320000 ≤ lt then 4
  else if 3200 ≤ lt then (if s.calUsable f || s.pState f == 3 then 3 else 2)
  else if 32 ≤ lt then 2
  else if 2 ≤ lt then 1
  else 0

/-- The wake calibration of a frond that has reached F1 on its way up runs there (R455). -/
def State.waitsForCal (s : State) (f : Nat) : Bool := (s.frondCal f).failed.isSome || (s.frondPow f).viaCal

/-- The target that shedding, the latency tolerance and a calibration give, before holds. -/
def State.rawTarget (s : State) (f : Nat) : Nat :=
  if s.isShed f then 4
  else
    let t := s.ltTarget f
    let t := if s.calibrating f then min t 1 else t
    let inCal := (s.frondCal f).run.any fun r => r.kind != 2
    if t ≤ 1 ∧ (inCal = true ∨ ((s.frondCal f).failed.isSome ∧ s.calUsable f = false)) then 1 else t

/-- A deeper state stops the frond's acquisition, and F4 drops what its equaliser retains (R123). -/
def State.powerSleep (s : State) (f new : Nat) : State :=
  if new < 2 then s
  else
    let s := (s.modFrond f fun x => { x with eq := { x.eq with deepest := max x.eq.deepest new } }).enterIdle f
    if new = 4 then s.dropRetained f else s

/-- The crypto unit of a line frond runs in F0 and F1 only. -/
def State.powerCrypto (s : State) (f new : Nat) : State :=
  if 2 ≤ new then s.cryptoStop (0x300 + f) else s.cryptoRun (0x300 + f)

/-- Outside F0 nothing waits in the FEC. -/
def State.powerFec (s : State) (f new : Nat) : State :=
  if new = 0 then s else s.modFrond f fun x => { x with fec := { x.fec with arrived := [], inner := [] } }

/-- The ADC inputs are grounded in F3 and F4 (R56). -/
def State.powerInsrc (s : State) (f new : Nat) : State :=
  s.setInsrc f (if 3 ≤ new then 2 else if s.rd (R.FRD_RX_CTL_INSRC f) = 2 then 0 else s.rd (R.FRD_RX_CTL_INSRC f))

/-- A frond that comes back to F0 or F1 acquires again, with what R123 lets it keep from the deepest state it was in. -/
def State.powerRise (s : State) (f : Nat) : State :=
  let deep := (s.frond f).eq.deepest
  let s := s.modFrond f fun x => { x with eq := { x.eq with deepest := 0 } }
  if !s.lineRun f then s
  else if deep = 2 then s.leaveIdle f true
  else if deep = 3 then (s.stampRule f).leaveIdle f false
  else (s.dropRetained f).leaveIdle f false

/-- The state of frond `f` becomes `new` (R454): the acquisition state machine, the defects, the crypto unit, the ADC inputs
and the squelch follow (R56, R123, R153, R456). -/
def State.enterPower (s : State) (f new : Nat) : State :=
  let old := s.pState f
  if old = new then s
  else
    let s := (s.wr (R.PWR_FSTAT_STATE f) new).raise 0x1101 f [.w new, .w old]
    let s := if old = 0 then s.stopDefects f else s
    let s := ((((s.powerCrypto f new).powerSleep f new).powerFec f new).powerInsrc f new)
    let s := if new ≤ 1 ∧ 2 ≤ old then s.powerRise f else s
    let s := if new = 0 then s.updateLos f else s
    s.squelchUpdate f

/-- A wake ends. -/
def State.endWake (s : State) (f : Nat) : State := s.wrB (R.PWR_FSTAT_WAKING f) false

/-- A wake that took longer than the wake time of the state it left (R454). -/
def State.wakeLate (s : State) (f : Nat) : State :=
  let x := s.frondPow f
  let took := s.tick - x.wakeTick
  if wakeTime x.wakeFrom (!x.viaCal) < took then (s.bump R.PWR_CNT_WAKE_LATE 1).raise 0x1102 f [.w took] else s

/-- The target with the hold on the crypto unit applied (R378..R380): a held unit keeps its frond at F1 and defers a deeper
target; one that a HOLD_RELEASE has freed may follow the target released. -/
def State.holdTarget (s : State) (f raw : Nat) : State × Nat :=
  let b := 0x300 + f
  let src := if s.isShed f then 2 else 1
  let x := s.frondPow f
  if raw ≤ 1 ∨ s.cryptoHeld f = false then
    let s := if raw ≤ 1 ∧ (s.deferredOf b).any (fun d => d.kind == 4) = true then s.cancelDeferred b else s
    let s := { s with sec := { s.sec with freed := s.sec.freed.filter (· != b) } }
    (s.setFrondPow f { x with freeFor := none }, raw)
  else if s.sec.freed.contains b ∧ x.freeFor.all (· == raw) then (s.setFrondPow f { x with freeFor := some raw }, raw)
  else
    let s := { s with sec := { s.sec with freed := s.sec.freed.filter (· != b) } }
    let s := s.setFrondPow f { x with freeFor := none }
    if s.deferredOf b = some ⟨4, src, raw⟩ then (s, 1) else (s.defer b 4 src raw, 1)

/-- Whether a wait in F1 for a usable set has ended (R455, R478). -/
def State.calReady (s : State) (f : Nat) : Bool :=
  (s.frondCal f).failed.isSome && (s.frondCal f).run.isNone && s.calUsable f

/-- The end of that wait, and the abort of the calibration of a frond that is shed (reason 11). -/
def State.powerCal (s : State) (f : Nat) (ready : Bool) : State :=
  let s := if ready then s.setFrondCal f { s.frondCal f with failed := none } else s
  if s.isShed f then s.calAbort f 11 else s

/-- The state that the evaluation asks for: F4 while gated, else the target of the latency tolerance, as a hold allows. -/
def State.powerTarget (s : State) (f : Nat) : State × Nat :=
  if s.pow.gated then (s, 4) else s.holdTarget f (s.rawTarget f)

/-- A frond that is to come up from F1 enters its target, or begins a wake. -/
def State.powerUp (s : State) (f st tgt : Nat) (ready : Bool) : State :=
  let x := s.frondPow f
  if st = 1 ∧ (ready ∨ (x.viaCal ∧ s.calUsable f ∧ (s.frondCal f).run.isNone)) then
    let s := if x.viaCal && !ready then s.wakeLate f else s
    (s.setFrondPow f { s.frondPow f with viaCal := false }).enterPower f tgt
  else if s.flag (R.PWR_FSTAT_WAKING f) ∨ (st = 1 ∧ s.waitsForCal f) then s
  else (s.wrB (R.PWR_FSTAT_WAKING f) true).setFrondPow f { x with
    wakeTick := s.tick, wakeFrom := st, viaCal := decide (3 ≤ st) && !s.calUsable f && decide (tgt ≤ 1) }

/-- Deeper at once, shallower by a wake, and a wake that is no longer wanted ends. -/
def State.powerMove (s : State) (f tgt : Nat) (ready : Bool) : State :=
  let st := s.pState f
  if st < tgt then ((s.endWake f).setFrondPow f { s.frondPow f with viaCal := false }).enterPower f tgt
  else if tgt < st then s.powerUp f st tgt ready
  else if s.flag (R.PWR_FSTAT_WAKING f) then (s.endWake f).setFrondPow f { s.frondPow f with viaCal := false }
  else s

/-- CAL_STALE_ASLEEP, once while a frond in F3 stays there without a usable calibration (R455). -/
def State.powerStale (s : State) (f : Nat) : State :=
  let lt := s.rd (R.PWR_LT_LT f)
  let x := s.frondPow f
  if s.pState f = 3 ∧ 3200 ≤ lt ∧ lt < 320000 ∧ s.calUsable f = false then
    if x.stale then s else (s.setFrondPow f { x with stale := true }).raise 0x1104 f
  else s.setFrondPow f { x with stale := false }

/-- Evaluation of one frond (R454): deeper at once, shallower by a wake. -/
def State.powerEval (s : State) (f : Nat) : State :=
  let s := s.calRefresh f
  let ready := s.calReady f
  let a := (s.powerCal f ready).powerTarget f
  (a.1.powerMove f a.2 ready).powerStale f

/-- The module state follows the frond states (R458). -/
def State.moduleState (s : State) : State :=
  let m := if s.frondIds.any (fun f => decide (s.pState f ≤ 1)) then 0 else 1
  if s.rd R.PWR_MSTAT_MSTATE = m then s else (s.wr R.PWR_MSTAT_MSTATE m).raise 0x1105 0 [.w m]

/-- Step 6 of Table TCK-5. -/
def State.powerStep (s : State) : State := (s.frondIds.foldl State.powerEval s).moduleState

/-- WAKE_COMPLETE: the wake of frond `f` completes. From F3 or F4 without usable calibration it reaches F1, where the wake
calibration is admitted (R455). -/
def execWakeComplete (f : Fin 48) (s : State) : Host.Outcome State Fault Refusal := .next <|
  let f := f.val
  if !s.flag (R.PWR_FSTAT_WAKING f) then s
  else
    let (s, tgt) := s.holdTarget f (s.rawTarget f)
    let x := s.frondPow f
    let via := x.viaCal && !s.calUsable f && decide (tgt ≤ 1)
    let s := s.endWake f
    let s := if via then (s.enterPower f 1).calAdmit f 1
      else ((s.wakeLate f).setFrondPow f { x with viaCal := false }).enterPower f tgt
    s.moduleState

/-! ### Heat (R459..R462) -/

/-- The sensors of this grade: fronds as channels 0..47, the core as 48..51. -/
def State.sensors (s : State) : List Nat := s.frondIds ++ [48, 49, 50, 51]

/-- A sensor's published reading in 1/4 degree. -/
def State.sensor (s : State) (i : Nat) : Int := s.rdS (R.MON_RES_VALUE i)

/-- T_WARN and T_THR in 1/4 degree. -/
def State.tWarn (s : State) : Int := 4 * (s.rd R.PWR_THERM_T_WARN : Nat)
def State.tThr (s : State) : Int := 4 * (s.rd R.PWR_THERM_T_THR : Nat)

/-- The hottest sensor, the lowest number among equals. -/
def State.hottest (s : State) : Nat :=
  s.sensors.foldl (fun a i => if s.sensor a < s.sensor i then i else a) (s.sensors.headD 48)

/-- A temperature in whole degrees. -/
def degrees (q : Int) : Int := q / 4

/-- HOT and HOT_ID, and THERM_WARN (R459). A thermal cycle is counted when HOT, having read 40 degrees or less, reaches 100
(R497). -/
def State.thermWarn (s : State) : State :=
  let h := s.hottest
  let hot := s.sensor h
  let s := (s.wrS R.PWR_MSTAT_HOT (degrees hot)).wr R.PWR_MSTAT_HOT_ID h
  let s := if degrees hot ≤ 40 then s.modPeat fun p => { p with hotLow := true }
    else if 100 ≤ degrees hot ∧ s.peat.hotLow then (s.modPeat fun p => { p with hotLow := false }).bumpLife 5
    else s
  if !s.flag R.PWR_MSTAT_WARN && decide (s.tWarn < hot) then
    (s.wrB R.PWR_MSTAT_WARN true).raise 0x1109 0 [.w 1, EVal.s (degrees hot)]
  else if s.flag R.PWR_MSTAT_WARN && decide (hot ≤ s.tWarn - 12) then
    (s.wrB R.PWR_MSTAT_WARN false).raise 0x1109 0 [.w 0, EVal.s (degrees hot)]
  else s

/-- One tick of the thermal runs. A second look in a tick does not count twice. -/
def State.thermTick (s : State) : State :=
  let core := [48, 49, 50, 51]
  let cool := fun (i : Nat) => decide (s.sensor i ≤ s.tThr - 12)
  s.modPow fun p => { p with
    hot := s.sensors.foldl (fun t i =>
      Tab.set (fun _ => {}) t i ((Tab.get (fun _ => {}) t i).step s.tick (decide (s.tThr < s.sensor i)))) p.hot
    cool := s.frondIds.foldl (fun t f =>
      Tab.set (fun _ => {}) t f ((Tab.get (fun _ => {}) t f).step s.tick (cool f && core.all cool))) p.cool
    coolAll := p.coolAll.step s.tick (s.sensors.all fun i => decide (s.sensor i ≤ s.tWarn)) }

/-- The iteration cap of frond `f` (R460): down by 8 every 160 ticks above T_THR, up by 8 every 1,600 ticks after 1,600 cool
ones. -/
def State.capStep (s : State) (f : Nat) : State :=
  let hot := decide (s.tThr < s.sensor f) || [48, 49, 50, 51].any fun i => decide (s.tThr < s.sensor i)
  let cool := (Tab.get (fun _ => ({} : Run)) s.pow.cool f).n
  let c := s.rd (R.PWR_CAP f)
  let x := s.frondPow f
  let put := fun (c : Nat) => ((s.wr (R.PWR_CAP f) c).setFrondPow f { x with capTick := some s.tick }).raise 0x110a f [.w (32 - 8 * c)]
  if hot && decide (c < 2) && x.capTick.all (fun t => decide (t + 160 ≤ s.tick)) then put (c + 1)
  else if decide (1600 ≤ cool) && decide (0 < c) && x.capTick.all (fun t => decide (t + 1600 ≤ s.tick)) then put (c - 1)
  else s

/-- THERM_THROTTLE of frond `f`. -/
def execThermThrottle (f : Fin 48) (s : State) : Host.Outcome State Fault Refusal := .next <| s.thermTick.capStep f.val

/-- Shedding and its return (R461): one frond every 160 ticks, in ascending order. -/
def State.shedStep (s : State) : State :=
  let hot := s.pow.hot.any fun q => decide (1600 ≤ q.2.n) && decide (s.tThr < s.sensor q.1)
  let due := fun (t : Option Nat) => t.all fun t => decide (t + 160 ≤ s.tick)
  if hot then
    if due s.pow.shedTick then
      match s.frondIds.find? fun f => s.mapBit R.PWR_SHED_SHED f && !s.isShed f with
      | some f => ((s.modPow fun p => { p with shedTick := some s.tick }).setMapBit R.PWR_SHEDACT_SHEDACT f true).raise 0x110b f [.w 1]
      | none => s
    else s
  else if 160000 ≤ s.pow.coolAll.n ∧ due s.pow.backTick = true then
    match s.frondIds.find? s.isShed with
    | some f => ((s.modPow fun p => { p with backTick := some s.tick }).setMapBit R.PWR_SHEDACT_SHEDACT f false).raise 0x110b f [.w 0]
    | none => s
  else s

/-- THERM_SHED. -/
def execThermShed (s : State) : Host.Outcome State Fault Refusal := .next s.thermTick.shedStep

/-- Every client lane is power-gated (R462): no signal is seen on it. -/
def State.gateLanes (s : State) : State :=
  let s := (List.range 288).foldl (fun s l =>
    if s.laneOwner l = 0x1ff then s
    else (s.wrB (R.CLT_LANE_STAT_SIG_DET l) false).wrB (R.CLT_LANE_STAT_CDR_LOCK l) false) s
  s.ports.foldl (fun s q => (s.setPort q.1 { s.port q.1 with hits := [], misses := [], locked := [] }).updatePort q.1) s

/-- Every frond and every client lane is power-gated; a reset of a block among them waits (R462). -/
def State.gateAll (s : State) : State :=
  let s := s.frondIds.foldl (fun s f => ((s.calAbort f 13).endWake f).enterPower f 4) s
  let s := s.gateLanes
  { s with boot := { s.boot with inReset := s.boot.inReset.map fun (b : BlockReset) =>
    if 0x100 ≤ b.id then { b with suspended := true } else b } }

/-- THERMAL_TRIP: the trip comparator of `sensor` reaches 130 degrees (R462). -/
def execThermalTrip (sensor : Fin 52) (deg : Nat) (s : State) : Host.Outcome State Fault Refusal := .next <|
  if s.flag R.PWR_MSTAT_TRIPPED then s
  else
    let s := (s.wrB R.PWR_MSTAT_TRIPPED true).modPow fun p => { p with gated := true }
    let s := (s.updateBlocking.gateAll.raise 0x110c sensor.val [.w deg]).bumpLife 6
    (s.sendFault ⟨0x006, 0x05, 7, false, sensor.val + 256 * (deg % 256), s.tick⟩).moduleState

/-! ### Rails and AVS (R444, R445) -/

/-- The AVS target that the fuses hold for a rail at a junction temperature in whole degrees. -/
def State.avsFuse (s : State) (r : Nat) (deg : Int) : Nat := Tab.get (fun _ => 650) s.fuse.avs (256 * r + (deg + 128).toNat)

/-- The next target of a rail: toward the fuses' by at most 10 mV, in steps of 5 mV, within 550..700. -/
def avsNext (cur want : Nat) : Nat :=
  let want := min 700 (max 550 want)
  let step := fun (d : Nat) => min 10 (d / 5 * 5)
  if cur < want then cur + step (want - cur) else cur - step (cur - want)

/-- AVS_EVALUATION of VDSPr: at most one change in 160,000 ticks. -/
def execAvsEvaluation (r : Fin 8) (s : State) : Host.Outcome State Fault Refusal := .next <|
  let fs := s.frondIds.filter fun f => f / 6 == r.val
  match fs with
  | [] => s
  | f :: l =>
    let hot := l.foldl (fun a i => max a (s.sensor i)) (s.sensor f)
    let cur := s.rd (R.PWR_AVS_TGT r.val)
    let new := avsNext cur (s.avsFuse r.val (degrees hot))
    let may := (Tab.get (fun _ => none) s.pow.avsTick r.val).all fun t => decide (t + 160000 ≤ s.tick)
    if new = cur ∨ may = false then s
    else ((s.modPow fun p => { p with avsTick := Tab.set (fun _ => none) p.avsTick r.val (some s.tick) }).wr
      (R.PWR_AVS_TGT r.val) new).raise 0x1108 r.val [.w new]

/-- RAIL_FAULT: rail `r` has stayed outside its tolerance for 10 us with PWR_OK high, at `mv`. -/
def execRailFault (r : Fin 14) (mv : Nat) (s : State) : Host.Outcome State Fault Refusal := .next <|
  if !s.boot.pwrOk then s
  else
    let s := s.modPow fun p => { p with railsOut := p.railsOut.filter (· != r.val) ++ [r.val] }
    let s := (s.bump R.PWR_CNT_RAIL_FAULTS 1).raise 0x1107 r.val [.w mv]
    s.sendFault ⟨0x006, 0x04, 6, false, r.val + 2 ^ 16 * (mv % 2 ^ 16), s.tick⟩

/-! ### Descriptors (Table PWR-6) -/

/-- The checks of PWR_FROND. -/
def chkPwrFrond (f : Nat) (c : Ctx) (s : State) : List Ck := c.pf ++ [ckFormat (decide (48 ≤ f)), s.ckFrond f]

/-- PWR_FROND applied. A deeper target on a held crypto unit is deferred and the completion reads HELD (R378, R457); a host
calibration is preempted by a tolerance that gives F0 (Table CAL-4). -/
def appPwrFrond (f : Nat) (setLt setShed shed : Bool) (lt : Nat) (_ : Ctx) (s : State) : Applied :=
  let s := if setShed then s.setMapBit R.PWR_SHED_SHED f shed else s
  if !setLt then { s := s }
  else
    let s := s.wr (R.PWR_LT_LT f) lt
    let s := if s.ltTarget f = 0 ∧ (s.frondCal f).run.any (fun r => r.kind == 2) = true then s.calAbort f 11 else s
    let held := decide (2 ≤ s.ltTarget f) && s.cryptoHeld f && !s.isShed f
    { s := if s.isShed f then s else (s.holdTarget f (s.ltTarget f)).1, held := held }

/-- PWR_FROND as a request of its own. -/
def execPwrFrond (h : ReqHdr) (mem : HostMem) (f : Nat) (setLt setShed shed : Bool) (lt : Nat) (s : State) :
    Host.Outcome State Fault Refusal := .next <|
  runOne h mem 0x80 (.pwrFrond f setLt setShed shed lt) s (chkPwrFrond f) (appPwrFrond f setLt setShed shed lt)

/-- The checks of PWR_THERMAL: T_WARN 80..124, T_THR 90..124, T_WARN below T_THR. -/
def chkPwrThermal (warn thr : Nat) (c : Ctx) (_ : State) : List Ck :=
  c.pf ++ [ckFormat (decide (warn < 80) || decide (124 < warn) || decide (thr < 90) || decide (124 < thr) || decide (thr ≤ warn))]

/-- PWR_THERMAL applied. -/
def appPwrThermal (warn thr : Nat) (_ : Ctx) (s : State) : Applied :=
  { s := (s.wr R.PWR_THERM_T_WARN warn).wr R.PWR_THERM_T_THR thr }

/-- PWR_THERMAL as a request of its own. -/
def execPwrThermal (h : ReqHdr) (mem : HostMem) (warn thr : Nat) (s : State) : Host.Outcome State Fault Refusal := .next <|
  runOne h mem 0x81 (.pwrThermal warn thr) s (chkPwrThermal warn thr) (appPwrThermal warn thr)

/-! ### Board controller port (R463) -/

/-- The sensors that the rail of a page feeds, for the pages whose load has one. -/
def State.pageSensors (s : State) (p : Nat) : List Nat :=
  if p < 8 then s.frondIds.filter fun f => f / 6 == p
  else if p = 8 then [48, 49, 50, 51]
  else if p = 9 ∨ p = 11 then s.frondIds
  else if p = 14 then s.sensors
  else []

/-- The temperature of a page: its hottest sensor, or a free value where no sensor is named (assumption 54). -/
def State.pageTemp (a : State × List (Nat × Int)) (p : Nat) : State × List (Nat × Int) :=
  match a.1.pageSensors p with
  | [] => (a.1.fresh.2, a.2 ++ [(p, toSigned 16 a.1.fresh.1)])
  | i :: l => (a.1, a.2 ++ [(p, l.foldl (fun m j => max m (a.1.sensor j)) (a.1.sensor i))])

/-- TELEMETRY_REFRESH: the published results of the monitor converter are taken. The hottest sensor of a rail whose load has
none is open (assumption 1). -/
def execTelemetryRefresh (s : State) : Host.Outcome State Fault Refusal := .next <|
  let pages := List.range 14
  let volt := pages.map fun p => (p, s.rdS (R.MON_RES_VALUE (0x34 + p)))
  let cur := pages.map fun p => (p, s.rdS (R.MON_RES_VALUE (0x44 + p)))
  let a := (List.range 15).foldl State.pageTemp (s, [])
  let s := a.1.modPow fun p => { p with tele := { volt := volt, cur := cur, temp := a.2 } }
  (List.range 8).foldl (fun s r => s.wr (R.PWR_AVS_MEAS r) (Tab.get (fun _ => 0) volt r).toNat) s

/-- The port answers only while the main supplies are present. -/
def State.pmbus (s : State) (act : State → State) : State := if s.boot.pwrOk then act s else s

/-- A command that the port does not acknowledge: bit 7 unsupported command, bit 6 invalid data. -/
def State.pmbusNack (s : State) (bit : Nat) : State :=
  (s.modPow fun p => { p with cmlBits := p.cmlBits ||| 2 ^ bit }).emit .pmbusNack

/-- A value in LINEAR11 as exponent and mantissa fields: `num / den` with the finest exponent whose mantissa fits. -/
def linear11 (s : State) (num : Int) (den : Nat) : Nat × State :=
  let fits := fun (n : Nat) => decide ((num.natAbs * 2 ^ 16) / (den * 2 ^ n) ≤ 1022)
  let n := ((List.range 32).find? fits).getD 31
  let (m, s) := s.wholeUnits (num.natAbs * 2 ^ 16) (den * 2 ^ n)
  (((n + 32 - 16) % 32) * 2048 + ofSigned 11 (if num < 0 then -(m : Int) else (m : Int)), s)

/-- PMBUS_PAGE_WRITE. -/
def execPmbusPageWrite (p : Fin 256) (s : State) : Host.Outcome State Fault Refusal := .next <|
  s.pmbus fun s => if p.val ≤ 14 then s.modPow fun x => { x with page := p.val } else s.pmbusNack 6

/-- PMBUS_PAGE_READ. -/
def execPmbusPageRead (s : State) : Host.Outcome State Fault Refusal := .next <|
  s.pmbus fun s => s.emit (.pmbusReply s.pow.page 1)

/-- PMBUS_VOUT_MODE. -/
def execPmbusVoutMode (s : State) : Host.Outcome State Fault Refusal := .next <| s.pmbus fun s => s.emit (.pmbusReply 0x14 1)

/-- STATUS_WORD of the page. -/
def State.statusWord (s : State) : Nat :=
  let out := if s.pow.page = 14 then !s.pow.railsOut.isEmpty else s.pow.railsOut.contains s.pow.page
  (if out then 2 ^ 15 else 0) + (if s.tWarn < s.sensor s.hottest then 4 else 0) + (if s.pow.cmlBits = 0 then 0 else 2)

/-- PMBUS_STATUS_WORD. -/
def execPmbusStatusWord (s : State) : Host.Outcome State Fault Refusal := .next <|
  s.pmbus fun s => s.emit (.pmbusReply s.statusWord 2)

/-- PMBUS_STATUS_CML: cleared by the read. -/
def execPmbusStatusCml (s : State) : Host.Outcome State Fault Refusal := .next <|
  s.pmbus fun s => (s.emit (.pmbusReply s.pow.cmlBits 1)).modPow fun x => { x with cmlBits := 0 }

/-- Telemetry of a page. -/
def State.teleVolt (s : State) (p : Nat) : Int := Tab.get (fun _ => 0) s.pow.tele.volt p
def State.teleCur (s : State) (p : Nat) : Int := Tab.get (fun _ => 0) s.pow.tele.cur p

/-- PMBUS_READ_VOUT: LINEAR16 with exponent -12; page 14 returns 0. -/
def execPmbusReadVout (s : State) : Host.Outcome State Fault Refusal := .next <|
  s.pmbus fun s =>
    if s.pow.page = 14 then s.emit (.pmbusReply 0 2)
    else
      let (v, s) := s.wholeUnits ((s.teleVolt s.pow.page).toNat * 4096) 1000
      s.emit (.pmbusReply (v % 2 ^ 16) 2)

/-- PMBUS_READ_IOUT: LINEAR11 in A; page 14 is the sum of pages 0..13. -/
def execPmbusReadIout (s : State) : Host.Outcome State Fault Refusal := .next <|
  s.pmbus fun s =>
    let i := if s.pow.page = 14 then ((List.range 14).map s.teleCur).sum else s.teleCur s.pow.page
    let (v, s) := linear11 s i 100
    s.emit (.pmbusReply v 2)

/-- PMBUS_READ_TEMPERATURE_1: LINEAR11 in degrees. -/
def execPmbusReadTemperature1 (s : State) : Host.Outcome State Fault Refusal := .next <|
  s.pmbus fun s =>
    let (v, s) := linear11 s (Tab.get (fun _ => 0) s.pow.tele.temp s.pow.page) 4
    s.emit (.pmbusReply v 2)

/-- PMBUS_READ_POUT: LINEAR11 in W, voltage times current; page 14 is the module total. -/
def execPmbusReadPout (s : State) : Host.Outcome State Fault Refusal := .next <|
  s.pmbus fun s =>
    let w := fun p => s.teleVolt p * s.teleCur p
    let (v, s) := linear11 s (if s.pow.page = 14 then ((List.range 14).map w).sum else w s.pow.page) 100000
    s.emit (.pmbusReply v 2)

/-- PMBUS_MFR_SPECIFIC_00: the AVS target of a VDSP page in LINEAR16. -/
def execPmbusMfrSpecific00 (s : State) : Host.Outcome State Fault Refusal := .next <|
  s.pmbus fun s =>
    if 8 ≤ s.pow.page then s.pmbusNack 7
    else
      let (v, s) := s.wholeUnits (s.rd (R.PWR_AVS_TGT s.pow.page) * 4096) 1000
      s.emit (.pmbusReply v 2)

/-- PMBUS_MFR_SPECIFIC_01: module state, TRIPPED, PEAT_SRC. -/
def execPmbusMfrSpecific01 (s : State) : Host.Outcome State Fault Refusal := .next <|
  s.pmbus fun s => s.emit (.pmbusReply (s.rd R.PWR_MSTAT_MSTATE + 4 * s.rd R.PWR_MSTAT_TRIPPED + 8 * s.rd R.PWR_MSTAT_PEAT_SRC) 1)

/-- PMBUS_UNSUPPORTED: any other write, and any unsupported command. -/
def execPmbusUnsupported (s : State) : Host.Outcome State Fault Refusal := .next <| s.pmbus fun s => s.pmbusNack 7

end Sys2Proof.Machine
end

