-- ==== Sys2Proof/Machine/Monitor.lean ====
section
/-! DEFINITION. The monitor converter (chapter 23): frames, urgent requests, publication with filters, limits, the test DAC.
Instants are core cycles from the start of the frame; a conversion lasts 1,600. -/
namespace Sys2Proof.Machine

/-- Changes the monitor record. -/
def State.modMon (s : State) (g : MonSt → MonSt) : State := { s with mon := g s.mon }

/-- A reserved channel (Table MON-1). -/
def monReserved (c : Nat) : Bool := (decide (0x54 ≤ c) && decide (c < 0x60)) || decide (0xf1 ≤ c)

/-- A channel of a frond that is not enabled. -/
def State.monAbsent (s : State) (c : Nat) : Bool :=
  (decide (c < 0x30) && !s.frondEnabled c) ||
    (decide (0x60 ≤ c) && decide (c < 0xf0) && !s.frondEnabled ((c - 0x60) % 0x30))

/-- Entry `i` of a frame: its channel and filter; channel 0xFF is empty, and so is one that is never converted. -/
def State.monEntry (s : State) (i : Nat) : Nat × Nat :=
  let e := if i < 82 then (i, 0) else s.mon.table.getD (i - 82) (0xff, 0)
  if s.monAbsent e.1 then (0xff, 0) else e

/-! ### Frames (R539, R540) -/

/-- Counts a skipped entry and raises MON_SKIP at most once per 160 ticks. -/
def State.monSkip (s : State) : State :=
  let s := s.bump R.MON_CNT_SKIPPED 1
  let (s, last, acc) := s.rateEvent 0x1604 0 160 s.mon.skipTick s.mon.skipAcc 1
  s.modMon fun m => { m with skipTick := last, skipAcc := acc }

/-- The next entry that starts, from entry `i` at instant `t`. -/
def State.monNext (s : State) : Nat → Nat → Nat → State
  | 0, _, t => s.modMon fun m => { m with idx := 250, start := t, idle := false }
  | n + 1, i, t =>
    if 250 ≤ i then s.modMon fun m => { m with idx := 250, start := t, idle := false }
    else if (s.monEntry i).1 = 0xff then
      if t ≤ 1600 * i then s.modMon fun m => { m with idx := i, start := t, idle := true }
      else State.monNext s n (i + 1) t
    else if t + 1600 ≤ s.mon.frameLen then s.modMon fun m => { m with idx := i, start := t, idle := false }
    else State.monNext s.monSkip n (i + 1) t

/-- Empty entries in idle that have ended by instant `upto` give way to the next entry. -/
def State.monIdle (s : State) (upto : Nat) : Nat → State
  | 0 => s
  | n + 1 =>
    let m := s.mon
    if m.on && m.idle && m.urgent.isNone && decide (m.idx < 250) && decide (m.start + 1600 ≤ upto) then
      State.monIdle (s.monNext 300 (m.idx + 1) (m.start + 1600)) upto n
    else s

/-- The share of a source per frame (R544). -/
def monShare (src : Nat) : Nat := if src = 0 then 6 else if src = 1 then 8 else 2

/-- HOST_QUEUED. -/
def State.monQueued (s : State) : Nat := (s.mon.queue.filter fun q => q.1 == 2 && !q.2.2).length

/-- Starts a waiting urgent request at instant `t` (R543, R544): a conversion in progress is aborted and restarts later, an
idle is cut short. A request for a channel under test waits, and so does the test's own until the input has settled. -/
def State.monUrgent (s : State) (t : Nat) : State :=
  let m := s.mon
  if !m.on || m.urgent.isSome || decide (m.frameLen < t + 1600) then s
  else
    let can := fun (q : Nat × Nat × Bool) => decide (m.used.getD q.1 0 < monShare q.1) &&
      (if q.2.2 then m.test.any fun x => decide (x.2.2 ≤ 10000 * m.frameStart + t)
       else !(m.test.any fun x => x.1 == q.2.1))
    match ([0, 1, 2].filterMap fun src => (m.queue.zipIdx.find? fun q => q.1.1 == src && can q.1)).head? with
    | none => s
    | some ((src, ch, test), i) =>
      let s := if m.idle || decide (250 ≤ m.idx) then s else s.bump R.MON_CNT_ABORTS 1
      let s := s.modMon fun m => { m with
        idx := if m.idle then m.idx + 1 else m.idx
        idle := false
        urgent := some { src := src, ch := ch, start := t, test := test }
        queue := m.queue.eraseIdx i
        used := m.used.set src (m.used.getD src 0 + 1) }
      s.wr R.MON_STAT_HOST_QUEUED s.monQueued

/-- A new frame begins at this boundary, `len` cycles long: entries of the old one that have not begun are skipped. -/
def State.monFrame (s : State) (len : Nat) : State :=
  let m := s.mon
  let left := if m.on then ((List.range 250).filter fun i => decide (m.idx ≤ i) && (s.monEntry i).1 != 0xff).length else 0
  let s := (List.range left).foldl (fun s _ => s.monSkip) s
  let s := s.modMon fun m => { m with on := true, frameStart := s.tick, frameLen := len, urgent := none, used := [0, 0, 0], idle := false }
  (s.monNext 300 0 0).monUrgent 0

/-- MON_FRAME_START at a boundary with TICK mod 40 = 0. -/
def execMonFrameStart (s : State) : Host.Outcome State Fault Refusal := .next <|
  if s.tick % 40 = 0 ∧ s.inBlockReset 0x012 = false then s.monFrame 400000 else s

/-- MON_CONVERSION_END: the sequenced conversion in progress ends with `code` and the trimmed `value`; the next entry starts or
is skipped. -/
def execMonConversionEnd (code : Fin 4096) (value : Int) (s : State) : Host.Outcome State Fault Refusal := .next <|
  let s := s.monIdle s.mon.frameLen 300
  let m := s.mon
  if !m.on || m.urgent.isSome || m.idle || decide (250 ≤ m.idx) then s
  else
    let (ch, k) := s.monEntry m.idx
    let s := if m.test.any fun x => x.1 == ch then s
      else s.modMon fun m => { m with pub := m.pub ++ [(ch, code.val, value, k)] }
    (s.monNext 300 (m.idx + 1) (m.start + 1600)).monUrgent (m.start + 1600)

/-! ### Publication and limits (R541, R546) -/

/-- The limit state of a channel: 0 within, 1 high, 2 low. -/
def State.limState (s : State) (c : Nat) : Nat :=
  if s.flag (R.MON_RES_HIGH c) then 1 else if s.flag (R.MON_RES_LOW c) then 2 else 0

/-- A channel changes its limit state. -/
def State.setLim (s : State) (c st : Nat) (l : MonLimit) (v : Int) : State :=
  if s.limState c = st then s
  else
    let s := (s.wrB (R.MON_RES_HIGH c) (st == 1)).wrB (R.MON_RES_LOW c) (st == 2)
    let o := s.rd (R.MON_LIMSTAT_OUT (c / 32))
    let s := s.wr (R.MON_LIMSTAT_OUT (c / 32)) (o - o / 2 ^ (c % 32) % 2 * 2 ^ (c % 32) + (if st = 0 then 0 else 2 ^ (c % 32)))
    let s := s.raise 0x1601 c [.w st, EVal.s v]
    if l.fault && st != 0 then s.sendFault ⟨0x012, 0x0a, l.sev, false, c + (if st = 1 then 256 else 0), s.tick⟩ else s

/-- A sequenced result of a bound channel compared with its limit. -/
def State.limCheck (s : State) (c : Nat) (v : Int) : State :=
  let k := Tab.get (fun _ => 0xff) s.mon.map c
  if k = 0xff then s
  else
    let l := Tab.get (fun _ => ({} : MonLimit)) s.mon.limits k
    let (a, b, w) := Tab.get (fun _ => (0, 0, 0)) s.mon.pers c
    let hi := if l.high < v then a + 1 else 0
    let lo := if v < l.low then b + 1 else 0
    let win := if l.low + l.hyst ≤ v ∧ v ≤ l.high - l.hyst then w + 1 else 0
    let s := s.modMon fun m => { m with pers := Tab.set (fun _ => (0, 0, 0)) m.pers c (hi, lo, win) }
    if l.persist ≤ hi then s.setLim c 1 l v
    else if l.persist ≤ lo then s.setLim c 2 l v
    else if l.persist ≤ win then s.setLim c 0 l v
    else s

/-- One result published: VALUE through its filter, CODE raw; the power manager reads it. -/
def State.monPublish1 (s : State) (r : Nat × Nat × Int × Nat) : State :=
  let (c, code, new, k) := r
  let old := s.rdS (R.MON_RES_VALUE c)
  let v := if k = 0 then new else roundShift (old * (4 ^ k : Nat) + new - old) (2 * k)
  let s := ((s.wrB (R.MON_RES_VALID c) true).wr (R.MON_RES_CODE c) code).wrS (R.MON_RES_VALUE c) v
  let s := s.limCheck c v
  if c < 0x34 then s.thermWarn else s

/-- The results whose conversions have ended are published at a tick boundary, and ENTRY follows. -/
def State.monPublish (s : State) : State :=
  let s := s.monIdle (10000 * (s.tick - s.mon.frameStart)) 300
  let l := s.mon.pub
  let s := s.modMon fun m => { m with pub := [] }
  let s := l.foldl State.monPublish1 s
  if s.mon.on && decide (s.mon.idx < 250) then s.wr R.MON_STAT_ENTRY s.mon.idx else s

/-! ### Urgent requests and the test DAC (R543..R547) -/

/-- URGENT_REQUEST of the calibration sequencer (0), a frond loop controller (1) or the host (2) at core cycle `at` of the
tick. -/
def execUrgentRequest (src : Fin 3) (ch : Fin 256) (at' : Fin 10000) (s : State) : Host.Outcome State Fault Refusal := .next <|
  if monReserved ch.val || s.monAbsent ch.val || s.inBlockReset 0x012 then s
  else
    let t := 10000 * (s.tick - s.mon.frameStart) + at'.val
    let s := s.modMon fun m => { m with queue := m.queue ++ [(src.val, ch.val, false)] }
    let s := s.wr R.MON_STAT_HOST_QUEUED s.monQueued
    (s.monIdle t 300).monUrgent t

/-- An urgent conversion has ended at instant `t`: the aborted one restarts from its beginning, or the next entry starts, after
the urgent requests that wait. -/
def State.monResume (s : State) (t : Nat) : State :=
  let s := s.modMon fun m => { m with urgent := none }
  (s.monNext 300 s.mon.idx t).monUrgent t

/-- URGENT_CONVERSION_END: the result goes to its source only; the host's is MON_SAMPLE. -/
def execUrgentConversionEnd (code : Fin 4096) (value : Int) (s : State) : Host.Outcome State Fault Refusal := .next <|
  match s.mon.urgent with
  | none => s
  | some u =>
    if u.test then s
    else
      let s := if u.src = 2 then s.raise 0x1602 u.ch [.w code.val, EVal.s value] else s
      s.monResume (u.start + 1600)

/-- MON_TEST_DONE: the test conversion ends with `code`; the channel's input switches back. -/
def execMonTestDone (code : Fin 4096) (s : State) : Host.Outcome State Fault Refusal := .next <|
  match s.mon.test with
  | none => s
  | some (ch, d, ready) =>
    let t := max (ready - 10000 * s.mon.frameStart) s.mon.start
    let s := if s.mon.urgent.any MonUrgent.test then s else (s.monIdle t 300).monUrgent t
    match s.mon.urgent with
    | none => s
    | some u =>
      if !u.test then s
      else
        let pass := decide (((code.val : Int) - 4 * d).natAbs ≤ 8)
        let s := s.modMon fun m => { m with test := none }
        let s := ((s.wrB R.MON_STAT_TEST_BUSY false).wrB R.MON_TEST_RES_VALID true).wrB R.MON_TEST_RES_PASS pass
        let s := (s.wr R.MON_TEST_RES_CODE code.val).wr R.MON_TEST_RES_D d
        let s := s.raise 0x1603 ch [.w d, .w code.val, .w (if pass then 1 else 0)]
        s.monResume (u.start + 1600)

/-! ### Descriptors (Table MON-2) -/

/-- The entries of a sequence table image: channel and FILTER byte. -/
def seqOf (b : List Byte) : List (Nat × Nat) := (List.range 168).map fun j => (fieldAt b (2 * j) 1, fieldAt b (2 * j + 1) 1)

/-- The checks of MON_SEQ. -/
def chkMonSeq (addr : Nat) (c : Ctx) (s : State) : List Ck :=
  let t := (readHost c.mem addr 336).map seqOf
  c.pf ++ [c.ckRead addr 336, ckAlign addr 64,
    ckFormat (t.any fun l => l.any fun e => (e.1 != 0xff && monReserved e.1) || decide (4 ≤ e.2)),
    ckAbsent (t.any fun l => l.any fun e => e.1 != 0xff && s.monAbsent e.1), ⟨9, c.eff % 40 != 0, St.schedule, 0⟩]

/-- MON_SEQ applied: the table governs the frame that begins at E. -/
def appMonSeq (addr : Nat) (c : Ctx) (s : State) : Applied :=
  match readHost c.mem addr 336 with
  | some b => { s := s.modMon fun m => { m with table := seqOf b } }
  | none => { s := s }

/-- MON_SEQ as a request of its own. -/
def execMonSeq (h : ReqHdr) (mem : HostMem) (addr : Nat) (s : State) : Host.Outcome State Fault Refusal := .next <|
  runOne h mem 0xd0 (.monSeq addr) s (chkMonSeq addr) (appMonSeq addr)

/-- Restarts the persistence counts of the channels that `p` names. -/
def State.restartPers (s : State) (p : Nat → Bool) : State := s.modMon fun m => { m with pers := m.pers.filter fun q => !p q.1 }

/-- The checks of MON_LIMIT. -/
def chkMonLimit (limit persist sev : Nat) (low high : Int) (hyst : Nat) (c : Ctx) (_ : State) : List Ck :=
  c.pf ++ [ckFormat (decide (64 ≤ limit) || persist == 0 || decide (256 ≤ persist) || decide (8 ≤ sev) ||
    decide (high - 2 * hyst < low))]

/-- MON_LIMIT applied. -/
def appMonLimit (limit persist : Nat) (fault : Bool) (sev : Nat) (low high : Int) (hyst : Nat) (_ : Ctx) (s : State) : Applied :=
  let l : MonLimit := { low := low, high := high, hyst := hyst, persist := persist, fault := fault, sev := sev }
  let s := s.modMon fun m => { m with limits := Tab.set (fun _ => {}) m.limits limit l }
  { s := s.restartPers fun c => Tab.get (fun _ => 0xff) s.mon.map c == limit }

/-- MON_LIMIT as a request of its own. -/
def execMonLimit (h : ReqHdr) (mem : HostMem) (limit persist : Nat) (fault : Bool) (sev : Nat) (low high : Int) (hyst : Nat)
    (s : State) : Host.Outcome State Fault Refusal := .next <|
  runOne h mem 0xd1 (.monLimit limit persist fault sev low high hyst) s (chkMonLimit limit persist sev low high hyst)
    (appMonLimit limit persist fault sev low high hyst)

/-- The limit of each channel in a map image. -/
def mapOf (b : List Byte) : List Nat := (List.range 256).map fun c => fieldAt b c 1

/-- The checks of MON_MAP. -/
def chkMonMap (addr : Nat) (c : Ctx) (s : State) : List Ck :=
  let t := (readHost c.mem addr 256).map mapOf
  let bound := fun (p : Nat → Bool) => t.any fun l => l.zipIdx.any fun q => q.1 != 0xff && p q.2
  c.pf ++ [c.ckRead addr 256, ckAlign addr 64,
    ckFormat (bound monReserved || t.any fun l => l.any fun k => k != 0xff && decide (64 ≤ k)), ckAbsent (bound s.monAbsent)]

/-- MON_MAP applied: channels whose limit changes start their counts afresh. -/
def appMonMap (addr : Nat) (c : Ctx) (s : State) : Applied :=
  match readHost c.mem addr 256 with
  | some b =>
    let old := s.mon.map
    let s := s.modMon fun m => { m with
      map := (mapOf b).zipIdx.foldl (fun t q => Tab.set (fun _ => 0xff) t q.2 q.1) m.map }
    { s := s.restartPers fun c => Tab.get (fun _ => 0xff) old c != Tab.get (fun _ => 0xff) s.mon.map c }
  | none => { s := s }

/-- MON_MAP as a request of its own. -/
def execMonMap (h : ReqHdr) (mem : HostMem) (addr : Nat) (s : State) : Host.Outcome State Fault Refusal := .next <|
  runOne h mem 0xd2 (.monMap addr) s (chkMonMap addr) (appMonMap addr)

/-- The checks of MON_SAMPLE. -/
def chkMonSample (ch : Nat) (c : Ctx) (s : State) : List Ck :=
  c.pf ++ [ckFormat (monReserved ch), ckAbsent (s.monAbsent ch), ckCond (decide (16 ≤ s.monQueued)) St.queueFull]

/-- MON_SAMPLE applied: the request enters the host queue at this boundary. -/
def appMonSample (ch : Nat) (_ : Ctx) (s : State) : Applied :=
  let t := 10000 * (s.tick - s.mon.frameStart)
  let s := s.modMon fun m => { m with queue := m.queue ++ [(2, ch, false)] }
  let s := s.wr R.MON_STAT_HOST_QUEUED s.monQueued
  { s := if s.tick % 40 = 0 then s else (s.monIdle t 300).monUrgent t }

/-- MON_SAMPLE as a request of its own. -/
def execMonSample (h : ReqHdr) (mem : HostMem) (ch : Nat) (s : State) : Host.Outcome State Fault Refusal := .next <|
  runOne h mem 0xd3 (.monSample ch) s (chkMonSample ch) (appMonSample ch)

/-- The checks of MON_TEST. -/
def chkMonTest (ch d : Nat) (c : Ctx) (s : State) : List Ck :=
  c.pf ++ [ckFormat (monReserved ch || decide (1024 ≤ d)), ckAbsent (s.monAbsent ch), ckCond s.mon.test.isSome St.bankBusy]

/-- MON_TEST applied: the channel's input switches to the test DAC and settles for 10 us. -/
def appMonTest (ch d : Nat) (_ : Ctx) (s : State) : Applied :=
  { s := (s.modMon fun m => { m with test := some (ch, d, 10000 * s.tick + 16000), queue := m.queue ++ [(2, ch, true)] }).wrB
      R.MON_STAT_TEST_BUSY true }

/-- MON_TEST as a request of its own. -/
def execMonTest (h : ReqHdr) (mem : HostMem) (ch d : Nat) (s : State) : Host.Outcome State Fault Refusal := .next <|
  runOne h mem 0xd4 (.monTest ch d) s (chkMonTest ch d) (appMonTest ch d)

/-! ### Block reset of the converter (Table BOOT-8, R540) -/

/-- The frame in progress ends at the start of the reset; an urgent conversion in progress ends with an error response and
its source issues it again. -/
def State.monStop (s : State) : State :=
  s.modMon fun m => { m with
    on := false
    urgent := none
    queue := (match m.urgent with
      | some u => (u.src, u.ch, u.test) :: m.queue
      | none => m.queue) }

/-- A new frame begins at the end of the reset and lasts to the next boundary with TICK mod 40 = 0. -/
def State.monRestart (s : State) : State := s.monFrame (10000 * (40 - s.tick % 40))

end Sys2Proof.Machine
end

