-- ==== Sys2Proof/Machine/Update.lean ====
section
/-! DEFINITION. Firmware update by Spores (chapter 21), the checks of secure boot on an image slot (Table SEC-3), the settings
store. -/
namespace Sys2Proof.Machine

/-- Changes the update record. -/
def State.modUpd (s : State) (g : UpdSt → UpdSt) : State := { s with upd := g s.upd }

/-! ### The boot flash (Table BOOT-3) -/

/-- What an erased page reads as. PRESUMED: all ones, as NOR flash erases. -/
def erasedPage : List Byte := List.replicate 4096 0xff

/-- Page `p` of image slot `k`. -/
def UpdSt.page (u : UpdSt) (k p : Nat) : List Byte := (Tab.get (fun _ => none) u.flash (16384 * k + p)).getD erasedPage

/-- Bytes of image slot `k`. -/
def UpdSt.slotBytes (u : UpdSt) (k off len : Nat) : List Byte :=
  let p := off / 4096
  let n := ceilDiv (off % 4096 + len) 4096
  (((List.range n).flatMap fun i => u.page k (p + i)).drop (off % 4096)).take len

/-- Erases image slot `k`. -/
def UpdSt.eraseSlot (u : UpdSt) (k : Nat) : UpdSt :=
  { u with flash := u.flash.filter fun q => decide (q.1 / 16384 ≠ k) }

/-! ### Manifests (Table UPD-2) -/

/-- The manifest area of a package: bytes 0..16,383. -/
abbrev Manifest := List Byte

/-- A field of the entry of part `i`. -/
def partField (m : Manifest) (i off n : Nat) : Nat := fieldAt m (64 + 64 * i + off) n

/-- The number of parts named, at most the six entries that the area has. -/
def partCount (m : Manifest) : Nat := min 6 (fieldAt m 26 2)

/-- The entry of part ID `p`. -/
def partIdx (m : Manifest) (p : Nat) : Option Nat := (List.range 6).find? fun i => partField m i 0 2 == p

/-- What the running firmware's manifest gives (R640). -/
def firmwareOf (m : Manifest) (slot : Nat) : Firmware :=
  let ver := fun (p : Nat) => ((partIdx m p).map fun i => partField m i 4 4).getD 0
  { mgmt := ver 1, loop := ver 2, sec := fieldAt m 20 2, lo := fieldAt m 22 2, hi := fieldAt m 24 2, slot := slot }

/-- The first check of Table SEC-3 that the package fails, in the table's order; `part off len` reads package bytes. -/
def State.secCheck (s : State) (m : Manifest) (part : Nat → Nat → List Byte) : Option Nat :=
  let set := fieldAt m 6 1
  let (ec, ml) := s.fuse.keySets.getD set ([], [])
  let body := m.take 4096
  if 1 < set ∨ s.fuse.revoked / 2 ^ set % 2 = 1 then some 1
  else if Config.sha384 (slice m 448 97) ≠ ec then some 2
  else if Config.sha384 (slice m 576 2592) ≠ ml then some 3
  else if Config.ecdsaOk (slice m 448 97) body (slice m 4096 96) = false then some 4
  else if Config.mldsaOk (slice m 576 2592) (Config.sha384 body) (slice m 4192 4627) = false then some 5
  else if fieldAt m 20 2 < s.fuse.rollback then some 6
  else if (List.range (partCount m)).any fun i =>
      Config.sha384 (part (partField m i 8 4) (partField m i 12 4)) != slice m (64 + 64 * i + 16) 48 then some 7
  else none

/-- The manifest of image slot `k`. -/
def State.manifest (s : State) (k : Nat) : Manifest := s.upd.slotBytes k 0 16384

/-- Table SEC-3 applied to image slot `k`. -/
def State.slotCheck (s : State) (k : Nat) : Option Nat := s.secCheck (s.manifest k) (s.upd.slotBytes k)

/-- The layout of a staged package is wrong (R512). -/
def layoutBad (m : Manifest) (pkg total : Nat) : Bool :=
  let len := fieldAt m 16 4
  let place := fun (i : Nat) => (partField m i 8 4, partField m i 12 4)
  let bad := fun (i : Nat) =>
    let (o, l) := place i
    decide (l = 0) || decide (o % 4096 ≠ 0) || decide (o < 16384) || decide (len < o + l) || decide (partField m i 2 2 ≠ 0)
  let meet := fun (i j : Nat) =>
    let (o, l) := place i
    let (p, k) := place j
    decide (i < j) && decide (o < p + k) && decide (p < o + l)
  let six := List.range 6
  decide (fieldAt m 0 4 ≠ 0x464d5747) || decide (fieldAt m 4 2 ≠ 1) || decide (fieldAt m 26 2 ≠ 6) || decide (fieldAt m 8 8 ≠ pkg) ||
    decide (len ≠ 4096 * total) || six.any bad || (six.any fun i => six.any (meet i)) ||
    !(six.all fun p => ((six.filter fun i => partField m i 0 2 == p + 1).length == 1)) ||
    decide (fieldAt m 7 1 / 4 ≠ 0) || (slice m 28 36 ++ slice m 545 31 ++ slice m 3168 928 ++ slice m 8819 7565).any (· != 0)

/-- The reason for which verification of the staging slot fails (R512, Table UPD-6). -/
def State.verifyReason (s : State) (k : Nat) : Option Nat :=
  let m := s.manifest k
  let revoke := fieldAt m 7 1
  match s.slotCheck k with
  | some r => some r
  | none =>
    if layoutBad m s.upd.pkg s.upd.total then some 8
    else if revoke / 2 ^ fieldAt m 6 1 % 2 = 1 ∨ revoke % 4 = 3 then some 10
    else none

/-! ### The update state (R507, Table UPD-4) -/

/-- The staging slot. -/
def UpdSt.staging (u : UpdSt) : Nat := 1 - u.active

/-- The lowest index whose bit is clear, or TOTAL. -/
def UpdSt.firstMissing (u : UpdSt) : Nat :=
  ((List.range u.total).find? fun i => !u.bitmap.testBit i).getD u.total

/-- The record of Table UPD-4. -/
def UpdSt.record (u : UpdSt) : List Byte :=
  withCrc (natLe 8 u.seq ++ natLe 1 u.state ++ natLe 1 u.active ++ natLe 1 u.reason ++ natLe 1 (if u.fusePending then 1 else 0) ++
    natLe 8 u.pkg ++ natLe 4 u.total ++ natLe 4 u.received ++ natLe 8 (if 6 ≤ u.state then u.actTick else 0) ++
    List.replicate 28 0 ++ natLe 2048 u.bitmap ++ List.replicate 1984 0) 4092

/-- Commits the update state to the older copy in Peat. -/
def State.commitUpd (s : State) (fails : List Nat := []) : State :=
  let p := s.peat
  if p.powered then
    let q := p.putBytes fails (0x8400 + 4096 * (s.upd.seq % 2)) s.upd.record
    let s := { s with peat := q, upd := { s.upd with seq := s.upd.seq + 1, dirty := false } }
    s.storeWear p updSlots 4096 4092
  else s

/-- Reads the update state that the newest valid copy holds (R470, R507); without one, slot 0 is active and nothing is
staged. -/
def State.loadUpd (s : State) : State :=
  match s.peat.newest updSlots 4096 4092 0 8 with
  | none => s.modUpd fun u => { flash := u.flash, copies := u.copies }
  | some a =>
    let b := s.peat.bytes a 4096
    s.modUpd fun u => {
      flash := u.flash
      copies := u.copies
      seq := fieldAt b 0 8 + 1
      state := fieldAt b 8 1
      active := fieldAt b 9 1 % 2
      reason := fieldAt b 10 1
      fusePending := fieldAt b 11 1 % 2 == 1
      pkg := fieldAt b 12 8
      total := fieldAt b 20 4
      received := fieldAt b 24 4
      actTick := fieldAt b 28 8
      bitmap := fieldAt b 64 2048 }

/-- The registers that report the running firmware (R640, Table REG-6). -/
def State.fwRegs (s : State) : State :=
  match s.upd.run with
  | none => s.resetRegs 0x14 0x1c
  | some f =>
    let s := (s.wr R.GLB_FW_MGMT_MGMT f.mgmt).wr R.GLB_FW_LOOP_LOOP f.loop
    let s := (s.wrB R.GLB_FW_STAT_RECOVERY f.recovery).wrB R.GLB_FW_STAT_TRIAL (s.upd.state == 7)
    let s := (s.wr R.GLB_FW_STAT_FUSES s.fuse.rollback).wr R.GLB_FW_STAT_SEC_VERSION f.sec
    (s.wr R.GLB_FW_STAT_RUN_SLOT f.slot).wr R.GLB_FW_STAT_ACTIVE_SLOT s.upd.active

/-- STATE becomes `n`: committed, with UPD_STATE. -/
def State.updState (s : State) (n : Nat) : State :=
  if s.upd.state = n then s
  else (s.modUpd fun u => { u with state := n }).commitUpd.raise 0x1401 0 [.w n, .w s.upd.reason]

/-- Nothing staged: STATE is IDLE, and the fields of Table UPD-4 that name the package are 0. -/
def State.updIdle (s : State) : State :=
  (s.modUpd fun u => { u with pkg := 0, total := 0, received := 0, bitmap := 0, actTick := 0, queue := [], loaded := false,
                              ackFrond := none }).updState 0

/-- Verification or programming failed, or an activation was cancelled: REJECTED with a reason. -/
def State.updReject (s : State) (reason : Nat) : State :=
  (s.modUpd fun u => { u with reason := reason, queue := [], loaded := false }).updState 5

/-! ### Descriptors (Table UPD-9) -/

/-- The checks of UPD_CONFIG. -/
def chkUpdConfig (c : Ctx) (_ : State) : List Ck := c.pf

/-- UPD_CONFIG applied. -/
def appUpdConfig (host gcc : Bool) (_ : Ctx) (s : State) : Applied :=
  { s := s.modUpd fun u => { u with acceptHost := host, acceptGcc := gcc } }

/-- UPD_CONFIG as a request of its own. -/
def execUpdConfig (h : ReqHdr) (mem : HostMem) (host gcc : Bool) (s : State) : Host.Outcome State Fault Refusal := .next <|
  runOne h mem 0xc0 (.updConfig host gcc) s chkUpdConfig (appUpdConfig host gcc)

/-- The begin repeats the one in force (R508). -/
def UpdSt.sameBegin (u : UpdSt) (pkg total : Nat) : Bool :=
  (u.state == 1 || u.state == 2) && u.pkg == pkg && u.total == total

/-- The checks of UPD_BEGIN. -/
def chkUpdBegin (pkg total : Nat) (c : Ctx) (s : State) : List Ck :=
  let u := s.upd
  c.pf ++ [ckFormat (decide (total < 10) || decide (16384 < total)),
    ckCond (!(u.state == 0 || u.state == 5 || u.sameBegin pkg total)) St.slotBusy]

/-- UPD_BEGIN applied: the package is recorded and the staging slot is being erased, or nothing changes. -/
def appUpdBegin (pkg total : Nat) (_ : Ctx) (s : State) : Applied :=
  if s.upd.sameBegin pkg total then { s := s }
  else { s := (s.modUpd fun u => { u with pkg := pkg, total := total, bitmap := 0, received := 0, queue := [], ackFrond := none,
                                          acks := 0, ackDue := false }).updState 1 }

/-- UPD_BEGIN as a request of its own. -/
def execUpdBegin (h : ReqHdr) (mem : HostMem) (pkg total : Nat) (s : State) : Host.Outcome State Fault Refusal := .next <|
  runOne h mem 0xc1 (.updBegin pkg total) s (chkUpdBegin pkg total) (appUpdBegin pkg total)

/-- The first of R509's checks on a Spore's own fields that fails (Table UPD-7). -/
def sporeOwn (b : List Byte) : Option Nat :=
  if fieldAt b 0 4 ≠ 0x50535747 ∨ fieldAt b 60 4 ≠ crc32c (b.take 60) ∨ (slice b 24 36).any (· != 0) then some 2
  else if fieldAt b 20 4 ≠ crc32c (slice b 64 4096) then some 3
  else if fieldAt b 16 4 ≤ fieldAt b 12 4 then some 5
  else none

/-- PKG_ID or TOTAL differs from the update state's. -/
def UpdSt.otherPackage (u : UpdSt) (b : List Byte) : Bool := fieldAt b 4 8 != u.pkg || fieldAt b 16 4 != u.total

/-- An accepted Spore: a duplicate is counted, another one enters the staging queue. -/
def UpdSt.takeSpore (u : UpdSt) (b : List Byte) : UpdSt :=
  let i := fieldAt b 12 4
  if u.bitmap.testBit i then { u with dups := satAdd 65535 u.dups 1 } else { u with queue := u.queue ++ [(i, slice b 64 4096)] }

/-- What DETAIL carries above its own bits for a refused Spore. -/
def sporeNote (reason : Nat) (b : List Byte) : Nat := 2 ^ 32 * (reason + 16 * fieldAt b 12 4)

/-- The checks of UPD_SPORE (R510, Table UPD-8). -/
def chkUpdSpore (addr : Nat) (c : Ctx) (s : State) : List Ck :=
  let u := s.upd
  let b := (readHost c.mem addr 4160).getD []
  let trial := decide (6 ≤ u.state)
  c.pf ++ [c.ckRead addr 4160 4, ckAlign addr 4, ⟨6, (sporeOwn b).isSome, St.format, sporeNote ((sporeOwn b).getD 0) b⟩,
    ⟨7, !u.acceptHost || (u.state != 2 && !trial), St.absent, sporeNote 1 b⟩,
    ckCond trial St.slotBusy (sporeNote 1 b), ckCond (u.otherPackage b) St.slotBusy (sporeNote 4 b),
    ckCond (!u.bitmap.testBit (fieldAt b 12 4) && decide (64 ≤ u.queue.length)) St.queueFull (sporeNote 6 b)]

/-- UPD_SPORE applied. -/
def appUpdSpore (addr : Nat) (c : Ctx) (s : State) : Applied :=
  match readHost c.mem addr 4160 with
  | some b => { s := s.modUpd fun u => u.takeSpore b }
  | none => { s := s }

/-- UPD_SPORE as a request of its own. -/
def execUpdSpore (h : ReqHdr) (mem : HostMem) (addr : Nat) (s : State) : Host.Outcome State Fault Refusal := .next <|
  runOne h mem 0xc2 (.updSpore addr) s (chkUpdSpore addr) (appUpdSpore addr)

/-- The checks of UPD_ABORT. -/
def chkUpdAbort (c : Ctx) (s : State) : List Ck := c.pf ++ [ckCond (s.upd.state == 7) St.slotBusy]

/-- UPD_ABORT applied: IDLE, with the staging slot left as it is. -/
def appUpdAbort (_ : Ctx) (s : State) : Applied := { s := if s.upd.state = 0 then s else s.updIdle }

/-- UPD_ABORT as a request of its own. -/
def execUpdAbort (h : ReqHdr) (mem : HostMem) (s : State) : Host.Outcome State Fault Refusal := .next <|
  runOne h mem 0xc3 .updAbort s chkUpdAbort appUpdAbort

/-- The checks of UPD_ACTIVATE (R513, Table UPD-8). -/
def chkUpdActivate (a : Nat) (c : Ctx) (s : State) : List Ck :=
  c.pf ++ [ckAbsent (s.upd.state != 4 && decide (s.upd.state < 6)), ckCond (decide (6 ≤ s.upd.state)) St.slotBusy,
    ⟨9, !(decide (c.eff + 160000 ≤ a) && decide (a ≤ c.eff + 16000000)), St.schedule, 0⟩]

/-- UPD_ACTIVATE applied. -/
def appUpdActivate (a : Nat) (_ : Ctx) (s : State) : Applied :=
  { s := (s.modUpd fun u => { u with actTick := a, loaded := false }).updState 6 }

/-- UPD_ACTIVATE as a request of its own. -/
def execUpdActivate (h : ReqHdr) (mem : HostMem) (a : Nat) (s : State) : Host.Outcome State Fault Refusal := .next <|
  runOne h mem 0xc4 (.updActivate a) s (chkUpdActivate a) (appUpdActivate a)

/-- The slot and the TOTAL that a relay sends: SOURCE 0 the staging slot, 1 the committed slot. -/
def State.relaySource (s : State) (source : Nat) : Nat × Nat :=
  let u := s.upd
  if source = 0 then (u.staging, u.total) else (u.active, fieldAt (s.manifest u.active) 16 4 / 4096)

/-- A relay runs on frond `f`: Spores of it wait to be sent. -/
def State.relaying (s : State) (f : Nat) : Bool := (s.frond f).slf.gccFw.any fun g => g.typ == 2

/-- The checks of UPD_RELAY. -/
def chkUpdRelay (f source first : Nat) (c : Ctx) (s : State) : List Ck :=
  c.pf ++ [ckFormat (decide (1 < source) || decide (47 < f)), ckFormat (decide ((s.relaySource source).2 ≤ first)), s.ckFrond f,
    ckAbsent (source == 0 && s.upd.state != 4), ckCond (s.relaying f) St.bankBusy]

/-- Spore `i` of a package of `total` Spores with its body (Table UPD-1). -/
def sporeBytes (pkg i total : Nat) (body : List Byte) : List Byte :=
  let h := [0x47, 0x57, 0x53, 0x50] ++ natLe 8 pkg ++ natLe 4 i ++ natLe 4 total ++ natLe 4 (crc32c body) ++ List.replicate 36 0
  h ++ natLe 4 (crc32c h) ++ body

/-- UPD_RELAY applied: the Spores FIRST..TOTAL - 1 wait as firmware frames of the frond's GCC. A stopped line function ends
the relay at once. -/
def appUpdRelay (f source first : Nat) (_ : Ctx) (s : State) : Applied :=
  let (k, total) := s.relaySource source
  let pkg := fieldAt (s.manifest k) 8 8
  let l := (List.range (total - first)).map fun i =>
    ({ typ := 2, payload := sporeBytes pkg (first + i) total (s.upd.page k (first + i)) } : GccFrame)
  { s := if s.lineRun f then s.modSlf f fun x => { x with gccFw := x.gccFw ++ l } else s }

/-- UPD_RELAY as a request of its own. -/
def execUpdRelay (h : ReqHdr) (mem : HostMem) (f source first : Nat) (s : State) : Host.Outcome State Fault Refusal := .next <|
  runOne h mem 0xc5 (.updRelay f source first) s (chkUpdRelay f source first) (appUpdRelay f source first)

/-- The record of Table UPD-10. -/
def State.updStatus (s : State) : List Byte :=
  let u := s.upd
  let run := u.run.getD { mgmt := 0, loop := 0, sec := 0, lo := 0, hi := 0, slot := 0 }
  let m := s.manifest (if u.state = 7 then 1 - u.active else u.staging)
  let st := fun (off : Nat) => if u.state = 4 ∨ u.state = 6 ∨ u.state = 7 then fieldAt m off 2 else 0
  natLe 1 u.state ++ natLe 1 u.reason ++ natLe 1 u.active ++
    natLe 1 ((if u.acceptHost then 1 else 0) + (if u.acceptGcc then 2 else 0) + (if u.fusePending then 4 else 0)) ++
    natLe 8 u.pkg ++ natLe 4 u.total ++ natLe 4 u.received ++ natLe 4 u.firstMissing ++
    natLe 8 (if 6 ≤ u.state then u.actTick else 0) ++ natLe 2 s.fuse.rollback ++ natLe 2 run.sec ++ natLe 2 run.lo ++
    natLe 2 run.hi ++ natLe 2 (st 20) ++ natLe 2 (st 22) ++ natLe 2 (st 24) ++ natLe 2 u.dups ++ natLe 2 u.rejects ++
    List.replicate 14 0

/-- The checks of UPD_STATUS. -/
def chkUpdStatus (buf : Nat) (c : Ctx) (s : State) : List Ck := c.pf ++ [ckAlign buf 64, s.ckBacklog 64]

/-- UPD_STATUS applied: the two counts begin again. -/
def appUpdStatus (buf dn : Nat) (c : Ctx) (s : State) : Applied :=
  (s.modUpd fun u => { u with dups := 0, rejects := 0 }).takeRead c dn buf s.updStatus

/-- UPD_STATUS as a request of its own. -/
def execUpdStatus (h : ReqHdr) (mem : HostMem) (buf : Nat) (s : State) : Host.Outcome State Fault Refusal := .next <|
  runOne h mem 0xc6 (.updStatus buf) s (chkUpdStatus buf) (appUpdStatus buf h.dn)

/-- The checks of SETTINGS_STORE (R519). -/
def chkSettingsStore (copy addr len : Nat) (c : Ctx) (s : State) : List Ck :=
  c.pf ++ [ckFormat (decide (1 < copy) || decide (len < 64) || decide (16777216 < len)), ckAlign addr 64,
    ckCond (decide (6 ≤ s.upd.state)) St.slotBusy, ckCond s.upd.store.isSome St.bankBusy]

/-- SETTINGS_STORE applied: the copy is invalid from here until a store succeeds. -/
def appSettingsStore (copy addr len : Nat) (_ : Ctx) (s : State) : Applied :=
  { s := s.modUpd fun u => { u with store := some ⟨copy, addr, len⟩, copies := Tab.set (fun _ => none) u.copies copy none } }

/-- SETTINGS_STORE as a request of its own. -/
def execSettingsStore (h : ReqHdr) (mem : HostMem) (copy addr len : Nat) (s : State) : Host.Outcome State Fault Refusal := .next <|
  runOne h mem 0xc7 (.settingsStore copy addr len) s (chkSettingsStore copy addr len) (appSettingsStore copy addr len)

/-- SETTINGS_STORE_DONE: the image has been read from host memory `mem` and checked, and when it passed the copy was erased,
programmed and read back; `same`: the read-back matched. -/
def execSettingsStoreDone (mem : HostMem) (same : Bool) (s : State) : Host.Outcome State Fault Refusal := .next <|
  match s.upd.store with
  | none => s
  | some j =>
    let (code, copy) := match readHost mem j.addr j.len with
      | none => (7, none)
      | some b => match parseImage b with
        | none => (3, none)
        | some i =>
          let c := s.imageCode i
          if c = 0 ∧ same = false then (7, none) else (c, if c = 0 then some b else none)
    (s.modUpd fun u => { u with store := none, copies := Tab.set (fun _ => none) u.copies j.copy copy }).raise 0x140a j.copy [.w code]

/-! ### Staging (R508, R509, R511) -/

/-- UPD_ERASE_DONE: the erase of the staging slot is complete. -/
def execUpdEraseDone (s : State) : Host.Outcome State Fault Refusal := .next <|
  if s.upd.state = 1 then (s.modUpd fun u => { u.eraseSlot u.staging with ackTick := s.tick }).updState 2 else s

/-- SPORE_PROGRAMMED: the first Spore of the staging queue has been programmed and read back; `same`: the read-back matched. The
last one starts verification. -/
def execSporeProgrammed (same : Bool) (s : State) : Host.Outcome State Fault Refusal := .next <|
  match s.upd.queue with
  | [] => s
  | (i, body) :: rest =>
    if s.upd.state ≠ 2 then s
    else if !same then s.updReject 9
    else
      let fresh := !s.upd.bitmap.testBit i
      let s := s.modUpd fun u => { u with
        queue := rest
        flash := Tab.set (fun _ => none) u.flash (16384 * u.staging + i) (some body)
        bitmap := u.bitmap ||| 2 ^ i
        received := if fresh then u.received + 1 else u.received
        acks := if fresh then u.acks + 1 else u.acks
        dirty := true }
      if s.upd.received = s.upd.total then
        (s.modUpd fun u => { u with queue := [], ackDue := u.ackFrond.isSome }).updState 3
      else s

/-- SPORE_FRAME: the next SPORE frame received on frond `f` is handled as a host Spore or discarded and counted (R511). -/
def execSporeFrame (f : Fin 48) (s : State) : Host.Outcome State Fault Refusal := .next <|
  let f := f.val
  let l := (s.frond f).slf.gccFwRx
  match l.find? fun g => g.typ == 2 with
  | none => s
  | some g =>
    let s := s.modSlf f fun x => { x with gccFwRx := l.eraseP fun g => g.typ == 2 }
    let u := s.upd
    let b := g.payload
    let src := 1 + 2 ^ 8 * f
    let reject := fun (r : Nat) => s.sporeReject r (if b.length = 4160 then fieldAt b 12 4 else 0) src
    if u.acceptGcc = false then reject 1
    else if b.length ≠ 4160 then reject 7
    else match sporeOwn b with
      | some r => reject r
      | none =>
        if u.state ≠ 2 then reject 1
        else if u.otherPackage b then reject 4
        else if !u.bitmap.testBit (fieldAt b 12 4) && decide (64 ≤ u.queue.length) then reject 6
        else s.modUpd fun u => { u.takeSpore b with ackFrond := some f }

/-- The payload of SPORE_ACK. -/
def UpdSt.ack (u : UpdSt) : List Byte :=
  natLe 8 u.pkg ++ natLe 4 u.total ++ natLe 4 u.received ++ natLe 4 u.firstMissing ++ natLe 1 u.state ++ [0, 0, 0]

/-- SPORE_ACK_SEND: every 160,000 ticks and after every 256 newly received Spores while RECEIVING, and at entry into
VERIFYING, on the frond that last brought an accepted Spore. -/
def execSporeAckSend (s : State) : Host.Outcome State Fault Refusal := .next <|
  let u := s.upd
  match u.ackFrond with
  | none => s
  | some f =>
    let due := u.ackDue || (u.state == 2 && (decide (u.ackTick + 160000 ≤ s.tick) || decide (256 ≤ u.acks)))
    if !due then s
    else
      let s := s.modUpd fun u => { u with ackTick := s.tick, acks := if u.acks < 256 then u.acks else u.acks - 256, ackDue := false }
      if s.lineRun f then s.modSlf f fun x => { x with gccFw := ⟨3, u.ack⟩ :: x.gccFw } else s

/-- SPORE_ACK: the next SPORE_ACK received on frond `f` raises UPD_PEER_ACK, at most once per 160 ticks. -/
def execSporeAck (f : Fin 48) (s : State) : Host.Outcome State Fault Refusal := .next <|
  let f := f.val
  let l := (s.frond f).slf.gccFwRx
  match l.find? fun g => g.typ == 3 with
  | none => s
  | some g =>
    let s := s.modSlf f fun x => { x with gccFwRx := l.eraseP fun g => g.typ == 3 }
    if g.payload.length ≠ 24 ∨ ((Tab.get (fun _ => none) s.upd.peerTick f).any fun t => decide (s.tick < t + 160)) = true then s
    else (s.modUpd fun u => { u with peerTick := Tab.set (fun _ => none) u.peerTick f (some s.tick) }).raise 0x1403 f [.raw g.payload]

/-- UPD_VERIFY_DONE: the checks of R512 on the staging slot have ended. -/
def execUpdVerifyDone (s : State) : Host.Outcome State Fault Refusal := .next <|
  if s.upd.state ≠ 3 then s
  else match s.verifyReason s.upd.staging with
    | some r => s.updReject r
    | none => s.updState 4

/-! ### Activation (R513..R516) -/

/-- PRELOAD_DONE: every processor has loaded its part; `bad`: a part whose digest does not match cancels the activation. Check
6 of Table SEC-3 is applied again. -/
def execPreloadDone (bad : Option (Fin 6)) (s : State) : Host.Outcome State Fault Refusal := .next <|
  if s.upd.state ≠ 6 then s
  else match bad with
    | some p => (s.updReject 7).raise 0x1404 (p.val + 1)
    | none =>
      if fieldAt (s.manifest s.upd.staging) 20 2 < s.fuse.rollback then (s.updReject 6).raise 0x1404 0
      else s.modUpd fun u => { u with loaded := true }

/-- At the boundary of A, every processor changes to its new part together (R514). -/
def State.fwSwitch (s : State) : State :=
  let u := s.upd
  if u.state = 6 ∧ u.loaded ∧ u.actTick ≤ s.tick then
    let s := s.calResetAll
    let s := s.modUpd fun u => { u with
      prev := u.run, run := some (firmwareOf (s.manifest u.staging) u.staging), passed := [], outcome := none, loaded := false }
    (s.updState 7).fwRegs
  else s

/-- FW_ACTIVATION_SWITCH. -/
def execFwActivationSwitch (s : State) : Host.Outcome State Fault Refusal := .next s.fwSwitch

/-- SELF_CHECK_REPORT of a part: the boundary that ends this tick commits after the last pass, and reverts after a failure. -/
def execSelfCheckReport (p : Fin 6) (pass : Bool) (s : State) : Host.Outcome State Fault Refusal := .next <|
  if s.upd.state ≠ 7 then s
  else if pass then s.modUpd fun u =>
    let l := if u.passed.contains (p.val + 1) then u.passed else u.passed ++ [p.val + 1]
    { u with passed := l, outcome := if l.length = 6 then some 0 else u.outcome }
  else s.modUpd fun u => { u with outcome := if u.outcome.any (fun o => decide (o < 0x90)) then u.outcome else some (0x80 + p.val + 1) }

/-- TRIAL_TIMEOUT: some part has not passed by the end of tick A + 1,599,999; the trial reverts at the next boundary. -/
def execTrialTimeout (s : State) : Host.Outcome State Fault Refusal := .next <|
  let u := s.upd
  if u.state = 7 ∧ u.actTick + 1599999 ≤ s.tick ∧ u.outcome = none then
    match ((List.range 6).map (· + 1)).find? fun p => !u.passed.contains p with
    | some p => s.modUpd fun u => { u with outcome := some (0x90 + p) }
    | none => s
  else s

/-- A settings copy whose SCHEMA the committed firmware does not accept (R518). -/
def Firmware.refuses (f : Firmware) (b : List Byte) : Bool :=
  (parseImage b).any fun i => decide (i.schema < f.lo) || decide (f.hi < i.schema)

/-- SETTINGS_RESET: the copies that the committed firmware does not accept are erased. -/
def State.settingsReset (s : State) : State :=
  match s.upd.run with
  | none => s
  | some f =>
    let gone := [0, 1].filter fun k => (Tab.get (fun _ => none) s.upd.copies k).any f.refuses
    if gone.isEmpty then s
    else (s.modUpd fun u => { u with
      copies := gone.foldl (fun t k => Tab.set (fun _ => none) t k none) u.copies }).raise 0x1409 0 [.w (gone.map (2 ^ ·)).sum]

/-- The boundary that ends a trial (R515): commit or revert. -/
def State.trialStep (s : State) : State :=
  if s.upd.state ≠ 7 then s
  else match s.upd.outcome with
    | none => s
    | some 0 =>
      let k := s.upd.staging
      let s := s.modUpd fun u => { u with active := k, fusePending := true, prev := none, outcome := none }
      let s := ((s.updIdle).bumpLife 13).raise 0x1405 k [.w ((s.upd.run.map Firmware.sec).getD 0)]
      s.settingsReset.fwRegs
    | some r =>
      let s := s.modUpd fun u => { u with run := u.prev, prev := none, reason := r, outcome := none }
      ((s.updState 4).raise 0x1406 0 [.w r]).fwRegs

/-- One fuse of the anti-rollback count after another, then the revoke fuses (R517). -/
def State.blowFuses (s : State) : State :=
  if !s.upd.fusePending then s
  else
    let m := s.manifest s.upd.active
    let sec := fieldAt m 20 2
    let n := min sec 128
    let s := (List.range n).foldl (fun s i =>
      if s.fuse.rollback = i then { s with fuse := { s.fuse with rollback := i + 1 } }.raise 0x1407 0 [.w 0, .w (i + 1)] else s) s
    let s := (List.range 2).foldl (fun s k =>
      if fieldAt m 7 1 / 2 ^ k % 2 = 1 ∧ s.fuse.revoked / 2 ^ k % 2 = 0 then
        { s with fuse := { s.fuse with revoked := s.fuse.revoked + 2 ^ k } }.raise 0x1407 0 [.w 1, .w k]
      else s) s
    let s := if 128 < sec then s.raise 0x1408 0 [.w sec] else s
    ((s.modUpd fun u => { u with fusePending := false }).commitUpd).fwRegs

/-- FUSE_PROGRAMMING after a commit. -/
def execFuseProgramming (s : State) : Host.Outcome State Fault Refusal := .next s.blowFuses

/-- What a reset leaves of an update (R508, R516): the state that Peat holds, an activation reverted, FW_REVERTED to be raised
at release. -/
def State.updAfterReset (s : State) : State :=
  let s := s.loadUpd
  if s.upd.state = 6 ∨ s.upd.state = 7 then
    let r := if s.upd.state = 7 then 0xa0 else s.upd.reason
    let s := (s.modUpd fun u => { u with state := 4, reason := r }).commitUpd
    { s with boot := { s.boot with reverted := true } }
  else s

end Sys2Proof.Machine
end

