-- ==== Sys2Proof/Machine/MemInt.lean ====
section
/-! DEFINITION. The scrubber and the range pass (R555..R563): confirmation reads, write-backs, fencing and what follows from it
in each memory. -/
namespace Sys2Proof.Machine

/-! ### Where the scrubber is -/

/-- The SECDED memories in scrub order with the bytes before each (Table MEM-1). -/
def scrubOrder : List (Nat × Nat) :=
  [(0x10, 0), (0x11, 4194304), (0x12, 4456448), (0x13, 21233664), (0x14, 22282240), (0x15, 23855104), (0x16, 23887872),
   (0x17, 24150016)]

/-- The bytes of a background pass. -/
def scrubTotal : Nat := 24936448

/-- The place of a byte in the background pass. -/
def scrubPos (k : Nat) : Nat :=
  match scrubOrder.find? fun q => q.1 == k / 2 ^ 32 with
  | none => scrubTotal
  | some (m, b) => b + (if m = 0x17 then 16384 * (k / 2 ^ 26 % 64) + k % 2 ^ 26 else k % 2 ^ 32)

/-- The place of a byte in a range pass. -/
def State.passPos (s : State) (p : MemPassSt) (k : Nat) : Option Nat :=
  if k / 2 ^ 32 ≠ p.memory then none
  else if p.memory ≠ 0x17 then (if p.first ≤ k % 2 ^ 32 ∧ k % 2 ^ 32 < p.first + p.len then some (k % 2 ^ 32 - p.first) else none)
  else
    let f := k / 2 ^ 26 % 64
    let o := k % 2 ^ 26
    if o < p.first ∨ p.first + p.len ≤ o then none
    else match p.frond with
      | some g => if f = g then some (o - p.first) else none
      | none => if s.frondEnabled f then some (p.len * f + (o - p.first)) else none

/-- The bytes of a range pass. -/
def State.passTotal (s : State) (p : MemPassSt) : Nat :=
  if p.memory = 0x17 ∧ p.frond = none then p.len * s.frondCount else p.len

/-! ### Fencing (R556, Tables MEM-1 and MEM-2) -/

/-- The tenant that owns the object of a byte. -/
def State.memOwner (s : State) (k : Nat) : Option Nat :=
  let off := k % 2 ^ 32
  let ep := fun (e : Nat) => if (s.ep e).entry.kind = 0 then none else some (s.ep e).entry.tenant
  let sa := fun (i : Nat) => if (s.sa i).state = 0 then none else some (s.sa i).tenant
  match k / 2 ^ 32 with
  | 0x10 => ep (off / 32)
  | 0x11 =>
    match Tab.get (fun _ => 0) s.slotOwner (Config.tableObject off) with
    | 0 => none
    | e + 1 => ep e
  | 0x12 => ep (off / 128)
  | 0x13 => sa (off / 64)
  | 0x14 => sa (off / 96)
  | 0x15 => some (off / 32)
  | _ => none

/-- The other copy of the word of a frond table byte. The two copies are the two halves of the instance. -/
def otherCopy (k : Nat) : Nat := if k % 2 ^ 26 < 8192 then k / 4 * 4 + 8192 else k / 4 * 4 - 8192

/-- Some byte of the word at key `w` is uncorrectable. -/
def State.wordBad (s : State) (w : Nat) : Bool := (List.range 4).any fun i => decide (2 ≤ bitCount (s.flip (w + i)))

/-- What a confirmed uncorrectable byte does to its object beside the fence: PM counts (Table PM-3), keys (R304), KEKs (R356), a
frond whose two copies of a word are lost (Table MEM-2). -/
def State.ueConsequence (s : State) (k : Nat) : State :=
  let off := k % 2 ^ 32
  match k / 2 ^ 32 with
  | 0x12 => s.pmZero (off / 128)
  | 0x14 => s.keyErase (off / 96) (off % 96 / 48)
  | 0x15 => s.eraseKek (off / 32) 2
  | 0x17 => if s.wordBad (otherCopy k) then s.stopLine (k / 2 ^ 26 % 64) else s
  | _ => s

/-- A confirmed uncorrectable byte. -/
def State.confirmedUe (s : State) (k : Nat) : State :=
  if s.mem.fence.contains k then s else (s.fenceByte k (s.memOwner k)).ueConsequence k

/-- A correctable byte is written back, and counts in CE_SCRUB. -/
def State.writeBack (s : State) (k : Nat) : State :=
  ((s.modMem fun m => { m with flips := Tab.set (fun _ => 0) m.flips k 0 }).bump R.MEM_CE_CE_SCRUB 1).memLast k 1

/-- The scrubber reads a byte: written back, fenced, or clean. Three flipped bits or more are taken as uncorrectable. -/
def State.scrubByte (s : State) (k : Nat) : State :=
  match bitCount (s.flip k) with
  | 0 => s
  | 1 => s.writeBack k
  | _ => s.confirmedUe k

/-- The wrong bytes, in scrub order. -/
def State.wrongBytes (s : State) : List Nat := s.mem.flips.map Prod.fst

/-- SCRUB_TICK: the scrubber's work of one tick; `upsets`: bits that have flipped since, by their byte (memory, frond, offset) and
13-bit mask. A range pass goes first; else the background pass, when SCRUB_EN is 1 and no confirmation read is due. -/
def execScrubTick (upsets : List (Nat × Nat × Nat × Nat)) (s : State) : Host.Outcome State Fault Refusal := .next <|
  let s := upsets.foldl (fun s (m, f, o, mask) =>
    if (memSize m).any (fun n => decide (o < n)) then s.upset (memKey m f o) mask else s) s
  match s.mem.pass with
  | some p =>
    let hi := min (s.passTotal p) (p.done + 16384)
    let l := s.wrongBytes.filter fun k => (s.passPos p k).any fun x => decide (p.done ≤ x) && decide (x < hi)
    let ce := (l.filter fun k => bitCount (s.flip k) == 1).length
    let ue := l.filter fun k => decide (2 ≤ bitCount (s.flip k))
    let s := l.foldl State.scrubByte s
    let first := if p.firstUe = 0xffffffff then (ue.head?.map fun k => if perFrond (k / 2 ^ 32) then k % 2 ^ 26 else k % 2 ^ 32).getD p.firstUe
      else p.firstUe
    s.modMem fun m => { m with pass := some { p with
      done := hi, corrected := p.corrected + ce, uncorrected := p.uncorrected + ue.length, firstUe := first
      fenceFull := p.fenceFull || s.flag R.MEM_STAT_FENCE_FULL } }
  | none =>
    if !s.flag R.MEM_CTL_SCRUB_EN || (s.mem.confirm.any fun c => decide (c.2 < s.tick)) then s
    else
      let lo := s.mem.scrub
      let l := s.wrongBytes.filter fun k => decide (lo ≤ scrubPos k) && decide (scrubPos k < lo + 16384)
      let s := l.foldl State.scrubByte s
      s.modMem fun m => { m with scrub := if scrubTotal ≤ lo + 16384 then 0 else lo + 16384 }

/-- CONFIRMATION_READ: the scrubber re-reads the first byte handed to it in an earlier tick (R555). -/
def execConfirmationRead (s : State) : Host.Outcome State Fault Refusal := .next <|
  match s.mem.confirm.find? fun c => decide (c.2 < s.tick) with
  | none => s
  | some c => (s.modMem fun m => { m with confirm := m.confirm.erase c }).scrubByte c.1

/-- The fenced copies of frond tables are rewritten from the other copy at the next tick boundary. -/
def State.memBoundary (s : State) : State :=
  (s.mem.fence.filter fun k => k / 2 ^ 32 == 0x17 && !s.wordBad (otherCopy k)).foldl (fun s k =>
    s.memWrite 0x17 (k / 2 ^ 26 % 64) (k % 2 ^ 26) 1) s

/-! ### The range pass (R562) -/

/-- The memory named is not SECDED, or the range is wrong. -/
def passBad (memory frond off len : Nat) : Bool :=
  match memSize memory with
  | none => true
  | some n => decide (off % 4 ≠ 0) || decide (len % 4 ≠ 0) || decide (n < off + len) ||
      (memory == 0x17 && decide (48 ≤ frond) && frond != 0xff)

/-- A frond table of a frond that is not enabled. -/
def State.ckMemFrond (s : State) (memory frond : Nat) : Ck :=
  ckAbsent (memory == 0x17 && frond != 0xff && !s.frondEnabled frond)

/-- The checks of MEM_PASS. -/
def chkMemPass (memory frond off len buf : Nat) (c : Ctx) (s : State) : List Ck :=
  c.pf ++ [ckFormat (passBad memory frond off len), ckAlign buf 64, s.ckMemFrond memory frond, ckCond s.mem.pass.isSome St.bankBusy]

/-- MEM_PASS applied. -/
def appMemPass (memory frond off len buf : Nat) (c : Ctx) (s : State) : Applied :=
  { s := (s.modMem fun m => { m with pass := some {
      memory := memory, frond := if frond = 0xff then none else some frond, first := off, len := len, buf := buf, fn := c.src.fn
      ring := 0, start := s.tick } }).wrB R.MEM_STAT_PASS_BUSY true }

/-- MEM_PASS as a request of its own. -/
def execMemPass (h : ReqHdr) (mem : HostMem) (memory frond off len buf : Nat) (s : State) :
    Host.Outcome State Fault Refusal := .next <|
  runOne h mem 0xa0 (.memPass memory frond off len buf) s (chkMemPass memory frond off len buf) (appMemPass memory frond off len buf)

/-- The summary of a range pass (Table MEM-4). -/
def State.passSummary (s : State) (p : MemPassSt) : List Byte :=
  natLe 1 p.memory ++ natLe 1 (if p.fenceFull then 1 else 0) ++ [0, 0] ++ natLe 4 p.corrected ++ natLe 4 p.uncorrected ++
    natLe 4 p.firstUe ++ natLe 8 p.start ++ natLe 8 s.tick

/-- MEM_PASS_DONE: a range pass that has read its whole range ends. -/
def execMemPassDone (s : State) : Host.Outcome State Fault Refusal := .next <|
  match s.mem.pass with
  | none => s
  | some p =>
    if p.done < s.passTotal p then s
    else
      let s := (s.modMem fun m => { m with pass := none }).wrB R.MEM_STAT_PASS_BUSY false
      let s := s.hostWrite p.fn (.data p.fn p.buf (s.passSummary p))
      s.raise 0x1705 0 [.w p.memory, .w p.uncorrected]

/-! ### MEM_INJECT (R563) -/

/-- The checks of MEM_INJECT. -/
def chkMemInject (memory frond flip off : Nat) (c : Ctx) (s : State) : List Ck :=
  c.pf ++ [ckFormat ((memSize memory).all (fun n => decide (n ≤ off)) || bitCount flip == 0 || decide (2 < bitCount flip) ||
      decide (2 ^ 13 ≤ flip) || (memory == 0x17 && decide (48 ≤ frond))),
    s.ckMemFrond memory frond, ⟨8, memory == 0x14 || memory == 0x15, St.ownership, 0⟩]

/-- MEM_INJECT applied. -/
def appMemInject (memory frond flip off : Nat) (_ : Ctx) (s : State) : Applied := { s := s.upset (memKey memory frond off) flip }

/-- MEM_INJECT as a request of its own. -/
def execMemInject (h : ReqHdr) (mem : HostMem) (memory frond flip off : Nat) (s : State) :
    Host.Outcome State Fault Refusal := .next <|
  runOne h mem 0xa1 (.memInject memory frond flip off) s (chkMemInject memory frond flip off) (appMemInject memory frond flip off)

end Sys2Proof.Machine
end

