-- ==== Sys2Proof/Machine/FaultReq.lean ====
section
/-! DEFINITION. The fault descriptors (Table FLT-7). -/
namespace Sys2Proof.Machine

/-- With every collector lost, FLT_ descriptors draw ABSENT (R577). -/
def State.ckCollector (s : State) : Ck := ckAbsent (s.flag R.FLT_STAT_LOST_ALL)

/-- An FLT_REACT that R578 refuses. -/
def reactBad (kind action : Nat) : Bool :=
  match kindRow kind with
  | none => true
  | some r => r.fixed || decide (action < r.least) || decide (3 < action)

/-- The checks of FLT_REACT. -/
def chkFltReact (kind action : Nat) (c : Ctx) (s : State) : List Ck := c.pf ++ [ckFormat (reactBad kind action), s.ckCollector]

/-- FLT_REACT applied. -/
def appFltReact (kind action : Nat) (alert : Bool) (_ : Ctx) (s : State) : Applied :=
  { s := s.modFlt fun x => { x with react := Tab.set resetReact x.react kind ⟨action, alert⟩ } }

/-- FLT_REACT as a request of its own. -/
def execFltReact (h : ReqHdr) (mem : HostMem) (kind action : Nat) (alert : Bool) (s : State) :
    Host.Outcome State Fault Refusal := .next <|
  runOne h mem 0xb0 (.fltReact kind action alert) s (chkFltReact kind action) (appFltReact kind action alert)

/-- The checks of FLT_CLEAR: CLEAR_SAFE against a blocking condition in the safe state is refused whole (R572). -/
def chkFltClear (safe : Bool) (c : Ctx) (s : State) : List Ck :=
  c.pf ++ [s.ckCollector, ckCond (safe && s.flag R.FLT_STAT_SAFE && s.blocking) St.slotBusy]

/-- CLEAR_ALERT: every latch clears; one whose message arrived in this tick is set again (R574). -/
def State.clearAlert (s : State) : State :=
  let again := (s.flt.log.filterMap fun q => q.2).filter fun q => q.2.tick == s.tick && !q.2.clear && (s.reaction q.2.kind).alert
  let s := (List.range 4).foldl (fun s k => s.wr (R.FLT_LATCH_LATCH k) 0) s
  again.foldl (fun s q => s.latchAlert q.2.kind) s

/-- CLEAR_FIRST: the record is emptied; a message of this tick is not pinned (R576). -/
def State.clearFirst (s : State) : State :=
  ((s.modFlt fun x => { x with pinned := none, pinClearTick := some s.tick }).wrB R.FLT_STAT_FIRST_VALID false).storePin

/-- CLEAR_SAFE: the safe state ends right after step 3. -/
def State.clearSafe (s : State) : State :=
  if s.flag R.FLT_STAT_SAFE && !s.blocking then
    let s := ((s.exitSafe).raise 0x1804 0).driveFaultN
    s.frondIds.foldl State.squelchUpdate s
  else s

/-- FLT_CLEAR applied. -/
def appFltClear (alert first safe : Bool) (_ : Ctx) (s : State) : Applied :=
  let s := if alert then s.clearAlert else s
  let s := if first then s.clearFirst else s
  { s := if safe then s.clearSafe else s }

/-- FLT_CLEAR as a request of its own, with CLEAR_ALERT. -/
def execFltClearAlert (h : ReqHdr) (mem : HostMem) (s : State) : Host.Outcome State Fault Refusal := .next <|
  runOne h mem 0xb1 (.fltClear true false false) s (chkFltClear false) (appFltClear true false false)

/-- FLT_CLEAR as a request of its own, with CLEAR_FIRST. -/
def execFltClearFirst (h : ReqHdr) (mem : HostMem) (s : State) : Host.Outcome State Fault Refusal := .next <|
  runOne h mem 0xb1 (.fltClear false true false) s (chkFltClear false) (appFltClear false true false)

/-- FLT_CLEAR as a request of its own, with CLEAR_SAFE. -/
def execFltClearSafe (h : ReqHdr) (mem : HostMem) (s : State) : Host.Outcome State Fault Refusal := .next <|
  runOne h mem 0xb1 (.fltClear false false true) s (chkFltClear true) (appFltClear false false true)

/-- The checks of FLT_LOG_READ. -/
def chkFltLogRead (count buf : Nat) (c : Ctx) (s : State) : List Ck :=
  c.pf ++ [ckFormat (count == 0 || decide (4096 < count)), ckAlign buf 64, s.ckCollector, s.ckBacklog (16 * count)]

/-- A log entry by message number: 16 zero bytes when it has been overwritten or not yet written. -/
def State.logEntry (s : State) (n : Nat) : List Byte :=
  match Tab.get (fun _ => none) s.flt.log (n % 4096) with
  | some (k, m) => if k = n % 2 ^ 32 then m.bytes else List.replicate 16 0
  | none => List.replicate 16 0

/-- FLT_LOG_READ applied. -/
def appFltLogRead (first count buf dn : Nat) (c : Ctx) (s : State) : Applied :=
  s.takeRead c dn buf ((List.range count).flatMap fun i => s.logEntry (first + i))

/-- FLT_LOG_READ as a request of its own. -/
def execFltLogRead (h : ReqHdr) (mem : HostMem) (first count buf : Nat) (s : State) : Host.Outcome State Fault Refusal := .next <|
  runOne h mem 0xb2 (.fltLogRead first count buf) s (chkFltLogRead count buf) (appFltLogRead first count buf h.dn)

/-- The checks of FLT_FIRST_READ. -/
def chkFltFirstRead (buf : Nat) (c : Ctx) (s : State) : List Ck := c.pf ++ [ckAlign buf 64, s.ckCollector, s.ckBacklog 64]

/-- The pinned record as the host reads it; an empty record is 0 but for its CRC. -/
def State.pinRead (s : State) : List Byte := pinBytes s.flt.pinned ((s.flt.pinned.map Pinned.pseq).getD 0)

/-- FLT_FIRST_READ applied. -/
def appFltFirstRead (buf dn : Nat) (c : Ctx) (s : State) : Applied := s.takeRead c dn buf s.pinRead

/-- FLT_FIRST_READ as a request of its own. -/
def execFltFirstRead (h : ReqHdr) (mem : HostMem) (buf : Nat) (s : State) : Host.Outcome State Fault Refusal := .next <|
  runOne h mem 0xb3 (.fltFirstRead buf) s (chkFltFirstRead buf) (appFltFirstRead buf h.dn)

/-- The checks of FLT_INJECT. -/
def chkFltInject (sev : Nat) (c : Ctx) (s : State) : List Ck := c.pf ++ [ckFormat (decide (7 < sev)), s.ckCollector]

/-- FLT_INJECT applied: a TEST message. The spec does not give its SOURCE, which is left open (assumption 1). -/
def appFltInject (sev addr : Nat) (_ : Ctx) (s : State) : Applied :=
  let (v, s) := s.fresh
  { s := s.sendFault ⟨v % 4096, 0xfe, sev, false, addr % 2 ^ 40, s.tick⟩ }

/-- FLT_INJECT as a request of its own. -/
def execFltInject (h : ReqHdr) (mem : HostMem) (sev addr : Nat) (s : State) : Host.Outcome State Fault Refusal := .next <|
  runOne h mem 0xb4 (.fltInject sev addr) s (chkFltInject sev) (appFltInject sev addr)

/-- The checks of FLT_SETUP. -/
def chkFltSetup (evSev : Nat) (c : Ctx) (s : State) : List Ck := c.pf ++ [ckFormat (decide (7 < evSev)), s.ckCollector]

/-- FLT_SETUP applied. -/
def appFltSetup (evSev : Nat) (_ : Ctx) (s : State) : Applied := { s := s.modFlt fun x => { x with evSev := evSev } }

/-- FLT_SETUP as a request of its own. -/
def execFltSetup (h : ReqHdr) (mem : HostMem) (evSev : Nat) (s : State) : Host.Outcome State Fault Refusal := .next <|
  runOne h mem 0xb5 (.fltSetup evSev) s (chkFltSetup evSev) (appFltSetup evSev)

end Sys2Proof.Machine
end

