-- ==== Sys2Proof/Machine/Mesh.lean ====
section
/-! DEFINITION. The Rhizome mesh (chapter 17): lanes and alignment, HELLO, the database, addresses, routes, forwarding,
signalling, and its descriptors. -/
namespace Sys2Proof.Machine

/-! ### Lanes and alignment (R413..R416) -/

/-- Lane `l` of port `p`. -/
def State.mlane (s : State) (p l : Nat) : MeshLane := Tab.get (fun _ => {}) (s.mport p).lanes l

/-- Writes a lane. -/
def State.setMlane (s : State) (p l : Nat) (x : MeshLane) : State :=
  s.setMport p { s.mport p with lanes := Tab.set (fun _ => {}) (s.mport p).lanes l x }

/-- Lane `l` of port `p` is block-locked. -/
def State.mlocked (s : State) (p l : Nat) : Bool := s.rd (R.MSH_PORT_STAT_BLOCK_LOCK p) / 2 ^ l % 2 == 1

/-- Port `p` is aligned. -/
def State.maligned (s : State) (p : Nat) : Bool := s.flag (R.MSH_PORT_STAT_ALIGNED p)

/-- A sample of `f` in a bit of a field. -/
def State.wrBit (s : State) (f : Fld) (l : Nat) (b : Bool) : State :=
  s.wr f (s.rd f - s.rd f / 2 ^ l % 2 * 2 ^ l + (if b then 2 ^ l else 0))

/-! ### The own LSA (R428) -/

/-- The database entry of address `a`. -/
def State.dbEntry (s : State) (a : Nat) : Option LsaRec := Tab.get (fun _ => none) s.mesh.db a

/-- Changes the database entry of `a`: HELD follows, and routes are to be computed (R429). -/
def State.setDb (s : State) (a : Nat) (e : Option LsaRec) : State :=
  let s := s.modMesh fun m => { m with db := Tab.set (fun _ => none) m.db a e, dbChanged := true }
  s.wr R.MSH_STAT_HELD s.mesh.db.length

/-- The payload of an LSA (Table MSH-2). -/
def lsaPayload (a : Nat) (e : LsaRec) : List Byte :=
  natBe 2 a ++ natBe 8 e.uid ++ natBe 4 e.seq ++ natBe 8 e.epoch ++ natBe 1 e.flags ++ e.nbrs.flatMap (natBe 2)

/-- The addresses of the UP neighbours, port by port, 0 for none. -/
def State.nbrList (s : State) : List Nat :=
  (List.range 6).map fun p => if s.meshUp p then s.rd (R.MSH_PORT_STAT_NBR_ADDR p) else 0

/-- The own LSA as its fields stand. -/
def State.ownLsa (s : State) (seq flags : Nat) : LsaRec :=
  { uid := s.fuse.uid, seq := seq, epoch := s.peat.epoch, flags := flags + (if s.meshState = 3 then 2 else 0)
    nbrs := s.nbrList, tick := s.tick }

/-- The next SEQ: one later than the own LSA last known. An entry that a former life of the module left in the node is
continued. -/
def State.nextLsaSeq (s : State) : Nat :=
  match s.dbEntry s.meshAddr with
  | some e => if e.uid = s.fuse.uid then (e.seq + 1) % 2 ^ 32 else (s.mesh.lsaSeq + 1) % 2 ^ 32
  | none => (s.mesh.lsaSeq + 1) % 2 ^ 32

/-- Originates the own LSA. -/
def State.originate (s : State) : State :=
  let a := s.meshAddr
  let e := s.ownLsa s.nextLsaSeq 0
  let s := s.modMesh fun m => { m with
    lsaSeq := e.seq, lsaTick := s.tick, lsaSent := some (lsaPayload a { e with seq := 0 }) }
  (s.setDb a (some e)).meshFlood 0x03 a (lsaPayload a e) none

/-- A member originates its LSA at every change of its fields. -/
def State.lsaRefresh (s : State) : State :=
  if s.meshMember && s.mesh.lsaSent != some (lsaPayload s.meshAddr { s.ownLsa 0 0 with seq := 0 }) then s.originate else s

/-! ### Claiming an address (R425, R426) -/

/-- Address `a` is free to this module. -/
def State.addrFree (s : State) (a : Nat) : Bool := (s.dbEntry a).all fun e => e.uid == s.fuse.uid

/-- A module with a lower UID is claiming `a`. -/
def State.claimedLower (s : State) (a : Nat) : Bool :=
  (Tab.get (fun _ => none) s.mesh.claims a).any fun c => decide (c.1 < s.fuse.uid) && decide (s.tick < c.2 + 1600)

/-- Floods CLAIM for `a`, in CLAIMING from tick `t`. -/
def State.claim (s : State) (a t : Nat) : State :=
  let s := s.modMesh fun m => { m with
    cand := some (a, t), claims := Tab.set (fun _ => none) m.claims a (some (s.fuse.uid, t)) }
  (s.wr R.MSH_STAT_STATE 1).meshFlood 0x04 0 (natBe 8 s.fuse.uid ++ natBe 2 a) none

/-- A static address is held by another: ISOLATED_CONFLICT. -/
def State.isolateConflict (s : State) (a holder : Nat) : State :=
  ((s.modMesh fun m => { m with cand := none }).wr R.MSH_STAT_STATE 5).raise 0x1004 a [.q holder]

/-- Chooses a candidate at tick `t`. -/
def State.choose (s : State) (t : Nat) : State :=
  let a := s.mesh.addr
  if s.mesh.addrMode = 1 then
    match s.dbEntry a with
    | some e => if e.uid = s.fuse.uid then s.claim a t else s.isolateConflict a e.uid
    | none => s.claim a t
  else
    let ok := fun x => s.addrFree x && !s.claimedLower x
    if a ≠ 0 ∧ ok a then s.claim a t
    else
      match ((List.range 4094).map (· + 1)).find? ok with
      | some x => s.claim x t
      | none =>
        if s.meshState = 4 then s
        else ((s.modMesh fun m => { m with cand := none }).wr R.MSH_STAT_STATE 4).raise 0x1003 s.mesh.db.length

/-- Removes the entry of `a`; an ISOLATED_FULL module chooses again. -/
def State.dropDb (s : State) (a : Nat) : State :=
  if (s.dbEntry a).isSome then
    let s := s.setDb a none
    if s.meshState = 4 then s.choose s.tick else s
  else s

/-- Begins R425: DB_REQ on every UP port, and 3,200 ticks of collecting from the first of them. -/
def State.beginClaim (s : State) : State :=
  let up := s.upPorts
  let s := s.modMesh fun m => { m with started := true, cand := none, collect := if up = [] then none else some s.tick }
  up.foldl (fun s p => s.meshLink p 0x02 2 []) s

/-- Gives up the address held, and floods the withdrawal (R428). -/
def State.withdraw (s : State) : State :=
  let a := s.meshAddr
  let e := s.ownLsa s.nextLsaSeq 0x80
  let s := s.modMesh fun m => { m with lsaSeq := e.seq, lsaSent := none, routes := [] }
  ((s.meshFlood 0x03 a (lsaPayload a e) none).wr R.MSH_STAT_ADDR 0).wr R.MSH_STAT_STATE 0

/-! ### UP and down (R418) -/

/-- The conditions of R418 at the end of this tick. -/
def State.upNow (s : State) (p : Nat) : Bool :=
  let x := s.mport p
  s.flag (R.MSH_PORT_STAT_ENABLED p) && s.maligned p && x.helloTick.any (fun t => decide (s.tick ≤ t + 2560)) &&
    x.flags % 2 == 1 && x.uidTick != some s.tick

/-- The module waits in CONFIG for an image over the Rhizome (R477). -/
def State.meshBooting (s : State) : Bool := s.rd R.RST_BOOT_STAT_PHASE == 3 && s.rd R.RST_STRAP_BOOT_SRC == 2

/-- UP follows its conditions. A port that comes UP while the module waits for an image sends CFG_REQ (R477). A port that comes UP sends DB_REQ once claiming has begun (R425); MESH_LINK. -/
def State.upEval (s : State) (p : Nat) : State :=
  let now := s.upNow p
  if s.meshUp p = now then s
  else
    let s := (s.wrB (R.MSH_PORT_STAT_UP p) now).raise 0x1001 p
      [.w (if now then 1 else 0), .w (s.rd (R.MSH_PORT_STAT_NBR_ADDR p))]
    let s :=
      if now && s.mesh.started then
        (s.modMesh fun m => { m with collect := some (m.collect.getD s.tick) }).meshLink p 0x02 2 []
      else if now && s.meshBooting then s.meshLink p 0x30 3 (natBe 4 0)
      else s
    s.lsaRefresh

/-- A HELLO with another UID held the port out of UP for the last tick only. -/
def State.upAgain (s : State) (p : Nat) : State :=
  if (s.mport p).uidTick.any fun t => decide (t + 1 = s.tick) then s.upEval p else s

/-- Loss of alignment. -/
def State.alignLoss (s : State) (p : Nat) : State :=
  if s.maligned p then
    let s := (s.bump (R.MSH_PORT_ERR_ALIGN_LOSS p) 1).wrB (R.MSH_PORT_STAT_ALIGNED p) false
    (s.setMport p { s.mport p with aMiss := 0 }).upEval p
  else s

/-- One block header of a lane: 64 good ones in a row lock it, 8 bad ones of 64 lose the lock (R415). -/
def State.meshHeader (s : State) (p l : Nat) (good : Bool) : State :=
  let x := s.mlane p l
  if s.mlocked p l then
    let r := x.recent ++ [!good]
    let r := if 64 < r.length then r.drop 1 else r
    if 8 ≤ (r.filter id).length then
      let s := (s.wrBit (R.MSH_PORT_STAT_BLOCK_LOCK p) l false).bump (R.MSH_PORT_ERR_LOCK_LOSS p) 1
      (s.setMlane p l {}).alignLoss p
    else s.setMlane p l { x with recent := r }
  else
    let g := if good then x.good + 1 else 0
    if 64 ≤ g then (s.wrBit (R.MSH_PORT_STAT_BLOCK_LOCK p) l true).setMlane p l { x with good := 0, recent := [] }
    else s.setMlane p l { x with good := g }

/-- Headers of a lane, with its code errors and the state of its clock recovery. -/
def State.meshHeaders (s : State) (p l errs : Nat) (cdr : Bool) (heads : List Bool) : State :=
  let s := (s.bump (R.MSH_PORT_ERR_CODE_ERR p) errs).wrBit (R.MSH_PORT_STAT_CDR_LOCK p) l cdr
  heads.foldl (fun s g => s.meshHeader p l g) s

/-- MESH_BLOCK_LOCK: block headers received on lane `l` of port `p`, with whether each is one of /B/ and /A/. -/
def execMeshBlockLock (p : Fin 6) (l : Fin 4) (errs : Nat) (heads : List Bool) (s : State) : Host.Outcome State Fault Refusal :=
  .next <| s.meshHeaders p.val l.val errs true heads

/-- MESH_BLOCK_LOCK_LOSS: headers of a lane whose signal fails; `cdr`: its clock is still recovered. -/
def execMeshBlockLockLoss (p : Fin 6) (l : Fin 4) (errs : Nat) (cdr : Bool) (heads : List Bool) (s : State) :
    Host.Outcome State Fault Refusal := .next <| s.meshHeaders p.val l.val errs cdr heads

/-- The last two conditions of R416 on one round: the lanes' LANE values, their ALIGN_CNT and their arrival in code
groups. -/
def roundOk (o : List (Nat × Nat × Nat)) : Bool :=
  o.length == 4 && (List.range 4).all (fun k => o.any fun x => x.1 == k) &&
    o.all (fun x => x.2.1 == (o.headD (0, 0, 0)).2.1) && o.all (fun x => o.all fun y => decide (x.2.2 ≤ y.2.2 + 256))

/-- One /A/ round of port `p` (R416). -/
def State.meshRound (s : State) (p : Nat) (o : List (Nat × Nat × Nat)) : State :=
  let s := (List.range 4).foldl (fun s l =>
    let x := s.mlane p l
    if s.mlocked p l && decide (l < o.length) then
      s.setMlane p l { x with lane := (o[l]?).map fun y => y.1, blocks := x.blocks + 1 }
    else s.setMlane p l { x with blocks := 0 }) s
  let ok := roundOk o
  if s.maligned p then
    let m := if ok then 0 else (s.mport p).aMiss + 1
    let s := s.setMport p { s.mport p with aMiss := m }
    if 3 ≤ m then s.alignLoss p else s
  else if ok && (List.range 4).all (fun l => s.mlocked p l && decide (2 ≤ (s.mlane p l).blocks)) then
    let s := s.wr (R.MSH_PORT_STAT_LANE_MAP p) (o.zipIdx.map fun y => y.1.1 * 4 ^ y.2).sum
    (s.wrB (R.MSH_PORT_STAT_ALIGNED p) true).upEval p
  else s

/-- MESH_PORT_ALIGN: the alignment blocks of one round, per physical lane: LANE, ALIGN_CNT, arrival in code groups. -/
def execMeshPortAlign (p : Fin 6) (o : List (Nat × Nat × Nat)) (s : State) : Host.Outcome State Fault Refusal := .next <|
  s.meshRound p.val o

/-- MESH_ALIGN_LOSS: a round that breaks the conditions, or one that comes when a lane is no longer block-locked. -/
def execMeshAlignLoss (p : Fin 6) (o : List (Nat × Nat × Nat)) (s : State) : Host.Outcome State Fault Refusal := .next <|
  if (List.range 4).all (fun l => s.mlocked p.val l) then s.meshRound p.val o else s.alignLoss p.val

/-! ### Receiving (R420) -/

/-- A message as received. -/
structure MeshMsg where
  typ : Nat
  hops : Nat
  dst : Nat
  src : Nat
  mseq : Nat
  payload : List Byte
  deriving DecidableEq, Repr

/-- The types of Table MSH-2. -/
def meshTypes : List Nat := [0x01, 0x02, 0x03, 0x04, 0x05, 0x06, 0x07, 0x08, 0x10, 0x11, 0x12, 0x20, 0x21, 0x30, 0x31]

/-- The class of a type. -/
def meshClass (t : Nat) : Nat :=
  if t = 0x01 ∨ t = 0x05 then 1 else if 0x06 ≤ t ∧ t ≤ 0x08 then 0 else if t = 0x20 ∨ t = 0x30 ∨ t = 0x31 then 3 else 2

/-- The message that octets carry. -/
def meshParse (b : List Byte) : MeshMsg :=
  { typ := beNat (slice b 2 1), hops := beNat (slice b 3 1), dst := beNat (slice b 4 2) % 4096
    src := beNat (slice b 6 2) % 4096, mseq := beNat (slice b 10 2)
    payload := slice b 14 (beNat (slice b 8 2)) }

/-- Counts a discarded message. -/
def State.rxDiscard (s : State) : State := s.bump R.MSH_CNT_RX_DISCARD 1

/-- Octets received on port `p` with `errs` code errors, taken as a message of type `typ`: none when it is discarded or of
another type. -/
def State.meshTake (s : State) (p typ errs : Nat) (b : List Byte) : State × Option MeshMsg :=
  if !s.flag (R.MSH_PORT_STAT_ENABLED p) then (s, none)
  else
    let s := s.bump (R.MSH_PORT_ERR_CODE_ERR p) errs
    let m := meshParse b
    if 0 < errs ∨ beNat (slice b 0 2) ≠ 0xd24b then (s, none)
    else if beNat (slice b 12 2) ≠ crc16 (bitsOfBytes (slice b 0 12)) ∨ 1024 < m.payload.length then
      (s.bump (R.MSH_PORT_MSG_HCRC_ERR p) 1, none)
    else if beNat (slice b (14 + m.payload.length) 4) ≠ crc32c m.payload then (s.bump (R.MSH_PORT_MSG_PCRC_ERR p) 1, none)
    else if !meshTypes.contains m.typ ∨ (m.typ ≠ 0x01 ∧ s.meshUp p = false) then (s.rxDiscard, none)
    else if m.typ = typ then (s, some m)
    else (s, none)

/-- A message of unicast scope, or of broadcast scope when `bcast` allows it: delivered here, forwarded, or dropped (R423). -/
def State.meshRoute (s : State) (p : Nat) (m : MeshMsg) (bcast : Bool) (deliver : State → State) : State :=
  if !s.meshMember then s.rxDiscard
  else
    let again := meshBytes m.typ (m.hops - 1) m.dst m.src m.mseq m.payload
    if m.dst = 0xfff then
      if !bcast then s.rxDiscard
      else if (Tab.get (fun _ => none) s.mesh.routes m.src).map Prod.snd = some p then
        let s := deliver s
        if m.hops ≤ 1 then s
        else ((s.upPorts.filter (· != p)).filter s.nbrMember).foldl (fun s q => s.meshQueue q (meshClass m.typ) again) s
      else s
    else if m.dst = s.meshAddr then deliver s
    else if m.hops ≤ 1 then s.bump R.MSH_CNT_HOP_DROP 1
    else
      match Tab.get (fun _ => none) s.mesh.routes m.dst with
      | some (_, q) => s.meshQueue q (meshClass m.typ) again
      | none => s.noRoute m.dst

/-- A flooded message that changed a record is forwarded on every other UP port (R423). -/
def State.floodOn (s : State) (p : Nat) (m : MeshMsg) : State :=
  if 1 ≤ s.meshState ∧ s.meshState ≤ 3 then
    (s.upPorts.filter (· != p)).foldl (fun s q =>
      s.meshQueue q 2 (meshBytes m.typ m.hops m.dst m.src m.mseq m.payload)) s
  else s

/-! ### HELLO -/

/-- The payload of the HELLO that port `p` sends now. -/
def State.helloPayload (s : State) (p : Nat) : List Byte :=
  natBe 8 s.fuse.uid ++ natBe 2 s.meshAddr ++ natBe 8 s.peat.epoch ++ natBe 1 p ++
    natBe 1 ((if s.maligned p then 1 else 0) + (if s.meshState = 3 then 2 else 0) + (if 4 ≤ s.meshState then 4 else 0))

/-- HELLO_SEND on port `p`: while aligned, every 160 ticks and after a change of a field. -/
def execHelloSend (p : Fin 6) (s : State) : Host.Outcome State Fault Refusal := .next <|
  let b := s.helloPayload p.val
  let x := s.mport p.val
  if s.flag (R.MSH_PORT_STAT_ENABLED p.val) && s.maligned p.val &&
      (x.sentHello != some b || decide (x.sentTick + 160 ≤ s.tick)) then
    (s.setMport p.val { x with sentHello := some b, sentTick := s.tick }).meshLink p.val 0x01 1 b
  else s

/-- HELLO received on port `p`. -/
def execHello (p : Fin 6) (errs : Nat) (b : List Byte) (s : State) : Host.Outcome State Fault Refusal := .next <|
  match s.meshTake p.val 0x01 errs b with
  | (s, none) => s
  | (s, some m) =>
    let uid := beNat (slice m.payload 0 8)
    let x := s.mport p.val
    let s := s.setMport p.val { x with
      uid := some uid
      epoch := beNat (slice m.payload 10 8)
      flags := beNat (slice m.payload 19 1)
      helloTick := some s.tick
      uidTick := if x.uid.any (· != uid) then some s.tick else x.uidTick }
    ((s.wr (R.MSH_PORT_STAT_NBR_ADDR p.val) (beNat (slice m.payload 8 2) % 4096)).upEval p.val).lsaRefresh

/-- MESH_HELLO_TIMEOUT: no HELLO without error for 16 periods. -/
def execMeshHelloTimeout (p : Fin 6) (s : State) : Host.Outcome State Fault Refusal := .next <| s.upEval p.val

/-! ### The database (R421, R427, R428) -/

/-- DB_REQ received on port `p`: every LSA held is sent on it. -/
def execDbReq (p : Fin 6) (errs : Nat) (b : List Byte) (s : State) : Host.Outcome State Fault Refusal := .next <|
  match s.meshTake p.val 0x02 errs b with
  | (s, none) => s
  | (s, some _) =>
    if 1 ≤ s.meshState ∧ s.meshState ≤ 3 then
      s.mesh.db.foldl (fun s q => match q.2 with
        | some e => s.meshQueue p.val 2 (meshBytes 0x03 s.mesh.hopLimit 0xfff q.1 0 (lsaPayload q.1 e))
        | none => s) s
    else s

/-- SEQ `a` is later than SEQ `b`. -/
def seqLater (a b : Nat) : Bool :=
  let d := (a + 2 ^ 32 - b % 2 ^ 32) % 2 ^ 32
  decide (1 ≤ d) && decide (d < 2 ^ 31)

/-- A received LSA changes the database. -/
def State.lsaNews (s : State) (a : Nat) (e : LsaRec) : Bool :=
  match s.dbEntry a with
  | none => !(e.flags / 128 % 2 == 1)
  | some d => if d.uid = e.uid then seqLater e.seq d.seq else decide (e.uid < d.uid) && !(e.flags / 128 % 2 == 1)

/-- This module loses the address it holds, or claims, to the LSA of another UID (R425, R427). -/
def State.lsaConflict (s : State) (a : Nat) (e : LsaRec) : State :=
  if e.uid = s.fuse.uid ∨ e.flags / 128 % 2 = 1 then s
  else if s.meshMember ∧ s.meshAddr = a ∧ e.uid < s.fuse.uid then
    let s := (s.withdraw).raise 0x1004 a [.q e.uid]
    if s.mesh.addrMode = 1 then s.wr R.MSH_STAT_STATE 5 else s.beginClaim
  else if s.meshState = 1 ∧ s.mesh.cand.map Prod.fst = some a then
    if s.mesh.addrMode = 1 then s.isolateConflict a e.uid else s.choose (s.tick + 1)
  else s

/-- LSA received on port `p`. -/
def execLsa (p : Fin 6) (errs : Nat) (b : List Byte) (s : State) : Host.Outcome State Fault Refusal := .next <|
  match s.meshTake p.val 0x03 errs b with
  | (s, none) => s
  | (s, some m) =>
    let a := beNat (slice m.payload 0 2) % 4096
    let e : LsaRec := {
      uid := beNat (slice m.payload 2 8)
      seq := beNat (slice m.payload 10 4)
      epoch := beNat (slice m.payload 14 8)
      flags := beNat (slice m.payload 22 1)
      nbrs := (List.range 6).map fun i => beNat (slice m.payload (23 + 2 * i) 2) % 4096
      tick := s.tick }
    if s.lsaNews a e = false ∨ a = 0 ∨ a = 0xfff then s.lsaConflict a e
    else if e.flags / 128 % 2 = 1 then (s.floodOn p.val m).dropDb a
    else ((s.setDb a (some e)).floodOn p.val m).lsaConflict a e

/-- LSA_ORIGINATE: a member's LSA of every 160,000 ticks. -/
def execLsaOriginate (s : State) : Host.Outcome State Fault Refusal := .next <|
  if s.meshMember ∧ s.mesh.lsaTick + 160000 ≤ s.tick then s.originate else s

/-- LSA_EXPIRY of the entry of address `a`. -/
def execLsaExpiry (a : Fin 4096) (s : State) : Host.Outcome State Fault Refusal := .next <|
  match s.dbEntry a.val with
  | some e => if e.tick + 640000 ≤ s.tick then s.dropDb a.val else s
  | none => s

/-! ### Addresses and admission (R425, R430) -/

/-- CLAIM received on port `p`: the claim record keeps the lowest UID that claims an address. -/
def execClaim (p : Fin 6) (errs : Nat) (b : List Byte) (s : State) : Host.Outcome State Fault Refusal := .next <|
  match s.meshTake p.val 0x04 errs b with
  | (s, none) => s
  | (s, some m) =>
    if s.meshState < 1 ∨ 3 < s.meshState then s.rxDiscard
    else
      let uid := beNat (slice m.payload 0 8)
      let a := beNat (slice m.payload 8 2) % 4096
      let news := (Tab.get (fun _ => none) s.mesh.claims a).all fun c => decide (uid < c.1) || decide (c.2 + 1600 ≤ s.tick)
      if news then
        let s := (s.modMesh fun x => { x with claims := Tab.set (fun _ => none) x.claims a (some (uid, s.tick)) }).floodOn p.val m
        if s.meshState = 1 ∧ s.mesh.cand.map Prod.fst = some a ∧ uid < s.fuse.uid then
          if s.mesh.addrMode = 1 then s.isolateConflict a uid else s.choose (s.tick + 1)
        else s
      else s

/-- DB_COLLECT_END: 3,200 ticks after the first port came UP the module chooses its candidate. -/
def execDbCollectEnd (s : State) : Host.Outcome State Fault Refusal := .next <|
  if s.mesh.started ∧ s.meshState = 0 ∧ s.mesh.collect.any (fun t => decide (t + 3200 ≤ s.tick)) then s.choose s.tick else s

/-- The highest EPOCH that a MEMBER neighbour on an UP port has sent (R430). -/
def State.nbrEpoch (s : State) : Nat :=
  (s.upPorts.filter fun p => s.rd (R.MSH_PORT_STAT_NBR_ADDR p) != 0 && (s.mport p).flags / 2 % 4 == 0).foldl
    (fun a p => max a (s.mport p).epoch) 0

/-- CLAIM_COMPLETE: the address is held. -/
def execClaimComplete (s : State) : Host.Outcome State Fault Refusal := .next <|
  match s.mesh.cand with
  | none => s
  | some (a, t) =>
    if s.meshState = 1 ∧ t + 1600 ≤ s.tick then
      let top := s.nbrEpoch
      let ro := decide (s.peat.epoch < top)
      let s := (s.modMesh fun m => { m with cand := none, recorded := if ro then top else m.recorded }).wr R.MSH_STAT_ADDR a
      let s := s.wr R.MSH_STAT_STATE (if ro then 3 else 2)
      let s := s.originate.raise 0x1002 a [.w s.mesh.addrMode, .w (if ro then 1 else 0)]
      if ro then s.raise 0x1005 0 [.w 1, .q top] else s
    else s

/-- READ_ONLY ends at the boundary at which the own epoch reaches the recorded one; the LSA follows the epoch (R430). -/
def State.meshEpoch (s : State) : State :=
  let s :=
    if s.meshState = 3 ∧ s.mesh.recorded ≤ s.peat.epoch then
      (s.wr R.MSH_STAT_STATE 2).raise 0x1005 0 [.w 0, .q s.mesh.recorded]
    else s
  s.lsaRefresh

/-! ### Routes (R429) -/

/-- The links of `a` in a database: neighbours that list it in return. -/
def linksOf (db : Tab (Option LsaRec)) (a : Nat) : List Nat :=
  match Tab.get (fun _ => none) db a with
  | none => []
  | some e => e.nbrs.filter fun b => b != 0 &&
      ((Tab.get (fun _ => none) db b).any fun d => d.nbrs.contains a)

/-- One layer of the search: `seen` maps an address to its hops and the lowest first neighbour. -/
def bfsLayer (db : Tab (Option LsaRec)) (own k : Nat) (seen : Tab (Option (Nat × Nat))) (front : List (Nat × Nat)) :
    Tab (Option (Nat × Nat)) :=
  front.foldl (fun acc x =>
    (linksOf db x.1).foldl (fun acc y =>
      let f := if x.1 = own then y else x.2
      if y = own ∨ (Tab.get (fun _ => none) seen y).isSome then acc
      else
        match Tab.get (fun _ => none) acc y with
        | some (_, g) => Tab.set (fun _ => none) acc y (some (k, min f g))
        | none => Tab.set (fun _ => none) acc y (some (k, f))) acc) []

/-- The search, `n` layers from layer `k`. -/
def bfs (db : Tab (Option LsaRec)) (own : Nat) : Nat → Nat → Tab (Option (Nat × Nat)) → List (Nat × Nat) →
    Tab (Option (Nat × Nat))
  | 0, _, seen, _ => seen
  | n + 1, k, seen, front =>
    let layer := bfsLayer db own k seen front
    bfs db own n (k + 1) (layer.foldl (fun t q => Tab.set (fun _ => none) t q.1 q.2) seen)
      (layer.map fun q => (q.1, (q.2.getD (0, 0)).2))

/-- The routing table: hops and port per address. -/
def State.routeTable (s : State) : Tab (Option (Nat × Nat)) :=
  if s.meshMember then
    (bfs s.mesh.db s.meshAddr s.mesh.hopLimit 1 [] [(s.meshAddr, 0)]).filterMap fun q =>
      match q.2 with
      | none => none
      | some (h, f) => (s.upPorts.find? fun p => s.rd (R.MSH_PORT_STAT_NBR_ADDR p) == f).map fun p => (q.1, some (h, p))
  else []

/-- ROUTE_COMPUTE: after a database change, at least 160 ticks after the previous computation. -/
def execRouteCompute (s : State) : Host.Outcome State Fault Refusal := .next <|
  if s.mesh.dbChanged ∧ s.mesh.routeTick.all (fun t => decide (t + 160 ≤ s.tick)) then
    s.modMesh fun m => { m with routes := s.routeTable, routeTick := some s.tick, dbChanged := false }
  else s

/-! ### Sending (R422) -/

/-- MESH_MESSAGE_TRANSMIT: a message on port `p` has ended; the head of the lowest class goes out. A port that is not UP
sends HELLO only (R418). -/
def execMeshMessageTransmit (p : Fin 6) (s : State) : Host.Outcome State Fault Refusal := .next <|
  let x := s.mport p.val
  let may := x.queue.zipIdx.filter fun q => s.meshUp p.val || (q.1.2[2]?) == some 0x01
  if !s.flag (R.MSH_PORT_STAT_ENABLED p.val) then s
  else
    match (sortBy (fun a b => decide (a.1.1 ≤ b.1.1)) may).head? with
    | some ((_, b), i) => (s.setMport p.val { x with queue := x.queue.eraseIdx i }).emit (.mesh p.val b)
    | none => s

/-! ### Unicast and broadcast messages (R433, R435, R436, R302) -/

/-- REMOTE_CPL received on port `p`. -/
def execRemoteCpl (p : Fin 6) (errs : Nat) (b : List Byte) (s : State) : Host.Outcome State Fault Refusal := .next <|
  match s.meshTake p.val 0x21 errs b with
  | (s, none) => s
  | (s, some m) => s.meshRoute p.val m false fun s => s.raise 0x1007 m.src [.raw (slice m.payload 0 32)]

/-- What a delivered KEY_ROLL does (R302): an ALIGNED twin compares it with its own pending roll. -/
def State.keyRollRx (s : State) (src : Nat) (b : List Byte) : State :=
  let sa := beNat (slice b 0 2) % 16384
  let epoch := beNat (slice b 4 4)
  let r := beNat (slice b 8 8)
  if s.twinState = 2 ∧ s.mp5Up ∧ s.rd (R.MSH_PORT_STAT_NBR_ADDR 5) = src then
    let o := s.tim.twin.offset.getD 0
    let own : Int := if s.twinLead then (r : Int) + o else (r : Int) - o
    let x := Tab.get (fun _ => ({} : SaRec)) s.sas sa
    let new := (if x.cur = 0 then x.slot1 else x.slot0).map KeySlot.epoch
    if x.rollTick.any (fun t => decide ((t : Int) = own)) ∧ new = some epoch then s
    else (s.bump R.CRY_EVT_ROLL_DIVERGE 1).raiseFor x.tenant 0x0a07 sa [.q (ofSigned 64 own)]
  else s.raise 0x0a06 src [.w sa, .w epoch, .q r]

/-- KEY_ROLL received on port `p`. -/
def execKeyRollMessage (p : Fin 6) (errs : Nat) (b : List Byte) (s : State) : Host.Outcome State Fault Refusal := .next <|
  match s.meshTake p.val 0x10 errs b with
  | (s, none) => s
  | (s, some m) => s.meshRoute p.val m false fun s => s.keyRollRx m.src m.payload

/-- PROT_STATE received on port `p`. -/
def execProtState (p : Fin 6) (errs : Nat) (b : List Byte) (s : State) : Host.Outcome State Fault Refusal := .next <|
  match s.meshTake p.val 0x11 errs b with
  | (s, none) => s
  | (s, some m) => s.meshRoute p.val m false fun s =>
      s.raise 0x1008 m.src [.w (fieldAt m.payload 0 2), .raw (slice m.payload 16 36)]

/-- FAULT_REPORT received on port `p`. -/
def execFaultReport (p : Fin 6) (errs : Nat) (b : List Byte) (s : State) : Host.Outcome State Fault Refusal := .next <|
  match s.meshTake p.val 0x12 errs b with
  | (s, none) => s
  | (s, some m) => s.meshRoute p.val m true fun s => s.raise 0x1009 m.src [.raw (slice m.payload 0 16)]

/-! ### Descriptors (R441) -/

/-- The checks of MSH_SETUP. -/
def chkMshSetup (portEn mode addr hop sev fdst pdst : Nat) (c : Ctx) (_ : State) : List Ck :=
  c.pf ++ [ckFormat (decide (64 ≤ portEn) || decide (1 < mode) || decide (4096 ≤ addr) || hop == 0 || decide (255 < hop) ||
    decide (7 < sev) || decide (4096 ≤ fdst) || decide (4096 ≤ pdst) || (mode == 1 && (addr == 0 || addr == 0xfff)))]

/-- MSH_SETUP applied: a change of the addressing while an address is held withdraws it and begins R425. -/
def appMshSetup (portEn mode addr hop : Nat) (remote serve : Bool) (sev fdst pdst : Nat) (_ : Ctx) (s : State) : Applied :=
  let moved := decide (s.mesh.addrMode ≠ mode ∨ s.mesh.addr ≠ addr)
  let s := s.modMesh fun m => { m with
    addrMode := mode, addr := addr, hopLimit := hop, remoteEn := remote, cfgServe := serve,
    faultSev := sev, faultDst := fdst, protDst := pdst, dbChanged := m.dbChanged || decide (m.hopLimit ≠ hop) }
  let s := (List.range 6).foldl (fun s p => (s.wrB (R.MSH_PORT_STAT_ENABLED p) (portEn / 2 ^ p % 2 == 1)).upEval p) s
  { s := if moved && s.meshMember then
      let a := s.meshAddr
      let s := s.withdraw
      (s.setDb a none).beginClaim
    else s }

/-- MSH_SETUP as a request of its own. -/
def execMshSetup (h : ReqHdr) (mem : HostMem) (portEn mode addr hop : Nat) (remote serve : Bool) (sev fdst pdst : Nat)
    (s : State) : Host.Outcome State Fault Refusal := .next <|
  runOne h mem 0x70 (.mshSetup portEn mode addr hop remote serve sev fdst pdst) s (chkMshSetup portEn mode addr hop sev fdst pdst)
    (appMshSetup portEn mode addr hop remote serve sev fdst pdst)

/-- The checks of MSH_REMOTE. -/
def chkMshRemote (allow : List Nat) (c : Ctx) (_ : State) : List Ck :=
  c.pf ++ [ckFormat (allow.length != 16 || allow.any fun a => decide (4096 ≤ a) || a == 0xfff)]

/-- MSH_REMOTE applied. -/
def appMshRemote (allow : List Nat) (_ : Ctx) (s : State) : Applied := { s := s.modMesh fun m => { m with allow := allow } }

/-- MSH_REMOTE as a request of its own. -/
def execMshRemote (h : ReqHdr) (mem : HostMem) (allow : List Nat) (s : State) : Host.Outcome State Fault Refusal := .next <|
  runOne h mem 0x71 (.mshRemote allow) s (chkMshRemote allow) (appMshRemote allow)

/-- The record of one address in MSH_DB_READ. -/
def State.dbRecord (s : State) (a : Nat) (e : LsaRec) : List Byte :=
  let (h, p) := if s.meshMember ∧ a = s.meshAddr then (0, 7)
    else match Tab.get (fun _ => none) s.mesh.routes a with
      | some (h, p) => (min h 255, p)
      | none => (255, 7)
  natLe 2 a ++ natLe 1 h ++ natLe 1 (p + (if e.flags / 2 % 2 = 1 then 128 else 0)) ++ natLe 8 e.uid ++ natLe 8 e.epoch ++
    e.nbrs.flatMap (natLe 2)

/-- What MSH_DB_READ writes: one record per held address in ascending order, then one with ADDR 0. -/
def State.dbBytes (s : State) : List Byte :=
  (s.mesh.db.flatMap fun q => match q.2 with
    | some e => s.dbRecord q.1 e
    | none => []) ++ List.replicate 32 0

/-- The checks of MSH_DB_READ. -/
def chkMshDbRead (buf : Nat) (c : Ctx) (s : State) : List Ck := c.pf ++ [ckAlign buf 64, s.ckBacklog s.dbBytes.length]

/-- MSH_DB_READ applied. -/
def appMshDbRead (buf dn : Nat) (c : Ctx) (s : State) : Applied := s.takeRead c dn buf s.dbBytes

/-- MSH_DB_READ as a request of its own. -/
def execMshDbRead (h : ReqHdr) (mem : HostMem) (buf : Nat) (s : State) : Host.Outcome State Fault Refusal := .next <|
  runOne h mem 0x73 (.mshDbRead buf) s (chkMshDbRead buf) (appMshDbRead buf h.dn)

/-- A reset of the mesh block (R440): every port restarts, NO_ADDR, the database empty, the settings at reset. Claiming
begins again when `started`. -/
def State.meshReset (s : State) (started : Bool) : State :=
  let uid := s.fuse.uid
  let s := ({ s with mesh := { started := started } }).resetRegs 0x40000 0x4ffff
  let s := (s.wr R.MSH_UID_LO_UID_LO uid).wr R.MSH_UID_HI_UID_HI (uid / 2 ^ 32)
  s

end Sys2Proof.Machine
end

