-- ==== Sys2Proof/Machine/Parse.lean ====
section
/-! DEFINITION. Reading a descriptor: the header of Table HST-3, the operands of Table HST-4 and of the chapters' descriptor
tables, the entry of Table XC-3, reserved bits (R318, R321). -/
namespace Sys2Proof.Machine

/-! ### Reserved bits -/

/-- Operand bytes `off .. off + n - 1` as a bit range. -/
def opB (off n : Nat) : Nat × Nat := (8 * off, 8 * n)

/-- ENDPOINT and SA_ID. -/
def opEp : Nat × Nat := (128, 17)
def opSa : Nat × Nat := (128, 14)

/-- The operand bits of an opcode, as first bit and width within the descriptor; none for a reserved opcode. -/
def opFields : Nat → Option (List (Nat × Nat))
  | 0x00 => some []
  | 0x01 => some [opB 16 1, opB 20 4]
  | 0x02 => some [opB 16 1, opB 20 4]
  | 0x10 => some [opB 16 6, (176, 1), opB 24 32]
  | 0x11 => some [opB 16 1, opB 24 32]
  | 0x12 => some [opB 16 1, opB 24 16]
  | 0x13 => some [opB 16 6, opB 24 8]
  | 0x14 => some [opB 16 1, opB 18 2, opB 24 8]
  | 0x15 => some [opB 16 4, opB 24 8]
  | 0x16 => some [opB 16 6, (176, 4), (183, 1), opB 24 4]
  | 0x20 => some [opEp, opB 24 40]
  | 0x21 => some [opEp, opB 20 1, opB 24 32]
  | 0x22 => some [opEp]
  | 0x23 => some [opEp, opB 24 8]
  | 0x24 => some [opB 16 2, (144, 1), opB 24 16]
  | 0x25 => some [opEp]
  | 0x26 => some [opEp, opB 20 2, opB 24 8]
  | 0x27 => some [opB 24 8]
  | 0x28 => some [opB 24 8]
  | 0x29 => some []
  | 0x2a => some []
  | 0x30 => some [opSa, (144, 1), (160, 12), (176, 14), opB 24 6]
  | 0x31 => some [opSa, (144, 1), (160, 12), (176, 14), opB 24 6]
  | 0x32 => some [opSa]
  | 0x33 => some [opSa, opB 24 8]
  | 0x34 => some [opSa]
  | 0x35 => some [opSa, opB 24 8]
  | 0x36 => some [opSa, opB 24 8]
  | 0x60 => some [opB 16 1, (136, 1), opB 18 1, opB 20 4]
  | 0x61 => some [opB 16 2, opB 24 8]
  | 0x62 => some [opB 16 3, (152, 1), (160, 15), opB 24 4]
  | 0x63 => some [opB 16 5, (168, 1), opB 24 4]
  | 0x64 => some [opB 16 2, (144, 12), opB 24 36]
  | 0x65 => some [opB 16 1, (136, 1)]
  | 0x70 => some [(128, 6), opB 17 1, (144, 12), opB 20 1, (168, 2), opB 22 1, opB 24 4]
  | 0x71 => some [opB 24 32]
  | 0x72 => some [opB 16 4, opB 24 8]
  | 0x73 => some [opB 24 8]
  | 0x80 => some [opB 16 1, (136, 2), (144, 1), opB 24 4]
  | 0x81 => some [opB 16 2]
  | 0x90 => some [opB 16 1]
  | 0x91 => some [opB 16 1]
  | 0x92 => some [opB 16 1, opB 24 8]
  | 0x93 => some [opB 16 1, opB 24 8]
  | 0xa0 => some [opB 16 2, opB 24 24]
  | 0xa1 => some [opB 16 2, opB 20 2, opB 24 8]
  | 0xb0 => some [opB 16 1, (136, 3)]
  | 0xb1 => some [(128, 3)]
  | 0xb2 => some [opB 20 6, opB 32 8]
  | 0xb3 => some [opB 24 8]
  | 0xb4 => some [opB 16 1, opB 24 5]
  | 0xb5 => some [opB 16 1]
  | 0xc0 => some [(128, 2)]
  | 0xc1 => some [opB 24 12]
  | 0xc2 => some [opB 24 8]
  | 0xc3 => some []
  | 0xc4 => some [opB 24 8]
  | 0xc5 => some [opB 16 2, opB 20 4]
  | 0xc6 => some [opB 24 8]
  | 0xc7 => some [opB 16 1, opB 24 12]
  | 0xd0 => some [opB 24 8]
  | 0xd1 => some [opB 16 1, opB 18 1, (152, 4), opB 20 6]
  | 0xd2 => some [opB 24 8]
  | 0xd3 => some [opB 16 1]
  | 0xd4 => some [opB 16 1, opB 18 2]
  | 0xd8 => some [opB 16 1, opB 24 8]
  | _ => none

/-- The header's bits that are not reserved. -/
def hdrFields : List (Nat × Nat) := [(0, 8), (8, 2), (16, 10), (32, 16), (64, 64)]

/-- The bits of `v` outside the ranges: the ranges are disjoint. -/
def outside (v : Nat) (l : List (Nat × Nat)) : Nat := l.foldl (fun v r => v - v / 2 ^ r.1 % 2 ^ r.2 * 2 ^ r.1) v

/-- A reserved bit of the descriptor is set. -/
def descReserved (b : List Byte) : Bool :=
  match opFields (fieldAt b 0 1) with
  | some l => outside (leNat (b.take 64)) (hdrFields ++ l) != 0
  | none => false

/-! ### The endpoint entry -/

/-- A word of an entry, as bits `lo .. lo + w - 1`. -/
def wordBits (v lo w : Nat) : Nat := v / 2 ^ lo % 2 ^ w

/-- Words 1 and 2. -/
def endOf (v : Nat) : XcEnd := { kind := wordBits v 30 2, tsLow := wordBits v 20 10, id := wordBits v 0 17 }

/-- The entry that 32 bytes hold; the RO fields are ignored in a host write (R233). -/
def entryOf (b : List Byte) : XcEntry :=
  let w := fun (i : Nat) => fieldAt b (4 * i) 4
  let rsv := [(0, 14, 2), (1, 17, 3), (2, 17, 3), (3, 6, 14), (4, 11, 12), (5, 30, 1), (5, 14, 2), (6, 24, 8), (7, 24, 1),
    (7, 16, 2), (7, 0, 8)]
  { kind := wordBits (w 0) 30 2, tenant := wordBits (w 0) 20 10, oduType := wordBits (w 0) 16 4, tsCount := wordBits (w 0) 0 12
    src := endOf (w 1), dst := endOf (w 2)
    legbKind := wordBits (w 3) 30 2, legbTsLow := wordBits (w 3) 20 10, legbFrond := wordBits (w 3) 0 6
    selMode := wordBits (w 4) 30 2, prefMode := wordBits (w 4) 29 1, imuxM := wordBits (w 4) 26 2, imuxEnd := wordBits (w 4) 25 1
    hold := wordBits (w 4) 0 11
    saEn := wordBits (w 5) 31 1 == 1, saId := wordBits (w 5) 16 14
    members := wordBits (w 6) 0 24
    pmProfile := wordBits (w 7) 26 6, pmEn := wordBits (w 7) 25 1 == 1, tcmLevel := wordBits (w 7) 21 3, layer := wordBits (w 7) 18 3
    expPt := wordBits (w 7) 8 8
    rsv := rsv.any fun (i, lo, n) => wordBits (w i) lo n != 0 }

/-! ### The body -/

/-- The effect that a descriptor's opcode and operands ask for. `adr` maps a host address of its operands to the one read. -/
def bodyOf (adr : Nat → Nat) (b : List Byte) : ReqBody :=
  let f := fieldAt b
  let bit := fun (off i : Nat) => f off 1 / 2 ^ i % 2 == 1
  let a := fun (off : Nat) => adr (f off 8)
  let codes := (List.range 32).map fun k => f (24 + k) 1
  match f 0 1 with
  | 0x00 => .nop
  | 0x01 => .funcStop (f 16 1) (f 20 4)
  | 0x02 => .funcStart (f 16 1) (f 20 4)
  | 0x10 => .lineSetup (f 16 1) (f 17 1) (f 18 1) (f 19 1) (toSigned 16 (f 20 2)) (bit 22 0) codes
  | 0x11 => .loadTable (f 16 1) codes
  | 0x12 => .filterLoad (f 16 1) (a 24) (f 32 8)
  | 0x13 => .lineOh (f 16 1) (f 17 2) (f 19 1) (f 20 1) (f 21 1) (a 24)
  | 0x14 => .gccSend (f 16 1) (f 18 2) (a 24)
  | 0x15 => .gccRxPost (f 16 4) (a 24)
  | 0x16 => .portSetup (f 16 2) (f 18 1) (f 19 1) (f 20 1) (f 21 1) (f 22 1) (f 24 4)
  | 0x20 => .epCreate (f 16 4 % 2 ^ 17) (entryOf (slice b 24 32)) (a 56)
  | 0x21 => .epChange (f 16 4 % 2 ^ 17) (f 20 1) (entryOf (slice b 24 32))
  | 0x22 => .epDelete (f 16 4 % 2 ^ 17)
  | 0x23 => .epRead (f 16 4 % 2 ^ 17) (a 24)
  | 0x24 =>
    match f 16 1 with
    | 0 => .pmAnchor (f 24 8)
    | 1 => .pmProfile (f 17 1) (a 32)
    | 2 => .pmZero (bit 18 0)
    | _ => .malformed 0x24
  | 0x25 => .pmClear (f 16 4 % 2 ^ 17)
  | 0x26 => .pmRead (f 16 4 % 2 ^ 17) (f 20 2) (a 24)
  | 0x27 => .quotaSet (f 24 4) (f 28 2) (f 30 2)
  | 0x28 => .quotaRead (a 24)
  | 0x29 => .tenantCreate
  | 0x2a => .tenantDelete
  | 0x30 => .saCreate (f 16 2 % 2 ^ 14) (f 18 1 % 2) (f 20 2 % 2 ^ 12) (f 22 2 % 2 ^ 14) (f 24 6)
  | 0x31 => .saChange (f 16 2 % 2 ^ 14) (f 18 1 % 2) (f 20 2 % 2 ^ 12) (f 22 2 % 2 ^ 14) (f 24 6)
  | 0x32 => .saDelete (f 16 2 % 2 ^ 14)
  | 0x33 => .keyLoad (f 16 2 % 2 ^ 14) (a 24)
  | 0x34 => .keyDiscard (f 16 2 % 2 ^ 14)
  | 0x35 => .keyRoll (f 16 2 % 2 ^ 14) (f 24 8)
  | 0x36 => .saRead (f 16 2 % 2 ^ 14) (a 24)
  | 0x60 => .timInput (f 16 1) (bit 17 0) (f 18 1) (toSigned 32 (f 20 4))
  | 0x61 => .timPrio (f 16 2) (a 24)
  | 0x62 => .timDpll (f 16 1) (f 17 1) (f 18 1) (bit 19 0) (f 20 2 % 2 ^ 15) (f 24 4)
  | 0x63 => .timOutput (f 16 1) (f 17 1) (f 18 1) (f 19 1) (f 20 1) (bit 21 0) (f 24 4)
  | 0x64 => .timTwin (f 16 1) (f 17 1) (f 18 2 % 2 ^ 12) (f 24 36)
  | 0x65 => .timTod (f 16 1) (bit 17 0)
  | 0x70 => .mshSetup (f 16 1 % 64) (f 17 1) (f 18 2 % 2 ^ 12) (f 20 1) (bit 21 0) (bit 21 1) (f 22 1) (f 24 2) (f 26 2)
  | 0x71 => .mshRemote ((List.range 16).map fun i => f (24 + 2 * i) 2)
  | 0x72 => .mshSend (f 16 2) (f 18 2) (a 24)
  | 0x73 => .mshDbRead (a 24)
  | 0x80 => .pwrFrond (f 16 1) (bit 17 0) (bit 17 1) (bit 18 0) (f 24 4)
  | 0x81 => .pwrThermal (f 16 1) (f 17 1)
  | 0x90 => .calRun (f 16 1)
  | 0x91 => .calAbort (f 16 1)
  | 0x92 => .calExport (f 16 1) (a 24)
  | 0x93 => .calRestore (f 16 1) (a 24)
  | 0xa0 => .memPass (f 16 1) (f 17 1) (f 24 8) (f 32 8) (a 40)
  | 0xa1 => .memInject (f 16 1) (f 17 1) (f 20 2) (f 24 8)
  | 0xb0 => .fltReact (f 16 1) (f 17 1 % 4) (bit 17 2)
  | 0xb1 => .fltClear (bit 16 0) (bit 16 1) (bit 16 2)
  | 0xb2 => .fltLogRead (f 20 4) (f 24 2) (a 32)
  | 0xb3 => .fltFirstRead (a 24)
  | 0xb4 => .fltInject (f 16 1) (f 24 5)
  | 0xb5 => .fltSetup (f 16 1)
  | 0xc0 => .updConfig (bit 16 0) (bit 16 1)
  | 0xc1 => .updBegin (f 24 8) (f 32 4)
  | 0xc2 => .updSpore (a 24)
  | 0xc3 => .updAbort
  | 0xc4 => .updActivate (f 24 8)
  | 0xc5 => .updRelay (f 16 1) (f 17 1) (f 20 4)
  | 0xc6 => .updStatus (a 24)
  | 0xc7 => .settingsStore (f 16 1) (a 24) (f 32 4)
  | 0xd0 => .monSeq (a 24)
  | 0xd1 => .monLimit (f 16 1) (f 18 1) (bit 19 0) (f 19 1 / 2 % 8) (toSigned 16 (f 20 2)) (toSigned 16 (f 22 2)) (f 24 2)
  | 0xd2 => .monMap (a 24)
  | 0xd3 => .monSample (f 16 1)
  | 0xd4 => .monTest (f 16 1) (f 18 2)
  | 0xd8 => .pcErbRead (f 16 1) (a 24)
  | op => .malformed op

/-! ### The header -/

/-- The next part of the request follows. -/
def descChain (b : List Byte) : Bool := fieldAt b 1 1 % 2 == 1

/-- SEQ. -/
def descSeq (b : List Byte) : Nat := fieldAt b 4 2

/-- A descriptor as a part of a request; EFF_TICK as written. -/
def partOf (adr : Nat → Nat) (b : List Byte) : Part :=
  { tenant := fieldAt b 2 2 % 1024
    any := fieldAt b 1 1 / 2 % 2 == 1
    eff := fieldAt b 8 8
    opcode := fieldAt b 0 1
    body := bodyOf adr b
    bad := descReserved b }

/-- EFF_TICK all ones: next possible. -/
def nextPossible : Nat := 2 ^ 64 - 1

/-- The effective tick of a request read in tick `t` (R40). -/
def resolveEff (t eff : Nat) : Nat := if eff = nextPossible then t + 2 else eff

/-- The first of checks 2..4 that fails for a request of `n` descriptors read in tick `t`, with `held` descriptors in the
pending-command table (R40). -/
def leadCheck (t eff n held : Nat) : Option Nat :=
  let e := resolveEff t eff
  if e < t + 2 then some 0x02
  else if t + 16777216 < e then some 0x03
  else if t + 2 < e ∧ 4096 < held + n then some 0x04
  else none

end Sys2Proof.Machine
end

