-- ==== Sys2Proof/Machine/Requests.lean ====
section
/-! DEFINITION. Requests in parts (R238..R241, R320..R325): the checks of tick E - 1 against the projected state, and the
application at step 3 of the boundary of E; MSH_SEND, whose payload is itself a request (R432). -/
namespace Sys2Proof.Machine

/-! ### The payload of a REMOTE_CMD (R432) -/

/-- Its descriptors, at most `n`, through the first with CHAIN = 0. -/
def remoteDescs : Nat → List Byte → List (List Byte)
  | 0, _ => []
  | n + 1, b =>
    if b.length < 64 then []
    else
      let d := b.take 64
      if descChain d then d :: remoteDescs n (b.drop 64) else [d]

/-- An EP_CREATE whose slot-list address is all ones: its slot list lies in the payload. -/
def descOwnList (d : List Byte) : Bool := fieldAt d 0 1 == 0x20 && fieldAt d 56 8 == 2 ^ 64 - 1

/-- The layout of R432: 1 to 4 chained descriptors, then 384 bytes for each slot list, 1,024 bytes at most. -/
def remoteLayoutOk (b : List Byte) : Bool :=
  let l := remoteDescs 4 b
  match l.getLast? with
  | none => false
  | some d =>
    !descChain d && decide (b.length ≤ 1024) && b.length == 64 * l.length + 384 * (l.filter descOwnList).length

/-! ### MSH_SEND (Table MSH-5) -/

/-- The checks of MSH_SEND. A route and a queue are judged for a member; ADDRESS_SPACE_FULL stands for every other state. -/
def chkMshSend (dst len addr : Nat) (c : Ctx) (s : State) : List Ck :=
  let b := readHost c.mem addr len
  let route := Tab.get (fun _ => none) s.mesh.routes dst
  let full := match route with
    | some (_, p) => decide (64 ≤ ((s.mport p).queue.filter fun q => q.1 == 3).length)
    | none => false
  c.pf ++ [c.ckRead addr len, ckAlign addr 64,
    ckFormat (dst == 0 || decide (0xfff ≤ dst) || dst == s.meshAddr || b.any (fun b => !remoteLayoutOk b)),
    ckAbsent (s.meshMember && route.isNone), ⟨8, s.meshState == 3, St.ownership, 0⟩,
    ckCond (s.meshMember && full) St.queueFull, ⟨12, !s.meshMember, St.addressSpaceFull, 0⟩]

/-- MSH_SEND applied: the payload goes out as a REMOTE_CMD. -/
def appMshSend (dst len addr : Nat) (c : Ctx) (s : State) : Applied :=
  { s := s.meshUnicast 0x20 3 dst ((readHost c.mem addr len).getD []) }

/-- MSH_SEND as a request of its own. -/
def execMshSend (h : ReqHdr) (mem : HostMem) (dst len addr : Nat) (s : State) : Host.Outcome State Fault Refusal := .next <|
  runOne h mem 0x72 (.mshSend dst len addr) s (chkMshSend dst len addr) (appMshSend dst len addr)

/-! ### The checks and the effect of each opcode -/

/-- The checks 5..12 of an effect, the chain and reserved bits apart. -/
def ReqBody.chk : ReqBody → Ctx → State → List Ck
  | .malformed _ => fun _ _ => [ckFormat true]
  | .nop => chkNop
  | .funcStop kind id => chkFunc false kind id
  | .funcStart kind id => chkFunc true kind id
  | .lineSetup f n count slotM gridN en codes => chkLineSetup f n count slotM gridN en codes
  | .loadTable f codes => chkLoadTable f codes
  | .filterLoad f addr swap => chkFilterLoad f addr swap
  | .lineOh target id layer item mode addr => chkLineOh target id layer item mode addr
  | .gccSend f len addr => chkGccSend f len addr
  | .gccRxPost _ addr => chkGccRxPost addr
  | .portSetup lane width client rate txclk rclk _ => chkPortSetup lane width client rate txclk rclk
  | .epCreate e x addr => chkEpCreate e x addr
  | .epChange e g x => chkEpChange e g x
  | .epDelete e => chkEpDelete e
  | .epRead e buf => chkEpRead e buf
  | .pmAnchor a => chkPmAnchor a
  | .pmProfile k addr => chkPmProfile k addr
  | .pmZero _ => chkPmZero
  | .pmClear e => chkPmClear e
  | .pmRead e n buf => chkPmRead e n buf
  | .quotaSet u a g => chkQuotaSet u a g
  | .quotaRead buf => chkQuotaRead buf
  | .tenantCreate => chkTenantCreate
  | .tenantDelete => chkTenantDelete
  | .saCreate i _ _ _ _ => chkSaCreate i
  | .saChange i role _ _ _ => chkSaChange i role
  | .saDelete i => chkSaDelete i
  | .keyLoad i addr => chkKeyLoad i addr
  | .keyDiscard i => chkKeyDiscard i
  | .keyRoll i r => chkKeyRoll i r
  | .saRead i buf => chkSaRead i buf
  | .timInput i _ freq delay => chkTimInput i freq delay
  | .timPrio wtr addr => chkTimPrio wtr addr
  | .timDpll d mode force _ bw hoSpec => chkTimDpll d mode force bw hoSpec
  | .timOutput o freq src sq mode _ phase => chkTimOutput o freq src sq mode phase
  | .timTwin action lead peer _ => chkTimTwin action lead peer
  | .timTod src _ => chkTimTod src
  | .mshSetup portEn mode addr hop _ _ sev fdst pdst => chkMshSetup portEn mode addr hop sev fdst pdst
  | .mshRemote allow => chkMshRemote allow
  | .mshSend dst len addr => chkMshSend dst len addr
  | .mshDbRead buf => chkMshDbRead buf
  | .pwrFrond f _ _ _ _ => chkPwrFrond f
  | .pwrThermal warn thr => chkPwrThermal warn thr
  | .calRun f => chkCalRun f
  | .calAbort f => chkCalAbort f
  | .calExport f buf => chkCalExport f buf
  | .calRestore f addr => chkCalRestore f addr
  | .memPass m f off len buf => chkMemPass m f off len buf
  | .memInject m f flip off => chkMemInject m f flip off
  | .fltReact kind action _ => chkFltReact kind action
  | .fltClear _ _ safe => chkFltClear safe
  | .fltLogRead _ count buf => chkFltLogRead count buf
  | .fltFirstRead buf => chkFltFirstRead buf
  | .fltInject sev _ => chkFltInject sev
  | .fltSetup evSev => chkFltSetup evSev
  | .updConfig _ _ => chkUpdConfig
  | .updBegin pkg total => chkUpdBegin pkg total
  | .updSpore addr => chkUpdSpore addr
  | .updAbort => chkUpdAbort
  | .updActivate a => chkUpdActivate a
  | .updRelay f source first => chkUpdRelay f source first
  | .updStatus buf => chkUpdStatus buf
  | .settingsStore copy addr len => chkSettingsStore copy addr len
  | .monSeq addr => chkMonSeq addr
  | .monLimit l persist _ sev low high hyst => chkMonLimit l persist sev low high hyst
  | .monMap addr => chkMonMap addr
  | .monSample ch => chkMonSample ch
  | .monTest ch d => chkMonTest ch d
  | .pcErbRead f addr => chkPcErbRead f addr

/-- The effect itself; `dn` numbers the request's first descriptor. -/
def ReqBody.app (dn : Nat) : ReqBody → Ctx → State → Applied
  | .malformed _ => fun _ s => { s := s, fail := some ⟨St.format, 0⟩ }
  | .nop => appNop
  | .funcStop kind id => appFuncStop kind id
  | .funcStart kind id => appFuncStart kind id
  | .lineSetup f n count slotM gridN en codes => appLineSetup f n count slotM gridN en codes
  | .loadTable f codes => appLoadTable f codes
  | .filterLoad f addr swap => appFilterLoad f addr swap
  | .lineOh target id layer item mode addr => appLineOh target id layer item mode addr
  | .gccSend f len addr => appGccSend f len addr
  | .gccRxPost tag addr => appGccRxPost tag addr
  | .portSetup lane width client rate txclk rclk group => appPortSetup lane width client rate txclk rclk group
  | .epCreate e x addr => appEpCreate e x addr
  | .epChange e g x => appEpChange e g x
  | .epDelete e => appEpDelete e
  | .epRead e buf => appEpRead e buf dn
  | .pmAnchor a => appPmAnchor a
  | .pmProfile k addr => appPmProfile k addr
  | .pmZero on => appPmZero on
  | .pmClear e => appPmClear e
  | .pmRead e n buf => appPmRead e n buf dn
  | .quotaSet u a g => appQuotaSet u a g
  | .quotaRead buf => appQuotaRead buf dn
  | .tenantCreate => appTenantCreate
  | .tenantDelete => appTenantDelete
  | .saCreate i role peer peerSa soft => appSaCreate i role peer peerSa soft
  | .saChange i role peer peerSa soft => appSaChange i role peer peerSa soft
  | .saDelete i => appSaDelete i
  | .keyLoad i addr => appKeyLoad i addr
  | .keyDiscard i => appKeyDiscard i
  | .keyRoll i r => appKeyRoll i r
  | .saRead i buf => appSaRead i buf dn
  | .timInput i en freq delay => appTimInput i en freq delay
  | .timPrio wtr addr => appTimPrio wtr addr
  | .timDpll d mode force revert bw hoSpec => appTimDpll d mode force revert bw hoSpec
  | .timOutput o freq src sq mode step phase => appTimOutput o freq src sq mode step phase
  | .timTwin action lead peer lanes => appTimTwin action lead peer lanes
  | .timTod src stepEn => appTimTod src stepEn
  | .mshSetup portEn mode addr hop remote serve sev fdst pdst => appMshSetup portEn mode addr hop remote serve sev fdst pdst
  | .mshRemote allow => appMshRemote allow
  | .mshSend dst len addr => appMshSend dst len addr
  | .mshDbRead buf => appMshDbRead buf dn
  | .pwrFrond f setLt setShed shed lt => appPwrFrond f setLt setShed shed lt
  | .pwrThermal warn thr => appPwrThermal warn thr
  | .calRun f => appCalRun f
  | .calAbort f => appCalAbort f
  | .calExport f buf => appCalExport f buf dn
  | .calRestore f addr => appCalRestore f addr
  | .memPass m f off len buf => appMemPass m f off len buf
  | .memInject m f flip off => appMemInject m f flip off
  | .fltReact kind action alert => appFltReact kind action alert
  | .fltClear alert first safe => appFltClear alert first safe
  | .fltLogRead first count buf => appFltLogRead first count buf dn
  | .fltFirstRead buf => appFltFirstRead buf dn
  | .fltInject sev addr => appFltInject sev addr
  | .fltSetup evSev => appFltSetup evSev
  | .updConfig host gcc => appUpdConfig host gcc
  | .updBegin pkg total => appUpdBegin pkg total
  | .updSpore addr => appUpdSpore addr
  | .updAbort => appUpdAbort
  | .updActivate a => appUpdActivate a
  | .updRelay f source first => appUpdRelay f source first
  | .updStatus buf => appUpdStatus buf dn
  | .settingsStore copy addr len => appSettingsStore copy addr len
  | .monSeq addr => appMonSeq addr
  | .monLimit l persist fault sev low high hyst => appMonLimit l persist fault sev low high hyst
  | .monMap addr => appMonMap addr
  | .monSample ch => appMonSample ch
  | .monTest ch d => appMonTest ch d
  | .pcErbRead f addr => appPcErbRead f addr dn

/-! ### A whole request -/

/-- The functions that a FUNC_STOP of the request names (R327). -/
def Request.stops (r : Request) : List (Nat × Nat) :=
  r.parts.filterMap fun p => match p.body with
    | .funcStop kind id => some (kind, id)
    | _ => none

/-- The context of part `p` of `r`. -/
def Request.ctx (r : Request) (mem : HostMem) (p : Part) : Ctx :=
  { src := r.src, tenant := p.tenant, any := p.any, eff := r.eff, mem := r.mem ++ mem, stops := r.stops }

/-- The format rules of R318 and R320 that concern the request, at its part `i`. -/
def Request.malformed (r : Request) (i : Nat) (p : Part) : Bool :=
  match r.parts.head? with
  | none => true
  | some h =>
    p.bad || p.tenant != h.tenant || p.eff != h.eff || (p.any && (r.parts.take i).any Part.any) || (decide (i = 15) && r.overlong)

/-- Checks the parts from `i` on, each against the state that the earlier ones leave; the failing part and its failure,
or the projected state. -/
def Request.check (r : Request) (mem : HostMem) : Nat → List Part → State → Except (Nat × Fail) State
  | _, [], s => .ok s
  | i, p :: l, s =>
    let c := r.ctx mem p
    match firstFail (ckFormat (r.malformed i p) :: p.body.chk c s) with
    | some f => .error (i, f)
    | none =>
      let a := p.body.app r.dn c s
      r.check mem (i + 1) l (if a.fail.isSome then s else a.s)

/-- What applying the parts gave: the state, RESULT (the ID chosen under ANY, else the last DONE_BY), HELD. -/
structure Done where
  s : State
  any : Option Nat := none
  result : Nat := 0
  held : Bool := false

/-- Applies the parts from `i` on in order; the part that fails at application and its failure. -/
def Request.applyParts (r : Request) (mem : HostMem) : Nat → List Part → Done → Except (Nat × Fail) Done
  | _, [], d => .ok d
  | i, p :: l, d =>
    let a := p.body.app r.dn (r.ctx mem p) d.s
    match a.fail with
    | some f => .error (i, f)
    | none =>
      r.applyParts mem (i + 1) l
        { s := a.s, any := if p.any then some a.result else d.any, result := max d.result a.result, held := d.held || a.held }

/-- The pending-table entries of a request: 64 bytes of memory 0x16 for each descriptor that waited (R40). -/
def Request.entries (r : Request) : List Nat :=
  let (fn, ring) := match r.src with
    | .host fn ring => (fn, ring)
    | .mesh sender _ => (256, sender)
    | .image n => (257, n)
  (List.range r.parts.length).map fun i => Config.pendingEntry fn ring (r.dn + i) % 4096

/-- Places the descriptors of a request that waits in the pending-command table. -/
def State.pendWrite (s : State) (r : Request) : State :=
  if r.pended then r.entries.foldl (fun s e => s.memWrite 0x16 0 (64 * e) 64) s else s

/-- Reads them back at application: the first part whose entry is uncorrectable. -/
def State.pendRead (s : State) (r : Request) : State × Option Nat :=
  if r.pended then
    r.entries.zipIdx.foldl (fun (a : State × Option Nat) e =>
      let (s, bad) := a.1.memRead 0x16 0 (64 * e.1) 64
      (s, if a.2.isNone && !bad.isEmpty then some e.2 else a.2)) (s, none)
  else (s, none)

/-- Applies one accepted request (R240): with a failure its earlier parts are restored and the completion says AT_APPLY.
`again`: an earlier request that it was checked against has failed since, so it is checked once more. The flag tells
whether it was applied. -/
def State.applyRequest (s : State) (mem : HostMem) (r : Request) (again : Bool) : State × Bool :=
  let (s, bad) := s.pendRead r
  match bad with
  | some p => (s.refuse r p ⟨St.memoryError, 1⟩ true, false)
  | none =>
    let recheck := if again then r.check mem 0 r.parts s else .ok s
    match recheck with
    | .error (p, f) => (s.refuse r p ⟨f.status, 3⟩ true, false)
    | .ok _ =>
      match r.applyParts mem 0 r.parts { s := s } with
      | .error (p, f) => (s.refuse r p f true, false)
      | .ok d => (d.s.succeed r (d.any.getD d.result) d.held, true)

/-! ### Order (R324) -/

/-- The place of a request's source among those of one boundary. -/
def ReqSrc.place : ReqSrc → Nat × Nat
  | .mesh sender seq => (sender, seq)
  | .host fn ring => (65536 + fn, ring)
  | .image n => (0, n)

/-- The order of R324; requests of one ring keep the order in which they were fetched. -/
def reqBefore (a b : Request) : Bool :=
  let p := a.src.place
  let q := b.src.place
  decide (p.1 < q.1) || (p.1 == q.1 && decide (p.2 ≤ q.2))

/-- The requests with effective tick `e`, in order. -/
def State.requestsAt (s : State) (e : Nat) : List Request := sortBy reqBefore (s.host.requests.filter fun r => r.eff == e)

/-- A roll accepted in check tick E - 1 is announced to PEER in that tick (R435). -/
def State.announceRolls (s : State) (r : Request) : State :=
  r.parts.foldl (fun s p => match p.body with
    | .keyRoll i t => s.keyRollSend i t
    | _ => s) s

/-- The checks of tick E - 1 (R239, R325): every request effective at the next boundary, in order, against the state in
force with the accepted ones applied. A refused one leaves the queue and completes in tick E. -/
def State.checkTick (s : State) (mem : HostMem) : State :=
  let e := s.tick + 1
  let l := s.requestsAt e
  let s := { s with host := { s.host with requests := s.host.requests.filter fun r => r.eff != e } }
  let step := fun (a : State × State × List Request) (r : Request) =>
    match r.check mem 0 r.parts a.2.1 with
    | .ok proj => (a.1.announceRolls r, proj, a.2.2 ++ [r])
    | .error (p, f) => (a.1.refuse r p f false, a.2.1, a.2.2)
  let (s, _, ok) := l.foldl step (s, { s with tick := e }, [])
  { s with host := { s.host with requests := ok ++ s.host.requests } }

/-- Step 3 of Table TCK-5: the accepted requests whose tick this is. `again`: a request that they were checked against has
been withdrawn. -/
def State.applyTick (s : State) (mem : HostMem) (again : Bool) : State :=
  let l := s.requestsAt s.tick
  let s := { s with host := { s.host with requests := s.host.requests.filter fun r => decide (s.tick < r.eff) } }
  (l.foldl (fun (a : State × Bool) r =>
    let (s, ok) := a.1.applyRequest mem r a.2
    (s, a.2 || !ok)) (s, again)).1

end Sys2Proof.Machine
end

