-- ==== Sys2Proof/Machine/Remote.lean ====
section
/-! DEFINITION. Requests that come over the Rhizome (R432, R433), and the pending-command table (R40). -/
namespace Sys2Proof.Machine

/-- Descriptors that wait in the pending-command table. -/
def State.pendedCount (s : State) : Nat := ((s.host.requests.filter Request.pended).map fun r => r.parts.length).sum

/-- PENDING of a host function counts those of its rings. -/
def State.pendedOf (s : State) (fn : Nat) : Nat :=
  ((s.host.requests.filter fun r => r.pended && (match r.src with
    | .host g _ => g == fn
    | _ => false)).map fun r => r.parts.length).sum

/-- Queues a request that passed the checks of its fetch. -/
def State.pendRequest (s : State) (r : Request) : State :=
  ({ s with host := { s.host with requests := s.host.requests ++ [r] } } : State).pendWrite r

/-- A refusal at fetch (R325): it completes in the tick that follows, with EFF_TICK as written. -/
def State.refuseAtFetch (s : State) (r : Request) (part status detail : Nat) : State :=
  s.complete {
    src := r.src, dn := r.dn, seq := r.seq, status := status, part := part, detail := detail
    opcode := (r.parts.head?.map Part.opcode).getD 0, parts := r.parts.length
    eff := (r.parts.head?.map Part.eff).getD 0, doneTick := s.tick + 1 }

/-- The opcodes that a REMOTE_CMD may carry (R432). -/
def remoteOpcodes : List Nat := [0x01, 0x02, 0x20, 0x21, 0x22, 0x25, 0x35]

/-- The slot list that part `i` of a payload brings lies at an address above every host address. -/
def remoteListAt (l : List (List Byte)) (i : Nat) : Nat := 2 ^ 64 + 384 * ((l.take i).filter descOwnList).length

/-- The parts of a payload. -/
def remoteParts (l : List (List Byte)) : List Part :=
  l.zipIdx.map fun d => partOf (fun a => if descOwnList d.1 && a == 2 ^ 64 - 1 then remoteListAt l d.2 else a) d.1

/-- The request that a REMOTE_CMD of `sender` with sequence `seq` asks for; its effective tick resolved against its receipt. -/
def State.remoteRequest (s : State) (sender seq : Nat) (b : List Byte) : Request :=
  let l := remoteDescs 4 b
  let eff := resolveEff s.tick ((l.head?.map fun d => fieldAt d 8 8).getD 0)
  { src := .mesh sender seq, dn := seq, seq := (l.head?.map descSeq).getD 0, eff := eff, pended := decide (s.tick + 2 < eff)
    mem := [(2 ^ 64, b.drop (64 * l.length))], parts := remoteParts l }

/-- What a delivered REMOTE_CMD does: OWNERSHIP, FORMAT, the checks of its lead, or a request that waits. -/
def State.remoteCmd (s : State) (sender seq : Nat) (b : List Byte) : State :=
  let r := s.remoteRequest sender seq b
  let outside := r.parts.findIdx? fun p => !remoteOpcodes.contains p.opcode
  if s.meshState ≠ 2 ∨ s.mesh.remoteEn = false ∨ s.mesh.allow.contains sender = false then s.refuseAtFetch r 0 St.ownership 0
  else match outside with
    | some i => s.refuseAtFetch r i St.ownership 0
    | none =>
      if remoteLayoutOk b = false then s.refuseAtFetch r 0 St.format 0
      else match leadCheck s.tick ((r.parts.head?.map Part.eff).getD 0) r.parts.length s.pendedCount with
        | some st => s.refuseAtFetch r 0 st 0
        | none => s.pendRequest r

/-- REMOTE_CMD received on port `p`; one to the broadcast address is discarded. -/
def execRemoteCmd (p : Fin 6) (errs : Nat) (b : List Byte) (s : State) : Host.Outcome State Fault Refusal := .next <|
  match s.meshTake p.val 0x20 errs b with
  | (s, none) => s
  | (s, some m) => s.meshRoute p.val m false fun s => s.remoteCmd m.src m.mseq m.payload

/-! ### REMOTE_CPL (R433) -/

/-- The 32 bytes of a completion (Table HST-7). -/
def Completion.bytes (c : Completion) (phase : Bool) : List Byte :=
  natLe 2 c.seq ++ natLe 1 c.status ++ natLe 1 (c.part + (if phase then 128 else 0)) ++
  natLe 2 (c.detail % 2 ^ 15 + (if c.atApply then 2 ^ 15 else 0)) ++ natLe 1 c.opcode ++ natLe 1 c.parts ++
  natLe 8 c.eff ++ natLe 8 c.doneTick ++ natLe 8 c.result

/-- The completion of a request of `sender`: REMOTE_CPL back to it, and MESH_REMOTE. -/
def State.remoteDone (s : State) (sender : Nat) (c : Completion) : State :=
  (s.meshUnicast 0x21 2 sender (c.bytes false)).raise 0x1006 sender [.w c.opcode, .w c.status]

end Sys2Proof.Machine
end

