-- ==== Sys2Proof/Machine/HostOut.lean ====
section
/-! DEFINITION. What the module writes to host memory (R224, R225, R328..R336): completions, events, read-out data, PM bin
records, MSI-X messages. -/
namespace Sys2Proof.Machine

/-! ### Rings -/

/-- Command ring `r` of function `fn` is enabled. -/
def State.ringOn (s : State) (fn r : Nat) : Bool := s.rd (R.HST_FN_CTL_CR_EN fn) / 2 ^ r % 2 == 1

/-- The event ring of function `fn` is enabled. -/
def State.eqOn (s : State) (fn : Nat) : Bool := s.flag (R.HST_FN_CTL_EQ_EN fn)

/-- Command ring `r` of function `fn` as latched at enable. -/
def State.ring (s : State) (fn r : Nat) : Ring := Tab.get (fun _ => {}) (s.fnState fn).rings r

/-- Writes it. -/
def State.setRing (s : State) (fn r : Nat) (x : Ring) : State :=
  s.modFn fn fun f => { f with rings := Tab.set (fun _ => {}) f.rings r x }

/-- Free entries of the event ring of `fn`. -/
def State.eqSpace (s : State) (fn : Nat) : Bool :=
  let x := s.fnState fn
  decide ((s.rd (R.HST_EQ_CNT_COUNT fn) + 2 ^ 32 - x.eqHead) % 2 ^ 32 < 2 ^ x.eqLog2)

/-- PHASE of an entry written after `n` others to a ring of 2^`log2` entries (R328). -/
def phaseOf (n log2 : Nat) : Bool := n / 2 ^ log2 % 2 == 0

/-- The home ring of tenant `t` (R313), by its function. -/
def State.homeFn (s : State) (t : Nat) : Nat :=
  if t = 0 then 0
  else (((List.range 255).map (· + 1)).find? fun fn => s.inRange fn t && s.eqOn fn).getD 0

/-! ### Completions (R328, R337) -/

/-- Writes one completion to its ring; with Bus Master Enable 0 it is discarded and its entry is free again. -/
def State.writeCompletion (s : State) (c : Completion) : State :=
  match c.src with
  | .mesh sender _ => s.remoteDone sender c
  | .image _ => s
  | .host fn r =>
    if !s.boot.pwrOk || !s.ringOn fn r then s
    else
      let x := s.ring fn r
      if (s.fnState fn).busMaster then
        let n := s.rd (R.HST_CQ_WRITTEN_COUNT fn r)
        let s := s.emit (.completion fn r (n % 2 ^ x.log2) (phaseOf n x.log2) c)
        (s.wr (R.HST_CQ_WRITTEN_COUNT fn r) ((n + 1) % 2 ^ 32)).wakeVector fn r
      else (s.setRing fn r { x with requests := x.requests - 1 }).modFn fn fun f => { f with dropped := true }

/-- The order of the completions of one tick: the rings in the order of R324, descriptor numbers, modulo 2^32, within a
ring. -/
def doneBefore (a b : Completion) : Bool :=
  let x := a.src.place
  let y := b.src.place
  let after := (b.dn + 2 ^ 32 - a.dn) % 2 ^ 32
  decide (x.1 < y.1) || (x.1 == y.1 && (decide (x.2 < y.2) || (x.2 == y.2 && decide (after < 2 ^ 31))))

/-- Writes the completions whose tick has come. -/
def State.flushDone (s : State) : State :=
  let l := sortBy doneBefore (s.host.done.filter fun c => decide (c.doneTick ≤ s.tick))
  let s := { s with host := { s.host with done := s.host.done.filter fun c => decide (s.tick < c.doneTick) } }
  l.foldl State.writeCompletion s

/-! ### Events (R331..R333) -/

/-- An event that waits for space instead of being dropped. -/
def Event.waits (e : Event) : Bool := e.code == 0x0702 || e.code == 0x0c01 || e.code == 0x0c02

/-- Writes an event record to the event ring of `fn`, which has space. -/
def State.putEvent (s : State) (fn : Nat) (e : Event) : State :=
  let x := s.fnState fn
  let n := s.rd (R.HST_EQ_CNT_COUNT fn)
  let s := s.emit (.event fn (n % 2 ^ x.eqLog2) (phaseOf n x.eqLog2) x.eqLostMark e)
  let s := s.modFn fn fun f => { f with eqLostMark := false }
  (s.wr (R.HST_EQ_CNT_COUNT fn) ((n + 1) % 2 ^ 32)).wakeVector fn 4

/-- Writes the waiting events of `fn` while its ring has space. -/
def State.drainWaiting (s : State) (fn : Nat) : List Event → State
  | [] => s.modFn fn fun f => { f with waiting := [] }
  | e :: l => if s.eqSpace fn then (s.putEvent fn e).drainWaiting fn l else s.modFn fn fun f => { f with waiting := e :: l }

/-- One event to the event ring of `fn`: not kept with the ring not enabled; discarded with Bus Master Enable 0; a full ring
makes it wait or drops it. -/
def State.eventTo (s : State) (fn : Nat) (e : Event) : State :=
  if !s.eqOn fn || !s.boot.pwrOk then s
  else if !(s.fnState fn).busMaster then s.modFn fn fun f => { f with dropped := true }
  else if (s.fnState fn).waiting.isEmpty && s.eqSpace fn then s.putEvent fn e
  else if e.waits then s.modFn fn fun f => { f with waiting := f.waiting ++ [e] }
  else if s.eqSpace fn then s.putEvent fn e
  else (s.bump (R.HST_EQ_LOST_LOST fn) 1).modFn fn fun f => { f with eqLostMark := true }

/-- The value of an event's "Carries" column as bytes. -/
def EVal.bytes : EVal → List Byte
  | .w v => natLe 4 v
  | .q v => natLe 8 v
  | .raw b => b

/-- The 64 bytes of an event record (Table HST-9, R331). -/
def Event.bytes (e : Event) (phase lost : Bool) : List Byte :=
  let h := natLe 2 e.code ++ natLe 2 ((if phase then 128 else 0) + (if lost then 64 else 0)) ++ natLe 4 e.tenant ++ natLe 8 e.tick
  let body := if e.code = 0x0702 then e.vals.flatMap EVal.bytes else natLe 4 e.obj ++ e.vals.flatMap EVal.bytes
  slice (h ++ body) 0 64

/-- The events that are also sent as PROT_STATE (R436): LICHEN_PAIRED through IMUX_SKEW_EXCEEDED, SLF_DEFECT_SET and
SLF_DEFECT_CLR. -/
def protCode (c : Nat) : Bool := (decide (0x0801 ≤ c) && decide (c ≤ 0x0807)) || c == 0x0601 || c == 0x0602

/-- PROT_STATE to PROT_DST, with the record as the local ring receives it. -/
def State.protState (s : State) (e : Event) : State :=
  if s.mesh.protDst = 0 ∨ protCode e.code = false then s
  else
    let fn := s.homeFn e.tenant
    let x := s.fnState fn
    s.meshUnicast 0x11 2 s.mesh.protDst (e.bytes (phaseOf (s.rd (R.HST_EQ_CNT_COUNT fn)) x.eqLog2) x.eqLostMark)

/-- The functions whose event rings one event goes to, each once. -/
def State.eventFns (s : State) (e : Event) : List Nat :=
  match e.dest with
  | .fn f => [f]
  | .tenants l => (l.map s.homeFn).foldl (fun acc f => if acc.contains f then acc else acc ++ [f]) []

/-- The order of events: by the tick of their condition, then CODE, then object (R332). -/
def eventBefore (a b : Event) : Bool :=
  decide (a.tick < b.tick) || (a.tick == b.tick && (decide (a.code < b.code) || (a.code == b.code && decide (a.obj ≤ b.obj))))

/-- Writes the events raised up to now, after the waiting ones of their rings. -/
def State.flushEvents (s : State) : State :=
  let l := sortBy eventBefore s.host.events
  let s := { s with host := { s.host with events := [] } }
  let s := (List.range 256).foldl (fun s fn =>
    if (s.fnState fn).waiting.isEmpty then s else s.drainWaiting fn (s.fnState fn).waiting) s
  l.foldl (fun s e => (s.eventFns e).foldl (fun s fn => s.eventTo fn e) (s.protState e)) s

/-- WAITING_EVENT_WRITE: the waiting events of the ring of `fn` are written as far as space reaches, in the order in which
they were raised. -/
def execWaitingEventWrite (fn : Fin 256) (s : State) : Host.Outcome State Fault Refusal := .next <|
  if !s.eqOn fn.val || !s.boot.pwrOk || !(s.fnState fn.val).busMaster then s
  else s.drainWaiting fn.val (s.fnState fn.val).waiting

/-! ### Read-out data (R330, R336) -/

/-- Writes up to `n` bytes of the jobs, the first first. With Bus Master Enable 0 the data is discarded and counts as
written. -/
def State.writeReads (s : State) (n : Nat) : List ReadJob → State
  | [] => { s with host := { s.host with reads := [] } }
  | j :: l =>
    let k := min n j.data.length
    let s := { s with host := { s.host with readBudgetUsed := s.host.readBudgetUsed + k } }
    let s := if k = 0 then s else s.hostWrite j.fn (.data j.fn j.addr (j.data.take k) j.poison)
    if k < j.data.length then
      { s with host := { s.host with reads := { j with addr := j.addr + k, data := j.data.drop k } :: l } }
    else
      let s := if j.eff < j.doneBy then
          s.raiseEv { code := 0x0c01, obj := j.ring, tick := s.tick, dest := .fn j.fn, vals := [.w j.seq] }
        else s
      s.writeReads (n - k) l

/-- READ_DATA_WRITE: 262,144 bytes in a tick, in application order; READ_DONE after the last byte of a read that took
longer than its tick. -/
def execReadDataWrite (s : State) : Host.Outcome State Fault Refusal := .next <|
  s.writeReads (262144 - s.host.readBudgetUsed) s.host.reads

/-! ### PM bin records (R223..R225, R333) -/

/-- The event of a PM bin record. -/
def PmRecord.event (r : PmRecord) : Event :=
  { code := 0x0702, obj := r.obj, tick := fieldAt r.bytes 4 8, tenant := r.tenant, vals := [.raw r.bytes] }

/-- One record: written, discarded, lost, left out, or left waiting (the flag). -/
def State.exportRecord (s : State) (r : PmRecord) : State × Bool :=
  let fn := if r.frondRec then 0 else s.homeFn r.tenant
  let used := { s with pm := { s.pm with budgetUsed := s.pm.budgetUsed + 1 } }
  if !r.frondRec && r.zero && s.flag R.GLB_PM_STAT_ZERO_SUPPRESS then (s, false)
  else if !s.eqOn fn then (used.bump R.GLB_PM_STAT_EXPORT_LOST 1, false)
  else if !(s.fnState fn).busMaster then (used.modFn fn fun f => { f with dropped := true }, false)
  else if (s.fnState fn).waiting.isEmpty && s.eqSpace fn then (used.putEvent fn r.event, false)
  else (s, true)

/-- GLB_PM_BACKLOG: the records that wait. -/
def State.pmBacklog (s : State) : State := s.wr R.GLB_PM_BACKLOG_RECORDS s.pm.waiting.length

/-- Writes what may be written of the records, 256 in a tick. -/
def State.exportRecords (s : State) : List PmRecord → List PmRecord → State
  | [], kept => ({ s with pm := { s.pm with waiting := kept } } : State).pmBacklog
  | r :: l, kept =>
    if s.tick < r.due ∨ 256 ≤ s.pm.budgetUsed then s.exportRecords l (kept ++ [r])
    else
      let (s, stays) := s.exportRecord r
      s.exportRecords l (if stays then kept ++ [r] else kept)

/-- PM_RECORD_EXPORT: the records due are written in order. -/
def execPmRecordExport (s : State) : Host.Outcome State Fault Refusal := .next <|
  if !s.boot.pwrOk then s
  else
    let s := if s.pm.budgetTick = s.tick then s else { s with pm := { s.pm with budgetTick := s.tick, budgetUsed := 0 } }
    s.exportRecords s.pm.waiting []

/-! ### MSI-X (R335) -/

/-- INTERVAL in force. -/
def State.irqInterval (s : State) (fn : Nat) : Nat := max 1 (s.rd (R.HST_IRQ_MOD_INTERVAL fn))

/-- MSIX_MESSAGE: the end of a tick for one vector, with its mask as the host has set it. A vector whose ring has new
entries and whose interval has passed sends, or sets its pending bit when masked; a pending one sends once unmasked. -/
def execMsixMessage (fn : Fin 256) (v : Fin 8) (masked : Bool) (s : State) : Host.Outcome State Fault Refusal := .next <|
  let x := Tab.get (fun _ => ({} : Vector8)) (s.fnState fn.val).vectors v.val
  let put := fun (s : State) (x : Vector8) => s.modFn fn.val fun f => { f with vectors := Tab.set (fun _ => {}) f.vectors v.val x }
  let x := { x with masked := masked }
  let due := x.fresh && x.last.all fun t => decide (t + s.irqInterval fn.val ≤ s.tick)
  let able := s.boot.pwrOk && (s.fnState fn.val).busMaster
  if !(due || (x.pending && !masked)) || !able then put s x
  else if masked then put s { x with fresh := false, pending := true }
  else (put s { x with fresh := false, pending := false, last := some s.tick }).emit (.msix fn.val v.val)

end Sys2Proof.Machine
end

