-- ==== Sys2Proof/Machine/HostCtl.lean ====
section
/-! DEFINITION. Rings, tenant ranges, function resets, Bus Master Enable (R310, R314, R337, R338). -/
namespace Sys2Proof.Machine

/-! ### Ring enables (R314) -/

/-- A ring base from its two registers. -/
def State.baseOf (s : State) (lo hi : Fld) : Nat := s.rd hi * 2 ^ 32 + s.rd lo * 2 ^ lo.lo

/-- The function answers at its host block (R309). -/
def State.fnPresent (s : State) (fn : Nat) : Bool := fn == 0 || (s.fnState fn).vfEnabled

/-- BOOT_REPORT (R480): the first event once the PF's event ring is enabled. It waits until then. -/
def State.bootReport (s : State) : State :=
  if s.host.bootReport && s.eqOn 0 then
    ({ s with host := { s.host with bootReport := false } } : State).raiseEv {
      code := 0x1201, obj := 0, tick := 0
      vals := [.w (s.rd R.RST_CAUSE_CAUSE), .w (s.reg R.RST_BOOT_REPORT_CFG_RESULT.off).toNat] }
  else s

/-- Enables command ring 0..3 or the event ring (4) of function `fn`: base and size are latched, the counts are 0; a size
out of range sets CFG_ERR. Bases are 4 KiB aligned by their registers. -/
def State.ringEnable (s : State) (fn r : Nat) : State :=
  if !s.fnPresent fn then s
  else if r < 4 then
    if s.ringOn fn r then s
    else
      let n := s.rd (R.HST_RING_CFG_LOG2SIZE fn r)
      if n < 4 ∨ 16 < n then s.fnError fn 0x400
      else
        let s := s.setRing fn r {
          crBase := s.baseOf (R.HST_CR_BASE_LO_BASE_LO fn r) (R.HST_CR_BASE_HI_ADDR_HI fn r)
          cqBase := s.baseOf (R.HST_CQ_BASE_LO_BASE_LO fn r) (R.HST_CQ_BASE_HI_ADDR_HI fn r), log2 := n }
        let s := (s.wr (R.HST_CR_FETCHED_COUNT fn r) 0).wr (R.HST_CQ_WRITTEN_COUNT fn r) 0
        s.setBits (R.HST_FN_CTL_CR_EN fn) (2 ^ r)
  else
    if s.eqOn fn then s
    else
      let n := s.rd (R.HST_EQ_CFG_LOG2SIZE fn)
      if n < 4 ∨ 16 < n then s.fnError fn 0x400
      else
        let base := s.baseOf (R.HST_EQ_BASE_LO_BASE_LO fn) (R.HST_EQ_BASE_HI_ADDR_HI fn)
        let s := s.modFn fn fun x => { x with eqBase := base, eqLog2 := n, eqHead := 0, eqLostMark := false, waiting := [] }
        let s := (s.wr (R.HST_EQ_CNT_COUNT fn) 0).wrB (R.HST_FN_CTL_EQ_EN fn) true
        if fn = 0 then s.bootReport else s

/-- Withdraws what command ring `r` of `fn` has not had applied: no effect and no completion. -/
def State.withdrawRing (s : State) (fn r : Nat) : State :=
  { s with host := { s.host with
    requests := s.host.requests.filter fun q => q.src != .host fn r
    done := s.host.done.filter fun c => c.src != .host fn r } }

/-- The PM bin records that wait for space in the event ring of `fn` are discarded with it (R333). -/
def State.dropRecords (s : State) (fn : Nat) : State :=
  if s.eqSpace fn then s
  else
    let mine := fun (q : PmRecord) => decide (q.due ≤ s.tick) && (if q.frondRec then fn == 0 else s.homeFn q.tenant == fn)
    let n := (s.pm.waiting.filter mine).length
    let left := s.pm.waiting.filter fun q => !mine q
    (({ s with pm := { s.pm with waiting := left } } : State).bump R.GLB_PM_STAT_EXPORT_LOST n).pmBacklog

/-- Disables command ring 0..3 or the event ring (4) of function `fn`. -/
def State.ringDisable (s : State) (fn r : Nat) : State :=
  if r < 4 then
    if s.ringOn fn r then
      let en := s.rd (R.HST_FN_CTL_CR_EN fn)
      (s.withdrawRing fn r).wr (R.HST_FN_CTL_CR_EN fn) (en - 2 ^ r)
    else s
  else
    if s.eqOn fn then
      let s := s.dropRecords fn
      (s.wrB (R.HST_FN_CTL_EQ_EN fn) false).modFn fn fun x => { x with waiting := [] }
    else s

/-- The enable bits of HST_FN_CTL take the value `v` at a boundary. -/
def State.fnCtl (s : State) (fn v : Nat) : State :=
  (List.range 5).foldl (fun s r => if v / 2 ^ r % 2 = 1 then s.ringEnable fn r else s.ringDisable fn r) s

/-- RING_ENABLE: a WT write of 1 to the enable bit of ring `r` (4: EQ) takes effect. -/
def execRingEnable (fn : Fin 256) (r : Fin 5) (s : State) : Host.Outcome State Fault Refusal := .next <|
  s.ringEnable fn.val r.val

/-- RING_DISABLE: a WT write of 0 to the enable bit of ring `r` (4: EQ) takes effect. -/
def execRingDisable (fn : Fin 256) (r : Fin 5) (s : State) : Host.Outcome State Fault Refusal := .next <|
  s.ringDisable fn.val r.val

/-! ### Tenant ranges (R310) -/

/-- A range that R310 accepts for function `fn`. -/
def State.rangeOk (s : State) (fn base count : Nat) : Bool :=
  let free := fun (g : Nat) =>
    let (b, n) := s.tenantRange g
    g == fn || count == 0 || n == 0 || decide (base + count ≤ b) || decide (b + n ≤ base)
  (count == 0 || (decide (1 ≤ base) && decide (base + count ≤ 1024))) &&
    (List.range 255).all (fun g => free (g + 1)) && s.rd (R.HST_FN_CTL_CR_EN fn) == 0 && !s.eqOn fn

/-- A write of HST_FN_TENANT through the PF's BAR0; the PF's own register is fixed. -/
def State.tenantWrite (s : State) (fn base count : Nat) : State :=
  if fn = 0 then s
  else if s.rangeOk fn base count then (s.wr (R.HST_FN_TENANT_BASE fn) base).wr (R.HST_FN_TENANT_COUNT fn) count
  else s.fnError fn 0x200

/-- TENANT_RANGE_WRITE. -/
def execTenantRangeWrite (fn : Fin 256) (base : Fin 1024) (count : Fin 2048) (s : State) : Host.Outcome State Fault Refusal :=
  .next <| s.pfWrite (R.HST_FN_TENANT_BASE fn.val).off fun s => s.tenantWrite fn.val base.val count.val

/-! ### Function resets (R338, R353, R360) -/

/-- An FLR of function `fn`: its unapplied descriptors are withdrawn, its rings disabled, its host block reset but for the
tenant range; Bus Master Enable and the MSI-X state return to reset. -/
def State.flr (s : State) (fn : Nat) : State :=
  let s := (List.range 5).foldl (fun s r => s.ringDisable fn r) s
  let lo := 0x10000 + 0x100 * fn
  let ten := s.reg (lo + 8)
  let s := (s.resetRegs lo (lo + 0xff)).setReg (lo + 8) ten
  let s := { s with wtq := s.wtq.filter fun q => !(decide (lo ≤ q.1) && decide (q.1 ≤ lo + 0xff)) }
  s.setFn fn { vfEnabled := (s.fnState fn).vfEnabled }

/-- FUNCTION_LEVEL_RESET. An FLR of the PF also discards the posted GCC buffers, resets the mailboxes, zeroises the host
context of the key engine and takes IDE down. -/
def execFunctionLevelReset (fn : Fin 256) (s : State) : Host.Outcome State Fault Refusal := .next <|
  let s := s.flr fn.val
  if fn.val = 0 then
    let s := { s with host := { s.host with posted := [] } }
    let s := s.mbReset.zeroise
    { s with sec := { s.sec with ide := false } }
  else s

/-- VF_ENABLE_CLEAR: every VF is reset as by its FLR, and its tenant range returns to 0. -/
def execVfEnableClear (s : State) : Host.Outcome State Fault Refusal := .next <|
  ((List.range 255).map (· + 1)).foldl (fun s fn =>
    if (s.fnState fn).vfEnabled then
      let s := s.flr fn
      (s.setReg (R.HST_FN_TENANT_BASE fn).off 0).setFn fn {}
    else s.setReg (R.HST_FN_TENANT_BASE fn).off 0) s

/-! ### Bus Master Enable (R337) -/

/-- BUS_MASTER_DISABLE. -/
def execBusMasterDisable (fn : Fin 256) (s : State) : Host.Outcome State Fault Refusal := .next <|
  s.modFn fn.val fun x => { x with busMaster := false }

/-- BUS_MASTER_ENABLE_RETURN: the host sets Bus Master Enable. BME_LOST tells that writes were discarded meanwhile. A VF has
the bit only once VF Enable is set, so its first setting shows that. -/
def execBusMasterEnableReturn (fn : Fin 256) (s : State) : Host.Outcome State Fault Refusal := .next <|
  let lost := (s.fnState fn.val).dropped
  let s := s.modFn fn.val fun x => { x with busMaster := true, dropped := false, vfEnabled := x.vfEnabled || decide (0 < fn.val) }
  if lost then s.fnError fn.val 0x100 else s

end Sys2Proof.Machine
end

