-- ==== Sys2Proof/Machine/Access.lean ====
section
/-! DEFINITION. Host accesses to registers that have no row of their own (R8, R9, R636..R638, R644): what a read returns and
changes, what a write does at once, and what a WT write does at the next boundary. -/
namespace Sys2Proof.Machine

/-! ### Reads -/

/-- The HI registers whose latch a read of the register at `off` loads: the pairs that their register tables call latched,
and TIME and SUB with PEAT_CAL_DATE (R30, R638, Table PEAT-8). -/
def latchedBy (off : Nat) : List Nat :=
  if 0x1000000 ≤ off then []
  else if 0x100000 ≤ off then
    let r := off % 0x10000
    let b := off - r
    if r = 0x324 then [b + 0x328]
    else if decide (0x610 ≤ r) && decide (r < 0x648) && r % 8 == 0 then [off + 4]
    else if r = 0x800 then [b + 0x804]
    else if decide (0x814 ≤ r) && decide (r < 0x890) && r % 16 == 4 then [off + 4]
    else []
  else if off = 0x40 ∨ off = 0x60 ∨ off = 0x30060 ∨ off = 0x30070 ∨ off = 0x70020 ∨ off = 0x70028 ∨ off = 0xa0010 then [off + 4]
  else if off = 0x70000 then [0x70004, 0x70008]
  else []

/-- The lowest ID of a block in reset, 0 for none. -/
def State.lowestInReset (s : State) : Nat :=
  (s.boot.inReset.map BlockReset.id).foldl (fun a b => if a = 0 ∨ b < a then b else a) 0

/-- GLB_SUMMARY: copies of the fields it names, only PHASE before release (R641). -/
def State.summary (s : State) : Nat :=
  if s.running then
    s.rd R.RST_BOOT_STAT_PHASE + 2 ^ 4 * s.rd R.FLT_STAT_SAFE + 2 ^ 5 * s.rd R.FLT_STAT_ALERT +
      2 ^ 6 * s.rd R.PWR_MSTAT_TRIPPED + 2 ^ 7 * s.rd R.FLT_STAT_DEGRADED + 2 ^ 10 * s.rd R.PWR_MSTAT_MSTATE +
      2 ^ 16 * s.rd R.MSH_STAT_STATE
  else s.rd R.RST_BOOT_STAT_PHASE

/-- PEAT_CAL_SUB in tick `s.tick`: 0 at the tick that reset it, else left open within its range (assumption 1). -/
def State.subsec (s : State) : Nat × State :=
  if s.peat.subTick = some s.tick then (0, s)
  else
    let (v, s) := s.fresh
    (v % 32768, s)

/-- What the register at `off` holds now: a stored register, or one computed from the state it reports. -/
def State.liveReg (s : State) (off : Nat) : Word × State :=
  let w := fun (v : Nat) => (BitVec.ofNat 32 v, s)
  let tick := if s.running then s.tick else 0
  if off = 0x28 then w s.summary
  else if off = 0x40 then w tick
  else if off = 0x44 then w (tick / 2 ^ 32)
  else if off = 0x60018 then
    w ((s.reg off).toNat / 2 ^ 12 * 2 ^ 12 + s.lowestInReset)
  else if off = 0x70000 then w s.peat.cal.date
  else if off = 0x70004 then w s.peat.cal.time
  else if off = 0x70008 then
    let (v, s) := s.subsec
    (BitVec.ofNat 32 v, s)
  else if off = 0x7000c then
    w ((s.reg off).toNat % 2 ^ 30 + (if s.peat.valid then 2 ^ 31 else 0) + (if s.peat.expired then 2 ^ 30 else 0))
  else if off = 0x70020 then w s.peat.esec
  else if off = 0x70024 then w (s.peat.esec / 2 ^ 32)
  else if off = 0x70028 then w s.peat.epoch
  else if off = 0x7002c then w (s.peat.epoch / 2 ^ 32)
  else if off = 0x70044 then
    let i := s.rd R.PEAT_CNT_SEL_INDEX
    w (if i ≤ 159 then s.peat.counter i else 0)
  else if off = 0x7004c then (s.peat.word (s.rd R.PEAT_LS_ADDR_WORD), s)
  else if off = 0x70050 then w ((s.reg off).toNat % 2 ^ 8 + 2 ^ 8 * s.peat.spareUsed)
  else if decide (0x10000 ≤ off) && decide (off < 0x20000) && off % 0x100 == 4 then
    (bitsPut (s.reg off) (R.HST_FN_STAT_PENDING 0).lo (R.HST_FN_STAT_PENDING 0).w (s.pendedOf (off % 0x10000 / 0x100)), s)
  else if off = 0x10008 then w (1024 * 2 ^ 16)
  else if decide (0x100000 ≤ off) && decide (off < 0x1000000) then
    let f := (off - 0x100000) / 0x10000
    if off % 0x10000 = 0 then (bitsPut (s.reg off) 16 3 (s.pState f), s)
    else if off % 0x10000 = 4 then
      w (if s.cryptoHeld f then 2 else s.rd (R.FRD_CRYGATE_GATE f))
    else (s.reg off, s)
  else (s.reg off, s)

/-- The fields of access code `wo`, which read 0. -/
def hideWo (r : RegD) (w : Word) : Word :=
  r.fields.foldl (fun w d => if d.acc = .wo then bitsPut w d.lo d.w 0 else w) w

/-- The read clears the RC fields. -/
def clearRc (r : RegD) (w : Word) : Word :=
  r.fields.foldl (fun w d => if d.acc = .rc then bitsPut w d.lo d.w 0 else w) w

/-- The latch of a HI register. -/
def State.latched (s : State) (off : Nat) : Option Word := (s.latches.find? fun p => p.1 == off).map Prod.snd

/-- A read of a register that exists: its value, and the state after the read's side effects (R9, R638, R342). -/
def State.readReg (s : State) (off : Nat) : Word × State :=
  match regAt off with
  | none => (0, s)
  | some r =>
    let (w, s) := match s.latched off with
      | some v => (v, s)
      | none => s.liveReg off
    let s := (latchedBy off).foldl (fun s hi =>
      let (v, s) := s.liveReg hi
      { s with latches := Tab.insert hi v s.latches }) s
    let s := if clearRc r (s.reg off) = s.reg off then s else s.setReg off (clearRc r (s.reg off))
    let s := if decide (0x20000 ≤ off) && decide (off < 0x20800) && decide (0x40 ≤ off % 0x100) && decide (off % 0x100 < 0x80) then
        s.mbReadOut ((off - 0x20000) / 0x100) ((off % 0x100 - 0x40) / 4)
      else if decide (0x1000000 ≤ off) && decide (off < 0x1000200) && decide (0x40 ≤ off % 0x100) && decide (off % 0x100 < 0x80) then
        s.mbReadOut (8 + (off - 0x1000000) / 0x100) ((off % 0x100 - 0x40) / 4)
      else s
    (hideWo r w, s)

/-- The PCIe endpoint answers: supplies present and RESET over. -/
def State.linkAlive (s : State) : Bool := s.boot.pwrOk && s.rd R.RST_BOOT_STAT_PHASE != 0

/-- A host read of function `fn` at offset `off` of its BAR (R636). -/
def State.busRead (s : State) (fn off : Nat) (form : Bool) : State :=
  if !s.linkAlive then s
  else
    let (o, v) := s.verdict fn off form
    match v with
    | .badForm => (s.accError off).emit (.unsupportedRequest fn off)
    | .denied => s.bar2Denied.emit (.unsupportedRequest fn off)
    | .inReset b => (s.isoCount b).emit (.completerAbort fn off)
    | .zero => s.emit (.readReply fn off 0)
    | .ok =>
      let (w, s) := s.readReg o
      s.emit (.readReply fn off w)

/-- LATCHED_PAIR_READ: a host read of a register of a 64-bit pair. -/
def execLatchedPairRead (fn : Fin 256) (off : Nat) (form : Bool) (s : State) : Host.Outcome State Fault Refusal := .next <|
  s.busRead fn.val off form

/-- REGISTER_READ_CLEAR: a host read of a register, clearing its RC fields. -/
def execRegisterReadClear (fn : Fin 256) (off : Nat) (form : Bool) (s : State) : Host.Outcome State Fault Refusal := .next <|
  s.busRead fn.val off form

/-! ### Writes that act at once -/

/-- The fields of the given access codes take their part of `v`; W1C fields lose the bits that `v` sets (Table SCO-3). -/
def putFields (r : RegD) (accs : List Acc) (old v : Word) : Word :=
  r.fields.foldl (fun w d =>
    if accs.contains d.acc then
      if d.acc = .w1c then bitsPut w d.lo d.w (bitsGet w d.lo d.w - (bitsGet w d.lo d.w &&& bitsGet v d.lo d.w))
      else bitsPut w d.lo d.w (bitsGet v d.lo d.w)
    else w) old

/-- A register with a field of the given code. -/
def RegD.hasAcc (r : RegD) (a : Acc) : Bool := r.fields.any fun d => d.acc == a

/-- Queues a WT write: of several in one tick the last takes effect. -/
def State.queueWt (s : State) (off v : Nat) : State :=
  { s with wtq := s.wtq.filter (fun q => q.1 != off) ++ [(off, v)] }

/-- A module warm reset is requested with cause `c`: of several the lowest cause counts (R483). RESET and FUSE take none,
and only a cold reset or a recovery load leaves BOOT_FAIL (Table BOOT-1). -/
def State.requestWarm (s : State) (c : Nat) : State :=
  let p := s.rd R.RST_BOOT_STAT_PHASE
  if p < 2 ∨ p = 6 then s
  else { s with boot := { s.boot with warmReq := some (min c (s.boot.warmReq.getD c)) } }

/-- A write of RST_CTL: WARM with a valid KEY (R481). -/
def State.rstCtl (s : State) (v : Nat) : State :=
  if v / 2 ^ 16 % 2 ^ 16 = 0xa5c3 ∧ v % 2 = 1 then s.requestWarm 2 else s

/-- GO of RST_LOAD_CTL (R476): the window takes a configuration image in CONFIG with BOOT_SRC PCIE and firmware in
BOOT_FAIL; a GO while busy, or with too great a LEN, sets RESULT 4. -/
def State.loadGo (s : State) (kind : Nat) : State :=
  let p := s.rd R.RST_BOOT_STAT_PHASE
  let len := s.rd R.RST_LOAD_LEN_LEN
  if (kind = 1 ∧ p = 3 ∧ s.rd R.RST_STRAP_BOOT_SRC = 1) ∨ (kind = 2 ∧ p = 6 ∧ s.rd R.RST_BOOT_STAT_FAIL_REASON = 2) then
    if s.boot.load.isSome ∨ (if kind = 1 then 0x1000000 else 0x4000000) < len then s.wr R.RST_LOAD_CTL_RESULT 4
    else
      let addr := s.rd R.RST_LOAD_ADDR_HI_ADDR_HI * 2 ^ 32 + s.rd R.RST_LOAD_ADDR_LO_ADDR_LO * 2 ^ 12
      ({ s with boot := { s.boot with load := some (kind, addr, len) } }).wr R.RST_LOAD_CTL_RESULT 1
  else s

/-- A write of FRD_CRYGATE (R642). -/
def State.gateWrite (s : State) (f : Nat) (g : Bool) : State :=
  if s.cryptoHeld f then s.holdIgnored else s.wrB (R.FRD_CRYGATE_GATE f) g

/-- A write of a key word or command of the key engine, by its row's meaning. -/
def State.viaExec (s : State) (o : Host.Outcome State Fault Refusal) : State :=
  match o with
  | .next t => t
  | _ => s

/-- A write that passed R636 acts on the register at `off`. -/
def State.writeReg (s : State) (fn off : Nat) (v : Word) : State :=
  match regAt off with
  | none => s
  | some r =>
    let n := v.toNat
    let plain := s.setReg off (putFields r [.rw, .wo, .w1c] (s.reg off) v)
    if decide (0x10000 ≤ off) && decide (off < 0x20000) && off % 0x100 == 8 then
      if fn = 0 then s.tenantWrite (off % 0x10000 / 0x100) (n % 2 ^ 10) (n / 2 ^ 16 % 2 ^ 11) else s
    else if decide (0x20000 ≤ off) && decide (off < 0x20800) && decide (off % 0x100 < 0x40) then
      s.mbWrite ((off - 0x20000) / 0x100) (off % 0x100 / 4) n
    else if decide (0x1000000 ≤ off) && decide (off < 0x1000200) && decide (off % 0x100 < 0x40) then
      s.mbWrite (8 + (off - 0x1000000) / 0x100) (off % 0x100 / 4) n
    else if decide (0x1001000 ≤ off) && decide (off < 0x1001020) then
      s.viaExec (execSecKeKeyWrite (Fin.ofNat 8 ((off - 0x1001000) / 4)) v s)
    else if off = 0x1001050 then s.keCommand (n % 8)
    else if off = 0x60010 then s.rstCtl n
    else if off = 0x6002c then
      let s := s.wr R.RST_LOAD_CTL_KIND (n / 2 ^ 4)
      if n % 2 = 1 then s.loadGo (n / 2 ^ 4 % 4) else s
    else if off = 0xb0000 then s.toneSet v
    else if decide (0x100000 ≤ off) && off % 0x10000 == 4 && decide (off < 0x1000000) then
      s.gateWrite ((off - 0x100000) / 0x10000) (n % 2 == 1)
    else if decide (0x100000 ≤ off) && off % 0x10000 == 0x890 && decide (off < 0x1000000) then
      let f := (off - 0x100000) / 0x10000
      let froze := s.flag (R.FRD_PC_STAT_FROZEN f)
      let s := plain.wrB (R.FRD_PC_STAT_FROZEN f) froze
      if froze && n / 2 ^ 8 % 2 == 1 then s.modPc f fun y => { y with resume := true } else s
    else if r.hasAcc .wt then plain.queueWt off n
    else plain

/-- A host write of function `fn` at offset `off` of its BAR (R636). -/
def State.busWrite (s : State) (fn off : Nat) (form : Bool) (v : Word) : State :=
  if !s.linkAlive then s
  else
    let (o, d) := s.verdict fn off form
    match d with
    | .badForm => s.accError off
    | .denied => s.bar2Denied
    | .inReset b => s.isoCount b
    | .zero => s
    | .ok => if s.fuseFailed then s else s.writeReg fn o v

/-- REGISTER_WRITE. -/
def execRegisterWrite (fn : Fin 256) (off : Nat) (form : Bool) (v : Word) (s : State) : Host.Outcome State Fault Refusal :=
  .next <| s.busWrite fn.val off form v

/-! ### Writes that act at a boundary (R637) -/

/-- A block of Table BOOT-8 that the part has: the ticks its reset lasts. -/
def State.resetTicks (s : State) (b : Nat) : Option Nat :=
  if 0x010 ≤ b ∧ b ≤ 0x013 then some 1
  else if 0x100 ≤ b ∧ b < 0x100 + s.frondCount then some 16
  else if 0x200 ≤ b ∧ b < 0x206 then some 16
  else if 0x300 ≤ b ∧ b < 0x300 + s.frondCount then some 1
  else none

/-- RST_BLOCK takes effect (R485): held, unknown and busy blocks are ignored with BLOCK_RESET_IGNORED; a request while a
warm reset is pending is discarded (R483). The reset itself begins after step 4. -/
def State.blockRequest (s : State) (b : Nat) : State :=
  let s := s.wr R.RST_BLOCK_BLOCK_ID b
  let ignored := fun (s : State) (r why : Nat) => (s.wr R.RST_BLK_STAT_RESULT r).raise 0x1204 b [.w why]
  if b = 0 ∨ s.boot.warmReq.isSome ∨ s.flt.warmNext.isSome then s
  else if s.isHeld b then ignored s.holdIgnored 1 0
  else if (s.resetTicks b).isNone then ignored s 2 1
  else if s.blockInReset b then ignored s 3 2
  else
    let s := s.wr R.RST_BLK_STAT_RESULT 0
    { s with boot := { s.boot with blockReqs := s.boot.blockReqs.filter (· != b) ++ [b] } }

/-- EQ_INVALID: the written taps leave a main tap below 32/64 (Table CLT-8). -/
def State.eqInvalid (s : State) (l : Nat) : State :=
  let a := (s.rdS (R.CLT_LANE_EQ_PRE2 l)).natAbs + (s.rdS (R.CLT_LANE_EQ_PRE1 l)).natAbs + (s.rdS (R.CLT_LANE_EQ_POST1 l)).natAbs
  s.wrB (R.CLT_LANE_EQ_EQ_INVALID l) (decide (64 < 32 + a))

/-- A WT write to a frond register takes effect, after its fields are in force. `v`: the written value; `mode`: CD_MODE
before it. -/
def State.frondWt (s : State) (f r v mode : Nat) : State :=
  if r = 0x100 then s.calMuteLost f
  else if decide (0x110 ≤ r) && decide (r < 0x120) then s.delayClamp f ((r - 0x110) / 4)
  else if r = 0x200 then
    let s := s.wrB (R.FRD_ACQ_CTL_RESTART f) false
    (if v % 2 = 1 then s.restartAcq f else s).warmCheck f
  else if r = 0x300 then
    let s := s.wrB (R.FRD_EQ_CTL_DISCARD f) false
    let s := if v / 2 ^ 23 % 2 = 1 then
        (s.modFrond f fun x => { x with eq := { x.eq with discard := true } }).wrB (R.FRD_EQ_STAT_RETAINED f) false
      else s
    let s := s.modFrond f fun x => { x with eq := { x.eq with trackHost := some (v / 2 ^ 8 % 4) } }
    if s.cdMode f = mode then s else s.cdWrite f mode
  else if r = 0x304 ∨ r = 0x308 then s.cdWrite f mode
  else if r = 0x500 ∨ r = 0x504 then s.precdRamping f
  else if decide (0x510 ≤ r) && decide (r < 0x520) then s.skewClamp f ((r - 0x510) / 4)
  else if decide (0x814 ≤ r) && decide (r < 0x890) && (r % 16 == 4 || r % 16 == 8) then s.pcPreset f ((r - 0x810) / 16)
  else s

/-- A WT write takes effect. -/
def State.applyWt (s : State) (off v : Nat) : State :=
  if decide (0x10000 ≤ off) && decide (off < 0x20000) then s.fnCtl (off % 0x10000 / 0x100) v
  else if off = 0x60014 then s.blockRequest (v % 2 ^ 12)
  else if off = 0x70018 then (if v % 2 = 1 then s.calGo else s)
  else if off = 0x70038 then (if v % 2 = 1 then s.epochGo.meshEpoch else s)
  else
    let f := (off - 0x100000) / 0x10000
    let mode := s.cdMode f
    let s := match regAt off with
      | some r => s.setReg off (putFields r [.wt] (s.reg off) (BitVec.ofNat 32 v))
      | none => s
    if 0x100000 ≤ off then s.frondWt f (off % 0x10000) v mode
    else if decide (0xe0000 ≤ off) && decide (off < 0xe4000) && off % 16 == 4 then s.eqInvalid ((off - 0xe0000) / 16)
    else s

/-- The WT writes of the tick that ended take effect, in the order of acceptance (R637). -/
def State.applyWts (s : State) : State :=
  let q := s.wtq
  q.foldl (fun s x => s.applyWt x.1 x.2) { s with wtq := [] }

/-- BLOCK_RESET_REQUEST: a write of RST_BLOCK; it takes effect at the next boundary. -/
def execBlockResetRequest (id : Fin 4096) (s : State) : Host.Outcome State Fault Refusal := .next <|
  s.busWrite 0 0x60014 true (BitVec.ofNat 32 id.val)

/-- WARM_RESET_REQUEST: a write of RST_CTL. -/
def execWarmResetRequest (v : Word) (s : State) : Host.Outcome State Fault Refusal := .next <| s.busWrite 0 0x60010 true v

/-- LOAD_WINDOW_GO: a write of RST_LOAD_CTL. -/
def execLoadWindowGo (v : Word) (s : State) : Host.Outcome State Fault Refusal := .next <| s.busWrite 0 0x6002c true v

end Sys2Proof.Machine
end

