-- ==== Sys2Proof/Machine/Boot.lean ====
section
/-! DEFINITION. Boot from RESET to CAL, the cold and module warm resets, block resets, the watchdogs, the main supplies
(chapter 19, R446..R448). Release stands in `Machine/TickBoundary.lean`. -/
namespace Sys2Proof.Machine

/-- Changes the boot record. -/
def State.modBoot (s : State) (g : BootSt → BootSt) : State := { s with boot := g s.boot }

/-- PHASE. -/
def State.phase (s : State) : Nat := s.rd R.RST_BOOT_STAT_PHASE

/-- Bits of RST_BOOT_REPORT as gathered in this boot (Table BOOT-12). -/
def State.report (s : State) (lo w v : Nat) : State :=
  s.modBoot fun b => { b with report := (bitsPut (BitVec.ofNat 32 b.report) lo w v).toNat }

/-- CFG_RESULT. -/
def State.cfgResult (s : State) (v : Nat) : State := s.report 0 3 v

/-- A part of the record counts as refused (R475): REFUSED is held at 63, FIRST_REFUSED keeps the first index. -/
def State.imgRefused (s : State) (index : Nat) : State :=
  let r := s.boot.report
  let n := r / 2 ^ 10 % 2 ^ 6
  let s := s.report 10 6 (min 63 (n + 1))
  if n = 0 then s.report 16 16 index else s

/-! ### Cold resets (Tables BOOT-6, BOOT-7, R446, R484, R501) -/

/-- What a loss of the main supplies or a cold reset leaves: Peat, the fuses, the boot flash, the levels at the contacts. -/
def State.darkBase (s : State) : State :=
  let t : State := {
    pending := s.pending
    freeCtr := s.freeCtr
    out := s.out
    fuse := s.fuse
    peat := s.peat
    tap := s.tap
    upd := { flash := s.upd.flash, copies := s.upd.copies }
    boot := { rstN := false, pwrOk := s.boot.pwrOk, pinBoot := s.boot.pinBoot, pinClk := s.boot.pinClk }
    pow := { railsOut := s.pow.railsOut, gated := s.pow.gated } }
  (t.wr R.RST_BOOT_STAT_PHASE 0).wrB R.PWR_MSTAT_PEAT_SRC s.peat.onBackup

/-- The pinned record as Peat kept it, with its RESTORED flag (R576). -/
def State.restorePin (s : State) : State :=
  match s.peat.storedPin with
  | none => s
  | some r => (s.modFlt fun x => { x with pinned := some { r with flags := r.flags ||| 8 } }).wrB R.FLT_STAT_FIRST_VALID true

/-- A cold reset with cause `c`. -/
def State.coldReset (s : State) (c : Nat) : State :=
  ((s.darkBase.wr R.RST_CAUSE_CAUSE c).bumpLife (7 + c)).restorePin

/-- COLD_RESET_POWER: PWR_OK rises. Peat reads the newest valid marker: a power-up marker shows that the last loss was
unannounced (R501); then it writes a power-up marker. -/
def execColdResetPower (s : State) : Host.Outcome State Fault Refusal := .next <|
  if s.boot.pwrOk then s
  else
    let p := s.peat
    let lost := match p.newest markerSlots 32 28 0 8 with
      | some a => if fieldAt (p.bytes a 32) 8 1 = 1 then some (fieldAt (p.bytes a 32) 12 8) else none
      | none => none
    let s := (s.modBoot fun b => { b with pwrOk := true }).coldReset 0
    let s := match lost with
      | some e => (((s.bumpLife 4).peatRaise 0x1305 [.q e]).modBoot fun b => { b with unannounced := true })
      | none => s
    s.writeMarker 1 0

/-- COLD_RESET_PIN: RST_N low for at least 10 µs while PWR_OK is high. -/
def execColdResetPin (s : State) : Host.Outcome State Fault Refusal := .next <|
  if s.boot.pwrOk then s.coldReset 1 else s

/-- FUSE begins once RST_N and PWR_OK are high and every rail of groups 1..4 is within its tolerance (R448, Table BOOT-1). -/
def State.fuseStart (s : State) : State :=
  if s.phase = 0 && s.boot.rstN && s.boot.pwrOk && s.pow.railsOut.isEmpty then s.wr R.RST_BOOT_STAT_PHASE 1 else s

/-- RST_N_RELEASE: the rising edge of RST_N. With PWR_OK high the straps are sampled (R469). `flash` and `copies`: pages of
the image slots (at 16,384 for each slot plus the page) and settings copies that the board has put into the boot flash. -/
def execRstNRelease (boot clk : Fin 4) (flash copies : List (Nat × List Byte)) (s : State) : Host.Outcome State Fault Refusal :=
  .next <|
  if s.phase ≠ 0 ∨ s.boot.rstN then s
  else
    let put := fun (t : Tab (Option (List Byte))) (q : Nat × List Byte) => Tab.set (fun _ => none) t q.1 (some q.2)
    let s := { s with upd := { s.upd with
      flash := (flash.filter fun (q : Nat × List Byte) => decide (q.1 < 32768)).foldl (fun t (q : Nat × List Byte) => put t (q.1, slice q.2 0 4096)) s.upd.flash
      copies := (copies.filter fun (q : Nat × List Byte) => decide (q.1 < 2)).foldl put s.upd.copies } }
    let s := s.modBoot fun b => { b with rstN := true, pinBoot := boot.val, pinClk := clk.val }
    let s := (s.wr R.RST_STRAP_PIN_BOOT boot.val).wr R.RST_STRAP_PIN_CLK clk.val
    let s := if s.boot.pwrOk then (s.wr R.RST_STRAP_BOOT_SRC boot.val).wr R.RST_STRAP_CLK_MODE clk.val else s
    s.fuseStart

/-- RAIL_IN_TOLERANCE: a rail of groups 1..4 enters its tolerance; the last one lets a delayed boot begin. -/
def execRailInTolerance (r : Fin 14) (s : State) : Host.Outcome State Fault Refusal := .next <|
  (s.modPow fun p => { p with railsOut := p.railsOut.filter (· != r.val) }).fuseStart

/-! ### FUSE (R467, R639) -/

/-- The collectors that the grade fits (Table SCO-1). -/
def State.collectors (s : State) : Nat := if s.fuse.grade = 2 then 1 else 2

/-- The identity registers from the fuses (Tables REG-4, REG-5, REG-7). -/
def State.identity (s : State) : State :=
  let f := s.fuse
  let n := s.frondCount
  let part := if f.grade = 0 then 0x4824 else if f.grade = 1 then 0x2424 else 0x1224
  let s := (s.wr R.GLB_ID_MAKER 0x4954).wr R.GLB_ID_PART part
  let s := (s.wr R.GLB_REV_SILICON f.rev).wr R.GLB_REV_FUSE_MAP f.fuseMap
  let s := ((s.wr R.GLB_GRADE_GRADE (min 2 f.grade)).wr R.GLB_GRADE_COLLECTORS s.collectors).wr R.GLB_GRADE_FRONDS n
  let s := (s.wr R.GLB_FRD_EN_LO_EN_LO (2 ^ n - 1)).wr R.GLB_FRD_EN_HI_EN_HI ((2 ^ n - 1) / 2 ^ 32)
  ((s.wr R.GLB_CAP_EP_BITS 17).wr R.GLB_CAP_SA_BITS 14).wr R.GLB_CAP_TEN_BITS 10 |>.wr R.GLB_CAP_MSH_BITS 12

/-- The registers of the secure domain, the mesh and the power manager that fuses fill. -/
def State.fuseRegs (s : State) : State :=
  let s := (s.wr R.SEC_STATE_STATE s.fuse.secState).wr R.SEC_STATE_REVOKED s.fuse.revoked
  let s := (s.wr R.MSH_UID_LO_UID_LO s.fuse.uid).wr R.MSH_UID_HI_UID_HI (s.fuse.uid / 2 ^ 32)
  ((List.range 48).filter fun f => !s.frondEnabled f).foldl (fun s f => s.wr (R.PWR_FSTAT_STATE f) 4) s

/-- `n` bytes from the entropy source (assumption 1). -/
def State.freshBytes : Nat → State → List Byte × State
  | 0, s => ([], s)
  | n + 1, s =>
    let (v, s) := s.fresh
    let (l, s) := s.freshBytes n
    (BitVec.ofNat 8 v :: l, s)

/-- SECURE begins: the boot nonce is drawn (R368), and the update state is read from Peat (R470, R516). -/
def State.secureBegin (s : State) : State :=
  let s := (s.wr R.RST_BOOT_STAT_PHASE 2).wr R.RST_BOOT_STAT_FAIL_REASON 0
  let (n, s) := s.freshBytes 16
  let s := { s with sec := { s.sec with nonce := n } }
  (s.modBoot fun b => { b with tried := [], report := 0xffff0000 }).updAfterReset

/-- The fuse array as the load leaves it: an array that is loaded already stays, and shipped parts are SECURED or RETIRED (R358). -/
def State.fuseTake (s : State) (fuse : FuseSt) : State :=
  if s.fuse.loaded then s
  else { s with fuse := { fuse with loaded := true, grade := min 2 fuse.grade, secState := if fuse.secState = 10 then 10 else 5 } }

/-- The end of the fuse phase: FAILED with the registers of the damaged fuses at 0, or SECURE begins. -/
def State.fuseEnd (s : State) (fail : Bool) (bad : List Nat) : State :=
  if fail then
    let s := (bad.filter identityOff).foldl (fun s o => s.setReg o 0) s.identity
    (s.wr R.RST_BOOT_STAT_PHASE 6).wr R.RST_BOOT_STAT_FAIL_REASON 1
  else s.identity.fuseRegs.secureBegin

/-- FUSE_LOAD_DONE: the end of FUSE. `fuse`: what the fuses of this part hold, taken the first time they are read, since
fuses change later only by programming. `fail`: a fuse word failed its check code; `bad` lists the offsets of the identity
registers that draw on failed words. -/
def execFuseLoadDone (fuse : FuseSt) (fail : Bool) (bad : List Nat) (s : State) : Host.Outcome State Fault Refusal := .next <|
  if s.phase ≠ 1 then s else (s.fuseTake fuse).fuseEnd fail bad

/-! ### CAL begins (R478) -/

/-- The CALSET records of the image for frond `f` that pass the checks and carry a usable stamp, the newest first. -/
def State.imageSets (s : State) (f : Nat) : List (List Byte) :=
  let l := (s.boot.image.map Image.records).getD []
  let ok := l.filterMap fun r => match r with
    | .calSet b => if s.setOk f b && s.setUsable f b then some b else none
    | _ => none
  sortBy (fun a b => decide ((setStamp b).1 ≤ (setStamp a).1)) ok

/-- CAL: each enabled frond keeps a usable set, takes the newest of the image, runs boot calibration, or stays
uncalibrated. -/
def State.calBegin (s : State) : State :=
  let s := s.wr R.RST_BOOT_STAT_PHASE 4
  s.frondIds.foldl (fun s f =>
    if s.calUsable f then s.calRefresh f
    else match s.imageSets f with
      | b :: _ => s.calForce f 3 b
      | [] => if s.boot.image.any Image.calRun then s.calAdmit f 0 else s) s

/-- CONFIG ends with an image checked against R474, or with factory defaults and result `code`. -/
def State.configEnd (s : State) (img : Option Image) (code : Nat) : State :=
  match img with
  | none => ((s.modBoot fun b => { b with image := none }).cfgResult code).calBegin
  | some i =>
    let c := s.imageCode i
    ((s.modBoot fun b => { b with image := if c = 0 then some i else none }).cfgResult c).calBegin

/-! ### SECURE and CONFIG (R470..R477) -/

/-- CONFIG begins: the mesh ports transmit (R412); with BOOT_SRC NONE the module takes factory defaults. -/
def State.configBegin (s : State) : State :=
  let src := s.rd R.RST_STRAP_BOOT_SRC
  let s := ((s.wr R.RST_BOOT_STAT_PHASE 3).wr R.RST_BOOT_STAT_FAIL_REASON 0).report 4 2 src
  let s := s.modBoot fun b => { b with image := none, mesh := [], meshTotal := 0, meshPort := none }
  if src = 3 then s.configEnd none 1 else s

/-- The firmware of slot `k` is admitted and runs. -/
def State.bootSlot (s : State) (k : Nat) : State :=
  let s := (s.report 8 1 k).report 9 1 (if s.boot.tried.isEmpty then 0 else 1)
  let s := { s with upd := { s.upd with run := some (firmwareOf (s.manifest k) k) } }
  (s.wr R.SEC_STATE_BOOT_SLOT k).fwRegs

/-- SECURE_SLOT_VERIFIED: the verification of the slot in turn ends: the active slot first, then the other. A pending fuse
programming is completed before the other processors are released (R517). -/
def execSecureSlotVerified (s : State) : Host.Outcome State Fault Refusal := .next <|
  if s.phase ≠ 2 then s
  else
    let k := if s.boot.tried.isEmpty then s.upd.active else 1 - s.upd.active
    match s.slotCheck k with
    | none => (s.bootSlot k).blowFuses.configBegin
    | some _ =>
      if s.boot.tried.isEmpty then s.modBoot fun b => { b with tried := [k] }
      else (s.wr R.RST_BOOT_STAT_PHASE 6).wr R.RST_BOOT_STAT_FAIL_REASON 2

/-- A settings copy as an image, when it is well formed (R472). The image is its first LENGTH bytes. -/
def State.copyImage (s : State) (k : Nat) : Option Image :=
  (Tab.get (fun _ => none) s.upd.copies k).bind fun b => parseImage (b.take (fieldAt b 8 4))

/-- The copy with the higher GENERATION among the well-formed ones; of equals, copy A. -/
def State.bestCopy (s : State) : Option (Nat × Image) :=
  match s.copyImage 0, s.copyImage 1 with
  | some a, some b => if a.generation < b.generation then some (1, b) else some (0, a)
  | some a, none => some (0, a)
  | none, some b => some (1, b)
  | none, none => none

/-- CONFIG_IMAGE_READ: the settings copies have been read from the boot flash. -/
def execConfigImageRead (s : State) : Host.Outcome State Fault Refusal := .next <|
  if s.phase = 3 ∧ s.rd R.RST_STRAP_BOOT_SRC = 0 then
    match s.bestCopy with
    | none => s.configEnd none 2
    | some (k, i) => (s.report 6 1 k).configEnd (some i) 0
  else s

/-- The outcome of a load-window transfer of a configuration image. -/
def State.loadConfig (s : State) (b : List Byte) : State :=
  match parseImage b with
  | none => s.wr R.RST_LOAD_CTL_RESULT 4
  | some i =>
    match s.imageCode i with
    | 0 => (s.wr R.RST_LOAD_CTL_RESULT 2).configEnd (some i) 0
    | 4 => s.wr R.RST_LOAD_CTL_RESULT 5
    | _ => s.wr R.RST_LOAD_CTL_RESULT 6

/-- The outcome of a recovery load: every check of Table SEC-3, then CONFIG (R471). -/
def State.loadFirmware (s : State) (b : List Byte) : State :=
  if b.length < 16384 then s.wr R.RST_LOAD_CTL_RESULT 4
  else
    let m := b.take 16384
    match s.secCheck m fun off len => (b.drop off).take len with
    | some _ => s.wr R.RST_LOAD_CTL_RESULT 7
    | none =>
      let s := (s.wr R.RST_LOAD_CTL_RESULT 2).report 7 1 1
      let s := { s with upd := { s.upd with run := some { firmwareOf m 0 with recovery := true } } }
      s.fwRegs.configBegin

/-- LOAD_WINDOW_TRANSFER_DONE: the DMA of the load window has ended, with host memory as it found it. -/
def execLoadWindowTransferDone (mem : HostMem) (s : State) : Host.Outcome State Fault Refusal := .next <|
  match s.boot.load with
  | none => s
  | some (kind, addr, len) =>
    let s := s.modBoot fun b => { b with load := none }
    if (s.fnState 0).busMaster = false then s.wr R.RST_LOAD_CTL_RESULT 3
    else match readHost mem addr len with
      | none => s.wr R.RST_LOAD_CTL_RESULT 3
      | some b => if kind = 1 then s.loadConfig b else s.loadFirmware b

/-- The request for the image bytes from `off` on port `p`. -/
def State.cfgAsk (s : State) (p off : Nat) : State := s.meshLink p 0x30 3 (natBe 4 off)

/-- The image that a member serves (R477): the settings copy it booted from, else the copy with the higher GENERATION. -/
def State.served : State → Option (List Byte) := fun s =>
  let r := s.boot.report
  if r / 2 ^ 4 % 4 = 0 ∧ r % 8 = 0 then (s.copyImage (r / 2 ^ 6 % 2)).map Image.bytes
  else s.bestCopy.map fun q => q.2.bytes

/-- CFG_REQ received on port `p`: a MEMBER with CFG_SERVE = 1 answers on the same port. -/
def execCfgReq (p : Fin 6) (errs : Nat) (b : List Byte) (s : State) : Host.Outcome State Fault Refusal := .next <|
  match s.meshTake p.val 0x30 errs b with
  | (s, none) => s
  | (s, some m) =>
    let off := beNat (slice m.payload 0 4)
    match s.served with
    | some i =>
      if s.meshState = 2 ∧ s.mesh.cfgServe ∧ off < i.length then
        s.meshLink p.val 0x31 3 (natBe 4 off ++ natBe 4 i.length ++ (i.drop off).take 1016)
      else s
    | none => s

/-- A chunk of the image: it continues what is held, or restarts it when TOTAL or GENERATION differs (R477). -/
def State.cfgChunk (s : State) (p off total : Nat) (data : List Byte) : State :=
  let b := s.boot
  let restart := decide (b.mesh ≠ []) && (decide (b.meshTotal ≠ total) ||
    (decide (off = 0) && decide (16 ≤ b.mesh.length) && decide (fieldAt b.mesh 12 4 ≠ fieldAt data 12 4)))
  if restart ∧ off ≠ 0 then
    (s.modBoot fun b => { b with mesh := [], meshTotal := total, meshPort := some p }).cfgAsk p 0
  else if off ≠ (if restart then 0 else b.mesh.length) then s
  else
    let got := ((if restart then [] else b.mesh) ++ data).take total
    let s := s.modBoot fun b => { b with mesh := got, meshTotal := total, meshPort := some p }
    if got.length < total then s.cfgAsk p got.length
    else match parseImage got with
      | none => s.configEnd none 3
      | some i => s.configEnd (some i) 0

/-- CFG_DATA received on port `p`: taken while the module waits, from the port that answered. -/
def execCfgData (p : Fin 6) (errs : Nat) (b : List Byte) (s : State) : Host.Outcome State Fault Refusal := .next <|
  match s.meshTake p.val 0x31 errs b with
  | (s, none) => s
  | (s, some m) =>
    let data := m.payload.drop 8
    if s.meshBooting && (s.boot.meshPort.all (· == p.val)) && !data.isEmpty && decide (data.length ≤ 1016) then
      s.cfgChunk p.val (beNat (slice m.payload 0 4)) (beNat (slice m.payload 4 4)) data
    else s

/-- CFG_REQUEST_RETRY: no CFG_DATA for 10 ms: the request is repeated on UP port `p`, and any port may answer. -/
def execCfgRequestRetry (p : Fin 6) (s : State) : Host.Outcome State Fault Refusal := .next <|
  if s.meshBooting && s.meshUp p.val then
    (s.modBoot fun b => { b with meshPort := none }).cfgAsk p.val s.boot.mesh.length
  else s

/-- MESH_CONFIG_TIMEOUT: no complete image 30 s after CONFIG began. -/
def execMeshConfigTimeout (s : State) : Host.Outcome State Fault Refusal := .next <|
  if s.meshBooting then s.configEnd none 6 else s

/-! ### The module warm reset (Tables BOOT-6, BOOT-7, R484) -/

/-- What a function keeps: its place in PCIe configuration space and its MSI-X masks. -/
def FnState.warm (x : FnState) : FnState :=
  { vfEnabled := x.vfEnabled, busMaster := x.busMaster, dropped := x.dropped
    vectors := (x.vectors.filter fun v => !v.2.masked).map fun v => (v.1, { masked := false }) }

/-- Frond `f` keeps its calibration values, and the registers that show them. -/
def State.warmCal (s : State) (f : Nat) : State :=
  match (s.frondCal f).act with
  | none => s
  | some b => ((s.calRegs f).wr (R.CAL_GEN_GEN f) (fieldAt b 8 4)).calRefresh f

/-- A module warm reset with cause `c`: boot restarts at SECURE. -/
def State.warmReset (s : State) (c : Nat) : State :=
  let keep := fun (off : Nat) (t : State) => t.setReg off (s.reg off)
  let t : State := {
    pending := s.pending
    tick := s.tick
    freeCtr := s.freeCtr
    out := s.out
    fuse := s.fuse
    peat := s.peat
    tap := s.tap
    upd := { flash := s.upd.flash, copies := s.upd.copies }
    boot := {
      rstN := s.boot.rstN, pwrOk := s.boot.pwrOk, pinBoot := s.boot.pinBoot, pinClk := s.boot.pinClk
      warm := true, held := s.boot.held }
    pow := { railsOut := s.pow.railsOut, gated := s.pow.gated }
    host := { fns := (s.host.fns.map fun q => (q.1, q.2.warm)).filter fun q => decide (q.2 ≠ {}) }
    flt := { log := s.flt.log, pinned := s.flt.pinned, alertN := s.flt.alertN, faultN := s.flt.faultN }
    cals := (s.cals.map fun q => (q.1, ({ act := q.2.act } : FrondCal))).filter fun q => decide (q.2 ≠ {})
    mbx := s.mbReset.mbx }
  let t := [0x60000, 0x60008, R.FLT_LOG_WR_COUNT.off].foldl (fun t o => keep o t) t
  let t := (List.range 8).foldl (fun t r => keep (R.PWR_AVS_TGT r).off t) t
  let t := (t.wrB R.FLT_STAT_FIRST_VALID s.flt.pinned.isSome).wrB R.FLT_STAT_FAULT_N s.flt.faultN
  let t := (t.wr R.RST_CAUSE_CAUSE c).wrB R.PWR_MSTAT_PEAT_SRC s.peat.onBackup
  let t := t.identity.fuseRegs
  let t := t.frondIds.foldl State.warmCal t
  (t.bumpLife (7 + c)).secureBegin

/-- Step 10: a requested module warm reset begins. -/
def State.warmStep (s : State) : State :=
  match s.boot.warmReq, s.flt.warmNext with
  | none, none => s
  | some a, none => s.warmReset a
  | none, some b => s.warmReset b
  | some a, some b => s.warmReset (min a b)

/-! ### Watchdogs -/

/-- MGMT_WATCHDOG: the management processor was not serviced for 160,000 ticks (R481). -/
def execMgmtWatchdog (s : State) : Host.Outcome State Fault Refusal := .next <|
  s.sendFault ⟨0x002, 0x06, 6, false, 0, s.tick⟩

/-- LOOP_WATCHDOG of frond `f` (R568). During a firmware trial it counts as a failed self-check of part 2. -/
def execLoopWatchdog (f : Fin 48) (s : State) : Host.Outcome State Fault Refusal := .next <|
  if !s.frondEnabled f.val then s
  else
    let s := s.sendFault ⟨0x180 + f.val, 0x0b, 4, false, 0, s.tick⟩
    if s.upd.state = 7 then
      { s with upd := { s.upd with outcome := if s.upd.outcome.any (fun o => decide (o < 0x90)) then s.upd.outcome else some 0x82 } }
    else s

/-! ### Block resets (R485..R487) -/

/-- The status and counter registers of frond `f`'s region return to their reset values; configuration, the calibrated
delays, the stamp, the loading handshake and the squelch stay. -/
def State.frondStatusReset (s : State) (f : Nat) : State :=
  let b := 0x100000 + 0x10000 * f
  [(0x124, 0x12f), (0x204, 0x20f), (0x30c, 0x323), (0x340, 0x37f), (0x410, 0x413), (0x604, 0x647), (0x708, 0x71f)].foldl
    (fun s r => s.resetRegs (b + r.1) (b + r.2)) s

/-- The reset of FRD f begins (R487): acquisition, equaliser and decoder state and buffers are lost, defects cleared, its PM
bins SUSPECT, the counters of chapter 26 at 0 (R590). A retained equaliser state is left for R123 to judge. -/
def State.frondResetBegin (s : State) (f : Nat) : State :=
  let held := decide (s.acqState f = 5)
  let s := s.calAbort f 12
  let s := if held then s.refreshStamp f else s
  let s := ((s.stopDefects f).gccStop f).frondStatusReset f
  let s := s.modFrond f fun x => { x with
    rx := { bank0 := x.rx.bank0, bank1 := x.rx.bank1, swapAt := x.rx.swapAt, dark := x.rx.dark
            linePower := x.rx.linePower, laserPower := x.rx.laserPower }
    acq := {}
    eq := { d := x.eq.d, slope := x.eq.slope, kept := x.eq.kept || held, keptTaps := x.eq.keptTaps || held
            discard := x.eq.discard, deepest := x.eq.deepest, track := x.eq.track }
    ld := { x.ld with
      rxKnown := false
      inferred := 0
      zeroNext := []
      snrSum := List.replicate 32 0
      snrCnt := List.replicate 32 0 }
    fec := {}
    slf := { x.slf with
      gccFwRx := []
      acqBoundary := false }
    pm := { x.pm with
      b15 := { x.pm.b15 with suspect := true }
      b24 := { x.pm.b24 with suspect := true } } }
  (s.pcBlockReset f).squelchUpdate f

/-- The ports of client lane block `j`. -/
def State.blockPorts (s : State) (j : Nat) : List Nat := (s.ports.map Prod.fst).filter fun p => p / 48 == j

/-- The reset of a client lane block begins: its ports enter HUNT, its status and counter registers return to reset. -/
def State.laneResetBegin (s : State) (j : Nat) : State :=
  let s := (List.range 48).foldl (fun s i =>
    let l := 48 * j + i
    let s := s.resetRegs (R.CLT_LANE_SER_CORR l).off (R.CLT_LANE_SER_CORR l).off
    s.resetRegs (R.CLT_PORT_UNC_UNC l).off (R.CLT_PORT_ADAPT_INS l).off) s
  (s.blockPorts j).foldl (fun s p =>
    let x := s.port p
    ((s.setPort p { x with
      hits := [], misses := [], locked := [], inverted := [], gidm := false, pidm := [], rdi := false, lf := false, rf := false
      hiSer := false, level := 2048, inFrame := false, inMf := false, dLof := false, dLom := false
      oofRun := {}, ifRun := {}, omRun := {}, imRun := {} }).updatePort p).portRegs p) s

/-- The MSH descriptors of the configuration image (R440). -/
def State.imageMesh (s : State) : List ReqBody :=
  ((s.boot.image.map Image.records).getD []).filterMap fun r => match r with
    | .descriptor d => match bodyOf id d with
      | .mshSetup a b c d e f g h i => some (.mshSetup a b c d e f g h i)
      | .mshRemote l => some (.mshRemote l)
      | _ => none
    | _ => none

/-- The mesh block restarts, with the settings of the image (R440). -/
def State.meshRestart (s : State) : State :=
  let s := s.imageMesh.foldl (fun s b => (b.app 0 { src := .image 0, tenant := 0, any := false, eff := s.tick, mem := [] } s).s)
    (s.meshReset true)
  s.beginClaim

/-- A block reset begins (step 7). -/
def State.blockResetBegin (s : State) (b : Nat) : State :=
  match s.resetTicks b with
  | none => s
  | some n =>
    if s.blockInReset b then s
    else
      let s := (s.modBoot fun x => { x with inReset := x.inReset ++ [{ id := b, ends := s.tick + n }] }).bumpLife 12
      let s := s.raise 0x1202 b
      if b = 0x010 then s.mbReset
      else if b = 0x011 then s.meshReset false
      else if b = 0x012 then s.monStop
      else if b = 0x013 then s.calResetAll
      else if b < 0x200 then s.frondResetBegin (b - 0x100)
      else if b < 0x300 then s.laneResetBegin (b - 0x200)
      else s.cryptoStop b

/-- BLOCK reactions decided in the tick that ended: deferred on a held block, ignored on one in reset (R569, Table FLT-6). -/
def State.blockReactions (s : State) : State :=
  let l := s.flt.blockNext
  l.foldl (fun s b =>
    if s.isHeld b then s.defer b 3 3 0
    else s.modBoot fun x => { x with blockReqs := x.blockReqs.filter (· != b) ++ [b] }) (s.modFlt fun x => { x with blockNext := [] })

/-- Step 7: block resets begin, in the order of their IDs; none while a module warm reset is pending (R483). -/
def State.blockStep (s : State) : State :=
  let s := s.blockReactions
  let l := sortBy (fun a b => decide (a ≤ b)) s.boot.blockReqs
  let s := s.modBoot fun b => { b with blockReqs := [] }
  if s.boot.warmReq.isSome ∨ s.flt.warmNext.isSome then s else l.foldl State.blockResetBegin s

/-- What the end of a block's reset does. -/
def State.blockResetEnd (s : State) (b : Nat) : State :=
  if b = 0x011 then s.meshRestart
  else if b = 0x012 then s.monRestart
  else if b < 0x100 then s
  else if b < 0x200 then
    let f := b - 0x100
    let s := s.squelchUpdate f
    let s := s.updateLos f
    if s.lineRun f ∧ s.pState f ≤ 1 then (s.stampRule f).leaveIdle f false else s
  else if b < 0x300 then (s.blockPorts (b - 0x200)).foldl (fun s p => s.updatePort p) s
  else s.cryptoRun b

/-- BLOCK_RESET_END: the reset of block `id` has lasted its time. A reset that a thermal trip suspended completes after the
block is ungated (R483). -/
def execBlockResetEnd (id : Fin 4096) (s : State) : Host.Outcome State Fault Refusal := .next <|
  match s.boot.inReset.find? fun x => x.id == id.val with
  | none => s
  | some x =>
    if s.tick < x.ends ∨ (x.suspended ∧ s.pow.gated) then s
    else
      let s := s.modBoot fun b => { b with inReset := b.inReset.filter fun y => y.id != id.val }
      (s.blockResetEnd id.val).raise 0x1203 id.val [.w x.refused]

/-! ### Loss of the main supplies (R447, R501) -/

/-- POWER_DOWN_ORDERLY: PWR_OK falls. Peat commits the life record and writes a shutdown marker with TICK; every transmitter is
squelched, every client port sends local fault, and nothing more is written to host memory. -/
def execPowerDownOrderly (s : State) : Host.Outcome State Fault Refusal := .next <|
  if !s.boot.pwrOk then s
  else
    let s := s.commitLife.writeMarker 2 (if s.running then s.tick else 0)
    let s := (s.modBoot fun b => { b with pwrOk := false, rstN := false }).wr R.RST_BOOT_STAT_PHASE 0
    let s := s.frondIds.foldl (fun s f =>
      let s := s.modFrond f fun x => { x with tx := { x.tx with squelched := true } }
      (s.wrB (R.FRD_TX_STAT_DARK f) true).wr (R.FRD_TX_STAT_PWR_MEAS f) 0x80) s
    { s with
      ports := s.ports.map fun q => (q.1, { q.2 with txRow := 3, repl := true })
      host := { s.host with requests := [], done := [], events := [], reads := [] } }

/-- MAIN_SUPPLY_LOSS: the main supplies are lost, announced or not (Table OVW-6): every rail of groups 1..4 leaves its
tolerance, and the test access port with VIO. -/
def execMainSupplyLoss (s : State) : Host.Outcome State Fault Refusal := .next <|
  let s := (s.modBoot fun b => { b with pwrOk := false }).darkBase
  ({ s with tap := {} } : State).modPow fun p => { p with railsOut := List.range 14 }

end Sys2Proof.Machine
end

