-- ==== Sys2Proof/Machine/Doorbell.lean ====
section
/-! DEFINITION. The doorbell record and the fetch (R315..R320, R337, R40). -/
namespace Sys2Proof.Machine

/-- A ring count in the registers is taken modulo 2^32. -/
def countDiff (a b : Nat) : Nat := (a + 2 ^ 32 - b % 2 ^ 32) % 2 ^ 32

/-- A ring count after `n` more descriptors. -/
def countAdd (k n : Nat) : Nat := (k + n) % 2 ^ 32

/-! ### The doorbell record (R315, R316) -/

/-- CR_TAIL and CQ_HEAD of command ring `r`: each is taken, or ignored with COUNT_ERR. -/
def State.doorbellRing (s : State) (fn : Nat) (rec : List Byte) (r : Nat) : State :=
  if !s.ringOn fn r then s
  else
    let x := s.ring fn r
    let tail := fieldAt rec (4 * r) 4
    let head := fieldAt rec (16 + 4 * r) 4
    let tailOk := decide (countDiff tail (s.rd (R.HST_CR_FETCHED_COUNT fn r)) ≤ 2 ^ x.log2)
    let headOk := decide (countDiff (s.rd (R.HST_CQ_WRITTEN_COUNT fn r)) head ≤ 2 ^ x.log2)
    let s := s.setRing fn r { x with tail := if tailOk then tail else x.tail, head := if headOk then head else x.head }
    if tailOk && headOk then s else s.fnError fn (2 ^ (12 + r))

/-- EQ_HEAD. -/
def State.doorbellEq (s : State) (fn : Nat) (rec : List Byte) : State :=
  if !s.eqOn fn then s
  else
    let head := fieldAt rec 32 4
    if countDiff (s.rd (R.HST_EQ_CNT_COUNT fn)) head ≤ 2 ^ (s.fnState fn).eqLog2 then
      s.modFn fn fun x => { x with eqHead := head }
    else s.fnError fn 0x800

/-- The doorbell record of `fn`; one that cannot be read counts as unchanged. -/
def State.doorbell (s : State) (mem : HostMem) (fn : Nat) : State :=
  match readHost mem (s.baseOf (R.HST_DB_ADDR_LO_ADDR_LO fn) (R.HST_DB_ADDR_HI_ADDR_HI fn)) 64 with
  | none => s.fnError fn 1
  | some rec => ((List.range 4).foldl (fun s r => s.doorbellRing fn rec r) s).doorbellEq fn rec

/-! ### Fetch (R317, R320, R337) -/

/-- The descriptors of the request that begins at descriptor `k`, at most `fuel`, of the `n` visible ones: those read, and
whether the last one was unreadable. None while its last part is not visible. -/
def collect (mem : HostMem) (x : Ring) : Nat → Nat → Nat → Option (List (List Byte) × Bool)
  | _, 0, _ => some ([], false)
  | _, _, 0 => none
  | k, fuel + 1, n + 1 =>
    match readHost mem (x.crBase + 64 * (k % 2 ^ x.log2)) 64 with
    | none => some ([], true)
    | some d =>
      if descChain d then (collect mem x (k + 1) fuel n).map fun (l, bad) => (d :: l, bad) else some ([d], false)

/-- The request of descriptors `l` that starts at descriptor `k`; `bad`: an unreadable one follows them and is part of it. -/
def State.fetched (s : State) (fn r k : Nat) (l : List (List Byte)) (bad : Bool) : Request :=
  let eff := resolveEff s.tick ((l.head?.map fun d => fieldAt d 8 8).getD 0)
  { src := .host fn r, dn := k, seq := (l.head?.map descSeq).getD (k % 65536), eff := eff, pended := decide (s.tick + 2 < eff)
    overlong := decide (l.length = 16) && (l.getLast?.map descChain).getD false
    parts := l.map (partOf id) ++ (if bad then [partOf id []] else []) }

/-- The checks of the fetch (Table HST-5, 1..4; R337): a refusal, or the request waits for its tick. -/
def State.fetchCheck (s : State) (fn r k : Nat) (l : List (List Byte)) (bad : Bool) : State :=
  let q := s.fetched fn r k l bad
  if bad then (s.fnError fn 2).refuseAtFetch q l.length St.hostRead 1
  else
    match l.zipIdx.find? fun d => descSeq d.1 != (k + d.2) % 65536 with
    | some d => s.refuseAtFetch q d.2 St.sequence 0
    | none =>
      match leadCheck s.tick ((l.head?.map fun d => fieldAt d 8 8).getD 0) l.length s.pendedCount with
      | some st => s.refuseAtFetch q 0 st 0
      | none => s.pendRequest q

/-- The fetch of the `n` descriptors `l` at descriptor `k` of ring `r`: the counts move and the checks of the fetch follow. -/
def State.fetchTake (s : State) (fn r k n : Nat) (l : List (List Byte)) (bad : Bool) : State :=
  let x := s.ring fn r
  ((s.setRing fn r { x with requests := x.requests + 1 }).wr (R.HST_CR_FETCHED_COUNT fn r)
    (countAdd k n)).fetchCheck fn r k l bad

/-- The fetch of the descriptors that `c` collected at descriptor `k` of ring `r`, if the limits `ring` and `all` allow it, with
their number. -/
def State.fetchWith (s : State) (fn r k ring all : Nat) (c : Option (List (List Byte) × Bool)) : Option (State × Nat) :=
  match c with
  | none => none
  | some (l, bad) =>
    let n := l.length + (if bad then 1 else 0)
    if ring < n ∨ all < n then none else some (s.fetchTake fn r k n l bad, n)

/-- Fetches the next request of ring `r` if the limits `ring` and `all` allow it, with the number of its descriptors. -/
def State.fetchOne (s : State) (mem : HostMem) (fn r ring all : Nat) : Option (State × Nat) :=
  let x := s.ring fn r
  let k := s.rd (R.HST_CR_FETCHED_COUNT fn r)
  if 2 ^ x.log2 ≤ countDiff x.requests x.head then none
  else s.fetchWith fn r k ring all (collect mem x k 16 (countDiff x.tail k))

/-- The requests of ring `r` fetched in a tick, at most `fuel` of them, within the remainders of the ring and of the tick. -/
def State.fetchRing (s : State) (mem : HostMem) (fn r : Nat) : Nat → Nat → Nat → State × Nat
  | 0, _, all => (s, all)
  | fuel + 1, ring, all =>
    match s.fetchOne mem fn r ring all with
    | none => (s, all)
    | some (t, n) => t.fetchRing mem fn r fuel (ring - n) (all - n)

/-- The four command rings of `fn`. -/
def State.fetchFn (mem : HostMem) (a : State × Nat) (fn : Nat) : State × Nat :=
  (List.range 4).foldl (fun a r => if a.1.ringOn fn r then a.1.fetchRing mem fn r 256 256 a.2 else a) a

/-- The functions whose doorbell records are read, starting with function TICK mod 256. -/
def State.doorbellFns (s : State) : List Nat :=
  ((List.range 256).map fun i => (s.tick + i) % 256).filter fun fn =>
    (s.fnState fn).busMaster && ((List.range 4).any (s.ringOn fn) || s.eqOn fn)

/-- DOORBELL_READ: core cycle 0 of a tick, with the host memory as the module finds it. -/
def execDoorbellRead (mem : HostMem) (s : State) : Host.Outcome State Fault Refusal := .next <|
  if !s.boot.pwrOk || !s.running then s
  else
    let fns := s.doorbellFns
    let s := fns.foldl (fun s fn => s.doorbell mem fn) s
    (fns.foldl (State.fetchFn mem) (s, 4096)).1

end Sys2Proof.Machine
end

