-- ==== Sys2Proof/Machine/Peat.lean ====
section
/-! DEFINITION. The Peat second, the Peat supplies and the host's settings of calendar and epoch (chapter 20, R449..R451). -/
namespace Sys2Proof.Machine

/-! ### The Peat second (R489, R496, R499) -/

/-- A time counter advances. -/
def State.tally (s : State) (i : Nat) (on : Bool) : State := if on then s.modPeat fun p => p.count i else s

/-- The time counters of Table PEAT-3; those of a frond need the main supplies. -/
def State.timeCounters (s : State) : State :=
  let s := (s.tally 0 s.boot.pwrOk).tally 1 s.peat.onBackup
  s.frondIds.foldl (fun s f => s.tally (16 + f) (s.boot.pwrOk && s.running && s.pState f == 0)) s

/-- What a Peat second commits: the life record every 64 seconds or after a change, a pinned record that waits, the update
state. `fails`: life store words whose read-back fails (R502). -/
def State.peatCommit (s : State) (fails : List Nat) : State :=
  let s := if s.peat.commitDue || decide (s.peat.lastCommit + 64 ≤ s.peat.esec) then s.commitLife fails else s
  let s := if s.peat.pinDue then s.storePin fails else s
  if s.upd.dirty then s.commitUpd fails else s

/-- PEAT_SECOND. -/
def execPeatSecond (fails : List Nat) (s : State) : Host.Outcome State Fault Refusal := .next <|
  if s.peat.powered then
    (((s.modPeat fun p => { p with esec := p.esec + 1 }).calSecond).timeCounters).peatCommit fails
  else s

/-! ### The Peat supplies -/

/-- The feed of the Peat domain changes: PEAT_SRC and PEAT_SOURCE while the main supplies are present. -/
def State.peatSource (s : State) (backup : Bool) : State :=
  let s := s.modPeat fun p => { p with onBackup := backup }
  if s.boot.pwrOk then (s.wrB R.PWR_MSTAT_PEAT_SRC backup).raise 0x1106 0 [.w (if backup then 1 else 0)] else s

/-- PEAT_SWITCH_TO_VBAK: VKEEP falls below 1.62 V. -/
def execPeatSwitchToVbak (s : State) : Host.Outcome State Fault Refusal := .next <|
  if s.peat.powered && !s.peat.onBackup then (s.peatSource true).bumpLife 2 else s

/-- PEAT_RETURN_TO_VKEEP: VKEEP has stayed at or above 1.71 V for 1 ms. -/
def execPeatReturnToVkeep (s : State) : Host.Outcome State Fault Refusal := .next <|
  if s.peat.powered && s.peat.onBackup then s.peatSource false else s

/-- PEAT_POWER_LOSS: both feeds are gone. Event counts are committed within their second (R499), so none is lost. -/
def execPeatPowerLoss (s : State) : Host.Outcome State Fault Refusal := .next <|
  if s.peat.powered then
    let s := if s.peat.commitDue then s.commitLife else s
    s.modPeat fun p => { p with powered := false }
  else s

/-- What the life store gives back (R503): the newest valid life record, ESEC 64 on; the calendar restarts, not valid; older
stamps are not usable. -/
def PeatSt.restored (p : PeatSt) (backup : Bool) : PeatSt :=
  let seqOf := fun (slots : List Nat) (len crc : Nat) => match p.newest slots len crc 0 8 with
    | some a => fieldAt (p.bytes a len) 0 8 + 1
    | none => 0
  let q : PeatSt := {
    powered := true
    onBackup := backup
    store := p.store
    remap := p.remap
    badCopies := p.badCopies
    held := p.held
    hotLow := p.hotLow
    markerSeq := seqOf markerSlots 32 28
    pinSeq := (pinSlots.filter p.pinOk).foldl (fun m a => max m (fieldAt (p.bytes a 64) 48 8)) 0 }
  match p.newest lifeSlots 1024 1020 0 8 with
  | none => { q with esec := 64, lastCommit := 64, floor := 64 }
  | some a =>
    let b := p.bytes a 1024
    let e := fieldAt b 8 8 + 64
    { q with
      esec := e
      lastCommit := e
      floor := e
      lifeSeq := fieldAt b 0 8 + 1
      epoch := fieldAt b 16 8
      prevEpoch := fieldAt b 24 8
      counters := (List.range 160).foldl (fun t i => Tab.set (fun _ => 0) t i (fieldAt b (40 + 4 * i) 4)) [] }

/-- PEAT_POWER_RETURN, from VKEEP or, with `backup`, from VBAK. -/
def execPeatPowerReturn (backup : Bool) (s : State) : Host.Outcome State Fault Refusal := .next <|
  if s.peat.powered then s
  else
    let s := (s.modPeat fun p => p.restored backup).bumpLife 3
    let s := s.peatRaise 0x1304 [.q s.peat.esec]
    if s.boot.pwrOk then
      let s := s.wrB R.PWR_MSTAT_PEAT_SRC backup
      if s.running then s.wrB R.PEAT_STAT_PEAT_LOST true else s
    else s

/-! ### Calendar and epoch (R492, R495) -/

/-- CALENDAR_SET: SETDATE and SETTIME as written, and GO as it takes effect. -/
def execCalendarSet (date time : Word) (s : State) : Host.Outcome State Fault Refusal := .next <|
  s.pfWrite R.PEAT_CAL_CMD_GO.off fun s =>
    ((s.setReg R.PEAT_CAL_SETDATE_SETDATE.off date).setReg R.PEAT_CAL_SETTIME_SETTIME.off time).calGo

/-- EPOCH_SET: PEAT_EPOCH_NEW as written, and GO as it takes effect. -/
def execEpochSet (epoch : BitVec 64) (s : State) : Host.Outcome State Fault Refusal := .next <|
  s.pfWrite R.PEAT_EPOCH_CMD_GO.off fun s =>
    (((s.wr R.PEAT_EPOCH_NEW_LO_NEW epoch.toNat).wr R.PEAT_EPOCH_NEW_HI_NEW (epoch.toNat / 2 ^ 32)).epochGo).meshEpoch

end Sys2Proof.Machine
end

