-- ==== Sys2Proof/Machine/Scan.lean ====
section
/-! DEFINITION. The test access port (R605, R606, Table PIN-5). Its controller and the capture, shift and update of its
registers are those of IEEE Std 1149.1, which R605 names (assumption 5). -/
namespace Sys2Proof.Machine

/-- The state after a rising edge of TCK. -/
def TapState.next : TapState → Bool → TapState
  | .reset, tms => if tms then .reset else .idle
  | .idle, tms => if tms then .selectDr else .idle
  | .selectDr, tms => if tms then .selectIr else .captureDr
  | .captureDr, tms => if tms then .exit1Dr else .shiftDr
  | .shiftDr, tms => if tms then .exit1Dr else .shiftDr
  | .exit1Dr, tms => if tms then .updateDr else .pauseDr
  | .pauseDr, tms => if tms then .exit2Dr else .pauseDr
  | .exit2Dr, tms => if tms then .updateDr else .shiftDr
  | .updateDr, tms => if tms then .selectDr else .idle
  | .selectIr, tms => if tms then .reset else .captureIr
  | .captureIr, tms => if tms then .exit1Ir else .shiftIr
  | .shiftIr, tms => if tms then .exit1Ir else .shiftIr
  | .exit1Ir, tms => if tms then .updateIr else .pauseIr
  | .pauseIr, tms => if tms then .exit2Ir else .pauseIr
  | .exit2Ir, tms => if tms then .updateIr else .shiftIr
  | .updateIr, tms => if tms then .selectDr else .idle

/-- An instruction that selects the boundary register. -/
def tapBoundary (ir : Nat) : Bool := ir == 0x00 || ir == 0x02 || ir == 0x06 || ir == 0x07

/-- What an instruction makes the boundary cells do. -/
def tapDrive (ir : Nat) : PadDrive :=
  if ir = 0x00 ∨ ir = 0x05 then .latched
  else if ir = 0x04 then .highZ
  else if ir = 0x06 then .pulse
  else if ir = 0x07 then .train
  else .normal

/-- `n` bits of `v`, the lowest first. -/
def bitsLow (n v : Nat) : List Bool := (List.range n).map fun i => v.testBit i

/-- IDCODE: the silicon revision, the part number, and the low bits of the BSDL file (assumption 5). Before the fuses have been
read, what the upper bits are is not in the state, and they are left open. -/
def State.idcode (s : State) : Nat :=
  let part := if s.fuse.grade = 0 then 0x4824 else if s.fuse.grade = 1 then 0x2424 else 0x1224
  let up := if s.fuse.loaded then s.fuse.rev % 16 * 2 ^ 16 + part else Config.free (2 ^ 65) % 2 ^ 20
  up * 2 ^ 12 + Config.bsdlId % 2 ^ 12

/-- What Capture-DR loads: the levels at the contacts, IDCODE, or the bypass bit 0. -/
def State.tapCapture (s : State) (pads : List Bool) : List Bool :=
  if tapBoundary s.tap.ir then pads
  else if s.tap.ir = 0x01 then bitsLow 32 s.idcode
  else [false]

/-- Loads a new instruction. -/
def Tap.load (t : Tap) (ir : Nat) : Tap := { t with ir := ir, drive := tapDrive ir }

/-- The rising edge of TCK: the work of the present state, then the next state. -/
def State.tapRise (s : State) (tms tdi : Bool) (pads : List Bool) : State :=
  let t := s.tap
  let t := match t.st with
    | .captureDr => { t with dr := s.tapCapture pads }
    | .shiftDr => { t with dr := t.dr.drop 1 ++ [tdi] }
    | .captureIr => { t with irShift := Config.bsdlIr % 64 * 4 + 1 }
    | .shiftIr => { t with irShift := t.irShift / 2 + (if tdi then 128 else 0) }
    | _ => t
  { s with tap := { t with st := t.st.next tms } }

/-- The falling edge that follows: an update takes effect, and TDO moves in the shift states. -/
def State.tapFall (s : State) : State :=
  let t := s.tap
  match t.st with
  | .reset => { s with tap := t.load 0x01 }
  | .updateDr => { s with tap := if tapBoundary t.ir then { t with latch := t.dr } else t }
  | .updateIr => { s with tap := t.load t.irShift }
  | .shiftDr => s.emit (.tdo (t.dr.headD false))
  | .shiftIr => s.emit (.tdo (t.irShift % 2 == 1))
  | _ => s

/-- BOUNDARY_SCAN: one cycle of TCK, with the levels of TMS, TDI and TRST_N and those that the boundary cells see, in the order
of the BSDL file. The port works in every boot phase while VIO is within its tolerance. -/
def execBoundaryScan (tms tdi trstN : Bool) (pads : List Bool) (s : State) : Host.Outcome State Fault Refusal := .next <|
  if s.pow.railsOut.contains 13 then s
  else if !trstN then { s with tap := ({ s.tap with st := .reset } : Tap).load 0x01 }
  else (s.tapRise tms tdi pads).tapFall

end Sys2Proof.Machine
end

