-- ==== Sys2Proof/Machine/TickBoundary.lean ====
section
/-! DEFINITION. The tick boundary in the order of Table TCK-5 (R42, R43), and the release from reset (R478..R480), whose
boundary is that of tick 0. -/
namespace Sys2Proof.Machine

/-! ### The end of a tick -/

/-- FRD_SLF_DEFLAT latches the defects that hold. -/
def State.latchDefects (s : State) (f : Nat) : State :=
  let lat := R.FRD_SLF_DEFLAT_LATCHED f
  s.wr lat (s.rd lat ||| (s.reg (slfDef f 0).off).toNat % 2 ^ 16)

/-- The tap integrators hand over the averages of the tick: frond, line input, laser input (R538). -/
def State.tapAverages (s : State) (taps : List (Nat × Int × Int)) : State :=
  taps.foldl (fun s (f, line, laser) =>
    if s.frondEnabled f then s.modFrond f fun x => { x with rx := { x.rx with linePower := line, laserPower := laser } }
    else s) s

/-- What ends with a tick: crossing runs, defect latches, the pipeline counters, the conditions of PM, timing and heat, then the
completions and events of the tick and ALERT_N. -/
def State.endTick (s : State) (taps : List (Nat × Int × Int)) : State :=
  let s := (List.range 10).foldl State.mbCross s
  let s := s.frondIds.foldl (fun s f => (s.latchDefects f).pcTickEnd f) s
  (s.tapAverages taps).pmTick.timPresence.thermTick.flushDone.flushEvents.driveAlertN

/-! ### Steps 2 and 3 -/

/-- Step 2: transmit loading-table swaps, front filter and calibration bank swaps, key rolls whose tick has come. -/
def State.scheduled (s : State) : State :=
  let s := s.frondIds.foldl (fun s f => ((s.txSwapDue f).firSwap f).calSwap f) s
  (s.sas.map Prod.fst).foldl State.keyRollApply s

/-- A time step delivered by the timing block takes effect, after a host write (R407, R493). -/
def State.timeStep (s : State) : State :=
  match s.tim.stepDue with
  | none => s
  | some (label, edge) => (s.modTim fun t => { t with stepDue := none }).calStep label edge

/-- A decoder that still works on a superframe of the tick that ended keeps that tick's iteration budget (R38). -/
def State.keepBudget (s : State) : State :=
  s.frondIds.foldl (fun s f =>
    let n := s.iterLimit f
    s.modFrond f fun x => { x with fec := { x.fec with iterWas := n } }) s

/-! ### Steps 4 to 10 -/

/-- The steps after the commands. -/
def State.laterSteps (s : State) : State :=
  s.releaseAll.holdStep.gateStep.powerStep.blockStep.selectAll.fwSwitch.trialStep.warmStep

/-- What follows the steps: the state in which the new tick's work finds each frond, squelches, the outputs, published results,
the mesh, fenced table words, FAULT_N. -/
def State.boundaryEnd (s : State) : State :=
  if !s.running then s
  else
    let s := s.frondIds.foldl (fun s f =>
      let acq := decide (s.acqState f = 5)
      (s.squelchUpdate f).modSlf f fun x => { x with acqBoundary := acq, tickAllIf := x.inFrame }) s
    let s := ((List.range 10).foldl State.resumeOut s).tickOut.ppsOut.monPublish
    let s := ((List.range 6).foldl State.upAgain s).meshEpoch
    s.memBoundary.xcRegs.saRegs.pmBacklog.driveFaultN

/-- A boundary while boot runs: only the internal time base, calibration, the mesh ports, the monitor, a warm reset. -/
def State.bootTick (s : State) : State :=
  let s := { s with tick := s.tick + 1 }
  let s := (s.frondIds.foldl State.calSwap s).monPublish
  ((List.range 6).foldl State.upAgain s).warmStep

/-- TICK_BOUNDARY: the tick ends, TICK increments, and the changes of the boundary are made. `mem`: host memory as the operand
reads of the check tick find it; `taps`: the tap averages of the tick that ends. -/
def execTickBoundary (mem : HostMem) (taps : List (Nat × Int × Int)) (s : State) : Host.Outcome State Fault Refusal := .next <|
  if !s.boot.pwrOk ∨ s.phase = 0 then s
  else if !s.running then s.bootTick
  else
    let s := (s.endTick taps).checkTick mem
    let s := { s with tick := s.tick + 1, host := { s.host with readBudgetUsed := 0 } }
    let s := s.safeStep.keepBudget.scheduled.kekStep.retireStep
    let due := (s.requestsAt s.tick).length
    let s := s.applyWts.timeStep
    (s.applyTick mem (decide ((s.requestsAt s.tick).length < due))).laterSteps.boundaryEnd

/-! ### Release: the time base -/

/-- TICK becomes 0: what was stamped on the internal time base of boot starts afresh. -/
def State.rebase (s : State) : State :=
  let port := fun (x : MeshPort) => { x with helloTick := x.helloTick.map fun _ => 0, uidTick := none, sentTick := 0 }
  let kek := fun (k : Kek) => { k with tick := 0 }
  let ch := fun (c : MbxCh) => { c with dropTick := none }
  let s : State := { s with
    tick := 0
    host := { s.host with requests := [], done := [], events := [], reads := [], readBudgetUsed := 0 }
    fronds := s.fronds.map fun (q : Nat × Frond) => (q.1, ({ rx := q.2.rx } : Frond))
    mesh := { s.mesh with
      ports := s.mesh.ports.map fun (q : Nat × MeshPort) => (q.1, port q.2)
      routeTick := none
      collect := none
      unreach := []
      claims := []
      lsaTick := 0
      faultTick := none
      faultSent := 0 }
    sec := { s.sec with
      keks := s.sec.keks.map fun (q : Nat × Option Kek) => (q.1, q.2.map kek)
      challenge := s.sec.challenge.map fun (c : Nat × Nat × Nat) => (c.1, c.2.1, 0)
      entFails := s.sec.entFails.map fun _ => 0
      deniedTick := none }
    mbx := s.mbx.map fun (q : Nat × MbxCh) => (q.1, ch q.2)
    peat := { s.peat with subTick := none }
    flt := { s.flt with logged := 0, loggedTick := 0, pinClearTick := none }
    pow := { s.pow with hot := [], cool := [], coolAll := {}, shedTick := none, backTick := none, avsTick := [], fr := [] }
    tim := { s.tim with cands := [] }
    mon := { s.mon with on := false, frameStart := 0, idx := 250, pub := [] }
    mem := { s.mem with ceTick := [], parity := [] } }
  s.frondIds.foldl (fun s f => s.setFrondCal f { s.frondCal f with restore := none }) s

/-! ### Release: the image (R475) -/

/-- A REGWRITE record: its RW and WT fields are in force at release; record `i` is skipped and counted when the offset or its
fields do not admit it. -/
def State.imageReg (s : State) (i off : Nat) (v : Word) : State :=
  if off < 0x10000 ∨ 0x400000 ≤ off ∨ off % 4 ≠ 0 then s.imgRefused i
  else match regAt off with
    | none => s.imgRefused i
    | some r =>
      if !(r.hasAcc .rw || r.hasAcc .wt) then s.imgRefused i
      else if s.pfVerdict off true = .zero then s
      else if decide (off < 0x20000) && off % 0x100 == 8 then
        s.tenantWrite (off % 0x10000 / 0x100) (v.toNat % 2 ^ 10) (v.toNat / 2 ^ 16 % 2 ^ 11)
      else if off = 0xb0000 then s.toneSet v
      else
        let s := s.setReg off (putFields r [.rw] (s.reg off) v)
        if r.hasAcc .wt then s.applyWt off v.toNat else s

/-- The REGWRITE records, in record order. -/
def State.imageRegs (s : State) (l : List ImgRec) : State :=
  l.zipIdx.foldl (fun s q => match q.1 with
    | .regWrite off v => s.imageReg q.2 off v
    | _ => s) s

/-- The requests of the DESCRIPTOR records: for each the index of its first record and its descriptors; one whose last part
is missing carries the flag. `open'`: the request that is being gathered. -/
def imageRequests : List (List Byte × Nat) → Option (Nat × List (List Byte)) → List (Nat × List (List Byte) × Bool)
  | [], none => []
  | [], some (i, ds) => [(i, ds, true)]
  | (d, k) :: l, open' =>
    let (i, ds) := open'.getD (k, [])
    let ds := ds ++ [d]
    if descChain d ∧ ds.length < 16 then imageRequests l (some (i, ds)) else (i, ds, false) :: imageRequests l none

/-- The BLOBs as memory: an image offset `a` in an operand stands for address 64 a, which no alignment refuses. -/
def imageMem (l : List ImgRec) : HostMem :=
  l.filterMap fun r => match r with
    | .blob off b => some (64 * off, b)
    | _ => none

/-- One request of the image, checked and applied; a refusal counts at its first record. -/
def State.imageRequest (s : State) (mem : HostMem) (q : Nat × List (List Byte) × Bool) : State :=
  let (i, ds, cut) := q
  let late := ds.any fun d => fieldAt d 8 8 != nextPossible
  let r : Request := {
    src := .image i, dn := 0, seq := 0, eff := s.tick, mem := mem
    overlong := decide (ds.length = 16) && (ds.getLast?.map descChain).getD false
    parts := ds.map fun d => { partOf (64 * ·) d with eff := s.tick } }
  if cut || late then s.imgRefused i
  else match r.check [] 0 r.parts s with
    | .error _ => s.imgRefused i
    | .ok _ =>
      match r.applyParts [] 0 r.parts { s := s } with
      | .error _ => s.imgRefused i
      | .ok d => { d.s with host := { d.s.host with reads := s.host.reads } }

/-- The DESCRIPTOR records, in record order. -/
def State.imageDescs (s : State) (l : List ImgRec) : State :=
  let ds := l.zipIdx.filterMap fun q => match q.1 with
    | .descriptor d => some (d, q.2)
    | _ => none
  (imageRequests ds none).foldl (fun s q => s.imageRequest (imageMem l) q) s

/-! ### Release: the rest -/

/-- The configuration epoch takes the image's, 0 with factory defaults; the one before is kept (R495). -/
def State.releaseEpoch (s : State) : State :=
  let old := s.peat.epoch
  let e := (s.boot.image.map Image.epoch).getD 0
  let s := s.modPeat fun p => { p with prevEpoch := old, epoch := e, commitDue := true }
  if s.boot.image.isSome then s.peatRaise 0x1306 [.q e, .w 0] else s

/-- The power state from which each frond starts: F4 after a thermal trip, F1 as after an aborted wake calibration, else F0
(R478, R462). -/
def State.frondStart (s : State) (f : Nat) : State :=
  let x := s.frondCal f
  if s.pow.gated then ((s.wr (R.PWR_FSTAT_STATE f) 4).setInsrc f 2).cryptoStop (0x300 + f)
  else
    let s := s.setInsrc f 0
    if s.calUsable f then (s.wr (R.PWR_FSTAT_STATE f) 0).calRefresh f
    else
      let r := x.failed.getD 14
      let s := (s.wr (R.PWR_FSTAT_STATE f) 1).setFrondCal f { x with failed := some r }
      (s.calRefresh f).raise 0x1103 f [.w r]

/-- What Peat and the update hold to be reported after release: an unannounced loss, a lost Peat domain, a life-store error, a
reverted activation. The events are stamped 0. -/
def State.releaseReports (s : State) : State :=
  let l := s.peat.held
  let had := fun (c : Nat) => l.any fun (e : Event) => e.code == c
  let s := if s.boot.unannounced then s.wrB R.PEAT_STAT_UNANNOUNCED true else s
  let s := if had 0x1304 then s.wrB R.PEAT_STAT_PEAT_LOST true else s
  let s := if had 0x1308 then s.wrB R.PEAT_STAT_LS_ERR true else s
  let s := l.foldl (fun s (e : Event) => s.raiseEv { e with tick := 0 }) (s.modPeat fun p => { p with held := [] })
  if s.boot.reverted then (s.modBoot fun b => { b with reverted := false }).raise 0x1406 0 [.w s.upd.reason] else s

/-- RST_BOOT_REPORT is latched, and BOOT_REPORT waits for the PF's event ring as its first event (R480). -/
def State.releaseReport (s : State) : State :=
  let s := s.setReg R.RST_BOOT_REPORT_CFG_RESULT.off (BitVec.ofNat 32 s.boot.report)
  let s := ({ s with host := { s.host with bootReport := true } } : State).bootReport
  let first := fun (e : Event) => e.code == 0x1201
  { s with host := { s.host with events := s.host.events.filter first ++ s.host.events.filter fun e => !first e } }

/-- Release from reset. -/
def State.release (s : State) : State :=
  let l := (s.boot.image.map Image.records).getD []
  let s := s.rebase.wr R.RST_BOOT_STAT_PHASE 5
  let s := (s.imageRegs l).releaseEpoch
  let s := s.frondIds.foldl State.frondStart s
  let s := (s.applyWts.imageDescs l).releaseReports.releaseReport
  let s := (s.modBoot fun b => { b with warm := false, unannounced := false }).logHeld.beginClaim
  s.laterSteps.boundaryEnd

/-- CAL_PHASE_DONE: every enabled frond has been restored, calibrated or left uncalibrated. -/
def execCalPhaseDone (s : State) : Host.Outcome State Fault Refusal := .next <|
  if s.phase = 4 ∧ s.frondIds.all (fun f => (s.frondCal f).run.isNone) = true then s.release else s

end Sys2Proof.Machine
end

