-- ==== Sys2Proof/Machine/Dispatch.lean ====
section
/-! DEFINITION. The meaning of each command: one direct call per constructor. -/
namespace Sys2Proof.Machine

/-- What a command does to everything but the queue of waiting commands. -/
def exec (i : Instr) (s : State) : Host.Outcome State Fault Refusal :=
  match i with
  | .tickBoundary mem taps => Sys2Proof.Machine.execTickBoundary mem taps s
  | .waitingEventWrite fn => Sys2Proof.Machine.execWaitingEventWrite fn s
  | .msixMessage fn v masked => Sys2Proof.Machine.execMsixMessage fn v masked s
  | .doorbellRead mem => Sys2Proof.Machine.execDoorbellRead mem s
  | .readDataWrite => Sys2Proof.Machine.execReadDataWrite s
  | .ringEnable fn r => Sys2Proof.Machine.execRingEnable fn r s
  | .ringDisable fn r => Sys2Proof.Machine.execRingDisable fn r s
  | .tenantRangeWrite fn base count => Sys2Proof.Machine.execTenantRangeWrite fn base count s
  | .functionLevelReset fn => Sys2Proof.Machine.execFunctionLevelReset fn s
  | .vfEnableClear => Sys2Proof.Machine.execVfEnableClear s
  | .busMasterDisable fn => Sys2Proof.Machine.execBusMasterDisable fn s
  | .nop h mem => Sys2Proof.Machine.execNop h mem s
  | .funcStop h mem kind id => Sys2Proof.Machine.execFuncStop h mem kind id s
  | .funcStart h mem kind id => Sys2Proof.Machine.execFuncStart h mem kind id s
  | .lineSetup h mem f n count slotM gridN en codes => Sys2Proof.Machine.execLineSetup h mem f n count slotM gridN en codes s
  | .loadTable h mem f codes => Sys2Proof.Machine.execLoadTable h mem f codes s
  | .filterLoad h mem f addr swap => Sys2Proof.Machine.execFilterLoad h mem f addr swap s
  | .lineOh h mem target id layer item mode addr => Sys2Proof.Machine.execLineOh h mem target id layer item mode addr s
  | .gccSend h mem f len addr => Sys2Proof.Machine.execGccSend h mem f len addr s
  | .gccRxPost h mem tag addr => Sys2Proof.Machine.execGccRxPost h mem tag addr s
  | .portSetup h mem lane width client rate txclk rclk group => Sys2Proof.Machine.execPortSetup h mem lane width client rate txclk rclk group s
  | .epCreate h mem e x addr => Sys2Proof.Machine.execEpCreate h mem e x addr s
  | .epChange h mem e g x => Sys2Proof.Machine.execEpChange h mem e g x s
  | .epDelete h mem e => Sys2Proof.Machine.execEpDelete h mem e s
  | .epRead h mem e buf => Sys2Proof.Machine.execEpRead h mem e buf s
  | .pmSetupAnchor h mem a => Sys2Proof.Machine.execPmSetupAnchor h mem a s
  | .pmSetupProfile h mem k addr => Sys2Proof.Machine.execPmSetupProfile h mem k addr s
  | .pmSetupZeroSuppress h mem on => Sys2Proof.Machine.execPmSetupZeroSuppress h mem on s
  | .pmClear h mem e => Sys2Proof.Machine.execPmClear h mem e s
  | .pmRead h mem e n buf => Sys2Proof.Machine.execPmRead h mem e n buf s
  | .quotaSet h mem units sas grans => Sys2Proof.Machine.execQuotaSet h mem units sas grans s
  | .quotaRead h mem buf => Sys2Proof.Machine.execQuotaRead h mem buf s
  | .tenantCreate h mem => Sys2Proof.Machine.execTenantCreate h mem s
  | .tenantDelete h mem => Sys2Proof.Machine.execTenantDelete h mem s
  | .saCreate h mem ix role peer peerSa soft => Sys2Proof.Machine.execSaCreate h mem ix role peer peerSa soft s
  | .saChange h mem ix role peer peerSa soft => Sys2Proof.Machine.execSaChange h mem ix role peer peerSa soft s
  | .saDelete h mem ix => Sys2Proof.Machine.execSaDelete h mem ix s
  | .keyLoad h mem ix addr => Sys2Proof.Machine.execKeyLoad h mem ix addr s
  | .keyDiscard h mem ix => Sys2Proof.Machine.execKeyDiscard h mem ix s
  | .keyRoll h mem ix r => Sys2Proof.Machine.execKeyRoll h mem ix r s
  | .saRead h mem ix buf => Sys2Proof.Machine.execSaRead h mem ix buf s
  | .timInput h mem input enable freq delay => Sys2Proof.Machine.execTimInput h mem input enable freq delay s
  | .timPrio h mem wtr addr => Sys2Proof.Machine.execTimPrio h mem wtr addr s
  | .timDpll h mem d mode force revert bw hoSpec => Sys2Proof.Machine.execTimDpll h mem d mode force revert bw hoSpec s
  | .timOutput h mem output freq src sq mode step phase => Sys2Proof.Machine.execTimOutput h mem output freq src sq mode step phase s
  | .timTwinSetup h mem lead peer lanes => Sys2Proof.Machine.execTimTwinSetup h mem lead peer lanes s
  | .timTwinRemove h mem lead peer lanes => Sys2Proof.Machine.execTimTwinRemove h mem lead peer lanes s
  | .timTod h mem src stepEn => Sys2Proof.Machine.execTimTod h mem src stepEn s
  | .mshSetup h mem portEn mode addr hop remote serve sev fdst pdst => Sys2Proof.Machine.execMshSetup h mem portEn mode addr hop remote serve sev fdst pdst s
  | .mshRemote h mem allow => Sys2Proof.Machine.execMshRemote h mem allow s
  | .mshSend h mem dst len addr => Sys2Proof.Machine.execMshSend h mem dst len addr s
  | .mshDbRead h mem buf => Sys2Proof.Machine.execMshDbRead h mem buf s
  | .pwrFrond h mem f setLt setShed shed lt => Sys2Proof.Machine.execPwrFrond h mem f setLt setShed shed lt s
  | .pwrThermal h mem warn thr => Sys2Proof.Machine.execPwrThermal h mem warn thr s
  | .calRun h mem f => Sys2Proof.Machine.execCalRun h mem f s
  | .calAbort h mem f => Sys2Proof.Machine.execCalAbort h mem f s
  | .calExport h mem f buf => Sys2Proof.Machine.execCalExport h mem f buf s
  | .calRestore h mem f addr => Sys2Proof.Machine.execCalRestore h mem f addr s
  | .memPass h mem memory frond off len buf => Sys2Proof.Machine.execMemPass h mem memory frond off len buf s
  | .memInject h mem memory frond flip off => Sys2Proof.Machine.execMemInject h mem memory frond flip off s
  | .fltReact h mem kind action alert => Sys2Proof.Machine.execFltReact h mem kind action alert s
  | .fltClearAlert h mem => Sys2Proof.Machine.execFltClearAlert h mem s
  | .fltClearFirst h mem => Sys2Proof.Machine.execFltClearFirst h mem s
  | .fltClearSafe h mem => Sys2Proof.Machine.execFltClearSafe h mem s
  | .fltLogRead h mem first count buf => Sys2Proof.Machine.execFltLogRead h mem first count buf s
  | .fltFirstRead h mem buf => Sys2Proof.Machine.execFltFirstRead h mem buf s
  | .fltInject h mem sev addr => Sys2Proof.Machine.execFltInject h mem sev addr s
  | .fltSetup h mem evSev => Sys2Proof.Machine.execFltSetup h mem evSev s
  | .updConfig h mem host gcc => Sys2Proof.Machine.execUpdConfig h mem host gcc s
  | .updBegin h mem pkg total => Sys2Proof.Machine.execUpdBegin h mem pkg total s
  | .updSpore h mem addr => Sys2Proof.Machine.execUpdSpore h mem addr s
  | .updAbort h mem => Sys2Proof.Machine.execUpdAbort h mem s
  | .updActivate h mem a => Sys2Proof.Machine.execUpdActivate h mem a s
  | .updRelay h mem f source first => Sys2Proof.Machine.execUpdRelay h mem f source first s
  | .updStatus h mem buf => Sys2Proof.Machine.execUpdStatus h mem buf s
  | .settingsStore h mem copy addr len => Sys2Proof.Machine.execSettingsStore h mem copy addr len s
  | .monSeq h mem addr => Sys2Proof.Machine.execMonSeq h mem addr s
  | .monLimit h mem limit persist fault sev low high hyst => Sys2Proof.Machine.execMonLimit h mem limit persist fault sev low high hyst s
  | .monMap h mem addr => Sys2Proof.Machine.execMonMap h mem addr s
  | .monSample h mem ch => Sys2Proof.Machine.execMonSample h mem ch s
  | .monTest h mem ch d => Sys2Proof.Machine.execMonTest h mem ch d s
  | .pcErbRead h mem f addr => Sys2Proof.Machine.execPcErbRead h mem f addr s
  | .latchedPairRead fn off form => Sys2Proof.Machine.execLatchedPairRead fn off form s
  | .registerReadClear fn off form => Sys2Proof.Machine.execRegisterReadClear fn off form s
  | .registerWrite fn off form v => Sys2Proof.Machine.execRegisterWrite fn off form v s
  | .acqRestart f => Sys2Proof.Machine.execAcqRestart f s
  | .eqStateDiscard f => Sys2Proof.Machine.execEqStateDiscard f s
  | .warmResetRequest v => Sys2Proof.Machine.execWarmResetRequest v s
  | .blockResetRequest id => Sys2Proof.Machine.execBlockResetRequest id s
  | .loadWindowGo v => Sys2Proof.Machine.execLoadWindowGo v s
  | .calendarSet date time => Sys2Proof.Machine.execCalendarSet date time s
  | .epochSet epoch => Sys2Proof.Machine.execEpochSet epoch s
  | .cryptoGateWrite f gate => Sys2Proof.Machine.execCryptoGateWrite f gate s
  | .pcFrozenClear f => Sys2Proof.Machine.execPcFrozenClear f s
  | .calToneWrite v => Sys2Proof.Machine.execCalToneWrite v s
  | .secKeKeyWrite w v => Sys2Proof.Machine.execSecKeKeyWrite w v s
  | .keEncrypt => Sys2Proof.Machine.execKeEncrypt s
  | .keDecrypt => Sys2Proof.Machine.execKeDecrypt s
  | .keClearSave => Sys2Proof.Machine.execKeClearSave s
  | .keWrappedSave => Sys2Proof.Machine.execKeWrappedSave s
  | .keClearRestore => Sys2Proof.Machine.execKeClearRestore s
  | .keWrappedRestore => Sys2Proof.Machine.execKeWrappedRestore s
  | .keZeroise => Sys2Proof.Machine.execKeZeroise s
  | .keOpDone => Sys2Proof.Machine.execKeOpDone s
  | .maskReseed => Sys2Proof.Machine.execMaskReseed s
  | .mbxWordWrite c w v => Sys2Proof.Machine.execMbxWordWrite c w v s
  | .mbxPost c v => Sys2Proof.Machine.execMbxPost c v s
  | .mbxOutboundRead c w => Sys2Proof.Machine.execMbxOutboundRead c w s
  | .mbxProcessorRead c => Sys2Proof.Machine.execMbxProcessorRead c s
  | .mbxReplyPost c => Sys2Proof.Machine.execMbxReplyPost c s
  | .mbxCrossing c => Sys2Proof.Machine.execMbxCrossing c s
  | .ping c => Sys2Proof.Machine.execPing c s
  | .fwInfo c => Sys2Proof.Machine.execFwInfo c s
  | .diagText c words => Sys2Proof.Machine.execDiagText c words s
  | .secFwInfo c => Sys2Proof.Machine.execSecFwInfo c s
  | .kekInstall c => Sys2Proof.Machine.execKekInstall c s
  | .kekErase c => Sys2Proof.Machine.execKekErase c s
  | .kekStatus c => Sys2Proof.Machine.execKekStatus c s
  | .holdStatus c => Sys2Proof.Machine.execHoldStatus c s
  | .holdRelease c => Sys2Proof.Machine.execHoldRelease c s
  | .entropyRead c => Sys2Proof.Machine.execEntropyRead c s
  | .decommissionArm c => Sys2Proof.Machine.execDecommissionArm c s
  | .decommission c => Sys2Proof.Machine.execDecommission c s
  | .bar2AccessDenied off read => Sys2Proof.Machine.execBar2AccessDenied off read s
  | .ideKmMessage msg secure => Sys2Proof.Machine.execIdeKmMessage msg secure s
  | .entropyStartupPass => Sys2Proof.Machine.execEntropyStartupPass s
  | .entropyHealthFailure test => Sys2Proof.Machine.execEntropyHealthFailure test s
  | .coldResetPower => Sys2Proof.Machine.execColdResetPower s
  | .coldResetPin => Sys2Proof.Machine.execColdResetPin s
  | .rstNRelease boot clk flash copies => Sys2Proof.Machine.execRstNRelease boot clk flash copies s
  | .fuseLoadDone fuse fail bad => Sys2Proof.Machine.execFuseLoadDone fuse fail bad s
  | .secureSlotVerified => Sys2Proof.Machine.execSecureSlotVerified s
  | .configImageRead => Sys2Proof.Machine.execConfigImageRead s
  | .loadWindowTransferDone mem => Sys2Proof.Machine.execLoadWindowTransferDone mem s
  | .cfgRequestRetry p => Sys2Proof.Machine.execCfgRequestRetry p s
  | .meshConfigTimeout => Sys2Proof.Machine.execMeshConfigTimeout s
  | .calPhaseDone => Sys2Proof.Machine.execCalPhaseDone s
  | .mgmtWatchdog => Sys2Proof.Machine.execMgmtWatchdog s
  | .loopWatchdog f => Sys2Proof.Machine.execLoopWatchdog f s
  | .blockResetEnd id => Sys2Proof.Machine.execBlockResetEnd id s
  | .powerDownOrderly => Sys2Proof.Machine.execPowerDownOrderly s
  | .mainSupplyLoss => Sys2Proof.Machine.execMainSupplyLoss s
  | .railFault r mv => Sys2Proof.Machine.execRailFault r mv s
  | .peatSecond fails => Sys2Proof.Machine.execPeatSecond fails s
  | .peatSwitchToVbak => Sys2Proof.Machine.execPeatSwitchToVbak s
  | .peatReturnToVkeep => Sys2Proof.Machine.execPeatReturnToVkeep s
  | .peatPowerLoss => Sys2Proof.Machine.execPeatPowerLoss s
  | .peatPowerReturn backup => Sys2Proof.Machine.execPeatPowerReturn backup s
  | .ppsEdgeStamp ix cycle => Sys2Proof.Machine.execPpsEdgeStamp ix cycle s
  | .todMessage ix b => Sys2Proof.Machine.execTodMessage ix b s
  | .candidateAbsent src => Sys2Proof.Machine.execCandidateAbsent src s
  | .measurementWindowEnd obs => Sys2Proof.Machine.execMeasurementWindowEnd obs s
  | .dpllLocked d err fofs => Sys2Proof.Machine.execDpllLocked d err fofs s
  | .dpllLockLost d err fofs => Sys2Proof.Machine.execDpllLockLost d err fofs s
  | .holdoverOos d => Sys2Proof.Machine.execHoldoverOos d s
  | .timingReportSend => Sys2Proof.Machine.execTimingReportSend s
  | .timingReport p state depth followed => Sys2Proof.Machine.execTimingReport p state depth followed s
  | .ppsOutPulse => Sys2Proof.Machine.execPpsOutPulse s
  | .outputChangeResume k => Sys2Proof.Machine.execOutputChangeResume k s
  | .twinPhaseSend => Sys2Proof.Machine.execTwinPhaseSend s
  | .twinPhase lead ofs probe arr => Sys2Proof.Machine.execTwinPhase lead ofs probe arr s
  | .twinProbeSend => Sys2Proof.Machine.execTwinProbeSend s
  | .twinProbe tick ofs arr => Sys2Proof.Machine.execTwinProbe tick ofs arr s
  | .twinEgressSend => Sys2Proof.Machine.execTwinEgressSend s
  | .twinEgress recs => Sys2Proof.Machine.execTwinEgress recs s
  | .twinAligned => Sys2Proof.Machine.execTwinAligned s
  | .twinLapsed => Sys2Proof.Machine.execTwinLapsed s
  | .twinRealign => Sys2Proof.Machine.execTwinRealign s
  | .twinSteerLimit ppb => Sys2Proof.Machine.execTwinSteerLimit ppb s
  | .meshBlockLock p l errs heads => Sys2Proof.Machine.execMeshBlockLock p l errs heads s
  | .meshBlockLockLoss p l errs cdr heads => Sys2Proof.Machine.execMeshBlockLockLoss p l errs cdr heads s
  | .meshPortAlign p o => Sys2Proof.Machine.execMeshPortAlign p o s
  | .meshAlignLoss p o => Sys2Proof.Machine.execMeshAlignLoss p o s
  | .helloSend p => Sys2Proof.Machine.execHelloSend p s
  | .hello p errs b => Sys2Proof.Machine.execHello p errs b s
  | .meshHelloTimeout p => Sys2Proof.Machine.execMeshHelloTimeout p s
  | .dbReq p errs b => Sys2Proof.Machine.execDbReq p errs b s
  | .lsa p errs b => Sys2Proof.Machine.execLsa p errs b s
  | .lsaOriginate => Sys2Proof.Machine.execLsaOriginate s
  | .lsaExpiry a => Sys2Proof.Machine.execLsaExpiry a s
  | .claim p errs b => Sys2Proof.Machine.execClaim p errs b s
  | .dbCollectEnd => Sys2Proof.Machine.execDbCollectEnd s
  | .claimComplete => Sys2Proof.Machine.execClaimComplete s
  | .routeCompute => Sys2Proof.Machine.execRouteCompute s
  | .meshMessageTransmit p => Sys2Proof.Machine.execMeshMessageTransmit p s
  | .remoteCmd p errs b => Sys2Proof.Machine.execRemoteCmd p errs b s
  | .remoteCpl p errs b => Sys2Proof.Machine.execRemoteCpl p errs b s
  | .keyRollMessage p errs b => Sys2Proof.Machine.execKeyRollMessage p errs b s
  | .protState p errs b => Sys2Proof.Machine.execProtState p errs b s
  | .faultReport p errs b => Sys2Proof.Machine.execFaultReport p errs b s
  | .cfgReq p errs b => Sys2Proof.Machine.execCfgReq p errs b s
  | .cfgData p errs b => Sys2Proof.Machine.execCfgData p errs b s
  | .avsEvaluation r => Sys2Proof.Machine.execAvsEvaluation r s
  | .wakeComplete f => Sys2Proof.Machine.execWakeComplete f s
  | .thermThrottle f => Sys2Proof.Machine.execThermThrottle f s
  | .thermShed => Sys2Proof.Machine.execThermShed s
  | .thermalTrip sensor deg => Sys2Proof.Machine.execThermalTrip sensor deg s
  | .telemetryRefresh => Sys2Proof.Machine.execTelemetryRefresh s
  | .pmbusPageWrite p => Sys2Proof.Machine.execPmbusPageWrite p s
  | .pmbusPageRead => Sys2Proof.Machine.execPmbusPageRead s
  | .pmbusVoutMode => Sys2Proof.Machine.execPmbusVoutMode s
  | .pmbusStatusWord => Sys2Proof.Machine.execPmbusStatusWord s
  | .pmbusStatusCml => Sys2Proof.Machine.execPmbusStatusCml s
  | .pmbusReadVout => Sys2Proof.Machine.execPmbusReadVout s
  | .pmbusReadIout => Sys2Proof.Machine.execPmbusReadIout s
  | .pmbusReadTemperature1 => Sys2Proof.Machine.execPmbusReadTemperature1 s
  | .pmbusReadPout => Sys2Proof.Machine.execPmbusReadPout s
  | .pmbusMfrSpecific00 => Sys2Proof.Machine.execPmbusMfrSpecific00 s
  | .pmbusMfrSpecific01 => Sys2Proof.Machine.execPmbusMfrSpecific01 s
  | .pmbusUnsupported => Sys2Proof.Machine.execPmbusUnsupported s
  | .rxPowerLow f power => Sys2Proof.Machine.execRxPowerLow f power s
  | .rxPowerHigh f power => Sys2Proof.Machine.execRxPowerHigh f power s
  | .loLow f power => Sys2Proof.Machine.execLoLow f power s
  | .muteSwitchDone f => Sys2Proof.Machine.execMuteSwitchDone f s
  | .subconvStuck f adc k same others => Sys2Proof.Machine.execSubconvStuck f adc k same others s
  | .subconvRecovered f adc k distinct => Sys2Proof.Machine.execSubconvRecovered f adc k distinct s
  | .firBankSwap f => Sys2Proof.Machine.execFirBankSwap f s
  | .fastGainStep f rms saturated total => Sys2Proof.Machine.execFastGainStep f rms saturated total s
  | .gainTrim f rms flooded => Sys2Proof.Machine.execGainTrim f rms flooded s
  | .fiddleheadDetection f metric plateauEnd freq fine predicted edge => Sys2Proof.Machine.execFiddleheadDetection f metric plateauEnd freq fine predicted edge s
  | .superframeArrival f o => Sys2Proof.Machine.execSuperframeArrival f o s
  | .floodedTick f marks total => Sys2Proof.Machine.execFloodedTick f marks total s
  | .warmFallback f power => Sys2Proof.Machine.execWarmFallback f power s
  | .acqTimeout f => Sys2Proof.Machine.execAcqTimeout f s
  | .dloa f => Sys2Proof.Machine.execDloa f s
  | .cdSearchCandidateEnd f => Sys2Proof.Machine.execCdSearchCandidateEnd f s
  | .preconvergenceEnd f settled => Sys2Proof.Machine.execPreconvergenceEnd f settled s
  | .cdTracking f residual dgd pdl => Sys2Proof.Machine.execCdTracking f residual dgd pdl s
  | .cdHostRampStep f => Sys2Proof.Machine.execCdHostRampStep f s
  | .sopRateEvaluation f rate => Sys2Proof.Machine.execSopRateEvaluation f rate s
  | .fofsRange f fofs => Sys2Proof.Machine.execFofsRange f fofs s
  | .snrMeasurement f empty sums => Sys2Proof.Machine.execSnrMeasurement f empty sums s
  | .eqStampRefresh f => Sys2Proof.Machine.execEqStampRefresh f s
  | .laserOffGrid f offset => Sys2Proof.Machine.execLaserOffGrid f offset s
  | .loadRequestEvaluation f => Sys2Proof.Machine.execLoadRequestEvaluation f s
  | .loadRequestTimeout f => Sys2Proof.Machine.execLoadRequestTimeout f s
  | .txLoadSwap f => Sys2Proof.Machine.execTxLoadSwap f s
  | .precdRampStep f => Sys2Proof.Machine.execPrecdRampStep f s
  | .launchPowerRestored f power limited => Sys2Proof.Machine.execLaunchPowerRestored f power limited s
  | .innerDecode f o => Sys2Proof.Machine.execInnerDecode f o s
  | .outerDecode f o => Sys2Proof.Machine.execOuterDecode f o s
  | .dlof f => Sys2Proof.Machine.execDlof f s
  | .dlom f => Sys2Proof.Machine.execDlom f s
  | .ddeg f => Sys2Proof.Machine.execDdeg f s
  | .gccFrameReceive f => Sys2Proof.Machine.execGccFrameReceive f s
  | .gccFrameTransmit f => Sys2Proof.Machine.execGccFrameTransmit f s
  | .slfFrameEncode f poison => Sys2Proof.Machine.execSlfFrameEncode f poison s
  | .txAssembly f => Sys2Proof.Machine.execTxAssembly f s
  | .superframeTransmit f clipped => Sys2Proof.Machine.execSuperframeTransmit f clipped s
  | .clientIngressMap p codewords unc corr sop otuc => Sys2Proof.Machine.execClientIngressMap p codewords unc corr sop otuc s
  | .oduExtract e src o => Sys2Proof.Machine.execOduExtract e src o s
  | .egressDecision e needDst needSrc => Sys2Proof.Machine.execEgressDecision e needDst needSrc s
  | .xcSwitch e ups => Sys2Proof.Machine.execXcSwitch e ups s
  | .clientEgressMap p made level ovf => Sys2Proof.Machine.execClientEgressMap p made level ovf s
  | .lichenPaired e => Sys2Proof.Machine.execLichenPaired e s
  | .lichenSingle e => Sys2Proof.Machine.execLichenSingle e s
  | .deltaChange e => Sys2Proof.Machine.execDeltaChange e s
  | .lichenReanchor e => Sys2Proof.Machine.execLichenReanchor e s
  | .legFail e l => Sys2Proof.Machine.execLegFail e l s
  | .legClear e l => Sys2Proof.Machine.execLegClear e l s
  | .imuxSkewExceeded e => Sys2Proof.Machine.execImuxSkewExceeded e s
  | .keyRollApply ix => Sys2Proof.Machine.execKeyRollApply ix s
  | .previousKeyErase ix => Sys2Proof.Machine.execPreviousKeyErase ix s
  | .clientLaneSignal l sig cdr => Sys2Proof.Machine.execClientLaneSignal l sig cdr s
  | .amLock p k lane inverted => Sys2Proof.Machine.execAmLock p k lane inverted s
  | .amLockLoss p k => Sys2Proof.Machine.execAmLockLoss p k s
  | .deskewComplete p => Sys2Proof.Machine.execDeskewComplete p s
  | .blockLock p n => Sys2Proof.Machine.execBlockLock p n s
  | .blockLockLoss p n => Sys2Proof.Machine.execBlockLockLoss p n s
  | .hiSerChange p on => Sys2Proof.Machine.execHiSerChange p on s
  | .clientFaultRx p lf rf => Sys2Proof.Machine.execClientFaultRx p lf rf s
  | .flexoDefectSet p d inst => Sys2Proof.Machine.execFlexoDefectSet p d inst s
  | .flexoDefectClr p d inst => Sys2Proof.Machine.execFlexoDefectClr p d inst s
  | .pmSecondEnd => Sys2Proof.Machine.execPmSecondEnd s
  | .pmRecordExport => Sys2Proof.Machine.execPmRecordExport s
  | .monFrameStart => Sys2Proof.Machine.execMonFrameStart s
  | .monConversionEnd code value => Sys2Proof.Machine.execMonConversionEnd code value s
  | .urgentRequest src ch at' => Sys2Proof.Machine.execUrgentRequest src ch at' s
  | .urgentConversionEnd code value => Sys2Proof.Machine.execUrgentConversionEnd code value s
  | .monTestDone code => Sys2Proof.Machine.execMonTestDone code s
  | .confirmationRead => Sys2Proof.Machine.execConfirmationRead s
  | .scrubTick upsets => Sys2Proof.Machine.execScrubTick upsets s
  | .memPassDone => Sys2Proof.Machine.execMemPassDone s
  | .faultMessage m => Sys2Proof.Machine.execFaultMessage m s
  | .collectorParityFailure c => Sys2Proof.Machine.execCollectorParityFailure c s
  | .updEraseDone => Sys2Proof.Machine.execUpdEraseDone s
  | .sporeProgrammed same => Sys2Proof.Machine.execSporeProgrammed same s
  | .sporeFrame f => Sys2Proof.Machine.execSporeFrame f s
  | .sporeAckSend => Sys2Proof.Machine.execSporeAckSend s
  | .sporeAck f => Sys2Proof.Machine.execSporeAck f s
  | .updVerifyDone => Sys2Proof.Machine.execUpdVerifyDone s
  | .preloadDone bad => Sys2Proof.Machine.execPreloadDone bad s
  | .fwActivationSwitch => Sys2Proof.Machine.execFwActivationSwitch s
  | .selfCheckReport p pass => Sys2Proof.Machine.execSelfCheckReport p pass s
  | .trialTimeout => Sys2Proof.Machine.execTrialTimeout s
  | .fuseProgramming => Sys2Proof.Machine.execFuseProgramming s
  | .settingsStoreDone mem same => Sys2Proof.Machine.execSettingsStoreDone mem same s
  | .calMuteCheck f => Sys2Proof.Machine.execCalMuteCheck f s
  | .calPrecheckEnd f pwr fofs spread => Sys2Proof.Machine.execCalPrecheckEnd f pwr fofs spread s
  | .calToneLost f pwr => Sys2Proof.Machine.execCalToneLost f pwr s
  | .calStepEnd f vals tap quad => Sys2Proof.Machine.execCalStepEnd f vals tap quad s
  | .calBankSwap f => Sys2Proof.Machine.execCalBankSwap f s
  | .busMasterEnableReturn fn => Sys2Proof.Machine.execBusMasterEnableReturn fn s
  | .railInTolerance r => Sys2Proof.Machine.execRailInTolerance r s
  | .boundaryScan tms tdi trstN pads => Sys2Proof.Machine.execBoundaryScan tms tdi trstN pads s

end Sys2Proof.Machine
end

