-- ==== Sys2Proof/Safety.lean ====
section
/-! DEFINITION. The terms in which claims about steps and runs are made. -/
namespace Sys2Proof.Machine

/-- Every step that answers a next state keeps `p`. -/
def Invariant (p : State → Prop) : Prop := ∀ s t, p s → step s = .next t → p t

/-- `t` follows from `s` by some number of steps; between two steps commands may join the queue. -/
inductive Reach : State → State → Prop where
  | refl (s : State) : Reach s s
  | step {s t u : State} : Reach s t → Machine.step t = .next u → Reach s u
  | send {s t : State} (c : Instr) : Reach s t → Reach s { t with pending := t.pending ++ [c] }

/-- No run from `s` ends in a fault or a refusal. -/
def NeverStops (s : State) : Prop := ∀ t, Reach s t → ∃ u, Machine.step t = .next u

/-- A request of the PF that names T0000, as the PF-only opcodes ask for (R311). -/
def ReqHdr.isPf (h : ReqHdr) : Prop := h.fn = 0 ∧ h.tenant = 0 ∧ h.any = false

/-- The completion of a one-part request that was applied in the tick of `s` (Table HST-7). -/
def doneOk (h : ReqHdr) (s : State) (opcode result : Nat) : Completion :=
  { src := .host h.fn h.ring, dn := h.dn, seq := h.dn % 65536, status := St.ok, opcode := opcode, eff := s.tick,
    doneTick := s.tick, result := result }

/-- The state after a one-part read-out of `data` to host address `addr`: the data is queued, and the completion carries the tick in
which its last byte is written, at 262,144 bytes a tick (R330). -/
def readOk (h : ReqHdr) (s : State) (opcode addr : Nat) (data : List Byte) (poison : Bool := false) : State :=
  let doneBy := s.tick + (s.backlog + data.length - 1) / 262144
  let job : ReadJob := { fn := h.fn, ring := h.ring, seq := h.dn % 65536, addr := addr, data := data, poison := poison,
                         eff := s.tick, doneBy := doneBy }
  ({ s with host := { s.host with reads := s.host.reads ++ [job] } } : State).complete (doneOk h s opcode doneBy)

/-- A read-out of `n` bytes fits the 16 MiB of the backlog (R330). -/
def State.readFits (s : State) (n : Nat) : Prop := s.backlog + s.host.readBudgetUsed + n ≤ 16777216

/-- The completion of a one-part request that was refused before it was applied, with a status and its detail. -/
def doneRefused (h : ReqHdr) (s : State) (opcode status detail : Nat) : Completion :=
  { src := .host h.fn h.ring, dn := h.dn, seq := h.dn % 65536, status := status, detail := detail, opcode := opcode,
    eff := s.tick, doneTick := s.tick }

/-- The event record that a module-wide object raises in the tick of `s` (Table HST-9). -/
def eventOf (s : State) (code obj : Nat) (vals : List EVal := []) : Event :=
  { code := code, obj := obj, tick := s.tick, vals := vals }

/-- The PF-only opcodes (Table HST-4): the command of a descriptor and its opcode. -/
inductive PfOnly (h : ReqHdr) (mem : HostMem) : Instr → Nat → Prop where
  | loadTable (f : Nat) (codes : List Nat) : PfOnly h mem (.loadTable h mem f codes) 0x11
  | lineOh (target id layer item mode addr : Nat) : PfOnly h mem (.lineOh h mem target id layer item mode addr) 0x13
  | gccSend (f len addr : Nat) : PfOnly h mem (.gccSend h mem f len addr) 0x14
  | gccRxPost (tag addr : Nat) : PfOnly h mem (.gccRxPost h mem tag addr) 0x15
  | pmSetupAnchor (a : Nat) : PfOnly h mem (.pmSetupAnchor h mem a) 0x24
  | pmSetupProfile (k addr : Nat) : PfOnly h mem (.pmSetupProfile h mem k addr) 0x24
  | pmSetupZeroSuppress (on : Bool) : PfOnly h mem (.pmSetupZeroSuppress h mem on) 0x24
  | quotaSet (units sas grans : Nat) : PfOnly h mem (.quotaSet h mem units sas grans) 0x27
  | tenantCreate : PfOnly h mem (.tenantCreate h mem) 0x29
  | tenantDelete : PfOnly h mem (.tenantDelete h mem) 0x2a
  | timInput (input : Nat) (enable : Bool) (freq : Nat) (delay : Int) :
      PfOnly h mem (.timInput h mem input enable freq delay) 0x60
  | timPrio (wtr addr : Nat) : PfOnly h mem (.timPrio h mem wtr addr) 0x61
  | timDpll (d mode force : Nat) (revert : Bool) (bw hoSpec : Nat) :
      PfOnly h mem (.timDpll h mem d mode force revert bw hoSpec) 0x62
  | timOutput (output freq src sq mode : Nat) (step : Bool) (phase : Nat) :
      PfOnly h mem (.timOutput h mem output freq src sq mode step phase) 0x63
  | timTwinRemove (lead peer lanes : Nat) : PfOnly h mem (.timTwinRemove h mem lead peer lanes) 0x64
  | timTwinSetup (lead peer lanes : Nat) : PfOnly h mem (.timTwinSetup h mem lead peer lanes) 0x64
  | timTod (src : Nat) (stepEn : Bool) : PfOnly h mem (.timTod h mem src stepEn) 0x65
  | mshSetup (portEn mode addr hop : Nat) (remote serve : Bool) (sev fdst pdst : Nat) :
      PfOnly h mem (.mshSetup h mem portEn mode addr hop remote serve sev fdst pdst) 0x70
  | mshRemote (allow : List Nat) : PfOnly h mem (.mshRemote h mem allow) 0x71
  | mshSend (dst len addr : Nat) : PfOnly h mem (.mshSend h mem dst len addr) 0x72
  | mshDbRead (buf : Nat) : PfOnly h mem (.mshDbRead h mem buf) 0x73
  | pwrFrond (f : Nat) (setLt setShed shed : Bool) (lt : Nat) : PfOnly h mem (.pwrFrond h mem f setLt setShed shed lt) 0x80
  | pwrThermal (warn thr : Nat) : PfOnly h mem (.pwrThermal h mem warn thr) 0x81
  | calRun (f : Nat) : PfOnly h mem (.calRun h mem f) 0x90
  | calAbort (f : Nat) : PfOnly h mem (.calAbort h mem f) 0x91
  | calExport (f buf : Nat) : PfOnly h mem (.calExport h mem f buf) 0x92
  | calRestore (f addr : Nat) : PfOnly h mem (.calRestore h mem f addr) 0x93
  | memPass (memory frond off len buf : Nat) : PfOnly h mem (.memPass h mem memory frond off len buf) 0xa0
  | memInject (memory frond flip off : Nat) : PfOnly h mem (.memInject h mem memory frond flip off) 0xa1
  | fltReact (kind action : Nat) (alert : Bool) : PfOnly h mem (.fltReact h mem kind action alert) 0xb0
  | fltClearAlert : PfOnly h mem (.fltClearAlert h mem) 0xb1
  | fltClearFirst : PfOnly h mem (.fltClearFirst h mem) 0xb1
  | fltClearSafe : PfOnly h mem (.fltClearSafe h mem) 0xb1
  | fltLogRead (first count buf : Nat) : PfOnly h mem (.fltLogRead h mem first count buf) 0xb2
  | fltFirstRead (buf : Nat) : PfOnly h mem (.fltFirstRead h mem buf) 0xb3
  | fltInject (sev addr : Nat) : PfOnly h mem (.fltInject h mem sev addr) 0xb4
  | fltSetup (evSev : Nat) : PfOnly h mem (.fltSetup h mem evSev) 0xb5
  | updConfig (host gcc : Bool) : PfOnly h mem (.updConfig h mem host gcc) 0xc0
  | updBegin (pkg total : Nat) : PfOnly h mem (.updBegin h mem pkg total) 0xc1
  | updAbort : PfOnly h mem (.updAbort h mem) 0xc3
  | updActivate (a : Nat) : PfOnly h mem (.updActivate h mem a) 0xc4
  | updRelay (f source first : Nat) : PfOnly h mem (.updRelay h mem f source first) 0xc5
  | updStatus (buf : Nat) : PfOnly h mem (.updStatus h mem buf) 0xc6
  | settingsStore (copy addr len : Nat) : PfOnly h mem (.settingsStore h mem copy addr len) 0xc7
  | monSeq (addr : Nat) : PfOnly h mem (.monSeq h mem addr) 0xd0
  | monLimit (limit persist : Nat) (fault : Bool) (sev : Nat) (low high : Int) (hyst : Nat) :
      PfOnly h mem (.monLimit h mem limit persist fault sev low high hyst) 0xd1
  | monMap (addr : Nat) : PfOnly h mem (.monMap h mem addr) 0xd2
  | monSample (ch : Nat) : PfOnly h mem (.monSample h mem ch) 0xd3
  | monTest (ch d : Nat) : PfOnly h mem (.monTest h mem ch d) 0xd4
  | pcErbRead (f addr : Nat) : PfOnly h mem (.pcErbRead h mem f addr) 0xd8

/-- The fields of a header loading block fit the bits that Table SUB-2 gives them. -/
def Hlb.InRange (h : Hlb) : Prop :=
  h.curTid < 16 ∧ h.curCodes.length = 32 ∧ (∀ c ∈ h.curCodes, c < 128) ∧ h.nxtTid < 16 ∧ h.nxtIn < 256 ∧ h.nxtCause < 4

/-- Registers outside `l` read in `t` as in `s`. -/
def RegsBut (l : List Nat) (s t : State) : Prop := ∀ o, o ∉ l → t.reg o = s.reg o

/-- Fronds other than `f` hold in `t` what they held in `s`. -/
def FrondsBut (f : Nat) (s t : State) : Prop := ∀ g, g ≠ f → t.frond g = s.frond g

/-- A loaded fuse array only blows: its identity stays, the rollback fuse does not go down, a revoked key set stays revoked
and a retired module stays retired (R356, R358). -/
structure FuseGrows (a b : FuseSt) : Prop where
  loaded : a.loaded = true → b.loaded = true
  fixed : a.loaded = true → b = { a with secState := b.secState, rollback := b.rollback, revoked := b.revoked }
  rollback : a.loaded = true → a.rollback ≤ b.rollback
  revoked : a.loaded = true → ∀ k, k < 2 → a.revoked / 2 ^ k % 2 = 1 → b.revoked / 2 ^ k % 2 = 1
  retired : a.loaded = true → a.secState = 10 → b.secState = 10

end Sys2Proof.Machine
end

