-- ==== Sys2Proof/WellFormed.lean ====
section
/-! DEFINITION. Which commands are well formed: every operand of a descriptor row fits the field that Tables HST-3, HST-4 and the
descriptor tables of the chapters give it. Operands that carry their bounds in their types need no check. -/
namespace Sys2Proof

open Machine in
/-- A command ring of a function, a descriptor number, a tenant. -/
def Machine.ReqHdr.wf (h : ReqHdr) : Bool :=
  decide (h.fn < 256) && decide (h.ring < 4) && decide (h.dn < 2 ^ 32) && decide (h.tenant < 1024)

/-- A value of `w` bits. -/
def fits (w v : Nat) : Bool := decide (v < 2 ^ w)

/-- A signed value of `w` bits. -/
def fitsS (w : Nat) (v : Int) : Bool := decide (-(2 ^ (w - 1) : Nat) ≤ v) && decide (v < (2 ^ (w - 1) : Nat))

open Machine in
/-- Words 1 and 2 of an entry. -/
def Machine.XcEnd.wf (x : XcEnd) : Bool := fits 2 x.kind && fits 10 x.tsLow && fits 17 x.id

open Machine in
/-- The fields of an entry that a host writes (Table XC-3). -/
def Machine.XcEntry.wf (x : XcEntry) : Bool :=
  fits 2 x.kind && fits 10 x.tenant && fits 4 x.oduType && fits 12 x.tsCount && x.src.wf && x.dst.wf && fits 2 x.legbKind &&
  fits 10 x.legbTsLow && fits 6 x.legbFrond && fits 2 x.selMode && fits 1 x.prefMode && fits 2 x.imuxM && fits 1 x.imuxEnd &&
  fits 11 x.hold && fits 14 x.saId && fits 24 x.members && fits 6 x.pmProfile && fits 3 x.tcmLevel && fits 3 x.layer &&
  fits 8 x.expPt

/-- A well-formed command. -/
def Instr.wf : Instr → Bool
  | .tickBoundary _ _ => true
  | .waitingEventWrite _ => true
  | .msixMessage _ _ _ => true
  | .doorbellRead _ => true
  | .readDataWrite => true
  | .ringEnable _ _ => true
  | .ringDisable _ _ => true
  | .tenantRangeWrite _ _ _ => true
  | .functionLevelReset _ => true
  | .vfEnableClear => true
  | .busMasterDisable _ => true
  | .nop h _ => h.wf
  | .funcStop h _ kind id => h.wf && fits 8 kind && fits 32 id
  | .funcStart h _ kind id => h.wf && fits 8 kind && fits 32 id
  | .lineSetup h _ f n count slotM gridN _ codes => h.wf && fits 8 f && fits 8 n && fits 8 count && fits 8 slotM && fitsS 16 gridN && codes.length == 32 && codes.all (fits 8)
  | .loadTable h _ f codes => h.wf && fits 8 f && codes.length == 32 && codes.all (fits 8)
  | .filterLoad h _ f addr swap => h.wf && fits 8 f && fits 64 addr && fits 64 swap
  | .lineOh h _ target id layer item mode addr => h.wf && fits 8 target && fits 16 id && fits 8 layer && fits 8 item && fits 8 mode && fits 64 addr
  | .gccSend h _ f len addr => h.wf && fits 8 f && fits 16 len && fits 64 addr
  | .gccRxPost h _ tag addr => h.wf && fits 32 tag && fits 64 addr
  | .portSetup h _ lane width client rate txclk rclk group => h.wf && fits 16 lane && fits 8 width && fits 8 client && fits 8 rate && fits 8 txclk && fits 8 rclk && fits 32 group
  | .epCreate h _ e x addr => h.wf && fits 17 e && fits 64 addr && x.wf
  | .epChange h _ e g x => h.wf && fits 17 e && fits 8 g && x.wf
  | .epDelete h _ e => h.wf && fits 17 e
  | .epRead h _ e buf => h.wf && fits 17 e && fits 64 buf
  | .pmSetupAnchor h _ a => h.wf && fits 64 a
  | .pmSetupProfile h _ k addr => h.wf && fits 8 k && fits 64 addr
  | .pmSetupZeroSuppress h _ _ => h.wf
  | .pmClear h _ e => h.wf && fits 17 e
  | .pmRead h _ e n buf => h.wf && fits 17 e && fits 16 n && fits 64 buf
  | .quotaSet h _ units sas grans => h.wf && fits 32 units && fits 16 sas && fits 16 grans
  | .quotaRead h _ buf => h.wf && fits 64 buf
  | .tenantCreate h _ => h.wf
  | .tenantDelete h _ => h.wf
  | .saCreate h _ i role peer peerSa soft => h.wf && fits 14 i && fits 1 role && fits 12 peer && fits 14 peerSa && fits 48 soft
  | .saChange h _ i role peer peerSa soft => h.wf && fits 14 i && fits 1 role && fits 12 peer && fits 14 peerSa && fits 48 soft
  | .saDelete h _ i => h.wf && fits 14 i
  | .keyLoad h _ i addr => h.wf && fits 14 i && fits 64 addr
  | .keyDiscard h _ i => h.wf && fits 14 i
  | .keyRoll h _ i r => h.wf && fits 14 i && fits 64 r
  | .saRead h _ i buf => h.wf && fits 14 i && fits 64 buf
  | .timInput h _ input _ freq delay => h.wf && fits 8 input && fits 8 freq && fitsS 32 delay
  | .timPrio h _ wtr addr => h.wf && fits 16 wtr && fits 64 addr
  | .timDpll h _ d mode force _ bw hoSpec => h.wf && fits 8 d && fits 8 mode && fits 8 force && fits 15 bw && fits 32 hoSpec
  | .timOutput h _ output freq src sq mode _ phase => h.wf && fits 8 output && fits 8 freq && fits 8 src && fits 8 sq && fits 8 mode && fits 32 phase
  | .timTwinSetup h _ lead peer lanes => h.wf && fits 8 lead && fits 12 peer && fits 288 lanes
  | .timTwinRemove h _ lead peer lanes => h.wf && fits 8 lead && fits 12 peer && fits 288 lanes
  | .timTod h _ src _ => h.wf && fits 8 src
  | .mshSetup h _ portEn mode addr hop _ _ sev fdst pdst => h.wf && fits 6 portEn && fits 8 mode && fits 12 addr && fits 8 hop && fits 8 sev && fits 16 fdst && fits 16 pdst
  | .mshRemote h _ allow => h.wf && allow.length == 16 && allow.all (fits 16)
  | .mshSend h _ dst len addr => h.wf && fits 16 dst && fits 16 len && fits 64 addr
  | .mshDbRead h _ buf => h.wf && fits 64 buf
  | .pwrFrond h _ f _ _ _ lt => h.wf && fits 8 f && fits 32 lt
  | .pwrThermal h _ warn thr => h.wf && fits 8 warn && fits 8 thr
  | .calRun h _ f => h.wf && fits 8 f
  | .calAbort h _ f => h.wf && fits 8 f
  | .calExport h _ f buf => h.wf && fits 8 f && fits 64 buf
  | .calRestore h _ f addr => h.wf && fits 8 f && fits 64 addr
  | .memPass h _ memory frond off len buf => h.wf && fits 8 memory && fits 8 frond && fits 64 off && fits 64 len && fits 64 buf
  | .memInject h _ memory frond flip off => h.wf && fits 8 memory && fits 8 frond && fits 16 flip && fits 64 off
  | .fltReact h _ kind action _ => h.wf && fits 8 kind && fits 2 action
  | .fltClearAlert h _ => h.wf
  | .fltClearFirst h _ => h.wf
  | .fltClearSafe h _ => h.wf
  | .fltLogRead h _ first count buf => h.wf && fits 32 first && fits 16 count && fits 64 buf
  | .fltFirstRead h _ buf => h.wf && fits 64 buf
  | .fltInject h _ sev addr => h.wf && fits 8 sev && fits 40 addr
  | .fltSetup h _ evSev => h.wf && fits 8 evSev
  | .updConfig h _ _ _ => h.wf
  | .updBegin h _ pkg total => h.wf && fits 64 pkg && fits 32 total
  | .updSpore h _ addr => h.wf && fits 64 addr
  | .updAbort h _ => h.wf
  | .updActivate h _ a => h.wf && fits 64 a
  | .updRelay h _ f source first => h.wf && fits 8 f && fits 8 source && fits 32 first
  | .updStatus h _ buf => h.wf && fits 64 buf
  | .settingsStore h _ copy addr len => h.wf && fits 8 copy && fits 64 addr && fits 32 len
  | .monSeq h _ addr => h.wf && fits 64 addr
  | .monLimit h _ limit persist _ sev low high hyst => h.wf && fits 8 limit && fits 8 persist && fits 3 sev && fits 16 hyst && fitsS 16 low && fitsS 16 high
  | .monMap h _ addr => h.wf && fits 64 addr
  | .monSample h _ ch => h.wf && fits 8 ch
  | .monTest h _ ch d => h.wf && fits 8 ch && fits 16 d
  | .pcErbRead h _ f addr => h.wf && fits 8 f && fits 64 addr
  | .latchedPairRead _ off _ => decide (off < 0x1002000)
  | .registerReadClear _ off _ => decide (off < 0x1002000)
  | .registerWrite _ off _ _ => decide (off < 0x1002000)
  | .acqRestart _ => true
  | .eqStateDiscard _ => true
  | .warmResetRequest _ => true
  | .blockResetRequest _ => true
  | .loadWindowGo _ => true
  | .calendarSet _ _ => true
  | .epochSet _ => true
  | .cryptoGateWrite _ _ => true
  | .pcFrozenClear _ => true
  | .calToneWrite _ => true
  | .secKeKeyWrite _ _ => true
  | .keEncrypt => true
  | .keDecrypt => true
  | .keClearSave => true
  | .keWrappedSave => true
  | .keClearRestore => true
  | .keWrappedRestore => true
  | .keZeroise => true
  | .keOpDone => true
  | .maskReseed => true
  | .mbxWordWrite _ _ _ => true
  | .mbxPost _ _ => true
  | .mbxOutboundRead _ _ => true
  | .mbxProcessorRead _ => true
  | .mbxReplyPost _ => true
  | .mbxCrossing _ => true
  | .ping _ => true
  | .fwInfo _ => true
  | .diagText _ words => decide (1 ≤ words.length) && decide (words.length ≤ 15)
  | .secFwInfo _ => true
  | .kekInstall _ => true
  | .kekErase _ => true
  | .kekStatus _ => true
  | .holdStatus _ => true
  | .holdRelease _ => true
  | .entropyRead _ => true
  | .decommissionArm _ => true
  | .decommission _ => true
  | .bar2AccessDenied off _ => fits 16 off
  | .ideKmMessage _ _ => true
  | .entropyStartupPass => true
  | .entropyHealthFailure _ => true
  | .coldResetPower => true
  | .coldResetPin => true
  | .rstNRelease _ _ flash copies => flash.all (fun q => decide (q.1 < 32768) && decide (q.2.length = 4096)) && copies.all (fun q => decide (q.1 < 2))
  | .fuseLoadDone _ _ _ => true
  | .secureSlotVerified => true
  | .configImageRead => true
  | .loadWindowTransferDone _ => true
  | .cfgRequestRetry _ => true
  | .meshConfigTimeout => true
  | .calPhaseDone => true
  | .mgmtWatchdog => true
  | .loopWatchdog _ => true
  | .blockResetEnd _ => true
  | .powerDownOrderly => true
  | .mainSupplyLoss => true
  | .railFault _ mv => fits 16 mv
  | .peatSecond _ => true
  | .peatSwitchToVbak => true
  | .peatReturnToVkeep => true
  | .peatPowerLoss => true
  | .peatPowerReturn _ => true
  | .ppsEdgeStamp _ _ => true
  | .todMessage _ _ => true
  | .candidateAbsent _ => true
  | .measurementWindowEnd _ => true
  | .dpllLocked _ _ _ => true
  | .dpllLockLost _ _ _ => true
  | .holdoverOos _ => true
  | .timingReportSend => true
  | .timingReport _ _ _ _ => true
  | .ppsOutPulse => true
  | .outputChangeResume _ => true
  | .twinPhaseSend => true
  | .twinPhase _ _ _ _ => true
  | .twinProbeSend => true
  | .twinProbe _ _ _ => true
  | .twinEgressSend => true
  | .twinEgress _ => true
  | .twinAligned => true
  | .twinLapsed => true
  | .twinRealign => true
  | .twinSteerLimit _ => true
  | .meshBlockLock _ _ _ _ => true
  | .meshBlockLockLoss _ _ _ _ _ => true
  | .meshPortAlign _ _ => true
  | .meshAlignLoss _ _ => true
  | .helloSend _ => true
  | .hello _ _ _ => true
  | .meshHelloTimeout _ => true
  | .dbReq _ _ _ => true
  | .lsa _ _ _ => true
  | .lsaOriginate => true
  | .lsaExpiry _ => true
  | .claim _ _ _ => true
  | .dbCollectEnd => true
  | .claimComplete => true
  | .routeCompute => true
  | .meshMessageTransmit _ => true
  | .remoteCmd _ _ _ => true
  | .remoteCpl _ _ _ => true
  | .keyRollMessage _ _ _ => true
  | .protState _ _ _ => true
  | .faultReport _ _ _ => true
  | .cfgReq _ _ _ => true
  | .cfgData _ _ _ => true
  | .avsEvaluation _ => true
  | .wakeComplete _ => true
  | .thermThrottle _ => true
  | .thermShed => true
  | .thermalTrip _ deg => fits 8 deg
  | .telemetryRefresh => true
  | .pmbusPageWrite _ => true
  | .pmbusPageRead => true
  | .pmbusVoutMode => true
  | .pmbusStatusWord => true
  | .pmbusStatusCml => true
  | .pmbusReadVout => true
  | .pmbusReadIout => true
  | .pmbusReadTemperature1 => true
  | .pmbusReadPout => true
  | .pmbusMfrSpecific00 => true
  | .pmbusMfrSpecific01 => true
  | .pmbusUnsupported => true
  | .rxPowerLow _ _ => true
  | .rxPowerHigh _ _ => true
  | .loLow _ _ => true
  | .muteSwitchDone _ => true
  | .subconvStuck _ _ _ _ _ => true
  | .subconvRecovered _ _ _ _ => true
  | .firBankSwap _ => true
  | .fastGainStep _ _ _ _ => true
  | .gainTrim _ _ _ => true
  | .fiddleheadDetection _ _ _ _ _ _ _ => true
  | .superframeArrival _ _ => true
  | .floodedTick _ _ _ => true
  | .warmFallback _ _ => true
  | .acqTimeout _ => true
  | .dloa _ => true
  | .cdSearchCandidateEnd _ => true
  | .preconvergenceEnd _ _ => true
  | .cdTracking _ _ _ _ => true
  | .cdHostRampStep _ => true
  | .sopRateEvaluation _ _ => true
  | .fofsRange _ _ => true
  | .snrMeasurement _ _ _ => true
  | .eqStampRefresh _ => true
  | .laserOffGrid _ _ => true
  | .loadRequestEvaluation _ => true
  | .loadRequestTimeout _ => true
  | .txLoadSwap _ => true
  | .precdRampStep _ => true
  | .launchPowerRestored _ _ _ => true
  | .innerDecode _ _ => true
  | .outerDecode _ _ => true
  | .dlof _ => true
  | .dlom _ => true
  | .ddeg _ => true
  | .gccFrameReceive _ => true
  | .gccFrameTransmit _ => true
  | .slfFrameEncode _ _ => true
  | .txAssembly _ => true
  | .superframeTransmit _ _ => true
  | .clientIngressMap _ _ _ _ _ _ => true
  | .oduExtract _ _ _ => true
  | .egressDecision _ _ _ => true
  | .xcSwitch _ _ => true
  | .clientEgressMap _ _ _ _ => true
  | .lichenPaired _ => true
  | .lichenSingle _ => true
  | .deltaChange _ => true
  | .lichenReanchor _ => true
  | .legFail _ _ => true
  | .legClear _ _ => true
  | .imuxSkewExceeded _ => true
  | .keyRollApply _ => true
  | .previousKeyErase _ => true
  | .clientLaneSignal _ _ _ => true
  | .amLock _ _ _ _ => true
  | .amLockLoss _ _ => true
  | .deskewComplete _ => true
  | .blockLock _ _ => true
  | .blockLockLoss _ _ => true
  | .hiSerChange _ _ => true
  | .clientFaultRx _ _ _ => true
  | .flexoDefectSet _ _ _ => true
  | .flexoDefectClr _ _ _ => true
  | .pmSecondEnd => true
  | .pmRecordExport => true
  | .monFrameStart => true
  | .monConversionEnd _ _ => true
  | .urgentRequest _ _ _ => true
  | .urgentConversionEnd _ _ => true
  | .monTestDone _ => true
  | .confirmationRead => true
  | .scrubTick _ => true
  | .memPassDone => true
  | .faultMessage _ => true
  | .collectorParityFailure _ => true
  | .updEraseDone => true
  | .sporeProgrammed _ => true
  | .sporeFrame _ => true
  | .sporeAckSend => true
  | .sporeAck _ => true
  | .updVerifyDone => true
  | .preloadDone _ => true
  | .fwActivationSwitch => true
  | .selfCheckReport _ _ => true
  | .trialTimeout => true
  | .fuseProgramming => true
  | .settingsStoreDone _ _ => true
  | .calMuteCheck _ => true
  | .calPrecheckEnd _ _ _ _ => true
  | .calToneLost _ _ => true
  | .calStepEnd _ _ _ _ => true
  | .calBankSwap _ => true
  | .busMasterEnableReturn _ => true
  | .railInTolerance _ => true
  | .boundaryScan _ _ _ _ => true

end Sys2Proof
end

