-- ==== Sys2Proof/Certificates/Slice0/Obligations.lean ====
section
/-! DEFINITION. The statements for the provers: what the numbered rules of the spec say the commands do. -/
open Sys2Proof Sys2Proof.Machine

/-- A step takes the command at the front of the queue and runs it on the state with the queue's rest. With no command waiting a step
changes nothing. This is the model's choice (assumption 6). -/
def Obligations.StepRunsFront : Prop :=
  (∀ (s : State) (c : Instr) (rest : List Instr), s.pending = c :: rest → step s = exec c { s with pending := rest }) ∧
  (∀ s : State, s.pending = [] → step s = .next s)

/-- From every state, no run ends in a fault or a refusal: each command of the table completes in every state, the states in which the
module turns it away included. No command reads or writes the queue of the commands that wait behind it: the queue is the model's own
(assumption 6), and every command's effect stands in the rest of the state. -/
def Obligations.NothingStops : Prop :=
  (∀ s : State, NeverStops s) ∧
  (∀ (c : Instr) (s t : State), exec c s = .next t → t.pending = s.pending)

/-- R29: TICK advances by one at each boundary of the running module and is 0 after release. No other command moves it, whatever block
it resets, image it activates or reference it changes, except a cold reset and a loss of the main supplies, which end in a release. -/
def Obligations.TickCounter : Prop :=
  (∀ mem taps (s t : State), s.boot.pwrOk = true → s.running = true → exec (.tickBoundary mem taps) s = .next t → t.tick = s.tick + 1) ∧
  (∀ s t : State, s.phase = 4 → s.frondIds.all (fun f => (s.frondCal f).run.isNone) = true → exec .calPhaseDone s = .next t →
    t.tick = 0) ∧
  (∀ (c : Instr) (s t : State), (∀ mem taps, c ≠ .tickBoundary mem taps) → c ≠ .calPhaseDone → c ≠ .coldResetPin →
    c ≠ .coldResetPower → c ≠ .mainSupplyLoss → exec c s = .next t → t.tick = s.tick)

/-- R358, R517: from every state with a loaded fuse array, every step leaves the module's identity as it is, never lowers the rollback
fuse, never restores a revoked key set, and never takes the module out of RETIRED. R358: RETIRED cannot be left, by any command from any
state. -/
def Obligations.FusesOnlyBlow : Prop :=
  (∀ u : FuseSt, u.loaded = true → Invariant (fun s => FuseGrows u s.fuse)) ∧
  (Invariant fun s => s.fuse.loaded = true ∧ s.fuse.secState = 10)

/-- After reset TICK is 0, no command waits, nothing has been sent, the boot is in its first phase, and every register reads its reset
value: FRD_ACQ_CTL and the front filter banks of R68 among them. -/
def Obligations.ResetValues : Prop :=
  State.reset.tick = 0 ∧ State.reset.pending = [] ∧ State.reset.out = [] ∧ State.reset.phase = 1 ∧
  (∀ o, State.reset.reg o = regReset o) ∧
  (∀ f, (State.reset.frond f).rx.bank0 = (State.reset.frond f).rx.bank1 ∧ (State.reset.frond f).rx.bank0.mainX = 32 ∧
    (State.reset.frond f).rx.bank0.mainY = 32 ∧ (State.reset.frond f).rx.bank0.id = 0 ∧
    ∀ k, k < 128 → (State.reset.frond f).rx.bank0.taps.getD k 0 = if k % 64 = 32 then 0x400 else 0) ∧
  (∀ f, f < 48 → State.reset.acqState f = 0) ∧ State.reset.fuse.loaded = false

/-- The frame of a register field: a write to a field of at most 32 bits leaves the value modulo the field's size in it, every other
field of the register and every other register as they were, and the rest of the state untouched. The register store keeps its one
canonical form, offsets strictly rising and no entry at its reset value, under every write, so that equal register files are equal data. -/
def Obligations.FieldWrite : Prop :=
  (∀ (s : State) (x : Fld) (v : Nat), x.lo + x.w ≤ 32 →
     (s.wr x v).rd x = v % 2 ^ x.w ∧
     (∀ y : Fld, y.off = x.off → y.lo + y.w ≤ x.lo ∨ x.lo + x.w ≤ y.lo → (s.wr x v).rd y = s.rd y) ∧
     RegsBut [x.off] s (s.wr x v) ∧ s.wr x v = { s with regs := (s.wr x v).regs }) ∧
  (∀ (s : State) (x : Fld) (o v : Nat) (w : Word), Tab.wf regReset s.regs = true →
     Tab.wf regReset (s.wr x v).regs = true ∧ Tab.wf regReset (s.setReg o w).regs = true ∧ Tab.wf regReset State.reset.regs = true)

/-- R178, R180: the 480-bit word of a header whose fields are inside their ranges decodes to that header, so no bit of a field is
dropped, and the word fits in 480 bits. R140, Table SUB-3: the 512-bit word of a loading overhead field decodes to that field, and one
wrong CRC bit makes the field ignored whole. R233, Table XC-3: the 32 bytes of an endpoint entry decode to the entry's host-written
fields; the fields that the module writes are ignored in a host write. -/
def Obligations.HeaderRoundTrip : Prop :=
  ((∀ h : HeaderWord, h.n < 32 → h.count < 64 → h.sfCount < 2 ^ 24 → h.hlb.InRange →
      HeaderWord.ofWord h.word = some h ∧ h.word < 2 ^ 480) ∧
   (∀ l : Lof, l.annTid < 16 → l.annIn < 256 → l.annCodes.length = 32 → (∀ c ∈ l.annCodes, c < 128) → l.reqSeq < 16 → l.reqBase < 16 →
      l.reqCodes.length = 32 → (∀ c ∈ l.reqCodes, c < 128) → l.ackSeq < 16 → l.ackStatus < 8 →
      Lof.ofWord l.word = some l ∧ l.word < 2 ^ 512 ∧
      (∀ k, k < 16 → Lof.ofWord (l.word ^^^ 2 ^ k) = none))) ∧
  (∀ x : XcEntry, x.kind < 4 → x.tenant < 1024 → x.oduType < 16 → x.state < 4 → x.tsCount < 4096 →
     (∀ d, d = x.src ∨ d = x.dst → d.kind < 4 ∧ d.tsLow < 1024 ∧ d.id < 2 ^ 17) →
     x.legbKind < 4 → x.legbTsLow < 1024 → x.legbFrond < 64 → x.selMode < 4 → x.prefMode < 2 → x.taken < 2 → x.imuxM < 4 →
     x.imuxEnd < 2 → x.lstate < 4 → x.hold < 2048 → x.saId < 2 ^ 14 → x.granules < 2 ^ 14 → x.members < 2 ^ 24 → x.pmProfile < 64 →
     x.tcmLevel < 8 → x.layer < 8 → x.expPt < 256 → x.rsv = false →
     x.bytes.length = 32 ∧ entryOf x.bytes = { x with state := 0, taken := 0, lstate := 0, granules := 0 })

/-- R64: requantisation gives the nearest integer, an exact half the even one, within -511..511; the mark says that it clamped; -512
never appears. The DAC code of R151 is held to -127..127 in the same way, and an applied phase delay to 16,383 (R65). R67, R68: a sample
passes the identity image unchanged: with the main tap at 1.000 and the others 0 the filter's output is the sample at the main tap, with
no clamp, and its marks come from 16 samples from 8 before it. -/
def Obligations.Requantisation : Prop :=
  ((∀ (acc : Int) (k : Nat), 0 < k →
     let q := roundShift acc k
     2 * (q * 2 ^ k - acc) ≤ 2 ^ k ∧ 2 * (acc - q * 2 ^ k) ≤ 2 ^ k ∧
     (2 * (q * 2 ^ k - acc) = 2 ^ k ∨ 2 * (acc - q * 2 ^ k) = 2 ^ k → q % 2 = 0) ∧
     (requantise acc k).1 = clampInt (-511) 511 q ∧ ((requantise acc k).2 = true ↔ 511 < q ∨ q < -511) ∧
     (dacCode acc k).1 = clampInt (-127) 127 q ∧ ((dacCode acc k).2 = true ↔ 127 < q ∨ q < -127)) ∧
   (∀ a b : Int × Bool, (replaceSample a b).1 = clampInt (-511) 511 (roundShift (a.1 + b.1) 1) ∧
     (a.2 = true ∨ b.2 = true → (replaceSample a b).2 = true)) ∧
   (∀ cal user, (appliedDelay cal user).1 = min 16383 (cal + user) ∧
     ((appliedDelay cal user).2 = true ↔ 16383 < cal + user)) ∧
   (∀ c : Int, saturatedCode c = true ↔ c = -128 ∨ c = 127) ∧
   (∀ w : Int, -51130563 ≤ derotatorWord w ∧ derotatorWord w ≤ 51130563)) ∧
  ((∀ samples : List (Int × Int), samples.length = 64 →
     (∀ v ∈ samples, -511 ≤ v.1 ∧ v.1 ≤ 511 ∧ -511 ≤ v.2 ∧ v.2 ≤ 511) →
     firOutput ((List.range 64).map fun k => tapOf (({} : FirBank).taps.getD k 0)) samples =
       (((samples.getD 32 (0, 0)).1, false), ((samples.getD 32 (0, 0)).2, false))) ∧
   (∀ m n k, k < 16 → (firMarkWindow m n).getD k 0 = (n : Int) - (m : Int) + 8 - (k : Int)))

/-- R155 to R157, Table FEC-1: the layout at the rates listed: Q, C, W, P, V, B; the punctured bits of the codewords add up to P; and
each outer codeword is owned by one inner codeword of the superframe (R172). R169: whatever settles when, a superframe spends at most
14,000 slots, and no codeword receives more than the limit. -/
def Obligations.FecLayout : Prop :=
  (([2, 8, 12, 16, 24].map fun n => (tableSum n, fecC n, fecW n, fecP n, fecV n, fecB n)) =
     [(213, 1624125, 94, 12227, 659, 1325837), (852, 6496500, 374, 14092, 2620, 5275204), (1278, 9744750, 560, 3730, 3922, 7898734),
      (1704, 12993000, 747, 10776, 5232, 10536336), (2556, 19489500, 1120, 7460, 7844, 15797468)] ∧
   (∀ n, 0 < n → ((List.range (fecW n)).map (fecPunct n)).sum = fecP n) ∧
   (∀ n v, 0 < n → v < fecV n → outerOwner v < fecW n)) ∧
  (∀ (w limit : Nat) (settle : Nat → Option Nat), 0 < w →
     (slotOrder w limit settle).length ≤ 14000 ∧ (slotOrder w limit settle).Nodup ∧
     (∀ p ∈ slotOrder w limit settle, 1 ≤ p.1 ∧ p.1 ≤ limit ∧ p.2 < w) ∧
     (∀ t, t < w → ((slotOrder w limit settle).filter fun p => p.2 == t).length ≤ limit))

/-- R158 to R160: every codeword position that the encoder fills satisfies all of its 3,072 parity checks. R161: the outer encoder is
systematic and its codewords are multiples of the generator, which is the product of the three minimal polynomials and of degree 33. -/
def Obligations.InnerEncoderChecks : Prop :=
  (∀ (w : Nat) (info : Nat → Nat → Bool) (t r z : Nat), 2 < w → t < w → r < 3 → z < 1024 →
     checkSum w (innerBit w info) t r z = false) ∧
  ((∀ info : List Bool, (bchEncode info).take info.length = info ∧ (bchEncode info).length = info.length + 33 ∧
     bchParity (bchEncode info) = 0) ∧
   bchGen = polyMul 12 (polyMul 12 0x805 0x925) 0x88d ∧ bchGen / 2 ^ 33 = 1)

/-- R164: at each net rate of 2 to 24 the interleaver is a permutation of the coded bits. At n = 24, a = 12,045,173. -/
def Obligations.Interleaver : Prop :=
  interleaveA 24 = 12045173 ∧
  ∀ n, 2 ≤ n → n ≤ 24 → ∀ i j, i < fecC n → j < fecC n → linePosition n i = linePosition n j → i = j

/-- R131, R132, R135, R165, R179: the header's 960 channel bits; 1,000 pilots, one in every 62 body positions; a block of code 32
carries amplitude 1 with the signs of its first 800 bits; an LLR lies in -31..31; the replacement signals of Table SLF-8. R183, R184:
three of every sixteen superframes carry justification 0; the receiver takes the majority of the unmarked copies, and on a tie the bit
of the superframe's own SF_COUNT, else 1. R194: an interleaved parity differs in at most 8 places, in none exactly when the two values
agree in all 8 bits. -/
def Obligations.LineSymbols : Prop :=
  ((∀ w, (headerChannelBits w).length = 960) ∧ (∀ p, isPilot p = true ↔ ∃ q, p = 62 * q + 61) ∧
   (∀ k q, (pilotBits k q).length = 4) ∧
   (∀ bits : List Bool, bits.length = 800 → blockLevels [800] bits = bits.map fun b => if b then -1 else 1) ∧
   (∀ x : Int, -31 ≤ llrOf x ∧ llrOf x ≤ 31) ∧
   (replacementByte 0 = 0xff ∧ replacementByte 1 = 0x55 ∧ replacementByte 2 = 0x66) ∧
   (replacementStat 0 = 7 ∧ replacementStat 1 = 5 ∧ replacementStat 2 = 6)) ∧
  ((∀ x, justBit (x + 16) = justBit x) ∧ (List.range 16).countP (fun x => !justBit x) = 3 ∧
   (∀ (l : List (Option Bool)) (sf : Option Nat) (a b : Nat), l.countP (· == some true) = a → l.countP (· == some false) = b →
     receivedJust l sf = if a < b then false else if b < a then true else (match sf with
       | some x => justBit x
       | none => true))) ∧
  (∀ a b : Nat, a < 256 → b < 256 → bipViolations a b ≤ 8 ∧ (bipViolations a b = 0 ↔ a = b) ∧ bipViolations a b = bipViolations b a)

/-- R58, Table RFE-1: the sixteenth tick in a row beyond a limit of the line or laser input power raises the event and sets the
condition; the sixteenth at or inside the clearing limit clears it. Low line power also drives dLOS (R199). R57, R62, R69, R70: the
optical switch follows MUTE, the sixteenth tick of a stuck sub-converter marks it and sends the message (the sixteenth good tick clears
it), FILTER_LOAD puts its image into the inactive bank and schedules the swap, and the swap makes that bank active. -/
def Obligations.InputPowerEvents : Prop :=
  (∀ (s : State) (f : Fin 48) (n : Nat) (p : Int) (x : RxSt), s.frondEnabled f.val = true → 15 ≤ n → 0 < s.tick →
     (s.frond f.val).rx = x →
     (s.muted f.val = false → p < -2000 → x.low = false → x.lowRun = ⟨n, s.tick - 1⟩ →
       ∃ t, exec (.rxPowerLow f p) s = .next (t.updateLos f.val) ∧
         (t.frond f.val).rx = { x with linePower := p, lowRun := ⟨n + 1, s.tick⟩, lowClr := ⟨0, s.tick⟩, low := true } ∧
         FrondsBut f.val s t ∧ t = { s with fronds := t.fronds, host := t.host } ∧
         t.host = { s.host with events := s.host.events ++ [eventOf s 0x0101 f.val] }) ∧
     (s.muted f.val = false → -1900 ≤ p → x.low = true → x.lowClr = ⟨n, s.tick - 1⟩ →
       ∃ t, exec (.rxPowerLow f p) s = .next (t.updateLos f.val) ∧
         (t.frond f.val).rx = { x with linePower := p, lowRun := ⟨0, s.tick⟩, lowClr := ⟨n + 1, s.tick⟩, low := false } ∧
         FrondsBut f.val s t ∧ t = { s with fronds := t.fronds, host := t.host } ∧
         t.host = { s.host with events := s.host.events ++ [eventOf s 0x0181 f.val] }) ∧
     (s.muted f.val = false → 400 < p → x.high = false → x.highRun = ⟨n, s.tick - 1⟩ →
       ∃ t, exec (.rxPowerHigh f p) s = .next t ∧
         (t.frond f.val).rx = { x with linePower := p, highRun := ⟨n + 1, s.tick⟩, highClr := ⟨0, s.tick⟩, high := true } ∧
         FrondsBut f.val s t ∧ t = { s with fronds := t.fronds, host := t.host } ∧
         t.host = { s.host with events := s.host.events ++ [eventOf s 0x0102 f.val] }) ∧
     (p < 1300 → x.loLow = false → x.loRun = ⟨n, s.tick - 1⟩ →
       ∃ t, exec (.loLow f p) s = .next t ∧
         (t.frond f.val).rx = { x with laserPower := p, loRun := ⟨n + 1, s.tick⟩, loClr := ⟨0, s.tick⟩, loLow := true } ∧
         FrondsBut f.val s t ∧ t = { s with fronds := t.fronds, host := t.host } ∧
         t.host = { s.host with events := s.host.events ++ [eventOf s 0x0103 f.val] })) ∧
  (∀ (s : State) (f : Fin 48) (x : RxSt), s.frondEnabled f.val = true → (s.frond f.val).rx = x →
     exec (.muteSwitchDone f) s = .next (s.modFrond f.val fun y => { y with rx := { y.rx with dark := s.muted f.val } }) ∧
     (∀ (a : Fin 4) (k : Fin 128) (n : Nat), 15 ≤ n → 0 < s.tick → x.stuck.contains (a.val, k.val) = false →
       Tab.get (fun _ => {}) x.stuckRun (a.val * 128 + k.val) = ⟨n, s.tick - 1⟩ →
       exec (.subconvStuck f a k true true) s = .next ((((s.setFrond f.val { s.frond f.val with rx := { x with
           stuckRun := Tab.set (fun _ => {}) x.stuckRun (a.val * 128 + k.val) ⟨n + 1, s.tick⟩ } }).modFrond f.val fun y => { y with
           rx := { y.rx with stuck := y.rx.stuck ++ [(a.val, k.val)] } }).wr ⟨0x100124 + 0x10000 * f.val, a.val, 1⟩ 1).sendFault
         ⟨0x100 + f.val, 0x02, 3, false, f.val * 2 ^ 8 + a.val * 2 ^ 6 + k.val * 2 ^ 32, s.tick⟩)) ∧
     (∀ (a : Fin 4) (k : Fin 128) (n : Nat), 15 ≤ n → 0 < s.tick → x.stuck.contains (a.val, k.val) = true →
       Tab.get (fun _ => {}) x.freeRun (a.val * 128 + k.val) = ⟨n, s.tick - 1⟩ →
       exec (.subconvRecovered f a k true) s = .next (((s.setFrond f.val { s.frond f.val with rx := { x with
           freeRun := Tab.set (fun _ => {}) x.freeRun (a.val * 128 + k.val) ⟨n + 1, s.tick⟩ } }).modFrond f.val fun y => { y with
           rx := { y.rx with stuck := y.rx.stuck.filter (fun p => !decide (p = (a.val, k.val))),
                             stuckRun := Tab.set (fun _ => {}) y.rx.stuckRun (a.val * 128 + k.val) {} } }).sendFault
         ⟨0x100 + f.val, 0x02, 3, true, f.val * 2 ^ 8 + a.val * 2 ^ 6 + k.val * 2 ^ 32, s.tick⟩)) ∧
     (∀ (h : ReqHdr) (mem : HostMem) (addr swap : Nat) (img : List Byte), h.isPf → addr % 4 = 0 →
       readHost mem addr 520 = some img → bankImageOk img = true → s.tick + 3 ≤ swap → swap ≤ s.tick + 160000 →
       x.swapAt = none →
       exec (.filterLoad h mem f.val addr swap) s = .next (((s.modFrond f.val fun y => { y with rx :=
           (if s.rd (R.FRD_RX_FIRSTAT_ACTIVE f.val) = 0 then { y.rx with bank1 := bankOf img, swapAt := some swap }
           else { y.rx with bank0 := bankOf img, swapAt := some swap }) }).wr (R.FRD_RX_FIRSTAT_PENDING f.val) 1).complete
         (doneOk h s 0x12 0))) ∧
     (∀ e, x.swapAt = some e → e ≤ s.tick → s.rd (R.FRD_RX_FIRSTAT_ACTIVE f.val) = 0 →
       exec (.firBankSwap f) s = .next ((((s.modFrond f.val fun y => { y with rx := { y.rx with swapAt := none } }).wr
         (R.FRD_RX_FIRSTAT_ACTIVE f.val) 1).wr (R.FRD_RX_FIRSTAT_ACTIVE_ID f.val) x.bank1.id).wr
         (R.FRD_RX_FIRSTAT_PENDING f.val) 0)) ∧
     (∀ e, x.swapAt = some e → e ≤ s.tick → s.rd (R.FRD_RX_FIRSTAT_ACTIVE f.val) = 1 →
       exec (.firBankSwap f) s = .next ((((s.modFrond f.val fun y => { y with rx := { y.rx with swapAt := none } }).wr
         (R.FRD_RX_FIRSTAT_ACTIVE f.val) 0).wr (R.FRD_RX_FIRSTAT_ACTIVE_ID f.val) x.bank0.id).wr
         (R.FRD_RX_FIRSTAT_PENDING f.val) 0)))

/-- R105 to R108, R112, R118, R121 to R123: the dispersion search goes to its next candidate after 1,600 ticks; D follows a residual
above 50 ps/nm by at most 200 ps/nm, and the host's ramp moves S by at most 20 ps/nm2; the rotation rate, the frequency offset and the
pilots' SNR are reported; the stamp is refreshed; DISCARD drops the retained state. -/
def Obligations.EqualiserCommands : Prop :=
  ∀ (s : State) (f : Fin 48) (x : EqSt), s.frondEnabled f.val = true → (s.frond f.val).eq = x →
    (∀ c l, s.acqState f.val = 1 → x.searching = true → x.candTick + 1600 ≤ s.tick → x.cands.drop 1 = c :: l →
      exec (.cdSearchCandidateEnd f) s = .next ((s.setD f.val c).modFrond f.val fun y => { y with
        eq := { y.eq with cands := c :: l, candTick := s.tick, fitRun := 0 } })) ∧
    (∀ settled, s.acqState f.val = 1 → x.preconv = true → settled = true ∨ x.preTick + 6384 ≤ s.tick →
      exec (.preconvergenceEnd f settled) s = .next (s.modFrond f.val fun y => { y with eq := { y.eq with preconv := false } })) ∧
    (∀ (r : Int) dgd pdl, s.acqState f.val = 5 → 50 < r → dgd < 4096 → pdl < 256 → x.windowBad = false → s.cdMode f.val ≠ 2 →
      exec (.cdTracking f r dgd pdl) s = .next ((((s.wr (R.FRD_EQ_PMD_DGD f.val) dgd).wr (R.FRD_EQ_PMD_PDL f.val) pdl).modFrond
        f.val fun y => { y with eq := { y.eq with windowBad := false } }).setD f.val (x.d + min r 200))) ∧
    (s.acqState f.val = 5 → s.cdMode f.val ≠ 2 →
      exec (.cdHostRampStep f) s = .next (s.modFrond f.val fun y => { y with eq := { y.eq with
        slope := y.eq.slope + clampInt (-20) 20 (s.rdS (R.FRD_EQ_SLOPE_SLOPE f.val) - x.slope) } })) ∧
    (∀ rate, s.rd (R.FRD_EQ_CTL_TRACK f.val) ≠ 3 → rate ≤ 200 → s.rd (R.FRD_EQ_STAT_TRACK_ACT f.val) = 0 →
      exec (.sopRateEvaluation f rate) s = .next ((s.wr (R.FRD_EQ_STAT_SOP_RATE f.val) rate).modFrond f.val fun y => { y with
        eq := { y.eq with slowRun := ⟨0, s.tick⟩, sopRun := ⟨0, s.tick⟩, sopRaised := false } })) ∧
    (∀ v : Int, -3600000 ≤ v → v ≤ 3600000 →
      exec (.fofsRange f v) s = .next ((s.wrS (R.FRD_EQ_FOFS_FOFS f.val) v).modFrond f.val fun y => { y with
        eq := { y.eq with fofsRun := ⟨0, s.tick⟩, fofsRaised := false } })) ∧
    (∀ (v : Int) n, 3600000 < v → 159 ≤ n → 0 < s.tick → x.fofsRun = ⟨n, s.tick - 1⟩ → x.fofsRaised = false →
      exec (.fofsRange f v) s = .next (((s.wrS (R.FRD_EQ_FOFS_FOFS f.val) v).modFrond f.val fun y => { y with
        eq := { y.eq with fofsRun := ⟨n + 1, s.tick⟩, fofsRaised := true } }).raise 0x0305 f.val [EVal.s v])) ∧
    (∀ sums, exec (.snrMeasurement f true sums) s = .next s) ∧
    (∀ sums, s.acqState f.val ≠ 5 →
      ∃ t, exec (.snrMeasurement f false sums) s = .next t ∧ FrondsBut f.val s t ∧
        ∀ k, k < 16 → t.rd (R.FRD_EQ_SNR_VALID_L f.val k) = 0 ∧ t.rd (R.FRD_EQ_SNR_VALID_H f.val k) = 0) ∧
    (∀ sums : List (Nat × Nat × Nat × Nat), s.acqState f.val = 5 → ∃ t : State, exec (.snrMeasurement f false sums) s = .next t ∧
      ∀ k sig err marked pilots, k < 32 → (s.rxLit f.val).contains k = true → sums.getD k (0, 0, 0, 0) = (sig, err, marked, pilots) →
        2 * marked ≤ pilots → t.rdS (snrFields f.val k).1 = snrOf sig err ∧ t.flag (snrFields f.val k).2 = true) ∧
    (s.acqState f.val = 5 →
      exec (.eqStampRefresh f) s = .next (((s.wr (R.FRD_EQ_GEN_SEC_LO_SEC_LO f.val) s.peat.esec).wr (R.FRD_EQ_GEN_SEC_HI_SEC_HI f.val)
        (s.peat.esec / 2 ^ 32)).wr (R.FRD_EQ_GEN_TEMP_TEMP f.val) (ofSigned 10 (s.junction f.val)))) ∧
    exec (.eqStateDiscard f) s = .next ((s.modFrond f.val fun y => { y with eq := { y.eq with discard := true } }).wr
      (R.FRD_EQ_STAT_RETAINED f.val) 0)

/-- R100: a dispersion to be applied is held to -200,000..+200,000 ps/nm at the nearer limit; CD_STAT.LIMIT tells whether the value in force
is a limit; CD_LIMIT is raised once at the entry into a limit, and not while the value stays at it. Nothing else changes. -/
def Obligations.DispersionLimit : Prop :=
  ∀ (s : State) (f : Nat) (d c : Int), c = (if d < -200000 then -200000 else if 200000 < d then 200000 else d) →
    ((s.setD f d).frond f).eq = { (s.frond f).eq with d := c } ∧ FrondsBut f s (s.setD f d) ∧
    RegsBut [(R.FRD_EQ_CD_STAT_LIMIT f).off] s (s.setD f d) ∧
    (s.setD f d).flag (R.FRD_EQ_CD_STAT_LIMIT f) = decide (c = 200000 ∨ c = -200000) ∧
    (c ≠ 200000 → c ≠ -200000 → (s.setD f d).host = s.host) ∧
    (c = 200000 ∨ c = -200000 →
      ((s.frond f).eq.d = c → s.flag (R.FRD_EQ_CD_STAT_LIMIT f) = true → (s.setD f d).host = s.host) ∧
      ((s.frond f).eq.d ≠ c ∨ s.flag (R.FRD_EQ_CD_STAT_LIMIT f) = false →
        (s.setD f d).host = { s.host with events := s.host.events ++ [eventOf s 0x0302 f [EVal.s c]] }))

/-- R82, R83, R86, R88, R90, R95, Tables ACQ-4, ACQ-5: a saturated window takes 4 gain codes off; a trim waits after 160 ticks outside
the target, or is refused at a limit; a detection in WARM enters TRAIN and a displaced one in ACQUIRED loses acquisition; the sixteenth
period and the 32,000th tick end WARM and COLD; RESTART and the third flooded tick lose acquisition; a verified superframe in ACQUIRED
is delivered with the next stamp. -/
def Obligations.AcquisitionCommands : Prop :=
  ∀ (s : State) (f : Fin 48) (x : Frond), s.frondEnabled f.val = true → s.frond f.val = x →
    (∀ rms sat total, s.acqState f.val = 1 ∨ s.acqState f.val = 2 → total < 100 * sat → x.rx.gain ≤ 31 →
      exec (.fastGainStep f rms sat total) s = .next (s.modFrond f.val fun y => { y with
        rx := { y.rx with gain := x.rx.gain - 4 } })) ∧
    (∀ rms n, s.acqState f.val = 5 → s.flag (R.FRD_ACQ_CTL_TRIM_EN f.val) = true → rms + 300 < s.agcTarget f.val → 159 ≤ n →
      0 < s.tick → x.acq.trimRun = ⟨n, s.tick - 1⟩ →
      exec (.gainTrim f rms false) s = .next (if x.rx.gain = 31
        then (s.modFrond f.val fun y => { y with acq := { y.acq with trimRun := {} } }).raise 0x0207 f.val [.w 31]
        else s.modFrond f.val fun y => { y with acq := { y.acq with trimRun := {}, trimStep := 1, trimTick := s.tick } })) ∧
    (∀ metric p freq fine predicted w, s.acqState f.val = 2 → detection (s.detTh f.val) metric = true →
      exec (.fiddleheadDetection f metric p freq fine predicted (some w)) s = .next ((s.modFrond f.val fun y => { y with
        rx := { y.rx with rot := derotatorWord (derotatorWord (clampInt (x.rx.rot - 25565281) (x.rx.rot + 25565281) w) + freq) }
        acq := { y.acq with coarse := p + 126, phase := fine } }).setAcq f.val 3)) ∧
    (∀ metric p freq fine edge, s.acqState f.val = 5 → detection (s.detTh f.val) metric = true → 512 < fine →
      exec (.fiddleheadDetection f metric p freq fine false edge) s = .next (s.loseAcq f.val 3)) ∧
    (∀ power, s.acqState f.val = 2 → -2000 < power → x.acq.periods = 15 →
      exec (.warmFallback f power) s = .next (((s.modFrond f.val fun y => { y with acq := { y.acq with periods := 16 } }).raise
        0x0204 f.val).enterCold f.val)) ∧
    (s.acqState f.val = 1 → x.acq.coldTick + 32000 ≤ s.tick →
      exec (.acqTimeout f) s = .next (((s.dropRetained f.val).raise 0x0203 f.val).enterCold f.val)) ∧
    (s.acqState f.val = 5 → exec (.acqRestart f) s = .next (((s.leaveAcquired f.val 4).stampRule f.val).enterCold f.val)) ∧
    (s.acqState f.val = 0 → exec (.acqRestart f) s = .next s) ∧
    (∀ marks total, s.acqState f.val ≠ 5 → exec (.floodedTick f marks total) s = .next (s.pcList f.val 0x11 marks)) ∧
    (∀ marks total, s.acqState f.val = 5 →
      (16 * marks.length ≤ total → exec (.floodedTick f marks total) s = .next (((s.pcList f.val 0x11 marks).modFrond f.val fun y => { y with
        acq := { y.acq with floodRun := 0 } }).wr (R.FRD_ACQ_STAT_FLOOD_RUN f.val) 0)) ∧
      (total < 16 * marks.length → x.acq.floodRun = 2 → ∃ u : State, exec (.floodedTick f marks total) s = .next (u.loseAcq f.val 1) ∧
        u.tick = s.tick ∧ u.acqState f.val = 5 ∧ (u.frond f.val).acq.floodRun = 3 ∧ u.rd (R.FRD_ACQ_STAT_FLOOD_RUN f.val) = 3)) ∧
    (∀ o, s.acqState f.val = 0 → exec (.superframeArrival f o) s = .next s) ∧
    (∀ o, s.acqState f.val = 5 → o.fit = none → HeaderWord.ofWord o.header = none →
      256 ≤ o.peak → o.fine = 0 → o.marks ≤ 64 → -240 < o.pos → o.pos < 9840 →
      exec (.superframeArrival f o) s = .next (
        let u := ((((s.trackStep f.val).cdFit f.val none).applyTrim f.val).modFrond f.val fun y => { y with
          acq := { y.acq with unverified := 0 } })
        let stamp := (u.frond f.val).acq.lastStamp + 1
        ((u.rxTable f.val stamp none).1.carrierUpdate f.val o).deliver f.val stamp none (u.rxTable f.val stamp none).2))

/-- R128, R141, R142, R144, R147, R150, R153: a request goes out when the candidate's least margin gains HYST or more; an own request
without an answer ends after 32,000 ticks; the announced table is in force at its swap; LOAD_TABLE announces a valid table from the tick
of effect; the pre-compensation ramps by 50 ps/nm; the restored launch ends the squelch; LASER_OFF_GRID after 160 ticks. R141: the
candidate table keeps the sum of the codes and every code within CODE_MIN and CODE_MAX as far as the table in use has it there, leaves
dark sub-carriers dark, and makes no more moves than allowed. -/
def Obligations.LoadingCommands : Prop :=
  (∀ (s : State) (f : Fin 48) (x : LdSt), s.frondEnabled f.val = true → (s.frond f.val).ld = x →
     (s.tick % 160 ≠ 159 → exec (.loadRequestEvaluation f) s = .next s) ∧
     (∀ lo hi cand moves, s.tick % 160 = 159 → s.acqState f.val = 5 → s.flag (R.FRD_LD_CTL_REQ_EN f.val) = true →
       s.flag (R.FRD_LD_STAT_REQ_OUT f.val) = false → s.codeLimits f.val = (lo, hi) → lo ≤ hi →
       (∀ k, k ∈ litOf x.rxCodes → 80 ≤ x.snrCnt.getD k 0) →
       candidateMoves (s.rd (R.FRD_LD_CTL_GAP f.val)) lo hi (fun k => roundDiv (16 * x.snrSum.getD k 0) (x.snrCnt.getD k 1))
         (s.maxMoves f.val) x.rxCodes 0 = (cand, moves) →
       leastMargin (s.rd (R.FRD_LD_CTL_GAP f.val)) (fun k => roundDiv (16 * x.snrSum.getD k 0) (x.snrCnt.getD k 1)) x.rxCodes +
         max 1 (16 * s.rd (R.FRD_LD_CTL_HYST f.val) : Nat) ≤
         leastMargin (s.rd (R.FRD_LD_CTL_GAP f.val)) (fun k => roundDiv (16 * x.snrSum.getD k 0) (x.snrCnt.getD k 1)) cand →
       ∃ t, exec (.loadRequestEvaluation f) s = .next t ∧ FrondsBut f.val s t ∧ RegsBut [(R.FRD_LD_STAT_REQ_SEQ f.val).off] s t ∧
         t.rd (R.FRD_LD_STAT_REQ_OUT f.val) = 1 ∧
         t.rd (R.FRD_LD_STAT_REQ_SEQ f.val) = (s.rd (R.FRD_LD_STAT_REQ_SEQ f.val) + 1) % 16 ∧
         (t.frond f.val).ld = { x with snrSum := List.replicate 32 0, snrCnt := List.replicate 32 0, reqCodes := cand,
                                       reqBase := s.rd (R.FRD_LD_STAT_RX_TID f.val), reqTick := s.tick }) ∧
     (s.flag (R.FRD_LD_STAT_REQ_OUT f.val) = true → x.reqTick + 32000 ≤ s.tick →
       exec (.loadRequestTimeout f) s = .next (((s.wrB (R.FRD_LD_STAT_REQ_OUT f.val) false).modFrond f.val fun y => { y with
         ld := { y.ld with reqEnd := s.tick } }).raise 0x0403 f.val [.w (s.rd (R.FRD_LD_STAT_REQ_SEQ f.val))])) ∧
     (∀ p, x.pend = some p → p.swap ≤ s.tick →
       ∃ t, exec (.txLoadSwap f) s = .next t ∧ t = s.txSwap f.val ∧ FrondsBut f.val s t ∧
         (t.frond f.val).ld = { x with txCodes := p.codes, pend := none, lastSwap := some s.tick } ∧
         eventOf s 0x0405 f.val [.w p.tid, .w p.cause] ∈ t.host.events) ∧
     (∀ p, x.pend = some p → s.tick < p.swap → exec (.txLoadSwap f) s = .next s) ∧
     (∀ (h : ReqHdr) (mem : HostMem) codes, h.isPf → codes.all codeOk = true → s.rd (R.FRD_SC_PLAN_N f.val) ≠ 0 →
       tableValid (s.rd (R.FRD_SC_PLAN_N f.val)) (s.rd (R.FRD_SC_PLAN_COUNT f.val)) codes = true →
       lightingOk (s.rd (R.FRD_SC_PLAN_N f.val)) x.txCodes codes = true → x.pend = none →
       exec (.loadTable h mem f.val codes) s = .next (((s.modFrond f.val fun y => { y with ld := { y.ld with
         pend := some { codes := codes, tid := (s.rd (R.FRD_LD_STAT_TX_TID f.val) + 1) % 16, cause := 1, start := s.tick,
                        swap := s.tick + s.leadOf f.val } } }).wrB (R.FRD_LD_STAT_TX_PEND f.val) true).complete (doneOk h s 0x11 0))) ∧
     exec (.precdRampStep f) s = .next ((s.modFrond f.val fun y => { y with tx := { y.tx with
       precd := (s.frond f.val).tx.precd + clampInt (-50) 50 (s.precdTarget f.val - (s.frond f.val).tx.precd)
       precdTick := s.tick } }).precdRamping f.val) ∧
     (∀ power : Int, s.squelchCause f.val = false →
       exec (.launchPowerRestored f power false) s = .next ((((s.modFrond f.val fun y => { y with tx := { y.tx with
         power := power, limitRun := false, squelched := false } }).wrB (R.FRD_TX_STAT_DARK f.val) false).wrS
         (R.FRD_TX_STAT_PWR_MEAS f.val) power).wrB (R.FRD_TX_STAT_PWR_LIMIT f.val) false)) ∧
     (∀ (o : Int) n, 250 < o → 159 ≤ n → 0 < s.tick → (s.frond f.val).tx.gridRun = ⟨n, s.tick - 1⟩ →
       (s.frond f.val).tx.gridRaised = false →
       exec (.laserOffGrid f o) s = .next (((s.wrS (R.FRD_TX_STAT_LFOFS f.val) o).modFrond f.val fun y => { y with tx := { y.tx with
         gridRun := ⟨n + 1, s.tick⟩, gridRaised := true } }).raise 0x040a f.val [EVal.s o]))) ∧
  (∀ (gap lo hi : Nat) (snr : Nat → Int) (moves done : Nat) (codes : List Nat), codes.length = 32 → 0 < lo →
     let r := candidateMoves gap lo hi snr moves codes done
     r.1.length = 32 ∧ r.1.sum = codes.sum ∧ r.2 ≤ done + moves ∧ (∀ k, r.1.getD k 0 = 0 ↔ codes.getD k 0 = 0) ∧
     (∀ k, lo ≤ codes.getD k 0 ∧ codes.getD k 0 ≤ hi → lo ≤ r.1.getD k 0 ∧ r.1.getD k 0 ≤ hi))

/-- R569 to R571, R574 to R579, Table FLT-7: a message of a kind whose reaction is LOG and no ALERT is logged and nothing else;
FLT_REACT replaces a reaction that may be changed; CLEAR_ALERT, CLEAR_FIRST and CLEAR_SAFE; the log and the pinned record are read out;
FLT_INJECT sends a TEST message whose SOURCE is left open (assumption 1); FLT_SETUP sets EV_SEV; a parity failure retires a collector. -/
def Obligations.FaultCommands : Prop :=
  ∀ (s : State) (h : ReqHdr) (mem : HostMem), h.isPf → s.flag R.FLT_STAT_LOST_ALL = false →
    (∀ m : FaultMsg, s.boot.warm = false → (s.reaction m.kind).action = 0 → (s.reaction m.kind).alert = false →
      exec (.faultMessage m) s = .next (s.logFault m)) ∧
    (∀ (m : FaultMsg), s.boot.warm = false → m.clear = false → (s.reaction m.kind).action = 2 → (s.reaction m.kind).alert = true →
      exec (.faultMessage m) s = .next (((s.modFlt fun x => { x with
        safeNext := some (x.safeNext.getD (m.kind, m.source)) }).latchAlert m.kind).logFault m)) ∧
    (∀ kind action alert r, kindRow kind = some r → r.fixed = false → r.least ≤ action → action ≤ 3 →
      exec (.fltReact h mem kind action alert) s = .next ((s.modFlt fun x => { x with
        react := Tab.set resetReact x.react kind ⟨action, alert⟩ }).complete (doneOk h s 0xb0 0))) ∧
    exec (.fltClearAlert h mem) s = .next (s.clearAlert.complete (doneOk h s 0xb1 0)) ∧
    exec (.fltClearFirst h mem) s = .next ((((s.modFlt fun x => { x with pinned := none, pinClearTick := some s.tick }).wrB
      R.FLT_STAT_FIRST_VALID false).storePin).complete (doneOk h s 0xb1 0)) ∧
    (s.flag R.FLT_STAT_SAFE = true → s.blocking = false →
      exec (.fltClearSafe h mem) s = .next ((s.frondIds.foldl State.squelchUpdate
        ((s.exitSafe.raise 0x1804 0).driveFaultN)).complete (doneOk h s 0xb1 0))) ∧
    (∀ first count buf, 0 < count → count ≤ 4096 → buf % 64 = 0 → s.readFits (16 * count) →
      exec (.fltLogRead h mem first count buf) s = .next (readOk h s 0xb2 buf
        ((List.range count).flatMap fun i => s.logEntry (first + i)))) ∧
    (∀ buf, buf % 64 = 0 → s.readFits 64 → exec (.fltFirstRead h mem buf) s = .next (readOk h s 0xb3 buf s.pinRead)) ∧
    (∀ sev addr, sev ≤ 7 → addr < 2 ^ 40 →
      ∃ source, source < 4096 ∧ exec (.fltInject h mem sev addr) s = .next ((({ s with freeCtr := s.freeCtr + 1 } : State).sendFault
        ⟨source, 0xfe, sev, false, addr, s.tick⟩).complete (doneOk h s 0xb4 0))) ∧
    (∀ ev, ev ≤ 7 → exec (.fltSetup h mem ev) s = .next ((s.modFlt fun x => { x with evSev := ev }).complete (doneOk h s 0xb5 0))) ∧
    (∀ c : Fin 2, s.fuse.grade ≠ 2 → s.flag R.FLT_STAT_DEGRADED = false → s.flt.pinned = none → s.flt.pinClearTick = some s.tick →
      exec (.collectorParityFailure c) s = .next ((((s.wrB R.FLT_STAT_DEGRADED true).wr R.FLT_STAT_RETIRED c.val).sendFault
        ⟨0x003 + (1 - c.val), 0x0c, 5, false, c.val, s.tick⟩).raise 0x1805 0 [.w c.val]))

/-- R575, R576, R579: the log holds the last 4,096 messages by their number; a message that is not a clearing one is pinned only while
the record is empty; LOG_WR counts every message, and a 65th message of one tick is lost and counted. R577: with every collector lost no
message is logged, and the fault descriptors are refused with ABSENT and change nothing. -/
def Obligations.FaultLog : Prop :=
  (∀ (s : State) (m : FaultMsg), (s.flt.loggedTick = s.tick → s.flt.logged < 64) →
     (s.logFault m).rd R.FLT_LOG_WR_COUNT = (s.rd R.FLT_LOG_WR_COUNT + 1) % 2 ^ 32 ∧
     (s.logFault m).logEntry (s.rd R.FLT_LOG_WR_COUNT) = m.bytes ∧
     (∀ n, n % 4096 ≠ s.rd R.FLT_LOG_WR_COUNT % 4096 → (s.logFault m).logEntry n = s.logEntry n) ∧
     (∀ r, s.flt.pinned = some r → ∃ r', (s.logFault m).flt.pinned = some r' ∧ r'.msg = r.msg) ∧
     (s.flt.pinned = none → s.flt.pinClearTick ≠ some s.tick → m.clear = false →
       ∃ r, (s.logFault m).flt.pinned = some r ∧ r.msg = m)) ∧
  (∀ (s : State) (h : ReqHdr) (mem : HostMem), h.isPf → s.flag R.FLT_STAT_LOST_ALL = true →
     (∀ m, exec (.faultMessage m) s = .next s) ∧ (∀ c, exec (.collectorParityFailure c) s = .next s) ∧
     (∀ ev, ev ≤ 7 → exec (.fltSetup h mem ev) s = .next (s.complete (doneRefused h s 0xb5 0x07 0))) ∧
     exec (.fltClearAlert h mem) s = .next (s.complete (doneRefused h s 0xb1 0x07 0)) ∧
     exec (.fltClearSafe h mem) s = .next (s.complete (doneRefused h s 0xb1 0x07 0)))

/-- R169, R172, R176, R582, R587, R590, R591: a delivered superframe is decoded in the slot after its stamp, within its budget; a
frond's outcomes count; a clear of FROZEN resumes counting at the next boundary; PC_ERB_READ delivers the records and empties the
buffer. R581, R585, R587: a frond's programmable counter that counts an event adds its occurrences; the one that carries it past 2^48 −
1 reloads it, and what comes after counts on from RELOAD. -/
def Obligations.FecAndCounterCommands : Prop :=
  (∀ (s : State) (f : Fin 48), s.frondEnabled f.val = true →
     (∀ o, (s.frond f.val).fec.arrived = [] → exec (.innerDecode f o) s = .next s) ∧
     (∀ o a rest, (s.frond f.val).fec.arrived = a :: rest → s.tick ≤ a.stamp → exec (.innerDecode f o) s = .next s) ∧
     (∀ o a rest, (s.frond f.val).fec.arrived = a :: rest → a.stamp < s.tick → s.rd (R.FRD_SC_PLAN_N f.val) ≠ 0 →
       ∃ t r, exec (.innerDecode f o) s = .next t ∧ (t.frond f.val).fec.arrived = rest ∧
         (t.frond f.val).fec.inner = (s.frond f.val).fec.inner ++ [r] ∧ r.stamp = a.stamp ∧ r.sf = a.sf ∧
         r.settled.length = fecW (s.rd (R.FRD_SC_PLAN_N f.val)) ∧ FrondsBut f.val s t) ∧
     (s.flag (R.FRD_PC_STAT_FROZEN f.val) = true →
       exec (.pcFrozenClear f) s = .next (s.modFrond f.val fun x => { x with pc := { x.pc with resume := true } })) ∧
     (∀ (h : ReqHdr) (mem : HostMem) addr, h.isPf → addr % 64 = 0 →
       s.readFits (16 + 16 * (s.frond f.val).pc.erb.length) →
       exec (.pcErbRead h mem f.val addr) s = .next (readOk h ((s.modFrond f.val fun x => { x with
         pc := { x.pc with erb := [], dropped := 0 } }).wr (R.FRD_PC_ERBSTAT_USED f.val) 0) 0xd8 addr
         (natLe 4 (s.frond f.val).pc.erb.length ++ natLe 4 (s.frond f.val).pc.dropped ++ natLe 1 f.val ++ List.replicate 7 0 ++
           (s.frond f.val).pc.erb.flatMap ExactRec.bytes)))) ∧
  (∀ (s : State) (f j code n : Nat) (place : Nat → Nat × Nat), (s.frond f).pc.counts.length = 8 → j < 8 →
     (s.frond f).pc.stopped.getD j false = false →
     ((s.frond f).pc.counts.getD j 0 + n < 2 ^ 48 →
       ((s.pcRun f j code n place (n + 1) 0).frond f).pc.counts = (s.frond f).pc.counts.set j ((s.frond f).pc.counts.getD j 0 + n) ∧
       (s.pcRun f j code n place (n + 1) 0).regs = s.regs) ∧
     (2 ^ 48 ≤ (s.frond f).pc.counts.getD j 0 + n → (s.frond f).pc.counts.getD j 0 < 2 ^ 48 →
       s.flag (R.FRD_PC_CTL_FREEZE f j) = false → s.flag (R.FRD_PC_CTL_EXACT f j) = false →
       s.pcReload f j + n < 2 ^ 48 →
       ((s.pcRun f j code n place (n + 1) 0).frond f).pc.counts.getD j 0 =
         s.pcReload f j + ((s.frond f).pc.counts.getD j 0 + n - 2 ^ 48)))

/-- R553, R555, R556, R562, R563: a confirmation read takes the byte handed over in an earlier tick; MEM_PASS starts and MEM_PASS_DONE
ends a range pass with its summary; MEM_INJECT flips bits of one byte; the scrubber skips a clean memory. R563: the SA key RAM and the
KEK store take no injected errors: MEM_INJECT that names them is refused with OWNERSHIP. R553: a write of a byte clears its error and
lifts its fence, and no other byte's. -/
def Obligations.MemoryCommands : Prop :=
  (∀ (s : State) (h : ReqHdr) (mem : HostMem), h.isPf →
     (s.mem.confirm.find? (fun c => decide (c.2 < s.tick)) = none → exec .confirmationRead s = .next s) ∧
     (∀ k t l, s.mem.confirm = (k, t) :: l → t < s.tick → bitCount (s.flip k) = 1 →
       exec .confirmationRead s = .next ((s.modMem fun m => { m with confirm := l }).writeBack k)) ∧
     (s.mem.pass = none → s.mem.flips = [] → s.flag R.MEM_CTL_SCRUB_EN = true → s.mem.confirm = [] →
       exec (.scrubTick []) s = .next (s.modMem fun m => { m with
         scrub := if 24936448 ≤ s.mem.scrub + 16384 then 0 else s.mem.scrub + 16384 })) ∧
     (∀ k v, s.mem.pass = none → s.mem.flips = [(k, v)] → bitCount v = 1 → s.flag R.MEM_CTL_SCRUB_EN = true → s.mem.confirm = [] →
       s.mem.scrub ≤ scrubPos k → scrubPos k < s.mem.scrub + 16384 → exec (.scrubTick []) s = .next ((s.writeBack k).modMem fun m => { m with
         scrub := if 24936448 ≤ s.mem.scrub + 16384 then 0 else s.mem.scrub + 16384 })) ∧
     (∀ memory frond off len buf n, memSize memory = some n → memory ≠ 0x17 → off % 4 = 0 → len % 4 = 0 → off + len ≤ n →
       buf % 64 = 0 → s.mem.pass = none →
       exec (.memPass h mem memory frond off len buf) s = .next (((s.modMem fun m => { m with pass := some {
         memory := memory, frond := if frond = 0xff then none else some frond, first := off, len := len, buf := buf, fn := 0, ring := 0
         start := s.tick } }).wrB R.MEM_STAT_PASS_BUSY true).complete (doneOk h s 0xa0 0))) ∧
     (∀ p, s.mem.pass = some p → s.passTotal p ≤ p.done → s.boot.pwrOk = true → (s.fnState p.fn).busMaster = true →
       exec .memPassDone s = .next ((((s.modMem fun m => { m with pass := none }).wrB R.MEM_STAT_PASS_BUSY false).emit
         (.data p.fn p.buf (s.passSummary p))).raise 0x1705 0 [.w p.memory, .w p.uncorrected])) ∧
     (∀ memory frond flip off n, memSize memory = some n → off < n → 0 < bitCount flip → bitCount flip ≤ 2 → flip < 2 ^ 13 →
       memory ≠ 0x14 → memory ≠ 0x15 → memory ≠ 0x17 →
       exec (.memInject h mem memory frond flip off) s = .next ((s.modMem fun m => { m with
         flips := Tab.set (fun _ => 0) m.flips (memKey memory frond off) (s.flip (memKey memory frond off) ^^^ flip) }).complete
         (doneOk h s 0xa1 0)))) ∧
  ((∀ (s : State) (h : ReqHdr) (mem : HostMem) memory frond flip off n, h.isPf → memory = 0x14 ∨ memory = 0x15 →
     memSize memory = some n → off < n → 0 < bitCount flip → bitCount flip ≤ 2 → flip < 2 ^ 13 →
     exec (.memInject h mem memory frond flip off) s = .next (s.complete (doneRefused h s 0xa1 0x08 0))) ∧
   (∀ (s : State) m f off len k, Tab.rising 0 s.mem.flips = true →
     let lo := memKey m f off
     ((s.memWrite m f off len).flip k = if lo ≤ k ∧ k < lo + len then 0 else s.flip k) ∧
     (k ∈ (s.memWrite m f off len).mem.fence ↔ k ∈ s.mem.fence ∧ ¬ (lo ≤ k ∧ k < lo + len))))

/-- R525 to R534, Tables CAL-1, CAL-2, CAL-4, CAL-7: admission with a declared tone starts the pre-checks; the second check passes with
the light off and aborts with reason 4 otherwise; a weak tone, a tone lost for 16 ticks and a step beyond its limit abort with reasons
1, 6 and 9; a finished step goes on to the next; the swap of a restored set puts it in force; CAL_RUN, CAL_ABORT, CAL_EXPORT and
CAL_RESTORE are admitted. R526: the tone frequencies that the module takes: 2 to 40 GHz, at least 300 MHz from each multiple of 1.5 GHz.
Another frequency sets TONE_BAD and is applied as 0. -/
def Obligations.CalibrationCommands : Prop :=
  (∀ (s : State) (f : Fin 48) (h : ReqHdr) (mem : HostMem) (x : FrondCal), s.frondEnabled f.val = true → h.isPf →
     s.frondCal f.val = x →
     (x.run = none → x.restore = none → s.calTone ≠ 0 →
       exec (.calRun h mem f.val) s = .next ((((s.setFrondCal f.val { x with
         run := some { kind := 2, start := s.tick, tone := s.calTone, shadow := s.calBank f.val } }).raise 0x1501 f.val [.w 2]).wr (R.CAL_FSTAT_STEP f.val) 1).complete (doneOk h s 0x90 0))) ∧
     exec (.calAbort h mem f.val) s = .next ((s.calAbort f.val 15).complete (doneOk h s 0x91 0)) ∧
     (x.run = none → exec (.calAbort h mem f.val) s = .next (s.complete (doneOk h s 0x91 0))) ∧
     (∀ b buf, x.act = some b → b.length = 2304 → buf % 64 = 0 → s.readFits 2304 →
       exec (.calExport h mem f.val buf) s = .next (readOk h s 0x92 buf b)) ∧
     (∀ b addr, readHost mem addr 2304 = some b → addr % 64 = 0 → s.setOk f.val b = true → x.run = none → x.restore = none →
       exec (.calRestore h mem f.val addr) s = .next ((s.setFrondCal f.val { x with restore := some (b, s.tick + 1) }).complete
         (doneOk h s 0x93 0))) ∧
     (∀ b t, x.run = none → x.restore = some (b, t) → t ≤ s.tick →
       exec (.calBankSwap f) s = .next (
         let u := (s.setFrondCal f.val { x with restore := none }).calForce f.val 3 b
         u.raise 0x1503 f.val [.w (fieldAt b 8 4), .w (if u.setUsable f.val b then 1 else 0)])) ∧
     (∀ r, x.run = some r → r.passed = false → r.kind = 2 → s.flag (R.FRD_RX_CTL_MUTE f.val) = true →
       s.pState f.val = 1 → s.flag (R.PWR_FSTAT_WAKING f.val) = false →
       exec (.calMuteCheck f) s = .next (if (s.frond f.val).rx.dark
         then s.setFrondCal f.val { x with run := some { r with passed := true } } else s.calAbort f.val 4)) ∧
     (∀ r (pwr fofs : Int) spread, x.run = some r → r.passed = true → s.rd (R.CAL_FSTAT_STEP f.val) = 1 → pwr < -100 →
       exec (.calPrecheckEnd f pwr fofs spread) s = .next (((s.wrS R.CAL_INPUT_PWR pwr).wrS R.CAL_INPUT_FOFS
         (clampInt (-32768) 32767 fofs)).calAbort f.val 1)) ∧
     (∀ r (pwr fofs : Int) spread, x.run = some r → r.passed = true → s.rd (R.CAL_FSTAT_STEP f.val) = 1 → -100 ≤ pwr →
       s.tick < r.start + 15999 → exec (.calPrecheckEnd f pwr fofs spread) s = .next s) ∧
     (∀ r (pwr fofs : Int) spread, x.run = some r → r.passed = true → s.rd (R.CAL_FSTAT_STEP f.val) = 1 → -100 ≤ pwr →
       r.start + 15999 ≤ s.tick → -100 ≤ fofs → fofs ≤ 100 → spread ≤ 8 → exec (.calPrecheckEnd f pwr fofs spread) s = .next
         (((((s.wrS R.CAL_INPUT_PWR pwr).wrS R.CAL_INPUT_FOFS fofs).setFrondCal f.val { x with run := some { r with
           pwr := pwr, stepTick := s.tick + 1 } }).wr (R.CAL_FSTAT_STEP f.val) 2).setInsrc f.val 1)) ∧
     (∀ r (pwr : Int) n, x.run = some r → s.rd (R.CAL_FSTAT_STEP f.val) = 3 → pwr < -100 → 15 ≤ n → 0 < s.tick →
       r.lost = ⟨n, s.tick - 1⟩ →
       exec (.calToneLost f pwr) s = .next ((s.setFrondCal f.val { x with run := some { r with lost := ⟨n + 1, s.tick⟩ } }).calAbort
         f.val 6)) ∧
     (∀ r vals tap quad, x.run = some r → r.ready = none → 2 ≤ s.rd (R.CAL_FSTAT_STEP f.val) →
       r.stepTick + stepLimit (s.rd (R.CAL_FSTAT_STEP f.val)) ≤ s.tick →
       exec (.calStepEnd f vals tap quad) s = .next (s.calAbort f.val 9)) ∧
     (∀ r vals tap, x.run = some r → r.ready = none → s.rd (R.CAL_FSTAT_STEP f.val) = 2 → s.tick < r.stepTick + 3200 →
       (∀ v ∈ vals, -128 ≤ v ∧ v < 128) →
       exec (.calStepEnd f vals tap none) s = .next ((s.setFrondCal f.val { x with
         run := some { r with shadow := putValues r.shadow 2 vals, stepTick := s.tick + 1, lost := {} } }).wr (R.CAL_FSTAT_STEP f.val) 3)) ∧
     (∀ v : Word, s.pfVerdict 0xb0000 true = .ok → s.fuseFailed = false → exec (.calToneWrite v) s = .next (s.toneSet v))) ∧
  ((∀ khz, toneOk khz = true ↔ 2000000 ≤ khz ∧ khz ≤ 40000000 ∧ ∀ m, khz + 300000 ≤ 1500000 * m ∨ 1500000 * m + 300000 ≤ khz) ∧
   (∀ (s : State) (v : Word), (s.toneSet v).calTone = if toneOk (bitsGet v 0 26) then bitsGet v 0 26 else 0))

/-- R444, R445, R453 to R455, R459 to R462, R464, Table PWR-6: a completed wake puts the frond into its target, or, from F3 or F4
without a usable calibration, into F1 where the wake calibration is admitted; the iteration cap falls by 8; a sheddable frond is shed;
the trip gates every frond; an AVS target moves; a rail fault is counted and sent; the two descriptors write LT, SHED and the
thresholds. R444: an evaluation moves the target of a rail towards the fuses' value for the hottest of its six fronds, by at most 10 mV
in steps of 5 mV within 550 to 700 mV, publishes it and raises AVS_TARGET; within 160,000 ticks of the last change it changes nothing. -/
def Obligations.PowerCommands : Prop :=
  (∀ (s : State) (f : Fin 48) (h : ReqHdr) (mem : HostMem), h.isPf → s.frondEnabled f.val = true →
     (∀ u tgt, s.flag (R.PWR_FSTAT_WAKING f.val) = true → s.holdTarget f.val (s.rawTarget f.val) = (u, tgt) →
       (u.frondPow f.val).viaCal = false →
       exec (.wakeComplete f) s = .next (((((u.endWake f.val).wakeLate f.val).setFrondPow f.val (u.frondPow f.val)).enterPower
         f.val tgt).moduleState)) ∧
     (∀ u tgt, s.flag (R.PWR_FSTAT_WAKING f.val) = true → s.holdTarget f.val (s.rawTarget f.val) = (u, tgt) → tgt ≤ 1 →
       (u.frondPow f.val).viaCal = true → u.calUsable f.val = false →
       exec (.wakeComplete f) s = .next ((((u.endWake f.val).enterPower f.val 1).calAdmit f.val 1).moduleState)) ∧
     (s.flag (R.PWR_FSTAT_WAKING f.val) = false → exec (.wakeComplete f) s = .next s) ∧
     (∀ c, s.rd (R.PWR_CAP f.val) = c → c < 2 → s.tThr < s.sensor f.val → (s.frondPow f.val).capTick = none →
       exec (.thermThrottle f) s = .next (((s.thermTick.wr (R.PWR_CAP f.val) (c + 1)).setFrondPow f.val { s.frondPow f.val with
         capTick := some s.tick }).raise 0x110a f.val [.w (32 - 8 * (c + 1))])) ∧
     (∀ (q : Nat × Run) (g : Nat), q ∈ s.thermTick.pow.hot → 1600 ≤ q.2.n → s.tThr < s.sensor q.1 → s.pow.shedTick = none →
       s.frondIds.find? (fun f => s.mapBit R.PWR_SHED_SHED f && !s.isShed f) = some g →
       exec .thermShed s = .next (((s.thermTick.modPow fun p => { p with shedTick := some s.tick }).setMapBit R.PWR_SHEDACT_SHEDACT g
         true).raise 0x110b g [.w 1])) ∧
     (∀ (i : Fin 52) (deg : Nat), s.flag R.PWR_MSTAT_TRIPPED = true → exec (.thermalTrip i deg) s = .next s) ∧
     (∀ (i : Fin 52) (deg : Nat), s.flag R.PWR_MSTAT_TRIPPED = false →
       exec (.thermalTrip i deg) s = .next ((((((s.wrB R.PWR_MSTAT_TRIPPED true).modPow fun p => { p with
         gated := true }).updateBlocking.gateAll.raise 0x110c i.val [.w deg]).bumpLife 6).sendFault
         ⟨0x006, 0x05, 7, false, i.val + 256 * (deg % 256), s.tick⟩).moduleState)) ∧
     (∀ (r : Fin 14) (mv : Nat), s.boot.pwrOk = true →
       exec (.railFault r mv) s = .next ((((s.modPow fun p => { p with railsOut := p.railsOut.filter (· != r.val) ++ [r.val] }).bump
         R.PWR_CNT_RAIL_FAULTS 1).raise 0x1107 r.val [.w mv]).sendFault
         ⟨0x006, 0x04, 6, false, r.val + 2 ^ 16 * (mv % 2 ^ 16), s.tick⟩)) ∧
     (∀ set shed lt, exec (.pwrFrond h mem f.val false set shed lt) s = .next
       ((if set then s.setMapBit R.PWR_SHED_SHED f.val shed else s).complete (doneOk h s 0x80 0))) ∧
     (∀ shed lt u, s.wr (R.PWR_LT_LT f.val) lt = u → 2 ≤ u.ltTarget f.val → u.cryptoHeld f.val = false → u.isShed f.val = false →
       exec (.pwrFrond h mem f.val true false shed lt) s = .next ((u.holdTarget f.val (u.ltTarget f.val)).1.complete
         (doneOk h s 0x80 0))) ∧
     (∀ warn thr, 80 ≤ warn → 90 ≤ thr → thr ≤ 124 → warn < thr →
       exec (.pwrThermal h mem warn thr) s = .next (((s.wr R.PWR_THERM_T_WARN warn).wr R.PWR_THERM_T_THR thr).complete
         (doneOk h s 0x81 0)))) ∧
  (∀ (s : State) (r : Fin 8), 6 * r.val + 5 < s.frondCount → 550 ≤ s.rd (R.PWR_AVS_TGT r.val) → s.rd (R.PWR_AVS_TGT r.val) ≤ 700 →
     (∀ t, Tab.get (fun _ => none) s.pow.avsTick r.val = some t → s.tick < t + 160000 → exec (.avsEvaluation r) s = .next s) ∧
     (Tab.get (fun _ => none) s.pow.avsTick r.val = none → ∃ new, 550 ≤ new ∧ new ≤ 700 ∧
       new ≤ s.rd (R.PWR_AVS_TGT r.val) + 10 ∧ s.rd (R.PWR_AVS_TGT r.val) ≤ new + 10 ∧
       (new % 5 = s.rd (R.PWR_AVS_TGT r.val) % 5) ∧
       (exec (.avsEvaluation r) s = .next (if new = s.rd (R.PWR_AVS_TGT r.val) then s else
         ((s.modPow fun p => { p with avsTick := Tab.set (fun _ => none) p.avsTick r.val (some s.tick) }).wr
           (R.PWR_AVS_TGT r.val) new).raise 0x1108 r.val [.w new]))))

/-- R463, Table PWR-5: the port answers each command while the main supplies are present and is silent otherwise; PAGE is its only
write; a page or a command that it does not support is not acknowledged and sets the CML bits, which STATUS_CML returns and clears; the
refresh takes the monitor's published voltages into PWR_MEAS. LINEAR11 exponents are the model's choice (assumption 54). The LINEAR11
words of the port are within one unit of their exponent of the value they stand for (the format is the PMBus standard's; the exponent
and the rounding are assumption 54). -/
def Obligations.BoardController : Prop :=
  (∀ s : State,
     (s.boot.pwrOk = false → ∀ p, exec (.pmbusPageWrite p) s = .next s ∧ exec .pmbusPageRead s = .next s ∧
       exec .pmbusVoutMode s = .next s ∧ exec .pmbusStatusWord s = .next s ∧ exec .pmbusStatusCml s = .next s ∧
       exec .pmbusReadVout s = .next s ∧ exec .pmbusReadIout s = .next s ∧ exec .pmbusReadTemperature1 s = .next s ∧
       exec .pmbusReadPout s = .next s ∧ exec .pmbusMfrSpecific00 s = .next s ∧ exec .pmbusMfrSpecific01 s = .next s ∧
       exec .pmbusUnsupported s = .next s) ∧
     (s.boot.pwrOk = true →
       (∀ p, p.val ≤ 14 → exec (.pmbusPageWrite p) s = .next { s with pow := { s.pow with page := p.val } }) ∧
       (∀ p, 14 < p.val → exec (.pmbusPageWrite p) s = .next ({ s with pow := { s.pow with
         cmlBits := s.pow.cmlBits ||| 64 } }.emit .pmbusNack)) ∧
       exec .pmbusPageRead s = .next (s.emit (.pmbusReply s.pow.page 1)) ∧
       exec .pmbusVoutMode s = .next (s.emit (.pmbusReply 0x14 1)) ∧
       exec .pmbusStatusWord s = .next (s.emit (.pmbusReply s.statusWord 2)) ∧
       exec .pmbusStatusCml s = .next ({ s.emit (.pmbusReply s.pow.cmlBits 1) with pow := { s.pow with cmlBits := 0 } }) ∧
       (s.pow.page = 14 → exec .pmbusReadVout s = .next (s.emit (.pmbusReply 0 2))) ∧
       (∀ mv : Nat, s.pow.page < 14 → s.teleVolt s.pow.page = mv → (mv * 4096) % 1000 = 0 →
         exec .pmbusReadVout s = .next (s.emit (.pmbusReply (mv * 4096 / 1000 % 2 ^ 16) 2))) ∧
       (∀ i v t, (if s.pow.page = 14 then ((List.range 14).map s.teleCur).sum else s.teleCur s.pow.page) = i →
         linear11 s i 100 = (v, t) → exec .pmbusReadIout s = .next (t.emit (.pmbusReply v 2))) ∧
       (∀ v t, linear11 s (Tab.get (fun _ => 0) s.pow.tele.temp s.pow.page) 4 = (v, t) →
         exec .pmbusReadTemperature1 s = .next (t.emit (.pmbusReply v 2))) ∧
       (∀ v t, s.pow.page < 14 → linear11 s (s.teleVolt s.pow.page * s.teleCur s.pow.page) 100000 = (v, t) →
         exec .pmbusReadPout s = .next (t.emit (.pmbusReply v 2))) ∧
       (s.pow.page < 8 → (s.rd (R.PWR_AVS_TGT s.pow.page) * 4096) % 1000 = 0 →
         exec .pmbusMfrSpecific00 s = .next (s.emit (.pmbusReply (s.rd (R.PWR_AVS_TGT s.pow.page) * 4096 / 1000) 2))) ∧
       (8 ≤ s.pow.page → exec .pmbusMfrSpecific00 s = .next ({ s with pow := { s.pow with
         cmlBits := s.pow.cmlBits ||| 128 } }.emit .pmbusNack)) ∧
       exec .pmbusMfrSpecific01 s = .next (s.emit (.pmbusReply
         (s.rd R.PWR_MSTAT_MSTATE + 4 * s.rd R.PWR_MSTAT_TRIPPED + 8 * s.rd R.PWR_MSTAT_PEAT_SRC) 1)) ∧
       exec .pmbusUnsupported s = .next ({ s with pow := { s.pow with cmlBits := s.pow.cmlBits ||| 128 } }.emit .pmbusNack)) ∧
     (∃ t, exec .telemetryRefresh s = .next t ∧
       ∀ r, r < 8 → s.rdS (R.MON_RES_VALUE (0x34 + r)) = ((s.rd (R.MON_RES_VALUE (0x34 + r)) : Nat) : Int) →
         t.rd (R.PWR_AVS_MEAS r) = s.rd (R.MON_RES_VALUE (0x34 + r)) % 2 ^ (R.PWR_AVS_MEAS r).w ∧
         t.teleVolt r = s.rd (R.MON_RES_VALUE (0x34 + r)))) ∧
  (∀ (s t : State) (num : Int) (den v : Nat), 0 < den → num.natAbs * 2 ^ 16 / (den * 2 ^ 31) ≤ 1022 → linear11 s num den = (v, t) →
     ∃ (n m : Nat), n < 32 ∧ m ≤ 1023 ∧ v = (n + 16) % 32 * 2048 + ofSigned 11 (if num < 0 then -(m : Int) else m) ∧
       m * (den * 2 ^ n) < num.natAbs * 2 ^ 16 + den * 2 ^ n ∧ num.natAbs * 2 ^ 16 < m * (den * 2 ^ n) + den * 2 ^ n)

/-- R636, R486, R637, R638: each register access of the PF is answered by the first rule that applies: with the link down by nothing; a
malformed one is counted and a read of it gets Unsupported Request; one refused by BAR2, one to a block in reset (Completer Abort for a
read) and one that reads zero; otherwise it acts on the register. A warm reset needs its key, a block reset and other WT writes wait for
the boundary that ends the tick, and the load window starts on GO. -/
def Obligations.RegisterAccess : Prop :=
  ∀ (s : State) (off : Nat) (v : Word),
    (s.linkAlive = false → ∀ fn form, exec (.registerReadClear fn off form) s = .next s ∧
      exec (.latchedPairRead fn off form) s = .next s ∧ exec (.registerWrite fn off form v) s = .next s) ∧
    (s.linkAlive = true → ∀ fn : Fin 256,
      exec (.registerReadClear fn off false) s = .next ((s.accError off).emit (.unsupportedRequest fn.val off)) ∧
      exec (.latchedPairRead fn off false) s = .next ((s.accError off).emit (.unsupportedRequest fn.val off)) ∧
      exec (.registerWrite fn off false v) s = .next (s.accError off)) ∧
    (∀ (fn : Fin 256) (o : Nat), s.linkAlive = true → s.verdict fn.val off true = (o, .ok) →
      (∀ w t, s.readReg o = (w, t) → exec (.registerReadClear fn off true) s = .next (t.emit (.readReply fn.val off w)) ∧
        exec (.latchedPairRead fn off true) s = .next (t.emit (.readReply fn.val off w))) ∧
      (s.fuseFailed = false → exec (.registerWrite fn off true v) s = .next (s.writeReg fn.val o v))) ∧
    (∀ (fn : Fin 256) (o b : Nat), s.linkAlive = true → s.verdict fn.val off true = (o, .inReset b) →
      exec (.registerReadClear fn off true) s = .next ((s.isoCount b).emit (.completerAbort fn.val off)) ∧
      exec (.registerWrite fn off true v) s = .next (s.isoCount b)) ∧
    (∀ (fn : Fin 256) (o : Nat), s.linkAlive = true → s.verdict fn.val off true = (o, .zero) →
      exec (.registerReadClear fn off true) s = .next (s.emit (.readReply fn.val off 0)) ∧
      exec (.registerWrite fn off true v) s = .next s) ∧
    (∀ (fn : Fin 256) (o : Nat), s.linkAlive = true → s.verdict fn.val off true = (o, .denied) →
      exec (.registerReadClear fn off true) s = .next (s.bar2Denied.emit (.unsupportedRequest fn.val off)) ∧
      exec (.registerWrite fn off true v) s = .next s.bar2Denied) ∧
    (s.linkAlive = true → s.pfVerdict 0x60010 true = .ok → s.fuseFailed = false →
      exec (.warmResetRequest v) s = .next (if v.toNat / 2 ^ 16 % 2 ^ 16 = 0xa5c3 ∧ v.toNat % 2 = 1 then s.requestWarm 2 else s)) ∧
    (∀ b : Fin 4096, s.linkAlive = true → s.pfVerdict 0x60014 true = .ok → s.fuseFailed = false →
      ∃ t, exec (.blockResetRequest b) s = .next t ∧ t = { s with regs := t.regs, wtq := t.wtq } ∧ (∀ o, t.reg o = s.reg o) ∧
        t.wtq = s.wtq.filter (fun q => q.1 != 0x60014) ++ [(0x60014, b.val)]) ∧
    (s.linkAlive = true → s.pfVerdict 0x6002c true = .ok → s.fuseFailed = false →
      (v.toNat % 2 = 0 → exec (.loadWindowGo v) s = .next (s.wr R.RST_LOAD_CTL_KIND (v.toNat / 2 ^ 4))) ∧
      (v.toNat = 0x21 → s.rd R.RST_BOOT_STAT_PHASE = 6 → s.rd R.RST_BOOT_STAT_FAIL_REASON = 2 → s.boot.load = none →
        s.rd R.RST_LOAD_LEN_LEN ≤ 0x4000000 → ∃ t, exec (.loadWindowGo v) s = .next t ∧
        t.boot = { s.boot with load := some (2, s.rd R.RST_LOAD_ADDR_HI_ADDR_HI * 2 ^ 32 +
          s.rd R.RST_LOAD_ADDR_LO_ADDR_LO * 2 ^ 12, s.rd R.RST_LOAD_LEN_LEN) } ∧ t.rd R.RST_LOAD_CTL_RESULT = 1 ∧
        RegsBut [0x6002c] s t))

/-- R9, Table SCO-3: of a host write the RW and WO fields of a register take their bits, a W1C field loses the bits that the write sets,
and every other field stays; a read clears the RC fields and no other, and returns 0 for the WO fields. -/
def Obligations.AccessCodes : Prop :=
  ∀ (r : RegD) (old v : Word) (d : FieldD), d ∈ r.fields → (∀ e ∈ r.fields, e.lo + e.w ≤ 32) →
    r.fields.Pairwise (fun a b => a.lo + a.w ≤ b.lo ∨ b.lo + b.w ≤ a.lo) →
    (d.acc = .rw ∨ d.acc = .wo → bitsGet (putFields r [.rw, .wo, .w1c] old v) d.lo d.w = bitsGet v d.lo d.w) ∧
    (d.acc = .w1c → bitsGet (putFields r [.rw, .wo, .w1c] old v) d.lo d.w =
      bitsGet old d.lo d.w - (bitsGet old d.lo d.w &&& bitsGet v d.lo d.w)) ∧
    (d.acc ≠ .rw → d.acc ≠ .wo → d.acc ≠ .w1c → bitsGet (putFields r [.rw, .wo, .w1c] old v) d.lo d.w = bitsGet old d.lo d.w) ∧
    (d.acc = .wt → bitsGet (putFields r [.wt] old v) d.lo d.w = bitsGet v d.lo d.w) ∧
    (d.acc ≠ .wt → bitsGet (putFields r [.wt] old v) d.lo d.w = bitsGet old d.lo d.w) ∧
    (d.acc = .rc → bitsGet (clearRc r old) d.lo d.w = 0) ∧
    (d.acc ≠ .rc → bitsGet (clearRc r old) d.lo d.w = bitsGet old d.lo d.w) ∧
    (d.acc = .wo → bitsGet (hideWo r old) d.lo d.w = 0) ∧ (d.acc ≠ .wo → bitsGet (hideWo r old) d.lo d.w = bitsGet old d.lo d.w)

/-- R310, R314, R337, R338: enabling a ring latches its base and size and zeroes its counts, or sets CFG_ERR for a size outside 4 to 16;
disabling one withdraws what has not been applied; the PF sets a VF's tenant range, or TEN_REJECT is set; an FLR, the clearing of VF
Enable, and Bus Master Enable. R310: an accepted tenant range lies in T0001 to T1023 and overlaps the range of no other VF, and no ring
of the VF is enabled. -/
def Obligations.HostFunctions : Prop :=
  (∀ (s : State) (fn : Fin 256), s.fnPresent fn.val = true →
     (∀ (r : Fin 5) (n : Nat), r.val < 4 → s.ringOn fn.val r.val = false → s.rd (R.HST_RING_CFG_LOG2SIZE fn.val r.val) = n →
       4 ≤ n → n ≤ 16 → exec (.ringEnable fn r) s = .next ((((s.setRing fn.val r.val {
         crBase := s.baseOf (R.HST_CR_BASE_LO_BASE_LO fn.val r.val) (R.HST_CR_BASE_HI_ADDR_HI fn.val r.val)
         cqBase := s.baseOf (R.HST_CQ_BASE_LO_BASE_LO fn.val r.val) (R.HST_CQ_BASE_HI_ADDR_HI fn.val r.val), log2 := n }).wr
         (R.HST_CR_FETCHED_COUNT fn.val r.val) 0).wr (R.HST_CQ_WRITTEN_COUNT fn.val r.val) 0).setBits (R.HST_FN_CTL_CR_EN fn.val)
         (2 ^ r.val))) ∧
     (∀ (r : Fin 5), r.val < 4 → s.ringOn fn.val r.val = false → 16 < s.rd (R.HST_RING_CFG_LOG2SIZE fn.val r.val) →
       exec (.ringEnable fn r) s = .next (s.fnError fn.val 0x400)) ∧
     (s.eqOn fn.val = false → s.rd (R.HST_EQ_CFG_LOG2SIZE fn.val) < 4 → exec (.ringEnable fn 4) s = .next (s.fnError fn.val 0x400)) ∧
     (∀ r : Fin 5, r.val < 4 → s.ringOn fn.val r.val = true → exec (.ringEnable fn r) s = .next s) ∧
     (∀ r : Fin 5, r.val < 4 → s.ringOn fn.val r.val = true → ∃ t, exec (.ringDisable fn r) s = .next t ∧
       t.ringOn fn.val r.val = false ∧ (∀ q, q ∈ t.host.requests ↔ q ∈ s.host.requests ∧ q.src ≠ .host fn.val r.val) ∧
       (∀ c, c ∈ t.host.done ↔ c ∈ s.host.done ∧ c.src ≠ .host fn.val r.val)) ∧
     (∀ (b : Fin 1024) (c : Fin 2048), 0 < fn.val → s.pfVerdict (R.HST_FN_TENANT_BASE fn.val).off true = .ok → s.fuseFailed = false →
       (s.rangeOk fn.val b.val c.val = true → exec (.tenantRangeWrite fn b c) s = .next
         ((s.wr (R.HST_FN_TENANT_BASE fn.val) b.val).wr (R.HST_FN_TENANT_COUNT fn.val) c.val)) ∧
       (s.rangeOk fn.val b.val c.val = false → exec (.tenantRangeWrite fn b c) s = .next (s.fnError fn.val 0x200))) ∧
     (∃ t, exec (.functionLevelReset fn) s = .next t ∧ t.fnState fn.val = { vfEnabled := (s.fnState fn.val).vfEnabled } ∧
       (fn.val = 0 → t.sec.ide = false ∧ t.host.posted = [])) ∧
     (0 < fn.val → ∃ t, exec .vfEnableClear s = .next t ∧ t.reg (R.HST_FN_TENANT_BASE fn.val).off = 0) ∧
     exec (.busMasterDisable fn) s = .next (s.modFn fn.val fun x => { x with busMaster := false }) ∧
     ((s.fnState fn.val).dropped = true → exec (.busMasterEnableReturn fn) s = .next ((s.modFn fn.val fun x => { x with
       busMaster := true, dropped := false, vfEnabled := x.vfEnabled || decide (0 < fn.val) }).fnError fn.val 0x100)) ∧
     ((s.fnState fn.val).dropped = false → exec (.busMasterEnableReturn fn) s = .next (s.modFn fn.val fun x => { x with
       busMaster := true, dropped := false, vfEnabled := x.vfEnabled || decide (0 < fn.val) }))) ∧
  (∀ (s : State) (fn base count : Nat), s.rangeOk fn base count = true → 0 < count →
     1 ≤ base ∧ base + count ≤ 1024 ∧ s.eqOn fn = false ∧ s.rd (R.HST_FN_CTL_CR_EN fn) = 0 ∧
     ∀ g t, 1 ≤ g → g < 256 → g ≠ fn → base ≤ t → t < base + count → s.inRange g t = false)

/-- R330 to R333, R335, R337, R432: the events that wait are written while the event ring has space; a vector whose ring has new entries
sends one message, or sets its pending bit when masked; the read-out data goes out in order; the records due go out; before release no
doorbell is read; a REMOTE_CMD from a sender that is not allowed is refused with OWNERSHIP. R316, R317: the fetch takes the requests of
a ring in descriptor order, whole, with at most 256 descriptors of one ring in a tick, and none while its completion ring has no entry
that is not reserved. -/
def Obligations.HostOutput : Prop :=
  (∀ (s : State),
     (∀ (fn : Fin 256) (e : Event) (l : List Event), s.eqOn fn.val = true → s.boot.pwrOk = true → (s.fnState fn.val).busMaster = true →
       (s.fnState fn.val).waiting = e :: l → s.eqSpace fn.val = true →
       exec (.waitingEventWrite fn) s = .next ((s.putEvent fn.val e).drainWaiting fn.val l)) ∧
     (∀ (fn : Fin 256), s.eqSpace fn.val = false → ∃ t, exec (.waitingEventWrite fn) s = .next t ∧ t.out = s.out ∧
       (t.fnState fn.val).waiting = (s.fnState fn.val).waiting) ∧
     (∀ (fn : Fin 256) (v : Fin 8) (x : Vector8), Tab.get (fun _ => ({} : Vector8)) (s.fnState fn.val).vectors v.val = x →
       s.boot.pwrOk = true → (s.fnState fn.val).busMaster = true → x.fresh = true → x.last = none →
       (∃ t, exec (.msixMessage fn v false) s = .next t ∧ t.out = s.out ++ [.msix fn.val v.val] ∧
         Tab.get (fun _ => ({} : Vector8)) (t.fnState fn.val).vectors v.val = ⟨false, false, false, some s.tick⟩) ∧
       (∃ t, exec (.msixMessage fn v true) s = .next t ∧ t.out = s.out ∧
         Tab.get (fun _ => ({} : Vector8)) (t.fnState fn.val).vectors v.val = ⟨true, true, false, none⟩)) ∧
     (∀ j : ReadJob, s.host.reads = [j] → s.boot.pwrOk = true → (s.fnState j.fn).busMaster = true → 0 < j.data.length →
       s.host.readBudgetUsed + j.data.length ≤ 262144 → j.doneBy ≤ j.eff →
       ∃ t, exec .readDataWrite s = .next t ∧ t.host.reads = [] ∧ t.out = s.out ++ [.data j.fn j.addr j.data j.poison]) ∧
     (s.boot.pwrOk = false → exec .pmRecordExport s = .next s) ∧
     (∀ r : PmRecord, s.boot.pwrOk = true → s.pm.waiting = [r] → r.due ≤ s.tick → r.frondRec = true → s.eqOn 0 = true →
       (s.fnState 0).busMaster = true → (s.fnState 0).waiting = [] → s.eqSpace 0 = true → s.pm.budgetTick = s.tick → s.pm.budgetUsed < 256 →
       ∃ t, exec .pmRecordExport s = .next t ∧ t.pm.waiting = [] ∧ t.pm.budgetUsed = s.pm.budgetUsed + 1 ∧ t.out.length = s.out.length + 1) ∧
     (∀ mem, s.running = false → exec (.doorbellRead mem) s = .next s) ∧
     (∀ mem, s.boot.pwrOk = true → s.running = true → s.doorbellFns = [] → exec (.doorbellRead mem) s = .next s) ∧
     (∀ mem fn, s.boot.pwrOk = true → s.running = true → s.doorbellFns = [fn] → readHost mem
         (s.baseOf (R.HST_DB_ADDR_LO_ADDR_LO fn) (R.HST_DB_ADDR_HI_ADDR_HI fn)) 64 = none →
       exec (.doorbellRead mem) s = .next (State.fetchFn mem (s.fnError fn 1, 4096) fn).1) ∧
     (∀ mem fn r rec n, s.boot.pwrOk = true → s.running = true → s.doorbellFns = [fn] → r < 4 → s.eqOn fn = false →
       (∀ q, q < 4 → s.ringOn fn q = decide (q = r)) → readHost mem
         (s.baseOf (R.HST_DB_ADDR_LO_ADDR_LO fn) (R.HST_DB_ADDR_HI_ADDR_HI fn)) 64 = some rec → 2 ^ (s.ring fn r).log2 = n →
       countDiff (fieldAt rec (4 * r) 4) (s.rd (R.HST_CR_FETCHED_COUNT fn r)) ≤ n →
       countDiff (s.rd (R.HST_CQ_WRITTEN_COUNT fn r)) (fieldAt rec (16 + 4 * r) 4) ≤ n →
       exec (.doorbellRead mem) s = .next ((s.setRing fn r { s.ring fn r with
         tail := fieldAt rec (4 * r) 4, head := fieldAt rec (16 + 4 * r) 4 }).fetchRing mem fn r 256 256 4096).1) ∧
     (∀ (p : Fin 6) (errs : Nat) (b : List Byte) (t : State), s.meshTake p.val 0x20 errs b = (t, none) →
       exec (.remoteCmd p errs b) s = .next t) ∧
     (∀ (p : Fin 6) (errs : Nat) (b : List Byte) (t : State) (m : MeshMsg), s.meshTake p.val 0x20 errs b = (t, some m) →
       exec (.remoteCmd p errs b) s = .next (t.meshRoute p.val m false fun s => s.remoteCmd m.src m.mseq m.payload))) ∧
  (∀ (s t : State) (mem : HostMem) (fn r ring all n : Nat), s.fetchOne mem fn r ring all = some (t, n) →
     n ≤ ring ∧ n ≤ all ∧ 1 ≤ n ∧ n ≤ 16 ∧ n ≤ countDiff (s.ring fn r).tail (s.rd (R.HST_CR_FETCHED_COUNT fn r)) ∧
     countDiff (s.ring fn r).requests (s.ring fn r).head < 2 ^ (s.ring fn r).log2 ∧
     ∃ l bad, collect mem (s.ring fn r) (s.rd (R.HST_CR_FETCHED_COUNT fn r)) 16
         (countDiff (s.ring fn r).tail (s.rd (R.HST_CR_FETCHED_COUNT fn r))) = some (l, bad) ∧
       n = l.length + (if bad then 1 else 0) ∧ t = s.fetchTake fn r (s.rd (R.HST_CR_FETCHED_COUNT fn r)) n l bad)

/-- R342 to R351: a write of D0 posts a message and a write to a full slot collides and damages it; the read of the last outbound word
empties the outbound slot; the processor takes a message, answering COLLIDED or UNKNOWN where it must, and does not while its queue is
full of replies; a reply goes out when the slot is empty; PING and FW_INFO are answered, DIAG_TEXT is queued; a crossing of 64 ticks is
broken. Table MBX-1, R345: a reply repeats the code and the tag of its request, sets RSP and counts its
payload, and carries a payload only with status OK. -/
def Obligations.MailboxCommands : Prop :=
  (∀ (s : State) (c : Fin 10) (v : Word),
     (s.pfVerdict (mbBase c.val) true = .ok → s.fuseFailed = false →
       ((s.wr (mbIn c.val 0) v.toNat).flag (mbInFull c.val) = false →
         exec (.mbxPost c v) s = .next (((s.wr (mbIn c.val 0) v.toNat).wrB (mbInFull c.val) true).mbSummary)) ∧
       ((s.wr (mbIn c.val 0) v.toNat).flag (mbInFull c.val) = true →
         exec (.mbxPost c v) s = .next (((s.wr (mbIn c.val 0) v.toNat).wrB (mbCollision c.val) true).wrB (mbDamaged c.val) true))) ∧
     (∀ w : Fin 15, s.pfVerdict (mbBase c.val + 4 * (w.val + 1)) true = .ok → s.fuseFailed = false →
       (s.wr (mbIn c.val (w.val + 1)) v.toNat).flag (mbInFull c.val) = false →
       exec (.mbxWordWrite c w v) s = .next (s.wr (mbIn c.val (w.val + 1)) v.toNat)) ∧
     (∀ (w : Fin 16) (off : Nat), mbBase c.val + 0x40 + 4 * w.val = off → s.pfVerdict off true = .ok →
       (s.rd (mbOutLen c.val) ≠ w.val → exec (.mbxOutboundRead c w) s = .next (s.emit (.readReply 0 off (s.reg off)))) ∧
       (s.rd (mbOutLen c.val) = w.val → s.flag (mbOutFull c.val) = true → ∃ t, exec (.mbxOutboundRead c w) s = .next t ∧
         t.out = s.out ++ [.readReply 0 off (s.reg off)] ∧ t.flag (mbOutFull c.val) = false ∧ t.rd (mbRun c.val) = 0)) ∧
     (s.flag (mbInFull c.val) = false → exec (.mbxProcessorRead c) s = .next s) ∧
     (8 ≤ mbReplies (s.mbCh c.val) → exec (.mbxProcessorRead c) s = .next s) ∧
     (s.flag (mbInFull c.val) = true → mbReplies (s.mbCh c.val) < 8 → (s.mbCh c.val).inHand = none →
       s.flag (mbDamaged c.val) = false → mbRsp (s.rd (mbIn c.val 0)) = false → mbKnown c.val (mbCode (s.rd (mbIn c.val 0))) = true →
       ∃ t, exec (.mbxProcessorRead c) s = .next t ∧ (t.mbCh c.val).inHand = some (s.mbMessage c.val) ∧
         (t.mbCh c.val).queue = (s.mbCh c.val).queue ∧ t.flag (mbInFull c.val) = false) ∧
     (s.flag (mbInFull c.val) = true → (s.mbCh c.val).queue = [] → (s.mbCh c.val).inHand = none → s.flag (mbDamaged c.val) = true →
       ∃ t, exec (.mbxProcessorRead c) s = .next t ∧ (t.mbCh c.val).inHand = none ∧
         (t.mbCh c.val).queue = [(false, [mbHeader (mbCode (s.rd (mbIn c.val 0))) 0 true 3 (mbTag (s.rd (mbIn c.val 0)))])] ∧
         t.flag (mbInFull c.val) = false ∧ t.flag (mbDamaged c.val) = false) ∧
     ((s.mbCh c.val).queue = [] → exec (.mbxReplyPost c) s = .next s) ∧
     (s.flag (mbOutFull c.val) = true → exec (.mbxReplyPost c) s = .next s) ∧
     (∀ (n : Bool) (m : List Nat) (l : List (Bool × List Nat)), s.flag (mbOutFull c.val) = false → (s.mbCh c.val).queue = (n, m) :: l →
       m.length ≤ 16 → ∃ t, exec (.mbxReplyPost c) s = .next t ∧ (t.mbCh c.val).queue = l ∧ t.flag (mbOutFull c.val) = true ∧
         t.rd (mbOutLen c.val) = mbLen (m.headD 0) ∧ ∀ w x, m[w]? = some x → t.rd (mbOut c.val w) = x % 2 ^ 32) ∧
     (s.rd (mbRun c.val) < 64 → exec (.mbxCrossing c) s = .next s) ∧
     (64 ≤ s.rd (mbRun c.val) → (s.mbCh c.val).queue.length < 8 → exec (.mbxCrossing c) s = .next
       ((((s.sendFault ⟨0x010, 0x03, 2, false, c.val, s.tick⟩).mbTake c.val).wr (mbRun c.val) 0).raise 0x0d01 c.val [.w 0])) ∧
     (∀ (p : Fin 8) (m : List Nat), (s.mbCh p.val).inHand = some m → (s.mbCh p.val).mute = false →
       (mbCode (m.headD 0) = 1 → exec (.ping p) s = .next ((s.setMbCh p.val { s.mbCh p.val with
         inHand := none, mute := false }).mbReply p.val (m.headD 0) 0 (m.drop 1))) ∧
       (mbCode (m.headD 0) = 2 → m.drop 1 = [] → exec (.fwInfo p) s = .next ((s.setMbCh p.val { s.mbCh p.val with
         inHand := none, mute := false }).mbReply p.val (m.headD 0) 0 (s.setMbCh p.val { s.mbCh p.val with
         inHand := none, mute := false }).fwInfo)) ∧
       (mbCode (m.headD 0) = 2 → m.drop 1 ≠ [] → exec (.fwInfo p) s = .next ((s.setMbCh p.val { s.mbCh p.val with
         inHand := none, mute := false }).mbReply p.val (m.headD 0) 2 []))) ∧
     (∀ (p : Fin 8) (l : List Word), s.flag (mbNoticeEn p.val) = true → l ≠ [] → l.length ≤ 15 →
       exec (.diagText p l) s = .next (s.mbQueue p.val true (mbHeader 3 l.length false 0 0 :: l.map BitVec.toNat)))) ∧
  (∀ (s : State) (c d0 status : Nat) (p : List Nat), c < 10 → d0 < 2 ^ 32 → status < 8 → p.length ≤ 15 → (s.mbCh c).queue.length < 8 →
     ∃ h q, ((s.mbReply c d0 status p).mbCh c).queue = (s.mbCh c).queue ++ [(false, h :: q)] ∧ mbCode h = mbCode d0 ∧ mbTag h = mbTag d0 ∧
       mbRsp h = true ∧ mbLen h = q.length ∧ h / 2 ^ 16 % 8 = status ∧ q = if status = 0 then p else [])

/-- R347: a message for a full outbound queue takes the place of the oldest notice in it, which is lost and counted in NOTICE_DROP; the
messages before and after the lost one stay in their order. No reply is ever lost from the queue, full or not, and the queue never holds
more than 8. -/
def Obligations.MailboxQueueFull : Prop :=
  ∀ (s : State) (c : Nat) (n : Bool) (m : List Nat), c < 10 →
    (∀ pre x post, (s.mbCh c).queue.length = 8 → (s.mbCh c).queue = pre ++ (true, x) :: post → (∀ q ∈ pre, q.1 = false) →
      ((s.mbQueue c n m).mbCh c).queue = pre ++ post ++ [(n, m)] ∧
      (s.mbQueue c n m).rd (mbNoticeDrop c) = min 65535 (s.rd (mbNoticeDrop c) + 1)) ∧
    (∀ r, (false, r) ∈ (s.mbCh c).queue → (false, r) ∈ ((s.mbQueue c n m).mbCh c).queue) ∧
    ((s.mbCh c).queue.length ≤ 8 → ((s.mbQueue c n m).mbCh c).queue.length ≤ 8)

/-- R364 to R370: the eighth key word completes a key and KEY0 erases the others; a command of the key engine without a key, while
busy, or beyond the mask budget is refused with its ERR and otherwise starts; its end brings the result; ZEROISE acts at once; the mask
is reseeded from a healthy source only. -/
def Obligations.KeyEngineCommands : Prop :=
  ∀ (s : State) (v : Word), s.pfVerdict R.SEC_KE_CMD_OP.off true = .ok → s.fuseFailed = false →
    (∀ w : Fin 8, s.pfVerdict (R.SEC_KE_KEY_KEY w.val).off true = .ok →
      (s.flag R.SEC_KE_STAT_BUSY = true → exec (.secKeKeyWrite w v) s = .next (s.wr R.SEC_KE_STAT_ERR 2)) ∧
      (s.flag R.SEC_KE_STAT_BUSY = false → ∃ t, exec (.secKeKeyWrite w v) s = .next t ∧ t.rd (R.SEC_KE_KEY_KEY w.val) = v.toNat ∧
        (w.val = 0 → t.flag R.SEC_KE_STAT_KEY_VALID = false ∧ ∀ u, 0 < u → u < 8 → t.rd (R.SEC_KE_KEY_KEY u) = 0) ∧
        (0 < w.val → (∀ u, u < 8 → u ≠ w.val → s.sec.keyWords.contains u = true) → t.flag R.SEC_KE_STAT_KEY_VALID = true))) ∧
    (∀ q ∈ ([(.keEncrypt, 1), (.keDecrypt, 2), (.keClearSave, 3), (.keWrappedSave, 4), (.keClearRestore, 5),
        (.keWrappedRestore, 6)] : List (Instr × Nat)),
      (s.flag R.SEC_KE_STAT_KEY_VALID = true → s.flag R.SEC_KE_STAT_BUSY = false → s.sec.ops + keBlocks q.2 ≤ 131072 →
        exec q.1 s = .next { (s.wr R.SEC_KE_STAT_ERR 0).wrB R.SEC_KE_STAT_BUSY true with sec := { s.sec with
          busyOp := q.2, ops := s.sec.ops + keBlocks q.2 } }) ∧
      (q.2 = 1 ∨ q.2 = 2 ∨ q.2 = 4 → s.flag R.SEC_KE_STAT_KEY_VALID = false → exec q.1 s = .next (s.wr R.SEC_KE_STAT_ERR 1)) ∧
      (s.flag R.SEC_KE_STAT_KEY_VALID = true → s.flag R.SEC_KE_STAT_BUSY = true → exec q.1 s = .next (s.wr R.SEC_KE_STAT_ERR 2))) ∧
    (s.flag R.SEC_KE_STAT_BUSY = false → exec .keZeroise s = .next s.zeroise) ∧
    (s.flag R.SEC_KE_STAT_BUSY = false → exec .keOpDone s = .next s) ∧
    (∀ key blk, wordsBytes (s.words R.SEC_KE_KEY_KEY 8) = key → wordsBytes (s.words R.SEC_KE_IN_IN 4) = blk →
      s.flag R.SEC_KE_STAT_BUSY = true →
      (s.sec.busyOp = 1 → exec .keOpDone s = .next (({ s.wrB R.SEC_KE_STAT_BUSY false with sec := { s.sec with busyOp := 0 } } :
        State).setWords R.SEC_KE_OUT_OUT (bytesWords (aesEncrypt key blk)))) ∧
      (s.sec.busyOp = 2 → exec .keOpDone s = .next (({ s.wrB R.SEC_KE_STAT_BUSY false with sec := { s.sec with busyOp := 0 } } :
        State).setWords R.SEC_KE_OUT_OUT (bytesWords (aesDecrypt key blk))))) ∧
    (s.rd R.SEC_ENT_STAT_STATE = 1 → exec .maskReseed s = .next { s with sec := { s.sec with ops := 0 } }) ∧
    (s.rd R.SEC_ENT_STAT_STATE ≠ 1 → exec .maskReseed s = .next s)

/-- R642: the host sets and reads back FRD_CRYGATE.GATE, by CRYPTO_GATE_WRITE and by a plain register write alike, while the frond's crypto
unit is not held. While it is held a write changes nothing but the count of ignored writes (R378), and the field reads 0. -/
def Obligations.CryptoGate : Prop :=
  ∀ (s : State) (f : Fin 48) (g : Bool) (off : Nat), (R.FRD_CRYGATE_GATE f.val).off = off → s.pfVerdict off true = .ok →
    (s.cryptoHeld f.val = true →
      exec (.cryptoGateWrite f g) s = .next (s.bump R.SEC_HOLD_STAT_IGNORED 1) ∧ bitsGet (s.liveReg off).1 0 1 = 0) ∧
    (s.cryptoHeld f.val = false →
      exec (.cryptoGateWrite f g) s = .next (s.wrB (R.FRD_CRYGATE_GATE f.val) g) ∧
      bitsGet ((s.wrB (R.FRD_CRYGATE_GATE f.val) g).liveReg off).1 0 1 = (if g then 1 else 0))

/-- The block cipher that R365 names (FIPS 197): decryption undoes encryption for every key of 32 bytes and block of 16. The key
wrapping that R368 names (RFC 3394): unwrapping undoes wrapping for every key of 32 bytes and every
text of two to eight blocks of 8 bytes. -/
def Obligations.AesInverse : Prop :=
  (∀ key blk : List Nat, key.length = 32 → blk.length = 16 → (∀ b ∈ key, b < 256) → (∀ b ∈ blk, b < 256) →
     aesDecrypt key (aesEncrypt key blk) = blk) ∧
  (∀ kek p : List Nat, kek.length = 32 → (∀ b ∈ kek, b < 256) → p.length % 8 = 0 → 16 ≤ p.length → p.length ≤ 64 →
     (∀ b ∈ p, b < 256) → keyUnwrap kek (keyWrap kek p) = some p)

/-- R371 to R376, R359, R360, R380, Table SEC-6: the tests of the entropy source, and the requests of the secure channels: each is
answered with its status, and its effect waits for the next boundary; a BAR2 request outside a secure stream is denied; IDE_KM sets the
state of the stream. R359, R360, R371 to R373: a start-up test that passes makes the source HEALTHY; a failed test restarts it, and the
third within 160,000 ticks makes it FAILED, which no test leaves; BAR2 is denied outside a secure stream and unanswered otherwise. -/
def Obligations.SecureCommands : Prop :=
  (∀ (s u : State) (c : Fin 2) (m : List Nat), (s.mbCh (8 + c.val)).inHand = some m → (s.mbCh (8 + c.val)).mute = false →
     s.setMbCh (8 + c.val) { s.mbCh (8 + c.val) with inHand := none, mute := false } = u →
     s.retired = false → s.secBlocked = false → u.secBlocked = false →
     (mbCode (m.headD 0) = 0x02 → m.drop 1 = [] →
       exec (.secFwInfo c) s = .next (u.mbReply (8 + c.val) (m.headD 0) 0 u.fwInfo)) ∧
     (∀ t w, t < 1024 → mbCode (m.headD 0) = 0x40 → m.drop 1 = t :: w → w.length = 8 → u.entropyFailed = false → s.sec.keDown = false →
       (s.tenant t).active = true → exec (.kekInstall c) s = .next ((u.kekAct (.install t (toBytes (wordsBytes w)))).mbReply (8 + c.val)
         (m.headD 0) 0 ([t] ++ words64 (s.tick + 1) ++ [kcv (toBytes (wordsBytes w))]))) ∧
     (∀ t w, t < 1024 → mbCode (m.headD 0) = 0x40 → m.drop 1 = t :: w → w.length = 8 → u.entropyFailed = true →
       exec (.kekInstall c) s = .next (u.mbReply (8 + c.val) (m.headD 0) 6 [])) ∧
     (∀ t, t < 1024 → mbCode (m.headD 0) = 0x41 → m.drop 1 = [t] → (s.tenant t).active = true →
       exec (.kekErase c) s = .next ((u.kekAct (.erase t 0)).mbReply (8 + c.val) (m.headD 0) 0 (t :: words64 (s.tick + 1)))) ∧
     (∀ t, t < 1024 → mbCode (m.headD 0) = 0x42 → m.drop 1 = [t] →
       exec (.kekStatus c) s = .next (u.mbReply (8 + c.val) (m.headD 0) 0 (match s.kek t with
         | some k => [t, 1, kcv k.key] ++ words64 k.tick
         | none => [t, 0, 0, 0, 0]))) ∧
     (∀ b, mbCode (m.headD 0) = 0x48 → m.drop 1 = [b] → s.holdId b = true → s.deferredOf b = none →
       exec (.holdStatus c) s = .next (u.mbReply (8 + c.val) (m.headD 0) 0 [b, if s.isHeld b then 1 else 0])) ∧
     (∀ b, mbCode (m.headD 0) = 0x49 → m.drop 1 = [b] → s.holdId b = true → (s.deferredOf b).isSome = true →
       exec (.holdRelease c) s = .next (({ u with sec := { s.sec with released := s.sec.released ++ [b] } } : State).mbReply (8 + c.val)
         (m.headD 0) 0 (b :: words64 (s.tick + 1)))) ∧
     (∀ n, mbCode (m.headD 0) = 0x50 → m.drop 1 = [n] → 0 < n → n ≤ 12 → s.rd R.SEC_ENT_STAT_STATE = 1 → s.sec.keDown = false →
       u.entropyFailed = false → ∃ w t, w.length = n ∧ (∀ x ∈ w, x < 2 ^ 32) ∧ t = { u with freeCtr := s.freeCtr + n } ∧
         exec (.entropyRead c) s = .next (t.mbReply (8 + c.val) (m.headD 0) 0 (n :: w))) ∧
     (mbCode (m.headD 0) = 0x5e → m.drop 1 = [] → ∃ v, v < 2 ^ 32 ∧ exec (.decommissionArm c) s = .next
       (({ u with freeCtr := s.freeCtr + 1, sec := { s.sec with challenge := some (8 + c.val, v, s.tick) } } : State).mbReply (8 + c.val)
         (m.headD 0) 0 [v])) ∧
     (∀ v t, mbCode (m.headD 0) = 0x5f → m.drop 1 = [v] → s.sec.challenge = some (8 + c.val, v, t) → s.tick ≤ t + 160000 →
       exec (.decommission c) s = .next (({ u with sec := { s.sec with challenge := none, retireNext := true } } : State).mbReply
         (8 + c.val) (m.headD 0) 0 [])) ∧
     (∀ v w t ch, mbCode (m.headD 0) = 0x5f → m.drop 1 = [v] → s.sec.challenge = some (ch, w, t) → v ≠ w ∨ ch ≠ 8 + c.val ∨ t + 160000 < s.tick →
       exec (.decommission c) s = .next (u.mbReply (8 + c.val) (m.headD 0) 4 []))) ∧
  (∀ (s : State) (k : Fin 3),
     (s.rd R.SEC_ENT_STAT_STATE = 0 ∨ s.rd R.SEC_ENT_STAT_STATE = 2 → exec .entropyStartupPass s = .next (s.wr R.SEC_ENT_STAT_STATE 1)) ∧
     (s.rd R.SEC_ENT_STAT_STATE = 3 → exec .entropyStartupPass s = .next s ∧ exec (.entropyHealthFailure k) s = .next s) ∧
     (∀ l, (s.sec.entFails ++ [s.tick]).filter (fun t => decide (s.tick < t + 160000)) = l → s.rd R.SEC_ENT_STAT_STATE ≠ 3 →
       (l.length < 3 → exec (.entropyHealthFailure k) s = .next (((({ s with sec := { s.sec with entFails := l } } : State).wr
         R.SEC_ENT_STAT_STATE 2).bump R.SEC_ENT_STAT_RESTARTS 1).raise 0x0e05 0 [.w k.val])) ∧
       (3 ≤ l.length → exec (.entropyHealthFailure k) s = .next
         (({ s with sec := { s.sec with entFails := l } } : State).entropyFail))) ∧
     (∀ off read, s.sec.ide = true → exec (.bar2AccessDenied off read) s = .next s) ∧
     (∀ off, s.sec.ide = false → exec (.bar2AccessDenied off true) s = .next ((s.emit (.unsupportedRequest 0 (0x1000000 + off))).bar2Denied)) ∧
     (∀ off, s.sec.ide = false → exec (.bar2AccessDenied off false) s = .next s.bar2Denied) ∧
     (∀ msg b, exec (.ideKmMessage msg b) s = .next { s.emit (.doe msg) with sec := { s.sec with ide := b } }))

/-- Table BOOT-1, R446 to R448, R467 to R471, R478: the phases of a boot and what moves it on: the rise of PWR_OK and a pin reset are
cold resets with their causes; the rising edge of RST_N samples the straps; FUSE begins once every rail is within tolerance; a failed
fuse word ends in BOOT_FAIL; a slot that fails makes the other slot's turn, the second failure ends in BOOT_FAIL; the loss of the
supplies leaves Peat, the fuses and the boot flash. -/
def Obligations.BootCommands : Prop :=
  ∀ s : State,
    (s.boot.pwrOk = true → exec .coldResetPower s = .next s ∧ exec .coldResetPin s = .next (s.coldReset 1)) ∧
    (s.boot.pwrOk = false → exec .coldResetPin s = .next s ∧
      (s.peat.newest markerSlots 32 28 0 8 = none → exec .coldResetPower s = .next
        (((s.modBoot fun b => { b with pwrOk := true }).coldReset 0).writeMarker 1 0))) ∧
    (∀ (b c : Fin 4) (fl co : List (Nat × List Byte)),
      (s.phase ≠ 0 ∨ s.boot.rstN = true → exec (.rstNRelease b c fl co) s = .next s) ∧
      (s.phase = 0 → s.boot.rstN = false → s.boot.pwrOk = true → s.pow.railsOut = [] → ∃ t, exec (.rstNRelease b c fl co) s = .next t ∧
        t.phase = 1 ∧ t.boot = { s.boot with rstN := true, pinBoot := b.val, pinClk := c.val } ∧
        t.rd R.RST_STRAP_BOOT_SRC = b.val ∧ t.rd R.RST_STRAP_CLK_MODE = c.val)) ∧
    (∀ r : Fin 14, s.phase = 0 → s.boot.rstN = true → s.boot.pwrOk = true → s.pow.railsOut = [r.val] →
      exec (.railInTolerance r) s = .next (({ s with pow := { s.pow with railsOut := [] } } : State).wr R.RST_BOOT_STAT_PHASE 1)) ∧
    (∀ r : Fin 14, s.phase ≠ 0 → exec (.railInTolerance r) s = .next { s with pow := { s.pow with
      railsOut := s.pow.railsOut.filter (· != r.val) } }) ∧
    (∀ x bad, s.phase ≠ 1 → exec (.fuseLoadDone x true bad) s = .next s ∧ exec (.fuseLoadDone x false bad) s = .next s) ∧
    (∀ x bad, s.phase = 1 → ∃ t, exec (.fuseLoadDone x true bad) s = .next t ∧ t.phase = 6 ∧ t.rd R.RST_BOOT_STAT_FAIL_REASON = 1 ∧
      t.fuse.loaded = true ∧ (s.fuse.loaded = true → t.fuse = s.fuse) ∧ ∀ o ∈ bad, identityOff o = true → t.reg o = 0) ∧
    (∀ x bad, s.phase = 1 → exec (.fuseLoadDone x false bad) s = .next (s.fuseTake x).identity.fuseRegs.secureBegin) ∧
    (s.phase ≠ 2 → exec .secureSlotVerified s = .next s) ∧
    (∀ r, s.phase = 2 → s.boot.tried = [] → s.slotCheck s.upd.active = r → exec .secureSlotVerified s = .next (match r with
      | none => (s.bootSlot s.upd.active).blowFuses.configBegin
      | some _ => { s with boot := { s.boot with tried := [s.upd.active] } })) ∧
    (∀ k r, s.phase = 2 → s.boot.tried = [k] → s.slotCheck (1 - s.upd.active) = r → exec .secureSlotVerified s = .next (match r with
      | none => (s.bootSlot (1 - s.upd.active)).blowFuses.configBegin
      | some _ => (s.wr R.RST_BOOT_STAT_PHASE 6).wr R.RST_BOOT_STAT_FAIL_REASON 2)) ∧
    (s.boot.pwrOk = false → exec .powerDownOrderly s = .next s) ∧
    (s.boot.pwrOk = true → ∃ t, exec .powerDownOrderly s = .next t ∧ t.boot.pwrOk = false ∧ t.phase = 0 ∧ t.host.done = [] ∧
      t.host.reads = [] ∧ t.host.events = [] ∧ ∀ q ∈ t.ports, q.2.repl = true) ∧
    (∃ t, exec .mainSupplyLoss s = .next t ∧ t.phase = 0 ∧ t.boot.pwrOk = false ∧ t.fuse = s.fuse ∧ t.peat = s.peat ∧
      t.upd.flash = s.upd.flash ∧ t.upd.copies = s.upd.copies ∧ t.tick = 0 ∧ t.pow.railsOut = List.range 14 ∧ t.host.requests = []) ∧
    (s.phase ≠ 4 → exec .calPhaseDone s = .next s) ∧
    (s.phase = 4 → s.frondIds.all (fun f => (s.frondCal f).run.isNone) = true → exec .calPhaseDone s = .next s.release)

/-- R472 to R477: where the configuration comes from: the settings copy with the higher GENERATION, the load window, or the mesh, whose
chunks are taken in order from the port that answered; without an image the factory defaults hold, with the result that tells why. R481,
R483, R485 to R487, R568: the watchdogs send their faults; the reset of a block ends after its time with BLOCK_RESET_DONE unless a
thermal trip suspends it. -/
def Obligations.ConfigCommands : Prop :=
  (∀ (s : State) (p : Fin 6),
     (s.phase ≠ 3 → exec .configImageRead s = .next s) ∧
     (s.phase = 3 → s.rd R.RST_STRAP_BOOT_SRC = 0 → s.bestCopy = none → exec .configImageRead s = .next (s.configEnd none 2)) ∧
     (∀ k i, s.phase = 3 → s.rd R.RST_STRAP_BOOT_SRC = 0 → s.bestCopy = some (k, i) →
       exec .configImageRead s = .next ((s.report 6 1 k).configEnd (some i) 0)) ∧
     (∀ mem, s.boot.load = none → exec (.loadWindowTransferDone mem) s = .next s) ∧
     (∀ mem k a n, s.boot.load = some (k, a, n) → ((s.fnState 0).busMaster = false ∨ readHost mem a n = none) →
       exec (.loadWindowTransferDone mem) s = .next (({ s with boot := { s.boot with load := none } } : State).wr
         R.RST_LOAD_CTL_RESULT 3)) ∧
     (∀ mem a n b, s.boot.load = some (1, a, n) → (s.fnState 0).busMaster = true → readHost mem a n = some b → parseImage b = none →
       exec (.loadWindowTransferDone mem) s = .next (({ s with boot := { s.boot with load := none } } : State).wr
         R.RST_LOAD_CTL_RESULT 4)) ∧
     (∀ mem a n b, s.boot.load = some (2, a, n) → (s.fnState 0).busMaster = true → readHost mem a n = some b → b.length < 16384 →
       exec (.loadWindowTransferDone mem) s = .next (({ s with boot := { s.boot with load := none } } : State).wr
         R.RST_LOAD_CTL_RESULT 4)) ∧
     (s.meshBooting = false → exec (.cfgRequestRetry p) s = .next s ∧ exec .meshConfigTimeout s = .next s) ∧
     (s.meshBooting = true → exec .meshConfigTimeout s = .next (s.configEnd none 6)) ∧
     (s.meshBooting = true → s.meshUp p.val = true → exec (.cfgRequestRetry p) s = .next
       (({ s with boot := { s.boot with meshPort := none } } : State).cfgAsk p.val s.boot.mesh.length)) ∧
     (∀ errs b t m, s.meshTake p.val 0x30 errs b = (t, some m) → t.served = none → exec (.cfgReq p errs b) s = .next t) ∧
     (∀ errs b t m i off, s.meshTake p.val 0x30 errs b = (t, some m) → t.served = some i → t.meshState = 2 → t.mesh.cfgServe = true →
       beNat (slice m.payload 0 4) = off → off < i.length → exec (.cfgReq p errs b) s = .next
         (t.meshLink p.val 0x31 3 (natBe 4 off ++ natBe 4 i.length ++ (i.drop off).take 1016))) ∧
     (∀ errs b t, s.meshTake p.val 0x31 errs b = (t, none) → exec (.cfgData p errs b) s = .next t) ∧
     (∀ errs b t m off total, s.meshTake p.val 0x31 errs b = (t, some m) → t.meshBooting = true → t.boot.meshPort = some p.val →
       t.boot.meshTotal = total → m.payload.length ≤ 1024 → beNat (slice m.payload 0 4) = off → beNat (slice m.payload 4 4) = total →
       off = t.boot.mesh.length → 0 < off → off + (m.payload.drop 8).length < total → m.payload.drop 8 ≠ [] →
       exec (.cfgData p errs b) s = .next (({ t with boot := { t.boot with mesh := t.boot.mesh ++ m.payload.drop 8 } } : State).cfgAsk
         p.val (off + (m.payload.drop 8).length)))) ∧
  (∀ (s : State),
     exec .mgmtWatchdog s = .next (s.sendFault ⟨0x002, 0x06, 6, false, 0, s.tick⟩) ∧
     (∀ f : Fin 48, s.frondEnabled f.val = false → exec (.loopWatchdog f) s = .next s) ∧
     (∀ (f : Fin 48) (t : State), s.frondEnabled f.val = true → s.sendFault ⟨0x180 + f.val, 0x0b, 4, false, 0, s.tick⟩ = t →
       t.upd.state ≠ 7 → exec (.loopWatchdog f) s = .next t) ∧
     (∀ id : Fin 4096, s.boot.inReset.find? (fun x => x.id == id.val) = none → exec (.blockResetEnd id) s = .next s) ∧
     (∀ (id : Fin 4096) (x : BlockReset), s.boot.inReset.find? (fun x => x.id == id.val) = some x →
       (s.tick < x.ends → exec (.blockResetEnd id) s = .next s) ∧
       (x.suspended = true → s.pow.gated = true → exec (.blockResetEnd id) s = .next s) ∧
       (x.ends ≤ s.tick → x.suspended = false → exec (.blockResetEnd id) s = .next
         ((({ s with boot := { s.boot with inReset := s.boot.inReset.filter fun y => y.id != id.val } } : State).blockResetEnd
           id.val).raise 0x1203 id.val [.w x.refused]))))

/-- R42, Table TCK-5: while the module runs a boundary advances TICK by one and takes its steps in order: the scheduled swaps, the key
actions, the WT writes and the time step, the commands whose tick has come, and the steps after them; before release it advances only
the time base of boot (Table BOOT-1), and in RESET nothing. A cold reset begins that time base at 0 (the
model's choice: TICK counts it until release, log entry 68). -/
def Obligations.TickBoundary : Prop :=
  ∀ (s : State) (mem : HostMem) (taps : List (Nat × Int × Int)),
    (s.boot.pwrOk = false ∨ s.phase = 0 → exec (.tickBoundary mem taps) s = .next s) ∧
    (s.boot.pwrOk = true → s.phase ≠ 0 → s.running = false → exec (.tickBoundary mem taps) s = .next s.bootTick) ∧
    (∀ t, s.boot.pwrOk = true → s.running = true → s.phase ≠ 0 → (s.endTick taps).checkTick mem = t →
      ∃ u, u.tick = s.tick + 1 ∧
        ({ t with tick := t.tick + 1, host := { t.host with readBudgetUsed := 0 } } : State).safeStep.keepBudget.scheduled.kekStep.retireStep.applyWts.timeStep = u ∧
        ∃ again, exec (.tickBoundary mem taps) s = .next ((u.applyTick mem again).laterSteps.boundaryEnd)) ∧
    (∀ t, s.boot.pwrOk = true → exec .coldResetPin s = .next t → t.tick = 0)

/-- R449 to R451, R489, R492, R495, R496, R501: a Peat second advances ESEC and the calendar and commits what is due; the supplies of
Peat switch, are lost and return; the calendar and the epoch are set through the PF. Without power nothing of Peat moves. R503: after a
loss of both feeds ESEC goes on 64 seconds after the newest valid life record, or from 64, and the calendar is not valid. -/
def Obligations.PeatCommands : Prop :=
  (∀ s : State,
     (s.peat.powered = false → (∀ l, exec (.peatSecond l) s = .next s) ∧ exec .peatSwitchToVbak s = .next s ∧
       exec .peatReturnToVkeep s = .next s ∧ exec .peatPowerLoss s = .next s) ∧
     (∀ l, s.peat.powered = true → ∃ t : State, (t.peat.esec = s.peat.esec + 1) ∧ t.tick = s.tick ∧ t.fuse = s.fuse ∧
       exec (.peatSecond l) s = .next (t.peatCommit l)) ∧
     (s.peat.powered = true → s.peat.onBackup = false → s.boot.pwrOk = true → exec .peatSwitchToVbak s = .next
       (((({ s with peat := { s.peat with onBackup := true } } : State).wrB R.PWR_MSTAT_PEAT_SRC true).raise 0x1106 0 [.w 1]).bumpLife 2)) ∧
     (s.peat.powered = true → s.peat.onBackup = true → exec .peatSwitchToVbak s = .next s) ∧
     (s.peat.powered = true → s.peat.onBackup = true → s.boot.pwrOk = true → exec .peatReturnToVkeep s = .next
       ((({ s with peat := { s.peat with onBackup := false } } : State).wrB R.PWR_MSTAT_PEAT_SRC false).raise 0x1106 0 [.w 0])) ∧
     (s.peat.powered = true → s.peat.onBackup = true → s.boot.pwrOk = false → exec .peatReturnToVkeep s = .next
       { s with peat := { s.peat with onBackup := false } }) ∧
     (s.peat.powered = true → s.peat.commitDue = false → exec .peatPowerLoss s = .next { s with peat := { s.peat with powered := false } }) ∧
     (∀ b, s.peat.powered = true → exec (.peatPowerReturn b) s = .next s) ∧
     (∀ b, s.peat.powered = false → s.boot.pwrOk = false → exec (.peatPowerReturn b) s = .next
       ((({ s with peat := s.peat.restored b } : State).bumpLife 3).peatRaise 0x1304 [.q
         ((({ s with peat := s.peat.restored b } : State).bumpLife 3).peat.esec)])) ∧
     (∀ d t, s.pfVerdict R.PEAT_CAL_CMD_GO.off true = .ok → s.fuseFailed = false → exec (.calendarSet d t) s = .next
       (((s.setReg R.PEAT_CAL_SETDATE_SETDATE.off d).setReg R.PEAT_CAL_SETTIME_SETTIME.off t).calGo)) ∧
     (∀ e : BitVec 64, s.pfVerdict R.PEAT_EPOCH_CMD_GO.off true = .ok → s.fuseFailed = false → exec (.epochSet e) s = .next
       ((((s.wr R.PEAT_EPOCH_NEW_LO_NEW e.toNat).wr R.PEAT_EPOCH_NEW_HI_NEW (e.toNat / 2 ^ 32)).epochGo).meshEpoch))) ∧
  (∀ (p : PeatSt) (backup : Bool), (p.restored backup).powered = true ∧ (p.restored backup).onBackup = backup ∧
     (p.restored backup).valid = false ∧ (p.restored backup).store = p.store ∧
     (match p.newest lifeSlots 1024 1020 0 8 with
      | none => (p.restored backup).esec = 64
      | some a => (p.restored backup).esec = fieldAt (p.bytes a 1024) 8 8 + 64 ∧
          (p.restored backup).epoch = fieldAt (p.bytes a 1024) 16 8 ∧
          ∀ i, i < 160 → (p.restored backup).counter i = fieldAt (p.bytes a 1024) (40 + 4 * i) 4))

/-- R491, R492, R494: the second after a valid date and time is the least valid one after it; the register layouts of a valid one read
back; and a GO with values that fail a check leaves the calendar and its flags as they were and tells the reason. -/
def Obligations.Calendar : Prop :=
  let key := fun (c : Cal) => ((((c.year * 16 + c.month) * 32 + c.day) * 32 + c.hour) * 64 + c.minute) * 64 + c.second
  (∀ c : Cal, calReason c = 0 → calOf c.date c.time = c) ∧
  (∀ c : Cal, calReason c = 0 → c ≠ Cal.last → calReason c.next = 0 ∧ key c < key c.next ∧
    ∀ d : Cal, calReason d = 0 → key c < key d → key c.next ≤ key d) ∧
  (∀ (s : State) (r : Nat), calReason (calOf (s.rd R.PEAT_CAL_SETDATE_SETDATE) (s.rd R.PEAT_CAL_SETTIME_SETTIME)) = r → 0 < r →
    s.calGo.peat.cal = s.peat.cal ∧ s.calGo.peat.valid = s.peat.valid ∧ s.calGo.peat.expired = s.peat.expired ∧
    s.calGo.rd R.PEAT_CAL_STAT_RESULT = 2 ∧ s.calGo.rd R.PEAT_CAL_STAT_REASON = r)

/-- R605, Table PIN-5: the port is dead while VIO is out of tolerance; TRST_N low puts it into Test-Logic-Reset with IDCODE selected, as
five rising edges of TCK with TMS high do from every state; IDCODE shifts out the lowest bit first; an update of the boundary register
latches it. The controller is that of IEEE Std 1149.1 (assumption 5). -/
def Obligations.BoundaryScan : Prop :=
  (∀ (s : State) (tms tdi trstN : Bool) (pads : List Bool), s.pow.railsOut.contains 13 = true →
    exec (.boundaryScan tms tdi trstN pads) s = .next s) ∧
  (∀ (s : State) (tms tdi : Bool) (pads : List Bool), s.pow.railsOut.contains 13 = false →
    exec (.boundaryScan tms tdi false pads) s = .next { s with tap := { s.tap with st := .reset, ir := 0x01, drive := .normal } }) ∧
  (∀ (s : State) (tdi : Bool) (pads : List Bool), s.pow.railsOut.contains 13 = false → s.tap.st = .captureDr → s.tap.ir = 0x01 →
    exec (.boundaryScan false tdi true pads) s = .next ({ s with tap := { s.tap with st := .shiftDr, dr := bitsLow 32 s.idcode } } : State).tapFall) ∧
  (∀ (s : State) (tdi b : Bool) (pads l : List Bool), s.pow.railsOut.contains 13 = false → s.tap.st = .shiftDr → s.tap.dr = b :: l →
    exec (.boundaryScan false tdi true pads) s = .next (({ s with tap := { s.tap with dr := l ++ [tdi] } } : State).emit
      (.tdo ((l ++ [tdi]).headD false)))) ∧
  (∀ (s : State) (tdi : Bool) (pads : List Bool), s.pow.railsOut.contains 13 = false → s.tap.st = .exit1Dr → tapBoundary s.tap.ir = true →
    exec (.boundaryScan true tdi true pads) s = .next { s with tap := { s.tap with st := .updateDr, latch := s.tap.dr } }) ∧
  ∀ st : TapState, ((((st.next true).next true).next true).next true).next true = .reset

/-- R264, R267 to R270, R275 to R282: what is received on the lanes of a client port moves its receive state: signal and lock of a lane,
the markers of its PCS lanes, deskew, block lock at 64 good headers and its loss at 65 bad ones, a high symbol error ratio, local and
remote fault, the defects of a FlexO port; ingress counts its codewords; egress sends a replacement unless a running connection gives it
frames. A port that does not run takes nothing. R260 to R262, R274: PORT_SETUP forms the port on its lanes, or takes it out, and a lane
that another port holds refuses it with SLOT_BUSY. -/
def Obligations.ClientCommands : Prop :=
  (∀ (s : State) (p : Fin 288) (x : PortSt), s.port p.val = x →
     (x.running = false → (∀ k l i, exec (.amLock p k l i) s = .next s) ∧ (∀ k, exec (.amLockLoss p k) s = .next s) ∧
       exec (.deskewComplete p) s = .next s ∧ (∀ n, exec (.blockLock p n) s = .next s) ∧ (∀ n, exec (.blockLockLoss p n) s = .next s) ∧
       (∀ b, exec (.hiSerChange p b) s = .next s) ∧ (∀ a b, exec (.clientFaultRx p a b) s = .next s) ∧
       (∀ d i, exec (.flexoDefectSet p d i) s = .next s) ∧ (∀ a b c d e, exec (.clientIngressMap p a b c d e) s = .next s)) ∧
     (∀ (l : Fin 288) (sig cdr : Bool) (o : Nat), s.laneOwner l.val = o →
       (o = 0x1ff → exec (.clientLaneSignal l sig cdr) s = .next s) ∧
       (o ≠ 0x1ff → s.pow.gated = false → sig = true → cdr = true → exec (.clientLaneSignal l sig cdr) s = .next
         (((s.wrB (R.CLT_LANE_STAT_SIG_DET l.val) true).wrB (R.CLT_LANE_STAT_CDR_LOCK l.val) true).updatePort o))) ∧
     (x.running = true →
       (∀ k lane, k < pcsLanes x → Tab.get (fun _ => 0) x.hits k = 1 → x.locked.contains k = false →
         exec (.amLock p k lane false) s = .next ((s.setPort p.val { x with hits := Tab.set (fun _ => 0) x.hits k 2
                                                                            misses := Tab.set (fun _ => 0) x.misses k 0
                                                                            locked := x.locked ++ [k] }).updatePort p.val)) ∧
       (∀ k, k < pcsLanes x → Tab.get (fun _ => 0) x.misses k = 3 → exec (.amLockLoss p k) s = .next
         ((s.setPort p.val { x with hits := Tab.set (fun _ => 0) x.hits k 0
                                    misses := Tab.set (fun _ => 0) x.misses k 4
                                    locked := x.locked.filter (· != k) }).updatePort p.val)) ∧
       (s.portSignal p.val = true → portLocked x = true → exec (.deskewComplete p) s = .next
         ((s.setPort p.val { x with aligned := true }).updatePort p.val)) ∧
       (portLocked x = false → exec (.deskewComplete p) s = .next s) ∧
       (∀ n, x.client ≠ 6 → 64 ≤ n → exec (.blockLock p n) s = .next ((s.setPort p.val { x with blockLock := true }).updatePort p.val)) ∧
       (∀ n, n < 64 → exec (.blockLock p n) s = .next s) ∧
       (∀ n, 65 ≤ n → exec (.blockLockLoss p n) s = .next ((s.setPort p.val { x with blockLock := false }).updatePort p.val)) ∧
       (∀ n, n < 65 → exec (.blockLockLoss p n) s = .next s) ∧
       (∀ b, x.client ≠ 6 → exec (.hiSerChange p b) s = .next ((s.setPort p.val { x with hiSer := b }).updatePort p.val)) ∧
       (∀ a b, x.client ≠ 6 → x.lf ≠ a → exec (.clientFaultRx p a b) s = .next (((s.setPort p.val { x with lf := a, rf := b }).portRegs
         p.val).raise 0x0903 p.val [.w (if a then 1 else 0), .w (if b then 1 else 0)])) ∧
       (∀ i, x.client = 6 → x.gidm = false → exec (.flexoDefectSet p 0 i) s = .next
         (((s.raise 0x0906 p.val [.w 0, .w 0]).setPort p.val { x with gidm := true }).updatePort p.val)) ∧
       (∀ i, x.client = 6 → x.gidm = true → exec (.flexoDefectClr p 0 i) s = .next
         (((s.raise 0x0907 p.val [.w 0, .w 0]).setPort p.val { x with gidm := false }).updatePort p.val)) ∧
       (∀ n u sop, exec (.clientIngressMap p n u [] sop none) s = .next
         (((s.bump (R.CLT_PORT_UNC_UNC p.val) u).bump (R.CLT_PORT_CW_CW p.val) ((x.cwRem + n) / 1024)).setPort p.val { x with
           cwRem := (x.cwRem + n) % 1024, secCw := x.secCw + n, secUnc := x.secUnc + u, waitSop := x.waitSop && !sop }))) ∧
     (∀ made level ovf, x.client = 0 → exec (.clientEgressMap p made level ovf) s = .next s) ∧
     (∀ made level ovf t own, x.client ≠ 0 → x.own.find? (fun r => r.egress == s.tick + 1) = own → s.divergence p.val (s.tick + 1) own = t →
       s.adopted p.val (s.tick + 1) = none → own = none → (x.kinds.filter fun q => decide (q.1 < s.tick)) = [] →
       exec (.clientEgressMap p made level ovf) s = .next (t.egressSend p.val (s.tick + 1) made level ovf x (0, false, none)))) ∧
  (∀ (s : State) (h : ReqHdr) (mem : HostMem) (lane width client rate txclk rclk group : Nat), h.isPf → s.host.release = [] →
     s.portNamed lane = false →
     (client = 0 → lane < 288 → s.portExists lane = true → ∃ t, exec (.portSetup h mem lane width client rate txclk rclk group) s = .next t ∧
       t.portExists lane = false ∧ (∀ q, q ≠ lane → t.port q = s.port q) ∧ t.host.done = s.host.done ++ [doneOk h s 0x16 0]) ∧
     (0 < client → client ≤ 5 → portFormOk lane width client rate txclk = true → 128 ≤ rclk →
       (∀ i, i < width → s.laneOwner (lane + i) = 0x1ff ∨ s.laneOwner (lane + i) = lane) →
       ∃ t, exec (.portSetup h mem lane width client rate txclk rclk group) s = .next t ∧ (t.port lane).client = client ∧
         (t.port lane).width = width ∧ (t.port lane).rate = rate ∧ (∀ q, q ≠ lane → t.port q = s.port q) ∧
         t.host.done = s.host.done ++ [doneOk h s 0x16 0] ∧ t.host.release = []) ∧
     (∀ i, 0 < client → client ≤ 6 → portFormOk lane width client rate txclk = true → 128 ≤ rclk → i < width →
       s.laneOwner (lane + i) ≠ 0x1ff → s.laneOwner (lane + i) ≠ lane →
       exec (.portSetup h mem lane width client rate txclk rclk group) s = .next (s.complete (doneRefused h s 0x16 St.slotBusy 0))))

/-- R174, R178, R186 to R189, R198 to R199, R205, R206: the line frame commands of a frond: a decoded superframe is taken at its slot
and deframed while the line function runs; dLOF and dLOM follow 480 ticks in a row, dLOA the acquisition state; a degraded layer is
judged at the end of a second; the channel is hunted for frames, and a waiting firmware frame goes before a host frame, but not two in a
row; the frame, the header and the superframe sent in the tick are formed. R205, Table SLF-9: a frame laid out for the
channel is received with its type, its payload and its sequence number, and the bytes after it are left; a byte in error within it is
not taken for a frame. -/
def Obligations.LineFrameCommands : Prop :=
  (∀ (s : State) (f : Fin 48) (x : SlfSt), (s.frond f.val).slf = x →
      (s.defectsOn f.val = false → exec (.dlof f) s = .next s ∧ exec (.dlom f) s = .next s ∧ exec (.dloa f) s = .next s) ∧
      (s.defectsOn f.val = true →
        (∀ n, x.tickAllIf = false → 479 ≤ n → 0 < s.tick → x.oofRun = ⟨n, s.tick - 1⟩ → exec (.dlof f) s = .next
          ((s.modSlf f.val fun y => { y with oofRun := ⟨n + 1, s.tick⟩, ifRun := ⟨0, s.tick⟩ }).setDefect f.val 2 true)) ∧
        (∀ n, x.tickAllIf = true → x.inFrame = true → 479 ≤ n → 0 < s.tick → x.ifRun = ⟨n, s.tick - 1⟩ → exec (.dlof f) s = .next
          ((s.modSlf f.val fun y => { y with oofRun := ⟨0, s.tick⟩, ifRun := ⟨n + 1, s.tick⟩ }).setDefect f.val 2 false)) ∧
        (∀ n, s.flag (R.FRD_SLF_CTL_MF_EN f.val) = true → x.inMf = false → 479 ≤ n → 0 < s.tick → x.omRun = ⟨n, s.tick - 1⟩ →
          exec (.dlom f) s = .next
            ((s.modSlf f.val fun y => { y with omRun := ⟨n + 1, s.tick⟩, imRun := ⟨0, s.tick⟩ }).setDefect f.val 3 true)) ∧
        (s.flag (R.FRD_SLF_CTL_MF_EN f.val) = false → exec (.dlom f) s = .next (s.setDefect f.val 3 false)) ∧
        exec (.dloa f) s = .next (s.setDefect f.val 1 (s.acqState f.val != 5))) ∧
      ((s.tick + 1) % 160000 ≠ 0 → exec (.ddeg f) s = .next s) ∧
      ((s.tick + 1) % 160000 = 0 → ∃ t, exec (.ddeg f) s = .next t ∧ (t.frond f.val).slf.ssfSecond = false ∧
        ∀ l, l < 8 → (t.layer f.val l).blocks = 0 ∧ (t.layer f.val l).farBlocks = 0) ∧
      ((s.frond f.val).fec.inner = [] → ∀ o, exec (.outerDecode f o) s = .next s) ∧
      (∀ r l o, (s.frond f.val).fec.inner = r :: l →
        (s.tick < r.stamp + 2 → exec (.outerDecode f o) s = .next s) ∧
        (∀ t, r.stamp + 2 ≤ s.tick → (s.modFrond f.val fun y => { y with fec := { y.fec with inner := l } }).outerFec f.val r o = t →
          exec (.outerDecode f o) s = .next (if t.lineRun f.val then t.deframe f.val r o else t))) ∧
      exec (.gccFrameReceive f) s = .next (s.gccHunt f.val (x.gccRx.length + 1)) ∧
      (x.gccFw = [] → x.gccHost = [] → exec (.gccFrameTransmit f) s = .next s) ∧
      (∀ g h fw hs, s.lineRun f.val = true → 1 ≤ s.rd (R.FRD_SLF_CTL_GCC_SEL f.val) → s.rd (R.FRD_SLF_CTL_GCC_SEL f.val) ≤ 4 →
        x.gccFw = g :: fw → x.gccHost = h :: hs →
        exec (.gccFrameTransmit f) s = .next (if x.gccLastFw then (s.modSlf f.val fun _ => { x with gccHost := hs, gccLastFw := false, gccSeq := (x.gccSeq + 1) % 65536 }).emit (.gcc f.val (h.bytes x.gccSeq))
          else (s.modSlf f.val fun _ => { x with gccFw := fw, gccLastFw := true, gccSeq := (x.gccSeq + 1) % 65536 }).emit (.gcc f.val (g.bytes x.gccSeq)))) ∧
      (s.lineRun f.val = false → (∀ l, exec (.slfFrameEncode f l) s = .next s) ∧ exec (.txAssembly f) s = .next s ∧
        ∀ l, exec (.superframeTransmit f l) s = .next s) ∧
      (s.lineRun f.val = true →
        (∃ t, exec (.slfFrameEncode f []) s = .next t ∧ (t.frond f.val).slf.beiSum = [] ∧
          (s.aSsf f.val = true → (t.frond f.val).slf.txBei = [])) ∧
        exec (.txAssembly f) s = .next (s.modSlf f.val fun y => { y with txHeader := (s.txHeader f.val (s.tick + 1)).word }) ∧
        (∀ c l, ∃ t : State, t.tick = s.tick ∧ exec (.superframeTransmit f (c :: l)) s = .next (t.wrB (R.FRD_TX_STAT_CLIP f.val) true)) ∧
        (∃ t, exec (.superframeTransmit f []) s = .next t ∧
          (t.frond f.val).slf.txBoh = bohWord (s.txLof f.val s.tick) (justBit s.tick) x.acqBoundary))) ∧
  (∀ (g : GccFrame) (seq : Nat) (rest : List OhByte), g.typ < 256 → g.payload.length ≤ 4352 → seq < 65536 →
      (match gccHead ((g.bytes seq).map (fun b => (b, false)) ++ rest) with
        | .frame n h q => n = 14 + g.payload.length ∧ h = g ∧ q = seq
        | _ => False) ∧
      ∀ i, i < 14 + g.payload.length →
        match gccHead (((g.bytes seq).zipIdx.map fun p => (p.1, decide (p.2 = i))) ++ rest) with
        | .frame _ _ _ => False
        | .wait => False
        | .drop n c => 0 < n ∧ n ≤ i + 1 ∧ c = 0)

/-- R231 to R236, R258, R327: EP_CREATE enters the endpoint with its slots, running, and no other endpoint changes; EP_CHANGE of one
group changes its fields in place; EP_DELETE frees the endpoint and its slots; EP_READ reads it out. -/
def Obligations.EndpointCommands : Prop :=
  ∀ (s : State) (h : ReqHdr) (mem : HostMem) (e : Nat) (x : XcEntry),
    (∀ addr, h.any = false → (∀ k ∈ chkEpCreate e x addr (h.ctx s mem) s, k.bad = false) →
      (entryKeys x ((h.ctx s mem).slotSets addr).1).any s.slotFenced = false → s.epFenced e = false →
      ∃ t : State, exec (.epCreate h mem e x addr) s = .next (t.complete (doneOk h s 0x20 0)) ∧
        (t.ep e).entry = { x with state := 1, taken := 0, lstate := if isLichen x || isImux x then 1 else 0
                                  granules := entryGranules x } ∧
        (t.ep e).born = s.tick ∧ (t.ep e).copies = [] ∧ (∀ g, g ≠ e → (t.ep g).entry = (s.ep g).entry) ∧
        (∀ k ∈ entryKeys x ((h.ctx s mem).slotSets addr).1, Tab.get (fun _ => 0) t.slotOwner k = e + 1)) ∧
    (∀ g, (∀ k ∈ chkEpChange e g x (h.ctx s mem) s, k.bad = false) → s.epFenced e = false → s.host.release = [] → g = 1 →
      ∃ t : State, exec (.epChange h mem e g x) s = .next (t.complete (doneOk h s 0x21 0)) ∧
        (t.ep e).entry = { (s.ep e).entry with selMode := x.selMode, prefMode := x.prefMode } ∧
        (∀ k, k ≠ e → (t.ep k).entry = (s.ep k).entry) ∧ t.slotOwner = s.slotOwner) ∧
    ((∀ k ∈ chkEpDelete e (h.ctx s mem) s, k.bad = false) →
      ∃ t : State, exec (.epDelete h mem e) s = .next (t.complete (doneOk h s 0x22 0)) ∧ (t.ep e).entry.kind = 0 ∧
        (∀ k, Tab.get (fun _ => 0) t.slotOwner k ≠ e + 1) ∧
        (∀ g, g ≠ e → (s.ep g).entry.src.kind ≠ 2 → (t.ep g).entry = (s.ep g).entry)) ∧
    (∀ buf u, (∀ k ∈ chkEpRead e buf (h.ctx s mem) s, k.bad = false) → s.memRead 0x10 0 (32 * e) 32 = (u, []) →
      exec (.epRead h mem e buf) s = .next (readOk h u 0x23 buf (u.epRecordNow e) (u.epFenced e)))

/-- R22, R311: a tenant other than T0000 does not change, read or delete what another tenant owns: each of these requests is refused
with OWNERSHIP and changes nothing. R311, R325: a PF-only opcode that a VF issues changes nothing but the error bit of a failed operand
read: it completes with a status that is not OK, whatever its operands are. -/
def Obligations.TenantIsolation : Prop :=
  (∀ (s : State) (h : ReqHdr) (mem : HostMem), h.any = false → h.tenant ≠ 0 → (s.tenant h.tenant).active = true →
      s.inRange h.fn h.tenant = true →
      (∀ e buf, e < 131072 → buf % 64 = 0 → (s.ep e).entry.kind ≠ 0 → (s.ep e).entry.tenant ≠ h.tenant →
        exec (.epDelete h mem e) s = .next (s.complete (doneRefused h s 0x22 St.ownership 0)) ∧
        exec (.epRead h mem e buf) s = .next (s.complete (doneRefused h s 0x23 St.ownership 0)) ∧
        exec (.pmClear h mem e) s = .next (s.complete (doneRefused h s 0x25 St.ownership 0)) ∧
        exec (.funcStop h mem 1 e) s = .next (s.complete (doneRefused h s 0x01 St.ownership 0))) ∧
      (∀ i buf, i < 16384 → buf % 64 = 0 → (s.sa i).state ≠ 0 → (s.sa i).tenant ≠ h.tenant →
        (∀ role peer peerSa soft, exec (.saChange h mem i role peer peerSa soft) s =
          .next (s.complete (doneRefused h s 0x31 St.ownership 0))) ∧
        exec (.saDelete h mem i) s = .next (s.complete (doneRefused h s 0x32 St.ownership 0)) ∧
        exec (.keyDiscard h mem i) s = .next (s.complete (doneRefused h s 0x34 St.ownership 0)) ∧
        exec (.saRead h mem i buf) s = .next (s.complete (doneRefused h s 0x36 St.ownership 0)))) ∧
  (∀ (s : State) (h : ReqHdr) (mem : HostMem) (c : Instr) (op : Nat), h.fn ≠ 0 → PfOnly h mem c op →
      ∃ st d, st ≠ St.ok ∧ (exec c s = .next (s.complete (doneRefused h s op st d)) ∨
        (st = St.hostRead ∧ exec c s = .next ((s.fnError h.fn 4).complete (doneRefused h s op st d)))))

/-- R237, R243 to R251: extraction takes a copy of a running connection, the egress decision records a frame for each one that the rate
needs, switching sends what was decided before; a Lichen pair becomes PAIRED after 16 ticks of matched frames, SINGLE after 1,600 ticks
of one leg, follows a differential that has changed, re-anchors, and raises LEG_FAIL and LEG_CLEAR; a group's skew is watched. An
endpoint that is no such connection takes nothing. -/
def Obligations.TrafficCommands : Prop :=
  ∀ (s : State) (e : Fin 131072) (x : Endpoint), s.xep e.val = x →
    (lichenRuns x = false → exec (.lichenPaired e) s = .next s ∧ exec (.lichenSingle e) s = .next s ∧ exec (.deltaChange e) s = .next s ∧
      exec (.lichenReanchor e) s = .next s ∧ (∀ l, exec (.legFail e l) s = .next s ∧ exec (.legClear e l) s = .next s)) ∧
    (x.entry.kind ≠ 1 → (∀ a b, exec (.egressDecision e a b) s = .next s) ∧ (∀ l, exec (.xcSwitch e l) s = .next s)) ∧
    (isImux x.entry = false → exec (.imuxSkewExceeded e) s = .next s) ∧
    (∀ src o f, x.entry.kind = 1 → x.entry.state = 1 → s.copyFrond x.entry src.val = some f → o.parity = [] →
      exec (.oduExtract e src o) s = .next (s.extractCopy e.val src.val (s.serverSignal f (copySlots x src.val)) (s.inBlockReset (0x100 + f))
        (!o.marked) x.entry o.bytes {
          src := src.val, stamp := o.stamp, arr := s.tick, mfas := o.mfas, sf := o.sf, clean := false, signal := none, auth := none
          phase := o.phase, bytes := [], oh := o.oh })) ∧
    (∀ a b, x.entry.kind = 1 → x.entry.state = 1 → s.lineEnd x.entry.src = false → s.lineEnd x.entry.dst = false →
      exec (.egressDecision e a b) s = .next ((s.portDecision e.val true).portDecision e.val false)) ∧
    (x.entry.kind = 1 → x.decided = [] → s.switchReads e.val = (s, false, false) →
      exec (.xcSwitch e []) s = .next (s.setXep e.val { x with decided := [] })) ∧
    (∀ d : Decided, x.entry.kind = 1 → x.decided = [d] → d.made < s.tick → s.switchReads e.val = (s, false, false) →
      s.epFenced e.val = false → s.epSlotsFenced x = false →
      exec (.xcSwitch e []) s = .next ((s.setXep e.val { x with decided := [] }).sendFrame e.val d.toDst false d.kind d.bytes)) ∧
    (lichenRuns x = true →
      (x.entry.lstate = 3 → exec (.lichenPaired e) s = .next s) ∧
      (∀ m d n, x.entry.lstate = 1 → measured x s.tick (frameGap x.entry.tsCount) 0 = d :: m → n < 15 → 0 < n → 0 < s.tick →
        x.matchedRun = ⟨n, s.tick - 1⟩ → exec (.lichenPaired e) s = .next (s.setXep e.val { x with matchedRun := ⟨n + 1, s.tick⟩ })) ∧
      (∀ d n, x.entry.lstate = 1 → 0 ≤ d → measured x s.tick (frameGap x.entry.tsCount) 0 = [d] → 15 ≤ n → 0 < s.tick → x.matchedRun = ⟨n, s.tick - 1⟩ →
        exec (.lichenPaired e) s = .next (((s.setXep e.val { x with
          entry := { x.entry with lstate := 3 }, refLeg := 0, delta := d.natAbs, matchedRun := {}, aloneRun := {}
          deltaRun := {}, shiftRun := {}, refOffset := refOffsetNow x 0, failed := [], failRun := [], clearRun := [] }).raiseFor
          x.entry.tenant 0x0801 e.val [.w d.natAbs, .w 0]).checkExceeded e.val)) ∧
      (∀ n, x.entry.lstate = 1 → cleanSeen x s.tick (frameGap x.entry.tsCount) 0 = true → cleanSeen x s.tick (frameGap x.entry.tsCount) 1 = false →
        1599 ≤ n → 0 < s.tick → x.aloneLeg = 0 → x.aloneRun = ⟨n, s.tick - 1⟩ → exec (.lichenSingle e) s = .next (s.setXep e.val { x with
          entry := { x.entry with lstate := 2 }, aloneRun := {}, refLeg := 0, delta := 0, refOffset := refOffsetNow x 0 })) ∧
      (∀ d n, x.entry.lstate = 3 → measured x s.tick (frameGap x.entry.tsCount) x.refLeg = [d] → 0 ≤ d → d ≠ (x.delta : Int) → 15 ≤ n →
        0 < s.tick → x.deltaRun = ⟨n, s.tick - 1⟩ →
        exec (.deltaChange e) s = .next ((s.setXep e.val { x with delta := d.toNat, deltaRun := {} }).checkExceeded e.val)) ∧
      (x.entry.lstate = 3 → refOffsetNow x x.refLeg = none → exec (.lichenReanchor e) s = .next s) ∧
      (∀ n, x.entry.lstate = 3 → refOffsetNow x x.refLeg = some n → x.refOffset = none →
        exec (.lichenReanchor e) s = .next (s.setXep e.val { x with refOffset := some n })) ∧
      (∀ (l : Fin 2) n, x.entry.lstate = 3 → cleanSeen x s.tick 1 l.val = false → x.failed.contains l.val = false → 15 ≤ n → 0 < s.tick →
        Tab.get (fun _ => {}) x.failRun l.val = ⟨n, s.tick - 1⟩ → exec (.legFail e l) s = .next ((s.setXep e.val { x with
          failRun := Tab.set (fun _ => {}) x.failRun l.val ⟨n + 1, s.tick⟩
          failed := x.failed ++ [l.val], clearRun := Tab.set (fun _ => {}) x.clearRun l.val {} }).raiseFor x.entry.tenant 0x0803 e.val
          [.w l.val])) ∧
      (∀ (l : Fin 2) n, x.entry.lstate = 3 → x.failed.contains l.val = true → cleanSeen x s.tick (frameGap x.entry.tsCount) l.val = true →
        (∀ c ∈ x.copies, c.clean = true) → 159 ≤ n → 0 < s.tick → Tab.get (fun _ => {}) x.clearRun l.val = ⟨n, s.tick - 1⟩ →
        exec (.legClear e l) s = .next ((s.setXep e.val { x with
          clearRun := Tab.set (fun _ => {}) x.clearRun l.val ⟨n + 1, s.tick⟩
          failed := x.failed.filter (· != l.val) }).raiseFor x.entry.tenant 0x0804 e.val [.w l.val]))) ∧
    (isImux x.entry = true → x.entry.state = 1 → x.copies = [] → 0 < x.entry.hold →
      exec (.imuxSkewExceeded e) s = .next (s.setXep e.val { x with skewRun := ⟨0, s.tick⟩ })) ∧
    (∀ (a b : Copy) n, isImux x.entry = true → x.entry.state = 1 → x.copies = [a, b] → a.src = 4 → b.src = 5 → a.sf = b.sf →
      a.arr = s.tick → b.arr ≠ s.tick → x.entry.hold ≤ a.stamp - b.stamp → 0 < a.stamp - b.stamp → x.skewBad = false → 15 ≤ n →
      0 < s.tick → x.skewRun = ⟨n, s.tick - 1⟩ → exec (.imuxSkewExceeded e) s = .next ((s.setXep e.val { x with
        skewRun := ⟨n + 1, s.tick⟩, skewBad := true }).raiseFor x.entry.tenant 0x0807 e.val [.w (a.stamp - b.stamp)]))

/-- R250: of the clean copies of a frame the selection takes the leg that SEL_MODE forces, else the preferred one when both are clean,
else the one that is; without a clean copy none. R243, R244: the blocks of a frame that go to the members in turn from the frame's phase
on make that frame when they are joined. R272: an adaptation acts only outside a band of 8 blocks about the middle of the buffer,
towards it, by at most 127 blocks. -/
def Obligations.LegSelection : Prop :=
  (∀ (mode pref : Nat) (a b : Bool), pref < 2 →
     (pickLeg mode pref false false = none) ∧
     (∀ l, pickLeg mode pref a b = some l → l < 2 ∧ (l = 0 → a = true) ∧ (l = 1 → b = true)) ∧
     (mode ≠ 1 → mode ≠ 2 → pickLeg mode pref true true = some pref ∧ (a = true ∨ b = true → (pickLeg mode pref a b).isSome = true)) ∧
     (mode = 1 → (pickLeg mode pref a b = some 0 ↔ a = true)) ∧ (mode = 2 → (pickLeg mode pref a b = some 1 ↔ b = true))) ∧
  (∀ (m phase : Nat) (f : List Byte) (shares : List (List Byte)), 0 < m → m ≤ 4 → f.length = 15296 → shares.length = m →
     (∀ b, b < 956 → slice (shares.getD ((phase + b) % m) []) (16 * (b / m)) 16 = slice f (16 * b) 16) → joinShares m phase shares = f) ∧
  (∀ level : Int, (adaptation level).natAbs ≤ 127 ∧ (0 < adaptation level ↔ level < 2040) ∧ (adaptation level < 0 ↔ 2056 < level) ∧
     adaptOf (adaptCode (adaptation level)) = adaptation level ∧
     (∀ l : Int, level ≤ l → adaptation l ≤ adaptation level))

/-- R146, R148, R206, R232, R326, R327, R334, Tables HST-4, SUB-1: NOP completes; FUNC_STOP stops the line function of a frond, an
endpoint or a port, and completes where it is stopped; FUNC_START releases a stopped function; LINE_SETUP of a stopped frond enters its
plan and its starting table; LINE_OH writes a trail trace or turns a TCM level off; GCC_SEND queues a frame, which a stopped line
function discards and counts; GCC_RX_POST posts a buffer. -/
def Obligations.FunctionCommands : Prop :=
  ∀ (s : State) (h : ReqHdr) (mem : HostMem), s.host.release = [] →
    (h.any = false → (s.tenant h.tenant).active = true → s.inRange h.fn h.tenant = true →
      exec (.nop h mem) s = .next (s.complete (doneOk h s 0x00 0))) ∧
    (∀ f, h.isPf → s.frondEnabled f = true →
      (s.lineRun f = true → ∃ t : State, exec (.funcStop h mem 0 f) s = .next (t.complete (doneOk h s 0x01 0)) ∧
        t.lineRun f = false ∧ t.acqState f = 0 ∧ (t.frond f).ld.pend = none ∧ (t.frond f).fec.arrived = [] ∧
        (t.frond f).slf.gccHost = [] ∧ FrondsBut f s t) ∧
      (s.lineRun f = false → exec (.funcStop h mem 0 f) s = .next (s.complete (doneOk h s 0x01 0))) ∧
      (s.lineRun f = true → exec (.funcStart h mem 0 f) s = .next (s.complete (doneOk h s 0x02 0))) ∧
      (s.lineRun f = false → s.rd (R.FRD_SC_PLAN_N f) ≠ 0 →
        exec (.funcStart h mem 0 f) s = .next ((s.complete (doneOk h s 0x02 0)).releaseLine f))) ∧
    (∀ e, h.any = false → (s.tenant h.tenant).active = true → s.inRange h.fn h.tenant = true → e < 131072 →
      (s.ep e).entry.kind ≠ 0 → h.tenant = 0 ∨ h.tenant = (s.ep e).entry.tenant →
      ((s.ep e).entry.state = 1 → exec (.funcStop h mem 1 e) s = .next ((s.stopEp e).complete (doneOk h s 0x01 0))) ∧
      ((s.ep e).entry.state ≠ 1 → exec (.funcStart h mem 1 e) s = .next ((s.complete (doneOk h s 0x02 0)).releaseEp e))) ∧
    (∀ p, h.isPf → p < 288 → s.portExists p = true →
      ((s.port p).running = true → exec (.funcStop h mem 2 p) s = .next ((s.stopPort p).complete (doneOk h s 0x01 0))) ∧
      ((s.port p).running = false →
        exec (.funcStart h mem 2 p) s = .next ((s.complete (doneOk h s 0x02 0)).releasePort p))) ∧
    (∀ f n count slotM codes start (grid : Int) (en : Bool), h.isPf → s.frondEnabled f = true → s.lineRun f = false →
      planOk n count slotM grid = true →
      s.slotOwner.any (fun q => slotKind q.1 == 0 && q.1 / 2 ^ 12 % 2 ^ 28 == f && decide (20 * n ≤ q.1 % 2 ^ 12)) = false →
      (en = true → tableValid n count codes = true ∧ start = codes) →
      (en = false → codes.all (· == 0) = true ∧ start = flatTable n count) →
      exec (.lineSetup h mem f n count slotM grid en codes) s = .next ((((((s.wr (R.FRD_SC_PLAN_N f) n).wr
        (R.FRD_SC_PLAN_COUNT f) count).wr (R.FRD_SC_PLAN_SLOT_M f) slotM).wrS (R.FRD_SC_PLAN_GRID_N f) grid).modFrond f fun y => { y with
        ld := { y.ld with startCodes := start } }).complete (doneOk h s 0x10 0))) ∧
    (∀ f layer mode addr tti, h.isPf → s.frondEnabled f = true → layer < 8 → mode < 2 → addr % 64 = 0 →
      readHost mem addr 64 = some tti →
      exec (.lineOh h mem 0 f layer 0 mode addr) s = .next (((s.setLayer f layer { s.layer f layer with ttiSent := tti }).evalTim f
        layer).complete (doneOk h s 0x13 0)) ∧
      exec (.lineOh h mem 0 f layer 1 mode addr) s = .next (((s.setLayer f layer { s.layer f layer with ttiExp := tti }).evalTim f
        layer).complete (doneOk h s 0x13 0))) ∧
    (∀ f layer addr, h.isPf → s.frondEnabled f = true → 2 ≤ layer → layer < 8 →
      exec (.lineOh h mem 0 f layer 2 0 addr) s = .next ((s.tcmOff f layer).complete (doneOk h s 0x13 0)) ∧
      exec (.lineOh h mem 0 f layer 2 1 addr) s = .next (((s.setLayer f layer { s.layer f layer with mode := true }).evalTim f
        layer).complete (doneOk h s 0x13 0))) ∧
    (∀ f len addr b, h.isPf → s.frondEnabled f = true → len ≤ 4352 → addr % 64 = 0 → readHost mem addr len = some b →
      (s.frond f).slf.gccHost.length < 16 →
      (s.lineRun f = true → exec (.gccSend h mem f len addr) s = .next ((s.modSlf f fun y => { y with
        gccHost := y.gccHost ++ [{ typ := 1, payload := b }] }).complete (doneOk h s 0x14 0))) ∧
      (s.lineRun f = false → exec (.gccSend h mem f len addr) s = .next ((s.bump (R.FRD_SLF_GCC_TX_DROP f) 1).complete
        (doneOk h s 0x14 0)))) ∧
    (∀ f len addr b, h.isPf → s.frondEnabled f = true → len ≤ 4352 → addr % 64 = 0 → readHost mem addr len = some b →
      16 ≤ (s.frond f).slf.gccHost.length →
      exec (.gccSend h mem f len addr) s = .next (s.complete (doneRefused h s 0x14 St.queueFull 0))) ∧
    (∀ tag addr, h.isPf → addr % 64 = 0 → s.host.posted.length < 256 →
      exec (.gccRxPost h mem tag addr) s = .next (({ s with host := { s.host with posted := s.host.posted ++ [(tag, addr)] } } :
        State).complete (doneOk h s 0x15 0)))

/-- R297 to R302, R304, R306, R365: SA_CREATE enters an EMPTY association, SA_CHANGE changes its operands and SA_DELETE frees it;
KEY_LOAD puts an unwrapped key into the current slot of an EMPTY association or the next slot of another, and refuses one that does not
unwrap with the reason; KEY_DISCARD empties the next slot; KEY_ROLL schedules a roll and tells PEER; at its tick the slots change
places; a quiet previous key is erased; SA_READ reads the record out. No other association changes. -/
def Obligations.AssociationCommands : Prop :=
  ∀ (s : State) (h : ReqHdr) (mem : HostMem) (i : Fin 16384) (x : SaRec), s.sa i.val = x →
    (h.any = false → (s.tenant h.tenant).active = true → s.inRange h.fn h.tenant = true →
      (∀ role peer peerSa soft, x.state = 0 → s.overSas h.tenant 1 = false → ∃ t : State,
        exec (.saCreate h mem i.val role peer peerSa soft) s = .next (t.complete (doneOk h s 0x30 0)) ∧
        t.sa i.val = { state := 1, role := role, tenant := h.tenant, peer := peer, peerSa := peerSa, soft := soft } ∧
        ∀ j, j ≠ i.val → t.sa j = s.sa j) ∧
      (∀ role peer peerSa soft, x.state ≠ 0 →
        exec (.saCreate h mem i.val role peer peerSa soft) s = .next (s.complete (doneRefused h s 0x30 St.slotBusy 0))) ∧
      (x.state ≠ 0 → h.tenant = 0 ∨ h.tenant = x.tenant →
        (∀ role peer peerSa soft, x.bound = none ∨ role = x.role →
          exec (.saChange h mem i.val role peer peerSa soft) s = .next ((s.setSa i.val { x with
            role := role, peer := peer, peerSa := peerSa, soft := soft }).complete (doneOk h s 0x31 0))) ∧
        (x.bound = none → x.rollTick = none → ∃ t : State, exec (.saDelete h mem i.val) s = .next (t.complete (doneOk h s 0x32 0)) ∧
          t.sa i.val = {} ∧ ∀ j, j ≠ i.val → t.sa j = s.sa j) ∧
        (x.bound ≠ none ∨ x.rollTick ≠ none →
          exec (.saDelete h mem i.val) s = .next (s.complete (doneRefused h s 0x32 St.slotBusy 0))) ∧
        (∀ addr w r, addr % 64 = 0 → readHost mem addr 56 = some w → Tab.get (fun _ => 0) s.sec.loads s.tick < 64 →
          s.unwrapKey i.val w = r → match r with
          | .error e => exec (.keyLoad h mem i.val addr) s = .next (s.complete (doneRefused h s 0x33 St.keyUnwrap e))
          | .ok key =>
            (x.state = 1 → ∃ t : State, exec (.keyLoad h mem i.val addr) s = .next (t.complete (doneOk h s 0x33 0)) ∧
              t.sa i.val = { x with slot0 := some key, state := 2, cur := 0, softSeen := false } ∧ ∀ j, j ≠ i.val → t.sa j = s.sa j) ∧
            (x.state ≠ 1 → x.nxt = 0 → x.epoch x.cur < key.epoch → ∃ t : State,
              exec (.keyLoad h mem i.val addr) s = .next (t.complete (doneOk h s 0x33 0)) ∧
              t.sa i.val = { x.setSlot x.other (some key) with nxt := 1 } ∧ ∀ j, j ≠ i.val → t.sa j = s.sa j) ∧
            (x.state ≠ 1 → key.epoch ≤ x.epoch x.cur →
              exec (.keyLoad h mem i.val addr) s = .next (s.complete (doneRefused h s 0x33 St.keyStale 0)))) ∧
        (x.rollTick = none → exec (.keyDiscard h mem i.val) s = .next (((s.setSa i.val { x.setSlot x.other none with
          nxt := 0 }).keyWritten i.val x.other).complete (doneOk h s 0x34 0))) ∧
        (∀ r, x.nxt = 1 → x.rollTick = none → s.tick < r → r ≤ s.tick + 1600000 →
          exec (.keyRoll h mem i.val r) s = .next (((s.setSa i.val { x with rollTick := some r }).complete
            (doneOk h s 0x35 0)).keyRollSend i.val r)) ∧
        (∀ r, x.nxt = 1 → x.rollTick = none → r ≤ s.tick ∨ s.tick + 1600000 < r →
          exec (.keyRoll h mem i.val r) s = .next (s.complete (doneRefused h s 0x35 St.schedule 0))) ∧
        (∀ buf, buf % 64 = 0 → s.readFits 64 → exec (.saRead h mem i.val buf) s = .next (readOk h s 0x36 buf x.record)))) ∧
    (x.rollTick = none → exec (.keyRollApply i) s = .next s) ∧
    (∀ r, x.rollTick = some r → s.tick < r → exec (.keyRollApply i) s = .next s) ∧
    (∀ r v w, x.rollTick = some r → r ≤ s.tick → x.slot x.cur = some v → x.slot x.other = some w → ∃ t : State,
      exec (.keyRollApply i) s = .next t ∧ (∀ j, j ≠ i.val → t.sa j = s.sa j) ∧
      t.sa i.val = { x.setSlot x.other (some { w with inv := 0 }) with
        cur := x.other, nxt := 2, rollTick := none, rolledAt := r, softSeen := false, state := 2 }) ∧
    (x.slot x.other = none → exec (.previousKeyErase i) s = .next s) ∧
    (∀ v, x.slot x.other = some v → x.nxt = 2 → s.tick < x.rolledAt + 15999 → exec (.previousKeyErase i) s = .next s) ∧
    (∀ v w a, x.slot x.other = some v → x.slot x.cur = some w → w.authTick = some a → x.nxt = 2 → x.rolledAt + 15999 ≤ s.tick →
      (∀ t, v.authTick = some t → t + 15999 < s.tick) → exec (.previousKeyErase i) s = .next
        (((s.setSa i.val { x.setSlot x.other none with nxt := 0 }).keyWritten i.val x.other).saEvent 0x0a05 i.val [.w v.epoch]))

/-- R288 to R291, R294, R295, Table CRY-1: a frame encrypted under a key authenticates under that key and decrypts to the frame with 0
in the 17 positions of the encryption overhead; what stays in clear is unchanged. The receiver takes the INV that is congruent to SEQ
and nearest to HI + 1, the larger of two. -/
def Obligations.EncryptedFrame : Prop :=
  (∀ (k : KeySlot) (kp dir inv : Nat) (f : List Byte), k.key.length = 32 → k.salt.length = 4 → kp < 2 → dir < 2 → inv < 2 ^ 48 →
    f.length = 15296 →
    let e := encryptFrame k kp dir inv f
    e.length = 15296 ∧ tagOk k dir inv e = true ∧ (encOverhead e).headD 0 = 0x80 + 16 * kp + 8 * dir ∧
    beVal ((encOverhead e).drop 1 |>.take 4) = inv % 2 ^ 32 ∧
    decryptFrame k dir inv e = putBytes f (encPositions.map fun i => (i, 0)) ∧
    ∀ i, i % 3824 < 16 → encPositions.contains i = false → e[i]? = f[i]?) ∧
  (∀ (hi : Option Nat) (seq : Nat), seq < 2 ^ 32 →
    let t := (hi.map (· + 1)).getD 0
    let v := recoverInv hi seq
    v % 2 ^ 32 = seq ∧ ∀ w, w % 2 ^ 32 = seq → (w < v → v - t + (t - v) ≤ w - t + (t - w)) ∧ (v < w → v - t + (t - v) < w - t + (t - w)))

/-- R22, R254 to R256, R311, R312, Table XC-5: QUOTA_SET sets the quotas of an active tenant; QUOTA_READ reads them out with the use;
TENANT_CREATE makes an inactive tenant active with quotas of 0, or the lowest inactive one under ANY; TENANT_DELETE makes a tenant that
owns nothing inactive and erases its key-encryption key. -/
def Obligations.TenantCommands : Prop :=
  ∀ (s : State) (h : ReqHdr) (mem : HostMem),
    (∀ units sas grans, h.fn = 0 → h.any = false → h.tenant ≠ 0 → (s.tenant h.tenant).active = true → units ≤ 92160 → sas ≤ 16384 →
      grans ≤ 8192 →
      exec (.quotaSet h mem units sas grans) s = .next (((s.setTenant h.tenant { s.tenant h.tenant with
        unitQuota := units, saQuota := sas, granQuota := grans }).quotaUpdate h.tenant).complete (doneOk h s 0x27 0))) ∧
    (∀ units sas grans, h.isPf →
      exec (.quotaSet h mem units sas grans) s = .next (s.complete (doneRefused h s 0x27 St.format 0))) ∧
    (∀ buf, h.any = false → (s.tenant h.tenant).active = true → s.inRange h.fn h.tenant = true → buf % 64 = 0 → s.readFits 16 →
      exec (.quotaRead h mem buf) s = .next (readOk h s 0x28 buf (s.quotaRecord h.tenant))) ∧
    (h.fn = 0 → h.any = false → (s.tenant h.tenant).active = false →
      exec (.tenantCreate h mem) s = .next ((s.setTenant h.tenant { active := true }).complete (doneOk h s 0x29 0))) ∧
    (h.fn = 0 → h.any = false → (s.tenant h.tenant).active = true →
      exec (.tenantCreate h mem) s = .next (s.complete (doneRefused h s 0x29 St.slotBusy 0))) ∧
    (∀ t, h.fn = 0 → h.any = true → h.tenant = 0 → t < 1024 → (s.tenant t).active = false → (∀ u, u < t → (s.tenant u).active = true) →
      exec (.tenantCreate h mem) s = .next ((s.setTenant t { active := true }).complete (doneOk h s 0x29 t))) ∧
    (h.fn = 0 → h.any = false → h.tenant ≠ 0 → (s.tenant h.tenant).active = true →
      (∀ q ∈ s.eps, q.2.entry.kind = 0 ∨ q.2.entry.tenant ≠ h.tenant) → (∀ q ∈ s.sas, q.2.state = 0 ∨ q.2.tenant ≠ h.tenant) →
      ∃ t : State, exec (.tenantDelete h mem) s = .next (t.complete (doneOk h s 0x2a 0)) ∧ (t.tenant h.tenant).active = false ∧
        t.kek h.tenant = none ∧ ∀ u, u ≠ h.tenant → t.tenant u = s.tenant u ∧ t.kek u = s.kek u)

/-- R208, R209, R218 to R221, R224, R226, Table PM-3: PM_SETUP moves the anchor in a tick that ends a second, enters a profile or sets
ZERO_SUPPRESS; PM_CLEAR zeroes the bins in progress; PM_READ reads four records for each endpoint; the end of a second is taken into the
bins of each frond, and nothing happens within one. A BER gauge is the nearest code. -/
def Obligations.MonitoringCommands : Prop :=
  (∀ (s : State) (h : ReqHdr) (mem : HostMem),
    (∀ a, h.isPf → a % 160000 = 0 → s.tick % 160000 = 0 → ∃ t : State,
      exec (.pmSetupAnchor h mem a) s = .next (t.complete (doneOk h s 0x24 0)) ∧ t.pm.anchor = a ∧
      t.rd R.GLB_PM_ANCHOR_LO_ANCHOR_LO = a % 2 ^ 32 ∧ t.rd R.GLB_PM_ANCHOR_HI_ANCHOR_HI = a / 2 ^ 32 % 2 ^ 32 ∧
      t.pm.profiles = s.pm.profiles) ∧
    (∀ a, h.isPf → a % 160000 = 0 → s.tick % 160000 ≠ 0 →
      exec (.pmSetupAnchor h mem a) s = .next (s.complete (doneRefused h s 0x24 St.schedule 0))) ∧
    (∀ k addr b, h.isPf → k < 64 → addr % 64 = 0 → readHost mem addr 64 = some b → s.pm.eps = [] →
      exec (.pmSetupProfile h mem k addr) s = .next (({ s with pm := { s.pm with
        profiles := Tab.set (fun _ => []) s.pm.profiles k ((List.range 16).map fun i => fieldAt b (4 * i) 4) } } : State).complete
        (doneOk h s 0x24 0))) ∧
    (∀ on, h.isPf → exec (.pmSetupZeroSuppress h mem on) s = .next ((s.wrB R.GLB_PM_STAT_ZERO_SUPPRESS on).complete
      (doneOk h s 0x24 0))) ∧
    (∀ e p, h.any = false → (s.tenant h.tenant).active = true → s.inRange h.fn h.tenant = true → e < 131072 →
      (s.ep e).entry.kind ≠ 0 → h.tenant = 0 ∨ h.tenant = (s.ep e).entry.tenant → s.epPm e = some p →
      exec (.pmClear h mem e) s = .next ((s.setEpPm e (some { p with
        window := [], b15 := { p.b15 with counts := List.replicate 8 0, suspect := true }
        b24 := { p.b24 with counts := List.replicate 8 0, suspect := true } })).complete (doneOk h s 0x25 0))) ∧
    (∀ e n buf, h.any = false → (s.tenant h.tenant).active = true → s.inRange h.fn h.tenant = true → e + n ≤ 131072 → 0 < n →
      n ≤ 4096 → buf % 64 = 0 → s.readFits (256 * n) → exec (.pmRead h mem e n buf) s = .next (readOk h s 0x26 buf
        ((List.range n).flatMap fun i => s.pmRead1 h.tenant (e + i)))) ∧
    ((s.tick + 1) % 160000 ≠ 0 → exec .pmSecondEnd s = .next s) ∧
    ((s.tick + 1) % 160000 = 0 → ∃ t : State, exec .pmSecondEnd s = .next t ∧ t.tick = s.tick ∧ RegsBut [R.GLB_PM_STAT_EXPORT_LOST.off] s t ∧
      ∀ f, s.frondEnabled f = true → (t.frond f).pm.secCw = 0 ∧ (t.frond f).pm.secUnc = 0 ∧ (t.frond f).pm.secInner = 0 ∧
        (binBoundary s.pm.anchor 0 (s.tick + 1) = false → (t.frond f).pm.b15 = (s.frond f).pm.b15.take (s.frond f).pm) ∧
        (binBoundary s.pm.anchor 0 (s.tick + 1) = true → (t.frond f).pm.b15 = {} ∧ (t.frond f).pm.start = s.tick + 1))) ∧
  (∀ a b g : Nat, 0 < a → a < b → berGauge a b = g → g < 0xfffe →
    a ^ 5120 * 10 ^ (2 * g - 1) ≤ b ^ 5120 ∧ b ^ 5120 < a ^ 5120 * 10 ^ (2 * g + 1)) ∧
  (∀ a b : Nat, 0 < b → (a = 0 → berGauge a b = 0xffff) ∧ (b ≤ a → berGauge a b = 0)) ∧
  berGauge 1 50 = 4349 ∧ berGauge 1 1000 = 7680

/-- R415, R416, R418, R422: 64 good headers in a row lock a lane and the eighth bad one of 64 loses it; a good round aligns a port whose
lanes are locked, and the third bad one, or a lane that is not locked, ends the alignment; HELLO goes out while the port is aligned and
is taken in; a port goes down without it; the head of the lowest class goes out. -/
def Obligations.MeshPorts : Prop :=
  ∀ (s : State) (p : Fin 6) (l : Fin 4) (errs : Nat) (cdr : Bool) (u : State),
    (s.bump (R.MSH_PORT_ERR_CODE_ERR p.val) errs).wrBit (R.MSH_PORT_STAT_CDR_LOCK p.val) l.val cdr = u →
    (∀ heads : List Bool, cdr = true → s.mlocked p.val l.val = false → heads.length = 64 → (∀ b ∈ heads, b = true) →
      ∃ t : State, exec (.meshBlockLock p l errs heads) s = .next t ∧ t.mlocked p.val l.val = true) ∧
    (∀ n, cdr = true → s.mlocked p.val l.val = false → s.mlane p.val l.val = { good := n } →
      exec (.meshBlockLock p l errs [false]) s = .next (u.setMlane p.val l.val { good := 0 })) ∧
    (∀ r, s.mlocked p.val l.val = true → (s.mlane p.val l.val).recent = r → r.length < 64 → (r.filter id).length = 7 →
      exec (.meshBlockLockLoss p l errs cdr [false]) s = .next ((((u.wrBit (R.MSH_PORT_STAT_BLOCK_LOCK p.val) l.val false).bump
        (R.MSH_PORT_ERR_LOCK_LOSS p.val) 1).setMlane p.val l.val {}).alignLoss p.val)) ∧
    (∀ r, s.mlocked p.val l.val = true → (s.mlane p.val l.val).recent = r → r.length < 64 → (r.filter id).length < 7 →
      exec (.meshBlockLockLoss p l errs cdr [false]) s = .next (u.setMlane p.val l.val { s.mlane p.val l.val with
        recent := r ++ [true] })) ∧
    (∀ o, (∀ k, k < 4 → s.mlocked p.val k = true) →
      (s.maligned p.val = false → roundOk o = true → (∀ k, k < 4 → 1 ≤ (s.mlane p.val k).blocks) → ∃ t : State,
        exec (.meshPortAlign p o) s = .next t ∧ t.maligned p.val = true ∧
        t.rd (R.MSH_PORT_STAT_LANE_MAP p.val) = (o.zipIdx.map fun y => y.1.1 * 4 ^ y.2).sum) ∧
      (s.maligned p.val = false → roundOk o = false → ∃ t : State, exec (.meshPortAlign p o) s = .next t ∧ t.regs = s.regs) ∧
      (s.maligned p.val = true → roundOk o = false → 2 ≤ (s.mport p.val).aMiss → ∃ t : State,
        exec (.meshAlignLoss p o) s = .next t ∧ t.maligned p.val = false ∧ (t.mport p.val).aMiss = 0) ∧
      (s.maligned p.val = true → roundOk o = true → ∃ t : State,
        exec (.meshAlignLoss p o) s = .next t ∧ t.regs = s.regs ∧ (t.mport p.val).aMiss = 0)) ∧
    (∀ o, s.mlocked p.val l.val = false → exec (.meshAlignLoss p o) s = .next (s.alignLoss p.val)) ∧
    (s.maligned p.val = false → exec (.helloSend p) s = .next s) ∧
    (∀ x b, s.flag (R.MSH_PORT_STAT_ENABLED p.val) = true → s.maligned p.val = true → s.mport p.val = x → s.helloPayload p.val = b →
      (x.sentHello ≠ some b ∨ x.sentTick + 160 ≤ s.tick → exec (.helloSend p) s = .next ((s.setMport p.val { x with
        sentHello := some b, sentTick := s.tick }).meshLink p.val 0x01 1 b)) ∧
      (x.sentHello = some b → s.tick < x.sentTick + 160 → exec (.helloSend p) s = .next s)) ∧
    (∀ b t, s.meshTake p.val 0x01 errs b = (t, none) → exec (.hello p errs b) s = .next t) ∧
    (∀ b t m, s.meshTake p.val 0x01 errs b = (t, some m) → ∃ v : State, exec (.hello p errs b) s = .next v ∧
      (v.mport p.val).uid = some (beNat (slice m.payload 0 8)) ∧ (v.mport p.val).epoch = beNat (slice m.payload 10 8) ∧
      (v.mport p.val).flags = beNat (slice m.payload 19 1) ∧ (v.mport p.val).helloTick = some s.tick ∧
      v.rd (R.MSH_PORT_STAT_NBR_ADDR p.val) = beNat (slice m.payload 8 2) % 4096) ∧
    (s.upNow p.val = s.meshUp p.val → exec (.meshHelloTimeout p) s = .next s) ∧
    (∀ n, s.meshUp p.val = true → (s.mport p.val).helloTick = some n → n + 2560 < s.tick →
      ∃ t : State, exec (.meshHelloTimeout p) s = .next t ∧ t.meshUp p.val = false) ∧
    (s.flag (R.MSH_PORT_STAT_ENABLED p.val) = false → exec (.meshMessageTransmit p) s = .next s) ∧
    (∀ c b pre rest, s.flag (R.MSH_PORT_STAT_ENABLED p.val) = true → s.meshUp p.val = true →
      (s.mport p.val).queue = pre ++ (c, b) :: rest → (∀ q ∈ pre, c < q.1) → (∀ q ∈ rest, c ≤ q.1) →
      exec (.meshMessageTransmit p) s = .next ((s.setMport p.val { s.mport p.val with queue := pre ++ rest }).emit (.mesh p.val b)))

/-- R425 to R430, R421: the database is sent on request; a received LSA that is news replaces the entry of its address and is flooded
on, and a repeat changes nothing; the member with the higher UID gives up an address; a member originates its LSA every 160,000 ticks
and an entry expires after 640,000; a module chooses the lowest free address, gives way to a lower UID, and holds the address after
1,600 ticks, READ_ONLY when a neighbour's epoch is higher; routes are computed at most every 160 ticks, within HOP_LIMIT. -/
def Obligations.MeshDatabase : Prop :=
  (∀ (s t : State) (p : Fin 6) (errs : Nat) (b : List Byte) (m : MeshMsg),
    (s.meshTake p.val 0x02 errs b = (t, some m) →
      (t.meshState = 0 ∨ 3 < t.meshState → exec (.dbReq p errs b) s = .next t) ∧
      (1 ≤ t.meshState → t.meshState ≤ 3 → ((t.mport p.val).queue.filter fun q => q.1 == 2).length + t.mesh.db.length ≤ 64 →
        ∃ u : State, exec (.dbReq p errs b) s = .next u ∧ u.regs = t.regs ∧ ∀ a e, (a, some e) ∈ t.mesh.db →
          (2, meshBytes 0x03 t.mesh.hopLimit 0xfff a 0 (lsaPayload a e)) ∈ (u.mport p.val).queue)) ∧
    (∀ a e, s.meshTake p.val 0x03 errs b = (t, some m) → beNat (slice m.payload 0 2) % 4096 = a →
      ({ uid := beNat (slice m.payload 2 8), seq := beNat (slice m.payload 10 4), epoch := beNat (slice m.payload 14 8)
         flags := beNat (slice m.payload 22 1)
         nbrs := (List.range 6).map fun i => beNat (slice m.payload (23 + 2 * i) 2) % 4096, tick := s.tick } : LsaRec) = e →
      (t.dbEntry a = none → e.flags / 128 % 2 = 0 → a ≠ 0 → a ≠ 0xfff → t.meshAddr ≠ a → t.meshState ≠ 1 →
        exec (.lsa p errs b) s = .next ((t.setDb a (some e)).floodOn p.val m)) ∧
      (∀ d, t.dbEntry a = some d → d.uid = e.uid → seqLater e.seq d.seq = false → t.meshAddr ≠ a → t.meshState ≠ 1 →
        exec (.lsa p errs b) s = .next t) ∧
      (∀ d, t.dbEntry a = some d → d.uid = e.uid → seqLater e.seq d.seq = true → e.flags / 128 % 2 = 1 → a ≠ 0 → a ≠ 0xfff →
        exec (.lsa p errs b) s = .next ((t.floodOn p.val m).dropDb a)) ∧
      (∀ d, t.dbEntry a = some d → d.uid = t.fuse.uid → e.uid < t.fuse.uid → e.flags / 128 % 2 = 0 → a ≠ 0 → a ≠ 0xfff →
        t.meshMember = true → t.meshAddr = a → ∃ u : State, exec (.lsa p errs b) s = .next u ∧ u.meshAddr = 0 ∧
        u.meshState = (if t.mesh.addrMode = 1 then 5 else 0) ∧ u.dbEntry a = some e)) ∧
    (∀ uid a, s.meshTake p.val 0x04 errs b = (t, some m) → beNat (slice m.payload 0 8) = uid →
      beNat (slice m.payload 8 2) % 4096 = a →
      (t.meshState = 0 ∨ 3 < t.meshState → exec (.claim p errs b) s = .next t.rxDiscard) ∧
      (∀ v n, 1 ≤ t.meshState → t.meshState ≤ 3 → Tab.get (fun _ => none) t.mesh.claims a = some (v, n) → v ≤ uid → s.tick < n + 1600 →
        exec (.claim p errs b) s = .next t) ∧
      (∀ n, t.meshState = 1 → t.mesh.cand = some (a, n) → uid < t.fuse.uid → t.mesh.addrMode = 0 →
        Tab.get (fun _ => none) t.mesh.claims a = some (t.fuse.uid, n) → exec (.claim p errs b) s = .next
          (((t.modMesh fun x => { x with claims := Tab.set (fun _ => none) x.claims a (some (uid, s.tick)) }).floodOn p.val m).choose
            (s.tick + 1)))) ∧
    (s.meshTake p.val 0x02 errs b = (t, none) → exec (.dbReq p errs b) s = .next t) ∧
    (s.meshTake p.val 0x03 errs b = (t, none) → exec (.lsa p errs b) s = .next t) ∧
    (s.meshTake p.val 0x04 errs b = (t, none) → exec (.claim p errs b) s = .next t)) ∧
  (∀ (s : State),
    (s.meshMember = true → s.mesh.lsaTick + 160000 ≤ s.tick → exec .lsaOriginate s = .next s.originate) ∧
    (s.meshMember = false ∨ s.tick < s.mesh.lsaTick + 160000 → exec .lsaOriginate s = .next s) ∧
    (∀ (a : Fin 4096) e, s.dbEntry a.val = some e → s.meshState ≠ 4 →
      (e.tick + 640000 ≤ s.tick → exec (.lsaExpiry a) s = .next (s.setDb a.val none)) ∧
      (s.tick < e.tick + 640000 → exec (.lsaExpiry a) s = .next s)) ∧
    (∀ n, s.mesh.started = true → s.meshState = 0 → s.mesh.collect = some n → s.tick < n + 3200 → exec .dbCollectEnd s = .next s) ∧
    (∀ n, s.mesh.started = true → s.meshState = 0 → s.mesh.collect = some n → n + 3200 ≤ s.tick →
      (∀ a, s.mesh.addrMode = 0 → s.mesh.addr = 0 → 1 ≤ a → a ≤ 4094 → s.addrFree a = true → s.claimedLower a = false →
        (∀ c, 1 ≤ c → c < a → s.addrFree c = false ∨ s.claimedLower c = true) → exec .dbCollectEnd s = .next (s.claim a s.tick)) ∧
      (∀ e, s.mesh.addrMode = 1 → s.dbEntry s.mesh.addr = some e → e.uid ≠ s.fuse.uid →
        exec .dbCollectEnd s = .next (s.isolateConflict s.mesh.addr e.uid))) ∧
    (∀ a n, s.mesh.cand = some (a, n) → s.meshState = 1 →
      (s.tick < n + 1600 → exec .claimComplete s = .next s) ∧
      (n + 1600 ≤ s.tick → 0 < a → a < 4095 → ∃ t : State, exec .claimComplete s = .next t ∧ t.meshAddr = a ∧
        t.meshState = (if s.peat.epoch < s.nbrEpoch then 3 else 2) ∧ t.mesh.cand = none ∧
        ∃ e, t.dbEntry a = some e ∧ e.uid = s.fuse.uid ∧ e.epoch = s.peat.epoch)) ∧
    (s.mesh.dbChanged = false → exec .routeCompute s = .next s) ∧
    (∀ n, s.mesh.routeTick = some n → s.tick < n + 160 → exec .routeCompute s = .next s) ∧
    (s.mesh.dbChanged = true → (∀ n, s.mesh.routeTick = some n → n + 160 ≤ s.tick) → exec .routeCompute s = .next
      (s.modMesh fun x => { x with routes := s.routeTable, routeTick := some s.tick, dbChanged := false })) ∧
    (∀ d k q, (d, some (k, q)) ∈ s.routeTable → 1 ≤ k ∧ k ≤ s.mesh.hopLimit ∧ q < 6 ∧ s.meshUp q = true ∧ d ≠ s.meshAddr))

/-- R302, R423, R432, R433, R435, R436, R441: a message for this module is delivered with its event; one for another address is
forwarded with HOPS reduced by one, or counted when its hops are spent; the mesh descriptors set up the ports and the settings, the
allow table, send a REMOTE_CMD and read the database. -/
def Obligations.MeshMessages : Prop :=
  (∀ (s t : State) (p : Fin 6) (errs : Nat) (b : List Byte) (m : MeshMsg), t.meshMember = true →
    (∀ c ∈ ([(.remoteCpl p errs b, 0x21), (.keyRollMessage p errs b, 0x10), (.protState p errs b, 0x11),
        (.faultReport p errs b, 0x12)] : List (Instr × Nat)), s.meshTake p.val c.2 errs b = (t, some m) → m.dst ≠ 0xfff →
      m.dst ≠ t.meshAddr →
      (m.hops ≤ 1 → exec c.1 s = .next (t.bump R.MSH_CNT_HOP_DROP 1)) ∧
      (∀ k q, 1 < m.hops → Tab.get (fun _ => none) t.mesh.routes m.dst = some (k, q) → exec c.1 s = .next
        (t.meshQueue q (meshClass m.typ) (meshBytes m.typ (m.hops - 1) m.dst m.src m.mseq m.payload))) ∧
      (1 < m.hops → Tab.get (fun _ => none) t.mesh.routes m.dst = none → exec c.1 s = .next (t.noRoute m.dst))) ∧
    (m.dst = t.meshAddr → m.dst ≠ 0xfff →
      (s.meshTake p.val 0x21 errs b = (t, some m) →
        exec (.remoteCpl p errs b) s = .next (t.raise 0x1007 m.src [.raw (slice m.payload 0 32)])) ∧
      (s.meshTake p.val 0x11 errs b = (t, some m) → exec (.protState p errs b) s = .next (t.raise 0x1008 m.src
        [.w (fieldAt m.payload 0 2), .raw (slice m.payload 16 36)])) ∧
      (s.meshTake p.val 0x12 errs b = (t, some m) →
        exec (.faultReport p errs b) s = .next (t.raise 0x1009 m.src [.raw (slice m.payload 0 16)])) ∧
      (s.meshTake p.val 0x10 errs b = (t, some m) → t.twinState ≠ 2 → exec (.keyRollMessage p errs b) s = .next (t.raise 0x0a06 m.src
        [.w (beNat (slice m.payload 0 2) % 16384), .w (beNat (slice m.payload 4 4)), .q (beNat (slice m.payload 8 8))]))) ∧
    (∀ k, m.dst = 0xfff → s.meshTake p.val 0x12 errs b = (t, some m) →
      (Tab.get (fun _ => none) t.mesh.routes m.src = some (k, p.val) → m.hops ≤ 1 →
        exec (.faultReport p errs b) s = .next (t.raise 0x1009 m.src [.raw (slice m.payload 0 16)])) ∧
      (Tab.get (fun _ => none) t.mesh.routes m.src = none → exec (.faultReport p errs b) s = .next t))) ∧
  (∀ (s : State) (h : ReqHdr) (mem : HostMem), h.isPf →
    (∀ (ports mode addr hop : Nat) (remote serve : Bool) (sev fdst pdst : Nat), ports < 64 → mode < 2 → addr < 4096 → 0 < hop →
      hop < 256 → sev < 8 → fdst < 4096 → pdst < 4096 → mode = 0 ∨ (addr ≠ 0 ∧ addr ≠ 0xfff) →
      s.mesh.addrMode = mode → s.mesh.addr = addr → ∃ t : State,
      exec (.mshSetup h mem ports mode addr hop remote serve sev fdst pdst) s = .next (t.complete (doneOk h s 0x70 0)) ∧
      t.mesh.hopLimit = hop ∧ t.mesh.remoteEn = remote ∧ t.mesh.cfgServe = serve ∧ t.mesh.faultSev = sev ∧ t.mesh.faultDst = fdst ∧
      t.mesh.protDst = pdst ∧ t.meshState = s.meshState ∧ t.meshAddr = s.meshAddr ∧
      ∀ k, k < 6 → t.flag (R.MSH_PORT_STAT_ENABLED k) = (ports / 2 ^ k % 2 == 1)) ∧
    (∀ allow : List Nat, allow.length = 16 → (∀ a ∈ allow, a < 0xfff) →
      exec (.mshRemote h mem allow) s = .next ((s.modMesh fun x => { x with allow := allow }).complete (doneOk h s 0x71 0))) ∧
    (∀ dst len addr b k q, addr % 64 = 0 → readHost mem addr len = some b → remoteLayoutOk b = true → 0 < dst → dst < 0xfff →
      dst ≠ s.meshAddr → s.meshState = 2 → Tab.get (fun _ => none) s.mesh.routes dst = some (k, q) →
      ((s.mport q).queue.filter fun x => x.1 == 3).length < 64 → exec (.mshSend h mem dst len addr) s = .next
        ((((s.modMesh fun x => { x with mseq := (x.mseq + 1) % 65536 }).meshQueue q 3
          (meshBytes 0x20 s.mesh.hopLimit dst s.meshAddr s.mesh.mseq b))).complete (doneOk h s 0x72 0))) ∧
    (∀ buf, buf % 64 = 0 → s.readFits s.dbBytes.length → exec (.mshDbRead h mem buf) s = .next (readOk h s 0x73 buf s.dbBytes)))

/-- R384 to R388, R391, R394, R395, R400, R403 to R405, Tables TIM-1, TIM-4, TIM-7: what a candidate's absence, a measurement window, a
timing report, a detector reading, an edge and a time-of-day message change: a candidate becomes absent, qualified or disqualified; a
DPLL becomes LOCKED after 1,600,000 ticks within 20 ns and loses lock after 160,000 outside 200 ns; holdover out of specification; the
stamp of an edge; PPS_OUT and the resumption of an output. -/
def Obligations.TimingEvents : Prop :=
  ∀ (s : State),
    (∀ src : Fin 128, (s.cand src.val).since = none → exec (.candidateAbsent src) s = .next s) ∧
    (∀ src : Fin 128, src.val < 0x48 → s.candPresent src.val = true → exec (.candidateAbsent src) s = .next s) ∧
    (∀ (src : Fin 128) n, (s.cand src.val).since = some n →
      (src.val < 0x48 ∧ s.candPresent src.val = false) ∨ (0x48 ≤ src.val ∧ src.val ≤ 0x4d) →
      ∃ t : State, exec (.candidateAbsent src) s = .next t ∧ t.cand src.val = { s.cand src.val with
        since := none, offset := none, qual := false, disq := true } ∧ ∀ k, k ≠ src.val → t.cand k = s.cand k) ∧
    (∀ obs, s.tick % 160000 ≠ 159999 → exec (.measurementWindowEnd obs) s = .next s) ∧
    (∀ src (off : Int) n p c, s.tick % 160000 = 159999 → sourceIds.contains src = true → s.cand src = c → c.since = some p →
      p + 160000 ≤ s.tick + 1 →
      (c.qual = true → 12000 < off.natAbs → ∃ t : State, exec (.measurementWindowEnd [(src, off, n)]) s = .next t ∧
        t.cand src = { c with offset := some off, qual := false, disq := true } ∧
        t.host.events = s.host.events ++ [eventOf s 0x0f02 src [.w 1]]) ∧
      (c.qual = true → off.natAbs ≤ 12000 → ∃ t : State, exec (.measurementWindowEnd [(src, off, n)]) s = .next t ∧
        t.cand src = { c with offset := some off } ∧ t.host = s.host) ∧
      (c.qual = false → off.natAbs ≤ 10000 → s.meshBar src = none → c.disq = false ∨ p + 160000 * s.tim.wtr ≤ s.tick + 1 →
        ∃ t : State, exec (.measurementWindowEnd [(src, off, n)]) s = .next t ∧
        t.cand src = { c with offset := some off, qual := true } ∧ t.host.events = s.host.events ++ [eventOf s 0x0f01 src])) ∧
    (∀ (d : Fin 4) (err fofs : Int), s.rd (R.TIM_DPLL_STAT_STATE d.val) ≠ 1 → exec (.dpllLocked d err fofs) s = .next s) ∧
    (∀ (d : Fin 4) (err fofs : Int), s.rd (R.TIM_DPLL_STAT_STATE d.val) ≠ 2 → exec (.dpllLockLost d err fofs) s = .next s) ∧
    (∀ (d : Fin 4) (err fofs : Int) n, 0 < s.tick → s.ppsSelected d.val = false →
      (s.rd (R.TIM_DPLL_STAT_STATE d.val) = 1 → (s.dpll d.val).inRun = ⟨n, s.tick - 1⟩ →
        (1599999 ≤ n → err.natAbs ≤ 200 → ∃ t : State, exec (.dpllLocked d err fofs) s = .next t ∧
          t.rd (R.TIM_DPLL_STAT_STATE d.val) = 2 ∧ (t.dpll d.val).lockedAt = some s.tick ∧
          t.host.events = s.host.events ++ [eventOf s 0x0f04 d.val [.w 2]]) ∧
        (200 < err.natAbs → ∃ t : State, exec (.dpllLocked d err fofs) s = .next t ∧ t.rd (R.TIM_DPLL_STAT_STATE d.val) = 1 ∧
          (t.dpll d.val).inRun.n = 0 ∧ t.host = s.host)) ∧
      (s.rd (R.TIM_DPLL_STAT_STATE d.val) = 2 → (s.dpll d.val).outRun = ⟨n, s.tick - 1⟩ → 159999 ≤ n → 2000 < err.natAbs →
        ∃ t : State, exec (.dpllLockLost d err fofs) s = .next t ∧ t.rd (R.TIM_DPLL_STAT_STATE d.val) = 1 ∧
        (t.dpll d.val).lockedAt = none ∧ t.host.events = s.host.events ++ [eventOf s 0x0f04 d.val [.w 1]])) ∧
    (∀ d : Fin 4, s.rd (R.TIM_DPLL_STAT_STATE d.val) ≠ 3 → exec (.holdoverOos d) s = .next s) ∧
    (∀ (d : Fin 4) n, s.rd (R.TIM_DPLL_STAT_STATE d.val) = 3 → (s.tick - (s.dpll d.val).hoTick) / 160000 = n →
      (s.dpll d.val).hoSpec ≤ n → s.flag (R.TIM_DPLL_STAT_HO_OOS d.val) = false →
      exec (.holdoverOos d) s = .next (((s.wr (R.TIM_DPLL_HOTIME_HOTIME d.val) n).wrB (R.TIM_DPLL_STAT_HO_OOS d.val) true).raise
        0x0f05 d.val [.w n])) ∧
    (∀ b, natBe 1 (s.rd (R.TIM_DPLL_STAT_STATE 0)) ++ natBe 1 s.timDepth ++ natBe 2 s.timFollowed = b →
      exec .timingReportSend s = .next (s.upPorts.foldl (fun s p => s.meshLink p 0x05 1 b) s)) ∧
    (∀ (p : Fin 6) a b c, s.meshUp p.val = false → exec (.timingReport p a b c) s = .next s) ∧
    (∀ (p : Fin 6) (state depth followed : Nat) x, s.meshUp p.val = true → s.cand (0x40 + p.val) = x →
      (x.qual = false → ∃ t : State, exec (.timingReport p state depth followed) s = .next t ∧ t.host = s.host ∧
        t.cand (0x40 + p.val) = { x with rptTick := some s.tick, rptState := state, rptDepth := depth, rptFollowed := followed }) ∧
      (x.qual = true → followed = s.meshAddr → followed ≠ 0 → ∃ t : State,
        exec (.timingReport p state depth followed) s = .next t ∧ (t.cand (0x40 + p.val)).qual = false ∧
        t.host.events = s.host.events ++ [eventOf s 0x0f02 (0x40 + p.val) [.w 2]])) ∧
    (∀ (i : Fin 2) (cycle : Fin 10000), (s.timInput (4 + i.val)).enable = false → exec (.ppsEdgeStamp i cycle) s = .next s) ∧
    (∀ (i : Fin 2) (cycle : Fin 10000), (s.timInput (4 + i.val)).enable = true → (s.timInput (4 + i.val)).delay = 0 → ∃ t : State,
      exec (.ppsEdgeStamp i cycle) s = .next t ∧ t.rd (R.TIM_PPS_EDGE_LO_TICK_LO i.val) = s.tick % 2 ^ 32 ∧
      t.rd (R.TIM_PPS_EDGE_HI_TICK_HI i.val) = s.tick / 2 ^ 32 % 2 ^ 32 ∧ t.rd (R.TIM_PPS_POS_CYCLE i.val) = cycle.val ∧
      t.flag (R.TIM_PPS_POS_VALID i.val) = true ∧ Tab.get (fun _ => none) t.tim.lastEdge i.val = some s.tick) ∧
    (∀ (i : Fin 2) b, todParse b (s.tod i.val).leapDay = none →
      exec (.todMessage i b) s = .next (s.bump R.TIM_TOD_STAT_REJECT 1)) ∧
    (∀ (i : Fin 2) b x e, todParse b (s.tod i.val).leapDay = some x → Tab.get (fun _ => none) s.tim.lastEdge i.val = some e →
      (e + 16000 ≤ s.tick → s.tick ≤ e + 152000 → x.flags / 2 % 2 = 0 →
        exec (.todMessage i b) s = .next (s.setTod i.val { s.tod i.val with next := some x })) ∧
      (s.tick < e + 16000 ∨ e + 152000 < s.tick → exec (.todMessage i b) s = .next (s.bump R.TIM_TOD_STAT_REJECT 1))) ∧
    (∀ (k : Fin 8) n, (s.timOut k.val).heldTo = some n → (s.tick < n → exec (.outputChangeResume k) s = .next s) ∧
      (n ≤ s.tick → exec (.outputChangeResume k) s = .next (s.modTim fun x => { x with
        outs := Tab.set (fun _ => {}) x.outs k.val { s.timOut k.val with heldTo := none } }))) ∧
    (∀ k : Fin 8, (s.timOut k.val).heldTo = none → exec (.outputChangeResume k) s = .next s) ∧
    (s.tim.ppsMode = 0 → ∃ t : State, exec .ppsOutPulse s = .next t ∧ t.out = s.out) ∧
    (∀ target, s.tim.ppsMode ≠ 0 → s.tim.ppsTarget = target → target < 160000 → s.tim.ppsLast = none →
      (s.tim.ppsStep = true → s.tick % 160000 = target → ∃ t : State, exec .ppsOutPulse s = .next t ∧
        t.out = s.out ++ [.ppsOut s.tick] ∧ t.rd R.TIM_PPSOUT_POSITION = target ∧ t.flag R.TIM_PPSOUT_AT_TARGET = true) ∧
      (s.tim.ppsStep = false → s.tick % 160000 = s.rd R.TIM_PPSOUT_POSITION → s.rd R.TIM_PPSOUT_POSITION < target →
        target < s.rd R.TIM_PPSOUT_POSITION + 80000 → ∃ t : State, exec .ppsOutPulse s = .next t ∧
        t.out = s.out ++ [.ppsOut s.tick] ∧ t.rd R.TIM_PPSOUT_POSITION = s.rd R.TIM_PPSOUT_POSITION + 1) ∧
      (s.tim.ppsStep = false → s.tick % 160000 ≠ s.rd R.TIM_PPSOUT_POSITION → ∃ t : State, exec .ppsOutPulse s = .next t ∧
        t.out = s.out))

/-- Table TIM-8, R389, R400, R408: the timing descriptors: an input newly enabled is present afresh; a priority table that R389 admits
and the wait time are entered; a DPLL's mode, forced entry and bandwidths; an output whose frequency or source changes is held static
for two ticks; the source of the time of day; the twin relationship is set up with the module on MP5 and removed. -/
def Obligations.TimingCommands : Prop :=
  ∀ (s : State) (h : ReqHdr) (mem : HostMem), h.isPf →
    (∀ input code (delay : Int), input < 6 → (if input < 4 then 1 ≤ code ∧ code ≤ 5 else code ≤ 1) → -(2 ^ 31) ≤ delay → delay < 2 ^ 31 →
      exec (.timInput h mem input false code delay) s = .next ((s.modTim fun x => { x with
        inputs := Tab.set (fun _ => {}) x.inputs input { enable := false, code := code, delay := if input < 4 then 0 else delay }
      }).complete (doneOk h s 0x60 0)) ∧
      ((s.timInput input).enable = false → ∃ t : State,
        exec (.timInput h mem input true code delay) s = .next (t.complete (doneOk h s 0x60 0)) ∧
        t.cand (0x48 + input) = { since := some s.tick } ∧
        t.timInput input = { enable := true, code := code, delay := if input < 4 then 0 else delay })) ∧
    (∀ wtr addr b l, addr % 64 = 0 → readHost mem addr 64 = some b → wtr ≤ 720 → prioImage b = l → prioOk l = true → s.forcedOk l = true →
      (∀ e ∈ l, prioOf e ≠ 0 → prioSource e < 48 → s.frondEnabled (prioSource e) = true) →
      exec (.timPrio h mem wtr addr) s = .next ((s.modTim fun x => { x with wtr := wtr, prio := l }).complete (doneOk h s 0x61 0))) ∧
    (∀ wtr addr b l, addr % 64 = 0 → readHost mem addr 64 = some b → prioImage b = l → prioOk l = false →
      exec (.timPrio h mem wtr addr) s = .next (s.complete (doneRefused h s 0x61 St.format 0))) ∧
    (∀ d mode force bw spec (revert : Bool), d < 4 → mode < 4 → force < 16 → bwOk bw = true → spec < 2 ^ 24 →
      mode ≠ 1 ∨ prioMask (s.tim.prio.getD force 0) d = true →
      exec (.timDpll h mem d mode force revert bw spec) s = .next ((s.setDpll d { s.dpll d with
        mode := mode, force := force, revert := revert, bw := bw, hoSpec := spec }).complete (doneOk h s 0x62 0))) ∧
    (∀ output freq src sq mode phase (step : Bool), output < 10 → freq < 8 → src < 4 → sq < 4 → mode < 3 → phase < 160000 → ∃ t : State,
      exec (.timOutput h mem output freq src sq mode step phase) s = .next (t.complete (doneOk h s 0x63 0)) ∧
      (t.timOut output).freq = freq ∧ (t.timOut output).src = src ∧ (t.timOut output).sq = sq ∧
      (∀ k, k ≠ output → t.timOut k = s.timOut k) ∧
      (output < 8 → (s.timOut output).freq ≠ freq ∨ (s.timOut output).src ≠ src →
        (t.timOut output).heldTo = some (s.tick + 2) ∧ t.clkRuns output = false)) ∧
    (∀ freq src sq mode phase (step : Bool), freq < 8 → src < 4 → sq < 4 → mode < 3 → phase < 160000 →
      exec (.timOutput h mem 10 freq src sq mode step phase) s = .next ((s.modTim fun x => { x with
        ppsMode := mode, ppsStep := step, ppsTarget := if mode = 1 then phase else x.ppsTarget }).complete (doneOk h s 0x63 0))) ∧
    (∀ src (step : Bool), src < 4 → exec (.timTod h mem src step) s = .next ((s.modTim fun x => { x with
      todSrc := src, todStep := step }).todStat.complete (doneOk h s 0x65 0))) ∧
    (∀ lead peer lanes, lead < 3 → peer < 4096 → s.meshUp 5 = true → s.rd (R.MSH_PORT_STAT_NBR_ADDR 5) = peer →
      s.tim.twin.on = false → exec (.timTwinSetup h mem lead peer lanes) s = .next (((s.modTwin fun _ => {
        on := true, uid := (s.mport 5).uid.getD 0, peer := peer, lanes := lanes }).wrB R.TIM_TWIN_LEAD
          (lead == 1 || (lead == 0 && decide (s.meshAddr < peer)))).complete (doneOk h s 0x64 0))) ∧
    (∀ lead peer lanes, lead < 3 → peer < 4096 → s.meshUp 5 = true → s.rd (R.MSH_PORT_STAT_NBR_ADDR 5) = peer →
      s.tim.twin.on = true → exec (.timTwinSetup h mem lead peer lanes) s = .next (s.complete (doneRefused h s 0x64 St.slotBusy 0))) ∧
    (∀ lead peer lanes, lead < 3 → peer < 4096 → ∃ t : State,
      exec (.timTwinRemove h mem lead peer lanes) s = .next (t.complete (doneOk h s 0x64 0)) ∧ t.tim.twin.on = false ∧
      t.twinState = 0 ∧ t.twinLead = false ∧ t.rd R.TIM_TWIN_OFFSET = 0)

/-- R51, R437 to R439, R398, R399, Table TCK-7: the timing slot of the lead twin and of the follower; a phase report and a probe measure
the round trip and the offset and begin ALIGNING; egress records are sent by the lead twin and kept by the follower while they are of
use; ALIGNED after 160 good ticks, LAPSED after 4 ticks above 100 ns or 8 records missed, ALIGNING again after 1,600 ticks; the steering
limit. -/
def Obligations.TwinCommands : Prop :=
  ∀ (s : State) (w : TwinSt), s.tim.twin = w →
    (w.on = false ∨ s.twinLead = false ∨ s.meshUp 5 = false → exec .twinPhaseSend s = .next s ∧ exec .twinEgressSend s = .next s) ∧
    (w.on = false ∨ s.twinLead = true ∨ s.meshUp 5 = false → exec .twinProbeSend s = .next s) ∧
    (w.on = true → s.twinLead = true → s.meshUp 5 = true →
      (∀ p t a, w.gotProbe = some (p, t, a) → t + 1 = s.tick → ∃ o, 8192 ≤ o ∧ o < 8213 ∧ exec .twinPhaseSend s = .next
        (({ s with freeCtr := s.freeCtr + 1 } : State).meshLink 5 0x06 0 (natBe 8 s.tick ++ natBe 4 o ++ natBe 8 p ++ natBe 8 t ++
          natBe 4 a))) ∧
      (w.gotProbe = none → ∃ o, 8192 ≤ o ∧ o < 8213 ∧ exec .twinPhaseSend s = .next
        (({ s with freeCtr := s.freeCtr + 1 } : State).meshLink 5 0x06 0 (natBe 8 s.tick ++ natBe 4 o ++ List.replicate 8 0xff ++
          List.replicate 12 0))) ∧
      (s.twinRecords (s.tick + 3) = [] → exec .twinEgressSend s = .next s) ∧
      (∀ l, s.twinRecords (s.tick + 3) = l → l ≠ [] → l.length ≤ 85 → exec .twinEgressSend s = .next
        (s.meshLink 5 0x08 0 (natBe 2 l.length ++ [0, 0] ++ l.flatMap TwinRec.bytes)))) ∧
    (w.on = true → s.twinLead = false → s.meshUp 5 = true → ∃ o, 8192 ≤ o ∧ o < 8213 ∧ exec .twinProbeSend s = .next
      ((({ s with freeCtr := s.freeCtr + 1 } : State).modTwin fun x => { x with probe := some (s.tick, o) }).meshLink 5 0x07 0
        (natBe 8 s.tick ++ natBe 4 o))) ∧
    (w.on = false ∨ s.twinLead = true ∨ s.mp5Up = false →
      (∀ a b c d, exec (.twinPhase a b c d) s = .next s) ∧ ∀ l, exec (.twinEgress l) s = .next s) ∧
    (w.on = false ∨ s.twinLead = false ∨ s.mp5Up = false → ∀ a b c, exec (.twinProbe a b c) s = .next s) ∧
    (∀ (lead ofs p pt po qo : Nat) (arr : Fin 160000) (o here r : Int), w.on = true → s.twinLead = false → s.mp5Up = true →
      w.probe = some (p, qo) → w.offset = some o → here = s.tick * 160000 + arr.val →
      r = (here - (p * 160000 + qo)) - ((lead * 160000 + ofs) - (pt * 160000 + po)) → s.twinState ≠ 0 →
      ∃ t : State, exec (.twinPhase lead ofs (some (p, pt, po)) arr) s = .next t ∧ t.tim.twin.rtt = some r ∧ t.tim.twin.offset = some o ∧
        t.tim.twin.sub = 2 * (here - ofs) - r - 320000 * (lead - o) ∧ t.tim.twin.subTick = some s.tick ∧ t.twinState = s.twinState) ∧
    (∀ (tick ofs : Nat) (arr : Fin 160000), w.on = true → s.twinLead = true → s.mp5Up = true →
      (∀ o, w.offset = some o → exec (.twinProbe tick ofs arr) s = .next (s.modTwin fun x => { x with
        gotProbe := some (tick, s.tick, arr.val) })) ∧
      (w.offset = none → ∃ (t : State) (own : Int), exec (.twinProbe tick ofs arr) s = .next t ∧ t.twinState = 1 ∧
        t.tim.twin.offset = some (own - tick) ∧ 2 * (s.tick * 160000 + arr.val - ofs - 160000 * own) ≤ 160000 ∧
        -160000 ≤ 2 * (s.tick * 160000 + arr.val - ofs - 160000 * own : Int))) ∧
    (∀ (r : TwinRec) (e : Nat) (o : Int), w.on = true → s.twinLead = false → s.mp5Up = true → w.offset = some o →
      s.ownEgress r.egress = e → s.twinLane r.lane = true →
      (s.tick + 2 ≤ e → exec (.twinEgress [r]) s = .next (s.modTwin fun x => { x with
        recs := Tab.set (fun _ => none) x.recs (e * 512 + r.lane) (some r) })) ∧
      (e < s.tick + 2 → exec (.twinEgress [r]) s = .next s)) ∧
    (w.lookTick = some s.tick →
      (s.twinState = 1 ∨ s.twinState = 3 → 160 ≤ w.goodRun.n →
        exec .twinAligned s = .next ((s.wr R.TIM_TWIN_STATE 2).raise 0x0b03 0)) ∧
      (w.goodRun.n < 160 → exec .twinAligned s = .next s) ∧
      (s.twinState = 2 → 4 ≤ w.farRun.n → exec .twinLapsed s = .next (((s.modTwin fun x => { x with
        lapsedAt := s.tick, goodRun := {} }).wr R.TIM_TWIN_STATE 3).raise 0x0b04 0 [.w 0])) ∧
      (∀ l, s.twinState = 2 → w.farRun.n < 4 → w.missed = [(l, 8)] → exec .twinLapsed s = .next (((s.modTwin fun x => { x with
        lapsedAt := s.tick, goodRun := {} }).wr R.TIM_TWIN_STATE 3).raise 0x0b04 0 [.w 1])) ∧
      (w.farRun.n < 4 → (∀ q ∈ w.missed, q.2 < 8) → exec .twinLapsed s = .next s)) ∧
    (∀ n, w.on = true → s.twinLead = false → w.lookTick ≠ some s.tick → w.lanes = 0 → w.subTick = some n → s.twinNear = true →
      s.mp5Up = true → s.twinState = 1 → w.goodRun = ⟨159, s.tick - 1⟩ → 0 < s.tick → ∃ t : State,
      exec .twinAligned s = .next t ∧ t.twinState = 2 ∧ t.host.events = s.host.events ++ [eventOf s 0x0b03 0]) ∧
    (s.twinState = 3 → w.lapsedAt + 1600 ≤ s.tick → ∃ t : State, exec .twinRealign s = .next t ∧ t.twinState = 1) ∧
    (s.twinState ≠ 3 ∨ s.tick < w.lapsedAt + 1600 → exec .twinRealign s = .next s) ∧
    (w.on = false ∨ s.twinLead = true → ∀ ppb, exec (.twinSteerLimit ppb) s = .next s) ∧
    (∀ ppb : Int, w.on = true → s.twinLead = false → w.subTick = some s.tick → s.twinState = 2 → w.limitRun = ⟨159, s.tick - 1⟩ →
      0 < s.tick → 2000 ≤ ppb → exec (.twinSteerLimit ppb) s = .next ((s.modTwin fun x => { x with
        limitRun := ⟨160, s.tick⟩, psi := x.psi + 2000 }).raise 0x0f09 0 [.s 2000])) ∧
    (∀ ppb : Int, w.on = true → s.twinLead = false → w.subTick = some s.tick → s.twinState = 2 → -2000 < ppb → ppb < 2000 →
      exec (.twinSteerLimit ppb) s = .next (s.modTwin fun x => { x with limitRun := ⟨0, s.tick⟩, psi := x.psi + ppb }))

/-- R504, R508 to R511, R513, R518, R519, Table UPD-9: the update descriptors: the sources accepted; a package begins and is erased for;
a Spore joins the staging queue or counts as a duplicate; an abort leaves IDLE; an activation is scheduled; a package is relayed; the
status is read and its counts begin again; the settings are stored. -/
def Obligations.UpdateCommands : Prop :=
  ∀ (s : State) (h : ReqHdr) (mem : HostMem), h.isPf →
    (∀ host gcc, exec (.updConfig h mem host gcc) s = .next ((s.modUpd fun x => { x with acceptHost := host, acceptGcc := gcc }).complete
      (doneOk h s 0xc0 0))) ∧
    (∀ pkg total, 10 ≤ total → total ≤ 16384 →
      (s.upd.state = 0 ∨ s.upd.state = 5 → ∃ t : State, exec (.updBegin h mem pkg total) s = .next (t.complete (doneOk h s 0xc1 0)) ∧
        t.upd.state = 1 ∧ t.upd.pkg = pkg ∧ t.upd.total = total ∧ t.upd.bitmap = 0 ∧ t.upd.received = 0 ∧ t.upd.flash = s.upd.flash) ∧
      (s.upd.sameBegin pkg total = true → exec (.updBegin h mem pkg total) s = .next (s.complete (doneOk h s 0xc1 0))) ∧
      (s.upd.state = 3 ∨ s.upd.state = 4 ∨ 6 ≤ s.upd.state →
        exec (.updBegin h mem pkg total) s = .next (s.complete (doneRefused h s 0xc1 St.slotBusy 0)))) ∧
    (∀ addr b i, addr % 4 = 0 → readHost mem addr 4160 = some b → sporeOwn b = none → s.upd.acceptHost = true → s.upd.state = 2 →
      s.upd.otherPackage b = false → fieldAt b 12 4 = i →
      (s.upd.bitmap.testBit i = true → exec (.updSpore h mem addr) s = .next ((s.modUpd fun x => { x with
        dups := min 65535 (x.dups + 1) }).complete (doneOk h s 0xc2 0))) ∧
      (s.upd.bitmap.testBit i = false → s.upd.queue.length < 64 → exec (.updSpore h mem addr) s = .next ((s.modUpd fun x => { x with
        queue := x.queue ++ [(i, slice b 64 4096)] }).complete (doneOk h s 0xc2 0)))) ∧
    (s.upd.state = 0 → exec (.updAbort h mem) s = .next (s.complete (doneOk h s 0xc3 0))) ∧
    (s.upd.state = 7 → exec (.updAbort h mem) s = .next (s.complete (doneRefused h s 0xc3 St.slotBusy 0))) ∧
    (s.upd.state ≠ 0 → s.upd.state ≠ 7 → ∃ t : State, exec (.updAbort h mem) s = .next (t.complete (doneOk h s 0xc3 0)) ∧
      t.upd.state = 0 ∧ t.upd.total = 0 ∧ t.upd.bitmap = 0 ∧ t.upd.queue = [] ∧ t.upd.flash = s.upd.flash ∧ t.upd.run = s.upd.run) ∧
    (∀ a, s.upd.state = 4 →
      (s.tick + 160000 ≤ a → a ≤ s.tick + 16000000 → ∃ t : State,
        exec (.updActivate h mem a) s = .next (t.complete (doneOk h s 0xc4 0)) ∧ t.upd.state = 6 ∧ t.upd.actTick = a ∧
        t.upd.run = s.upd.run) ∧
      (a < s.tick + 160000 ∨ s.tick + 16000000 < a →
        exec (.updActivate h mem a) s = .next (s.complete (doneRefused h s 0xc4 St.schedule 0)))) ∧
    (∀ f source first k total, s.frondEnabled f = true → f < 48 → source < 2 → s.relaySource source = (k, total) → first < total →
      (source = 0 → s.upd.state = 4) → s.relaying f = false →
      (∀ pkg, s.lineRun f = true → fieldAt (s.manifest k) 8 8 = pkg →
        exec (.updRelay h mem f source first) s = .next ((s.modSlf f fun x => { x with
          gccFw := x.gccFw ++ (List.range (total - first)).map fun i => ⟨2, sporeBytes pkg (first + i) total (s.upd.page k (first + i))⟩
        }).complete (doneOk h s 0xc5 0))) ∧
      (s.lineRun f = false → exec (.updRelay h mem f source first) s = .next (s.complete (doneOk h s 0xc5 0)))) ∧
    (∀ buf, buf % 64 = 0 → s.readFits 64 → exec (.updStatus h mem buf) s = .next (readOk h (s.modUpd fun x => { x with
      dups := 0, rejects := 0 }) 0xc6 buf s.updStatus)) ∧
    (∀ copy addr len, copy < 2 → 64 ≤ len → len ≤ 16777216 → addr % 64 = 0 → s.upd.state < 6 → s.upd.store = none →
      exec (.settingsStore h mem copy addr len) s = .next ((s.modUpd fun x => { x with
        store := some ⟨copy, addr, len⟩, copies := Tab.set (fun _ => none) x.copies copy none }).complete (doneOk h s 0xc7 0)))

/-- R508 to R519, Table SEC-3: the erased staging slot; a Spore programmed and the last one; Spores and acknowledgements over the GCC;
the end of verification; the preload, the switch at A, the reports of the trial and its time; the anti-rollback fuses after a commit: a
package below the fuse count is never staged. -/
def Obligations.UpdateEvents : Prop :=
  ∀ (s : State),
    (s.upd.state ≠ 1 → exec .updEraseDone s = .next s) ∧
    (s.upd.state = 1 → ∃ t : State, exec .updEraseDone s = .next t ∧ t.upd.state = 2 ∧
      (∀ p, p < 16384 → t.upd.page s.upd.staging p = erasedPage ∧ t.upd.page (1 - s.upd.staging) p = s.upd.page (1 - s.upd.staging) p)) ∧
    (s.upd.queue = [] → exec (.sporeProgrammed true) s = .next s) ∧
    (∀ i body rest, s.upd.queue = (i, body) :: rest → s.upd.state = 2 → i < 16384 →
      (∃ t : State, exec (.sporeProgrammed false) s = .next t ∧ t.upd.state = 5 ∧ t.upd.reason = 9 ∧ t.upd.flash = s.upd.flash) ∧
      (s.upd.bitmap.testBit i = false → s.upd.received + 1 < s.upd.total → ∃ t : State, exec (.sporeProgrammed true) s = .next t ∧
        t.upd.state = 2 ∧ t.upd.queue = rest ∧ t.upd.received = s.upd.received + 1 ∧ t.upd.page s.upd.staging i = body ∧
        (∀ j, t.upd.bitmap.testBit j = (s.upd.bitmap.testBit j || decide (j = i)))) ∧
      (s.upd.bitmap.testBit i = false → s.upd.received + 1 = s.upd.total → ∃ t : State, exec (.sporeProgrammed true) s = .next t ∧
        t.upd.state = 3 ∧ t.upd.page s.upd.staging i = body)) ∧
    (∀ f : Fin 48, (s.frond f.val).slf.gccFwRx = [] → exec (.sporeFrame f) s = .next s ∧ exec (.sporeAck f) s = .next s) ∧
    (∀ (f : Fin 48) b rest u, (s.frond f.val).slf.gccFwRx = ⟨2, b⟩ :: rest →
      (s.modSlf f.val fun x => { x with gccFwRx := rest }) = u →
      (s.upd.acceptGcc = true → b.length = 4160 → sporeOwn b = none → s.upd.state = 2 → s.upd.otherPackage b = false →
        s.upd.queue.length < 64 → exec (.sporeFrame f) s = .next (u.modUpd fun x => { x.takeSpore b with ackFrond := some f.val })) ∧
      (s.upd.acceptGcc = false → b.length = 4160 →
        exec (.sporeFrame f) s = .next (u.sporeReject 1 (fieldAt b 12 4) (1 + 2 ^ 8 * f.val)))) ∧
    (∀ (f : Fin 48) b rest u, (s.frond f.val).slf.gccFwRx = ⟨3, b⟩ :: rest → b.length = 24 →
      (s.modSlf f.val fun x => { x with gccFwRx := rest }) = u → Tab.get (fun _ => none) s.upd.peerTick f.val = none →
      exec (.sporeAck f) s = .next ((u.modUpd fun x => { x with
        peerTick := Tab.set (fun _ => none) x.peerTick f.val (some s.tick) }).raise 0x1403 f.val [.raw b])) ∧
    (s.upd.ackFrond = none → exec .sporeAckSend s = .next s) ∧
    (∀ f, s.upd.ackFrond = some f → s.lineRun f = true → s.upd.ackDue = true → s.upd.acks < 256 → exec .sporeAckSend s = .next
      ((s.modUpd fun x => { x with ackTick := s.tick, ackDue := false }).modSlf f fun x => { x with
        gccFw := ⟨3, s.upd.ack⟩ :: x.gccFw })) ∧
    (∀ f, s.upd.ackFrond = some f → s.upd.ackDue = false → s.upd.state = 2 → s.tick < s.upd.ackTick + 160000 → s.upd.acks < 256 →
      exec .sporeAckSend s = .next s) ∧
    (s.upd.state ≠ 3 → exec .updVerifyDone s = .next s) ∧
    (s.upd.state = 3 →
      (∃ t : State, exec .updVerifyDone s = .next t ∧ match s.verifyReason s.upd.staging with
        | none => t.upd.state = 4
        | some r => t.upd.state = 5 ∧ t.upd.reason = r ∧ t.upd.queue = []) ∧
      (fieldAt (s.manifest s.upd.staging) 20 2 < s.fuse.rollback → ∃ t : State, exec .updVerifyDone s = .next t ∧ t.upd.state = 5 ∧
        1 ≤ t.upd.reason ∧ t.upd.reason ≤ 6)) ∧
    (∀ b, s.upd.state ≠ 6 → exec (.preloadDone b) s = .next s) ∧
    (s.upd.state = 6 →
      (∀ p, ∃ t : State, exec (.preloadDone (some p)) s = .next t ∧ t.upd.state = 5 ∧ t.upd.reason = 7 ∧ t.upd.loaded = false) ∧
      (s.fuse.rollback ≤ fieldAt (s.manifest s.upd.staging) 20 2 →
        exec (.preloadDone none) s = .next (s.modUpd fun x => { x with loaded := true })) ∧
      (fieldAt (s.manifest s.upd.staging) 20 2 < s.fuse.rollback → ∃ t : State, exec (.preloadDone none) s = .next t ∧
        t.upd.state = 5 ∧ t.upd.reason = 6) ∧
      (s.upd.loaded = false ∨ s.tick < s.upd.actTick → exec .fwActivationSwitch s = .next s) ∧
      (s.upd.loaded = true → s.upd.actTick ≤ s.tick → ∃ t : State, exec .fwActivationSwitch s = .next t ∧ t.upd.state = 7 ∧
        t.upd.run = some (firmwareOf (s.manifest s.upd.staging) s.upd.staging) ∧ t.upd.prev = s.upd.run ∧ t.upd.passed = [] ∧
        t.upd.outcome = none ∧ t.flag R.GLB_FW_STAT_TRIAL = true)) ∧
    (∀ (p : Fin 6) pass, s.upd.state ≠ 7 → exec (.selfCheckReport p pass) s = .next s ∧ exec .trialTimeout s = .next s) ∧
    (s.upd.state = 7 →
      (∀ p : Fin 6, s.upd.passed.contains (p.val + 1) = false →
        exec (.selfCheckReport p true) s = .next (s.modUpd fun x => { x with
          passed := x.passed ++ [p.val + 1], outcome := if x.passed.length = 5 then some 0 else x.outcome })) ∧
      (∀ p : Fin 6, s.upd.outcome = none →
        exec (.selfCheckReport p false) s = .next (s.modUpd fun x => { x with outcome := some (0x81 + p.val) })) ∧
      (s.tick < s.upd.actTick + 1599999 → exec .trialTimeout s = .next s) ∧
      (s.upd.actTick + 1599999 ≤ s.tick → s.upd.outcome = none → s.upd.passed = [1, 2, 3, 4, 5] →
        exec .trialTimeout s = .next (s.modUpd fun x => { x with outcome := some 0x96 }))) ∧
    (s.upd.fusePending = false → exec .fuseProgramming s = .next s) ∧
    (∀ m, s.upd.fusePending = true → s.manifest s.upd.active = m → ∃ t : State, exec .fuseProgramming s = .next t ∧
      t.fuse.rollback = max s.fuse.rollback (min (fieldAt m 20 2) 128) ∧ t.upd.fusePending = false ∧ t.upd.state = s.upd.state ∧
      ∀ k, k < 2 → fieldAt m 7 1 / 2 ^ k % 2 = 1 → t.fuse.revoked / 2 ^ k % 2 = 1) ∧
    (∀ mem same, s.upd.store = none → exec (.settingsStoreDone mem same) s = .next s) ∧
    (∀ mem same j b i, s.upd.store = some j → readHost mem j.addr j.len = some b → parseImage b = some i → s.imageCode i = 0 →
      exec (.settingsStoreDone mem same) s = .next ((s.modUpd fun x => { x with
        store := none, copies := Tab.set (fun _ => none) x.copies j.copy (if same then some b else none)
      }).raise 0x140a j.copy [.w (if same then 0 else 7)])) ∧
    (∀ mem same j b, s.upd.store = some j → readHost mem j.addr j.len = some b → parseImage b = none →
      exec (.settingsStoreDone mem same) s = .next ((s.modUpd fun x => { x with
        store := none, copies := Tab.set (fun _ => none) x.copies j.copy none }).raise 0x140a j.copy [.w 3]))

/-- R539 to R547, Table MON-2: the descriptors of the monitor converter; a frame begins every 40 ticks; a sequenced conversion is
published through its filter; the PERSIST-th result in a row above HIGH sets the limit state; an urgent request interrupts a conversion;
its result goes to the host that asked; a test compares the converter with its DAC. -/
def Obligations.MonitorCommands : Prop :=
  (∀ (s : State) (h : ReqHdr) (mem : HostMem), h.isPf →
    (∀ addr b, addr % 64 = 0 → readHost mem addr 336 = some b → s.tick % 40 = 0 →
      (∀ e ∈ seqOf b, e.2 < 4 ∧ (e.1 = 0xff ∨ (monReserved e.1 = false ∧ s.monAbsent e.1 = false))) →
      exec (.monSeq h mem addr) s = .next ((s.modMon fun x => { x with table := seqOf b }).complete (doneOk h s 0xd0 0))) ∧
    (∀ addr b, addr % 64 = 0 → readHost mem addr 336 = some b → s.tick % 40 ≠ 0 →
      (∀ e ∈ seqOf b, e.2 < 4 ∧ (e.1 = 0xff ∨ (monReserved e.1 = false ∧ s.monAbsent e.1 = false))) →
      exec (.monSeq h mem addr) s = .next (s.complete (doneRefused h s 0xd0 St.schedule 0))) ∧
    (∀ (limit persist sev hyst : Nat) (fault : Bool) (low high : Int), limit < 64 → 0 < persist → persist < 256 → sev < 8 →
      low ≤ high - 2 * (hyst : Int) →
      exec (.monLimit h mem limit persist fault sev low high hyst) s = .next (((s.modMon fun x => { x with
        limits := Tab.set (fun _ => {}) x.limits limit { low := low, high := high, hyst := hyst, persist := persist, fault := fault, sev := sev }
      }).restartPers fun c => Tab.get (fun _ => 0xff) s.mon.map c == limit).complete (doneOk h s 0xd1 0))) ∧
    (∀ addr b, addr % 64 = 0 → readHost mem addr 256 = some b →
      (∀ c, c < 256 → fieldAt b c 1 = 0xff ∨ (fieldAt b c 1 < 64 ∧ monReserved c = false ∧ s.monAbsent c = false)) → ∃ t : State,
      exec (.monMap h mem addr) s = .next (t.complete (doneOk h s 0xd2 0)) ∧ t.regs = s.regs ∧
      ∀ c, c < 256 → Tab.get (fun _ => 0xff) t.mon.map c = fieldAt b c 1) ∧
    (∀ ch, ch < 256 → monReserved ch = false → s.monAbsent ch = false → s.monQueued < 16 → s.tick % 40 = 0 → ∃ t : State,
      exec (.monSample h mem ch) s = .next (t.complete (doneOk h s 0xd3 0)) ∧
      t = { s with mon := t.mon, regs := t.regs } ∧ t.mon = { s.mon with queue := s.mon.queue ++ [(2, ch, false)] }) ∧
    (∀ ch d, monReserved ch = false → s.monAbsent ch = false → d < 1024 → s.mon.test = none →
      exec (.monTest h mem ch d) s = .next (((s.modMon fun x => { x with
        test := some (ch, d, 10000 * s.tick + 16000), queue := x.queue ++ [(2, ch, true)] }).wrB R.MON_STAT_TEST_BUSY true).complete
        (doneOk h s 0xd4 0)))) ∧
  (∀ s : State,
    (s.tick % 40 ≠ 0 → exec .monFrameStart s = .next s) ∧
    (s.tick % 40 = 0 → s.inBlockReset 0x012 = false → ∃ t : State, exec .monFrameStart s = .next t ∧ t.mon.on = true ∧
      t.mon.frameStart = s.tick ∧ t.mon.frameLen = 400000 ∧ t.mon.pub = s.mon.pub ∧ t.mon.table = s.mon.table) ∧
    (∀ code v, s.mon.on = false → exec (.monConversionEnd code v) s = .next s) ∧
    (∀ code v u, s.mon.urgent = some u → exec (.monConversionEnd code v) s = .next s) ∧
    (∀ code v ch k, s.mon.on = true → s.mon.urgent = none → s.mon.idle = false → s.mon.idx < 250 → s.monEntry s.mon.idx = (ch, k) →
      s.mon.test = none → ∃ t : State, exec (.monConversionEnd code v) s = .next t ∧
      t.mon.pub = s.mon.pub ++ [(ch, code.val, v, k)]) ∧
    (∀ src ch at', monReserved ch.val = true ∨ s.monAbsent ch.val = true → exec (.urgentRequest src ch at') s = .next s) ∧
    (∀ src ch at', monReserved ch.val = false → s.monAbsent ch.val = false → s.inBlockReset 0x012 = false → s.mon.on = true →
      s.mon.idle = false → s.mon.idx < 250 → s.mon.urgent = none → s.mon.queue = [] → s.mon.test = none → s.mon.used = [0, 0, 0] →
      10000 * (s.tick - s.mon.frameStart) + at'.val + 1600 ≤ s.mon.frameLen → ∃ t : State,
      exec (.urgentRequest src ch at') s = .next t ∧ t.mon.queue = [] ∧ t.mon.idx = s.mon.idx ∧
      t.mon.urgent = some ⟨src.val, ch.val, 10000 * (s.tick - s.mon.frameStart) + at'.val, false⟩ ∧
      t.rd R.MON_CNT_ABORTS = min 65535 (s.rd R.MON_CNT_ABORTS + 1)) ∧
    (∀ code v, s.mon.urgent = none → exec (.urgentConversionEnd code v) s = .next s) ∧
    (∀ code v u, s.mon.urgent = some u → u.test = false →
      (u.src = 2 → exec (.urgentConversionEnd code v) s = .next ((s.raise 0x1602 u.ch [.w code.val, EVal.s v]).monResume
        (u.start + 1600))) ∧
      (u.src ≠ 2 → exec (.urgentConversionEnd code v) s = .next (s.monResume (u.start + 1600)))) ∧
    (∀ code, s.mon.test = none → exec (.monTestDone code) s = .next s) ∧
    (∀ (code : Fin 4096) u ch d n (pass : Bool), s.mon.test = some (ch, d, n) → s.mon.urgent = some u → u.test = true → d < 1024 →
      decide (((code.val : Int) - 4 * d).natAbs ≤ 8) = pass → ∃ t : State, exec (.monTestDone code) s = .next t ∧ t.mon.test = none ∧
      t.flag R.MON_STAT_TEST_BUSY = false ∧ t.flag R.MON_TEST_RES_VALID = true ∧ t.flag R.MON_TEST_RES_PASS = pass ∧
      t.rd R.MON_TEST_RES_CODE = code.val ∧ t.rd R.MON_TEST_RES_D = d) ∧
    (∀ c code k (new v : Int), 0x34 ≤ c → c < 256 → code < 4096 →
      (if k = 0 then new else roundShift (s.rdS (R.MON_RES_VALUE c) * (4 ^ k : Nat) + new - s.rdS (R.MON_RES_VALUE c)) (2 * k)) = v →
      -32768 ≤ v → v < 32768 →
      (s.monPublish1 (c, code, new, k)).rdS (R.MON_RES_VALUE c) = v ∧ (s.monPublish1 (c, code, new, k)).rd (R.MON_RES_CODE c) = code ∧
      (s.monPublish1 (c, code, new, k)).flag (R.MON_RES_VALID c) = true) ∧
    (∀ c k l n (v : Int), c < 256 → Tab.get (fun _ => 0xff) s.mon.map c = k → k < 64 → Tab.get (fun _ => ({} : MonLimit)) s.mon.limits k = l →
      (Tab.get (fun _ => (0, 0, 0)) s.mon.pers c).1 = n → l.high < v → l.persist ≤ n + 1 →
      (s.limCheck c v).limState c = 1))
end

