-- ==== Sys2Proof/Laws/Kept1.lean ====
section
/-! SUPPORT. The tick, the fuse array and the queue are left alone by the operations of Ops, PipeOps, FrondOps, MeshOps,
PeatStore, Calendar, Req, Faults, Defects, RxFront, Acq, Equaliser, Loading. -/
namespace Sys2Proof.Machine

/-- What almost no operation moves: the tick, the fuse array and the queue of commands. -/
def State.kept (s : State) : Nat × FuseSt × List Instr := (s.tick, s.fuse, s.pending)

theorem kept_mk (s : State) (regs latches wtq freeCtr out boot host flt fronds eps slotOwner ports sas sec pm xcFrozen peat
    mem tim mesh mbx cals pow mon upd tap) :
    State.kept { s with
      regs := regs, latches := latches, wtq := wtq, freeCtr := freeCtr, out := out, boot := boot, host := host, flt := flt
      fronds := fronds, eps := eps, slotOwner := slotOwner, ports := ports, sas := sas, sec := sec, pm := pm
      xcFrozen := xcFrozen, peat := peat, mem := mem, tim := tim, mesh := mesh, mbx := mbx, cals := cals, pow := pow
      mon := mon, upd := upd, tap := tap } = s.kept := by
  cases s; rfl

theorem kept_ite (c : Prop) [Decidable c] (a b : State) : (if c then a else b).kept = if c then a.kept else b.kept := by
  split <;> rfl

theorem foldl_kept {α : Type} {f : State → α → State} {l : List α} {s : State} (h : ∀ s a, (f s a).kept = s.kept) :
    (l.foldl f s).kept = s.kept := by
  induction l generalizing s with
  | nil => rfl
  | cons a l ih => rw [List.foldl_cons, ih, h]

theorem foldl_kept1 {α β : Type} {f : State × β → α → State × β} {l : List α} {s : State × β}
    (h : ∀ s a, (f s a).1.kept = s.1.kept) : (l.foldl f s).1.kept = s.1.kept := by
  induction l generalizing s with
  | nil => rfl
  | cons a l ih => rw [List.foldl_cons, ih, h]

theorem foldl_keptT {α : Type} {f : State → α → State} {l : List α} {s t : State} (h : ∀ s a, (f s a).kept = s.kept)
    (e : s.kept = t.kept) : (l.foldl f s).kept = t.kept := (foldl_kept h).trans e

theorem foldl_kept1T {α β : Type} {f : State × β → α → State × β} {l : List α} {s : State × β} {t : State}
    (h : ∀ s a, (f s a).1.kept = s.1.kept) (e : s.1.kept = t.kept) : (l.foldl f s).1.kept = t.kept := (foldl_kept1 h).trans e

theorem foldl_kept_eq {α β : Type} {f : State × β → α → State × β} {l : List α} {s : State × β} {t : State} {b : β}
    (e : l.foldl f s = (t, b)) (h : ∀ s a, (f s a).1.kept = s.1.kept) : t.kept = s.1.kept := by
  rw [← foldl_kept1 (l := l) h, e]

/-! ### Ops -/

theorem State.setReg_kept (s : State) (off : Nat) (v : Word) : (State.setReg s off v).kept = s.kept := by
  unfold State.setReg
  simp only [↓kept_mk]

theorem State.wr_kept (s : State) (f : Fld) (v : Nat) : (State.wr s f v).kept = s.kept := by
  unfold State.wr
  simp only [↓State.setReg_kept]

theorem State.wrS_kept (s : State) (f : Fld) (i : Int) : (State.wrS s f i).kept = s.kept := by
  unfold State.wrS
  simp only [↓State.wr_kept]

theorem State.wrB_kept (s : State) (f : Fld) (b : Bool) : (State.wrB s f b).kept = s.kept := by
  unfold State.wrB
  simp only [↓State.wr_kept]

theorem State.bump_kept (s : State) (f : Fld) (n : Nat) : (State.bump s f n).kept = s.kept := by
  unfold State.bump
  simp only [↓State.wr_kept]

theorem State.setBits_kept (s : State) (f : Fld) (m : Nat) : (State.setBits s f m).kept = s.kept := by
  unfold State.setBits
  simp only [↓State.wr_kept]

theorem State.resetRegs_kept (s : State) (lo : Nat) (hi : Nat) : (State.resetRegs s lo hi).kept = s.kept := by
  unfold State.resetRegs
  simp only [↓kept_mk]

theorem State.fresh_kept (s : State) : (State.fresh s).2.kept = s.kept := by
  unfold State.fresh
  simp only [↓kept_mk]

theorem State.fresh_kept' {s : State} {x0 : Nat} {x1 : State} (h : State.fresh s = (x0, x1)) : x1.kept = s.kept := by
  rw [← State.fresh_kept s, h]

theorem State.emit_kept (s : State) (o : Output) : (State.emit s o).kept = s.kept := by
  unfold State.emit
  simp only [↓kept_mk]

theorem State.raise_kept (s : State) (code : Nat) (obj : Nat) (vals : List EVal) : (State.raise s code obj vals).kept =
    s.kept := by
  unfold State.raise
  simp only [↓kept_mk]

theorem State.raiseFor_kept (s : State) (ten : Nat) (code : Nat) (obj : Nat) (vals : List EVal) : (State.raiseFor s ten
    code obj vals).kept = s.kept := by
  unfold State.raiseFor
  simp only [↓kept_mk]

theorem State.raiseEv_kept (s : State) (e : Event) : (State.raiseEv s e).kept = s.kept := by
  unfold State.raiseEv
  simp only [↓kept_mk]

theorem State.raiseCounted_kept (s : State) (code : Nat) (obj : Nat) (count : Nat) : (State.raiseCounted s code obj
    count).kept = s.kept := by
  unfold State.raiseCounted
  repeat' first | with_reducible rfl | split | simp only [↓kept_mk, ↓State.raise_kept]

theorem State.wholeUnits_kept (s : State) (num : Nat) (den : Nat) : (State.wholeUnits s num den).2.kept = s.kept := by
  unfold State.wholeUnits
  repeat' first
    | with_reducible rfl
    | simp only [↓State.fresh_kept]
    | (with_reducible apply foldl_keptT <;> try intro _ _)
    | (with_reducible apply foldl_kept1T <;> try intro _ _)
    | refine Eq.trans (State.fresh_kept' (by assumption)) ?_
    | split
    | (apply foldl_keptT <;> try intro _ _)

theorem State.wholeUnits_kept' {s : State} {num : Nat} {den : Nat} {x0 : Nat} {x1 : State} (h : State.wholeUnits s num den
    = (x0, x1)) : x1.kept = s.kept := by
  rw [← State.wholeUnits_kept s num den, h]

theorem State.nearestOpen_kept (s : State) (a : Int) (b : Nat) : (State.nearestOpen s a b).2.kept = s.kept := by
  unfold State.nearestOpen
  repeat' first
    | with_reducible rfl
    | simp only [↓State.fresh_kept]
    | (with_reducible apply foldl_keptT <;> try intro _ _)
    | (with_reducible apply foldl_kept1T <;> try intro _ _)
    | refine Eq.trans (State.fresh_kept' (by assumption)) ?_
    | split
    | (apply foldl_keptT <;> try intro _ _)

theorem State.nearestOpen_kept' {s : State} {a : Int} {b : Nat} {x0 : Int} {x1 : State} (h : State.nearestOpen s a b = (x0,
    x1)) : x1.kept = s.kept := by
  rw [← State.nearestOpen_kept s a b, h]

theorem State.rateEvent_kept (s : State) (code : Nat) (obj : Nat) (period : Nat) (last : Option Nat) (acc : Nat) (n : Nat)
    : (State.rateEvent s code obj period last acc n).1.kept = s.kept := by
  unfold State.rateEvent
  repeat' first | with_reducible rfl | split | simp only [↓kept_mk, ↓State.raise_kept]

theorem State.rateEvent_kept' {s : State} {code : Nat} {obj : Nat} {period : Nat} {last : Option Nat} {acc : Nat} {n : Nat}
    {x0 : State} {x1 : Option Nat} {x2 : Nat} (h : State.rateEvent s code obj period last acc n = (x0, x1,
        x2)) : x0.kept = s.kept := by
  rw [← State.rateEvent_kept s code obj period last acc n, h]

theorem State.setFrond_kept (s : State) (f : Nat) (x : Frond) : (State.setFrond s f x).kept = s.kept := by
  unfold State.setFrond
  simp only [↓kept_mk]

theorem State.modFrond_kept (s : State) (f : Nat) (g : Frond → Frond) : (State.modFrond s f g).kept = s.kept := by
  unfold State.modFrond
  simp only [↓State.setFrond_kept]

theorem State.setEp_kept (s : State) (e : Nat) (x : Endpoint) : (State.setEp s e x).kept = s.kept := by
  unfold State.setEp
  simp only [↓kept_mk]

theorem State.setTenant_kept (s : State) (t : Nat) (r : TenantRec) : (State.setTenant s t r).kept = s.kept := by
  unfold State.setTenant
  simp only [↓kept_mk]

theorem State.setFn_kept (s : State) (fn : Nat) (x : FnState) : (State.setFn s fn x).kept = s.kept := by
  unfold State.setFn
  simp only [↓kept_mk]

theorem State.modFn_kept (s : State) (fn : Nat) (g : FnState → FnState) : (State.modFn s fn g).kept = s.kept := by
  unfold State.modFn
  simp only [↓State.setFn_kept]

/-! ### PipeOps -/

theorem State.modPc_kept (s : State) (f : Nat) (g : PcSt → PcSt) : (State.modPc s f g).kept = s.kept := by
  unfold State.modPc
  simp only [↓State.modFrond_kept]

theorem State.exactRecord_kept (s : State) (f : Nat) (r : ExactRec) : (State.exactRecord s f r).kept = s.kept := by
  unfold State.exactRecord
  repeat' first | with_reducible rfl | split | simp only [↓kept_ite, ↓State.bump_kept, ↓State.modPc_kept,
      ↓State.raise_kept, ↓State.wr_kept]

theorem State.pcOverflow_kept (s : State) (f : Nat) (j : Nat) (code : Nat) (cycle : Nat) (detail : Nat) : (State.pcOverflow
    s f j code cycle detail).kept = s.kept := by
  unfold State.pcOverflow
  repeat' first | with_reducible rfl | split | simp only [↓kept_ite, ↓State.exactRecord_kept, ↓State.modPc_kept,
      ↓State.setBits_kept, ↓State.wrB_kept]

theorem State.pcRun_kept (s : State) (f j code n : Nat) (place : Nat → Nat × Nat) (fuel i : Nat) :
    (State.pcRun s f j code n place fuel i).kept = s.kept := by
  induction fuel generalizing s i with
  | zero => rfl
  | succ k ih =>
    unfold State.pcRun
    dsimp only
    split
    · rfl
    · split
      · rw [State.modPc_kept]
      · rw [ih, State.pcOverflow_kept, State.modPc_kept]

theorem State.pcCount_kept (s : State) (f : Nat) (code : Nat) (n : Nat) (place : Nat → Nat × Nat) : (State.pcCount s f code
    n place).kept = s.kept := by
  unfold State.pcCount
  repeat' first
    | with_reducible rfl
    | simp only [↓kept_ite, ↓State.pcRun_kept]
    | (with_reducible apply foldl_keptT <;> try intro _ _)
    | (with_reducible apply foldl_kept1T <;> try intro _ _)
    | split
    | (apply foldl_keptT <;> try intro _ _)

theorem State.pcList_kept (s : State) (f : Nat) (code : Nat) (l : List Nat) : (State.pcList s f code l).kept = s.kept := by
  unfold State.pcList
  simp only [↓State.pcCount_kept]

theorem State.pcMany_kept (s : State) (f : Nat) (code : Nat) (n : Nat) (detail : Nat) : (State.pcMany s f code n
    detail).kept = s.kept := by
  unfold State.pcMany
  simp only [↓State.pcCount_kept]

/-! ### FrondOps -/

theorem State.setD_kept (s : State) (f : Nat) (d : Int) : (State.setD s f d).kept = s.kept := by
  unfold State.setD
  repeat' first | with_reducible rfl | split | simp only [↓kept_ite, ↓State.modFrond_kept, ↓State.raise_kept,
      ↓State.wrB_kept]

theorem State.estimateD_kept (s : State) (f : Nat) (d : Int) : (State.estimateD s f d).kept = s.kept := by
  unfold State.estimateD
  simp only [↓State.raise_kept, ↓State.setD_kept]

theorem State.refreshStamp_kept (s : State) (f : Nat) : (State.refreshStamp s f).kept = s.kept := by
  unfold State.refreshStamp
  simp only [↓State.wr_kept]

theorem State.dropRetained_kept (s : State) (f : Nat) : (State.dropRetained s f).kept = s.kept := by
  unfold State.dropRetained
  simp only [↓State.modFrond_kept, ↓State.wrB_kept]

theorem State.stampRule_kept (s : State) (f : Nat) : (State.stampRule s f).kept = s.kept := by
  unfold State.stampRule
  repeat' first | with_reducible rfl | split | simp only [↓State.dropRetained_kept,
      ↓State.modFrond_kept, ↓State.raise_kept]

theorem State.startSearch_kept (s : State) (f : Nat) : (State.startSearch s f).kept = s.kept := by
  unfold State.startSearch
  repeat' first | with_reducible rfl | split | simp only [↓State.modFrond_kept, ↓State.setD_kept]

theorem State.setInsrc_kept (s : State) (f : Nat) (v : Nat) : (State.setInsrc s f v).kept = s.kept := by
  unfold State.setInsrc
  repeat' first | with_reducible rfl | split | simp only [↓State.modFrond_kept, ↓State.wr_kept]

theorem State.setAcq_kept (s : State) (f : Nat) (st : Nat) : (State.setAcq s f st).kept = s.kept := by
  unfold State.setAcq
  simp only [↓State.wr_kept, ↓State.wrB_kept]

theorem State.enterCold_kept (s : State) (f : Nat) : (State.enterCold s f).kept = s.kept := by
  unfold State.enterCold
  repeat' first | with_reducible rfl | split | simp only [↓kept_ite, ↓State.dropRetained_kept,
      ↓State.modFrond_kept, ↓State.setAcq_kept, ↓State.startSearch_kept]

theorem State.enterWarm_kept (s : State) (f : Nat) : (State.enterWarm s f).kept = s.kept := by
  unfold State.enterWarm
  simp only [↓State.modFrond_kept, ↓State.setAcq_kept]

theorem State.endRequest_kept (s : State) (f : Nat) : (State.endRequest s f).kept = s.kept := by
  unfold State.endRequest
  simp only [↓State.modFrond_kept, ↓State.wrB_kept]

theorem State.pmLoss_kept (s : State) (f : Nat) (n : Nat) : (State.pmLoss s f n).kept = s.kept := by
  unfold State.pmLoss
  simp only [↓State.modFrond_kept]

theorem State.pmSlip_kept (s : State) (f : Nat) : (State.pmSlip s f).kept = s.kept := by
  unfold State.pmSlip
  simp only [↓State.modFrond_kept]

theorem State.leaveAcquired_kept (s : State) (f : Nat) (reason : Nat) : (State.leaveAcquired s f reason).kept = s.kept := by
  unfold State.leaveAcquired
  repeat' first | with_reducible rfl | split | simp only [↓kept_ite, ↓State.bump_kept, ↓State.endRequest_kept,
      ↓State.modFrond_kept, ↓State.pmLoss_kept, ↓State.raise_kept, ↓State.refreshStamp_kept, ↓State.wr_kept, ↓State.wrB_kept]

theorem State.amendLoss_kept (s : State) (f : Nat) (reason : Nat) : (State.amendLoss s f reason).kept = s.kept := by
  unfold State.amendLoss
  repeat' first | with_reducible rfl | split | simp only [↓kept_mk, ↓kept_ite, ↓State.bump_kept, ↓State.wr_kept]

theorem State.loseAcq_kept (s : State) (f : Nat) (reason : Nat) : (State.loseAcq s f reason).kept = s.kept := by
  unfold State.loseAcq
  repeat' first | with_reducible rfl | split | simp only [↓kept_ite, ↓State.amendLoss_kept,
      ↓State.enterCold_kept, ↓State.enterWarm_kept, ↓State.leaveAcquired_kept]

theorem State.enterIdle_kept (s : State) (f : Nat) : (State.enterIdle s f).kept = s.kept := by
  unfold State.enterIdle
  repeat' first
    | with_reducible rfl
    | simp only [↓kept_ite, ↓State.leaveAcquired_kept, ↓State.setAcq_kept, ↓State.wr_kept, ↓State.wrB_kept]
    | (with_reducible apply foldl_keptT <;> try intro _ _)
    | (with_reducible apply foldl_kept1T <;> try intro _ _)
    | split
    | (apply foldl_keptT <;> try intro _ _)

theorem State.leaveIdle_kept (s : State) (f : Nat) (warm : Bool) : (State.leaveIdle s f warm).kept = s.kept := by
  unfold State.leaveIdle
  repeat' first | with_reducible rfl | split | simp only [↓State.enterCold_kept,
      ↓State.enterWarm_kept, ↓State.modFrond_kept]

theorem State.restartAcq_kept (s : State) (f : Nat) : (State.restartAcq s f).kept = s.kept := by
  unfold State.restartAcq
  repeat' first | with_reducible rfl | split | simp only [↓State.enterCold_kept,
      ↓State.leaveAcquired_kept, ↓State.stampRule_kept]

theorem State.enterAcquired_kept (s : State) (f : Nat) (instant : Nat) : (State.enterAcquired s f instant).kept = s.kept := by
  unfold State.enterAcquired
  simp only [↓State.modFrond_kept, ↓State.raise_kept, ↓State.refreshStamp_kept, ↓State.setAcq_kept,
      ↓State.wr_kept, ↓State.wrB_kept]

theorem State.scheduleSwap_kept (s : State) (f : Nat) (codes : List Nat) (cause : Nat) (start : Nat) : (State.scheduleSwap
    s f codes cause start).kept = s.kept := by
  unfold State.scheduleSwap
  simp only [↓State.modFrond_kept, ↓State.wrB_kept]

theorem State.txSwap_kept (s : State) (f : Nat) : (State.txSwap s f).kept = s.kept := by
  unfold State.txSwap
  repeat' first | with_reducible rfl | split | simp only [↓State.bump_kept, ↓State.modFrond_kept,
      ↓State.pcMany_kept, ↓State.raise_kept, ↓State.wr_kept, ↓State.wrB_kept]

theorem State.cancelSwap_kept (s : State) (f : Nat) : (State.cancelSwap s f).kept = s.kept := by
  unfold State.cancelSwap
  simp only [↓State.modFrond_kept, ↓State.wr_kept, ↓State.wrB_kept]

theorem State.squelchUpdate_kept (s : State) (f : Nat) : (State.squelchUpdate s f).kept = s.kept := by
  unfold State.squelchUpdate
  repeat' first | with_reducible rfl | split | simp only [↓kept_ite, ↓State.modFrond_kept, ↓State.wr_kept,
      ↓State.wrB_kept]

/-! ### MeshOps -/

theorem State.modMesh_kept (s : State) (g : MeshSt → MeshSt) : (State.modMesh s g).kept = s.kept := by
  unfold State.modMesh
  simp only [↓kept_mk]

theorem State.setMport_kept (s : State) (p : Nat) (x : MeshPort) : (State.setMport s p x).kept = s.kept := by
  unfold State.setMport
  simp only [↓State.modMesh_kept]

theorem State.meshQueue_kept (s : State) (p : Nat) (cls : Nat) (b : List Byte) : (State.meshQueue s p cls b).kept = s.kept
    := by
  unfold State.meshQueue
  repeat' first | with_reducible rfl | split | simp only [↓kept_ite, ↓State.bump_kept, ↓State.setMport_kept]

theorem State.meshLink_kept (s : State) (p : Nat) (typ : Nat) (cls : Nat) (payload : List Byte) : (State.meshLink s p typ
    cls payload).kept = s.kept := by
  unfold State.meshLink
  simp only [↓State.meshQueue_kept]

theorem State.meshFlood_kept (s : State) (typ : Nat) (src : Nat) (payload : List Byte) (skip : Option Nat) :
    (State.meshFlood s typ src payload skip).kept = s.kept := by
  unfold State.meshFlood
  repeat' first
    | with_reducible rfl
    | simp only [↓State.meshQueue_kept]
    | (with_reducible apply foldl_keptT <;> try intro _ _)
    | (with_reducible apply foldl_kept1T <;> try intro _ _)
    | split
    | (apply foldl_keptT <;> try intro _ _)

theorem State.nextMseq_kept (s : State) : (State.nextMseq s).2.kept = s.kept := by
  unfold State.nextMseq
  simp only [↓State.modMesh_kept]

theorem State.nextMseq_kept' {s : State} {x0 : Nat} {x1 : State} (h : State.nextMseq s = (x0, x1)) : x1.kept = s.kept := by
  rw [← State.nextMseq_kept s, h]

theorem State.noRoute_kept (s : State) (dst : Nat) : (State.noRoute s dst).kept = s.kept := by
  unfold State.noRoute
  repeat' first | with_reducible rfl | split | simp only [↓kept_ite, ↓State.bump_kept, ↓State.modMesh_kept,
      ↓State.raise_kept]

theorem State.meshUnicast_kept (s : State) (typ : Nat) (cls : Nat) (dst : Nat) (payload : List Byte) : (State.meshUnicast s
    typ cls dst payload).kept = s.kept := by
  unfold State.meshUnicast
  repeat' first
    | with_reducible rfl
    | simp only [↓kept_ite, ↓State.meshQueue_kept, ↓State.nextMseq_kept, ↓State.noRoute_kept]
    | (with_reducible apply foldl_keptT <;> try intro _ _)
    | (with_reducible apply foldl_kept1T <;> try intro _ _)
    | refine Eq.trans (State.nextMseq_kept' (by assumption)) ?_
    | split
    | (apply foldl_keptT <;> try intro _ _)

theorem State.meshBroadcast_kept (s : State) (typ : Nat) (cls : Nat) (payload : List Byte) : (State.meshBroadcast s typ cls
    payload).kept = s.kept := by
  unfold State.meshBroadcast
  repeat' first
    | with_reducible rfl
    | simp only [↓kept_ite, ↓State.meshQueue_kept, ↓State.nextMseq_kept]
    | (with_reducible apply foldl_keptT <;> try intro _ _)
    | (with_reducible apply foldl_kept1T <;> try intro _ _)
    | refine Eq.trans (State.nextMseq_kept' (by assumption)) ?_
    | split
    | (apply foldl_keptT <;> try intro _ _)

theorem State.keyRollSend_kept (s : State) (i : Nat) (r : Nat) : (State.keyRollSend s i r).kept = s.kept := by
  unfold State.keyRollSend
  repeat' first | with_reducible rfl | split | simp only [↓kept_ite, ↓State.meshUnicast_kept]

theorem State.faultReport_kept (s : State) (sev : Nat) (msg : List Byte) : (State.faultReport s sev msg).kept = s.kept := by
  unfold State.faultReport
  repeat' first | with_reducible rfl | split | simp only [↓kept_ite, ↓State.bump_kept, ↓State.meshBroadcast_kept,
      ↓State.meshUnicast_kept, ↓State.modMesh_kept]

/-! ### PeatStore -/

theorem State.modPeat_kept (s : State) (g : PeatSt → PeatSt) : (State.modPeat s g).kept = s.kept := by
  unfold State.modPeat
  simp only [↓kept_mk]

theorem State.peatRaise_kept (s : State) (code : Nat) (vals : List EVal) : (State.peatRaise s code vals).kept = s.kept := by
  unfold State.peatRaise
  repeat' first | with_reducible rfl | split | simp only [↓State.modPeat_kept, ↓State.raise_kept]

theorem State.bumpLife_kept (s : State) (i : Nat) : (State.bumpLife s i).kept = s.kept := by
  unfold State.bumpLife
  simp only [↓State.modPeat_kept]

theorem State.storeWear_kept (s : State) (before : PeatSt) (copies : List Nat) (len : Nat) (crcOff : Nat) :
    (State.storeWear s before copies len crcOff).kept = s.kept := by
  unfold State.storeWear
  repeat' first | with_reducible rfl | split | simp only [↓kept_ite, ↓State.modPeat_kept, ↓State.peatRaise_kept,
      ↓State.wrB_kept]

theorem State.commitLife_kept (s : State) (fails : List Nat) : (State.commitLife s fails).kept = s.kept := by
  unfold State.commitLife
  repeat' first | with_reducible rfl | split | simp only [↓kept_mk, ↓kept_ite, ↓State.storeWear_kept]

theorem State.writeMarker_kept (s : State) (kind : Nat) (tick : Nat) (fails : List Nat) : (State.writeMarker s kind tick
    fails).kept = s.kept := by
  unfold State.writeMarker
  repeat' first | with_reducible rfl | split | simp only [↓kept_mk, ↓kept_ite, ↓State.storeWear_kept]

theorem State.storePin_kept (s : State) (fails : List Nat) : (State.storePin s fails).kept = s.kept := by
  unfold State.storePin
  repeat' first | with_reducible rfl | split | simp only [↓kept_mk, ↓kept_ite]

theorem State.touchPin_kept (s : State) : (State.touchPin s).kept = s.kept := by
  unfold State.touchPin
  repeat' first | with_reducible rfl | split | simp only [↓State.modPeat_kept, ↓State.storePin_kept]

/-! ### Calendar -/

theorem State.calSecond_kept (s : State) : (State.calSecond s).kept = s.kept := by
  unfold State.calSecond
  repeat' first | with_reducible rfl | split | simp only [↓kept_mk, ↓kept_ite, ↓State.peatRaise_kept]

theorem State.calGo_kept (s : State) : (State.calGo s).kept = s.kept := by
  unfold State.calGo
  repeat' first | with_reducible rfl | split | simp only [↓State.bumpLife_kept, ↓State.modPeat_kept,
      ↓State.peatRaise_kept, ↓State.wr_kept]

theorem State.calStep_kept (s : State) (label : Cal) (edge : Nat) : (State.calStep s label edge).kept = s.kept := by
  unfold State.calStep
  simp only [↓State.bumpLife_kept, ↓State.modPeat_kept]

theorem State.epochGo_kept (s : State) : (State.epochGo s).kept = s.kept := by
  unfold State.epochGo
  repeat' first | with_reducible rfl | split | simp only [↓kept_ite, ↓State.modPeat_kept, ↓State.peatRaise_kept,
      ↓State.wrB_kept]

/-! ### Req -/

theorem State.fnError_kept (s : State) (fn : Nat) (mask : Nat) : (State.fnError s fn mask).kept = s.kept := by
  unfold State.fnError
  repeat' first | with_reducible rfl | split | simp only [↓kept_ite, ↓State.modFn_kept,
      ↓State.raise_kept, ↓State.setReg_kept]

theorem State.hostWrite_kept (s : State) (fn : Nat) (o : Output) : (State.hostWrite s fn o).kept = s.kept := by
  unfold State.hostWrite
  repeat' first | with_reducible rfl | split | simp only [↓State.emit_kept, ↓State.modFn_kept]

theorem State.complete_kept (s : State) (c : Completion) : (State.complete s c).kept = s.kept := by
  unfold State.complete
  simp only [↓kept_mk]

theorem State.unwrapFail_kept (s : State) (sa : Nat) (reason : Nat) : (State.unwrapFail s sa reason).kept = s.kept := by
  unfold State.unwrapFail
  simp only [↓State.bump_kept, ↓State.raiseEv_kept]

theorem State.sporeReject_kept (s : State) (reason : Nat) (index : Nat) (src : Nat) : (State.sporeReject s reason index
    src).kept = s.kept := by
  unfold State.sporeReject
  repeat' first | with_reducible rfl | split | simp only [↓kept_mk, ↓kept_ite, ↓State.raise_kept]

theorem State.refuse_kept (s : State) (r : Request) (p : Nat) (f : Fail) (atApply : Bool) : (State.refuse s r p f
    atApply).kept = s.kept := by
  unfold State.refuse
  repeat' first
    | with_reducible rfl
    | simp only [↓kept_ite, ↓State.complete_kept, ↓State.fnError_kept, ↓State.sporeReject_kept,
        ↓State.unwrapFail_kept]
    | (with_reducible apply foldl_keptT <;> try intro _ _)
    | (with_reducible apply foldl_kept1T <;> try intro _ _)
    | split
    | (apply foldl_keptT <;> try intro _ _)

theorem State.succeed_kept (s : State) (r : Request) (result : Nat) (held : Bool) : (State.succeed s r result held).kept =
    s.kept := by
  unfold State.succeed
  simp only [↓State.complete_kept]

theorem State.takeRead_kept (s : State) (c : Ctx) (dn : Nat) (addr : Nat) (data : List Byte) (poison : Bool) :
    (State.takeRead s c dn addr data poison).s.kept = s.kept := by
  unfold State.takeRead
  simp only [↓kept_mk]

theorem runOne_kept {h : ReqHdr} {mem : HostMem} {op : Nat} {b : ReqBody} {s : State} {chk : Ctx → State → List Ck}
    {app : Ctx → State → Applied} (hc : ∀ c, (app c s).s.kept = s.kept) : (runOne h mem op b s chk app).kept = s.kept := by
  unfold runOne
  dsimp only
  split
  · rw [State.refuse_kept]
  · split
    · rw [State.refuse_kept, hc]
    · rw [State.succeed_kept, hc]

theorem runOne_keptT {h' : ReqHdr} {mem : HostMem} {op : Nat} {b : ReqBody} {s : State} {chk : Ctx → State → List Ck} {app
    : Ctx → State → Applied} {t : State} (h : ∀ c,
        (app c s).s.kept = s.kept) (e : s.kept = t.kept) : (runOne h' mem op b s chk app).kept = t.kept := (runOne_kept
            h).trans e

/-! ### Faults -/

theorem State.modFlt_kept (s : State) (g : FaultSt → FaultSt) : (State.modFlt s g).kept = s.kept := by
  unfold State.modFlt
  simp only [↓kept_mk]

theorem State.faultAction_kept (s : State) (m : FaultMsg) : (State.faultAction s m).kept = s.kept := by
  unfold State.faultAction
  repeat' first | with_reducible rfl | split | simp only [↓State.modFlt_kept]

theorem State.latchAlert_kept (s : State) (k : Nat) : (State.latchAlert s k).kept = s.kept := by
  unfold State.latchAlert
  simp only [↓State.setBits_kept]

theorem State.pinFault_kept (s : State) (m : FaultMsg) : (State.pinFault s m).kept = s.kept := by
  unfold State.pinFault
  repeat' first | with_reducible rfl | split | simp only [↓State.modFlt_kept, ↓State.raise_kept,
      ↓State.storePin_kept, ↓State.wrB_kept]

theorem State.logFault_kept (s : State) (m : FaultMsg) : (State.logFault s m).kept = s.kept := by
  unfold State.logFault
  repeat' first | with_reducible rfl | split | simp only [↓kept_ite, ↓State.bump_kept, ↓State.faultReport_kept,
      ↓State.modFlt_kept, ↓State.pinFault_kept, ↓State.raise_kept, ↓State.touchPin_kept, ↓State.wr_kept]

theorem State.sendFault_kept (s : State) (m : FaultMsg) : (State.sendFault s m).kept = s.kept := by
  unfold State.sendFault
  repeat' first | with_reducible rfl | split | simp only [↓kept_mk, ↓kept_ite, ↓State.faultAction_kept,
      ↓State.latchAlert_kept, ↓State.logFault_kept]

theorem State.logHeld_kept (s : State) : (State.logHeld s).kept = s.kept := by
  unfold State.logHeld
  repeat' first
    | with_reducible rfl
    | simp only [↓kept_mk, ↓State.logFault_kept]
    | (with_reducible apply foldl_keptT <;> try intro _ _)
    | (with_reducible apply foldl_kept1T <;> try intro _ _)
    | split
    | (apply foldl_keptT <;> try intro _ _)

theorem State.updateBlocking_kept (s : State) : (State.updateBlocking s).kept = s.kept := by
  unfold State.updateBlocking
  simp only [↓State.wrB_kept]

theorem State.enterSafe_kept (s : State) (kind : Nat) (source : Nat) : (State.enterSafe s kind source).kept = s.kept := by
  unfold State.enterSafe
  repeat' first | with_reducible rfl | split | simp only [↓kept_mk, ↓State.bump_kept, ↓State.modFlt_kept,
      ↓State.raise_kept, ↓State.touchPin_kept, ↓State.wrB_kept]

theorem State.exitSafe_kept (s : State) : (State.exitSafe s).kept = s.kept := by
  unfold State.exitSafe
  repeat' first | with_reducible rfl | split | simp only [↓kept_mk, ↓State.wrB_kept]

theorem State.safeStep_kept (s : State) : (State.safeStep s).kept = s.kept := by
  unfold State.safeStep
  repeat' first | with_reducible rfl | split | simp only [↓State.enterSafe_kept, ↓State.modFlt_kept]

theorem State.driveFaultN_kept (s : State) : (State.driveFaultN s).kept = s.kept := by
  unfold State.driveFaultN
  repeat' first | with_reducible rfl | split | simp only [↓State.modFlt_kept, ↓State.wrB_kept]

theorem State.driveAlertN_kept (s : State) : (State.driveAlertN s).kept = s.kept := by
  unfold State.driveAlertN
  simp only [↓State.modFlt_kept, ↓State.wrB_kept]

theorem State.collectorFault_kept (s : State) (c : Nat) : (State.collectorFault s c).kept = s.kept := by
  unfold State.collectorFault
  repeat' first | with_reducible rfl | split | simp only [↓State.fresh_kept, ↓State.modFlt_kept,
      ↓State.raise_kept, ↓State.sendFault_kept, ↓State.touchPin_kept, ↓State.updateBlocking_kept, ↓State.wr_kept,
          ↓State.wrB_kept]

theorem execFaultMessage_kept (m : FaultMsg) (s : State) (t : State) (h : execFaultMessage m s = .next t) : t.kept = s.kept
    := by
  unfold execFaultMessage at h
  injection h with h
  subst h
  simp only [↓State.sendFault_kept]

theorem execCollectorParityFailure_kept (c : Fin 2) (s : State) (t : State) (h : execCollectorParityFailure c s = .next t)
    : t.kept = s.kept := by
  unfold execCollectorParityFailure at h
  injection h with h
  subst h
  simp only [↓State.collectorFault_kept]

/-! ### Defects -/

theorem State.setLayer_kept (s : State) (f : Nat) (l : Nat) (x : OhLayer) : (State.setLayer s f l x).kept = s.kept := by
  unfold State.setLayer
  simp only [↓State.modFrond_kept]

theorem State.updateSsf_kept (s : State) (f : Nat) : (State.updateSsf s f).kept = s.kept := by
  unfold State.updateSsf
  simp only [↓State.wrB_kept]

theorem State.setDefect_kept (s : State) (f : Nat) (i : Nat) (on : Bool) (slot : Nat) : (State.setDefect s f i on
    slot).kept = s.kept := by
  unfold State.setDefect
  repeat' first | with_reducible rfl | split | simp only [↓State.raise_kept, ↓State.updateSsf_kept,
      ↓State.wrB_kept]

theorem State.updateLos_kept (s : State) (f : Nat) : (State.updateLos s f).kept = s.kept := by
  unfold State.updateLos
  repeat' first | with_reducible rfl | split | simp only [↓State.setDefect_kept]

theorem State.muteDefects_kept (s : State) (f : Nat) : (State.muteDefects s f).kept = s.kept := by
  unfold State.muteDefects
  repeat' first
    | with_reducible rfl
    | simp only [↓State.raise_kept, ↓State.setDefect_kept, ↓State.setLayer_kept, ↓State.wr_kept]
    | (with_reducible apply foldl_keptT <;> try intro _ _)
    | (with_reducible apply foldl_kept1T <;> try intro _ _)
    | split
    | (apply foldl_keptT <;> try intro _ _)

theorem State.stopDefects_kept (s : State) (f : Nat) : (State.stopDefects s f).kept = s.kept := by
  unfold State.stopDefects
  simp only [↓State.modFrond_kept, ↓State.wr_kept, ↓State.wrB_kept]

theorem State.updateTcmDef_kept (s : State) (f : Nat) : (State.updateTcmDef s f).kept = s.kept := by
  unfold State.updateTcmDef
  simp only [↓State.wr_kept]

theorem State.tcmEvent_kept (s : State) (f : Nat) (l : Nat) (i : Nat) (on : Bool) : (State.tcmEvent s f l i on).kept =
    s.kept := by
  unfold State.tcmEvent
  simp only [↓State.raise_kept, ↓State.updateTcmDef_kept]

/-! ### RxFront -/

theorem execRxPowerLow_kept (f : Fin 48) (power : Int) (s : State) (t : State) (h : execRxPowerLow f power s = .next t) :
    t.kept = s.kept := by
  unfold execRxPowerLow at h
  injection h with h
  subst h
  repeat' first | with_reducible rfl | split | simp only [↓kept_ite, ↓State.modFrond_kept, ↓State.raise_kept,
      ↓State.setFrond_kept, ↓State.updateLos_kept]

theorem execRxPowerHigh_kept (f : Fin 48) (power : Int) (s : State) (t : State) (h : execRxPowerHigh f power s = .next t) :
    t.kept = s.kept := by
  unfold execRxPowerHigh at h
  injection h with h
  subst h
  repeat' first | with_reducible rfl | split | simp only [↓kept_ite, ↓State.modFrond_kept, ↓State.raise_kept,
      ↓State.setFrond_kept]

theorem execLoLow_kept (f : Fin 48) (power : Int) (s : State) (t : State) (h : execLoLow f power s = .next t) : t.kept =
    s.kept := by
  unfold execLoLow at h
  injection h with h
  subst h
  repeat' first | with_reducible rfl | split | simp only [↓kept_ite, ↓State.modFrond_kept, ↓State.raise_kept,
      ↓State.setFrond_kept]

theorem execMuteSwitchDone_kept (f : Fin 48) (s : State) (t : State) (h : execMuteSwitchDone f s = .next t) : t.kept =
    s.kept := by
  unfold execMuteSwitchDone at h
  injection h with h
  subst h
  repeat' first | with_reducible rfl | split | simp only [↓State.modFrond_kept]

theorem execSubconvStuck_kept (f : Fin 48) (adc : Fin 4) (k : Fin 128) (same : Bool) (others : Bool) (s : State) (t :
    State) (h : execSubconvStuck f adc k same others s = .next t) : t.kept = s.kept := by
  unfold execSubconvStuck at h
  injection h with h
  subst h
  repeat' first | with_reducible rfl | split | simp only [↓kept_ite, ↓State.modFrond_kept, ↓State.sendFault_kept,
      ↓State.setFrond_kept, ↓State.wr_kept]

theorem execSubconvRecovered_kept (f : Fin 48) (adc : Fin 4) (k : Fin 128) (distinct : Bool) (s : State) (t : State) (h :
    execSubconvRecovered f adc k distinct s = .next t) : t.kept = s.kept := by
  unfold execSubconvRecovered at h
  injection h with h
  subst h
  repeat' first | with_reducible rfl | split | simp only [↓kept_ite, ↓State.modFrond_kept, ↓State.sendFault_kept,
      ↓State.setFrond_kept]

theorem appFilterLoad_kept (f : Nat) (addr : Nat) (swap : Nat) (c : Ctx) (s : State) : (appFilterLoad f addr swap c
    s).s.kept = s.kept := by
  unfold appFilterLoad
  repeat' first | with_reducible rfl | split | simp only [↓State.modFrond_kept, ↓State.wrB_kept]

theorem execFilterLoad_kept (h : ReqHdr) (mem : HostMem) (f : Nat) (addr : Nat) (swap : Nat) (s : State) (t : State) (h :
    execFilterLoad h mem f addr swap s = .next t) : t.kept = s.kept := by
  unfold execFilterLoad at h
  injection h with h
  subst h
  repeat' first
    | with_reducible rfl
    | simp only [↓appFilterLoad_kept]
    | (with_reducible apply foldl_keptT <;> try intro _ _)
    | (with_reducible apply foldl_kept1T <;> try intro _ _)
    | (with_reducible apply runOne_keptT <;> try intro _)
    | split
    | (apply foldl_keptT <;> try intro _ _)

theorem State.firSwap_kept (s : State) (f : Nat) : (State.firSwap s f).kept = s.kept := by
  unfold State.firSwap
  repeat' first
    | with_reducible rfl
    | simp only [↓kept_ite, ↓State.modFrond_kept, ↓State.wr_kept, ↓State.wrB_kept]
    | (with_reducible apply foldl_keptT <;> try intro _ _)
    | (with_reducible apply foldl_kept1T <;> try intro _ _)
    | split
    | (apply foldl_keptT <;> try intro _ _)

theorem execFirBankSwap_kept (f : Fin 48) (s : State) (t : State) (h : execFirBankSwap f s = .next t) : t.kept = s.kept := by
  unfold execFirBankSwap at h
  injection h with h
  subst h
  repeat' first | with_reducible rfl | split | simp only [↓State.firSwap_kept]

theorem State.delayClamp_kept (s : State) (f : Nat) (q : Nat) : (State.delayClamp s f q).kept = s.kept := by
  unfold State.delayClamp
  simp only [↓State.wrB_kept]

/-! ### Acq -/

theorem execFastGainStep_kept (f : Fin 48) (rms : List Int) (saturated : Nat) (total : Nat) (s : State) (t : State) (h :
    execFastGainStep f rms saturated total s = .next t) : t.kept = s.kept := by
  unfold execFastGainStep at h
  injection h with h
  subst h
  repeat' first | with_reducible rfl | split | simp only [↓State.modFrond_kept]

theorem execGainTrim_kept (f : Fin 48) (rms : Int) (flooded : Bool) (s : State) (t : State) (h : execGainTrim f rms flooded
    s = .next t) : t.kept = s.kept := by
  unfold execGainTrim at h
  injection h with h
  subst h
  repeat' first | with_reducible rfl | split | simp only [↓kept_ite, ↓State.modFrond_kept, ↓State.raise_kept]

theorem State.applyTrim_kept (s : State) (f : Nat) : (State.applyTrim s f).kept = s.kept := by
  unfold State.applyTrim
  simp only [↓State.modFrond_kept]

theorem execFiddleheadDetection_kept (f : Fin 48) (metric : List Nat) (plateauEnd : Nat) (freq : Int) (fine : Int)
    (predicted : Bool) (edge : Option Int) (s : State) (t : State) (h : execFiddleheadDetection f metric plateauEnd freq
        fine predicted edge s = .next t) : t.kept = s.kept := by
  unfold execFiddleheadDetection at h
  injection h with h
  subst h
  repeat' first | with_reducible rfl | split | simp only [↓kept_ite, ↓State.loseAcq_kept, ↓State.modFrond_kept,
      ↓State.setAcq_kept]

theorem State.warmToCold_kept (s : State) (f : Nat) : (State.warmToCold s f).kept = s.kept := by
  unfold State.warmToCold
  simp only [↓State.enterCold_kept, ↓State.raise_kept]

theorem State.warmCheck_kept (s : State) (f : Nat) : (State.warmCheck s f).kept = s.kept := by
  unfold State.warmCheck
  repeat' first | with_reducible rfl | split | simp only [↓State.warmToCold_kept]

theorem execWarmFallback_kept (f : Fin 48) (power : Int) (s : State) (t : State) (h : execWarmFallback f power s = .next t)
    : t.kept = s.kept := by
  unfold execWarmFallback at h
  injection h with h
  subst h
  repeat' first | with_reducible rfl | split | simp only [↓kept_ite, ↓State.modFrond_kept, ↓State.warmCheck_kept,
      ↓State.warmToCold_kept]

theorem execAcqTimeout_kept (f : Fin 48) (s : State) (t : State) (h : execAcqTimeout f s = .next t) : t.kept = s.kept := by
  unfold execAcqTimeout at h
  injection h with h
  subst h
  repeat' first | with_reducible rfl | split | simp only [↓State.dropRetained_kept,
      ↓State.enterCold_kept, ↓State.raise_kept]

theorem execAcqRestart_kept (f : Fin 48) (s : State) (t : State) (h : execAcqRestart f s = .next t) : t.kept = s.kept := by
  unfold execAcqRestart at h
  injection h with h
  subst h
  repeat' first | with_reducible rfl | split | simp only [↓State.restartAcq_kept]

theorem execFloodedTick_kept (f : Fin 48) (marks : List Nat) (total : Nat) (s : State) (t : State) (h : execFloodedTick f
    marks total s = .next t) : t.kept = s.kept := by
  unfold execFloodedTick at h
  injection h with h
  subst h
  repeat' first | with_reducible rfl | split | simp only [↓kept_ite, ↓State.loseAcq_kept, ↓State.modFrond_kept,
      ↓State.pcList_kept, ↓State.pcMany_kept, ↓State.raise_kept, ↓State.wholeUnits_kept, ↓State.wr_kept]

theorem State.cdFit_kept (s : State) (f : Nat) (o : Option FitObs) : (State.cdFit s f o).kept = s.kept := by
  unfold State.cdFit
  repeat' first
    | with_reducible rfl
    | simp only [↓kept_ite, ↓State.estimateD_kept, ↓State.modFrond_kept, ↓State.wrB_kept, ↓State.wrS_kept]
    | (with_reducible apply foldl_keptT <;> try intro _ _)
    | (with_reducible apply foldl_kept1T <;> try intro _ _)
    | split
    | (apply foldl_keptT <;> try intro _ _)

theorem State.trackStep_kept (s : State) (f : Nat) : (State.trackStep s f).kept = s.kept := by
  unfold State.trackStep
  repeat' first
    | with_reducible rfl
    | simp only [↓kept_ite, ↓State.modFrond_kept, ↓State.raise_kept, ↓State.wr_kept]
    | (with_reducible apply foldl_keptT <;> try intro _ _)
    | (with_reducible apply foldl_kept1T <;> try intro _ _)
    | split
    | (apply foldl_keptT <;> try intro _ _)

theorem State.planMismatch_kept (s : State) (f : Nat) (h : HeaderWord) : (State.planMismatch s f h).kept = s.kept := by
  unfold State.planMismatch
  repeat' first | with_reducible rfl | split | simp only [↓State.modFrond_kept, ↓State.raise_kept]

theorem State.rxSwap_kept (s : State) (f : Nat) (tid : Nat) (codes : List Nat) (learned : Bool) : (State.rxSwap s f tid
    codes learned).kept = s.kept := by
  unfold State.rxSwap
  simp only [↓State.bump_kept, ↓State.modFrond_kept, ↓State.pcMany_kept,
      ↓State.raise_kept, ↓State.wr_kept]

theorem State.rxTable_kept (s : State) (f : Nat) (stamp : Nat) (hdr : Option HeaderWord) : (State.rxTable s f stamp
    hdr).1.kept = s.kept := by
  unfold State.rxTable
  repeat' first
    | with_reducible rfl
    | simp only [↓kept_ite, ↓State.modFrond_kept, ↓State.raise_kept, ↓State.rateEvent_kept, ↓State.rxSwap_kept,
        ↓State.wr_kept]
    | (with_reducible apply foldl_keptT <;> try intro _ _)
    | (with_reducible apply foldl_kept1T <;> try intro _ _)
    | refine Eq.trans (State.rateEvent_kept' (by assumption)) ?_
    | split
    | (apply foldl_keptT <;> try intro _ _)

theorem State.rxTable_kept' {s : State} {f : Nat} {stamp : Nat} {hdr : Option HeaderWord} {x0 : State} {x1 : List Nat} (h :
    State.rxTable s f stamp hdr = (x0, x1)) : x0.kept = s.kept := by
  rw [← State.rxTable_kept s f stamp hdr, h]

theorem State.timingStep_kept (s : State) (f : Nat) (verified : Bool) (fine : Int) : (State.timingStep s f verified
    fine).kept = s.kept := by
  unfold State.timingStep
  repeat' first | with_reducible rfl | split | simp only [↓State.modFrond_kept, ↓State.raise_kept]

theorem State.carrierUpdate_kept (s : State) (f : Nat) (o : ArrivalObs) : (State.carrierUpdate s f o).kept = s.kept := by
  unfold State.carrierUpdate
  repeat' first | with_reducible rfl | split | simp only [↓State.bump_kept, ↓State.modFrond_kept,
      ↓State.nearestOpen_kept, ↓State.pcList_kept]

theorem State.deliver_kept (s : State) (f : Nat) (stamp : Nat) (hdr : Option HeaderWord) (zero : List Nat) (first : Bool) :
    (State.deliver s f stamp hdr zero first).kept = s.kept := by
  unfold State.deliver
  simp only [↓State.modFrond_kept]

theorem State.arriveAcquired_kept (s : State) (f : Nat) (o : ArrivalObs) (hdr : Option HeaderWord) (verified : Bool) :
    (State.arriveAcquired s f o hdr verified).kept = s.kept := by
  unfold State.arriveAcquired
  repeat' first | with_reducible rfl | split | simp only [↓kept_ite, ↓State.applyTrim_kept,
      ↓State.carrierUpdate_kept, ↓State.deliver_kept, ↓State.loseAcq_kept, ↓State.modFrond_kept, ↓State.pcMany_kept,
          ↓State.pmSlip_kept, ↓State.raise_kept, ↓State.rxTable_kept, ↓State.timingStep_kept]

theorem execSuperframeArrival_kept (f : Fin 48) (o : ArrivalObs) (s : State) (t : State) (h : execSuperframeArrival f o s =
    .next t) : t.kept = s.kept := by
  unfold execSuperframeArrival at h
  injection h with h
  subst h
  repeat' first | with_reducible rfl | split | simp only [↓kept_ite, ↓State.arriveAcquired_kept,
      ↓State.carrierUpdate_kept, ↓State.cdFit_kept, ↓State.deliver_kept, ↓State.enterAcquired_kept, ↓State.enterWarm_kept,
          ↓State.planMismatch_kept, ↓State.rxTable_kept, ↓State.setAcq_kept, ↓State.timingStep_kept, ↓State.trackStep_kept,
              ↓State.warmCheck_kept]

/-! ### Equaliser -/

theorem execCdSearchCandidateEnd_kept (f : Fin 48) (s : State) (t : State) (h : execCdSearchCandidateEnd f s = .next t) :
    t.kept = s.kept := by
  unfold execCdSearchCandidateEnd at h
  injection h with h
  subst h
  repeat' first | with_reducible rfl | split | simp only [↓kept_ite, ↓State.modFrond_kept, ↓State.setD_kept]

theorem execPreconvergenceEnd_kept (f : Fin 48) (settled : Bool) (s : State) (t : State) (h : execPreconvergenceEnd f
    settled s = .next t) : t.kept = s.kept := by
  unfold execPreconvergenceEnd at h
  injection h with h
  subst h
  repeat' first | with_reducible rfl | split | simp only [↓kept_ite, ↓State.modFrond_kept]

theorem execCdTracking_kept (f : Fin 48) (residual : Int) (dgd : Nat) (pdl : Nat) (s : State) (t : State) (h :
    execCdTracking f residual dgd pdl s = .next t) : t.kept = s.kept := by
  unfold execCdTracking at h
  injection h with h
  subst h
  repeat' first | with_reducible rfl | split | simp only [↓kept_ite, ↓State.modFrond_kept, ↓State.setD_kept,
      ↓State.wr_kept]

theorem execCdHostRampStep_kept (f : Fin 48) (s : State) (t : State) (h : execCdHostRampStep f s = .next t) : t.kept =
    s.kept := by
  unfold execCdHostRampStep at h
  injection h with h
  subst h
  repeat' first | with_reducible rfl | split | simp only [↓kept_ite, ↓State.modFrond_kept, ↓State.setD_kept]

theorem State.cdWrite_kept (s : State) (f : Nat) (mode : Nat) : (State.cdWrite s f mode).kept = s.kept := by
  unfold State.cdWrite
  repeat' first | with_reducible rfl | split | simp only [↓kept_ite, ↓State.modFrond_kept, ↓State.setD_kept,
      ↓State.startSearch_kept]

theorem execSopRateEvaluation_kept (f : Fin 48) (rate : Nat) (s : State) (t : State) (h : execSopRateEvaluation f rate s =
    .next t) : t.kept = s.kept := by
  unfold execSopRateEvaluation at h
  injection h with h
  subst h
  repeat' first | with_reducible rfl | split | simp only [↓kept_ite, ↓State.modFrond_kept, ↓State.raise_kept,
      ↓State.wr_kept]

theorem execFofsRange_kept (f : Fin 48) (fofs : Int) (s : State) (t : State) (h : execFofsRange f fofs s = .next t) :
    t.kept = s.kept := by
  unfold execFofsRange at h
  injection h with h
  subst h
  repeat' first | with_reducible rfl | split | simp only [↓kept_ite, ↓State.modFrond_kept, ↓State.raise_kept,
      ↓State.wrS_kept]

theorem State.putSnr_kept (s : State) (f : Nat) (k : Nat) (v : Int) : (State.putSnr s f k v).kept = s.kept := by
  unfold State.putSnr
  simp only [↓State.modFrond_kept, ↓State.wrB_kept, ↓State.wrS_kept]

theorem State.noSnr_kept (s : State) (f : Nat) (k : Nat) (zero : Bool) : (State.noSnr s f k zero).kept = s.kept := by
  unfold State.noSnr
  repeat' first | with_reducible rfl | split | simp only [↓State.wr_kept, ↓State.wrB_kept]

theorem execSnrMeasurement_kept (f : Fin 48) (empty : Bool) (sums : List (Nat × Nat × Nat × Nat)) (s : State) (t : State)
    (h : execSnrMeasurement f empty sums s = .next t) : t.kept = s.kept := by
  unfold execSnrMeasurement at h
  injection h with h
  subst h
  repeat' first
    | with_reducible rfl
    | simp only [↓kept_ite, ↓State.noSnr_kept, ↓State.putSnr_kept]
    | (with_reducible apply foldl_keptT <;> try intro _ _)
    | (with_reducible apply foldl_kept1T <;> try intro _ _)
    | split
    | (apply foldl_keptT <;> try intro _ _)

theorem execEqStampRefresh_kept (f : Fin 48) (s : State) (t : State) (h : execEqStampRefresh f s = .next t) : t.kept =
    s.kept := by
  unfold execEqStampRefresh at h
  injection h with h
  subst h
  repeat' first
    | with_reducible rfl
    | simp only [↓kept_ite, ↓State.refreshStamp_kept]
    | (with_reducible apply foldl_keptT <;> try intro _ _)
    | (with_reducible apply foldl_kept1T <;> try intro _ _)
    | split
    | (apply foldl_keptT <;> try intro _ _)

theorem execEqStateDiscard_kept (f : Fin 48) (s : State) (t : State) (h : execEqStateDiscard f s = .next t) : t.kept =
    s.kept := by
  unfold execEqStateDiscard at h
  injection h with h
  subst h
  repeat' first | with_reducible rfl | split | simp only [↓State.modFrond_kept, ↓State.wrB_kept]

/-! ### Loading -/

theorem execLoadRequestEvaluation_kept (f : Fin 48) (s : State) (t : State) (h : execLoadRequestEvaluation f s = .next t) :
    t.kept = s.kept := by
  unfold execLoadRequestEvaluation at h
  injection h with h
  subst h
  repeat' first | with_reducible rfl | split | simp only [↓kept_ite, ↓State.modFrond_kept, ↓State.raise_kept,
      ↓State.wholeUnits_kept, ↓State.wr_kept, ↓State.wrB_kept]

theorem execLoadRequestTimeout_kept (f : Fin 48) (s : State) (t : State) (h : execLoadRequestTimeout f s = .next t) :
    t.kept = s.kept := by
  unfold execLoadRequestTimeout at h
  injection h with h
  subst h
  repeat' first | with_reducible rfl | split | simp only [↓State.endRequest_kept, ↓State.raise_kept]

theorem State.loadRequest_kept (s : State) (f : Nat) (l : Lof) : (State.loadRequest s f l).kept = s.kept := by
  unfold State.loadRequest
  repeat' first | with_reducible rfl | split | simp only [↓kept_ite, ↓State.bump_kept, ↓State.modFrond_kept,
      ↓State.raise_kept, ↓State.scheduleSwap_kept]

theorem State.loadAck_kept (s : State) (f : Nat) (l : Lof) : (State.loadAck s f l).kept = s.kept := by
  unfold State.loadAck
  repeat' first | with_reducible rfl | split | simp only [↓kept_ite, ↓State.endRequest_kept, ↓State.raise_kept,
      ↓State.wr_kept]

theorem State.takeLof_kept (s : State) (f : Nat) (stamp : Nat) (l : Lof) : (State.takeLof s f stamp l).kept = s.kept := by
  unfold State.takeLof
  repeat' first | with_reducible rfl | split | simp only [↓State.loadAck_kept,
      ↓State.loadRequest_kept, ↓State.modFrond_kept]

theorem State.txSwapDue_kept (s : State) (f : Nat) : (State.txSwapDue s f).kept = s.kept := by
  unfold State.txSwapDue
  repeat' first | with_reducible rfl | split | simp only [↓State.txSwap_kept]

theorem execTxLoadSwap_kept (f : Fin 48) (s : State) (t : State) (h : execTxLoadSwap f s = .next t) : t.kept = s.kept := by
  unfold execTxLoadSwap at h
  injection h with h
  subst h
  simp only [↓State.txSwapDue_kept]

theorem appLoadTable_kept (f : Nat) (codes : List Nat) (y2 : Ctx) (s : State) : (appLoadTable f codes y2 s).s.kept = s.kept
    := by
  unfold appLoadTable
  simp only [↓State.scheduleSwap_kept]

theorem execLoadTable_kept (h : ReqHdr) (mem : HostMem) (f : Nat) (codes : List Nat) (s : State) (t : State) (h :
    execLoadTable h mem f codes s = .next t) : t.kept = s.kept := by
  unfold execLoadTable at h
  injection h with h
  subst h
  repeat' first
    | with_reducible rfl
    | simp only [↓appLoadTable_kept]
    | (with_reducible apply foldl_keptT <;> try intro _ _)
    | (with_reducible apply foldl_kept1T <;> try intro _ _)
    | (with_reducible apply runOne_keptT <;> try intro _)
    | split
    | (apply foldl_keptT <;> try intro _ _)

theorem State.precdRamping_kept (s : State) (f : Nat) : (State.precdRamping s f).kept = s.kept := by
  unfold State.precdRamping
  simp only [↓State.wrB_kept]

theorem execPrecdRampStep_kept (f : Fin 48) (s : State) (t : State) (h : execPrecdRampStep f s = .next t) : t.kept = s.kept
    := by
  unfold execPrecdRampStep at h
  injection h with h
  subst h
  simp only [↓State.modFrond_kept, ↓State.precdRamping_kept]

theorem State.skewClamp_kept (s : State) (f : Nat) (q : Nat) : (State.skewClamp s f q).kept = s.kept := by
  unfold State.skewClamp
  simp only [↓State.wrB_kept]

theorem execLaunchPowerRestored_kept (f : Fin 48) (power : Int) (limited : Bool) (s : State) (t : State) (h :
    execLaunchPowerRestored f power limited s = .next t) : t.kept = s.kept := by
  unfold execLaunchPowerRestored at h
  injection h with h
  subst h
  repeat' first | with_reducible rfl | split | simp only [↓kept_ite, ↓State.modFrond_kept, ↓State.raise_kept,
      ↓State.wrB_kept, ↓State.wrS_kept]

theorem execLaserOffGrid_kept (f : Fin 48) (offset : Int) (s : State) (t : State) (h : execLaserOffGrid f offset s = .next
    t) : t.kept = s.kept := by
  unfold execLaserOffGrid at h
  injection h with h
  subst h
  repeat' first | with_reducible rfl | split | simp only [↓kept_ite, ↓State.modFrond_kept, ↓State.raise_kept,
      ↓State.wrS_kept]

end Sys2Proof.Machine
end

