-- ==== Sys2Proof/Laws/Kept2.lean ====
section
/-! SUPPORT. The tick, the fuse array and the queue are left alone by the operations of MemOps, PipeCount, Fec,
LineFrame, Client, Timing, Twin. -/
namespace Sys2Proof.Machine

/-! ### MemOps -/

theorem State.modMem_kept (s : State) (g : MemSt → MemSt) : (State.modMem s g).kept = s.kept := by
  unfold State.modMem
  simp only [↓kept_mk]

theorem State.memLast_kept (s : State) (k : Nat) (kind : Nat) : (State.memLast s k kind).kept = s.kept := by
  unfold State.memLast
  simp only [↓State.wr_kept]

theorem State.parityFail_kept (s : State) (k : Nat) : (State.parityFail s k).kept = s.kept := by
  unfold State.parityFail
  repeat' first
    | with_reducible rfl
    | simp only [↓kept_mk, ↓kept_ite, ↓State.bump_kept, ↓State.memLast_kept, ↓State.modMem_kept, ↓State.raise_kept,
        ↓State.sendFault_kept]
    | (with_reducible apply foldl_keptT <;> try intro _ _)
    | (with_reducible apply foldl_kept1T <;> try intro _ _)
    | split
    | (apply foldl_keptT <;> try intro _ _)

theorem State.upset_kept (s : State) (k : Nat) (mask : Nat) : (State.upset s k mask).kept = s.kept := by
  unfold State.upset
  simp only [↓State.modMem_kept]

theorem State.fenceRegs_kept (s : State) : (State.fenceRegs s).kept = s.kept := by
  unfold State.fenceRegs
  simp only [↓State.wr_kept, ↓State.wrB_kept]

theorem State.memWrite_kept (s : State) (m : Nat) (frond : Nat) (off : Nat) (len : Nat) : (State.memWrite s m frond off
    len).kept = s.kept := by
  unfold State.memWrite
  simp only [↓State.fenceRegs_kept, ↓State.modMem_kept]

theorem State.readCorrected_kept (s : State) (k : Nat) : (State.readCorrected s k).kept = s.kept := by
  unfold State.readCorrected
  repeat' first | with_reducible rfl | split | simp only [↓kept_ite, ↓State.bump_kept, ↓State.memLast_kept,
      ↓State.modMem_kept, ↓State.raise_kept]

theorem State.readUncorrectable_kept (s : State) (k : Nat) : (State.readUncorrectable s k).kept = s.kept := by
  unfold State.readUncorrectable
  repeat' first | with_reducible rfl | split | simp only [↓kept_ite, ↓State.memLast_kept, ↓State.modMem_kept]

theorem State.memRead_kept (s : State) (m : Nat) (frond : Nat) (off : Nat) (len : Nat) : (State.memRead s m frond off
    len).1.kept = s.kept := by
  unfold State.memRead
  repeat' first
    | with_reducible rfl
    | simp only [↓State.readCorrected_kept, ↓State.readUncorrectable_kept]
    | (with_reducible apply foldl_keptT <;> try intro _ _)
    | (with_reducible apply foldl_kept1T <;> try intro _ _)
    | split
    | (apply foldl_keptT <;> try intro _ _)

theorem State.memRead_kept' {s : State} {m : Nat} {frond : Nat} {off : Nat} {len : Nat} {x0 : State} {x1 : List Nat} (h :
    State.memRead s m frond off len = (x0, x1)) : x0.kept = s.kept := by
  rw [← State.memRead_kept s m frond off len, h]

theorem State.memUncorrected_kept (s : State) (k : Nat) (owner : Option Nat) : (State.memUncorrected s k owner).kept =
    s.kept := by
  unfold State.memUncorrected
  simp only [↓State.bump_kept, ↓State.memLast_kept, ↓State.raiseEv_kept, ↓State.sendFault_kept]

theorem State.fenceByte_kept (s : State) (k : Nat) (owner : Option Nat) : (State.fenceByte s k owner).kept = s.kept := by
  unfold State.fenceByte
  repeat' first | with_reducible rfl | split | simp only [↓kept_ite, ↓State.fenceRegs_kept,
      ↓State.memUncorrected_kept, ↓State.modMem_kept, ↓State.raise_kept]

/-! ### PipeCount -/

theorem State.pcShow_kept (s : State) (f : Nat) (j : Nat) (c : Nat) : (State.pcShow s f j c).kept = s.kept := by
  unfold State.pcShow
  simp only [↓State.wr_kept]

theorem State.pcCycles_kept (s : State) (f : Nat) : (State.pcCycles s f).kept = s.kept := by
  unfold State.pcCycles
  simp only [↓State.modPc_kept, ↓State.wr_kept]

theorem State.pcAcquired_kept (s : State) (f : Nat) : (State.pcAcquired s f).2.2.kept = s.kept := by
  unfold State.pcAcquired
  repeat' first | with_reducible rfl | split | simp only [↓State.fresh_kept]

theorem State.pcAcquired_kept' {s : State} {f : Nat} {x0 : Nat} {x1 : Nat} {x2 : State} (h : State.pcAcquired s f = (x0,
    x1, x2)) : x2.kept = s.kept := by
  rw [← State.pcAcquired_kept s f, h]

theorem State.pcSlotAccount_kept (s : State) (f : Nat) : (State.pcSlotAccount s f).kept = s.kept := by
  unfold State.pcSlotAccount
  simp only [↓State.pcMany_kept, ↓State.wr_kept]

theorem State.pcOverflows_kept (s : State) (f : Nat) : (State.pcOverflows s f).kept = s.kept := by
  unfold State.pcOverflows
  repeat' first
    | with_reducible rfl
    | simp only [↓kept_ite, ↓State.raise_kept]
    | (with_reducible apply foldl_keptT <;> try intro _ _)
    | (with_reducible apply foldl_kept1T <;> try intro _ _)
    | split
    | (apply foldl_keptT <;> try intro _ _)

theorem State.pcFreezeEnd_kept (s : State) (f : Nat) : (State.pcFreezeEnd s f).kept = s.kept := by
  unfold State.pcFreezeEnd
  repeat' first | with_reducible rfl | split | simp only [↓kept_ite, ↓State.modPc_kept, ↓State.wrB_kept]

theorem State.pcAcqCount_kept (s : State) (f : Nat) : (State.pcAcqCount s f).kept = s.kept := by
  unfold State.pcAcqCount
  repeat' first
    | with_reducible rfl
    | simp only [↓kept_ite, ↓State.modPc_kept, ↓State.pcAcquired_kept, ↓State.pcCount_kept]
    | (with_reducible apply foldl_keptT <;> try intro _ _)
    | (with_reducible apply foldl_kept1T <;> try intro _ _)
    | refine Eq.trans (State.pcAcquired_kept' (by assumption)) ?_
    | split
    | (apply foldl_keptT <;> try intro _ _)

theorem State.pcSlotEnd_kept (s : State) (f : Nat) : (State.pcSlotEnd s f).kept = s.kept := by
  unfold State.pcSlotEnd
  repeat' first | with_reducible rfl | split | simp only [↓State.pcSlotAccount_kept]

theorem State.pcTickEnd_kept (s : State) (f : Nat) : (State.pcTickEnd s f).kept = s.kept := by
  unfold State.pcTickEnd
  repeat' first
    | with_reducible rfl
    | simp only [↓kept_ite, ↓State.pcAcqCount_kept, ↓State.pcCycles_kept, ↓State.pcFreezeEnd_kept,
        ↓State.pcOverflows_kept, ↓State.pcShow_kept, ↓State.pcSlotEnd_kept]
    | (with_reducible apply foldl_keptT <;> try intro _ _)
    | (with_reducible apply foldl_kept1T <;> try intro _ _)
    | split
    | (apply foldl_keptT <;> try intro _ _)

theorem State.pcPreset_kept (s : State) (f : Nat) (j : Nat) : (State.pcPreset s f j).kept = s.kept := by
  unfold State.pcPreset
  simp only [↓State.modPc_kept]

theorem execPcFrozenClear_kept (f : Fin 48) (s : State) (t : State) (h : execPcFrozenClear f s = .next t) : t.kept = s.kept
    := by
  unfold execPcFrozenClear at h
  injection h with h
  subst h
  repeat' first | with_reducible rfl | split | simp only [↓State.modPc_kept]

theorem appPcErbRead_kept (f : Nat) (addr : Nat) (dn : Nat) (c : Ctx) (s : State) : (appPcErbRead f addr dn c s).s.kept =
    s.kept := by
  unfold appPcErbRead
  simp only [↓State.modPc_kept, ↓State.takeRead_kept, ↓State.wr_kept]

theorem execPcErbRead_kept (h : ReqHdr) (mem : HostMem) (f : Nat) (addr : Nat) (s : State) (t : State) (h : execPcErbRead h
    mem f addr s = .next t) : t.kept = s.kept := by
  unfold execPcErbRead at h
  injection h with h
  subst h
  repeat' first
    | with_reducible rfl
    | simp only [↓appPcErbRead_kept]
    | (with_reducible apply foldl_keptT <;> try intro _ _)
    | (with_reducible apply foldl_kept1T <;> try intro _ _)
    | (with_reducible apply runOne_keptT <;> try intro _)
    | split
    | (apply foldl_keptT <;> try intro _ _)

theorem State.pcBlockReset_kept (s : State) (f : Nat) : (State.pcBlockReset s f).kept = s.kept := by
  unfold State.pcBlockReset
  repeat' first
    | with_reducible rfl
    | simp only [↓State.modPc_kept, ↓State.pcShow_kept, ↓State.setReg_kept, ↓State.wr_kept]
    | (with_reducible apply foldl_keptT <;> try intro _ _)
    | (with_reducible apply foldl_kept1T <;> try intro _ _)
    | split
    | (apply foldl_keptT <;> try intro _ _)

/-! ### Fec -/

theorem State.poolEmpty_kept (s : State) (f : Nat) (left : Nat) : (State.poolEmpty s f left).kept = s.kept := by
  unfold State.poolEmpty
  repeat' first | with_reducible rfl | split | simp only [↓kept_ite, ↓State.bump_kept, ↓State.modFrond_kept,
      ↓State.raise_kept]

theorem execInnerDecode_kept (f : Fin 48) (o : InnerObs) (s : State) (t : State) (h : execInnerDecode f o s = .next t) :
    t.kept = s.kept := by
  unfold execInnerDecode at h
  injection h with h
  subst h
  repeat' first
    | with_reducible rfl
    | simp only [↓kept_ite, ↓State.fresh_kept, ↓State.modFrond_kept, ↓State.parityFail_kept, ↓State.pcCount_kept,
        ↓State.pcList_kept, ↓State.pcMany_kept, ↓State.poolEmpty_kept, ↓State.wholeUnits_kept, ↓State.wr_kept]
    | (with_reducible apply foldl_keptT <;> try intro _ _)
    | (with_reducible apply foldl_kept1T <;> try intro _ _)
    | refine Eq.trans (State.fresh_kept' (by assumption)) ?_
    | refine Eq.trans (State.wholeUnits_kept' (by assumption)) ?_
    | split
    | (apply foldl_keptT <;> try intro _ _)

theorem State.fecCount_kept (s : State) (f : Nat) (j : Nat) (k : Nat) : (State.fecCount s f j k).kept = s.kept := by
  unfold State.fecCount
  simp only [↓State.wr_kept]

theorem State.fecUncorrected_kept (s : State) (f : Nat) (k : Nat) : (State.fecUncorrected s f k).kept = s.kept := by
  unfold State.fecUncorrected
  repeat' first | with_reducible rfl | split | simp only [↓kept_mk, ↓State.modFrond_kept, ↓State.raise_kept]

theorem State.ngmiSlot_kept (s : State) (f : Nat) (valid : Bool) (ngmi : Nat) : (State.ngmiSlot s f valid ngmi).kept =
    s.kept := by
  unfold State.ngmiSlot
  repeat' first | with_reducible rfl | split | simp only [↓kept_ite, ↓State.modFrond_kept, ↓State.raise_kept,
      ↓State.wr_kept, ↓State.wrB_kept]

theorem State.outerFec_kept (s : State) (f : Nat) (r : InnerResult) (o : OuterObs) : (State.outerFec s f r o).kept = s.kept
    := by
  unfold State.outerFec
  simp only [↓State.fecCount_kept, ↓State.fecUncorrected_kept, ↓State.modFrond_kept,
      ↓State.ngmiSlot_kept, ↓State.pcList_kept]

/-! ### LineFrame -/

theorem State.modSlf_kept (s : State) (f : Nat) (g : SlfSt → SlfSt) : (State.modSlf s f g).kept = s.kept := by
  unfold State.modSlf
  simp only [↓State.modFrond_kept]

theorem State.setTim_kept (s : State) (f : Nat) (l : Nat) (on : Bool) : (State.setTim s f l on).kept = s.kept := by
  unfold State.setTim
  repeat' first | with_reducible rfl | split | simp only [↓State.setDefect_kept, ↓State.setLayer_kept,
      ↓State.tcmEvent_kept]

theorem State.setBdi_kept (s : State) (f : Nat) (l : Nat) (on : Bool) : (State.setBdi s f l on).kept = s.kept := by
  unfold State.setBdi
  repeat' first | with_reducible rfl | split | simp only [↓State.setDefect_kept, ↓State.setLayer_kept,
      ↓State.tcmEvent_kept]

theorem State.setDeg_kept (s : State) (f : Nat) (l : Nat) (on : Bool) : (State.setDeg s f l on).kept = s.kept := by
  unfold State.setDeg
  repeat' first | with_reducible rfl | split | simp only [↓State.setDefect_kept, ↓State.setLayer_kept,
      ↓State.tcmEvent_kept]

theorem State.evalTim_kept (s : State) (f : Nat) (l : Nat) : (State.evalTim s f l).kept = s.kept := by
  unfold State.evalTim
  repeat' first | with_reducible rfl | split | simp only [↓State.setTim_kept]

theorem State.setStat_kept (s : State) (f : Nat) (l : Nat) (v : Nat) : (State.setStat s f l v).kept = s.kept := by
  unfold State.setStat
  repeat' first | with_reducible rfl | split | simp only [↓kept_ite, ↓State.setDefect_kept, ↓State.setLayer_kept,
      ↓State.tcmEvent_kept, ↓State.updateTcmDef_kept]

theorem State.ohTti_kept (s : State) (f : Nat) (l : Nat) (idx : Nat) (b : OhByte) : (State.ohTti s f l idx b).kept = s.kept
    := by
  unfold State.ohTti
  repeat' first | with_reducible rfl | split | simp only [↓kept_ite, ↓State.evalTim_kept, ↓State.raise_kept,
      ↓State.setLayer_kept]

theorem State.ohBip_kept (s : State) (f : Nat) (l : Nat) (bytes : List OhByte) (expect : List (Option Nat)) : (State.ohBip
    s f l bytes expect).kept = s.kept := by
  unfold State.ohBip
  simp only [↓State.modSlf_kept, ↓State.setLayer_kept]

theorem State.ohThird_kept (s : State) (f : Nat) (l : Nat) (bytes : List OhByte) : (State.ohThird s f l bytes).kept =
    s.kept := by
  unfold State.ohThird
  repeat' first | with_reducible rfl | split | simp only [↓kept_ite, ↓State.setBdi_kept, ↓State.setLayer_kept,
      ↓State.setStat_kept]

theorem State.psiStep_kept (s : State) (f : Nat) (key : Nat) (v : Nat) : (State.psiStep s f key v).1.kept = s.kept := by
  unfold State.psiStep
  simp only [↓State.modSlf_kept]

theorem State.psiStep_kept' {s : State} {f : Nat} {key : Nat} {v : Nat} {x0 : State} {x1 : Option Nat} (h : State.psiStep s
    f key v = (x0, x1)) : x0.kept = s.kept := by
  rw [← State.psiStep_kept s f key v, h]

theorem State.ohPt_kept (s : State) (f : Nat) (b : OhByte) : (State.ohPt s f b).kept = s.kept := by
  unfold State.ohPt
  repeat' first
    | with_reducible rfl
    | simp only [↓kept_ite, ↓State.psiStep_kept, ↓State.raise_kept, ↓State.setDefect_kept]
    | (with_reducible apply foldl_keptT <;> try intro _ _)
    | (with_reducible apply foldl_kept1T <;> try intro _ _)
    | refine Eq.trans (State.psiStep_kept' (by assumption)) ?_
    | split
    | (apply foldl_keptT <;> try intro _ _)

theorem State.evalMsi_kept (s : State) (f : Nat) (slot : Nat) : (State.evalMsi s f slot).kept = s.kept := by
  unfold State.evalMsi
  repeat' first | with_reducible rfl | split | simp only [↓kept_ite, ↓State.modSlf_kept, ↓State.raise_kept,
      ↓State.wrB_kept]

theorem State.ohMsi_kept (s : State) (f : Nat) (p : Nat × Nat) : (State.ohMsi s f p).kept = s.kept := by
  unfold State.ohMsi
  simp only [↓State.evalMsi_kept, ↓State.psiStep_kept]

theorem State.ohFrame_kept (s : State) (f : Nat) (frames : List SliceFrame) : (State.ohFrame s f frames).kept = s.kept := by
  unfold State.ohFrame
  repeat' first
    | with_reducible rfl
    | simp only [↓kept_ite, ↓State.modSlf_kept, ↓State.ohBip_kept, ↓State.ohPt_kept, ↓State.ohThird_kept,
        ↓State.ohTti_kept]
    | (with_reducible apply foldl_keptT <;> try intro _ _)
    | (with_reducible apply foldl_kept1T <;> try intro _ _)
    | split
    | (apply foldl_keptT <;> try intro _ _)

theorem State.mfStep_kept (s : State) (f : Nat) (mfas : Nat) : (State.mfStep s f mfas).kept = s.kept := by
  unfold State.mfStep
  repeat' first | with_reducible rfl | split | simp only [↓State.modSlf_kept]

theorem State.frameLost_kept (s : State) (f : Nat) : (State.frameLost s f).kept = s.kept := by
  unfold State.frameLost
  simp only [↓State.modSlf_kept]

theorem State.frameStart_kept (s : State) (f : Nat) (n : Nat) (p : Int) (runs : List (List SliceFrame)) : (State.frameStart
    s f n p runs).kept = s.kept := by
  unfold State.frameStart
  repeat' first
    | with_reducible rfl
    | simp only [↓kept_ite, ↓State.frameLost_kept, ↓State.mfStep_kept, ↓State.modSlf_kept,
        ↓State.ohFrame_kept]
    | (with_reducible apply foldl_keptT <;> try intro _ _)
    | (with_reducible apply foldl_kept1T <;> try intro _ _)
    | refine Eq.trans (State.fresh_kept' (by assumption)) ?_
    | split
    | (apply foldl_keptT <;> try intro _ _)

theorem State.discontinuity_kept (s : State) (f : Nat) : (State.discontinuity s f).kept = s.kept := by
  unfold State.discontinuity
  simp only [↓State.bump_kept, ↓State.frameLost_kept, ↓State.modSlf_kept]

theorem State.slfStat_kept (s : State) (f : Nat) (n : Nat) : (State.slfStat s f n).kept = s.kept := by
  unfold State.slfStat
  simp only [↓State.wr_kept, ↓State.wrB_kept]

theorem State.deframe_kept (s : State) (f : Nat) (r : InnerResult) (o : OuterObs) : (State.deframe s f r o).kept = s.kept
    := by
  unfold State.deframe
  repeat' first
    | with_reducible rfl
    | simp only [↓kept_ite, ↓State.bump_kept, ↓State.discontinuity_kept, ↓State.frameLost_kept,
        ↓State.frameStart_kept, ↓State.modSlf_kept, ↓State.ohMsi_kept, ↓State.parityFail_kept, ↓State.slfStat_kept,
            ↓State.takeLof_kept, ↓State.wr_kept]
    | (with_reducible apply foldl_keptT <;> try intro _ _)
    | (with_reducible apply foldl_kept1T <;> try intro _ _)
    | split
    | (apply foldl_keptT <;> try intro _ _)

theorem execOuterDecode_kept (f : Fin 48) (o : OuterObs) (s : State) (t : State) (h : execOuterDecode f o s = .next t) :
    t.kept = s.kept := by
  unfold execOuterDecode at h
  injection h with h
  subst h
  repeat' first | with_reducible rfl | split | simp only [↓kept_ite, ↓State.deframe_kept, ↓State.modFrond_kept,
      ↓State.outerFec_kept]

theorem execDlof_kept (f : Fin 48) (s : State) (t : State) (h : execDlof f s = .next t) : t.kept = s.kept := by
  unfold execDlof at h
  injection h with h
  subst h
  repeat' first | with_reducible rfl | split | simp only [↓kept_ite, ↓State.modSlf_kept, ↓State.setDefect_kept]

theorem execDlom_kept (f : Fin 48) (s : State) (t : State) (h : execDlom f s = .next t) : t.kept = s.kept := by
  unfold execDlom at h
  injection h with h
  subst h
  repeat' first | with_reducible rfl | split | simp only [↓kept_ite, ↓State.modSlf_kept, ↓State.setDefect_kept]

theorem execDloa_kept (f : Fin 48) (s : State) (t : State) (h : execDloa f s = .next t) : t.kept = s.kept := by
  unfold execDloa at h
  injection h with h
  subst h
  repeat' first | with_reducible rfl | split | simp only [↓State.setDefect_kept]

theorem State.degLayer_kept (s : State) (f : Nat) (l : Nat) (ssf : Bool) : (State.degLayer s f l ssf).kept = s.kept := by
  unfold State.degLayer
  repeat' first | with_reducible rfl | split | simp only [↓kept_ite, ↓State.setDeg_kept, ↓State.setLayer_kept]

theorem execDdeg_kept (f : Fin 48) (s : State) (t : State) (h : execDdeg f s = .next t) : t.kept = s.kept := by
  unfold execDdeg at h
  injection h with h
  subst h
  repeat' first
    | with_reducible rfl
    | simp only [↓kept_ite, ↓State.degLayer_kept, ↓State.modSlf_kept]
    | (with_reducible apply foldl_keptT <;> try intro _ _)
    | (with_reducible apply foldl_kept1T <;> try intro _ _)
    | split
    | (apply foldl_keptT <;> try intro _ _)

theorem State.gccDrop_kept (s : State) (f : Nat) : (State.gccDrop s f).kept = s.kept := by
  unfold State.gccDrop
  simp only [↓kept_mk, ↓State.rateEvent_kept]

theorem State.gccMgmt_kept (s : State) (f : Nat) (g : GccFrame) (seq : Nat) : (State.gccMgmt s f g seq).kept = s.kept := by
  unfold State.gccMgmt
  repeat' first | with_reducible rfl | split | simp only [↓kept_mk, ↓State.gccDrop_kept, ↓State.hostWrite_kept,
      ↓State.raise_kept]

theorem State.gccDeliver_kept (s : State) (f : Nat) (g : GccFrame) (seq : Nat) : (State.gccDeliver s f g seq).kept = s.kept
    := by
  unfold State.gccDeliver
  repeat' first | with_reducible rfl | split | simp only [↓State.bump_kept, ↓State.gccMgmt_kept,
      ↓State.modSlf_kept]

theorem State.gccHunt_kept (s : State) (f fuel : Nat) : (State.gccHunt s f fuel).kept = s.kept := by
  induction fuel generalizing s with
  | zero => rfl
  | succ k ih =>
    unfold State.gccHunt
    split
    · rfl
    · rw [ih]
      simp only [↓kept_ite, ↓State.bump_kept, ↓State.modSlf_kept, ite_self]
    · rw [State.gccDeliver_kept, State.modSlf_kept]

theorem execGccFrameReceive_kept (f : Fin 48) (s : State) (t : State) (h : execGccFrameReceive f s = .next t) : t.kept =
    s.kept := by
  unfold execGccFrameReceive at h
  injection h with h
  subst h
  simp only [↓State.gccHunt_kept]

theorem execGccFrameTransmit_kept (f : Fin 48) (s : State) (t : State) (h : execGccFrameTransmit f s = .next t) : t.kept =
    s.kept := by
  unfold execGccFrameTransmit at h
  injection h with h
  subst h
  repeat' first | with_reducible rfl | split | simp only [↓State.emit_kept, ↓State.modSlf_kept]

theorem State.gccStop_kept (s : State) (f : Nat) : (State.gccStop s f).kept = s.kept := by
  unfold State.gccStop
  simp only [↓State.bump_kept, ↓State.modSlf_kept]

theorem execSlfFrameEncode_kept (f : Fin 48) (poison : List Nat) (s : State) (t : State) (h : execSlfFrameEncode f poison s
    = .next t) : t.kept = s.kept := by
  unfold execSlfFrameEncode at h
  injection h with h
  subst h
  repeat' first | with_reducible rfl | split | simp only [↓State.bump_kept, ↓State.modSlf_kept,
      ↓State.pcList_kept]

theorem execTxAssembly_kept (f : Fin 48) (s : State) (t : State) (h : execTxAssembly f s = .next t) : t.kept = s.kept := by
  unfold execTxAssembly at h
  injection h with h
  subst h
  repeat' first | with_reducible rfl | split | simp only [↓State.modSlf_kept]

theorem execSuperframeTransmit_kept (f : Fin 48) (clipped : List (Nat × Nat)) (s : State) (t : State) (h :
    execSuperframeTransmit f clipped s = .next t) : t.kept = s.kept := by
  unfold execSuperframeTransmit at h
  injection h with h
  subst h
  repeat' first | with_reducible rfl | split | simp only [↓State.modSlf_kept, ↓State.pcCount_kept,
      ↓State.pcMany_kept, ↓State.wrB_kept]

/-! ### Client -/

theorem State.setPort_kept (s : State) (p : Nat) (x : PortSt) : (State.setPort s p x).kept = s.kept := by
  unfold State.setPort
  simp only [↓kept_mk]

theorem State.portRegs_kept (s : State) (p : Nat) : (State.portRegs s p).kept = s.kept := by
  unfold State.portRegs
  simp only [↓State.wr_kept, ↓State.wrB_kept]

theorem State.updatePort_kept (s : State) (p : Nat) : (State.updatePort s p).kept = s.kept := by
  unfold State.updatePort
  repeat' first | with_reducible rfl | split | simp only [↓kept_ite, ↓State.portRegs_kept, ↓State.raise_kept,
      ↓State.setPort_kept]

theorem State.clearLanes_kept (s : State) (p : Nat) : (State.clearLanes s p).kept = s.kept := by
  unfold State.clearLanes
  repeat' first
    | with_reducible rfl
    | simp only [↓State.setReg_kept]
    | (with_reducible apply foldl_keptT <;> try intro _ _)
    | (with_reducible apply foldl_kept1T <;> try intro _ _)
    | split
    | (apply foldl_keptT <;> try intro _ _)

theorem appPortSetup_kept (lane : Nat) (width : Nat) (client : Nat) (rate : Nat) (txclk : Nat) (rclk : Nat) (group : Nat)
    (c : Ctx) (s : State) : (appPortSetup lane width client rate txclk rclk group c s).s.kept = s.kept := by
  unfold appPortSetup
  repeat' first
    | with_reducible rfl
    | simp only [↓kept_mk, ↓kept_ite, ↓State.clearLanes_kept, ↓State.portRegs_kept, ↓State.raise_kept,
        ↓State.resetRegs_kept, ↓State.setPort_kept, ↓State.wr_kept]
    | (with_reducible apply foldl_keptT <;> try intro _ _)
    | (with_reducible apply foldl_kept1T <;> try intro _ _)
    | split
    | (apply foldl_keptT <;> try intro _ _)

theorem State.releasePort_kept (s : State) (p : Nat) : (State.releasePort s p).kept = s.kept := by
  unfold State.releasePort
  repeat' first | with_reducible rfl | split | simp only [↓kept_ite, ↓State.portRegs_kept, ↓State.setPort_kept,
      ↓State.updatePort_kept]

theorem State.stopPort_kept (s : State) (p : Nat) : (State.stopPort s p).kept = s.kept := by
  unfold State.stopPort
  repeat' first
    | with_reducible rfl
    | simp only [↓State.setPort_kept, ↓State.updatePort_kept, ↓State.wrB_kept]
    | (with_reducible apply foldl_keptT <;> try intro _ _)
    | (with_reducible apply foldl_kept1T <;> try intro _ _)
    | split
    | (apply foldl_keptT <;> try intro _ _)

theorem execClientLaneSignal_kept (l : Fin 288) (sig : Bool) (cdr : Bool) (s : State) (t : State) (h : execClientLaneSignal
    l sig cdr s = .next t) : t.kept = s.kept := by
  unfold execClientLaneSignal at h
  injection h with h
  subst h
  repeat' first | with_reducible rfl | split | simp only [↓kept_ite, ↓State.setPort_kept, ↓State.updatePort_kept,
      ↓State.wrB_kept]

theorem State.markerMiss_kept (s : State) (p : Nat) (k : Nat) : (State.markerMiss s p k).kept = s.kept := by
  unfold State.markerMiss
  simp only [↓State.setPort_kept, ↓State.updatePort_kept]

theorem execAmLock_kept (p : Fin 288) (k : Nat) (lane : Nat) (inverted : Bool) (s : State) (t : State) (h : execAmLock p k
    lane inverted s = .next t) : t.kept = s.kept := by
  unfold execAmLock at h
  injection h with h
  subst h
  repeat' first | with_reducible rfl | split | simp only [↓kept_ite, ↓State.markerMiss_kept, ↓State.raise_kept,
      ↓State.setPort_kept, ↓State.updatePort_kept, ↓State.wrB_kept]

theorem execAmLockLoss_kept (p : Fin 288) (k : Nat) (s : State) (t : State) (h : execAmLockLoss p k s = .next t) : t.kept =
    s.kept := by
  unfold execAmLockLoss at h
  injection h with h
  subst h
  repeat' first | with_reducible rfl | split | simp only [↓kept_ite, ↓State.markerMiss_kept]

theorem execDeskewComplete_kept (p : Fin 288) (s : State) (t : State) (h : execDeskewComplete p s = .next t) : t.kept =
    s.kept := by
  unfold execDeskewComplete at h
  injection h with h
  subst h
  repeat' first | with_reducible rfl | split | simp only [↓kept_ite, ↓State.setPort_kept, ↓State.updatePort_kept]

theorem execBlockLock_kept (p : Fin 288) (n : Nat) (s : State) (t : State) (h : execBlockLock p n s = .next t) : t.kept =
    s.kept := by
  unfold execBlockLock at h
  injection h with h
  subst h
  repeat' first | with_reducible rfl | split | simp only [↓kept_ite, ↓State.setPort_kept, ↓State.updatePort_kept]

theorem execBlockLockLoss_kept (p : Fin 288) (n : Nat) (s : State) (t : State) (h : execBlockLockLoss p n s = .next t) :
    t.kept = s.kept := by
  unfold execBlockLockLoss at h
  injection h with h
  subst h
  repeat' first | with_reducible rfl | split | simp only [↓kept_ite, ↓State.setPort_kept, ↓State.updatePort_kept]

theorem execHiSerChange_kept (p : Fin 288) (on : Bool) (s : State) (t : State) (h : execHiSerChange p on s = .next t) :
    t.kept = s.kept := by
  unfold execHiSerChange at h
  injection h with h
  subst h
  repeat' first | with_reducible rfl | split | simp only [↓kept_ite, ↓State.setPort_kept, ↓State.updatePort_kept]

theorem execClientFaultRx_kept (p : Fin 288) (lf : Bool) (rf : Bool) (s : State) (t : State) (h : execClientFaultRx p lf rf
    s = .next t) : t.kept = s.kept := by
  unfold execClientFaultRx at h
  injection h with h
  subst h
  repeat' first | with_reducible rfl | split | simp only [↓kept_ite, ↓State.portRegs_kept, ↓State.raise_kept,
      ↓State.setPort_kept]

theorem execFlexoDefectSet_kept (p : Fin 288) (d : Fin 3) (inst : Nat) (s : State) (t : State) (h : execFlexoDefectSet p d
    inst s = .next t) : t.kept = s.kept := by
  unfold execFlexoDefectSet at h
  injection h with h
  subst h
  repeat' first | with_reducible rfl | split | simp only [↓kept_ite, ↓State.raise_kept, ↓State.setPort_kept,
      ↓State.updatePort_kept]

theorem execFlexoDefectClr_kept (p : Fin 288) (d : Fin 3) (inst : Nat) (s : State) (t : State) (h : execFlexoDefectClr p d
    inst s = .next t) : t.kept = s.kept := by
  unfold execFlexoDefectClr at h
  injection h with h
  subst h
  repeat' first | with_reducible rfl | split | simp only [↓kept_ite, ↓State.raise_kept, ↓State.setPort_kept,
      ↓State.updatePort_kept]

theorem State.portOtuc_kept (s : State) (p : Nat) (inFrame : Bool) (inMf : Bool) : (State.portOtuc s p inFrame inMf).kept =
    s.kept := by
  unfold State.portOtuc
  simp only [↓State.setPort_kept]

theorem execClientIngressMap_kept (p : Fin 288) (codewords : Nat) (unc : Nat) (corr : List (Nat × Nat)) (sop : Bool) (otuc
    : Option (Bool × Bool)) (s : State) (t : State) (h : execClientIngressMap p codewords unc corr sop otuc s = .next t) :
        t.kept = s.kept := by
  unfold execClientIngressMap at h
  injection h with h
  subst h
  repeat' first
    | with_reducible rfl
    | simp only [↓kept_ite, ↓State.bump_kept, ↓State.portOtuc_kept, ↓State.setPort_kept]
    | (with_reducible apply foldl_keptT <;> try intro _ _)
    | (with_reducible apply foldl_kept1T <;> try intro _ _)
    | split
    | (apply foldl_keptT <;> try intro _ _)

theorem State.portAdapt_kept (s : State) (p : Nat) : (State.portAdapt s p).kept = s.kept := by
  unfold State.portAdapt
  repeat' first | with_reducible rfl | split | simp only [↓kept_ite, ↓State.setPort_kept]

theorem execPortSetup_kept (h : ReqHdr) (mem : HostMem) (lane : Nat) (width : Nat) (client : Nat) (rate : Nat) (txclk :
    Nat) (rclk : Nat) (group : Nat) (s : State) (t : State) (h : execPortSetup h mem lane width client rate txclk rclk
        group s = .next t) : t.kept = s.kept := by
  unfold execPortSetup at h
  injection h with h
  subst h
  repeat' first
    | with_reducible rfl
    | simp only [↓kept_mk, ↓State.releasePort_kept, ↓appPortSetup_kept]
    | (with_reducible apply foldl_keptT <;> try intro _ _)
    | (with_reducible apply foldl_kept1T <;> try intro _ _)
    | (with_reducible apply runOne_keptT <;> try intro _)
    | split
    | (apply foldl_keptT <;> try intro _ _)

/-! ### Timing -/

theorem State.modTim_kept (s : State) (g : TimSt → TimSt) : (State.modTim s g).kept = s.kept := by
  unfold State.modTim
  simp only [↓kept_mk]

theorem State.setDpll_kept (s : State) (d : Nat) (x : Dpll) : (State.setDpll s d x).kept = s.kept := by
  unfold State.setDpll
  simp only [↓State.modTim_kept]

theorem State.setCand_kept (s : State) (src : Nat) (c : Cand) : (State.setCand s src c).kept = s.kept := by
  unfold State.setCand
  simp only [↓State.modTim_kept, ↓State.wrB_kept]

theorem State.disqualify_kept (s : State) (src : Nat) (reason : Nat) : (State.disqualify s src reason).kept = s.kept := by
  unfold State.disqualify
  repeat' first | with_reducible rfl | split | simp only [↓kept_ite, ↓State.raise_kept, ↓State.setCand_kept]

theorem State.candAbsent_kept (s : State) (src : Nat) : (State.candAbsent s src).kept = s.kept := by
  unfold State.candAbsent
  simp only [↓State.disqualify_kept, ↓State.setCand_kept]

theorem State.timPresence_kept (s : State) : (State.timPresence s).kept = s.kept := by
  unfold State.timPresence
  repeat' first
    | with_reducible rfl
    | simp only [↓State.candAbsent_kept, ↓State.setCand_kept]
    | (with_reducible apply foldl_keptT <;> try intro _ _)
    | (with_reducible apply foldl_kept1T <;> try intro _ _)
    | split
    | (apply foldl_keptT <;> try intro _ _)

theorem execCandidateAbsent_kept (src : Fin 128) (s : State) (t : State) (h : execCandidateAbsent src s = .next t) : t.kept
    = s.kept := by
  unfold execCandidateAbsent at h
  injection h with h
  subst h
  repeat' first | with_reducible rfl | split | simp only [↓kept_ite, ↓State.candAbsent_kept]

theorem State.windowOf_kept (s : State) (src : Nat) (off : Int) (seen : Nat) : (State.windowOf s src off seen).kept =
    s.kept := by
  unfold State.windowOf
  repeat' first | with_reducible rfl | split | simp only [↓State.disqualify_kept, ↓State.raise_kept,
      ↓State.setCand_kept]

theorem execMeasurementWindowEnd_kept (obs : List (Nat × Int × Nat)) (s : State) (t : State) (h : execMeasurementWindowEnd
    obs s = .next t) : t.kept = s.kept := by
  unfold execMeasurementWindowEnd at h
  injection h with h
  subst h
  repeat' first
    | with_reducible rfl
    | simp only [↓kept_ite, ↓State.windowOf_kept]
    | (with_reducible apply foldl_keptT <;> try intro _ _)
    | (with_reducible apply foldl_kept1T <;> try intro _ _)
    | split
    | (apply foldl_keptT <;> try intro _ _)

theorem State.sendReports_kept (s : State) : (State.sendReports s).kept = s.kept := by
  unfold State.sendReports
  repeat' first
    | with_reducible rfl
    | simp only [↓State.meshLink_kept]
    | (with_reducible apply foldl_keptT <;> try intro _ _)
    | (with_reducible apply foldl_kept1T <;> try intro _ _)
    | split
    | (apply foldl_keptT <;> try intro _ _)

theorem execTimingReportSend_kept (s : State) (t : State) (h : execTimingReportSend s = .next t) : t.kept = s.kept := by
  unfold execTimingReportSend at h
  injection h with h
  subst h
  simp only [↓State.sendReports_kept]

theorem execTimingReport_kept (p : Fin 6) (state : Nat) (depth : Nat) (followed : Nat) (s : State) (t : State) (h :
    execTimingReport p state depth followed s = .next t) : t.kept = s.kept := by
  unfold execTimingReport at h
  injection h with h
  subst h
  repeat' first | with_reducible rfl | split | simp only [↓State.disqualify_kept, ↓State.setCand_kept]

theorem State.hoTimer_kept (s : State) (d : Nat) : (State.hoTimer s d).kept = s.kept := by
  unfold State.hoTimer
  repeat' first | with_reducible rfl | split | simp only [↓kept_ite, ↓State.raise_kept, ↓State.wr_kept,
      ↓State.wrB_kept]

theorem execHoldoverOos_kept (d : Fin 4) (s : State) (t : State) (h : execHoldoverOos d s = .next t) : t.kept = s.kept := by
  unfold execHoldoverOos at h
  injection h with h
  subst h
  simp only [↓State.hoTimer_kept]

theorem State.enterDpll_kept (s : State) (d : Nat) (st : Nat) : (State.enterDpll s d st).kept = s.kept := by
  unfold State.enterDpll
  repeat' first | with_reducible rfl | split | simp only [↓kept_ite, ↓State.fresh_kept, ↓State.hoTimer_kept,
      ↓State.raise_kept, ↓State.setDpll_kept, ↓State.wr_kept, ↓State.wrB_kept]

theorem State.selectDpll_kept (s : State) (d : Nat) : (State.selectDpll s d).kept = s.kept := by
  unfold State.selectDpll
  repeat' first | with_reducible rfl | split | simp only [↓kept_ite, ↓State.enterDpll_kept, ↓State.hoTimer_kept,
      ↓State.raise_kept, ↓State.setDpll_kept, ↓State.wr_kept, ↓State.wrB_kept, ↓State.wrS_kept]

theorem State.selectAll_kept (s : State) : (State.selectAll s).kept = s.kept := by
  unfold State.selectAll
  repeat' first
    | with_reducible rfl
    | simp only [↓State.selectDpll_kept]
    | (with_reducible apply foldl_keptT <;> try intro _ _)
    | (with_reducible apply foldl_kept1T <;> try intro _ _)
    | split
    | (apply foldl_keptT <;> try intro _ _)

theorem State.dpllMeasure_kept (s : State) (d : Nat) (err : Int) (fofs : Int) : (State.dpllMeasure s d err fofs).kept =
    s.kept := by
  unfold State.dpllMeasure
  simp only [↓State.wrS_kept]

theorem execDpllLocked_kept (d : Fin 4) (err : Int) (fofs : Int) (s : State) (t : State) (h : execDpllLocked d err fofs s =
    .next t) : t.kept = s.kept := by
  unfold execDpllLocked at h
  injection h with h
  subst h
  repeat' first | with_reducible rfl | split | simp only [↓kept_ite, ↓State.dpllMeasure_kept,
      ↓State.enterDpll_kept, ↓State.setDpll_kept]

theorem execDpllLockLost_kept (d : Fin 4) (err : Int) (fofs : Int) (s : State) (t : State) (h : execDpllLockLost d err fofs
    s = .next t) : t.kept = s.kept := by
  unfold execDpllLockLost at h
  injection h with h
  subst h
  repeat' first | with_reducible rfl | split | simp only [↓kept_ite, ↓State.dpllMeasure_kept,
      ↓State.enterDpll_kept, ↓State.setDpll_kept]

theorem State.resumeOut_kept (s : State) (k : Nat) : (State.resumeOut s k).kept = s.kept := by
  unfold State.resumeOut
  repeat' first | with_reducible rfl | split | simp only [↓kept_ite, ↓State.modTim_kept]

theorem execOutputChangeResume_kept (k : Fin 8) (s : State) (t : State) (h : execOutputChangeResume k s = .next t) : t.kept
    = s.kept := by
  unfold execOutputChangeResume at h
  injection h with h
  subst h
  simp only [↓State.resumeOut_kept]

theorem State.tickOut_kept (s : State) : (State.tickOut s).kept = s.kept := by
  unfold State.tickOut
  simp only [↓State.emit_kept]

theorem State.ppsOut_kept (s : State) : (State.ppsOut s).kept = s.kept := by
  unfold State.ppsOut
  repeat' first | with_reducible rfl | split | simp only [↓State.emit_kept, ↓State.fresh_kept,
      ↓State.modTim_kept, ↓State.raise_kept, ↓State.wr_kept, ↓State.wrB_kept]

theorem execPpsOutPulse_kept (s : State) (t : State) (h : execPpsOutPulse s = .next t) : t.kept = s.kept := by
  unfold execPpsOutPulse at h
  injection h with h
  subst h
  simp only [↓State.ppsOut_kept]

theorem State.setTod_kept (s : State) (i : Nat) (x : TodIn) : (State.setTod s i x).kept = s.kept := by
  unfold State.setTod
  simp only [↓State.modTim_kept]

theorem State.todStat_kept (s : State) : (State.todStat s).kept = s.kept := by
  unfold State.todStat
  repeat' first | with_reducible rfl | split | simp only [↓kept_ite, ↓State.raise_kept, ↓State.wr_kept,
      ↓State.wrB_kept]

theorem execTodMessage_kept (i : Fin 2) (b : List Byte) (s : State) (t : State) (h : execTodMessage i b s = .next t) :
    t.kept = s.kept := by
  unfold execTodMessage at h
  injection h with h
  subst h
  repeat' first | with_reducible rfl | split | simp only [↓State.bump_kept, ↓State.setTod_kept]

theorem State.todEdge_kept (s : State) (i : Nat) (edge : Nat) : (State.todEdge s i edge).kept = s.kept := by
  unfold State.todEdge
  repeat' first | with_reducible rfl | split | simp only [↓State.modPeat_kept, ↓State.modTim_kept,
      ↓State.raise_kept, ↓State.setTod_kept, ↓State.todStat_kept]

theorem State.edgeStamp_kept (s : State) (cycle : Nat) (delay : Int) : (State.edgeStamp s cycle delay).2.kept = s.kept := by
  unfold State.edgeStamp
  repeat' first
    | with_reducible rfl
    | simp only [↓State.fresh_kept]
    | (with_reducible apply foldl_keptT <;> try intro _ _)
    | (with_reducible apply foldl_kept1T <;> try intro _ _)
    | refine Eq.trans (State.fresh_kept' (by assumption)) ?_
    | split
    | (apply foldl_keptT <;> try intro _ _)

theorem State.edgeStamp_kept' {s : State} {cycle : Nat} {delay : Int} {x0 : Nat} {x1 : State} (h : State.edgeStamp s cycle
    delay = (x0, x1)) : x1.kept = s.kept := by
  rw [← State.edgeStamp_kept s cycle delay, h]

theorem execPpsEdgeStamp_kept (i : Fin 2) (cycle : Fin 10000) (s : State) (t : State) (h : execPpsEdgeStamp i cycle s =
    .next t) : t.kept = s.kept := by
  unfold execPpsEdgeStamp at h
  injection h with h
  subst h
  repeat' first | with_reducible rfl | split | simp only [↓kept_ite, ↓State.candAbsent_kept,
      ↓State.edgeStamp_kept, ↓State.modTim_kept, ↓State.setCand_kept, ↓State.todEdge_kept, ↓State.wr_kept, ↓State.wrB_kept]

theorem appTimInput_kept (input : Nat) (enable : Bool) (freq : Nat) (delay : Int) (y4 : Ctx) (s : State) : (appTimInput
    input enable freq delay y4 s).s.kept = s.kept := by
  unfold appTimInput
  repeat' first | with_reducible rfl | split | simp only [↓State.candAbsent_kept, ↓State.modTim_kept,
      ↓State.setCand_kept, ↓State.setTod_kept, ↓State.wrB_kept]

theorem execTimInput_kept (h : ReqHdr) (mem : HostMem) (input : Nat) (enable : Bool) (freq : Nat) (delay : Int) (s : State)
    (t : State) (h : execTimInput h mem input enable freq delay s = .next t) : t.kept = s.kept := by
  unfold execTimInput at h
  injection h with h
  subst h
  repeat' first
    | with_reducible rfl
    | simp only [↓appTimInput_kept]
    | (with_reducible apply foldl_keptT <;> try intro _ _)
    | (with_reducible apply foldl_kept1T <;> try intro _ _)
    | (with_reducible apply runOne_keptT <;> try intro _)
    | split
    | (apply foldl_keptT <;> try intro _ _)

theorem appTimPrio_kept (wtr : Nat) (addr : Nat) (c : Ctx) (s : State) : (appTimPrio wtr addr c s).s.kept = s.kept := by
  unfold appTimPrio
  repeat' first | with_reducible rfl | split | simp only [↓State.modTim_kept]

theorem execTimPrio_kept (h : ReqHdr) (mem : HostMem) (wtr : Nat) (addr : Nat) (s : State) (t : State) (h : execTimPrio h
    mem wtr addr s = .next t) : t.kept = s.kept := by
  unfold execTimPrio at h
  injection h with h
  subst h
  repeat' first
    | with_reducible rfl
    | simp only [↓appTimPrio_kept]
    | (with_reducible apply foldl_keptT <;> try intro _ _)
    | (with_reducible apply foldl_kept1T <;> try intro _ _)
    | (with_reducible apply runOne_keptT <;> try intro _)
    | split
    | (apply foldl_keptT <;> try intro _ _)

theorem appTimDpll_kept (d : Nat) (mode : Nat) (force : Nat) (revert : Bool) (bw : Nat) (hoSpec : Nat) (y6 : Ctx) (s :
    State) : (appTimDpll d mode force revert bw hoSpec y6 s).s.kept = s.kept := by
  unfold appTimDpll
  simp only [↓State.setDpll_kept]

theorem execTimDpll_kept (h : ReqHdr) (mem : HostMem) (d : Nat) (mode : Nat) (force : Nat) (revert : Bool) (bw : Nat)
    (hoSpec : Nat) (s : State) (t : State) (h : execTimDpll h mem d mode force revert bw hoSpec s = .next t) : t.kept =
        s.kept := by
  unfold execTimDpll at h
  injection h with h
  subst h
  repeat' first
    | with_reducible rfl
    | simp only [↓appTimDpll_kept]
    | (with_reducible apply foldl_keptT <;> try intro _ _)
    | (with_reducible apply foldl_kept1T <;> try intro _ _)
    | (with_reducible apply runOne_keptT <;> try intro _)
    | split
    | (apply foldl_keptT <;> try intro _ _)

theorem appTimOutput_kept (output : Nat) (freq : Nat) (src : Nat) (sq : Nat) (mode : Nat) (step : Bool) (phase : Nat) (y7 :
    Ctx) (s : State) : (appTimOutput output freq src sq mode step phase y7 s).s.kept = s.kept := by
  unfold appTimOutput
  repeat' first | with_reducible rfl | split | simp only [↓State.modTim_kept]

theorem execTimOutput_kept (h : ReqHdr) (mem : HostMem) (output : Nat) (freq : Nat) (src : Nat) (sq : Nat) (mode : Nat)
    (step : Bool) (phase : Nat) (s : State) (t : State) (h : execTimOutput h mem output freq src sq mode step phase s =
        .next t) : t.kept = s.kept := by
  unfold execTimOutput at h
  injection h with h
  subst h
  repeat' first
    | with_reducible rfl
    | simp only [↓appTimOutput_kept]
    | (with_reducible apply foldl_keptT <;> try intro _ _)
    | (with_reducible apply foldl_kept1T <;> try intro _ _)
    | (with_reducible apply runOne_keptT <;> try intro _)
    | split
    | (apply foldl_keptT <;> try intro _ _)

theorem appTimTod_kept (src : Nat) (stepEn : Bool) (y2 : Ctx) (s : State) : (appTimTod src stepEn y2 s).s.kept = s.kept := by
  unfold appTimTod
  simp only [↓State.modTim_kept, ↓State.todStat_kept]

theorem execTimTod_kept (h : ReqHdr) (mem : HostMem) (src : Nat) (stepEn : Bool) (s : State) (t : State) (h : execTimTod h
    mem src stepEn s = .next t) : t.kept = s.kept := by
  unfold execTimTod at h
  injection h with h
  subst h
  repeat' first
    | with_reducible rfl
    | simp only [↓appTimTod_kept]
    | (with_reducible apply foldl_keptT <;> try intro _ _)
    | (with_reducible apply foldl_kept1T <;> try intro _ _)
    | (with_reducible apply runOne_keptT <;> try intro _)
    | split
    | (apply foldl_keptT <;> try intro _ _)

/-! ### Twin -/

theorem State.modTwin_kept (s : State) (g : TwinSt → TwinSt) : (State.modTwin s g).kept = s.kept := by
  unfold State.modTwin
  simp only [↓State.modTim_kept]

theorem State.enterAligning_kept (s : State) : (State.enterAligning s).kept = s.kept := by
  unfold State.enterAligning
  simp only [↓State.raise_kept, ↓State.wr_kept]

theorem appTimTwin_kept (action : Nat) (lead : Nat) (peer : Nat) (lanes : Nat) (y4 : Ctx) (s : State) : (appTimTwin action
    lead peer lanes y4 s).s.kept = s.kept := by
  unfold appTimTwin
  repeat' first | with_reducible rfl | split | simp only [↓kept_ite, ↓State.modTwin_kept, ↓State.raise_kept,
      ↓State.wr_kept, ↓State.wrB_kept]

theorem execTimTwinSetup_kept (h : ReqHdr) (mem : HostMem) (lead : Nat) (peer : Nat) (lanes : Nat) (s : State) (t : State)
    (h : execTimTwinSetup h mem lead peer lanes s = .next t) : t.kept = s.kept := by
  unfold execTimTwinSetup at h
  injection h with h
  subst h
  repeat' first
    | with_reducible rfl
    | simp only [↓appTimTwin_kept]
    | (with_reducible apply foldl_keptT <;> try intro _ _)
    | (with_reducible apply foldl_kept1T <;> try intro _ _)
    | (with_reducible apply runOne_keptT <;> try intro _)
    | split
    | (apply foldl_keptT <;> try intro _ _)

theorem execTimTwinRemove_kept (h : ReqHdr) (mem : HostMem) (lead : Nat) (peer : Nat) (lanes : Nat) (s : State) (t : State)
    (h : execTimTwinRemove h mem lead peer lanes s = .next t) : t.kept = s.kept := by
  unfold execTimTwinRemove at h
  injection h with h
  subst h
  repeat' first
    | with_reducible rfl
    | simp only [↓appTimTwin_kept]
    | (with_reducible apply foldl_keptT <;> try intro _ _)
    | (with_reducible apply foldl_kept1T <;> try intro _ _)
    | (with_reducible apply runOne_keptT <;> try intro _)
    | split
    | (apply foldl_keptT <;> try intro _ _)

theorem State.sendOfs_kept (s : State) : (State.sendOfs s).2.kept = s.kept := by
  unfold State.sendOfs
  simp only [↓State.fresh_kept]

theorem State.sendOfs_kept' {s : State} {x0 : Nat} {x1 : State} (h : State.sendOfs s = (x0, x1)) : x1.kept = s.kept := by
  rw [← State.sendOfs_kept s, h]

theorem State.sendPhase_kept (s : State) : (State.sendPhase s).kept = s.kept := by
  unfold State.sendPhase
  repeat' first
    | with_reducible rfl
    | simp only [↓kept_ite, ↓State.meshLink_kept, ↓State.sendOfs_kept]
    | (with_reducible apply foldl_keptT <;> try intro _ _)
    | (with_reducible apply foldl_kept1T <;> try intro _ _)
    | refine Eq.trans (State.sendOfs_kept' (by assumption)) ?_
    | split
    | (apply foldl_keptT <;> try intro _ _)

theorem execTwinPhaseSend_kept (s : State) (t : State) (h : execTwinPhaseSend s = .next t) : t.kept = s.kept := by
  unfold execTwinPhaseSend at h
  injection h with h
  subst h
  simp only [↓State.sendPhase_kept]

theorem State.sendProbe_kept (s : State) : (State.sendProbe s).kept = s.kept := by
  unfold State.sendProbe
  repeat' first
    | with_reducible rfl
    | simp only [↓kept_ite, ↓State.meshLink_kept, ↓State.modTwin_kept, ↓State.sendOfs_kept]
    | (with_reducible apply foldl_keptT <;> try intro _ _)
    | (with_reducible apply foldl_kept1T <;> try intro _ _)
    | refine Eq.trans (State.sendOfs_kept' (by assumption)) ?_
    | split
    | (apply foldl_keptT <;> try intro _ _)

theorem execTwinProbeSend_kept (s : State) (t : State) (h : execTwinProbeSend s = .next t) : t.kept = s.kept := by
  unfold execTwinProbeSend at h
  injection h with h
  subst h
  simp only [↓State.sendProbe_kept]

theorem execTwinPhase_kept (lead : Nat) (ofs : Nat) (probe : Option (Nat × Nat × Nat)) (arr : Fin 160000) (s : State) (t :
    State) (h : execTwinPhase lead ofs probe arr s = .next t) : t.kept = s.kept := by
  unfold execTwinPhase at h
  injection h with h
  subst h
  repeat' first | with_reducible rfl | split | simp only [↓State.enterAligning_kept,
      ↓State.modTwin_kept, ↓State.nearestOpen_kept, ↓State.wrS_kept]

theorem execTwinProbe_kept (tick : Nat) (ofs : Nat) (arr : Fin 160000) (s : State) (t : State) (h : execTwinProbe tick ofs
    arr s = .next t) : t.kept = s.kept := by
  unfold execTwinProbe at h
  injection h with h
  subst h
  repeat' first | with_reducible rfl | split | simp only [↓State.enterAligning_kept,
      ↓State.modTwin_kept, ↓State.nearestOpen_kept]

theorem State.sendRecords_kept (n : Nat) (l : List TwinRec) (s : State) : (State.sendRecords n l s).kept = s.kept := by
  induction n generalizing l s with
  | zero => rfl
  | succ k ih =>
    cases l with
    | nil => rfl
    | cons r l =>
      unfold State.sendRecords
      dsimp only
      rw [ih, State.meshLink_kept]

theorem State.sendTwinEgress_kept (s : State) : (State.sendTwinEgress s).kept = s.kept := by
  unfold State.sendTwinEgress
  repeat' first | with_reducible rfl | split | simp only [↓State.sendRecords_kept]

theorem execTwinEgressSend_kept (s : State) (t : State) (h : execTwinEgressSend s = .next t) : t.kept = s.kept := by
  unfold execTwinEgressSend at h
  injection h with h
  subst h
  simp only [↓State.sendTwinEgress_kept]

theorem execTwinEgress_kept (recs : List TwinRec) (s : State) (t : State) (h : execTwinEgress recs s = .next t) : t.kept =
    s.kept := by
  unfold execTwinEgress at h
  injection h with h
  subst h
  repeat' first
    | with_reducible rfl
    | simp only [↓kept_ite, ↓State.modTwin_kept]
    | (with_reducible apply foldl_keptT <;> try intro _ _)
    | (with_reducible apply foldl_kept1T <;> try intro _ _)
    | split
    | (apply foldl_keptT <;> try intro _ _)

theorem State.twinLook_kept (s : State) : (State.twinLook s).kept = s.kept := by
  unfold State.twinLook
  repeat' first | with_reducible rfl | split | simp only [↓kept_ite, ↓State.modTwin_kept]

theorem State.twinAlign_kept (s : State) : (State.twinAlign s).kept = s.kept := by
  unfold State.twinAlign
  repeat' first | with_reducible rfl | split | simp only [↓kept_ite, ↓State.raise_kept, ↓State.twinLook_kept,
      ↓State.wr_kept]

theorem execTwinAligned_kept (s : State) (t : State) (h : execTwinAligned s = .next t) : t.kept = s.kept := by
  unfold execTwinAligned at h
  injection h with h
  subst h
  simp only [↓State.twinAlign_kept]

theorem State.twinLapse_kept (s : State) : (State.twinLapse s).kept = s.kept := by
  unfold State.twinLapse
  repeat' first | with_reducible rfl | split | simp only [↓kept_ite, ↓State.modTwin_kept, ↓State.raise_kept,
      ↓State.twinLook_kept, ↓State.wr_kept]

theorem execTwinLapsed_kept (s : State) (t : State) (h : execTwinLapsed s = .next t) : t.kept = s.kept := by
  unfold execTwinLapsed at h
  injection h with h
  subst h
  simp only [↓State.twinLapse_kept]

theorem State.twinAgain_kept (s : State) : (State.twinAgain s).kept = s.kept := by
  unfold State.twinAgain
  repeat' first | with_reducible rfl | split | simp only [↓State.enterAligning_kept]

theorem execTwinRealign_kept (s : State) (t : State) (h : execTwinRealign s = .next t) : t.kept = s.kept := by
  unfold execTwinRealign at h
  injection h with h
  subst h
  simp only [↓State.twinAgain_kept]

theorem execTwinSteerLimit_kept (ppb : Int) (s : State) (t : State) (h : execTwinSteerLimit ppb s = .next t) : t.kept =
    s.kept := by
  unfold execTwinSteerLimit at h
  injection h with h
  subst h
  repeat' first | with_reducible rfl | split | simp only [↓kept_ite, ↓State.modTwin_kept, ↓State.raise_kept]

end Sys2Proof.Machine
end

