-- ==== Sys2Proof/Laws/Kept3.lean ====
section
/-! SUPPORT. The tick, the fuse array and the queue are left alone by the operations of Egress, Tenancy, Sa, XcBase,
XcFlow, Pm, XcTable. -/
namespace Sys2Proof.Machine

/-! ### Egress -/

theorem State.divergence_kept (s : State) (p : Nat) (e : Nat) (own : Option TwinRec) : (State.divergence s p e own).kept =
    s.kept := by
  unfold State.divergence
  repeat' first
    | with_reducible rfl
    | simp only [↓kept_ite, ↓State.raise_kept]
    | (with_reducible apply foldl_keptT <;> try intro _ _)
    | (with_reducible apply foldl_kept1T <;> try intro _ _)
    | split
    | (apply foldl_keptT <;> try intro _ _)

theorem State.missedFrame_kept (s : State) (m : Option Nat) : (State.missedFrame s m).kept = s.kept := by
  unfold State.missedFrame
  repeat' first | with_reducible rfl | split | simp only [↓State.setEp_kept]

theorem State.egressAdapt_kept (s : State) (p : Nat) (made : Nat) (level : Int) (adapt : Int) (ovf : Option (Fin 2)) (x :
    PortSt) (y : PortSt) : (State.egressAdapt s p made level adapt ovf x y).kept = s.kept := by
  unfold State.egressAdapt
  repeat' first | with_reducible rfl | split | simp only [↓kept_ite, ↓State.bump_kept, ↓State.raise_kept,
      ↓State.setPort_kept]

theorem State.egressSend_kept (s : State) (p : Nat) (e : Nat) (made : Nat) (level : Int) (ovf : Option (Fin 2)) (x :
    PortSt) (plan : Int × Bool × Option Nat) : (State.egressSend s p e made level ovf x plan).kept = s.kept := by
  unfold State.egressSend
  repeat' first | with_reducible rfl | split | simp only [↓kept_ite, ↓State.egressAdapt_kept,
      ↓State.missedFrame_kept, ↓State.setPort_kept, ↓State.wrB_kept]

theorem execClientEgressMap_kept (p : Fin 288) (made : Nat) (level : Int) (ovf : Option (Fin 2)) (s : State) (t : State) (h
    : execClientEgressMap p made level ovf s = .next t) : t.kept = s.kept := by
  unfold execClientEgressMap at h
  injection h with h
  subst h
  repeat' first | with_reducible rfl | split | simp only [↓kept_ite, ↓State.divergence_kept, ↓State.egressSend_kept]

/-! ### Tenancy -/

theorem State.slotsWritten_kept (s : State) (keys : List Nat) : (State.slotsWritten s keys).kept = s.kept := by
  unfold State.slotsWritten
  simp only [↓State.fenceRegs_kept, ↓State.modMem_kept]

theorem State.quotaEvent_kept (s : State) (t : Nat) (res : Nat) (above : Bool) : (State.quotaEvent s t res above).kept =
    s.kept := by
  unfold State.quotaEvent
  simp only [↓State.raiseEv_kept]

theorem State.quotaRegs_kept (s : State) : (State.quotaRegs s).kept = s.kept := by
  unfold State.quotaRegs
  simp only [↓State.wr_kept, ↓State.wrB_kept]

theorem State.quotaUpdate_kept (s : State) (t : Nat) : (State.quotaUpdate s t).kept = s.kept := by
  unfold State.quotaUpdate
  repeat' first | with_reducible rfl | split | simp only [↓kept_ite, ↓State.quotaEvent_kept,
      ↓State.quotaRegs_kept, ↓State.setTenant_kept]

theorem State.xcRegs_kept (s : State) : (State.xcRegs s).kept = s.kept := by
  unfold State.xcRegs
  simp only [↓State.wr_kept]

theorem appQuotaSet_kept (units : Nat) (sas : Nat) (grans : Nat) (c : Ctx) (s : State) : (appQuotaSet units sas grans c
    s).s.kept = s.kept := by
  unfold appQuotaSet
  simp only [↓State.quotaUpdate_kept, ↓State.setTenant_kept]

theorem execQuotaSet_kept (h : ReqHdr) (mem : HostMem) (units : Nat) (sas : Nat) (grans : Nat) (s : State) (t : State) (h :
    execQuotaSet h mem units sas grans s = .next t) : t.kept = s.kept := by
  unfold execQuotaSet at h
  injection h with h
  subst h
  repeat' first
    | with_reducible rfl
    | simp only [↓appQuotaSet_kept]
    | (with_reducible apply foldl_keptT <;> try intro _ _)
    | (with_reducible apply foldl_kept1T <;> try intro _ _)
    | (with_reducible apply runOne_keptT <;> try intro _)
    | split
    | (apply foldl_keptT <;> try intro _ _)

theorem appQuotaRead_kept (buf : Nat) (dn : Nat) (c : Ctx) (s : State) : (appQuotaRead buf dn c s).s.kept = s.kept := by
  unfold appQuotaRead
  simp only [↓State.takeRead_kept]

theorem execQuotaRead_kept (h : ReqHdr) (mem : HostMem) (buf : Nat) (s : State) (t : State) (h : execQuotaRead h mem buf s
    = .next t) : t.kept = s.kept := by
  unfold execQuotaRead at h
  injection h with h
  subst h
  repeat' first
    | with_reducible rfl
    | simp only [↓appQuotaRead_kept]
    | (with_reducible apply foldl_keptT <;> try intro _ _)
    | (with_reducible apply foldl_kept1T <;> try intro _ _)
    | (with_reducible apply runOne_keptT <;> try intro _)
    | split
    | (apply foldl_keptT <;> try intro _ _)

theorem appTenantCreate_kept (c : Ctx) (s : State) : (appTenantCreate c s).s.kept = s.kept := by
  unfold appTenantCreate
  simp only [↓State.setTenant_kept]

theorem execTenantCreate_kept (h : ReqHdr) (mem : HostMem) (s : State) (t : State) (h : execTenantCreate h mem s = .next t)
    : t.kept = s.kept := by
  unfold execTenantCreate at h
  injection h with h
  subst h
  repeat' first
    | with_reducible rfl
    | simp only [↓appTenantCreate_kept]
    | (with_reducible apply foldl_keptT <;> try intro _ _)
    | (with_reducible apply foldl_kept1T <;> try intro _ _)
    | (with_reducible apply runOne_keptT <;> try intro _)
    | split
    | (apply foldl_keptT <;> try intro _ _)

theorem State.setKek_kept (s : State) (t : Nat) (k : Option Kek) : (State.setKek s t k).kept = s.kept := by
  unfold State.setKek
  simp only [↓kept_mk, ↓State.memWrite_kept]

theorem State.eraseKek_kept (s : State) (t : Nat) (reason : Nat) : (State.eraseKek s t reason).kept = s.kept := by
  unfold State.eraseKek
  repeat' first | with_reducible rfl | split | simp only [↓State.raiseEv_kept, ↓State.setKek_kept]

theorem appTenantDelete_kept (c : Ctx) (s : State) : (appTenantDelete c s).s.kept = s.kept := by
  unfold appTenantDelete
  simp only [↓State.eraseKek_kept, ↓State.quotaRegs_kept, ↓State.setTenant_kept]

theorem execTenantDelete_kept (h : ReqHdr) (mem : HostMem) (s : State) (t : State) (h : execTenantDelete h mem s = .next t)
    : t.kept = s.kept := by
  unfold execTenantDelete at h
  injection h with h
  subst h
  repeat' first
    | with_reducible rfl
    | simp only [↓appTenantDelete_kept]
    | (with_reducible apply foldl_keptT <;> try intro _ _)
    | (with_reducible apply foldl_kept1T <;> try intro _ _)
    | (with_reducible apply runOne_keptT <;> try intro _)
    | split
    | (apply foldl_keptT <;> try intro _ _)

/-! ### Sa -/

theorem State.setSa_kept (s : State) (i : Nat) (x : SaRec) : (State.setSa s i x).kept = s.kept := by
  unfold State.setSa
  simp only [↓kept_mk]

theorem State.saRegs_kept (s : State) : (State.saRegs s).kept = s.kept := by
  unfold State.saRegs
  simp only [↓State.wr_kept]

theorem State.saEvent_kept (s : State) (code : Nat) (i : Nat) (vals : List EVal) : (State.saEvent s code i vals).kept =
    s.kept := by
  unfold State.saEvent
  simp only [↓State.raiseFor_kept]

theorem State.keyWritten_kept (s : State) (i : Nat) (k : Nat) : (State.keyWritten s i k).kept = s.kept := by
  unfold State.keyWritten
  simp only [↓State.memWrite_kept]

theorem State.keyErrorEvent_kept (s : State) (i : Nat) (k : Nat) : (State.keyErrorEvent s i k).kept = s.kept := by
  unfold State.keyErrorEvent
  simp only [↓State.raiseEv_kept]

theorem State.keyErase_kept (s : State) (i : Nat) (k : Nat) : (State.keyErase s i k).kept = s.kept := by
  unfold State.keyErase
  repeat' first | with_reducible rfl | split | simp only [↓kept_ite, ↓State.keyErrorEvent_kept,
      ↓State.saEvent_kept, ↓State.saRegs_kept, ↓State.setSa_kept]

theorem appSaCreate_kept (i : Nat) (role : Nat) (peer : Nat) (peerSa : Nat) (soft : Nat) (c : Ctx) (s : State) :
    (appSaCreate i role peer peerSa soft c s).s.kept = s.kept := by
  unfold appSaCreate
  simp only [↓State.memWrite_kept, ↓State.quotaUpdate_kept, ↓State.saRegs_kept, ↓State.setSa_kept]

theorem execSaCreate_kept (h : ReqHdr) (mem : HostMem) (i : Nat) (role : Nat) (peer : Nat) (peerSa : Nat) (soft : Nat) (s :
    State) (t : State) (h : execSaCreate h mem i role peer peerSa soft s = .next t) : t.kept = s.kept := by
  unfold execSaCreate at h
  injection h with h
  subst h
  repeat' first
    | with_reducible rfl
    | simp only [↓appSaCreate_kept]
    | (with_reducible apply foldl_keptT <;> try intro _ _)
    | (with_reducible apply foldl_kept1T <;> try intro _ _)
    | (with_reducible apply runOne_keptT <;> try intro _)
    | split
    | (apply foldl_keptT <;> try intro _ _)

theorem appSaChange_kept (i : Nat) (role : Nat) (peer : Nat) (peerSa : Nat) (soft : Nat) (y5 : Ctx) (s : State) :
    (appSaChange i role peer peerSa soft y5 s).s.kept = s.kept := by
  unfold appSaChange
  simp only [↓State.setSa_kept]

theorem execSaChange_kept (h : ReqHdr) (mem : HostMem) (i : Nat) (role : Nat) (peer : Nat) (peerSa : Nat) (soft : Nat) (s :
    State) (t : State) (h : execSaChange h mem i role peer peerSa soft s = .next t) : t.kept = s.kept := by
  unfold execSaChange at h
  injection h with h
  subst h
  repeat' first
    | with_reducible rfl
    | simp only [↓appSaChange_kept]
    | (with_reducible apply foldl_keptT <;> try intro _ _)
    | (with_reducible apply foldl_kept1T <;> try intro _ _)
    | (with_reducible apply runOne_keptT <;> try intro _)
    | split
    | (apply foldl_keptT <;> try intro _ _)

theorem appSaDelete_kept (i : Nat) (y1 : Ctx) (s : State) : (appSaDelete i y1 s).s.kept = s.kept := by
  unfold appSaDelete
  simp only [↓State.memWrite_kept, ↓State.quotaUpdate_kept, ↓State.saRegs_kept, ↓State.setSa_kept]

theorem execSaDelete_kept (h : ReqHdr) (mem : HostMem) (i : Nat) (s : State) (t : State) (h : execSaDelete h mem i s =
    .next t) : t.kept = s.kept := by
  unfold execSaDelete at h
  injection h with h
  subst h
  repeat' first
    | with_reducible rfl
    | simp only [↓appSaDelete_kept]
    | (with_reducible apply foldl_keptT <;> try intro _ _)
    | (with_reducible apply foldl_kept1T <;> try intro _ _)
    | (with_reducible apply runOne_keptT <;> try intro _)
    | split
    | (apply foldl_keptT <;> try intro _ _)

theorem appKeyLoad_kept (i : Nat) (addr : Nat) (c : Ctx) (s : State) : (appKeyLoad i addr c s).s.kept = s.kept := by
  unfold appKeyLoad
  repeat' first | with_reducible rfl | split | simp only [↓kept_mk, ↓State.keyWritten_kept, ↓State.saEvent_kept,
      ↓State.saRegs_kept, ↓State.setSa_kept]

theorem execKeyLoad_kept (h : ReqHdr) (mem : HostMem) (i : Nat) (addr : Nat) (s : State) (t : State) (h : execKeyLoad h mem
    i addr s = .next t) : t.kept = s.kept := by
  unfold execKeyLoad at h
  injection h with h
  subst h
  repeat' first
    | with_reducible rfl
    | simp only [↓appKeyLoad_kept]
    | (with_reducible apply foldl_keptT <;> try intro _ _)
    | (with_reducible apply foldl_kept1T <;> try intro _ _)
    | (with_reducible apply runOne_keptT <;> try intro _)
    | split
    | (apply foldl_keptT <;> try intro _ _)

theorem appKeyDiscard_kept (i : Nat) (y1 : Ctx) (s : State) : (appKeyDiscard i y1 s).s.kept = s.kept := by
  unfold appKeyDiscard
  simp only [↓State.keyWritten_kept, ↓State.setSa_kept]

theorem execKeyDiscard_kept (h : ReqHdr) (mem : HostMem) (i : Nat) (s : State) (t : State) (h : execKeyDiscard h mem i s =
    .next t) : t.kept = s.kept := by
  unfold execKeyDiscard at h
  injection h with h
  subst h
  repeat' first
    | with_reducible rfl
    | simp only [↓appKeyDiscard_kept]
    | (with_reducible apply foldl_keptT <;> try intro _ _)
    | (with_reducible apply foldl_kept1T <;> try intro _ _)
    | (with_reducible apply runOne_keptT <;> try intro _)
    | split
    | (apply foldl_keptT <;> try intro _ _)

theorem appKeyRoll_kept (i : Nat) (r : Nat) (y2 : Ctx) (s : State) : (appKeyRoll i r y2 s).s.kept = s.kept := by
  unfold appKeyRoll
  simp only [↓State.setSa_kept]

theorem execKeyRoll_kept (h : ReqHdr) (mem : HostMem) (i : Nat) (r : Nat) (s : State) (t : State) (h : execKeyRoll h mem i
    r s = .next t) : t.kept = s.kept := by
  unfold execKeyRoll at h
  injection h with h
  subst h
  repeat' first
    | with_reducible rfl
    | simp only [↓kept_ite, ↓State.keyRollSend_kept, ↓appKeyRoll_kept]
    | (with_reducible apply foldl_keptT <;> try intro _ _)
    | (with_reducible apply foldl_kept1T <;> try intro _ _)
    | (with_reducible apply runOne_keptT <;> try intro _)
    | split
    | (apply foldl_keptT <;> try intro _ _)

theorem State.keyRollApply_kept (s : State) (i : Nat) : (State.keyRollApply s i).kept = s.kept := by
  unfold State.keyRollApply
  repeat' first | with_reducible rfl | split | simp only [↓State.saEvent_kept, ↓State.saRegs_kept,
      ↓State.setSa_kept]

theorem execKeyRollApply_kept (i : Fin 16384) (s : State) (t : State) (h : execKeyRollApply i s = .next t) : t.kept =
    s.kept := by
  unfold execKeyRollApply at h
  injection h with h
  subst h
  simp only [↓State.keyRollApply_kept]

theorem execPreviousKeyErase_kept (i : Fin 16384) (s : State) (t : State) (h : execPreviousKeyErase i s = .next t) : t.kept
    = s.kept := by
  unfold execPreviousKeyErase at h
  injection h with h
  subst h
  repeat' first | with_reducible rfl | split | simp only [↓State.keyWritten_kept, ↓State.saEvent_kept,
      ↓State.setSa_kept]

theorem appSaRead_kept (i : Nat) (buf : Nat) (dn : Nat) (c : Ctx) (s : State) : (appSaRead i buf dn c s).s.kept = s.kept := by
  unfold appSaRead
  simp only [↓State.takeRead_kept]

theorem execSaRead_kept (h : ReqHdr) (mem : HostMem) (i : Nat) (buf : Nat) (s : State) (t : State) (h : execSaRead h mem i
    buf s = .next t) : t.kept = s.kept := by
  unfold execSaRead at h
  injection h with h
  subst h
  repeat' first
    | with_reducible rfl
    | simp only [↓appSaRead_kept]
    | (with_reducible apply foldl_keptT <;> try intro _ _)
    | (with_reducible apply foldl_kept1T <;> try intro _ _)
    | (with_reducible apply runOne_keptT <;> try intro _)
    | split
    | (apply foldl_keptT <;> try intro _ _)

/-! ### XcBase -/

theorem State.setXep_kept (s : State) (e : Nat) (x : Endpoint) : (State.setXep s e x).kept = s.kept := by
  unfold State.setXep
  repeat' first | with_reducible rfl | split | simp only [↓kept_mk, ↓State.setEp_kept]

theorem State.pmFrame_kept (s : State) (e : Nat) (l : Nat) (oh : List OhObs) (defect : Bool) : (State.pmFrame s e l oh
    defect).kept = s.kept := by
  unfold State.pmFrame
  repeat' first | with_reducible rfl | split | simp only [↓kept_mk]

theorem State.pmConn_kept (s : State) (e : Nat) (toDst : Bool) (oh : List OhObs) (defect : Bool) : (State.pmConn s e toDst
    oh defect).kept = s.kept := by
  unfold State.pmConn
  repeat' first
    | with_reducible rfl
    | simp only [↓kept_ite, ↓State.pmFrame_kept]
    | (with_reducible apply foldl_keptT <;> try intro _ _)
    | (with_reducible apply foldl_kept1T <;> try intro _ _)
    | split
    | (apply foldl_keptT <;> try intro _ _)

theorem State.authFailed_kept (s : State) (i : Nat) (reason : Nat) : (State.authFailed s i reason).kept = s.kept := by
  unfold State.authFailed
  repeat' first | with_reducible rfl | split | simp only [↓kept_mk, ↓kept_ite, ↓State.saEvent_kept, ↓State.setSa_kept]

theorem State.authenticate_kept (s : State) (i : Nat) (down : Bool) (f : List Byte) : (State.authenticate s i down
    f).s.kept = s.kept := by
  unfold State.authenticate
  repeat' first | with_reducible rfl | split | simp only [↓State.authFailed_kept, ↓State.setSa_kept]

theorem State.encUnexpected_kept (s : State) (e : Nat) : (State.encUnexpected s e).kept = s.kept := by
  unfold State.encUnexpected
  repeat' first | with_reducible rfl | split | simp only [↓kept_ite, ↓State.raiseFor_kept, ↓State.setXep_kept]

theorem State.releaseAuth_kept (s : State) (i : Nat) (auth : Nat × Nat × Nat) : (State.releaseAuth s i auth).1.kept =
    s.kept := by
  unfold State.releaseAuth
  repeat' first | with_reducible rfl | split | simp only [↓State.saEvent_kept, ↓State.setSa_kept]

theorem State.releaseAuth_kept' {s : State} {i : Nat} {auth : Nat × Nat × Nat} {x0 : State} {x1 : Bool} (h :
    State.releaseAuth s i auth = (x0, x1)) : x0.kept = s.kept := by
  rw [← State.releaseAuth_kept s i auth, h]

/-! ### XcFlow -/

theorem State.addCopy_kept (s : State) (e : Nat) (c : Copy) : (State.addCopy s e c).kept = s.kept := by
  unfold State.addCopy
  simp only [↓State.setXep_kept]

theorem State.extractCopy_kept (s : State) (e : Nat) (src : Nat) (sig : Option Nat) (reset : Bool) (fine : Bool) (x :
    XcEntry) (bytes : List Byte) (b : Copy) : (State.extractCopy s e src sig reset fine x bytes b).kept = s.kept := by
  unfold State.extractCopy
  repeat' first | with_reducible rfl | split | simp only [↓State.addCopy_kept,
      ↓State.authenticate_kept, ↓State.encUnexpected_kept]

theorem execOduExtract_kept (e : Fin 131072) (src : Fin 8) (o : OduObs) (s : State) (t : State) (h : execOduExtract e src o
    s = .next t) : t.kept = s.kept := by
  unfold execOduExtract at h
  injection h with h
  subst h
  repeat' first
    | with_reducible rfl
    | simp only [↓kept_ite, ↓State.extractCopy_kept, ↓State.parityFail_kept, ↓State.pmFrame_kept]
    | (with_reducible apply foldl_keptT <;> try intro _ _)
    | (with_reducible apply foldl_kept1T <;> try intro _ _)
    | split
    | (apply foldl_keptT <;> try intro _ _)

theorem State.decide1_kept (s : State) (e : Nat) (toDst : Bool) (kind : Nat) (leg : Nat) (bytes : List Byte) (oh : List
    OhObs) : (State.decide1 s e toDst kind leg bytes oh).kept = s.kept := by
  unfold State.decide1
  simp only [↓State.pmConn_kept, ↓State.setXep_kept]

theorem State.decideCopy_kept (s : State) (e : Nat) (toDst : Bool) (c : Copy) : (State.decideCopy s e toDst c).kept =
    s.kept := by
  unfold State.decideCopy
  repeat' first | with_reducible rfl | split | simp only [↓State.decide1_kept, ↓State.releaseAuth_kept]

theorem State.markDone_kept (s : State) (e : Nat) (p : Copy → Bool) : (State.markDone s e p).kept = s.kept := by
  unfold State.markDone
  simp only [↓State.setXep_kept]

theorem State.fillFrames_kept (s : State) (e : Nat) (toDst : Bool) (kind : Nat) (n : Nat) : (State.fillFrames s e toDst
    kind n).kept = s.kept := by
  unfold State.fillFrames
  repeat' first
    | with_reducible rfl
    | simp only [↓State.decide1_kept]
    | (with_reducible apply foldl_keptT <;> try intro _ _)
    | (with_reducible apply foldl_kept1T <;> try intro _ _)
    | split
    | (apply foldl_keptT <;> try intro _ _)

theorem State.decidePlain_kept (s : State) (e : Nat) (toDst : Bool) (need : Nat) : (State.decidePlain s e toDst need).kept
    = s.kept := by
  unfold State.decidePlain
  repeat' first
    | with_reducible rfl
    | simp only [↓State.decideCopy_kept, ↓State.fillFrames_kept, ↓State.markDone_kept]
    | (with_reducible apply foldl_keptT <;> try intro _ _)
    | (with_reducible apply foldl_kept1T <;> try intro _ _)
    | split
    | (apply foldl_keptT <;> try intro _ _)

theorem State.decidePair_kept (s : State) (e : Nat) (c : Copy) : (State.decidePair s e c).kept = s.kept := by
  unfold State.decidePair
  repeat' first | with_reducible rfl | split | simp only [↓State.decide1_kept, ↓State.decideCopy_kept,
      ↓State.markDone_kept, ↓State.pmConn_kept, ↓State.setXep_kept]

theorem State.decideLichen_kept (s : State) (e : Nat) (need : Nat) : (State.decideLichen s e need).kept = s.kept := by
  unfold State.decideLichen
  repeat' first
    | with_reducible rfl
    | simp only [↓kept_ite, ↓State.decidePair_kept, ↓State.fillFrames_kept, ↓State.markDone_kept,
        ↓State.raiseFor_kept]
    | (with_reducible apply foldl_keptT <;> try intro _ _)
    | (with_reducible apply foldl_kept1T <;> try intro _ _)
    | split
    | (apply foldl_keptT <;> try intro _ _)

theorem State.decideJoined_kept (s : State) (e : Nat) (toDst : Bool) (c : Copy) (x : XcEntry) (bytes : List Byte) :
    (State.decideJoined s e toDst c x bytes).kept = s.kept := by
  unfold State.decideJoined
  repeat' first | with_reducible rfl | split | simp only [↓State.authenticate_kept,
      ↓State.decide1_kept, ↓State.decideCopy_kept, ↓State.encUnexpected_kept]

theorem State.joinState_kept (s : State) (e : Nat) (x : XcEntry) : (State.joinState s e x).kept = s.kept := by
  unfold State.joinState
  repeat' first | with_reducible rfl | split | simp only [↓State.setXep_kept]

theorem State.decideGroup_kept (s : State) (e : Nat) (toDst : Bool) (c : Copy) : (State.decideGroup s e toDst c).kept =
    s.kept := by
  unfold State.decideGroup
  repeat' first | with_reducible rfl | split | simp only [↓kept_ite, ↓State.decide1_kept,
      ↓State.decideJoined_kept, ↓State.joinState_kept, ↓State.markDone_kept]

theorem State.decideShare_kept (e : Nat) (toDst : Bool) (a : State × Nat) (c : Copy) :
    (State.decideShare e toDst a c).1.kept = a.1.kept := by
  unfold State.decideShare
  split
  · rfl
  · exact State.decideGroup_kept _ _ _ _

theorem State.decideImux_kept (s : State) (e : Nat) (toDst : Bool) (need : Nat) : (State.decideImux s e toDst need).kept =
    s.kept := by
  unfold State.decideImux
  repeat' first
    | with_reducible rfl
    | simp only [↓State.decideShare_kept, ↓State.fillFrames_kept]
    | (with_reducible apply foldl_keptT <;> try intro _ _)
    | (with_reducible apply foldl_kept1T <;> try intro _ _)
    | split
    | (apply foldl_keptT <;> try intro _ _)

theorem State.portDecision_kept (s : State) (e : Nat) (toDst : Bool) : (State.portDecision s e toDst).kept = s.kept := by
  unfold State.portDecision
  repeat' first | with_reducible rfl | split | simp only [↓kept_ite, ↓State.portAdapt_kept, ↓State.setPort_kept]

theorem State.egressToDst_kept (s : State) (e : Nat) (need : Nat) (x : XcEntry) : (State.egressToDst s e need x).kept =
    s.kept := by
  unfold State.egressToDst
  repeat' first | with_reducible rfl | split | simp only [↓State.decideImux_kept,
      ↓State.decideLichen_kept, ↓State.decidePlain_kept]

theorem State.egressToSrc_kept (s : State) (e : Nat) (need : Nat) (x : XcEntry) : (State.egressToSrc s e need x).kept =
    s.kept := by
  unfold State.egressToSrc
  repeat' first | with_reducible rfl | split | simp only [↓State.decideImux_kept,
      ↓State.decidePlain_kept]

theorem execEgressDecision_kept (e : Fin 131072) (needDst : Nat) (needSrc : Nat) (s : State) (t : State) (h :
    execEgressDecision e needDst needSrc s = .next t) : t.kept = s.kept := by
  unfold execEgressDecision at h
  injection h with h
  subst h
  repeat' first | with_reducible rfl | split | simp only [↓kept_ite, ↓State.egressToDst_kept,
      ↓State.egressToSrc_kept, ↓State.portDecision_kept]

theorem State.encryptOut_kept (s : State) (i : Nat) (down : Bool) (f : List Byte) : (State.encryptOut s i down f).1.kept =
    s.kept := by
  unfold State.encryptOut
  repeat' first | with_reducible rfl | split | simp only [↓State.saEvent_kept, ↓State.saRegs_kept,
      ↓State.setSa_kept]

theorem State.encryptOut_kept' {s : State} {i : Nat} {down : Bool} {f : List Byte} {x0 : State} {x1 : Nat} {x2 : List Byte}
    (h : State.encryptOut s i down f = (x0, x1, x2)) : x0.kept = s.kept := by
  rw [← State.encryptOut_kept s i down f, h]

theorem State.sendFrame_kept (s : State) (e : Nat) (toDst : Bool) (block : Bool) (kind : Nat) (bytes : List Byte) :
    (State.sendFrame s e toDst block kind bytes).kept = s.kept := by
  unfold State.sendFrame
  repeat' first | with_reducible rfl | split | simp only [↓kept_ite, ↓State.emit_kept, ↓State.encryptOut_kept,
      ↓State.setPort_kept, ↓State.setXep_kept]

theorem State.switchReads_kept (s : State) (e : Nat) : (State.switchReads s e).1.kept = s.kept := by
  unfold State.switchReads
  repeat' first
    | with_reducible rfl
    | simp only [↓kept_ite, ↓State.keyErase_kept, ↓State.memRead_kept]
    | (with_reducible apply foldl_keptT <;> try intro _ _)
    | (with_reducible apply foldl_kept1T <;> try intro _ _)
    | refine Eq.trans (State.memRead_kept' (by assumption)) ?_
    | split
    | (apply foldl_keptT <;> try intro _ _)

theorem State.switchReads_kept' {s : State} {e : Nat} {x0 : State} {x1 : Bool} {x2 : Bool} (h : State.switchReads s e =
    (x0, x1, x2)) : x0.kept = s.kept := by
  rw [← State.switchReads_kept s e, h]

theorem execXcSwitch_kept (e : Fin 131072) (ups : List UpObs) (s : State) (t : State) (h : execXcSwitch e ups s = .next t)
    : t.kept = s.kept := by
  unfold execXcSwitch at h
  injection h with h
  subst h
  repeat' first
    | with_reducible rfl
    | simp only [↓kept_ite, ↓State.sendFrame_kept, ↓State.setXep_kept, ↓State.switchReads_kept]
    | (with_reducible apply foldl_keptT <;> try intro _ _)
    | (with_reducible apply foldl_kept1T <;> try intro _ _)
    | refine Eq.trans (State.switchReads_kept' (by assumption)) ?_
    | split
    | (apply foldl_keptT <;> try intro _ _)

theorem State.checkExceeded_kept (s : State) (e : Nat) : (State.checkExceeded s e).kept = s.kept := by
  unfold State.checkExceeded
  repeat' first | with_reducible rfl | split | simp only [↓kept_ite, ↓State.raiseFor_kept, ↓State.setXep_kept]

theorem execLichenPaired_kept (e : Fin 131072) (s : State) (t : State) (h : execLichenPaired e s = .next t) : t.kept =
    s.kept := by
  unfold execLichenPaired at h
  injection h with h
  subst h
  repeat' first | with_reducible rfl | split | simp only [↓kept_ite, ↓State.checkExceeded_kept,
      ↓State.raiseFor_kept, ↓State.setXep_kept]

theorem execLichenSingle_kept (e : Fin 131072) (s : State) (t : State) (h : execLichenSingle e s = .next t) : t.kept =
    s.kept := by
  unfold execLichenSingle at h
  injection h with h
  subst h
  repeat' first | with_reducible rfl | split | simp only [↓kept_ite, ↓State.setXep_kept]

theorem execDeltaChange_kept (e : Fin 131072) (s : State) (t : State) (h : execDeltaChange e s = .next t) : t.kept = s.kept
    := by
  unfold execDeltaChange at h
  injection h with h
  subst h
  repeat' first | with_reducible rfl | split | simp only [↓kept_ite, ↓State.checkExceeded_kept, ↓State.setXep_kept]

theorem State.reanchor_kept (s : State) (e : Nat) (x : Endpoint) (move : Int) : (State.reanchor s e x move).kept = s.kept
    := by
  unfold State.reanchor
  simp only [↓State.checkExceeded_kept, ↓State.markDone_kept, ↓State.raiseFor_kept, ↓State.setXep_kept]

theorem execLichenReanchor_kept (e : Fin 131072) (s : State) (t : State) (h : execLichenReanchor e s = .next t) : t.kept =
    s.kept := by
  unfold execLichenReanchor at h
  injection h with h
  subst h
  repeat' first | with_reducible rfl | split | simp only [↓kept_ite, ↓State.reanchor_kept, ↓State.setXep_kept]

theorem execLegFail_kept (e : Fin 131072) (l : Fin 2) (s : State) (t : State) (h : execLegFail e l s = .next t) : t.kept =
    s.kept := by
  unfold execLegFail at h
  injection h with h
  subst h
  repeat' first | with_reducible rfl | split | simp only [↓kept_ite, ↓State.raiseFor_kept, ↓State.setXep_kept]

theorem execLegClear_kept (e : Fin 131072) (l : Fin 2) (s : State) (t : State) (h : execLegClear e l s = .next t) : t.kept
    = s.kept := by
  unfold execLegClear at h
  injection h with h
  subst h
  repeat' first | with_reducible rfl | split | simp only [↓kept_ite, ↓State.raiseFor_kept, ↓State.setXep_kept]

theorem execImuxSkewExceeded_kept (e : Fin 131072) (s : State) (t : State) (h : execImuxSkewExceeded e s = .next t) :
    t.kept = s.kept := by
  unfold execImuxSkewExceeded at h
  injection h with h
  subst h
  repeat' first | with_reducible rfl | split | simp only [↓kept_ite, ↓State.raiseFor_kept, ↓State.setXep_kept]

/-! ### Pm -/

theorem State.binTca_kept (s : State) (e : Nat) (len : Nat) (now : Nat) (b : EpBin) (endTick : Nat) : (State.binTca s e len
    now b endTick).1.kept = s.kept := by
  unfold State.binTca
  repeat' first
    | with_reducible rfl
    | simp only [↓State.raiseEv_kept]
    | (with_reducible apply foldl_keptT <;> try intro _ _)
    | (with_reducible apply foldl_kept1T <;> try intro _ _)
    | split
    | (apply foldl_keptT <;> try intro _ _)

theorem State.binTca_kept' {s : State} {e : Nat} {len : Nat} {now : Nat} {b : EpBin} {endTick : Nat} {x0 : State} {x1 :
    EpBin} (h : State.binTca s e len now b endTick = (x0, x1)) : x0.kept = s.kept := by
  rw [← State.binTca_kept s e len now b endTick, h]

theorem State.setEpPm_kept (s : State) (e : Nat) (p : Option EpPm) : (State.setEpPm s e p).kept = s.kept := by
  unfold State.setEpPm
  simp only [↓kept_mk]

theorem State.commitLen_kept (s : State) (e : Nat) (len : Nat) (now : Nat) (r : SecRec) (p : EpPm) : (State.commitLen s e
    len now r p).1.kept = s.kept := by
  unfold State.commitLen
  repeat' first
    | with_reducible rfl
    | simp only [↓State.binTca_kept]
    | (with_reducible apply foldl_keptT <;> try intro _ _)
    | (with_reducible apply foldl_kept1T <;> try intro _ _)
    | refine Eq.trans (State.binTca_kept' (by assumption)) ?_
    | split
    | (apply foldl_keptT <;> try intro _ _)

theorem State.commitLen_kept' {s : State} {e : Nat} {len : Nat} {now : Nat} {r : SecRec} {p : EpPm} {x0 : State} {x1 :
    EpPm} (h : State.commitLen s e len now r p = (x0, x1)) : x0.kept = s.kept := by
  rw [← State.commitLen_kept s e len now r p, h]

theorem State.commitSec_kept (s : State) (e : Nat) (now : Nat) (r : SecRec) (p : EpPm) : (State.commitSec s e now r
    p).1.kept = s.kept := by
  unfold State.commitSec
  simp only [↓State.commitLen_kept]

theorem State.commitSec_kept' {s : State} {e : Nat} {now : Nat} {r : SecRec} {p : EpPm} {x0 : State} {x1 : EpPm} (h :
    State.commitSec s e now r p = (x0, x1)) : x0.kept = s.kept := by
  rw [← State.commitSec_kept s e now r p, h]

theorem State.queueRecord_kept (s : State) (r : PmRecord) : (State.queueRecord s r).kept = s.kept := by
  unfold State.queueRecord
  repeat' first | with_reducible rfl | split | simp only [↓kept_mk, ↓kept_ite, ↓State.bump_kept]

theorem State.epRecord_kept (s : State) (e : Nat) (len : Nat) (due : Nat) (b : EpBin) (final : Bool) : (State.epRecord s e
    len due b final).kept = s.kept := by
  unfold State.epRecord
  simp only [↓State.queueRecord_kept]

theorem State.finalLen_kept (s : State) (e : Nat) (len : Nat) (t : Nat) (p : EpPm) : (State.finalLen s e len t p).1.kept =
    s.kept := by
  unfold State.finalLen
  repeat' first
    | with_reducible rfl
    | simp only [↓State.epRecord_kept]
    | (with_reducible apply foldl_keptT <;> try intro _ _)
    | (with_reducible apply foldl_kept1T <;> try intro _ _)
    | split
    | (apply foldl_keptT <;> try intro _ _)

theorem State.finalLen_kept' {s : State} {e : Nat} {len : Nat} {t : Nat} {p : EpPm} {x0 : State} {x1 : EpPm} (h :
    State.finalLen s e len t p = (x0, x1)) : x0.kept = s.kept := by
  rw [← State.finalLen_kept s e len t p, h]

theorem State.commitOldest_kept (s : State) (e : Nat) (t : Nat) (p : EpPm) : (State.commitOldest s e t p).1.kept = s.kept
    := by
  unfold State.commitOldest
  repeat' first | with_reducible rfl | split | simp only [↓State.commitSec_kept]

theorem State.commitOldest_kept' {s : State} {e : Nat} {t : Nat} {p : EpPm} {x0 : State} {x1 : EpPm} (h :
    State.commitOldest s e t p = (x0, x1)) : x0.kept = s.kept := by
  rw [← State.commitOldest_kept s e t p, h]

theorem State.epSecond_kept (s : State) (e : Nat) (t : Nat) (i : SecIn) : (State.epSecond s e t i).kept = s.kept := by
  unfold State.epSecond
  repeat' first | with_reducible rfl | split | simp only [↓State.commitOldest_kept,
      ↓State.finalLen_kept, ↓State.setEpPm_kept]

theorem State.frondClose_kept (s : State) (f : Nat) (len : Nat) (t : Nat) (b : FrondBin) (start : Nat) : (State.frondClose
    s f len t b start).kept = s.kept := by
  unfold State.frondClose
  simp only [↓State.queueRecord_kept]

theorem State.frondCloseAll_kept (s : State) (f : Nat) (t : Nat) (c15 : Bool) (c24 : Bool) : (State.frondCloseAll s f t c15
    c24).kept = s.kept := by
  unfold State.frondCloseAll
  repeat' first | with_reducible rfl | split | simp only [↓State.frondClose_kept, ↓State.modFrond_kept]

theorem State.frondSecond_kept (s : State) (f : Nat) (t : Nat) : (State.frondSecond s f t).kept = s.kept := by
  unfold State.frondSecond
  simp only [↓State.frondCloseAll_kept, ↓State.modFrond_kept]

theorem execPmSecondEnd_kept (s : State) (t : State) (h : execPmSecondEnd s = .next t) : t.kept = s.kept := by
  unfold execPmSecondEnd at h
  injection h with h
  subst h
  repeat' first
    | with_reducible rfl
    | simp only [↓kept_mk, ↓kept_ite, ↓State.epSecond_kept, ↓State.frondSecond_kept]
    | (with_reducible apply foldl_keptT <;> try intro _ _)
    | (with_reducible apply foldl_kept1T <;> try intro _ _)
    | split
    | (apply foldl_keptT <;> try intro _ _)

theorem State.pmTick_kept (s : State) : (State.pmTick s).kept = s.kept := by
  unfold State.pmTick
  repeat' first
    | with_reducible rfl
    | simp only [↓kept_mk, ↓State.modFrond_kept]
    | (with_reducible apply foldl_keptT <;> try intro _ _)
    | (with_reducible apply foldl_kept1T <;> try intro _ _)
    | split
    | (apply foldl_keptT <;> try intro _ _)

theorem State.pmCreate_kept (s : State) (e : Nat) : (State.pmCreate s e).kept = s.kept := by
  unfold State.pmCreate
  simp only [↓State.memWrite_kept, ↓State.setEpPm_kept]

theorem State.pmDelete_kept (s : State) (e : Nat) : (State.pmDelete s e).kept = s.kept := by
  unfold State.pmDelete
  repeat' first
    | with_reducible rfl
    | simp only [↓State.commitSec_kept, ↓State.epRecord_kept, ↓State.memWrite_kept, ↓State.setEpPm_kept]
    | (with_reducible apply foldl_keptT <;> try intro _ _)
    | (with_reducible apply foldl_kept1T <;> try intro _ _)
    | refine Eq.trans (State.commitSec_kept' (by assumption)) ?_
    | refine Eq.trans (foldl_kept_eq (by assumption) (by intro _ _; first | rfl | simp only [↓kept_mk, ↓kept_ite,
        ↓State.commitSec_kept, ↓State.epRecord_kept, ↓State.memWrite_kept, ↓State.setEpPm_kept])) ?_
    | split
    | (apply foldl_keptT <;> try intro _ _)

theorem State.pmZero_kept (s : State) (e : Nat) : (State.pmZero s e).kept = s.kept := by
  unfold State.pmZero
  repeat' first | with_reducible rfl | split | simp only [↓State.setEpPm_kept]

theorem appPmAnchor_kept (a : Nat) (y1 : Ctx) (s : State) : (appPmAnchor a y1 s).s.kept = s.kept := by
  unfold appPmAnchor
  repeat' first
    | with_reducible rfl
    | simp only [↓kept_mk, ↓State.frondCloseAll_kept, ↓State.setEpPm_kept, ↓State.wr_kept]
    | (with_reducible apply foldl_keptT <;> try intro _ _)
    | (with_reducible apply foldl_kept1T <;> try intro _ _)
    | split
    | (apply foldl_keptT <;> try intro _ _)

theorem execPmSetupAnchor_kept (h : ReqHdr) (mem : HostMem) (a : Nat) (s : State) (t : State) (h : execPmSetupAnchor h mem
    a s = .next t) : t.kept = s.kept := by
  unfold execPmSetupAnchor at h
  injection h with h
  subst h
  repeat' first
    | with_reducible rfl
    | simp only [↓appPmAnchor_kept]
    | (with_reducible apply foldl_keptT <;> try intro _ _)
    | (with_reducible apply foldl_kept1T <;> try intro _ _)
    | (with_reducible apply runOne_keptT <;> try intro _)
    | split
    | (apply foldl_keptT <;> try intro _ _)

theorem appPmProfile_kept (k : Nat) (addr : Nat) (c : Ctx) (s : State) : (appPmProfile k addr c s).s.kept = s.kept := by
  unfold appPmProfile
  repeat' first
    | with_reducible rfl
    | simp only [↓kept_mk, ↓kept_ite, ↓State.binTca_kept, ↓State.setEpPm_kept]
    | (with_reducible apply foldl_keptT <;> try intro _ _)
    | (with_reducible apply foldl_kept1T <;> try intro _ _)
    | refine Eq.trans (State.binTca_kept' (by assumption)) ?_
    | split
    | (apply foldl_keptT <;> try intro _ _)

theorem execPmSetupProfile_kept (h : ReqHdr) (mem : HostMem) (k : Nat) (addr : Nat) (s : State) (t : State) (h :
    execPmSetupProfile h mem k addr s = .next t) : t.kept = s.kept := by
  unfold execPmSetupProfile at h
  injection h with h
  subst h
  repeat' first
    | with_reducible rfl
    | simp only [↓appPmProfile_kept]
    | (with_reducible apply foldl_keptT <;> try intro _ _)
    | (with_reducible apply foldl_kept1T <;> try intro _ _)
    | (with_reducible apply runOne_keptT <;> try intro _)
    | split
    | (apply foldl_keptT <;> try intro _ _)

theorem appPmZero_kept (on : Bool) (y1 : Ctx) (s : State) : (appPmZero on y1 s).s.kept = s.kept := by
  unfold appPmZero
  simp only [↓State.wrB_kept]

theorem execPmSetupZeroSuppress_kept (h : ReqHdr) (mem : HostMem) (on : Bool) (s : State) (t : State) (h :
    execPmSetupZeroSuppress h mem on s = .next t) : t.kept = s.kept := by
  unfold execPmSetupZeroSuppress at h
  injection h with h
  subst h
  repeat' first
    | with_reducible rfl
    | simp only [↓appPmZero_kept]
    | (with_reducible apply foldl_keptT <;> try intro _ _)
    | (with_reducible apply foldl_kept1T <;> try intro _ _)
    | (with_reducible apply runOne_keptT <;> try intro _)
    | split
    | (apply foldl_keptT <;> try intro _ _)

theorem appPmClear_kept (e : Nat) (y1 : Ctx) (s : State) : (appPmClear e y1 s).s.kept = s.kept := by
  unfold appPmClear
  simp only [↓State.pmZero_kept]

theorem execPmClear_kept (h : ReqHdr) (mem : HostMem) (e : Nat) (s : State) (t : State) (h : execPmClear h mem e s = .next
    t) : t.kept = s.kept := by
  unfold execPmClear at h
  injection h with h
  subst h
  repeat' first
    | with_reducible rfl
    | simp only [↓appPmClear_kept]
    | (with_reducible apply foldl_keptT <;> try intro _ _)
    | (with_reducible apply foldl_kept1T <;> try intro _ _)
    | (with_reducible apply runOne_keptT <;> try intro _)
    | split
    | (apply foldl_keptT <;> try intro _ _)

theorem appPmRead_kept (e : Nat) (n : Nat) (buf : Nat) (dn : Nat) (c : Ctx) (s : State) : (appPmRead e n buf dn c s).s.kept
    = s.kept := by
  unfold appPmRead
  simp only [↓State.takeRead_kept]

theorem execPmRead_kept (h : ReqHdr) (mem : HostMem) (e : Nat) (n : Nat) (buf : Nat) (s : State) (t : State) (h :
    execPmRead h mem e n buf s = .next t) : t.kept = s.kept := by
  unfold execPmRead at h
  injection h with h
  subst h
  repeat' first
    | with_reducible rfl
    | simp only [↓appPmRead_kept]
    | (with_reducible apply foldl_keptT <;> try intro _ _)
    | (with_reducible apply foldl_kept1T <;> try intro _ _)
    | (with_reducible apply runOne_keptT <;> try intro _)
    | split
    | (apply foldl_keptT <;> try intro _ _)

/-! ### XcTable -/

theorem State.bindSa_kept (s : State) (i : Nat) (e : Option Nat) : (State.bindSa s i e).kept = s.kept := by
  unfold State.bindSa
  simp only [↓State.setSa_kept]

theorem State.msiAfter_kept (s : State) (keys : List Nat) : (State.msiAfter s keys).kept = s.kept := by
  unfold State.msiAfter
  repeat' first
    | with_reducible rfl
    | simp only [↓kept_ite, ↓State.evalMsi_kept]
    | (with_reducible apply foldl_keptT <;> try intro _ _)
    | (with_reducible apply foldl_kept1T <;> try intro _ _)
    | split
    | (apply foldl_keptT <;> try intro _ _)

theorem appEpCreate_kept (e : Nat) (x : XcEntry) (addr : Nat) (c : Ctx) (s : State) : (appEpCreate e x addr c s).s.kept =
    s.kept := by
  unfold appEpCreate
  repeat' first | with_reducible rfl | split | simp only [↓kept_mk, ↓State.bindSa_kept, ↓State.memWrite_kept,
      ↓State.msiAfter_kept, ↓State.pmCreate_kept, ↓State.quotaUpdate_kept, ↓State.setEp_kept, ↓State.slotsWritten_kept,
          ↓State.xcRegs_kept]

theorem execEpCreate_kept (h : ReqHdr) (mem : HostMem) (e : Nat) (x : XcEntry) (addr : Nat) (s : State) (t : State) (h :
    execEpCreate h mem e x addr s = .next t) : t.kept = s.kept := by
  unfold execEpCreate at h
  injection h with h
  subst h
  repeat' first
    | with_reducible rfl
    | simp only [↓appEpCreate_kept]
    | (with_reducible apply foldl_keptT <;> try intro _ _)
    | (with_reducible apply foldl_kept1T <;> try intro _ _)
    | (with_reducible apply runOne_keptT <;> try intro _)
    | split
    | (apply foldl_keptT <;> try intro _ _)

theorem State.stopEp_kept (s : State) (e : Nat) : (State.stopEp s e).kept = s.kept := by
  unfold State.stopEp
  simp only [↓State.setEp_kept]

theorem State.releaseEp_kept (s : State) (e : Nat) : (State.releaseEp s e).kept = s.kept := by
  unfold State.releaseEp
  repeat' first | with_reducible rfl | split | simp only [↓kept_ite, ↓State.setEp_kept]

theorem State.releaseEps_kept (s : State) : (State.releaseEps s).kept = s.kept := by
  unfold State.releaseEps
  repeat' first
    | with_reducible rfl
    | simp only [↓kept_mk, ↓State.releaseEp_kept]
    | (with_reducible apply foldl_keptT <;> try intro _ _)
    | (with_reducible apply foldl_kept1T <;> try intro _ _)
    | split
    | (apply foldl_keptT <;> try intro _ _)

theorem State.epReleaseLater_kept (s : State) (e : Nat) : (State.epReleaseLater s e).kept = s.kept := by
  unfold State.epReleaseLater
  simp only [↓kept_mk]

theorem State.epRebind_kept (s : State) (e : Nat) (old : XcEntry) (y : XcEntry) : (State.epRebind s e old y).kept = s.kept
    := by
  unfold State.epRebind
  repeat' first | with_reducible rfl | split | simp only [↓State.bindSa_kept]

theorem State.epRecount_kept (s : State) (e : Nat) (old : XcEntry) (y : XcEntry) (kindChange : Bool) : (State.epRecount s e
    old y kindChange).kept = s.kept := by
  unfold State.epRecount
  repeat' first | with_reducible rfl | split | simp only [↓State.pmCreate_kept, ↓State.pmDelete_kept]

theorem State.epRestart_kept (s : State) (e : Nat) (many : Bool) (again : Bool) : (State.epRestart s e many again).kept =
    s.kept := by
  unfold State.epRestart
  repeat' first | with_reducible rfl | split | simp only [↓State.epReleaseLater_kept, ↓State.stopEp_kept]

theorem appEpChange_kept (e : Nat) (g : Nat) (x : XcEntry) (c : Ctx) (s : State) : (appEpChange e g x c s).s.kept = s.kept
    := by
  unfold appEpChange
  repeat' first | with_reducible rfl | split | simp only [↓State.epRebind_kept, ↓State.epRecount_kept,
      ↓State.epRestart_kept, ↓State.memWrite_kept, ↓State.setEp_kept]

theorem execEpChange_kept (h : ReqHdr) (mem : HostMem) (e : Nat) (g : Nat) (x : XcEntry) (s : State) (t : State) (h :
    execEpChange h mem e g x s = .next t) : t.kept = s.kept := by
  unfold execEpChange at h
  injection h with h
  subst h
  repeat' first
    | with_reducible rfl
    | simp only [↓State.releaseEps_kept, ↓appEpChange_kept]
    | (with_reducible apply foldl_keptT <;> try intro _ _)
    | (with_reducible apply foldl_kept1T <;> try intro _ _)
    | (with_reducible apply runOne_keptT <;> try intro _)
    | split
    | (apply foldl_keptT <;> try intro _ _)

theorem State.dropEp_kept (s : State) (e : Nat) : (State.dropEp s e).kept = s.kept := by
  unfold State.dropEp
  repeat' first | with_reducible rfl | split | simp only [↓kept_mk, ↓kept_ite, ↓State.bindSa_kept, ↓State.memWrite_kept,
      ↓State.msiAfter_kept, ↓State.pmDelete_kept, ↓State.quotaUpdate_kept, ↓State.setEp_kept, ↓State.slotsWritten_kept]

theorem appEpDelete_kept (e : Nat) (y1 : Ctx) (s : State) : (appEpDelete e y1 s).s.kept = s.kept := by
  unfold appEpDelete
  repeat' first
    | with_reducible rfl
    | simp only [↓State.dropEp_kept, ↓State.xcRegs_kept]
    | (with_reducible apply foldl_keptT <;> try intro _ _)
    | (with_reducible apply foldl_kept1T <;> try intro _ _)
    | split
    | (apply foldl_keptT <;> try intro _ _)

theorem execEpDelete_kept (h : ReqHdr) (mem : HostMem) (e : Nat) (s : State) (t : State) (h : execEpDelete h mem e s =
    .next t) : t.kept = s.kept := by
  unfold execEpDelete at h
  injection h with h
  subst h
  repeat' first
    | with_reducible rfl
    | simp only [↓appEpDelete_kept]
    | (with_reducible apply foldl_keptT <;> try intro _ _)
    | (with_reducible apply foldl_kept1T <;> try intro _ _)
    | (with_reducible apply runOne_keptT <;> try intro _)
    | split
    | (apply foldl_keptT <;> try intro _ _)

theorem appEpRead_kept (e : Nat) (buf : Nat) (dn : Nat) (c : Ctx) (s : State) : (appEpRead e buf dn c s).s.kept = s.kept := by
  unfold appEpRead
  simp only [↓State.memRead_kept, ↓State.takeRead_kept]

theorem execEpRead_kept (h : ReqHdr) (mem : HostMem) (e : Nat) (buf : Nat) (s : State) (t : State) (h : execEpRead h mem e
    buf s = .next t) : t.kept = s.kept := by
  unfold execEpRead at h
  injection h with h
  subst h
  repeat' first
    | with_reducible rfl
    | simp only [↓appEpRead_kept]
    | (with_reducible apply foldl_keptT <;> try intro _ _)
    | (with_reducible apply foldl_kept1T <;> try intro _ _)
    | (with_reducible apply runOne_keptT <;> try intro _)
    | split
    | (apply foldl_keptT <;> try intro _ _)

end Sys2Proof.Machine
end

