-- ==== Sys2Proof/Laws/Kept4.lean ====
section
/-! SUPPORT. The tick, the fuse array and the queue are left alone by the operations of Functions, Gate, Mailbox,
Secure, Calib. -/
namespace Sys2Proof.Machine

/-! ### Functions -/

theorem State.stopLine_kept (s : State) (f : Nat) : (State.stopLine s f).kept = s.kept := by
  unfold State.stopLine
  repeat' first | with_reducible rfl | split | simp only [↓kept_ite, ↓State.cancelSwap_kept,
      ↓State.endRequest_kept, ↓State.enterIdle_kept, ↓State.gccStop_kept, ↓State.modFrond_kept, ↓State.squelchUpdate_kept,
          ↓State.stopDefects_kept, ↓State.wrB_kept]

theorem State.releaseLine_kept (s : State) (f : Nat) : (State.releaseLine s f).kept = s.kept := by
  unfold State.releaseLine
  repeat' first | with_reducible rfl | split | simp only [↓kept_ite, ↓State.leaveIdle_kept, ↓State.modFrond_kept,
      ↓State.setReg_kept, ↓State.squelchUpdate_kept, ↓State.stampRule_kept, ↓State.updateLos_kept, ↓State.wr_kept,
          ↓State.wrB_kept]

theorem State.releaseAll_kept (s : State) : (State.releaseAll s).kept = s.kept := by
  unfold State.releaseAll
  repeat' first
    | with_reducible rfl
    | simp only [↓kept_mk, ↓kept_ite, ↓State.releaseEp_kept, ↓State.releaseLine_kept, ↓State.releasePort_kept]
    | (with_reducible apply foldl_keptT <;> try intro _ _)
    | (with_reducible apply foldl_kept1T <;> try intro _ _)
    | split
    | (apply foldl_keptT <;> try intro _ _)

theorem State.releaseLater_kept (s : State) (kind : Nat) (id : Nat) : (State.releaseLater s kind id).kept = s.kept := by
  unfold State.releaseLater
  simp only [↓kept_mk]

theorem appFuncStop_kept (kind : Nat) (id : Nat) (y2 : Ctx) (s : State) : (appFuncStop kind id y2 s).s.kept = s.kept := by
  unfold appFuncStop
  repeat' first | with_reducible rfl | split | simp only [↓kept_mk, ↓kept_ite, ↓State.stopEp_kept, ↓State.stopLine_kept,
      ↓State.stopPort_kept]

theorem appFuncStart_kept (kind : Nat) (id : Nat) (y2 : Ctx) (s : State) : (appFuncStart kind id y2 s).s.kept = s.kept := by
  unfold appFuncStart
  repeat' first | with_reducible rfl | split | simp only [↓State.releaseLater_kept]

theorem execFuncStop_kept (h : ReqHdr) (mem : HostMem) (kind : Nat) (id : Nat) (s : State) (t : State) (h : execFuncStop h
    mem kind id s = .next t) : t.kept = s.kept := by
  unfold execFuncStop at h
  injection h with h
  subst h
  repeat' first
    | with_reducible rfl
    | simp only [↓appFuncStop_kept]
    | (with_reducible apply foldl_keptT <;> try intro _ _)
    | (with_reducible apply foldl_kept1T <;> try intro _ _)
    | (with_reducible apply runOne_keptT <;> try intro _)
    | split
    | (apply foldl_keptT <;> try intro _ _)

theorem execFuncStart_kept (h : ReqHdr) (mem : HostMem) (kind : Nat) (id : Nat) (s : State) (t : State) (h : execFuncStart
    h mem kind id s = .next t) : t.kept = s.kept := by
  unfold execFuncStart at h
  injection h with h
  subst h
  repeat' first
    | with_reducible rfl
    | simp only [↓State.releaseAll_kept, ↓appFuncStart_kept]
    | (with_reducible apply foldl_keptT <;> try intro _ _)
    | (with_reducible apply foldl_kept1T <;> try intro _ _)
    | (with_reducible apply runOne_keptT <;> try intro _)
    | split
    | (apply foldl_keptT <;> try intro _ _)

theorem appNop_kept (y0 : Ctx) (s : State) : (appNop y0 s).s.kept = s.kept := by
  unfold appNop
  simp only []

theorem execNop_kept (h : ReqHdr) (mem : HostMem) (s : State) (t : State) (h : execNop h mem s = .next t) : t.kept = s.kept
    := by
  unfold execNop at h
  injection h with h
  subst h
  repeat' first
    | with_reducible rfl
    | simp only [↓appNop_kept]
    | (with_reducible apply foldl_keptT <;> try intro _ _)
    | (with_reducible apply foldl_kept1T <;> try intro _ _)
    | (with_reducible apply runOne_keptT <;> try intro _)
    | split
    | (apply foldl_keptT <;> try intro _ _)

theorem appLineSetup_kept (f : Nat) (n : Nat) (count : Nat) (slotM : Nat) (gridN : Int) (en : Bool) (codes : List Nat) (c :
    Ctx) (s : State) : (appLineSetup f n count slotM gridN en codes c s).s.kept = s.kept := by
  unfold appLineSetup
  repeat' first | with_reducible rfl | split | simp only [↓kept_ite, ↓State.modFrond_kept,
      ↓State.releaseLater_kept, ↓State.stopLine_kept, ↓State.wr_kept, ↓State.wrS_kept]

theorem execLineSetup_kept (h : ReqHdr) (mem : HostMem) (f : Nat) (n : Nat) (count : Nat) (slotM : Nat) (gridN : Int) (en :
    Bool) (codes : List Nat) (s : State) (t : State) (h : execLineSetup h mem f n count slotM gridN en codes s = .next t) :
        t.kept = s.kept := by
  unfold execLineSetup at h
  injection h with h
  subst h
  repeat' first
    | with_reducible rfl
    | simp only [↓State.releaseAll_kept, ↓appLineSetup_kept]
    | (with_reducible apply foldl_keptT <;> try intro _ _)
    | (with_reducible apply foldl_kept1T <;> try intro _ _)
    | (with_reducible apply runOne_keptT <;> try intro _)
    | split
    | (apply foldl_keptT <;> try intro _ _)

theorem State.tcmOff_kept (s : State) (f : Nat) (l : Nat) : (State.tcmOff s f l).kept = s.kept := by
  unfold State.tcmOff
  simp only [↓State.setBdi_kept, ↓State.setDeg_kept, ↓State.setLayer_kept, ↓State.setStat_kept,
      ↓State.setTim_kept]

theorem appLineOh_kept (target : Nat) (id : Nat) (layer : Nat) (item : Nat) (mode : Nat) (addr : Nat) (c : Ctx) (s : State)
    : (appLineOh target id layer item mode addr c s).s.kept = s.kept := by
  unfold appLineOh
  repeat' first | with_reducible rfl | split | simp only [↓State.evalTim_kept, ↓State.setLayer_kept,
      ↓State.setPort_kept, ↓State.tcmOff_kept]

theorem execLineOh_kept (h : ReqHdr) (mem : HostMem) (target : Nat) (id : Nat) (layer : Nat) (item : Nat) (mode : Nat)
    (addr : Nat) (s : State) (t : State) (h : execLineOh h mem target id layer item mode addr s = .next t) : t.kept =
        s.kept := by
  unfold execLineOh at h
  injection h with h
  subst h
  repeat' first
    | with_reducible rfl
    | simp only [↓appLineOh_kept]
    | (with_reducible apply foldl_keptT <;> try intro _ _)
    | (with_reducible apply foldl_kept1T <;> try intro _ _)
    | (with_reducible apply runOne_keptT <;> try intro _)
    | split
    | (apply foldl_keptT <;> try intro _ _)

theorem appGccSend_kept (f : Nat) (len : Nat) (addr : Nat) (c : Ctx) (s : State) : (appGccSend f len addr c s).s.kept =
    s.kept := by
  unfold appGccSend
  repeat' first | with_reducible rfl | split | simp only [↓State.bump_kept, ↓State.modSlf_kept]

theorem execGccSend_kept (h : ReqHdr) (mem : HostMem) (f : Nat) (len : Nat) (addr : Nat) (s : State) (t : State) (h :
    execGccSend h mem f len addr s = .next t) : t.kept = s.kept := by
  unfold execGccSend at h
  injection h with h
  subst h
  repeat' first
    | with_reducible rfl
    | simp only [↓appGccSend_kept]
    | (with_reducible apply foldl_keptT <;> try intro _ _)
    | (with_reducible apply foldl_kept1T <;> try intro _ _)
    | (with_reducible apply runOne_keptT <;> try intro _)
    | split
    | (apply foldl_keptT <;> try intro _ _)

theorem appGccRxPost_kept (tag : Nat) (addr : Nat) (y2 : Ctx) (s : State) : (appGccRxPost tag addr y2 s).s.kept = s.kept := by
  unfold appGccRxPost
  simp only [↓kept_mk]

theorem execGccRxPost_kept (h : ReqHdr) (mem : HostMem) (tag : Nat) (addr : Nat) (s : State) (t : State) (h : execGccRxPost
    h mem tag addr s = .next t) : t.kept = s.kept := by
  unfold execGccRxPost at h
  injection h with h
  subst h
  repeat' first
    | with_reducible rfl
    | simp only [↓appGccRxPost_kept]
    | (with_reducible apply foldl_keptT <;> try intro _ _)
    | (with_reducible apply foldl_kept1T <;> try intro _ _)
    | (with_reducible apply runOne_keptT <;> try intro _)
    | split
    | (apply foldl_keptT <;> try intro _ _)

/-! ### Gate -/

theorem State.bar2Denied_kept (s : State) : (State.bar2Denied s).kept = s.kept := by
  unfold State.bar2Denied
  simp only [↓kept_mk, ↓State.bump_kept, ↓State.rateEvent_kept]

theorem State.isoCount_kept (s : State) (b : Nat) : (State.isoCount s b).kept = s.kept := by
  unfold State.isoCount
  simp only [↓kept_mk, ↓State.bump_kept]

theorem State.accError_kept (s : State) (off : Nat) : (State.accError s off).kept = s.kept := by
  unfold State.accError
  simp only [↓State.bump_kept, ↓State.wr_kept, ↓State.wrB_kept]

theorem State.pfWrite_kept {s : State} {off : Nat} {act : State → State} (h : ∀ s, (act s).kept = s.kept) :
    (s.pfWrite off act).kept = s.kept := by
  unfold State.pfWrite
  split
  · split
    · rfl
    · exact h _
  · rw [State.bar2Denied_kept]
  · rw [State.isoCount_kept]
  · rfl

theorem State.pfWrite_keptT {s : State} {off : Nat} {act : State → State} {t : State} (h : ∀ s,
    (act s).kept = s.kept) (e : s.kept = t.kept) : (s.pfWrite off act).kept = t.kept := (State.pfWrite_kept h).trans e

theorem State.wakeVector_kept (s : State) (fn : Nat) (v : Nat) : (State.wakeVector s fn v).kept = s.kept := by
  unfold State.wakeVector
  simp only [↓State.modFn_kept]

theorem State.setDeferred_kept (s : State) (b : Nat) (d : Option Deferred) : (State.setDeferred s b d).kept = s.kept := by
  unfold State.setDeferred
  simp only [↓kept_mk, ↓State.wr_kept]

theorem State.defer_kept (s : State) (b : Nat) (kind : Nat) (source : Nat) (target : Nat) : (State.defer s b kind source
    target).kept = s.kept := by
  unfold State.defer
  simp only [↓State.raise_kept, ↓State.setDeferred_kept]

theorem State.cancelDeferred_kept (s : State) (b : Nat) : (State.cancelDeferred s b).kept = s.kept := by
  unfold State.cancelDeferred
  repeat' first | with_reducible rfl | split | simp only [↓State.setDeferred_kept]

theorem State.holdIgnored_kept (s : State) : (State.holdIgnored s).kept = s.kept := by
  unfold State.holdIgnored
  simp only [↓State.bump_kept]

/-! ### Mailbox -/

theorem State.setMbCh_kept (s : State) (c : Nat) (x : MbxCh) : (State.setMbCh s c x).kept = s.kept := by
  unfold State.setMbCh
  simp only [↓kept_mk, ↓State.wr_kept]

theorem State.mbSummary_kept (s : State) : (State.mbSummary s).kept = s.kept := by
  unfold State.mbSummary
  simp only [↓State.wr_kept]

theorem State.mbWrite_kept (s : State) (c : Nat) (w : Nat) (v : Nat) : (State.mbWrite s c w v).kept = s.kept := by
  unfold State.mbWrite
  repeat' first
    | with_reducible rfl
    | simp only [↓kept_ite, ↓State.mbSummary_kept, ↓State.wr_kept, ↓State.wrB_kept]
    | (with_reducible apply foldl_keptT <;> try intro _ _)
    | (with_reducible apply foldl_kept1T <;> try intro _ _)
    | (with_reducible apply State.pfWrite_keptT <;> try intro _)
    | split
    | (apply foldl_keptT <;> try intro _ _)

theorem execMbxWordWrite_kept (c : Fin 10) (w : Fin 15) (v : Word) (s : State) (t : State) (h : execMbxWordWrite c w v s =
    .next t) : t.kept = s.kept := by
  unfold execMbxWordWrite at h
  injection h with h
  subst h
  simp only [↓State.mbWrite_kept]

theorem execMbxPost_kept (c : Fin 10) (v : Word) (s : State) (t : State) (h : execMbxPost c v s = .next t) : t.kept =
    s.kept := by
  unfold execMbxPost at h
  injection h with h
  subst h
  simp only [↓State.mbWrite_kept]

theorem State.mbPostOut_kept (s : State) (c : Nat) : (State.mbPostOut s c).kept = s.kept := by
  unfold State.mbPostOut
  repeat' first
    | with_reducible rfl
    | simp only [↓kept_ite, ↓State.mbSummary_kept, ↓State.setMbCh_kept, ↓State.wakeVector_kept, ↓State.wr_kept,
        ↓State.wrB_kept]
    | (with_reducible apply foldl_keptT <;> try intro _ _)
    | (with_reducible apply foldl_kept1T <;> try intro _ _)
    | split
    | (apply foldl_keptT <;> try intro _ _)

theorem State.mbReadOut_kept (s : State) (c : Nat) (w : Nat) : (State.mbReadOut s c w).kept = s.kept := by
  unfold State.mbReadOut
  repeat' first | with_reducible rfl | split | simp only [↓State.mbSummary_kept, ↓State.setMbCh_kept,
      ↓State.wr_kept, ↓State.wrB_kept]

theorem execMbxOutboundRead_kept (c : Fin 10) (w : Fin 16) (s : State) (t : State) (h : execMbxOutboundRead c w s = .next
    t) : t.kept = s.kept := by
  unfold execMbxOutboundRead at h
  injection h with h
  subst h
  repeat' first | with_reducible rfl | split | simp only [↓State.bar2Denied_kept, ↓State.emit_kept,
      ↓State.isoCount_kept, ↓State.mbReadOut_kept]

theorem State.mbQueue_kept (s : State) (c : Nat) (notice : Bool) (m : List Nat) : (State.mbQueue s c notice m).kept =
    s.kept := by
  unfold State.mbQueue
  repeat' first | with_reducible rfl | split | simp only [↓kept_ite, ↓State.bump_kept, ↓State.rateEvent_kept,
      ↓State.setMbCh_kept]

theorem State.mbReply_kept (s : State) (c : Nat) (d0 : Nat) (status : Nat) (payload : List Nat) : (State.mbReply s c d0
    status payload).kept = s.kept := by
  unfold State.mbReply
  simp only [↓State.mbQueue_kept]

theorem State.mbTake_kept (s : State) (c : Nat) : (State.mbTake s c).kept = s.kept := by
  unfold State.mbTake
  repeat' first | with_reducible rfl | split | simp only [↓kept_ite, ↓State.mbReply_kept, ↓State.mbSummary_kept,
      ↓State.setMbCh_kept, ↓State.wakeVector_kept, ↓State.wr_kept, ↓State.wrB_kept]

theorem execMbxProcessorRead_kept (c : Fin 10) (s : State) (t : State) (h : execMbxProcessorRead c s = .next t) : t.kept =
    s.kept := by
  unfold execMbxProcessorRead at h
  injection h with h
  subst h
  repeat' first | with_reducible rfl | split | simp only [↓kept_ite, ↓State.mbTake_kept]

theorem execMbxReplyPost_kept (c : Fin 10) (s : State) (t : State) (h : execMbxReplyPost c s = .next t) : t.kept = s.kept
    := by
  unfold execMbxReplyPost at h
  injection h with h
  subst h
  simp only [↓State.mbPostOut_kept]

theorem State.mbCross_kept (s : State) (c : Nat) : (State.mbCross s c).kept = s.kept := by
  unfold State.mbCross
  repeat' first | with_reducible rfl | split | simp only [↓kept_ite, ↓State.setMbCh_kept, ↓State.wr_kept]

theorem execMbxCrossing_kept (c : Fin 10) (s : State) (t : State) (h : execMbxCrossing c s = .next t) : t.kept = s.kept := by
  unfold execMbxCrossing at h
  injection h with h
  subst h
  repeat' first | with_reducible rfl | split | simp only [↓kept_ite, ↓State.bump_kept, ↓State.mbSummary_kept,
      ↓State.mbTake_kept, ↓State.raise_kept, ↓State.sendFault_kept, ↓State.setMbCh_kept, ↓State.wr_kept, ↓State.wrB_kept]

theorem State.mbHandle_kept {s : State} {c code : Nat} {act : List Nat → State → State × Nat × List Nat}
    (h : ∀ l s, (act l s).1.kept = s.kept) : (s.mbHandle c code act).kept = s.kept := by
  unfold State.mbHandle
  dsimp only
  split
  · rfl
  · next m _ =>
    split
    · rfl
    · split <;> simp only [State.mbReply_kept, h, State.setMbCh_kept]

theorem State.mbHandle_keptT {s : State} {c code : Nat} {act : List Nat → State → State × Nat × List Nat} {t : State} (h :
    ∀ l s, (act l s).1.kept = s.kept) (e : s.kept = t.kept) : (s.mbHandle c code act).kept = t.kept := (State.mbHandle_kept
        h).trans e

theorem execPing_kept (c : Fin 8) (s : State) (t : State) (h : execPing c s = .next t) : t.kept = s.kept := by
  unfold execPing at h
  injection h with h
  subst h
  repeat' first
    | with_reducible rfl
    | simp only [↓kept_mk, ↓kept_ite]
    | (with_reducible apply foldl_keptT <;> try intro _ _)
    | (with_reducible apply foldl_kept1T <;> try intro _ _)
    | (with_reducible apply State.mbHandle_keptT <;> try intro _ _)
    | split
    | (apply foldl_keptT <;> try intro _ _)

theorem execFwInfo_kept (c : Fin 8) (s : State) (t : State) (h : execFwInfo c s = .next t) : t.kept = s.kept := by
  unfold execFwInfo at h
  injection h with h
  subst h
  repeat' first
    | with_reducible rfl
    | simp only [↓kept_mk, ↓kept_ite]
    | (with_reducible apply foldl_keptT <;> try intro _ _)
    | (with_reducible apply foldl_kept1T <;> try intro _ _)
    | (with_reducible apply State.mbHandle_keptT <;> try intro _ _)
    | split
    | (apply foldl_keptT <;> try intro _ _)

theorem execDiagText_kept (c : Fin 8) (words : List Word) (s : State) (t : State) (h : execDiagText c words s = .next t) :
    t.kept = s.kept := by
  unfold execDiagText at h
  injection h with h
  subst h
  repeat' first | with_reducible rfl | split | simp only [↓State.mbQueue_kept]

theorem State.mbReset_kept (s : State) : (State.mbReset s).kept = s.kept := by
  unfold State.mbReset
  simp only [↓kept_mk, ↓State.resetRegs_kept]

/-! ### Secure -/

theorem State.setWords_kept (s : State) (f : Nat → Fld) (l : List Nat) : (State.setWords s f l).kept = s.kept := by
  unfold State.setWords
  repeat' first
    | with_reducible rfl
    | simp only [↓State.wr_kept]
    | (with_reducible apply foldl_keptT <;> try intro _ _)
    | (with_reducible apply foldl_kept1T <;> try intro _ _)
    | split
    | (apply foldl_keptT <;> try intro _ _)

theorem execSecKeKeyWrite_kept (w : Fin 8) (v : Word) (s : State) (t : State) (h : execSecKeKeyWrite w v s = .next t) :
    t.kept = s.kept := by
  unfold execSecKeKeyWrite at h
  injection h with h
  subst h
  repeat' first
    | with_reducible rfl
    | simp only [↓kept_mk, ↓kept_ite, ↓State.setWords_kept, ↓State.wr_kept, ↓State.wrB_kept]
    | (with_reducible apply foldl_keptT <;> try intro _ _)
    | (with_reducible apply foldl_kept1T <;> try intro _ _)
    | (with_reducible apply State.pfWrite_keptT <;> try intro _)
    | split
    | (apply foldl_keptT <;> try intro _ _)

theorem State.zeroise_kept (s : State) : (State.zeroise s).kept = s.kept := by
  unfold State.zeroise
  simp only [↓kept_mk, ↓State.resetRegs_kept]

theorem State.keCommand_kept (s : State) (op : Nat) : (State.keCommand s op).kept = s.kept := by
  unfold State.keCommand
  repeat' first
    | with_reducible rfl
    | simp only [↓kept_mk, ↓kept_ite, ↓State.wr_kept, ↓State.wrB_kept, ↓State.zeroise_kept]
    | (with_reducible apply foldl_keptT <;> try intro _ _)
    | (with_reducible apply foldl_kept1T <;> try intro _ _)
    | (with_reducible apply State.pfWrite_keptT <;> try intro _)
    | split
    | (apply foldl_keptT <;> try intro _ _)

theorem execKeEncrypt_kept (s : State) (t : State) (h : execKeEncrypt s = .next t) : t.kept = s.kept := by
  unfold execKeEncrypt at h
  injection h with h
  subst h
  simp only [↓State.keCommand_kept]

theorem execKeDecrypt_kept (s : State) (t : State) (h : execKeDecrypt s = .next t) : t.kept = s.kept := by
  unfold execKeDecrypt at h
  injection h with h
  subst h
  simp only [↓State.keCommand_kept]

theorem execKeClearSave_kept (s : State) (t : State) (h : execKeClearSave s = .next t) : t.kept = s.kept := by
  unfold execKeClearSave at h
  injection h with h
  subst h
  simp only [↓State.keCommand_kept]

theorem execKeWrappedSave_kept (s : State) (t : State) (h : execKeWrappedSave s = .next t) : t.kept = s.kept := by
  unfold execKeWrappedSave at h
  injection h with h
  subst h
  simp only [↓State.keCommand_kept]

theorem execKeClearRestore_kept (s : State) (t : State) (h : execKeClearRestore s = .next t) : t.kept = s.kept := by
  unfold execKeClearRestore at h
  injection h with h
  subst h
  simp only [↓State.keCommand_kept]

theorem execKeWrappedRestore_kept (s : State) (t : State) (h : execKeWrappedRestore s = .next t) : t.kept = s.kept := by
  unfold execKeWrappedRestore at h
  injection h with h
  subst h
  simp only [↓State.keCommand_kept]

theorem execKeZeroise_kept (s : State) (t : State) (h : execKeZeroise s = .next t) : t.kept = s.kept := by
  unfold execKeZeroise at h
  injection h with h
  subst h
  simp only [↓State.keCommand_kept]

theorem State.wrappedRestore_kept (s : State) : (State.wrappedRestore s).kept = s.kept := by
  unfold State.wrappedRestore
  repeat' first | with_reducible rfl | split | simp only [↓kept_mk, ↓kept_ite, ↓State.setWords_kept, ↓State.wr_kept,
      ↓State.wrB_kept]

theorem State.clearRestore_kept (s : State) : (State.clearRestore s).kept = s.kept := by
  unfold State.clearRestore
  repeat' first | with_reducible rfl | split | simp only [↓kept_mk, ↓kept_ite, ↓State.setWords_kept, ↓State.wr_kept,
      ↓State.wrB_kept]

theorem execKeOpDone_kept (s : State) (t : State) (h : execKeOpDone s = .next t) : t.kept = s.kept := by
  unfold execKeOpDone at h
  injection h with h
  subst h
  repeat' first | with_reducible rfl | split | simp only [↓kept_mk, ↓State.clearRestore_kept,
      ↓State.setWords_kept, ↓State.wrB_kept, ↓State.wrappedRestore_kept]

theorem execMaskReseed_kept (s : State) (t : State) (h : execMaskReseed s = .next t) : t.kept = s.kept := by
  unfold execMaskReseed at h
  injection h with h
  subst h
  repeat' first | with_reducible rfl | split | simp only [↓kept_mk]

theorem execCryptoGateWrite_kept (f : Fin 48) (gate : Bool) (s : State) (t : State) (h : execCryptoGateWrite f gate s =
    .next t) : t.kept = s.kept := by
  unfold execCryptoGateWrite at h
  injection h with h
  subst h
  repeat' first
    | with_reducible rfl
    | simp only [↓kept_ite, ↓State.holdIgnored_kept, ↓State.wrB_kept]
    | (with_reducible apply foldl_keptT <;> try intro _ _)
    | (with_reducible apply foldl_kept1T <;> try intro _ _)
    | (with_reducible apply State.pfWrite_keptT <;> try intro _)
    | split
    | (apply foldl_keptT <;> try intro _ _)

theorem State.eraseKeks_kept (s : State) (reason : Nat) : (State.eraseKeks s reason).kept = s.kept := by
  unfold State.eraseKeks
  repeat' first
    | with_reducible rfl
    | simp only [↓State.eraseKek_kept]
    | (with_reducible apply foldl_keptT <;> try intro _ _)
    | (with_reducible apply foldl_kept1T <;> try intro _ _)
    | split
    | (apply foldl_keptT <;> try intro _ _)

theorem State.entropyFail_kept (s : State) : (State.entropyFail s).kept = s.kept := by
  unfold State.entropyFail
  simp only [↓State.eraseKeks_kept, ↓State.raise_kept, ↓State.sendFault_kept, ↓State.wr_kept,
      ↓State.zeroise_kept]

theorem execEntropyStartupPass_kept (s : State) (t : State) (h : execEntropyStartupPass s = .next t) : t.kept = s.kept := by
  unfold execEntropyStartupPass at h
  injection h with h
  subst h
  repeat' first | with_reducible rfl | split | simp only [↓State.wr_kept]

theorem execEntropyHealthFailure_kept (test : Fin 3) (s : State) (t : State) (h : execEntropyHealthFailure test s = .next
    t) : t.kept = s.kept := by
  unfold execEntropyHealthFailure at h
  injection h with h
  subst h
  repeat' first | with_reducible rfl | split | simp only [↓kept_mk, ↓kept_ite, ↓State.bump_kept, ↓State.entropyFail_kept,
      ↓State.raise_kept, ↓State.wr_kept]

theorem State.kekAct_kept (s : State) (a : KekAct) : (State.kekAct s a).kept = s.kept := by
  unfold State.kekAct
  simp only [↓kept_mk]

theorem State.kekStep_kept (s : State) : (State.kekStep s).kept = s.kept := by
  unfold State.kekStep
  repeat' first
    | with_reducible rfl
    | simp only [↓kept_mk, ↓State.eraseKek_kept, ↓State.raiseEv_kept, ↓State.setKek_kept]
    | (with_reducible apply foldl_keptT <;> try intro _ _)
    | (with_reducible apply foldl_kept1T <;> try intro _ _)
    | split
    | (apply foldl_keptT <;> try intro _ _)

theorem execSecFwInfo_kept (c : Fin 2) (s : State) (t : State) (h : execSecFwInfo c s = .next t) : t.kept = s.kept := by
  unfold execSecFwInfo at h
  injection h with h
  subst h
  repeat' first
    | with_reducible rfl
    | simp only [↓kept_mk, ↓kept_ite]
    | (with_reducible apply foldl_keptT <;> try intro _ _)
    | (with_reducible apply foldl_kept1T <;> try intro _ _)
    | (with_reducible apply State.mbHandle_keptT <;> try intro _ _)
    | split
    | (apply foldl_keptT <;> try intro _ _)

theorem execKekInstall_kept (c : Fin 2) (s : State) (t : State) (h : execKekInstall c s = .next t) : t.kept = s.kept := by
  unfold execKekInstall at h
  injection h with h
  subst h
  repeat' first
    | with_reducible rfl
    | simp only [↓State.kekAct_kept]
    | (with_reducible apply foldl_keptT <;> try intro _ _)
    | (with_reducible apply foldl_kept1T <;> try intro _ _)
    | (with_reducible apply State.mbHandle_keptT <;> try intro _ _)
    | split
    | (apply foldl_keptT <;> try intro _ _)

theorem execKekErase_kept (c : Fin 2) (s : State) (t : State) (h : execKekErase c s = .next t) : t.kept = s.kept := by
  unfold execKekErase at h
  injection h with h
  subst h
  repeat' first
    | with_reducible rfl
    | simp only [↓State.kekAct_kept]
    | (with_reducible apply foldl_keptT <;> try intro _ _)
    | (with_reducible apply foldl_kept1T <;> try intro _ _)
    | (with_reducible apply State.mbHandle_keptT <;> try intro _ _)
    | split
    | (apply foldl_keptT <;> try intro _ _)

theorem execKekStatus_kept (c : Fin 2) (s : State) (t : State) (h : execKekStatus c s = .next t) : t.kept = s.kept := by
  unfold execKekStatus at h
  injection h with h
  subst h
  repeat' first
    | with_reducible rfl
    | simp only []
    | (with_reducible apply foldl_keptT <;> try intro _ _)
    | (with_reducible apply foldl_kept1T <;> try intro _ _)
    | (with_reducible apply State.mbHandle_keptT <;> try intro _ _)
    | split
    | (apply foldl_keptT <;> try intro _ _)

theorem execHoldStatus_kept (c : Fin 2) (s : State) (t : State) (h : execHoldStatus c s = .next t) : t.kept = s.kept := by
  unfold execHoldStatus at h
  injection h with h
  subst h
  repeat' first
    | with_reducible rfl
    | simp only []
    | (with_reducible apply foldl_keptT <;> try intro _ _)
    | (with_reducible apply foldl_kept1T <;> try intro _ _)
    | (with_reducible apply State.mbHandle_keptT <;> try intro _ _)
    | split
    | (apply foldl_keptT <;> try intro _ _)

theorem execHoldRelease_kept (c : Fin 2) (s : State) (t : State) (h : execHoldRelease c s = .next t) : t.kept = s.kept := by
  unfold execHoldRelease at h
  injection h with h
  subst h
  repeat' first
    | with_reducible rfl
    | simp only [↓kept_mk]
    | (with_reducible apply foldl_keptT <;> try intro _ _)
    | (with_reducible apply foldl_kept1T <;> try intro _ _)
    | (with_reducible apply State.mbHandle_keptT <;> try intro _ _)
    | split
    | (apply foldl_keptT <;> try intro _ _)

theorem execEntropyRead_kept (c : Fin 2) (s : State) (t : State) (h : execEntropyRead c s = .next t) : t.kept = s.kept := by
  unfold execEntropyRead at h
  injection h with h
  subst h
  repeat' first
    | with_reducible rfl
    | simp only [↓kept_ite, ↓State.fresh_kept]
    | (with_reducible apply foldl_keptT <;> try intro _ _)
    | (with_reducible apply foldl_kept1T <;> try intro _ _)
    | refine Eq.trans (State.fresh_kept' (by assumption)) ?_
    | (with_reducible apply State.mbHandle_keptT <;> try intro _ _)
    | refine Eq.trans (foldl_kept_eq (by assumption) (by intro _ _; first | rfl | simp only [↓kept_mk, ↓kept_ite,
        ↓State.fresh_kept])) ?_
    | split
    | (apply foldl_keptT <;> try intro _ _)

theorem execDecommissionArm_kept (c : Fin 2) (s : State) (t : State) (h : execDecommissionArm c s = .next t) : t.kept =
    s.kept := by
  unfold execDecommissionArm at h
  injection h with h
  subst h
  repeat' first
    | with_reducible rfl
    | simp only [↓kept_mk, ↓State.fresh_kept]
    | (with_reducible apply foldl_keptT <;> try intro _ _)
    | (with_reducible apply foldl_kept1T <;> try intro _ _)
    | refine Eq.trans (State.fresh_kept' (by assumption)) ?_
    | (with_reducible apply State.mbHandle_keptT <;> try intro _ _)
    | split
    | (apply foldl_keptT <;> try intro _ _)

theorem execDecommission_kept (c : Fin 2) (s : State) (t : State) (h : execDecommission c s = .next t) : t.kept = s.kept := by
  unfold execDecommission at h
  injection h with h
  subst h
  repeat' first
    | with_reducible rfl
    | simp only [↓kept_mk]
    | (with_reducible apply foldl_keptT <;> try intro _ _)
    | (with_reducible apply foldl_kept1T <;> try intro _ _)
    | (with_reducible apply State.mbHandle_keptT <;> try intro _ _)
    | split
    | (apply foldl_keptT <;> try intro _ _)

theorem State.eraseSaKeys_kept (s : State) : (State.eraseSaKeys s).kept = s.kept := by
  unfold State.eraseSaKeys
  repeat' first
    | with_reducible rfl
    | simp only [↓State.keyErase_kept]
    | (with_reducible apply foldl_keptT <;> try intro _ _)
    | (with_reducible apply foldl_kept1T <;> try intro _ _)
    | split
    | (apply foldl_keptT <;> try intro _ _)

theorem State.cryptoStop_kept (s : State) (b : Nat) : (State.cryptoStop s b).kept = s.kept := by
  unfold State.cryptoStop
  repeat' first | with_reducible rfl | split | simp only [↓kept_mk]

theorem State.cryptoRun_kept (s : State) (b : Nat) : (State.cryptoRun s b).kept = s.kept := by
  unfold State.cryptoRun
  simp only [↓kept_mk]

theorem State.applyDeferred_kept (s : State) (b : Nat) (cause : Nat) (d : Deferred) : (State.applyDeferred s b cause
    d).kept = s.kept := by
  unfold State.applyDeferred
  repeat' first | with_reducible rfl | split | simp only [↓kept_mk, ↓State.cryptoStop_kept,
      ↓State.entropyFail_kept, ↓State.eraseSaKeys_kept, ↓State.raise_kept, ↓State.setDeferred_kept]

theorem State.holdStep_kept (s : State) : (State.holdStep s).kept = s.kept := by
  unfold State.holdStep
  repeat' first
    | with_reducible rfl
    | simp only [↓kept_mk, ↓kept_ite, ↓State.applyDeferred_kept]
    | (with_reducible apply foldl_keptT <;> try intro _ _)
    | (with_reducible apply foldl_kept1T <;> try intro _ _)
    | split
    | (apply foldl_keptT <;> try intro _ _)

theorem State.gateStep_kept (s : State) : (State.gateStep s).kept = s.kept := by
  unfold State.gateStep
  repeat' first
    | with_reducible rfl
    | simp only [↓kept_ite, ↓State.wrB_kept]
    | (with_reducible apply foldl_keptT <;> try intro _ _)
    | (with_reducible apply foldl_kept1T <;> try intro _ _)
    | split
    | (apply foldl_keptT <;> try intro _ _)

theorem execBar2AccessDenied_kept (off : Nat) (read : Bool) (s : State) (t : State) (h : execBar2AccessDenied off read s =
    .next t) : t.kept = s.kept := by
  unfold execBar2AccessDenied at h
  injection h with h
  subst h
  repeat' first | with_reducible rfl | split | simp only [↓State.bar2Denied_kept, ↓State.emit_kept]

theorem execIdeKmMessage_kept (msg : List Byte) (secure : Bool) (s : State) (t : State) (h : execIdeKmMessage msg secure s
    = .next t) : t.kept = s.kept := by
  unfold execIdeKmMessage at h
  injection h with h
  subst h
  simp only [↓kept_mk, ↓State.emit_kept]

/-! ### Calib -/

theorem State.setFrondCal_kept (s : State) (f : Nat) (x : FrondCal) : (State.setFrondCal s f x).kept = s.kept := by
  unfold State.setFrondCal
  simp only [↓kept_mk]

theorem State.calRefresh_kept (s : State) (f : Nat) : (State.calRefresh s f).kept = s.kept := by
  unfold State.calRefresh
  simp only [↓State.wrB_kept]

theorem State.calRegs_kept (s : State) (f : Nat) : (State.calRegs s f).kept = s.kept := by
  unfold State.calRegs
  repeat' first
    | with_reducible rfl
    | simp only [↓State.wr_kept, ↓State.wrB_kept]
    | (with_reducible apply foldl_keptT <;> try intro _ _)
    | (with_reducible apply foldl_kept1T <;> try intro _ _)
    | split
    | (apply foldl_keptT <;> try intro _ _)

theorem State.calHistory_kept (s : State) (f : Nat) (kind : Nat) (b : List Byte) (fails : List Nat) : (State.calHistory s f
    kind b fails).kept = s.kept := by
  unfold State.calHistory
  repeat' first | with_reducible rfl | split | simp only [↓kept_mk, ↓kept_ite, ↓State.storeWear_kept]

theorem State.calEnd_kept (s : State) (f : Nat) : (State.calEnd s f).kept = s.kept := by
  unfold State.calEnd
  simp only [↓State.setFrondCal_kept, ↓State.setInsrc_kept, ↓State.wr_kept]

theorem State.calAbort_kept (s : State) (f : Nat) (reason : Nat) : (State.calAbort s f reason).kept = s.kept := by
  unfold State.calAbort
  repeat' first | with_reducible rfl | split | simp only [↓State.bumpLife_kept, ↓State.calEnd_kept,
      ↓State.raise_kept, ↓State.setFrondCal_kept, ↓State.wr_kept]

theorem State.calAdmit_kept (s : State) (f : Nat) (kind : Nat) : (State.calAdmit s f kind).kept = s.kept := by
  unfold State.calAdmit
  repeat' first | with_reducible rfl | split | simp only [↓kept_ite, ↓State.calAbort_kept,
      ↓State.muteDefects_kept, ↓State.raise_kept, ↓State.setFrondCal_kept, ↓State.wr_kept]

theorem State.toneSet_kept (s : State) (v : Word) : (State.toneSet s v).kept = s.kept := by
  unfold State.toneSet
  simp only [↓State.wr_kept, ↓State.wrB_kept]

theorem execCalToneWrite_kept (v : Word) (s : State) (t : State) (h : execCalToneWrite v s = .next t) : t.kept = s.kept := by
  unfold execCalToneWrite at h
  injection h with h
  subst h
  repeat' first
    | with_reducible rfl
    | simp only [↓State.toneSet_kept]
    | (with_reducible apply foldl_keptT <;> try intro _ _)
    | (with_reducible apply foldl_kept1T <;> try intro _ _)
    | (with_reducible apply State.pfWrite_keptT <;> try intro _)
    | split
    | (apply foldl_keptT <;> try intro _ _)

theorem execCalMuteCheck_kept (f : Fin 48) (s : State) (t : State) (h : execCalMuteCheck f s = .next t) : t.kept = s.kept
    := by
  unfold execCalMuteCheck at h
  injection h with h
  subst h
  repeat' first | with_reducible rfl | split | simp only [↓State.calAbort_kept, ↓State.setFrondCal_kept]

theorem State.calInput_kept (s : State) (pwr : Int) (fofs : Int) : (State.calInput s pwr fofs).kept = s.kept := by
  unfold State.calInput
  simp only [↓State.wrS_kept]

theorem execCalPrecheckEnd_kept (f : Fin 48) (pwr : Int) (fofs : Int) (spread : Nat) (s : State) (t : State) (h :
    execCalPrecheckEnd f pwr fofs spread s = .next t) : t.kept = s.kept := by
  unfold execCalPrecheckEnd at h
  injection h with h
  subst h
  repeat' first | with_reducible rfl | split | simp only [↓State.calAbort_kept, ↓State.calInput_kept,
      ↓State.setFrondCal_kept, ↓State.setInsrc_kept, ↓State.wr_kept]

theorem execCalToneLost_kept (f : Fin 48) (pwr : Int) (s : State) (t : State) (h : execCalToneLost f pwr s = .next t) :
    t.kept = s.kept := by
  unfold execCalToneLost at h
  injection h with h
  subst h
  repeat' first | with_reducible rfl | split | simp only [↓State.calAbort_kept, ↓State.setFrondCal_kept]

theorem execCalStepEnd_kept (f : Fin 48) (vals : List Int) (tap : Bool) (quad : Option (Nat × Nat)) (s : State) (t : State)
    (h : execCalStepEnd f vals tap quad s = .next t) : t.kept = s.kept := by
  unfold execCalStepEnd at h
  injection h with h
  subst h
  repeat' first | with_reducible rfl | split | simp only [↓State.calAbort_kept,
      ↓State.setFrondCal_kept, ↓State.wr_kept]

theorem State.calForce_kept (s : State) (f : Nat) (kind : Nat) (b : List Byte) : (State.calForce s f kind b).kept = s.kept
    := by
  unfold State.calForce
  simp only [↓State.bumpLife_kept, ↓State.calHistory_kept, ↓State.calRefresh_kept,
      ↓State.calRegs_kept, ↓State.setFrondCal_kept, ↓State.wr_kept]

theorem State.calSwap_kept (s : State) (f : Nat) : (State.calSwap s f).kept = s.kept := by
  unfold State.calSwap
  repeat' first | with_reducible rfl | split | simp only [↓State.calEnd_kept, ↓State.calForce_kept,
      ↓State.raise_kept, ↓State.setFrondCal_kept, ↓State.wr_kept]

theorem execCalBankSwap_kept (f : Fin 48) (s : State) (t : State) (h : execCalBankSwap f s = .next t) : t.kept = s.kept := by
  unfold execCalBankSwap at h
  injection h with h
  subst h
  simp only [↓State.calSwap_kept]

theorem appCalRun_kept (f : Nat) (y1 : Ctx) (s : State) : (appCalRun f y1 s).s.kept = s.kept := by
  unfold appCalRun
  simp only [↓State.calAdmit_kept]

theorem execCalRun_kept (h : ReqHdr) (mem : HostMem) (f : Nat) (s : State) (t : State) (h : execCalRun h mem f s = .next t)
    : t.kept = s.kept := by
  unfold execCalRun at h
  injection h with h
  subst h
  repeat' first
    | with_reducible rfl
    | simp only [↓appCalRun_kept]
    | (with_reducible apply foldl_keptT <;> try intro _ _)
    | (with_reducible apply foldl_kept1T <;> try intro _ _)
    | (with_reducible apply runOne_keptT <;> try intro _)
    | split
    | (apply foldl_keptT <;> try intro _ _)

theorem appCalAbort_kept (f : Nat) (y1 : Ctx) (s : State) : (appCalAbort f y1 s).s.kept = s.kept := by
  unfold appCalAbort
  simp only [↓State.calAbort_kept]

theorem execCalAbort_kept (h : ReqHdr) (mem : HostMem) (f : Nat) (s : State) (t : State) (h : execCalAbort h mem f s =
    .next t) : t.kept = s.kept := by
  unfold execCalAbort at h
  injection h with h
  subst h
  repeat' first
    | with_reducible rfl
    | simp only [↓appCalAbort_kept]
    | (with_reducible apply foldl_keptT <;> try intro _ _)
    | (with_reducible apply foldl_kept1T <;> try intro _ _)
    | (with_reducible apply runOne_keptT <;> try intro _)
    | split
    | (apply foldl_keptT <;> try intro _ _)

theorem appCalExport_kept (f : Nat) (buf : Nat) (dn : Nat) (c : Ctx) (s : State) : (appCalExport f buf dn c s).s.kept =
    s.kept := by
  unfold appCalExport
  simp only [↓State.takeRead_kept]

theorem execCalExport_kept (h : ReqHdr) (mem : HostMem) (f : Nat) (buf : Nat) (s : State) (t : State) (h : execCalExport h
    mem f buf s = .next t) : t.kept = s.kept := by
  unfold execCalExport at h
  injection h with h
  subst h
  repeat' first
    | with_reducible rfl
    | simp only [↓appCalExport_kept]
    | (with_reducible apply foldl_keptT <;> try intro _ _)
    | (with_reducible apply foldl_kept1T <;> try intro _ _)
    | (with_reducible apply runOne_keptT <;> try intro _)
    | split
    | (apply foldl_keptT <;> try intro _ _)

theorem appCalRestore_kept (f : Nat) (addr : Nat) (c : Ctx) (s : State) : (appCalRestore f addr c s).s.kept = s.kept := by
  unfold appCalRestore
  repeat' first | with_reducible rfl | split | simp only [↓State.setFrondCal_kept]

theorem execCalRestore_kept (h : ReqHdr) (mem : HostMem) (f : Nat) (addr : Nat) (s : State) (t : State) (h : execCalRestore
    h mem f addr s = .next t) : t.kept = s.kept := by
  unfold execCalRestore at h
  injection h with h
  subst h
  repeat' first
    | with_reducible rfl
    | simp only [↓appCalRestore_kept]
    | (with_reducible apply foldl_keptT <;> try intro _ _)
    | (with_reducible apply foldl_kept1T <;> try intro _ _)
    | (with_reducible apply runOne_keptT <;> try intro _)
    | split
    | (apply foldl_keptT <;> try intro _ _)

theorem State.calMuteLost_kept (s : State) (f : Nat) : (State.calMuteLost s f).kept = s.kept := by
  unfold State.calMuteLost
  repeat' first | with_reducible rfl | split | simp only [↓State.calAbort_kept]

theorem State.calResetAll_kept (s : State) : (State.calResetAll s).kept = s.kept := by
  unfold State.calResetAll
  repeat' first
    | with_reducible rfl
    | simp only [↓State.calAbort_kept]
    | (with_reducible apply foldl_keptT <;> try intro _ _)
    | (with_reducible apply foldl_kept1T <;> try intro _ _)
    | split
    | (apply foldl_keptT <;> try intro _ _)

end Sys2Proof.Machine
end

