-- ==== Sys2Proof/Laws/Kept5.lean ====
section
/-! SUPPORT. The tick, the fuse array and the queue are left alone by the operations of Power, Monitor, Update, MemInt. -/
namespace Sys2Proof.Machine

/-! ### Power -/

theorem State.modPow_kept (s : State) (g : PowSt → PowSt) : (State.modPow s g).kept = s.kept := by
  unfold State.modPow
  simp only [↓kept_mk]

theorem State.setFrondPow_kept (s : State) (f : Nat) (x : FrondPow) : (State.setFrondPow s f x).kept = s.kept := by
  unfold State.setFrondPow
  simp only [↓State.modPow_kept]

theorem State.setMapBit_kept (s : State) (fd : Nat → Fld) (f : Nat) (b : Bool) : (State.setMapBit s fd f b).kept = s.kept
    := by
  unfold State.setMapBit
  simp only [↓State.wr_kept]

theorem State.powerSleep_kept (s : State) (f : Nat) (new : Nat) : (State.powerSleep s f new).kept = s.kept := by
  unfold State.powerSleep
  repeat' first | with_reducible rfl | split | simp only [↓State.dropRetained_kept,
      ↓State.enterIdle_kept, ↓State.modFrond_kept]

theorem State.powerCrypto_kept (s : State) (f : Nat) (new : Nat) : (State.powerCrypto s f new).kept = s.kept := by
  unfold State.powerCrypto
  repeat' first | with_reducible rfl | split | simp only [↓State.cryptoRun_kept, ↓State.cryptoStop_kept]

theorem State.powerFec_kept (s : State) (f : Nat) (new : Nat) : (State.powerFec s f new).kept = s.kept := by
  unfold State.powerFec
  repeat' first | with_reducible rfl | split | simp only [↓State.modFrond_kept]

theorem State.powerInsrc_kept (s : State) (f : Nat) (new : Nat) : (State.powerInsrc s f new).kept = s.kept := by
  unfold State.powerInsrc
  simp only [↓State.setInsrc_kept]

theorem State.powerRise_kept (s : State) (f : Nat) : (State.powerRise s f).kept = s.kept := by
  unfold State.powerRise
  repeat' first | with_reducible rfl | split | simp only [↓kept_ite, ↓State.dropRetained_kept,
      ↓State.leaveIdle_kept, ↓State.modFrond_kept, ↓State.stampRule_kept]

theorem State.enterPower_kept (s : State) (f : Nat) (new : Nat) : (State.enterPower s f new).kept = s.kept := by
  unfold State.enterPower
  repeat' first | with_reducible rfl | split | simp only [↓kept_ite, ↓State.powerCrypto_kept,
      ↓State.powerFec_kept, ↓State.powerInsrc_kept, ↓State.powerRise_kept, ↓State.powerSleep_kept, ↓State.raise_kept,
          ↓State.squelchUpdate_kept, ↓State.stopDefects_kept, ↓State.updateLos_kept, ↓State.wr_kept]

theorem State.endWake_kept (s : State) (f : Nat) : (State.endWake s f).kept = s.kept := by
  unfold State.endWake
  simp only [↓State.wrB_kept]

theorem State.wakeLate_kept (s : State) (f : Nat) : (State.wakeLate s f).kept = s.kept := by
  unfold State.wakeLate
  repeat' first | with_reducible rfl | split | simp only [↓kept_ite, ↓State.bump_kept, ↓State.raise_kept]

theorem State.holdTarget_kept (s : State) (f : Nat) (raw : Nat) : (State.holdTarget s f raw).1.kept = s.kept := by
  unfold State.holdTarget
  repeat' first | with_reducible rfl | split | simp only [↓kept_mk, ↓State.cancelDeferred_kept,
      ↓State.defer_kept, ↓State.setFrondPow_kept]

theorem State.holdTarget_kept' {s : State} {f : Nat} {raw : Nat} {x0 : State} {x1 : Nat} (h : State.holdTarget s f raw =
    (x0, x1)) : x0.kept = s.kept := by
  rw [← State.holdTarget_kept s f raw, h]

theorem State.powerCal_kept (s : State) (f : Nat) (ready : Bool) : (State.powerCal s f ready).kept = s.kept := by
  unfold State.powerCal
  repeat' first | with_reducible rfl | split | simp only [↓kept_ite, ↓State.calAbort_kept, ↓State.setFrondCal_kept]

theorem State.powerTarget_kept (s : State) (f : Nat) : (State.powerTarget s f).1.kept = s.kept := by
  unfold State.powerTarget
  repeat' first | with_reducible rfl | split | simp only [↓State.holdTarget_kept]

theorem State.powerTarget_kept' {s : State} {f : Nat} {x0 : State} {x1 : Nat} (h : State.powerTarget s f = (x0,
    x1)) : x0.kept = s.kept := by
  rw [← State.powerTarget_kept s f, h]

theorem State.powerUp_kept (s : State) (f : Nat) (st : Nat) (tgt : Nat) (ready : Bool) : (State.powerUp s f st tgt
    ready).kept = s.kept := by
  unfold State.powerUp
  repeat' first | with_reducible rfl | split | simp only [↓kept_ite, ↓State.enterPower_kept,
      ↓State.setFrondPow_kept, ↓State.wakeLate_kept, ↓State.wrB_kept]

theorem State.powerMove_kept (s : State) (f : Nat) (tgt : Nat) (ready : Bool) : (State.powerMove s f tgt ready).kept =
    s.kept := by
  unfold State.powerMove
  repeat' first | with_reducible rfl | split | simp only [↓kept_ite, ↓State.endWake_kept, ↓State.enterPower_kept,
      ↓State.powerUp_kept, ↓State.setFrondPow_kept]

theorem State.powerStale_kept (s : State) (f : Nat) : (State.powerStale s f).kept = s.kept := by
  unfold State.powerStale
  repeat' first | with_reducible rfl | split | simp only [↓kept_ite, ↓State.raise_kept, ↓State.setFrondPow_kept]

theorem State.powerEval_kept (s : State) (f : Nat) : (State.powerEval s f).kept = s.kept := by
  unfold State.powerEval
  simp only [↓State.calRefresh_kept, ↓State.powerCal_kept, ↓State.powerMove_kept,
      ↓State.powerStale_kept, ↓State.powerTarget_kept]

theorem State.moduleState_kept (s : State) : (State.moduleState s).kept = s.kept := by
  unfold State.moduleState
  repeat' first | with_reducible rfl | split | simp only [↓kept_ite, ↓State.raise_kept, ↓State.wr_kept]

theorem State.powerStep_kept (s : State) : (State.powerStep s).kept = s.kept := by
  unfold State.powerStep
  repeat' first
    | with_reducible rfl
    | simp only [↓State.moduleState_kept, ↓State.powerEval_kept]
    | (with_reducible apply foldl_keptT <;> try intro _ _)
    | (with_reducible apply foldl_kept1T <;> try intro _ _)
    | split
    | (apply foldl_keptT <;> try intro _ _)

theorem execWakeComplete_kept (f : Fin 48) (s : State) (t : State) (h : execWakeComplete f s = .next t) : t.kept = s.kept
    := by
  unfold execWakeComplete at h
  injection h with h
  subst h
  repeat' first | with_reducible rfl | split | simp only [↓kept_ite, ↓State.calAdmit_kept, ↓State.endWake_kept,
      ↓State.enterPower_kept, ↓State.holdTarget_kept, ↓State.moduleState_kept, ↓State.setFrondPow_kept, ↓State.wakeLate_kept]

theorem State.thermWarn_kept (s : State) : (State.thermWarn s).kept = s.kept := by
  unfold State.thermWarn
  repeat' first | with_reducible rfl | split | simp only [↓kept_ite, ↓State.bumpLife_kept, ↓State.modPeat_kept,
      ↓State.raise_kept, ↓State.wr_kept, ↓State.wrB_kept, ↓State.wrS_kept]

theorem State.thermTick_kept (s : State) : (State.thermTick s).kept = s.kept := by
  unfold State.thermTick
  simp only [↓State.modPow_kept]

theorem State.capStep_kept (s : State) (f : Nat) : (State.capStep s f).kept = s.kept := by
  unfold State.capStep
  repeat' first | with_reducible rfl | split | simp only [↓kept_ite, ↓State.raise_kept, ↓State.setFrondPow_kept,
      ↓State.wr_kept]

theorem execThermThrottle_kept (f : Fin 48) (s : State) (t : State) (h : execThermThrottle f s = .next t) : t.kept = s.kept
    := by
  unfold execThermThrottle at h
  injection h with h
  subst h
  simp only [↓State.capStep_kept, ↓State.thermTick_kept]

theorem State.shedStep_kept (s : State) : (State.shedStep s).kept = s.kept := by
  unfold State.shedStep
  repeat' first | with_reducible rfl | split | simp only [↓kept_ite, ↓State.modPow_kept, ↓State.raise_kept,
      ↓State.setMapBit_kept]

theorem execThermShed_kept (s : State) (t : State) (h : execThermShed s = .next t) : t.kept = s.kept := by
  unfold execThermShed at h
  injection h with h
  subst h
  simp only [↓State.shedStep_kept, ↓State.thermTick_kept]

theorem State.gateLanes_kept (s : State) : (State.gateLanes s).kept = s.kept := by
  unfold State.gateLanes
  repeat' first
    | with_reducible rfl
    | simp only [↓kept_ite, ↓State.setPort_kept, ↓State.updatePort_kept, ↓State.wrB_kept]
    | (with_reducible apply foldl_keptT <;> try intro _ _)
    | (with_reducible apply foldl_kept1T <;> try intro _ _)
    | split
    | (apply foldl_keptT <;> try intro _ _)

theorem State.gateAll_kept (s : State) : (State.gateAll s).kept = s.kept := by
  unfold State.gateAll
  repeat' first
    | with_reducible rfl
    | simp only [↓kept_mk, ↓State.calAbort_kept, ↓State.endWake_kept, ↓State.enterPower_kept, ↓State.gateLanes_kept]
    | (with_reducible apply foldl_keptT <;> try intro _ _)

theorem execThermalTrip_kept (sensor : Fin 52) (deg : Nat) (s : State) (t : State) (h : execThermalTrip sensor deg s =
    .next t) : t.kept = s.kept := by
  unfold execThermalTrip at h
  injection h with h
  subst h
  repeat' first
    | with_reducible rfl
    | simp only [↓State.bumpLife_kept, ↓State.gateAll_kept, ↓State.modPow_kept, ↓State.moduleState_kept, ↓State.raise_kept,
        ↓State.sendFault_kept, ↓State.updateBlocking_kept, ↓State.wrB_kept]
    | split

theorem execAvsEvaluation_kept (r : Fin 8) (s : State) (t : State) (h : execAvsEvaluation r s = .next t) : t.kept = s.kept
    := by
  unfold execAvsEvaluation at h
  injection h with h
  subst h
  repeat' first | with_reducible rfl | split | simp only [↓State.modPow_kept, ↓State.raise_kept,
      ↓State.wr_kept]

theorem execRailFault_kept (r : Fin 14) (mv : Nat) (s : State) (t : State) (h : execRailFault r mv s = .next t) : t.kept =
    s.kept := by
  unfold execRailFault at h
  injection h with h
  subst h
  repeat' first | with_reducible rfl | split | simp only [↓State.bump_kept, ↓State.modPow_kept,
      ↓State.raise_kept, ↓State.sendFault_kept]

theorem appPwrFrond_kept (f : Nat) (setLt : Bool) (setShed : Bool) (shed : Bool) (lt : Nat) (y5 : Ctx) (s : State) :
    (appPwrFrond f setLt setShed shed lt y5 s).s.kept = s.kept := by
  unfold appPwrFrond
  repeat' first | with_reducible rfl | split | simp only [↓kept_ite, ↓State.calAbort_kept,
      ↓State.holdTarget_kept, ↓State.setMapBit_kept, ↓State.wr_kept]

theorem execPwrFrond_kept (h : ReqHdr) (mem : HostMem) (f : Nat) (setLt : Bool) (setShed : Bool) (shed : Bool) (lt : Nat)
    (s : State) (t : State) (h : execPwrFrond h mem f setLt setShed shed lt s = .next t) : t.kept = s.kept := by
  unfold execPwrFrond at h
  injection h with h
  subst h
  repeat' first
    | with_reducible rfl
    | simp only [↓appPwrFrond_kept]
    | (with_reducible apply foldl_keptT <;> try intro _ _)
    | (with_reducible apply foldl_kept1T <;> try intro _ _)
    | (with_reducible apply runOne_keptT <;> try intro _)
    | split
    | (apply foldl_keptT <;> try intro _ _)

theorem appPwrThermal_kept (warn : Nat) (thr : Nat) (y2 : Ctx) (s : State) : (appPwrThermal warn thr y2 s).s.kept = s.kept
    := by
  unfold appPwrThermal
  simp only [↓State.wr_kept]

theorem execPwrThermal_kept (h : ReqHdr) (mem : HostMem) (warn : Nat) (thr : Nat) (s : State) (t : State) (h :
    execPwrThermal h mem warn thr s = .next t) : t.kept = s.kept := by
  unfold execPwrThermal at h
  injection h with h
  subst h
  repeat' first
    | with_reducible rfl
    | simp only [↓appPwrThermal_kept]
    | (with_reducible apply foldl_keptT <;> try intro _ _)
    | (with_reducible apply foldl_kept1T <;> try intro _ _)
    | (with_reducible apply runOne_keptT <;> try intro _)
    | split
    | (apply foldl_keptT <;> try intro _ _)

theorem State.pageTemp_kept (a : State × List (Nat × Int)) (p : Nat) : (State.pageTemp a p).1.kept = a.1.kept := by
  unfold State.pageTemp
  split
  · unfold State.fresh
    rw [kept_mk]
  · rfl

theorem execTelemetryRefresh_kept (s : State) (t : State) (h : execTelemetryRefresh s = .next t) : t.kept = s.kept := by
  unfold execTelemetryRefresh at h
  injection h with h
  subst h
  repeat' first
    | with_reducible rfl
    | simp only [↓State.modPow_kept, ↓State.pageTemp_kept, ↓State.wr_kept]
    | (with_reducible apply foldl_keptT <;> try intro _ _)
    | (with_reducible apply foldl_kept1T <;> try intro _ _)
    | split
    | (apply foldl_keptT <;> try intro _ _)

theorem State.pmbus_kept {s : State} {act : State → State} (h : ∀ s,
    (act s).kept = s.kept) : (s.pmbus act).kept = s.kept := by
  unfold State.pmbus
  split
  · exact h s
  · rfl

theorem State.pmbus_keptT {s : State} {act : State → State} {t : State} (h : ∀ s,
    (act s).kept = s.kept) (e : s.kept = t.kept) : (s.pmbus act).kept = t.kept := (State.pmbus_kept h).trans e

theorem State.pmbusNack_kept (s : State) (bit : Nat) : (State.pmbusNack s bit).kept = s.kept := by
  unfold State.pmbusNack
  simp only [↓State.emit_kept, ↓State.modPow_kept]

theorem linear11_kept (s : State) (num : Int) (den : Nat) : (linear11 s num den).2.kept = s.kept := by
  unfold linear11
  simp only [↓State.wholeUnits_kept]

theorem linear11_kept' {s : State} {num : Int} {den : Nat} {x0 : Nat} {x1 : State} (h : linear11 s num den = (x0,
    x1)) : x1.kept = s.kept := by
  rw [← linear11_kept s num den, h]

theorem execPmbusPageWrite_kept (p : Fin 256) (s : State) (t : State) (h : execPmbusPageWrite p s = .next t) : t.kept =
    s.kept := by
  unfold execPmbusPageWrite at h
  injection h with h
  subst h
  repeat' first
    | with_reducible rfl
    | simp only [↓kept_ite, ↓State.modPow_kept, ↓State.pmbusNack_kept]
    | (with_reducible apply foldl_keptT <;> try intro _ _)
    | (with_reducible apply foldl_kept1T <;> try intro _ _)
    | (with_reducible apply State.pmbus_keptT <;> try intro _)
    | split
    | (apply foldl_keptT <;> try intro _ _)

theorem execPmbusPageRead_kept (s : State) (t : State) (h : execPmbusPageRead s = .next t) : t.kept = s.kept := by
  unfold execPmbusPageRead at h
  injection h with h
  subst h
  repeat' first
    | with_reducible rfl
    | simp only [↓State.emit_kept]
    | (with_reducible apply foldl_keptT <;> try intro _ _)
    | (with_reducible apply foldl_kept1T <;> try intro _ _)
    | (with_reducible apply State.pmbus_keptT <;> try intro _)
    | split
    | (apply foldl_keptT <;> try intro _ _)

theorem execPmbusVoutMode_kept (s : State) (t : State) (h : execPmbusVoutMode s = .next t) : t.kept = s.kept := by
  unfold execPmbusVoutMode at h
  injection h with h
  subst h
  repeat' first
    | with_reducible rfl
    | simp only [↓State.emit_kept]
    | (with_reducible apply foldl_keptT <;> try intro _ _)
    | (with_reducible apply foldl_kept1T <;> try intro _ _)
    | (with_reducible apply State.pmbus_keptT <;> try intro _)
    | split
    | (apply foldl_keptT <;> try intro _ _)

theorem execPmbusStatusWord_kept (s : State) (t : State) (h : execPmbusStatusWord s = .next t) : t.kept = s.kept := by
  unfold execPmbusStatusWord at h
  injection h with h
  subst h
  repeat' first
    | with_reducible rfl
    | simp only [↓State.emit_kept]
    | (with_reducible apply foldl_keptT <;> try intro _ _)
    | (with_reducible apply foldl_kept1T <;> try intro _ _)
    | (with_reducible apply State.pmbus_keptT <;> try intro _)
    | split
    | (apply foldl_keptT <;> try intro _ _)

theorem execPmbusStatusCml_kept (s : State) (t : State) (h : execPmbusStatusCml s = .next t) : t.kept = s.kept := by
  unfold execPmbusStatusCml at h
  injection h with h
  subst h
  repeat' first
    | with_reducible rfl
    | simp only [↓State.emit_kept, ↓State.modPow_kept]
    | (with_reducible apply foldl_keptT <;> try intro _ _)
    | (with_reducible apply foldl_kept1T <;> try intro _ _)
    | (with_reducible apply State.pmbus_keptT <;> try intro _)
    | split
    | (apply foldl_keptT <;> try intro _ _)

theorem execPmbusReadVout_kept (s : State) (t : State) (h : execPmbusReadVout s = .next t) : t.kept = s.kept := by
  unfold execPmbusReadVout at h
  injection h with h
  subst h
  repeat' first
    | with_reducible rfl
    | simp only [↓kept_ite, ↓State.emit_kept, ↓State.wholeUnits_kept]
    | (with_reducible apply foldl_keptT <;> try intro _ _)
    | (with_reducible apply foldl_kept1T <;> try intro _ _)
    | (with_reducible apply State.pmbus_keptT <;> try intro _)
    | refine Eq.trans (State.wholeUnits_kept' (by assumption)) ?_
    | split
    | (apply foldl_keptT <;> try intro _ _)

theorem execPmbusReadIout_kept (s : State) (t : State) (h : execPmbusReadIout s = .next t) : t.kept = s.kept := by
  unfold execPmbusReadIout at h
  injection h with h
  subst h
  repeat' first
    | with_reducible rfl
    | simp only [↓State.emit_kept, ↓linear11_kept]
    | (with_reducible apply foldl_keptT <;> try intro _ _)
    | (with_reducible apply foldl_kept1T <;> try intro _ _)
    | (with_reducible apply State.pmbus_keptT <;> try intro _)
    | refine Eq.trans (linear11_kept' (by assumption)) ?_
    | split
    | (apply foldl_keptT <;> try intro _ _)

theorem execPmbusReadTemperature1_kept (s : State) (t : State) (h : execPmbusReadTemperature1 s = .next t) : t.kept =
    s.kept := by
  unfold execPmbusReadTemperature1 at h
  injection h with h
  subst h
  repeat' first
    | with_reducible rfl
    | simp only [↓State.emit_kept, ↓linear11_kept]
    | (with_reducible apply foldl_keptT <;> try intro _ _)
    | (with_reducible apply foldl_kept1T <;> try intro _ _)
    | (with_reducible apply State.pmbus_keptT <;> try intro _)
    | refine Eq.trans (linear11_kept' (by assumption)) ?_
    | split
    | (apply foldl_keptT <;> try intro _ _)

theorem execPmbusReadPout_kept (s : State) (t : State) (h : execPmbusReadPout s = .next t) : t.kept = s.kept := by
  unfold execPmbusReadPout at h
  injection h with h
  subst h
  repeat' first
    | with_reducible rfl
    | simp only [↓State.emit_kept, ↓linear11_kept]
    | (with_reducible apply foldl_keptT <;> try intro _ _)
    | (with_reducible apply foldl_kept1T <;> try intro _ _)
    | (with_reducible apply State.pmbus_keptT <;> try intro _)
    | refine Eq.trans (linear11_kept' (by assumption)) ?_
    | split
    | (apply foldl_keptT <;> try intro _ _)

theorem execPmbusMfrSpecific00_kept (s : State) (t : State) (h : execPmbusMfrSpecific00 s = .next t) : t.kept = s.kept := by
  unfold execPmbusMfrSpecific00 at h
  injection h with h
  subst h
  repeat' first
    | with_reducible rfl
    | simp only [↓kept_ite, ↓State.emit_kept, ↓State.pmbusNack_kept, ↓State.wholeUnits_kept]
    | (with_reducible apply foldl_keptT <;> try intro _ _)
    | (with_reducible apply foldl_kept1T <;> try intro _ _)
    | (with_reducible apply State.pmbus_keptT <;> try intro _)
    | refine Eq.trans (State.wholeUnits_kept' (by assumption)) ?_
    | split
    | (apply foldl_keptT <;> try intro _ _)

theorem execPmbusMfrSpecific01_kept (s : State) (t : State) (h : execPmbusMfrSpecific01 s = .next t) : t.kept = s.kept := by
  unfold execPmbusMfrSpecific01 at h
  injection h with h
  subst h
  repeat' first
    | with_reducible rfl
    | simp only [↓State.emit_kept]
    | (with_reducible apply foldl_keptT <;> try intro _ _)
    | (with_reducible apply foldl_kept1T <;> try intro _ _)
    | (with_reducible apply State.pmbus_keptT <;> try intro _)
    | split
    | (apply foldl_keptT <;> try intro _ _)

theorem execPmbusUnsupported_kept (s : State) (t : State) (h : execPmbusUnsupported s = .next t) : t.kept = s.kept := by
  unfold execPmbusUnsupported at h
  injection h with h
  subst h
  repeat' first
    | with_reducible rfl
    | simp only [↓State.pmbusNack_kept]
    | (with_reducible apply foldl_keptT <;> try intro _ _)
    | (with_reducible apply foldl_kept1T <;> try intro _ _)
    | (with_reducible apply State.pmbus_keptT <;> try intro _)
    | split
    | (apply foldl_keptT <;> try intro _ _)

/-! ### Monitor -/

theorem State.modMon_kept (s : State) (g : MonSt → MonSt) : (State.modMon s g).kept = s.kept := by
  unfold State.modMon
  simp only [↓kept_mk]

theorem State.monSkip_kept (s : State) : (State.monSkip s).kept = s.kept := by
  unfold State.monSkip
  simp only [↓State.bump_kept, ↓State.modMon_kept, ↓State.rateEvent_kept]

theorem State.monNext_kept (s : State) (n i t : Nat) : (State.monNext s n i t).kept = s.kept := by
  induction n generalizing s i t with
  | zero => unfold State.monNext; rw [State.modMon_kept]
  | succ k ih =>
    unfold State.monNext
    repeat' split
    all_goals first | rw [State.modMon_kept] | (rw [ih, State.monSkip_kept]) | rw [ih]

theorem State.monIdle_kept (s : State) (upto n : Nat) : (State.monIdle s upto n).kept = s.kept := by
  induction n generalizing s with
  | zero => rfl
  | succ k ih =>
    unfold State.monIdle
    dsimp only
    split
    · rw [ih, State.monNext_kept]
    · rfl

theorem State.monUrgent_kept (s : State) (t : Nat) : (State.monUrgent s t).kept = s.kept := by
  unfold State.monUrgent
  repeat' first | with_reducible rfl | split | simp only [↓kept_ite, ↓State.bump_kept,
      ↓State.modMon_kept, ↓State.wr_kept]

theorem State.monFrame_kept (s : State) (len : Nat) : (State.monFrame s len).kept = s.kept := by
  unfold State.monFrame
  repeat' first
    | with_reducible rfl
    | simp only [↓State.modMon_kept, ↓State.monNext_kept, ↓State.monSkip_kept,
        ↓State.monUrgent_kept]
    | (with_reducible apply foldl_keptT <;> try intro _ _)
    | (with_reducible apply foldl_kept1T <;> try intro _ _)
    | split
    | (apply foldl_keptT <;> try intro _ _)

theorem execMonFrameStart_kept (s : State) (t : State) (h : execMonFrameStart s = .next t) : t.kept = s.kept := by
  unfold execMonFrameStart at h
  injection h with h
  subst h
  repeat' first | with_reducible rfl | split | simp only [↓State.monFrame_kept]

theorem execMonConversionEnd_kept (code : Fin 4096) (value : Int) (s : State) (t : State) (h : execMonConversionEnd code
    value s = .next t) : t.kept = s.kept := by
  unfold execMonConversionEnd at h
  injection h with h
  subst h
  repeat' first | with_reducible rfl | split | simp only [↓kept_ite, ↓State.modMon_kept, ↓State.monIdle_kept,
      ↓State.monNext_kept, ↓State.monUrgent_kept]

theorem State.setLim_kept (s : State) (c : Nat) (st : Nat) (l : MonLimit) (v : Int) : (State.setLim s c st l v).kept =
    s.kept := by
  unfold State.setLim
  repeat' first | with_reducible rfl | split | simp only [↓State.raise_kept, ↓State.sendFault_kept,
      ↓State.wr_kept, ↓State.wrB_kept]

theorem State.limCheck_kept (s : State) (c : Nat) (v : Int) : (State.limCheck s c v).kept = s.kept := by
  unfold State.limCheck
  repeat' first | with_reducible rfl | split | simp only [↓kept_ite, ↓State.modMon_kept, ↓State.setLim_kept]

theorem State.monPublish1_kept (s : State) (r : Nat × Nat × Int × Nat) : (State.monPublish1 s r).kept = s.kept := by
  unfold State.monPublish1
  repeat' first | with_reducible rfl | split | simp only [↓State.limCheck_kept, ↓State.thermWarn_kept,
      ↓State.wr_kept, ↓State.wrB_kept, ↓State.wrS_kept]

theorem State.monPublish_kept (s : State) : (State.monPublish s).kept = s.kept := by
  unfold State.monPublish
  repeat' first
    | with_reducible rfl
    | simp only [↓kept_ite, ↓State.modMon_kept, ↓State.monIdle_kept,
        ↓State.monPublish1_kept, ↓State.wr_kept]
    | (with_reducible apply foldl_keptT <;> try intro _ _)
    | (with_reducible apply foldl_kept1T <;> try intro _ _)
    | split
    | (apply foldl_keptT <;> try intro _ _)

theorem execUrgentRequest_kept (src : Fin 3) (ch : Fin 256) (at' : Fin 10000) (s : State) (t : State) (h :
    execUrgentRequest src ch at' s = .next t) : t.kept = s.kept := by
  unfold execUrgentRequest at h
  injection h with h
  subst h
  repeat' first | with_reducible rfl | split | simp only [↓State.modMon_kept,
      ↓State.monIdle_kept, ↓State.monUrgent_kept, ↓State.wr_kept]

theorem State.monResume_kept (s : State) (t : Nat) : (State.monResume s t).kept = s.kept := by
  unfold State.monResume
  simp only [↓State.modMon_kept, ↓State.monNext_kept, ↓State.monUrgent_kept]

theorem execUrgentConversionEnd_kept (code : Fin 4096) (value : Int) (s : State) (t : State) (h : execUrgentConversionEnd
    code value s = .next t) : t.kept = s.kept := by
  unfold execUrgentConversionEnd at h
  injection h with h
  subst h
  repeat' first | with_reducible rfl | split | simp only [↓State.monResume_kept, ↓State.raise_kept]

theorem execMonTestDone_kept (code : Fin 4096) (s : State) (t : State) (h : execMonTestDone code s = .next t) : t.kept =
    s.kept := by
  unfold execMonTestDone at h
  injection h with h
  subst h
  repeat' first | with_reducible rfl | split | simp only [↓State.modMon_kept,
      ↓State.monIdle_kept, ↓State.monResume_kept, ↓State.monUrgent_kept, ↓State.raise_kept, ↓State.wr_kept, ↓State.wrB_kept]

theorem appMonSeq_kept (addr : Nat) (c : Ctx) (s : State) : (appMonSeq addr c s).s.kept = s.kept := by
  unfold appMonSeq
  repeat' first | with_reducible rfl | split | simp only [↓State.modMon_kept]

theorem execMonSeq_kept (h : ReqHdr) (mem : HostMem) (addr : Nat) (s : State) (t : State) (h : execMonSeq h mem addr s =
    .next t) : t.kept = s.kept := by
  unfold execMonSeq at h
  injection h with h
  subst h
  repeat' first
    | with_reducible rfl
    | simp only [↓appMonSeq_kept]
    | (with_reducible apply foldl_keptT <;> try intro _ _)
    | (with_reducible apply foldl_kept1T <;> try intro _ _)
    | (with_reducible apply runOne_keptT <;> try intro _)
    | split
    | (apply foldl_keptT <;> try intro _ _)

theorem State.restartPers_kept (s : State) (p : Nat → Bool) : (State.restartPers s p).kept = s.kept := by
  unfold State.restartPers
  simp only [↓State.modMon_kept]

theorem appMonLimit_kept (limit : Nat) (persist : Nat) (fault : Bool) (sev : Nat) (low : Int) (high : Int) (hyst : Nat) (y7
    : Ctx) (s : State) : (appMonLimit limit persist fault sev low high hyst y7 s).s.kept = s.kept := by
  unfold appMonLimit
  simp only [↓State.modMon_kept, ↓State.restartPers_kept]

theorem execMonLimit_kept (h : ReqHdr) (mem : HostMem) (limit : Nat) (persist : Nat) (fault : Bool) (sev : Nat) (low : Int)
    (high : Int) (hyst : Nat) (s : State) (t : State) (h : execMonLimit h mem limit persist fault sev low high hyst s =
        .next t) : t.kept = s.kept := by
  unfold execMonLimit at h
  injection h with h
  subst h
  repeat' first
    | with_reducible rfl
    | simp only [↓appMonLimit_kept]
    | (with_reducible apply foldl_keptT <;> try intro _ _)
    | (with_reducible apply foldl_kept1T <;> try intro _ _)
    | (with_reducible apply runOne_keptT <;> try intro _)
    | split
    | (apply foldl_keptT <;> try intro _ _)

theorem appMonMap_kept (addr : Nat) (c : Ctx) (s : State) : (appMonMap addr c s).s.kept = s.kept := by
  unfold appMonMap
  repeat' first | with_reducible rfl | split | simp only [↓State.modMon_kept, ↓State.restartPers_kept]

theorem execMonMap_kept (h : ReqHdr) (mem : HostMem) (addr : Nat) (s : State) (t : State) (h : execMonMap h mem addr s =
    .next t) : t.kept = s.kept := by
  unfold execMonMap at h
  injection h with h
  subst h
  repeat' first
    | with_reducible rfl
    | simp only [↓appMonMap_kept]
    | (with_reducible apply foldl_keptT <;> try intro _ _)
    | (with_reducible apply foldl_kept1T <;> try intro _ _)
    | (with_reducible apply runOne_keptT <;> try intro _)
    | split
    | (apply foldl_keptT <;> try intro _ _)

theorem appMonSample_kept (ch : Nat) (y1 : Ctx) (s : State) : (appMonSample ch y1 s).s.kept = s.kept := by
  unfold appMonSample
  repeat' first | with_reducible rfl | split | simp only [↓kept_ite, ↓State.modMon_kept,
      ↓State.monIdle_kept, ↓State.monUrgent_kept, ↓State.wr_kept]

theorem execMonSample_kept (h : ReqHdr) (mem : HostMem) (ch : Nat) (s : State) (t : State) (h : execMonSample h mem ch s =
    .next t) : t.kept = s.kept := by
  unfold execMonSample at h
  injection h with h
  subst h
  repeat' first
    | with_reducible rfl
    | simp only [↓appMonSample_kept]
    | (with_reducible apply foldl_keptT <;> try intro _ _)
    | (with_reducible apply foldl_kept1T <;> try intro _ _)
    | (with_reducible apply runOne_keptT <;> try intro _)
    | split
    | (apply foldl_keptT <;> try intro _ _)

theorem appMonTest_kept (ch : Nat) (d : Nat) (y2 : Ctx) (s : State) : (appMonTest ch d y2 s).s.kept = s.kept := by
  unfold appMonTest
  simp only [↓State.modMon_kept, ↓State.wrB_kept]

theorem execMonTest_kept (h : ReqHdr) (mem : HostMem) (ch : Nat) (d : Nat) (s : State) (t : State) (h : execMonTest h mem
    ch d s = .next t) : t.kept = s.kept := by
  unfold execMonTest at h
  injection h with h
  subst h
  repeat' first
    | with_reducible rfl
    | simp only [↓appMonTest_kept]
    | (with_reducible apply foldl_keptT <;> try intro _ _)
    | (with_reducible apply foldl_kept1T <;> try intro _ _)
    | (with_reducible apply runOne_keptT <;> try intro _)
    | split
    | (apply foldl_keptT <;> try intro _ _)

theorem State.monStop_kept (s : State) : (State.monStop s).kept = s.kept := by
  unfold State.monStop
  simp only [↓State.modMon_kept]

theorem State.monRestart_kept (s : State) : (State.monRestart s).kept = s.kept := by
  unfold State.monRestart
  simp only [↓State.monFrame_kept]

/-! ### Update -/

theorem State.modUpd_kept (s : State) (g : UpdSt → UpdSt) : (State.modUpd s g).kept = s.kept := by
  unfold State.modUpd
  simp only [↓kept_mk]

theorem State.commitUpd_kept (s : State) (fails : List Nat) : (State.commitUpd s fails).kept = s.kept := by
  unfold State.commitUpd
  repeat' first | with_reducible rfl | split | simp only [↓kept_mk, ↓kept_ite, ↓State.storeWear_kept]

theorem State.loadUpd_kept (s : State) : (State.loadUpd s).kept = s.kept := by
  unfold State.loadUpd
  repeat' first | with_reducible rfl | split | simp only [↓State.modUpd_kept]

theorem State.fwRegs_kept (s : State) : (State.fwRegs s).kept = s.kept := by
  unfold State.fwRegs
  repeat' first | with_reducible rfl | split | simp only [↓State.resetRegs_kept, ↓State.wr_kept,
      ↓State.wrB_kept]

theorem State.updState_kept (s : State) (n : Nat) : (State.updState s n).kept = s.kept := by
  unfold State.updState
  repeat' first | with_reducible rfl | split | simp only [↓State.commitUpd_kept, ↓State.modUpd_kept,
      ↓State.raise_kept]

theorem State.updIdle_kept (s : State) : (State.updIdle s).kept = s.kept := by
  unfold State.updIdle
  simp only [↓State.modUpd_kept, ↓State.updState_kept]

theorem State.updReject_kept (s : State) (reason : Nat) : (State.updReject s reason).kept = s.kept := by
  unfold State.updReject
  simp only [↓State.modUpd_kept, ↓State.updState_kept]

theorem appUpdConfig_kept (host : Bool) (gcc : Bool) (y2 : Ctx) (s : State) : (appUpdConfig host gcc y2 s).s.kept = s.kept
    := by
  unfold appUpdConfig
  simp only [↓State.modUpd_kept]

theorem execUpdConfig_kept (h : ReqHdr) (mem : HostMem) (host : Bool) (gcc : Bool) (s : State) (t : State) (h :
    execUpdConfig h mem host gcc s = .next t) : t.kept = s.kept := by
  unfold execUpdConfig at h
  injection h with h
  subst h
  repeat' first
    | with_reducible rfl
    | simp only [↓appUpdConfig_kept]
    | (with_reducible apply foldl_keptT <;> try intro _ _)
    | (with_reducible apply foldl_kept1T <;> try intro _ _)
    | (with_reducible apply runOne_keptT <;> try intro _)
    | split
    | (apply foldl_keptT <;> try intro _ _)

theorem appUpdBegin_kept (pkg : Nat) (total : Nat) (y2 : Ctx) (s : State) : (appUpdBegin pkg total y2 s).s.kept = s.kept := by
  unfold appUpdBegin
  repeat' first | with_reducible rfl | split | simp only [↓State.modUpd_kept, ↓State.updState_kept]

theorem execUpdBegin_kept (h : ReqHdr) (mem : HostMem) (pkg : Nat) (total : Nat) (s : State) (t : State) (h : execUpdBegin
    h mem pkg total s = .next t) : t.kept = s.kept := by
  unfold execUpdBegin at h
  injection h with h
  subst h
  repeat' first
    | with_reducible rfl
    | simp only [↓appUpdBegin_kept]
    | (with_reducible apply foldl_keptT <;> try intro _ _)
    | (with_reducible apply foldl_kept1T <;> try intro _ _)
    | (with_reducible apply runOne_keptT <;> try intro _)
    | split
    | (apply foldl_keptT <;> try intro _ _)

theorem appUpdSpore_kept (addr : Nat) (c : Ctx) (s : State) : (appUpdSpore addr c s).s.kept = s.kept := by
  unfold appUpdSpore
  repeat' first | with_reducible rfl | split | simp only [↓State.modUpd_kept]

theorem execUpdSpore_kept (h : ReqHdr) (mem : HostMem) (addr : Nat) (s : State) (t : State) (h : execUpdSpore h mem addr s
    = .next t) : t.kept = s.kept := by
  unfold execUpdSpore at h
  injection h with h
  subst h
  repeat' first
    | with_reducible rfl
    | simp only [↓appUpdSpore_kept]
    | (with_reducible apply foldl_keptT <;> try intro _ _)
    | (with_reducible apply foldl_kept1T <;> try intro _ _)
    | (with_reducible apply runOne_keptT <;> try intro _)
    | split
    | (apply foldl_keptT <;> try intro _ _)

theorem appUpdAbort_kept (y0 : Ctx) (s : State) : (appUpdAbort y0 s).s.kept = s.kept := by
  unfold appUpdAbort
  repeat' first | with_reducible rfl | split | simp only [↓State.updIdle_kept]

theorem execUpdAbort_kept (h : ReqHdr) (mem : HostMem) (s : State) (t : State) (h : execUpdAbort h mem s = .next t) :
    t.kept = s.kept := by
  unfold execUpdAbort at h
  injection h with h
  subst h
  repeat' first
    | with_reducible rfl
    | simp only [↓appUpdAbort_kept]
    | (with_reducible apply foldl_keptT <;> try intro _ _)
    | (with_reducible apply foldl_kept1T <;> try intro _ _)
    | (with_reducible apply runOne_keptT <;> try intro _)
    | split
    | (apply foldl_keptT <;> try intro _ _)

theorem appUpdActivate_kept (a : Nat) (y1 : Ctx) (s : State) : (appUpdActivate a y1 s).s.kept = s.kept := by
  unfold appUpdActivate
  simp only [↓State.modUpd_kept, ↓State.updState_kept]

theorem execUpdActivate_kept (h : ReqHdr) (mem : HostMem) (a : Nat) (s : State) (t : State) (h : execUpdActivate h mem a s
    = .next t) : t.kept = s.kept := by
  unfold execUpdActivate at h
  injection h with h
  subst h
  repeat' first
    | with_reducible rfl
    | simp only [↓appUpdActivate_kept]
    | (with_reducible apply foldl_keptT <;> try intro _ _)
    | (with_reducible apply foldl_kept1T <;> try intro _ _)
    | (with_reducible apply runOne_keptT <;> try intro _)
    | split
    | (apply foldl_keptT <;> try intro _ _)

theorem appUpdRelay_kept (f : Nat) (source : Nat) (first : Nat) (y3 : Ctx) (s : State) : (appUpdRelay f source first y3
    s).s.kept = s.kept := by
  unfold appUpdRelay
  repeat' first | with_reducible rfl | split | simp only [↓State.modSlf_kept]

theorem execUpdRelay_kept (h : ReqHdr) (mem : HostMem) (f : Nat) (source : Nat) (first : Nat) (s : State) (t : State) (h :
    execUpdRelay h mem f source first s = .next t) : t.kept = s.kept := by
  unfold execUpdRelay at h
  injection h with h
  subst h
  repeat' first
    | with_reducible rfl
    | simp only [↓appUpdRelay_kept]
    | (with_reducible apply foldl_keptT <;> try intro _ _)
    | (with_reducible apply foldl_kept1T <;> try intro _ _)
    | (with_reducible apply runOne_keptT <;> try intro _)
    | split
    | (apply foldl_keptT <;> try intro _ _)

theorem appUpdStatus_kept (buf : Nat) (dn : Nat) (c : Ctx) (s : State) : (appUpdStatus buf dn c s).s.kept = s.kept := by
  unfold appUpdStatus
  simp only [↓State.modUpd_kept, ↓State.takeRead_kept]

theorem execUpdStatus_kept (h : ReqHdr) (mem : HostMem) (buf : Nat) (s : State) (t : State) (h : execUpdStatus h mem buf s
    = .next t) : t.kept = s.kept := by
  unfold execUpdStatus at h
  injection h with h
  subst h
  repeat' first
    | with_reducible rfl
    | simp only [↓appUpdStatus_kept]
    | (with_reducible apply foldl_keptT <;> try intro _ _)
    | (with_reducible apply foldl_kept1T <;> try intro _ _)
    | (with_reducible apply runOne_keptT <;> try intro _)
    | split
    | (apply foldl_keptT <;> try intro _ _)

theorem appSettingsStore_kept (copy : Nat) (addr : Nat) (len : Nat) (y3 : Ctx) (s : State) : (appSettingsStore copy addr
    len y3 s).s.kept = s.kept := by
  unfold appSettingsStore
  simp only [↓State.modUpd_kept]

theorem execSettingsStore_kept (h : ReqHdr) (mem : HostMem) (copy : Nat) (addr : Nat) (len : Nat) (s : State) (t : State)
    (h : execSettingsStore h mem copy addr len s = .next t) : t.kept = s.kept := by
  unfold execSettingsStore at h
  injection h with h
  subst h
  repeat' first
    | with_reducible rfl
    | simp only [↓appSettingsStore_kept]
    | (with_reducible apply foldl_keptT <;> try intro _ _)
    | (with_reducible apply foldl_kept1T <;> try intro _ _)
    | (with_reducible apply runOne_keptT <;> try intro _)
    | split
    | (apply foldl_keptT <;> try intro _ _)

theorem execSettingsStoreDone_kept (mem : HostMem) (same : Bool) (s : State) (t : State) (h : execSettingsStoreDone mem
    same s = .next t) : t.kept = s.kept := by
  unfold execSettingsStoreDone at h
  injection h with h
  subst h
  repeat' first | with_reducible rfl | split | simp only [↓State.modUpd_kept, ↓State.raise_kept]

theorem execUpdEraseDone_kept (s : State) (t : State) (h : execUpdEraseDone s = .next t) : t.kept = s.kept := by
  unfold execUpdEraseDone at h
  injection h with h
  subst h
  repeat' first | with_reducible rfl | split | simp only [↓State.modUpd_kept, ↓State.updState_kept]

theorem execSporeProgrammed_kept (same : Bool) (s : State) (t : State) (h : execSporeProgrammed same s = .next t) : t.kept
    = s.kept := by
  unfold execSporeProgrammed at h
  injection h with h
  subst h
  repeat' first | with_reducible rfl | split | simp only [↓kept_ite, ↓State.modUpd_kept,
      ↓State.updReject_kept, ↓State.updState_kept]

theorem execSporeFrame_kept (f : Fin 48) (s : State) (t : State) (h : execSporeFrame f s = .next t) : t.kept = s.kept := by
  unfold execSporeFrame at h
  injection h with h
  subst h
  repeat' first | with_reducible rfl | split | simp only [↓State.modSlf_kept, ↓State.modUpd_kept,
      ↓State.sporeReject_kept]

theorem execSporeAckSend_kept (s : State) (t : State) (h : execSporeAckSend s = .next t) : t.kept = s.kept := by
  unfold execSporeAckSend at h
  injection h with h
  subst h
  repeat' first | with_reducible rfl | split | simp only [↓State.modSlf_kept, ↓State.modUpd_kept]

theorem execSporeAck_kept (f : Fin 48) (s : State) (t : State) (h : execSporeAck f s = .next t) : t.kept = s.kept := by
  unfold execSporeAck at h
  injection h with h
  subst h
  repeat' first | with_reducible rfl | split | simp only [↓State.modSlf_kept, ↓State.modUpd_kept,
      ↓State.raise_kept]

theorem execUpdVerifyDone_kept (s : State) (t : State) (h : execUpdVerifyDone s = .next t) : t.kept = s.kept := by
  unfold execUpdVerifyDone at h
  injection h with h
  subst h
  repeat' first | with_reducible rfl | split | simp only [↓State.updReject_kept, ↓State.updState_kept]

theorem execPreloadDone_kept (bad : Option (Fin 6)) (s : State) (t : State) (h : execPreloadDone bad s = .next t) : t.kept
    = s.kept := by
  unfold execPreloadDone at h
  injection h with h
  subst h
  repeat' first | with_reducible rfl | split | simp only [↓State.modUpd_kept, ↓State.raise_kept,
      ↓State.updReject_kept]

theorem State.fwSwitch_kept (s : State) : (State.fwSwitch s).kept = s.kept := by
  unfold State.fwSwitch
  repeat' first | with_reducible rfl | split | simp only [↓kept_ite, ↓State.calResetAll_kept, ↓State.fwRegs_kept,
      ↓State.modUpd_kept, ↓State.updState_kept]

theorem execFwActivationSwitch_kept (s : State) (t : State) (h : execFwActivationSwitch s = .next t) : t.kept = s.kept := by
  unfold execFwActivationSwitch at h
  injection h with h
  subst h
  simp only [↓State.fwSwitch_kept]

theorem execSelfCheckReport_kept (p : Fin 6) (pass : Bool) (s : State) (t : State) (h : execSelfCheckReport p pass s =
    .next t) : t.kept = s.kept := by
  unfold execSelfCheckReport at h
  injection h with h
  subst h
  repeat' first | with_reducible rfl | split | simp only [↓State.modUpd_kept]

theorem execTrialTimeout_kept (s : State) (t : State) (h : execTrialTimeout s = .next t) : t.kept = s.kept := by
  unfold execTrialTimeout at h
  injection h with h
  subst h
  repeat' first | with_reducible rfl | split | simp only [↓kept_ite, ↓State.modUpd_kept]

theorem State.settingsReset_kept (s : State) : (State.settingsReset s).kept = s.kept := by
  unfold State.settingsReset
  repeat' first | with_reducible rfl | split | simp only [↓kept_ite, ↓State.modUpd_kept, ↓State.raise_kept]

theorem State.trialStep_kept (s : State) : (State.trialStep s).kept = s.kept := by
  unfold State.trialStep
  repeat' first | with_reducible rfl | split | simp only [↓State.bumpLife_kept, ↓State.fwRegs_kept,
      ↓State.modUpd_kept, ↓State.raise_kept, ↓State.settingsReset_kept, ↓State.updIdle_kept, ↓State.updState_kept]

theorem State.updAfterReset_kept (s : State) : (State.updAfterReset s).kept = s.kept := by
  unfold State.updAfterReset
  repeat' first | with_reducible rfl | split | simp only [↓kept_mk, ↓kept_ite, ↓State.commitUpd_kept, ↓State.loadUpd_kept,
      ↓State.modUpd_kept]

/-! ### MemInt -/

theorem State.ueConsequence_kept (s : State) (k : Nat) : (State.ueConsequence s k).kept = s.kept := by
  unfold State.ueConsequence
  repeat' first | with_reducible rfl | split | simp only [↓State.eraseKek_kept, ↓State.keyErase_kept,
      ↓State.pmZero_kept, ↓State.stopLine_kept]

theorem State.confirmedUe_kept (s : State) (k : Nat) : (State.confirmedUe s k).kept = s.kept := by
  unfold State.confirmedUe
  repeat' first | with_reducible rfl | split | simp only [↓State.fenceByte_kept,
      ↓State.ueConsequence_kept]

theorem State.writeBack_kept (s : State) (k : Nat) : (State.writeBack s k).kept = s.kept := by
  unfold State.writeBack
  simp only [↓State.bump_kept, ↓State.memLast_kept, ↓State.modMem_kept]

theorem State.scrubByte_kept (s : State) (k : Nat) : (State.scrubByte s k).kept = s.kept := by
  unfold State.scrubByte
  repeat' first | with_reducible rfl | split | simp only [↓State.confirmedUe_kept, ↓State.writeBack_kept]

theorem execScrubTick_kept (upsets : List (Nat × Nat × Nat × Nat)) (s : State) (t : State) (h : execScrubTick upsets s =
    .next t) : t.kept = s.kept := by
  unfold execScrubTick at h
  injection h with h
  subst h
  repeat' first
    | with_reducible rfl
    | simp only [↓kept_ite, ↓State.modMem_kept, ↓State.scrubByte_kept, ↓State.upset_kept]
    | (with_reducible apply foldl_keptT <;> try intro _ _)
    | (with_reducible apply foldl_kept1T <;> try intro _ _)
    | split
    | (apply foldl_keptT <;> try intro _ _)

theorem execConfirmationRead_kept (s : State) (t : State) (h : execConfirmationRead s = .next t) : t.kept = s.kept := by
  unfold execConfirmationRead at h
  injection h with h
  subst h
  repeat' first | with_reducible rfl | split | simp only [↓State.modMem_kept, ↓State.scrubByte_kept]

theorem State.memBoundary_kept (s : State) : (State.memBoundary s).kept = s.kept := by
  unfold State.memBoundary
  repeat' first
    | with_reducible rfl
    | simp only [↓State.memWrite_kept]
    | (with_reducible apply foldl_keptT <;> try intro _ _)
    | (with_reducible apply foldl_kept1T <;> try intro _ _)
    | split
    | (apply foldl_keptT <;> try intro _ _)

theorem appMemPass_kept (memory : Nat) (frond : Nat) (off : Nat) (len : Nat) (buf : Nat) (c : Ctx) (s : State) :
    (appMemPass memory frond off len buf c s).s.kept = s.kept := by
  unfold appMemPass
  simp only [↓State.modMem_kept, ↓State.wrB_kept]

theorem execMemPass_kept (h : ReqHdr) (mem : HostMem) (memory : Nat) (frond : Nat) (off : Nat) (len : Nat) (buf : Nat) (s :
    State) (t : State) (h : execMemPass h mem memory frond off len buf s = .next t) : t.kept = s.kept := by
  unfold execMemPass at h
  injection h with h
  subst h
  repeat' first
    | with_reducible rfl
    | simp only [↓appMemPass_kept]
    | (with_reducible apply foldl_keptT <;> try intro _ _)
    | (with_reducible apply foldl_kept1T <;> try intro _ _)
    | (with_reducible apply runOne_keptT <;> try intro _)
    | split
    | (apply foldl_keptT <;> try intro _ _)

theorem execMemPassDone_kept (s : State) (t : State) (h : execMemPassDone s = .next t) : t.kept = s.kept := by
  unfold execMemPassDone at h
  injection h with h
  subst h
  repeat' first | with_reducible rfl | split | simp only [↓State.hostWrite_kept, ↓State.modMem_kept,
      ↓State.raise_kept, ↓State.wrB_kept]

theorem appMemInject_kept (memory : Nat) (frond : Nat) (flip : Nat) (off : Nat) (y4 : Ctx) (s : State) : (appMemInject
    memory frond flip off y4 s).s.kept = s.kept := by
  unfold appMemInject
  simp only [↓State.upset_kept]

theorem execMemInject_kept (h : ReqHdr) (mem : HostMem) (memory : Nat) (frond : Nat) (flip : Nat) (off : Nat) (s : State)
    (t : State) (h : execMemInject h mem memory frond flip off s = .next t) : t.kept = s.kept := by
  unfold execMemInject at h
  injection h with h
  subst h
  repeat' first
    | with_reducible rfl
    | simp only [↓appMemInject_kept]
    | (with_reducible apply foldl_keptT <;> try intro _ _)
    | (with_reducible apply foldl_kept1T <;> try intro _ _)
    | (with_reducible apply runOne_keptT <;> try intro _)
    | split
    | (apply foldl_keptT <;> try intro _ _)

end Sys2Proof.Machine
end

