-- ==== Sys2Proof/Laws/Kept6.lean ====
section
/-! SUPPORT. The tick, the fuse array and the queue are left alone by the operations of FaultReq, Mesh, Requests,
Remote, HostOut, HostCtl. -/
namespace Sys2Proof.Machine

/-! ### FaultReq -/

theorem appFltReact_kept (kind : Nat) (action : Nat) (alert : Bool) (y3 : Ctx) (s : State) : (appFltReact kind action alert
    y3 s).s.kept = s.kept := by
  unfold appFltReact
  simp only [↓State.modFlt_kept]

theorem execFltReact_kept (h : ReqHdr) (mem : HostMem) (kind : Nat) (action : Nat) (alert : Bool) (s : State) (t : State)
    (h : execFltReact h mem kind action alert s = .next t) : t.kept = s.kept := by
  unfold execFltReact at h
  injection h with h
  subst h
  repeat' first
    | with_reducible rfl
    | simp only [↓appFltReact_kept]
    | (with_reducible apply foldl_keptT <;> try intro _ _)
    | (with_reducible apply foldl_kept1T <;> try intro _ _)
    | (with_reducible apply runOne_keptT <;> try intro _)
    | split
    | (apply foldl_keptT <;> try intro _ _)

theorem State.clearAlert_kept (s : State) : (State.clearAlert s).kept = s.kept := by
  unfold State.clearAlert
  repeat' first
    | with_reducible rfl
    | simp only [↓State.latchAlert_kept, ↓State.wr_kept]
    | (with_reducible apply foldl_keptT <;> try intro _ _)
    | (with_reducible apply foldl_kept1T <;> try intro _ _)
    | split
    | (apply foldl_keptT <;> try intro _ _)

theorem State.clearFirst_kept (s : State) : (State.clearFirst s).kept = s.kept := by
  unfold State.clearFirst
  simp only [↓State.modFlt_kept, ↓State.storePin_kept, ↓State.wrB_kept]

theorem State.clearSafe_kept (s : State) : (State.clearSafe s).kept = s.kept := by
  unfold State.clearSafe
  repeat' first
    | with_reducible rfl
    | simp only [↓kept_ite, ↓State.driveFaultN_kept, ↓State.exitSafe_kept, ↓State.raise_kept,
        ↓State.squelchUpdate_kept]
    | (with_reducible apply foldl_keptT <;> try intro _ _)
    | (with_reducible apply foldl_kept1T <;> try intro _ _)
    | split
    | (apply foldl_keptT <;> try intro _ _)

theorem appFltClear_kept (alert : Bool) (first : Bool) (safe : Bool) (y3 : Ctx) (s : State) : (appFltClear alert first safe
    y3 s).s.kept = s.kept := by
  unfold appFltClear
  repeat' first | with_reducible rfl | split | simp only [↓State.clearAlert_kept,
      ↓State.clearFirst_kept, ↓State.clearSafe_kept]

theorem execFltClearAlert_kept (h : ReqHdr) (mem : HostMem) (s : State) (t : State) (h : execFltClearAlert h mem s = .next
    t) : t.kept = s.kept := by
  unfold execFltClearAlert at h
  injection h with h
  subst h
  repeat' first
    | with_reducible rfl
    | simp only [↓appFltClear_kept]
    | (with_reducible apply foldl_keptT <;> try intro _ _)
    | (with_reducible apply foldl_kept1T <;> try intro _ _)
    | (with_reducible apply runOne_keptT <;> try intro _)
    | split
    | (apply foldl_keptT <;> try intro _ _)

theorem execFltClearFirst_kept (h : ReqHdr) (mem : HostMem) (s : State) (t : State) (h : execFltClearFirst h mem s = .next
    t) : t.kept = s.kept := by
  unfold execFltClearFirst at h
  injection h with h
  subst h
  repeat' first
    | with_reducible rfl
    | simp only [↓appFltClear_kept]
    | (with_reducible apply foldl_keptT <;> try intro _ _)
    | (with_reducible apply foldl_kept1T <;> try intro _ _)
    | (with_reducible apply runOne_keptT <;> try intro _)
    | split
    | (apply foldl_keptT <;> try intro _ _)

theorem execFltClearSafe_kept (h : ReqHdr) (mem : HostMem) (s : State) (t : State) (h : execFltClearSafe h mem s = .next t)
    : t.kept = s.kept := by
  unfold execFltClearSafe at h
  injection h with h
  subst h
  repeat' first
    | with_reducible rfl
    | simp only [↓appFltClear_kept]
    | (with_reducible apply foldl_keptT <;> try intro _ _)
    | (with_reducible apply foldl_kept1T <;> try intro _ _)
    | (with_reducible apply runOne_keptT <;> try intro _)
    | split
    | (apply foldl_keptT <;> try intro _ _)

theorem appFltLogRead_kept (first : Nat) (count : Nat) (buf : Nat) (dn : Nat) (c : Ctx) (s : State) : (appFltLogRead first
    count buf dn c s).s.kept = s.kept := by
  unfold appFltLogRead
  simp only [↓State.takeRead_kept]

theorem execFltLogRead_kept (h : ReqHdr) (mem : HostMem) (first : Nat) (count : Nat) (buf : Nat) (s : State) (t : State) (h
    : execFltLogRead h mem first count buf s = .next t) : t.kept = s.kept := by
  unfold execFltLogRead at h
  injection h with h
  subst h
  repeat' first
    | with_reducible rfl
    | simp only [↓appFltLogRead_kept]
    | (with_reducible apply foldl_keptT <;> try intro _ _)
    | (with_reducible apply foldl_kept1T <;> try intro _ _)
    | (with_reducible apply runOne_keptT <;> try intro _)
    | split
    | (apply foldl_keptT <;> try intro _ _)

theorem appFltFirstRead_kept (buf : Nat) (dn : Nat) (c : Ctx) (s : State) : (appFltFirstRead buf dn c s).s.kept = s.kept := by
  unfold appFltFirstRead
  simp only [↓State.takeRead_kept]

theorem execFltFirstRead_kept (h : ReqHdr) (mem : HostMem) (buf : Nat) (s : State) (t : State) (h : execFltFirstRead h mem
    buf s = .next t) : t.kept = s.kept := by
  unfold execFltFirstRead at h
  injection h with h
  subst h
  repeat' first
    | with_reducible rfl
    | simp only [↓appFltFirstRead_kept]
    | (with_reducible apply foldl_keptT <;> try intro _ _)
    | (with_reducible apply foldl_kept1T <;> try intro _ _)
    | (with_reducible apply runOne_keptT <;> try intro _)
    | split
    | (apply foldl_keptT <;> try intro _ _)

theorem appFltInject_kept (sev : Nat) (addr : Nat) (y2 : Ctx) (s : State) : (appFltInject sev addr y2 s).s.kept = s.kept := by
  unfold appFltInject
  simp only [↓State.fresh_kept, ↓State.sendFault_kept]

theorem execFltInject_kept (h : ReqHdr) (mem : HostMem) (sev : Nat) (addr : Nat) (s : State) (t : State) (h : execFltInject
    h mem sev addr s = .next t) : t.kept = s.kept := by
  unfold execFltInject at h
  injection h with h
  subst h
  repeat' first
    | with_reducible rfl
    | simp only [↓appFltInject_kept]
    | (with_reducible apply foldl_keptT <;> try intro _ _)
    | (with_reducible apply foldl_kept1T <;> try intro _ _)
    | (with_reducible apply runOne_keptT <;> try intro _)
    | split
    | (apply foldl_keptT <;> try intro _ _)

theorem appFltSetup_kept (evSev : Nat) (y1 : Ctx) (s : State) : (appFltSetup evSev y1 s).s.kept = s.kept := by
  unfold appFltSetup
  simp only [↓State.modFlt_kept]

theorem execFltSetup_kept (h : ReqHdr) (mem : HostMem) (evSev : Nat) (s : State) (t : State) (h : execFltSetup h mem evSev
    s = .next t) : t.kept = s.kept := by
  unfold execFltSetup at h
  injection h with h
  subst h
  repeat' first
    | with_reducible rfl
    | simp only [↓appFltSetup_kept]
    | (with_reducible apply foldl_keptT <;> try intro _ _)
    | (with_reducible apply foldl_kept1T <;> try intro _ _)
    | (with_reducible apply runOne_keptT <;> try intro _)
    | split
    | (apply foldl_keptT <;> try intro _ _)

/-! ### Mesh -/

theorem State.setMlane_kept (s : State) (p : Nat) (l : Nat) (x : MeshLane) : (State.setMlane s p l x).kept = s.kept := by
  unfold State.setMlane
  simp only [↓State.setMport_kept]

theorem State.wrBit_kept (s : State) (f : Fld) (l : Nat) (b : Bool) : (State.wrBit s f l b).kept = s.kept := by
  unfold State.wrBit
  simp only [↓State.wr_kept]

theorem State.setDb_kept (s : State) (a : Nat) (e : Option LsaRec) : (State.setDb s a e).kept = s.kept := by
  unfold State.setDb
  simp only [↓State.modMesh_kept, ↓State.wr_kept]

theorem State.originate_kept (s : State) : (State.originate s).kept = s.kept := by
  unfold State.originate
  simp only [↓State.meshFlood_kept, ↓State.modMesh_kept, ↓State.setDb_kept]

theorem State.lsaRefresh_kept (s : State) : (State.lsaRefresh s).kept = s.kept := by
  unfold State.lsaRefresh
  repeat' first | with_reducible rfl | split | simp only [↓State.originate_kept]

theorem State.claim_kept (s : State) (a : Nat) (t : Nat) : (State.claim s a t).kept = s.kept := by
  unfold State.claim
  simp only [↓State.meshFlood_kept, ↓State.modMesh_kept, ↓State.wr_kept]

theorem State.isolateConflict_kept (s : State) (a : Nat) (holder : Nat) : (State.isolateConflict s a holder).kept = s.kept
    := by
  unfold State.isolateConflict
  simp only [↓State.modMesh_kept, ↓State.raise_kept, ↓State.wr_kept]

theorem State.choose_kept (s : State) (t : Nat) : (State.choose s t).kept = s.kept := by
  unfold State.choose
  repeat' first | with_reducible rfl | split | simp only [↓kept_ite, ↓State.claim_kept,
      ↓State.isolateConflict_kept, ↓State.modMesh_kept, ↓State.raise_kept, ↓State.wr_kept]

theorem State.dropDb_kept (s : State) (a : Nat) : (State.dropDb s a).kept = s.kept := by
  unfold State.dropDb
  repeat' first | with_reducible rfl | split | simp only [↓kept_ite, ↓State.choose_kept, ↓State.setDb_kept]

theorem State.beginClaim_kept (s : State) : (State.beginClaim s).kept = s.kept := by
  unfold State.beginClaim
  repeat' first
    | with_reducible rfl
    | simp only [↓State.meshLink_kept, ↓State.modMesh_kept]
    | (with_reducible apply foldl_keptT <;> try intro _ _)
    | (with_reducible apply foldl_kept1T <;> try intro _ _)
    | split
    | (apply foldl_keptT <;> try intro _ _)

theorem State.withdraw_kept (s : State) : (State.withdraw s).kept = s.kept := by
  unfold State.withdraw
  simp only [↓State.meshFlood_kept, ↓State.modMesh_kept, ↓State.wr_kept]

theorem State.upEval_kept (s : State) (p : Nat) : (State.upEval s p).kept = s.kept := by
  unfold State.upEval
  repeat' first | with_reducible rfl | split | simp only [↓kept_ite, ↓State.lsaRefresh_kept,
      ↓State.meshLink_kept, ↓State.modMesh_kept, ↓State.raise_kept, ↓State.wrB_kept]

theorem State.upAgain_kept (s : State) (p : Nat) : (State.upAgain s p).kept = s.kept := by
  unfold State.upAgain
  repeat' first | with_reducible rfl | split | simp only [↓State.upEval_kept]

theorem State.alignLoss_kept (s : State) (p : Nat) : (State.alignLoss s p).kept = s.kept := by
  unfold State.alignLoss
  repeat' first | with_reducible rfl | split | simp only [↓State.bump_kept, ↓State.setMport_kept,
      ↓State.upEval_kept, ↓State.wrB_kept]

theorem State.meshHeader_kept (s : State) (p : Nat) (l : Nat) (good : Bool) : (State.meshHeader s p l good).kept = s.kept
    := by
  unfold State.meshHeader
  repeat' first | with_reducible rfl | split | simp only [↓kept_ite, ↓State.alignLoss_kept, ↓State.bump_kept,
      ↓State.setMlane_kept, ↓State.wrBit_kept]

theorem State.meshHeaders_kept (s : State) (p : Nat) (l : Nat) (errs : Nat) (cdr : Bool) (heads : List Bool) :
    (State.meshHeaders s p l errs cdr heads).kept = s.kept := by
  unfold State.meshHeaders
  repeat' first
    | with_reducible rfl
    | simp only [↓State.bump_kept, ↓State.meshHeader_kept, ↓State.wrBit_kept]
    | (with_reducible apply foldl_keptT <;> try intro _ _)
    | (with_reducible apply foldl_kept1T <;> try intro _ _)
    | split
    | (apply foldl_keptT <;> try intro _ _)

theorem execMeshBlockLock_kept (p : Fin 6) (l : Fin 4) (errs : Nat) (heads : List Bool) (s : State) (t : State) (h :
    execMeshBlockLock p l errs heads s = .next t) : t.kept = s.kept := by
  unfold execMeshBlockLock at h
  injection h with h
  subst h
  simp only [↓State.meshHeaders_kept]

theorem execMeshBlockLockLoss_kept (p : Fin 6) (l : Fin 4) (errs : Nat) (cdr : Bool) (heads : List Bool) (s : State) (t :
    State) (h : execMeshBlockLockLoss p l errs cdr heads s = .next t) : t.kept = s.kept := by
  unfold execMeshBlockLockLoss at h
  injection h with h
  subst h
  simp only [↓State.meshHeaders_kept]

theorem State.meshRound_kept (s : State) (p : Nat) (o : List (Nat × Nat × Nat)) : (State.meshRound s p o).kept = s.kept := by
  unfold State.meshRound
  repeat' first
    | with_reducible rfl
    | simp only [↓kept_ite, ↓State.alignLoss_kept, ↓State.setMlane_kept, ↓State.setMport_kept,
        ↓State.upEval_kept, ↓State.wr_kept, ↓State.wrB_kept]
    | (with_reducible apply foldl_keptT <;> try intro _ _)
    | (with_reducible apply foldl_kept1T <;> try intro _ _)
    | split
    | (apply foldl_keptT <;> try intro _ _)

theorem execMeshPortAlign_kept (p : Fin 6) (o : List (Nat × Nat × Nat)) (s : State) (t : State) (h : execMeshPortAlign p o
    s = .next t) : t.kept = s.kept := by
  unfold execMeshPortAlign at h
  injection h with h
  subst h
  simp only [↓State.meshRound_kept]

theorem execMeshAlignLoss_kept (p : Fin 6) (o : List (Nat × Nat × Nat)) (s : State) (t : State) (h : execMeshAlignLoss p o
    s = .next t) : t.kept = s.kept := by
  unfold execMeshAlignLoss at h
  injection h with h
  subst h
  repeat' first | with_reducible rfl | split | simp only [↓State.alignLoss_kept, ↓State.meshRound_kept]

theorem State.rxDiscard_kept (s : State) : (State.rxDiscard s).kept = s.kept := by
  unfold State.rxDiscard
  simp only [↓State.bump_kept]

theorem State.meshTake_kept (s : State) (p : Nat) (typ : Nat) (errs : Nat) (b : List Byte) : (State.meshTake s p typ errs
    b).1.kept = s.kept := by
  unfold State.meshTake
  repeat' first | with_reducible rfl | split | simp only [↓State.bump_kept, ↓State.rxDiscard_kept]

theorem State.meshTake_kept' {s : State} {p : Nat} {typ : Nat} {errs : Nat} {b : List Byte} {x0 : State} {x1 : Option
    MeshMsg} (h : State.meshTake s p typ errs b = (x0, x1)) : x0.kept = s.kept := by
  rw [← State.meshTake_kept s p typ errs b, h]

theorem State.meshRoute_kept {s : State} {p : Nat} {m : MeshMsg} {bcast : Bool} {deliver : State → State}
    (h : ∀ s, (deliver s).kept = s.kept) : (s.meshRoute p m bcast deliver).kept = s.kept := by
  unfold State.meshRoute
  dsimp only
  repeat' first
    | with_reducible rfl
    | with_reducible exact h _
    | (refine (foldl_kept fun _ _ => State.meshQueue_kept _ _ _ _).trans ?_)
    | simp only [State.rxDiscard_kept, State.bump_kept, State.meshQueue_kept, State.noRoute_kept]
    | split

theorem State.meshRoute_keptT {s : State} {p : Nat} {m : MeshMsg} {bcast : Bool} {deliver : State → State} {t : State} (h :
    ∀ s, (deliver s).kept = s.kept) (e : s.kept = t.kept) : (s.meshRoute p m bcast deliver).kept = t.kept :=
        (State.meshRoute_kept h).trans e

theorem State.floodOn_kept (s : State) (p : Nat) (m : MeshMsg) : (State.floodOn s p m).kept = s.kept := by
  unfold State.floodOn
  repeat' first
    | with_reducible rfl
    | simp only [↓kept_ite, ↓State.meshQueue_kept]
    | (with_reducible apply foldl_keptT <;> try intro _ _)
    | (with_reducible apply foldl_kept1T <;> try intro _ _)
    | split
    | (apply foldl_keptT <;> try intro _ _)

theorem execHelloSend_kept (p : Fin 6) (s : State) (t : State) (h : execHelloSend p s = .next t) : t.kept = s.kept := by
  unfold execHelloSend at h
  injection h with h
  subst h
  repeat' first | with_reducible rfl | split | simp only [↓kept_ite, ↓State.meshLink_kept, ↓State.setMport_kept]

theorem execHello_kept (p : Fin 6) (errs : Nat) (b : List Byte) (s : State) (t : State) (h : execHello p errs b s = .next
    t) : t.kept = s.kept := by
  unfold execHello at h
  injection h with h
  subst h
  repeat' first
    | with_reducible rfl
    | simp only [↓State.lsaRefresh_kept, ↓State.setMport_kept,
        ↓State.upEval_kept, ↓State.wr_kept]
    | (with_reducible apply foldl_keptT <;> try intro _ _)
    | (with_reducible apply foldl_kept1T <;> try intro _ _)
    | refine Eq.trans (State.meshTake_kept' (by assumption)) ?_
    | split
    | (apply foldl_keptT <;> try intro _ _)

theorem execMeshHelloTimeout_kept (p : Fin 6) (s : State) (t : State) (h : execMeshHelloTimeout p s = .next t) : t.kept =
    s.kept := by
  unfold execMeshHelloTimeout at h
  injection h with h
  subst h
  simp only [↓State.upEval_kept]

theorem execDbReq_kept (p : Fin 6) (errs : Nat) (b : List Byte) (s : State) (t : State) (h : execDbReq p errs b s = .next
    t) : t.kept = s.kept := by
  unfold execDbReq at h
  injection h with h
  subst h
  repeat' first
    | with_reducible rfl
    | simp only [↓kept_ite, ↓State.meshQueue_kept]
    | (with_reducible apply foldl_keptT <;> try intro _ _)
    | (with_reducible apply foldl_kept1T <;> try intro _ _)
    | refine Eq.trans (State.meshTake_kept' (by assumption)) ?_
    | split
    | (apply foldl_keptT <;> try intro _ _)

theorem State.lsaConflict_kept (s : State) (a : Nat) (e : LsaRec) : (State.lsaConflict s a e).kept = s.kept := by
  unfold State.lsaConflict
  repeat' first | with_reducible rfl | split | simp only [↓kept_ite, ↓State.beginClaim_kept, ↓State.choose_kept,
      ↓State.isolateConflict_kept, ↓State.raise_kept, ↓State.withdraw_kept, ↓State.wr_kept]

theorem execLsa_kept (p : Fin 6) (errs : Nat) (b : List Byte) (s : State) (t : State) (h : execLsa p errs b s = .next t) :
    t.kept = s.kept := by
  unfold execLsa at h
  injection h with h
  subst h
  repeat' first
    | with_reducible rfl
    | simp only [↓kept_ite, ↓State.dropDb_kept, ↓State.floodOn_kept, ↓State.lsaConflict_kept,
        ↓State.setDb_kept]
    | (with_reducible apply foldl_keptT <;> try intro _ _)
    | (with_reducible apply foldl_kept1T <;> try intro _ _)
    | refine Eq.trans (State.meshTake_kept' (by assumption)) ?_
    | split
    | (apply foldl_keptT <;> try intro _ _)

theorem execLsaOriginate_kept (s : State) (t : State) (h : execLsaOriginate s = .next t) : t.kept = s.kept := by
  unfold execLsaOriginate at h
  injection h with h
  subst h
  repeat' first | with_reducible rfl | split | simp only [↓State.originate_kept]

theorem execLsaExpiry_kept (a : Fin 4096) (s : State) (t : State) (h : execLsaExpiry a s = .next t) : t.kept = s.kept := by
  unfold execLsaExpiry at h
  injection h with h
  subst h
  repeat' first | with_reducible rfl | split | simp only [↓State.dropDb_kept]

theorem execClaim_kept (p : Fin 6) (errs : Nat) (b : List Byte) (s : State) (t : State) (h : execClaim p errs b s = .next
    t) : t.kept = s.kept := by
  unfold execClaim at h
  injection h with h
  subst h
  repeat' first
    | with_reducible rfl
    | simp only [↓kept_ite, ↓State.choose_kept, ↓State.floodOn_kept, ↓State.isolateConflict_kept,
        ↓State.modMesh_kept, ↓State.rxDiscard_kept]
    | (with_reducible apply foldl_keptT <;> try intro _ _)
    | (with_reducible apply foldl_kept1T <;> try intro _ _)
    | refine Eq.trans (State.meshTake_kept' (by assumption)) ?_
    | split
    | (apply foldl_keptT <;> try intro _ _)

theorem execDbCollectEnd_kept (s : State) (t : State) (h : execDbCollectEnd s = .next t) : t.kept = s.kept := by
  unfold execDbCollectEnd at h
  injection h with h
  subst h
  repeat' first | with_reducible rfl | split | simp only [↓State.choose_kept]

theorem execClaimComplete_kept (s : State) (t : State) (h : execClaimComplete s = .next t) : t.kept = s.kept := by
  unfold execClaimComplete at h
  injection h with h
  subst h
  repeat' first | with_reducible rfl | split | simp only [↓kept_ite, ↓State.modMesh_kept, ↓State.originate_kept,
      ↓State.raise_kept, ↓State.wr_kept]

theorem State.meshEpoch_kept (s : State) : (State.meshEpoch s).kept = s.kept := by
  unfold State.meshEpoch
  repeat' first | with_reducible rfl | split | simp only [↓State.lsaRefresh_kept, ↓State.raise_kept,
      ↓State.wr_kept]

theorem execRouteCompute_kept (s : State) (t : State) (h : execRouteCompute s = .next t) : t.kept = s.kept := by
  unfold execRouteCompute at h
  injection h with h
  subst h
  repeat' first | with_reducible rfl | split | simp only [↓State.modMesh_kept]

theorem execMeshMessageTransmit_kept (p : Fin 6) (s : State) (t : State) (h : execMeshMessageTransmit p s = .next t) :
    t.kept = s.kept := by
  unfold execMeshMessageTransmit at h
  injection h with h
  subst h
  repeat' first | with_reducible rfl | split | simp only [↓State.emit_kept, ↓State.setMport_kept]

theorem execRemoteCpl_kept (p : Fin 6) (errs : Nat) (b : List Byte) (s : State) (t : State) (h : execRemoteCpl p errs b s =
    .next t) : t.kept = s.kept := by
  unfold execRemoteCpl at h
  injection h with h
  subst h
  repeat' first
    | with_reducible rfl
    | simp only [↓State.raise_kept]
    | (with_reducible apply foldl_keptT <;> try intro _ _)
    | (with_reducible apply foldl_kept1T <;> try intro _ _)
    | (with_reducible apply State.meshRoute_keptT <;> try intro _)
    | refine Eq.trans (State.meshTake_kept' (by assumption)) ?_
    | split
    | (apply foldl_keptT <;> try intro _ _)

theorem State.keyRollRx_kept (s : State) (src : Nat) (b : List Byte) : (State.keyRollRx s src b).kept = s.kept := by
  unfold State.keyRollRx
  repeat' first | with_reducible rfl | split | simp only [↓kept_ite, ↓State.bump_kept, ↓State.raise_kept,
      ↓State.raiseFor_kept]

theorem execKeyRollMessage_kept (p : Fin 6) (errs : Nat) (b : List Byte) (s : State) (t : State) (h : execKeyRollMessage p
    errs b s = .next t) : t.kept = s.kept := by
  unfold execKeyRollMessage at h
  injection h with h
  subst h
  repeat' first
    | with_reducible rfl
    | simp only [↓State.keyRollRx_kept]
    | (with_reducible apply foldl_keptT <;> try intro _ _)
    | (with_reducible apply foldl_kept1T <;> try intro _ _)
    | (with_reducible apply State.meshRoute_keptT <;> try intro _)
    | refine Eq.trans (State.meshTake_kept' (by assumption)) ?_
    | split
    | (apply foldl_keptT <;> try intro _ _)

theorem execProtState_kept (p : Fin 6) (errs : Nat) (b : List Byte) (s : State) (t : State) (h : execProtState p errs b s =
    .next t) : t.kept = s.kept := by
  unfold execProtState at h
  injection h with h
  subst h
  repeat' first
    | with_reducible rfl
    | simp only [↓State.raise_kept]
    | (with_reducible apply foldl_keptT <;> try intro _ _)
    | (with_reducible apply foldl_kept1T <;> try intro _ _)
    | (with_reducible apply State.meshRoute_keptT <;> try intro _)
    | refine Eq.trans (State.meshTake_kept' (by assumption)) ?_
    | split
    | (apply foldl_keptT <;> try intro _ _)

theorem execFaultReport_kept (p : Fin 6) (errs : Nat) (b : List Byte) (s : State) (t : State) (h : execFaultReport p errs b
    s = .next t) : t.kept = s.kept := by
  unfold execFaultReport at h
  injection h with h
  subst h
  repeat' first
    | with_reducible rfl
    | simp only [↓State.raise_kept]
    | (with_reducible apply foldl_keptT <;> try intro _ _)
    | (with_reducible apply foldl_kept1T <;> try intro _ _)
    | (with_reducible apply State.meshRoute_keptT <;> try intro _)
    | refine Eq.trans (State.meshTake_kept' (by assumption)) ?_
    | split
    | (apply foldl_keptT <;> try intro _ _)

theorem appMshSetup_kept (portEn : Nat) (mode : Nat) (addr : Nat) (hop : Nat) (remote : Bool) (serve : Bool) (sev : Nat)
    (fdst : Nat) (pdst : Nat) (y9 : Ctx) (s : State) : (appMshSetup portEn mode addr hop remote serve sev fdst pdst y9
        s).s.kept = s.kept := by
  unfold appMshSetup
  repeat' first
    | with_reducible rfl
    | simp only [↓kept_ite, ↓State.beginClaim_kept, ↓State.modMesh_kept, ↓State.setDb_kept, ↓State.upEval_kept,
        ↓State.withdraw_kept, ↓State.wrB_kept]
    | (with_reducible apply foldl_keptT <;> try intro _ _)
    | (with_reducible apply foldl_kept1T <;> try intro _ _)
    | split
    | (apply foldl_keptT <;> try intro _ _)

theorem execMshSetup_kept (h : ReqHdr) (mem : HostMem) (portEn : Nat) (mode : Nat) (addr : Nat) (hop : Nat) (remote : Bool)
    (serve : Bool) (sev : Nat) (fdst : Nat) (pdst : Nat) (s : State) (t : State) (h : execMshSetup h mem portEn mode addr
        hop remote serve sev fdst pdst s = .next t) : t.kept = s.kept := by
  unfold execMshSetup at h
  injection h with h
  subst h
  repeat' first
    | with_reducible rfl
    | simp only [↓appMshSetup_kept]
    | (with_reducible apply foldl_keptT <;> try intro _ _)
    | (with_reducible apply foldl_kept1T <;> try intro _ _)
    | (with_reducible apply runOne_keptT <;> try intro _)
    | split
    | (apply foldl_keptT <;> try intro _ _)

theorem appMshRemote_kept (allow : List Nat) (y1 : Ctx) (s : State) : (appMshRemote allow y1 s).s.kept = s.kept := by
  unfold appMshRemote
  simp only [↓State.modMesh_kept]

theorem execMshRemote_kept (h : ReqHdr) (mem : HostMem) (allow : List Nat) (s : State) (t : State) (h : execMshRemote h mem
    allow s = .next t) : t.kept = s.kept := by
  unfold execMshRemote at h
  injection h with h
  subst h
  repeat' first
    | with_reducible rfl
    | simp only [↓appMshRemote_kept]
    | (with_reducible apply foldl_keptT <;> try intro _ _)
    | (with_reducible apply foldl_kept1T <;> try intro _ _)
    | (with_reducible apply runOne_keptT <;> try intro _)
    | split
    | (apply foldl_keptT <;> try intro _ _)

theorem appMshDbRead_kept (buf : Nat) (dn : Nat) (c : Ctx) (s : State) : (appMshDbRead buf dn c s).s.kept = s.kept := by
  unfold appMshDbRead
  simp only [↓State.takeRead_kept]

theorem execMshDbRead_kept (h : ReqHdr) (mem : HostMem) (buf : Nat) (s : State) (t : State) (h : execMshDbRead h mem buf s
    = .next t) : t.kept = s.kept := by
  unfold execMshDbRead at h
  injection h with h
  subst h
  repeat' first
    | with_reducible rfl
    | simp only [↓appMshDbRead_kept]
    | (with_reducible apply foldl_keptT <;> try intro _ _)
    | (with_reducible apply foldl_kept1T <;> try intro _ _)
    | (with_reducible apply runOne_keptT <;> try intro _)
    | split
    | (apply foldl_keptT <;> try intro _ _)

theorem State.meshReset_kept (s : State) (started : Bool) : (State.meshReset s started).kept = s.kept := by
  unfold State.meshReset
  simp only [↓kept_mk, ↓State.resetRegs_kept, ↓State.wr_kept]

/-! ### Requests -/

theorem appMshSend_kept (dst : Nat) (len : Nat) (addr : Nat) (c : Ctx) (s : State) : (appMshSend dst len addr c s).s.kept =
    s.kept := by
  unfold appMshSend
  simp only [↓State.meshUnicast_kept]

theorem execMshSend_kept (h : ReqHdr) (mem : HostMem) (dst : Nat) (len : Nat) (addr : Nat) (s : State) (t : State) (h :
    execMshSend h mem dst len addr s = .next t) : t.kept = s.kept := by
  unfold execMshSend at h
  injection h with h
  subst h
  repeat' first
    | with_reducible rfl
    | simp only [↓appMshSend_kept]
    | (with_reducible apply foldl_keptT <;> try intro _ _)
    | (with_reducible apply foldl_kept1T <;> try intro _ _)
    | (with_reducible apply runOne_keptT <;> try intro _)
    | split
    | (apply foldl_keptT <;> try intro _ _)

theorem ReqBody.app_kept (dn : Nat) (b : ReqBody) (c : Ctx) (s : State) : (b.app dn c s).s.kept = s.kept := by
  cases b <;> unfold ReqBody.app
  · rfl
  · apply appNop_kept
  · apply appFuncStop_kept
  · apply appFuncStart_kept
  · apply appLineSetup_kept
  · apply appLoadTable_kept
  · apply appFilterLoad_kept
  · apply appLineOh_kept
  · apply appGccSend_kept
  · apply appGccRxPost_kept
  · apply appPortSetup_kept
  · apply appEpCreate_kept
  · apply appEpChange_kept
  · apply appEpDelete_kept
  · apply appEpRead_kept
  · apply appPmAnchor_kept
  · apply appPmProfile_kept
  · apply appPmZero_kept
  · apply appPmClear_kept
  · apply appPmRead_kept
  · apply appQuotaSet_kept
  · apply appQuotaRead_kept
  · apply appTenantCreate_kept
  · apply appTenantDelete_kept
  · apply appSaCreate_kept
  · apply appSaChange_kept
  · apply appSaDelete_kept
  · apply appKeyLoad_kept
  · apply appKeyDiscard_kept
  · apply appKeyRoll_kept
  · apply appSaRead_kept
  · apply appTimInput_kept
  · apply appTimPrio_kept
  · apply appTimDpll_kept
  · apply appTimOutput_kept
  · apply appTimTwin_kept
  · apply appTimTod_kept
  · apply appMshSetup_kept
  · apply appMshRemote_kept
  · apply appMshSend_kept
  · apply appMshDbRead_kept
  · apply appPwrFrond_kept
  · apply appPwrThermal_kept
  · apply appCalRun_kept
  · apply appCalAbort_kept
  · apply appCalExport_kept
  · apply appCalRestore_kept
  · apply appMemPass_kept
  · apply appMemInject_kept
  · apply appFltReact_kept
  · apply appFltClear_kept
  · apply appFltLogRead_kept
  · apply appFltFirstRead_kept
  · apply appFltInject_kept
  · apply appFltSetup_kept
  · apply appUpdConfig_kept
  · apply appUpdBegin_kept
  · apply appUpdSpore_kept
  · apply appUpdAbort_kept
  · apply appUpdActivate_kept
  · apply appUpdRelay_kept
  · apply appUpdStatus_kept
  · apply appSettingsStore_kept
  · apply appMonSeq_kept
  · apply appMonLimit_kept
  · apply appMonMap_kept
  · apply appMonSample_kept
  · apply appMonTest_kept
  · apply appPcErbRead_kept

theorem Request.applyParts_kept (r : Request) (mem : HostMem) (i : Nat) (l : List Part) (d : Done) (e : Done)
    (h : r.applyParts mem i l d = .ok e) : e.s.kept = d.s.kept := by
  induction l generalizing i d with
  | nil => unfold Request.applyParts at h; injection h with h; subst h; rfl
  | cons p l ih =>
    unfold Request.applyParts at h
    dsimp only at h
    split at h
    · cases h
    · have := ih _ _ h
      rw [this]
      exact ReqBody.app_kept _ _ _ _

theorem State.pendWrite_kept (s : State) (r : Request) : (State.pendWrite s r).kept = s.kept := by
  unfold State.pendWrite
  repeat' first
    | with_reducible rfl
    | simp only [↓kept_ite, ↓State.memWrite_kept]
    | (with_reducible apply foldl_keptT <;> try intro _ _)
    | (with_reducible apply foldl_kept1T <;> try intro _ _)
    | split
    | (apply foldl_keptT <;> try intro _ _)

theorem State.pendRead_kept (s : State) (r : Request) : (State.pendRead s r).1.kept = s.kept := by
  unfold State.pendRead
  repeat' first
    | with_reducible rfl
    | simp only [↓State.memRead_kept]
    | (with_reducible apply foldl_keptT <;> try intro _ _)
    | (with_reducible apply foldl_kept1T <;> try intro _ _)
    | refine Eq.trans (State.memRead_kept' (by assumption)) ?_
    | split
    | (apply foldl_keptT <;> try intro _ _)

theorem State.pendRead_kept' {s : State} {r : Request} {x0 : State} {x1 : Option Nat} (h : State.pendRead s r = (x0,
    x1)) : x0.kept = s.kept := by
  rw [← State.pendRead_kept s r, h]

theorem State.applyRequest_kept (s : State) (mem : HostMem) (r : Request) (again : Bool) : (State.applyRequest s mem r
    again).1.kept = s.kept := by
  unfold State.applyRequest
  repeat' first
    | with_reducible rfl
    | simp only [↓State.pendRead_kept, ↓State.refuse_kept, ↓State.succeed_kept]
    | (with_reducible apply foldl_keptT <;> try intro _ _)
    | (with_reducible apply foldl_kept1T <;> try intro _ _)
    | refine Eq.trans (Request.applyParts_kept _ _ _ _ _ _ (by assumption)) ?_
    | refine Eq.trans (State.pendRead_kept' (by assumption)) ?_
    | split
    | (apply foldl_keptT <;> try intro _ _)

theorem State.applyRequest_kept' {s : State} {mem : HostMem} {r : Request} {again : Bool} {x0 : State} {x1 : Bool} (h :
    State.applyRequest s mem r again = (x0, x1)) : x0.kept = s.kept := by
  rw [← State.applyRequest_kept s mem r again, h]

theorem State.announceRolls_kept (s : State) (r : Request) : (State.announceRolls s r).kept = s.kept := by
  unfold State.announceRolls
  repeat' first
    | with_reducible rfl
    | simp only [↓State.keyRollSend_kept]
    | (with_reducible apply foldl_keptT <;> try intro _ _)
    | (with_reducible apply foldl_kept1T <;> try intro _ _)
    | split
    | (apply foldl_keptT <;> try intro _ _)

theorem State.checkTick_kept (s : State) (mem : HostMem) : (State.checkTick s mem).kept = s.kept := by
  unfold State.checkTick
  repeat' first
    | with_reducible rfl
    | simp only [↓kept_mk, ↓State.announceRolls_kept, ↓State.refuse_kept]
    | (with_reducible apply foldl_keptT <;> try intro _ _)
    | (with_reducible apply foldl_kept1T <;> try intro _ _)
    | refine Eq.trans (foldl_kept_eq (by assumption) (by intro _ _; first | rfl | simp only [↓kept_mk, ↓kept_ite,
        ↓State.announceRolls_kept, ↓State.refuse_kept])) ?_
    | split
    | (apply foldl_keptT <;> try intro _ _)

theorem State.applyTick_kept (s : State) (mem : HostMem) (again : Bool) : (State.applyTick s mem again).kept = s.kept := by
  unfold State.applyTick
  repeat' first
    | with_reducible rfl
    | simp only [↓kept_mk, ↓State.applyRequest_kept]
    | (with_reducible apply foldl_keptT <;> try intro _ _)
    | (with_reducible apply foldl_kept1T <;> try intro _ _)
    | refine Eq.trans (State.applyRequest_kept' (by assumption)) ?_
    | split
    | (apply foldl_keptT <;> try intro _ _)

/-! ### Remote -/

theorem State.pendRequest_kept (s : State) (r : Request) : (State.pendRequest s r).kept = s.kept := by
  unfold State.pendRequest
  simp only [↓kept_mk, ↓State.pendWrite_kept]

theorem State.refuseAtFetch_kept (s : State) (r : Request) (part : Nat) (status : Nat) (detail : Nat) :
    (State.refuseAtFetch s r part status detail).kept = s.kept := by
  unfold State.refuseAtFetch
  simp only [↓State.complete_kept]

theorem State.remoteCmd_kept (s : State) (sender : Nat) (seq : Nat) (b : List Byte) : (State.remoteCmd s sender seq b).kept
    = s.kept := by
  unfold State.remoteCmd
  repeat' first | with_reducible rfl | split | simp only [↓State.pendRequest_kept,
      ↓State.refuseAtFetch_kept]

theorem execRemoteCmd_kept (p : Fin 6) (errs : Nat) (b : List Byte) (s : State) (t : State) (h : execRemoteCmd p errs b s =
    .next t) : t.kept = s.kept := by
  unfold execRemoteCmd at h
  injection h with h
  subst h
  repeat' first
    | with_reducible rfl
    | simp only [↓State.remoteCmd_kept]
    | (with_reducible apply foldl_keptT <;> try intro _ _)
    | (with_reducible apply foldl_kept1T <;> try intro _ _)
    | (with_reducible apply State.meshRoute_keptT <;> try intro _)
    | refine Eq.trans (State.meshTake_kept' (by assumption)) ?_
    | split
    | (apply foldl_keptT <;> try intro _ _)

theorem State.remoteDone_kept (s : State) (sender : Nat) (c : Completion) : (State.remoteDone s sender c).kept = s.kept := by
  unfold State.remoteDone
  simp only [↓State.meshUnicast_kept, ↓State.raise_kept]

/-! ### HostOut -/

theorem State.setRing_kept (s : State) (fn : Nat) (r : Nat) (x : Ring) : (State.setRing s fn r x).kept = s.kept := by
  unfold State.setRing
  simp only [↓State.modFn_kept]

theorem State.writeCompletion_kept (s : State) (c : Completion) : (State.writeCompletion s c).kept = s.kept := by
  unfold State.writeCompletion
  repeat' first | with_reducible rfl | split | simp only [↓State.emit_kept, ↓State.modFn_kept,
      ↓State.remoteDone_kept, ↓State.setRing_kept, ↓State.wakeVector_kept, ↓State.wr_kept]

theorem State.flushDone_kept (s : State) : (State.flushDone s).kept = s.kept := by
  unfold State.flushDone
  repeat' first
    | with_reducible rfl
    | simp only [↓kept_mk, ↓State.writeCompletion_kept]
    | (with_reducible apply foldl_keptT <;> try intro _ _)
    | (with_reducible apply foldl_kept1T <;> try intro _ _)
    | split
    | (apply foldl_keptT <;> try intro _ _)

theorem State.putEvent_kept (s : State) (fn : Nat) (e : Event) : (State.putEvent s fn e).kept = s.kept := by
  unfold State.putEvent
  simp only [↓State.emit_kept, ↓State.modFn_kept, ↓State.wakeVector_kept, ↓State.wr_kept]

theorem State.drainWaiting_kept (s : State) (fn : Nat) (l : List Event) : (s.drainWaiting fn l).kept = s.kept := by
  induction l generalizing s with
  | nil => unfold State.drainWaiting; rw [State.modFn_kept]
  | cons e l ih =>
    unfold State.drainWaiting
    split
    · rw [ih, State.putEvent_kept]
    · rw [State.modFn_kept]

theorem State.eventTo_kept (s : State) (fn : Nat) (e : Event) : (State.eventTo s fn e).kept = s.kept := by
  unfold State.eventTo
  repeat' first | with_reducible rfl | split | simp only [↓State.bump_kept, ↓State.modFn_kept,
      ↓State.putEvent_kept]

theorem State.protState_kept (s : State) (e : Event) : (State.protState s e).kept = s.kept := by
  unfold State.protState
  repeat' first | with_reducible rfl | split | simp only [↓State.meshUnicast_kept]

theorem State.flushEvents_kept (s : State) : (State.flushEvents s).kept = s.kept := by
  unfold State.flushEvents
  repeat' first
    | with_reducible rfl
    | simp only [↓kept_mk, ↓kept_ite, ↓State.drainWaiting_kept, ↓State.eventTo_kept, ↓State.protState_kept]
    | (with_reducible apply foldl_keptT <;> try intro _ _)
    | (with_reducible apply foldl_kept1T <;> try intro _ _)
    | split
    | (apply foldl_keptT <;> try intro _ _)

theorem execWaitingEventWrite_kept (fn : Fin 256) (s : State) (t : State) (h : execWaitingEventWrite fn s = .next t) :
    t.kept = s.kept := by
  unfold execWaitingEventWrite at h
  injection h with h
  subst h
  repeat' first | with_reducible rfl | split | simp only [↓State.drainWaiting_kept]

theorem State.writeReads_kept (s : State) (n : Nat) (l : List ReadJob) : (s.writeReads n l).kept = s.kept := by
  induction l generalizing s n with
  | nil => unfold State.writeReads; rw [kept_mk]
  | cons j l ih =>
    unfold State.writeReads
    dsimp only
    split
    · rw [kept_mk]
      simp only [↓kept_ite, ↓State.hostWrite_kept, ↓kept_mk, ite_self]
    · rw [ih]
      simp only [↓kept_ite, ↓State.hostWrite_kept, ↓State.raiseEv_kept, ↓kept_mk, ite_self]

theorem execReadDataWrite_kept (s : State) (t : State) (h : execReadDataWrite s = .next t) : t.kept = s.kept := by
  unfold execReadDataWrite at h
  injection h with h
  subst h
  simp only [↓State.writeReads_kept]

theorem State.exportRecord_kept (s : State) (r : PmRecord) : (State.exportRecord s r).1.kept = s.kept := by
  unfold State.exportRecord
  repeat' first | with_reducible rfl | split | simp only [↓kept_mk, ↓State.bump_kept, ↓State.modFn_kept,
      ↓State.putEvent_kept]

theorem State.exportRecord_kept' {s : State} {r : PmRecord} {x0 : State} {x1 : Bool} (h : State.exportRecord s r = (x0,
    x1)) : x0.kept = s.kept := by
  rw [← State.exportRecord_kept s r, h]

theorem State.pmBacklog_kept (s : State) : (State.pmBacklog s).kept = s.kept := by
  unfold State.pmBacklog
  simp only [↓State.wr_kept]

theorem State.exportRecords_kept (s : State) (l k : List PmRecord) : (s.exportRecords l k).kept = s.kept := by
  induction l generalizing s k with
  | nil => unfold State.exportRecords; rw [State.pmBacklog_kept, kept_mk]
  | cons r l ih =>
    unfold State.exportRecords
    split
    · rw [ih]
    · split
      next s' b heq =>
      rw [ih]
      exact State.exportRecord_kept' heq

theorem execPmRecordExport_kept (s : State) (t : State) (h : execPmRecordExport s = .next t) : t.kept = s.kept := by
  unfold execPmRecordExport at h
  injection h with h
  subst h
  repeat' first | with_reducible rfl | split | simp only [↓kept_mk, ↓State.exportRecords_kept]

theorem execMsixMessage_kept (fn : Fin 256) (v : Fin 8) (masked : Bool) (s : State) (t : State) (h : execMsixMessage fn v
    masked s = .next t) : t.kept = s.kept := by
  unfold execMsixMessage at h
  injection h with h
  subst h
  repeat' first | with_reducible rfl | split | simp only [↓kept_ite, ↓State.emit_kept,
      ↓State.modFn_kept]

/-! ### HostCtl -/

theorem State.bootReport_kept (s : State) : (State.bootReport s).kept = s.kept := by
  unfold State.bootReport
  repeat' first | with_reducible rfl | split | simp only [↓kept_mk, ↓State.raiseEv_kept]

theorem State.ringEnable_kept (s : State) (fn : Nat) (r : Nat) : (State.ringEnable s fn r).kept = s.kept := by
  unfold State.ringEnable
  repeat' first | with_reducible rfl | split | simp only [↓kept_ite, ↓State.bootReport_kept, ↓State.fnError_kept,
      ↓State.modFn_kept, ↓State.setBits_kept, ↓State.setRing_kept, ↓State.wr_kept, ↓State.wrB_kept]

theorem State.withdrawRing_kept (s : State) (fn : Nat) (r : Nat) : (State.withdrawRing s fn r).kept = s.kept := by
  unfold State.withdrawRing
  simp only [↓kept_mk]

theorem State.dropRecords_kept (s : State) (fn : Nat) : (State.dropRecords s fn).kept = s.kept := by
  unfold State.dropRecords
  repeat' first | with_reducible rfl | split | simp only [↓kept_mk, ↓State.bump_kept, ↓State.pmBacklog_kept]

theorem State.ringDisable_kept (s : State) (fn : Nat) (r : Nat) : (State.ringDisable s fn r).kept = s.kept := by
  unfold State.ringDisable
  repeat' first | with_reducible rfl | split | simp only [↓State.dropRecords_kept, ↓State.modFn_kept,
      ↓State.withdrawRing_kept, ↓State.wr_kept, ↓State.wrB_kept]

theorem State.fnCtl_kept (s : State) (fn : Nat) (v : Nat) : (State.fnCtl s fn v).kept = s.kept := by
  unfold State.fnCtl
  repeat' first
    | with_reducible rfl
    | simp only [↓kept_ite, ↓State.ringDisable_kept, ↓State.ringEnable_kept]
    | (with_reducible apply foldl_keptT <;> try intro _ _)
    | (with_reducible apply foldl_kept1T <;> try intro _ _)
    | split
    | (apply foldl_keptT <;> try intro _ _)

theorem execRingEnable_kept (fn : Fin 256) (r : Fin 5) (s : State) (t : State) (h : execRingEnable fn r s = .next t) :
    t.kept = s.kept := by
  unfold execRingEnable at h
  injection h with h
  subst h
  simp only [↓State.ringEnable_kept]

theorem execRingDisable_kept (fn : Fin 256) (r : Fin 5) (s : State) (t : State) (h : execRingDisable fn r s = .next t) :
    t.kept = s.kept := by
  unfold execRingDisable at h
  injection h with h
  subst h
  simp only [↓State.ringDisable_kept]

theorem State.tenantWrite_kept (s : State) (fn : Nat) (base : Nat) (count : Nat) : (State.tenantWrite s fn base count).kept
    = s.kept := by
  unfold State.tenantWrite
  repeat' first | with_reducible rfl | split | simp only [↓State.fnError_kept, ↓State.wr_kept]

theorem execTenantRangeWrite_kept (fn : Fin 256) (base : Fin 1024) (count : Fin 2048) (s : State) (t : State) (h :
    execTenantRangeWrite fn base count s = .next t) : t.kept = s.kept := by
  unfold execTenantRangeWrite at h
  injection h with h
  subst h
  repeat' first
    | with_reducible rfl
    | simp only [↓State.tenantWrite_kept]
    | (with_reducible apply foldl_keptT <;> try intro _ _)
    | (with_reducible apply foldl_kept1T <;> try intro _ _)
    | (with_reducible apply State.pfWrite_keptT <;> try intro _)
    | split
    | (apply foldl_keptT <;> try intro _ _)

theorem State.flr_kept (s : State) (fn : Nat) : (State.flr s fn).kept = s.kept := by
  unfold State.flr
  repeat' first
    | with_reducible rfl
    | simp only [↓kept_mk, ↓State.resetRegs_kept, ↓State.ringDisable_kept, ↓State.setFn_kept, ↓State.setReg_kept]
    | (with_reducible apply foldl_keptT <;> try intro _ _)
    | (with_reducible apply foldl_kept1T <;> try intro _ _)
    | split
    | (apply foldl_keptT <;> try intro _ _)

theorem execFunctionLevelReset_kept (fn : Fin 256) (s : State) (t : State) (h : execFunctionLevelReset fn s = .next t) :
    t.kept = s.kept := by
  unfold execFunctionLevelReset at h
  injection h with h
  subst h
  repeat' first | with_reducible rfl | split | simp only [↓kept_mk, ↓State.flr_kept, ↓State.mbReset_kept,
      ↓State.zeroise_kept]

theorem execVfEnableClear_kept (s : State) (t : State) (h : execVfEnableClear s = .next t) : t.kept = s.kept := by
  unfold execVfEnableClear at h
  generalize (List.range 255).map (· + 1) = l at h
  injection h with h
  subst h
  apply foldl_kept
  intro s fn
  split
  · rw [State.setFn_kept, State.setReg_kept, State.flr_kept]
  · rw [State.setReg_kept]

theorem execBusMasterDisable_kept (fn : Fin 256) (s : State) (t : State) (h : execBusMasterDisable fn s = .next t) : t.kept
    = s.kept := by
  unfold execBusMasterDisable at h
  injection h with h
  subst h
  simp only [↓State.modFn_kept]

theorem execBusMasterEnableReturn_kept (fn : Fin 256) (s : State) (t : State) (h : execBusMasterEnableReturn fn s = .next
    t) : t.kept = s.kept := by
  unfold execBusMasterEnableReturn at h
  injection h with h
  subst h
  repeat' first | with_reducible rfl | split | simp only [↓kept_ite, ↓State.fnError_kept, ↓State.modFn_kept]

end Sys2Proof.Machine
end

