-- ==== Sys2Proof/Laws/Kept7.lean ====
section
/-! SUPPORT. The tick, the fuse array and the queue are left alone by the operations of Access, Boot, Doorbell, Peat,
Scan, TickBoundary. -/
namespace Sys2Proof.Machine

/-! ### Access -/

theorem State.subsec_kept (s : State) : (State.subsec s).2.kept = s.kept := by
  unfold State.subsec
  repeat' first
    | with_reducible rfl
    | simp only [↓State.fresh_kept]
    | (with_reducible apply foldl_keptT <;> try intro _ _)
    | (with_reducible apply foldl_kept1T <;> try intro _ _)
    | refine Eq.trans (State.fresh_kept' (by assumption)) ?_
    | split
    | (apply foldl_keptT <;> try intro _ _)

theorem State.subsec_kept' {s : State} {x0 : Nat} {x1 : State} (h : State.subsec s = (x0, x1)) : x1.kept = s.kept := by
  rw [← State.subsec_kept s, h]

theorem ite_snd_kept {c : Prop} [Decidable c] {a b : Word × State} {k : State} (ha : a.2.kept = k.kept) (hb : b.2.kept =
    k.kept) :
    (if c then a else b).2.kept = k.kept := by
  split <;> assumption

theorem State.liveReg_kept (s : State) (off : Nat) : (s.liveReg off).2.kept = s.kept := by
  unfold State.liveReg
  dsimp only
  repeat' first
    | with_reducible apply ite_snd_kept
    | with_reducible rfl
    | exact State.subsec_kept s

theorem State.liveReg_kept' {s : State} {off : Nat} {x0 : Word} {x1 : State} (h : State.liveReg s off = (x0, x1)) :
    x1.kept = s.kept := by
  rw [← State.liveReg_kept s off, h]

theorem State.readReg_kept (s : State) (off : Nat) : (State.readReg s off).2.kept = s.kept := by
  unfold State.readReg
  repeat' first
    | with_reducible rfl
    | simp only [↓kept_mk, ↓kept_ite, ↓State.liveReg_kept, ↓State.mbReadOut_kept, ↓State.setReg_kept]
    | (with_reducible apply foldl_keptT <;> try intro _ _)
    | (with_reducible apply foldl_kept1T <;> try intro _ _)
    | refine Eq.trans (State.liveReg_kept' (by assumption)) ?_
    | split
    | (apply foldl_keptT <;> try intro _ _)

theorem State.readReg_kept' {s : State} {off : Nat} {x0 : Word} {x1 : State} (h : State.readReg s off = (x0,
    x1)) : x1.kept = s.kept := by
  rw [← State.readReg_kept s off, h]

theorem State.busRead_kept (s : State) (fn : Nat) (off : Nat) (form : Bool) : (State.busRead s fn off form).kept = s.kept
    := by
  unfold State.busRead
  repeat' first
    | with_reducible rfl
    | simp only [↓kept_ite, ↓State.accError_kept, ↓State.bar2Denied_kept, ↓State.emit_kept, ↓State.isoCount_kept,
        ↓State.readReg_kept]
    | (with_reducible apply foldl_keptT <;> try intro _ _)
    | (with_reducible apply foldl_kept1T <;> try intro _ _)
    | refine Eq.trans (State.readReg_kept' (by assumption)) ?_
    | split
    | (apply foldl_keptT <;> try intro _ _)

theorem execLatchedPairRead_kept (fn : Fin 256) (off : Nat) (form : Bool) (s : State) (t : State) (h : execLatchedPairRead
    fn off form s = .next t) : t.kept = s.kept := by
  unfold execLatchedPairRead at h
  injection h with h
  subst h
  simp only [↓State.busRead_kept]

theorem execRegisterReadClear_kept (fn : Fin 256) (off : Nat) (form : Bool) (s : State) (t : State) (h :
    execRegisterReadClear fn off form s = .next t) : t.kept = s.kept := by
  unfold execRegisterReadClear at h
  injection h with h
  subst h
  simp only [↓State.busRead_kept]

theorem State.queueWt_kept (s : State) (off : Nat) (v : Nat) : (State.queueWt s off v).kept = s.kept := by
  unfold State.queueWt
  simp only [↓kept_mk]

theorem State.requestWarm_kept (s : State) (c : Nat) : (State.requestWarm s c).kept = s.kept := by
  unfold State.requestWarm
  repeat' first | with_reducible rfl | split | simp only [↓kept_mk, ↓kept_ite]

theorem State.rstCtl_kept (s : State) (v : Nat) : (State.rstCtl s v).kept = s.kept := by
  unfold State.rstCtl
  repeat' first | with_reducible rfl | split | simp only [↓State.requestWarm_kept]

theorem State.loadGo_kept (s : State) (kind : Nat) : (State.loadGo s kind).kept = s.kept := by
  unfold State.loadGo
  repeat' first | with_reducible rfl | split | simp only [↓kept_mk, ↓kept_ite, ↓State.wr_kept]

theorem State.gateWrite_kept (s : State) (f : Nat) (g : Bool) : (State.gateWrite s f g).kept = s.kept := by
  unfold State.gateWrite
  repeat' first | with_reducible rfl | split | simp only [↓State.holdIgnored_kept, ↓State.wrB_kept]

theorem State.viaExec_kept {s : State} {o : Host.Outcome State Fault Refusal} (h : ∀ t, o = .next t → t.kept = s.kept) :
    (s.viaExec o).kept = s.kept := by
  unfold State.viaExec
  split
  · exact h _ rfl
  · rfl

theorem State.viaExec_keptT {s : State} {o : Host.Outcome State Fault Refusal} {t : State} (h : ∀ t,
    o = .next t → t.kept = s.kept) (e : s.kept = t.kept) : (s.viaExec o).kept = t.kept := (State.viaExec_kept h).trans e

theorem ite_kept {c : Prop} [Decidable c] {a b k : State} (ha : a.kept = k.kept) (hb : b.kept = k.kept) :
    (if c then a else b).kept = k.kept := by
  split <;> assumption

theorem State.writeReg_kept (s : State) (fn off : Nat) (v : Word) : (s.writeReg fn off v).kept = s.kept := by
  unfold State.writeReg
  split
  · rfl
  · dsimp only
    repeat' first
      | with_reducible apply ite_kept
      | with_reducible rfl
      | exact State.viaExec_kept fun t h => execSecKeKeyWrite_kept _ _ _ _ h
      | simp only [State.tenantWrite_kept, State.mbWrite_kept, State.keCommand_kept, State.rstCtl_kept, State.loadGo_kept,
          State.wr_kept, State.toneSet_kept, State.gateWrite_kept, State.modPc_kept, State.wrB_kept, State.queueWt_kept,
          State.setReg_kept]

theorem State.busWrite_kept (s : State) (fn : Nat) (off : Nat) (form : Bool) (v : Word) : (State.busWrite s fn off form
    v).kept = s.kept := by
  unfold State.busWrite
  repeat' first | with_reducible rfl | split | simp only [↓State.accError_kept,
      ↓State.bar2Denied_kept, ↓State.isoCount_kept, ↓State.writeReg_kept]

theorem execRegisterWrite_kept (fn : Fin 256) (off : Nat) (form : Bool) (v : Word) (s : State) (t : State) (h :
    execRegisterWrite fn off form v s = .next t) : t.kept = s.kept := by
  unfold execRegisterWrite at h
  injection h with h
  subst h
  simp only [↓State.busWrite_kept]

theorem State.blockRequest_kept (s : State) (b : Nat) : (State.blockRequest s b).kept = s.kept := by
  unfold State.blockRequest
  repeat' first | with_reducible rfl | split | simp only [↓kept_mk, ↓kept_ite, ↓State.holdIgnored_kept, ↓State.raise_kept,
      ↓State.wr_kept]

theorem State.eqInvalid_kept (s : State) (l : Nat) : (State.eqInvalid s l).kept = s.kept := by
  unfold State.eqInvalid
  simp only [↓State.wrB_kept]

theorem State.frondWt_kept (s : State) (f : Nat) (r : Nat) (v : Nat) (mode : Nat) : (State.frondWt s f r v mode).kept =
    s.kept := by
  unfold State.frondWt
  repeat' first | with_reducible rfl | split | simp only [↓kept_ite, ↓State.calMuteLost_kept,
      ↓State.cdWrite_kept, ↓State.delayClamp_kept, ↓State.modFrond_kept, ↓State.pcPreset_kept, ↓State.precdRamping_kept,
          ↓State.restartAcq_kept, ↓State.skewClamp_kept, ↓State.warmCheck_kept, ↓State.wrB_kept]

theorem State.applyWt_kept (s : State) (off : Nat) (v : Nat) : (State.applyWt s off v).kept = s.kept := by
  unfold State.applyWt
  repeat' first | with_reducible rfl | split | simp only [↓State.blockRequest_kept, ↓State.calGo_kept,
      ↓State.epochGo_kept, ↓State.eqInvalid_kept, ↓State.fnCtl_kept, ↓State.frondWt_kept, ↓State.meshEpoch_kept,
          ↓State.setReg_kept]

theorem State.applyWts_kept (s : State) : (State.applyWts s).kept = s.kept := by
  unfold State.applyWts
  repeat' first
    | with_reducible rfl
    | simp only [↓kept_mk, ↓State.applyWt_kept]
    | (with_reducible apply foldl_keptT <;> try intro _ _)
    | (with_reducible apply foldl_kept1T <;> try intro _ _)
    | split
    | (apply foldl_keptT <;> try intro _ _)

theorem execBlockResetRequest_kept (id : Fin 4096) (s : State) (t : State) (h : execBlockResetRequest id s = .next t) :
    t.kept = s.kept := by
  unfold execBlockResetRequest at h
  injection h with h
  subst h
  simp only [↓State.busWrite_kept]

theorem execWarmResetRequest_kept (v : Word) (s : State) (t : State) (h : execWarmResetRequest v s = .next t) : t.kept =
    s.kept := by
  unfold execWarmResetRequest at h
  injection h with h
  subst h
  simp only [↓State.busWrite_kept]

theorem execLoadWindowGo_kept (v : Word) (s : State) (t : State) (h : execLoadWindowGo v s = .next t) : t.kept = s.kept := by
  unfold execLoadWindowGo at h
  injection h with h
  subst h
  simp only [↓State.busWrite_kept]

/-! ### Boot -/

theorem State.modBoot_kept (s : State) (g : BootSt → BootSt) : (State.modBoot s g).kept = s.kept := by
  unfold State.modBoot
  simp only [↓kept_mk]

theorem State.report_kept (s : State) (lo : Nat) (w : Nat) (v : Nat) : (State.report s lo w v).kept = s.kept := by
  unfold State.report
  simp only [↓State.modBoot_kept]

theorem State.cfgResult_kept (s : State) (v : Nat) : (State.cfgResult s v).kept = s.kept := by
  unfold State.cfgResult
  simp only [↓State.report_kept]

theorem State.imgRefused_kept (s : State) (index : Nat) : (State.imgRefused s index).kept = s.kept := by
  unfold State.imgRefused
  repeat' first | with_reducible rfl | split | simp only [↓kept_ite, ↓State.report_kept]

theorem State.restorePin_kept (s : State) : (State.restorePin s).kept = s.kept := by
  unfold State.restorePin
  repeat' first | with_reducible rfl | split | simp only [↓State.modFlt_kept, ↓State.wrB_kept]

theorem State.fuseStart_kept (s : State) : (State.fuseStart s).kept = s.kept := by
  unfold State.fuseStart
  repeat' first | with_reducible rfl | split | simp only [↓State.wr_kept]

theorem execRstNRelease_kept (boot : Fin 4) (clk : Fin 4) (flash : List (Nat × List Byte)) (copies : List (Nat × List
    Byte)) (s : State) (t : State) (h : execRstNRelease boot clk flash copies s = .next t) : t.kept = s.kept := by
  unfold execRstNRelease at h
  injection h with h
  subst h
  repeat' first | with_reducible rfl | split | simp only [↓kept_mk, ↓kept_ite, ↓State.fuseStart_kept, ↓State.modBoot_kept,
      ↓State.wr_kept]

theorem execRailInTolerance_kept (r : Fin 14) (s : State) (t : State) (h : execRailInTolerance r s = .next t) : t.kept =
    s.kept := by
  unfold execRailInTolerance at h
  injection h with h
  subst h
  simp only [↓State.fuseStart_kept, ↓State.modPow_kept]

theorem State.identity_kept (s : State) : (State.identity s).kept = s.kept := by
  unfold State.identity
  simp only [↓State.wr_kept]

theorem State.fuseRegs_kept (s : State) : (State.fuseRegs s).kept = s.kept := by
  unfold State.fuseRegs
  repeat' first
    | with_reducible rfl
    | simp only [↓State.wr_kept]
    | (with_reducible apply foldl_keptT <;> try intro _ _)
    | (with_reducible apply foldl_kept1T <;> try intro _ _)
    | split
    | (apply foldl_keptT <;> try intro _ _)

theorem State.freshBytes_kept (n : Nat) (s : State) : (State.freshBytes n s).2.kept = s.kept := by
  induction n generalizing s with
  | zero => rfl
  | succ k ih =>
    unfold State.freshBytes
    dsimp only [State.fresh]
    rw [ih, kept_mk]

theorem State.freshBytes_kept' {n : Nat} {s : State} {x0 : List Byte} {x1 : State} (h : State.freshBytes n s = (x0, x1)) :
    x1.kept = s.kept := by
  rw [← State.freshBytes_kept n s, h]

theorem State.secureBegin_kept (s : State) : (State.secureBegin s).kept = s.kept := by
  unfold State.secureBegin
  simp only [↓kept_mk, ↓State.freshBytes_kept, ↓State.modBoot_kept,
      ↓State.updAfterReset_kept, ↓State.wr_kept]

theorem State.calBegin_kept (s : State) : (State.calBegin s).kept = s.kept := by
  unfold State.calBegin
  repeat' first
    | with_reducible rfl
    | simp only [↓kept_ite, ↓State.calAdmit_kept, ↓State.calForce_kept, ↓State.calRefresh_kept, ↓State.wr_kept]
    | (with_reducible apply foldl_keptT <;> try intro _ _)
    | (with_reducible apply foldl_kept1T <;> try intro _ _)
    | split
    | (apply foldl_keptT <;> try intro _ _)

theorem State.configEnd_kept (s : State) (img : Option Image) (code : Nat) : (State.configEnd s img code).kept = s.kept := by
  unfold State.configEnd
  repeat' first | with_reducible rfl | split | simp only [↓State.calBegin_kept, ↓State.cfgResult_kept,
      ↓State.modBoot_kept]

theorem State.configBegin_kept (s : State) : (State.configBegin s).kept = s.kept := by
  unfold State.configBegin
  repeat' first | with_reducible rfl | split | simp only [↓kept_ite, ↓State.configEnd_kept, ↓State.modBoot_kept,
      ↓State.report_kept, ↓State.wr_kept]

theorem execConfigImageRead_kept (s : State) (t : State) (h : execConfigImageRead s = .next t) : t.kept = s.kept := by
  unfold execConfigImageRead at h
  injection h with h
  subst h
  repeat' first | with_reducible rfl | split | simp only [↓State.configEnd_kept, ↓State.report_kept]

theorem State.loadConfig_kept (s : State) (b : List Byte) : (State.loadConfig s b).kept = s.kept := by
  unfold State.loadConfig
  repeat' first | with_reducible rfl | split | simp only [↓State.configEnd_kept, ↓State.wr_kept]

theorem State.loadFirmware_kept (s : State) (b : List Byte) : (State.loadFirmware s b).kept = s.kept := by
  unfold State.loadFirmware
  repeat' first | with_reducible rfl | split | simp only [↓kept_mk, ↓State.configBegin_kept, ↓State.fwRegs_kept,
      ↓State.report_kept, ↓State.wr_kept]

theorem execLoadWindowTransferDone_kept (mem : HostMem) (s : State) (t : State) (h : execLoadWindowTransferDone mem s =
    .next t) : t.kept = s.kept := by
  unfold execLoadWindowTransferDone at h
  injection h with h
  subst h
  repeat' first | with_reducible rfl | split | simp only [↓kept_ite, ↓State.loadConfig_kept,
      ↓State.loadFirmware_kept, ↓State.modBoot_kept, ↓State.wr_kept]

theorem State.cfgAsk_kept (s : State) (p : Nat) (off : Nat) : (State.cfgAsk s p off).kept = s.kept := by
  unfold State.cfgAsk
  simp only [↓State.meshLink_kept]

theorem execCfgReq_kept (p : Fin 6) (errs : Nat) (b : List Byte) (s : State) (t : State) (h : execCfgReq p errs b s = .next
    t) : t.kept = s.kept := by
  unfold execCfgReq at h
  injection h with h
  subst h
  repeat' first
    | with_reducible rfl
    | simp only [↓kept_ite, ↓State.meshLink_kept]
    | (with_reducible apply foldl_keptT <;> try intro _ _)
    | (with_reducible apply foldl_kept1T <;> try intro _ _)
    | refine Eq.trans (State.meshTake_kept' (by assumption)) ?_
    | split
    | (apply foldl_keptT <;> try intro _ _)

theorem State.cfgChunk_kept (s : State) (p : Nat) (off : Nat) (total : Nat) (data : List Byte) : (State.cfgChunk s p off
    total data).kept = s.kept := by
  unfold State.cfgChunk
  repeat' first | with_reducible rfl | split | simp only [↓kept_ite, ↓State.cfgAsk_kept, ↓State.configEnd_kept,
      ↓State.modBoot_kept]

theorem execCfgData_kept (p : Fin 6) (errs : Nat) (b : List Byte) (s : State) (t : State) (h : execCfgData p errs b s =
    .next t) : t.kept = s.kept := by
  unfold execCfgData at h
  injection h with h
  subst h
  repeat' first
    | with_reducible rfl
    | simp only [↓kept_ite, ↓State.cfgChunk_kept]
    | (with_reducible apply foldl_keptT <;> try intro _ _)
    | (with_reducible apply foldl_kept1T <;> try intro _ _)
    | refine Eq.trans (State.meshTake_kept' (by assumption)) ?_
    | split
    | (apply foldl_keptT <;> try intro _ _)

theorem execCfgRequestRetry_kept (p : Fin 6) (s : State) (t : State) (h : execCfgRequestRetry p s = .next t) : t.kept =
    s.kept := by
  unfold execCfgRequestRetry at h
  injection h with h
  subst h
  repeat' first | with_reducible rfl | split | simp only [↓State.cfgAsk_kept, ↓State.modBoot_kept]

theorem execMeshConfigTimeout_kept (s : State) (t : State) (h : execMeshConfigTimeout s = .next t) : t.kept = s.kept := by
  unfold execMeshConfigTimeout at h
  injection h with h
  subst h
  repeat' first | with_reducible rfl | split | simp only [↓State.configEnd_kept]

theorem State.warmCal_kept (s : State) (f : Nat) : (State.warmCal s f).kept = s.kept := by
  unfold State.warmCal
  repeat' first | with_reducible rfl | split | simp only [↓State.calRefresh_kept, ↓State.calRegs_kept,
      ↓State.wr_kept]

theorem State.warmReset_kept (s : State) (c : Nat) : (State.warmReset s c).kept = s.kept := by
  unfold State.warmReset
  repeat' first
    | with_reducible rfl
    | simp only [↓kept_mk, ↓State.bumpLife_kept, ↓State.fuseRegs_kept, ↓State.identity_kept,
        ↓State.secureBegin_kept, ↓State.setReg_kept, ↓State.warmCal_kept, ↓State.wr_kept,
            ↓State.wrB_kept]
    | (with_reducible apply foldl_keptT <;> try intro _ _)
    | (with_reducible apply foldl_kept1T <;> try intro _ _)
    | split
    | (apply foldl_keptT <;> try intro _ _)

theorem State.warmStep_kept (s : State) : (State.warmStep s).kept = s.kept := by
  unfold State.warmStep
  repeat' first | with_reducible rfl | split | simp only [↓State.warmReset_kept]

theorem execMgmtWatchdog_kept (s : State) (t : State) (h : execMgmtWatchdog s = .next t) : t.kept = s.kept := by
  unfold execMgmtWatchdog at h
  injection h with h
  subst h
  simp only [↓State.sendFault_kept]

theorem execLoopWatchdog_kept (f : Fin 48) (s : State) (t : State) (h : execLoopWatchdog f s = .next t) : t.kept = s.kept
    := by
  unfold execLoopWatchdog at h
  injection h with h
  subst h
  repeat' first | with_reducible rfl | split | simp only [↓kept_mk, ↓kept_ite, ↓State.sendFault_kept]

theorem State.frondStatusReset_kept (s : State) (f : Nat) : (State.frondStatusReset s f).kept = s.kept := by
  unfold State.frondStatusReset
  repeat' first
    | with_reducible rfl
    | simp only [↓State.resetRegs_kept]
    | (with_reducible apply foldl_keptT <;> try intro _ _)
    | (with_reducible apply foldl_kept1T <;> try intro _ _)
    | split
    | (apply foldl_keptT <;> try intro _ _)

theorem State.frondResetBegin_kept (s : State) (f : Nat) : (State.frondResetBegin s f).kept = s.kept := by
  unfold State.frondResetBegin
  repeat' first | with_reducible rfl | split | simp only [↓kept_ite, ↓State.calAbort_kept,
      ↓State.frondStatusReset_kept, ↓State.gccStop_kept, ↓State.modFrond_kept, ↓State.pcBlockReset_kept,
          ↓State.refreshStamp_kept, ↓State.squelchUpdate_kept, ↓State.stopDefects_kept]

theorem State.laneResetBegin_kept (s : State) (j : Nat) : (State.laneResetBegin s j).kept = s.kept := by
  unfold State.laneResetBegin
  repeat' first
    | with_reducible rfl
    | simp only [↓State.portRegs_kept, ↓State.resetRegs_kept, ↓State.setPort_kept,
        ↓State.updatePort_kept]
    | (with_reducible apply foldl_keptT <;> try intro _ _)
    | (with_reducible apply foldl_kept1T <;> try intro _ _)
    | split
    | (apply foldl_keptT <;> try intro _ _)

theorem State.meshRestart_kept (s : State) : (State.meshRestart s).kept = s.kept := by
  unfold State.meshRestart
  repeat' first
    | with_reducible rfl
    | simp only [↓ReqBody.app_kept, ↓State.beginClaim_kept, ↓State.meshReset_kept]
    | (with_reducible apply foldl_keptT <;> try intro _ _)
    | (with_reducible apply foldl_kept1T <;> try intro _ _)
    | split
    | (apply foldl_keptT <;> try intro _ _)

theorem State.blockResetBegin_kept (s : State) (b : Nat) : (State.blockResetBegin s b).kept = s.kept := by
  unfold State.blockResetBegin
  repeat' first | with_reducible rfl | split | simp only [↓State.bumpLife_kept,
      ↓State.calResetAll_kept, ↓State.cryptoStop_kept, ↓State.frondResetBegin_kept, ↓State.laneResetBegin_kept,
          ↓State.mbReset_kept, ↓State.meshReset_kept, ↓State.modBoot_kept, ↓State.monStop_kept, ↓State.raise_kept]

theorem State.blockReactions_kept (s : State) : (State.blockReactions s).kept = s.kept := by
  unfold State.blockReactions
  repeat' first
    | with_reducible rfl
    | simp only [↓kept_ite, ↓State.defer_kept, ↓State.modBoot_kept, ↓State.modFlt_kept]
    | (with_reducible apply foldl_keptT <;> try intro _ _)
    | (with_reducible apply foldl_kept1T <;> try intro _ _)
    | split
    | (apply foldl_keptT <;> try intro _ _)

theorem State.blockStep_kept (s : State) : (State.blockStep s).kept = s.kept := by
  unfold State.blockStep
  repeat' first
    | with_reducible rfl
    | simp only [↓kept_ite, ↓State.blockReactions_kept, ↓State.blockResetBegin_kept, ↓State.modBoot_kept]
    | (with_reducible apply foldl_keptT <;> try intro _ _)
    | (with_reducible apply foldl_kept1T <;> try intro _ _)
    | split
    | (apply foldl_keptT <;> try intro _ _)

theorem State.blockResetEnd_kept (s : State) (b : Nat) : (State.blockResetEnd s b).kept = s.kept := by
  unfold State.blockResetEnd
  repeat' first
    | with_reducible rfl
    | simp only [↓kept_ite, ↓State.cryptoRun_kept, ↓State.leaveIdle_kept, ↓State.meshRestart_kept,
        ↓State.monRestart_kept, ↓State.squelchUpdate_kept, ↓State.stampRule_kept, ↓State.updateLos_kept,
            ↓State.updatePort_kept]
    | (with_reducible apply foldl_keptT <;> try intro _ _)
    | (with_reducible apply foldl_kept1T <;> try intro _ _)
    | split
    | (apply foldl_keptT <;> try intro _ _)

theorem execBlockResetEnd_kept (id : Fin 4096) (s : State) (t : State) (h : execBlockResetEnd id s = .next t) : t.kept =
    s.kept := by
  unfold execBlockResetEnd at h
  injection h with h
  subst h
  repeat' first | with_reducible rfl | split | simp only [↓State.blockResetEnd_kept,
      ↓State.modBoot_kept, ↓State.raise_kept]

theorem execPowerDownOrderly_kept (s : State) (t : State) (h : execPowerDownOrderly s = .next t) : t.kept = s.kept := by
  unfold execPowerDownOrderly at h
  injection h with h
  subst h
  repeat' first
    | with_reducible rfl
    | simp only [↓kept_mk, ↓kept_ite, ↓State.commitLife_kept, ↓State.modBoot_kept, ↓State.modFrond_kept, ↓State.wr_kept,
        ↓State.wrB_kept, ↓State.writeMarker_kept]
    | (with_reducible apply foldl_keptT <;> try intro _ _)
    | (with_reducible apply foldl_kept1T <;> try intro _ _)
    | split
    | (apply foldl_keptT <;> try intro _ _)

/-! ### Doorbell -/

theorem State.doorbellRing_kept (s : State) (fn : Nat) (rec : List Byte) (r : Nat) : (State.doorbellRing s fn rec r).kept =
    s.kept := by
  unfold State.doorbellRing
  repeat' first | with_reducible rfl | split | simp only [↓kept_ite, ↓State.fnError_kept, ↓State.setRing_kept]

theorem State.doorbellEq_kept (s : State) (fn : Nat) (rec : List Byte) : (State.doorbellEq s fn rec).kept = s.kept := by
  unfold State.doorbellEq
  repeat' first | with_reducible rfl | split | simp only [↓kept_ite, ↓State.fnError_kept, ↓State.modFn_kept]

theorem State.doorbell_kept (s : State) (mem : HostMem) (fn : Nat) : (State.doorbell s mem fn).kept = s.kept := by
  unfold State.doorbell
  repeat' first
    | with_reducible rfl
    | simp only [↓State.doorbellEq_kept, ↓State.doorbellRing_kept, ↓State.fnError_kept]
    | (with_reducible apply foldl_keptT <;> try intro _ _)
    | (with_reducible apply foldl_kept1T <;> try intro _ _)
    | split
    | (apply foldl_keptT <;> try intro _ _)

theorem State.fetchCheck_kept (s : State) (fn : Nat) (r : Nat) (k : Nat) (l : List (List Byte)) (bad : Bool) :
    (State.fetchCheck s fn r k l bad).kept = s.kept := by
  unfold State.fetchCheck
  repeat' first | with_reducible rfl | split | simp only [↓State.fnError_kept,
      ↓State.pendRequest_kept, ↓State.refuseAtFetch_kept]

theorem State.fetchTake_kept (s : State) (fn : Nat) (r : Nat) (k : Nat) (n : Nat) (l : List (List Byte)) (bad : Bool) :
    (State.fetchTake s fn r k n l bad).kept = s.kept := by
  unfold State.fetchTake
  simp only [↓State.fetchCheck_kept, ↓State.setRing_kept, ↓State.wr_kept]

theorem State.fetchWith_kept {s t : State} {fn r k ring all n : Nat} {c : Option (List (List Byte) × Bool)}
    (h : s.fetchWith fn r k ring all c = some (t, n)) : t.kept = s.kept := by
  unfold State.fetchWith at h
  split at h
  · contradiction
  · extract_lets m at h
    split at h
    · contradiction
    · injection h with h
      injection h with h _
      rw [← h, State.fetchTake_kept]

theorem State.fetchOne_kept {s t : State} {mem : HostMem} {fn r ring all n : Nat}
    (h : s.fetchOne mem fn r ring all = some (t, n)) : t.kept = s.kept := by
  unfold State.fetchOne at h
  extract_lets x k at h
  split at h
  · contradiction
  · exact State.fetchWith_kept h

theorem State.fetchRing_kept (s : State) (mem : HostMem) (fn r fuel ring all : Nat) :
    (s.fetchRing mem fn r fuel ring all).1.kept = s.kept := by
  induction fuel generalizing s ring all with
  | zero => rfl
  | succ k ih =>
    unfold State.fetchRing
    split
    · rfl
    · next h => rw [ih, State.fetchOne_kept h]

theorem State.fetchFn_kept (mem : HostMem) (a : State × Nat) (fn : Nat) : (State.fetchFn mem a fn).1.kept = a.1.kept := by
  unfold State.fetchFn
  apply foldl_kept1
  intro s r
  split
  · exact State.fetchRing_kept _ _ _ _ _ _ _
  · rfl

theorem execDoorbellRead_kept (mem : HostMem) (s : State) (t : State) (h : execDoorbellRead mem s = .next t) : t.kept =
    s.kept := by
  unfold execDoorbellRead at h
  injection h with h
  subst h
  repeat' first
    | with_reducible rfl
    | simp only [↓kept_ite, ↓State.doorbell_kept, ↓State.fetchFn_kept]
    | (with_reducible apply foldl_keptT <;> try intro _ _)
    | (with_reducible apply foldl_kept1T <;> try intro _ _)
    | split
    | (apply foldl_keptT <;> try intro _ _)

/-! ### Peat -/

theorem State.tally_kept (s : State) (i : Nat) (on : Bool) : (State.tally s i on).kept = s.kept := by
  unfold State.tally
  repeat' first | with_reducible rfl | split | simp only [↓State.modPeat_kept]

theorem State.timeCounters_kept (s : State) : (State.timeCounters s).kept = s.kept := by
  unfold State.timeCounters
  repeat' first
    | with_reducible rfl
    | simp only [↓State.tally_kept]
    | (with_reducible apply foldl_keptT <;> try intro _ _)
    | (with_reducible apply foldl_kept1T <;> try intro _ _)
    | split
    | (apply foldl_keptT <;> try intro _ _)

theorem State.peatCommit_kept (s : State) (fails : List Nat) : (State.peatCommit s fails).kept = s.kept := by
  unfold State.peatCommit
  repeat' first | with_reducible rfl | split | simp only [↓kept_ite, ↓State.commitLife_kept,
      ↓State.commitUpd_kept, ↓State.storePin_kept]

theorem execPeatSecond_kept (fails : List Nat) (s : State) (t : State) (h : execPeatSecond fails s = .next t) : t.kept =
    s.kept := by
  unfold execPeatSecond at h
  injection h with h
  subst h
  repeat' first | with_reducible rfl | split | simp only [↓State.calSecond_kept, ↓State.modPeat_kept,
      ↓State.peatCommit_kept, ↓State.timeCounters_kept]

theorem State.peatSource_kept (s : State) (backup : Bool) : (State.peatSource s backup).kept = s.kept := by
  unfold State.peatSource
  repeat' first | with_reducible rfl | split | simp only [↓kept_ite, ↓State.modPeat_kept, ↓State.raise_kept,
      ↓State.wrB_kept]

theorem execPeatSwitchToVbak_kept (s : State) (t : State) (h : execPeatSwitchToVbak s = .next t) : t.kept = s.kept := by
  unfold execPeatSwitchToVbak at h
  injection h with h
  subst h
  repeat' first | with_reducible rfl | split | simp only [↓State.bumpLife_kept, ↓State.peatSource_kept]

theorem execPeatReturnToVkeep_kept (s : State) (t : State) (h : execPeatReturnToVkeep s = .next t) : t.kept = s.kept := by
  unfold execPeatReturnToVkeep at h
  injection h with h
  subst h
  repeat' first | with_reducible rfl | split | simp only [↓State.peatSource_kept]

theorem execPeatPowerLoss_kept (s : State) (t : State) (h : execPeatPowerLoss s = .next t) : t.kept = s.kept := by
  unfold execPeatPowerLoss at h
  injection h with h
  subst h
  repeat' first | with_reducible rfl | split | simp only [↓State.commitLife_kept, ↓State.modPeat_kept]

theorem execPeatPowerReturn_kept (backup : Bool) (s : State) (t : State) (h : execPeatPowerReturn backup s = .next t) :
    t.kept = s.kept := by
  unfold execPeatPowerReturn at h
  injection h with h
  subst h
  repeat' first | with_reducible rfl | split | simp only [↓kept_ite, ↓State.bumpLife_kept, ↓State.modPeat_kept,
      ↓State.peatRaise_kept, ↓State.wrB_kept]

theorem execCalendarSet_kept (date : Word) (time : Word) (s : State) (t : State) (h : execCalendarSet date time s = .next
    t) : t.kept = s.kept := by
  unfold execCalendarSet at h
  injection h with h
  subst h
  repeat' first
    | with_reducible rfl
    | simp only [↓State.calGo_kept, ↓State.setReg_kept]
    | (with_reducible apply foldl_keptT <;> try intro _ _)
    | (with_reducible apply foldl_kept1T <;> try intro _ _)
    | (with_reducible apply State.pfWrite_keptT <;> try intro _)
    | split
    | (apply foldl_keptT <;> try intro _ _)

theorem execEpochSet_kept (epoch : BitVec 64) (s : State) (t : State) (h : execEpochSet epoch s = .next t) : t.kept =
    s.kept := by
  unfold execEpochSet at h
  injection h with h
  subst h
  repeat' first
    | with_reducible rfl
    | simp only [↓State.epochGo_kept, ↓State.meshEpoch_kept, ↓State.wr_kept]
    | (with_reducible apply foldl_keptT <;> try intro _ _)
    | (with_reducible apply foldl_kept1T <;> try intro _ _)
    | (with_reducible apply State.pfWrite_keptT <;> try intro _)
    | split
    | (apply foldl_keptT <;> try intro _ _)

/-! ### Scan -/

theorem State.tapRise_kept (s : State) (tms : Bool) (tdi : Bool) (pads : List Bool) : (State.tapRise s tms tdi pads).kept =
    s.kept := by
  unfold State.tapRise
  simp only [↓kept_mk]

theorem State.tapFall_kept (s : State) : (State.tapFall s).kept = s.kept := by
  unfold State.tapFall
  repeat' first | with_reducible rfl | split | simp only [↓kept_mk, ↓State.emit_kept]

theorem execBoundaryScan_kept (tms : Bool) (tdi : Bool) (trstN : Bool) (pads : List Bool) (s : State) (t : State) (h :
    execBoundaryScan tms tdi trstN pads s = .next t) : t.kept = s.kept := by
  unfold execBoundaryScan at h
  injection h with h
  subst h
  repeat' first | with_reducible rfl | split | simp only [↓kept_mk, ↓State.tapFall_kept, ↓State.tapRise_kept]

/-! ### TickBoundary -/

theorem State.latchDefects_kept (s : State) (f : Nat) : (State.latchDefects s f).kept = s.kept := by
  unfold State.latchDefects
  simp only [↓State.wr_kept]

theorem State.tapAverages_kept (s : State) (taps : List (Nat × Int × Int)) : (State.tapAverages s taps).kept = s.kept := by
  unfold State.tapAverages
  repeat' first
    | with_reducible rfl
    | simp only [↓kept_ite, ↓State.modFrond_kept]
    | (with_reducible apply foldl_keptT <;> try intro _ _)
    | (with_reducible apply foldl_kept1T <;> try intro _ _)
    | split
    | (apply foldl_keptT <;> try intro _ _)

theorem State.endTick_kept (s : State) (taps : List (Nat × Int × Int)) : (State.endTick s taps).kept = s.kept := by
  unfold State.endTick
  repeat' first
    | with_reducible rfl
    | simp only [↓State.driveAlertN_kept, ↓State.flushDone_kept, ↓State.flushEvents_kept,
        ↓State.latchDefects_kept, ↓State.mbCross_kept, ↓State.pcTickEnd_kept, ↓State.pmTick_kept, ↓State.tapAverages_kept,
            ↓State.thermTick_kept, ↓State.timPresence_kept]
    | (with_reducible apply foldl_keptT <;> try intro _ _)
    | (with_reducible apply foldl_kept1T <;> try intro _ _)
    | split
    | (apply foldl_keptT <;> try intro _ _)

theorem State.scheduled_kept (s : State) : (State.scheduled s).kept = s.kept := by
  unfold State.scheduled
  repeat' first
    | with_reducible rfl
    | simp only [↓State.calSwap_kept, ↓State.firSwap_kept, ↓State.keyRollApply_kept,
        ↓State.txSwapDue_kept]
    | (with_reducible apply foldl_keptT <;> try intro _ _)
    | (with_reducible apply foldl_kept1T <;> try intro _ _)
    | split
    | (apply foldl_keptT <;> try intro _ _)

theorem State.timeStep_kept (s : State) : (State.timeStep s).kept = s.kept := by
  unfold State.timeStep
  repeat' first | with_reducible rfl | split | simp only [↓State.calStep_kept, ↓State.modTim_kept]

theorem State.keepBudget_kept (s : State) : (State.keepBudget s).kept = s.kept := by
  unfold State.keepBudget
  repeat' first
    | with_reducible rfl
    | simp only [↓State.modFrond_kept]
    | (with_reducible apply foldl_keptT <;> try intro _ _)
    | (with_reducible apply foldl_kept1T <;> try intro _ _)
    | split
    | (apply foldl_keptT <;> try intro _ _)

theorem State.laterSteps_kept (s : State) : (State.laterSteps s).kept = s.kept := by
  unfold State.laterSteps
  simp only [↓State.blockStep_kept, ↓State.fwSwitch_kept, ↓State.gateStep_kept, ↓State.holdStep_kept,
      ↓State.powerStep_kept, ↓State.releaseAll_kept, ↓State.selectAll_kept, ↓State.trialStep_kept, ↓State.warmStep_kept]

theorem State.imageReg_kept (s : State) (i : Nat) (off : Nat) (v : Word) : (State.imageReg s i off v).kept = s.kept := by
  unfold State.imageReg
  repeat' first | with_reducible rfl | split | simp only [↓State.applyWt_kept, ↓State.imgRefused_kept,
      ↓State.setReg_kept, ↓State.tenantWrite_kept, ↓State.toneSet_kept]

theorem State.imageRegs_kept (s : State) (l : List ImgRec) : (State.imageRegs s l).kept = s.kept := by
  unfold State.imageRegs
  repeat' first
    | with_reducible rfl
    | simp only [↓State.imageReg_kept]
    | (with_reducible apply foldl_keptT <;> try intro _ _)
    | (with_reducible apply foldl_kept1T <;> try intro _ _)
    | split
    | (apply foldl_keptT <;> try intro _ _)

theorem State.imageRequest_kept (s : State) (mem : HostMem) (q : Nat × List (List Byte) × Bool) : (State.imageRequest s mem
    q).kept = s.kept := by
  unfold State.imageRequest
  repeat' first
    | with_reducible rfl
    | simp only [↓kept_mk, ↓kept_ite, ↓State.imgRefused_kept]
    | (with_reducible apply foldl_keptT <;> try intro _ _)
    | (with_reducible apply foldl_kept1T <;> try intro _ _)
    | refine Eq.trans (Request.applyParts_kept _ _ _ _ _ _ (by assumption)) ?_
    | split
    | (apply foldl_keptT <;> try intro _ _)

theorem State.imageDescs_kept (s : State) (l : List ImgRec) : (State.imageDescs s l).kept = s.kept := by
  unfold State.imageDescs
  repeat' first
    | with_reducible rfl
    | simp only [↓State.imageRequest_kept]
    | (with_reducible apply foldl_keptT <;> try intro _ _)
    | (with_reducible apply foldl_kept1T <;> try intro _ _)
    | split
    | (apply foldl_keptT <;> try intro _ _)

theorem State.releaseEpoch_kept (s : State) : (State.releaseEpoch s).kept = s.kept := by
  unfold State.releaseEpoch
  repeat' first | with_reducible rfl | split | simp only [↓kept_ite, ↓State.modPeat_kept, ↓State.peatRaise_kept]

theorem State.frondStart_kept (s : State) (f : Nat) : (State.frondStart s f).kept = s.kept := by
  unfold State.frondStart
  repeat' first | with_reducible rfl | split | simp only [↓kept_ite, ↓State.calRefresh_kept,
      ↓State.cryptoStop_kept, ↓State.raise_kept, ↓State.setFrondCal_kept, ↓State.setInsrc_kept, ↓State.wr_kept]

theorem State.releaseReports_kept (s : State) : (State.releaseReports s).kept = s.kept := by
  unfold State.releaseReports
  repeat' first
    | with_reducible rfl
    | simp only [↓kept_ite, ↓State.modBoot_kept, ↓State.modPeat_kept, ↓State.raise_kept, ↓State.raiseEv_kept,
        ↓State.wrB_kept]
    | (with_reducible apply foldl_keptT <;> try intro _ _)
    | (with_reducible apply foldl_kept1T <;> try intro _ _)
    | split
    | (apply foldl_keptT <;> try intro _ _)

theorem State.releaseReport_kept (s : State) : (State.releaseReport s).kept = s.kept := by
  unfold State.releaseReport
  simp only [↓kept_mk, ↓State.bootReport_kept, ↓State.setReg_kept]

end Sys2Proof.Machine
end

