-- ==== Sys2Proof/Laws/KeptExec.lean ====
section
/-! SUPPORT. What the commands do to the tick, the fuse array and the queue: nothing, but for the boundary, the resets,
release and fuse programming, each of which has its own lemmas here. -/
namespace Sys2Proof.Machine

theorem kept_pending {s t : State} (h : s.kept = t.kept) : s.pending = t.pending := by
  have := congrArg (fun x => x.2.2) h
  exact this

theorem kept_tick {s t : State} (h : s.kept = t.kept) : s.tick = t.tick := by
  have := congrArg (fun x => x.1) h
  exact this

theorem kept_fuse {s t : State} (h : s.kept = t.kept) : s.fuse = t.fuse := by
  have := congrArg (fun x => x.2.1) h
  exact this

theorem kept_mk3 {s t : State} (h1 : s.tick = t.tick) (h2 : s.fuse = t.fuse) (h3 : s.pending = t.pending) :
    s.kept = t.kept := by
  unfold State.kept; rw [h1, h2, h3]

theorem State.boundaryEnd_kept (s : State) : s.boundaryEnd.kept = s.kept := by
  unfold State.boundaryEnd
  split
  · rfl
  · dsimp only
    rw [State.driveFaultN_kept, State.pmBacklog_kept, State.saRegs_kept, State.xcRegs_kept, State.memBoundary_kept,
      State.meshEpoch_kept, foldl_kept (by intro s a; exact State.upAgain_kept s a), State.monPublish_kept,
      State.ppsOut_kept, State.tickOut_kept, foldl_kept (by intro s a; exact State.resumeOut_kept s a)]
    apply foldl_kept
    intro s f
    rw [State.modSlf_kept, State.squelchUpdate_kept]

/-- The retirement step moves nothing but the state fuse. -/
theorem State.retireStep_tick (s : State) : s.retireStep.tick = s.tick := by
  unfold State.retireStep
  split
  · rfl
  · dsimp only
    refine (kept_tick (State.raise_kept _ _ _ _)).trans ?_
    rw [kept_tick (State.zeroise_kept _), kept_tick (State.eraseSaKeys_kept _), kept_tick (State.eraseKeks_kept _ _),
      kept_tick (State.wr_kept _ _ _)]

theorem State.retireStep_pending (s : State) : s.retireStep.pending = s.pending := by
  unfold State.retireStep
  split
  · rfl
  · dsimp only
    refine (kept_pending (State.raise_kept _ _ _ _)).trans ?_
    rw [kept_pending (State.zeroise_kept _), kept_pending (State.eraseSaKeys_kept _), kept_pending (State.eraseKeks_kept _ _),
      kept_pending (State.wr_kept _ _ _)]

theorem State.retireStep_fuse (s : State) :
    s.retireStep.fuse = if s.sec.retireNext then { s.fuse with secState := 0xa } else s.fuse := by
  unfold State.retireStep
  cases h : s.sec.retireNext
  · rfl
  · dsimp only
    refine (kept_fuse (State.raise_kept _ _ _ _)).trans ?_
    rw [kept_fuse (State.zeroise_kept _), kept_fuse (State.eraseSaKeys_kept _), kept_fuse (State.eraseKeks_kept _ _),
      kept_fuse (State.wr_kept _ _ _)]
    rfl

theorem FuseGrows.refl (a : FuseSt) : FuseGrows a a := ⟨id, fun _ => rfl, fun _ => Nat.le_refl _, fun _ _ _ h => h, fun _ h => h⟩

theorem FuseGrows.trans {a b c : FuseSt} (h : FuseGrows a b) (g : FuseGrows b c) : FuseGrows a c := by
  refine ⟨fun l => g.loaded (h.loaded l), fun l => ?_, fun l => Nat.le_trans (h.rollback l) (g.rollback (h.loaded l)),
    fun l k hk r => g.revoked (h.loaded l) k hk (h.revoked l k hk r), fun l r => g.retired (h.loaded l) (h.retired l r)⟩
  have hb := h.fixed l
  have hc := g.fixed (h.loaded l)
  rw [hc, hb]

/-- What the commands outside the boundary and the resets keep in part: the tick and the queue, with a fuse array that only
blows. -/
structure Blown (s t : State) : Prop where
  tick : t.tick = s.tick
  pending : t.pending = s.pending
  fuse : FuseGrows s.fuse t.fuse

theorem Blown.of_kept {s t : State} (h : t.kept = s.kept) : Blown s t :=
  ⟨kept_tick h, kept_pending h, by rw [kept_fuse h]; exact FuseGrows.refl _⟩

theorem Blown.trans {s t u : State} (h : Blown s t) (g : Blown t u) : Blown s u :=
  ⟨g.tick.trans h.tick, g.pending.trans h.pending, h.fuse.trans g.fuse⟩

theorem foldl_blown {α : Type} {f : State → α → State} {l : List α} {s : State} (h : ∀ s a, a ∈ l → Blown s (f s a)) :
    Blown s (l.foldl f s) := by
  induction l generalizing s with
  | nil => exact Blown.of_kept rfl
  | cons a l ih =>
    rw [List.foldl_cons]
    exact (h s a (List.mem_cons_self ..)).trans (ih fun s b hb => h s b (List.mem_cons_of_mem _ hb))

theorem State.retireStep_blown (s : State) : Blown s s.retireStep := by
  refine ⟨s.retireStep_tick, s.retireStep_pending, ?_⟩
  rw [State.retireStep_fuse]
  split
  · exact ⟨id, fun _ => rfl, fun _ => Nat.le_refl _, fun _ _ _ h => h, fun _ _ => rfl⟩
  · exact FuseGrows.refl _

theorem State.blowRollback_blown (s : State) (i : Nat) : Blown s (if s.fuse.rollback = i then
    { s with fuse := { s.fuse with rollback := i + 1 } }.raise 0x1407 0 [.w 0, .w (i + 1)] else s) := by
  split
  · rename_i h
    refine Blown.trans ?_ (Blown.of_kept (State.raise_kept _ _ _ _))
    exact ⟨rfl, rfl, ⟨id, fun _ => rfl, fun _ => by simp; omega, fun _ _ _ h => h, fun _ h => h⟩⟩
  · exact Blown.of_kept rfl

theorem State.blowSet_blown (s : State) (k : Nat) (m : List Byte) (hk : k < 2) : Blown s
    (if fieldAt m 7 1 / 2 ^ k % 2 = 1 ∧ s.fuse.revoked / 2 ^ k % 2 = 0 then
      { s with fuse := { s.fuse with revoked := s.fuse.revoked + 2 ^ k } }.raise 0x1407 0 [.w 1, .w k] else s) := by
  split
  · rename_i h
    refine Blown.trans ?_ (Blown.of_kept (State.raise_kept _ _ _ _))
    refine ⟨rfl, rfl, ⟨id, fun _ => rfl, fun _ => Nat.le_refl _, fun _ j hj r => ?_, fun _ h => h⟩⟩
    obtain rfl | rfl : k = 0 ∨ k = 1 := by omega
    all_goals obtain rfl | rfl : j = 0 ∨ j = 1 := by omega
    all_goals simp at h r ⊢ <;> omega
  · exact Blown.of_kept rfl

/-- Programming the fuses blows them and moves neither the tick nor the queue. -/
theorem State.blowFuses_blown (s : State) : Blown s s.blowFuses := by
  unfold State.blowFuses
  split
  · exact Blown.of_kept rfl
  · extract_lets m sec n s1 s2 s3
    have h1 : Blown s s1 := foldl_blown fun s i _ => s.blowRollback_blown i
    have h2 : Blown s1 s2 := foldl_blown fun s k hk => s.blowSet_blown k m (List.mem_range.mp hk)
    have h3 : Blown s2 s3 := by
      apply Blown.of_kept
      show (if _ then _ else _ : State).kept = _
      split
      · exact State.raise_kept _ _ _ _
      · rfl
    refine ((h1.trans h2).trans h3).trans (Blown.of_kept ?_)
    rw [State.fwRegs_kept, State.commitUpd_kept, State.modUpd_kept]

theorem State.darkBase_tick (s : State) : s.darkBase.tick = 0 := by
  unfold State.darkBase
  dsimp only
  rw [kept_tick (State.wrB_kept _ _ _), kept_tick (State.wr_kept _ _ _)]

theorem State.darkBase_pending (s : State) : s.darkBase.pending = s.pending := by
  unfold State.darkBase
  dsimp only
  rw [kept_pending (State.wrB_kept _ _ _), kept_pending (State.wr_kept _ _ _)]

theorem State.darkBase_fuse (s : State) : s.darkBase.fuse = s.fuse := by
  unfold State.darkBase
  dsimp only
  rw [kept_fuse (State.wrB_kept _ _ _), kept_fuse (State.wr_kept _ _ _)]

theorem State.coldReset_darkBase (s : State) (c : Nat) : (s.coldReset c).kept = s.darkBase.kept := by
  unfold State.coldReset
  rw [State.restorePin_kept, State.bumpLife_kept, State.wr_kept]

/-- A cold reset keeps the fuse array and the queue; the tick starts again at 0. -/
theorem State.coldReset_tick (s : State) (c : Nat) : (s.coldReset c).tick = 0 :=
  (kept_tick (s.coldReset_darkBase c)).trans s.darkBase_tick

theorem State.coldReset_pending (s : State) (c : Nat) : (s.coldReset c).pending = s.pending :=
  (kept_pending (s.coldReset_darkBase c)).trans s.darkBase_pending

theorem State.coldReset_fuse (s : State) (c : Nat) : (s.coldReset c).fuse = s.fuse :=
  (kept_fuse (s.coldReset_darkBase c)).trans s.darkBase_fuse

theorem State.rebase_kept (s : State) : s.rebase.kept = (0, s.fuse, s.pending) := by
  unfold State.rebase
  dsimp only
  rw [foldl_kept (by intro s a; exact State.setFrondCal_kept s a _)]
  rfl

theorem State.release_rebase (s : State) : s.release.kept = s.rebase.kept := by
  unfold State.release
  dsimp only
  rw [State.boundaryEnd_kept, State.laterSteps_kept, State.beginClaim_kept, State.logHeld_kept, State.modBoot_kept,
    State.releaseReport_kept, State.releaseReports_kept, State.imageDescs_kept, State.applyWts_kept,
    foldl_kept (by intro s a; exact State.frondStart_kept s a), State.releaseEpoch_kept, State.imageRegs_kept,
    State.wr_kept]

theorem State.release_kept (s : State) : s.release.kept = (0, s.fuse, s.pending) := s.release_rebase.trans s.rebase_kept

theorem State.bootTick_tick (s : State) : s.bootTick.tick = s.tick + 1 := by
  unfold State.bootTick
  dsimp only
  rw [kept_tick (State.warmStep_kept _), kept_tick (foldl_kept (by intro s a; exact State.upAgain_kept s a)),
    kept_tick (State.monPublish_kept _), kept_tick (foldl_kept (by intro s a; exact State.calSwap_kept s a))]

theorem State.bootTick_pending (s : State) : s.bootTick.pending = s.pending := by
  unfold State.bootTick
  dsimp only
  rw [kept_pending (State.warmStep_kept _), kept_pending (foldl_kept (by intro s a; exact State.upAgain_kept s a)),
    kept_pending (State.monPublish_kept _), kept_pending (foldl_kept (by intro s a; exact State.calSwap_kept s a))]

theorem State.bootTick_fuse (s : State) : s.bootTick.fuse = s.fuse := by
  unfold State.bootTick
  dsimp only
  rw [kept_fuse (State.warmStep_kept _), kept_fuse (foldl_kept (by intro s a; exact State.upAgain_kept s a)),
    kept_fuse (State.monPublish_kept _), kept_fuse (foldl_kept (by intro s a; exact State.calSwap_kept s a))]

/-- The boundary of a running module: what happens around the one place where the tick advances. -/
theorem execTickBoundary_blown {mem : HostMem} {taps : List (Nat × Int × Int)} {s t : State} (hp : s.boot.pwrOk = true)
    (h0 : s.phase ≠ 0) (hr : s.running = true) (h : execTickBoundary mem taps s = .next t) :
    Blown { s with tick := s.tick + 1 } t := by
  unfold execTickBoundary at h
  injection h with h
  subst h
  simp only [hp, h0, hr, Bool.not_true, Bool.false_eq_true, or_self, if_false]
  have hk : ((s.endTick taps).checkTick mem).kept = s.kept := by rw [State.checkTick_kept, State.endTick_kept]
  generalize (s.endTick taps).checkTick mem = a at hk ⊢
  have ht := kept_tick hk
  have hq := kept_pending hk
  have hf := kept_fuse hk
  have e1 : Blown { s with tick := s.tick + 1 } { a with tick := a.tick + 1, host := { a.host with readBudgetUsed := 0 } } :=
    ⟨by rw [ht], hq, by rw [← hf]; exact FuseGrows.refl _⟩
  generalize ({ a with tick := a.tick + 1, host := { a.host with readBudgetUsed := 0 } } : State) = b at e1 ⊢
  refine e1.trans ?_
  have e2 : Blown b b.safeStep.keepBudget.scheduled.kekStep :=
    Blown.of_kept (by rw [State.kekStep_kept, State.scheduled_kept, State.keepBudget_kept, State.safeStep_kept])
  refine (e2.trans (State.retireStep_blown _)).trans (Blown.of_kept ?_)
  rw [State.boundaryEnd_kept, State.laterSteps_kept, State.applyTick_kept, State.timeStep_kept, State.applyWts_kept]

theorem kept_parts {s : State} {n : Nat} {u : FuseSt} {l : List Instr} (h : s.kept = (n, u, l)) :
    s.tick = n ∧ s.fuse = u ∧ s.pending = l := by
  unfold State.kept at h
  injection h with h1 h2
  injection h2 with h2 h3
  exact ⟨h1, h2, h3⟩

theorem execColdResetPin_kept' (s : State) (t : State) (h : execColdResetPin s = .next t) : t.pending = s.pending ∧ t.fuse = s.fuse := by
  unfold execColdResetPin at h
  injection h with h
  split at h
  · subst h; exact ⟨State.coldReset_pending _ _, State.coldReset_fuse _ _⟩
  · subst h; exact ⟨rfl, rfl⟩

theorem execCalPhaseDone_kept' (s : State) (t : State) (h : execCalPhaseDone s = .next t) : t.pending = s.pending ∧ t.fuse = s.fuse := by
  unfold execCalPhaseDone at h
  injection h with h
  split at h
  · subst h
    exact ⟨(kept_parts (State.release_kept s)).2.2, (kept_parts (State.release_kept s)).2.1⟩
  · subst h; exact ⟨rfl, rfl⟩

theorem execFuseProgramming_blown (s : State) (t : State) (h : execFuseProgramming s = .next t) : Blown s t := by
  unfold execFuseProgramming at h
  injection h with h
  subst h
  exact State.blowFuses_blown s

theorem execColdResetPower_kept' (s : State) (t : State) (h : execColdResetPower s = .next t) : t.pending = s.pending ∧ t.fuse = s.fuse := by
  unfold execColdResetPower at h
  injection h with h
  split at h
  · subst h; exact ⟨rfl, rfl⟩
  · dsimp only at h
    subst h
    rw [kept_pending (State.writeMarker_kept _ _ _ _), kept_fuse (State.writeMarker_kept _ _ _ _)]
    have h1 : ((s.modBoot fun b => { b with pwrOk := true }).coldReset 0).pending = s.pending := by
      rw [State.coldReset_pending, kept_pending (State.modBoot_kept _ _)]
    have h2 : ((s.modBoot fun b => { b with pwrOk := true }).coldReset 0).fuse = s.fuse := by
      rw [State.coldReset_fuse, kept_fuse (State.modBoot_kept _ _)]
    generalize (s.modBoot fun b => { b with pwrOk := true }).coldReset 0 = u at h1 h2
    split
    · rw [kept_pending (State.modBoot_kept _ _), kept_pending (State.peatRaise_kept _ _ _), kept_pending (State.bumpLife_kept _ _),
        kept_fuse (State.modBoot_kept _ _), kept_fuse (State.peatRaise_kept _ _ _), kept_fuse (State.bumpLife_kept _ _)]
      exact ⟨h1, h2⟩
    · exact ⟨h1, h2⟩

theorem execMainSupplyLoss_kept' (s : State) (t : State) (h : execMainSupplyLoss s = .next t) : t.pending = s.pending ∧ t.fuse = s.fuse := by
  unfold execMainSupplyLoss at h
  injection h with h
  dsimp only at h
  subst h
  rw [kept_pending (State.modPow_kept _ _), kept_fuse (State.modPow_kept _ _)]
  have h1 : (s.modBoot fun b => { b with pwrOk := false }).darkBase.pending = s.pending := by
    rw [State.darkBase_pending, kept_pending (State.modBoot_kept _ _)]
  have h2 : (s.modBoot fun b => { b with pwrOk := false }).darkBase.fuse = s.fuse := by
    rw [State.darkBase_fuse, kept_fuse (State.modBoot_kept _ _)]
  exact ⟨h1, h2⟩

theorem State.bootSlot_kept (s : State) (k : Nat) : (s.bootSlot k).kept = s.kept := by
  unfold State.bootSlot
  simp only [↓kept_mk, ↓State.fwRegs_kept, ↓State.wr_kept, ↓State.report_kept]

theorem execSecureSlotVerified_blown (s : State) (t : State) (h : execSecureSlotVerified s = .next t) : Blown s t := by
  unfold execSecureSlotVerified at h
  injection h with h
  split at h
  · subst h; exact Blown.of_kept rfl
  · extract_lets k at h
    split at h
    · subst h
      exact ((Blown.of_kept (State.bootSlot_kept _ _)).trans (State.blowFuses_blown _)).trans
        (Blown.of_kept (State.configBegin_kept _))
    · split at h
      · subst h; exact Blown.of_kept (State.modBoot_kept _ _)
      · subst h; exact Blown.of_kept (by rw [State.wr_kept, State.wr_kept])

theorem State.fuseEnd_kept (s : State) (fail : Bool) (bad : List Nat) : (s.fuseEnd fail bad).kept = s.kept := by
  unfold State.fuseEnd
  split
  · rw [State.wr_kept, State.wr_kept, foldl_kept (by intro s a; exact State.setReg_kept s a 0), State.identity_kept]
  · rw [State.secureBegin_kept, State.fuseRegs_kept, State.identity_kept]

theorem State.fuseTake_parts (s : State) (u : FuseSt) : (s.fuseTake u).tick = s.tick ∧ (s.fuseTake u).pending = s.pending ∧
    (s.fuse.loaded = true → (s.fuseTake u).fuse = s.fuse) := by
  unfold State.fuseTake
  split
  · exact ⟨rfl, rfl, fun _ => rfl⟩
  · rename_i hl
    exact ⟨rfl, rfl, fun h => absurd h hl⟩

theorem execFuseLoadDone_kept' (fuse : FuseSt) (fail : Bool) (bad : List Nat) (s : State) (t : State)
    (h : execFuseLoadDone fuse fail bad s = .next t) :
    t.tick = s.tick ∧ t.pending = s.pending ∧ (s.fuse.loaded = true → t.fuse = s.fuse) := by
  unfold execFuseLoadDone at h
  injection h with h
  split at h
  · subst h; exact ⟨rfl, rfl, fun _ => rfl⟩
  · subst h
    rw [kept_tick (State.fuseEnd_kept _ _ _), kept_pending (State.fuseEnd_kept _ _ _), kept_fuse (State.fuseEnd_kept _ _ _)]
    exact State.fuseTake_parts s fuse

/-- The commands of which no lemma of these files says that they leave the tick, the fuse array and the queue alone: the
boundary, the resets, release, and the two that program or load fuses. -/
def movesKept : Instr → Bool
  | .tickBoundary _ _ => true
  | .coldResetPower => true
  | .coldResetPin => true
  | .fuseLoadDone _ _ _ => true
  | .secureSlotVerified => true
  | .calPhaseDone => true
  | .mainSupplyLoss => true
  | .fuseProgramming => true
  | _ => false

/-- Every other command leaves the tick, the fuse array and the queue alone. -/
theorem exec_kept {c : Instr} {s t : State} (hc : movesKept c = false) (h : exec c s = .next t) : t.kept = s.kept := by
  cases c with
  | tickBoundary => contradiction
  | waitingEventWrite _ => exact execWaitingEventWrite_kept _ _ _ h
  | msixMessage _ _ _ => exact execMsixMessage_kept _ _ _ _ _ h
  | doorbellRead _ => exact execDoorbellRead_kept _ _ _ h
  | readDataWrite => exact execReadDataWrite_kept _ _ h
  | ringEnable _ _ => exact execRingEnable_kept _ _ _ _ h
  | ringDisable _ _ => exact execRingDisable_kept _ _ _ _ h
  | tenantRangeWrite _ _ _ => exact execTenantRangeWrite_kept _ _ _ _ _ h
  | functionLevelReset _ => exact execFunctionLevelReset_kept _ _ _ h
  | vfEnableClear => exact execVfEnableClear_kept _ _ h
  | busMasterDisable _ => exact execBusMasterDisable_kept _ _ _ h
  | nop _ _ => exact execNop_kept _ _ _ _ h
  | funcStop _ _ _ _ => exact execFuncStop_kept _ _ _ _ _ _ h
  | funcStart _ _ _ _ => exact execFuncStart_kept _ _ _ _ _ _ h
  | lineSetup _ _ _ _ _ _ _ _ _ => exact execLineSetup_kept _ _ _ _ _ _ _ _ _ _ _ h
  | loadTable _ _ _ _ => exact execLoadTable_kept _ _ _ _ _ _ h
  | filterLoad _ _ _ _ _ => exact execFilterLoad_kept _ _ _ _ _ _ _ h
  | lineOh _ _ _ _ _ _ _ _ => exact execLineOh_kept _ _ _ _ _ _ _ _ _ _ h
  | gccSend _ _ _ _ _ => exact execGccSend_kept _ _ _ _ _ _ _ h
  | gccRxPost _ _ _ _ => exact execGccRxPost_kept _ _ _ _ _ _ h
  | portSetup _ _ _ _ _ _ _ _ _ => exact execPortSetup_kept _ _ _ _ _ _ _ _ _ _ _ h
  | epCreate _ _ _ _ _ => exact execEpCreate_kept _ _ _ _ _ _ _ h
  | epChange _ _ _ _ _ => exact execEpChange_kept _ _ _ _ _ _ _ h
  | epDelete _ _ _ => exact execEpDelete_kept _ _ _ _ _ h
  | epRead _ _ _ _ => exact execEpRead_kept _ _ _ _ _ _ h
  | pmSetupAnchor _ _ _ => exact execPmSetupAnchor_kept _ _ _ _ _ h
  | pmSetupProfile _ _ _ _ => exact execPmSetupProfile_kept _ _ _ _ _ _ h
  | pmSetupZeroSuppress _ _ _ => exact execPmSetupZeroSuppress_kept _ _ _ _ _ h
  | pmClear _ _ _ => exact execPmClear_kept _ _ _ _ _ h
  | pmRead _ _ _ _ _ => exact execPmRead_kept _ _ _ _ _ _ _ h
  | quotaSet _ _ _ _ _ => exact execQuotaSet_kept _ _ _ _ _ _ _ h
  | quotaRead _ _ _ => exact execQuotaRead_kept _ _ _ _ _ h
  | tenantCreate _ _ => exact execTenantCreate_kept _ _ _ _ h
  | tenantDelete _ _ => exact execTenantDelete_kept _ _ _ _ h
  | saCreate _ _ _ _ _ _ _ => exact execSaCreate_kept _ _ _ _ _ _ _ _ _ h
  | saChange _ _ _ _ _ _ _ => exact execSaChange_kept _ _ _ _ _ _ _ _ _ h
  | saDelete _ _ _ => exact execSaDelete_kept _ _ _ _ _ h
  | keyLoad _ _ _ _ => exact execKeyLoad_kept _ _ _ _ _ _ h
  | keyDiscard _ _ _ => exact execKeyDiscard_kept _ _ _ _ _ h
  | keyRoll _ _ _ _ => exact execKeyRoll_kept _ _ _ _ _ _ h
  | saRead _ _ _ _ => exact execSaRead_kept _ _ _ _ _ _ h
  | timInput _ _ _ _ _ _ => exact execTimInput_kept _ _ _ _ _ _ _ _ h
  | timPrio _ _ _ _ => exact execTimPrio_kept _ _ _ _ _ _ h
  | timDpll _ _ _ _ _ _ _ _ => exact execTimDpll_kept _ _ _ _ _ _ _ _ _ _ h
  | timOutput _ _ _ _ _ _ _ _ _ => exact execTimOutput_kept _ _ _ _ _ _ _ _ _ _ _ h
  | timTwinSetup _ _ _ _ _ => exact execTimTwinSetup_kept _ _ _ _ _ _ _ h
  | timTwinRemove _ _ _ _ _ => exact execTimTwinRemove_kept _ _ _ _ _ _ _ h
  | timTod _ _ _ _ => exact execTimTod_kept _ _ _ _ _ _ h
  | mshSetup _ _ _ _ _ _ _ _ _ _ _ => exact execMshSetup_kept _ _ _ _ _ _ _ _ _ _ _ _ _ h
  | mshRemote _ _ _ => exact execMshRemote_kept _ _ _ _ _ h
  | mshSend _ _ _ _ _ => exact execMshSend_kept _ _ _ _ _ _ _ h
  | mshDbRead _ _ _ => exact execMshDbRead_kept _ _ _ _ _ h
  | pwrFrond _ _ _ _ _ _ _ => exact execPwrFrond_kept _ _ _ _ _ _ _ _ _ h
  | pwrThermal _ _ _ _ => exact execPwrThermal_kept _ _ _ _ _ _ h
  | calRun _ _ _ => exact execCalRun_kept _ _ _ _ _ h
  | calAbort _ _ _ => exact execCalAbort_kept _ _ _ _ _ h
  | calExport _ _ _ _ => exact execCalExport_kept _ _ _ _ _ _ h
  | calRestore _ _ _ _ => exact execCalRestore_kept _ _ _ _ _ _ h
  | memPass _ _ _ _ _ _ _ => exact execMemPass_kept _ _ _ _ _ _ _ _ _ h
  | memInject _ _ _ _ _ _ => exact execMemInject_kept _ _ _ _ _ _ _ _ h
  | fltReact _ _ _ _ _ => exact execFltReact_kept _ _ _ _ _ _ _ h
  | fltClearAlert _ _ => exact execFltClearAlert_kept _ _ _ _ h
  | fltClearFirst _ _ => exact execFltClearFirst_kept _ _ _ _ h
  | fltClearSafe _ _ => exact execFltClearSafe_kept _ _ _ _ h
  | fltLogRead _ _ _ _ _ => exact execFltLogRead_kept _ _ _ _ _ _ _ h
  | fltFirstRead _ _ _ => exact execFltFirstRead_kept _ _ _ _ _ h
  | fltInject _ _ _ _ => exact execFltInject_kept _ _ _ _ _ _ h
  | fltSetup _ _ _ => exact execFltSetup_kept _ _ _ _ _ h
  | updConfig _ _ _ _ => exact execUpdConfig_kept _ _ _ _ _ _ h
  | updBegin _ _ _ _ => exact execUpdBegin_kept _ _ _ _ _ _ h
  | updSpore _ _ _ => exact execUpdSpore_kept _ _ _ _ _ h
  | updAbort _ _ => exact execUpdAbort_kept _ _ _ _ h
  | updActivate _ _ _ => exact execUpdActivate_kept _ _ _ _ _ h
  | updRelay _ _ _ _ _ => exact execUpdRelay_kept _ _ _ _ _ _ _ h
  | updStatus _ _ _ => exact execUpdStatus_kept _ _ _ _ _ h
  | settingsStore _ _ _ _ _ => exact execSettingsStore_kept _ _ _ _ _ _ _ h
  | monSeq _ _ _ => exact execMonSeq_kept _ _ _ _ _ h
  | monLimit _ _ _ _ _ _ _ _ _ => exact execMonLimit_kept _ _ _ _ _ _ _ _ _ _ _ h
  | monMap _ _ _ => exact execMonMap_kept _ _ _ _ _ h
  | monSample _ _ _ => exact execMonSample_kept _ _ _ _ _ h
  | monTest _ _ _ _ => exact execMonTest_kept _ _ _ _ _ _ h
  | pcErbRead _ _ _ _ => exact execPcErbRead_kept _ _ _ _ _ _ h
  | latchedPairRead _ _ _ => exact execLatchedPairRead_kept _ _ _ _ _ h
  | registerReadClear _ _ _ => exact execRegisterReadClear_kept _ _ _ _ _ h
  | registerWrite _ _ _ _ => exact execRegisterWrite_kept _ _ _ _ _ _ h
  | acqRestart _ => exact execAcqRestart_kept _ _ _ h
  | eqStateDiscard _ => exact execEqStateDiscard_kept _ _ _ h
  | warmResetRequest _ => exact execWarmResetRequest_kept _ _ _ h
  | blockResetRequest _ => exact execBlockResetRequest_kept _ _ _ h
  | loadWindowGo _ => exact execLoadWindowGo_kept _ _ _ h
  | calendarSet _ _ => exact execCalendarSet_kept _ _ _ _ h
  | epochSet _ => exact execEpochSet_kept _ _ _ h
  | cryptoGateWrite _ _ => exact execCryptoGateWrite_kept _ _ _ _ h
  | pcFrozenClear _ => exact execPcFrozenClear_kept _ _ _ h
  | calToneWrite _ => exact execCalToneWrite_kept _ _ _ h
  | secKeKeyWrite _ _ => exact execSecKeKeyWrite_kept _ _ _ _ h
  | keEncrypt => exact execKeEncrypt_kept _ _ h
  | keDecrypt => exact execKeDecrypt_kept _ _ h
  | keClearSave => exact execKeClearSave_kept _ _ h
  | keWrappedSave => exact execKeWrappedSave_kept _ _ h
  | keClearRestore => exact execKeClearRestore_kept _ _ h
  | keWrappedRestore => exact execKeWrappedRestore_kept _ _ h
  | keZeroise => exact execKeZeroise_kept _ _ h
  | keOpDone => exact execKeOpDone_kept _ _ h
  | maskReseed => exact execMaskReseed_kept _ _ h
  | mbxWordWrite _ _ _ => exact execMbxWordWrite_kept _ _ _ _ _ h
  | mbxPost _ _ => exact execMbxPost_kept _ _ _ _ h
  | mbxOutboundRead _ _ => exact execMbxOutboundRead_kept _ _ _ _ h
  | mbxProcessorRead _ => exact execMbxProcessorRead_kept _ _ _ h
  | mbxReplyPost _ => exact execMbxReplyPost_kept _ _ _ h
  | mbxCrossing _ => exact execMbxCrossing_kept _ _ _ h
  | ping _ => exact execPing_kept _ _ _ h
  | fwInfo _ => exact execFwInfo_kept _ _ _ h
  | diagText _ _ => exact execDiagText_kept _ _ _ _ h
  | secFwInfo _ => exact execSecFwInfo_kept _ _ _ h
  | kekInstall _ => exact execKekInstall_kept _ _ _ h
  | kekErase _ => exact execKekErase_kept _ _ _ h
  | kekStatus _ => exact execKekStatus_kept _ _ _ h
  | holdStatus _ => exact execHoldStatus_kept _ _ _ h
  | holdRelease _ => exact execHoldRelease_kept _ _ _ h
  | entropyRead _ => exact execEntropyRead_kept _ _ _ h
  | decommissionArm _ => exact execDecommissionArm_kept _ _ _ h
  | decommission _ => exact execDecommission_kept _ _ _ h
  | bar2AccessDenied _ _ => exact execBar2AccessDenied_kept _ _ _ _ h
  | ideKmMessage _ _ => exact execIdeKmMessage_kept _ _ _ _ h
  | entropyStartupPass => exact execEntropyStartupPass_kept _ _ h
  | entropyHealthFailure _ => exact execEntropyHealthFailure_kept _ _ _ h
  | coldResetPower => contradiction
  | coldResetPin => contradiction
  | rstNRelease _ _ _ _ => exact execRstNRelease_kept _ _ _ _ _ _ h
  | fuseLoadDone => contradiction
  | secureSlotVerified => contradiction
  | configImageRead => exact execConfigImageRead_kept _ _ h
  | loadWindowTransferDone _ => exact execLoadWindowTransferDone_kept _ _ _ h
  | cfgRequestRetry _ => exact execCfgRequestRetry_kept _ _ _ h
  | meshConfigTimeout => exact execMeshConfigTimeout_kept _ _ h
  | calPhaseDone => contradiction
  | mgmtWatchdog => exact execMgmtWatchdog_kept _ _ h
  | loopWatchdog _ => exact execLoopWatchdog_kept _ _ _ h
  | blockResetEnd _ => exact execBlockResetEnd_kept _ _ _ h
  | powerDownOrderly => exact execPowerDownOrderly_kept _ _ h
  | mainSupplyLoss => contradiction
  | railFault _ _ => exact execRailFault_kept _ _ _ _ h
  | peatSecond _ => exact execPeatSecond_kept _ _ _ h
  | peatSwitchToVbak => exact execPeatSwitchToVbak_kept _ _ h
  | peatReturnToVkeep => exact execPeatReturnToVkeep_kept _ _ h
  | peatPowerLoss => exact execPeatPowerLoss_kept _ _ h
  | peatPowerReturn _ => exact execPeatPowerReturn_kept _ _ _ h
  | ppsEdgeStamp _ _ => exact execPpsEdgeStamp_kept _ _ _ _ h
  | todMessage _ _ => exact execTodMessage_kept _ _ _ _ h
  | candidateAbsent _ => exact execCandidateAbsent_kept _ _ _ h
  | measurementWindowEnd _ => exact execMeasurementWindowEnd_kept _ _ _ h
  | dpllLocked _ _ _ => exact execDpllLocked_kept _ _ _ _ _ h
  | dpllLockLost _ _ _ => exact execDpllLockLost_kept _ _ _ _ _ h
  | holdoverOos _ => exact execHoldoverOos_kept _ _ _ h
  | timingReportSend => exact execTimingReportSend_kept _ _ h
  | timingReport _ _ _ _ => exact execTimingReport_kept _ _ _ _ _ _ h
  | ppsOutPulse => exact execPpsOutPulse_kept _ _ h
  | outputChangeResume _ => exact execOutputChangeResume_kept _ _ _ h
  | twinPhaseSend => exact execTwinPhaseSend_kept _ _ h
  | twinPhase _ _ _ _ => exact execTwinPhase_kept _ _ _ _ _ _ h
  | twinProbeSend => exact execTwinProbeSend_kept _ _ h
  | twinProbe _ _ _ => exact execTwinProbe_kept _ _ _ _ _ h
  | twinEgressSend => exact execTwinEgressSend_kept _ _ h
  | twinEgress _ => exact execTwinEgress_kept _ _ _ h
  | twinAligned => exact execTwinAligned_kept _ _ h
  | twinLapsed => exact execTwinLapsed_kept _ _ h
  | twinRealign => exact execTwinRealign_kept _ _ h
  | twinSteerLimit _ => exact execTwinSteerLimit_kept _ _ _ h
  | meshBlockLock _ _ _ _ => exact execMeshBlockLock_kept _ _ _ _ _ _ h
  | meshBlockLockLoss _ _ _ _ _ => exact execMeshBlockLockLoss_kept _ _ _ _ _ _ _ h
  | meshPortAlign _ _ => exact execMeshPortAlign_kept _ _ _ _ h
  | meshAlignLoss _ _ => exact execMeshAlignLoss_kept _ _ _ _ h
  | helloSend _ => exact execHelloSend_kept _ _ _ h
  | hello _ _ _ => exact execHello_kept _ _ _ _ _ h
  | meshHelloTimeout _ => exact execMeshHelloTimeout_kept _ _ _ h
  | dbReq _ _ _ => exact execDbReq_kept _ _ _ _ _ h
  | lsa _ _ _ => exact execLsa_kept _ _ _ _ _ h
  | lsaOriginate => exact execLsaOriginate_kept _ _ h
  | lsaExpiry _ => exact execLsaExpiry_kept _ _ _ h
  | claim _ _ _ => exact execClaim_kept _ _ _ _ _ h
  | dbCollectEnd => exact execDbCollectEnd_kept _ _ h
  | claimComplete => exact execClaimComplete_kept _ _ h
  | routeCompute => exact execRouteCompute_kept _ _ h
  | meshMessageTransmit _ => exact execMeshMessageTransmit_kept _ _ _ h
  | remoteCmd _ _ _ => exact execRemoteCmd_kept _ _ _ _ _ h
  | remoteCpl _ _ _ => exact execRemoteCpl_kept _ _ _ _ _ h
  | keyRollMessage _ _ _ => exact execKeyRollMessage_kept _ _ _ _ _ h
  | protState _ _ _ => exact execProtState_kept _ _ _ _ _ h
  | faultReport _ _ _ => exact execFaultReport_kept _ _ _ _ _ h
  | cfgReq _ _ _ => exact execCfgReq_kept _ _ _ _ _ h
  | cfgData _ _ _ => exact execCfgData_kept _ _ _ _ _ h
  | avsEvaluation _ => exact execAvsEvaluation_kept _ _ _ h
  | wakeComplete _ => exact execWakeComplete_kept _ _ _ h
  | thermThrottle _ => exact execThermThrottle_kept _ _ _ h
  | thermShed => exact execThermShed_kept _ _ h
  | thermalTrip _ _ => exact execThermalTrip_kept _ _ _ _ h
  | telemetryRefresh => exact execTelemetryRefresh_kept _ _ h
  | pmbusPageWrite _ => exact execPmbusPageWrite_kept _ _ _ h
  | pmbusPageRead => exact execPmbusPageRead_kept _ _ h
  | pmbusVoutMode => exact execPmbusVoutMode_kept _ _ h
  | pmbusStatusWord => exact execPmbusStatusWord_kept _ _ h
  | pmbusStatusCml => exact execPmbusStatusCml_kept _ _ h
  | pmbusReadVout => exact execPmbusReadVout_kept _ _ h
  | pmbusReadIout => exact execPmbusReadIout_kept _ _ h
  | pmbusReadTemperature1 => exact execPmbusReadTemperature1_kept _ _ h
  | pmbusReadPout => exact execPmbusReadPout_kept _ _ h
  | pmbusMfrSpecific00 => exact execPmbusMfrSpecific00_kept _ _ h
  | pmbusMfrSpecific01 => exact execPmbusMfrSpecific01_kept _ _ h
  | pmbusUnsupported => exact execPmbusUnsupported_kept _ _ h
  | rxPowerLow _ _ => exact execRxPowerLow_kept _ _ _ _ h
  | rxPowerHigh _ _ => exact execRxPowerHigh_kept _ _ _ _ h
  | loLow _ _ => exact execLoLow_kept _ _ _ _ h
  | muteSwitchDone _ => exact execMuteSwitchDone_kept _ _ _ h
  | subconvStuck _ _ _ _ _ => exact execSubconvStuck_kept _ _ _ _ _ _ _ h
  | subconvRecovered _ _ _ _ => exact execSubconvRecovered_kept _ _ _ _ _ _ h
  | firBankSwap _ => exact execFirBankSwap_kept _ _ _ h
  | fastGainStep _ _ _ _ => exact execFastGainStep_kept _ _ _ _ _ _ h
  | gainTrim _ _ _ => exact execGainTrim_kept _ _ _ _ _ h
  | fiddleheadDetection _ _ _ _ _ _ _ => exact execFiddleheadDetection_kept _ _ _ _ _ _ _ _ _ h
  | superframeArrival _ _ => exact execSuperframeArrival_kept _ _ _ _ h
  | floodedTick _ _ _ => exact execFloodedTick_kept _ _ _ _ _ h
  | warmFallback _ _ => exact execWarmFallback_kept _ _ _ _ h
  | acqTimeout _ => exact execAcqTimeout_kept _ _ _ h
  | dloa _ => exact execDloa_kept _ _ _ h
  | cdSearchCandidateEnd _ => exact execCdSearchCandidateEnd_kept _ _ _ h
  | preconvergenceEnd _ _ => exact execPreconvergenceEnd_kept _ _ _ _ h
  | cdTracking _ _ _ _ => exact execCdTracking_kept _ _ _ _ _ _ h
  | cdHostRampStep _ => exact execCdHostRampStep_kept _ _ _ h
  | sopRateEvaluation _ _ => exact execSopRateEvaluation_kept _ _ _ _ h
  | fofsRange _ _ => exact execFofsRange_kept _ _ _ _ h
  | snrMeasurement _ _ _ => exact execSnrMeasurement_kept _ _ _ _ _ h
  | eqStampRefresh _ => exact execEqStampRefresh_kept _ _ _ h
  | laserOffGrid _ _ => exact execLaserOffGrid_kept _ _ _ _ h
  | loadRequestEvaluation _ => exact execLoadRequestEvaluation_kept _ _ _ h
  | loadRequestTimeout _ => exact execLoadRequestTimeout_kept _ _ _ h
  | txLoadSwap _ => exact execTxLoadSwap_kept _ _ _ h
  | precdRampStep _ => exact execPrecdRampStep_kept _ _ _ h
  | launchPowerRestored _ _ _ => exact execLaunchPowerRestored_kept _ _ _ _ _ h
  | innerDecode _ _ => exact execInnerDecode_kept _ _ _ _ h
  | outerDecode _ _ => exact execOuterDecode_kept _ _ _ _ h
  | dlof _ => exact execDlof_kept _ _ _ h
  | dlom _ => exact execDlom_kept _ _ _ h
  | ddeg _ => exact execDdeg_kept _ _ _ h
  | gccFrameReceive _ => exact execGccFrameReceive_kept _ _ _ h
  | gccFrameTransmit _ => exact execGccFrameTransmit_kept _ _ _ h
  | slfFrameEncode _ _ => exact execSlfFrameEncode_kept _ _ _ _ h
  | txAssembly _ => exact execTxAssembly_kept _ _ _ h
  | superframeTransmit _ _ => exact execSuperframeTransmit_kept _ _ _ _ h
  | clientIngressMap _ _ _ _ _ _ => exact execClientIngressMap_kept _ _ _ _ _ _ _ _ h
  | oduExtract _ _ _ => exact execOduExtract_kept _ _ _ _ _ h
  | egressDecision _ _ _ => exact execEgressDecision_kept _ _ _ _ _ h
  | xcSwitch _ _ => exact execXcSwitch_kept _ _ _ _ h
  | clientEgressMap _ _ _ _ => exact execClientEgressMap_kept _ _ _ _ _ _ h
  | lichenPaired _ => exact execLichenPaired_kept _ _ _ h
  | lichenSingle _ => exact execLichenSingle_kept _ _ _ h
  | deltaChange _ => exact execDeltaChange_kept _ _ _ h
  | lichenReanchor _ => exact execLichenReanchor_kept _ _ _ h
  | legFail _ _ => exact execLegFail_kept _ _ _ _ h
  | legClear _ _ => exact execLegClear_kept _ _ _ _ h
  | imuxSkewExceeded _ => exact execImuxSkewExceeded_kept _ _ _ h
  | keyRollApply _ => exact execKeyRollApply_kept _ _ _ h
  | previousKeyErase _ => exact execPreviousKeyErase_kept _ _ _ h
  | clientLaneSignal _ _ _ => exact execClientLaneSignal_kept _ _ _ _ _ h
  | amLock _ _ _ _ => exact execAmLock_kept _ _ _ _ _ _ h
  | amLockLoss _ _ => exact execAmLockLoss_kept _ _ _ _ h
  | deskewComplete _ => exact execDeskewComplete_kept _ _ _ h
  | blockLock _ _ => exact execBlockLock_kept _ _ _ _ h
  | blockLockLoss _ _ => exact execBlockLockLoss_kept _ _ _ _ h
  | hiSerChange _ _ => exact execHiSerChange_kept _ _ _ _ h
  | clientFaultRx _ _ _ => exact execClientFaultRx_kept _ _ _ _ _ h
  | flexoDefectSet _ _ _ => exact execFlexoDefectSet_kept _ _ _ _ _ h
  | flexoDefectClr _ _ _ => exact execFlexoDefectClr_kept _ _ _ _ _ h
  | pmSecondEnd => exact execPmSecondEnd_kept _ _ h
  | pmRecordExport => exact execPmRecordExport_kept _ _ h
  | monFrameStart => exact execMonFrameStart_kept _ _ h
  | monConversionEnd _ _ => exact execMonConversionEnd_kept _ _ _ _ h
  | urgentRequest _ _ _ => exact execUrgentRequest_kept _ _ _ _ _ h
  | urgentConversionEnd _ _ => exact execUrgentConversionEnd_kept _ _ _ _ h
  | monTestDone _ => exact execMonTestDone_kept _ _ _ h
  | confirmationRead => exact execConfirmationRead_kept _ _ h
  | scrubTick _ => exact execScrubTick_kept _ _ _ h
  | memPassDone => exact execMemPassDone_kept _ _ h
  | faultMessage _ => exact execFaultMessage_kept _ _ _ h
  | collectorParityFailure _ => exact execCollectorParityFailure_kept _ _ _ h
  | updEraseDone => exact execUpdEraseDone_kept _ _ h
  | sporeProgrammed _ => exact execSporeProgrammed_kept _ _ _ h
  | sporeFrame _ => exact execSporeFrame_kept _ _ _ h
  | sporeAckSend => exact execSporeAckSend_kept _ _ h
  | sporeAck _ => exact execSporeAck_kept _ _ _ h
  | updVerifyDone => exact execUpdVerifyDone_kept _ _ h
  | preloadDone _ => exact execPreloadDone_kept _ _ _ h
  | fwActivationSwitch => exact execFwActivationSwitch_kept _ _ h
  | selfCheckReport _ _ => exact execSelfCheckReport_kept _ _ _ _ h
  | trialTimeout => exact execTrialTimeout_kept _ _ h
  | fuseProgramming => contradiction
  | settingsStoreDone _ _ => exact execSettingsStoreDone_kept _ _ _ _ h
  | calMuteCheck _ => exact execCalMuteCheck_kept _ _ _ h
  | calPrecheckEnd _ _ _ _ => exact execCalPrecheckEnd_kept _ _ _ _ _ _ h
  | calToneLost _ _ => exact execCalToneLost_kept _ _ _ _ h
  | calStepEnd _ _ _ _ => exact execCalStepEnd_kept _ _ _ _ _ _ h
  | calBankSwap _ => exact execCalBankSwap_kept _ _ _ h
  | busMasterEnableReturn _ => exact execBusMasterEnableReturn_kept _ _ _ h
  | railInTolerance _ => exact execRailInTolerance_kept _ _ _ h
  | boundaryScan _ _ _ _ => exact execBoundaryScan_kept _ _ _ _ _ _ h

end Sys2Proof.Machine
end

