-- ==== Sys2Proof/Laws/State.lean ====
section
/-! SUPPORT. One lemma per field per update of the state, each true by rfl: what an update leaves alone, and what it writes. -/
namespace Sys2Proof.Machine

variable (s : State)

@[simp] theorem State.setReg_pending (o : Nat) (v : Word) : (s.setReg o v).pending = s.pending := (rfl)
@[simp] theorem State.setReg_tick (o : Nat) (v : Word) : (s.setReg o v).tick = s.tick := (rfl)
@[simp] theorem State.setReg_latches (o : Nat) (v : Word) : (s.setReg o v).latches = s.latches := (rfl)
@[simp] theorem State.setReg_wtq (o : Nat) (v : Word) : (s.setReg o v).wtq = s.wtq := (rfl)
@[simp] theorem State.setReg_freeCtr (o : Nat) (v : Word) : (s.setReg o v).freeCtr = s.freeCtr := (rfl)
@[simp] theorem State.setReg_out (o : Nat) (v : Word) : (s.setReg o v).out = s.out := (rfl)
@[simp] theorem State.setReg_fuse (o : Nat) (v : Word) : (s.setReg o v).fuse = s.fuse := (rfl)
@[simp] theorem State.setReg_boot (o : Nat) (v : Word) : (s.setReg o v).boot = s.boot := (rfl)
@[simp] theorem State.setReg_host (o : Nat) (v : Word) : (s.setReg o v).host = s.host := (rfl)
@[simp] theorem State.setReg_flt (o : Nat) (v : Word) : (s.setReg o v).flt = s.flt := (rfl)
@[simp] theorem State.setReg_fronds (o : Nat) (v : Word) : (s.setReg o v).fronds = s.fronds := (rfl)
@[simp] theorem State.setReg_eps (o : Nat) (v : Word) : (s.setReg o v).eps = s.eps := (rfl)
@[simp] theorem State.setReg_slotOwner (o : Nat) (v : Word) : (s.setReg o v).slotOwner = s.slotOwner := (rfl)
@[simp] theorem State.setReg_ports (o : Nat) (v : Word) : (s.setReg o v).ports = s.ports := (rfl)
@[simp] theorem State.setReg_sas (o : Nat) (v : Word) : (s.setReg o v).sas = s.sas := (rfl)
@[simp] theorem State.setReg_sec (o : Nat) (v : Word) : (s.setReg o v).sec = s.sec := (rfl)
@[simp] theorem State.setReg_pm (o : Nat) (v : Word) : (s.setReg o v).pm = s.pm := (rfl)
@[simp] theorem State.setReg_xcFrozen (o : Nat) (v : Word) : (s.setReg o v).xcFrozen = s.xcFrozen := (rfl)
@[simp] theorem State.setReg_peat (o : Nat) (v : Word) : (s.setReg o v).peat = s.peat := (rfl)
@[simp] theorem State.setReg_mem (o : Nat) (v : Word) : (s.setReg o v).mem = s.mem := (rfl)
@[simp] theorem State.setReg_tim (o : Nat) (v : Word) : (s.setReg o v).tim = s.tim := (rfl)
@[simp] theorem State.setReg_mesh (o : Nat) (v : Word) : (s.setReg o v).mesh = s.mesh := (rfl)
@[simp] theorem State.setReg_mbx (o : Nat) (v : Word) : (s.setReg o v).mbx = s.mbx := (rfl)
@[simp] theorem State.setReg_cals (o : Nat) (v : Word) : (s.setReg o v).cals = s.cals := (rfl)
@[simp] theorem State.setReg_pow (o : Nat) (v : Word) : (s.setReg o v).pow = s.pow := (rfl)
@[simp] theorem State.setReg_mon (o : Nat) (v : Word) : (s.setReg o v).mon = s.mon := (rfl)
@[simp] theorem State.setReg_upd (o : Nat) (v : Word) : (s.setReg o v).upd = s.upd := (rfl)
@[simp] theorem State.setReg_tap (o : Nat) (v : Word) : (s.setReg o v).tap = s.tap := (rfl)
@[simp] theorem State.setReg_frond (o : Nat) (v : Word) (k : Nat) : (s.setReg o v).frond k = s.frond k := (rfl)
@[simp] theorem State.setReg_ep (o : Nat) (v : Word) (k : Nat) : (s.setReg o v).ep k = s.ep k := (rfl)
@[simp] theorem State.setReg_port (o : Nat) (v : Word) (k : Nat) : (s.setReg o v).port k = s.port k := (rfl)
@[simp] theorem State.setReg_sa (o : Nat) (v : Word) (k : Nat) : (s.setReg o v).sa k = s.sa k := (rfl)
@[simp] theorem State.setReg_frondEnabled (o : Nat) (v : Word) (k : Nat) : (s.setReg o v).frondEnabled k = s.frondEnabled k := (rfl)
@[simp] theorem State.setReg_fnState (o : Nat) (v : Word) (k : Nat) : (s.setReg o v).fnState k = s.fnState k := (rfl)

@[simp] theorem State.wr_pending (x : Fld) (v : Nat) : (s.wr x v).pending = s.pending := (rfl)
@[simp] theorem State.wr_tick (x : Fld) (v : Nat) : (s.wr x v).tick = s.tick := (rfl)
@[simp] theorem State.wr_latches (x : Fld) (v : Nat) : (s.wr x v).latches = s.latches := (rfl)
@[simp] theorem State.wr_wtq (x : Fld) (v : Nat) : (s.wr x v).wtq = s.wtq := (rfl)
@[simp] theorem State.wr_freeCtr (x : Fld) (v : Nat) : (s.wr x v).freeCtr = s.freeCtr := (rfl)
@[simp] theorem State.wr_out (x : Fld) (v : Nat) : (s.wr x v).out = s.out := (rfl)
@[simp] theorem State.wr_fuse (x : Fld) (v : Nat) : (s.wr x v).fuse = s.fuse := (rfl)
@[simp] theorem State.wr_boot (x : Fld) (v : Nat) : (s.wr x v).boot = s.boot := (rfl)
@[simp] theorem State.wr_host (x : Fld) (v : Nat) : (s.wr x v).host = s.host := (rfl)
@[simp] theorem State.wr_flt (x : Fld) (v : Nat) : (s.wr x v).flt = s.flt := (rfl)
@[simp] theorem State.wr_fronds (x : Fld) (v : Nat) : (s.wr x v).fronds = s.fronds := (rfl)
@[simp] theorem State.wr_eps (x : Fld) (v : Nat) : (s.wr x v).eps = s.eps := (rfl)
@[simp] theorem State.wr_slotOwner (x : Fld) (v : Nat) : (s.wr x v).slotOwner = s.slotOwner := (rfl)
@[simp] theorem State.wr_ports (x : Fld) (v : Nat) : (s.wr x v).ports = s.ports := (rfl)
@[simp] theorem State.wr_sas (x : Fld) (v : Nat) : (s.wr x v).sas = s.sas := (rfl)
@[simp] theorem State.wr_sec (x : Fld) (v : Nat) : (s.wr x v).sec = s.sec := (rfl)
@[simp] theorem State.wr_pm (x : Fld) (v : Nat) : (s.wr x v).pm = s.pm := (rfl)
@[simp] theorem State.wr_xcFrozen (x : Fld) (v : Nat) : (s.wr x v).xcFrozen = s.xcFrozen := (rfl)
@[simp] theorem State.wr_peat (x : Fld) (v : Nat) : (s.wr x v).peat = s.peat := (rfl)
@[simp] theorem State.wr_mem (x : Fld) (v : Nat) : (s.wr x v).mem = s.mem := (rfl)
@[simp] theorem State.wr_tim (x : Fld) (v : Nat) : (s.wr x v).tim = s.tim := (rfl)
@[simp] theorem State.wr_mesh (x : Fld) (v : Nat) : (s.wr x v).mesh = s.mesh := (rfl)
@[simp] theorem State.wr_mbx (x : Fld) (v : Nat) : (s.wr x v).mbx = s.mbx := (rfl)
@[simp] theorem State.wr_cals (x : Fld) (v : Nat) : (s.wr x v).cals = s.cals := (rfl)
@[simp] theorem State.wr_pow (x : Fld) (v : Nat) : (s.wr x v).pow = s.pow := (rfl)
@[simp] theorem State.wr_mon (x : Fld) (v : Nat) : (s.wr x v).mon = s.mon := (rfl)
@[simp] theorem State.wr_upd (x : Fld) (v : Nat) : (s.wr x v).upd = s.upd := (rfl)
@[simp] theorem State.wr_tap (x : Fld) (v : Nat) : (s.wr x v).tap = s.tap := (rfl)
@[simp] theorem State.wr_frond (x : Fld) (v : Nat) (k : Nat) : (s.wr x v).frond k = s.frond k := (rfl)
@[simp] theorem State.wr_ep (x : Fld) (v : Nat) (k : Nat) : (s.wr x v).ep k = s.ep k := (rfl)
@[simp] theorem State.wr_port (x : Fld) (v : Nat) (k : Nat) : (s.wr x v).port k = s.port k := (rfl)
@[simp] theorem State.wr_sa (x : Fld) (v : Nat) (k : Nat) : (s.wr x v).sa k = s.sa k := (rfl)
@[simp] theorem State.wr_frondEnabled (x : Fld) (v : Nat) (k : Nat) : (s.wr x v).frondEnabled k = s.frondEnabled k := (rfl)
@[simp] theorem State.wr_fnState (x : Fld) (v : Nat) (k : Nat) : (s.wr x v).fnState k = s.fnState k := (rfl)

@[simp] theorem State.wrS_pending (x : Fld) (v : Int) : (s.wrS x v).pending = s.pending := (rfl)
@[simp] theorem State.wrS_tick (x : Fld) (v : Int) : (s.wrS x v).tick = s.tick := (rfl)
@[simp] theorem State.wrS_latches (x : Fld) (v : Int) : (s.wrS x v).latches = s.latches := (rfl)
@[simp] theorem State.wrS_wtq (x : Fld) (v : Int) : (s.wrS x v).wtq = s.wtq := (rfl)
@[simp] theorem State.wrS_freeCtr (x : Fld) (v : Int) : (s.wrS x v).freeCtr = s.freeCtr := (rfl)
@[simp] theorem State.wrS_out (x : Fld) (v : Int) : (s.wrS x v).out = s.out := (rfl)
@[simp] theorem State.wrS_fuse (x : Fld) (v : Int) : (s.wrS x v).fuse = s.fuse := (rfl)
@[simp] theorem State.wrS_boot (x : Fld) (v : Int) : (s.wrS x v).boot = s.boot := (rfl)
@[simp] theorem State.wrS_host (x : Fld) (v : Int) : (s.wrS x v).host = s.host := (rfl)
@[simp] theorem State.wrS_flt (x : Fld) (v : Int) : (s.wrS x v).flt = s.flt := (rfl)
@[simp] theorem State.wrS_fronds (x : Fld) (v : Int) : (s.wrS x v).fronds = s.fronds := (rfl)
@[simp] theorem State.wrS_eps (x : Fld) (v : Int) : (s.wrS x v).eps = s.eps := (rfl)
@[simp] theorem State.wrS_slotOwner (x : Fld) (v : Int) : (s.wrS x v).slotOwner = s.slotOwner := (rfl)
@[simp] theorem State.wrS_ports (x : Fld) (v : Int) : (s.wrS x v).ports = s.ports := (rfl)
@[simp] theorem State.wrS_sas (x : Fld) (v : Int) : (s.wrS x v).sas = s.sas := (rfl)
@[simp] theorem State.wrS_sec (x : Fld) (v : Int) : (s.wrS x v).sec = s.sec := (rfl)
@[simp] theorem State.wrS_pm (x : Fld) (v : Int) : (s.wrS x v).pm = s.pm := (rfl)
@[simp] theorem State.wrS_xcFrozen (x : Fld) (v : Int) : (s.wrS x v).xcFrozen = s.xcFrozen := (rfl)
@[simp] theorem State.wrS_peat (x : Fld) (v : Int) : (s.wrS x v).peat = s.peat := (rfl)
@[simp] theorem State.wrS_mem (x : Fld) (v : Int) : (s.wrS x v).mem = s.mem := (rfl)
@[simp] theorem State.wrS_tim (x : Fld) (v : Int) : (s.wrS x v).tim = s.tim := (rfl)
@[simp] theorem State.wrS_mesh (x : Fld) (v : Int) : (s.wrS x v).mesh = s.mesh := (rfl)
@[simp] theorem State.wrS_mbx (x : Fld) (v : Int) : (s.wrS x v).mbx = s.mbx := (rfl)
@[simp] theorem State.wrS_cals (x : Fld) (v : Int) : (s.wrS x v).cals = s.cals := (rfl)
@[simp] theorem State.wrS_pow (x : Fld) (v : Int) : (s.wrS x v).pow = s.pow := (rfl)
@[simp] theorem State.wrS_mon (x : Fld) (v : Int) : (s.wrS x v).mon = s.mon := (rfl)
@[simp] theorem State.wrS_upd (x : Fld) (v : Int) : (s.wrS x v).upd = s.upd := (rfl)
@[simp] theorem State.wrS_tap (x : Fld) (v : Int) : (s.wrS x v).tap = s.tap := (rfl)
@[simp] theorem State.wrS_frond (x : Fld) (v : Int) (k : Nat) : (s.wrS x v).frond k = s.frond k := (rfl)
@[simp] theorem State.wrS_ep (x : Fld) (v : Int) (k : Nat) : (s.wrS x v).ep k = s.ep k := (rfl)
@[simp] theorem State.wrS_port (x : Fld) (v : Int) (k : Nat) : (s.wrS x v).port k = s.port k := (rfl)
@[simp] theorem State.wrS_sa (x : Fld) (v : Int) (k : Nat) : (s.wrS x v).sa k = s.sa k := (rfl)
@[simp] theorem State.wrS_frondEnabled (x : Fld) (v : Int) (k : Nat) : (s.wrS x v).frondEnabled k = s.frondEnabled k := (rfl)
@[simp] theorem State.wrS_fnState (x : Fld) (v : Int) (k : Nat) : (s.wrS x v).fnState k = s.fnState k := (rfl)

@[simp] theorem State.wrB_pending (x : Fld) (v : Bool) : (s.wrB x v).pending = s.pending := (rfl)
@[simp] theorem State.wrB_tick (x : Fld) (v : Bool) : (s.wrB x v).tick = s.tick := (rfl)
@[simp] theorem State.wrB_latches (x : Fld) (v : Bool) : (s.wrB x v).latches = s.latches := (rfl)
@[simp] theorem State.wrB_wtq (x : Fld) (v : Bool) : (s.wrB x v).wtq = s.wtq := (rfl)
@[simp] theorem State.wrB_freeCtr (x : Fld) (v : Bool) : (s.wrB x v).freeCtr = s.freeCtr := (rfl)
@[simp] theorem State.wrB_out (x : Fld) (v : Bool) : (s.wrB x v).out = s.out := (rfl)
@[simp] theorem State.wrB_fuse (x : Fld) (v : Bool) : (s.wrB x v).fuse = s.fuse := (rfl)
@[simp] theorem State.wrB_boot (x : Fld) (v : Bool) : (s.wrB x v).boot = s.boot := (rfl)
@[simp] theorem State.wrB_host (x : Fld) (v : Bool) : (s.wrB x v).host = s.host := (rfl)
@[simp] theorem State.wrB_flt (x : Fld) (v : Bool) : (s.wrB x v).flt = s.flt := (rfl)
@[simp] theorem State.wrB_fronds (x : Fld) (v : Bool) : (s.wrB x v).fronds = s.fronds := (rfl)
@[simp] theorem State.wrB_eps (x : Fld) (v : Bool) : (s.wrB x v).eps = s.eps := (rfl)
@[simp] theorem State.wrB_slotOwner (x : Fld) (v : Bool) : (s.wrB x v).slotOwner = s.slotOwner := (rfl)
@[simp] theorem State.wrB_ports (x : Fld) (v : Bool) : (s.wrB x v).ports = s.ports := (rfl)
@[simp] theorem State.wrB_sas (x : Fld) (v : Bool) : (s.wrB x v).sas = s.sas := (rfl)
@[simp] theorem State.wrB_sec (x : Fld) (v : Bool) : (s.wrB x v).sec = s.sec := (rfl)
@[simp] theorem State.wrB_pm (x : Fld) (v : Bool) : (s.wrB x v).pm = s.pm := (rfl)
@[simp] theorem State.wrB_xcFrozen (x : Fld) (v : Bool) : (s.wrB x v).xcFrozen = s.xcFrozen := (rfl)
@[simp] theorem State.wrB_peat (x : Fld) (v : Bool) : (s.wrB x v).peat = s.peat := (rfl)
@[simp] theorem State.wrB_mem (x : Fld) (v : Bool) : (s.wrB x v).mem = s.mem := (rfl)
@[simp] theorem State.wrB_tim (x : Fld) (v : Bool) : (s.wrB x v).tim = s.tim := (rfl)
@[simp] theorem State.wrB_mesh (x : Fld) (v : Bool) : (s.wrB x v).mesh = s.mesh := (rfl)
@[simp] theorem State.wrB_mbx (x : Fld) (v : Bool) : (s.wrB x v).mbx = s.mbx := (rfl)
@[simp] theorem State.wrB_cals (x : Fld) (v : Bool) : (s.wrB x v).cals = s.cals := (rfl)
@[simp] theorem State.wrB_pow (x : Fld) (v : Bool) : (s.wrB x v).pow = s.pow := (rfl)
@[simp] theorem State.wrB_mon (x : Fld) (v : Bool) : (s.wrB x v).mon = s.mon := (rfl)
@[simp] theorem State.wrB_upd (x : Fld) (v : Bool) : (s.wrB x v).upd = s.upd := (rfl)
@[simp] theorem State.wrB_tap (x : Fld) (v : Bool) : (s.wrB x v).tap = s.tap := (rfl)
@[simp] theorem State.wrB_frond (x : Fld) (v : Bool) (k : Nat) : (s.wrB x v).frond k = s.frond k := (rfl)
@[simp] theorem State.wrB_ep (x : Fld) (v : Bool) (k : Nat) : (s.wrB x v).ep k = s.ep k := (rfl)
@[simp] theorem State.wrB_port (x : Fld) (v : Bool) (k : Nat) : (s.wrB x v).port k = s.port k := (rfl)
@[simp] theorem State.wrB_sa (x : Fld) (v : Bool) (k : Nat) : (s.wrB x v).sa k = s.sa k := (rfl)
@[simp] theorem State.wrB_frondEnabled (x : Fld) (v : Bool) (k : Nat) : (s.wrB x v).frondEnabled k = s.frondEnabled k := (rfl)
@[simp] theorem State.wrB_fnState (x : Fld) (v : Bool) (k : Nat) : (s.wrB x v).fnState k = s.fnState k := (rfl)

@[simp] theorem State.setBits_pending (x : Fld) (v : Nat) : (s.setBits x v).pending = s.pending := (rfl)
@[simp] theorem State.setBits_tick (x : Fld) (v : Nat) : (s.setBits x v).tick = s.tick := (rfl)
@[simp] theorem State.setBits_latches (x : Fld) (v : Nat) : (s.setBits x v).latches = s.latches := (rfl)
@[simp] theorem State.setBits_wtq (x : Fld) (v : Nat) : (s.setBits x v).wtq = s.wtq := (rfl)
@[simp] theorem State.setBits_freeCtr (x : Fld) (v : Nat) : (s.setBits x v).freeCtr = s.freeCtr := (rfl)
@[simp] theorem State.setBits_out (x : Fld) (v : Nat) : (s.setBits x v).out = s.out := (rfl)
@[simp] theorem State.setBits_fuse (x : Fld) (v : Nat) : (s.setBits x v).fuse = s.fuse := (rfl)
@[simp] theorem State.setBits_boot (x : Fld) (v : Nat) : (s.setBits x v).boot = s.boot := (rfl)
@[simp] theorem State.setBits_host (x : Fld) (v : Nat) : (s.setBits x v).host = s.host := (rfl)
@[simp] theorem State.setBits_flt (x : Fld) (v : Nat) : (s.setBits x v).flt = s.flt := (rfl)
@[simp] theorem State.setBits_fronds (x : Fld) (v : Nat) : (s.setBits x v).fronds = s.fronds := (rfl)
@[simp] theorem State.setBits_eps (x : Fld) (v : Nat) : (s.setBits x v).eps = s.eps := (rfl)
@[simp] theorem State.setBits_slotOwner (x : Fld) (v : Nat) : (s.setBits x v).slotOwner = s.slotOwner := (rfl)
@[simp] theorem State.setBits_ports (x : Fld) (v : Nat) : (s.setBits x v).ports = s.ports := (rfl)
@[simp] theorem State.setBits_sas (x : Fld) (v : Nat) : (s.setBits x v).sas = s.sas := (rfl)
@[simp] theorem State.setBits_sec (x : Fld) (v : Nat) : (s.setBits x v).sec = s.sec := (rfl)
@[simp] theorem State.setBits_pm (x : Fld) (v : Nat) : (s.setBits x v).pm = s.pm := (rfl)
@[simp] theorem State.setBits_xcFrozen (x : Fld) (v : Nat) : (s.setBits x v).xcFrozen = s.xcFrozen := (rfl)
@[simp] theorem State.setBits_peat (x : Fld) (v : Nat) : (s.setBits x v).peat = s.peat := (rfl)
@[simp] theorem State.setBits_mem (x : Fld) (v : Nat) : (s.setBits x v).mem = s.mem := (rfl)
@[simp] theorem State.setBits_tim (x : Fld) (v : Nat) : (s.setBits x v).tim = s.tim := (rfl)
@[simp] theorem State.setBits_mesh (x : Fld) (v : Nat) : (s.setBits x v).mesh = s.mesh := (rfl)
@[simp] theorem State.setBits_mbx (x : Fld) (v : Nat) : (s.setBits x v).mbx = s.mbx := (rfl)
@[simp] theorem State.setBits_cals (x : Fld) (v : Nat) : (s.setBits x v).cals = s.cals := (rfl)
@[simp] theorem State.setBits_pow (x : Fld) (v : Nat) : (s.setBits x v).pow = s.pow := (rfl)
@[simp] theorem State.setBits_mon (x : Fld) (v : Nat) : (s.setBits x v).mon = s.mon := (rfl)
@[simp] theorem State.setBits_upd (x : Fld) (v : Nat) : (s.setBits x v).upd = s.upd := (rfl)
@[simp] theorem State.setBits_tap (x : Fld) (v : Nat) : (s.setBits x v).tap = s.tap := (rfl)
@[simp] theorem State.setBits_frond (x : Fld) (v : Nat) (k : Nat) : (s.setBits x v).frond k = s.frond k := (rfl)
@[simp] theorem State.setBits_ep (x : Fld) (v : Nat) (k : Nat) : (s.setBits x v).ep k = s.ep k := (rfl)
@[simp] theorem State.setBits_port (x : Fld) (v : Nat) (k : Nat) : (s.setBits x v).port k = s.port k := (rfl)
@[simp] theorem State.setBits_sa (x : Fld) (v : Nat) (k : Nat) : (s.setBits x v).sa k = s.sa k := (rfl)
@[simp] theorem State.setBits_frondEnabled (x : Fld) (v : Nat) (k : Nat) : (s.setBits x v).frondEnabled k = s.frondEnabled k := (rfl)
@[simp] theorem State.setBits_fnState (x : Fld) (v : Nat) (k : Nat) : (s.setBits x v).fnState k = s.fnState k := (rfl)

@[simp] theorem State.bump_pending (x : Fld) (v : Nat) : (s.bump x v).pending = s.pending := (rfl)
@[simp] theorem State.bump_tick (x : Fld) (v : Nat) : (s.bump x v).tick = s.tick := (rfl)
@[simp] theorem State.bump_latches (x : Fld) (v : Nat) : (s.bump x v).latches = s.latches := (rfl)
@[simp] theorem State.bump_wtq (x : Fld) (v : Nat) : (s.bump x v).wtq = s.wtq := (rfl)
@[simp] theorem State.bump_freeCtr (x : Fld) (v : Nat) : (s.bump x v).freeCtr = s.freeCtr := (rfl)
@[simp] theorem State.bump_out (x : Fld) (v : Nat) : (s.bump x v).out = s.out := (rfl)
@[simp] theorem State.bump_fuse (x : Fld) (v : Nat) : (s.bump x v).fuse = s.fuse := (rfl)
@[simp] theorem State.bump_boot (x : Fld) (v : Nat) : (s.bump x v).boot = s.boot := (rfl)
@[simp] theorem State.bump_host (x : Fld) (v : Nat) : (s.bump x v).host = s.host := (rfl)
@[simp] theorem State.bump_flt (x : Fld) (v : Nat) : (s.bump x v).flt = s.flt := (rfl)
@[simp] theorem State.bump_fronds (x : Fld) (v : Nat) : (s.bump x v).fronds = s.fronds := (rfl)
@[simp] theorem State.bump_eps (x : Fld) (v : Nat) : (s.bump x v).eps = s.eps := (rfl)
@[simp] theorem State.bump_slotOwner (x : Fld) (v : Nat) : (s.bump x v).slotOwner = s.slotOwner := (rfl)
@[simp] theorem State.bump_ports (x : Fld) (v : Nat) : (s.bump x v).ports = s.ports := (rfl)
@[simp] theorem State.bump_sas (x : Fld) (v : Nat) : (s.bump x v).sas = s.sas := (rfl)
@[simp] theorem State.bump_sec (x : Fld) (v : Nat) : (s.bump x v).sec = s.sec := (rfl)
@[simp] theorem State.bump_pm (x : Fld) (v : Nat) : (s.bump x v).pm = s.pm := (rfl)
@[simp] theorem State.bump_xcFrozen (x : Fld) (v : Nat) : (s.bump x v).xcFrozen = s.xcFrozen := (rfl)
@[simp] theorem State.bump_peat (x : Fld) (v : Nat) : (s.bump x v).peat = s.peat := (rfl)
@[simp] theorem State.bump_mem (x : Fld) (v : Nat) : (s.bump x v).mem = s.mem := (rfl)
@[simp] theorem State.bump_tim (x : Fld) (v : Nat) : (s.bump x v).tim = s.tim := (rfl)
@[simp] theorem State.bump_mesh (x : Fld) (v : Nat) : (s.bump x v).mesh = s.mesh := (rfl)
@[simp] theorem State.bump_mbx (x : Fld) (v : Nat) : (s.bump x v).mbx = s.mbx := (rfl)
@[simp] theorem State.bump_cals (x : Fld) (v : Nat) : (s.bump x v).cals = s.cals := (rfl)
@[simp] theorem State.bump_pow (x : Fld) (v : Nat) : (s.bump x v).pow = s.pow := (rfl)
@[simp] theorem State.bump_mon (x : Fld) (v : Nat) : (s.bump x v).mon = s.mon := (rfl)
@[simp] theorem State.bump_upd (x : Fld) (v : Nat) : (s.bump x v).upd = s.upd := (rfl)
@[simp] theorem State.bump_tap (x : Fld) (v : Nat) : (s.bump x v).tap = s.tap := (rfl)
@[simp] theorem State.bump_frond (x : Fld) (v : Nat) (k : Nat) : (s.bump x v).frond k = s.frond k := (rfl)
@[simp] theorem State.bump_ep (x : Fld) (v : Nat) (k : Nat) : (s.bump x v).ep k = s.ep k := (rfl)
@[simp] theorem State.bump_port (x : Fld) (v : Nat) (k : Nat) : (s.bump x v).port k = s.port k := (rfl)
@[simp] theorem State.bump_sa (x : Fld) (v : Nat) (k : Nat) : (s.bump x v).sa k = s.sa k := (rfl)
@[simp] theorem State.bump_frondEnabled (x : Fld) (v : Nat) (k : Nat) : (s.bump x v).frondEnabled k = s.frondEnabled k := (rfl)
@[simp] theorem State.bump_fnState (x : Fld) (v : Nat) (k : Nat) : (s.bump x v).fnState k = s.fnState k := (rfl)

@[simp] theorem State.emit_pending (o : Output) : (s.emit o).pending = s.pending := (rfl)
@[simp] theorem State.emit_tick (o : Output) : (s.emit o).tick = s.tick := (rfl)
@[simp] theorem State.emit_regs (o : Output) : (s.emit o).regs = s.regs := (rfl)
@[simp] theorem State.emit_latches (o : Output) : (s.emit o).latches = s.latches := (rfl)
@[simp] theorem State.emit_wtq (o : Output) : (s.emit o).wtq = s.wtq := (rfl)
@[simp] theorem State.emit_freeCtr (o : Output) : (s.emit o).freeCtr = s.freeCtr := (rfl)
@[simp] theorem State.emit_fuse (o : Output) : (s.emit o).fuse = s.fuse := (rfl)
@[simp] theorem State.emit_boot (o : Output) : (s.emit o).boot = s.boot := (rfl)
@[simp] theorem State.emit_host (o : Output) : (s.emit o).host = s.host := (rfl)
@[simp] theorem State.emit_flt (o : Output) : (s.emit o).flt = s.flt := (rfl)
@[simp] theorem State.emit_fronds (o : Output) : (s.emit o).fronds = s.fronds := (rfl)
@[simp] theorem State.emit_eps (o : Output) : (s.emit o).eps = s.eps := (rfl)
@[simp] theorem State.emit_slotOwner (o : Output) : (s.emit o).slotOwner = s.slotOwner := (rfl)
@[simp] theorem State.emit_ports (o : Output) : (s.emit o).ports = s.ports := (rfl)
@[simp] theorem State.emit_sas (o : Output) : (s.emit o).sas = s.sas := (rfl)
@[simp] theorem State.emit_sec (o : Output) : (s.emit o).sec = s.sec := (rfl)
@[simp] theorem State.emit_pm (o : Output) : (s.emit o).pm = s.pm := (rfl)
@[simp] theorem State.emit_xcFrozen (o : Output) : (s.emit o).xcFrozen = s.xcFrozen := (rfl)
@[simp] theorem State.emit_peat (o : Output) : (s.emit o).peat = s.peat := (rfl)
@[simp] theorem State.emit_mem (o : Output) : (s.emit o).mem = s.mem := (rfl)
@[simp] theorem State.emit_tim (o : Output) : (s.emit o).tim = s.tim := (rfl)
@[simp] theorem State.emit_mesh (o : Output) : (s.emit o).mesh = s.mesh := (rfl)
@[simp] theorem State.emit_mbx (o : Output) : (s.emit o).mbx = s.mbx := (rfl)
@[simp] theorem State.emit_cals (o : Output) : (s.emit o).cals = s.cals := (rfl)
@[simp] theorem State.emit_pow (o : Output) : (s.emit o).pow = s.pow := (rfl)
@[simp] theorem State.emit_mon (o : Output) : (s.emit o).mon = s.mon := (rfl)
@[simp] theorem State.emit_upd (o : Output) : (s.emit o).upd = s.upd := (rfl)
@[simp] theorem State.emit_tap (o : Output) : (s.emit o).tap = s.tap := (rfl)
@[simp] theorem State.emit_out (o : Output) : (s.emit o).out = s.out ++ [o] := (rfl)
@[simp] theorem State.emit_reg (o : Output) (k : Nat) : (s.emit o).reg k = s.reg k := (rfl)
@[simp] theorem State.emit_rd (o : Output) (k : Fld) : (s.emit o).rd k = s.rd k := (rfl)
@[simp] theorem State.emit_flag (o : Output) (k : Fld) : (s.emit o).flag k = s.flag k := (rfl)
@[simp] theorem State.emit_frond (o : Output) (k : Nat) : (s.emit o).frond k = s.frond k := (rfl)
@[simp] theorem State.emit_ep (o : Output) (k : Nat) : (s.emit o).ep k = s.ep k := (rfl)
@[simp] theorem State.emit_port (o : Output) (k : Nat) : (s.emit o).port k = s.port k := (rfl)
@[simp] theorem State.emit_sa (o : Output) (k : Nat) : (s.emit o).sa k = s.sa k := (rfl)
@[simp] theorem State.emit_frondEnabled (o : Output) (k : Nat) : (s.emit o).frondEnabled k = s.frondEnabled k := (rfl)
@[simp] theorem State.emit_rdS (o : Output) (k : Fld) : (s.emit o).rdS k = s.rdS k := (rfl)
@[simp] theorem State.emit_acqState (o : Output) (k : Nat) : (s.emit o).acqState k = s.acqState k := (rfl)
@[simp] theorem State.emit_pState (o : Output) (k : Nat) : (s.emit o).pState k = s.pState k := (rfl)
@[simp] theorem State.emit_fnState (o : Output) (k : Nat) : (s.emit o).fnState k = s.fnState k := (rfl)
@[simp] theorem State.emit_running (o : Output)  : (s.emit o).running = s.running := (rfl)

@[simp] theorem State.raise_pending (c o : Nat) (l : List EVal) : (s.raise c o l).pending = s.pending := (rfl)
@[simp] theorem State.raise_tick (c o : Nat) (l : List EVal) : (s.raise c o l).tick = s.tick := (rfl)
@[simp] theorem State.raise_regs (c o : Nat) (l : List EVal) : (s.raise c o l).regs = s.regs := (rfl)
@[simp] theorem State.raise_latches (c o : Nat) (l : List EVal) : (s.raise c o l).latches = s.latches := (rfl)
@[simp] theorem State.raise_wtq (c o : Nat) (l : List EVal) : (s.raise c o l).wtq = s.wtq := (rfl)
@[simp] theorem State.raise_freeCtr (c o : Nat) (l : List EVal) : (s.raise c o l).freeCtr = s.freeCtr := (rfl)
@[simp] theorem State.raise_out (c o : Nat) (l : List EVal) : (s.raise c o l).out = s.out := (rfl)
@[simp] theorem State.raise_fuse (c o : Nat) (l : List EVal) : (s.raise c o l).fuse = s.fuse := (rfl)
@[simp] theorem State.raise_boot (c o : Nat) (l : List EVal) : (s.raise c o l).boot = s.boot := (rfl)
@[simp] theorem State.raise_flt (c o : Nat) (l : List EVal) : (s.raise c o l).flt = s.flt := (rfl)
@[simp] theorem State.raise_fronds (c o : Nat) (l : List EVal) : (s.raise c o l).fronds = s.fronds := (rfl)
@[simp] theorem State.raise_eps (c o : Nat) (l : List EVal) : (s.raise c o l).eps = s.eps := (rfl)
@[simp] theorem State.raise_slotOwner (c o : Nat) (l : List EVal) : (s.raise c o l).slotOwner = s.slotOwner := (rfl)
@[simp] theorem State.raise_ports (c o : Nat) (l : List EVal) : (s.raise c o l).ports = s.ports := (rfl)
@[simp] theorem State.raise_sas (c o : Nat) (l : List EVal) : (s.raise c o l).sas = s.sas := (rfl)
@[simp] theorem State.raise_sec (c o : Nat) (l : List EVal) : (s.raise c o l).sec = s.sec := (rfl)
@[simp] theorem State.raise_pm (c o : Nat) (l : List EVal) : (s.raise c o l).pm = s.pm := (rfl)
@[simp] theorem State.raise_xcFrozen (c o : Nat) (l : List EVal) : (s.raise c o l).xcFrozen = s.xcFrozen := (rfl)
@[simp] theorem State.raise_peat (c o : Nat) (l : List EVal) : (s.raise c o l).peat = s.peat := (rfl)
@[simp] theorem State.raise_mem (c o : Nat) (l : List EVal) : (s.raise c o l).mem = s.mem := (rfl)
@[simp] theorem State.raise_tim (c o : Nat) (l : List EVal) : (s.raise c o l).tim = s.tim := (rfl)
@[simp] theorem State.raise_mesh (c o : Nat) (l : List EVal) : (s.raise c o l).mesh = s.mesh := (rfl)
@[simp] theorem State.raise_mbx (c o : Nat) (l : List EVal) : (s.raise c o l).mbx = s.mbx := (rfl)
@[simp] theorem State.raise_cals (c o : Nat) (l : List EVal) : (s.raise c o l).cals = s.cals := (rfl)
@[simp] theorem State.raise_pow (c o : Nat) (l : List EVal) : (s.raise c o l).pow = s.pow := (rfl)
@[simp] theorem State.raise_mon (c o : Nat) (l : List EVal) : (s.raise c o l).mon = s.mon := (rfl)
@[simp] theorem State.raise_upd (c o : Nat) (l : List EVal) : (s.raise c o l).upd = s.upd := (rfl)
@[simp] theorem State.raise_tap (c o : Nat) (l : List EVal) : (s.raise c o l).tap = s.tap := (rfl)
@[simp] theorem State.raise_host (c o : Nat) (l : List EVal) : (s.raise c o l).host = { s.host with events := s.host.events ++ [{ code := c, obj := o, tick := s.tick, vals := l }] } := (rfl)
@[simp] theorem State.raise_reg (c o : Nat) (l : List EVal) (k : Nat) : (s.raise c o l).reg k = s.reg k := (rfl)
@[simp] theorem State.raise_rd (c o : Nat) (l : List EVal) (k : Fld) : (s.raise c o l).rd k = s.rd k := (rfl)
@[simp] theorem State.raise_flag (c o : Nat) (l : List EVal) (k : Fld) : (s.raise c o l).flag k = s.flag k := (rfl)
@[simp] theorem State.raise_frond (c o : Nat) (l : List EVal) (k : Nat) : (s.raise c o l).frond k = s.frond k := (rfl)
@[simp] theorem State.raise_ep (c o : Nat) (l : List EVal) (k : Nat) : (s.raise c o l).ep k = s.ep k := (rfl)
@[simp] theorem State.raise_port (c o : Nat) (l : List EVal) (k : Nat) : (s.raise c o l).port k = s.port k := (rfl)
@[simp] theorem State.raise_sa (c o : Nat) (l : List EVal) (k : Nat) : (s.raise c o l).sa k = s.sa k := (rfl)
@[simp] theorem State.raise_frondEnabled (c o : Nat) (l : List EVal) (k : Nat) : (s.raise c o l).frondEnabled k = s.frondEnabled k := (rfl)
@[simp] theorem State.raise_rdS (c o : Nat) (l : List EVal) (k : Fld) : (s.raise c o l).rdS k = s.rdS k := (rfl)
@[simp] theorem State.raise_acqState (c o : Nat) (l : List EVal) (k : Nat) : (s.raise c o l).acqState k = s.acqState k := (rfl)
@[simp] theorem State.raise_pState (c o : Nat) (l : List EVal) (k : Nat) : (s.raise c o l).pState k = s.pState k := (rfl)
@[simp] theorem State.raise_running (c o : Nat) (l : List EVal)  : (s.raise c o l).running = s.running := (rfl)

@[simp] theorem State.raiseFor_pending (n c o : Nat) (l : List EVal) : (s.raiseFor n c o l).pending = s.pending := (rfl)
@[simp] theorem State.raiseFor_tick (n c o : Nat) (l : List EVal) : (s.raiseFor n c o l).tick = s.tick := (rfl)
@[simp] theorem State.raiseFor_regs (n c o : Nat) (l : List EVal) : (s.raiseFor n c o l).regs = s.regs := (rfl)
@[simp] theorem State.raiseFor_latches (n c o : Nat) (l : List EVal) : (s.raiseFor n c o l).latches = s.latches := (rfl)
@[simp] theorem State.raiseFor_wtq (n c o : Nat) (l : List EVal) : (s.raiseFor n c o l).wtq = s.wtq := (rfl)
@[simp] theorem State.raiseFor_freeCtr (n c o : Nat) (l : List EVal) : (s.raiseFor n c o l).freeCtr = s.freeCtr := (rfl)
@[simp] theorem State.raiseFor_out (n c o : Nat) (l : List EVal) : (s.raiseFor n c o l).out = s.out := (rfl)
@[simp] theorem State.raiseFor_fuse (n c o : Nat) (l : List EVal) : (s.raiseFor n c o l).fuse = s.fuse := (rfl)
@[simp] theorem State.raiseFor_boot (n c o : Nat) (l : List EVal) : (s.raiseFor n c o l).boot = s.boot := (rfl)
@[simp] theorem State.raiseFor_flt (n c o : Nat) (l : List EVal) : (s.raiseFor n c o l).flt = s.flt := (rfl)
@[simp] theorem State.raiseFor_fronds (n c o : Nat) (l : List EVal) : (s.raiseFor n c o l).fronds = s.fronds := (rfl)
@[simp] theorem State.raiseFor_eps (n c o : Nat) (l : List EVal) : (s.raiseFor n c o l).eps = s.eps := (rfl)
@[simp] theorem State.raiseFor_slotOwner (n c o : Nat) (l : List EVal) : (s.raiseFor n c o l).slotOwner = s.slotOwner := (rfl)
@[simp] theorem State.raiseFor_ports (n c o : Nat) (l : List EVal) : (s.raiseFor n c o l).ports = s.ports := (rfl)
@[simp] theorem State.raiseFor_sas (n c o : Nat) (l : List EVal) : (s.raiseFor n c o l).sas = s.sas := (rfl)
@[simp] theorem State.raiseFor_sec (n c o : Nat) (l : List EVal) : (s.raiseFor n c o l).sec = s.sec := (rfl)
@[simp] theorem State.raiseFor_pm (n c o : Nat) (l : List EVal) : (s.raiseFor n c o l).pm = s.pm := (rfl)
@[simp] theorem State.raiseFor_xcFrozen (n c o : Nat) (l : List EVal) : (s.raiseFor n c o l).xcFrozen = s.xcFrozen := (rfl)
@[simp] theorem State.raiseFor_peat (n c o : Nat) (l : List EVal) : (s.raiseFor n c o l).peat = s.peat := (rfl)
@[simp] theorem State.raiseFor_mem (n c o : Nat) (l : List EVal) : (s.raiseFor n c o l).mem = s.mem := (rfl)
@[simp] theorem State.raiseFor_tim (n c o : Nat) (l : List EVal) : (s.raiseFor n c o l).tim = s.tim := (rfl)
@[simp] theorem State.raiseFor_mesh (n c o : Nat) (l : List EVal) : (s.raiseFor n c o l).mesh = s.mesh := (rfl)
@[simp] theorem State.raiseFor_mbx (n c o : Nat) (l : List EVal) : (s.raiseFor n c o l).mbx = s.mbx := (rfl)
@[simp] theorem State.raiseFor_cals (n c o : Nat) (l : List EVal) : (s.raiseFor n c o l).cals = s.cals := (rfl)
@[simp] theorem State.raiseFor_pow (n c o : Nat) (l : List EVal) : (s.raiseFor n c o l).pow = s.pow := (rfl)
@[simp] theorem State.raiseFor_mon (n c o : Nat) (l : List EVal) : (s.raiseFor n c o l).mon = s.mon := (rfl)
@[simp] theorem State.raiseFor_upd (n c o : Nat) (l : List EVal) : (s.raiseFor n c o l).upd = s.upd := (rfl)
@[simp] theorem State.raiseFor_tap (n c o : Nat) (l : List EVal) : (s.raiseFor n c o l).tap = s.tap := (rfl)
@[simp] theorem State.raiseFor_host (n c o : Nat) (l : List EVal) : (s.raiseFor n c o l).host = { s.host with events := s.host.events ++ [{ code := c, obj := o, tick := s.tick, tenant := n, dest := .tenants [n], vals := l }] } := (rfl)
@[simp] theorem State.raiseFor_reg (n c o : Nat) (l : List EVal) (k : Nat) : (s.raiseFor n c o l).reg k = s.reg k := (rfl)
@[simp] theorem State.raiseFor_rd (n c o : Nat) (l : List EVal) (k : Fld) : (s.raiseFor n c o l).rd k = s.rd k := (rfl)
@[simp] theorem State.raiseFor_flag (n c o : Nat) (l : List EVal) (k : Fld) : (s.raiseFor n c o l).flag k = s.flag k := (rfl)
@[simp] theorem State.raiseFor_frond (n c o : Nat) (l : List EVal) (k : Nat) : (s.raiseFor n c o l).frond k = s.frond k := (rfl)
@[simp] theorem State.raiseFor_ep (n c o : Nat) (l : List EVal) (k : Nat) : (s.raiseFor n c o l).ep k = s.ep k := (rfl)
@[simp] theorem State.raiseFor_port (n c o : Nat) (l : List EVal) (k : Nat) : (s.raiseFor n c o l).port k = s.port k := (rfl)
@[simp] theorem State.raiseFor_sa (n c o : Nat) (l : List EVal) (k : Nat) : (s.raiseFor n c o l).sa k = s.sa k := (rfl)
@[simp] theorem State.raiseFor_frondEnabled (n c o : Nat) (l : List EVal) (k : Nat) : (s.raiseFor n c o l).frondEnabled k = s.frondEnabled k := (rfl)
@[simp] theorem State.raiseFor_rdS (n c o : Nat) (l : List EVal) (k : Fld) : (s.raiseFor n c o l).rdS k = s.rdS k := (rfl)
@[simp] theorem State.raiseFor_acqState (n c o : Nat) (l : List EVal) (k : Nat) : (s.raiseFor n c o l).acqState k = s.acqState k := (rfl)
@[simp] theorem State.raiseFor_pState (n c o : Nat) (l : List EVal) (k : Nat) : (s.raiseFor n c o l).pState k = s.pState k := (rfl)
@[simp] theorem State.raiseFor_running (n c o : Nat) (l : List EVal)  : (s.raiseFor n c o l).running = s.running := (rfl)

@[simp] theorem State.raiseEv_pending (e : Event) : (s.raiseEv e).pending = s.pending := (rfl)
@[simp] theorem State.raiseEv_tick (e : Event) : (s.raiseEv e).tick = s.tick := (rfl)
@[simp] theorem State.raiseEv_regs (e : Event) : (s.raiseEv e).regs = s.regs := (rfl)
@[simp] theorem State.raiseEv_latches (e : Event) : (s.raiseEv e).latches = s.latches := (rfl)
@[simp] theorem State.raiseEv_wtq (e : Event) : (s.raiseEv e).wtq = s.wtq := (rfl)
@[simp] theorem State.raiseEv_freeCtr (e : Event) : (s.raiseEv e).freeCtr = s.freeCtr := (rfl)
@[simp] theorem State.raiseEv_out (e : Event) : (s.raiseEv e).out = s.out := (rfl)
@[simp] theorem State.raiseEv_fuse (e : Event) : (s.raiseEv e).fuse = s.fuse := (rfl)
@[simp] theorem State.raiseEv_boot (e : Event) : (s.raiseEv e).boot = s.boot := (rfl)
@[simp] theorem State.raiseEv_flt (e : Event) : (s.raiseEv e).flt = s.flt := (rfl)
@[simp] theorem State.raiseEv_fronds (e : Event) : (s.raiseEv e).fronds = s.fronds := (rfl)
@[simp] theorem State.raiseEv_eps (e : Event) : (s.raiseEv e).eps = s.eps := (rfl)
@[simp] theorem State.raiseEv_slotOwner (e : Event) : (s.raiseEv e).slotOwner = s.slotOwner := (rfl)
@[simp] theorem State.raiseEv_ports (e : Event) : (s.raiseEv e).ports = s.ports := (rfl)
@[simp] theorem State.raiseEv_sas (e : Event) : (s.raiseEv e).sas = s.sas := (rfl)
@[simp] theorem State.raiseEv_sec (e : Event) : (s.raiseEv e).sec = s.sec := (rfl)
@[simp] theorem State.raiseEv_pm (e : Event) : (s.raiseEv e).pm = s.pm := (rfl)
@[simp] theorem State.raiseEv_xcFrozen (e : Event) : (s.raiseEv e).xcFrozen = s.xcFrozen := (rfl)
@[simp] theorem State.raiseEv_peat (e : Event) : (s.raiseEv e).peat = s.peat := (rfl)
@[simp] theorem State.raiseEv_mem (e : Event) : (s.raiseEv e).mem = s.mem := (rfl)
@[simp] theorem State.raiseEv_tim (e : Event) : (s.raiseEv e).tim = s.tim := (rfl)
@[simp] theorem State.raiseEv_mesh (e : Event) : (s.raiseEv e).mesh = s.mesh := (rfl)
@[simp] theorem State.raiseEv_mbx (e : Event) : (s.raiseEv e).mbx = s.mbx := (rfl)
@[simp] theorem State.raiseEv_cals (e : Event) : (s.raiseEv e).cals = s.cals := (rfl)
@[simp] theorem State.raiseEv_pow (e : Event) : (s.raiseEv e).pow = s.pow := (rfl)
@[simp] theorem State.raiseEv_mon (e : Event) : (s.raiseEv e).mon = s.mon := (rfl)
@[simp] theorem State.raiseEv_upd (e : Event) : (s.raiseEv e).upd = s.upd := (rfl)
@[simp] theorem State.raiseEv_tap (e : Event) : (s.raiseEv e).tap = s.tap := (rfl)
@[simp] theorem State.raiseEv_host (e : Event) : (s.raiseEv e).host = { s.host with events := s.host.events ++ [e] } := (rfl)
@[simp] theorem State.raiseEv_reg (e : Event) (k : Nat) : (s.raiseEv e).reg k = s.reg k := (rfl)
@[simp] theorem State.raiseEv_rd (e : Event) (k : Fld) : (s.raiseEv e).rd k = s.rd k := (rfl)
@[simp] theorem State.raiseEv_flag (e : Event) (k : Fld) : (s.raiseEv e).flag k = s.flag k := (rfl)
@[simp] theorem State.raiseEv_frond (e : Event) (k : Nat) : (s.raiseEv e).frond k = s.frond k := (rfl)
@[simp] theorem State.raiseEv_ep (e : Event) (k : Nat) : (s.raiseEv e).ep k = s.ep k := (rfl)
@[simp] theorem State.raiseEv_port (e : Event) (k : Nat) : (s.raiseEv e).port k = s.port k := (rfl)
@[simp] theorem State.raiseEv_sa (e : Event) (k : Nat) : (s.raiseEv e).sa k = s.sa k := (rfl)
@[simp] theorem State.raiseEv_frondEnabled (e : Event) (k : Nat) : (s.raiseEv e).frondEnabled k = s.frondEnabled k := (rfl)
@[simp] theorem State.raiseEv_rdS (e : Event) (k : Fld) : (s.raiseEv e).rdS k = s.rdS k := (rfl)
@[simp] theorem State.raiseEv_acqState (e : Event) (k : Nat) : (s.raiseEv e).acqState k = s.acqState k := (rfl)
@[simp] theorem State.raiseEv_pState (e : Event) (k : Nat) : (s.raiseEv e).pState k = s.pState k := (rfl)
@[simp] theorem State.raiseEv_running (e : Event)  : (s.raiseEv e).running = s.running := (rfl)

@[simp] theorem State.complete_pending (c : Completion) : (s.complete c).pending = s.pending := (rfl)
@[simp] theorem State.complete_tick (c : Completion) : (s.complete c).tick = s.tick := (rfl)
@[simp] theorem State.complete_regs (c : Completion) : (s.complete c).regs = s.regs := (rfl)
@[simp] theorem State.complete_latches (c : Completion) : (s.complete c).latches = s.latches := (rfl)
@[simp] theorem State.complete_wtq (c : Completion) : (s.complete c).wtq = s.wtq := (rfl)
@[simp] theorem State.complete_freeCtr (c : Completion) : (s.complete c).freeCtr = s.freeCtr := (rfl)
@[simp] theorem State.complete_out (c : Completion) : (s.complete c).out = s.out := (rfl)
@[simp] theorem State.complete_fuse (c : Completion) : (s.complete c).fuse = s.fuse := (rfl)
@[simp] theorem State.complete_boot (c : Completion) : (s.complete c).boot = s.boot := (rfl)
@[simp] theorem State.complete_flt (c : Completion) : (s.complete c).flt = s.flt := (rfl)
@[simp] theorem State.complete_fronds (c : Completion) : (s.complete c).fronds = s.fronds := (rfl)
@[simp] theorem State.complete_eps (c : Completion) : (s.complete c).eps = s.eps := (rfl)
@[simp] theorem State.complete_slotOwner (c : Completion) : (s.complete c).slotOwner = s.slotOwner := (rfl)
@[simp] theorem State.complete_ports (c : Completion) : (s.complete c).ports = s.ports := (rfl)
@[simp] theorem State.complete_sas (c : Completion) : (s.complete c).sas = s.sas := (rfl)
@[simp] theorem State.complete_sec (c : Completion) : (s.complete c).sec = s.sec := (rfl)
@[simp] theorem State.complete_pm (c : Completion) : (s.complete c).pm = s.pm := (rfl)
@[simp] theorem State.complete_xcFrozen (c : Completion) : (s.complete c).xcFrozen = s.xcFrozen := (rfl)
@[simp] theorem State.complete_peat (c : Completion) : (s.complete c).peat = s.peat := (rfl)
@[simp] theorem State.complete_mem (c : Completion) : (s.complete c).mem = s.mem := (rfl)
@[simp] theorem State.complete_tim (c : Completion) : (s.complete c).tim = s.tim := (rfl)
@[simp] theorem State.complete_mesh (c : Completion) : (s.complete c).mesh = s.mesh := (rfl)
@[simp] theorem State.complete_mbx (c : Completion) : (s.complete c).mbx = s.mbx := (rfl)
@[simp] theorem State.complete_cals (c : Completion) : (s.complete c).cals = s.cals := (rfl)
@[simp] theorem State.complete_pow (c : Completion) : (s.complete c).pow = s.pow := (rfl)
@[simp] theorem State.complete_mon (c : Completion) : (s.complete c).mon = s.mon := (rfl)
@[simp] theorem State.complete_upd (c : Completion) : (s.complete c).upd = s.upd := (rfl)
@[simp] theorem State.complete_tap (c : Completion) : (s.complete c).tap = s.tap := (rfl)
@[simp] theorem State.complete_host (c : Completion) : (s.complete c).host = { s.host with done := s.host.done ++ [c] } := (rfl)
@[simp] theorem State.complete_reg (c : Completion) (k : Nat) : (s.complete c).reg k = s.reg k := (rfl)
@[simp] theorem State.complete_rd (c : Completion) (k : Fld) : (s.complete c).rd k = s.rd k := (rfl)
@[simp] theorem State.complete_flag (c : Completion) (k : Fld) : (s.complete c).flag k = s.flag k := (rfl)
@[simp] theorem State.complete_frond (c : Completion) (k : Nat) : (s.complete c).frond k = s.frond k := (rfl)
@[simp] theorem State.complete_ep (c : Completion) (k : Nat) : (s.complete c).ep k = s.ep k := (rfl)
@[simp] theorem State.complete_port (c : Completion) (k : Nat) : (s.complete c).port k = s.port k := (rfl)
@[simp] theorem State.complete_sa (c : Completion) (k : Nat) : (s.complete c).sa k = s.sa k := (rfl)
@[simp] theorem State.complete_frondEnabled (c : Completion) (k : Nat) : (s.complete c).frondEnabled k = s.frondEnabled k := (rfl)
@[simp] theorem State.complete_rdS (c : Completion) (k : Fld) : (s.complete c).rdS k = s.rdS k := (rfl)
@[simp] theorem State.complete_acqState (c : Completion) (k : Nat) : (s.complete c).acqState k = s.acqState k := (rfl)
@[simp] theorem State.complete_pState (c : Completion) (k : Nat) : (s.complete c).pState k = s.pState k := (rfl)
@[simp] theorem State.complete_running (c : Completion)  : (s.complete c).running = s.running := (rfl)

@[simp] theorem State.setFrond_pending (f : Nat) (x : Frond) : (s.setFrond f x).pending = s.pending := (rfl)
@[simp] theorem State.setFrond_tick (f : Nat) (x : Frond) : (s.setFrond f x).tick = s.tick := (rfl)
@[simp] theorem State.setFrond_regs (f : Nat) (x : Frond) : (s.setFrond f x).regs = s.regs := (rfl)
@[simp] theorem State.setFrond_latches (f : Nat) (x : Frond) : (s.setFrond f x).latches = s.latches := (rfl)
@[simp] theorem State.setFrond_wtq (f : Nat) (x : Frond) : (s.setFrond f x).wtq = s.wtq := (rfl)
@[simp] theorem State.setFrond_freeCtr (f : Nat) (x : Frond) : (s.setFrond f x).freeCtr = s.freeCtr := (rfl)
@[simp] theorem State.setFrond_out (f : Nat) (x : Frond) : (s.setFrond f x).out = s.out := (rfl)
@[simp] theorem State.setFrond_fuse (f : Nat) (x : Frond) : (s.setFrond f x).fuse = s.fuse := (rfl)
@[simp] theorem State.setFrond_boot (f : Nat) (x : Frond) : (s.setFrond f x).boot = s.boot := (rfl)
@[simp] theorem State.setFrond_host (f : Nat) (x : Frond) : (s.setFrond f x).host = s.host := (rfl)
@[simp] theorem State.setFrond_flt (f : Nat) (x : Frond) : (s.setFrond f x).flt = s.flt := (rfl)
@[simp] theorem State.setFrond_eps (f : Nat) (x : Frond) : (s.setFrond f x).eps = s.eps := (rfl)
@[simp] theorem State.setFrond_slotOwner (f : Nat) (x : Frond) : (s.setFrond f x).slotOwner = s.slotOwner := (rfl)
@[simp] theorem State.setFrond_ports (f : Nat) (x : Frond) : (s.setFrond f x).ports = s.ports := (rfl)
@[simp] theorem State.setFrond_sas (f : Nat) (x : Frond) : (s.setFrond f x).sas = s.sas := (rfl)
@[simp] theorem State.setFrond_sec (f : Nat) (x : Frond) : (s.setFrond f x).sec = s.sec := (rfl)
@[simp] theorem State.setFrond_pm (f : Nat) (x : Frond) : (s.setFrond f x).pm = s.pm := (rfl)
@[simp] theorem State.setFrond_xcFrozen (f : Nat) (x : Frond) : (s.setFrond f x).xcFrozen = s.xcFrozen := (rfl)
@[simp] theorem State.setFrond_peat (f : Nat) (x : Frond) : (s.setFrond f x).peat = s.peat := (rfl)
@[simp] theorem State.setFrond_mem (f : Nat) (x : Frond) : (s.setFrond f x).mem = s.mem := (rfl)
@[simp] theorem State.setFrond_tim (f : Nat) (x : Frond) : (s.setFrond f x).tim = s.tim := (rfl)
@[simp] theorem State.setFrond_mesh (f : Nat) (x : Frond) : (s.setFrond f x).mesh = s.mesh := (rfl)
@[simp] theorem State.setFrond_mbx (f : Nat) (x : Frond) : (s.setFrond f x).mbx = s.mbx := (rfl)
@[simp] theorem State.setFrond_cals (f : Nat) (x : Frond) : (s.setFrond f x).cals = s.cals := (rfl)
@[simp] theorem State.setFrond_pow (f : Nat) (x : Frond) : (s.setFrond f x).pow = s.pow := (rfl)
@[simp] theorem State.setFrond_mon (f : Nat) (x : Frond) : (s.setFrond f x).mon = s.mon := (rfl)
@[simp] theorem State.setFrond_upd (f : Nat) (x : Frond) : (s.setFrond f x).upd = s.upd := (rfl)
@[simp] theorem State.setFrond_tap (f : Nat) (x : Frond) : (s.setFrond f x).tap = s.tap := (rfl)
@[simp] theorem State.setFrond_reg (f : Nat) (x : Frond) (k : Nat) : (s.setFrond f x).reg k = s.reg k := (rfl)
@[simp] theorem State.setFrond_rd (f : Nat) (x : Frond) (k : Fld) : (s.setFrond f x).rd k = s.rd k := (rfl)
@[simp] theorem State.setFrond_flag (f : Nat) (x : Frond) (k : Fld) : (s.setFrond f x).flag k = s.flag k := (rfl)
@[simp] theorem State.setFrond_ep (f : Nat) (x : Frond) (k : Nat) : (s.setFrond f x).ep k = s.ep k := (rfl)
@[simp] theorem State.setFrond_port (f : Nat) (x : Frond) (k : Nat) : (s.setFrond f x).port k = s.port k := (rfl)
@[simp] theorem State.setFrond_sa (f : Nat) (x : Frond) (k : Nat) : (s.setFrond f x).sa k = s.sa k := (rfl)
@[simp] theorem State.setFrond_frondEnabled (f : Nat) (x : Frond) (k : Nat) : (s.setFrond f x).frondEnabled k = s.frondEnabled k := (rfl)
@[simp] theorem State.setFrond_rdS (f : Nat) (x : Frond) (k : Fld) : (s.setFrond f x).rdS k = s.rdS k := (rfl)
@[simp] theorem State.setFrond_acqState (f : Nat) (x : Frond) (k : Nat) : (s.setFrond f x).acqState k = s.acqState k := (rfl)
@[simp] theorem State.setFrond_pState (f : Nat) (x : Frond) (k : Nat) : (s.setFrond f x).pState k = s.pState k := (rfl)
@[simp] theorem State.setFrond_fnState (f : Nat) (x : Frond) (k : Nat) : (s.setFrond f x).fnState k = s.fnState k := (rfl)
@[simp] theorem State.setFrond_running (f : Nat) (x : Frond)  : (s.setFrond f x).running = s.running := (rfl)

@[simp] theorem State.modFrond_pending (f : Nat) (g : Frond → Frond) : (s.modFrond f g).pending = s.pending := (rfl)
@[simp] theorem State.modFrond_tick (f : Nat) (g : Frond → Frond) : (s.modFrond f g).tick = s.tick := (rfl)
@[simp] theorem State.modFrond_regs (f : Nat) (g : Frond → Frond) : (s.modFrond f g).regs = s.regs := (rfl)
@[simp] theorem State.modFrond_latches (f : Nat) (g : Frond → Frond) : (s.modFrond f g).latches = s.latches := (rfl)
@[simp] theorem State.modFrond_wtq (f : Nat) (g : Frond → Frond) : (s.modFrond f g).wtq = s.wtq := (rfl)
@[simp] theorem State.modFrond_freeCtr (f : Nat) (g : Frond → Frond) : (s.modFrond f g).freeCtr = s.freeCtr := (rfl)
@[simp] theorem State.modFrond_out (f : Nat) (g : Frond → Frond) : (s.modFrond f g).out = s.out := (rfl)
@[simp] theorem State.modFrond_fuse (f : Nat) (g : Frond → Frond) : (s.modFrond f g).fuse = s.fuse := (rfl)
@[simp] theorem State.modFrond_boot (f : Nat) (g : Frond → Frond) : (s.modFrond f g).boot = s.boot := (rfl)
@[simp] theorem State.modFrond_host (f : Nat) (g : Frond → Frond) : (s.modFrond f g).host = s.host := (rfl)
@[simp] theorem State.modFrond_flt (f : Nat) (g : Frond → Frond) : (s.modFrond f g).flt = s.flt := (rfl)
@[simp] theorem State.modFrond_eps (f : Nat) (g : Frond → Frond) : (s.modFrond f g).eps = s.eps := (rfl)
@[simp] theorem State.modFrond_slotOwner (f : Nat) (g : Frond → Frond) : (s.modFrond f g).slotOwner = s.slotOwner := (rfl)
@[simp] theorem State.modFrond_ports (f : Nat) (g : Frond → Frond) : (s.modFrond f g).ports = s.ports := (rfl)
@[simp] theorem State.modFrond_sas (f : Nat) (g : Frond → Frond) : (s.modFrond f g).sas = s.sas := (rfl)
@[simp] theorem State.modFrond_sec (f : Nat) (g : Frond → Frond) : (s.modFrond f g).sec = s.sec := (rfl)
@[simp] theorem State.modFrond_pm (f : Nat) (g : Frond → Frond) : (s.modFrond f g).pm = s.pm := (rfl)
@[simp] theorem State.modFrond_xcFrozen (f : Nat) (g : Frond → Frond) : (s.modFrond f g).xcFrozen = s.xcFrozen := (rfl)
@[simp] theorem State.modFrond_peat (f : Nat) (g : Frond → Frond) : (s.modFrond f g).peat = s.peat := (rfl)
@[simp] theorem State.modFrond_mem (f : Nat) (g : Frond → Frond) : (s.modFrond f g).mem = s.mem := (rfl)
@[simp] theorem State.modFrond_tim (f : Nat) (g : Frond → Frond) : (s.modFrond f g).tim = s.tim := (rfl)
@[simp] theorem State.modFrond_mesh (f : Nat) (g : Frond → Frond) : (s.modFrond f g).mesh = s.mesh := (rfl)
@[simp] theorem State.modFrond_mbx (f : Nat) (g : Frond → Frond) : (s.modFrond f g).mbx = s.mbx := (rfl)
@[simp] theorem State.modFrond_cals (f : Nat) (g : Frond → Frond) : (s.modFrond f g).cals = s.cals := (rfl)
@[simp] theorem State.modFrond_pow (f : Nat) (g : Frond → Frond) : (s.modFrond f g).pow = s.pow := (rfl)
@[simp] theorem State.modFrond_mon (f : Nat) (g : Frond → Frond) : (s.modFrond f g).mon = s.mon := (rfl)
@[simp] theorem State.modFrond_upd (f : Nat) (g : Frond → Frond) : (s.modFrond f g).upd = s.upd := (rfl)
@[simp] theorem State.modFrond_tap (f : Nat) (g : Frond → Frond) : (s.modFrond f g).tap = s.tap := (rfl)
@[simp] theorem State.modFrond_reg (f : Nat) (g : Frond → Frond) (k : Nat) : (s.modFrond f g).reg k = s.reg k := (rfl)
@[simp] theorem State.modFrond_rd (f : Nat) (g : Frond → Frond) (k : Fld) : (s.modFrond f g).rd k = s.rd k := (rfl)
@[simp] theorem State.modFrond_flag (f : Nat) (g : Frond → Frond) (k : Fld) : (s.modFrond f g).flag k = s.flag k := (rfl)
@[simp] theorem State.modFrond_ep (f : Nat) (g : Frond → Frond) (k : Nat) : (s.modFrond f g).ep k = s.ep k := (rfl)
@[simp] theorem State.modFrond_port (f : Nat) (g : Frond → Frond) (k : Nat) : (s.modFrond f g).port k = s.port k := (rfl)
@[simp] theorem State.modFrond_sa (f : Nat) (g : Frond → Frond) (k : Nat) : (s.modFrond f g).sa k = s.sa k := (rfl)
@[simp] theorem State.modFrond_frondEnabled (f : Nat) (g : Frond → Frond) (k : Nat) : (s.modFrond f g).frondEnabled k = s.frondEnabled k := (rfl)
@[simp] theorem State.modFrond_rdS (f : Nat) (g : Frond → Frond) (k : Fld) : (s.modFrond f g).rdS k = s.rdS k := (rfl)
@[simp] theorem State.modFrond_acqState (f : Nat) (g : Frond → Frond) (k : Nat) : (s.modFrond f g).acqState k = s.acqState k := (rfl)
@[simp] theorem State.modFrond_pState (f : Nat) (g : Frond → Frond) (k : Nat) : (s.modFrond f g).pState k = s.pState k := (rfl)
@[simp] theorem State.modFrond_fnState (f : Nat) (g : Frond → Frond) (k : Nat) : (s.modFrond f g).fnState k = s.fnState k := (rfl)
@[simp] theorem State.modFrond_running (f : Nat) (g : Frond → Frond)  : (s.modFrond f g).running = s.running := (rfl)

@[simp] theorem State.setEp_pending (e : Nat) (x : Endpoint) : (s.setEp e x).pending = s.pending := (rfl)
@[simp] theorem State.setEp_tick (e : Nat) (x : Endpoint) : (s.setEp e x).tick = s.tick := (rfl)
@[simp] theorem State.setEp_regs (e : Nat) (x : Endpoint) : (s.setEp e x).regs = s.regs := (rfl)
@[simp] theorem State.setEp_latches (e : Nat) (x : Endpoint) : (s.setEp e x).latches = s.latches := (rfl)
@[simp] theorem State.setEp_wtq (e : Nat) (x : Endpoint) : (s.setEp e x).wtq = s.wtq := (rfl)
@[simp] theorem State.setEp_freeCtr (e : Nat) (x : Endpoint) : (s.setEp e x).freeCtr = s.freeCtr := (rfl)
@[simp] theorem State.setEp_out (e : Nat) (x : Endpoint) : (s.setEp e x).out = s.out := (rfl)
@[simp] theorem State.setEp_fuse (e : Nat) (x : Endpoint) : (s.setEp e x).fuse = s.fuse := (rfl)
@[simp] theorem State.setEp_boot (e : Nat) (x : Endpoint) : (s.setEp e x).boot = s.boot := (rfl)
@[simp] theorem State.setEp_host (e : Nat) (x : Endpoint) : (s.setEp e x).host = s.host := (rfl)
@[simp] theorem State.setEp_flt (e : Nat) (x : Endpoint) : (s.setEp e x).flt = s.flt := (rfl)
@[simp] theorem State.setEp_fronds (e : Nat) (x : Endpoint) : (s.setEp e x).fronds = s.fronds := (rfl)
@[simp] theorem State.setEp_slotOwner (e : Nat) (x : Endpoint) : (s.setEp e x).slotOwner = s.slotOwner := (rfl)
@[simp] theorem State.setEp_ports (e : Nat) (x : Endpoint) : (s.setEp e x).ports = s.ports := (rfl)
@[simp] theorem State.setEp_sas (e : Nat) (x : Endpoint) : (s.setEp e x).sas = s.sas := (rfl)
@[simp] theorem State.setEp_sec (e : Nat) (x : Endpoint) : (s.setEp e x).sec = s.sec := (rfl)
@[simp] theorem State.setEp_pm (e : Nat) (x : Endpoint) : (s.setEp e x).pm = s.pm := (rfl)
@[simp] theorem State.setEp_xcFrozen (e : Nat) (x : Endpoint) : (s.setEp e x).xcFrozen = s.xcFrozen := (rfl)
@[simp] theorem State.setEp_peat (e : Nat) (x : Endpoint) : (s.setEp e x).peat = s.peat := (rfl)
@[simp] theorem State.setEp_mem (e : Nat) (x : Endpoint) : (s.setEp e x).mem = s.mem := (rfl)
@[simp] theorem State.setEp_tim (e : Nat) (x : Endpoint) : (s.setEp e x).tim = s.tim := (rfl)
@[simp] theorem State.setEp_mesh (e : Nat) (x : Endpoint) : (s.setEp e x).mesh = s.mesh := (rfl)
@[simp] theorem State.setEp_mbx (e : Nat) (x : Endpoint) : (s.setEp e x).mbx = s.mbx := (rfl)
@[simp] theorem State.setEp_cals (e : Nat) (x : Endpoint) : (s.setEp e x).cals = s.cals := (rfl)
@[simp] theorem State.setEp_pow (e : Nat) (x : Endpoint) : (s.setEp e x).pow = s.pow := (rfl)
@[simp] theorem State.setEp_mon (e : Nat) (x : Endpoint) : (s.setEp e x).mon = s.mon := (rfl)
@[simp] theorem State.setEp_upd (e : Nat) (x : Endpoint) : (s.setEp e x).upd = s.upd := (rfl)
@[simp] theorem State.setEp_tap (e : Nat) (x : Endpoint) : (s.setEp e x).tap = s.tap := (rfl)
@[simp] theorem State.setEp_reg (e : Nat) (x : Endpoint) (k : Nat) : (s.setEp e x).reg k = s.reg k := (rfl)
@[simp] theorem State.setEp_rd (e : Nat) (x : Endpoint) (k : Fld) : (s.setEp e x).rd k = s.rd k := (rfl)
@[simp] theorem State.setEp_flag (e : Nat) (x : Endpoint) (k : Fld) : (s.setEp e x).flag k = s.flag k := (rfl)
@[simp] theorem State.setEp_frond (e : Nat) (x : Endpoint) (k : Nat) : (s.setEp e x).frond k = s.frond k := (rfl)
@[simp] theorem State.setEp_port (e : Nat) (x : Endpoint) (k : Nat) : (s.setEp e x).port k = s.port k := (rfl)
@[simp] theorem State.setEp_sa (e : Nat) (x : Endpoint) (k : Nat) : (s.setEp e x).sa k = s.sa k := (rfl)
@[simp] theorem State.setEp_frondEnabled (e : Nat) (x : Endpoint) (k : Nat) : (s.setEp e x).frondEnabled k = s.frondEnabled k := (rfl)
@[simp] theorem State.setEp_rdS (e : Nat) (x : Endpoint) (k : Fld) : (s.setEp e x).rdS k = s.rdS k := (rfl)
@[simp] theorem State.setEp_acqState (e : Nat) (x : Endpoint) (k : Nat) : (s.setEp e x).acqState k = s.acqState k := (rfl)
@[simp] theorem State.setEp_pState (e : Nat) (x : Endpoint) (k : Nat) : (s.setEp e x).pState k = s.pState k := (rfl)
@[simp] theorem State.setEp_fnState (e : Nat) (x : Endpoint) (k : Nat) : (s.setEp e x).fnState k = s.fnState k := (rfl)
@[simp] theorem State.setEp_running (e : Nat) (x : Endpoint)  : (s.setEp e x).running = s.running := (rfl)

@[simp] theorem State.setTenant_pending (n : Nat) (x : TenantRec) : (s.setTenant n x).pending = s.pending := (rfl)
@[simp] theorem State.setTenant_tick (n : Nat) (x : TenantRec) : (s.setTenant n x).tick = s.tick := (rfl)
@[simp] theorem State.setTenant_regs (n : Nat) (x : TenantRec) : (s.setTenant n x).regs = s.regs := (rfl)
@[simp] theorem State.setTenant_latches (n : Nat) (x : TenantRec) : (s.setTenant n x).latches = s.latches := (rfl)
@[simp] theorem State.setTenant_wtq (n : Nat) (x : TenantRec) : (s.setTenant n x).wtq = s.wtq := (rfl)
@[simp] theorem State.setTenant_freeCtr (n : Nat) (x : TenantRec) : (s.setTenant n x).freeCtr = s.freeCtr := (rfl)
@[simp] theorem State.setTenant_out (n : Nat) (x : TenantRec) : (s.setTenant n x).out = s.out := (rfl)
@[simp] theorem State.setTenant_fuse (n : Nat) (x : TenantRec) : (s.setTenant n x).fuse = s.fuse := (rfl)
@[simp] theorem State.setTenant_boot (n : Nat) (x : TenantRec) : (s.setTenant n x).boot = s.boot := (rfl)
@[simp] theorem State.setTenant_flt (n : Nat) (x : TenantRec) : (s.setTenant n x).flt = s.flt := (rfl)
@[simp] theorem State.setTenant_fronds (n : Nat) (x : TenantRec) : (s.setTenant n x).fronds = s.fronds := (rfl)
@[simp] theorem State.setTenant_eps (n : Nat) (x : TenantRec) : (s.setTenant n x).eps = s.eps := (rfl)
@[simp] theorem State.setTenant_slotOwner (n : Nat) (x : TenantRec) : (s.setTenant n x).slotOwner = s.slotOwner := (rfl)
@[simp] theorem State.setTenant_ports (n : Nat) (x : TenantRec) : (s.setTenant n x).ports = s.ports := (rfl)
@[simp] theorem State.setTenant_sas (n : Nat) (x : TenantRec) : (s.setTenant n x).sas = s.sas := (rfl)
@[simp] theorem State.setTenant_sec (n : Nat) (x : TenantRec) : (s.setTenant n x).sec = s.sec := (rfl)
@[simp] theorem State.setTenant_pm (n : Nat) (x : TenantRec) : (s.setTenant n x).pm = s.pm := (rfl)
@[simp] theorem State.setTenant_xcFrozen (n : Nat) (x : TenantRec) : (s.setTenant n x).xcFrozen = s.xcFrozen := (rfl)
@[simp] theorem State.setTenant_peat (n : Nat) (x : TenantRec) : (s.setTenant n x).peat = s.peat := (rfl)
@[simp] theorem State.setTenant_mem (n : Nat) (x : TenantRec) : (s.setTenant n x).mem = s.mem := (rfl)
@[simp] theorem State.setTenant_tim (n : Nat) (x : TenantRec) : (s.setTenant n x).tim = s.tim := (rfl)
@[simp] theorem State.setTenant_mesh (n : Nat) (x : TenantRec) : (s.setTenant n x).mesh = s.mesh := (rfl)
@[simp] theorem State.setTenant_mbx (n : Nat) (x : TenantRec) : (s.setTenant n x).mbx = s.mbx := (rfl)
@[simp] theorem State.setTenant_cals (n : Nat) (x : TenantRec) : (s.setTenant n x).cals = s.cals := (rfl)
@[simp] theorem State.setTenant_pow (n : Nat) (x : TenantRec) : (s.setTenant n x).pow = s.pow := (rfl)
@[simp] theorem State.setTenant_mon (n : Nat) (x : TenantRec) : (s.setTenant n x).mon = s.mon := (rfl)
@[simp] theorem State.setTenant_upd (n : Nat) (x : TenantRec) : (s.setTenant n x).upd = s.upd := (rfl)
@[simp] theorem State.setTenant_tap (n : Nat) (x : TenantRec) : (s.setTenant n x).tap = s.tap := (rfl)
@[simp] theorem State.setTenant_reg (n : Nat) (x : TenantRec) (k : Nat) : (s.setTenant n x).reg k = s.reg k := (rfl)
@[simp] theorem State.setTenant_rd (n : Nat) (x : TenantRec) (k : Fld) : (s.setTenant n x).rd k = s.rd k := (rfl)
@[simp] theorem State.setTenant_flag (n : Nat) (x : TenantRec) (k : Fld) : (s.setTenant n x).flag k = s.flag k := (rfl)
@[simp] theorem State.setTenant_frond (n : Nat) (x : TenantRec) (k : Nat) : (s.setTenant n x).frond k = s.frond k := (rfl)
@[simp] theorem State.setTenant_ep (n : Nat) (x : TenantRec) (k : Nat) : (s.setTenant n x).ep k = s.ep k := (rfl)
@[simp] theorem State.setTenant_port (n : Nat) (x : TenantRec) (k : Nat) : (s.setTenant n x).port k = s.port k := (rfl)
@[simp] theorem State.setTenant_sa (n : Nat) (x : TenantRec) (k : Nat) : (s.setTenant n x).sa k = s.sa k := (rfl)
@[simp] theorem State.setTenant_frondEnabled (n : Nat) (x : TenantRec) (k : Nat) : (s.setTenant n x).frondEnabled k = s.frondEnabled k := (rfl)
@[simp] theorem State.setTenant_rdS (n : Nat) (x : TenantRec) (k : Fld) : (s.setTenant n x).rdS k = s.rdS k := (rfl)
@[simp] theorem State.setTenant_acqState (n : Nat) (x : TenantRec) (k : Nat) : (s.setTenant n x).acqState k = s.acqState k := (rfl)
@[simp] theorem State.setTenant_pState (n : Nat) (x : TenantRec) (k : Nat) : (s.setTenant n x).pState k = s.pState k := (rfl)
@[simp] theorem State.setTenant_running (n : Nat) (x : TenantRec)  : (s.setTenant n x).running = s.running := (rfl)

@[simp] theorem State.setFn_pending (n : Nat) (x : FnState) : (s.setFn n x).pending = s.pending := (rfl)
@[simp] theorem State.setFn_tick (n : Nat) (x : FnState) : (s.setFn n x).tick = s.tick := (rfl)
@[simp] theorem State.setFn_regs (n : Nat) (x : FnState) : (s.setFn n x).regs = s.regs := (rfl)
@[simp] theorem State.setFn_latches (n : Nat) (x : FnState) : (s.setFn n x).latches = s.latches := (rfl)
@[simp] theorem State.setFn_wtq (n : Nat) (x : FnState) : (s.setFn n x).wtq = s.wtq := (rfl)
@[simp] theorem State.setFn_freeCtr (n : Nat) (x : FnState) : (s.setFn n x).freeCtr = s.freeCtr := (rfl)
@[simp] theorem State.setFn_out (n : Nat) (x : FnState) : (s.setFn n x).out = s.out := (rfl)
@[simp] theorem State.setFn_fuse (n : Nat) (x : FnState) : (s.setFn n x).fuse = s.fuse := (rfl)
@[simp] theorem State.setFn_boot (n : Nat) (x : FnState) : (s.setFn n x).boot = s.boot := (rfl)
@[simp] theorem State.setFn_flt (n : Nat) (x : FnState) : (s.setFn n x).flt = s.flt := (rfl)
@[simp] theorem State.setFn_fronds (n : Nat) (x : FnState) : (s.setFn n x).fronds = s.fronds := (rfl)
@[simp] theorem State.setFn_eps (n : Nat) (x : FnState) : (s.setFn n x).eps = s.eps := (rfl)
@[simp] theorem State.setFn_slotOwner (n : Nat) (x : FnState) : (s.setFn n x).slotOwner = s.slotOwner := (rfl)
@[simp] theorem State.setFn_ports (n : Nat) (x : FnState) : (s.setFn n x).ports = s.ports := (rfl)
@[simp] theorem State.setFn_sas (n : Nat) (x : FnState) : (s.setFn n x).sas = s.sas := (rfl)
@[simp] theorem State.setFn_sec (n : Nat) (x : FnState) : (s.setFn n x).sec = s.sec := (rfl)
@[simp] theorem State.setFn_pm (n : Nat) (x : FnState) : (s.setFn n x).pm = s.pm := (rfl)
@[simp] theorem State.setFn_xcFrozen (n : Nat) (x : FnState) : (s.setFn n x).xcFrozen = s.xcFrozen := (rfl)
@[simp] theorem State.setFn_peat (n : Nat) (x : FnState) : (s.setFn n x).peat = s.peat := (rfl)
@[simp] theorem State.setFn_mem (n : Nat) (x : FnState) : (s.setFn n x).mem = s.mem := (rfl)
@[simp] theorem State.setFn_tim (n : Nat) (x : FnState) : (s.setFn n x).tim = s.tim := (rfl)
@[simp] theorem State.setFn_mesh (n : Nat) (x : FnState) : (s.setFn n x).mesh = s.mesh := (rfl)
@[simp] theorem State.setFn_mbx (n : Nat) (x : FnState) : (s.setFn n x).mbx = s.mbx := (rfl)
@[simp] theorem State.setFn_cals (n : Nat) (x : FnState) : (s.setFn n x).cals = s.cals := (rfl)
@[simp] theorem State.setFn_pow (n : Nat) (x : FnState) : (s.setFn n x).pow = s.pow := (rfl)
@[simp] theorem State.setFn_mon (n : Nat) (x : FnState) : (s.setFn n x).mon = s.mon := (rfl)
@[simp] theorem State.setFn_upd (n : Nat) (x : FnState) : (s.setFn n x).upd = s.upd := (rfl)
@[simp] theorem State.setFn_tap (n : Nat) (x : FnState) : (s.setFn n x).tap = s.tap := (rfl)
@[simp] theorem State.setFn_reg (n : Nat) (x : FnState) (k : Nat) : (s.setFn n x).reg k = s.reg k := (rfl)
@[simp] theorem State.setFn_rd (n : Nat) (x : FnState) (k : Fld) : (s.setFn n x).rd k = s.rd k := (rfl)
@[simp] theorem State.setFn_flag (n : Nat) (x : FnState) (k : Fld) : (s.setFn n x).flag k = s.flag k := (rfl)
@[simp] theorem State.setFn_frond (n : Nat) (x : FnState) (k : Nat) : (s.setFn n x).frond k = s.frond k := (rfl)
@[simp] theorem State.setFn_ep (n : Nat) (x : FnState) (k : Nat) : (s.setFn n x).ep k = s.ep k := (rfl)
@[simp] theorem State.setFn_port (n : Nat) (x : FnState) (k : Nat) : (s.setFn n x).port k = s.port k := (rfl)
@[simp] theorem State.setFn_sa (n : Nat) (x : FnState) (k : Nat) : (s.setFn n x).sa k = s.sa k := (rfl)
@[simp] theorem State.setFn_frondEnabled (n : Nat) (x : FnState) (k : Nat) : (s.setFn n x).frondEnabled k = s.frondEnabled k := (rfl)
@[simp] theorem State.setFn_rdS (n : Nat) (x : FnState) (k : Fld) : (s.setFn n x).rdS k = s.rdS k := (rfl)
@[simp] theorem State.setFn_acqState (n : Nat) (x : FnState) (k : Nat) : (s.setFn n x).acqState k = s.acqState k := (rfl)
@[simp] theorem State.setFn_pState (n : Nat) (x : FnState) (k : Nat) : (s.setFn n x).pState k = s.pState k := (rfl)
@[simp] theorem State.setFn_running (n : Nat) (x : FnState)  : (s.setFn n x).running = s.running := (rfl)

@[simp] theorem State.modFn_pending (n : Nat) (g : FnState → FnState) : (s.modFn n g).pending = s.pending := (rfl)
@[simp] theorem State.modFn_tick (n : Nat) (g : FnState → FnState) : (s.modFn n g).tick = s.tick := (rfl)
@[simp] theorem State.modFn_regs (n : Nat) (g : FnState → FnState) : (s.modFn n g).regs = s.regs := (rfl)
@[simp] theorem State.modFn_latches (n : Nat) (g : FnState → FnState) : (s.modFn n g).latches = s.latches := (rfl)
@[simp] theorem State.modFn_wtq (n : Nat) (g : FnState → FnState) : (s.modFn n g).wtq = s.wtq := (rfl)
@[simp] theorem State.modFn_freeCtr (n : Nat) (g : FnState → FnState) : (s.modFn n g).freeCtr = s.freeCtr := (rfl)
@[simp] theorem State.modFn_out (n : Nat) (g : FnState → FnState) : (s.modFn n g).out = s.out := (rfl)
@[simp] theorem State.modFn_fuse (n : Nat) (g : FnState → FnState) : (s.modFn n g).fuse = s.fuse := (rfl)
@[simp] theorem State.modFn_boot (n : Nat) (g : FnState → FnState) : (s.modFn n g).boot = s.boot := (rfl)
@[simp] theorem State.modFn_flt (n : Nat) (g : FnState → FnState) : (s.modFn n g).flt = s.flt := (rfl)
@[simp] theorem State.modFn_fronds (n : Nat) (g : FnState → FnState) : (s.modFn n g).fronds = s.fronds := (rfl)
@[simp] theorem State.modFn_eps (n : Nat) (g : FnState → FnState) : (s.modFn n g).eps = s.eps := (rfl)
@[simp] theorem State.modFn_slotOwner (n : Nat) (g : FnState → FnState) : (s.modFn n g).slotOwner = s.slotOwner := (rfl)
@[simp] theorem State.modFn_ports (n : Nat) (g : FnState → FnState) : (s.modFn n g).ports = s.ports := (rfl)
@[simp] theorem State.modFn_sas (n : Nat) (g : FnState → FnState) : (s.modFn n g).sas = s.sas := (rfl)
@[simp] theorem State.modFn_sec (n : Nat) (g : FnState → FnState) : (s.modFn n g).sec = s.sec := (rfl)
@[simp] theorem State.modFn_pm (n : Nat) (g : FnState → FnState) : (s.modFn n g).pm = s.pm := (rfl)
@[simp] theorem State.modFn_xcFrozen (n : Nat) (g : FnState → FnState) : (s.modFn n g).xcFrozen = s.xcFrozen := (rfl)
@[simp] theorem State.modFn_peat (n : Nat) (g : FnState → FnState) : (s.modFn n g).peat = s.peat := (rfl)
@[simp] theorem State.modFn_mem (n : Nat) (g : FnState → FnState) : (s.modFn n g).mem = s.mem := (rfl)
@[simp] theorem State.modFn_tim (n : Nat) (g : FnState → FnState) : (s.modFn n g).tim = s.tim := (rfl)
@[simp] theorem State.modFn_mesh (n : Nat) (g : FnState → FnState) : (s.modFn n g).mesh = s.mesh := (rfl)
@[simp] theorem State.modFn_mbx (n : Nat) (g : FnState → FnState) : (s.modFn n g).mbx = s.mbx := (rfl)
@[simp] theorem State.modFn_cals (n : Nat) (g : FnState → FnState) : (s.modFn n g).cals = s.cals := (rfl)
@[simp] theorem State.modFn_pow (n : Nat) (g : FnState → FnState) : (s.modFn n g).pow = s.pow := (rfl)
@[simp] theorem State.modFn_mon (n : Nat) (g : FnState → FnState) : (s.modFn n g).mon = s.mon := (rfl)
@[simp] theorem State.modFn_upd (n : Nat) (g : FnState → FnState) : (s.modFn n g).upd = s.upd := (rfl)
@[simp] theorem State.modFn_tap (n : Nat) (g : FnState → FnState) : (s.modFn n g).tap = s.tap := (rfl)
@[simp] theorem State.modFn_reg (n : Nat) (g : FnState → FnState) (k : Nat) : (s.modFn n g).reg k = s.reg k := (rfl)
@[simp] theorem State.modFn_rd (n : Nat) (g : FnState → FnState) (k : Fld) : (s.modFn n g).rd k = s.rd k := (rfl)
@[simp] theorem State.modFn_flag (n : Nat) (g : FnState → FnState) (k : Fld) : (s.modFn n g).flag k = s.flag k := (rfl)
@[simp] theorem State.modFn_frond (n : Nat) (g : FnState → FnState) (k : Nat) : (s.modFn n g).frond k = s.frond k := (rfl)
@[simp] theorem State.modFn_ep (n : Nat) (g : FnState → FnState) (k : Nat) : (s.modFn n g).ep k = s.ep k := (rfl)
@[simp] theorem State.modFn_port (n : Nat) (g : FnState → FnState) (k : Nat) : (s.modFn n g).port k = s.port k := (rfl)
@[simp] theorem State.modFn_sa (n : Nat) (g : FnState → FnState) (k : Nat) : (s.modFn n g).sa k = s.sa k := (rfl)
@[simp] theorem State.modFn_frondEnabled (n : Nat) (g : FnState → FnState) (k : Nat) : (s.modFn n g).frondEnabled k = s.frondEnabled k := (rfl)
@[simp] theorem State.modFn_rdS (n : Nat) (g : FnState → FnState) (k : Fld) : (s.modFn n g).rdS k = s.rdS k := (rfl)
@[simp] theorem State.modFn_acqState (n : Nat) (g : FnState → FnState) (k : Nat) : (s.modFn n g).acqState k = s.acqState k := (rfl)
@[simp] theorem State.modFn_pState (n : Nat) (g : FnState → FnState) (k : Nat) : (s.modFn n g).pState k = s.pState k := (rfl)
@[simp] theorem State.modFn_running (n : Nat) (g : FnState → FnState)  : (s.modFn n g).running = s.running := (rfl)

@[simp] theorem State.setPort_pending (p : Nat) (x : PortSt) : (s.setPort p x).pending = s.pending := (rfl)
@[simp] theorem State.setPort_tick (p : Nat) (x : PortSt) : (s.setPort p x).tick = s.tick := (rfl)
@[simp] theorem State.setPort_regs (p : Nat) (x : PortSt) : (s.setPort p x).regs = s.regs := (rfl)
@[simp] theorem State.setPort_latches (p : Nat) (x : PortSt) : (s.setPort p x).latches = s.latches := (rfl)
@[simp] theorem State.setPort_wtq (p : Nat) (x : PortSt) : (s.setPort p x).wtq = s.wtq := (rfl)
@[simp] theorem State.setPort_freeCtr (p : Nat) (x : PortSt) : (s.setPort p x).freeCtr = s.freeCtr := (rfl)
@[simp] theorem State.setPort_out (p : Nat) (x : PortSt) : (s.setPort p x).out = s.out := (rfl)
@[simp] theorem State.setPort_fuse (p : Nat) (x : PortSt) : (s.setPort p x).fuse = s.fuse := (rfl)
@[simp] theorem State.setPort_boot (p : Nat) (x : PortSt) : (s.setPort p x).boot = s.boot := (rfl)
@[simp] theorem State.setPort_host (p : Nat) (x : PortSt) : (s.setPort p x).host = s.host := (rfl)
@[simp] theorem State.setPort_flt (p : Nat) (x : PortSt) : (s.setPort p x).flt = s.flt := (rfl)
@[simp] theorem State.setPort_fronds (p : Nat) (x : PortSt) : (s.setPort p x).fronds = s.fronds := (rfl)
@[simp] theorem State.setPort_eps (p : Nat) (x : PortSt) : (s.setPort p x).eps = s.eps := (rfl)
@[simp] theorem State.setPort_slotOwner (p : Nat) (x : PortSt) : (s.setPort p x).slotOwner = s.slotOwner := (rfl)
@[simp] theorem State.setPort_sas (p : Nat) (x : PortSt) : (s.setPort p x).sas = s.sas := (rfl)
@[simp] theorem State.setPort_sec (p : Nat) (x : PortSt) : (s.setPort p x).sec = s.sec := (rfl)
@[simp] theorem State.setPort_pm (p : Nat) (x : PortSt) : (s.setPort p x).pm = s.pm := (rfl)
@[simp] theorem State.setPort_xcFrozen (p : Nat) (x : PortSt) : (s.setPort p x).xcFrozen = s.xcFrozen := (rfl)
@[simp] theorem State.setPort_peat (p : Nat) (x : PortSt) : (s.setPort p x).peat = s.peat := (rfl)
@[simp] theorem State.setPort_mem (p : Nat) (x : PortSt) : (s.setPort p x).mem = s.mem := (rfl)
@[simp] theorem State.setPort_tim (p : Nat) (x : PortSt) : (s.setPort p x).tim = s.tim := (rfl)
@[simp] theorem State.setPort_mesh (p : Nat) (x : PortSt) : (s.setPort p x).mesh = s.mesh := (rfl)
@[simp] theorem State.setPort_mbx (p : Nat) (x : PortSt) : (s.setPort p x).mbx = s.mbx := (rfl)
@[simp] theorem State.setPort_cals (p : Nat) (x : PortSt) : (s.setPort p x).cals = s.cals := (rfl)
@[simp] theorem State.setPort_pow (p : Nat) (x : PortSt) : (s.setPort p x).pow = s.pow := (rfl)
@[simp] theorem State.setPort_mon (p : Nat) (x : PortSt) : (s.setPort p x).mon = s.mon := (rfl)
@[simp] theorem State.setPort_upd (p : Nat) (x : PortSt) : (s.setPort p x).upd = s.upd := (rfl)
@[simp] theorem State.setPort_tap (p : Nat) (x : PortSt) : (s.setPort p x).tap = s.tap := (rfl)
@[simp] theorem State.setPort_reg (p : Nat) (x : PortSt) (k : Nat) : (s.setPort p x).reg k = s.reg k := (rfl)
@[simp] theorem State.setPort_rd (p : Nat) (x : PortSt) (k : Fld) : (s.setPort p x).rd k = s.rd k := (rfl)
@[simp] theorem State.setPort_flag (p : Nat) (x : PortSt) (k : Fld) : (s.setPort p x).flag k = s.flag k := (rfl)
@[simp] theorem State.setPort_frond (p : Nat) (x : PortSt) (k : Nat) : (s.setPort p x).frond k = s.frond k := (rfl)
@[simp] theorem State.setPort_ep (p : Nat) (x : PortSt) (k : Nat) : (s.setPort p x).ep k = s.ep k := (rfl)
@[simp] theorem State.setPort_sa (p : Nat) (x : PortSt) (k : Nat) : (s.setPort p x).sa k = s.sa k := (rfl)
@[simp] theorem State.setPort_frondEnabled (p : Nat) (x : PortSt) (k : Nat) : (s.setPort p x).frondEnabled k = s.frondEnabled k := (rfl)
@[simp] theorem State.setPort_rdS (p : Nat) (x : PortSt) (k : Fld) : (s.setPort p x).rdS k = s.rdS k := (rfl)
@[simp] theorem State.setPort_acqState (p : Nat) (x : PortSt) (k : Nat) : (s.setPort p x).acqState k = s.acqState k := (rfl)
@[simp] theorem State.setPort_pState (p : Nat) (x : PortSt) (k : Nat) : (s.setPort p x).pState k = s.pState k := (rfl)
@[simp] theorem State.setPort_fnState (p : Nat) (x : PortSt) (k : Nat) : (s.setPort p x).fnState k = s.fnState k := (rfl)
@[simp] theorem State.setPort_running (p : Nat) (x : PortSt)  : (s.setPort p x).running = s.running := (rfl)

@[simp] theorem State.setSa_pending (i : Nat) (x : SaRec) : (s.setSa i x).pending = s.pending := (rfl)
@[simp] theorem State.setSa_tick (i : Nat) (x : SaRec) : (s.setSa i x).tick = s.tick := (rfl)
@[simp] theorem State.setSa_regs (i : Nat) (x : SaRec) : (s.setSa i x).regs = s.regs := (rfl)
@[simp] theorem State.setSa_latches (i : Nat) (x : SaRec) : (s.setSa i x).latches = s.latches := (rfl)
@[simp] theorem State.setSa_wtq (i : Nat) (x : SaRec) : (s.setSa i x).wtq = s.wtq := (rfl)
@[simp] theorem State.setSa_freeCtr (i : Nat) (x : SaRec) : (s.setSa i x).freeCtr = s.freeCtr := (rfl)
@[simp] theorem State.setSa_out (i : Nat) (x : SaRec) : (s.setSa i x).out = s.out := (rfl)
@[simp] theorem State.setSa_fuse (i : Nat) (x : SaRec) : (s.setSa i x).fuse = s.fuse := (rfl)
@[simp] theorem State.setSa_boot (i : Nat) (x : SaRec) : (s.setSa i x).boot = s.boot := (rfl)
@[simp] theorem State.setSa_host (i : Nat) (x : SaRec) : (s.setSa i x).host = s.host := (rfl)
@[simp] theorem State.setSa_flt (i : Nat) (x : SaRec) : (s.setSa i x).flt = s.flt := (rfl)
@[simp] theorem State.setSa_fronds (i : Nat) (x : SaRec) : (s.setSa i x).fronds = s.fronds := (rfl)
@[simp] theorem State.setSa_eps (i : Nat) (x : SaRec) : (s.setSa i x).eps = s.eps := (rfl)
@[simp] theorem State.setSa_slotOwner (i : Nat) (x : SaRec) : (s.setSa i x).slotOwner = s.slotOwner := (rfl)
@[simp] theorem State.setSa_ports (i : Nat) (x : SaRec) : (s.setSa i x).ports = s.ports := (rfl)
@[simp] theorem State.setSa_sec (i : Nat) (x : SaRec) : (s.setSa i x).sec = s.sec := (rfl)
@[simp] theorem State.setSa_pm (i : Nat) (x : SaRec) : (s.setSa i x).pm = s.pm := (rfl)
@[simp] theorem State.setSa_xcFrozen (i : Nat) (x : SaRec) : (s.setSa i x).xcFrozen = s.xcFrozen := (rfl)
@[simp] theorem State.setSa_peat (i : Nat) (x : SaRec) : (s.setSa i x).peat = s.peat := (rfl)
@[simp] theorem State.setSa_mem (i : Nat) (x : SaRec) : (s.setSa i x).mem = s.mem := (rfl)
@[simp] theorem State.setSa_tim (i : Nat) (x : SaRec) : (s.setSa i x).tim = s.tim := (rfl)
@[simp] theorem State.setSa_mesh (i : Nat) (x : SaRec) : (s.setSa i x).mesh = s.mesh := (rfl)
@[simp] theorem State.setSa_mbx (i : Nat) (x : SaRec) : (s.setSa i x).mbx = s.mbx := (rfl)
@[simp] theorem State.setSa_cals (i : Nat) (x : SaRec) : (s.setSa i x).cals = s.cals := (rfl)
@[simp] theorem State.setSa_pow (i : Nat) (x : SaRec) : (s.setSa i x).pow = s.pow := (rfl)
@[simp] theorem State.setSa_mon (i : Nat) (x : SaRec) : (s.setSa i x).mon = s.mon := (rfl)
@[simp] theorem State.setSa_upd (i : Nat) (x : SaRec) : (s.setSa i x).upd = s.upd := (rfl)
@[simp] theorem State.setSa_tap (i : Nat) (x : SaRec) : (s.setSa i x).tap = s.tap := (rfl)
@[simp] theorem State.setSa_reg (i : Nat) (x : SaRec) (k : Nat) : (s.setSa i x).reg k = s.reg k := (rfl)
@[simp] theorem State.setSa_rd (i : Nat) (x : SaRec) (k : Fld) : (s.setSa i x).rd k = s.rd k := (rfl)
@[simp] theorem State.setSa_flag (i : Nat) (x : SaRec) (k : Fld) : (s.setSa i x).flag k = s.flag k := (rfl)
@[simp] theorem State.setSa_frond (i : Nat) (x : SaRec) (k : Nat) : (s.setSa i x).frond k = s.frond k := (rfl)
@[simp] theorem State.setSa_ep (i : Nat) (x : SaRec) (k : Nat) : (s.setSa i x).ep k = s.ep k := (rfl)
@[simp] theorem State.setSa_port (i : Nat) (x : SaRec) (k : Nat) : (s.setSa i x).port k = s.port k := (rfl)
@[simp] theorem State.setSa_frondEnabled (i : Nat) (x : SaRec) (k : Nat) : (s.setSa i x).frondEnabled k = s.frondEnabled k := (rfl)
@[simp] theorem State.setSa_rdS (i : Nat) (x : SaRec) (k : Fld) : (s.setSa i x).rdS k = s.rdS k := (rfl)
@[simp] theorem State.setSa_acqState (i : Nat) (x : SaRec) (k : Nat) : (s.setSa i x).acqState k = s.acqState k := (rfl)
@[simp] theorem State.setSa_pState (i : Nat) (x : SaRec) (k : Nat) : (s.setSa i x).pState k = s.pState k := (rfl)
@[simp] theorem State.setSa_fnState (i : Nat) (x : SaRec) (k : Nat) : (s.setSa i x).fnState k = s.fnState k := (rfl)
@[simp] theorem State.setSa_running (i : Nat) (x : SaRec)  : (s.setSa i x).running = s.running := (rfl)

@[simp] theorem State.setEpPm_pending (e : Nat) (p : Option EpPm) : (s.setEpPm e p).pending = s.pending := (rfl)
@[simp] theorem State.setEpPm_tick (e : Nat) (p : Option EpPm) : (s.setEpPm e p).tick = s.tick := (rfl)
@[simp] theorem State.setEpPm_regs (e : Nat) (p : Option EpPm) : (s.setEpPm e p).regs = s.regs := (rfl)
@[simp] theorem State.setEpPm_latches (e : Nat) (p : Option EpPm) : (s.setEpPm e p).latches = s.latches := (rfl)
@[simp] theorem State.setEpPm_wtq (e : Nat) (p : Option EpPm) : (s.setEpPm e p).wtq = s.wtq := (rfl)
@[simp] theorem State.setEpPm_freeCtr (e : Nat) (p : Option EpPm) : (s.setEpPm e p).freeCtr = s.freeCtr := (rfl)
@[simp] theorem State.setEpPm_out (e : Nat) (p : Option EpPm) : (s.setEpPm e p).out = s.out := (rfl)
@[simp] theorem State.setEpPm_fuse (e : Nat) (p : Option EpPm) : (s.setEpPm e p).fuse = s.fuse := (rfl)
@[simp] theorem State.setEpPm_boot (e : Nat) (p : Option EpPm) : (s.setEpPm e p).boot = s.boot := (rfl)
@[simp] theorem State.setEpPm_host (e : Nat) (p : Option EpPm) : (s.setEpPm e p).host = s.host := (rfl)
@[simp] theorem State.setEpPm_flt (e : Nat) (p : Option EpPm) : (s.setEpPm e p).flt = s.flt := (rfl)
@[simp] theorem State.setEpPm_fronds (e : Nat) (p : Option EpPm) : (s.setEpPm e p).fronds = s.fronds := (rfl)
@[simp] theorem State.setEpPm_eps (e : Nat) (p : Option EpPm) : (s.setEpPm e p).eps = s.eps := (rfl)
@[simp] theorem State.setEpPm_slotOwner (e : Nat) (p : Option EpPm) : (s.setEpPm e p).slotOwner = s.slotOwner := (rfl)
@[simp] theorem State.setEpPm_ports (e : Nat) (p : Option EpPm) : (s.setEpPm e p).ports = s.ports := (rfl)
@[simp] theorem State.setEpPm_sas (e : Nat) (p : Option EpPm) : (s.setEpPm e p).sas = s.sas := (rfl)
@[simp] theorem State.setEpPm_sec (e : Nat) (p : Option EpPm) : (s.setEpPm e p).sec = s.sec := (rfl)
@[simp] theorem State.setEpPm_xcFrozen (e : Nat) (p : Option EpPm) : (s.setEpPm e p).xcFrozen = s.xcFrozen := (rfl)
@[simp] theorem State.setEpPm_peat (e : Nat) (p : Option EpPm) : (s.setEpPm e p).peat = s.peat := (rfl)
@[simp] theorem State.setEpPm_mem (e : Nat) (p : Option EpPm) : (s.setEpPm e p).mem = s.mem := (rfl)
@[simp] theorem State.setEpPm_tim (e : Nat) (p : Option EpPm) : (s.setEpPm e p).tim = s.tim := (rfl)
@[simp] theorem State.setEpPm_mesh (e : Nat) (p : Option EpPm) : (s.setEpPm e p).mesh = s.mesh := (rfl)
@[simp] theorem State.setEpPm_mbx (e : Nat) (p : Option EpPm) : (s.setEpPm e p).mbx = s.mbx := (rfl)
@[simp] theorem State.setEpPm_cals (e : Nat) (p : Option EpPm) : (s.setEpPm e p).cals = s.cals := (rfl)
@[simp] theorem State.setEpPm_pow (e : Nat) (p : Option EpPm) : (s.setEpPm e p).pow = s.pow := (rfl)
@[simp] theorem State.setEpPm_mon (e : Nat) (p : Option EpPm) : (s.setEpPm e p).mon = s.mon := (rfl)
@[simp] theorem State.setEpPm_upd (e : Nat) (p : Option EpPm) : (s.setEpPm e p).upd = s.upd := (rfl)
@[simp] theorem State.setEpPm_tap (e : Nat) (p : Option EpPm) : (s.setEpPm e p).tap = s.tap := (rfl)
@[simp] theorem State.setEpPm_reg (e : Nat) (p : Option EpPm) (k : Nat) : (s.setEpPm e p).reg k = s.reg k := (rfl)
@[simp] theorem State.setEpPm_rd (e : Nat) (p : Option EpPm) (k : Fld) : (s.setEpPm e p).rd k = s.rd k := (rfl)
@[simp] theorem State.setEpPm_flag (e : Nat) (p : Option EpPm) (k : Fld) : (s.setEpPm e p).flag k = s.flag k := (rfl)
@[simp] theorem State.setEpPm_frond (e : Nat) (p : Option EpPm) (k : Nat) : (s.setEpPm e p).frond k = s.frond k := (rfl)
@[simp] theorem State.setEpPm_ep (e : Nat) (p : Option EpPm) (k : Nat) : (s.setEpPm e p).ep k = s.ep k := (rfl)
@[simp] theorem State.setEpPm_port (e : Nat) (p : Option EpPm) (k : Nat) : (s.setEpPm e p).port k = s.port k := (rfl)
@[simp] theorem State.setEpPm_sa (e : Nat) (p : Option EpPm) (k : Nat) : (s.setEpPm e p).sa k = s.sa k := (rfl)
@[simp] theorem State.setEpPm_frondEnabled (e : Nat) (p : Option EpPm) (k : Nat) : (s.setEpPm e p).frondEnabled k = s.frondEnabled k := (rfl)
@[simp] theorem State.setEpPm_rdS (e : Nat) (p : Option EpPm) (k : Fld) : (s.setEpPm e p).rdS k = s.rdS k := (rfl)
@[simp] theorem State.setEpPm_acqState (e : Nat) (p : Option EpPm) (k : Nat) : (s.setEpPm e p).acqState k = s.acqState k := (rfl)
@[simp] theorem State.setEpPm_pState (e : Nat) (p : Option EpPm) (k : Nat) : (s.setEpPm e p).pState k = s.pState k := (rfl)
@[simp] theorem State.setEpPm_fnState (e : Nat) (p : Option EpPm) (k : Nat) : (s.setEpPm e p).fnState k = s.fnState k := (rfl)
@[simp] theorem State.setEpPm_running (e : Nat) (p : Option EpPm)  : (s.setEpPm e p).running = s.running := (rfl)

@[simp] theorem State.modBoot_pending (g : BootSt → BootSt) : (s.modBoot g).pending = s.pending := (rfl)
@[simp] theorem State.modBoot_tick (g : BootSt → BootSt) : (s.modBoot g).tick = s.tick := (rfl)
@[simp] theorem State.modBoot_regs (g : BootSt → BootSt) : (s.modBoot g).regs = s.regs := (rfl)
@[simp] theorem State.modBoot_latches (g : BootSt → BootSt) : (s.modBoot g).latches = s.latches := (rfl)
@[simp] theorem State.modBoot_wtq (g : BootSt → BootSt) : (s.modBoot g).wtq = s.wtq := (rfl)
@[simp] theorem State.modBoot_freeCtr (g : BootSt → BootSt) : (s.modBoot g).freeCtr = s.freeCtr := (rfl)
@[simp] theorem State.modBoot_out (g : BootSt → BootSt) : (s.modBoot g).out = s.out := (rfl)
@[simp] theorem State.modBoot_fuse (g : BootSt → BootSt) : (s.modBoot g).fuse = s.fuse := (rfl)
@[simp] theorem State.modBoot_host (g : BootSt → BootSt) : (s.modBoot g).host = s.host := (rfl)
@[simp] theorem State.modBoot_flt (g : BootSt → BootSt) : (s.modBoot g).flt = s.flt := (rfl)
@[simp] theorem State.modBoot_fronds (g : BootSt → BootSt) : (s.modBoot g).fronds = s.fronds := (rfl)
@[simp] theorem State.modBoot_eps (g : BootSt → BootSt) : (s.modBoot g).eps = s.eps := (rfl)
@[simp] theorem State.modBoot_slotOwner (g : BootSt → BootSt) : (s.modBoot g).slotOwner = s.slotOwner := (rfl)
@[simp] theorem State.modBoot_ports (g : BootSt → BootSt) : (s.modBoot g).ports = s.ports := (rfl)
@[simp] theorem State.modBoot_sas (g : BootSt → BootSt) : (s.modBoot g).sas = s.sas := (rfl)
@[simp] theorem State.modBoot_sec (g : BootSt → BootSt) : (s.modBoot g).sec = s.sec := (rfl)
@[simp] theorem State.modBoot_pm (g : BootSt → BootSt) : (s.modBoot g).pm = s.pm := (rfl)
@[simp] theorem State.modBoot_xcFrozen (g : BootSt → BootSt) : (s.modBoot g).xcFrozen = s.xcFrozen := (rfl)
@[simp] theorem State.modBoot_peat (g : BootSt → BootSt) : (s.modBoot g).peat = s.peat := (rfl)
@[simp] theorem State.modBoot_mem (g : BootSt → BootSt) : (s.modBoot g).mem = s.mem := (rfl)
@[simp] theorem State.modBoot_tim (g : BootSt → BootSt) : (s.modBoot g).tim = s.tim := (rfl)
@[simp] theorem State.modBoot_mesh (g : BootSt → BootSt) : (s.modBoot g).mesh = s.mesh := (rfl)
@[simp] theorem State.modBoot_mbx (g : BootSt → BootSt) : (s.modBoot g).mbx = s.mbx := (rfl)
@[simp] theorem State.modBoot_cals (g : BootSt → BootSt) : (s.modBoot g).cals = s.cals := (rfl)
@[simp] theorem State.modBoot_pow (g : BootSt → BootSt) : (s.modBoot g).pow = s.pow := (rfl)
@[simp] theorem State.modBoot_mon (g : BootSt → BootSt) : (s.modBoot g).mon = s.mon := (rfl)
@[simp] theorem State.modBoot_upd (g : BootSt → BootSt) : (s.modBoot g).upd = s.upd := (rfl)
@[simp] theorem State.modBoot_tap (g : BootSt → BootSt) : (s.modBoot g).tap = s.tap := (rfl)
@[simp] theorem State.modBoot_boot (g : BootSt → BootSt) : (s.modBoot g).boot = g s.boot := (rfl)
@[simp] theorem State.modBoot_reg (g : BootSt → BootSt) (k : Nat) : (s.modBoot g).reg k = s.reg k := (rfl)
@[simp] theorem State.modBoot_rd (g : BootSt → BootSt) (k : Fld) : (s.modBoot g).rd k = s.rd k := (rfl)
@[simp] theorem State.modBoot_flag (g : BootSt → BootSt) (k : Fld) : (s.modBoot g).flag k = s.flag k := (rfl)
@[simp] theorem State.modBoot_frond (g : BootSt → BootSt) (k : Nat) : (s.modBoot g).frond k = s.frond k := (rfl)
@[simp] theorem State.modBoot_ep (g : BootSt → BootSt) (k : Nat) : (s.modBoot g).ep k = s.ep k := (rfl)
@[simp] theorem State.modBoot_port (g : BootSt → BootSt) (k : Nat) : (s.modBoot g).port k = s.port k := (rfl)
@[simp] theorem State.modBoot_sa (g : BootSt → BootSt) (k : Nat) : (s.modBoot g).sa k = s.sa k := (rfl)
@[simp] theorem State.modBoot_frondEnabled (g : BootSt → BootSt) (k : Nat) : (s.modBoot g).frondEnabled k = s.frondEnabled k := (rfl)
@[simp] theorem State.modBoot_rdS (g : BootSt → BootSt) (k : Fld) : (s.modBoot g).rdS k = s.rdS k := (rfl)
@[simp] theorem State.modBoot_acqState (g : BootSt → BootSt) (k : Nat) : (s.modBoot g).acqState k = s.acqState k := (rfl)
@[simp] theorem State.modBoot_pState (g : BootSt → BootSt) (k : Nat) : (s.modBoot g).pState k = s.pState k := (rfl)
@[simp] theorem State.modBoot_fnState (g : BootSt → BootSt) (k : Nat) : (s.modBoot g).fnState k = s.fnState k := (rfl)
@[simp] theorem State.modBoot_running (g : BootSt → BootSt)  : (s.modBoot g).running = s.running := (rfl)

@[simp] theorem State.modFlt_pending (g : FaultSt → FaultSt) : (s.modFlt g).pending = s.pending := (rfl)
@[simp] theorem State.modFlt_tick (g : FaultSt → FaultSt) : (s.modFlt g).tick = s.tick := (rfl)
@[simp] theorem State.modFlt_regs (g : FaultSt → FaultSt) : (s.modFlt g).regs = s.regs := (rfl)
@[simp] theorem State.modFlt_latches (g : FaultSt → FaultSt) : (s.modFlt g).latches = s.latches := (rfl)
@[simp] theorem State.modFlt_wtq (g : FaultSt → FaultSt) : (s.modFlt g).wtq = s.wtq := (rfl)
@[simp] theorem State.modFlt_freeCtr (g : FaultSt → FaultSt) : (s.modFlt g).freeCtr = s.freeCtr := (rfl)
@[simp] theorem State.modFlt_out (g : FaultSt → FaultSt) : (s.modFlt g).out = s.out := (rfl)
@[simp] theorem State.modFlt_fuse (g : FaultSt → FaultSt) : (s.modFlt g).fuse = s.fuse := (rfl)
@[simp] theorem State.modFlt_boot (g : FaultSt → FaultSt) : (s.modFlt g).boot = s.boot := (rfl)
@[simp] theorem State.modFlt_host (g : FaultSt → FaultSt) : (s.modFlt g).host = s.host := (rfl)
@[simp] theorem State.modFlt_fronds (g : FaultSt → FaultSt) : (s.modFlt g).fronds = s.fronds := (rfl)
@[simp] theorem State.modFlt_eps (g : FaultSt → FaultSt) : (s.modFlt g).eps = s.eps := (rfl)
@[simp] theorem State.modFlt_slotOwner (g : FaultSt → FaultSt) : (s.modFlt g).slotOwner = s.slotOwner := (rfl)
@[simp] theorem State.modFlt_ports (g : FaultSt → FaultSt) : (s.modFlt g).ports = s.ports := (rfl)
@[simp] theorem State.modFlt_sas (g : FaultSt → FaultSt) : (s.modFlt g).sas = s.sas := (rfl)
@[simp] theorem State.modFlt_sec (g : FaultSt → FaultSt) : (s.modFlt g).sec = s.sec := (rfl)
@[simp] theorem State.modFlt_pm (g : FaultSt → FaultSt) : (s.modFlt g).pm = s.pm := (rfl)
@[simp] theorem State.modFlt_xcFrozen (g : FaultSt → FaultSt) : (s.modFlt g).xcFrozen = s.xcFrozen := (rfl)
@[simp] theorem State.modFlt_peat (g : FaultSt → FaultSt) : (s.modFlt g).peat = s.peat := (rfl)
@[simp] theorem State.modFlt_mem (g : FaultSt → FaultSt) : (s.modFlt g).mem = s.mem := (rfl)
@[simp] theorem State.modFlt_tim (g : FaultSt → FaultSt) : (s.modFlt g).tim = s.tim := (rfl)
@[simp] theorem State.modFlt_mesh (g : FaultSt → FaultSt) : (s.modFlt g).mesh = s.mesh := (rfl)
@[simp] theorem State.modFlt_mbx (g : FaultSt → FaultSt) : (s.modFlt g).mbx = s.mbx := (rfl)
@[simp] theorem State.modFlt_cals (g : FaultSt → FaultSt) : (s.modFlt g).cals = s.cals := (rfl)
@[simp] theorem State.modFlt_pow (g : FaultSt → FaultSt) : (s.modFlt g).pow = s.pow := (rfl)
@[simp] theorem State.modFlt_mon (g : FaultSt → FaultSt) : (s.modFlt g).mon = s.mon := (rfl)
@[simp] theorem State.modFlt_upd (g : FaultSt → FaultSt) : (s.modFlt g).upd = s.upd := (rfl)
@[simp] theorem State.modFlt_tap (g : FaultSt → FaultSt) : (s.modFlt g).tap = s.tap := (rfl)
@[simp] theorem State.modFlt_flt (g : FaultSt → FaultSt) : (s.modFlt g).flt = g s.flt := (rfl)
@[simp] theorem State.modFlt_reg (g : FaultSt → FaultSt) (k : Nat) : (s.modFlt g).reg k = s.reg k := (rfl)
@[simp] theorem State.modFlt_rd (g : FaultSt → FaultSt) (k : Fld) : (s.modFlt g).rd k = s.rd k := (rfl)
@[simp] theorem State.modFlt_flag (g : FaultSt → FaultSt) (k : Fld) : (s.modFlt g).flag k = s.flag k := (rfl)
@[simp] theorem State.modFlt_frond (g : FaultSt → FaultSt) (k : Nat) : (s.modFlt g).frond k = s.frond k := (rfl)
@[simp] theorem State.modFlt_ep (g : FaultSt → FaultSt) (k : Nat) : (s.modFlt g).ep k = s.ep k := (rfl)
@[simp] theorem State.modFlt_port (g : FaultSt → FaultSt) (k : Nat) : (s.modFlt g).port k = s.port k := (rfl)
@[simp] theorem State.modFlt_sa (g : FaultSt → FaultSt) (k : Nat) : (s.modFlt g).sa k = s.sa k := (rfl)
@[simp] theorem State.modFlt_frondEnabled (g : FaultSt → FaultSt) (k : Nat) : (s.modFlt g).frondEnabled k = s.frondEnabled k := (rfl)
@[simp] theorem State.modFlt_rdS (g : FaultSt → FaultSt) (k : Fld) : (s.modFlt g).rdS k = s.rdS k := (rfl)
@[simp] theorem State.modFlt_acqState (g : FaultSt → FaultSt) (k : Nat) : (s.modFlt g).acqState k = s.acqState k := (rfl)
@[simp] theorem State.modFlt_pState (g : FaultSt → FaultSt) (k : Nat) : (s.modFlt g).pState k = s.pState k := (rfl)
@[simp] theorem State.modFlt_fnState (g : FaultSt → FaultSt) (k : Nat) : (s.modFlt g).fnState k = s.fnState k := (rfl)
@[simp] theorem State.modFlt_running (g : FaultSt → FaultSt)  : (s.modFlt g).running = s.running := (rfl)

@[simp] theorem State.modMem_pending (g : MemSt → MemSt) : (s.modMem g).pending = s.pending := (rfl)
@[simp] theorem State.modMem_tick (g : MemSt → MemSt) : (s.modMem g).tick = s.tick := (rfl)
@[simp] theorem State.modMem_regs (g : MemSt → MemSt) : (s.modMem g).regs = s.regs := (rfl)
@[simp] theorem State.modMem_latches (g : MemSt → MemSt) : (s.modMem g).latches = s.latches := (rfl)
@[simp] theorem State.modMem_wtq (g : MemSt → MemSt) : (s.modMem g).wtq = s.wtq := (rfl)
@[simp] theorem State.modMem_freeCtr (g : MemSt → MemSt) : (s.modMem g).freeCtr = s.freeCtr := (rfl)
@[simp] theorem State.modMem_out (g : MemSt → MemSt) : (s.modMem g).out = s.out := (rfl)
@[simp] theorem State.modMem_fuse (g : MemSt → MemSt) : (s.modMem g).fuse = s.fuse := (rfl)
@[simp] theorem State.modMem_boot (g : MemSt → MemSt) : (s.modMem g).boot = s.boot := (rfl)
@[simp] theorem State.modMem_host (g : MemSt → MemSt) : (s.modMem g).host = s.host := (rfl)
@[simp] theorem State.modMem_flt (g : MemSt → MemSt) : (s.modMem g).flt = s.flt := (rfl)
@[simp] theorem State.modMem_fronds (g : MemSt → MemSt) : (s.modMem g).fronds = s.fronds := (rfl)
@[simp] theorem State.modMem_eps (g : MemSt → MemSt) : (s.modMem g).eps = s.eps := (rfl)
@[simp] theorem State.modMem_slotOwner (g : MemSt → MemSt) : (s.modMem g).slotOwner = s.slotOwner := (rfl)
@[simp] theorem State.modMem_ports (g : MemSt → MemSt) : (s.modMem g).ports = s.ports := (rfl)
@[simp] theorem State.modMem_sas (g : MemSt → MemSt) : (s.modMem g).sas = s.sas := (rfl)
@[simp] theorem State.modMem_sec (g : MemSt → MemSt) : (s.modMem g).sec = s.sec := (rfl)
@[simp] theorem State.modMem_pm (g : MemSt → MemSt) : (s.modMem g).pm = s.pm := (rfl)
@[simp] theorem State.modMem_xcFrozen (g : MemSt → MemSt) : (s.modMem g).xcFrozen = s.xcFrozen := (rfl)
@[simp] theorem State.modMem_peat (g : MemSt → MemSt) : (s.modMem g).peat = s.peat := (rfl)
@[simp] theorem State.modMem_tim (g : MemSt → MemSt) : (s.modMem g).tim = s.tim := (rfl)
@[simp] theorem State.modMem_mesh (g : MemSt → MemSt) : (s.modMem g).mesh = s.mesh := (rfl)
@[simp] theorem State.modMem_mbx (g : MemSt → MemSt) : (s.modMem g).mbx = s.mbx := (rfl)
@[simp] theorem State.modMem_cals (g : MemSt → MemSt) : (s.modMem g).cals = s.cals := (rfl)
@[simp] theorem State.modMem_pow (g : MemSt → MemSt) : (s.modMem g).pow = s.pow := (rfl)
@[simp] theorem State.modMem_mon (g : MemSt → MemSt) : (s.modMem g).mon = s.mon := (rfl)
@[simp] theorem State.modMem_upd (g : MemSt → MemSt) : (s.modMem g).upd = s.upd := (rfl)
@[simp] theorem State.modMem_tap (g : MemSt → MemSt) : (s.modMem g).tap = s.tap := (rfl)
@[simp] theorem State.modMem_mem (g : MemSt → MemSt) : (s.modMem g).mem = g s.mem := (rfl)
@[simp] theorem State.modMem_reg (g : MemSt → MemSt) (k : Nat) : (s.modMem g).reg k = s.reg k := (rfl)
@[simp] theorem State.modMem_rd (g : MemSt → MemSt) (k : Fld) : (s.modMem g).rd k = s.rd k := (rfl)
@[simp] theorem State.modMem_flag (g : MemSt → MemSt) (k : Fld) : (s.modMem g).flag k = s.flag k := (rfl)
@[simp] theorem State.modMem_frond (g : MemSt → MemSt) (k : Nat) : (s.modMem g).frond k = s.frond k := (rfl)
@[simp] theorem State.modMem_ep (g : MemSt → MemSt) (k : Nat) : (s.modMem g).ep k = s.ep k := (rfl)
@[simp] theorem State.modMem_port (g : MemSt → MemSt) (k : Nat) : (s.modMem g).port k = s.port k := (rfl)
@[simp] theorem State.modMem_sa (g : MemSt → MemSt) (k : Nat) : (s.modMem g).sa k = s.sa k := (rfl)
@[simp] theorem State.modMem_frondEnabled (g : MemSt → MemSt) (k : Nat) : (s.modMem g).frondEnabled k = s.frondEnabled k := (rfl)
@[simp] theorem State.modMem_rdS (g : MemSt → MemSt) (k : Fld) : (s.modMem g).rdS k = s.rdS k := (rfl)
@[simp] theorem State.modMem_acqState (g : MemSt → MemSt) (k : Nat) : (s.modMem g).acqState k = s.acqState k := (rfl)
@[simp] theorem State.modMem_pState (g : MemSt → MemSt) (k : Nat) : (s.modMem g).pState k = s.pState k := (rfl)
@[simp] theorem State.modMem_fnState (g : MemSt → MemSt) (k : Nat) : (s.modMem g).fnState k = s.fnState k := (rfl)
@[simp] theorem State.modMem_running (g : MemSt → MemSt)  : (s.modMem g).running = s.running := (rfl)

@[simp] theorem State.modMesh_pending (g : MeshSt → MeshSt) : (s.modMesh g).pending = s.pending := (rfl)
@[simp] theorem State.modMesh_tick (g : MeshSt → MeshSt) : (s.modMesh g).tick = s.tick := (rfl)
@[simp] theorem State.modMesh_regs (g : MeshSt → MeshSt) : (s.modMesh g).regs = s.regs := (rfl)
@[simp] theorem State.modMesh_latches (g : MeshSt → MeshSt) : (s.modMesh g).latches = s.latches := (rfl)
@[simp] theorem State.modMesh_wtq (g : MeshSt → MeshSt) : (s.modMesh g).wtq = s.wtq := (rfl)
@[simp] theorem State.modMesh_freeCtr (g : MeshSt → MeshSt) : (s.modMesh g).freeCtr = s.freeCtr := (rfl)
@[simp] theorem State.modMesh_out (g : MeshSt → MeshSt) : (s.modMesh g).out = s.out := (rfl)
@[simp] theorem State.modMesh_fuse (g : MeshSt → MeshSt) : (s.modMesh g).fuse = s.fuse := (rfl)
@[simp] theorem State.modMesh_boot (g : MeshSt → MeshSt) : (s.modMesh g).boot = s.boot := (rfl)
@[simp] theorem State.modMesh_host (g : MeshSt → MeshSt) : (s.modMesh g).host = s.host := (rfl)
@[simp] theorem State.modMesh_flt (g : MeshSt → MeshSt) : (s.modMesh g).flt = s.flt := (rfl)
@[simp] theorem State.modMesh_fronds (g : MeshSt → MeshSt) : (s.modMesh g).fronds = s.fronds := (rfl)
@[simp] theorem State.modMesh_eps (g : MeshSt → MeshSt) : (s.modMesh g).eps = s.eps := (rfl)
@[simp] theorem State.modMesh_slotOwner (g : MeshSt → MeshSt) : (s.modMesh g).slotOwner = s.slotOwner := (rfl)
@[simp] theorem State.modMesh_ports (g : MeshSt → MeshSt) : (s.modMesh g).ports = s.ports := (rfl)
@[simp] theorem State.modMesh_sas (g : MeshSt → MeshSt) : (s.modMesh g).sas = s.sas := (rfl)
@[simp] theorem State.modMesh_sec (g : MeshSt → MeshSt) : (s.modMesh g).sec = s.sec := (rfl)
@[simp] theorem State.modMesh_pm (g : MeshSt → MeshSt) : (s.modMesh g).pm = s.pm := (rfl)
@[simp] theorem State.modMesh_xcFrozen (g : MeshSt → MeshSt) : (s.modMesh g).xcFrozen = s.xcFrozen := (rfl)
@[simp] theorem State.modMesh_peat (g : MeshSt → MeshSt) : (s.modMesh g).peat = s.peat := (rfl)
@[simp] theorem State.modMesh_mem (g : MeshSt → MeshSt) : (s.modMesh g).mem = s.mem := (rfl)
@[simp] theorem State.modMesh_tim (g : MeshSt → MeshSt) : (s.modMesh g).tim = s.tim := (rfl)
@[simp] theorem State.modMesh_mbx (g : MeshSt → MeshSt) : (s.modMesh g).mbx = s.mbx := (rfl)
@[simp] theorem State.modMesh_cals (g : MeshSt → MeshSt) : (s.modMesh g).cals = s.cals := (rfl)
@[simp] theorem State.modMesh_pow (g : MeshSt → MeshSt) : (s.modMesh g).pow = s.pow := (rfl)
@[simp] theorem State.modMesh_mon (g : MeshSt → MeshSt) : (s.modMesh g).mon = s.mon := (rfl)
@[simp] theorem State.modMesh_upd (g : MeshSt → MeshSt) : (s.modMesh g).upd = s.upd := (rfl)
@[simp] theorem State.modMesh_tap (g : MeshSt → MeshSt) : (s.modMesh g).tap = s.tap := (rfl)
@[simp] theorem State.modMesh_mesh (g : MeshSt → MeshSt) : (s.modMesh g).mesh = g s.mesh := (rfl)
@[simp] theorem State.modMesh_reg (g : MeshSt → MeshSt) (k : Nat) : (s.modMesh g).reg k = s.reg k := (rfl)
@[simp] theorem State.modMesh_rd (g : MeshSt → MeshSt) (k : Fld) : (s.modMesh g).rd k = s.rd k := (rfl)
@[simp] theorem State.modMesh_flag (g : MeshSt → MeshSt) (k : Fld) : (s.modMesh g).flag k = s.flag k := (rfl)
@[simp] theorem State.modMesh_frond (g : MeshSt → MeshSt) (k : Nat) : (s.modMesh g).frond k = s.frond k := (rfl)
@[simp] theorem State.modMesh_ep (g : MeshSt → MeshSt) (k : Nat) : (s.modMesh g).ep k = s.ep k := (rfl)
@[simp] theorem State.modMesh_port (g : MeshSt → MeshSt) (k : Nat) : (s.modMesh g).port k = s.port k := (rfl)
@[simp] theorem State.modMesh_sa (g : MeshSt → MeshSt) (k : Nat) : (s.modMesh g).sa k = s.sa k := (rfl)
@[simp] theorem State.modMesh_frondEnabled (g : MeshSt → MeshSt) (k : Nat) : (s.modMesh g).frondEnabled k = s.frondEnabled k := (rfl)
@[simp] theorem State.modMesh_rdS (g : MeshSt → MeshSt) (k : Fld) : (s.modMesh g).rdS k = s.rdS k := (rfl)
@[simp] theorem State.modMesh_acqState (g : MeshSt → MeshSt) (k : Nat) : (s.modMesh g).acqState k = s.acqState k := (rfl)
@[simp] theorem State.modMesh_pState (g : MeshSt → MeshSt) (k : Nat) : (s.modMesh g).pState k = s.pState k := (rfl)
@[simp] theorem State.modMesh_fnState (g : MeshSt → MeshSt) (k : Nat) : (s.modMesh g).fnState k = s.fnState k := (rfl)
@[simp] theorem State.modMesh_running (g : MeshSt → MeshSt)  : (s.modMesh g).running = s.running := (rfl)

@[simp] theorem State.modMon_pending (g : MonSt → MonSt) : (s.modMon g).pending = s.pending := (rfl)
@[simp] theorem State.modMon_tick (g : MonSt → MonSt) : (s.modMon g).tick = s.tick := (rfl)
@[simp] theorem State.modMon_regs (g : MonSt → MonSt) : (s.modMon g).regs = s.regs := (rfl)
@[simp] theorem State.modMon_latches (g : MonSt → MonSt) : (s.modMon g).latches = s.latches := (rfl)
@[simp] theorem State.modMon_wtq (g : MonSt → MonSt) : (s.modMon g).wtq = s.wtq := (rfl)
@[simp] theorem State.modMon_freeCtr (g : MonSt → MonSt) : (s.modMon g).freeCtr = s.freeCtr := (rfl)
@[simp] theorem State.modMon_out (g : MonSt → MonSt) : (s.modMon g).out = s.out := (rfl)
@[simp] theorem State.modMon_fuse (g : MonSt → MonSt) : (s.modMon g).fuse = s.fuse := (rfl)
@[simp] theorem State.modMon_boot (g : MonSt → MonSt) : (s.modMon g).boot = s.boot := (rfl)
@[simp] theorem State.modMon_host (g : MonSt → MonSt) : (s.modMon g).host = s.host := (rfl)
@[simp] theorem State.modMon_flt (g : MonSt → MonSt) : (s.modMon g).flt = s.flt := (rfl)
@[simp] theorem State.modMon_fronds (g : MonSt → MonSt) : (s.modMon g).fronds = s.fronds := (rfl)
@[simp] theorem State.modMon_eps (g : MonSt → MonSt) : (s.modMon g).eps = s.eps := (rfl)
@[simp] theorem State.modMon_slotOwner (g : MonSt → MonSt) : (s.modMon g).slotOwner = s.slotOwner := (rfl)
@[simp] theorem State.modMon_ports (g : MonSt → MonSt) : (s.modMon g).ports = s.ports := (rfl)
@[simp] theorem State.modMon_sas (g : MonSt → MonSt) : (s.modMon g).sas = s.sas := (rfl)
@[simp] theorem State.modMon_sec (g : MonSt → MonSt) : (s.modMon g).sec = s.sec := (rfl)
@[simp] theorem State.modMon_pm (g : MonSt → MonSt) : (s.modMon g).pm = s.pm := (rfl)
@[simp] theorem State.modMon_xcFrozen (g : MonSt → MonSt) : (s.modMon g).xcFrozen = s.xcFrozen := (rfl)
@[simp] theorem State.modMon_peat (g : MonSt → MonSt) : (s.modMon g).peat = s.peat := (rfl)
@[simp] theorem State.modMon_mem (g : MonSt → MonSt) : (s.modMon g).mem = s.mem := (rfl)
@[simp] theorem State.modMon_tim (g : MonSt → MonSt) : (s.modMon g).tim = s.tim := (rfl)
@[simp] theorem State.modMon_mesh (g : MonSt → MonSt) : (s.modMon g).mesh = s.mesh := (rfl)
@[simp] theorem State.modMon_mbx (g : MonSt → MonSt) : (s.modMon g).mbx = s.mbx := (rfl)
@[simp] theorem State.modMon_cals (g : MonSt → MonSt) : (s.modMon g).cals = s.cals := (rfl)
@[simp] theorem State.modMon_pow (g : MonSt → MonSt) : (s.modMon g).pow = s.pow := (rfl)
@[simp] theorem State.modMon_upd (g : MonSt → MonSt) : (s.modMon g).upd = s.upd := (rfl)
@[simp] theorem State.modMon_tap (g : MonSt → MonSt) : (s.modMon g).tap = s.tap := (rfl)
@[simp] theorem State.modMon_mon (g : MonSt → MonSt) : (s.modMon g).mon = g s.mon := (rfl)
@[simp] theorem State.modMon_reg (g : MonSt → MonSt) (k : Nat) : (s.modMon g).reg k = s.reg k := (rfl)
@[simp] theorem State.modMon_rd (g : MonSt → MonSt) (k : Fld) : (s.modMon g).rd k = s.rd k := (rfl)
@[simp] theorem State.modMon_flag (g : MonSt → MonSt) (k : Fld) : (s.modMon g).flag k = s.flag k := (rfl)
@[simp] theorem State.modMon_frond (g : MonSt → MonSt) (k : Nat) : (s.modMon g).frond k = s.frond k := (rfl)
@[simp] theorem State.modMon_ep (g : MonSt → MonSt) (k : Nat) : (s.modMon g).ep k = s.ep k := (rfl)
@[simp] theorem State.modMon_port (g : MonSt → MonSt) (k : Nat) : (s.modMon g).port k = s.port k := (rfl)
@[simp] theorem State.modMon_sa (g : MonSt → MonSt) (k : Nat) : (s.modMon g).sa k = s.sa k := (rfl)
@[simp] theorem State.modMon_frondEnabled (g : MonSt → MonSt) (k : Nat) : (s.modMon g).frondEnabled k = s.frondEnabled k := (rfl)
@[simp] theorem State.modMon_rdS (g : MonSt → MonSt) (k : Fld) : (s.modMon g).rdS k = s.rdS k := (rfl)
@[simp] theorem State.modMon_acqState (g : MonSt → MonSt) (k : Nat) : (s.modMon g).acqState k = s.acqState k := (rfl)
@[simp] theorem State.modMon_pState (g : MonSt → MonSt) (k : Nat) : (s.modMon g).pState k = s.pState k := (rfl)
@[simp] theorem State.modMon_fnState (g : MonSt → MonSt) (k : Nat) : (s.modMon g).fnState k = s.fnState k := (rfl)
@[simp] theorem State.modMon_running (g : MonSt → MonSt)  : (s.modMon g).running = s.running := (rfl)

@[simp] theorem State.modPeat_pending (g : PeatSt → PeatSt) : (s.modPeat g).pending = s.pending := (rfl)
@[simp] theorem State.modPeat_tick (g : PeatSt → PeatSt) : (s.modPeat g).tick = s.tick := (rfl)
@[simp] theorem State.modPeat_regs (g : PeatSt → PeatSt) : (s.modPeat g).regs = s.regs := (rfl)
@[simp] theorem State.modPeat_latches (g : PeatSt → PeatSt) : (s.modPeat g).latches = s.latches := (rfl)
@[simp] theorem State.modPeat_wtq (g : PeatSt → PeatSt) : (s.modPeat g).wtq = s.wtq := (rfl)
@[simp] theorem State.modPeat_freeCtr (g : PeatSt → PeatSt) : (s.modPeat g).freeCtr = s.freeCtr := (rfl)
@[simp] theorem State.modPeat_out (g : PeatSt → PeatSt) : (s.modPeat g).out = s.out := (rfl)
@[simp] theorem State.modPeat_fuse (g : PeatSt → PeatSt) : (s.modPeat g).fuse = s.fuse := (rfl)
@[simp] theorem State.modPeat_boot (g : PeatSt → PeatSt) : (s.modPeat g).boot = s.boot := (rfl)
@[simp] theorem State.modPeat_host (g : PeatSt → PeatSt) : (s.modPeat g).host = s.host := (rfl)
@[simp] theorem State.modPeat_flt (g : PeatSt → PeatSt) : (s.modPeat g).flt = s.flt := (rfl)
@[simp] theorem State.modPeat_fronds (g : PeatSt → PeatSt) : (s.modPeat g).fronds = s.fronds := (rfl)
@[simp] theorem State.modPeat_eps (g : PeatSt → PeatSt) : (s.modPeat g).eps = s.eps := (rfl)
@[simp] theorem State.modPeat_slotOwner (g : PeatSt → PeatSt) : (s.modPeat g).slotOwner = s.slotOwner := (rfl)
@[simp] theorem State.modPeat_ports (g : PeatSt → PeatSt) : (s.modPeat g).ports = s.ports := (rfl)
@[simp] theorem State.modPeat_sas (g : PeatSt → PeatSt) : (s.modPeat g).sas = s.sas := (rfl)
@[simp] theorem State.modPeat_sec (g : PeatSt → PeatSt) : (s.modPeat g).sec = s.sec := (rfl)
@[simp] theorem State.modPeat_pm (g : PeatSt → PeatSt) : (s.modPeat g).pm = s.pm := (rfl)
@[simp] theorem State.modPeat_xcFrozen (g : PeatSt → PeatSt) : (s.modPeat g).xcFrozen = s.xcFrozen := (rfl)
@[simp] theorem State.modPeat_mem (g : PeatSt → PeatSt) : (s.modPeat g).mem = s.mem := (rfl)
@[simp] theorem State.modPeat_tim (g : PeatSt → PeatSt) : (s.modPeat g).tim = s.tim := (rfl)
@[simp] theorem State.modPeat_mesh (g : PeatSt → PeatSt) : (s.modPeat g).mesh = s.mesh := (rfl)
@[simp] theorem State.modPeat_mbx (g : PeatSt → PeatSt) : (s.modPeat g).mbx = s.mbx := (rfl)
@[simp] theorem State.modPeat_cals (g : PeatSt → PeatSt) : (s.modPeat g).cals = s.cals := (rfl)
@[simp] theorem State.modPeat_pow (g : PeatSt → PeatSt) : (s.modPeat g).pow = s.pow := (rfl)
@[simp] theorem State.modPeat_mon (g : PeatSt → PeatSt) : (s.modPeat g).mon = s.mon := (rfl)
@[simp] theorem State.modPeat_upd (g : PeatSt → PeatSt) : (s.modPeat g).upd = s.upd := (rfl)
@[simp] theorem State.modPeat_tap (g : PeatSt → PeatSt) : (s.modPeat g).tap = s.tap := (rfl)
@[simp] theorem State.modPeat_peat (g : PeatSt → PeatSt) : (s.modPeat g).peat = g s.peat := (rfl)
@[simp] theorem State.modPeat_reg (g : PeatSt → PeatSt) (k : Nat) : (s.modPeat g).reg k = s.reg k := (rfl)
@[simp] theorem State.modPeat_rd (g : PeatSt → PeatSt) (k : Fld) : (s.modPeat g).rd k = s.rd k := (rfl)
@[simp] theorem State.modPeat_flag (g : PeatSt → PeatSt) (k : Fld) : (s.modPeat g).flag k = s.flag k := (rfl)
@[simp] theorem State.modPeat_frond (g : PeatSt → PeatSt) (k : Nat) : (s.modPeat g).frond k = s.frond k := (rfl)
@[simp] theorem State.modPeat_ep (g : PeatSt → PeatSt) (k : Nat) : (s.modPeat g).ep k = s.ep k := (rfl)
@[simp] theorem State.modPeat_port (g : PeatSt → PeatSt) (k : Nat) : (s.modPeat g).port k = s.port k := (rfl)
@[simp] theorem State.modPeat_sa (g : PeatSt → PeatSt) (k : Nat) : (s.modPeat g).sa k = s.sa k := (rfl)
@[simp] theorem State.modPeat_frondEnabled (g : PeatSt → PeatSt) (k : Nat) : (s.modPeat g).frondEnabled k = s.frondEnabled k := (rfl)
@[simp] theorem State.modPeat_rdS (g : PeatSt → PeatSt) (k : Fld) : (s.modPeat g).rdS k = s.rdS k := (rfl)
@[simp] theorem State.modPeat_acqState (g : PeatSt → PeatSt) (k : Nat) : (s.modPeat g).acqState k = s.acqState k := (rfl)
@[simp] theorem State.modPeat_pState (g : PeatSt → PeatSt) (k : Nat) : (s.modPeat g).pState k = s.pState k := (rfl)
@[simp] theorem State.modPeat_fnState (g : PeatSt → PeatSt) (k : Nat) : (s.modPeat g).fnState k = s.fnState k := (rfl)
@[simp] theorem State.modPeat_running (g : PeatSt → PeatSt)  : (s.modPeat g).running = s.running := (rfl)

@[simp] theorem State.modPow_pending (g : PowSt → PowSt) : (s.modPow g).pending = s.pending := (rfl)
@[simp] theorem State.modPow_tick (g : PowSt → PowSt) : (s.modPow g).tick = s.tick := (rfl)
@[simp] theorem State.modPow_regs (g : PowSt → PowSt) : (s.modPow g).regs = s.regs := (rfl)
@[simp] theorem State.modPow_latches (g : PowSt → PowSt) : (s.modPow g).latches = s.latches := (rfl)
@[simp] theorem State.modPow_wtq (g : PowSt → PowSt) : (s.modPow g).wtq = s.wtq := (rfl)
@[simp] theorem State.modPow_freeCtr (g : PowSt → PowSt) : (s.modPow g).freeCtr = s.freeCtr := (rfl)
@[simp] theorem State.modPow_out (g : PowSt → PowSt) : (s.modPow g).out = s.out := (rfl)
@[simp] theorem State.modPow_fuse (g : PowSt → PowSt) : (s.modPow g).fuse = s.fuse := (rfl)
@[simp] theorem State.modPow_boot (g : PowSt → PowSt) : (s.modPow g).boot = s.boot := (rfl)
@[simp] theorem State.modPow_host (g : PowSt → PowSt) : (s.modPow g).host = s.host := (rfl)
@[simp] theorem State.modPow_flt (g : PowSt → PowSt) : (s.modPow g).flt = s.flt := (rfl)
@[simp] theorem State.modPow_fronds (g : PowSt → PowSt) : (s.modPow g).fronds = s.fronds := (rfl)
@[simp] theorem State.modPow_eps (g : PowSt → PowSt) : (s.modPow g).eps = s.eps := (rfl)
@[simp] theorem State.modPow_slotOwner (g : PowSt → PowSt) : (s.modPow g).slotOwner = s.slotOwner := (rfl)
@[simp] theorem State.modPow_ports (g : PowSt → PowSt) : (s.modPow g).ports = s.ports := (rfl)
@[simp] theorem State.modPow_sas (g : PowSt → PowSt) : (s.modPow g).sas = s.sas := (rfl)
@[simp] theorem State.modPow_sec (g : PowSt → PowSt) : (s.modPow g).sec = s.sec := (rfl)
@[simp] theorem State.modPow_pm (g : PowSt → PowSt) : (s.modPow g).pm = s.pm := (rfl)
@[simp] theorem State.modPow_xcFrozen (g : PowSt → PowSt) : (s.modPow g).xcFrozen = s.xcFrozen := (rfl)
@[simp] theorem State.modPow_peat (g : PowSt → PowSt) : (s.modPow g).peat = s.peat := (rfl)
@[simp] theorem State.modPow_mem (g : PowSt → PowSt) : (s.modPow g).mem = s.mem := (rfl)
@[simp] theorem State.modPow_tim (g : PowSt → PowSt) : (s.modPow g).tim = s.tim := (rfl)
@[simp] theorem State.modPow_mesh (g : PowSt → PowSt) : (s.modPow g).mesh = s.mesh := (rfl)
@[simp] theorem State.modPow_mbx (g : PowSt → PowSt) : (s.modPow g).mbx = s.mbx := (rfl)
@[simp] theorem State.modPow_cals (g : PowSt → PowSt) : (s.modPow g).cals = s.cals := (rfl)
@[simp] theorem State.modPow_mon (g : PowSt → PowSt) : (s.modPow g).mon = s.mon := (rfl)
@[simp] theorem State.modPow_upd (g : PowSt → PowSt) : (s.modPow g).upd = s.upd := (rfl)
@[simp] theorem State.modPow_tap (g : PowSt → PowSt) : (s.modPow g).tap = s.tap := (rfl)
@[simp] theorem State.modPow_pow (g : PowSt → PowSt) : (s.modPow g).pow = g s.pow := (rfl)
@[simp] theorem State.modPow_reg (g : PowSt → PowSt) (k : Nat) : (s.modPow g).reg k = s.reg k := (rfl)
@[simp] theorem State.modPow_rd (g : PowSt → PowSt) (k : Fld) : (s.modPow g).rd k = s.rd k := (rfl)
@[simp] theorem State.modPow_flag (g : PowSt → PowSt) (k : Fld) : (s.modPow g).flag k = s.flag k := (rfl)
@[simp] theorem State.modPow_frond (g : PowSt → PowSt) (k : Nat) : (s.modPow g).frond k = s.frond k := (rfl)
@[simp] theorem State.modPow_ep (g : PowSt → PowSt) (k : Nat) : (s.modPow g).ep k = s.ep k := (rfl)
@[simp] theorem State.modPow_port (g : PowSt → PowSt) (k : Nat) : (s.modPow g).port k = s.port k := (rfl)
@[simp] theorem State.modPow_sa (g : PowSt → PowSt) (k : Nat) : (s.modPow g).sa k = s.sa k := (rfl)
@[simp] theorem State.modPow_frondEnabled (g : PowSt → PowSt) (k : Nat) : (s.modPow g).frondEnabled k = s.frondEnabled k := (rfl)
@[simp] theorem State.modPow_rdS (g : PowSt → PowSt) (k : Fld) : (s.modPow g).rdS k = s.rdS k := (rfl)
@[simp] theorem State.modPow_acqState (g : PowSt → PowSt) (k : Nat) : (s.modPow g).acqState k = s.acqState k := (rfl)
@[simp] theorem State.modPow_pState (g : PowSt → PowSt) (k : Nat) : (s.modPow g).pState k = s.pState k := (rfl)
@[simp] theorem State.modPow_fnState (g : PowSt → PowSt) (k : Nat) : (s.modPow g).fnState k = s.fnState k := (rfl)
@[simp] theorem State.modPow_running (g : PowSt → PowSt)  : (s.modPow g).running = s.running := (rfl)

@[simp] theorem State.modTim_pending (g : TimSt → TimSt) : (s.modTim g).pending = s.pending := (rfl)
@[simp] theorem State.modTim_tick (g : TimSt → TimSt) : (s.modTim g).tick = s.tick := (rfl)
@[simp] theorem State.modTim_regs (g : TimSt → TimSt) : (s.modTim g).regs = s.regs := (rfl)
@[simp] theorem State.modTim_latches (g : TimSt → TimSt) : (s.modTim g).latches = s.latches := (rfl)
@[simp] theorem State.modTim_wtq (g : TimSt → TimSt) : (s.modTim g).wtq = s.wtq := (rfl)
@[simp] theorem State.modTim_freeCtr (g : TimSt → TimSt) : (s.modTim g).freeCtr = s.freeCtr := (rfl)
@[simp] theorem State.modTim_out (g : TimSt → TimSt) : (s.modTim g).out = s.out := (rfl)
@[simp] theorem State.modTim_fuse (g : TimSt → TimSt) : (s.modTim g).fuse = s.fuse := (rfl)
@[simp] theorem State.modTim_boot (g : TimSt → TimSt) : (s.modTim g).boot = s.boot := (rfl)
@[simp] theorem State.modTim_host (g : TimSt → TimSt) : (s.modTim g).host = s.host := (rfl)
@[simp] theorem State.modTim_flt (g : TimSt → TimSt) : (s.modTim g).flt = s.flt := (rfl)
@[simp] theorem State.modTim_fronds (g : TimSt → TimSt) : (s.modTim g).fronds = s.fronds := (rfl)
@[simp] theorem State.modTim_eps (g : TimSt → TimSt) : (s.modTim g).eps = s.eps := (rfl)
@[simp] theorem State.modTim_slotOwner (g : TimSt → TimSt) : (s.modTim g).slotOwner = s.slotOwner := (rfl)
@[simp] theorem State.modTim_ports (g : TimSt → TimSt) : (s.modTim g).ports = s.ports := (rfl)
@[simp] theorem State.modTim_sas (g : TimSt → TimSt) : (s.modTim g).sas = s.sas := (rfl)
@[simp] theorem State.modTim_sec (g : TimSt → TimSt) : (s.modTim g).sec = s.sec := (rfl)
@[simp] theorem State.modTim_pm (g : TimSt → TimSt) : (s.modTim g).pm = s.pm := (rfl)
@[simp] theorem State.modTim_xcFrozen (g : TimSt → TimSt) : (s.modTim g).xcFrozen = s.xcFrozen := (rfl)
@[simp] theorem State.modTim_peat (g : TimSt → TimSt) : (s.modTim g).peat = s.peat := (rfl)
@[simp] theorem State.modTim_mem (g : TimSt → TimSt) : (s.modTim g).mem = s.mem := (rfl)
@[simp] theorem State.modTim_mesh (g : TimSt → TimSt) : (s.modTim g).mesh = s.mesh := (rfl)
@[simp] theorem State.modTim_mbx (g : TimSt → TimSt) : (s.modTim g).mbx = s.mbx := (rfl)
@[simp] theorem State.modTim_cals (g : TimSt → TimSt) : (s.modTim g).cals = s.cals := (rfl)
@[simp] theorem State.modTim_pow (g : TimSt → TimSt) : (s.modTim g).pow = s.pow := (rfl)
@[simp] theorem State.modTim_mon (g : TimSt → TimSt) : (s.modTim g).mon = s.mon := (rfl)
@[simp] theorem State.modTim_upd (g : TimSt → TimSt) : (s.modTim g).upd = s.upd := (rfl)
@[simp] theorem State.modTim_tap (g : TimSt → TimSt) : (s.modTim g).tap = s.tap := (rfl)
@[simp] theorem State.modTim_tim (g : TimSt → TimSt) : (s.modTim g).tim = g s.tim := (rfl)
@[simp] theorem State.modTim_reg (g : TimSt → TimSt) (k : Nat) : (s.modTim g).reg k = s.reg k := (rfl)
@[simp] theorem State.modTim_rd (g : TimSt → TimSt) (k : Fld) : (s.modTim g).rd k = s.rd k := (rfl)
@[simp] theorem State.modTim_flag (g : TimSt → TimSt) (k : Fld) : (s.modTim g).flag k = s.flag k := (rfl)
@[simp] theorem State.modTim_frond (g : TimSt → TimSt) (k : Nat) : (s.modTim g).frond k = s.frond k := (rfl)
@[simp] theorem State.modTim_ep (g : TimSt → TimSt) (k : Nat) : (s.modTim g).ep k = s.ep k := (rfl)
@[simp] theorem State.modTim_port (g : TimSt → TimSt) (k : Nat) : (s.modTim g).port k = s.port k := (rfl)
@[simp] theorem State.modTim_sa (g : TimSt → TimSt) (k : Nat) : (s.modTim g).sa k = s.sa k := (rfl)
@[simp] theorem State.modTim_frondEnabled (g : TimSt → TimSt) (k : Nat) : (s.modTim g).frondEnabled k = s.frondEnabled k := (rfl)
@[simp] theorem State.modTim_rdS (g : TimSt → TimSt) (k : Fld) : (s.modTim g).rdS k = s.rdS k := (rfl)
@[simp] theorem State.modTim_acqState (g : TimSt → TimSt) (k : Nat) : (s.modTim g).acqState k = s.acqState k := (rfl)
@[simp] theorem State.modTim_pState (g : TimSt → TimSt) (k : Nat) : (s.modTim g).pState k = s.pState k := (rfl)
@[simp] theorem State.modTim_fnState (g : TimSt → TimSt) (k : Nat) : (s.modTim g).fnState k = s.fnState k := (rfl)
@[simp] theorem State.modTim_running (g : TimSt → TimSt)  : (s.modTim g).running = s.running := (rfl)

@[simp] theorem State.modUpd_pending (g : UpdSt → UpdSt) : (s.modUpd g).pending = s.pending := (rfl)
@[simp] theorem State.modUpd_tick (g : UpdSt → UpdSt) : (s.modUpd g).tick = s.tick := (rfl)
@[simp] theorem State.modUpd_regs (g : UpdSt → UpdSt) : (s.modUpd g).regs = s.regs := (rfl)
@[simp] theorem State.modUpd_latches (g : UpdSt → UpdSt) : (s.modUpd g).latches = s.latches := (rfl)
@[simp] theorem State.modUpd_wtq (g : UpdSt → UpdSt) : (s.modUpd g).wtq = s.wtq := (rfl)
@[simp] theorem State.modUpd_freeCtr (g : UpdSt → UpdSt) : (s.modUpd g).freeCtr = s.freeCtr := (rfl)
@[simp] theorem State.modUpd_out (g : UpdSt → UpdSt) : (s.modUpd g).out = s.out := (rfl)
@[simp] theorem State.modUpd_fuse (g : UpdSt → UpdSt) : (s.modUpd g).fuse = s.fuse := (rfl)
@[simp] theorem State.modUpd_boot (g : UpdSt → UpdSt) : (s.modUpd g).boot = s.boot := (rfl)
@[simp] theorem State.modUpd_host (g : UpdSt → UpdSt) : (s.modUpd g).host = s.host := (rfl)
@[simp] theorem State.modUpd_flt (g : UpdSt → UpdSt) : (s.modUpd g).flt = s.flt := (rfl)
@[simp] theorem State.modUpd_fronds (g : UpdSt → UpdSt) : (s.modUpd g).fronds = s.fronds := (rfl)
@[simp] theorem State.modUpd_eps (g : UpdSt → UpdSt) : (s.modUpd g).eps = s.eps := (rfl)
@[simp] theorem State.modUpd_slotOwner (g : UpdSt → UpdSt) : (s.modUpd g).slotOwner = s.slotOwner := (rfl)
@[simp] theorem State.modUpd_ports (g : UpdSt → UpdSt) : (s.modUpd g).ports = s.ports := (rfl)
@[simp] theorem State.modUpd_sas (g : UpdSt → UpdSt) : (s.modUpd g).sas = s.sas := (rfl)
@[simp] theorem State.modUpd_sec (g : UpdSt → UpdSt) : (s.modUpd g).sec = s.sec := (rfl)
@[simp] theorem State.modUpd_pm (g : UpdSt → UpdSt) : (s.modUpd g).pm = s.pm := (rfl)
@[simp] theorem State.modUpd_xcFrozen (g : UpdSt → UpdSt) : (s.modUpd g).xcFrozen = s.xcFrozen := (rfl)
@[simp] theorem State.modUpd_peat (g : UpdSt → UpdSt) : (s.modUpd g).peat = s.peat := (rfl)
@[simp] theorem State.modUpd_mem (g : UpdSt → UpdSt) : (s.modUpd g).mem = s.mem := (rfl)
@[simp] theorem State.modUpd_tim (g : UpdSt → UpdSt) : (s.modUpd g).tim = s.tim := (rfl)
@[simp] theorem State.modUpd_mesh (g : UpdSt → UpdSt) : (s.modUpd g).mesh = s.mesh := (rfl)
@[simp] theorem State.modUpd_mbx (g : UpdSt → UpdSt) : (s.modUpd g).mbx = s.mbx := (rfl)
@[simp] theorem State.modUpd_cals (g : UpdSt → UpdSt) : (s.modUpd g).cals = s.cals := (rfl)
@[simp] theorem State.modUpd_pow (g : UpdSt → UpdSt) : (s.modUpd g).pow = s.pow := (rfl)
@[simp] theorem State.modUpd_mon (g : UpdSt → UpdSt) : (s.modUpd g).mon = s.mon := (rfl)
@[simp] theorem State.modUpd_tap (g : UpdSt → UpdSt) : (s.modUpd g).tap = s.tap := (rfl)
@[simp] theorem State.modUpd_upd (g : UpdSt → UpdSt) : (s.modUpd g).upd = g s.upd := (rfl)
@[simp] theorem State.modUpd_reg (g : UpdSt → UpdSt) (k : Nat) : (s.modUpd g).reg k = s.reg k := (rfl)
@[simp] theorem State.modUpd_rd (g : UpdSt → UpdSt) (k : Fld) : (s.modUpd g).rd k = s.rd k := (rfl)
@[simp] theorem State.modUpd_flag (g : UpdSt → UpdSt) (k : Fld) : (s.modUpd g).flag k = s.flag k := (rfl)
@[simp] theorem State.modUpd_frond (g : UpdSt → UpdSt) (k : Nat) : (s.modUpd g).frond k = s.frond k := (rfl)
@[simp] theorem State.modUpd_ep (g : UpdSt → UpdSt) (k : Nat) : (s.modUpd g).ep k = s.ep k := (rfl)
@[simp] theorem State.modUpd_port (g : UpdSt → UpdSt) (k : Nat) : (s.modUpd g).port k = s.port k := (rfl)
@[simp] theorem State.modUpd_sa (g : UpdSt → UpdSt) (k : Nat) : (s.modUpd g).sa k = s.sa k := (rfl)
@[simp] theorem State.modUpd_frondEnabled (g : UpdSt → UpdSt) (k : Nat) : (s.modUpd g).frondEnabled k = s.frondEnabled k := (rfl)
@[simp] theorem State.modUpd_rdS (g : UpdSt → UpdSt) (k : Fld) : (s.modUpd g).rdS k = s.rdS k := (rfl)
@[simp] theorem State.modUpd_acqState (g : UpdSt → UpdSt) (k : Nat) : (s.modUpd g).acqState k = s.acqState k := (rfl)
@[simp] theorem State.modUpd_pState (g : UpdSt → UpdSt) (k : Nat) : (s.modUpd g).pState k = s.pState k := (rfl)
@[simp] theorem State.modUpd_fnState (g : UpdSt → UpdSt) (k : Nat) : (s.modUpd g).fnState k = s.fnState k := (rfl)
@[simp] theorem State.modUpd_running (g : UpdSt → UpdSt)  : (s.modUpd g).running = s.running := (rfl)

@[simp] theorem State.setFrondCal_pending (f : Nat) (x : FrondCal) : (s.setFrondCal f x).pending = s.pending := (rfl)
@[simp] theorem State.setFrondCal_tick (f : Nat) (x : FrondCal) : (s.setFrondCal f x).tick = s.tick := (rfl)
@[simp] theorem State.setFrondCal_regs (f : Nat) (x : FrondCal) : (s.setFrondCal f x).regs = s.regs := (rfl)
@[simp] theorem State.setFrondCal_latches (f : Nat) (x : FrondCal) : (s.setFrondCal f x).latches = s.latches := (rfl)
@[simp] theorem State.setFrondCal_wtq (f : Nat) (x : FrondCal) : (s.setFrondCal f x).wtq = s.wtq := (rfl)
@[simp] theorem State.setFrondCal_freeCtr (f : Nat) (x : FrondCal) : (s.setFrondCal f x).freeCtr = s.freeCtr := (rfl)
@[simp] theorem State.setFrondCal_out (f : Nat) (x : FrondCal) : (s.setFrondCal f x).out = s.out := (rfl)
@[simp] theorem State.setFrondCal_fuse (f : Nat) (x : FrondCal) : (s.setFrondCal f x).fuse = s.fuse := (rfl)
@[simp] theorem State.setFrondCal_boot (f : Nat) (x : FrondCal) : (s.setFrondCal f x).boot = s.boot := (rfl)
@[simp] theorem State.setFrondCal_host (f : Nat) (x : FrondCal) : (s.setFrondCal f x).host = s.host := (rfl)
@[simp] theorem State.setFrondCal_flt (f : Nat) (x : FrondCal) : (s.setFrondCal f x).flt = s.flt := (rfl)
@[simp] theorem State.setFrondCal_fronds (f : Nat) (x : FrondCal) : (s.setFrondCal f x).fronds = s.fronds := (rfl)
@[simp] theorem State.setFrondCal_eps (f : Nat) (x : FrondCal) : (s.setFrondCal f x).eps = s.eps := (rfl)
@[simp] theorem State.setFrondCal_slotOwner (f : Nat) (x : FrondCal) : (s.setFrondCal f x).slotOwner = s.slotOwner := (rfl)
@[simp] theorem State.setFrondCal_ports (f : Nat) (x : FrondCal) : (s.setFrondCal f x).ports = s.ports := (rfl)
@[simp] theorem State.setFrondCal_sas (f : Nat) (x : FrondCal) : (s.setFrondCal f x).sas = s.sas := (rfl)
@[simp] theorem State.setFrondCal_sec (f : Nat) (x : FrondCal) : (s.setFrondCal f x).sec = s.sec := (rfl)
@[simp] theorem State.setFrondCal_pm (f : Nat) (x : FrondCal) : (s.setFrondCal f x).pm = s.pm := (rfl)
@[simp] theorem State.setFrondCal_xcFrozen (f : Nat) (x : FrondCal) : (s.setFrondCal f x).xcFrozen = s.xcFrozen := (rfl)
@[simp] theorem State.setFrondCal_peat (f : Nat) (x : FrondCal) : (s.setFrondCal f x).peat = s.peat := (rfl)
@[simp] theorem State.setFrondCal_mem (f : Nat) (x : FrondCal) : (s.setFrondCal f x).mem = s.mem := (rfl)
@[simp] theorem State.setFrondCal_tim (f : Nat) (x : FrondCal) : (s.setFrondCal f x).tim = s.tim := (rfl)
@[simp] theorem State.setFrondCal_mesh (f : Nat) (x : FrondCal) : (s.setFrondCal f x).mesh = s.mesh := (rfl)
@[simp] theorem State.setFrondCal_mbx (f : Nat) (x : FrondCal) : (s.setFrondCal f x).mbx = s.mbx := (rfl)
@[simp] theorem State.setFrondCal_pow (f : Nat) (x : FrondCal) : (s.setFrondCal f x).pow = s.pow := (rfl)
@[simp] theorem State.setFrondCal_mon (f : Nat) (x : FrondCal) : (s.setFrondCal f x).mon = s.mon := (rfl)
@[simp] theorem State.setFrondCal_upd (f : Nat) (x : FrondCal) : (s.setFrondCal f x).upd = s.upd := (rfl)
@[simp] theorem State.setFrondCal_tap (f : Nat) (x : FrondCal) : (s.setFrondCal f x).tap = s.tap := (rfl)
@[simp] theorem State.setFrondCal_reg (f : Nat) (x : FrondCal) (k : Nat) : (s.setFrondCal f x).reg k = s.reg k := (rfl)
@[simp] theorem State.setFrondCal_rd (f : Nat) (x : FrondCal) (k : Fld) : (s.setFrondCal f x).rd k = s.rd k := (rfl)
@[simp] theorem State.setFrondCal_flag (f : Nat) (x : FrondCal) (k : Fld) : (s.setFrondCal f x).flag k = s.flag k := (rfl)
@[simp] theorem State.setFrondCal_frond (f : Nat) (x : FrondCal) (k : Nat) : (s.setFrondCal f x).frond k = s.frond k := (rfl)
@[simp] theorem State.setFrondCal_ep (f : Nat) (x : FrondCal) (k : Nat) : (s.setFrondCal f x).ep k = s.ep k := (rfl)
@[simp] theorem State.setFrondCal_port (f : Nat) (x : FrondCal) (k : Nat) : (s.setFrondCal f x).port k = s.port k := (rfl)
@[simp] theorem State.setFrondCal_sa (f : Nat) (x : FrondCal) (k : Nat) : (s.setFrondCal f x).sa k = s.sa k := (rfl)
@[simp] theorem State.setFrondCal_frondEnabled (f : Nat) (x : FrondCal) (k : Nat) : (s.setFrondCal f x).frondEnabled k = s.frondEnabled k := (rfl)
@[simp] theorem State.setFrondCal_rdS (f : Nat) (x : FrondCal) (k : Fld) : (s.setFrondCal f x).rdS k = s.rdS k := (rfl)
@[simp] theorem State.setFrondCal_acqState (f : Nat) (x : FrondCal) (k : Nat) : (s.setFrondCal f x).acqState k = s.acqState k := (rfl)
@[simp] theorem State.setFrondCal_pState (f : Nat) (x : FrondCal) (k : Nat) : (s.setFrondCal f x).pState k = s.pState k := (rfl)
@[simp] theorem State.setFrondCal_fnState (f : Nat) (x : FrondCal) (k : Nat) : (s.setFrondCal f x).fnState k = s.fnState k := (rfl)
@[simp] theorem State.setFrondCal_running (f : Nat) (x : FrondCal)  : (s.setFrondCal f x).running = s.running := (rfl)

/-- Two states that agree in every field are equal. -/
theorem State.ext_fields {a b : State} (h_pending : a.pending = b.pending) (h_tick : a.tick = b.tick) (h_regs : a.regs = b.regs) (h_latches : a.latches = b.latches) (h_wtq : a.wtq = b.wtq) (h_freeCtr : a.freeCtr = b.freeCtr) (h_out : a.out = b.out) (h_fuse : a.fuse = b.fuse) (h_boot : a.boot = b.boot) (h_host : a.host = b.host) (h_flt : a.flt = b.flt) (h_fronds : a.fronds = b.fronds) (h_eps : a.eps = b.eps) (h_slotOwner : a.slotOwner = b.slotOwner) (h_ports : a.ports = b.ports) (h_sas : a.sas = b.sas) (h_sec : a.sec = b.sec) (h_pm : a.pm = b.pm) (h_xcFrozen : a.xcFrozen = b.xcFrozen) (h_peat : a.peat = b.peat) (h_mem : a.mem = b.mem) (h_tim : a.tim = b.tim) (h_mesh : a.mesh = b.mesh) (h_mbx : a.mbx = b.mbx) (h_cals : a.cals = b.cals) (h_pow : a.pow = b.pow) (h_mon : a.mon = b.mon) (h_upd : a.upd = b.upd) (h_tap : a.tap = b.tap) : a = b := by
  cases a; cases b; simp_all only

end Sys2Proof.Machine
end

