-- ==== Sys2Proof/Laws/Tab.lean ====
section
/-! SUPPORT. The laws of sparse tables: a read after a write, and the canonical form. -/
namespace Sys2Proof.Machine

variable {α : Type}

@[simp] theorem Tab.get_erase_same (d : Nat → α) (t : Tab α) (k : Nat) : Tab.get d (Tab.erase t k) k = d k := by
  induction t with
  | nil => rfl
  | cons p t ih =>
    obtain ⟨j, v⟩ := p
    by_cases h : k = j <;> simp_all [Tab.erase, Tab.get]

theorem Tab.get_erase_other (d : Nat → α) (t : Tab α) {k i : Nat} (h : i ≠ k) :
    Tab.get d (Tab.erase t k) i = Tab.get d t i := by
  induction t with
  | nil => rfl
  | cons p t ih =>
    obtain ⟨j, v⟩ := p
    by_cases hk : k = j
    · subst hk; simp [Tab.erase, Tab.get, h, ih]
    · by_cases hi : i = j <;> simp [Tab.erase, Tab.get, hk, hi, ih]

@[simp] theorem Tab.get_insert_same (d : Nat → α) (t : Tab α) (k : Nat) (v : α) : Tab.get d (Tab.insert k v t) k = v := by
  induction t with
  | nil => simp [Tab.insert, Tab.get]
  | cons p t ih =>
    obtain ⟨j, w⟩ := p
    unfold Tab.insert
    split
    · simp [Tab.get]
    · split <;> simp_all [Tab.get]

theorem Tab.get_insert_other (d : Nat → α) (t : Tab α) {k i : Nat} (v : α) (h : i ≠ k) :
    Tab.get d (Tab.insert k v t) i = Tab.get d t i := by
  induction t with
  | nil => simp [Tab.insert, Tab.get, h]
  | cons p t ih =>
    obtain ⟨j, w⟩ := p
    unfold Tab.insert
    split
    · simp [Tab.get, h]
    · split
      · next hk => subst hk; simp [Tab.get, h]
      · by_cases hi : i = j <;> simp [Tab.get, hi, ih]

/-- A key reads as what was last bound to it. -/
@[simp] theorem Tab.get_set_same [DecidableEq α] (d : Nat → α) (t : Tab α) (k : Nat) (v : α) :
    Tab.get d (Tab.set d t k v) k = v := by
  unfold Tab.set
  split <;> simp_all

/-- A write leaves every other key alone. -/
theorem Tab.get_set_other [DecidableEq α] (d : Nat → α) (t : Tab α) {k i : Nat} (v : α) (h : i ≠ k) :
    Tab.get d (Tab.set d t k v) i = Tab.get d t i := by
  unfold Tab.set
  split
  · exact Tab.get_erase_other d t h
  · exact Tab.get_insert_other d t v h

theorem Tab.get_set [DecidableEq α] (d : Nat → α) (t : Tab α) (k i : Nat) (v : α) :
    Tab.get d (Tab.set d t k v) i = if i = k then v else Tab.get d t i := by
  by_cases h : i = k
  · subst h; simp
  · simp [h, Tab.get_set_other d t v h]

/-! ### The canonical form -/

theorem Tab.rising_le {lo lo' : Nat} {t : Tab α} (h : lo ≤ lo') (r : Tab.rising lo' t = true) : Tab.rising lo t = true := by
  cases t with
  | nil => rfl
  | cons p t =>
    obtain ⟨j, v⟩ := p
    simp only [Tab.rising, Bool.and_eq_true, decide_eq_true_eq] at r ⊢
    exact ⟨Nat.le_trans h r.1, r.2⟩

theorem Tab.rising_erase (t : Tab α) (k lo : Nat) (r : Tab.rising lo t = true) : Tab.rising lo (Tab.erase t k) = true := by
  induction t generalizing lo with
  | nil => rfl
  | cons p t ih =>
    obtain ⟨j, v⟩ := p
    simp only [Tab.rising, Bool.and_eq_true, decide_eq_true_eq] at r
    unfold Tab.erase
    split
    · exact ih lo (Tab.rising_le (by omega) r.2)
    · simp only [Tab.rising, Bool.and_eq_true, decide_eq_true_eq]
      exact ⟨r.1, ih _ r.2⟩

theorem Tab.rising_insert (t : Tab α) (k lo : Nat) (v : α) (h : lo ≤ k) (r : Tab.rising lo t = true) :
    Tab.rising lo (Tab.insert k v t) = true := by
  induction t generalizing lo with
  | nil => simp [Tab.insert, Tab.rising, h]
  | cons p t ih =>
    obtain ⟨j, w⟩ := p
    simp only [Tab.rising, Bool.and_eq_true, decide_eq_true_eq] at r
    unfold Tab.insert
    split
    · simp only [Tab.rising, Bool.and_eq_true, decide_eq_true_eq]
      exact ⟨h, by omega, r.2⟩
    · split
      · next hk => subst hk; simp only [Tab.rising, Bool.and_eq_true, decide_eq_true_eq]; exact r
      · simp only [Tab.rising, Bool.and_eq_true, decide_eq_true_eq]
        exact ⟨r.1, ih _ (by omega) r.2⟩

theorem Tab.all_erase (t : Tab α) (k : Nat) (p : Nat × α → Bool) (h : t.all p = true) : (Tab.erase t k).all p = true := by
  induction t with
  | nil => rfl
  | cons q t ih =>
    obtain ⟨j, v⟩ := q
    simp only [List.all_cons, Bool.and_eq_true] at h
    unfold Tab.erase
    split
    · exact ih h.2
    · simp only [List.all_cons, Bool.and_eq_true]; exact ⟨h.1, ih h.2⟩

theorem Tab.all_insert (t : Tab α) (k : Nat) (v : α) (p : Nat × α → Bool) (hk : p (k, v) = true) (h : t.all p = true) :
    (Tab.insert k v t).all p = true := by
  induction t with
  | nil => simp [Tab.insert, hk]
  | cons q t ih =>
    obtain ⟨j, w⟩ := q
    simp only [List.all_cons, Bool.and_eq_true] at h
    unfold Tab.insert
    split
    · simp [hk, h.1, h.2]
    · split
      · simp [hk, h.2]
      · simp [h.1, ih h.2]

/-- Every write keeps the canonical form. -/
theorem Tab.wf_set [DecidableEq α] (d : Nat → α) (t : Tab α) (k : Nat) (v : α) (h : Tab.wf d t = true) :
    Tab.wf d (Tab.set d t k v) = true := by
  simp only [Tab.wf, Tab.noDefault, Bool.and_eq_true] at h ⊢
  unfold Tab.set
  split
  · exact ⟨Tab.rising_erase t k 0 h.1, Tab.all_erase t k _ h.2⟩
  · next hv => exact ⟨Tab.rising_insert t k 0 v (by omega) h.1, Tab.all_insert t k v _ (by simpa using hv) h.2⟩

end Sys2Proof.Machine
end

