-- ==== Sys2Proof/Laws/Regs.lean ====
section
/-! SUPPORT. Reading registers and fields after a write. -/
namespace Sys2Proof.Machine

/-! ### Fields of a word -/

theorem bitsPut_toNat {x : Word} {lo w v : Nat} (h : lo + w ≤ 32) :
    (bitsPut x lo w v).toNat = x.toNat % 2 ^ lo + v % 2 ^ w * 2 ^ lo + x.toNat / 2 ^ (lo + w) * 2 ^ (lo + w) := by
  unfold bitsPut
  rw [BitVec.toNat_ofNat, Nat.mod_eq_of_lt]
  have hx := x.isLt
  have h1 : x.toNat % 2 ^ lo < 2 ^ lo := Nat.mod_lt _ (by positivity)
  have h2 : v % 2 ^ w < 2 ^ w := Nat.mod_lt _ (by positivity)
  have h3 : x.toNat / 2 ^ (lo + w) < 2 ^ (32 - (lo + w)) := by
    rw [Nat.div_lt_iff_lt_mul (by positivity), ← Nat.pow_add]
    rwa [Nat.sub_add_cancel h]
  have e : 2 ^ 32 = 2 ^ (32 - (lo + w)) * 2 ^ (lo + w) := by rw [← Nat.pow_add, Nat.sub_add_cancel h]
  have h4 : v % 2 ^ w * 2 ^ lo + 2 ^ lo ≤ 2 ^ (lo + w) := by
    rw [Nat.pow_add, Nat.mul_comm (2 ^ lo)]
    nlinarith [Nat.two_pow_pos lo]
  have h5 : x.toNat / 2 ^ (lo + w) * 2 ^ (lo + w) + 2 ^ (lo + w) ≤ 2 ^ 32 := by
    rw [e]
    nlinarith [Nat.two_pow_pos (lo + w)]
  omega

/-- A field reads what was put into it, cut to its width. -/
theorem bitsGet_put_same {x : Word} {lo w v : Nat} (h : lo + w ≤ 32) : bitsGet (bitsPut x lo w v) lo w = v % 2 ^ w := by
  unfold bitsGet
  rw [bitsPut_toNat h, Nat.pow_add, show x.toNat % 2 ^ lo + v % 2 ^ w * 2 ^ lo + x.toNat / (2 ^ lo * 2 ^ w) * (2 ^ lo * 2 ^ w) =
      x.toNat % 2 ^ lo + 2 ^ lo * (v % 2 ^ w + 2 ^ w * (x.toNat / (2 ^ lo * 2 ^ w))) by ring,
    Nat.add_mul_div_left _ _ (by positivity), Nat.div_eq_of_lt (Nat.mod_lt _ (by positivity)), Nat.zero_add,
    Nat.add_mul_mod_self_left, Nat.mod_mod]

/-- A field below or above the one written keeps its value. -/
theorem bitsGet_put_other {x : Word} {lo w v lo' w' : Nat} (h : lo + w ≤ 32) (d : lo' + w' ≤ lo ∨ lo + w ≤ lo') :
    bitsGet (bitsPut x lo w v) lo' w' = bitsGet x lo' w' := by
  unfold bitsGet
  rw [bitsPut_toNat h]
  rcases d with d | d
  · obtain ⟨a, rfl⟩ := Nat.exists_eq_add_of_le d
    have e : x.toNat = x.toNat % 2 ^ (lo' + w' + a) + x.toNat / 2 ^ (lo' + w' + a) * 2 ^ (lo' + w' + a) := by
      rw [Nat.mul_comm, Nat.mod_add_div]
    rw [← Nat.mod_mul_right_div_self, ← Nat.mod_mul_right_div_self, ← Nat.pow_add]
    congr 1
    have m : ∀ a b : Nat, (a + b * 2 ^ (lo' + w')) % 2 ^ (lo' + w') = a % 2 ^ (lo' + w') := fun a b => Nat.add_mul_mod_self_right _ _ _
    rw [show x.toNat % 2 ^ (lo' + w' + a) + v % 2 ^ w * 2 ^ (lo' + w' + a) +
        x.toNat / 2 ^ (lo' + w' + a + w) * 2 ^ (lo' + w' + a + w) = x.toNat % 2 ^ (lo' + w' + a) +
        (v % 2 ^ w * 2 ^ a + x.toNat / 2 ^ (lo' + w' + a + w) * 2 ^ (a + w)) * 2 ^ (lo' + w') by ring, m,
      Nat.mod_mod_of_dvd _ (Dvd.intro _ (Nat.pow_add 2 (lo' + w') a).symm)]
  · obtain ⟨a, rfl⟩ := Nat.exists_eq_add_of_le d
    congr 1
    rw [Nat.pow_add 2 (lo + w) a, ← Nat.div_div_eq_div_mul, ← Nat.div_div_eq_div_mul]
    congr 1
    have lt : x.toNat % 2 ^ lo + v % 2 ^ w * 2 ^ lo < 2 ^ (lo + w) := by
      have h1 : x.toNat % 2 ^ lo < 2 ^ lo := Nat.mod_lt _ (by positivity)
      have h2 : v % 2 ^ w < 2 ^ w := Nat.mod_lt _ (by positivity)
      rw [Nat.pow_add, Nat.mul_comm (2 ^ lo)]
      nlinarith [Nat.two_pow_pos lo]
    rw [Nat.add_mul_div_right _ _ (by positivity), Nat.div_eq_of_lt lt, Nat.zero_add]

/-! ### Registers -/

theorem State.reg_setReg (s : State) (o k : Nat) (v : Word) : (s.setReg o v).reg k = if k = o then v else s.reg k := by
  unfold State.setReg State.reg
  rw [Tab.get_set]

@[simp] theorem State.reg_setReg_same (s : State) (o : Nat) (v : Word) : (s.setReg o v).reg o = v := by
  rw [State.reg_setReg, if_pos rfl]

theorem State.reg_setReg_other (s : State) {o k : Nat} (v : Word) (h : k ≠ o) : (s.setReg o v).reg k = s.reg k := by
  rw [State.reg_setReg, if_neg h]

theorem State.reg_wr_other (s : State) {f : Fld} {k : Nat} (v : Nat) (h : k ≠ f.off) : (s.wr f v).reg k = s.reg k :=
  State.reg_setReg_other _ _ h

/-- A field reads what was written to it, cut to its width. -/
theorem State.rd_wr_same (s : State) {f : Fld} (v : Nat) (h : f.lo + f.w ≤ 32) : (s.wr f v).rd f = v % 2 ^ f.w := by
  unfold State.rd State.wr
  rw [State.reg_setReg_same, bitsGet_put_same h]

/-- A field of another register keeps its value. -/
theorem State.rd_wr_off (s : State) {f g : Fld} (v : Nat) (h : g.off ≠ f.off) : (s.wr f v).rd g = s.rd g := by
  unfold State.rd
  rw [State.reg_wr_other _ _ h]

/-- A field beside the one written keeps its value. -/
theorem State.rd_wr_beside (s : State) {f g : Fld} (v : Nat) (h : f.lo + f.w ≤ 32) (d : g.lo + g.w ≤ f.lo ∨ f.lo + f.w ≤ g.lo) :
    (s.wr f v).rd g = s.rd g := by
  by_cases e : g.off = f.off
  · unfold State.rd State.wr
    rw [e, State.reg_setReg_same, bitsGet_put_other h d]
  · exact State.rd_wr_off _ _ e

/-! ### Records -/

@[simp] theorem State.frond_setFrond_same (s : State) (f : Nat) (x : Frond) : (s.setFrond f x).frond f = x :=
  Tab.get_set_same _ _ _ _

theorem State.frond_setFrond_other (s : State) {f g : Nat} (x : Frond) (h : g ≠ f) : (s.setFrond f x).frond g = s.frond g :=
  Tab.get_set_other _ _ _ h

@[simp] theorem State.frond_modFrond_same (s : State) (f : Nat) (g : Frond → Frond) : (s.modFrond f g).frond f = g (s.frond f) :=
  State.frond_setFrond_same _ _ _

theorem State.frond_modFrond_other (s : State) {f k : Nat} (g : Frond → Frond) (h : k ≠ f) :
    (s.modFrond f g).frond k = s.frond k :=
  State.frond_setFrond_other _ _ h

@[simp] theorem State.ep_setEp_same (s : State) (e : Nat) (x : Endpoint) : (s.setEp e x).ep e = x := Tab.get_set_same _ _ _ _

theorem State.ep_setEp_other (s : State) {e k : Nat} (x : Endpoint) (h : k ≠ e) : (s.setEp e x).ep k = s.ep k :=
  Tab.get_set_other _ _ _ h

@[simp] theorem State.port_setPort_same (s : State) (p : Nat) (x : PortSt) : (s.setPort p x).port p = x := Tab.get_set_same _ _ _ _

theorem State.port_setPort_other (s : State) {p k : Nat} (x : PortSt) (h : k ≠ p) : (s.setPort p x).port k = s.port k :=
  Tab.get_set_other _ _ _ h

@[simp] theorem State.sa_setSa_same (s : State) (i : Nat) (x : SaRec) : (s.setSa i x).sa i = x := Tab.get_set_same _ _ _ _

theorem State.sa_setSa_other (s : State) {i k : Nat} (x : SaRec) (h : k ≠ i) : (s.setSa i x).sa k = s.sa k :=
  Tab.get_set_other _ _ _ h

@[simp] theorem State.fnState_setFn_same (s : State) (f : Nat) (x : FnState) : (s.setFn f x).fnState f = x :=
  Tab.get_set_same _ _ _ _

theorem State.fnState_setFn_other (s : State) {f k : Nat} (x : FnState) (h : k ≠ f) : (s.setFn f x).fnState k = s.fnState k :=
  Tab.get_set_other _ _ _ h

/-- A condition met in the tick after the last one counted makes its run longer by one. -/
theorem Run.step_next {r : Run} {t : Nat} (h : 0 < r.n) (e : r.last + 1 = t) : r.step t true = ⟨r.n + 1, t⟩ := by
  unfold Run.step
  rw [if_pos rfl, if_neg (by omega), if_pos ⟨h, e⟩]

end Sys2Proof.Machine
end

