-- ==== Sys2Proof/Laws/Requests.lean ====
section
/-! SUPPORT. A request of one part: when its checks pass, and what its completion holds. -/
namespace Sys2Proof.Machine

theorem mem_insertBy {α : Type} {le : α → α → Bool} {x y : α} {l : List α} : y ∈ insertBy le x l ↔ y = x ∨ y ∈ l := by
  induction l with
  | nil => simp [insertBy]
  | cons a l ih =>
    unfold insertBy
    split
    · simp only [List.mem_cons, ih]; tauto
    · simp only [List.mem_cons]

theorem mem_foldl_insertBy {α : Type} {le : α → α → Bool} {y : α} {l acc : List α} :
    y ∈ l.foldl (fun acc x => insertBy le x acc) acc ↔ y ∈ acc ∨ y ∈ l := by
  induction l generalizing acc with
  | nil => simp
  | cons a l ih => rw [List.foldl_cons, ih, mem_insertBy]; simp only [List.mem_cons]; tauto

/-- Sorting keeps the members of a list. -/
theorem mem_sortBy {α : Type} {le : α → α → Bool} {y : α} {l : List α} : y ∈ sortBy le l ↔ y ∈ l := by
  unfold sortBy
  split
  · rfl
  · rw [mem_foldl_insertBy]; simp

/-- A request fails no check exactly when each of its checks passes. -/
theorem firstFail_none {l : List Ck} : firstFail l = none ↔ ∀ c ∈ l, c.bad = false := by
  have e : firstFail l = none ↔ (sortBy (fun a b => decide (a.ord ≤ b.ord)) l).find? (fun c => c.bad) = none := by
    unfold firstFail
    split <;> simp_all
  rw [e, List.find?_eq_none]
  simp only [mem_sortBy, Bool.not_eq_true]

/-- A request of one part whose checks pass and whose effect does not fail is applied and completed. -/
theorem runOne_ok {h : ReqHdr} {mem : HostMem} {op : Nat} {b : ReqBody} {s : State} {chk : Ctx → State → List Ck}
    {app : Ctx → State → Applied} (hc : ∀ c ∈ chk (h.ctx s mem) s, c.bad = false) (ha : (app (h.ctx s mem) s).fail = none) :
    runOne h mem op b s chk app =
      (app (h.ctx s mem) s).s.succeed (h.request s op b) (app (h.ctx s mem) s).result (app (h.ctx s mem) s).held := by
  unfold runOne
  simp only [firstFail_none.mpr hc, ha]

/-- The completion of a request that was applied and holds no deferred effect. -/
theorem State.succeed_doneOk {h : ReqHdr} {s t : State} {op r : Nat} {b : ReqBody} (ht : t.tick = s.tick) :
    t.succeed (h.request s op b) r false = t.complete (doneOk h s op r) := by
  simp [State.succeed, doneOk, ReqHdr.request, ht]

/-- The same, with the effect given. -/
theorem runOne_done {h : ReqHdr} {mem : HostMem} {op : Nat} {b : ReqBody} {s : State} {chk : Ctx → State → List Ck}
    {app : Ctx → State → Applied} (a : Applied) (hc : ∀ c ∈ chk (h.ctx s mem) s, c.bad = false)
    (ha : app (h.ctx s mem) s = a) (hf : a.fail = none) (hh : a.held = false) (ht : a.s.tick = s.tick) :
    runOne h mem op b s chk app = a.s.complete (doneOk h s op a.result) := by
  rw [runOne_ok hc (by rw [ha, hf]), ha, hh, State.succeed_doneOk ht]

/-- A request whose effect is a read-out of the state it finds. -/
theorem runOne_read {h : ReqHdr} {mem : HostMem} {op addr : Nat} {b : ReqBody} {s : State} {chk : Ctx → State → List Ck}
    {app : Ctx → State → Applied} {data : List Byte} {poison : Bool} (hc : ∀ c ∈ chk (h.ctx s mem) s, c.bad = false)
    (ha : app (h.ctx s mem) s = s.takeRead (h.ctx s mem) h.dn addr data poison) :
    runOne h mem op b s chk app = readOk h s op addr data poison := by
  rw [runOne_ok hc (by rw [ha]; rfl), ha]
  rfl

end Sys2Proof.Machine
end

