-- ==== Sys2Proof/Tests/Slice0.lean ====
section
/-! SUPPORT. Tests of single steps on small states, a witness for the hypotheses of each statement, and the WellFormed smoke test. -/
namespace Sys2Proof.Tests
open Sys2Proof Sys2Proof.Machine

-- One thread: the proofs below wait for the kernel one after another.
set_option Elab.async false

/-- A request of the PF that names T0000. -/
def pf : ReqHdr := { fn := 0, ring := 0, dn := 0, tenant := 0 }
theorem pf_isPf : pf.isPf := ⟨rfl, rfl, rfl⟩
/-- A header beyond the 256 functions. -/
def badHdr : ReqHdr := { pf with fn := 256 }
/-- An entry with a tenant beyond T1023. -/
def badEntry : XcEntry := { tenant := 1024 }

/-! ### The WellFormed smoke test: a well-formed term of each command with checks, and an ill-formed one for each check -/
theorem test_wf_header : [({ pf with fn := 256 } : ReqHdr), { pf with ring := 4 }, { pf with dn := 2 ^ 32 }, { pf with tenant := 1024 }].any
    ReqHdr.wf = false ∧ pf.wf = true := by decide +kernel
theorem test_wf_entry : [({ kind := 4 } : XcEntry), { tenant := 1024 }, { oduType := 16 }, { tsCount := 4096 }, { src := { kind := 4 } },
    { src := { tsLow := 1024 } }, { dst := { id := 131072 } }, { legbKind := 4 }, { legbTsLow := 1024 }, { legbFrond := 64 }, { selMode := 4 },
    { prefMode := 2 }, { imuxM := 4 }, { imuxEnd := 2 }, { hold := 2048 }, { saId := 16384 }, { members := 2 ^ 24 }, { pmProfile := 64 },
    { tcmLevel := 8 }, { layer := 8 }, { expPt := 256 }].any XcEntry.wf = false ∧ ({} : XcEntry).wf = true := by decide +kernel
theorem test_wf_nop_to_epChange :
    ([.nop badHdr [], .funcStop badHdr [] 0 0, .funcStop pf [] (2 ^ 8) 0, .funcStop pf [] 0 (2 ^ 32), .funcStart badHdr [] 0 0,
    .funcStart pf [] (2 ^ 8) 0, .funcStart pf [] 0 (2 ^ 32), .lineSetup badHdr [] 0 0 0 0 0 false (List.replicate 32 0),
    .lineSetup pf [] (2 ^ 8) 0 0 0 0 false (List.replicate 32 0), .lineSetup pf [] 0 (2 ^ 8) 0 0 0 false (List.replicate 32 0),
    .lineSetup pf [] 0 0 (2 ^ 8) 0 0 false (List.replicate 32 0), .lineSetup pf [] 0 0 0 (2 ^ 8) 0 false (List.replicate 32 0),
    .lineSetup pf [] 0 0 0 0 (2 ^ 15) false (List.replicate 32 0), .lineSetup pf [] 0 0 0 0 (-(2 ^ 15) - 1) false (List.replicate 32 0),
    .lineSetup pf [] 0 0 0 0 0 false (List.replicate 31 0), .lineSetup pf [] 0 0 0 0 0 false (2 ^ 8 :: List.replicate 31 0),
    .loadTable badHdr [] 0 (List.replicate 32 0), .loadTable pf [] (2 ^ 8) (List.replicate 32 0),
    .loadTable pf [] 0 (List.replicate 31 0), .loadTable pf [] 0 (2 ^ 8 :: List.replicate 31 0), .filterLoad badHdr [] 0 0 0,
    .filterLoad pf [] (2 ^ 8) 0 0, .filterLoad pf [] 0 (2 ^ 64) 0, .filterLoad pf [] 0 0 (2 ^ 64), .lineOh badHdr [] 0 0 0 0 0 0,
    .lineOh pf [] (2 ^ 8) 0 0 0 0 0, .lineOh pf [] 0 (2 ^ 16) 0 0 0 0, .lineOh pf [] 0 0 (2 ^ 8) 0 0 0, .lineOh pf [] 0 0 0 (2 ^ 8) 0 0,
    .lineOh pf [] 0 0 0 0 (2 ^ 8) 0, .lineOh pf [] 0 0 0 0 0 (2 ^ 64), .gccSend badHdr [] 0 0 0, .gccSend pf [] (2 ^ 8) 0 0,
    .gccSend pf [] 0 (2 ^ 16) 0, .gccSend pf [] 0 0 (2 ^ 64), .gccRxPost badHdr [] 0 0, .gccRxPost pf [] (2 ^ 32) 0,
    .gccRxPost pf [] 0 (2 ^ 64), .portSetup badHdr [] 0 0 0 0 0 0 0, .portSetup pf [] (2 ^ 16) 0 0 0 0 0 0,
    .portSetup pf [] 0 (2 ^ 8) 0 0 0 0 0, .portSetup pf [] 0 0 (2 ^ 8) 0 0 0 0, .portSetup pf [] 0 0 0 (2 ^ 8) 0 0 0,
    .portSetup pf [] 0 0 0 0 (2 ^ 8) 0 0, .portSetup pf [] 0 0 0 0 0 (2 ^ 8) 0, .portSetup pf [] 0 0 0 0 0 0 (2 ^ 32),
    .epCreate badHdr [] 0 {} 0, .epCreate pf [] (2 ^ 17) {} 0, .epCreate pf [] 0 {} (2 ^ 64), .epCreate pf [] 0 badEntry 0,
    .epChange badHdr [] 0 0 {}, .epChange pf [] (2 ^ 17) 0 {}, .epChange pf [] 0 (2 ^ 8) {}, .epChange pf [] 0 0 badEntry] : List Instr).any Instr.wf = false ∧
    ([.nop pf [], .funcStop pf [] 0 0, .funcStart pf [] 0 0, .lineSetup pf [] 0 0 0 0 0 false (List.replicate 32 0),
    .loadTable pf [] 0 (List.replicate 32 0), .filterLoad pf [] 0 0 0, .lineOh pf [] 0 0 0 0 0 0, .gccSend pf [] 0 0 0,
    .gccRxPost pf [] 0 0, .portSetup pf [] 0 0 0 0 0 0 0, .epCreate pf [] 0 {} 0, .epChange pf [] 0 0 {}] : List Instr).all Instr.wf = true := by decide +kernel
theorem test_wf_epDelete_to_saCreate :
    ([.epDelete badHdr [] 0, .epDelete pf [] (2 ^ 17), .epRead badHdr [] 0 0, .epRead pf [] (2 ^ 17) 0, .epRead pf [] 0 (2 ^ 64),
    .pmSetupAnchor badHdr [] 0, .pmSetupAnchor pf [] (2 ^ 64), .pmSetupProfile badHdr [] 0 0, .pmSetupProfile pf [] (2 ^ 8) 0,
    .pmSetupProfile pf [] 0 (2 ^ 64), .pmSetupZeroSuppress badHdr [] false, .pmClear badHdr [] 0, .pmClear pf [] (2 ^ 17),
    .pmRead badHdr [] 0 0 0, .pmRead pf [] (2 ^ 17) 0 0, .pmRead pf [] 0 (2 ^ 16) 0, .pmRead pf [] 0 0 (2 ^ 64),
    .quotaSet badHdr [] 0 0 0, .quotaSet pf [] (2 ^ 32) 0 0, .quotaSet pf [] 0 (2 ^ 16) 0, .quotaSet pf [] 0 0 (2 ^ 16),
    .quotaRead badHdr [] 0, .quotaRead pf [] (2 ^ 64), .tenantCreate badHdr [], .tenantDelete badHdr [], .saCreate badHdr [] 0 0 0 0 0,
    .saCreate pf [] (2 ^ 14) 0 0 0 0, .saCreate pf [] 0 (2 ^ 1) 0 0 0, .saCreate pf [] 0 0 (2 ^ 12) 0 0,
    .saCreate pf [] 0 0 0 (2 ^ 14) 0, .saCreate pf [] 0 0 0 0 (2 ^ 48)] : List Instr).any Instr.wf = false ∧
    ([.epDelete pf [] 0, .epRead pf [] 0 0, .pmSetupAnchor pf [] 0, .pmSetupProfile pf [] 0 0, .pmSetupZeroSuppress pf [] false,
    .pmClear pf [] 0, .pmRead pf [] 0 0 0, .quotaSet pf [] 0 0 0, .quotaRead pf [] 0, .tenantCreate pf [], .tenantDelete pf [],
    .saCreate pf [] 0 0 0 0 0] : List Instr).all Instr.wf = true := by decide +kernel
theorem test_wf_saChange_to_timTwinRemove :
    ([.saChange badHdr [] 0 0 0 0 0, .saChange pf [] (2 ^ 14) 0 0 0 0, .saChange pf [] 0 (2 ^ 1) 0 0 0, .saChange pf [] 0 0 (2 ^ 12) 0 0,
    .saChange pf [] 0 0 0 (2 ^ 14) 0, .saChange pf [] 0 0 0 0 (2 ^ 48), .saDelete badHdr [] 0, .saDelete pf [] (2 ^ 14),
    .keyLoad badHdr [] 0 0, .keyLoad pf [] (2 ^ 14) 0, .keyLoad pf [] 0 (2 ^ 64), .keyDiscard badHdr [] 0, .keyDiscard pf [] (2 ^ 14),
    .keyRoll badHdr [] 0 0, .keyRoll pf [] (2 ^ 14) 0, .keyRoll pf [] 0 (2 ^ 64), .saRead badHdr [] 0 0, .saRead pf [] (2 ^ 14) 0,
    .saRead pf [] 0 (2 ^ 64), .timInput badHdr [] 0 false 0 0, .timInput pf [] (2 ^ 8) false 0 0, .timInput pf [] 0 false (2 ^ 8) 0,
    .timInput pf [] 0 false 0 (2 ^ 31), .timInput pf [] 0 false 0 (-(2 ^ 31) - 1), .timPrio badHdr [] 0 0, .timPrio pf [] (2 ^ 16) 0,
    .timPrio pf [] 0 (2 ^ 64), .timDpll badHdr [] 0 0 0 false 0 0, .timDpll pf [] (2 ^ 8) 0 0 false 0 0,
    .timDpll pf [] 0 (2 ^ 8) 0 false 0 0, .timDpll pf [] 0 0 (2 ^ 8) false 0 0, .timDpll pf [] 0 0 0 false (2 ^ 15) 0,
    .timDpll pf [] 0 0 0 false 0 (2 ^ 32), .timOutput badHdr [] 0 0 0 0 0 false 0, .timOutput pf [] (2 ^ 8) 0 0 0 0 false 0,
    .timOutput pf [] 0 (2 ^ 8) 0 0 0 false 0, .timOutput pf [] 0 0 (2 ^ 8) 0 0 false 0, .timOutput pf [] 0 0 0 (2 ^ 8) 0 false 0,
    .timOutput pf [] 0 0 0 0 (2 ^ 8) false 0, .timOutput pf [] 0 0 0 0 0 false (2 ^ 32), .timTwinSetup badHdr [] 0 0 0,
    .timTwinSetup pf [] (2 ^ 8) 0 0, .timTwinSetup pf [] 0 (2 ^ 12) 0, .timTwinSetup pf [] 0 0 (2 ^ 288),
    .timTwinRemove badHdr [] 0 0 0, .timTwinRemove pf [] (2 ^ 8) 0 0, .timTwinRemove pf [] 0 (2 ^ 12) 0,
    .timTwinRemove pf [] 0 0 (2 ^ 288)] : List Instr).any Instr.wf = false ∧
    ([.saChange pf [] 0 0 0 0 0, .saDelete pf [] 0, .keyLoad pf [] 0 0, .keyDiscard pf [] 0, .keyRoll pf [] 0 0, .saRead pf [] 0 0,
    .timInput pf [] 0 false 0 0, .timPrio pf [] 0 0, .timDpll pf [] 0 0 0 false 0 0, .timOutput pf [] 0 0 0 0 0 false 0,
    .timTwinSetup pf [] 0 0 0, .timTwinRemove pf [] 0 0 0] : List Instr).all Instr.wf = true := by decide +kernel
theorem test_wf_timTod_to_memPass :
    ([.timTod badHdr [] 0 false, .timTod pf [] (2 ^ 8) false, .mshSetup badHdr [] 0 0 0 0 false false 0 0 0,
    .mshSetup pf [] (2 ^ 6) 0 0 0 false false 0 0 0, .mshSetup pf [] 0 (2 ^ 8) 0 0 false false 0 0 0,
    .mshSetup pf [] 0 0 (2 ^ 12) 0 false false 0 0 0, .mshSetup pf [] 0 0 0 (2 ^ 8) false false 0 0 0,
    .mshSetup pf [] 0 0 0 0 false false (2 ^ 8) 0 0, .mshSetup pf [] 0 0 0 0 false false 0 (2 ^ 16) 0,
    .mshSetup pf [] 0 0 0 0 false false 0 0 (2 ^ 16), .mshRemote badHdr [] (List.replicate 16 0),
    .mshRemote pf [] (List.replicate 15 0), .mshRemote pf [] (2 ^ 16 :: List.replicate 15 0), .mshSend badHdr [] 0 0 0,
    .mshSend pf [] (2 ^ 16) 0 0, .mshSend pf [] 0 (2 ^ 16) 0, .mshSend pf [] 0 0 (2 ^ 64), .mshDbRead badHdr [] 0,
    .mshDbRead pf [] (2 ^ 64), .pwrFrond badHdr [] 0 false false false 0, .pwrFrond pf [] (2 ^ 8) false false false 0,
    .pwrFrond pf [] 0 false false false (2 ^ 32), .pwrThermal badHdr [] 0 0, .pwrThermal pf [] (2 ^ 8) 0, .pwrThermal pf [] 0 (2 ^ 8),
    .calRun badHdr [] 0, .calRun pf [] (2 ^ 8), .calAbort badHdr [] 0, .calAbort pf [] (2 ^ 8), .calExport badHdr [] 0 0,
    .calExport pf [] (2 ^ 8) 0, .calExport pf [] 0 (2 ^ 64), .calRestore badHdr [] 0 0, .calRestore pf [] (2 ^ 8) 0,
    .calRestore pf [] 0 (2 ^ 64), .memPass badHdr [] 0 0 0 0 0, .memPass pf [] (2 ^ 8) 0 0 0 0, .memPass pf [] 0 (2 ^ 8) 0 0 0,
    .memPass pf [] 0 0 (2 ^ 64) 0 0, .memPass pf [] 0 0 0 (2 ^ 64) 0, .memPass pf [] 0 0 0 0 (2 ^ 64)] : List Instr).any Instr.wf = false ∧
    ([.timTod pf [] 0 false, .mshSetup pf [] 0 0 0 0 false false 0 0 0, .mshRemote pf [] (List.replicate 16 0), .mshSend pf [] 0 0 0,
    .mshDbRead pf [] 0, .pwrFrond pf [] 0 false false false 0, .pwrThermal pf [] 0 0, .calRun pf [] 0, .calAbort pf [] 0,
    .calExport pf [] 0 0, .calRestore pf [] 0 0, .memPass pf [] 0 0 0 0 0] : List Instr).all Instr.wf = true := by decide +kernel
theorem test_wf_memInject_to_updSpore :
    ([.memInject badHdr [] 0 0 0 0, .memInject pf [] (2 ^ 8) 0 0 0, .memInject pf [] 0 (2 ^ 8) 0 0, .memInject pf [] 0 0 (2 ^ 16) 0,
    .memInject pf [] 0 0 0 (2 ^ 64), .fltReact badHdr [] 0 0 false, .fltReact pf [] (2 ^ 8) 0 false, .fltReact pf [] 0 (2 ^ 2) false,
    .fltClearAlert badHdr [], .fltClearFirst badHdr [], .fltClearSafe badHdr [], .fltLogRead badHdr [] 0 0 0,
    .fltLogRead pf [] (2 ^ 32) 0 0, .fltLogRead pf [] 0 (2 ^ 16) 0, .fltLogRead pf [] 0 0 (2 ^ 64), .fltFirstRead badHdr [] 0,
    .fltFirstRead pf [] (2 ^ 64), .fltInject badHdr [] 0 0, .fltInject pf [] (2 ^ 8) 0, .fltInject pf [] 0 (2 ^ 40),
    .fltSetup badHdr [] 0, .fltSetup pf [] (2 ^ 8), .updConfig badHdr [] false false, .updBegin badHdr [] 0 0,
    .updBegin pf [] (2 ^ 64) 0, .updBegin pf [] 0 (2 ^ 32), .updSpore badHdr [] 0, .updSpore pf [] (2 ^ 64)] : List Instr).any Instr.wf = false ∧
    ([.memInject pf [] 0 0 0 0, .fltReact pf [] 0 0 false, .fltClearAlert pf [], .fltClearFirst pf [], .fltClearSafe pf [],
    .fltLogRead pf [] 0 0 0, .fltFirstRead pf [] 0, .fltInject pf [] 0 0, .fltSetup pf [] 0, .updConfig pf [] false false,
    .updBegin pf [] 0 0, .updSpore pf [] 0] : List Instr).all Instr.wf = true := by decide +kernel
theorem test_wf_updAbort_to_latchedPairRead :
    ([.updAbort badHdr [], .updActivate badHdr [] 0, .updActivate pf [] (2 ^ 64), .updRelay badHdr [] 0 0 0, .updRelay pf [] (2 ^ 8) 0 0,
    .updRelay pf [] 0 (2 ^ 8) 0, .updRelay pf [] 0 0 (2 ^ 32), .updStatus badHdr [] 0, .updStatus pf [] (2 ^ 64),
    .settingsStore badHdr [] 0 0 0, .settingsStore pf [] (2 ^ 8) 0 0, .settingsStore pf [] 0 (2 ^ 64) 0,
    .settingsStore pf [] 0 0 (2 ^ 32), .monSeq badHdr [] 0, .monSeq pf [] (2 ^ 64), .monLimit badHdr [] 0 0 false 0 0 0 0,
    .monLimit pf [] (2 ^ 8) 0 false 0 0 0 0, .monLimit pf [] 0 (2 ^ 8) false 0 0 0 0, .monLimit pf [] 0 0 false (2 ^ 3) 0 0 0,
    .monLimit pf [] 0 0 false 0 0 0 (2 ^ 16), .monLimit pf [] 0 0 false 0 (2 ^ 15) 0 0, .monLimit pf [] 0 0 false 0 (-(2 ^ 15) - 1) 0 0,
    .monLimit pf [] 0 0 false 0 0 (2 ^ 15) 0, .monLimit pf [] 0 0 false 0 0 (-(2 ^ 15) - 1) 0, .monMap badHdr [] 0,
    .monMap pf [] (2 ^ 64), .monSample badHdr [] 0, .monSample pf [] (2 ^ 8), .monTest badHdr [] 0 0, .monTest pf [] (2 ^ 8) 0,
    .monTest pf [] 0 (2 ^ 16), .pcErbRead badHdr [] 0 0, .pcErbRead pf [] (2 ^ 8) 0, .pcErbRead pf [] 0 (2 ^ 64),
    .latchedPairRead 0 0x1002000 false] : List Instr).any Instr.wf = false ∧
    ([.updAbort pf [], .updActivate pf [] 0, .updRelay pf [] 0 0 0, .updStatus pf [] 0, .settingsStore pf [] 0 0 0, .monSeq pf [] 0,
    .monLimit pf [] 0 0 false 0 0 0 0, .monMap pf [] 0, .monSample pf [] 0, .monTest pf [] 0 0, .pcErbRead pf [] 0 0,
    .latchedPairRead 0 0 false] : List Instr).all Instr.wf = true := by decide +kernel
theorem test_wf_registerReadClear_to_thermalTrip :
    ([.registerReadClear 0 0x1002000 false, .registerWrite 0 0x1002000 false 0, .diagText 0 [], .diagText 0 (List.replicate 16 0),
    .bar2AccessDenied (2 ^ 16) false, .railFault 0 (2 ^ 16), .thermalTrip 0 (2 ^ 8)] : List Instr).any Instr.wf = false ∧
    ([.registerReadClear 0 0 false, .registerWrite 0 0 false 0, .diagText 0 [0], .bar2AccessDenied 0 false, .rstNRelease 0 0 [] [],
    .railFault 0 0, .thermalTrip 0 0] : List Instr).all Instr.wf = true := by decide +kernel

/-! ### Witnesses: concrete states and operands that meet the hypotheses of the statements -/

/-- The state after reset in tick 1000, with the register fields of `l` set. -/
def base (l : List (Fld × Nat)) : State := l.foldl (fun s p => s.wr p.1 p.2) { State.reset with tick := 1000 }
/-- The running module, with the register fields of `l` set. -/
def run (l : List (Fld × Nat)) : State := base ((R.RST_BOOT_STAT_PHASE, 5) :: l)

theorem hyps_StepRunsFront : { State.reset with pending := [.nop pf []] }.pending = Instr.nop pf [] :: [] ∧ State.reset.pending = [] :=
  ⟨rfl, rfl⟩
theorem hyps_NothingStops : ∃ t, exec (.nop pf []) State.reset = .next t := ⟨_, rfl⟩
theorem hyps_TickCounter : ((run []).boot.pwrOk = true ∧ (run []).running = true ∧ ∃ t, exec (.tickBoundary [] []) (run []) = .next t) ∧
    (let s := base [(R.RST_BOOT_STAT_PHASE, 4)]
     s.phase = 4 ∧ s.frondIds.all (fun f => (s.frondCal f).run.isNone) = true ∧ ∃ t, exec .calPhaseDone s = .next t) ∧
    (∃ t, exec .telemetryRefresh (run []) = .next t) :=
  ⟨⟨by decide +kernel, by decide +kernel, _, rfl⟩, ⟨by decide +kernel, by decide +kernel, _, rfl⟩, _, rfl⟩
theorem hyps_FusesOnlyBlow : let u : FuseSt := { loaded := true, secState := 10, rollback := 128 }
    u.loaded = true ∧ u.secState = 10 ∧ ∃ t, step { State.reset with fuse := u } = .next t := ⟨rfl, rfl, _, rfl⟩
theorem hyps_FieldWrite : let x := R.GLB_ID_MAKER; let y := R.GLB_ID_PART
    x.lo + x.w ≤ 32 ∧ y.off = x.off ∧ y.lo + y.w ≤ x.lo ∧ Tab.wf regReset State.reset.regs = true ∧
    Tab.wf regReset (base [(x, 65535)]).regs = true := by decide +kernel

/-- A table with every code at its greatest value. -/
def top32 : List Nat := List.replicate 32 127
theorem hyps_HeaderRoundTrip :
    (let h : HeaderWord := { n := 31, count := 63, sfCount := 2 ^ 24 - 1, hlb := ⟨15, top32, true, 15, 255, 3⟩ }
     h.n < 32 ∧ h.count < 64 ∧ h.sfCount < 2 ^ 24 ∧ h.hlb.InRange) ∧
    (let l : Lof := { annTid := 15, annIn := 255, annCodes := top32, reqSeq := 15, reqBase := 15, reqCodes := top32, ackSeq := 15, ackStatus := 7 }
     l.annTid < 16 ∧ l.annIn < 256 ∧ l.annCodes.length = 32 ∧ (∀ c ∈ l.annCodes, c < 128) ∧ l.reqSeq < 16 ∧ l.reqBase < 16 ∧
       l.reqCodes.length = 32 ∧ (∀ c ∈ l.reqCodes, c < 128) ∧ l.ackSeq < 16 ∧ l.ackStatus < 8) ∧
    (let x : XcEntry := { kind := 3, tenant := 1023, oduType := 15, state := 3, tsCount := 4095, src := ⟨3, 1023, 131071⟩, dst := ⟨3, 1023, 131071⟩
                          legbKind := 3, legbTsLow := 1023, legbFrond := 63, selMode := 3, prefMode := 1, taken := 1, imuxM := 3, imuxEnd := 1
                          lstate := 3, hold := 2047, saId := 16383, granules := 16383, members := 2 ^ 24 - 1, pmProfile := 63
                          tcmLevel := 7, layer := 7, expPt := 255 }
     x.kind < 4 ∧ x.tenant < 1024 ∧ x.oduType < 16 ∧ x.state < 4 ∧ x.tsCount < 4096 ∧ x.src.kind < 4 ∧ x.src.tsLow < 1024 ∧
       x.src.id < 2 ^ 17 ∧ x.dst = x.src ∧ x.legbKind < 4 ∧ x.legbTsLow < 1024 ∧ x.legbFrond < 64 ∧ x.selMode < 4 ∧ x.prefMode < 2 ∧
       x.taken < 2 ∧ x.imuxM < 4 ∧ x.imuxEnd < 2 ∧ x.lstate < 4 ∧ x.hold < 2048 ∧ x.saId < 2 ^ 14 ∧ x.granules < 2 ^ 14 ∧
       x.members < 2 ^ 24 ∧ x.pmProfile < 64 ∧ x.tcmLevel < 8 ∧ x.layer < 8 ∧ x.expPt < 256 ∧ x.rsv = false) := by
  refine ⟨⟨by decide, by decide, by decide, ?_⟩, by decide, by decide⟩
  unfold Hlb.InRange; decide
theorem hyps_Requantisation :
    (let k := 1; 0 < k ∧ 2 * (roundShift 1023 k * 2 ^ k - 1023) = 2 ^ k ∧ 511 < roundShift 1023 k) ∧
    (((0, true) : Int × Bool).2 = true) ∧
    (let l : List (Int × Int) := List.replicate 64 (511, -511)
     l.length = 64 ∧ (∀ v ∈ l, -511 ≤ v.1 ∧ v.1 ≤ 511 ∧ -511 ≤ v.2 ∧ v.2 ≤ 511)) := by decide +kernel
theorem hyps_FecLayout : 0 < 24 ∧ 7843 < fecV 24 ∧ 0 < 1120 ∧ 1119 < 1120 := by decide +kernel
theorem hyps_InnerEncoderChecks : 2 < 3 ∧ 2 < 3 ∧ 1023 < 1024 := by decide
theorem hyps_Interleaver : 2 ≤ 24 ∧ 19489499 < fecC 24 ∧ linePosition 24 0 = linePosition 24 0 := by decide +kernel
theorem hyps_LineSymbols : (List.replicate 800 true).length = 800 ∧
    (let l : List (Option Bool) := [some true, none, some false]; l.countP (· == some true) = 1 ∧ l.countP (· == some false) = 1) ∧
    255 < 256 := by decide +kernel

/-- The check code of 516 zero bytes, in six parts (each part is short for the kernel). -/
theorem crc_parts (g : Nat → Byte → Nat) (c₁ c₂ c₃ c₄ c₅ c₆ c₇ : Nat) (h₁ : (List.replicate 86 0).foldl g c₁ = c₂)
    (h₂ : (List.replicate 86 0).foldl g c₂ = c₃) (h₃ : (List.replicate 86 0).foldl g c₃ = c₄) (h₄ : (List.replicate 86 0).foldl g c₄ = c₅)
    (h₅ : (List.replicate 86 0).foldl g c₅ = c₆) (h₆ : (List.replicate 86 0).foldl g c₆ = c₇) :
    (List.replicate 516 0).foldl g c₁ = c₇ := by
  have e : List.replicate 516 (0 : Byte) = List.replicate 86 0 ++ (List.replicate 86 0 ++ (List.replicate 86 0 ++
      (List.replicate 86 0 ++ (List.replicate 86 0 ++ List.replicate 86 0)))) := by
    simp only [List.replicate_append_replicate]
  rw [e, List.foldl_append, List.foldl_append, List.foldl_append, List.foldl_append, List.foldl_append, h₁, h₂, h₃, h₄, h₅, h₆]
theorem crc_zeros : crc32c (List.replicate 516 0) = 1202840420 ^^^ 0xffffffff := by
  have h := crc_parts (fun c b => (List.range 8).foldl (fun c _ => crc32cBit c) (c ^^^ b.toNat)) 0xffffffff 4046556215 4131227902
    2330381037 655212293 3102741009 1202840420
    (by decide +kernel) (by decide +kernel) (by decide +kernel) (by decide +kernel) (by decide +kernel) (by decide +kernel)
  rw [crc32c, h]
/-- A bank image of zeros with its check code. -/
def zeroBank : List Byte := List.replicate 516 0 ++ natLe 4 3092126875
theorem hyps_FilterLoad : readHost [(0x1000, zeroBank)] 0x1000 520 = some zeroBank ∧ bankImageOk zeroBank = true ∧ 0x1000 % 4 = 0 := by
  refine ⟨by decide +kernel, ?_, rfl⟩
  have t : zeroBank.take 516 = List.replicate 516 0 := by unfold zeroBank; exact List.take_left' List.length_replicate
  unfold bankImageOk
  rw [t, crc_zeros]
  decide +kernel

/-- Frond 47 with the front end `x`, registers `l` set. -/
def rxS (x : RxSt) (l : List (Fld × Nat) := []) : State := { base l with fronds := [(47, { rx := x })] }
/-- Fifteen ticks in a row, up to the one before tick 1000. -/
def r15 : Run := ⟨15, 999⟩
theorem hyps_InputPowerEvents :
    (let s := rxS { lowRun := r15, highRun := r15, loRun := r15 }
     s.frondEnabled 47 = true ∧ 15 ≤ 15 ∧ 0 < s.tick ∧ s.muted 47 = false ∧ (-2001 : Int) < -2000 ∧ (401 : Int) > 400 ∧ (1299 : Int) < 1300 ∧
       (s.frond 47).rx.low = false ∧ (s.frond 47).rx.lowRun = ⟨15, s.tick - 1⟩ ∧ (s.frond 47).rx.high = false ∧
       (s.frond 47).rx.highRun = ⟨15, s.tick - 1⟩ ∧ (s.frond 47).rx.loLow = false ∧ (s.frond 47).rx.loRun = ⟨15, s.tick - 1⟩) ∧
    (let s := rxS { low := true, lowClr := r15 }
     s.muted 47 = false ∧ (s.frond 47).rx.low = true ∧ (s.frond 47).rx.lowClr = ⟨15, s.tick - 1⟩) ∧
    (let s := rxS { stuckRun := [(3 * 128 + 127, r15)] }
     (s.frond 47).rx.stuck.contains (3, 127) = false ∧
       Tab.get (fun _ => {}) (s.frond 47).rx.stuckRun (3 * 128 + 127) = ⟨15, s.tick - 1⟩) ∧
    (let s := rxS { stuck := [(3, 127)], freeRun := [(3 * 128 + 127, r15)] }
     (s.frond 47).rx.stuck.contains (3, 127) = true ∧
       Tab.get (fun _ => {}) (s.frond 47).rx.freeRun (3 * 128 + 127) = ⟨15, s.tick - 1⟩) ∧
    (let s := rxS {}
     s.tick + 3 ≤ 1003 ∧ 161000 ≤ s.tick + 160000 ∧ (s.frond 47).rx.swapAt = none) ∧
    (let s := rxS { swapAt := some 1000 }
     (s.frond 47).rx.swapAt = some 1000 ∧ 1000 ≤ s.tick ∧ s.rd (R.FRD_RX_FIRSTAT_ACTIVE 47) = 0) ∧
    (let s := rxS { swapAt := some 1000 } [(R.FRD_RX_FIRSTAT_ACTIVE 47, 1)]
     1000 ≤ s.tick ∧ s.rd (R.FRD_RX_FIRSTAT_ACTIVE 47) = 1) := by decide +kernel

/-- Frond 47 with the equaliser `x`. -/
def eqS (x : EqSt) (l : List (Fld × Nat) := []) : State := { base l with fronds := [(47, { eq := x })] }
theorem hyps_EqualiserCommands :
    (let s := { eqS { searching := true, cands := [1, 2] } [(R.FRD_ACQ_STAT_STATE 47, 1)] with tick := 1600 }
     s.frondEnabled 47 = true ∧ s.acqState 47 = 1 ∧ (s.frond 47).eq.searching = true ∧ (s.frond 47).eq.candTick + 1600 ≤ s.tick ∧
       (s.frond 47).eq.cands.drop 1 = 2 :: []) ∧
    (let s := eqS { preconv := true } [(R.FRD_ACQ_STAT_STATE 47, 1)]
     s.acqState 47 = 1 ∧ (s.frond 47).eq.preconv = true) ∧
    (let s := eqS {} [(R.FRD_ACQ_STAT_STATE 47, 5)]
     s.acqState 47 = 5 ∧ (50 : Int) < 51 ∧ 4095 < 4096 ∧ 255 < 256 ∧ (s.frond 47).eq.windowBad = false ∧ s.cdMode 47 ≠ 2) ∧
    (let s := eqS {} [(R.FRD_EQ_CTL_TRACK 47, 2)]
     s.rd (R.FRD_EQ_CTL_TRACK 47) ≠ 3 ∧ 200 ≤ 200 ∧ s.rd (R.FRD_EQ_STAT_TRACK_ACT 47) = 0 ∧ (-3600000 : Int) ≤ 3600000 ∧ s.acqState 47 ≠ 5) ∧
    (let s := eqS { fofsRun := ⟨159, 999⟩ }
     (3600000 : Int) < 3600001 ∧ 159 ≤ 159 ∧ 0 < s.tick ∧ (s.frond 47).eq.fofsRun = ⟨159, s.tick - 1⟩ ∧
       (s.frond 47).eq.fofsRaised = false) ∧
    (let s := { base [(R.FRD_ACQ_STAT_STATE 47, 5)] with fronds := [(47, { ld := { rxKnown := true, rxCodes := List.replicate 32 32 } })] }
     s.acqState 47 = 5 ∧ 31 < 32 ∧ (s.rxLit 47).contains 31 = true ∧ [(0, 0, 1, 2)].getD 0 (0, 0, 0, 0) = (0, 0, 1, 2) ∧ 2 * 1 ≤ 2) := by
  decide +kernel
theorem hyps_DispersionLimit :
    (let s := eqS { d := 200000 } [(R.FRD_EQ_CD_STAT_LIMIT 47, 1)]
     (s.frond 47).eq.d = 200000 ∧ s.flag (R.FRD_EQ_CD_STAT_LIMIT 47) = true) ∧
    (let s := eqS { d := 199999 }
     (s.frond 47).eq.d ≠ 200000 ∧ s.flag (R.FRD_EQ_CD_STAT_LIMIT 47) = false) ∧
    ((200000 : Int) = if (200001 : Int) < -200000 then -200000 else if (200000 : Int) < 200001 then 200000 else 200001) ∧
    ((-200000 : Int) = if (-200001 : Int) < -200000 then -200000 else if (200000 : Int) < -200001 then 200000 else -200001) := by
  decide +kernel

/-- Frond 47 in acquisition state `st`. -/
def acqS (st : Nat) (x : Frond := {}) (l : List (Fld × Nat) := []) : State :=
  { base ((R.FRD_ACQ_STAT_STATE 47, st) :: l) with tick := 32000, fronds := [(47, x)] }
/-- A superframe's header word and measures, as the statement asks for. -/
def plainArrival : ArrivalObs :=
  { instant := 0, pos := 0, fit := none, peak := 256, fine := 0, marks := 64, header := 0, eps := 0, pilots := 0, pilotsMarked := 0
    flooded := false, slips := [], snr := 0, singular := 0 }
theorem hyps_AcquisitionCommands :
    (let s := acqS 1
     s.frondEnabled 47 = true ∧ s.acqState 47 = 1 ∧ 99 < 100 * 1 ∧ (s.frond 47).rx.gain ≤ 31 ∧ (s.frond 47).acq.coldTick + 32000 ≤ s.tick) ∧
    (let s := acqS 5 { acq := { trimRun := ⟨159, 31999⟩ } } [(R.FRD_ACQ_CTL_TRIM_EN 47, 1)]
     s.acqState 47 = 5 ∧ s.flag (R.FRD_ACQ_CTL_TRIM_EN 47) = true ∧ (0 : Int) + 300 < s.agcTarget 47 ∧ 159 ≤ 159 ∧ 0 < s.tick ∧
       (s.frond 47).acq.trimRun = ⟨159, s.tick - 1⟩) ∧
    (let s := acqS 2 { acq := { periods := 15 } }
     s.acqState 47 = 2 ∧ detection (s.detTh 47) (List.replicate 42 1024) = true ∧ (-1999 : Int) > -2000 ∧
       (s.frond 47).acq.periods = 15) ∧
    (let s := acqS 5 { acq := { floodRun := 2 } }
     detection (s.detTh 47) (List.replicate 42 1024) = true ∧ (512 : Int) < 513 ∧ 16 * [0].length ≤ 16 ∧ 15 < 16 * [0].length ∧
       (s.frond 47).acq.floodRun = 2) ∧
    (let s := acqS 0; s.acqState 47 = 0 ∧ s.acqState 47 ≠ 5) ∧
    (let o := plainArrival
     (acqS 5).acqState 47 = 5 ∧ o.fit = none ∧ HeaderWord.ofWord o.header = none ∧ 256 ≤ o.peak ∧ o.fine = 0 ∧ o.marks ≤ 64 ∧ -240 < o.pos ∧
       o.pos < 9840) := by decide +kernel

/-- Two lit sub-carriers. -/
def two : List Nat := List.replicate 15 0 ++ [64, 64] ++ List.replicate 15 0
/-- A table of four lit sub-carriers for n = 2. -/
def four : List Nat := List.replicate 14 0 ++ [53, 53, 53, 54] ++ List.replicate 14 0
/-- Frond 47 with the loading state `x`. -/
def ldS (x : LdSt) (l : List (Fld × Nat) := []) : State := { base l with tick := 32159, fronds := [(47, { ld := x })] }
/-- SC15 measured 20 dB better than SC16. -/
def uneven : LdSt :=
  { rxCodes := two, snrSum := List.replicate 15 0 ++ [80 * 480, 80 * 160] ++ List.replicate 15 0, snrCnt := List.replicate 32 80 }
def evenS : State := ldS uneven [(R.FRD_ACQ_STAT_STATE 47, 5), (R.FRD_LD_CTL_REQ_EN 47, 1)]
theorem hyps_LoadingCommands :
    (let s := evenS
     let x := (s.frond 47).ld
     let snr := fun k => roundDiv (16 * x.snrSum.getD k 0) (x.snrCnt.getD k 1)
     let lim := s.codeLimits 47
     let cand := candidateMoves (s.rd (R.FRD_LD_CTL_GAP 47)) lim.1 lim.2 snr (s.maxMoves 47) x.rxCodes 0
     s.frondEnabled 47 = true ∧ s.tick % 160 = 159 ∧ s.acqState 47 = 5 ∧ s.flag (R.FRD_LD_CTL_REQ_EN 47) = true ∧
       s.flag (R.FRD_LD_STAT_REQ_OUT 47) = false ∧ lim.1 ≤ lim.2 ∧ (∀ k ∈ litOf x.rxCodes, 80 ≤ x.snrCnt.getD k 0) ∧
       leastMargin (s.rd (R.FRD_LD_CTL_GAP 47)) snr x.rxCodes + max 1 (16 * s.rd (R.FRD_LD_CTL_HYST 47) : Nat) ≤
         leastMargin (s.rd (R.FRD_LD_CTL_GAP 47)) snr cand.1) ∧
    ({ ldS {} with tick := 158 }.tick % 160 ≠ 159) ∧
    (let s := ldS { reqTick := 159 } [(R.FRD_LD_STAT_REQ_OUT 47, 1)]
     s.flag (R.FRD_LD_STAT_REQ_OUT 47) = true ∧ (s.frond 47).ld.reqTick + 32000 ≤ s.tick) ∧
    (let p : TxSwap := ⟨two, 1, 1, 0, 32159⟩
     (({ ldS { pend := some p } with tick := 32159 } : State).frond 47).ld.pend = some p ∧ p.swap ≤ 32159 ∧ 32158 < p.swap) ∧
    (let s := ldS { txCodes := four } [(R.FRD_SC_PLAN_N 47, 2), (R.FRD_SC_PLAN_COUNT 47, 4)]
     let codes := four
     codes.all codeOk = true ∧ s.rd (R.FRD_SC_PLAN_N 47) ≠ 0 ∧
       tableValid (s.rd (R.FRD_SC_PLAN_N 47)) (s.rd (R.FRD_SC_PLAN_COUNT 47)) codes = true ∧
       lightingOk (s.rd (R.FRD_SC_PLAN_N 47)) (s.frond 47).ld.txCodes codes = true ∧ (s.frond 47).ld.pend = none) ∧
    (ldS {} [(R.FRD_ID_LINE_RUN 47, 1)]).squelchCause 47 = false ∧
    (let s := { base [] with fronds := [(47, { tx := { gridRun := ⟨159, 999⟩ } })] }
     (250 : Int) < 251 ∧ 0 < s.tick ∧ (s.frond 47).tx.gridRun = ⟨159, s.tick - 1⟩ ∧ (s.frond 47).tx.gridRaised = false) ∧
    (two.length = 32 ∧ 0 < 32 ∧ 32 ≤ two.getD 15 0 ∧ two.getD 15 0 ≤ 112) := by decide +kernel

/-- The running module with the fault collector `x`. -/
def fltS (x : FaultSt) (l : List (Fld × Nat) := []) : State := { run l with flt := x }
/-- A message of the ECC kind from the last source. -/
def msg9 : FaultMsg := ⟨4095, 9, 4, false, 2 ^ 40 - 1, 1000⟩
/-- A pinned record. -/
def pin9 : Pinned := { msg := msg9, flags := 0, count := 0, logIndex := 0, esec := 0, date := 0, time := 0, pseq := 0 }
theorem hyps_FaultCommands :
    (let s := fltS { react := [(9, ⟨0, false⟩)] }
     s.flag R.FLT_STAT_LOST_ALL = false ∧ s.boot.warm = false ∧ (s.reaction msg9.kind).action = 0 ∧ (s.reaction msg9.kind).alert = false) ∧
    (let s := fltS {}
     s.boot.warm = false ∧ (s.reaction 4).action = 2 ∧ (s.reaction 4).alert = true ∧ s.backlog + s.host.readBudgetUsed + 16 * 4096 ≤ 16777216) ∧
    ((kindRow 0x0b).any (fun r => !r.fixed && decide (r.least ≤ 1)) = true ∧ 3 ≤ 3) ∧
    (let s := fltS {} [(R.FLT_STAT_SAFE, 1)]; s.flag R.FLT_STAT_SAFE = true ∧ s.blocking = false) ∧
    (0 < 1 ∧ 4096 ≤ 4096 ∧ 64 % 64 = 0 ∧ 7 ≤ 7 ∧ 2 ^ 40 - 1 < 2 ^ 40) ∧
    (let s := fltS { pinClearTick := some 1000 }
     s.fuse.grade ≠ 2 ∧ s.flag R.FLT_STAT_DEGRADED = false ∧ s.flt.pinned = none ∧ s.flt.pinClearTick = some s.tick) := by decide +kernel
theorem hyps_FaultLog :
    (let s := fltS { loggedTick := 1000, logged := 63 }
     s.flt.loggedTick = s.tick ∧ s.flt.logged < 64 ∧ 1 % 4096 ≠ s.rd R.FLT_LOG_WR_COUNT % 4096 ∧ s.flt.pinned = none ∧
       s.flt.pinClearTick ≠ some s.tick ∧ msg9.clear = false) ∧
    ((fltS { pinned := some pin9 }).flt.pinned = some pin9) ∧
    ((fltS {} [(R.FLT_STAT_LOST_ALL, 1)]).flag R.FLT_STAT_LOST_ALL = true) := by decide +kernel

/-- A superframe that waits for its decoding slot. -/
def arr999 : Arrived := { stamp := 999, sf := none, zeroed := [], codes := [], first := false }
theorem hyps_FecAndCounterCommands :
    (let s := { base [(R.FRD_SC_PLAN_N 47, 2), (R.FRD_PC_STAT_FROZEN 47, 1)] with fronds := [(47, { fec := { arrived := [arr999] } })] }
     s.frondEnabled 47 = true ∧ (s.frond 47).fec.arrived = arr999 :: [] ∧ arr999.stamp < s.tick ∧ s.rd (R.FRD_SC_PLAN_N 47) ≠ 0 ∧
       s.flag (R.FRD_PC_STAT_FROZEN 47) = true ∧ s.backlog + s.host.readBudgetUsed + (16 + 16 * (s.frond 47).pc.erb.length) ≤ 16777216 ∧
       (s.frond 46).fec.arrived = []) ∧
    (let s : State := { State.reset with tick := 999, fronds := [(47, { fec := { arrived := [arr999] } })] }
     s.tick ≤ arr999.stamp) ∧
    (let s : State := { State.reset with fronds := [(47, { pc := { counts := List.replicate 7 0 ++ [2 ^ 48 - 1] } })] }
     (s.frond 47).pc.counts.length = 8 ∧ 7 < 8 ∧ (s.frond 47).pc.stopped.getD 7 false = false ∧
       (s.frond 47).pc.counts.getD 7 0 + 0 < 2 ^ 48 ∧ 2 ^ 48 ≤ (s.frond 47).pc.counts.getD 7 0 + 1 ∧ (s.frond 47).pc.counts.getD 7 0 < 2 ^ 48 ∧
       s.flag (R.FRD_PC_CTL_FREEZE 47 7) = false ∧ s.flag (R.FRD_PC_CTL_EXACT 47 7) = false ∧ s.pcReload 47 7 + 1 < 2 ^ 48) := by
  decide +kernel
/-- The state after reset with the memories `x`. -/
def memS (x : MemSt) (l : List (Fld × Nat) := []) : State := { base l with mem := x }
/-- The last byte of memory 0x10. -/
def key10 : Nat := memKey 0x10 0 4194303
theorem hyps_MemoryCommands :
    ((memS { confirm := [(key10, 1000)] }).mem.confirm.find? (fun c => decide (c.2 < 1000)) = none) ∧
    (let s := memS { confirm := [(key10, 999)], flips := [(key10, 1)] }
     s.mem.confirm = (key10, 999) :: [] ∧ 999 < s.tick ∧ bitCount (s.flip key10) = 1) ∧
    (let s := memS {} [(R.MEM_CTL_SCRUB_EN, 1)]
     s.mem.pass = none ∧ s.mem.flips = [] ∧ s.flag R.MEM_CTL_SCRUB_EN = true ∧ s.mem.confirm = []) ∧
    (let s := memS { flips := [(key10, 4096)], scrub := scrubPos key10 - 16383 } [(R.MEM_CTL_SCRUB_EN, 1)]
     s.mem.flips = [(key10, 4096)] ∧ bitCount 4096 = 1 ∧ s.mem.scrub ≤ scrubPos key10 ∧ scrubPos key10 < s.mem.scrub + 16384) ∧
    (memSize 0x10 = some 4194304 ∧ 0x10 ≠ 0x17 ∧ 4194300 % 4 = 0 ∧ 4 % 4 = 0 ∧ 4194300 + 4 ≤ 4194304) ∧
    (let p : MemPassSt := { memory := 0x10, frond := none, first := 0, len := 4, buf := 64, fn := 0, ring := 0, start := 0, done := 4 }
     let s := { memS { pass := some p } with host := { fns := [(0, { busMaster := true })] } }
     s.mem.pass = some p ∧ s.passTotal p ≤ p.done ∧ s.boot.pwrOk = true ∧ (s.fnState p.fn).busMaster = true) ∧
    (4194303 < 4194304 ∧ 0 < bitCount 4097 ∧ bitCount 4097 ≤ 2 ∧ 4097 < 2 ^ 13) ∧
    (memSize 0x14 = some 1572864 ∧ 1572863 < 1572864 ∧ memSize 0x15 = some 32768 ∧ 32767 < 32768) ∧
    Tab.rising 0 (memS { flips := [(key10, 1)] }).mem.flips = true := by decide +kernel

/-- A calibration set of frond 47 of the module of UID 0: its head, zeros and its check code. -/
def setHead : List Byte := [0x47, 0x57, 0x43, 0x41, 1, 0, 47, 0]
def setBody : List Byte := setHead ++ List.replicate 2292 0
def set47 : List Byte := setBody ++ natLe 4 (crc32c setBody)
theorem setBody_length : setBody.length = 2300 := by rw [setBody, List.length_append, List.length_replicate]; rfl
theorem leNat_zeros (k : Nat) : leNat (List.replicate k (0 : Byte)) = 0 := by
  induction k with
  | zero => rfl
  | succ k ih => rw [List.replicate_succ, leNat, ih]; rfl
theorem slice_zeros {off k : Nat} (a : 8 ≤ off) (b : off + k ≤ 2300) : slice set47 off k = List.replicate k 0 := by
  unfold slice
  apply List.ext_getElem
  · simp
  · intro i h1 h2
    have hi : i < k := by simpa using h2
    rw [List.getElem_map, List.getElem_range, List.getElem_replicate, set47, List.getElem?_append_left (by rw [setBody_length]; omega),
      setBody, List.getElem?_append_right (by show 8 ≤ off + i; omega), List.getElem?_replicate, if_pos (by show off + i - 8 < 2292; omega)]
    rfl
theorem fieldAt_zeros {off k : Nat} (a : 8 ≤ off) (b : off + k ≤ 2300) : fieldAt set47 off k = 0 := by
  rw [fieldAt, slice_zeros a b, leNat_zeros]
theorem set47_reserved : setReservedOk set47 = true := by
  unfold setReservedOk
  rw [slice_zeros (by decide) (by decide)]
  simp only [Bool.and_eq_true, List.all_eq_true, List.mem_range, beq_iff_eq]
  refine ⟨⟨⟨by decide, fun i hi => ?_⟩, fun i hi => ⟨⟨?_, ?_⟩, ?_⟩⟩, fun i hi => ⟨?_, ?_⟩⟩ <;>
    rw [fieldAt_zeros (by omega) (by omega), Nat.zero_div, Nat.zero_mod]
theorem crc32cBit_lt {c : Nat} (h : c < 2 ^ 32) : crc32cBit c < 2 ^ 32 := by
  unfold crc32cBit
  split
  · exact Nat.xor_lt_two_pow (by omega) (by norm_num)
  · omega
theorem crc32c_lt (l : List Byte) : crc32c l < 2 ^ 32 := by
  have bits : ∀ (m : List Nat) (c : Nat), c < 2 ^ 32 → m.foldl (fun c _ => crc32cBit c) c < 2 ^ 32 := by
    intro m
    induction m with
    | nil => intro c h; exact h
    | cons _ m ih => intro c h; exact ih _ (crc32cBit_lt h)
  have bytes : ∀ (l : List Byte) (c : Nat), c < 2 ^ 32 →
      l.foldl (fun c b => (List.range 8).foldl (fun c _ => crc32cBit c) (c ^^^ b.toNat)) c < 2 ^ 32 := by
    intro l
    induction l with
    | nil => intro c h; exact h
    | cons b l ih => intro c h; exact ih _ (bits _ _ (Nat.xor_lt_two_pow h (by have := b.isLt; omega)))
  exact Nat.xor_lt_two_pow (bytes l _ (by norm_num)) (by norm_num)
theorem leNat_natLe4 {v : Nat} (h : v < 2 ^ 32) : leNat (natLe 4 v) = v := by
  simp only [natLe, leNat, BitVec.toNat_ofNat]
  omega
theorem set47_crc : crc32c (set47.take 2300) = fieldAt set47 2300 4 := by
  have e : ∀ v : Nat, slice (setBody ++ natLe 4 v) 2300 4 = natLe 4 v := by
    intro v
    unfold slice
    have : ∀ i, (setBody ++ natLe 4 v)[2300 + i]? = (natLe 4 v)[i]? := fun i => by
      rw [List.getElem?_append_right (by rw [setBody_length]; omega), setBody_length, Nat.add_sub_cancel_left]
    simp only [this]
    rfl
  rw [fieldAt, set47, e, leNat_natLe4 (crc32c_lt _), List.take_left' setBody_length]
theorem natLe_length (n v : Nat) : (natLe n v).length = n := by
  induction n generalizing v with
  | zero => rfl
  | succ n ih => rw [natLe, List.length_cons, ih]
theorem set47_ok {s : State} (h : s.fuse.uid = 0) : s.setOk 47 set47 = true := by
  have d : ∀ off k : Nat, off + k ≤ 8 → fieldAt set47 off k = fieldAt setHead off k := by
    intro off k b
    unfold fieldAt slice
    congr 1
    apply List.map_congr_left
    intro i hi
    have := List.mem_range.mp hi
    have hl : setHead.length = 8 := rfl
    have h8 : off + i < setHead.length := by rw [hl]; omega
    have hb : off + i < setBody.length := by rw [setBody_length]; omega
    rw [show set47[off + i]? = setBody[off + i]? from List.getElem?_append_left hb,
      show setBody[off + i]? = setHead[off + i]? from List.getElem?_append_left h8]
  have len : set47.length = 2304 := by rw [set47, List.length_append, setBody_length, natLe_length]
  unfold State.setOk
  rw [len, set47_reserved, set47_crc, fieldAt_zeros (off := 24) (k := 8) (by decide) (by decide),
    fieldAt_zeros (off := 12) (k := 8) (by decide) (by decide), d 0 4 (by decide), d 4 2 (by decide), d 6 1 (by decide), h]
  simp only [beq_self_eq_true, Bool.and_true, Nat.zero_le, decide_true]
  decide
/-- Frond 47 with the calibration state `x`. -/
def calS (x : FrondCal) (l : List (Fld × Nat) := []) : State := { base l with tick := 160000, cals := [(47, x)] }
/-- A calibration that began in tick 144,001. -/
def run2 : CalRun := { kind := 2, start := 144001, tone := 2000000 }
theorem hyps_CalibrationCommands :
    (let s := calS {} [(R.CAL_TONE_KHZ, 2000000)]
     s.frondEnabled 47 = true ∧ (s.frondCal 47).run = none ∧ (s.frondCal 47).restore = none ∧ s.calTone ≠ 0) ∧
    (let s := calS { act := some (List.replicate 2304 0) }
     (s.frondCal 47).act = some (List.replicate 2304 0) ∧ (List.replicate 2304 (0 : Byte)).length = 2304 ∧
       s.backlog + s.host.readBudgetUsed + 2304 ≤ 16777216) ∧
    ((calS { restore := some ([], 160000) }).frondCal 47).restore = some ([], 160000) ∧
    (let s := calS { run := some run2 } [(R.FRD_RX_CTL_MUTE 47, 1), (R.PWR_FSTAT_STATE 47, 1)]
     (s.frondCal 47).run = some run2 ∧ run2.passed = false ∧ run2.kind = 2 ∧ s.flag (R.FRD_RX_CTL_MUTE 47) = true ∧ s.pState 47 = 1 ∧
       s.flag (R.PWR_FSTAT_WAKING 47) = false) ∧
    (let s := calS { run := some { run2 with passed := true } } [(R.CAL_FSTAT_STEP 47, 1)]
     s.rd (R.CAL_FSTAT_STEP 47) = 1 ∧ (-101 : Int) < -100 ∧ run2.start + 15999 ≤ s.tick ∧ ({ s with tick := 159999 } : State).tick < run2.start + 15999 ∧
       (100 : Int) ≤ 100 ∧ 8 ≤ 8) ∧
    (let s := calS { run := some { run2 with lost := ⟨15, 159999⟩ } } [(R.CAL_FSTAT_STEP 47, 3)]
     s.rd (R.CAL_FSTAT_STEP 47) = 3 ∧ ((s.frondCal 47).run.map CalRun.lost) = some ⟨15, s.tick - 1⟩ ∧ 0 < s.tick) ∧
    (let s := calS { run := some { run2 with stepTick := 156800 } } [(R.CAL_FSTAT_STEP 47, 2)]
     run2.ready = none ∧ 2 ≤ s.rd (R.CAL_FSTAT_STEP 47) ∧ 156800 + stepLimit (s.rd (R.CAL_FSTAT_STEP 47)) ≤ s.tick) ∧
    (let s := calS { run := some { run2 with stepTick := 156801 } } [(R.CAL_FSTAT_STEP 47, 2)]
     s.rd (R.CAL_FSTAT_STEP 47) = 2 ∧ s.tick < 156801 + 3200 ∧ (∀ v ∈ [(-128 : Int), 127], -128 ≤ v ∧ v < 128)) ∧
    (let s := run []; s.pfVerdict 0xb0000 true = .ok ∧ s.fuseFailed = false) := by decide +kernel
theorem hyps_CalRestore : (calS {}).setOk 47 set47 = true ∧ readHost [(64, set47)] 64 2304 = some set47 := by
  refine ⟨set47_ok rfl, ?_⟩
  have len : set47.length = 2304 := by rw [set47, List.length_append, setBody_length, natLe_length]
  simp only [readHost, List.find?_cons, len, Nat.le_refl, decide_true, Bool.and_self, Nat.sub_self, List.drop_zero]
  rw [← len, List.take_length]

/-- The state after reset with the power manager `x`. -/
def powS (x : PowSt) (l : List (Fld × Nat) := []) : State := { base l with pow := x }
theorem hyps_PowerCommands :
    (let s := powS {} [(R.PWR_FSTAT_WAKING 47, 1)]
     s.frondEnabled 47 = true ∧ s.flag (R.PWR_FSTAT_WAKING 47) = true ∧ ((s.holdTarget 47 (s.rawTarget 47)).1.frondPow 47).viaCal = false) ∧
    (let s := powS { fr := [(47, { viaCal := true })] } [(R.PWR_FSTAT_WAKING 47, 1)]
     let h := s.holdTarget 47 (s.rawTarget 47)
     h.2 ≤ 1 ∧ (h.1.frondPow 47).viaCal = true ∧ h.1.calUsable 47 = false) ∧
    ((powS {}).flag (R.PWR_FSTAT_WAKING 47) = false) ∧
    (let s := powS {} [(R.MON_RES_VALUE 47, 4 * 124 + 1), (R.PWR_CAP 47, 1)]
     s.rd (R.PWR_CAP 47) = 1 ∧ s.tThr < s.sensor 47 ∧ (s.frondPow 47).capTick = none) ∧
    (let s := powS { hot := [(47, ⟨1599, 999⟩)] } [(R.MON_RES_VALUE 47, 4 * 124 + 1), (R.PWR_SHED_SHED 1, 2 ^ 15)]
     (47, (⟨1600, 1000⟩ : Run)) ∈ s.thermTick.pow.hot ∧ s.tThr < s.sensor 47 ∧ s.pow.shedTick = none ∧
       s.frondIds.find? (fun f => s.mapBit R.PWR_SHED_SHED f && !s.isShed f) = some 47) ∧
    ((powS {} [(R.PWR_MSTAT_TRIPPED, 1)]).flag R.PWR_MSTAT_TRIPPED = true ∧ (powS {}).flag R.PWR_MSTAT_TRIPPED = false ∧
      (powS {}).boot.pwrOk = true) ∧
    (let u := (powS {}).wr (R.PWR_LT_LT 47) 32
     2 ≤ u.ltTarget 47 ∧ u.cryptoHeld 47 = false ∧ u.isShed 47 = false) ∧
    (80 ≤ 80 ∧ 90 ≤ 124 ∧ 124 ≤ 124 ∧ 80 < 124) ∧
    (let s := powS { avsTick := [(7, some 1000)] } [(R.PWR_AVS_TGT 7, 700)]
     6 * 7 + 5 < s.frondCount ∧ 550 ≤ s.rd (R.PWR_AVS_TGT 7) ∧ s.rd (R.PWR_AVS_TGT 7) ≤ 700 ∧
       Tab.get (fun _ => none) s.pow.avsTick 7 = some 1000 ∧ s.tick < 1000 + 160000) ∧
    (Tab.get (fun _ => none) (powS {}).pow.avsTick 7 = none) := by decide +kernel
theorem hyps_BoardController :
    ({ base [] with boot := { pwrOk := false } } : State).boot.pwrOk = false ∧
    (let s := powS { page := 13, tele := { volt := [(13, 1750)], cur := [(13, 100)] } } []
     s.boot.pwrOk = true ∧ (14 : Fin 256).val ≤ 14 ∧ 14 < (15 : Fin 256).val ∧ s.pow.page < 14 ∧ s.teleVolt s.pow.page = (1750 : Nat) ∧
       (1750 * 4096) % 1000 = 0 ∧ 8 ≤ s.pow.page) ∧
    (let s := powS { page := 7 } [(R.PWR_AVS_TGT 7, 625)]
     s.pow.page < 8 ∧ (s.rd (R.PWR_AVS_TGT s.pow.page) * 4096) % 1000 = 0) ∧
    ((powS { page := 14 }).pow.page = 14) ∧
    (let s := base [(R.MON_RES_VALUE 0x3b, 700)]
     7 < 8 ∧ s.rdS (R.MON_RES_VALUE (0x34 + 7)) = ((s.rd (R.MON_RES_VALUE (0x34 + 7)) : Nat) : Int)) ∧
    (0 < 100 ∧ (12345 : Int).natAbs * 2 ^ 16 / (100 * 2 ^ 31) ≤ 1022) := by decide +kernel

theorem hyps_RegisterAccess :
    (({ base [] with boot := { pwrOk := false } } : State).linkAlive = false ∧ (run []).linkAlive = true) ∧
    ((run []).verdict 0 0x40 true = (0x40, .ok) ∧ (run []).readReg 0x68 = ((run []).readReg 0x68) ∧ (run []).fuseFailed = false) ∧
    (let s := { run [] with boot := { inReset := [{ id := 0x12f, ends := 2000 }] } }
     s.verdict 0 0x3f0008 true = (0x3f0008, .inReset 0x12f)) ∧
    ((base []).verdict 0 0x50000 true = (0x50000, .zero) ∧ (run []).verdict 1 0x100 true = (0x100, .zero)) ∧
    ((run []).verdict 0 0x1000000 true = (0x1000000, .denied)) ∧
    ((run []).pfVerdict 0x60010 true = .ok ∧ (run []).pfVerdict 0x60014 true = .ok) ∧
    (let s := base [(R.RST_BOOT_STAT_PHASE, 6), (R.RST_BOOT_STAT_FAIL_REASON, 2), (R.RST_LOAD_LEN_LEN, 0x4000000)]
     s.linkAlive = true ∧ s.pfVerdict 0x6002c true = .ok ∧ s.fuseFailed = false ∧ (0x21 : Word).toNat = 0x21 ∧ s.rd R.RST_BOOT_STAT_PHASE = 6 ∧
       s.rd R.RST_BOOT_STAT_FAIL_REASON = 2 ∧ s.boot.load = none ∧ s.rd R.RST_LOAD_LEN_LEN ≤ 0x4000000) := by decide +kernel
/-- The fields of a register are apart and it has one of access code `a`. -/
def hasField (off : Nat) (a : Acc) : Bool := (regAt off).any fun r => r.fields.all (fun e => decide (e.lo + e.w ≤ 32)) &&
  decide (r.fields.Pairwise fun x y => x.lo + x.w ≤ y.lo ∨ y.lo + y.w ≤ x.lo) && r.fields.any fun d => decide (d.acc = a)
theorem hyps_AccessCodes : hasField 0x10040 .rw = true ∧ hasField 0x20000 .wo = true ∧ hasField 0x10004 .w1c = true ∧
    hasField 0x10000 .wt = true ∧ hasField 0x68 .rc = true ∧ hasField 0x68 .ro = true := by decide +kernel

/-- The running module with VF 255 enabled and the register fields of `l` set. -/
def vfS (l : List (Fld × Nat)) (x : FnState := {}) : State :=
  { run l with host := { fns := [(0, { busMaster := true }), (255, { x with vfEnabled := true })] } }
theorem hyps_HostFunctions :
    (let s := vfS [(R.HST_RING_CFG_LOG2SIZE 255 3, 16)]
     s.fnPresent 255 = true ∧ 3 < 4 ∧ s.ringOn 255 3 = false ∧ s.rd (R.HST_RING_CFG_LOG2SIZE 255 3) = 16 ∧ 4 ≤ 16 ∧ 16 ≤ 16) ∧
    (16 < (vfS [(R.HST_RING_CFG_LOG2SIZE 255 3, 17)]).rd (R.HST_RING_CFG_LOG2SIZE 255 3)) ∧
    (let s := vfS [(R.HST_EQ_CFG_LOG2SIZE 255, 3)]; s.eqOn 255 = false ∧ s.rd (R.HST_EQ_CFG_LOG2SIZE 255) < 4) ∧
    ((vfS [(R.HST_FN_CTL_CR_EN 255, 8)]).ringOn 255 3 = true) ∧
    (let s := vfS []
     s.pfVerdict (R.HST_FN_TENANT_BASE 255).off true = .ok ∧ s.fuseFailed = false ∧ s.rangeOk 255 1 1023 = true ∧
       s.rangeOk 255 1 1024 = false ∧ 0 < 1023) ∧
    (((vfS [] { dropped := true }).fnState 255).dropped = true ∧ ((vfS []).fnState 255).dropped = false) := by decide +kernel
/-- An event in waiting. -/
def ev9 : Event := { code := 0x0101, obj := 0, tick := 1000 }
/-- A read-out of one byte. -/
def job1 : ReadJob := { fn := 0, ring := 0, seq := 0, addr := 64, data := [1], eff := 1000, doneBy := 1000 }
/-- The record of a frond, due now. -/
def rec1 : PmRecord := { tenant := 0, obj := 0, len := 0, due := 1000, frondRec := true, zero := false, bytes := [] }
/-- The PF's host state with its ring 0 as `r`. -/
def pfS (l : List (Fld × Nat)) (x : FnState) : State := { run l with host := { fns := [(0, { x with busMaster := true })] } }
theorem hyps_HostOutput :
    (let s := pfS [(R.HST_FN_CTL_EQ_EN 0, 1), (R.HST_EQ_CNT_COUNT 0, 15)] { waiting := [ev9], eqLog2 := 4 }
     s.eqOn 0 = true ∧ s.boot.pwrOk = true ∧ (s.fnState 0).busMaster = true ∧ (s.fnState 0).waiting = ev9 :: [] ∧ s.eqSpace 0 = true) ∧
    ((pfS [(R.HST_EQ_CNT_COUNT 0, 16)] { eqLog2 := 4 }).eqSpace 0 = false) ∧
    (let s := pfS [] { vectors := [(7, { fresh := true })] }
     Tab.get (fun _ => ({} : Vector8)) (s.fnState 0).vectors 7 = { fresh := true } ∧ (s.fnState 0).busMaster = true) ∧
    (let s : State := { pfS [] {} with host := { (pfS [] {}).host with reads := [job1], readBudgetUsed := 262143 } }
     s.host.reads = [job1] ∧ s.boot.pwrOk = true ∧ (s.fnState job1.fn).busMaster = true ∧ 0 < job1.data.length ∧
       s.host.readBudgetUsed + job1.data.length ≤ 262144 ∧ job1.doneBy ≤ job1.eff) ∧
    (({ base [] with boot := { pwrOk := false } } : State).boot.pwrOk = false ∧ (base []).running = false ∧ (run []).doorbellFns = []) ∧
    (let s : State := { pfS [(R.HST_FN_CTL_EQ_EN 0, 1)] { eqLog2 := 4 } with pm := { waiting := [rec1], budgetTick := 1000, budgetUsed := 255 } }
     s.pm.waiting = [rec1] ∧ rec1.due ≤ s.tick ∧ rec1.frondRec = true ∧ s.eqOn 0 = true ∧ (s.fnState 0).waiting = [] ∧ s.eqSpace 0 = true ∧
       s.pm.budgetTick = s.tick ∧ s.pm.budgetUsed < 256) ∧
    (let s := pfS [(R.HST_FN_CTL_CR_EN 0, 8), (R.HST_DB_ADDR_LO_ADDR_LO 0, 64)] {}
     let r := List.replicate 12 (0 : Byte) ++ [16] ++ List.replicate 51 0
     s.doorbellFns = [0] ∧ 3 < 4 ∧ s.eqOn 0 = false ∧ (∀ q, q < 4 → s.ringOn 0 q = decide (q = 3)) ∧
       readHost [] (s.baseOf (R.HST_DB_ADDR_LO_ADDR_LO 0) (R.HST_DB_ADDR_HI_ADDR_HI 0)) 64 = none ∧
       readHost [(0, List.replicate 64 0 ++ r), (64 * 64, r)] (s.baseOf (R.HST_DB_ADDR_LO_ADDR_LO 0) (R.HST_DB_ADDR_HI_ADDR_HI 0)) 64 = some r ∧
       2 ^ (s.ring 0 3).log2 = 16 ∧ countDiff (fieldAt r 12 4) (s.rd (R.HST_CR_FETCHED_COUNT 0 3)) ≤ 16 ∧
       countDiff (s.rd (R.HST_CQ_WRITTEN_COUNT 0 3)) (fieldAt r 28 4) ≤ 16) ∧
    (let s := pfS [] { rings := [(0, { tail := 1 })] }
     (s.fetchOne [(0, List.replicate 64 0)] 0 0 256 4096).isSome = true) := by decide +kernel
/-- An outcome that is there is one with its parts. -/
theorem pair_of_isSome {α β : Type} (x : α × Option β) (h : x.2.isSome = true) : ∃ t m, x = (t, some m) :=
  ⟨x.1, x.2.get h, by rw [Option.some_get]⟩
/-- An outcome that is not there. -/
theorem pair_of_isNone {α β : Type} (x : α × Option β) (h : x.2.isNone = true) : ∃ t, x = (t, none) :=
  ⟨x.1, by rw [← Option.isNone_iff_eq_none.mp h]⟩
/-- A module of mesh address 5 in its mesh, port 5 up and aligned, its neighbour the one at 6. -/
def meshS (x : MeshSt := {}) (l : List (Fld × Nat) := []) : State :=
  { run ([(R.MSH_STAT_STATE, 2), (R.MSH_STAT_ADDR, 5), (R.MSH_PORT_STAT_ENABLED 5, 1), (R.MSH_PORT_STAT_ALIGNED 5, 1), (R.MSH_PORT_STAT_UP 5, 1),
      (R.MSH_PORT_STAT_NBR_ADDR 5, 6)] ++ l) with mesh := x }

/-- The running module with the mailbox state `x` on channel `c`. -/
def mbS (c : Nat) (x : MbxCh) (l : List (Fld × Nat) := []) : State := { run l with mbx := [(c, x)] }
theorem hyps_MailboxCommands :
    (let s := mbS 7 {}
     s.pfVerdict (mbBase 7) true = .ok ∧ s.fuseFailed = false ∧ (s.wr (mbIn 7 0) 0).flag (mbInFull 7) = false ∧
       s.pfVerdict (mbBase 7 + 4 * (14 + 1)) true = .ok ∧ (s.wr (mbIn 7 (14 + 1)) 0).flag (mbInFull 7) = false ∧ (s.mbCh 7).queue = [] ∧
       s.rd (mbRun 7) < 64) ∧
    ((mbS 7 {} [(mbInFull 7, 1)]).wr (mbIn 7 0) 0).flag (mbInFull 7) = true ∧
    (let s := mbS 7 {} [(mbOutLen 7, 15), (mbOutFull 7, 1), (mbRun 7, 64)]
     mbBase 7 + 0x40 + 4 * 15 = 0x2077c ∧ s.pfVerdict 0x2077c true = .ok ∧ s.rd (mbOutLen 7) = 15 ∧ s.rd (mbOutLen 7) ≠ 14 ∧
       s.flag (mbOutFull 7) = true ∧ 64 ≤ s.rd (mbRun 7) ∧ (s.mbCh 7).queue.length < 8) ∧
    (8 ≤ mbReplies ((mbS 7 { queue := List.replicate 8 (false, []) }).mbCh 7)) ∧
    (let s := mbS 7 { queue := List.replicate 7 (false, []) } [(mbInFull 7, 1), (mbIn 7 0, mbHeader 1 0 false 0 65535)]
     s.flag (mbInFull 7) = true ∧ mbReplies (s.mbCh 7) < 8 ∧ (s.mbCh 7).inHand = none ∧ s.flag (mbDamaged 7) = false ∧
       mbRsp (s.rd (mbIn 7 0)) = false ∧ mbKnown 7 (mbCode (s.rd (mbIn 7 0))) = true) ∧
    (let s := mbS 7 {} [(mbInFull 7, 1), (mbDamaged 7, 1)]
     s.flag (mbInFull 7) = true ∧ (s.mbCh 7).queue = [] ∧ (s.mbCh 7).inHand = none ∧ s.flag (mbDamaged 7) = true) ∧
    (let s := mbS 7 { queue := [(false, List.replicate 16 0)] }
     s.flag (mbOutFull 7) = false ∧ (s.mbCh 7).queue = (false, List.replicate 16 0) :: [] ∧ (List.replicate 16 0).length ≤ 16) ∧
    (let s := mbS 7 { inHand := some [mbHeader 1 0 false 0 1] }
     (s.mbCh 7).inHand = some [mbHeader 1 0 false 0 1] ∧ (s.mbCh 7).mute = false ∧ mbCode ([mbHeader 1 0 false 0 1].headD 0) = 1 ∧
       mbCode ([mbHeader 2 0 false 0 1].headD 0) = 2 ∧ [mbHeader 2 0 false 0 1].drop 1 = [] ∧ [mbHeader 2 1 false 0 1, 0].drop 1 ≠ []) ∧
    (let l : List Word := List.replicate 15 0
     (mbS 7 {} [(mbNoticeEn 7, 1)]).flag (mbNoticeEn 7) = true ∧ l ≠ [] ∧ l.length ≤ 15) ∧
    (9 < 10 ∧ 2 ^ 32 - 1 < 2 ^ 32 ∧ 7 < 8 ∧ (List.replicate 15 0).length ≤ 15) := by decide +kernel
theorem hyps_MailboxQueueFull :
    let s := mbS 9 { queue := List.replicate 7 (false, []) ++ [(true, [1])] }
    9 < 10 ∧ (s.mbCh 9).queue.length = 8 ∧ (s.mbCh 9).queue = List.replicate 7 (false, []) ++ (true, [1]) :: [] ∧
      (∀ q ∈ List.replicate 7 (false, ([] : List Nat)), q.1 = false) ∧ (false, []) ∈ (s.mbCh 9).queue := by decide +kernel

/-- A running module on which an SA in state 2 serves frond 5. -/
def heldS (l : List (Fld × Nat) := []) : State := { run l with
  eps := [(7, { entry := { kind := 1, state := 1, saEn := true, saId := 3, src := { kind := 0, id := 5 } } })]
  sas := [(3, { state := 2 })] }
theorem hyps_KeyEngineCommands :
    (let s : State := { run [] with sec := { ide := true } }
     s.pfVerdict R.SEC_KE_CMD_OP.off true = .ok ∧ s.fuseFailed = false ∧ s.flag R.SEC_KE_STAT_BUSY = false ∧
       s.flag R.SEC_KE_STAT_KEY_VALID = false ∧ (s.pfVerdict (R.SEC_KE_KEY_KEY 0).off true = .ok) ∧
       (s.pfVerdict (R.SEC_KE_KEY_KEY 7).off true = .ok) ∧ s.rd R.SEC_ENT_STAT_STATE ≠ 1) ∧
    (let s : State := { run [(R.SEC_KE_STAT_KEY_VALID, 1)] with sec := { ide := true, keyWords := [0, 1, 2, 3, 4, 5, 6], ops := 131036 } }
     s.pfVerdict R.SEC_KE_CMD_OP.off true = .ok ∧ s.flag R.SEC_KE_STAT_KEY_VALID = true ∧ s.flag R.SEC_KE_STAT_BUSY = false ∧
       s.sec.ops + keBlocks 4 ≤ 131072 ∧ (∀ u, u < 8 → u ≠ 7 → s.sec.keyWords.contains u = true)) ∧
    (∀ op ∈ [1, 2], let s : State := { run [(R.SEC_KE_STAT_KEY_VALID, 1), (R.SEC_KE_STAT_BUSY, 1)] with sec := { ide := true, busyOp := op } }
     s.pfVerdict R.SEC_KE_CMD_OP.off true = .ok ∧ s.flag R.SEC_KE_STAT_KEY_VALID = true ∧ s.flag R.SEC_KE_STAT_BUSY = true ∧ s.sec.busyOp = op) ∧
    (run [(R.SEC_ENT_STAT_STATE, 1)]).rd R.SEC_ENT_STAT_STATE = 1 := by decide +kernel
theorem hyps_CryptoGate :
    heldS.pfVerdict (R.FRD_CRYGATE_GATE 5).off true = .ok ∧
      heldS.cryptoHeld 5 = true ∧ heldS.cryptoHeld 6 = false ∧ heldS.pfVerdict (R.FRD_CRYGATE_GATE 6).off true = .ok := by decide +kernel
theorem hyps_AesInverse :
    let key := List.range 32; let blk := List.replicate 16 255; let p := List.replicate 64 255
    key.length = 32 ∧ blk.length = 16 ∧ (∀ b ∈ key, b < 256) ∧ (∀ b ∈ blk, b < 256) ∧ p.length % 8 = 0 ∧ 16 ≤ p.length ∧ p.length ≤ 64 ∧
      (∀ b ∈ p, b < 256) := by decide +kernel
/-- The running module with a request of `code` and its payload in hand on channel 9. -/
def secS (code : Nat) (p : List Nat) (l : List (Fld × Nat) := []) : State :=
  mbS 9 { inHand := some (mbHeader code p.length false 0 1 :: p) } l
theorem hyps_SecureCommands :
    (∀ q ∈ ([(0x02, []), (0x40, 0 :: List.replicate 8 0), (0x40, 1023 :: List.replicate 8 0), (0x41, [0]), (0x42, [1023]), (0x48, [0x042]),
        (0x49, [0x305]), (0x50, [12]), (0x50, [1]), (0x5e, []), (0x5f, [77])] : List (Nat × List Nat)),
      let s := secS q.1 q.2; let m := mbHeader q.1 q.2.length false 0 1 :: q.2
      let u := s.setMbCh 9 { s.mbCh 9 with inHand := none, mute := false }
      (s.mbCh 9).inHand = some m ∧ (s.mbCh 9).mute = false ∧ s.retired = false ∧ s.secBlocked = false ∧ u.secBlocked = false ∧
        mbCode (m.headD 0) = q.1 ∧ m.drop 1 = q.2 ∧ u.entropyFailed = false ∧ s.sec.keDown = false ∧ (s.tenant 0).active = true ∧
        (List.replicate 8 0).length = 8) ∧
    (secS 0x40 [] [(R.SEC_ENT_STAT_STATE, 3)]).entropyFailed = true ∧ (secS 0x50 [] [(R.SEC_ENT_STAT_STATE, 1)]).rd R.SEC_ENT_STAT_STATE = 1 ∧
    (let s := secS 0x48 [0x042]; s.holdId 0x042 = true ∧ s.deferredOf 0x042 = none) ∧
    (let s : State := { secS 0x49 [0x305] with sec := { deferred := [(0x305, some ⟨3, 0, 0⟩)] } }
     s.holdId 0x305 = true ∧ (s.deferredOf 0x305).isSome = true) ∧
    (let s : State := { secS 0x5f [77] with tick := 161000, sec := { challenge := some (9, 77, 1000) } }
     s.sec.challenge = some (9, 77, 1000) ∧ s.tick ≤ 1000 + 160000) ∧
    (let s : State := { secS 0x5f [77] with tick := 161001, sec := { challenge := some (9, 77, 1000) } }
     s.sec.challenge = some (9, 77, 1000) ∧ 1000 + 160000 < s.tick) ∧
    (let s := run []; s.rd R.SEC_ENT_STAT_STATE = 0 ∧ s.sec.ide = false ∧
      ((s.sec.entFails ++ [s.tick]).filter (fun t => decide (s.tick < t + 160000))).length < 3) ∧
    ((run [(R.SEC_ENT_STAT_STATE, 3)]).rd R.SEC_ENT_STAT_STATE = 3) ∧
    (let s : State := { run [(R.SEC_ENT_STAT_STATE, 1)] with tick := 161000, sec := { entFails := [1000, 1001, 1001], ide := true } }
     s.rd R.SEC_ENT_STAT_STATE ≠ 3 ∧ s.sec.ide = true ∧
       3 ≤ ((s.sec.entFails ++ [s.tick]).filter (fun t => decide (s.tick < t + 160000))).length) := by decide +kernel

/-- The module in boot phase `p` in tick 1000, with the boot record `x`. -/
def bootS (p : Nat) (x : BootSt := {}) (l : List (Fld × Nat) := []) : State := { base ((R.RST_BOOT_STAT_PHASE, p) :: l) with boot := x }
theorem hyps_BootCommands :
    ((bootS 5).boot.pwrOk = true ∧ (bootS 5).phase ≠ 0 ∧ (bootS 5).phase ≠ 1 ∧ (bootS 5).phase ≠ 2 ∧ (bootS 5).phase ≠ 4) ∧
    (let s := bootS 0 { pwrOk := false, rstN := false }
     s.boot.pwrOk = false ∧ s.peat.newest markerSlots 32 28 0 8 = none) ∧
    (let s := bootS 0 { rstN := false }
     s.phase = 0 ∧ s.boot.rstN = false ∧ s.boot.pwrOk = true ∧ s.pow.railsOut = []) ∧
    (let s : State := { bootS 0 with pow := { railsOut := [13] } }
     s.phase = 0 ∧ s.boot.rstN = true ∧ s.boot.pwrOk = true ∧ s.pow.railsOut = [13]) ∧
    ((bootS 1).phase = 1 ∧ (bootS 1).fuse.loaded = false ∧ ({ bootS 1 with fuse := { loaded := true } } : State).fuse.loaded = true ∧
      (0 ∈ [0] ∧ identityOff 0 = true)) ∧
    ((bootS 2).phase = 2 ∧ (bootS 2).boot.tried = []) ∧ (bootS 2 { tried := [0] }).boot.tried = [0] ∧
    (let s := bootS 4
     s.phase = 4 ∧ s.frondIds.all (fun f => (s.frondCal f).run.isNone) = true) := by decide +kernel
/-- An image without records, of generation 7. -/
def img64 : List Byte :=
  let z := natLe 4 0x46435747 ++ natLe 2 1 ++ natLe 2 64 ++ natLe 4 64 ++ natLe 4 7 ++ List.replicate 48 0
  z.take 60 ++ natLe 4 (crc32c z)
theorem hyps_ConfigCommands :
    (((bootS 5).phase ≠ 3 ∧ (bootS 5).boot.load = none ∧ (bootS 5).meshBooting = false ∧
      (bootS 5).boot.inReset.find? (fun x => x.id == 4095) = none ∧ (bootS 5).upd.state ≠ 7) ∧
    (let s := bootS 3; s.phase = 3 ∧ s.rd R.RST_STRAP_BOOT_SRC = 0 ∧ s.bestCopy = none) ∧
    (let s : State := { bootS 3 with upd := { copies := [(1, some img64)] } }
     s.phase = 3 ∧ s.rd R.RST_STRAP_BOOT_SRC = 0 ∧ (s.bestCopy.map fun q => (q.1, q.2.generation)) = some (1, 7)) ∧
    (let s := bootS 3 { load := some (1, 0, 4) }
     s.boot.load = some (1, 0, 4) ∧ (s.fnState 0).busMaster = false ∧ readHost [] 0 4 = none) ∧
    (let s : State := { bootS 3 { load := some (1, 0, 4) } with host := { fns := [(0, { busMaster := true })] } }
     s.boot.load = some (1, 0, 4) ∧ (s.fnState 0).busMaster = true ∧ readHost [(0, [1, 2, 3, 4])] 0 4 = some [1, 2, 3, 4] ∧
       parseImage [1, 2, 3, 4] = none) ∧
    (let s : State := { bootS 5 { load := some (2, 0, 4) } with host := { fns := [(0, { busMaster := true })] } }
     s.boot.load = some (2, 0, 4) ∧ (s.fnState 0).busMaster = true ∧ readHost [(0, [1, 2, 3, 4])] 0 4 = some [1, 2, 3, 4] ∧
       [1, 2, 3, 4].length < 16384) ∧
    (let s := bootS 3 {} [(R.RST_STRAP_BOOT_SRC, 2), (R.MSH_PORT_STAT_UP 5, 1)]
     s.meshBooting = true ∧ s.meshUp 5 = true)) ∧
    (    (let s := meshS; (s.meshTake 5 0x30 0 (meshBytes 0x30 8 5 6 0 (natBe 4 0))).2.isSome = true ∧
       (s.meshTake 5 0x30 0 (meshBytes 0x30 8 5 6 0 (natBe 4 0))).1.served = none) ∧
    (let s : State := { meshS { cfgServe := true } with upd := { copies := [(0, some img64)] } }
     let r := s.meshTake 5 0x30 0 (meshBytes 0x30 8 5 6 0 (natBe 4 63))
     r.2.map MeshMsg.payload = some (natBe 4 63) ∧ r.1.served = some img64 ∧ r.1.meshState = 2 ∧ r.1.mesh.cfgServe = true ∧
       beNat (slice (natBe 4 63) 0 4) = 63 ∧ 63 < img64.length) ∧
    ((meshS.meshTake 5 0x31 1 []).2.isNone = true) ∧
    (let s : State := { meshS {} [(R.RST_BOOT_STAT_PHASE, 3), (R.RST_STRAP_BOOT_SRC, 2)] with
        boot := { mesh := [1], meshTotal := 64, meshPort := some 5 } }
     let p : List Byte := natBe 4 1 ++ natBe 4 64 ++ [2, 3]
     let r := s.meshTake 5 0x31 0 (meshBytes 0x31 8 5 6 0 p)
     r.2.map MeshMsg.payload = some p ∧ r.1.meshBooting = true ∧ r.1.boot.meshPort = some 5 ∧ r.1.boot.meshTotal = 64 ∧ p.length ≤ 1024 ∧
       beNat (slice p 0 4) = 1 ∧ beNat (slice p 4 4) = 64 ∧ 1 = r.1.boot.mesh.length ∧ 0 < 1 ∧ 1 + (p.drop 8).length < 64 ∧ p.drop 8 ≠ []) ∧
    ((run []).frondEnabled 47 = true ∧ ({ run [] with fuse := { grade := 2 } } : State).frondEnabled 47 = false) ∧
    (let x : BlockReset := { id := 4095, ends := 1001, suspended := true }
     let s : State := { bootS 5 { inReset := [x] } with pow := { gated := true } }
     s.boot.inReset.find? (fun x => x.id == 4095) = some x ∧ s.tick < x.ends ∧ x.suspended = true ∧ s.pow.gated = true) ∧
    (let x : BlockReset := { id := 0, ends := 1000 }
     let s := bootS 5 { inReset := [x] }
     s.boot.inReset.find? (fun x => x.id == 0) = some x ∧ x.ends ≤ s.tick ∧ x.suspended = false)) := ⟨by decide +kernel, by decide +kernel⟩
theorem hyps_TickBoundary :
    ({ run [] with boot := { pwrOk := false } } : State).boot.pwrOk = false ∧ (bootS 0).phase = 0 ∧
    (let s := bootS 1; s.boot.pwrOk = true ∧ s.phase ≠ 0 ∧ s.running = false) ∧
    (let s := run []; s.boot.pwrOk = true ∧ s.running = true ∧ s.phase ≠ 0 ∧ ∃ t, exec .coldResetPin s = .next t) :=
  ⟨rfl, by decide +kernel, by decide +kernel, by decide +kernel, by decide +kernel, by decide +kernel, _, rfl⟩

/-- The running module with the Peat domain `p`. -/
def peatS (p : PeatSt) (l : List (Fld × Nat) := []) : State := { run l with peat := p }
theorem hyps_PeatCommands :
    ((peatS { powered := false }).peat.powered = false) ∧
    (let s := peatS {}
     s.peat.powered = true ∧ s.peat.onBackup = false ∧ s.boot.pwrOk = true ∧ s.peat.commitDue = false ∧
       s.pfVerdict R.PEAT_CAL_CMD_GO.off true = .ok ∧ s.pfVerdict R.PEAT_EPOCH_CMD_GO.off true = .ok ∧ s.fuseFailed = false) ∧
    (let s := peatS { onBackup := true }; s.peat.powered = true ∧ s.peat.onBackup = true ∧ s.boot.pwrOk = true) ∧
    (let s : State := { peatS { onBackup := true } with boot := { pwrOk := false } }
     s.peat.powered = true ∧ s.peat.onBackup = true ∧ s.boot.pwrOk = false) ∧
    (let s : State := { peatS { powered := false } with boot := { pwrOk := false } }
     s.peat.powered = false ∧ s.boot.pwrOk = false) := by decide +kernel
theorem hyps_Calendar :
    (let c : Cal := { year := 2100, month := 2, day := 28, hour := 23, minute := 59, second := 59 }
     let d : Cal := { year := 2100, month := 3, day := 1, hour := 0, minute := 0, second := 0 }
     calReason c = 0 ∧ c ≠ Cal.last ∧ calReason d = 0 ∧
       ((((c.year * 16 + c.month) * 32 + c.day) * 32 + c.hour) * 64 + c.minute) * 64 + c.second <
         ((((d.year * 16 + d.month) * 32 + d.day) * 32 + d.hour) * 64 + d.minute) * 64 + d.second) ∧
    (let s := peatS {} [(R.PEAT_CAL_SETDATE_SETDATE, 2199 * 2 ^ 16 + 12 * 2 ^ 8 + 31), (R.PEAT_CAL_SETTIME_SETTIME, 23 * 2 ^ 16 + 59 * 2 ^ 8 + 60)]
     calReason (calOf (s.rd R.PEAT_CAL_SETDATE_SETDATE) (s.rd R.PEAT_CAL_SETTIME_SETTIME)) = 6 ∧ 0 < 6) := by decide +kernel
/-- The running module with the test access port `t` and the rails out of tolerance `r`. -/
def tapS (t : Tap) (r : List Nat := []) : State := { run [] with tap := t, pow := { railsOut := r } }
theorem hyps_BoundaryScan :
    (tapS {} [13]).pow.railsOut.contains 13 = true ∧ (tapS {}).pow.railsOut.contains 13 = false ∧
    ((tapS { st := .captureDr, ir := 1 }).tap.st = .captureDr ∧ (tapS { st := .captureDr, ir := 1 }).tap.ir = 0x01) ∧
    ((tapS { st := .shiftDr, dr := [true] }).tap.st = .shiftDr ∧ (tapS { st := .shiftDr, dr := [true] }).tap.dr = true :: []) ∧
    ((List.range 256).any (fun i => tapBoundary i && (tapS { st := .exit1Dr, ir := i }).tap.st == .exit1Dr)) = true := by decide +kernel

/-- The running module with the port `x` at lane `p`. -/
def portS (p : Nat) (x : PortSt) (l : List (Fld × Nat) := []) : State := { run l with ports := [(p, x)] }
theorem hyps_ClientCommands :
    (((run []).port 287).running = false ∧ ((run []).port 287).client = 0 ∧ (run [(R.CLT_LANE_STAT_PORT 287, 0x1ff)]).laneOwner 287 = 0x1ff) ∧
    ((run [(R.CLT_LANE_STAT_PORT 287, 286)]).laneOwner 287 = 286 ∧ 286 ≠ 0x1ff ∧ (run []).pow.gated = false) ∧
    (let x : PortSt := { client := 4, width := 1, running := true, hits := [(31, 1)], misses := [(31, 3)] }
     (portS 287 x).port 287 = x ∧ x.running = true ∧ 31 < pcsLanes x ∧ Tab.get (fun _ => 0) x.hits 31 = 1 ∧ x.locked.contains 31 = false ∧
       Tab.get (fun _ => 0) x.misses 31 = 3 ∧ portLocked x = false ∧ x.client ≠ 6 ∧ x.lf ≠ true ∧ 64 ≤ 64 ∧ 63 < 64 ∧ 65 ≤ 65 ∧ 64 < 65) ∧
    (let x : PortSt := { client := 1, width := 1, running := true, locked := [0, 1, 2, 3] }
     let s := portS 287 x [(R.CLT_LANE_STAT_SIG_DET 287, 1), (R.CLT_LANE_STAT_CDR_LOCK 287, 1)]
     s.port 287 = x ∧ x.running = true ∧ s.portSignal 287 = true ∧ portLocked x = true) ∧
    (let x : PortSt := { client := 6, running := true }; (portS 0 x).port 0 = x ∧ x.client = 6 ∧ x.gidm = false) ∧
    (let x : PortSt := { client := 6, running := true, gidm := true }; (portS 0 x).port 0 = x ∧ x.client = 6 ∧ x.gidm = true) ∧
    (let x : PortSt := { client := 1, kinds := [(1000, 3)] }
     let s := portS 0 x
     s.port 0 = x ∧ x.client ≠ 0 ∧ x.own.find? (fun r => r.egress == s.tick + 1) = none ∧ s.adopted 0 (s.tick + 1) = none ∧
       (x.kinds.filter fun q => decide (q.1 < s.tick)) = []) ∧
    (let s := portS 287 { client := 1, width := 1 }
     s.host.release = [] ∧ s.portNamed 287 = false ∧ s.portExists 287 = true) := by decide +kernel
theorem hyps_ClientCommands_setup :
    (let s := run ((List.range 8).map fun i => (R.CLT_LANE_STAT_PORT (280 + i), 0x1ff))
     s.host.release = [] ∧ s.portNamed 280 = false ∧ (List.range 5).all (fun c => (List.range 9).any fun w => (List.range 8).any fun r =>
       portFormOk 280 w (c + 1) r 3) = true ∧ 128 ≤ 255 ∧ ∀ i, i < 8 → s.laneOwner (280 + i) = 0x1ff) ∧
    (let s := run [(R.CLT_LANE_STAT_PORT 287, 286)]
     s.portNamed 287 = false ∧ portFormOk 287 1 6 2 0 = true ∧ 0 < 1 ∧ s.laneOwner (287 + 0) ≠ 0x1ff ∧ s.laneOwner (287 + 0) ≠ 287) := by
  decide +kernel

/-- The running module whose frond 47 has the line frame `x` and received words `fec`, its line function running. -/
def lineS (x : SlfSt) (l : List (Fld × Nat) := []) (fec : FecSt := {}) : State :=
  { run ([(R.FRD_ID_LINE_RUN 47, 1)] ++ l) with fronds := [(47, { slf := x, fec := fec })] }
/-- A received superframe of stamp `t`. -/
def inner9 (t : Nat) : InnerResult := { stamp := t, sf := none, first := false, settled := [], memFail := [], erased := 0 }
theorem hyps_LineFrameCommands :
    ((run []).defectsOn 47 = false ∧ (run []).lineRun 47 = false ∧ ((run []).frond 47).fec.inner = [] ∧ ((run []).frond 47).slf.gccFw = [] ∧
      ((run []).frond 47).slf.gccHost = [] ∧ ((run []).tick + 1) % 160000 ≠ 0 ∧ ({ run [] with tick := 319999 } : State).tick % 160000 = 159999) ∧
    (let x : SlfSt := { oofRun := ⟨479, 999⟩, omRun := ⟨479, 999⟩ }
     let s := lineS x [(R.FRD_SLF_CTL_MF_EN 47, 1)]
     (s.frond 47).slf = x ∧ s.defectsOn 47 = true ∧ x.tickAllIf = false ∧ 479 ≤ 479 ∧ 0 < s.tick ∧ x.oofRun = ⟨479, s.tick - 1⟩ ∧
       s.flag (R.FRD_SLF_CTL_MF_EN 47) = true ∧ x.inMf = false ∧ x.omRun = ⟨479, s.tick - 1⟩) ∧
    (let x : SlfSt := { tickAllIf := true, inFrame := true, ifRun := ⟨479, 999⟩ }
     let s := lineS x [(R.FRD_SLF_CTL_MF_EN 47, 0)]
     s.defectsOn 47 = true ∧ x.tickAllIf = true ∧ x.inFrame = true ∧ x.ifRun = ⟨479, s.tick - 1⟩ ∧
       s.flag (R.FRD_SLF_CTL_MF_EN 47) = false) ∧
    (let s := lineS {} [] { inner := [inner9 999, inner9 1000] }
     (s.frond 47).fec.inner = inner9 999 :: [inner9 1000] ∧ s.tick < (inner9 999).stamp + 2) ∧
    (let s := lineS {} [] { inner := [inner9 998] }
     (s.frond 47).fec.inner = inner9 998 :: [] ∧ (inner9 998).stamp + 2 ≤ s.tick) ∧
    (let x : SlfSt := { gccFw := [⟨2, [1]⟩], gccHost := [⟨1, [2]⟩], gccSeq := 65535 }
     let s := lineS x [(R.FRD_SLF_CTL_GCC_SEL 47, 4)]
     s.lineRun 47 = true ∧ 1 ≤ s.rd (R.FRD_SLF_CTL_GCC_SEL 47) ∧ s.rd (R.FRD_SLF_CTL_GCC_SEL 47) ≤ 4 ∧ x.gccFw = ⟨2, [1]⟩ :: [] ∧
       x.gccHost = ⟨1, [2]⟩ :: []) ∧
    (lineS {} [(slfDef 47 0, 1)]).aSsf 47 = true ∧
    (let g : GccFrame := ⟨255, List.replicate 40 1⟩; g.typ < 256 ∧ g.payload.length ≤ 4352 ∧ 65535 < 65536 ∧ 53 < 14 + g.payload.length) := by
  decide +kernel

/-- Slot sets: slots 0 and 1 of SRC, slots 2 and 3 of DST. -/
def slots9 : List Byte := (List.range 384).map fun i => if i = 0 then 0x03 else if i = 128 then 0x0c else 0
/-- A connection of an ODU of type 2 from frond 5 to frond 6. -/
def conn9 : XcEntry := { kind := 1, tenant := 5, oduType := 2, tsCount := 2, src := { kind := 0, id := 5 }, dst := { kind := 0, id := 6, tsLow := 2 } }
/-- The running module with T0005 active, room on fronds 5 and 6, endpoint 131071 as `x` and endpoint 7 a bound connection. -/
def xcS (x : Endpoint) (l : List (Fld × Nat) := []) : State :=
  { run ([(R.FRD_SC_PLAN_N 5, 1), (R.FRD_SC_PLAN_N 6, 1)] ++ l) with
    eps := [(131071, x)]
    host := { tenants := [(5, { active := true, unitQuota := 20, saQuota := 1, granQuota := 1 })] } }
/-- A request of the PF that names T0005. -/
def pf5 : ReqHdr := { pf with tenant := 5 }
theorem hyps_EndpointCommands :
    (let s := xcS {}; let c := pf5.ctx s [(64, slots9)]
     pf5.any = false ∧ (∀ k ∈ chkEpCreate 131071 conn9 64 c s, k.bad = false) ∧
       (entryKeys conn9 (c.slotSets 64).1).any s.slotFenced = false ∧ s.epFenced 131071 = false ∧
       entryKeys conn9 (c.slotSets 64).1 ≠ []) ∧
    (let s := xcS { entry := { conn9 with state := 1 }, slotsSrc := [0, 1], slotsDst := [2, 3] }; let c := pf5.ctx s []
     (∀ k ∈ chkEpChange 131071 1 { selMode := 2, prefMode := 1 } c s, k.bad = false) ∧ s.epFenced 131071 = false ∧ s.host.release = [] ∧
       (∀ k ∈ chkEpDelete 131071 c s, k.bad = false) ∧ (∀ k ∈ chkEpRead 131071 4096 c s, k.bad = false) ∧
       (s.memRead 0x10 0 (32 * 131071) 32).2 = []) := by decide +kernel
theorem hyps_TenantIsolation :
    (let h : ReqHdr := { pf with fn := 255, tenant := 5 }
     let s : State := { vfS [(R.HST_FN_TENANT_BASE 255, 1), (R.HST_FN_TENANT_COUNT 255, 1023)] with
        eps := [(131071, { entry := { conn9 with tenant := 6 } })], sas := [(16383, { state := 1, tenant := 6 })]
        host := { fns := [(255, { vfEnabled := true })], tenants := [(5, { active := true })] } }
     h.any = false ∧ h.tenant ≠ 0 ∧ (s.tenant h.tenant).active = true ∧ s.inRange h.fn h.tenant = true ∧ 4096 % 64 = 0 ∧
       (s.ep 131071).entry.kind ≠ 0 ∧ (s.ep 131071).entry.tenant ≠ h.tenant ∧ (s.sa 16383).state ≠ 0 ∧ (s.sa 16383).tenant ≠ h.tenant ∧
       h.fn ≠ 0) ∧ PfOnly { pf with fn := 255 } [] (.tenantCreate { pf with fn := 255 } []) 0x29 := by
  exact ⟨by decide +kernel, .tenantCreate⟩
/-- A clean copy of leg `src` stamped `t`, arrived in tick `arr`. -/
def copy9 (src t arr : Nat) (sf : Nat := 7) : Copy :=
  { src := src, stamp := t, arr := arr, mfas := 3, sf := sf, clean := true, signal := none, auth := none, phase := 0, bytes := [] }
/-- A running Lichen pair in state `st` with the copies `c`. -/
def pair9 (st : Nat) (c : List Copy) : Endpoint :=
  { entry := { conn9 with dst := { kind := 1, id := 3 }, state := 1, legbKind := 0, legbFrond := 6, hold := 4, lstate := st }, copies := c }
/-- A running inverse-multiplexed group with the copies `c`. -/
def group9 (c : List Copy) : Endpoint :=
  { entry := { kind := 1, oduType := 6, tsCount := 4, state := 1, src := { kind := 0, id := 5 }, dst := { kind := 1, id := 3 }, imuxM := 1, hold := 4 }, copies := c }
theorem hyps_TrafficCommands :
    ((lichenRuns ((xcS {}).xep 0) = false ∧ ((xcS {}).xep 0).entry.kind ≠ 1 ∧ isImux ((xcS {}).xep 0).entry = false) ∧
    (let x : Endpoint := { entry := { conn9 with state := 1, dst := { kind := 1, id := 3 } } }
     (xcS x).xep 131071 = x ∧ x.entry.kind = 1 ∧ x.entry.state = 1 ∧ (xcS x).copyFrond x.entry 0 = some 5) ∧
    (let x : Endpoint := { entry := { conn9 with state := 1, src := { kind := 1, id := 9 }, dst := { kind := 1, id := 3 } } }
     (xcS x).lineEnd x.entry.src = false ∧ (xcS x).lineEnd x.entry.dst = false ∧ x.decided = []) ∧
    (let d : Decided := { made := 999, toDst := true, kind := 0, leg := 0, bytes := [] }
     let x : Endpoint := { entry := { conn9 with state := 1 }, decided := [d] }
     (xcS x).xep 131071 = x ∧ x.decided = [d] ∧ d.made < (xcS x).tick ∧ (xcS x).epFenced 131071 = false ∧ (xcS x).epSlotsFenced x = false) ∧
    (let x := { pair9 1 [copy9 0 990 999, copy9 2 993 1000] with matchedRun := ⟨14, 999⟩ }
     (xcS x).xep 131071 = x ∧ lichenRuns x = true ∧ x.entry.lstate = 1 ∧ measured x (xcS x).tick (frameGap x.entry.tsCount) 0 = [3] ∧
       x.matchedRun = ⟨14, (xcS x).tick - 1⟩) ∧
    (let x := { pair9 1 [copy9 0 990 999, copy9 2 990 1000] with matchedRun := ⟨15, 999⟩ }
     lichenRuns x = true ∧ x.entry.lstate = 1 ∧ measured x (xcS x).tick (frameGap x.entry.tsCount) 0 = [0] ∧ (0 : Int) ≤ 0 ∧
       x.matchedRun = ⟨15, (xcS x).tick - 1⟩)) ∧
    ((let x := { pair9 1 [copy9 0 990 1000] with aloneRun := ⟨1599, 999⟩ }
     lichenRuns x = true ∧ cleanSeen x (xcS x).tick (frameGap x.entry.tsCount) 0 = true ∧
       cleanSeen x (xcS x).tick (frameGap x.entry.tsCount) 1 = false ∧ x.aloneLeg = 0 ∧ x.aloneRun = ⟨1599, (xcS x).tick - 1⟩) ∧
    (let x := { pair9 3 [copy9 0 990 999, copy9 2 993 1000] with deltaRun := ⟨15, 999⟩ }
     lichenRuns x = true ∧ x.entry.lstate = 3 ∧ measured x (xcS x).tick (frameGap x.entry.tsCount) x.refLeg = [3] ∧ (3 : Int) ≠ (x.delta : Int) ∧
       x.deltaRun = ⟨15, (xcS x).tick - 1⟩ ∧ (refOffsetNow x x.refLeg).isSome = true ∧ x.refOffset = none) ∧
    (let x := { pair9 3 [] with failRun := [(1, ⟨15, 999⟩)] }
     refOffsetNow x x.refLeg = none ∧ cleanSeen x (xcS x).tick 1 1 = false ∧ x.failed.contains 1 = false ∧
       Tab.get (fun _ => {}) x.failRun 1 = ⟨15, (xcS x).tick - 1⟩) ∧
    (let x := { pair9 3 [copy9 2 993 1000] with failed := [1], clearRun := [(1, ⟨159, 999⟩)] }
     x.failed.contains 1 = true ∧ cleanSeen x (xcS x).tick (frameGap x.entry.tsCount) 1 = true ∧ (∀ c ∈ x.copies, c.clean = true) ∧
       Tab.get (fun _ => {}) x.clearRun 1 = ⟨159, (xcS x).tick - 1⟩) ∧
    (let x := group9 []; isImux x.entry = true ∧ x.entry.state = 1 ∧ x.copies = [] ∧ 0 < x.entry.hold) ∧
    (let x := { group9 [copy9 4 996 1000, copy9 5 992 999] with skewRun := ⟨15, 999⟩ }
     isImux x.entry = true ∧ x.entry.state = 1 ∧ x.copies = [copy9 4 996 1000, copy9 5 992 999] ∧ (copy9 4 996 1000).src = 4 ∧ (copy9 5 992 999).src = 5 ∧
       (copy9 4 996 1000).sf = (copy9 5 992 999).sf ∧ (copy9 4 996 1000).arr = (xcS x).tick ∧ (copy9 5 992 999).arr ≠ (xcS x).tick ∧
       x.entry.hold ≤ (copy9 4 996 1000).stamp - (copy9 5 992 999).stamp ∧ x.skewBad = false ∧ x.skewRun = ⟨15, (xcS x).tick - 1⟩)) :=
  ⟨by decide +kernel, by decide +kernel⟩
theorem hyps_TrafficCommands_reads :
    let d : Decided := { made := 999, toDst := true, kind := 0, leg := 0, bytes := [] }
    let s := xcS { entry := { conn9 with state := 1 }, decided := [d] }
    s.switchReads 131071 = (s, false, false) := rfl
/-- Bytes of a string of zeros. -/
theorem slice_replicate (n o k : Nat) : slice (List.replicate n 0) o k = List.replicate k 0 := by
  refine List.ext_getElem (by simp [slice]) fun i _ _ => ?_
  simp only [slice, List.getElem_map, List.getElem_range, List.getElem?_replicate, List.getElem_replicate]
  split <;> rfl
theorem hyps_LegSelection :
    (1 < 2 ∧ pickLeg 0 1 true true = some 1 ∧ 0 ≠ 1 ∧ 0 ≠ 2 ∧ 0 < 4 ∧ 4 ≤ 4 ∧ (2056 : Int) ≤ 2057) ∧
    (List.replicate 15296 (0 : Byte)).length = 15296 ∧ (List.replicate 4 (List.replicate 3824 (0 : Byte))).length = 4 ∧
    ∀ b, b < 956 → slice ((List.replicate 4 (List.replicate 3824 0)).getD ((3 + b) % 4) []) (16 * (b / 4)) 16 =
      slice (List.replicate 15296 0) (16 * b) 16 := by
  refine ⟨by decide, List.length_replicate, List.length_replicate, fun b _ => ?_⟩
  have h (z : List Byte) (k : Nat) (hk : k < 4) : (List.replicate 4 z).getD k [] = z := by
    rw [List.getD_eq_getElem?_getD, List.getElem?_replicate, if_pos hk]; rfl
  rw [h _ _ (Nat.mod_lt _ (by decide)), slice_replicate, slice_replicate]

theorem hyps_FunctionCommands :
    ((let s := run []
      s.host.release = [] ∧ pf.any = false ∧ (s.tenant pf.tenant).active = true ∧ s.inRange pf.fn pf.tenant = true ∧ s.frondEnabled 47 = true ∧
        s.host.posted.length < 256) ∧
     (run [(R.FRD_ID_LINE_RUN 47, 1)]).lineRun 47 = true ∧
     (let s := run [(R.FRD_ID_LINE_RUN 47, 0), (R.FRD_SC_PLAN_N 47, 8)]; s.lineRun 47 = false ∧ s.rd (R.FRD_SC_PLAN_N 47) ≠ 0) ∧
     (let s : State := { run [] with eps := [(131071, { entry := { conn9 with state := 1 } })] }
      131071 < 131072 ∧ (s.ep 131071).entry.kind ≠ 0 ∧ (s.ep 131071).entry.state = 1) ∧
     (let s : State := { run [] with eps := [(131071, { entry := { conn9 with state := 2 } })] }
      (s.ep 131071).entry.kind ≠ 0 ∧ (s.ep 131071).entry.state ≠ 1) ∧
     (let s := portS 287 { client := 1, running := true }; s.portExists 287 = true ∧ (s.port 287).running = true) ∧
     (let s := portS 287 { client := 1 }; s.portExists 287 = true ∧ (s.port 287).running = false)) ∧
    ((let s := run [(R.FRD_ID_LINE_RUN 47, 0)]
      s.lineRun 47 = false ∧ planOk 24 32 63 (-1376) = true ∧ tableValid 24 32 (flatTable 24 32) = true ∧
        ((List.replicate 32 0).all (· == 0)) = true ∧
        s.slotOwner.any (fun q => slotKind q.1 == 0 && q.1 / 2 ^ 12 % 2 ^ 28 == 47 && decide (20 * 24 ≤ q.1 % 2 ^ 12)) = false) ∧
     (readHost [(64, List.replicate 64 7)] 64 64 = some (List.replicate 64 7) ∧ 64 % 64 = 0 ∧ 2 ≤ 7 ∧ 7 < 8) ∧
     (readHost [(64, [])] 64 0 = some [] ∧ 0 ≤ 4352) ∧
     (let s := lineS { gccHost := List.replicate 15 ⟨1, []⟩ }; (s.frond 47).slf.gccHost.length < 16) ∧
     (let s := lineS { gccHost := List.replicate 16 ⟨1, []⟩ }; 16 ≤ (s.frond 47).slf.gccHost.length)) :=
  ⟨by decide +kernel, by decide +kernel⟩

/-- The running module with T0005 active and SA 16383 as `x`. -/
def saS (x : SaRec) : State := { xcS {} with sas := [(16383, x)] }
/-- A key of epoch `e`. -/
def key9 (e : Nat) : KeySlot := { key := List.replicate 32 1, salt := List.replicate 4 2, epoch := e, authTick := some 990 }
theorem hyps_AssociationCommands :
    ((let s := saS {}
      s.sa 16383 = {} ∧ pf5.any = false ∧ (s.tenant pf5.tenant).active = true ∧ s.inRange pf5.fn pf5.tenant = true ∧ s.overSas pf5.tenant 1 = false ∧
        (s.sa 16383).rollTick = none ∧ (s.sa 16383).slot (s.sa 16383).other = none ∧ s.backlog + s.host.readBudgetUsed + 64 ≤ 16777216 ∧
        readHost [(64, List.replicate 56 0)] 64 56 = some (List.replicate 56 0) ∧ Tab.get (fun _ => 0) s.sec.loads s.tick < 64) ∧
     (let x : SaRec := { state := 1, tenant := 5 }
      (saS x).sa 16383 = x ∧ x.state ≠ 0 ∧ pf5.tenant = x.tenant ∧ x.bound = none ∧ x.rollTick = none) ∧
     (let x : SaRec := { state := 2, tenant := 5, bound := some 131071, role := 1, slot0 := some (key9 4), nxt := 1, slot1 := some (key9 5) }
      x.state ≠ 0 ∧ x.state ≠ 1 ∧ x.bound ≠ none ∧ 1 = x.role ∧ x.nxt = 1 ∧ x.rollTick = none ∧ (saS x).tick < 1601000 ∧
        1601000 ≤ (saS x).tick + 1600000 ∧ (saS x).tick + 1600000 < 1601001 ∧ x.epoch x.cur < (key9 5).epoch) ∧
     (let x : SaRec := { state := 2, tenant := 5, slot0 := some (key9 4) }; x.state ≠ 1 ∧ x.nxt = 0 ∧ x.epoch x.cur < 5 ∧ 4 ≤ x.epoch x.cur)) ∧
    ((let x : SaRec := { state := 2, slot0 := some (key9 4), nxt := 1, slot1 := some (key9 5), rollTick := some 1000 }
      x.rollTick = some 1000 ∧ 1000 ≤ (saS x).tick ∧ x.slot x.cur = some (key9 4) ∧ x.slot x.other = some (key9 5)) ∧
     (let x : SaRec := { state := 2, rollTick := some 1001 }; x.rollTick = some 1001 ∧ (saS x).tick < 1001) ∧
     (let x : SaRec := { state := 2, slot0 := some (key9 4), nxt := 2, slot1 := some (key9 5), rolledAt := 1000 }
      x.slot x.other = some (key9 5) ∧ x.nxt = 2 ∧ (saS x).tick < x.rolledAt + 15999) ∧
     (let x : SaRec := { state := 2, slot0 := some (key9 4), nxt := 2, slot1 := some (key9 5), rolledAt := 1000 }
      let s : State := { saS x with tick := 16999 }
      x.slot x.other = some (key9 5) ∧ x.slot x.cur = some (key9 4) ∧ (key9 4).authTick = some 990 ∧ x.nxt = 2 ∧ x.rolledAt + 15999 ≤ s.tick ∧
        990 + 15999 < s.tick)) := ⟨by decide +kernel, by decide +kernel⟩
theorem hyps_EncryptedFrame : (key9 1).key.length = 32 ∧ (key9 1).salt.length = 4 ∧ 1 < 2 ∧ 2 ^ 48 - 1 < 2 ^ 48 ∧
    (List.replicate 15296 (0 : Byte)).length = 15296 ∧ 2 ^ 32 - 1 < 2 ^ 32 ∧ (3824 + 15) % 3824 < 16 ∧ encPositions.contains (3824 + 15) = false ∧
    (4294967296 % 2 ^ 32 = 0 ∧ recoverInv (some 4294967295) 0 = 4294967296) :=
  ⟨by decide +kernel, by decide +kernel, by decide, by decide, List.length_replicate, by decide, by decide, by decide +kernel, by decide,
   by decide +kernel⟩

theorem hyps_TenantCommands :
    (let s := xcS {}
     pf5.fn = 0 ∧ pf5.any = false ∧ pf5.tenant ≠ 0 ∧ (s.tenant pf5.tenant).active = true ∧ 92160 ≤ 92160 ∧ 16384 ≤ 16384 ∧ 8192 ≤ 8192 ∧
       s.inRange pf5.fn pf5.tenant = true ∧ s.backlog + s.host.readBudgetUsed + 16 ≤ 16777216 ∧
       (∀ q ∈ s.eps, q.2.entry.kind = 0 ∨ q.2.entry.tenant ≠ pf5.tenant) ∧ (∀ q ∈ s.sas, q.2.state = 0 ∨ q.2.tenant ≠ pf5.tenant)) ∧
    (let h : ReqHdr := { pf with tenant := 1023 }; h.fn = 0 ∧ h.any = false ∧ ((xcS {}).tenant h.tenant).active = false) ∧
    (let h : ReqHdr := { pf with any := true }
     h.fn = 0 ∧ h.any = true ∧ h.tenant = 0 ∧ 1 < 1024 ∧ ((xcS {}).tenant 1).active = false ∧ ∀ u, u < 1 → ((xcS {}).tenant u).active = true) := by
  decide +kernel
theorem hyps_MonitoringCommands :
    (let s : State := { run [] with tick := 160000 }; 320000 % 160000 = 0 ∧ s.tick % 160000 = 0) ∧
    (let s := run []
     s.tick % 160000 ≠ 0 ∧ s.pm.eps = [] ∧ readHost [(64, List.replicate 64 7)] 64 64 = some (List.replicate 64 7) ∧ 63 < 64 ∧
       (s.tick + 1) % 160000 ≠ 0 ∧ s.backlog + s.host.readBudgetUsed + 256 * 4096 ≤ 16777216 ∧ 126976 + 4096 ≤ 131072) ∧
    (let s : State := { xcS { entry := conn9 } with pm := { eps := [(131071, some {})] } }
     (s.ep 131071).entry.kind ≠ 0 ∧ pf5.tenant = (s.ep 131071).entry.tenant ∧ s.epPm 131071 = some {} ∧ pf5.any = false ∧
       (s.tenant pf5.tenant).active = true ∧ s.inRange pf5.fn pf5.tenant = true) ∧
    (let s : State := { run [] with tick := 159999 }
     (s.tick + 1) % 160000 = 0 ∧ s.frondEnabled 47 = true ∧ binBoundary 0 0 160000 = false ∧ binBoundary 160000 0 (s.tick + 1) = true) ∧
    (0 < 1 ∧ 1 < 50 ∧ berGauge 1 50 < 0xfffe) := by decide +kernel

/-- Every kind of message is taken by the port that is up, and none from octets in error. -/
theorem take_some : ∀ ty ∈ [0x01, 0x02, 0x03, 0x04, 0x10, 0x11, 0x12, 0x20, 0x21, 0x30, 0x31],
    (meshS.meshTake 5 ty 0 (meshBytes ty 1 5 6 0 [])).2.isSome = true ∧ (meshS.meshTake 5 ty 1 []).2.isNone = true := by decide +kernel
/-- An outcome of the taking of a message. -/
theorem take_outcomes (ty : Nat) (h : ty ∈ [0x01, 0x02, 0x03, 0x04, 0x10, 0x11, 0x12, 0x20, 0x21, 0x30, 0x31]) :
    (∃ t m, meshS.meshTake 5 ty 0 (meshBytes ty 1 5 6 0 []) = (t, some m)) ∧ ∃ t, meshS.meshTake 5 ty 1 [] = (t, none) :=
  ⟨pair_of_isSome _ (take_some ty h).1, pair_of_isNone _ (take_some ty h).2⟩
/-- A round of the four lanes in order without skew. -/
def round9 : List (Nat × Nat × Nat) := [(0, 1, 0), (1, 1, 0), (2, 1, 0), (3, 1, 0)]
/-- Port 5 with the record `x`. -/
def mportS (x : MeshPort) (l : List (Fld × Nat) := []) : State := meshS { ports := [(5, x)] } l
theorem hyps_MeshPorts :
    ((let s := mportS {} [(R.MSH_PORT_STAT_BLOCK_LOCK 5, 7)]
      s.mlocked 5 3 = false ∧ (List.replicate 64 true).length = 64 ∧ (∀ b ∈ List.replicate 64 true, b = true) ∧ s.mlane 5 3 = { good := 0 }) ∧
     (let s := mportS { lanes := [(3, { recent := List.replicate 7 true ++ List.replicate 56 false })] } [(R.MSH_PORT_STAT_BLOCK_LOCK 5, 15)]
      s.mlocked 5 3 = true ∧ (s.mlane 5 3).recent.length < 64 ∧ ((s.mlane 5 3).recent.filter id).length = 7) ∧
     (let s := mportS {} [(R.MSH_PORT_STAT_BLOCK_LOCK 5, 15)]
      s.mlocked 5 3 = true ∧ (s.mlane 5 3).recent.length < 64 ∧ ((s.mlane 5 3).recent.filter id).length < 7) ∧
     (let s := mportS { lanes := (List.range 4).map fun k => (k, { blocks := 1 }) } [(R.MSH_PORT_STAT_BLOCK_LOCK 5, 15), (R.MSH_PORT_STAT_ALIGNED 5, 0)]
      (∀ k, k < 4 → s.mlocked 5 k = true) ∧ s.maligned 5 = false ∧ roundOk round9 = true ∧ roundOk [] = false ∧
        ∀ k, k < 4 → 1 ≤ (s.mlane 5 k).blocks) ∧
     (let s := mportS { aMiss := 2 } [(R.MSH_PORT_STAT_BLOCK_LOCK 5, 15)]
      (∀ k, k < 4 → s.mlocked 5 k = true) ∧ s.maligned 5 = true ∧ 2 ≤ (s.mport 5).aMiss)) ∧
    ((let s := mportS { sentTick := 840 }
      s.flag (R.MSH_PORT_STAT_ENABLED 5) = true ∧ s.maligned 5 = true ∧ (s.mport 5).sentTick + 160 ≤ s.tick) ∧
     (let s := mportS { sentHello := some (meshS.helloPayload 5), sentTick := 841 }
      (s.mport 5).sentHello = some (s.helloPayload 5) ∧ s.tick < (s.mport 5).sentTick + 160) ∧
     (let s := mportS {} [(R.MSH_PORT_STAT_UP 5, 0), (R.MSH_PORT_STAT_ENABLED 5, 0)]; s.upNow 5 = s.meshUp 5 ∧ s.flag (R.MSH_PORT_STAT_ENABLED 5) = false) ∧
     (let s : State := { mportS { helloTick := some 1000 } with tick := 3561 }
      s.meshUp 5 = true ∧ (s.mport 5).helloTick = some 1000 ∧ 1000 + 2560 < s.tick) ∧
     (let s := mportS { queue := [(2, [1]), (1, [2]), (1, [3]), (3, [4])] }
      s.flag (R.MSH_PORT_STAT_ENABLED 5) = true ∧ s.meshUp 5 = true ∧ (s.mport 5).queue = [(2, [1])] ++ (1, [2]) :: [(1, [3]), (3, [4])] ∧
        (∀ q ∈ [((2 : Nat), [(1 : Byte)])], 1 < q.1) ∧ ∀ q ∈ [((1 : Nat), [(3 : Byte)]), (3, [4])], 1 ≤ q.1)) :=
  ⟨by decide +kernel, by decide +kernel⟩
/-- An entry of UID `u`, sequence number `q` and flags `f`. -/
def lsa9 (u q f : Nat) (n : List Nat := List.replicate 6 0) (t : Nat := 1000) : LsaRec := { uid := u, seq := q, epoch := 0, flags := f, nbrs := n, tick := t }
/-- The octets of a flooded LSA of address `a`. -/
def lsaMsg (a : Nat) (e : LsaRec) : List Byte := meshBytes 0x03 8 0xfff 6 0 (lsaPayload a e)
/-- The module of UID 77. -/
def uid77 (s : State) : State := { s with fuse := { s.fuse with uid := 77 } }
theorem hyps_MeshDatabase :
    ((let r := (meshS { db := [(6, some (lsa9 9 1 0))] }).meshTake 5 0x02 0 (meshBytes 0x02 1 0 6 0 [])
      r.2.isSome = true ∧ 1 ≤ r.1.meshState ∧ r.1.meshState ≤ 3 ∧
        ((r.1.mport 5).queue.filter fun q => q.1 == 2).length + r.1.mesh.db.length ≤ 64 ∧ (6, some (lsa9 9 1 0)) ∈ r.1.mesh.db) ∧
     (let r := (meshS {} [(R.MSH_STAT_STATE, 4)]).meshTake 5 0x02 0 (meshBytes 0x02 1 0 6 0 []); r.2.isSome = true ∧ 3 < r.1.meshState) ∧
     (let r := meshS.meshTake 5 0x03 0 (lsaMsg 4094 (lsa9 9 1 0))
      r.2.map MeshMsg.payload = some (lsaPayload 4094 (lsa9 9 1 0)) ∧ beNat (slice (lsaPayload 4094 (lsa9 9 1 0)) 0 2) % 4096 = 4094 ∧
        r.1.dbEntry 4094 = none ∧ (lsa9 9 1 0).flags / 128 % 2 = 0 ∧ r.1.meshAddr ≠ 4094 ∧ r.1.meshState ≠ 1) ∧
     (let r := (meshS { db := [(6, some (lsa9 9 1 0))] }).meshTake 5 0x03 0 (lsaMsg 6 (lsa9 9 1 0))
      r.2.isSome = true ∧ r.1.dbEntry 6 = some (lsa9 9 1 0) ∧ seqLater 1 1 = false ∧ r.1.meshAddr ≠ 6 ∧ r.1.meshState ≠ 1) ∧
     (let r := (meshS { db := [(6, some (lsa9 9 4294967295 0))] }).meshTake 5 0x03 0 (lsaMsg 6 (lsa9 9 0 128))
      r.2.isSome = true ∧ r.1.dbEntry 6 = some (lsa9 9 4294967295 0) ∧ seqLater 0 4294967295 = true ∧ 128 / 128 % 2 = 1) ∧
     (let r := (uid77 (meshS { db := [(5, some (lsa9 77 1 0))] })).meshTake 5 0x03 0 (lsaMsg 5 (lsa9 9 1 0))
      r.2.isSome = true ∧ r.1.dbEntry 5 = some (lsa9 77 1 0) ∧ r.1.fuse.uid = 77 ∧ 9 < r.1.fuse.uid ∧ r.1.meshMember = true ∧ r.1.meshAddr = 5)) ∧
    ((let r := (meshS {} [(R.MSH_STAT_STATE, 0)]).meshTake 5 0x04 0 (meshBytes 0x04 8 0xfff 6 0 (natBe 8 9 ++ natBe 2 7))
      r.2.map MeshMsg.payload = some (natBe 8 9 ++ natBe 2 7) ∧ beNat (slice (natBe 8 9 ++ natBe 2 7) 0 8) = 9 ∧ r.1.meshState = 0) ∧
     (let r := (meshS { claims := [(7, some (9, 1000))] }).meshTake 5 0x04 0 (meshBytes 0x04 8 0xfff 6 0 (natBe 8 9 ++ natBe 2 7))
      r.2.isSome = true ∧ 1 ≤ r.1.meshState ∧ r.1.meshState ≤ 3 ∧ Tab.get (fun _ => none) r.1.mesh.claims 7 = some (9, 1000) ∧ 9 ≤ 9 ∧ 1000 < 1000 + 1600) ∧
     (let r := (uid77 (meshS { cand := some (7, 900), claims := [(7, some (77, 900))] } [(R.MSH_STAT_STATE, 1)])).meshTake 5 0x04 0
        (meshBytes 0x04 8 0xfff 6 0 (natBe 8 9 ++ natBe 2 7))
      r.2.isSome = true ∧ r.1.meshState = 1 ∧ r.1.mesh.cand = some (7, 900) ∧ 9 < r.1.fuse.uid ∧ r.1.mesh.addrMode = 0 ∧
        Tab.get (fun _ => none) r.1.mesh.claims 7 = some (r.1.fuse.uid, 900))) ∧
    ((let s : State := { meshS with tick := 160000 }; s.meshMember = true ∧ s.mesh.lsaTick + 160000 ≤ s.tick) ∧
     (meshS {} [(R.MSH_STAT_STATE, 1)]).meshMember = false ∧ meshS.tick < meshS.mesh.lsaTick + 160000 ∧
     (let s : State := { meshS { db := [(4095, some (lsa9 9 1 0)), (4094, some (lsa9 9 1 0 [] 1001))].reverse } with tick := 641000 }
      s.dbEntry 4095 = some (lsa9 9 1 0) ∧ s.meshState ≠ 4 ∧ (lsa9 9 1 0).tick + 640000 ≤ s.tick ∧ s.dbEntry 4094 = some (lsa9 9 1 0 [] 1001) ∧
        s.tick < (lsa9 9 1 0 [] 1001).tick + 640000) ∧
     (let s : State := { meshS { started := true, collect := some 1000 } [(R.MSH_STAT_STATE, 0)] with tick := 4199 }
      s.mesh.started = true ∧ s.meshState = 0 ∧ s.mesh.collect = some 1000 ∧ s.tick < 1000 + 3200) ∧
     (let s : State := { meshS { started := true, collect := some 1000, db := [(1, some (lsa9 9 1 0))] } [(R.MSH_STAT_STATE, 0)] with tick := 4200 }
      1000 + 3200 ≤ s.tick ∧ s.mesh.addrMode = 0 ∧ s.mesh.addr = 0 ∧ s.addrFree 2 = true ∧ s.claimedLower 2 = false ∧
        ∀ c, c < 2 → 1 ≤ c → s.addrFree c = false ∨ s.claimedLower c = true) ∧
     (let s := uid77 (meshS { started := true, addrMode := 1, addr := 6, db := [(6, some (lsa9 9 1 0))] })
      s.mesh.addrMode = 1 ∧ s.dbEntry s.mesh.addr = some (lsa9 9 1 0) ∧ (lsa9 9 1 0).uid ≠ s.fuse.uid)) ∧
    ((let s : State := { meshS { cand := some (4094, 1000) } [(R.MSH_STAT_STATE, 1)] with tick := 2600 }
      s.mesh.cand = some (4094, 1000) ∧ s.meshState = 1 ∧ 1000 + 1600 ≤ s.tick ∧ 0 < 4094 ∧ 4094 < 4095) ∧
     (let s : State := { meshS { cand := some (4094, 1000) } [(R.MSH_STAT_STATE, 1)] with tick := 2599 }; s.tick < 1000 + 1600) ∧
     meshS.mesh.dbChanged = false ∧
     (let s := meshS { routeTick := some 841 }; s.mesh.routeTick = some 841 ∧ s.tick < 841 + 160) ∧
     (let s := meshS { routeTick := some 840, dbChanged := true }; s.mesh.dbChanged = true ∧ s.mesh.routeTick = some 840 ∧ 840 + 160 ≤ s.tick) ∧
     (let s := meshS { db := [(5, some (lsa9 1 1 0 [0, 0, 0, 0, 0, 6])), (6, some (lsa9 2 1 0 [5]))] }
      (6, some (1, 5)) ∈ s.routeTable)) := ⟨by decide +kernel, by decide +kernel, by decide +kernel, by decide +kernel⟩
theorem hyps_MeshMessages :
    (∀ ty ∈ [0x21, 0x10, 0x11, 0x12],
      let s := meshS { routes := [(7, some (2, 4))] }
      let r := fun (dst hops : Nat) => s.meshTake 5 ty 0 (meshBytes ty hops dst 6 0 [])
      (r 7 2).2.map (fun m => (m.dst, m.hops)) = some (7, 2) ∧ (r 8 1).2.map (fun m => (m.dst, m.hops)) = some (8, 1) ∧
        (r 5 9).2.map (fun m => (m.dst, m.hops)) = some (5, 9) ∧ (r 7 2).1.meshMember = true ∧ (r 7 2).1.meshAddr = 5 ∧ (r 7 2).1.twinState ≠ 2 ∧
        Tab.get (fun _ => none) (r 7 2).1.mesh.routes 7 = some (2, 4) ∧ Tab.get (fun _ => none) (r 8 2).1.mesh.routes 8 = none) ∧
    (let s := meshS { routes := [(6, some (1, 5))] }
     let r := fun (src : Nat) => s.meshTake 5 0x12 0 (meshBytes 0x12 1 0xfff src 0 [])
     (r 6).2.map (fun m => (m.dst, m.hops, m.src)) = some (0xfff, 1, 6) ∧ Tab.get (fun _ => none) (r 6).1.mesh.routes 6 = some (1, 5) ∧
       (r 7).2.map (fun m => (m.dst, m.src)) = some (0xfff, 7) ∧ Tab.get (fun _ => none) (r 7).1.mesh.routes 7 = none) ∧
    (63 < 64 ∧ 1 < 2 ∧ 4094 < 4096 ∧ 255 < 256 ∧ 7 < 8 ∧ 4094 ≠ 0 ∧ 4094 ≠ 0xfff ∧ (meshS { addrMode := 1, addr := 4094 }).mesh.addr = 4094 ∧
      (List.replicate 16 4094).length = 16 ∧ ∀ a ∈ List.replicate 16 4094, a < 0xfff) ∧
    (let s := meshS { routes := [(4094, some (2, 5))] }
     let b : List Byte := List.replicate 64 0
     readHost [(64, b)] 64 64 = some b ∧ remoteLayoutOk b = true ∧ 4094 ≠ s.meshAddr ∧ s.meshState = 2 ∧
       Tab.get (fun _ => none) s.mesh.routes 4094 = some (2, 5) ∧ ((s.mport 5).queue.filter fun x => x.1 == 3).length < 64 ∧
       s.backlog + s.host.readBudgetUsed + s.dbBytes.length ≤ 16777216) := by decide +kernel

/-- The running module with the timing block `x` in tick `t`. -/
def timS (x : TimSt) (l : List (Fld × Nat) := []) (t : Nat := 1000) : State := { run l with tim := x, tick := t }
/-- A time-of-day message for 31 December 2016, 23:59:60, on a day that announced a leap second. -/
def tod9 (flags sec : Nat) : List Byte :=
  let b := natBe 2 0x55aa ++ natBe 1 1 ++ natBe 1 flags ++ natBe 2 2016 ++ natBe 1 12 ++ natBe 1 31 ++ natBe 1 23 ++ natBe 1 59 ++
    natBe 1 sec ++ List.replicate 3 0
  b ++ natBe 2 (crc16 (bitsOfBytes b))
theorem hyps_TimingEvents :
    (((timS {}).cand 127).since = none ∧
     (let s := timS { cands := [(0, { since := some 9 })] } [(R.FRD_ACQ_STAT_STATE 0, 5)]
      s.candPresent 0 = true ∧ ({ s with regs := [] } : State).candPresent 0 = false ∧ (s.cand 0).since = some 9) ∧
     (let s := timS { cands := [(0x4d, { since := some 9 })] }; 0x48 ≤ 0x4d ∧ (s.cand 0x4d).since = some 9) ∧
     (timS {} [] 159998).tick % 160000 ≠ 159999 ∧
     (let c : Cand := { since := some 160000, qual := true, offset := some 12000 }
      let s := timS { cands := [(0x45, c)] } [] 319999
      s.tick % 160000 = 159999 ∧ sourceIds.contains 0x45 = true ∧ s.cand 0x45 = c ∧ c.since = some 160000 ∧ 160000 + 160000 ≤ s.tick + 1 ∧
        c.qual = true ∧ 12000 < (-12001 : Int).natAbs ∧ (-12000 : Int).natAbs ≤ 12000) ∧
     (let c : Cand := { since := some 0, disq := true, rptState := 2, rptDepth := 13 }
      let s := timS { cands := [(0x45, c)], wtr := 2 } [] 319999
      s.cand 0x45 = c ∧ c.qual = false ∧ (10000 : Int).natAbs ≤ 10000 ∧ s.meshBar 0x45 = none ∧ 0 + 160000 * s.tim.wtr ≤ s.tick + 1)) ∧
    ((timS {} [(R.TIM_DPLL_STAT_STATE 3, 0)]).rd (R.TIM_DPLL_STAT_STATE 3) ≠ 1 ∧ (timS {} [(R.TIM_DPLL_STAT_STATE 3, 0)]).rd (R.TIM_DPLL_STAT_STATE 3) ≠ 2 ∧
     (let s := timS { dplls := [(3, { inRun := ⟨1599999, 1599999⟩ })] } [(R.TIM_DPLL_STAT_STATE 3, 1), (R.TIM_DPLL_STAT_SOURCE 3, 0x4b)] 1600000
      0 < s.tick ∧ s.ppsSelected 3 = false ∧ s.rd (R.TIM_DPLL_STAT_STATE 3) = 1 ∧ (s.dpll 3).inRun = ⟨1599999, s.tick - 1⟩ ∧
        (-200 : Int).natAbs ≤ 200 ∧ 200 < (201 : Int).natAbs) ∧
     (let s := timS { dplls := [(3, { outRun := ⟨159999, 159999⟩ })] } [(R.TIM_DPLL_STAT_STATE 3, 2)] 160000
      s.ppsSelected 3 = false ∧ s.rd (R.TIM_DPLL_STAT_STATE 3) = 2 ∧ (s.dpll 3).outRun = ⟨159999, s.tick - 1⟩ ∧ 2000 < (-2001 : Int).natAbs) ∧
     (let s := timS { dplls := [(3, { hoTick := 1000, hoSpec := 2 })] } [(R.TIM_DPLL_STAT_STATE 3, 3)] 321000
      s.rd (R.TIM_DPLL_STAT_STATE 3) = 3 ∧ (s.tick - (s.dpll 3).hoTick) / 160000 = 2 ∧ (s.dpll 3).hoSpec ≤ 2 ∧
        s.flag (R.TIM_DPLL_STAT_HO_OOS 3) = false) ∧
     ((timS {}).meshUp 5 = false ∧ meshS.meshUp 5 = true ∧ (meshS.cand 0x45).qual = false) ∧
     (let s : State := { meshS with tim := { cands := [(0x45, { qual := true })] } }
      s.meshUp 5 = true ∧ (s.cand 0x45).qual = true ∧ 5 = s.meshAddr ∧ 5 ≠ 0)) ∧
    (((timS {}).timInput 5).enable = false ∧
     (let s := timS { inputs := [(5, { enable := true, code := 1 })] }; (s.timInput 5).enable = true ∧ (s.timInput 5).delay = 0) ∧
     (let s := timS { tod := [(1, { leapDay := some (2016 * 2 ^ 16 + 12 * 2 ^ 8 + 31) })], lastEdge := [(1, some 1000)] } [] 17000
      todParse [] (s.tod 1).leapDay = none ∧ (todParse (tod9 1 60) (s.tod 1).leapDay).map TodLabel.leap = some true ∧
        (todParse (tod9 1 60) (s.tod 1).leapDay).map (fun x => x.flags / 2 % 2) = some 0 ∧
        Tab.get (fun _ => none) s.tim.lastEdge 1 = some 1000 ∧ 1000 + 16000 ≤ s.tick ∧ s.tick ≤ 1000 + 152000) ∧
     ((timS {} [] 16999).tick < 1000 + 16000 ∧ 1000 + 152000 < (timS {} [] 153001).tick) ∧
     (let s := timS { outs := [(7, { heldTo := some 1000 })] }; (s.timOut 7).heldTo = some 1000 ∧ 1000 ≤ s.tick ∧ (s.timOut 6).heldTo = none) ∧
     (let s := timS { outs := [(7, { heldTo := some 1001 })] }; (s.timOut 7).heldTo = some 1001 ∧ s.tick < 1001) ∧
     (timS {}).tim.ppsMode = 0 ∧
     (let s := timS { ppsMode := 1, ppsStep := true, ppsTarget := 159999 } [] 319999
      s.tim.ppsMode ≠ 0 ∧ s.tim.ppsTarget = 159999 ∧ 159999 < 160000 ∧ s.tim.ppsLast = none ∧ s.tim.ppsStep = true ∧ s.tick % 160000 = 159999) ∧
     (let s := timS { ppsMode := 2, ppsTarget := 80999 } [(R.TIM_PPSOUT_POSITION, 1000)]
      s.tim.ppsStep = false ∧ s.tick % 160000 = s.rd R.TIM_PPSOUT_POSITION ∧ s.rd R.TIM_PPSOUT_POSITION < 80999 ∧
        80999 < s.rd R.TIM_PPSOUT_POSITION + 80000) ∧
     (let s := timS { ppsMode := 2, ppsTarget := 80999 } [(R.TIM_PPSOUT_POSITION, 1001)]; s.tick % 160000 ≠ s.rd R.TIM_PPSOUT_POSITION)) :=
  ⟨by decide +kernel, by decide +kernel, by decide +kernel⟩
theorem hyps_TimingCommands :
    (let s := timS {}
     5 < 6 ∧ (∀ i ∈ [3, 5], if i < 4 then 1 ≤ 1 ∧ 1 ≤ 5 else 1 ≤ 1) ∧ (-(2 ^ 31) : Int) ≤ -(2 ^ 31) ∧ (2 ^ 31 - 1 : Int) < 2 ^ 31 ∧
       (s.timInput 5).enable = false) ∧
    (let s := timS {}
     let e := 47 * 2 ^ 25 + 15 * 2 ^ 20 + 15 * 2 ^ 16
     let b := natLe 4 e ++ List.replicate 60 0
     readHost [(64, b)] 64 64 = some b ∧ prioImage b = e :: List.replicate 15 0 ∧ prioOk (prioImage b) = true ∧ s.forcedOk (prioImage b) = true ∧
       (∀ e ∈ prioImage b, prioOf e ≠ 0 → prioSource e < 48 → s.frondEnabled (prioSource e) = true) ∧ 720 ≤ 720 ∧
       prioOk [e, e] = false ∧ prioImage (natLe 4 e ++ natLe 4 e ++ List.replicate 56 0) = e :: e :: List.replicate 14 0 ∧
       prioOk (e :: e :: List.replicate 14 0) = false ∧ prioMask e 3 = true) ∧
    (3 < 4 ∧ 15 < 16 ∧ bwOk 0x46c3 = true ∧ 2 ^ 24 - 1 < 2 ^ 24 ∧ 0 ≠ 1) ∧
    (9 < 10 ∧ 7 < 8 ∧ 2 < 3 ∧ 159999 < 160000 ∧ ((timS {}).timOut 7).freq ≠ 1) ∧
    (let s := meshS; s.meshUp 5 = true ∧ s.rd (R.MSH_PORT_STAT_NBR_ADDR 5) = 6 ∧ 6 < 4096 ∧ s.tim.twin.on = false) ∧
    ({ meshS with tim := { twin := { on := true } } } : State).tim.twin.on = true := by decide +kernel
/-- The module at mesh address 5 as lead (1) or follower (0) of the twin of UID 9, in twin state `st`. -/
def twinS (lead st : Nat) (w : TwinSt) : State :=
  { meshS { ports := [(5, { uid := some 9 })] } [(R.TIM_TWIN_LEAD, lead), (R.TIM_TWIN_STATE, st)] with tim := { twin := { w with on := true, uid := 9 } } }
theorem hyps_TwinCommands :
    (((run []).tim.twin.on = false ∧ (twinS 1 0 {}).twinLead = true ∧ (twinS 0 0 {}).twinLead = false ∧ (twinS 0 0 {}).meshUp 5 = true ∧
        (twinS 1 0 {}).mp5Up = true ∧ (run []).mp5Up = false) ∧
     (let s := twinS 1 2 { gotProbe := some (7, 999, 5) }
      s.tim.twin.on = true ∧ s.tim.twin.gotProbe = some (7, 999, 5) ∧ 999 + 1 = s.tick) ∧
     ((twinS 1 2 {}).tim.twin.gotProbe = none ∧ (twinS 1 2 {}).twinRecords 1003 = []) ∧
     (let s : State := { twinS 1 2 { lanes := 2 ^ 287 } with
        regs := ((twinS 1 2 {}).wr (R.CLT_LANE_STAT_PORT 287) 287).regs
        ports := [(287, { own := [{ lane := 287, egress := 1003, ep := 0, frame := 0, adapt := 0, flags := 0 }] })] }
      s.twinRecords (s.tick + 3) ≠ [] ∧ (s.twinRecords (s.tick + 3)).length ≤ 85) ∧
     (let s := twinS 0 1 { probe := some (990, 8200), offset := some 3 }
      s.tim.twin.probe = some (990, 8200) ∧ s.tim.twin.offset = some 3 ∧ s.twinState ≠ 0 ∧ s.twinLead = false ∧ s.mp5Up = true) ∧
     (let s := twinS 1 0 { offset := some 3 }; s.tim.twin.offset = some 3 ∧ (twinS 1 0 {}).tim.twin.offset = none) ∧
     (let s := twinS 0 2 { offset := some 3, lanes := 2 ^ 287 }
      s.ownEgress 1005 = (1002 : Nat) ∧ s.ownEgress 1004 = (1001 : Nat) ∧ s.twinLane 287 = true ∧ s.tick + 2 ≤ 1002 ∧ 1001 < s.tick + 2)) ∧
    ((let s := twinS 0 1 { lookTick := some 1000, goodRun := ⟨160, 1000⟩ }
      s.tim.twin.lookTick = some s.tick ∧ s.twinState = 1 ∧ 160 ≤ s.tim.twin.goodRun.n) ∧
     (let s := twinS 0 2 { lookTick := some 1000, goodRun := ⟨159, 1000⟩, farRun := ⟨4, 1000⟩ }
      s.tim.twin.lookTick = some s.tick ∧ s.tim.twin.goodRun.n < 160 ∧ s.twinState = 2 ∧ 4 ≤ s.tim.twin.farRun.n) ∧
     (let s := twinS 0 2 { lookTick := some 1000, farRun := ⟨3, 1000⟩, missed := [(287, 8)] }
      s.tim.twin.farRun.n < 4 ∧ s.tim.twin.missed = [(287, 8)] ∧ s.twinState = 2) ∧
     (let s := twinS 0 2 { lookTick := some 1000, farRun := ⟨3, 1000⟩, missed := [(287, 7)] }
      s.tim.twin.farRun.n < 4 ∧ ∀ q ∈ s.tim.twin.missed, q.2 < 8) ∧
     (let s := twinS 0 1 { subTick := some 990, sub := 5120, goodRun := ⟨159, 999⟩ }
      s.twinLead = false ∧ s.tim.twin.lookTick ≠ some s.tick ∧ s.tim.twin.lanes = 0 ∧ s.tim.twin.subTick = some 990 ∧ s.twinNear = true ∧ s.mp5Up = true ∧
        s.twinState = 1 ∧ s.tim.twin.goodRun = ⟨159, s.tick - 1⟩ ∧ 0 < s.tick) ∧
     (let s : State := { twinS 0 3 { lapsedAt := 1000 } with tick := 2600 }; s.twinState = 3 ∧ s.tim.twin.lapsedAt + 1600 ≤ s.tick) ∧
     (let s : State := { twinS 0 3 { lapsedAt := 1000 } with tick := 2599 }; s.tick < s.tim.twin.lapsedAt + 1600) ∧
     (let s := twinS 0 2 { subTick := some 1000, limitRun := ⟨159, 999⟩ }
      s.tim.twin.subTick = some s.tick ∧ s.twinState = 2 ∧ s.tim.twin.limitRun = ⟨159, s.tick - 1⟩ ∧ (2000 : Int) ≤ 2000 ∧ (-2000 : Int) < -1999 ∧
        (1999 : Int) < 2000)) := ⟨by decide +kernel, by decide +kernel⟩

/-- The check register after each 64 of 4,096 zero bytes. -/
def crcSteps : List Nat := [
    4294967295, 4231468184, 4158167844, 2345306063, 1200442991, 64332339, 1158271177, 3425213895, 3473084991,
    968469611, 534250289, 2006181900, 3318006521, 4236110739, 225952960, 3222365018, 290529667, 2519867196,
    2823063697, 1461178209, 1921003501, 2339865869, 1799837726, 3119513621, 175100626, 3713578410, 4225181274,
    2891649990, 1540069788, 2016383911, 1357258748, 2111644262, 1534491824, 5776267, 582457874, 131951082,
    332020171, 1142812627, 3827288015, 4207782254, 1307576961, 3948380880, 663433124, 3452895946, 609686098,
    634967350, 3628614574, 876736523, 3746741852, 3743075598, 4052690100, 1974303542, 176297486, 1435977454,
    397096062, 3936728851, 4151263722, 1959498830, 2176660693, 4226718853, 338346065, 3070616696, 1420788027,
    2740820386, 1728495222]
theorem crc_chain (g : Nat → Byte → Nat) (l : List Nat) (h : ∀ i, i < 64 → (List.replicate 64 (0 : Byte)).foldl g (l.getD i 0) = l.getD (i + 1) 0) :
    ∀ n, n ≤ 64 → (List.replicate (64 * n) (0 : Byte)).foldl g (l.getD 0 0) = l.getD n 0
  | 0, _ => rfl
  | n + 1, hn => by
    rw [Nat.mul_add, Nat.mul_one, ← List.replicate_append_replicate, List.foldl_append, crc_chain g l h n (by omega), h n (by omega)]
theorem crc_page : crc32c (List.replicate 4096 0) = 1728495222 ^^^ 0xffffffff := by
  have h : ∀ m, m = 64 * 64 → (List.replicate m (0 : Byte)).foldl (fun c b => (List.range 8).foldl (fun c _ => crc32cBit c) (c ^^^ b.toNat))
      0xffffffff = 1728495222 := by
    rintro _ rfl
    exact crc_chain _ crcSteps (by decide +kernel) 64 (by decide)
  rw [crc32c, h 4096 (by decide)]
/-- Bytes after a head are those of the zeros that follow it. -/
theorem slice_after (h : List Byte) (n o k : Nat) (ho : h.length ≤ o) : slice (h ++ List.replicate n 0) o k = List.replicate k 0 := by
  refine List.ext_getElem (by rw [slice, List.length_map, List.length_range, List.length_replicate]) fun i _ _ => ?_
  simp only [slice, List.getElem_map, List.getElem_range, List.getElem_replicate]
  rw [List.getElem?_append_right (by omega), List.getElem?_replicate]
  split <;> rfl
/-- A region of host memory reads back whole. -/
theorem read_all (a : Nat) (b : List Byte) : readHost [(a, b)] a b.length = some b := by
  simp [readHost]
/-- The header of Spore 3 of the 10 Spores of package 5, whose body is zeros. -/
def sporeHead : List Byte :=
  let z := [0x47, 0x57, 0x53, 0x50] ++ natLe 8 5 ++ natLe 4 3 ++ natLe 4 10 ++ natLe 4 2566472073 ++ List.replicate 36 0
  z ++ natLe 4 (crc32c z)
def spore9 : List Byte := sporeHead ++ List.replicate 4096 0
theorem spore9_length : spore9.length = 4160 := by
  rw [spore9, List.length_append, List.length_replicate, show sporeHead.length = 64 by decide +kernel]
theorem spore9_own : sporeOwn spore9 = none := by
  unfold sporeOwn
  rw [show slice spore9 64 4096 = List.replicate 4096 0 from slice_after _ _ _ _ (by decide +kernel), crc_page]
  decide +kernel
/-- The running module with the update state `x`. -/
def updS (x : UpdSt) (l : List (Fld × Nat) := []) : State := { run l with upd := x }
theorem hyps_UpdateCommands :
    (readHost [(64, spore9)] 64 4160 = some spore9 ∧ sporeOwn spore9 = none) ∧
    (let s := updS {}; 10 ≤ 16384 ∧ 16384 ≤ 16384 ∧ s.upd.state = 0 ∧ s.backlog + s.host.readBudgetUsed + 64 ≤ 16777216 ∧ s.upd.store = none) ∧
    (let s := updS { state := 2, pkg := 5, total := 10, bitmap := 8 }
     s.upd.sameBegin 5 10 = true ∧ s.upd.acceptHost = true ∧ s.upd.state = 2 ∧ s.upd.otherPackage spore9 = false ∧ fieldAt spore9 12 4 = 3 ∧
       s.upd.bitmap.testBit 3 = true ∧ s.upd.state ≠ 0 ∧ s.upd.state ≠ 7) ∧
    (let s := updS { state := 2, pkg := 5, total := 10, queue := List.replicate 63 (0, []) }
     s.upd.bitmap.testBit 3 = false ∧ s.upd.queue.length < 64) ∧
    (let s := updS { state := 7 }; s.upd.state = 7 ∧ 6 ≤ s.upd.state) ∧
    (let s := updS { state := 4, total := 10 } [(R.FRD_ID_LINE_RUN 47, 1)]
     s.upd.state = 4 ∧ s.tick + 160000 ≤ 161000 ∧ 161000 ≤ s.tick + 16000000 ∧ 160999 < s.tick + 160000 ∧ s.frondEnabled 47 = true ∧
       s.relaySource 0 = (1, 10) ∧ 9 < 10 ∧ s.relaying 47 = false ∧ s.lineRun 47 = true) ∧
    (64 ≤ 16777216 ∧ (updS { state := 5 }).upd.state < 6 ∧ 1 < 2) := by
  refine ⟨⟨?_, spore9_own⟩, by decide +kernel⟩
  have h := read_all 64 spore9
  rwa [spore9_length] at h
theorem hyps_UpdateEvents :
    (((updS {}).upd.state ≠ 1 ∧ (updS { state := 1 }).upd.state = 1 ∧ (updS {}).upd.queue = [] ∧ ((updS {}).frond 47).slf.gccFwRx = [] ∧
        (updS {}).upd.ackFrond = none ∧ (updS { state := 3 }).upd.state = 3 ∧ (updS { state := 6 }).upd.state = 6) ∧
     (let s := updS { state := 2, queue := [(16383, [1])], received := 9, total := 10 }
      s.upd.queue = (16383, [1]) :: [] ∧ s.upd.state = 2 ∧ 16383 < 16384 ∧ s.upd.bitmap.testBit 16383 = false ∧ s.upd.received + 1 = s.upd.total) ∧
     (updS { received := 8, total := 10 }).upd.received + 1 < 10 ∧
     (let s : State := { lineS { gccFwRx := [⟨3, List.replicate 24 0⟩] } with upd := { ackFrond := some 47, ackDue := true, acks := 255 } }
      (s.frond 47).slf.gccFwRx = ⟨3, List.replicate 24 0⟩ :: [] ∧ (List.replicate 24 (0 : Byte)).length = 24 ∧
        Tab.get (fun _ => none) s.upd.peerTick 47 = none ∧ s.upd.ackFrond = some 47 ∧ s.lineRun 47 = true ∧ s.upd.ackDue = true ∧ s.upd.acks < 256) ∧
     (let s := updS { state := 2, ackFrond := some 47, ackTick := 1000 }
      s.upd.ackFrond = some 47 ∧ s.upd.ackDue = false ∧ s.tick < s.upd.ackTick + 160000 ∧ s.upd.acks < 256) ∧
     (let s : State := { updS { state := 6, flash := [(16384, some (List.replicate 4096 0))] } with fuse := { rollback := 1 } }
      fieldAt (s.manifest s.upd.staging) 20 2 < s.fuse.rollback) ∧
     (let s : State := { updS { state := 6 } with fuse := { rollback := 128 } }
      s.fuse.rollback ≤ fieldAt (s.manifest s.upd.staging) 20 2 ∧ s.upd.loaded = false)) ∧
    ((let s := updS { state := 6, loaded := true, actTick := 1000 }; s.upd.loaded = true ∧ s.upd.actTick ≤ s.tick) ∧
     (let s := updS { state := 7, actTick := 1000, passed := [1, 2, 3, 4, 5] }
      s.upd.state = 7 ∧ s.upd.passed.contains (5 + 1) = false ∧ s.upd.outcome = none ∧ s.tick < s.upd.actTick + 1599999 ∧
        s.upd.passed = [1, 2, 3, 4, 5] ∧ s.upd.actTick + 1599999 ≤ ({ s with tick := 1600999 } : State).tick) ∧
     ((updS {}).upd.fusePending = false ∧ (updS { fusePending := true }).upd.fusePending = true ∧ (updS {}).upd.store = none) ∧
     (let j : StoreJob := ⟨1, 64, 64⟩
      let s := updS { store := some j, run := some { mgmt := 0, loop := 0, sec := 0, lo := 1, hi := 1, slot := 0 } }
      s.upd.store = some j ∧ readHost [(64, img64)] j.addr j.len = some img64 ∧ (parseImage img64).map s.imageCode = some 0) ∧
     (let j : StoreJob := ⟨1, 64, 64⟩
      readHost [(64, List.replicate 64 0)] j.addr j.len = some (List.replicate 64 0) ∧ parseImage (List.replicate 64 0) = none)) :=
  ⟨by decide +kernel, by decide +kernel⟩
theorem hyps_UpdateEvents_spore :
    let s : State := { lineS { gccFwRx := [⟨2, spore9⟩] } with upd := { state := 2, acceptGcc := true, pkg := 5, total := 10 } }
    ((s.frond 47).slf.gccFwRx = ⟨2, spore9⟩ :: []) ∧ spore9.length = 4160 ∧ sporeOwn spore9 = none ∧
      s.upd.acceptGcc = true ∧ s.upd.state = 2 ∧ s.upd.otherPackage spore9 = false ∧ s.upd.queue.length < 64 ∧ (updS {}).upd.acceptGcc = false :=
  ⟨rfl, spore9_length, spore9_own, rfl, rfl, by decide +kernel, by decide +kernel, rfl⟩
/-- The running module with the monitor converter `x`, in tick 1000. -/
def monS (x : MonSt) (l : List (Fld × Nat) := []) : State := { run l with mon := x }
theorem hyps_MonitorCommands :
    ((let b : List Byte := (List.range 336).map fun i => if i = 0 then 0xf0 else if i % 2 = 0 then 0xff else 3
      let s := monS {}
      readHost [(64, b)] 64 336 = some b ∧ s.tick % 40 = 0 ∧
        (∀ e ∈ seqOf b, e.2 < 4 ∧ (e.1 = 0xff ∨ (monReserved e.1 = false ∧ s.monAbsent e.1 = false))) ∧ ({ s with tick := 1001 } : State).tick % 40 ≠ 0) ∧
     (63 < 64 ∧ 0 < 255 ∧ 255 < 256 ∧ 7 < 8 ∧ (-5 : Int) ≤ 5 - 2 * ((5 : Nat) : Int)) ∧
     (let b : List Byte := (List.range 256).map fun i => if i = 0xf0 then 63 else 0xff
      let s := monS {}
      readHost [(64, b)] 64 256 = some b ∧
        ∀ c, c < 256 → fieldAt b c 1 = 0xff ∨ (fieldAt b c 1 < 64 ∧ monReserved c = false ∧ s.monAbsent c = false)) ∧
     (let s := monS { queue := List.replicate 15 (2, 0, false) }
      monReserved 0xf0 = false ∧ s.monAbsent 0xf0 = false ∧ s.monQueued < 16 ∧ 1023 < 1024 ∧ s.mon.test = none)) ∧
    ((let s := monS {}
      s.inBlockReset 0x012 = false ∧ s.mon.on = false ∧ s.mon.urgent = none ∧ monReserved 0xf1 = true) ∧
     (let s := monS { on := true, idx := 249, frameStart := 1000 }
      s.mon.on = true ∧ s.mon.urgent = none ∧ s.mon.idle = false ∧ s.mon.idx < 250 ∧ s.monEntry s.mon.idx = (0xff, 0) ∧ s.mon.test = none ∧
        s.mon.queue = [] ∧ s.mon.used = [0, 0, 0] ∧ 10000 * (s.tick - s.mon.frameStart) + 9999 + 1600 ≤ s.mon.frameLen) ∧
     (let s := monS { urgent := some ⟨2, 5, 0, false⟩ }; s.mon.urgent = some ⟨2, 5, 0, false⟩ ∧ (⟨2, 5, 0, false⟩ : MonUrgent).test = false) ∧
     (let s := monS { urgent := some ⟨2, 5, 0, true⟩, test := some (5, 1023, 0) }
      s.mon.test = some (5, 1023, 0) ∧ s.mon.urgent = some ⟨2, 5, 0, true⟩ ∧ 1023 < 1024 ∧
        decide (((4095 : Int) - 4 * 1023).natAbs ≤ 8) = true ∧ decide (((4083 : Int) - 4 * 1023).natAbs ≤ 8) = false) ∧
     (let s := monS {} [(R.MON_RES_VALUE 0xff, 65535)]
      0x34 ≤ 0xff ∧ s.rdS (R.MON_RES_VALUE 0xff) = -1 ∧
        roundShift (s.rdS (R.MON_RES_VALUE 0xff) * (4 ^ 3 : Nat) + 63 - s.rdS (R.MON_RES_VALUE 0xff)) (2 * 3) = 0) ∧
     (let s := monS { map := [(255, 63)], limits := [(63, { high := 10, persist := 3 })], pers := [(255, (2, 0, 0))] }
      Tab.get (fun _ => 0xff) s.mon.map 255 = 63 ∧ Tab.get (fun _ => ({} : MonLimit)) s.mon.limits 63 = { high := 10, persist := 3 } ∧
        (Tab.get (fun _ => (0, 0, 0)) s.mon.pers 255).1 = 2 ∧ (10 : Int) < 11 ∧ 3 ≤ 2 + 1)) := ⟨by decide +kernel, by decide +kernel⟩

/-! ### Tests: values worked out outside the model -/

/-- FIPS 197, appendix C.3: the AES-256 example vector. -/
theorem test_aes_fips197 : aesEncrypt (List.range 32) ((List.range 16).map (· * 17)) =
    [0x8e, 0xa2, 0xb7, 0xca, 0x51, 0x67, 0x45, 0xbf, 0xea, 0xfc, 0x49, 0x90, 0x4b, 0x49, 0x60, 0x89] := by decide +kernel
/-- The check value of CRC-32C over the digits 1 to 9. -/
theorem test_crc32c_check : crc32c ((List.range 9).map fun i => BitVec.ofNat 8 (0x31 + i)) = 0xe3069283 := by decide +kernel
/-- R491: 2100 has no 29 February, 2000 and 2096 have one. -/
theorem test_calendar_leap : ({ year := 2100, month := 2, day := 28, hour := 23, minute := 59, second := 59 } : Cal).next.day = 1 ∧
    ({ year := 2000, month := 2, day := 28, hour := 23, minute := 59, second := 59 } : Cal).next.day = 29 ∧
    ({ year := 2096, month := 2, day := 28, hour := 23, minute := 59, second := 59 } : Cal).next.day = 29 := by decide
/-- R492: the first field out of range gives the reason. -/
theorem test_calendar_reason : calReason { year := 2025, month := 4, day := 31 } = 3 ∧ calReason { year := 2200 } = 1 := by decide
/-- What a command leaves in the state it gives. -/
def after {α : Type} (o : Host.Outcome State Fault Refusal) (d : α) (g : State → α) : α :=
  match o with
  | .next t => g t
  | _ => d
/-- Table HST-4: NOP completes with status OK. -/
theorem test_nop : after (exec (.nop pf []) (run [])) none (fun t => (t.host.done.head?).map (·.status)) = some 0 := by decide +kernel
/-- R491: a Peat second that carries over the end of a day. -/
theorem test_peatSecond : after (exec (.peatSecond []) (peatS { esec := 7, valid := true, cal :=
      { year := 2025, month := 12, day := 31, hour := 23, minute := 59, second := 59 } })) (0, 0, 0)
    (fun t => (t.peat.esec, t.peat.cal.year, t.peat.cal.second)) = (8, 2026, 0) := by decide +kernel
/-- R4: a part of grade 1 has 24 fronds. -/
theorem test_grade : ({ run [] with fuse := { grade := 1 } } : State).frondEnabled 23 = true ∧
    ({ run [] with fuse := { grade := 1 } } : State).frondEnabled 24 = false := by decide +kernel

end Sys2Proof.Tests
end

/-! ### The register fields (R7, R8, R9, Table SCO-3) -/

namespace Sys2Proof.Machine

/-- A field of a register that lies wholly below or above another. -/
def FieldD.Apart (a b : FieldD) : Prop := a.lo + a.w ≤ b.lo ∨ b.lo + b.w ≤ a.lo

theorem FieldD.Apart.symm {a b : FieldD} (h : a.Apart b) : b.Apart a := Or.symm h

/-- The bits that a word holds in a field. -/
def FieldD.bits (d : FieldD) (x : Word) : Nat := bitsGet x d.lo d.w

theorem FieldD.bits_bitsPut_same {d : FieldD} {x : Word} {v : Nat} (h : d.lo + d.w ≤ 32) :
    d.bits (bitsPut x d.lo d.w v) = v % 2 ^ d.w :=
  bitsGet_put_same h

theorem FieldD.bits_bitsPut_apart {d e : FieldD} {x : Word} {v : Nat} (h : e.lo + e.w ≤ 32) (hd : d.Apart e) :
    d.bits (bitsPut x e.lo e.w v) = d.bits x :=
  bitsGet_put_other h hd

theorem FieldD.bits_lt (d : FieldD) (x : Word) : d.bits x < 2 ^ d.w := Nat.mod_lt _ (by positivity)

/-- A change of one field at a time: it leaves the bits of every field that lies apart from the changed one. -/
def ChangesOnly (op : Word → FieldD → Word) : Prop :=
  ∀ (x : Word) (d e : FieldD), e.lo + e.w ≤ 32 → d.Apart e → d.bits (op x e) = d.bits x

section
variable {op : Word → FieldD → Word} (hop : ChangesOnly op)
include hop

/-- Changing fields one after another leaves a field that lies apart from all of them. -/
theorem foldl_bits_apart {d : FieldD} {l : List FieldD} (x : Word) (hw : ∀ e ∈ l, e.lo + e.w ≤ 32)
    (hd : ∀ e ∈ l, d.Apart e) : d.bits (l.foldl op x) = d.bits x := by
  induction l generalizing x with
  | nil => rfl
  | cons e l ih =>
    rw [List.forall_mem_cons] at hw hd
    rw [List.foldl_cons, ih _ hw.2 hd.2, hop x d e hw.1 hd.1]

/-- Of changes to disjoint fields one after another, only the change of a field itself shows in its bits, and it is applied to the bits
the field had at the start. -/
theorem foldl_bits_mem {d : FieldD} {l : List FieldD} (x : Word) (hd : d ∈ l) (hw : ∀ e ∈ l, e.lo + e.w ≤ 32)
    (hp : l.Pairwise FieldD.Apart) : ∃ y, d.bits y = d.bits x ∧ d.bits (l.foldl op x) = d.bits (op y d) := by
  obtain ⟨before, after, rfl⟩ := List.append_of_mem hd
  obtain ⟨-, hafter, hbefore⟩ := List.pairwise_append.mp hp
  rw [List.foldl_append, List.foldl_cons]
  refine ⟨before.foldl op x, ?_, ?_⟩
  · exact foldl_bits_apart hop x (fun e he => hw e (by simp [he])) fun e he => (hbefore e he d (by simp)).symm
  · exact foldl_bits_apart hop _ (fun e he => hw e (by simp [he])) fun e he => List.rel_of_pairwise_cons hafter he

end

/-- What `putFields` does to one field. -/
def writeField (accs : List Acc) (v x : Word) (d : FieldD) : Word :=
  if accs.contains d.acc then
    if d.acc = .w1c then bitsPut x d.lo d.w (d.bits x - (d.bits x &&& d.bits v)) else bitsPut x d.lo d.w (d.bits v)
  else x

/-- What `clearRc` and `hideWo` do to one field: a field of access code `a` becomes 0. -/
def zeroField (a : Acc) (x : Word) (d : FieldD) : Word := if d.acc = a then bitsPut x d.lo d.w 0 else x

theorem putFields_eq_foldl (r : RegD) (accs : List Acc) (old v : Word) :
    putFields r accs old v = r.fields.foldl (writeField accs v) old := (rfl)

theorem clearRc_eq_foldl (r : RegD) (x : Word) : clearRc r x = r.fields.foldl (zeroField .rc) x := (rfl)

theorem hideWo_eq_foldl (r : RegD) (x : Word) : hideWo r x = r.fields.foldl (zeroField .wo) x := (rfl)

theorem writeField_changesOnly (accs : List Acc) (v : Word) : ChangesOnly (writeField accs v) := by
  intro x d e hw hd
  unfold writeField
  split
  · split <;> exact FieldD.bits_bitsPut_apart hw hd
  · rfl

theorem zeroField_changesOnly (a : Acc) : ChangesOnly (zeroField a) := by
  intro x d e hw hd
  unfold zeroField
  split
  · exact FieldD.bits_bitsPut_apart hw hd
  · rfl

/-- The bits a field takes from a write of `v` to the fields of the codes `accs`, when it held `b`. -/
def FieldD.written (d : FieldD) (accs : List Acc) (v : Word) (b : Nat) : Nat :=
  if accs.contains d.acc then if d.acc = .w1c then b - (b &&& d.bits v) else d.bits v else b

theorem FieldD.bits_writeField {d : FieldD} (accs : List Acc) (v x : Word) (hw : d.lo + d.w ≤ 32) :
    d.bits (writeField accs v x d) = d.written accs v (d.bits x) := by
  unfold writeField FieldD.written
  split
  · split
    · rw [FieldD.bits_bitsPut_same hw, Nat.mod_eq_of_lt (Nat.lt_of_le_of_lt (Nat.sub_le _ _) (d.bits_lt x))]
    · rw [FieldD.bits_bitsPut_same hw, Nat.mod_eq_of_lt (d.bits_lt v)]
  · rfl

theorem FieldD.bits_zeroField {d : FieldD} (a : Acc) (x : Word) (hw : d.lo + d.w ≤ 32) :
    d.bits (zeroField a x d) = if d.acc = a then 0 else d.bits x := by
  unfold zeroField
  split
  · rw [FieldD.bits_bitsPut_same hw, Nat.zero_mod]
  · rfl

section
variable {r : RegD} {d : FieldD} (hd : d ∈ r.fields) (hw : ∀ e ∈ r.fields, e.lo + e.w ≤ 32)
  (hp : r.fields.Pairwise FieldD.Apart)
include hd hw hp

/-- The bits of a field after a write to the register. -/
theorem FieldD.bits_putFields (accs : List Acc) (old v : Word) :
    d.bits (putFields r accs old v) = d.written accs v (d.bits old) := by
  obtain ⟨y, hy, h⟩ := foldl_bits_mem (writeField_changesOnly accs v) old hd hw hp
  rw [putFields_eq_foldl, h, FieldD.bits_writeField accs v y (hw d hd), hy]

theorem FieldD.bits_foldl_zeroField (a : Acc) (x : Word) :
    d.bits (r.fields.foldl (zeroField a) x) = if d.acc = a then 0 else d.bits x := by
  obtain ⟨y, hy, h⟩ := foldl_bits_mem (zeroField_changesOnly a) x hd hw hp
  rw [h, FieldD.bits_zeroField a y (hw d hd), hy]

/-- The bits of a field after a read has cleared the RC fields. -/
theorem FieldD.bits_clearRc (x : Word) : d.bits (clearRc r x) = if d.acc = .rc then 0 else d.bits x :=
  FieldD.bits_foldl_zeroField hd hw hp .rc x

/-- The bits of a field in the word that a read returns. -/
theorem FieldD.bits_hideWo (x : Word) : d.bits (hideWo r x) = if d.acc = .wo then 0 else d.bits x :=
  FieldD.bits_foldl_zeroField hd hw hp .wo x

end

/-- Settles O26: each of the three word operations changes one field at a time, and the fields of a register do not overlap, so a field
shows its own change alone. -/
theorem accessCodes : Obligations.AccessCodes := by
  intro r old v d hd hw hp
  have put := FieldD.bits_putFields hd hw hp
  have clear := FieldD.bits_clearRc hd hw hp old
  have hide := FieldD.bits_hideWo hd hw hp old
  unfold FieldD.written FieldD.bits at put
  unfold FieldD.bits at clear hide
  rw [put, put, clear, hide]
  cases d.acc <;> simp

/-! ### The register store -/

theorem State.wr_regsBut (s : State) (x : Fld) (v : Nat) : RegsBut [x.off] s (s.wr x v) :=
  fun _ ho => State.reg_wr_other s v (by simpa using ho)

theorem State.wr_eq_with_regs (s : State) (x : Fld) (v : Nat) : s.wr x v = { s with regs := (s.wr x v).regs } := (rfl)

/-- A write of a register keeps the canonical form of the register store. -/
theorem State.wf_setReg_regs {s : State} (h : Tab.wf regReset s.regs = true) (o : Nat) (w : Word) :
    Tab.wf regReset (s.setReg o w).regs = true :=
  Tab.wf_set regReset s.regs o w h

/-- A write of a field keeps the canonical form, as it is a write of its register. -/
theorem State.wf_wr_regs {s : State} (h : Tab.wf regReset s.regs = true) (x : Fld) (v : Nat) :
    Tab.wf regReset (s.wr x v).regs = true :=
  State.wf_setReg_regs h _ _

/-- After reset no register is listed, which is canonical. -/
theorem State.wf_reset_regs : Tab.wf regReset State.reset.regs = true := (rfl)

/-- Settles O6, from the laws of field writes and of sparse tables. -/
theorem fieldWrite : Obligations.FieldWrite := by
  refine ⟨fun s x v hx => ⟨?same, fun y _ hy => ?beside, s.wr_regsBut x v, s.wr_eq_with_regs x v⟩,
    fun s x o v w h => ⟨State.wf_wr_regs h x v, State.wf_setReg_regs h o w, State.wf_reset_regs⟩⟩
  case same => exact State.rd_wr_same s v hx
  case beside => exact State.rd_wr_beside s v hx hy

/-! ### The queue and the outcomes of the commands -/

/-- Every meaning answers a next state: none has a branch that stops. -/
theorem exec_next (c : Instr) (s : State) : ∃ t, exec c s = .next t := by
  cases c <;> exact ⟨_, rfl⟩

/-- Every step answers a next state: with no command waiting, the state itself. -/
theorem step_next (s : State) : ∃ t, step s = .next t := by
  unfold step
  cases s.pending with
  | nil => exact ⟨s, rfl⟩
  | cons c rest => exact exec_next c _

/-- The boundary leaves the queue alone, in boot as in the running module. -/
theorem execTickBoundary_pending {mem : HostMem} {taps : List (Nat × Int × Int)} {s t : State}
    (h : execTickBoundary mem taps s = .next t) : t.pending = s.pending := by
  have hnext := h
  unfold execTickBoundary at h
  injection h with h
  split at h
  case isTrue => rw [← h]
  case isFalse live =>
    obtain ⟨hp, h0⟩ : s.boot.pwrOk = true ∧ s.phase ≠ 0 := by simpa using live
    split at h
    case isTrue => rw [← h, State.bootTick_pending]
    case isFalse hr => exact (execTickBoundary_blown hp h0 (by simpa using hr) hnext).pending

/-- No command touches the commands that wait behind it. -/
theorem exec_pending {c : Instr} {s t : State} (h : exec c s = .next t) : t.pending = s.pending := by
  cases hc : movesKept c with
  | false => exact kept_pending (exec_kept hc h)
  | true =>
    cases c with
    | tickBoundary mem taps => exact execTickBoundary_pending h
    | coldResetPower => exact (execColdResetPower_kept' s t h).1
    | coldResetPin => exact (execColdResetPin_kept' s t h).1
    | fuseLoadDone fuse fail bad => exact (execFuseLoadDone_kept' fuse fail bad s t h).2.1
    | secureSlotVerified => exact (execSecureSlotVerified_blown s t h).pending
    | calPhaseDone => exact (execCalPhaseDone_kept' s t h).1
    | mainSupplyLoss => exact (execMainSupplyLoss_kept' s t h).1
    | fuseProgramming => exact (execFuseProgramming_blown s t h).pending
    | _ => cases hc

/-- Settles O2: every step answers a next state, and every command keeps the queue. -/
theorem nothingStops : Obligations.NothingStops :=
  ⟨fun _ t _ => step_next t, fun _ _ _ => exec_pending⟩

end Sys2Proof.Machine

/-! ### Tenants and quotas (R254 to R256, R311, R312) -/

namespace Sys2Proof.Machine

/-- When every check that fails draws the same status and DETAIL, the order of Table HST-5 does not matter. -/
theorem firstFail_eq_some {l : List Ck} {st d : Nat} (hbad : ∃ c ∈ l, c.bad = true)
    (hsame : ∀ c ∈ l, c.bad = true → c.status = st ∧ c.detail = d) : firstFail l = some ⟨st, d⟩ := by
  unfold firstFail
  split
  case h_1 c hc =>
    obtain ⟨rfl, rfl⟩ := hsame c (mem_sortBy.mp (List.mem_of_find?_eq_some hc)) (List.find?_some hc)
    rfl
  case h_2 hnone =>
    obtain ⟨c, hc, hb⟩ := hbad
    exact absurd hb (List.find?_eq_none.mp hnone c (mem_sortBy.mpr hc))

/-- The completion of a refused request whose refusal has no effect of its own: no operand read failed, and it is neither a KEY_LOAD
nor an UPD_SPORE. -/
theorem State.refuse_doneRefused {h : ReqHdr} {s t : State} {op st d : Nat} {b : ReqBody} (hst : st ≠ St.hostRead) (hd : d < 2 ^ 32)
    (hkey : ∀ sa addr, b ≠ .keyLoad sa addr) (hspore : ∀ addr, b ≠ .updSpore addr) :
    t.refuse (h.request s op b) 0 ⟨st, d⟩ false = t.complete (doneRefused h s op st d) := by
  unfold State.refuse
  rw [if_neg fun e => hst e.1]
  split
  case h_1 sa addr e => exact absurd (Option.some.inj e) (hkey sa addr)
  case h_2 addr e => exact absurd (Option.some.inj e) (hspore addr)
  case h_3 => simp only [doneRefused, ReqHdr.request, Nat.mod_eq_of_lt hd]; rfl

/-- A request of one part that fails its checks is refused whole. -/
theorem runOne_refused {h : ReqHdr} {mem : HostMem} {op st d : Nat} {b : ReqBody} {s : State} {chk : Ctx → State → List Ck}
    {app : Ctx → State → Applied} (hc : firstFail (chk (h.ctx s mem) s) = some ⟨st, d⟩) (hst : st ≠ St.hostRead) (hd : d < 2 ^ 32)
    (hkey : ∀ sa addr, b ≠ .keyLoad sa addr) (hspore : ∀ addr, b ≠ .updSpore addr) :
    runOne h mem op b s chk app = s.complete (doneRefused h s op st d) := by
  unfold runOne
  simp only [hc]
  exact State.refuse_doneRefused hst hd hkey hspore

/-! #### Tenant records and key-encryption keys -/

@[simp] theorem State.tenant_zero_active (s : State) : (s.tenant 0).active = true := (rfl)

theorem State.tenant_setTenant_same (s : State) {t : Nat} (r : TenantRec) (ht : t ≠ 0) : (s.setTenant t r).tenant t = r := by
  unfold State.tenant State.setTenant
  simp [ht]

theorem State.tenant_setTenant_other (s : State) {t u : Nat} (r : TenantRec) (hu : u ≠ t) :
    (s.setTenant t r).tenant u = s.tenant u := by
  unfold State.tenant State.setTenant
  simp [Tab.get_set_other _ _ _ hu]

theorem State.tenant_congr {s t : State} (h : s.host = t.host) (k : Nat) : s.tenant k = t.tenant k := by
  unfold State.tenant
  rw [h]

theorem State.kek_congr {s t : State} (h : s.sec = t.sec) (k : Nat) : s.kek k = t.kek k := by
  unfold State.kek
  rw [h]

@[simp] theorem State.quotaRegs_host (s : State) : s.quotaRegs.host = s.host := by simp [State.quotaRegs]
@[simp] theorem State.quotaRegs_sec (s : State) : s.quotaRegs.sec = s.sec := by simp [State.quotaRegs]
@[simp] theorem State.memWrite_host (s : State) (m f off len : Nat) : (s.memWrite m f off len).host = s.host := by
  simp [State.memWrite, State.fenceRegs]
@[simp] theorem State.memWrite_sec (s : State) (m f off len : Nat) : (s.memWrite m f off len).sec = s.sec := by
  simp [State.memWrite, State.fenceRegs]

/-- The registers of XC_QUOTA_STAT are written from the tenant records and leave these alone. -/
@[simp] theorem State.quotaRegs_tenant (s : State) (t : Nat) : s.quotaRegs.tenant t = s.tenant t :=
  State.tenant_congr s.quotaRegs_host t

@[simp] theorem State.quotaRegs_kek (s : State) (t : Nat) : s.quotaRegs.kek t = s.kek t := State.kek_congr s.quotaRegs_sec t

@[simp] theorem State.raiseEv_tenant (s : State) (e : Event) (t : Nat) : (s.raiseEv e).tenant t = s.tenant t := (rfl)
@[simp] theorem State.raiseEv_kek (s : State) (e : Event) (t : Nat) : (s.raiseEv e).kek t = s.kek t := (rfl)
@[simp] theorem State.setTenant_kek (s : State) (t : Nat) (r : TenantRec) (u : Nat) : (s.setTenant t r).kek u = s.kek u := (rfl)

@[simp] theorem State.setKek_tenant (s : State) (t : Nat) (k : Option Kek) (u : Nat) : (s.setKek t k).tenant u = s.tenant u :=
  State.tenant_congr (by simp [State.setKek]) u

theorem State.setKek_keks (s : State) (t : Nat) (k : Option Kek) :
    (s.setKek t k).sec.keks = Tab.set (fun _ => none) s.sec.keks t k := by
  simp [State.setKek]

@[simp] theorem State.kek_setKek_same (s : State) (t : Nat) (k : Option Kek) : (s.setKek t k).kek t = k := by
  unfold State.kek
  rw [State.setKek_keks, Tab.get_set_same]

theorem State.kek_setKek_other (s : State) {t u : Nat} (k : Option Kek) (hu : u ≠ t) : (s.setKek t k).kek u = s.kek u := by
  unfold State.kek
  rw [State.setKek_keks, Tab.get_set_other _ _ _ hu]

@[simp] theorem State.eraseKek_tenant (s : State) (t reason u : Nat) : (s.eraseKek t reason).tenant u = s.tenant u := by
  unfold State.eraseKek
  split <;> simp

@[simp] theorem State.kek_eraseKek_same (s : State) (t reason : Nat) : (s.eraseKek t reason).kek t = none := by
  unfold State.eraseKek
  split
  case h_1 habsent => exact habsent
  case h_2 => simp

theorem State.kek_eraseKek_other (s : State) {t u : Nat} (reason : Nat) (hu : u ≠ t) : (s.eraseKek t reason).kek u = s.kek u := by
  unfold State.eraseKek
  split
  case h_1 => rfl
  case h_2 => rw [State.raiseEv_kek, State.kek_setKek_other s none hu]

/-- The lowest inactive tenant is the first that no lower inactive one precedes. -/
theorem State.lowestInactive_eq_some {s : State} {t : Nat} (hlt : t < 1024) (ht : (s.tenant t).active = false)
    (hlow : ∀ u, u < t → (s.tenant u).active = true) : s.lowestInactive = some t := by
  unfold State.lowestInactive
  rw [List.find?_range_eq_some]
  simpa [ht, hlt] using hlow

/-! #### The four commands -/

section
variable {h : ReqHdr} {mem : HostMem} {s : State}

/-- R254: the quotas are stored, and the OVER bits follow them. -/
theorem execQuotaSet_ok {units sas grans : Nat} (hfn : h.fn = 0) (hany : h.any = false) (ht : h.tenant ≠ 0)
    (hact : (s.tenant h.tenant).active = true) (hu : units ≤ 92160) (ha : sas ≤ 16384) (hg : grans ≤ 8192) :
    execQuotaSet h mem units sas grans s = .next (((s.setTenant h.tenant { s.tenant h.tenant with
      unitQuota := units, saQuota := sas, granQuota := grans }).quotaUpdate h.tenant).complete (doneOk h s 0x27 0)) := by
  have pass : ∀ c ∈ chkQuotaSet units sas grans (h.ctx s mem) s, c.bad = false := by
    simp [chkQuotaSet, Ctx.ckNoAny, ckFormat, ckAbsent, ReqHdr.ctx, ReqSrc.fn, *]
  exact congrArg _ (runOne_done _ pass rfl rfl rfl (kept_tick (appQuotaSet_kept units sas grans (h.ctx s mem) s)))

/-- R254: T0000 has no quota to set. -/
theorem execQuotaSet_pf {units sas grans : Nat} (hpf : h.isPf) :
    execQuotaSet h mem units sas grans s = .next (s.complete (doneRefused h s 0x27 St.format 0)) := by
  obtain ⟨hfn, ht, hany⟩ := hpf
  have fails : firstFail (chkQuotaSet units sas grans (h.ctx s mem) s) = some ⟨St.format, 0⟩ := by
    refine firstFail_eq_some ⟨ckFormat (h.tenant == 0), by simp [chkQuotaSet, ReqHdr.ctx], by simp [ckFormat, ht]⟩ ?_
    simp [chkQuotaSet, Ctx.ckNoAny, ckFormat, ckAbsent, ReqHdr.ctx, ReqSrc.fn, *]
  exact congrArg _ (runOne_refused fails (by decide) (by decide) (by simp) (by simp))

/-- R255: a tenant in the function's range reads its quota record. -/
theorem execQuotaRead_ok {buf : Nat} (hany : h.any = false) (hact : (s.tenant h.tenant).active = true)
    (hrange : s.inRange h.fn h.tenant = true) (hbuf : buf % 64 = 0) (hfits : s.readFits 16) :
    execQuotaRead h mem buf s = .next (readOk h s 0x28 buf (s.quotaRecord h.tenant)) := by
  have pass : ∀ c ∈ chkQuotaRead buf (h.ctx s mem) s, c.bad = false := by
    unfold State.readFits at hfits
    simp [chkQuotaRead, Ctx.ckNoAny, Ctx.ckTenant, State.ckBacklog, ckFormat, ckAlign, ckCond, ReqHdr.ctx, ReqSrc.fn, *]
  exact congrArg _ (runOne_read pass rfl)

/-- R312: a named tenant becomes active with all quotas 0. -/
theorem execTenantCreate_named (hfn : h.fn = 0) (hany : h.any = false) (hact : (s.tenant h.tenant).active = false) :
    execTenantCreate h mem s = .next ((s.setTenant h.tenant { active := true }).complete (doneOk h s 0x29 0)) := by
  have pass : ∀ c ∈ chkTenantCreate (h.ctx s mem) s, c.bad = false := by
    simp [chkTenantCreate, ckFormat, ckCond, ReqHdr.ctx, ReqSrc.fn, *]
  have effect : appTenantCreate (h.ctx s mem) s = { s := s.setTenant h.tenant { active := true } } := by
    simp [appTenantCreate, ReqHdr.ctx, hany]
  exact congrArg _ (runOne_done _ pass effect rfl rfl rfl)

/-- R312: a tenant that is active already cannot be created. -/
theorem execTenantCreate_busy (hfn : h.fn = 0) (hany : h.any = false) (hact : (s.tenant h.tenant).active = true) :
    execTenantCreate h mem s = .next (s.complete (doneRefused h s 0x29 St.slotBusy 0)) := by
  have fails : firstFail (chkTenantCreate (h.ctx s mem) s) = some ⟨St.slotBusy, 0⟩ := by
    refine firstFail_eq_some ⟨ckCond (!h.any && (s.tenant h.tenant).active) St.slotBusy, by simp [chkTenantCreate, ReqHdr.ctx],
      by simp [ckCond, hany, hact]⟩ ?_
    simp [chkTenantCreate, ckFormat, ckCond, ReqHdr.ctx, ReqSrc.fn, *]
  exact congrArg _ (runOne_refused fails (by decide) (by decide) (by simp) (by simp))

/-- R312: under ANY the module takes the lowest inactive tenant and returns it in RESULT. -/
theorem execTenantCreate_any {t : Nat} (hfn : h.fn = 0) (hany : h.any = true) (ht : h.tenant = 0)
    (hlow : s.lowestInactive = some t) :
    execTenantCreate h mem s = .next ((s.setTenant t { active := true }).complete (doneOk h s 0x29 t)) := by
  have pass : ∀ c ∈ chkTenantCreate (h.ctx s mem) s, c.bad = false := by
    simp [chkTenantCreate, ckFormat, ckCond, ReqHdr.ctx, ReqSrc.fn, *]
  have effect : appTenantCreate (h.ctx s mem) s = { s := s.setTenant t { active := true }, result := t } := by
    simp [appTenantCreate, ReqHdr.ctx, hany, hlow]
  exact congrArg _ (runOne_done _ pass effect rfl rfl rfl)

/-- R312: a tenant that owns no endpoint and no association is deleted, and its key-encryption key is erased with it (R375). -/
theorem execTenantDelete_ok (hfn : h.fn = 0) (hany : h.any = false) (ht : h.tenant ≠ 0) (hact : (s.tenant h.tenant).active = true)
    (heps : ∀ q ∈ s.eps, q.2.entry.kind = 0 ∨ q.2.entry.tenant ≠ h.tenant)
    (hsas : ∀ q ∈ s.sas, q.2.state = 0 ∨ q.2.tenant ≠ h.tenant) :
    execTenantDelete h mem s =
      .next ((((s.eraseKek h.tenant 1).setTenant h.tenant {}).quotaRegs).complete (doneOk h s 0x2a 0)) := by
  have noEp : s.eps.any (fun q => q.2.entry.kind != 0 && q.2.entry.tenant == h.tenant) = false := by
    rw [List.any_eq_false]
    intro q hq
    cases heps q hq <;> simp [*]
  have noSa : s.sas.any (fun q => q.2.state != 0 && q.2.tenant == h.tenant) = false := by
    rw [List.any_eq_false]
    intro q hq
    cases hsas q hq <;> simp [*]
  have pass : ∀ c ∈ chkTenantDelete (h.ctx s mem) s, c.bad = false := by
    simp only [chkTenantDelete, ReqHdr.ctx, noEp, noSa]
    simp [Ctx.ckNoAny, ckFormat, ckAbsent, ckCond, ReqSrc.fn, *]
  exact congrArg _ (runOne_done _ pass rfl rfl rfl (kept_tick (appTenantDelete_kept (h.ctx s mem) s)))

end

/-- Settles O50: each command completes with its own effect, and a deletion writes the record and the key of its tenant alone. -/
theorem tenantCommands : Obligations.TenantCommands := by
  intro s h mem
  refine ⟨fun _ _ _ => execQuotaSet_ok, fun _ _ _ => execQuotaSet_pf, fun _ => execQuotaRead_ok, execTenantCreate_named,
    execTenantCreate_busy, fun t hfn hany ht hlt hact hlow =>
      execTenantCreate_any hfn hany ht (State.lowestInactive_eq_some hlt hact hlow), ?delete⟩
  case delete =>
    intro hfn hany ht hact heps hsas
    refine ⟨_, execTenantDelete_ok hfn hany ht hact heps hsas, ?_, by simp, fun u hu => ⟨?_, ?_⟩⟩
    · rw [State.quotaRegs_tenant, State.tenant_setTenant_same _ _ ht]
    · rw [State.quotaRegs_tenant, State.tenant_setTenant_other _ _ hu, State.eraseKek_tenant]
    · rw [State.quotaRegs_kek, State.setTenant_kek, State.kek_eraseKek_other s 1 hu]

end Sys2Proof.Machine

/-! ### The queue, TICK and the boundary (R29, R42, Table TCK-5) -/

namespace Sys2Proof.Machine

theorem step_of_pending_cons {s : State} {c : Instr} {rest : List Instr} (h : s.pending = c :: rest) :
    step s = exec c { s with pending := rest } := by
  simp only [step, h]

theorem step_of_pending_nil {s : State} (h : s.pending = []) : step s = .next s := by
  simp only [step, h]

/-- Settles O1: the two cases of the queue. -/
theorem stepRunsFront : Obligations.StepRunsFront :=
  ⟨fun _ _ _ => step_of_pending_cons, fun _ => step_of_pending_nil⟩

/-! #### The commands that move TICK -/

/-- The module runs in PHASE RUN, so not in RESET. -/
theorem State.phase_ne_zero_of_running {s : State} (h : s.running = true) : s.phase ≠ 0 := by
  have run : s.phase = 5 := by simpa [State.running, State.phase] using h
  omega

theorem execTickBoundary_tick {mem : HostMem} {taps : List (Nat × Int × Int)} {s t : State} (hp : s.boot.pwrOk = true)
    (hr : s.running = true) (h : execTickBoundary mem taps s = .next t) : t.tick = s.tick + 1 :=
  (execTickBoundary_blown hp (State.phase_ne_zero_of_running hr) hr h).tick

theorem execCalPhaseDone_tick {s t : State} (hphase : s.phase = 4)
    (hcal : s.frondIds.all (fun f => (s.frondCal f).run.isNone) = true) (h : execCalPhaseDone s = .next t) : t.tick = 0 := by
  unfold execCalPhaseDone at h
  injection h with h
  rw [if_pos ⟨hphase, hcal⟩] at h
  subst h
  exact (kept_parts s.release_kept).1

theorem execColdResetPin_tick {s t : State} (hp : s.boot.pwrOk = true) (h : execColdResetPin s = .next t) : t.tick = 0 := by
  unfold execColdResetPin at h
  injection h with h
  rw [if_pos hp] at h
  subst h
  exact s.coldReset_tick 1

/-- The commands that start the time base or move it: the boundary, the release, and the resets with their loss of supplies. Every
other command leaves TICK alone, those that load or program fuses among them. -/
theorem exec_tick_of_ne {c : Instr} {s t : State} (hbound : ∀ mem taps, c ≠ .tickBoundary mem taps) (hcal : c ≠ .calPhaseDone)
    (hpin : c ≠ .coldResetPin) (hpower : c ≠ .coldResetPower) (hloss : c ≠ .mainSupplyLoss) (h : exec c s = .next t) :
    t.tick = s.tick := by
  cases hc : movesKept c with
  | false => exact kept_tick (exec_kept hc h)
  | true =>
    cases c with
    | tickBoundary mem taps => exact absurd rfl (hbound mem taps)
    | calPhaseDone => exact absurd rfl hcal
    | coldResetPin => exact absurd rfl hpin
    | coldResetPower => exact absurd rfl hpower
    | mainSupplyLoss => exact absurd rfl hloss
    | fuseLoadDone fuse fail bad => exact (execFuseLoadDone_kept' fuse fail bad s t h).1
    | secureSlotVerified => exact (execSecureSlotVerified_blown s t h).tick
    | fuseProgramming => exact (execFuseProgramming_blown s t h).tick
    | _ => cases hc

/-- Settles O3: the boundary and the release by their own lemmas, every other command by what it keeps. -/
theorem tickCounter : Obligations.TickCounter :=
  ⟨fun _ _ _ _ => execTickBoundary_tick, fun _ _ => execCalPhaseDone_tick, fun _ _ _ => exec_tick_of_ne⟩

/-! #### The order of the steps of a boundary -/

section
variable {s : State} {mem : HostMem} {taps : List (Nat × Int × Int)}

theorem execTickBoundary_dark (h : s.boot.pwrOk = false ∨ s.phase = 0) : execTickBoundary mem taps s = .next s := by
  unfold execTickBoundary
  rw [if_pos (by simpa using h)]

theorem execTickBoundary_boot (hp : s.boot.pwrOk = true) (h0 : s.phase ≠ 0) (hr : s.running = false) :
    execTickBoundary mem taps s = .next s.bootTick := by
  unfold execTickBoundary
  rw [if_neg (by simp [hp, h0]), if_pos (by simp [hr])]

/-- TICK increments and the read budget of the host starts again; then steps 1 and 2 of Table TCK-5 and the key actions, which go
ahead of step 3. -/
def State.beginTick (t : State) : State :=
  ({ t with tick := t.tick + 1, host := { t.host with readBudgetUsed := 0 } } : State).safeStep.keepBudget.scheduled.kekStep.retireStep

/-- The WT writes and the time step follow. They leave the state on which step 3, the commands of the tick, acts. -/
def State.beforeCommands (t : State) : State := t.beginTick.applyWts.timeStep

theorem State.beginTick_tick (t : State) : t.beginTick.tick = t.tick + 1 := by
  unfold State.beginTick
  rw [State.retireStep_tick, kept_tick (State.kekStep_kept _), kept_tick (State.scheduled_kept _), kept_tick (State.keepBudget_kept _),
    kept_tick (State.safeStep_kept _)]

/-- Of the steps before the commands only the first moves TICK. -/
theorem State.beforeCommands_tick (t : State) : t.beforeCommands.tick = t.tick + 1 := by
  unfold State.beforeCommands
  rw [kept_tick (State.timeStep_kept _), kept_tick (State.applyWts_kept _), State.beginTick_tick]

/-- What ends with a tick, its checks included, leaves TICK for the boundary to move. -/
theorem State.checkTick_endTick_tick (s : State) : ((s.endTick taps).checkTick mem).tick = s.tick :=
  kept_tick ((State.checkTick_kept _ _).trans (State.endTick_kept _ _))

/-- The boundary of the running module. Step 3 is told whether the WT writes or the time step withdrew requests of this tick. -/
theorem execTickBoundary_run {t : State} (hp : s.boot.pwrOk = true) (hr : s.running = true)
    (ht : (s.endTick taps).checkTick mem = t) : execTickBoundary mem taps s = .next ((t.beforeCommands.applyTick mem
      (decide ((t.beforeCommands.requestsAt t.beforeCommands.tick).length < (t.beginTick.requestsAt t.beginTick.tick).length))
        ).laterSteps.boundaryEnd) := by
  subst ht
  unfold execTickBoundary
  rw [if_neg (by simp [hp, State.phase_ne_zero_of_running hr]), if_neg (by simp [hr])]
  rfl

end

/-- Settles O37, by the three cases of a boundary and the time base that a cold reset begins. -/
theorem tickBoundary : Obligations.TickBoundary := by
  refine fun s mem taps => ⟨execTickBoundary_dark, execTickBoundary_boot, fun t hp hr _ ht => ?run, fun _ => execColdResetPin_tick⟩
  case run =>
    have tick : t.tick = s.tick := ht ▸ s.checkTick_endTick_tick
    exact ⟨t.beforeCommands, tick ▸ t.beforeCommands_tick, rfl, _, execTickBoundary_run hp hr ht⟩

end Sys2Proof.Machine

/-! ### The twin modules (R51, R398, R399, R437 to R439, Table TCK-7) -/

namespace Sys2Proof.Machine

section
variable {s : State}

/-! #### Changes of the twin record and of TIM_TWIN -/

@[simp] theorem State.modTwin_tick (s : State) (g : TwinSt → TwinSt) : (s.modTwin g).tick = s.tick := (rfl)
@[simp] theorem State.modTwin_host (s : State) (g : TwinSt → TwinSt) : (s.modTwin g).host = s.host := (rfl)
@[simp] theorem State.modTwin_twin (s : State) (g : TwinSt → TwinSt) : (s.modTwin g).tim.twin = g s.tim.twin := (rfl)
@[simp] theorem State.modTwin_twinState (s : State) (g : TwinSt → TwinSt) : (s.modTwin g).twinState = s.twinState := (rfl)
@[simp] theorem State.twinState_freeCtr (s : State) (n : Nat) : ({ s with freeCtr := n } : State).twinState = s.twinState := (rfl)
@[simp] theorem State.raise_twinState (s : State) (c o : Nat) (l : List EVal) : (s.raise c o l).twinState = s.twinState := (rfl)

theorem State.twinState_wr (s : State) {v : Nat} (hv : v < 4) : (s.wr R.TIM_TWIN_STATE v).twinState = v :=
  (s.rd_wr_same v (by decide)).trans (Nat.mod_eq_of_lt hv)

/-- The offset of TIM_TWIN stands beside its state. -/
@[simp] theorem State.twinState_wrS_offset (s : State) (i : Int) : (s.wrS R.TIM_TWIN_OFFSET i).twinState = s.twinState :=
  s.rd_wr_beside _ (by decide) (by decide)

@[simp] theorem State.enterAligning_twinState (s : State) : s.enterAligning.twinState = 1 := by
  unfold State.enterAligning
  rw [State.raise_twinState, State.twinState_wr s (by decide)]

@[simp] theorem State.enterAligning_tim (s : State) : s.enterAligning.tim = s.tim := by
  unfold State.enterAligning
  rw [State.raise_tim, State.wr_tim]

/-- The 160th tick in a row. -/
theorem Run.step_159 {t : Nat} (ht : 0 < t) : Run.step ⟨159, t - 1⟩ t true = ⟨160, t⟩ :=
  Run.step_next (Nat.succ_pos 158) (Nat.sub_add_cancel ht)

/-! #### The timing slot of the lead twin and of the follower (R438) -/

/-- SEND_OFS lies in the first code group from 512 core cycles, and its choice is the next open value. -/
theorem State.sendOfs_eq (s : State) : ∃ o, 8192 ≤ o ∧ o < 8213 ∧ s.sendOfs = (o, { s with freeCtr := s.freeCtr + 1 }) :=
  ⟨8192 + Config.free s.freeCtr % 21, by omega, by omega, rfl⟩

theorem execTwinPhaseSend_idle (h : s.tim.twin.on = false ∨ s.twinLead = false ∨ s.meshUp 5 = false) :
    execTwinPhaseSend s = .next s := by
  unfold execTwinPhaseSend State.sendPhase
  rw [if_neg (by rcases h with h | h | h <;> simp [h])]

theorem execTwinEgressSend_idle (h : s.tim.twin.on = false ∨ s.twinLead = false ∨ s.meshUp 5 = false) :
    execTwinEgressSend s = .next s := by
  unfold execTwinEgressSend State.sendTwinEgress
  rw [if_neg (by rcases h with h | h | h <;> simp [h])]

theorem execTwinProbeSend_idle (h : s.tim.twin.on = false ∨ s.twinLead = true ∨ s.meshUp 5 = false) :
    execTwinProbeSend s = .next s := by
  unfold execTwinProbeSend State.sendProbe
  rw [if_neg (by rcases h with h | h | h <;> simp [h])]

@[simp] theorem State.sendRecords_nil (n : Nat) (s : State) : State.sendRecords n [] s = s := by
  cases n <;> rfl

/-- At most 85 records take one message. -/
theorem State.sendRecords_short {n : Nat} {l : List TwinRec} (hne : l ≠ []) (hlen : l.length ≤ 85) :
    State.sendRecords (n + 1) l s = s.meshLink 5 0x08 0 (natBe 2 l.length ++ [0, 0] ++ l.flatMap TwinRec.bytes) := by
  cases l with
  | nil => exact absurd rfl hne
  | cons r l => rw [State.sendRecords, List.take_of_length_le hlen, List.drop_of_length_le hlen, State.sendRecords_nil]

section
variable (hon : s.tim.twin.on = true) (hlead : s.twinLead = true) (hup : s.meshUp 5 = true)
include hon hlead hup

/-- A phase report answers the probe that arrived in the tick before. -/
theorem execTwinPhaseSend_answer {p t a : Nat} (hprobe : s.tim.twin.gotProbe = some (p, t, a)) (ht : t + 1 = s.tick) :
    ∃ o, 8192 ≤ o ∧ o < 8213 ∧ execTwinPhaseSend s = .next (({ s with freeCtr := s.freeCtr + 1 } : State).meshLink 5 0x06 0
      (natBe 8 s.tick ++ natBe 4 o ++ natBe 8 p ++ natBe 8 t ++ natBe 4 a)) := by
  obtain ⟨o, hlow, hhigh, hofs⟩ := s.sendOfs_eq
  refine ⟨o, hlow, hhigh, ?_⟩
  unfold execTwinPhaseSend State.sendPhase
  simp [hon, hlead, hup, hofs, hprobe, ht]

/-- A phase report with no probe to answer carries the fields of none. -/
theorem execTwinPhaseSend_unasked (hprobe : s.tim.twin.gotProbe = none) :
    ∃ o, 8192 ≤ o ∧ o < 8213 ∧ execTwinPhaseSend s = .next (({ s with freeCtr := s.freeCtr + 1 } : State).meshLink 5 0x06 0
      (natBe 8 s.tick ++ natBe 4 o ++ List.replicate 8 0xff ++ List.replicate 12 0)) := by
  obtain ⟨o, hlow, hhigh, hofs⟩ := s.sendOfs_eq
  refine ⟨o, hlow, hhigh, ?_⟩
  unfold execTwinPhaseSend State.sendPhase
  simp [hon, hlead, hup, hofs, hprobe]

theorem execTwinEgressSend_lead : execTwinEgressSend s = .next (State.sendRecords 4 (s.twinRecords (s.tick + 3)) s) := by
  unfold execTwinEgressSend State.sendTwinEgress
  rw [if_pos (by simp [hon, hlead, hup])]

theorem execTwinEgressSend_none (hl : s.twinRecords (s.tick + 3) = []) : execTwinEgressSend s = .next s := by
  rw [execTwinEgressSend_lead hon hlead hup, hl, State.sendRecords_nil]

theorem execTwinEgressSend_short {l : List TwinRec} (hl : s.twinRecords (s.tick + 3) = l) (hne : l ≠ []) (hlen : l.length ≤ 85) :
    execTwinEgressSend s = .next (s.meshLink 5 0x08 0 (natBe 2 l.length ++ [0, 0] ++ l.flatMap TwinRec.bytes)) := by
  rw [execTwinEgressSend_lead hon hlead hup, hl, State.sendRecords_short hne hlen]

end

theorem execTwinProbeSend_follower (hon : s.tim.twin.on = true) (hlead : s.twinLead = false) (hup : s.meshUp 5 = true) :
    ∃ o, 8192 ≤ o ∧ o < 8213 ∧ execTwinProbeSend s = .next ((({ s with freeCtr := s.freeCtr + 1 } : State).modTwin fun x => { x with
      probe := some (s.tick, o) }).meshLink 5 0x07 0 (natBe 8 s.tick ++ natBe 4 o)) := by
  obtain ⟨o, hlow, hhigh, hofs⟩ := s.sendOfs_eq
  refine ⟨o, hlow, hhigh, ?_⟩
  unfold execTwinProbeSend State.sendProbe
  simp [hon, hlead, hup, hofs]

/-! #### What arrives on MP5 (R437 to R439) -/

theorem execTwinPhase_idle {lead ofs : Nat} {probe : Option (Nat × Nat × Nat)} {arr : Fin 160000}
    (h : s.tim.twin.on = false ∨ s.twinLead = true ∨ s.mp5Up = false) : execTwinPhase lead ofs probe arr s = .next s := by
  unfold execTwinPhase
  rw [if_pos (by rcases h with h | h | h <;> simp [h])]

theorem execTwinEgress_idle {l : List TwinRec} (h : s.tim.twin.on = false ∨ s.twinLead = true ∨ s.mp5Up = false) :
    execTwinEgress l s = .next s := by
  unfold execTwinEgress
  rw [if_pos (by rcases h with h | h | h <;> simp [h])]

theorem execTwinProbe_idle {tick ofs : Nat} {arr : Fin 160000} (h : s.tim.twin.on = false ∨ s.twinLead = false ∨ s.mp5Up = false) :
    execTwinProbe tick ofs arr s = .next s := by
  unfold execTwinProbe
  rw [if_pos (by rcases h with h | h | h <;> simp [h])]

/-- The nearest multiple of `b` lies within half of `b`, and only an open choice is spent on it. -/
theorem State.nearestOpen_eq (s : State) (a : Int) {b : Nat} (hb : 0 < b) : ∃ q n, s.nearestOpen a b = (q, { s with freeCtr := n }) ∧
    2 * (a - b * q) ≤ b ∧ -b ≤ 2 * (a - b * q) := by
  have parts : (b : Int) * (a / b) + a % b = a := Int.mul_ediv_add_emod a b
  have low : 0 ≤ a % (b : Int) := Int.emod_nonneg a (by omega)
  have high : a % (b : Int) < b := Int.emod_lt_of_pos a (by omega)
  unfold State.nearestOpen
  dsimp only
  split_ifs with below above
  case pos => exact ⟨_, s.freeCtr, rfl, by omega, by omega⟩
  case pos => exact ⟨_, s.freeCtr, rfl, by rw [mul_add]; omega, by rw [mul_add]; omega⟩
  case neg =>
    refine ⟨_, _, rfl, ?_⟩
    rcases Nat.mod_two_eq_zero_or_one (Config.free s.freeCtr) with parity | parity <;>
      simp only [State.fresh, parity, Nat.cast_zero, Nat.cast_one, mul_add] <;> omega

/-- The follower measures against the probe that the report answers: the round trip, and with the boundaries paired the offset. -/
theorem execTwinPhase_measure {lead ofs p pt po qo : Nat} {arr : Fin 160000} {o here r : Int} (hon : s.tim.twin.on = true)
    (hlead : s.twinLead = false) (hup : s.mp5Up = true) (hprobe : s.tim.twin.probe = some (p, qo)) (hofs : s.tim.twin.offset = some o)
    (hhere : here = s.tick * 160000 + arr.val)
    (hr : r = (here - (p * 160000 + qo)) - ((lead * 160000 + ofs) - (pt * 160000 + po))) (hstate : s.twinState ≠ 0) :
    ∃ t : State, execTwinPhase lead ofs (some (p, pt, po)) arr s = .next t ∧ t.tim.twin.rtt = some r ∧ t.tim.twin.offset = some o ∧
      t.tim.twin.sub = 2 * (here - ofs) - r - 320000 * (lead - o) ∧ t.tim.twin.subTick = some s.tick ∧ t.twinState = s.twinState := by
  obtain ⟨ns, n, hns, -⟩ := s.nearestOpen_eq (5 * (2 * (here - ofs) - r - 320000 * (lead - o))) (b := 256) (by decide)
  have here_cast : ((s.tick * 160000 + arr.val : Nat) : Int) = here := by push_cast; exact hhere.symm
  have r_cast : here - ((p * 160000 + qo : Nat) : Int) - (((lead * 160000 + ofs : Nat) : Int) - ((pt * 160000 + po : Nat) : Int)) = r := by
    push_cast; exact hr.symm
  unfold execTwinPhase
  simp only [hon, hlead, hup, hprobe, hofs, here_cast, r_cast, hns, Bool.not_true, Bool.or_self, Bool.false_eq_true, if_false, if_true]
  refine ⟨_, rfl, ?_⟩
  simp [hstate]

section
variable {tick ofs : Nat} {arr : Fin 160000} (hon : s.tim.twin.on = true) (hlead : s.twinLead = true) (hup : s.mp5Up = true)
include hon hlead hup

theorem execTwinProbe_paired {o : Int} (hofs : s.tim.twin.offset = some o) : execTwinProbe tick ofs arr s =
    .next (s.modTwin fun x => { x with gotProbe := some (tick, s.tick, arr.val) }) := by
  unfold execTwinProbe
  simp [hon, hlead, hup, hofs]

/-- The first probe pairs the boundary it was sent at with the nearest boundary of the lead twin and begins ALIGNING. -/
theorem execTwinProbe_first (hofs : s.tim.twin.offset = none) : ∃ (t : State) (own : Int), execTwinProbe tick ofs arr s = .next t ∧
    t.twinState = 1 ∧ t.tim.twin.offset = some (own - tick) ∧ 2 * (s.tick * 160000 + arr.val - ofs - 160000 * own) ≤ 160000 ∧
    -160000 ≤ 2 * (s.tick * 160000 + arr.val - ofs - 160000 * own : Int) := by
  obtain ⟨own, n, hown, hhigh, hlow⟩ := (s.modTwin fun x => { x with gotProbe := some (tick, s.tick, arr.val) }).nearestOpen_eq
    (((s.tick * 160000 + arr.val : Nat) : Int) - ofs) (b := 160000) (by decide)
  push_cast at hhigh hlow
  unfold execTwinProbe
  simp only [hon, hlead, hup, hofs, hown, State.modTwin_tick, State.modTwin_twin, Bool.not_true, Bool.or_self, Bool.false_eq_true,
    if_false]
  exact ⟨_, own, rfl, State.enterAligning_twinState _, rfl, hhigh, hlow⟩

end

section
variable {r : TwinRec} {e : Nat} {o : Int} (hon : s.tim.twin.on = true) (hlead : s.twinLead = false) (hup : s.mp5Up = true)
  (hofs : s.tim.twin.offset = some o) (he : s.ownEgress r.egress = e)
include hon hlead hup hofs he

theorem execTwinEgress_in_time (hlane : s.twinLane r.lane = true) (htime : s.tick + 2 ≤ e) : execTwinEgress [r] s =
    .next (s.modTwin fun x => { x with recs := Tab.set (fun _ => none) x.recs (e * 512 + r.lane) (some r) }) := by
  have htime' : (s.tick : Int) + 2 ≤ e := by exact_mod_cast htime
  unfold execTwinEgress
  simp [hon, hlead, hup, hofs, he, hlane, htime']

theorem execTwinEgress_late (htime : e < s.tick + 2) : execTwinEgress [r] s = .next s := by
  have htime' : ¬ (s.tick : Int) + 2 ≤ e := by omega
  unfold execTwinEgress
  simp [hon, hlead, hup, hofs, he, htime']

end

/-! #### The twin states (Table TCK-7) -/

/-- A second look in one tick finds nothing new. -/
theorem State.twinLook_again (h : s.tim.twin.lookTick = some s.tick) : s.twinLook = s := by
  unfold State.twinLook
  simp [h]

/-- A look of a follower with no twin-aligned lane, whose offset lies within 100 ns, adds one good tick and touches nothing but the
twin record. -/
theorem State.twinLook_good {n : Nat} (hon : s.tim.twin.on = true) (hlead : s.twinLead = false)
    (hlook : s.tim.twin.lookTick ≠ some s.tick) (hlanes : s.tim.twin.lanes = 0) (hsub : s.tim.twin.subTick = some n)
    (hnear : s.twinNear = true) (hup : s.mp5Up = true) :
    ∃ g, s.twinLook = s.modTwin g ∧ (g s.tim.twin).goodRun = s.tim.twin.goodRun.step s.tick true := by
  have noLane : ∀ l, s.twinLane l = false := by simp [State.twinLane, hlanes]
  unfold State.twinLook
  simp only [hon, hlook, beq_iff_eq, Bool.not_true, Bool.or_eq_true, Bool.false_eq_true, or_self, if_false]
  refine ⟨_, rfl, ?_⟩
  simp [hlead, noLane, hsub, hnear, hup]

theorem execTwinAligned_of_run {a : State} (ha : s.twinLook = a) (hstate : a.twinState = 1 ∨ a.twinState = 3)
    (hrun : 160 ≤ a.tim.twin.goodRun.n) : execTwinAligned s = .next ((a.wr R.TIM_TWIN_STATE 2).raise 0x0b03 0) := by
  unfold execTwinAligned State.twinAlign
  simp only [ha]
  rw [if_pos ⟨hstate, hrun⟩]

theorem execTwinAligned_of_short {a : State} (ha : s.twinLook = a) (hrun : a.tim.twin.goodRun.n < 160) :
    execTwinAligned s = .next a := by
  unfold execTwinAligned State.twinAlign
  simp only [ha]
  rw [if_neg (by omega)]

/-- The 160th good tick in a row makes ALIGNED. -/
theorem execTwinAligned_160th {n : Nat} (hon : s.tim.twin.on = true) (hlead : s.twinLead = false)
    (hlook : s.tim.twin.lookTick ≠ some s.tick) (hlanes : s.tim.twin.lanes = 0) (hsub : s.tim.twin.subTick = some n)
    (hnear : s.twinNear = true) (hup : s.mp5Up = true) (hstate : s.twinState = 1) (hrun : s.tim.twin.goodRun = ⟨159, s.tick - 1⟩)
    (htick : 0 < s.tick) : ∃ t : State, execTwinAligned s = .next t ∧ t.twinState = 2 ∧
      t.host.events = s.host.events ++ [eventOf s 0x0b03 0] := by
  obtain ⟨g, hg, hgood⟩ := State.twinLook_good hon hlead hlook hlanes hsub hnear hup
  rw [hrun, Run.step_159 htick] at hgood
  refine ⟨_, execTwinAligned_of_run hg (.inl hstate) ?_, ?_, ?_⟩
  · rw [State.modTwin_twin, hgood]
  · rw [State.raise_twinState, State.twinState_wr _ (by decide)]
  · simp [eventOf]

/-- ALIGNED lapses on a far offset or on a lane that missed 8 records, and the event tells which: 0 for the offset. -/
theorem execTwinLapsed_of_cause (hlook : s.tim.twin.lookTick = some s.tick) (hstate : s.twinState = 2)
    (hcause : 4 ≤ s.tim.twin.farRun.n ∨ ∃ q ∈ s.tim.twin.missed, 8 ≤ q.2) :
    execTwinLapsed s = .next (((s.modTwin fun x => { x with lapsedAt := s.tick, goodRun := {} }).wr R.TIM_TWIN_STATE 3).raise 0x0b04 0
      [.w (if 4 ≤ s.tim.twin.farRun.n then 0 else 1)]) := by
  unfold execTwinLapsed State.twinLapse
  simp only [State.twinLook_again hlook]
  rw [if_pos ⟨hstate, by simpa using hcause⟩]
  simp

theorem execTwinLapsed_of_none (hlook : s.tim.twin.lookTick = some s.tick) (hfar : s.tim.twin.farRun.n < 4)
    (hmiss : ∀ q ∈ s.tim.twin.missed, q.2 < 8) : execTwinLapsed s = .next s := by
  have noMiss : s.tim.twin.missed.any (fun q => decide (8 ≤ q.2)) = false := by
    rw [List.any_eq_false]
    intro q hq
    simpa using hmiss q hq
  unfold execTwinLapsed State.twinLapse
  simp only [State.twinLook_again hlook, noMiss]
  rw [if_neg (by simp [hfar])]

theorem execTwinRealign_of_due (hstate : s.twinState = 3) (hdue : s.tim.twin.lapsedAt + 1600 ≤ s.tick) :
    execTwinRealign s = .next s.enterAligning := by
  unfold execTwinRealign State.twinAgain
  rw [if_pos ⟨hstate, hdue⟩]

theorem execTwinRealign_of_not_due (h : s.twinState ≠ 3 ∨ s.tick < s.tim.twin.lapsedAt + 1600) : execTwinRealign s = .next s := by
  unfold execTwinRealign State.twinAgain
  rw [if_neg (by omega)]

/-! #### The steering limit (R398, R399) -/

theorem execTwinSteerLimit_idle {ppb : Int} (h : s.tim.twin.on = false ∨ s.twinLead = true) : execTwinSteerLimit ppb s = .next s := by
  unfold execTwinSteerLimit
  rw [if_pos (by rcases h with h | h <;> simp [h])]

section
variable {ppb : Int} (hon : s.tim.twin.on = true) (hlead : s.twinLead = false) (hsub : s.tim.twin.subTick = some s.tick)
  (hstate : s.twinState = 2)
include hon hlead hsub hstate

/-- The 160th tick in a row at the limit raises the event. -/
theorem execTwinSteerLimit_160th (hrun : s.tim.twin.limitRun = ⟨159, s.tick - 1⟩) (htick : 0 < s.tick) (hppb : 2000 ≤ ppb) :
    execTwinSteerLimit ppb s = .next ((s.modTwin fun x => { x with limitRun := ⟨160, s.tick⟩, psi := x.psi + 2000 }).raise
      0x0f09 0 [.s 2000]) := by
  have clamp : clampInt (-2000) 2000 ppb = 2000 := by unfold clampInt; split_ifs <;> omega
  have limit : 2000 ≤ ppb.natAbs := by omega
  unfold execTwinSteerLimit
  simp [hon, hlead, hsub, hstate, hrun, clamp, limit, Run.step_159 htick]

/-- Steering below the limit ends the run. -/
theorem execTwinSteerLimit_within (hlow : -2000 < ppb) (hhigh : ppb < 2000) :
    execTwinSteerLimit ppb s = .next (s.modTwin fun x => { x with limitRun := ⟨0, s.tick⟩, psi := x.psi + ppb }) := by
  have clamp : clampInt (-2000) 2000 ppb = ppb := by unfold clampInt; split_ifs <;> omega
  have limit : ¬ 2000 ≤ ppb.natAbs := by omega
  unfold execTwinSteerLimit
  simp [hon, hlead, hsub, hstate, clamp, limit, Run.step]

end

end

/-- Settles O57, command by command: the timing slot, what arrives on MP5, the twin states, the steering limit. -/
theorem twinCommands : Obligations.TwinCommands := by
  intro s w hw
  subst hw
  refine ⟨fun h => ⟨execTwinPhaseSend_idle h, execTwinEgressSend_idle h⟩, execTwinProbeSend_idle, ?leadSlot,
    execTwinProbeSend_follower, fun h => ⟨fun _ _ _ _ => execTwinPhase_idle h, fun _ => execTwinEgress_idle h⟩,
    fun h _ _ _ => execTwinProbe_idle h, fun lead ofs p pt po qo arr o here r => execTwinPhase_measure, ?probe, ?egress, ?look,
    fun n => execTwinAligned_160th, fun hstate hdue => ⟨_, execTwinRealign_of_due hstate hdue, s.enterAligning_twinState⟩,
    execTwinRealign_of_not_due, fun h _ => execTwinSteerLimit_idle h, fun ppb => execTwinSteerLimit_160th,
    fun ppb => execTwinSteerLimit_within⟩
  case leadSlot =>
    intro hon hlead hup
    exact ⟨fun p t a => execTwinPhaseSend_answer hon hlead hup, execTwinPhaseSend_unasked hon hlead hup,
      execTwinEgressSend_none hon hlead hup, fun l => execTwinEgressSend_short hon hlead hup⟩
  case probe =>
    intro tick ofs arr hon hlead hup
    exact ⟨fun o => execTwinProbe_paired hon hlead hup, execTwinProbe_first hon hlead hup⟩
  case egress =>
    intro r e o hon hlead hup hofs he hlane
    exact ⟨execTwinEgress_in_time hon hlead hup hofs he hlane, execTwinEgress_late hon hlead hup hofs he⟩
  case look =>
    intro hlook
    have again : s.twinLook = s := State.twinLook_again hlook
    refine ⟨execTwinAligned_of_run again, execTwinAligned_of_short again, fun hstate hfar => ?_, fun l hstate hfar hmiss => ?_,
      execTwinLapsed_of_none hlook⟩
    · rw [show exec .twinLapsed s = _ from execTwinLapsed_of_cause hlook hstate (.inl hfar), if_pos hfar]
    · rw [show exec .twinLapsed s = _ from execTwinLapsed_of_cause hlook hstate (.inr (by simp [hmiss])), if_neg (Nat.not_le.mpr hfar)]

end Sys2Proof.Machine

/-! ### Requantisation and the identity filter image (R60, R62, R64, R65, R67, R68, R72, R151) -/

namespace Sys2Proof.Machine

/-! #### Convergent rounding -/

/-- Rounding goes up exactly when the remainder is over a half, or is a half and the quotient is odd. -/
theorem roundShift_succ (acc : Int) (j : Nat) : ∃ r : Int, 0 ≤ r ∧ r < 2 * 2 ^ j ∧
    acc = acc / 2 ^ (j + 1) * 2 ^ (j + 1) + r ∧ roundShift acc (j + 1) =
      if 2 ^ j < r ∨ (r = 2 ^ j ∧ acc / 2 ^ (j + 1) % 2 = 1) then acc / 2 ^ (j + 1) + 1 else acc / 2 ^ (j + 1) := by
  have hm : (0 : Int) < 2 ^ (j + 1) := by positivity
  refine ⟨acc % 2 ^ (j + 1), Int.emod_nonneg _ hm.ne', ?_, (Int.ediv_mul_add_emod _ _).symm, rfl⟩
  rw [← pow_succ']
  exact Int.emod_lt_of_pos _ hm

/-- The rounded value is at most a half away, and an exact half goes to the even integer (R64). -/
theorem roundShift_nearest_even (acc : Int) {k : Nat} (hk : 0 < k) :
    2 * (roundShift acc k * 2 ^ k - acc) ≤ 2 ^ k ∧ 2 * (acc - roundShift acc k * 2 ^ k) ≤ 2 ^ k ∧
    (2 * (roundShift acc k * 2 ^ k - acc) = 2 ^ k ∨ 2 * (acc - roundShift acc k * 2 ^ k) = 2 ^ k → roundShift acc k % 2 = 0) := by
  obtain ⟨j, rfl⟩ := Nat.exists_eq_add_of_lt hk
  rw [Nat.zero_add]
  obtain ⟨r, hr0, hr, hacc, hround⟩ := roundShift_succ acc j
  have hm : (2 : Int) ^ (j + 1) = 2 * 2 ^ j := pow_succ' 2 j
  rw [hround]
  generalize acc / 2 ^ (j + 1) = q at hacc ⊢
  split_ifs with hup
  · have hq : (q + 1) * 2 ^ (j + 1) = q * 2 ^ (j + 1) + 2 * 2 ^ j := by rw [add_mul, one_mul, hm]
    omega
  · omega

/-- A whole multiple rounds to itself. -/
@[simp] theorem roundShift_mul_two_pow (q : Int) (k : Nat) : roundShift (q * 2 ^ k) k = q := by
  have half : (0 : Int) < 2 ^ (k - 1) := by positivity
  have hm : (2 : Int) ^ k ≠ 0 := by positivity
  simp [roundShift, hm, half.not_gt, half.ne]

theorem requantise_eq (acc : Int) (k : Nat) : requantise acc k =
    (clampInt (-511) 511 (roundShift acc k), decide (511 < roundShift acc k ∨ roundShift acc k < -511)) := by
  unfold requantise clampInt
  generalize roundShift acc k = q
  dsimp only
  split_ifs <;> simp <;> omega

/-- A working sample in its range, scaled, requantises to itself with no mark. -/
theorem requantise_mul_two_pow {q : Int} (k : Nat) (hlo : -511 ≤ q) (hhi : q ≤ 511) : requantise (q * 2 ^ k) k = (q, false) := by
  rw [requantise_eq, roundShift_mul_two_pow, clampInt, if_neg hlo.not_gt, if_neg hhi.not_gt]
  simp [hlo, hhi]

/-! #### The limits of the shared operations -/

theorem dacCode_clamped_iff (acc : Int) (k : Nat) : (dacCode acc k).2 = true ↔ 127 < roundShift acc k ∨ roundShift acc k < -127 := by
  simp [dacCode]

theorem replaceSample_fst (a b : Int × Bool) : (replaceSample a b).1 = clampInt (-511) 511 (roundShift (a.1 + b.1) 1) := by
  simp [replaceSample, requantise_eq]

/-- A replacement carries the marks of both its sources (R62). -/
theorem replaceSample_marked {a b : Int × Bool} (h : a.2 = true ∨ b.2 = true) : (replaceSample a b).2 = true := by
  rcases h with h | h <;> simp [replaceSample, h]

theorem appliedDelay_clamped_iff (cal user : Nat) : (appliedDelay cal user).2 = true ↔ 16383 < cal + user := decide_eq_true_iff

theorem saturatedCode_iff (c : Int) : saturatedCode c = true ↔ c = -128 ∨ c = 127 := by simp [saturatedCode]

theorem clampInt_mem {lo hi : Int} (h : lo ≤ hi) (i : Int) : lo ≤ clampInt lo hi i ∧ clampInt lo hi i ≤ hi := by
  unfold clampInt; split_ifs <;> omega

/-! #### The identity image (R68) -/

theorem FirBank.taps_default {k : Nat} (hk : k < 128) : ({} : FirBank).taps.getD k 0 = if k % 64 = 32 then 0x400 else 0 := by
  simp [List.getD_eq_getElem?_getD, hk]

/-- 0x400 is 1.000 in Q1.10, and every other tap is 0. -/
theorem tapOf_taps_default {k : Nat} (hk : k < 64) :
    tapOf (({} : FirBank).taps.getD k 0) = if k = 32 then (2 ^ 10, 0) else (0, 0) := by
  rw [FirBank.taps_default (by omega), Nat.mod_eq_of_lt hk]
  split <;> decide

/-- A sum over positions with one non-zero term. -/
theorem sum_map_range_single {n i : Nat} (hi : i < n) (g : Nat → Int) :
    ((List.range n).map fun k => if k = i then g k else 0).sum = g i := by
  have h := Finset.sum_ite_eq' (Finset.range n) i g
  rwa [if_pos (Finset.mem_range.mpr hi)] at h

theorem map_getD_range {α : Type} (l : List α) (d : α) : ((List.range l.length).map fun k => l.getD k d) = l := by
  refine List.ext_getElem (by simp) fun k _ hk => ?_
  simp [hk]

/-- A filter with the one tap 1.000, at `i`, scales the sample there by 2^10 and requantises it. -/
theorem firOutput_single_tap {n i : Nat} (hi : i < n) (x : Nat → Int × Int) :
    firOutput ((List.range n).map fun k => if k = i then (2 ^ 10, 0) else (0, 0)) ((List.range n).map x) =
      (requantise ((x i).1 * 2 ^ 10) 10, requantise ((x i).2 * 2 ^ 10) 10) := by
  have hre := sum_map_range_single hi fun k => (x k).1 * 2 ^ 10
  have him := sum_map_range_single hi fun k => (x k).2 * 2 ^ 10
  unfold firOutput
  rw [List.zip_map', ← hre, ← him]
  simp only [List.map_map]
  congr 4 <;>
  · funext k
    dsimp only [Function.comp_apply]
    split <;> ring

/-- The identity image passes the sample at its main tap, which is in range, without a clamp. -/
theorem firOutput_identity {samples : List (Int × Int)} (hlen : samples.length = 64)
    (hv : ∀ v ∈ samples, -511 ≤ v.1 ∧ v.1 ≤ 511 ∧ -511 ≤ v.2 ∧ v.2 ≤ 511) :
    firOutput ((List.range 64).map fun k => tapOf (({} : FirBank).taps.getD k 0)) samples =
      (((samples.getD 32 (0, 0)).1, false), ((samples.getD 32 (0, 0)).2, false)) := by
  have htaps : ((List.range 64).map fun k => tapOf (({} : FirBank).taps.getD k 0)) =
      (List.range 64).map fun k => if k = 32 then (2 ^ 10, 0) else (0, 0) :=
    List.map_congr_left fun k hk => tapOf_taps_default (List.mem_range.mp hk)
  have hmain : samples.getD 32 (0, 0) ∈ samples := by
    rw [List.getD_eq_getElem _ _ (by omega)]
    exact List.getElem_mem _
  have hfir := firOutput_single_tap (show 32 < 64 by decide) fun k => samples.getD k (0, 0)
  rw [← hlen, map_getD_range, hlen] at hfir
  obtain ⟨hre_lo, hre_hi, him_lo, him_hi⟩ := hv _ hmain
  rw [htaps, hfir, requantise_mul_two_pow 10 hre_lo hre_hi, requantise_mul_two_pow 10 him_lo him_hi]

theorem getD_firMarkWindow (m n : Nat) {k : Nat} (hk : k < 16) : (firMarkWindow m n).getD k 0 = (n : Int) - m + 8 - k := by
  simp only [firMarkWindow, List.getD_eq_getElem?_getD, List.getElem?_map, List.getElem?_range hk, Option.map_some, Option.getD_some]
  omega

/-- Settles O8, from the rounding's nearest-even law, the clamps of each operation, and the one tap of the identity image. -/
theorem requantisation : Obligations.Requantisation := by
  refine ⟨⟨fun acc k hk => ?rounding, fun a b => ⟨replaceSample_fst a b, replaceSample_marked⟩,
    fun cal user => ⟨rfl, appliedDelay_clamped_iff cal user⟩, saturatedCode_iff, clampInt_mem (by decide)⟩,
    fun samples => firOutput_identity, fun m n k => getD_firMarkWindow m n⟩
  case rounding =>
    obtain ⟨above, below, even⟩ := roundShift_nearest_even acc hk
    exact ⟨above, below, even, by rw [requantise_eq], by simp [requantise_eq], rfl, dacCode_clamped_iff acc k⟩

/-! ### The reset state (R29, R68, R478, R635) -/

/-- No frond's acquisition state has a reset value but 0, IDLE. -/
theorem acqState_reset {f : Nat} (hf : f < 48) : State.reset.acqState f = 0 := by
  revert f; decide +kernel

/-- Settles O5: no register and no frond is listed in the reset state, so each reads as its default. -/
theorem resetValues : Obligations.ResetValues :=
  ⟨rfl, rfl, rfl, rfl, fun _ => rfl, fun _ => ⟨rfl, rfl, rfl, rfl, fun _ => FirBank.taps_default⟩, fun _ => acqState_reset, rfl⟩

end Sys2Proof.Machine

/-! ### Tables written twice -/

namespace Sys2Proof.Machine

section
variable {α : Type}

theorem Tab.insert_of_rising {lo k : Nat} {t : Tab α} (v : α) (h : k < lo) (r : Tab.rising lo t = true) :
    Tab.insert k v t = (k, v) :: t := by
  cases t with
  | nil => rfl
  | cons p t =>
    obtain ⟨j, w⟩ := p
    simp only [Tab.rising, Bool.and_eq_true, decide_eq_true_eq] at r
    exact if_pos (Nat.lt_of_lt_of_le h r.1)

theorem Tab.erase_of_rising {lo k : Nat} {t : Tab α} (h : k < lo) (r : Tab.rising lo t = true) : Tab.erase t k = t := by
  induction t generalizing lo with
  | nil => rfl
  | cons p t ih =>
    obtain ⟨j, w⟩ := p
    simp only [Tab.rising, Bool.and_eq_true, decide_eq_true_eq] at r
    obtain ⟨hj, ht⟩ := r
    rw [Tab.erase, if_neg (by omega), ih (by omega) ht]

theorem Tab.insert_insert (k : Nat) (v w : α) (t : Tab α) : Tab.insert k w (Tab.insert k v t) = Tab.insert k w t := by
  induction t with
  | nil => simp [Tab.insert]
  | cons p t ih =>
    obtain ⟨j, u⟩ := p
    rcases Nat.lt_trichotomy k j with h | rfl | h
    · simp [Tab.insert, h]
    · simp [Tab.insert]
    · simp [Tab.insert, h.not_gt, h.ne', ih]

/-- In a list whose keys rise, a key that is dropped and bound again stands where it stood. -/
theorem Tab.insert_erase {lo : Nat} {t : Tab α} (k : Nat) (w : α) (r : Tab.rising lo t = true) :
    Tab.insert k w (Tab.erase t k) = Tab.insert k w t := by
  induction t generalizing lo with
  | nil => rfl
  | cons p t ih =>
    obtain ⟨j, u⟩ := p
    simp only [Tab.rising, Bool.and_eq_true, decide_eq_true_eq] at r
    obtain ⟨-, ht⟩ := r
    rcases Nat.lt_trichotomy k j with h | rfl | h
    · rw [Tab.erase, if_neg h.ne, Tab.erase_of_rising (Nat.lt_succ_of_lt h) ht]
    · rw [Tab.erase, if_pos rfl, Tab.erase_of_rising k.lt_succ_self ht, Tab.insert_of_rising w k.lt_succ_self ht]
      simp [Tab.insert]
    · simp [Tab.insert, Tab.erase, h.not_gt, h.ne', ih ht]

theorem Tab.erase_erase (k : Nat) (t : Tab α) : Tab.erase (Tab.erase t k) k = Tab.erase t k := by
  induction t with
  | nil => rfl
  | cons p t ih =>
    obtain ⟨j, u⟩ := p
    by_cases h : k = j
    · simp only [Tab.erase, if_pos h, ih]
    · simp [Tab.erase, h, ih]

theorem Tab.erase_insert {lo : Nat} {t : Tab α} (k : Nat) (v : α) (r : Tab.rising lo t = true) :
    Tab.erase (Tab.insert k v t) k = Tab.erase t k := by
  induction t generalizing lo with
  | nil => simp [Tab.insert, Tab.erase]
  | cons p t ih =>
    obtain ⟨j, u⟩ := p
    simp only [Tab.rising, Bool.and_eq_true, decide_eq_true_eq] at r
    obtain ⟨-, ht⟩ := r
    rcases Nat.lt_trichotomy k j with h | rfl | h
    · simp [Tab.insert, Tab.erase, h]
    · simp [Tab.insert, Tab.erase]
    · simp [Tab.insert, Tab.erase, h.not_gt, h.ne', ih ht]

/-- In the canonical form the last of two writes to a key is all that is left of them. -/
theorem Tab.set_set [DecidableEq α] {d : Nat → α} {t : Tab α} (k : Nat) (v w : α) (h : Tab.wf d t = true) :
    Tab.set d (Tab.set d t k v) k w = Tab.set d t k w := by
  have r : Tab.rising 0 t = true := (Bool.and_eq_true_iff.mp h).1
  unfold Tab.set
  split <;> split
  · exact Tab.erase_erase k t
  · exact Tab.erase_insert k v r
  · exact Tab.insert_erase k w r
  · exact Tab.insert_insert k v w t

end

/-- Two changes of a frond's record in a row are one change, where the table of fronds is canonical. -/
theorem State.modFrond_modFrond {s : State} (h : Tab.wf (fun _ => {}) s.fronds = true) (f : Nat) (g g' : Frond → Frond) :
    (s.modFrond f g).modFrond f g' = s.modFrond f fun y => g' (g y) := by
  rw [State.modFrond, State.frond_modFrond_same]
  exact congrArg (fun t => { s with fronds := t }) (Tab.set_set f _ _ h)

/-! ### What counting an event leaves alone (R581 to R589) -/

/-- What counting an event on the programmable counters of frond `f` leaves alone: the tick, what the frond holds of its acquisition, and
every register but FRD_PC_STAT and FRD_PC_ERBSTAT. -/
structure CountsOnly (f : Nat) (s t : State) : Prop where
  tick : t.tick = s.tick
  acq : (t.frond f).acq = (s.frond f).acq
  regs : RegsBut [(R.FRD_PC_STAT_OVF f).off, (R.FRD_PC_ERBSTAT_USED f).off] s t

namespace CountsOnly
variable {f : Nat} {s t u : State}

theorem refl (f : Nat) (s : State) : CountsOnly f s s := ⟨rfl, rfl, fun _ _ => rfl⟩

theorem trans (h : CountsOnly f s t) (h' : CountsOnly f t u) : CountsOnly f s u where
  tick := h'.tick.trans h.tick
  acq := h'.acq.trans h.acq
  regs o ho := (h'.regs o ho).trans (h.regs o ho)

theorem rd (h : CountsOnly f s t) {x : Fld} (hs : x.off ≠ (R.FRD_PC_STAT_OVF f).off) (he : x.off ≠ (R.FRD_PC_ERBSTAT_USED f).off) :
    t.rd x = s.rd x :=
  congrArg (bitsGet · x.lo x.w) (h.regs x.off (by simp [hs, he]))

theorem wr (h : CountsOnly f s t) (x : Fld) (v : Nat)
    (hx : x.off = (R.FRD_PC_STAT_OVF f).off ∨ x.off = (R.FRD_PC_ERBSTAT_USED f).off) : CountsOnly f s (t.wr x v) :=
  h.trans ⟨rfl, rfl, fun o ho => State.reg_wr_other t v fun he => ho (by rw [he]; simpa using hx)⟩

theorem modPc (h : CountsOnly f s t) (g : PcSt → PcSt) : CountsOnly f s (t.modPc f g) :=
  h.trans ⟨rfl, by rw [State.modPc, State.frond_modFrond_same], fun _ _ => rfl⟩

theorem raise (h : CountsOnly f s t) (code obj : Nat) (vals : List EVal) : CountsOnly f s (t.raise code obj vals) :=
  h.trans ⟨rfl, rfl, fun _ _ => rfl⟩

theorem exactRecord (h : CountsOnly f s t) (r : ExactRec) : CountsOnly f s (t.exactRecord f r) := by
  unfold State.exactRecord
  dsimp only
  split
  · exact (h.wr (R.FRD_PC_ERBSTAT_DROPPED f) _ (.inr rfl)).modPc _
  · split
    · exact ((h.modPc _).wr (R.FRD_PC_ERBSTAT_USED f) _ (.inr rfl)).raise _ _ _
    · exact (h.modPc _).wr (R.FRD_PC_ERBSTAT_USED f) _ (.inr rfl)

theorem pcOverflow (h : CountsOnly f s t) (j code cycle detail : Nat) : CountsOnly f s (t.pcOverflow f j code cycle detail) := by
  have counted := (h.wr (R.FRD_PC_STAT_OVF f) (t.rd (R.FRD_PC_STAT_OVF f) ||| 2 ^ j) (.inl rfl)).modPc fun y =>
    { y with ovf := y.ovf.set j ((y.ovf.getD j (0, 0)).1 + 1, 0) }
  unfold State.pcOverflow
  dsimp only
  split <;> split
  · exact ((counted.exactRecord _).modPc _).wr (R.FRD_PC_STAT_FROZEN f) _ (.inl rfl)
  · exact counted.exactRecord _
  · exact (counted.modPc _).wr (R.FRD_PC_STAT_FROZEN f) _ (.inl rfl)
  · exact counted

theorem pcRun (h : CountsOnly f s t) (j code n : Nat) (place : Nat → Nat × Nat) (fuel i : Nat) :
    CountsOnly f s (t.pcRun f j code n place fuel i) := by
  induction fuel generalizing t i with
  | zero => exact h
  | succ fuel ih =>
    unfold State.pcRun
    dsimp only
    split
    · exact h
    · split
      · exact h.modPc _
      · exact ih ((h.modPc _).pcOverflow _ _ _ _) _

theorem pcCount (h : CountsOnly f s t) (code n : Nat) (place : Nat → Nat × Nat) : CountsOnly f s (t.pcCount f code n place) := by
  unfold State.pcCount
  generalize List.range 8 = l
  induction l generalizing t with
  | nil => exact h
  | cons j l ih =>
    rw [List.foldl_cons]
    apply ih
    dsimp only
    split
    · exact h.pcRun _ _ _ _ _ _
    · exact h

theorem pcList (h : CountsOnly f s t) (code : Nat) (l : List Nat) : CountsOnly f s (t.pcList f code l) := h.pcCount _ _ _

theorem pcMany (h : CountsOnly f s t) (code n detail : Nat) : CountsOnly f s (t.pcMany f code n detail) := h.pcCount _ _ _

theorem wholeUnits (h : CountsOnly f s t) (num den : Nat) : CountsOnly f s (t.wholeUnits num den).2 := by
  unfold State.wholeUnits
  split
  · exact h
  · exact h.trans ⟨rfl, rfl, fun _ _ => rfl⟩

/-- Counting an event leaves FRD_ACQ_STAT alone. -/
theorem acqStat (h : CountsOnly f s t) (x : Fld) (hx : x.off = (R.FRD_ACQ_STAT_STATE f).off) : t.rd x = s.rd x :=
  h.rd (by rw [hx]; simp [R.FRD_ACQ_STAT_STATE, R.FRD_PC_STAT_OVF]) (by rw [hx]; simp [R.FRD_ACQ_STAT_STATE, R.FRD_PC_ERBSTAT_USED])

end CountsOnly

/-! ### Acquisition, gain control and floods (R82 to R95, Tables ACQ-4, ACQ-5): one equation per outcome -/

theorem gainStep_of_saturated {target : Int} {rms : List Int} {sat total : Nat} (h : total < 100 * sat) :
    gainStep target rms sat total = -4 :=
  if_pos h

/-- Four codes down from a gain code. -/
theorem clampInt_gain_sub_four {g : Nat} (h : g ≤ 31) : (clampInt 0 31 ((g : Int) + -4)).toNat = g - 4 := by
  unfold clampInt
  split_ifs <;> omega

section
variable {s : State} {f : Fin 48}

theorem execFastGainStep_saturated (rms : List Int) {sat total : Nat} (hst : s.acqState f.val = 1 ∨ s.acqState f.val = 2)
    (hsat : total < 100 * sat) (hg : (s.frond f.val).rx.gain ≤ 31) :
    exec (.fastGainStep f rms sat total) s = .next (s.modFrond f.val fun y => { y with
      rx := { y.rx with gain := (s.frond f.val).rx.gain - 4 } }) := by
  show execFastGainStep f rms sat total s = _
  simp only [execFastGainStep, hst, if_true, gainStep_of_saturated hsat, State.modFrond, clampInt_gain_sub_four hg]

/-- R88: after 160 ticks too weak, a trim of one code up waits, or is refused at the upper limit. The trim's record is written after the
run's, so the two writes are one only where the table of fronds is canonical. -/
theorem execGainTrim_160th_weak {rms : Int} {n : Nat} (hf : Tab.wf (fun _ => {}) s.fronds = true) (hst : s.acqState f.val = 5)
    (hen : s.flag (R.FRD_ACQ_CTL_TRIM_EN f.val) = true) (hrms : rms + 300 < s.agcTarget f.val) (hn : 159 ≤ n) (ht : 0 < s.tick)
    (hrun : (s.frond f.val).acq.trimRun = ⟨n, s.tick - 1⟩) :
    exec (.gainTrim f rms false) s = .next (if (s.frond f.val).rx.gain = 31
      then (s.modFrond f.val fun y => { y with acq := { y.acq with trimRun := {} } }).raise 0x0207 f.val [.w 31]
      else s.modFrond f.val fun y => { y with acq := { y.acq with trimRun := {}, trimStep := 1, trimTick := s.tick } }) := by
  have hstep : (s.frond f.val).acq.trimRun.step s.tick true = ⟨n + 1, s.tick⟩ := by
    rw [hrun]
    exact Run.step_next (show 0 < n by omega) (show s.tick - 1 + 1 = s.tick by omega)
  have hweak : 300 < s.agcTarget f.val - rms := by omega
  have hup : 0 < s.agcTarget f.val - rms := by omega
  show execGainTrim f rms false s = _
  unfold execGainTrim
  simp only [hst, hen, hweak, hup, hstep, decide_true, Bool.true_or, Bool.not_false, Bool.and_self, if_true,
    show 160 ≤ n + 1 by omega, zero_lt_one, true_and, show ¬ (1 : Int) < 0 by decide, false_and, or_false]
  split
  case isTrue hg => rw [hg]
  case isFalse => rw [State.modFrond_modFrond hf]; rfl

theorem execFiddleheadDetection_warm {metric : List Nat} (p : Nat) (freq fine : Int) (predicted : Bool) (w : Int)
    (hst : s.acqState f.val = 2) (hd : detection (s.detTh f.val) metric = true) :
    exec (.fiddleheadDetection f metric p freq fine predicted (some w)) s = .next ((s.modFrond f.val fun y => { y with
      rx := { y.rx with rot := derotatorWord (derotatorWord
        (clampInt ((s.frond f.val).rx.rot - 25565281) ((s.frond f.val).rx.rot + 25565281) w) + freq) }
      acq := { y.acq with coarse := p + 126, phase := fine } }).setAcq f.val 3) := by
  show execFiddleheadDetection f metric p freq fine predicted (some w) s = _
  simp [execFiddleheadDetection, hst, hd, coarseTiming]

theorem execFiddleheadDetection_displaced {metric : List Nat} (p : Nat) (freq : Int) {fine : Int} (edge : Option Int)
    (hst : s.acqState f.val = 5) (hd : detection (s.detTh f.val) metric = true) (hfine : 512 < fine) :
    exec (.fiddleheadDetection f metric p freq fine false edge) s = .next (s.loseAcq f.val 3) := by
  show execFiddleheadDetection f metric p freq fine false edge s = _
  simp [execFiddleheadDetection, hst, hd, hfine]

theorem execWarmFallback_sixteenth {power : Int} (hst : s.acqState f.val = 2) (hp : -2000 < power)
    (hper : (s.frond f.val).acq.periods = 15) :
    exec (.warmFallback f power) s = .next (((s.modFrond f.val fun y => { y with acq := { y.acq with periods := 16 } }).raise
      0x0204 f.val).enterCold f.val) := by
  show execWarmFallback f power s = _
  simp [execWarmFallback, hst, hp, hper, State.warmToCold]

theorem execAcqTimeout_due (hst : s.acqState f.val = 1) (ht : (s.frond f.val).acq.coldTick + 32000 ≤ s.tick) :
    exec (.acqTimeout f) s = .next (((s.dropRetained f.val).raise 0x0203 f.val).enterCold f.val) := by
  show execAcqTimeout f s = _
  simp [execAcqTimeout, hst, ht]

theorem execAcqRestart_acquired (hen : s.frondEnabled f.val = true) (hst : s.acqState f.val = 5) :
    exec (.acqRestart f) s = .next (((s.leaveAcquired f.val 4).stampRule f.val).enterCold f.val) := by
  show execAcqRestart f s = _
  simp [execAcqRestart, State.restartAcq, hen, hst]

theorem execAcqRestart_idle (hst : s.acqState f.val = 0) : exec (.acqRestart f) s = .next s := by
  show execAcqRestart f s = _
  simp [execAcqRestart, State.restartAcq, hst]

theorem execSuperframeArrival_idle (o : ArrivalObs) (hst : s.acqState f.val = 0) :
    exec (.superframeArrival f o) s = .next s := by
  show execSuperframeArrival f o s = _
  simp [execSuperframeArrival, hst]

end

/-- R85: a Fiddlehead at its predicted position steps nothing. -/
theorem State.timingStep_zero (s : State) (f : Nat) (verified : Bool) : s.timingStep f verified 0 = s :=
  if_neg (by simp)

/-- R36: a filtered position within the guard band takes the next stamp. -/
theorem stampOf_in_band {pos : Int} (last : Nat) (lo : -240 < pos) (hi : pos < 9840) : stampOf last pos = (last + 1, none) := by
  rw [stampOf, if_neg (by omega), if_neg (by omega)]

theorem execSuperframeArrival_verified {s : State} {f : Fin 48} {o : ArrivalObs} (hst : s.acqState f.val = 5) (hfit : o.fit = none)
    (hhdr : HeaderWord.ofWord o.header = none) (hpeak : 256 ≤ o.peak) (hfine : o.fine = 0) (hmarks : o.marks ≤ 64)
    (lo : -240 < o.pos) (hi : o.pos < 9840) :
    exec (.superframeArrival f o) s = .next (
      let u := ((((s.trackStep f.val).cdFit f.val none).applyTrim f.val).modFrond f.val fun y => { y with
        acq := { y.acq with unverified := 0 } })
      let stamp := (u.frond f.val).acq.lastStamp + 1
      ((u.rxTable f.val stamp none).1.carrierUpdate f.val o).deliver f.val stamp none (u.rxTable f.val stamp none).2) := by
  have hver : fiddleheadVerified o.peak 0 o.marks = true := by simp [fiddleheadVerified, hpeak, hmarks]
  show execSuperframeArrival f o s = _
  simp [execSuperframeArrival, State.arriveAcquired, State.timingStep_zero, stampOf_in_band _ lo hi, hst, hhdr, hfit, hfine, hver]

/-! ### Flooded ticks (R93, R95) -/

/-- The first writes of a flooded tick in ACQUIRED: its place in the run of flooded ticks, the trim cancelled. -/
def State.floodStep (s : State) (f : Nat) : State :=
  (s.modFrond f fun x => { x with
    acq := { x.acq with floodRun := (s.frond f).acq.floodRun + 1, floodTick := s.tick, trimStep := 0, trimRun := {} }
    eq := { x.eq with windowBad := true } }).wr (R.FRD_ACQ_STAT_FLOOD_RUN f) (min 3 ((s.frond f).acq.floodRun + 1))

/-- What a flooded tick reports: its count, and ACQ_FLOOD for the first of a run. -/
def State.floodReport (s : State) (f n marked total : Nat) : State :=
  let (v, s) := s.wholeUnits (1024 * marked) total
  let s := s.pcMany f 0x13 1 v
  if n = 1 then s.raise 0x0205 f [.w v] else s

theorem CountsOnly.floodReport (s : State) (f n marked total : Nat) : CountsOnly f s (s.floodReport f n marked total) := by
  have counted := ((CountsOnly.refl f s).wholeUnits (1024 * marked) total).pcMany 0x13 1 (s.wholeUnits (1024 * marked) total).1
  unfold State.floodReport
  dsimp only
  split
  · exact counted.raise _ _ _
  · exact counted

theorem State.acqState_pcList (s : State) (f code : Nat) (l : List Nat) : (s.pcList f code l).acqState f = s.acqState f :=
  ((CountsOnly.refl f s).pcList code l).acqStat _ rfl

theorem State.tick_floodStep (s : State) (f : Nat) : (s.floodStep f).tick = s.tick := by
  rw [State.floodStep, State.wr_tick, State.modFrond_tick]

theorem State.floodRun_floodStep (s : State) (f : Nat) : ((s.floodStep f).frond f).acq.floodRun = (s.frond f).acq.floodRun + 1 := by
  rw [State.floodStep, State.wr_frond, State.frond_modFrond_same]

theorem State.rd_floodRun_floodStep (s : State) (f : Nat) :
    (s.floodStep f).rd (R.FRD_ACQ_STAT_FLOOD_RUN f) = min 3 ((s.frond f).acq.floodRun + 1) := by
  rw [State.floodStep, State.rd_wr_same _ _ (show 16 + 2 ≤ 32 by decide)]
  exact Nat.mod_eq_of_lt (show min 3 ((s.frond f).acq.floodRun + 1) < 2 ^ 2 by omega)

theorem State.acqState_floodStep (s : State) (f : Nat) : (s.floodStep f).acqState f = s.acqState f :=
  State.rd_wr_beside _ _ (show 16 + 2 ≤ 32 by decide) (.inl (show 0 + 3 ≤ 16 by decide))

section
variable {s : State} {f : Fin 48} {marks : List Nat} {total : Nat}

theorem execFloodedTick_not_acquired (total : Nat) (hst : s.acqState f.val ≠ 5) :
    exec (.floodedTick f marks total) s = .next (s.pcList f.val 0x11 marks) := by
  show execFloodedTick f marks total s = _
  simp only [execFloodedTick, State.acqState_pcList, hst, if_false]

theorem execFloodedTick_not_flooded (hst : s.acqState f.val = 5) (hm : 16 * marks.length ≤ total) :
    exec (.floodedTick f marks total) s = .next (((s.pcList f.val 0x11 marks).modFrond f.val fun y => { y with
      acq := { y.acq with floodRun := 0 } }).wr (R.FRD_ACQ_STAT_FLOOD_RUN f.val) 0) := by
  show execFloodedTick f marks total s = _
  simp only [execFloodedTick, State.acqState_pcList, hst, hm.not_gt, if_true, if_false]

/-- R95: a flooded tick in ACQUIRED lengthens the run of flooded ticks to `n`, and the third loses acquisition. -/
theorem execFloodedTick_flooded {n : Nat} (hst : s.acqState f.val = 5) (hm : total < 16 * marks.length)
    (hn : (s.frond f.val).acq.floodRun + 1 = n) :
    exec (.floodedTick f marks total) s = .next (
      let u := ((s.pcList f.val 0x11 marks).floodStep f.val).floodReport f.val n marks.length total
      if 3 ≤ n then u.loseAcq f.val 1 else u) := by
  have hn' : ((s.pcList f.val 0x11 marks).frond f.val).acq.floodRun + 1 = n := by
    rw [((CountsOnly.refl f.val s).pcList 0x11 marks).acq, hn]
  show execFloodedTick f marks total s = _
  simp only [execFloodedTick, State.acqState_pcList, State.floodStep, State.floodReport, hst, hm, hn', if_true]

theorem execFloodedTick_third (hst : s.acqState f.val = 5) (hm : total < 16 * marks.length)
    (hn : (s.frond f.val).acq.floodRun = 2) :
    ∃ u : State, exec (.floodedTick f marks total) s = .next (u.loseAcq f.val 1) ∧ u.tick = s.tick ∧ u.acqState f.val = 5 ∧
      (u.frond f.val).acq.floodRun = 3 ∧ u.rd (R.FRD_ACQ_STAT_FLOOD_RUN f.val) = 3 := by
  have listed := (CountsOnly.refl f.val s).pcList 0x11 marks
  have reported := CountsOnly.floodReport ((s.pcList f.val 0x11 marks).floodStep f.val) f.val 3 marks.length total
  have hexec := execFloodedTick_flooded (n := 3) hst hm (by rw [hn])
  refine ⟨_, hexec.trans (congrArg _ (if_pos (Nat.le_refl 3))), ?_, ?_, ?_, ?_⟩
  · rw [reported.tick, State.tick_floodStep, listed.tick]
  · rw [State.acqState, reported.acqStat (R.FRD_ACQ_STAT_STATE f.val) rfl, ← State.acqState, State.acqState_floodStep,
      State.acqState_pcList, hst]
  · rw [reported.acq, State.floodRun_floodStep, listed.acq, hn]
  · rw [reported.acqStat (R.FRD_ACQ_STAT_FLOOD_RUN f.val) rfl, State.rd_floodRun_floodStep, listed.acq, hn]
    decide

end

/-! ### The statement at a table that is not canonical -/

/-- Frond 47 in ACQUIRED at the 160th tick of a signal too weak, in a table of fronds that lists 47 twice. Reads see the first entry
only. -/
def doublyListed : State :=
  { State.reset.wr (R.FRD_ACQ_STAT_STATE 47) 5 with
    tick := 32000, fronds := [(47, { acq := { trimRun := ⟨159, 31999⟩ } }), (47, {})] }

/-- How many entries the table of fronds has in the next state. -/
def frondEntries : Host.Outcome State Fault Refusal → Nat
  | .next t => t.fronds.length
  | .fault _ | .refused _ => 0

/-- The model's first write puts the record back to its default, which takes every entry of the frond out; its second lists the frond
once again. -/
theorem frondEntries_gainTrim_doublyListed : frondEntries (exec (.gainTrim 47 0 false) doublyListed) = 1 := by decide +kernel

/-- Refutes O16: it asks of every state, and its gain trim is one write where the model's is two. On a table of fronds that lists a frond
twice they leave different lists: the one write leaves the second entry, which no read sees, in place. Where the table is canonical the
clause holds (`execGainTrim_160th_weak`), and the equations above give the other clauses of every state. -/
theorem not_acquisitionCommands : ¬ Obligations.AcquisitionCommands := by
  intro h
  obtain ⟨-, trim, -⟩ := h doublyListed 47 _ (by decide) rfl
  have hexec := trim 0 159 (by decide +kernel) (by decide +kernel) (by decide +kernel) (by decide) (by decide) (by decide +kernel)
  have hlen : 1 = 2 := calc
    1 = frondEntries (exec (.gainTrim 47 0 false) doublyListed) := frondEntries_gainTrim_doublyListed.symm
    _ = frondEntries _ := congrArg frondEntries hexec
    _ = 2 := by decide +kernel
  exact absurd hlen (by decide)

end Sys2Proof.Machine

/-! ### The applied dispersion (R100) -/

namespace Sys2Proof.Machine

section
variable {s : State} {f : Nat} {c d : Int}

/-- Puts `c` in force as the dispersion of frond `f`, with LIMIT beside it: what applying a value writes before it reports. -/
def State.putD (s : State) (f : Nat) (c : Int) : State :=
  (s.modFrond f fun x => { x with eq := { x.eq with d := c } }).wrB (R.FRD_EQ_CD_STAT_LIMIT f)
    (decide (c = 200000 ∨ c = -200000))

/-- A one-bit field that is written reads as the truth value written. -/
theorem State.flag_wrB_same (s : State) {x : Fld} (b : Bool) (h : x.lo + x.w ≤ 32) (hw : 0 < x.w) : (s.wrB x b).flag x = b := by
  have hbit : 1 < 2 ^ x.w := Nat.one_lt_two_pow hw.ne'
  unfold State.flag State.wrB
  rw [State.rd_wr_same _ _ h]
  cases b <;> simp [Nat.mod_eq_of_lt hbit]

theorem State.putD_eq (s : State) (f : Nat) (c : Int) : ((s.putD f c).frond f).eq = { (s.frond f).eq with d := c } := by
  rw [State.putD, State.wrB_frond, State.frond_modFrond_same]

theorem State.putD_frondsBut (s : State) (f : Nat) (c : Int) : FrondsBut f s (s.putD f c) := fun g hg => by
  rw [State.putD, State.wrB_frond, State.frond_modFrond_other _ _ hg]

theorem State.putD_regsBut (s : State) (f : Nat) (c : Int) : RegsBut [(R.FRD_EQ_CD_STAT_LIMIT f).off] s (s.putD f c) :=
  State.wr_regsBut _ _ _

theorem State.putD_flag (s : State) (f : Nat) (c : Int) :
    (s.putD f c).flag (R.FRD_EQ_CD_STAT_LIMIT f) = decide (c = 200000 ∨ c = -200000) :=
  State.flag_wrB_same _ _ (show 31 + 1 ≤ 32 by decide) (show 0 < 1 by decide)

@[simp] theorem State.putD_host (s : State) (f : Nat) (c : Int) : (s.putD f c).host = s.host := by
  rw [State.putD, State.wrB_host, State.modFrond_host]
@[simp] theorem State.putD_tick (s : State) (f : Nat) (c : Int) : (s.putD f c).tick = s.tick := by
  rw [State.putD, State.wrB_tick, State.modFrond_tick]

/-- A value that is no limit, or the limit in force with LIMIT already set, is applied in silence. -/
theorem State.setD_quiet (hc : clampInt (-200000) 200000 d = c)
    (hold : c = 200000 ∨ c = -200000 → (s.frond f).eq.d = c ∧ s.flag (R.FRD_EQ_CD_STAT_LIMIT f) = true) :
    s.setD f d = s.putD f c := by
  unfold State.setD State.putD
  simp only [hc]
  refine if_neg fun entered => ?_
  have hlim : c = 200000 ∨ c = -200000 := of_decide_eq_true (Bool.and_eq_true_iff.mp entered).1
  obtain ⟨hd, hflag⟩ := hold hlim
  simp [hd, hflag] at entered

/-- The entry into a limit raises CD_LIMIT. -/
theorem State.setD_entering (hc : clampInt (-200000) 200000 d = c) (hlim : c = 200000 ∨ c = -200000)
    (hnew : (s.frond f).eq.d ≠ c ∨ s.flag (R.FRD_EQ_CD_STAT_LIMIT f) = false) :
    s.setD f d = (s.putD f c).raise 0x0302 f [EVal.s c] := by
  have entered : ¬ (c = (s.frond f).eq.d ∧ s.flag (R.FRD_EQ_CD_STAT_LIMIT f) = true) := by
    rintro ⟨hd, hflag⟩
    rcases hnew with h | h
    · exact h hd.symm
    · simp [hflag] at h
  unfold State.setD State.putD
  simp only [hc]
  exact if_pos (by simp only [hlim, entered, decide_true, decide_false, Bool.not_false, Bool.and_self])

/-- All that applying a value can do: put the clamped value in force, and report it. -/
theorem State.setD_cases (hc : clampInt (-200000) 200000 d = c) :
    s.setD f d = s.putD f c ∨ s.setD f d = (s.putD f c).raise 0x0302 f [EVal.s c] := by
  by_cases hold : c = 200000 ∨ c = -200000 → (s.frond f).eq.d = c ∧ s.flag (R.FRD_EQ_CD_STAT_LIMIT f) = true
  · exact .inl (State.setD_quiet hc hold)
  · obtain ⟨hlim, hnew⟩ := Classical.not_imp.mp hold
    exact .inr (State.setD_entering hc hlim (by simpa [or_iff_not_imp_left] using hnew))

theorem State.setD_eq (hc : clampInt (-200000) 200000 d = c) : ((s.setD f d).frond f).eq = { (s.frond f).eq with d := c } := by
  rcases State.setD_cases (s := s) (f := f) hc with h | h
  · rw [h, State.putD_eq]
  · rw [h, State.raise_frond, State.putD_eq]

theorem State.setD_frondsBut (hc : clampInt (-200000) 200000 d = c) : FrondsBut f s (s.setD f d) := fun g hg => by
  rcases State.setD_cases (s := s) (f := f) hc with h | h
  · rw [h, s.putD_frondsBut f c g hg]
  · rw [h, State.raise_frond, s.putD_frondsBut f c g hg]

theorem State.setD_regsBut (hc : clampInt (-200000) 200000 d = c) :
    RegsBut [(R.FRD_EQ_CD_STAT_LIMIT f).off] s (s.setD f d) := fun o ho => by
  rcases State.setD_cases (s := s) (f := f) hc with h | h
  · rw [h, s.putD_regsBut f c o ho]
  · rw [h, State.raise_reg, s.putD_regsBut f c o ho]

theorem State.setD_flag (hc : clampInt (-200000) 200000 d = c) :
    (s.setD f d).flag (R.FRD_EQ_CD_STAT_LIMIT f) = decide (c = 200000 ∨ c = -200000) := by
  rcases State.setD_cases (s := s) (f := f) hc with h | h
  · rw [h, State.putD_flag]
  · rw [h, State.raise_flag, State.putD_flag]

theorem State.setD_host_quiet (hc : clampInt (-200000) 200000 d = c)
    (hold : c = 200000 ∨ c = -200000 → (s.frond f).eq.d = c ∧ s.flag (R.FRD_EQ_CD_STAT_LIMIT f) = true) :
    (s.setD f d).host = s.host := by
  rw [State.setD_quiet hc hold, State.putD_host]

theorem State.setD_host_entering (hc : clampInt (-200000) 200000 d = c) (hlim : c = 200000 ∨ c = -200000)
    (hnew : (s.frond f).eq.d ≠ c ∨ s.flag (R.FRD_EQ_CD_STAT_LIMIT f) = false) :
    (s.setD f d).host = { s.host with events := s.host.events ++ [eventOf s 0x0302 f [EVal.s c]] } := by
  rw [State.setD_entering hc hlim hnew, State.raise_host, State.putD_host, State.putD_tick, eventOf]

end

/-- Settles O15: the value, LIMIT and the frame are the same whether CD_LIMIT is raised or not, and the event follows the cases of
entry. -/
theorem dispersionLimit : Obligations.DispersionLimit := by
  intro s f d c hc
  have hclamp : clampInt (-200000) 200000 d = c := hc.symm
  exact ⟨State.setD_eq hclamp, State.setD_frondsBut hclamp, State.setD_regsBut hclamp, State.setD_flag hclamp,
    fun hhi hlo => State.setD_host_quiet hclamp fun hlim => (hlim.elim hhi hlo).elim,
    fun hlim => ⟨fun hd hflag => State.setD_host_quiet hclamp fun _ => ⟨hd, hflag⟩, State.setD_host_entering hclamp hlim⟩⟩

end Sys2Proof.Machine


/-! ### The equaliser's commands (R105 to R108, R112, R118, R120 to R123) -/

namespace Sys2Proof.Machine

/-! #### Fields beside a write, and signed fields -/

/-- Two fields that share no bit. -/
def Fld.Apart (x y : Fld) : Prop := x.off ≠ y.off ∨ x.lo + x.w ≤ y.lo ∨ y.lo + y.w ≤ x.lo

theorem Fld.Apart.symm {x y : Fld} (h : x.Apart y) : y.Apart x := h.imp Ne.symm Or.symm

theorem State.rd_wr_apart (s : State) {x y : Fld} (v : Nat) (hx : x.lo + x.w ≤ 32) (h : y.Apart x) : (s.wr x v).rd y = s.rd y := by
  rcases h with h | h
  · exact State.rd_wr_off s v h
  · exact State.rd_wr_beside s v hx h

/-- A value that fits a signed width is the code that stands for it, or lies one full range below it. -/
theorem ofSigned_eq {w : Nat} {i : Int} (lo : -2 ^ w ≤ i) (hi : i < 2 ^ w) :
    ((ofSigned (w + 1) i : Nat) : Int) = if 0 ≤ i then i else i + 2 * 2 ^ w := by
  have hw : ((2 ^ (w + 1) : Nat) : Int) = 2 * 2 ^ w := by push_cast; exact pow_succ' 2 w
  have hpos : (0 : Int) < 2 ^ w := by positivity
  rw [ofSigned, hw, Int.toNat_of_nonneg (Int.emod_nonneg _ (by omega))]
  split
  · exact Int.emod_eq_of_lt ‹_› (by omega)
  · rw [← Int.add_emod_right, Int.emod_eq_of_lt (by omega) (by omega)]

/-- A signed value that fits its width reads back. -/
theorem toSigned_ofSigned {w : Nat} {i : Int} (lo : -2 ^ w ≤ i) (hi : i < 2 ^ w) : toSigned (w + 1) (ofSigned (w + 1) i) = i := by
  have hcode := ofSigned_eq lo hi
  have hw : (2 : Nat) ^ (w + 1) = 2 * 2 ^ w := pow_succ' 2 w
  have hcast : ((2 ^ w : Nat) : Int) = 2 ^ w := by push_cast; rfl
  have hlt : ofSigned (w + 1) i < 2 * 2 ^ w := by split at hcode <;> omega
  unfold toSigned
  dsimp only
  rw [hw, Nat.mod_eq_of_lt hlt, Nat.add_sub_cancel]
  split at hcode <;> split <;> push_cast <;> omega

theorem State.rdS_wrS_same (s : State) {x : Fld} {w : Nat} {i : Int} (hx : x.lo + x.w ≤ 32) (hw : x.w = w + 1) (lo : -2 ^ w ≤ i)
    (hi : i < 2 ^ w) : (s.wrS x i).rdS x = i := by
  have hmod : ofSigned x.w i % 2 ^ x.w = ofSigned x.w i :=
    Nat.mod_eq_of_lt ((Int.toNat_lt (Int.emod_nonneg _ (by positivity))).mpr (Int.emod_lt_of_pos _ (by positivity)))
  rw [State.rdS, State.wrS, State.rd_wr_same s _ hx, hmod, hw, toSigned_ofSigned lo hi]

/-! #### Folds -/

/-- In a fold whose steps keep `Q`, what the step of `k` establishes and the other steps keep holds at the end. -/
theorem foldl_of_mem {σ ι : Type} {step : σ → ι → σ} {P Q : σ → Prop} {k : ι} (hQ : ∀ a j, Q a → Q (step a j))
    (hset : ∀ a, Q a → P (step a k)) (hkeep : ∀ a j, j ≠ k → P a → P (step a j)) {l : List ι} (hk : k ∈ l) {a : σ} (ha : Q a) :
    P (l.foldl step a) := by
  induction l using List.reverseRecOn with
  | nil => cases hk
  | append_singleton l j ih =>
    rw [List.foldl_append, List.foldl_cons, List.foldl_nil]
    by_cases hj : j = k
    · subst hj
      exact hset _ (List.foldlRecOn l step ha fun b hb j _ => hQ b j hb)
    · exact hkeep _ j hj (ih (by simpa [Ne.symm hj] using hk))

/-! #### Dispersion (R105 to R108) -/

section
variable {s : State} {f : Fin 48}

theorem State.cdMode_wr (s : State) {x : Fld} (v : Nat) {f : Nat} (h : (R.FRD_EQ_CTL_CD_MODE f).off ≠ x.off) :
    (s.wr x v).cdMode f = s.cdMode f := by
  unfold State.cdMode
  rw [State.rd_wr_off s v h]

theorem execCdSearchCandidateEnd_next {c : Int} {l : List Int} (hst : s.acqState f.val = 1) (hsearch : (s.frond f.val).eq.searching = true)
    (hdue : (s.frond f.val).eq.candTick + 1600 ≤ s.tick) (hrest : (s.frond f.val).eq.cands.drop 1 = c :: l) :
    exec (.cdSearchCandidateEnd f) s = .next ((s.setD f.val c).modFrond f.val fun y => { y with
      eq := { y.eq with cands := c :: l, candTick := s.tick, fitRun := 0 } }) := by
  show execCdSearchCandidateEnd f s = _
  simp only [execCdSearchCandidateEnd, hst, hsearch, hdue, hrest, decide_true, Bool.and_self, if_true, List.isEmpty_cons,
    Bool.false_eq_true, if_false, List.headD_cons, kept_tick (State.setD_kept s f.val c)]

theorem execPreconvergenceEnd_over {settled : Bool} (hst : s.acqState f.val = 1) (hpre : (s.frond f.val).eq.preconv = true)
    (hover : settled = true ∨ (s.frond f.val).eq.preTick + 6384 ≤ s.tick) :
    exec (.preconvergenceEnd f settled) s = .next (s.modFrond f.val fun y => { y with eq := { y.eq with preconv := false } }) := by
  have ends : (settled || decide ((s.frond f.val).eq.preTick + 6384 ≤ s.tick)) = true := by simpa using hover
  show execPreconvergenceEnd f settled s = _
  simp only [execPreconvergenceEnd, hst, hpre, ends, decide_true, Bool.and_self, if_true]

theorem clampInt_symm_pos {m r : Int} (hm : 0 ≤ m) (hr : 0 ≤ r) : clampInt (-m) m r = min r m := by
  unfold clampInt
  split_ifs <;> omega

theorem execCdTracking_up {r : Int} {dgd pdl : Nat} (hst : s.acqState f.val = 5) (hr : 50 < r) (hdgd : dgd < 4096) (hpdl : pdl < 256)
    (hgood : (s.frond f.val).eq.windowBad = false) (hmode : s.cdMode f.val ≠ 2) :
    exec (.cdTracking f r dgd pdl) s = .next ((((s.wr (R.FRD_EQ_PMD_DGD f.val) dgd).wr (R.FRD_EQ_PMD_PDL f.val) pdl).modFrond
      f.val fun y => { y with eq := { y.eq with windowBad := false } }).setD f.val ((s.frond f.val).eq.d + min r 200)) := by
  have dgdFits : min 4095 dgd = dgd := Nat.min_eq_right (by omega)
  have pdlFits : min 255 pdl = pdl := Nat.min_eq_right (by omega)
  have mode : (((s.wr (R.FRD_EQ_PMD_DGD f.val) dgd).wr (R.FRD_EQ_PMD_PDL f.val) pdl).modFrond
      f.val fun y => { y with eq := { y.eq with windowBad := false } }).cdMode f.val ≠ 2 := by
    rw [State.cdMode, State.modFrond_rd, ← State.cdMode, State.cdMode_wr _ _ (by simp [R.FRD_EQ_CTL_CD_MODE, R.FRD_EQ_PMD_PDL]),
      State.cdMode_wr _ _ (by simp [R.FRD_EQ_CTL_CD_MODE, R.FRD_EQ_PMD_DGD])]
    exact hmode
  show execCdTracking f r dgd pdl s = _
  simp only [execCdTracking, hst, dgdFits, pdlFits, mode, hgood, hr, State.wr_frond, if_true, ne_eq, not_false_eq_true, Bool.false_eq_true,
    true_or, and_self, clampInt_symm_pos (show (0 : Int) ≤ 200 by decide) (show 0 ≤ r by omega)]

theorem execCdHostRampStep_slope (hst : s.acqState f.val = 5) (hmode : s.cdMode f.val ≠ 2) :
    exec (.cdHostRampStep f) s = .next (s.modFrond f.val fun y => { y with eq := { y.eq with
      slope := y.eq.slope + clampInt (-20) 20 (s.rdS (R.FRD_EQ_SLOPE_SLOPE f.val) - (s.frond f.val).eq.slope) } }) := by
  show execCdHostRampStep f s = _
  unfold execCdHostRampStep
  rw [if_pos hst]
  exact congrArg _ (if_neg fun h => hmode h.1)

/-! #### Rotation rate and frequency offset (R112, R118) -/

theorem execSopRateEvaluation_slow {rate : Nat} (hen : s.frondEnabled f.val = true) (hauto : s.rd (R.FRD_EQ_CTL_TRACK f.val) ≠ 3)
    (hrate : rate ≤ 200) (hmode : s.rd (R.FRD_EQ_STAT_TRACK_ACT f.val) = 0) :
    exec (.sopRateEvaluation f rate) s = .next ((s.wr (R.FRD_EQ_STAT_SOP_RATE f.val) rate).modFrond f.val fun y => { y with
      eq := { y.eq with slowRun := ⟨0, s.tick⟩, sopRun := ⟨0, s.tick⟩, sopRaised := false } }) := by
  have fits : min 511 rate = rate := Nat.min_eq_right (by omega)
  have auto : (s.wr (R.FRD_EQ_STAT_SOP_RATE f.val) rate).rd (R.FRD_EQ_CTL_TRACK f.val) ≠ 3 := by
    rwa [State.rd_wr_off s rate (by simp [R.FRD_EQ_CTL_TRACK, R.FRD_EQ_STAT_SOP_RATE])]
  have mode : (s.wr (R.FRD_EQ_STAT_SOP_RATE f.val) rate).rd (R.FRD_EQ_STAT_TRACK_ACT f.val) = 0 := by
    rwa [State.rd_wr_beside s rate (show 0 + 9 ≤ 32 by decide) (.inr (show 0 + 9 ≤ 24 by decide))]
  show execSopRateEvaluation f rate s = _
  simp [execSopRateEvaluation, hen, fits, auto, mode, hrate.not_gt, Run.step, State.modFrond]

theorem execFofsRange_inside {v : Int} (hen : s.frondEnabled f.val = true) (hlo : -3600000 ≤ v) (hhi : v ≤ 3600000) :
    exec (.fofsRange f v) s = .next ((s.wrS (R.FRD_EQ_FOFS_FOFS f.val) v).modFrond f.val fun y => { y with
      eq := { y.eq with fofsRun := ⟨0, s.tick⟩, fofsRaised := false } }) := by
  show execFofsRange f v s = _
  simp [execFofsRange, hen, hlo.not_gt, hhi.not_gt, Run.step]

theorem execFofsRange_160th {v : Int} {n : Nat} (hen : s.frondEnabled f.val = true) (hv : 3600000 < v) (hn : 159 ≤ n) (ht : 0 < s.tick)
    (hrun : (s.frond f.val).eq.fofsRun = ⟨n, s.tick - 1⟩) (hraised : (s.frond f.val).eq.fofsRaised = false) :
    exec (.fofsRange f v) s = .next (((s.wrS (R.FRD_EQ_FOFS_FOFS f.val) v).modFrond f.val fun y => { y with
      eq := { y.eq with fofsRun := ⟨n + 1, s.tick⟩, fofsRaised := true } }).raise 0x0305 f.val [EVal.s v]) := by
  have step : Run.step ⟨n, s.tick - 1⟩ s.tick true = ⟨n + 1, s.tick⟩ :=
    Run.step_next (show 0 < n by omega) (Nat.sub_add_cancel ht)
  show execFofsRange f v s = _
  simp [execFofsRange, hen, hv, hrun, hraised, step, show 160 ≤ n + 1 by omega]

/-! #### The stamp and the discard (R122, R123) -/

theorem State.junction_wr (s : State) {x : Fld} (v : Nat) {f : Nat} (h : (R.MON_RES_VALUE f).off ≠ x.off) :
    (s.wr x v).junction f = s.junction f := by
  unfold State.junction State.rdS
  rw [State.rd_wr_off s v h]

theorem execEqStampRefresh_acquired (hst : s.acqState f.val = 5) :
    exec (.eqStampRefresh f) s = .next (((s.wr (R.FRD_EQ_GEN_SEC_LO_SEC_LO f.val) s.peat.esec).wr (R.FRD_EQ_GEN_SEC_HI_SEC_HI f.val)
      (s.peat.esec / 2 ^ 32)).wr (R.FRD_EQ_GEN_TEMP_TEMP f.val) (ofSigned 10 (s.junction f.val))) := by
  show execEqStampRefresh f s = _
  unfold execEqStampRefresh State.refreshStamp
  rw [if_pos hst]
  dsimp only
  rw [State.junction_wr _ _ (by simp [R.MON_RES_VALUE, R.FRD_EQ_GEN_SEC_HI_SEC_HI]; omega),
    State.junction_wr _ _ (by simp [R.MON_RES_VALUE, R.FRD_EQ_GEN_SEC_LO_SEC_LO]; omega)]

theorem execEqStateDiscard_enabled (hen : s.frondEnabled f.val = true) :
    exec (.eqStateDiscard f) s = .next ((s.modFrond f.val fun y => { y with eq := { y.eq with discard := true } }).wr
      (R.FRD_EQ_STAT_RETAINED f.val) 0) := by
  show execEqStateDiscard f s = _
  unfold execEqStateDiscard
  rw [if_pos hen]
  rfl

end

/-! #### The pilots' SNR (R120, R121) -/

/-- A search over `n` binary digits stays within them. -/
theorem searchMax_mem (test : Int → Bool) (n : Nat) (lo : Int) : lo ≤ searchMax test n lo ∧ searchMax test n lo < lo + 2 ^ n := by
  induction n generalizing lo with
  | zero => simp [searchMax]
  | succ n ih =>
    have hpow : (2 : Int) ^ (n + 1) = 2 * 2 ^ n := pow_succ' 2 n
    have hpos : (0 : Int) < 2 ^ n := by positivity
    have above := ih (lo + 2 ^ n)
    have below := ih lo
    unfold searchMax
    split <;> omega

/-- An SNR fits its field of 12 bits. -/
theorem snrOf_mem (a b : Nat) : -2 ^ 11 ≤ snrOf a b ∧ snrOf a b < 2 ^ 11 := by
  unfold snrOf
  split
  · decide
  · exact ⟨le_trans (by decide) (searchMax_mem _ _ _).1, lt_of_lt_of_le (searchMax_mem _ _ _).2 (by decide)⟩

/-- SCk has a half of one register: 12 bits of SNR and, apart from them, the bit VALID. -/
theorem snrFields_shape (f k : Nat) : (snrFields f k).1.w = 11 + 1 ∧ (snrFields f k).2.w = 1 ∧
    (snrFields f k).1.lo + (snrFields f k).1.w ≤ 32 ∧ (snrFields f k).2.lo + (snrFields f k).2.w ≤ 32 ∧
    (snrFields f k).1.Apart (snrFields f k).2 := by
  unfold snrFields
  split
  · exact ⟨rfl, rfl, show 16 + 12 ≤ 32 by decide, show 31 + 1 ≤ 32 by decide, .inr (.inl (show 16 + 12 ≤ 31 by decide))⟩
  · exact ⟨rfl, rfl, show 0 + 12 ≤ 32 by decide, show 15 + 1 ≤ 32 by decide, .inr (.inl (show 0 + 12 ≤ 15 by decide))⟩

theorem snrFields_apart (f : Nat) {j k : Nat} (h : j ≠ k) :
    (snrFields f j).1.Apart (snrFields f k).1 ∧ (snrFields f j).1.Apart (snrFields f k).2 ∧
    (snrFields f j).2.Apart (snrFields f k).1 ∧ (snrFields f j).2.Apart (snrFields f k).2 := by
  unfold snrFields
  split <;> split <;> simp [R.FRD_EQ_SNR_SNR_H, R.FRD_EQ_SNR_VALID_H, R.FRD_EQ_SNR_SNR_L, R.FRD_EQ_SNR_VALID_L, Fld.Apart] <;> omega

/-- What a measurement of SCk leaves alone: the other fronds, and every field apart from its own two. -/
structure SnrOnly (f k : Nat) (s t : State) : Prop where
  fronds : FrondsBut f s t
  rd : ∀ x : Fld, x.Apart (snrFields f k).1 → x.Apart (snrFields f k).2 → t.rd x = s.rd x

theorem snrFields_off (f k : Nat) : (snrFields f k).1.off = 0x100340 + 0x10000 * f + 0x4 * (k / 2) ∧
    (snrFields f k).2.off = 0x100340 + 0x10000 * f + 0x4 * (k / 2) := by
  unfold snrFields
  split <;> exact ⟨rfl, rfl⟩

/-- FRD_ACQ_STAT stands below the SNR registers of its frond. -/
theorem SnrOnly.acqState {f k : Nat} {s t : State} (h : SnrOnly f k s t) : t.acqState f = s.acqState f := by
  obtain ⟨hsnr, hvalid⟩ := snrFields_off f k
  have below : 0x100204 + 0x10000 * f < 0x100340 + 0x10000 * f + 0x4 * (k / 2) := by omega
  exact h.rd (R.FRD_ACQ_STAT_STATE f) (.inl (hsnr ▸ below.ne)) (.inl (hvalid ▸ below.ne))

theorem State.noSnr_eq (s : State) (f k : Nat) (zero : Bool) : s.noSnr f k zero =
    if zero then (s.wrB (snrFields f k).2 false).wr (snrFields f k).1 0 else s.wrB (snrFields f k).2 false := (rfl)

theorem State.noSnr_only (s : State) (f k : Nat) (zero : Bool) : SnrOnly f k s (s.noSnr f k zero) := by
  obtain ⟨-, -, hsnr, hvalid, -⟩ := snrFields_shape f k
  rw [State.noSnr_eq]
  split
  · exact ⟨fun _ _ => by rw [State.wr_frond, State.wrB_frond],
      fun x h h' => (State.rd_wr_apart _ _ hsnr h).trans (State.rd_wr_apart _ _ hvalid h')⟩
  · exact ⟨fun _ _ => by rw [State.wrB_frond], fun x _ h' => State.rd_wr_apart _ _ hvalid h'⟩

theorem State.rd_valid_noSnr (s : State) (f k : Nat) (zero : Bool) : (s.noSnr f k zero).rd (snrFields f k).2 = 0 := by
  obtain ⟨-, -, hsnr, hvalid, hapart⟩ := snrFields_shape f k
  have cleared : (s.wrB (snrFields f k).2 false).rd (snrFields f k).2 = 0 := (State.rd_wr_same s 0 hvalid).trans (Nat.zero_mod _)
  rw [State.noSnr_eq]
  split
  · rw [State.rd_wr_apart _ _ hsnr hapart.symm, cleared]
  · exact cleared

theorem State.rd_putSnr (s : State) (f k : Nat) (v : Int) (x : Fld) :
    (s.putSnr f k v).rd x = ((s.wrS (snrFields f k).1 v).wrB (snrFields f k).2 true).rd x :=
  State.modFrond_rd _ _ _ _

theorem State.putSnr_only (s : State) (f k : Nat) (v : Int) : SnrOnly f k s (s.putSnr f k v) := by
  obtain ⟨-, -, hsnr, hvalid, -⟩ := snrFields_shape f k
  refine ⟨fun g hg => ?_, fun x h h' => ?_⟩
  · exact (State.frond_modFrond_other _ _ hg).trans (by rw [State.wrB_frond, State.wrS_frond])
  · rw [State.rd_putSnr]
    exact (State.rd_wr_apart _ _ hvalid h').trans (State.rd_wr_apart _ _ hsnr h)

/-- A value that fits stands in the SNR field of SCk, marked VALID. -/
theorem State.putSnr_reads (s : State) (f k : Nat) {v : Int} (lo : -2 ^ 11 ≤ v) (hi : v < 2 ^ 11) :
    (s.putSnr f k v).rdS (snrFields f k).1 = v ∧ (s.putSnr f k v).flag (snrFields f k).2 = true := by
  obtain ⟨hwidth, hbit, hsnr, hvalid, hapart⟩ := snrFields_shape f k
  constructor
  · rw [State.rdS, State.rd_putSnr, State.wrB, State.rd_wr_apart _ _ hvalid hapart, ← State.rdS,
      State.rdS_wrS_same s hsnr hwidth lo hi]
  · rw [State.flag, State.rd_putSnr, ← State.flag, State.flag_wrB_same _ _ hvalid (by omega)]

/-- One sub-carrier of SNR_MEASUREMENT, with the sub-carriers lit at its start. -/
def State.snrStep (f : Nat) (lit : List Nat) (sums : List (Nat × Nat × Nat × Nat)) (s : State) (k : Nat) : State :=
  let (sig, err, marked, pilots) := sums.getD k (0, 0, 0, 0)
  if s.acqState f ≠ 5 ∨ ¬ lit.contains k then s.noSnr f k true
  else if pilots < 2 * marked then s.noSnr f k false
  else s.putSnr f k (snrOf sig err)

section
variable {s : State} {f : Fin 48} {sums : List (Nat × Nat × Nat × Nat)}

theorem State.snrStep_only (f : Nat) (lit : List Nat) (sums : List (Nat × Nat × Nat × Nat)) (s : State) (k : Nat) :
    SnrOnly f k s (s.snrStep f lit sums k) := by
  unfold State.snrStep
  dsimp only
  split
  · exact s.noSnr_only f k true
  · split
    · exact s.noSnr_only f k false
    · exact s.putSnr_only f k _

theorem State.rd_valid_snrStep_lost {f : Nat} (lit : List Nat) (k : Nat) (hst : s.acqState f ≠ 5) :
    (State.snrStep f lit sums s k).rd (snrFields f k).2 = 0 := by
  have lost : State.snrStep f lit sums s k = s.noSnr f k true := if_pos (.inl hst)
  rw [lost, State.rd_valid_noSnr]

theorem State.snrStep_measured {f sig err marked pilots k : Nat} {lit : List Nat} (hst : s.acqState f = 5)
    (hlit : lit.contains k = true) (hsums : sums.getD k (0, 0, 0, 0) = (sig, err, marked, pilots)) (hp : 2 * marked ≤ pilots) :
    State.snrStep f lit sums s k = s.putSnr f k (snrOf sig err) := by
  unfold State.snrStep
  simp only [hsums]
  rw [if_neg (by simp only [hst, hlit]; decide), if_neg hp.not_gt]

theorem execSnrMeasurement_empty (sums : List (Nat × Nat × Nat × Nat)) : exec (.snrMeasurement f true sums) s = .next s := by
  show execSnrMeasurement f true sums s = _
  rw [execSnrMeasurement, if_pos (Bool.or_true _)]

theorem execSnrMeasurement_fold (hen : s.frondEnabled f.val = true) (sums : List (Nat × Nat × Nat × Nat)) :
    exec (.snrMeasurement f false sums) s = .next ((List.range 32).foldl (State.snrStep f.val (s.rxLit f.val) sums) s) := by
  show execSnrMeasurement f false sums s = _
  rw [execSnrMeasurement, if_neg (by simp [hen])]
  rfl

/-- The steps of a measurement leave the other fronds alone. -/
theorem State.foldl_snrStep_frondsBut (f : Nat) (lit : List Nat) (sums : List (Nat × Nat × Nat × Nat)) (l : List Nat) (s : State) :
    FrondsBut f s (l.foldl (State.snrStep f lit sums) s) :=
  List.foldlRecOn l _ (fun _ _ => rfl) fun t ht k _ g hg =>
    ((State.snrStep_only f lit sums t k).fronds g hg).trans (ht g hg)

theorem State.rd_valid_foldl_snrStep_lost {f k : Nat} (lit : List Nat) {l : List Nat} (hk : k ∈ l) (hst : s.acqState f ≠ 5) :
    (l.foldl (State.snrStep f lit sums) s).rd (snrFields f k).2 = 0 := by
  refine foldl_of_mem (Q := fun t : State => t.acqState f ≠ 5) (P := fun t : State => t.rd (snrFields f k).2 = 0)
    (fun t j ht => ?state) (fun t ht => State.rd_valid_snrStep_lost lit k ht) (fun t j hj ht => ?kept) hk hst
  case state => rwa [(State.snrStep_only f lit sums t j).acqState]
  case kept =>
    obtain ⟨-, -, hsnr, hvalid⟩ := snrFields_apart f hj.symm
    rw [(State.snrStep_only f lit sums t j).rd _ hsnr hvalid, ht]

theorem State.reads_foldl_snrStep_measured {f k sig err marked pilots : Nat} {lit l : List Nat} (hk : k ∈ l) (hst : s.acqState f = 5)
    (hlit : lit.contains k = true) (hsums : sums.getD k (0, 0, 0, 0) = (sig, err, marked, pilots)) (hp : 2 * marked ≤ pilots) :
    (l.foldl (State.snrStep f lit sums) s).rdS (snrFields f k).1 = snrOf sig err ∧
    (l.foldl (State.snrStep f lit sums) s).flag (snrFields f k).2 = true := by
  refine foldl_of_mem (Q := fun t : State => t.acqState f = 5)
    (P := fun t : State => t.rdS (snrFields f k).1 = snrOf sig err ∧ t.flag (snrFields f k).2 = true)
    (fun t j ht => (State.snrStep_only f lit sums t j).acqState.trans ht) (fun t ht => ?measured) (fun t j hj ht => ?kept) hk hst
  case measured =>
    obtain ⟨lo, hi⟩ := snrOf_mem sig err
    rw [State.snrStep_measured ht hlit hsums hp]
    exact t.putSnr_reads f k lo hi
  case kept =>
    obtain ⟨hsnr, hsnr', hvalid, hvalid'⟩ := snrFields_apart f hj.symm
    have only := State.snrStep_only f lit sums t j
    rwa [State.rdS, State.flag, only.rd _ hsnr hsnr', only.rd _ hvalid hvalid']

theorem execSnrMeasurement_lost (hen : s.frondEnabled f.val = true) (sums : List (Nat × Nat × Nat × Nat))
    (hst : s.acqState f.val ≠ 5) : ∃ t, exec (.snrMeasurement f false sums) s = .next t ∧ FrondsBut f.val s t ∧
      ∀ k, k < 16 → t.rd (R.FRD_EQ_SNR_VALID_L f.val k) = 0 ∧ t.rd (R.FRD_EQ_SNR_VALID_H f.val k) = 0 := by
  refine ⟨_, execSnrMeasurement_fold hen sums, State.foldl_snrStep_frondsBut _ _ _ _ s, fun k hk => ⟨?low, ?high⟩⟩
  case low =>
    have h := State.rd_valid_foldl_snrStep_lost (sums := sums) (s.rxLit f.val) (List.mem_range.mpr (show 2 * k < 32 by omega)) hst
    rwa [snrFields, if_neg (by omega), show 2 * k / 2 = k by omega] at h
  case high =>
    have h := State.rd_valid_foldl_snrStep_lost (sums := sums) (s.rxLit f.val) (List.mem_range.mpr (show 2 * k + 1 < 32 by omega)) hst
    rwa [snrFields, if_pos (by omega), show (2 * k + 1) / 2 = k by omega] at h

theorem execSnrMeasurement_acquired (hen : s.frondEnabled f.val = true) (sums : List (Nat × Nat × Nat × Nat))
    (hst : s.acqState f.val = 5) : ∃ t : State, exec (.snrMeasurement f false sums) s = .next t ∧
      ∀ k sig err marked pilots, k < 32 → (s.rxLit f.val).contains k = true → sums.getD k (0, 0, 0, 0) = (sig, err, marked, pilots) →
        2 * marked ≤ pilots → t.rdS (snrFields f.val k).1 = snrOf sig err ∧ t.flag (snrFields f.val k).2 = true :=
  ⟨_, execSnrMeasurement_fold hen sums, fun _ _ _ _ _ hk => State.reads_foldl_snrStep_measured (List.mem_range.mpr hk) hst⟩

end

/-- Settles O14, command by command: each makes the writes that the statement lists, in their order, and the SNR fields follow from the
fold over the sub-carriers. -/
theorem equaliserCommands : Obligations.EqualiserCommands := by
  intro s f x hen hx
  subst hx
  exact ⟨fun c l => execCdSearchCandidateEnd_next, fun settled => execPreconvergenceEnd_over, fun r dgd pdl => execCdTracking_up,
    execCdHostRampStep_slope, fun rate => execSopRateEvaluation_slow hen, fun v => execFofsRange_inside hen,
    fun v n => execFofsRange_160th hen, execSnrMeasurement_empty, execSnrMeasurement_lost hen, execSnrMeasurement_acquired hen,
    execEqStampRefresh_acquired, execEqStateDiscard_enabled hen⟩

end Sys2Proof.Machine

/-! ### The symbols of the line (R131, R132, R135, R165, R179, R183, R184, R194) -/

namespace Sys2Proof.Machine

/-! #### Header bits and pilots -/

theorem headerChannelBits_length (w : Nat) : (headerChannelBits w).length = 960 := by
  simp only [headerChannelBits, List.length_flatMap, List.length_cons, List.length_nil, List.map_const', List.sum_replicate,
    List.length_range, smul_eq_mul]

theorem isPilot_iff (p : Nat) : isPilot p = true ↔ ∃ q, p = 62 * q + 61 := by
  rw [isPilot, beq_iff_eq]
  exact ⟨fun h => ⟨p / 62, by omega⟩, fun ⟨q, hq⟩ => by omega⟩

/-- A generator that appends one value per step makes a sequence as long as its run. -/
theorem length_foldl_snd {σ β ι : Type} {step : σ × List β → ι → σ × List β}
    (h : ∀ x i, (step x i).2.length = x.2.length + 1) (l : List ι) (x : σ × List β) :
    (l.foldl step x).2.length = x.2.length + l.length := by
  induction l generalizing x with
  | nil => rfl
  | cons i l ih => rw [List.foldl_cons, ih, h, List.length_cons]; omega

theorem pilotBits_length (k q : Nat) : (pilotBits k q).length = 4 := by
  unfold pilotBits
  rw [List.length_drop, length_foldl_snd fun _ _ => by simp]
  simp

/-! #### Blocks of one amplitude (R132) -/

theorem fact_pos (n : Nat) : 0 < fact n := by
  induction n with
  | zero => decide
  | succ n ih => exact Nat.mul_pos n.succ_pos ih

theorem multinomial_singleton (n : Nat) : multinomial [n] = 1 := by
  simp [multinomial, Nat.div_self (fact_pos n)]

/-- Where one amplitude takes every place, the sequence of rank 0 is the only one. -/
theorem unrank_singleton (n : Nat) : unrank n [n] 0 = List.replicate n 1 := by
  induction n with
  | zero => rfl
  | succ n ih =>
    have first : unrankStep [n + 1] 0 [n + 1] 0 = some (0, 0, [n]) := by simp [unrankStep, multinomial_singleton]
    simp [unrank, first, ih, List.replicate_succ]

theorem zip_replicate_length {α β : Type} (l : List α) (b : β) : l.zip (List.replicate l.length b) = l.map fun a => (a, b) := by
  induction l with
  | nil => rfl
  | cons a l ih => simp [List.replicate_succ, ih]

/-- A block whose one amplitude is 1 is its signs. -/
theorem blockLevels_single {bits : List Bool} (h : bits.length = 800) :
    blockLevels [800] bits = bits.map fun b => if b then -1 else 1 := by
  unfold blockLevels
  dsimp only
  rw [List.drop_of_length_le h.le, List.take_of_length_le h.le, show natOfBits [] = 0 from rfl, unrank_singleton, ← h, zip_replicate_length,
    List.map_map]
  rfl

/-! #### Justification (R183, R184) -/

theorem justBit_add_sixteen (x : Nat) : justBit (x + 16) = justBit x := by
  simp [justBit]

/-- R184: the majority of the unmarked copies; on a tie the bit of the superframe's own SF_COUNT, else 1. -/
theorem receivedJust_eq (l : List (Option Bool)) (sf : Option Nat) :
    receivedJust l sf = if l.countP (· == some true) < l.countP (· == some false) then false
      else if l.countP (· == some false) < l.countP (· == some true) then true else (sf.map justBit).getD true := by
  unfold receivedJust
  rw [← List.countP_eq_length_filter, ← List.countP_eq_length_filter]
  generalize l.countP (· == some true) = a
  generalize l.countP (· == some false) = b
  rcases Nat.lt_trichotomy a b with h | rfl | h
  · simp [h, h.ne, h.not_gt]
  · simp
  · simp [h, h.ne', h.not_gt]

/-! #### Parity violations (R194) -/

theorem bipViolations_eq (a b : Nat) : bipViolations a b = ((List.range 8).filter fun i => (a ^^^ b).testBit i).length := by
  simp only [bipViolations, Nat.testBit_eq_decide_div_mod_eq, beq_eq_decide]

theorem bipViolations_le (a b : Nat) : bipViolations a b ≤ 8 := List.length_filter_le _ _

theorem bipViolations_comm (a b : Nat) : bipViolations a b = bipViolations b a := by
  rw [bipViolations, Nat.xor_comm, ← bipViolations]

/-- Two parities of 8 bits show no violation exactly when they agree in every bit. -/
theorem bipViolations_eq_zero_iff {a b : Nat} (ha : a < 256) (hb : b < 256) : bipViolations a b = 0 ↔ a = b := by
  have hx : a ^^^ b < 2 ^ 8 := Nat.xor_lt_two_pow ha hb
  rw [bipViolations_eq, List.length_eq_zero_iff, List.filter_eq_nil_iff, ← Nat.xor_eq_zero_iff]
  refine ⟨fun h => Nat.eq_of_testBit_eq fun i => ?_, fun h => by simp [h]⟩
  rw [Nat.zero_testBit]
  rcases Nat.lt_or_ge i 8 with hi | hi
  · simpa using h i (List.mem_range.mpr hi)
  · exact Nat.testBit_lt_two_pow (hx.trans_le (Nat.pow_le_pow_right (by decide) hi))

/-- Settles O12, symbol by symbol. -/
theorem lineSymbols : Obligations.LineSymbols := by
  refine ⟨⟨headerChannelBits_length, isPilot_iff, pilotBits_length, fun bits => blockLevels_single, fun x => clampInt_mem (by decide) _,
    ⟨rfl, rfl, rfl⟩, ⟨rfl, rfl, rfl⟩⟩, ⟨justBit_add_sixteen, by decide, ?just⟩, fun a b ha hb =>
      ⟨bipViolations_le a b, bipViolations_eq_zero_iff ha hb, bipViolations_comm a b⟩⟩
  case just =>
    intro l sf a b ha hb
    rw [receivedJust_eq, ha, hb]
    cases sf <;> rfl

end Sys2Proof.Machine

/-! ### The frame of a change to one frond -/

namespace Sys2Proof.Machine

/-- Of fronds and registers, `t` differs from `s` at most in the record of frond `f` and in the registers at `l`. -/
structure TouchesOnly (f : Nat) (l : List Nat) (s t : State) : Prop where
  fronds : FrondsBut f s t
  regs : RegsBut l s t

namespace TouchesOnly
variable {f : Nat} {l : List Nat} {s t u : State}

theorem refl (f : Nat) (l : List Nat) (s : State) : TouchesOnly f l s s := ⟨fun _ _ => rfl, fun _ _ => rfl⟩

theorem trans (h : TouchesOnly f l s t) (h' : TouchesOnly f l t u) : TouchesOnly f l s u where
  fronds g hg := (h'.fronds g hg).trans (h.fronds g hg)
  regs o ho := (h'.regs o ho).trans (h.regs o ho)

theorem wr (h : TouchesOnly f l s t) (x : Fld) (v : Nat) (hx : x.off ∈ l) : TouchesOnly f l s (t.wr x v) :=
  h.trans ⟨fun _ _ => rfl, fun _ ho => State.reg_wr_other t v fun he => ho (he ▸ hx)⟩

theorem wrB (h : TouchesOnly f l s t) (x : Fld) (b : Bool) (hx : x.off ∈ l) : TouchesOnly f l s (t.wrB x b) := h.wr x _ hx

theorem modFrond (h : TouchesOnly f l s t) (g : Frond → Frond) : TouchesOnly f l s (t.modFrond f g) :=
  h.trans ⟨fun _ hk => State.frond_modFrond_other t g hk, fun _ _ => rfl⟩

theorem raise (h : TouchesOnly f l s t) (code obj : Nat) (vals : List EVal) : TouchesOnly f l s (t.raise code obj vals) :=
  h.trans ⟨fun _ _ => rfl, fun _ _ => rfl⟩

theorem wholeUnits (h : TouchesOnly f l s t) (num den : Nat) : TouchesOnly f l s (t.wholeUnits num den).2 := by
  unfold State.wholeUnits
  split
  · exact h
  · exact h.trans ⟨fun _ _ => rfl, fun _ _ => rfl⟩

/-- A field of a register that is not listed keeps its value. -/
theorem rd (h : TouchesOnly f l s t) {x : Fld} (hx : x.off ∉ l) : t.rd x = s.rd x :=
  congrArg (bitsGet · x.lo x.w) (h.regs x.off hx)

end TouchesOnly

theorem State.wholeUnits_frond (s : State) (num den k : Nat) : (s.wholeUnits num den).2.frond k = s.frond k := by
  unfold State.wholeUnits
  split <;> rfl

theorem State.wholeUnits_rd (s : State) (num den : Nat) (x : Fld) : (s.wholeUnits num den).2.rd x = s.rd x := by
  unfold State.wholeUnits
  split <;> rfl

/-! #### What counting an event keeps (R581 to R589) -/

section
variable {P : State → Prop} {f : Nat} (hwr : ∀ (t : State) x v, P t → P (t.wr x v)) (hpc : ∀ (t : State) g, P t → P (t.modPc f g))
  (hraise : ∀ (t : State) c o vals, P t → P (t.raise c o vals))
include hwr hpc hraise

theorem State.exactRecord_keeps {t : State} (h : P t) (r : ExactRec) : P (t.exactRecord f r) := by
  unfold State.exactRecord
  dsimp only
  split
  · exact hpc _ _ (hwr _ _ _ h)
  · split
    · exact hraise _ _ _ _ (hwr _ _ _ (hpc _ _ h))
    · exact hwr _ _ _ (hpc _ _ h)

theorem State.pcOverflow_keeps {t : State} (h : P t) (j code cycle detail : Nat) : P (t.pcOverflow f j code cycle detail) := by
  have marked := hpc _ (fun y => { y with ovf := y.ovf.set j ((y.ovf.getD j (0, 0)).1 + 1, 0) })
    (hwr t (R.FRD_PC_STAT_OVF f) (t.rd (R.FRD_PC_STAT_OVF f) ||| 2 ^ j) h)
  unfold State.pcOverflow
  dsimp only
  split <;> split
  · exact hwr _ _ _ (hpc _ _ (State.exactRecord_keeps hwr hpc hraise marked _))
  · exact State.exactRecord_keeps hwr hpc hraise marked _
  · exact hwr _ _ _ (hpc _ _ marked)
  · exact marked

theorem State.pcRun_keeps {t : State} (h : P t) (j code n : Nat) (place : Nat → Nat × Nat) (fuel i : Nat) :
    P (t.pcRun f j code n place fuel i) := by
  induction fuel generalizing t i with
  | zero => exact h
  | succ fuel ih =>
    unfold State.pcRun
    dsimp only
    split
    · exact h
    · split
      · exact hpc _ _ h
      · exact ih (State.pcOverflow_keeps hwr hpc hraise (hpc _ _ h) _ _ _ _) _

/-- Counting keeps whatever field writes, changes of the frond's counters and events keep. -/
theorem State.pcCount_keeps {t : State} (h : P t) (code n : Nat) (place : Nat → Nat × Nat) : P (t.pcCount f code n place) := by
  refine List.foldlRecOn _ _ h fun t ht j _ => ?_
  dsimp only
  split
  · exact State.pcRun_keeps hwr hpc hraise ht _ _ _ _ _ _
  · exact ht

end

/-- Counting on frond `f` leaves the other fronds alone. -/
theorem State.pcMany_frondsBut (s : State) (f code n detail : Nat) : FrondsBut f s (s.pcMany f code n detail) :=
  State.pcCount_keeps (P := FrondsBut f s) (fun _ _ _ h => h)
    (fun t _ h k hk => (State.frond_modFrond_other t _ hk).trans (h k hk)) (fun _ _ _ _ h => h) (fun _ _ => rfl) _ _ _

/-- Counting leaves the loading of the frond alone. -/
theorem State.pcMany_ld (s : State) (f code n detail : Nat) : ((s.pcMany f code n detail).frond f).ld = (s.frond f).ld :=
  State.pcCount_keeps (P := fun t => (t.frond f).ld = (s.frond f).ld) (fun _ _ _ h => h)
    (fun t _ h => by rw [State.modPc, State.frond_modFrond_same]; exact h) (fun _ _ _ _ h => h) rfl _ _ _

end Sys2Proof.Machine

/-! ### Loading and the transmit chain (R128, R141, R142, R144, R147, R150, R153) -/

namespace Sys2Proof.Machine

/-! #### The candidate table (R141) -/

/-- The first index with the smallest value is one of the indices. -/
theorem argMin_mem {g : Nat → Int} {l : List Nat} {a : Nat} (h : argMin (l.map fun k => (k, g k)) = some a) : a ∈ l := by
  obtain ⟨p, hp, rfl⟩ := Option.map_eq_some_iff.mp h
  refine List.foldlRecOn (motive := fun best => ∀ p, best = some p → p.1 ∈ l) _ _ ?_ ?_ p hp
  case refine_1 => simp
  case refine_2 =>
    intro best hbest q hq p hp
    obtain ⟨k, hk, rfl⟩ := List.mem_map.mp hq
    split at hp
    · cases hp; exact hk
    · split at hp
      · cases hp; exact hk
      · exact hbest _ hp

/-- What moves of one code between lit sub-carriers keep of a table: its length, the sum of its codes, its dark sub-carriers, and every
code within the limits that was within them. -/
structure KeepsTable (lo hi : Nat) (old new : List Nat) : Prop where
  length : new.length = old.length
  sum : new.sum = old.sum
  dark : ∀ k, new.getD k 0 = 0 ↔ old.getD k 0 = 0
  within : ∀ k, lo ≤ old.getD k 0 ∧ old.getD k 0 ≤ hi → lo ≤ new.getD k 0 ∧ new.getD k 0 ≤ hi

theorem KeepsTable.refl (lo hi : Nat) (codes : List Nat) : KeepsTable lo hi codes codes := ⟨rfl, rfl, fun _ => Iff.rfl, fun _ h => h⟩

theorem KeepsTable.trans {lo hi : Nat} {a b c : List Nat} (h : KeepsTable lo hi a b) (h' : KeepsTable lo hi b c) :
    KeepsTable lo hi a c where
  length := h'.length.trans h.length
  sum := h'.sum.trans h.sum
  dark k := (h'.dark k).trans (h.dark k)
  within k hk := h'.within k (h.within k hk)

theorem getD_set {α : Type} (l : List α) {i : Nat} (k : Nat) (v d : α) (hi : i < l.length) :
    (l.set i v).getD k d = if k = i then v else l.getD k d := by
  by_cases h : k = i
  · subst h; simp [hi]
  · simp [h, List.getElem?_set_ne (Ne.symm h)]

theorem sum_set_add {l : List Nat} {i : Nat} (v : Nat) (hi : i < l.length) : (l.set i v).sum + l.getD i 0 = l.sum + v := by
  induction l generalizing i with
  | nil => cases hi
  | cons x l ih =>
    cases i with
    | zero => simp; omega
    | succ i =>
      have h := ih (i := i) (by simpa using hi)
      simp only [List.set_cons_succ, List.sum_cons, List.getD_cons_succ]
      omega

theorem lt_length_of_getD_ne_zero {l : List Nat} {k : Nat} (h : l.getD k 0 ≠ 0) : k < l.length := by
  by_contra hk
  exact h (List.getD_eq_default _ _ (by omega))

/-- One move of R141: a code above the lower limit goes down by one, a lit one below the upper limit goes up by one. -/
theorem keepsTable_move {lo hi a b : Nat} {codes : List Nat} (hlo : 0 < lo) (ha : lo < codes.getD a 0) (hb : codes.getD b 0 ≠ 0)
    (hbhi : codes.getD b 0 < hi) (hab : b ≠ a) :
    KeepsTable lo hi codes ((codes.set a (codes.getD a 0 - 1)).set b (codes.getD b 0 + 1)) := by
  have la : a < codes.length := lt_length_of_getD_ne_zero (by omega)
  have lb : b < (codes.set a (codes.getD a 0 - 1)).length := by rw [List.length_set]; exact lt_length_of_getD_ne_zero hb
  have read : ∀ k, ((codes.set a (codes.getD a 0 - 1)).set b (codes.getD b 0 + 1)).getD k 0 =
      if k = b then codes.getD b 0 + 1 else if k = a then codes.getD a 0 - 1 else codes.getD k 0 := fun k => by
    rw [getD_set _ _ _ _ lb, getD_set _ _ _ _ la]
  refine ⟨by simp, ?sum, fun k => ?dark, fun k hk => ?within⟩
  case sum =>
    have down := sum_set_add (codes.getD a 0 - 1) la
    have up := sum_set_add (codes.getD b 0 + 1) lb
    rw [getD_set _ _ _ _ la, if_neg hab] at up
    omega
  case dark =>
    rw [read]
    split_ifs with h h'
    · exact iff_of_false not_false (by rwa [h])
    · exact iff_of_false (by omega) (by rw [h']; omega)
    · rfl
  case within =>
    rw [read]
    split_ifs with h h'
    · rw [h] at hk; omega
    · rw [h'] at hk; omega
    · exact hk

theorem mem_litOf {codes : List Nat} {k : Nat} : k ∈ litOf codes ↔ k < 32 ∧ codes.getD k 0 ≠ 0 := by
  simp [litOf]

/-- R141: the candidate differs from the table in use by the moves made, and these are at most as many as allowed. -/
theorem candidateMoves_keeps {gap lo hi : Nat} {snr : Nat → Int} (hlo : 0 < lo) (moves : Nat) (codes : List Nat) (done : Nat) :
    KeepsTable lo hi codes (candidateMoves gap lo hi snr moves codes done).1 ∧
    (candidateMoves gap lo hi snr moves codes done).2 ≤ done + moves := by
  induction moves generalizing codes done with
  | zero => exact ⟨KeepsTable.refl lo hi codes, Nat.le_refl _⟩
  | succ moves ih =>
    have stay : KeepsTable lo hi codes codes ∧ done ≤ done + (moves + 1) := ⟨KeepsTable.refl lo hi codes, by omega⟩
    unfold candidateMoves
    dsimp only
    split
    case h_1 => exact stay
    case h_2 a ha =>
      split
      case h_1 => exact stay
      case h_2 b hb =>
        obtain ⟨-, hadown⟩ := List.mem_filter.mp (argMin_mem ha)
        obtain ⟨hblit, hbup⟩ := List.mem_filter.mp (argMin_mem hb)
        obtain ⟨hab, hbhi⟩ : b ≠ a ∧ codes.getD b 0 < hi := by simpa using hbup
        split
        case isTrue => exact stay
        case isFalse =>
          obtain ⟨keeps, made⟩ := ih ((codes.set a (codes.getD a 0 - 1)).set b (codes.getD b 0 + 1)) (done + 1)
          have move := keepsTable_move hlo (of_decide_eq_true hadown) (mem_litOf.mp hblit).2 hbhi hab
          exact ⟨move.trans keeps, by omega⟩

/-! #### Requests, swaps and announcements (R141 to R147) -/

section
variable {s : State} {f : Fin 48}

theorem execLoadRequestEvaluation_between (ht : s.tick % 160 ≠ 159) : exec (.loadRequestEvaluation f) s = .next s :=
  congrArg _ (if_pos (.inl ht))

/-- What an evaluation writes that sends a request for `cand`: the sums start again, SEQ goes up, and the request is outstanding. -/
def State.putRequest (s : State) (f : Nat) (cand : List Nat) : State :=
  ((((s.modFrond f fun y => { y with ld := { y.ld with snrSum := List.replicate 32 0, snrCnt := List.replicate 32 0 } }).wr
    (R.FRD_LD_STAT_REQ_SEQ f) ((s.rd (R.FRD_LD_STAT_REQ_SEQ f) + 1) % 16)).wrB (R.FRD_LD_STAT_REQ_OUT f) true).modFrond f fun y =>
      { y with ld := { y.ld with reqCodes := cand, reqBase := s.rd (R.FRD_LD_STAT_RX_TID f), reqTick := s.tick } })

theorem State.putRequest_touches (s : State) (f : Nat) (cand : List Nat) :
    TouchesOnly f [(R.FRD_LD_STAT_REQ_SEQ f).off] s (s.putRequest f cand) := by
  unfold State.putRequest
  exact ((((TouchesOnly.refl f _ s).modFrond _).wr (R.FRD_LD_STAT_REQ_SEQ f) _ (List.mem_singleton.mpr rfl)).wrB (R.FRD_LD_STAT_REQ_OUT f)
    true (List.mem_singleton.mpr rfl)).modFrond _

theorem State.putRequest_ld (s : State) (f : Nat) (cand : List Nat) : ((s.putRequest f cand).frond f).ld =
    { (s.frond f).ld with snrSum := List.replicate 32 0, snrCnt := List.replicate 32 0, reqCodes := cand,
                          reqBase := s.rd (R.FRD_LD_STAT_RX_TID f), reqTick := s.tick } := by
  simp [State.putRequest]

theorem State.putRequest_out (s : State) (f : Nat) (cand : List Nat) : (s.putRequest f cand).rd (R.FRD_LD_STAT_REQ_OUT f) = 1 := by
  rw [State.putRequest, State.modFrond_rd, State.wrB, State.rd_wr_same _ _ (show 4 + 1 ≤ 32 by decide)]
  rfl

theorem State.putRequest_seq (s : State) (f : Nat) (cand : List Nat) :
    (s.putRequest f cand).rd (R.FRD_LD_STAT_REQ_SEQ f) = (s.rd (R.FRD_LD_STAT_REQ_SEQ f) + 1) % 16 := by
  rw [State.putRequest, State.modFrond_rd, State.wrB, State.rd_wr_beside _ _ (show 4 + 1 ≤ 32 by decide) (.inr (show 4 + 1 ≤ 5 by decide)),
    State.rd_wr_same _ _ (show 5 + 4 ≤ 32 by decide)]
  exact Nat.mod_mod _ _

/-- The base table of the request stands beside the fields that are written first. -/
theorem State.rd_rxTid_wr (s : State) (f v w : Nat) :
    ((s.wr (R.FRD_LD_STAT_REQ_SEQ f) v).wr (R.FRD_LD_STAT_REQ_OUT f) w).rd (R.FRD_LD_STAT_RX_TID f) = s.rd (R.FRD_LD_STAT_RX_TID f) := by
  rw [State.rd_wr_beside _ _ (show 4 + 1 ≤ 32 by decide) (.inr (show 4 + 1 ≤ 24 by decide)),
    State.rd_wr_beside _ _ (show 5 + 4 ≤ 32 by decide) (.inr (show 5 + 4 ≤ 24 by decide))]

/-- R141: a candidate whose least margin gains HYST or more is requested, and LOAD_REQ_SENT tells its moves and its gain. -/
theorem execLoadRequestEvaluation_sent {lo hi moves : Nat} {cand : List Nat} {snr : Nat → Int} {gain : Int}
    (hsnr : snr = fun k => roundDiv (16 * (s.frond f.val).ld.snrSum.getD k 0) ((s.frond f.val).ld.snrCnt.getD k 1))
    (hen : s.frondEnabled f.val = true) (ht : s.tick % 160 = 159) (hst : s.acqState f.val = 5)
    (hreq : s.flag (R.FRD_LD_CTL_REQ_EN f.val) = true) (hout : s.flag (R.FRD_LD_STAT_REQ_OUT f.val) = false)
    (hlim : s.codeLimits f.val = (lo, hi)) (hle : lo ≤ hi)
    (hcnt : ∀ k, k ∈ litOf (s.frond f.val).ld.rxCodes → 80 ≤ (s.frond f.val).ld.snrCnt.getD k 0)
    (hcand : candidateMoves (s.rd (R.FRD_LD_CTL_GAP f.val)) lo hi snr (s.maxMoves f.val) (s.frond f.val).ld.rxCodes 0 = (cand, moves))
    (hgain : leastMargin (s.rd (R.FRD_LD_CTL_GAP f.val)) snr cand -
      leastMargin (s.rd (R.FRD_LD_CTL_GAP f.val)) snr (s.frond f.val).ld.rxCodes = gain)
    (hworth : 0 < gain ∧ ((16 * s.rd (R.FRD_LD_CTL_HYST f.val) : Nat) : Int) ≤ gain) :
    exec (.loadRequestEvaluation f) s = .next (((s.putRequest f.val cand).wholeUnits gain.toNat 16).2.raise 0x0401 f.val
      [.w ((s.rd (R.FRD_LD_STAT_REQ_SEQ f.val) + 1) % 16), .w moves, .w ((s.putRequest f.val cand).wholeUnits gain.toNat 16).1]) := by
  have measured : (litOf (s.frond f.val).ld.rxCodes).any (fun k => decide ((s.frond f.val).ld.snrCnt.getD k 0 < 80)) = false := by
    rw [List.any_eq_false]
    intro k hk
    simpa using hcnt k hk
  have limits : ∀ g, (s.modFrond f.val g).codeLimits f.val = (lo, hi) := fun _ => hlim
  have most : ∀ g, (s.modFrond f.val g).maxMoves f.val = s.maxMoves f.val := fun _ => rfl
  subst hsnr
  show execLoadRequestEvaluation f s = _
  unfold execLoadRequestEvaluation
  simp only [ht, hen, hst, hreq, hout, limits, most, hle.not_gt, measured, hcand, hgain, hworth, State.modFrond_acqState,
    State.modFrond_flag, State.modFrond_rd, ne_eq, not_true_eq_false, or_self, if_false, Bool.false_eq_true, and_self, if_true,
    State.putRequest, State.wrB, State.rd_rxTid_wr]
  rfl

theorem execLoadRequestTimeout_due (hout : s.flag (R.FRD_LD_STAT_REQ_OUT f.val) = true)
    (hdue : (s.frond f.val).ld.reqTick + 32000 ≤ s.tick) :
    exec (.loadRequestTimeout f) s = .next (((s.wrB (R.FRD_LD_STAT_REQ_OUT f.val) false).modFrond f.val fun y => { y with
      ld := { y.ld with reqEnd := s.tick } }).raise 0x0403 f.val [.w (s.rd (R.FRD_LD_STAT_REQ_SEQ f.val))]) := by
  show execLoadRequestTimeout f s = _
  simp only [execLoadRequestTimeout, State.endRequest, hout, hdue, decide_true, Bool.and_self, if_true, State.wrB_tick]

/-- The writes of a swap before it is counted: the table and its TID in force, nothing pending. -/
def State.putTxTable (s : State) (f : Nat) (p : TxSwap) : State :=
  (((((s.modFrond f fun x => { x with ld := { x.ld with txCodes := p.codes, pend := none, lastSwap := some s.tick } }).wr
    (R.FRD_LD_STAT_TX_TID f) p.tid).wrB (R.FRD_LD_STAT_TX_PEND f) false).wr (R.FRD_LD_STAT_TX_IN f) 0).wr
    (R.FRD_LD_SUM_LIT f) (litCount p.codes)).bump (R.FRD_LD_CNT_TX_SWAPS f) 1

theorem State.txSwap_of_pend {f : Nat} {p : TxSwap} (h : (s.frond f).ld.pend = some p) :
    s.txSwap f = ((s.putTxTable f p).pcMany f 0x17 1 (p.tid % 16)).raise 0x0405 f [.w p.tid, .w p.cause] := by
  simp only [State.txSwap, State.putTxTable, h]

theorem State.putTxTable_frondsBut (s : State) (f : Nat) (p : TxSwap) : FrondsBut f s (s.putTxTable f p) :=
  fun k hk => by simp [State.putTxTable, State.frond_modFrond_other s _ hk]

theorem State.putTxTable_ld (s : State) (f : Nat) (p : TxSwap) :
    ((s.putTxTable f p).frond f).ld = { (s.frond f).ld with txCodes := p.codes, pend := none, lastSwap := some s.tick } := by
  simp [State.putTxTable]

theorem State.putTxTable_tick (s : State) (f : Nat) (p : TxSwap) : (s.putTxTable f p).tick = s.tick := by
  simp [State.putTxTable]

/-- R144: at its superframe the announced table is in force, and LOAD_SWAP_TX tells which. -/
theorem State.txSwap_effect {f : Nat} {p : TxSwap} (h : (s.frond f).ld.pend = some p) :
    FrondsBut f s (s.txSwap f) ∧
    ((s.txSwap f).frond f).ld = { (s.frond f).ld with txCodes := p.codes, pend := none, lastSwap := some s.tick } ∧
    eventOf s 0x0405 f [.w p.tid, .w p.cause] ∈ (s.txSwap f).host.events := by
  rw [State.txSwap_of_pend h]
  refine ⟨fun k hk => ?_, ?_, ?_⟩
  · rw [State.raise_frond, State.pcMany_frondsBut _ _ _ _ _ k hk, State.putTxTable_frondsBut s f p k hk]
  · rw [State.raise_frond, State.pcMany_ld, State.putTxTable_ld]
  · rw [State.raise_host, kept_tick (State.pcMany_kept _ _ _ _ _), State.putTxTable_tick]
    exact List.mem_append_right _ (List.mem_singleton_self _)

theorem execTxLoadSwap_due {p : TxSwap} (h : (s.frond f.val).ld.pend = some p) (hdue : p.swap ≤ s.tick) :
    exec (.txLoadSwap f) s = .next (s.txSwap f.val) := by
  show execTxLoadSwap f s = _
  simp only [execTxLoadSwap, State.txSwapDue, h, hdue, if_true]

theorem execTxLoadSwap_early {p : TxSwap} (h : (s.frond f.val).ld.pend = some p) (hearly : s.tick < p.swap) :
    exec (.txLoadSwap f) s = .next s := by
  show execTxLoadSwap f s = _
  simp only [execTxLoadSwap, State.txSwapDue, h, hearly.not_ge, if_false]

/-- R147: a valid table is announced from the tick of effect and swapped LEAD ticks later. -/
theorem execLoadTable_ok {h : ReqHdr} {mem : HostMem} {codes : List Nat} (hen : s.frondEnabled f.val = true) (hpf : h.isPf)
    (hcodes : codes.all codeOk = true) (hn : s.rd (R.FRD_SC_PLAN_N f.val) ≠ 0)
    (hvalid : tableValid (s.rd (R.FRD_SC_PLAN_N f.val)) (s.rd (R.FRD_SC_PLAN_COUNT f.val)) codes = true)
    (hlight : lightingOk (s.rd (R.FRD_SC_PLAN_N f.val)) (s.frond f.val).ld.txCodes codes = true) (hpend : (s.frond f.val).ld.pend = none) :
    exec (.loadTable h mem f.val codes) s = .next ((s.scheduleSwap f.val codes 1 s.tick).complete (doneOk h s 0x11 0)) := by
  obtain ⟨hfn, htenant, hany⟩ := hpf
  have pass : ∀ c ∈ chkLoadTable f.val codes (h.ctx s mem) s, c.bad = false := by
    simp only [chkLoadTable, hcodes, hvalid, hlight, hpend]
    simp [Ctx.pf, Ctx.ckPf, Ctx.ckNoAny, State.ckFrond, ckFormat, ckAbsent, ckCond, ReqHdr.ctx, ReqSrc.fn, *]
  exact congrArg _ (runOne_done _ pass rfl rfl rfl (kept_tick (State.scheduleSwap_kept _ _ _ _ _)))

/-! #### The transmit chain (R128, R150, R152, R153) -/

/-- One step of the ramp writes the pre-compensation and tells whether it has arrived. -/
theorem execPrecdRampStep_eq : exec (.precdRampStep f) s = .next ((s.modFrond f.val fun y => { y with tx := { y.tx with
    precd := (s.frond f.val).tx.precd + clampInt (-50) 50 (s.precdTarget f.val - (s.frond f.val).tx.precd)
    precdTick := s.tick } }).precdRamping f.val) := (rfl)

theorem execLaunchPowerRestored_lit (power : Int) (hen : s.frondEnabled f.val = true) (hcause : s.squelchCause f.val = false) :
    exec (.launchPowerRestored f power false) s = .next ((((s.modFrond f.val fun y => { y with tx := { y.tx with
      power := power, limitRun := false, squelched := false } }).wrB (R.FRD_TX_STAT_DARK f.val) false).wrS
      (R.FRD_TX_STAT_PWR_MEAS f.val) power).wrB (R.FRD_TX_STAT_PWR_LIMIT f.val) false) := by
  show execLaunchPowerRestored f power false s = _
  simp only [execLaunchPowerRestored, hen, hcause, Bool.not_true, Bool.or_self, Bool.false_and, Bool.false_eq_true, if_false]

theorem execLaserOffGrid_160th {o : Int} {n : Nat} (hen : s.frondEnabled f.val = true) (ho : 250 < o) (hn : 159 ≤ n) (ht : 0 < s.tick)
    (hrun : (s.frond f.val).tx.gridRun = ⟨n, s.tick - 1⟩) (hraised : (s.frond f.val).tx.gridRaised = false) :
    exec (.laserOffGrid f o) s = .next (((s.wrS (R.FRD_TX_STAT_LFOFS f.val) o).modFrond f.val fun y => { y with tx := { y.tx with
      gridRun := ⟨n + 1, s.tick⟩, gridRaised := true } }).raise 0x040a f.val [EVal.s o]) := by
  have step : Run.step ⟨n, s.tick - 1⟩ s.tick true = ⟨n + 1, s.tick⟩ :=
    Run.step_next (show 0 < n by omega) (Nat.sub_add_cancel ht)
  show execLaserOffGrid f o s = _
  simp [execLaserOffGrid, hen, ho, hrun, hraised, step, show 160 ≤ n + 1 by omega]

end

/-- Settles O17: each command by its own equation, and the candidate table by what one move keeps. -/
theorem loadingCommands : Obligations.LoadingCommands := by
  refine ⟨fun s f x hen hx => ?commands, fun gap lo hi snr moves done codes hlen hlo => ?table⟩
  case commands =>
    subst hx
    refine ⟨execLoadRequestEvaluation_between, fun lo hi cand moves ht hst hreq hout hlim hle hcnt hcand hgain => ?request,
      execLoadRequestTimeout_due, fun p hp hdue => ⟨_, execTxLoadSwap_due hp hdue, rfl, State.txSwap_effect hp⟩,
      fun p => execTxLoadSwap_early, fun h mem codes => execLoadTable_ok hen, execPrecdRampStep_eq,
      fun power => execLaunchPowerRestored_lit power hen, fun o n => execLaserOffGrid_160th hen⟩
    case request =>
      have hexec := execLoadRequestEvaluation_sent rfl hen ht hst hreq hout hlim hle hcnt hcand rfl ⟨by omega, by omega⟩
      have touches gain vals := ((s.putRequest_touches f.val cand).wholeUnits gain 16).raise 0x0401 f.val vals
      refine ⟨_, hexec, (touches _ _).fronds, (touches _ _).regs, ?_, ?_, ?_⟩
      · rw [State.raise_rd, State.wholeUnits_rd, State.putRequest_out]
      · rw [State.raise_rd, State.wholeUnits_rd, State.putRequest_seq]
      · rw [State.raise_frond, State.wholeUnits_frond, State.putRequest_ld]
  case table =>
    obtain ⟨keeps, made⟩ := candidateMoves_keeps (gap := gap) (hi := hi) (snr := snr) hlo moves codes done
    exact ⟨keeps.length.trans hlen, keeps.sum, made, keeps.dark, keeps.within⟩

end Sys2Proof.Machine

/-! ### Functions, the line set-up and the host's side of the GCC (R146, R148, R206, R232, R326, R327, R334) -/

namespace Sys2Proof.Machine

/-! #### Stop of the line function (R146) -/

/-- The registers that the end of a request and the entry into IDLE write. -/
def idleRegs (f : Nat) : List Nat :=
  [(R.FRD_ACQ_STAT_STATE f).off, (R.FRD_LD_STAT_REQ_OUT f).off, (R.FRD_EQ_GEN_SEC_LO_SEC_LO f).off, (R.FRD_EQ_GEN_SEC_HI_SEC_HI f).off,
    (R.FRD_EQ_GEN_TEMP_TEMP f).off, (R.FRD_EQ_STAT_RETAINED f).off, (R.FRD_EQ_CD_EST_VALID f).off]

/-- The registers that the rest of a stop writes. -/
def stopRegs (f : Nat) : List Nat :=
  [(slfDef f 0).off, (R.FRD_SLF_TCMDEF_TCM f).off, (R.FRD_SLF_STAT_SLICE_OOF f).off, (R.FRD_SLF_GCC_TX_DROP f).off,
    (R.FRD_LD_STAT_TX_PEND f).off, (R.FRD_TX_STAT_DARK f).off]

/-- The end of the own loading request, if one is outstanding. -/
def State.stopRequest (s : State) (f : Nat) : State := if s.flag (R.FRD_LD_STAT_REQ_OUT f) then s.endRequest f else s

section
variable {f : Nat} {s t : State}

theorem TouchesOnly.endRequest (h : TouchesOnly f (idleRegs f) s t) : TouchesOnly f (idleRegs f) s (t.endRequest f) := by
  unfold State.endRequest
  exact (h.wrB (R.FRD_LD_STAT_REQ_OUT f) _ (by simp [idleRegs])).modFrond _

theorem TouchesOnly.refreshStamp (h : TouchesOnly f (idleRegs f) s t) : TouchesOnly f (idleRegs f) s (t.refreshStamp f) := by
  unfold State.refreshStamp
  exact ((h.wr (R.FRD_EQ_GEN_SEC_LO_SEC_LO f) _ (by simp [idleRegs])).wr (R.FRD_EQ_GEN_SEC_HI_SEC_HI f) _ (by simp [idleRegs])).wr
    (R.FRD_EQ_GEN_TEMP_TEMP f) _ (by simp [idleRegs])

theorem TouchesOnly.stopRequest (h : TouchesOnly f (idleRegs f) s t) : TouchesOnly f (idleRegs f) s (t.stopRequest f) := by
  unfold State.stopRequest
  split
  · exact h.endRequest
  · exact h

/-- An exit for reason 5, which no loss counter counts. -/
theorem TouchesOnly.leaveAcquired (h : TouchesOnly f (idleRegs f) s t) : TouchesOnly f (idleRegs f) s (t.leaveAcquired f 5) := by
  have stamped := ((h.raise 0x0202 f [.w 5]).wr (R.FRD_ACQ_STAT_LAST_REASON f) 5
    (by simp [idleRegs, R.FRD_ACQ_STAT_LAST_REASON, R.FRD_ACQ_STAT_STATE])).refreshStamp
  unfold State.leaveAcquired
  exact (stamped.stopRequest.wrB (R.FRD_EQ_STAT_RETAINED f) _ (by simp [idleRegs])).modFrond _

theorem TouchesOnly.setAcq (h : TouchesOnly f (idleRegs f) s t) (st : Nat) : TouchesOnly f (idleRegs f) s (t.setAcq f st) := by
  unfold State.setAcq
  exact (h.wr (R.FRD_ACQ_STAT_STATE f) _ (by simp [idleRegs])).wrB (R.FRD_ACQ_STAT_GAIN_FROZEN f) _
    (by simp [idleRegs, R.FRD_ACQ_STAT_GAIN_FROZEN, R.FRD_ACQ_STAT_STATE])

theorem TouchesOnly.enterIdle (h : TouchesOnly f (idleRegs f) s t) : TouchesOnly f (idleRegs f) s (t.enterIdle f) := by
  unfold State.enterIdle
  dsimp only
  split
  · exact h
  · split
    · exact (h.leaveAcquired.setAcq 0).wrB (R.FRD_EQ_CD_EST_VALID f) _ (by simp [idleRegs])
    · exact ((h.wr (R.FRD_ACQ_STAT_LAST_REASON f) 5
        (by simp [idleRegs, R.FRD_ACQ_STAT_LAST_REASON, R.FRD_ACQ_STAT_STATE])).setAcq 0).wrB (R.FRD_EQ_CD_EST_VALID f) _ (by simp [idleRegs])

theorem TouchesOnly.stopDefects (h : TouchesOnly f (stopRegs f) s t) : TouchesOnly f (stopRegs f) s (t.stopDefects f) := by
  unfold State.stopDefects
  exact (((((h.wr ⟨0x100708 + 0x10000 * f, 0, 16⟩ _ (by simp [stopRegs, slfDef])).wr (R.FRD_SLF_TCMDEF_TCM f) _ (by simp [stopRegs])).wr
    (R.FRD_SLF_STAT_SLICE_OOF f) _ (by simp [stopRegs])).wrB (R.FRD_SLF_STAT_OTUCN_IF f) _
      (by simp [stopRegs, R.FRD_SLF_STAT_OTUCN_IF, R.FRD_SLF_STAT_SLICE_OOF])).wrB (R.FRD_SLF_STAT_OTUCN_IM f) _
      (by simp [stopRegs, R.FRD_SLF_STAT_OTUCN_IM, R.FRD_SLF_STAT_SLICE_OOF])).modFrond _

theorem TouchesOnly.gccStop (h : TouchesOnly f (stopRegs f) s t) : TouchesOnly f (stopRegs f) s (t.gccStop f) := by
  unfold State.gccStop
  exact (h.modFrond _).wr (R.FRD_SLF_GCC_TX_DROP f) _ (by simp [stopRegs])

theorem TouchesOnly.cancelSwap (h : TouchesOnly f (stopRegs f) s t) : TouchesOnly f (stopRegs f) s (t.cancelSwap f) := by
  unfold State.cancelSwap
  exact ((h.modFrond _).wrB (R.FRD_LD_STAT_TX_PEND f) _ (by simp [stopRegs])).wr (R.FRD_LD_STAT_TX_IN f) _
    (by simp [stopRegs, R.FRD_LD_STAT_TX_IN, R.FRD_LD_STAT_TX_PEND])

theorem TouchesOnly.squelchUpdate (h : TouchesOnly f (stopRegs f) s t) : TouchesOnly f (stopRegs f) s (t.squelchUpdate f) := by
  unfold State.squelchUpdate
  dsimp only
  split
  · exact ((h.modFrond _).wrB (R.FRD_TX_STAT_DARK f) _ (by simp [stopRegs])).wr (R.FRD_TX_STAT_PWR_MEAS f) _
      (by simp [stopRegs, R.FRD_TX_STAT_PWR_MEAS, R.FRD_TX_STAT_DARK])
  · exact h.modFrond _

end

section
variable {s : State} {f : Nat}

theorem State.acqState_setAcq (s : State) (f : Nat) {st : Nat} (hst : st < 8) : (s.setAcq f st).acqState f = st := by
  rw [State.acqState, State.setAcq, State.wrB, State.rd_wr_beside _ _ (show 8 + 1 ≤ 32 by decide) (.inl (show 0 + 3 ≤ 8 by decide)),
    State.rd_wr_same _ _ (show 0 + 3 ≤ 32 by decide)]
  exact Nat.mod_eq_of_lt hst

/-- Entry into IDLE, from whatever state. -/
theorem State.acqState_enterIdle (s : State) (f : Nat) : (s.enterIdle f).acqState f = 0 := by
  unfold State.enterIdle
  dsimp only
  split
  case isTrue h => exact h
  case isFalse =>
    have beside : ∀ t : State, (t.wrB (R.FRD_EQ_CD_EST_VALID f) false).acqState f = t.acqState f := fun t =>
      State.rd_wr_off t _ (by simp [R.FRD_ACQ_STAT_STATE, R.FRD_EQ_CD_EST_VALID])
    rw [beside, State.acqState_setAcq _ _ (by decide)]

theorem State.gccStop_gccHost (s : State) (f : Nat) : ((s.gccStop f).frond f).slf.gccHost = [] := by
  simp [State.gccStop, State.modSlf]

theorem State.squelchUpdate_frond (s : State) (f : Nat) :
    (s.squelchUpdate f).frond f = { s.frond f with tx := { (s.frond f).tx with squelched := s.squelchCause f } } := by
  unfold State.squelchUpdate
  dsimp only
  split <;> simp

/-- The cancellation of the scheduled swap, if there is one. -/
def State.stopSwap (s : State) (f : Nat) : State := if (s.frond f).ld.pend.isSome then s.cancelSwap f else s

theorem State.stopSwap_pend (s : State) (f : Nat) : ((s.stopSwap f).frond f).ld.pend = none := by
  unfold State.stopSwap
  split
  case isTrue => simp [State.cancelSwap]
  case isFalse hnone => simpa using hnone

theorem State.stopSwap_slf (s : State) (f : Nat) : ((s.stopSwap f).frond f).slf = (s.frond f).slf := by
  unfold State.stopSwap
  split
  · simp [State.cancelSwap]
  · rfl

/-- The first part of a stop: the function runs no longer, and the receiver is IDLE. -/
def State.stopReceive (s : State) (f : Nat) : State := ((s.wrB (R.FRD_ID_LINE_RUN f) false).stopRequest f).enterIdle f

/-- The second part: the overhead state, the queued frames, the scheduled swap. -/
def State.stopTransmit (s : State) (f : Nat) : State := ((s.stopDefects f).gccStop f).stopSwap f

theorem State.stopTransmit_pend (s : State) (f : Nat) : ((s.stopTransmit f).frond f).ld.pend = none := State.stopSwap_pend _ f

theorem State.stopTransmit_gccHost (s : State) (f : Nat) : ((s.stopTransmit f).frond f).slf.gccHost = [] := by
  rw [State.stopTransmit, State.stopSwap_slf, State.gccStop_gccHost]

theorem State.stopLine_of_run (h : s.lineRun f = true) : s.stopLine f = (((s.stopReceive f).stopTransmit f).modFrond f fun x => { x with
    fec := { x.fec with arrived := [], inner := [] } }).squelchUpdate f := by
  unfold State.stopLine
  rw [h]
  rfl

theorem State.stopLine_of_stopped (h : s.lineRun f = false) : s.stopLine f = s := by
  unfold State.stopLine
  rw [h]
  rfl

theorem State.stopReceive_touches (s : State) (f : Nat) :
    TouchesOnly f (idleRegs f) (s.wrB (R.FRD_ID_LINE_RUN f) false) (s.stopReceive f) := by
  unfold State.stopReceive
  exact (TouchesOnly.refl _ _ _).stopRequest.enterIdle

theorem TouchesOnly.stopTransmit {t : State} (h : TouchesOnly f (stopRegs f) s t) : TouchesOnly f (stopRegs f) s (t.stopTransmit f) := by
  unfold State.stopTransmit State.stopSwap
  split
  · exact h.stopDefects.gccStop.cancelSwap
  · exact h.stopDefects.gccStop

/-- The second part of a stop leaves the receiver as the first part left it. -/
theorem State.stopLine_touches (h : s.lineRun f = true) : TouchesOnly f (stopRegs f) (s.stopReceive f) (s.stopLine f) := by
  rw [State.stopLine_of_run h]
  exact ((TouchesOnly.refl _ _ _).stopTransmit.modFrond _).squelchUpdate

theorem State.stopLine_lineRun (h : s.lineRun f = true) : (s.stopLine f).lineRun f = false := by
  have transmit : (s.stopLine f).rd (R.FRD_ID_LINE_RUN f) = _ := (State.stopLine_touches h).rd (by
    simp [stopRegs, slfDef, R.FRD_ID_LINE_RUN, R.FRD_SLF_TCMDEF_TCM, R.FRD_SLF_STAT_SLICE_OOF, R.FRD_SLF_GCC_TX_DROP, R.FRD_LD_STAT_TX_PEND,
      R.FRD_TX_STAT_DARK])
  have receive : (s.stopReceive f).rd (R.FRD_ID_LINE_RUN f) = _ := (s.stopReceive_touches f).rd (by
    simp [idleRegs, R.FRD_ID_LINE_RUN, R.FRD_ACQ_STAT_STATE, R.FRD_LD_STAT_REQ_OUT, R.FRD_EQ_GEN_SEC_LO_SEC_LO, R.FRD_EQ_GEN_SEC_HI_SEC_HI,
      R.FRD_EQ_GEN_TEMP_TEMP, R.FRD_EQ_STAT_RETAINED, R.FRD_EQ_CD_EST_VALID])
  rw [State.lineRun, State.flag, transmit, receive, ← State.flag, State.flag_wrB_same _ _ (show 9 + 1 ≤ 32 by decide) (show 0 < 1 by decide)]

theorem State.stopLine_acqState (h : s.lineRun f = true) : (s.stopLine f).acqState f = 0 := by
  have transmit : (s.stopLine f).rd (R.FRD_ACQ_STAT_STATE f) = _ := (State.stopLine_touches h).rd (by
    simp [stopRegs, slfDef, R.FRD_ACQ_STAT_STATE, R.FRD_SLF_TCMDEF_TCM, R.FRD_SLF_STAT_SLICE_OOF, R.FRD_SLF_GCC_TX_DROP,
      R.FRD_LD_STAT_TX_PEND, R.FRD_TX_STAT_DARK])
  rw [State.acqState, transmit]
  exact State.acqState_enterIdle _ f

/-- R146, R206: the scheduled swap is cancelled, and the queued frames and what has arrived are discarded. -/
theorem State.stopLine_discards (h : s.lineRun f = true) : ((s.stopLine f).frond f).ld.pend = none ∧
    ((s.stopLine f).frond f).fec.arrived = [] ∧ ((s.stopLine f).frond f).slf.gccHost = [] := by
  rw [State.stopLine_of_run h, State.squelchUpdate_frond, State.frond_modFrond_same]
  dsimp only
  exact ⟨(s.stopReceive f).stopTransmit_pend f, rfl, (s.stopReceive f).stopTransmit_gccHost f⟩

theorem State.stopLine_frondsBut (h : s.lineRun f = true) : FrondsBut f s (s.stopLine f) := fun g hg =>
  (((State.stopLine_touches h).fronds g hg).trans ((s.stopReceive_touches f).fronds g hg)).trans (State.wrB_frond s _ _ g)

end

/-! #### Release at step 4 (R327) -/

section
variable {s : State}

theorem State.release_nil (h : s.host.release = []) : ({ s with host := { s.host with release := [] } } : State) = s := by
  rw [← h]

theorem State.releaseAll_none (h : s.host.release = []) : s.releaseAll = s := by
  unfold State.releaseAll
  rw [h]
  exact State.release_nil h

/-- A request of its own releases at once the function that it restarts. -/
theorem State.releaseAll_later (h : s.host.release = []) (kind id : Nat) (c : Completion) :
    ((s.releaseLater kind id).complete c).releaseAll = if kind = 0 then (s.complete c).releaseLine id
      else if kind = 1 then (s.complete c).releaseEp id else (s.complete c).releasePort id := by
  have waiting : ((s.releaseLater kind id).complete c).host.release = [(kind, id)] := by
    simp [State.releaseLater, h]
  have cleared : ({ (s.releaseLater kind id).complete c with
      host := { ((s.releaseLater kind id).complete c).host with release := [] } } : State) = s.complete c :=
    State.release_nil (s := s.complete c) h
  unfold State.releaseAll
  rw [waiting, cleared]
  rfl

/-! #### The checks -/

variable {h : ReqHdr} {mem : HostMem}

theorem pf_pass (hpf : h.isPf) : ∀ c ∈ (h.ctx s mem).pf, c.bad = false := by
  obtain ⟨hfn, htenant, hany⟩ := hpf
  simp [Ctx.pf, Ctx.ckPf, Ctx.ckNoAny, ckFormat, ReqHdr.ctx, ReqSrc.fn, *]

theorem ckFrond_pass {f : Nat} (hen : s.frondEnabled f = true) : (s.ckFrond f).bad = false := by
  simp [State.ckFrond, ckAbsent, hen]

theorem ckTenant_pass (hact : (s.tenant h.tenant).active = true) (hrange : s.inRange h.fn h.tenant = true) :
    ∀ c ∈ (h.ctx s mem).ckTenant s, c.bad = false := by
  simp [Ctx.ckTenant, ReqHdr.ctx, ReqSrc.fn, *]

/-- The function is a frond's line function that may be stopped, or started with a plan. -/
theorem chkFunc_line_pass {f : Nat} {start : Bool} (hpf : h.isPf) (hen : s.frondEnabled f = true)
    (hplan : start = true → s.rd (R.FRD_SC_PLAN_N f) ≠ 0) : ∀ c ∈ chkFunc start 0 f (h.ctx s mem) s, c.bad = false := by
  have absent : (ckAbsent (start && s.rd (R.FRD_SC_PLAN_N f) == 0)).bad = false := by
    cases start <;> simp_all [ckAbsent]
  simp only [chkFunc, List.forall_mem_append, List.forall_mem_cons]
  exact ⟨pf_pass hpf, ckFrond_pass hen, absent, by simp⟩

theorem chkFunc_ep_pass {e : Nat} {start : Bool} (hany : h.any = false) (hact : (s.tenant h.tenant).active = true)
    (hrange : s.inRange h.fn h.tenant = true) (he : e < 131072) (hkind : (s.ep e).entry.kind ≠ 0)
    (hown : h.tenant = 0 ∨ h.tenant = (s.ep e).entry.tenant) : ∀ c ∈ chkFunc start 1 e (h.ctx s mem) s, c.bad = false := by
  have owner : ((h.ctx s mem).ckOwner (s.ep e).entry.tenant).bad = false := by
    rcases hown with h0 | h0 <;> simp [Ctx.ckOwner, ReqHdr.ctx, h0]
  simp only [chkFunc, Ctx.ckEp, List.forall_mem_append, List.forall_mem_cons]
  exact ⟨hany, ckTenant_pass hact hrange, by simp [ckFormat, he], by simp [ckAbsent, hkind], owner, by simp⟩

theorem chkFunc_port_pass {p : Nat} {start : Bool} (hpf : h.isPf) (hp : p < 288) (hex : s.portExists p = true) :
    ∀ c ∈ chkFunc start 2 p (h.ctx s mem) s, c.bad = false := by
  simp only [chkFunc, List.forall_mem_append, List.forall_mem_cons]
  exact ⟨pf_pass hpf, by simp [ckAbsent, hp, hex], by simp⟩

/-! #### FUNC_STOP, FUNC_START and NOP (R326, R327) -/

theorem execNop_ok (hany : h.any = false) (hact : (s.tenant h.tenant).active = true) (hrange : s.inRange h.fn h.tenant = true) :
    exec (.nop h mem) s = .next (s.complete (doneOk h s 0x00 0)) := by
  have pass : ∀ c ∈ chkNop (h.ctx s mem) s, c.bad = false :=
    List.forall_mem_cons.mpr ⟨hany, ckTenant_pass hact hrange⟩
  exact congrArg _ (runOne_done _ pass rfl rfl rfl rfl)

/-- FUNC_STOP cannot fail at application, defers nothing and returns no RESULT. -/
theorem appFuncStop_plain (kind id : Nat) (c : Ctx) (s : State) :
    (appFuncStop kind id c s).fail = none ∧ (appFuncStop kind id c s).held = false ∧ (appFuncStop kind id c s).result = 0 := by
  unfold appFuncStop
  dsimp only
  split <;> exact ⟨rfl, rfl, rfl⟩

/-- A stop whose checks pass completes with the effect of the stop. -/
theorem execFuncStop_done {kind id : Nat} {t : State} (pass : ∀ c ∈ chkFunc false kind id (h.ctx s mem) s, c.bad = false)
    (ht : (appFuncStop kind id (h.ctx s mem) s).s = t) :
    exec (.funcStop h mem kind id) s = .next (t.complete (doneOk h s 0x01 0)) := by
  subst ht
  obtain ⟨hfail, hheld, hresult⟩ := appFuncStop_plain kind id (h.ctx s mem) s
  have done := runOne_done (op := 0x01) (b := .funcStop kind id) _ pass rfl hfail hheld (kept_tick (appFuncStop_kept kind id _ s))
  rw [hresult] at done
  exact congrArg _ done

section
variable (hrel : s.host.release = [])
include hrel

theorem State.release_filter (p : Nat × Nat → Bool) :
    ({ s with host := { s.host with release := s.host.release.filter p } } : State) = s := by
  rw [hrel]
  exact State.release_nil hrel

theorem execFuncStop_line {f : Nat} (hpf : h.isPf) (hen : s.frondEnabled f = true) :
    exec (.funcStop h mem 0 f) s = .next ((s.stopLine f).complete (doneOk h s 0x01 0)) := by
  refine execFuncStop_done (chkFunc_line_pass hpf hen (by simp)) ?_
  simp only [appFuncStop, State.release_filter hrel]

theorem execFuncStop_ep {e : Nat} (pass : ∀ c ∈ chkFunc false 1 e (h.ctx s mem) s, c.bad = false) (hst : (s.ep e).entry.state = 1) :
    exec (.funcStop h mem 1 e) s = .next ((s.stopEp e).complete (doneOk h s 0x01 0)) := by
  refine execFuncStop_done pass ?_
  simp only [appFuncStop, State.release_filter hrel, hst, if_true]

theorem execFuncStop_port {p : Nat} (hpf : h.isPf) (hp : p < 288) (hex : s.portExists p = true) (hrun : (s.port p).running = true) :
    exec (.funcStop h mem 2 p) s = .next ((s.stopPort p).complete (doneOk h s 0x01 0)) := by
  refine execFuncStop_done (chkFunc_port_pass hpf hp hex) ?_
  simp only [appFuncStop, State.release_filter hrel, hrun, if_true]

/-- A start of a running function changes nothing. -/
theorem execFuncStart_running {kind id : Nat} (pass : ∀ c ∈ chkFunc true kind id (h.ctx s mem) s, c.bad = false)
    (hrun : s.funcRuns kind id = true) : exec (.funcStart h mem kind id) s = .next (s.complete (doneOk h s 0x02 0)) := by
  have effect : appFuncStart kind id (h.ctx s mem) s = { s := s } := by simp [appFuncStart, hrun]
  have done := runOne_done (op := 0x02) (b := .funcStart kind id) _ pass effect rfl rfl rfl
  show execFuncStart h mem kind id s = _
  rw [execFuncStart, done]
  exact congrArg _ (State.releaseAll_none hrel)

/-- A start of a stopped function releases it after the completion. -/
theorem execFuncStart_stopped {kind id : Nat} (pass : ∀ c ∈ chkFunc true kind id (h.ctx s mem) s, c.bad = false)
    (hrun : s.funcRuns kind id = false) : exec (.funcStart h mem kind id) s = .next (
      if kind = 0 then (s.complete (doneOk h s 0x02 0)).releaseLine id
      else if kind = 1 then (s.complete (doneOk h s 0x02 0)).releaseEp id else (s.complete (doneOk h s 0x02 0)).releasePort id) := by
  have effect : appFuncStart kind id (h.ctx s mem) s = { s := s.releaseLater kind id } := by simp [appFuncStart, hrun]
  have done := runOne_done (op := 0x02) (b := .funcStart kind id) _ pass effect rfl rfl rfl
  show execFuncStart h mem kind id s = _
  rw [execFuncStart, done]
  exact congrArg _ (State.releaseAll_later hrel kind id _)

theorem execFuncStart_line_stopped {f : Nat} (hpf : h.isPf) (hen : s.frondEnabled f = true) (hstopped : s.lineRun f = false)
    (hplan : s.rd (R.FRD_SC_PLAN_N f) ≠ 0) :
    exec (.funcStart h mem 0 f) s = .next ((s.complete (doneOk h s 0x02 0)).releaseLine f) := by
  rw [execFuncStart_stopped hrel (chkFunc_line_pass hpf hen fun _ => hplan) hstopped, if_pos rfl]

theorem execFuncStart_ep_stopped {e : Nat} (pass : ∀ c ∈ chkFunc true 1 e (h.ctx s mem) s, c.bad = false)
    (hst : (s.ep e).entry.state ≠ 1) :
    exec (.funcStart h mem 1 e) s = .next ((s.complete (doneOk h s 0x02 0)).releaseEp e) := by
  rw [execFuncStart_stopped hrel pass (by simpa [State.funcRuns] using hst), if_neg (by decide), if_pos rfl]

theorem execFuncStart_port_stopped {p : Nat} (hpf : h.isPf) (hp : p < 288) (hex : s.portExists p = true)
    (hstopped : (s.port p).running = false) :
    exec (.funcStart h mem 2 p) s = .next ((s.complete (doneOk h s 0x02 0)).releasePort p) := by
  rw [execFuncStart_stopped hrel (chkFunc_port_pass hpf hp hex) hstopped, if_neg (by decide), if_neg (by decide)]

/-- A line function with no plan is an absent resource, whether it runs or not. -/
theorem execFuncStart_unplanned {f : Nat} (hpf : h.isPf) (hplan : s.rd (R.FRD_SC_PLAN_N f) = 0) :
    exec (.funcStart h mem 0 f) s = .next (s.complete (doneRefused h s 0x02 St.absent 0)) := by
  have fails : firstFail (chkFunc true 0 f (h.ctx s mem) s) = some ⟨St.absent, 0⟩ := by
    refine firstFail_eq_some ⟨ckAbsent (true && s.rd (R.FRD_SC_PLAN_N f) == 0), by simp [chkFunc], by simp [ckAbsent, hplan]⟩ ?_
    intro c hc hbad
    rcases List.mem_append.mp hc with hpass | hline
    · simp [pf_pass hpf c hpass] at hbad
    · rcases List.mem_pair.mp hline with rfl | rfl <;> exact ⟨rfl, rfl⟩
  have refused := runOne_refused (op := 0x02) (b := .funcStart 0 f) (app := appFuncStart 0 f) fails (by decide) (by decide) (by simp)
    (by simp)
  show execFuncStart h mem 0 f s = _
  rw [execFuncStart, refused]
  exact congrArg _ (State.releaseAll_none hrel)

end

/-! #### LINE_SETUP (R148, R232) -/

/-- A plan and starting codes that keep R125 to R129, on a stopped frond that loses no occupied slot. -/
theorem execLineSetup_stopped {f n count slotM : Nat} {grid : Int} {en : Bool} {codes start : List Nat} (hrel : s.host.release = [])
    (hpf : h.isPf) (hfrond : s.frondEnabled f = true) (hstopped : s.lineRun f = false) (hplan : planOk n count slotM grid = true)
    (hslots : s.slotOwner.any (fun q => slotKind q.1 == 0 && q.1 / 2 ^ 12 % 2 ^ 28 == f && decide (20 * n ≤ q.1 % 2 ^ 12)) = false)
    (hcodes : (if en then !tableValid n count codes else codes.any (· != 0)) = false)
    (hstart : (if en then codes else flatTable n count) = start) :
    exec (.lineSetup h mem f n count slotM grid en codes) s = .next ((((((s.wr (R.FRD_SC_PLAN_N f) n).wr
      (R.FRD_SC_PLAN_COUNT f) count).wr (R.FRD_SC_PLAN_SLOT_M f) slotM).wrS (R.FRD_SC_PLAN_GRID_N f) grid).modFrond f fun y => { y with
      ld := { y.ld with startCodes := start } }).complete (doneOk h s 0x10 0)) := by
  have pass : ∀ c ∈ chkLineSetup f n count slotM grid en codes (h.ctx s mem) s, c.bad = false := by
    simp only [chkLineSetup, List.forall_mem_append, List.forall_mem_cons, hslots, hcodes, hplan]
    exact ⟨pf_pass hpf, rfl, rfl, ckFrond_pass hfrond, rfl, by simp⟩
  have effect : appLineSetup f n count slotM grid en codes (h.ctx s mem) s = { s := ((((s.wr (R.FRD_SC_PLAN_N f) n).wr
      (R.FRD_SC_PLAN_COUNT f) count).wr (R.FRD_SC_PLAN_SLOT_M f) slotM).wrS (R.FRD_SC_PLAN_GRID_N f) grid).modFrond f fun y => { y with
      ld := { y.ld with startCodes := start } } } := by
    simp only [appLineSetup, State.stopLine_of_stopped hstopped, hstopped, hstart, Bool.false_and, Bool.false_eq_true, if_false]
  show execLineSetup h mem f n count slotM grid en codes s = _
  rw [execLineSetup, runOne_done _ pass effect rfl rfl (by simp), State.releaseAll_none (by simpa using hrel)]

/-! #### LINE_OH (R193, R196, R277) -/

/-- An item of a frond's overhead: a trace that host memory holds, or the mode of a TCM level. -/
theorem chkLineOh_pass {f layer item mode addr : Nat} (hpf : h.isPf) (hfrond : s.frondEnabled f = true) (hlayer : layer < 8)
    (hitem : item ≤ 2) (hmode : mode < 2) (htcm : item = 2 → 2 ≤ layer)
    (hread : item ≠ 2 → addr % 64 = 0 ∧ (readHost mem addr 64).isSome = true) :
    ∀ c ∈ chkLineOh 0 f layer item mode addr (h.ctx s mem) s, c.bad = false := by
  have fields : (ckFormat (decide (1 < 0) || decide (7 < layer) || decide (2 < item) || decide (1 < mode))).bad = false := by
    simp [ckFormat, show layer ≤ 7 by omega, hitem, show mode ≤ 1 by omega]
  have level : (ckFormat (item == 2 && decide (layer < 2))).bad = false := by
    by_cases h2 : item = 2
    · simp [ckFormat, (htcm h2).not_gt]
    · simp [ckFormat, h2]
  have trace : ∀ c ∈ (if item = 2 then [] else [(h.ctx s mem).ckRead addr 64, ckAlign addr 64]), c.bad = false := by
    split
    case isTrue => simp
    case isFalse hne =>
      obtain ⟨halign, hsome⟩ := hread hne
      simp [Ctx.ckRead, ckAlign, halign, ReqHdr.ctx, hsome]
  simp only [chkLineOh, List.forall_mem_append, List.forall_mem_cons, if_true]
  exact ⟨⟨⟨pf_pass hpf, fields, level, by simp⟩, trace⟩, ckFrond_pass hfrond, by simp⟩

theorem execLineOh_done {f layer item mode addr : Nat} {t : State}
    (pass : ∀ c ∈ chkLineOh 0 f layer item mode addr (h.ctx s mem) s, c.bad = false)
    (effect : appLineOh 0 f layer item mode addr (h.ctx s mem) s = { s := t }) :
    exec (.lineOh h mem 0 f layer item mode addr) s = .next (t.complete (doneOk h s 0x13 0)) := by
  have tick : t.tick = s.tick := by
    have kept := appLineOh_kept 0 f layer item mode addr (h.ctx s mem) s
    rw [effect] at kept
    exact kept_tick kept
  exact congrArg _ (runOne_done _ pass effect rfl rfl tick)

section
variable {f layer mode addr : Nat} {tti : List Byte}

theorem execLineOh_sent (hread : readHost mem addr 64 = some tti)
    (pass : ∀ c ∈ chkLineOh 0 f layer 0 mode addr (h.ctx s mem) s, c.bad = false) :
    exec (.lineOh h mem 0 f layer 0 mode addr) s = .next (((s.setLayer f layer { s.layer f layer with ttiSent := tti }).evalTim f
      layer).complete (doneOk h s 0x13 0)) :=
  execLineOh_done pass (by simp [appLineOh, ReqHdr.ctx, hread])

theorem execLineOh_expected (hread : readHost mem addr 64 = some tti)
    (pass : ∀ c ∈ chkLineOh 0 f layer 1 mode addr (h.ctx s mem) s, c.bad = false) :
    exec (.lineOh h mem 0 f layer 1 mode addr) s = .next (((s.setLayer f layer { s.layer f layer with ttiExp := tti }).evalTim f
      layer).complete (doneOk h s 0x13 0)) :=
  execLineOh_done pass (by simp [appLineOh, ReqHdr.ctx, hread])

theorem execLineOh_tcmOff (pass : ∀ c ∈ chkLineOh 0 f layer 2 0 addr (h.ctx s mem) s, c.bad = false) :
    exec (.lineOh h mem 0 f layer 2 0 addr) s = .next ((s.tcmOff f layer).complete (doneOk h s 0x13 0)) :=
  execLineOh_done pass (by simp [appLineOh])

theorem execLineOh_tcmOn (pass : ∀ c ∈ chkLineOh 0 f layer 2 1 addr (h.ctx s mem) s, c.bad = false) :
    exec (.lineOh h mem 0 f layer 2 1 addr) s = .next (((s.setLayer f layer { s.layer f layer with mode := true }).evalTim f
      layer).complete (doneOk h s 0x13 0)) :=
  execLineOh_done pass (by simp [appLineOh])

end

/-! #### GCC_SEND and GCC_RX_POST (R206, R334) -/

section
variable {f len addr : Nat} {b : List Byte} (hpf : h.isPf) (hfrond : s.frondEnabled f = true) (hlen : len ≤ 4352)
  (halign : addr % 64 = 0) (hread : readHost mem addr len = some b)
include hpf hfrond hlen halign hread

/-- Of the checks of GCC_SEND only that of the queue can fail. -/
theorem chkGccSend_bad {c : Ck} (hc : c ∈ chkGccSend f len addr (h.ctx s mem) s) (hbad : c.bad = true) :
    c = ckCond (decide (16 ≤ (s.frond f).slf.gccHost.length)) St.queueFull := by
  have others : ∀ c ∈ (h.ctx s mem).pf ++ [(h.ctx s mem).ckRead addr len, ckFormat (decide (4352 < len)), ckAlign addr 64, s.ckFrond f],
      c.bad = false := by
    simp only [List.forall_mem_append, List.forall_mem_cons]
    exact ⟨pf_pass hpf, by simp [Ctx.ckRead, ReqHdr.ctx, hread], by simp [ckFormat, hlen], by simp [ckAlign, halign], ckFrond_pass hfrond,
      by simp⟩
  by_contra hne
  have listed : c ∈ (h.ctx s mem).pf ++ [(h.ctx s mem).ckRead addr len, ckFormat (decide (4352 < len)), ckAlign addr 64, s.ckFrond f] := by
    simpa [chkGccSend, hne] using hc
  simp [others c listed] at hbad

theorem execGccSend_full (hfull : 16 ≤ (s.frond f).slf.gccHost.length) :
    exec (.gccSend h mem f len addr) s = .next (s.complete (doneRefused h s 0x14 St.queueFull 0)) := by
  have fails : firstFail (chkGccSend f len addr (h.ctx s mem) s) = some ⟨St.queueFull, 0⟩ := by
    refine firstFail_eq_some ⟨ckCond (decide (16 ≤ (s.frond f).slf.gccHost.length)) St.queueFull, by simp [chkGccSend],
      by simp [ckCond, hfull]⟩ fun c hc hbad => ?_
    rw [chkGccSend_bad hpf hfrond hlen halign hread hc hbad]
    exact ⟨rfl, rfl⟩
  exact congrArg _ (runOne_refused fails (by decide) (by decide) (by simp) (by simp))

section
variable (hroom : (s.frond f).slf.gccHost.length < 16)
include hroom

theorem chkGccSend_pass : ∀ c ∈ chkGccSend f len addr (h.ctx s mem) s, c.bad = false := fun c hc => by
  by_contra hbad
  have queue := chkGccSend_bad hpf hfrond hlen halign hread hc (by simpa using hbad)
  simp [queue, ckCond, hroom] at hbad

theorem execGccSend_queued (hrun : s.lineRun f = true) :
    exec (.gccSend h mem f len addr) s = .next ((s.modSlf f fun y => { y with
      gccHost := y.gccHost ++ [{ typ := 1, payload := b }] }).complete (doneOk h s 0x14 0)) := by
  have effect : appGccSend f len addr (h.ctx s mem) s = { s := s.modSlf f fun y => { y with
      gccHost := y.gccHost ++ [{ typ := 1, payload := b }] } } := by
    simp [appGccSend, ReqHdr.ctx, hread, hrun]
  exact congrArg _ (runOne_done _ (chkGccSend_pass hpf hfrond hlen halign hread hroom) effect rfl rfl (kept_tick (State.modSlf_kept _ _ _)))

/-- R206: a stopped line function discards the frame and counts it. -/
theorem execGccSend_discarded (hstopped : s.lineRun f = false) :
    exec (.gccSend h mem f len addr) s = .next ((s.bump (R.FRD_SLF_GCC_TX_DROP f) 1).complete (doneOk h s 0x14 0)) := by
  have effect : appGccSend f len addr (h.ctx s mem) s = { s := s.bump (R.FRD_SLF_GCC_TX_DROP f) 1 } := by
    simp [appGccSend, hstopped]
  exact congrArg _ (runOne_done _ (chkGccSend_pass hpf hfrond hlen halign hread hroom) effect rfl rfl rfl)

end
end

theorem execGccRxPost_ok {tag addr : Nat} (hpf : h.isPf) (halign : addr % 64 = 0) (hroom : s.host.posted.length < 256) :
    exec (.gccRxPost h mem tag addr) s = .next (({ s with host := { s.host with posted := s.host.posted ++ [(tag, addr)] } } :
      State).complete (doneOk h s 0x15 0)) := by
  have pass : ∀ c ∈ chkGccRxPost addr (h.ctx s mem) s, c.bad = false := by
    simp only [chkGccRxPost, List.forall_mem_append, List.forall_mem_cons]
    exact ⟨pf_pass hpf, by simp [ckAlign, halign], by simp [ckCond, hroom], by simp⟩
  exact congrArg _ (runOne_done _ pass rfl rfl rfl rfl)

end

/-! #### The statement at a line function that runs with no plan -/

/-- The two completions tell a refused request from one that was applied. -/
theorem complete_doneRefused_ne_doneOk (h : ReqHdr) (s : State) (op : Nat) {st : Nat} (hst : st ≠ St.ok) :
    s.complete (doneRefused h s op st 0) ≠ s.complete (doneOk h s op 0) := fun same => by
  have last := congrArg (fun t : State => t.host.done.getLast?.map Completion.status) same
  simp only [State.complete_host, List.getLast?_concat, Option.map_some, Option.some.injEq] at last
  exact hst last

/-- Frond 0 runs, as LINE_RUN tells, and its plan is the one of reset: none. -/
def unplannedRun : State := State.reset.wr (R.FRD_ID_LINE_RUN 0) 1

/-- Refutes O47: it asks of every state that a start of a running line function completes, and the model's check for the plan comes before
the look at whether the function runs, so where a function runs with no plan the start is refused as ABSENT. With the check passed the
clause holds (`execFuncStart_running`), and the equations above give the other clauses of every state. -/
theorem not_functionCommands : ¬ Obligations.FunctionCommands := by
  intro h
  have hpf : ({ fn := 0, ring := 0, dn := 0, tenant := 0 } : ReqHdr).isPf := ⟨rfl, rfl, rfl⟩
  obtain ⟨-, line, -⟩ := h unplannedRun _ [] rfl
  obtain ⟨-, -, running, -⟩ := line 0 hpf (by decide)
  have refused := execFuncStart_unplanned (s := unplannedRun) (f := 0) (mem := []) rfl hpf (by decide +kernel)
  exact complete_doneRefused_ne_doneOk _ _ _ (by decide) (Host.Outcome.next.inj (refused.symm.trans (running (by decide +kernel))))

end Sys2Proof.Machine

/-! ### The inner and the outer code (R158 to R161) -/

namespace Sys2Proof.Machine

/-! #### Parity of an inner codeword -/

section
variable {w t z : Nat} {info : Nat → Nat → Bool}

theorem edgeShift_lt (r v k : Nat) : edgeShift r v k < 1024 := Nat.mod_lt _ (by decide)

/-- An edge's permutation, undone: the parity bit that a check takes is the one solved from that check. -/
theorem unshift_shift {s : Nat} (hz : z < 1024) (hs : s < 1024) : ((z + s) % 1024 + 1024 - s) % 1024 = z := by omega

/-- R160: row group 0 gives group 14, row group 1 group 15 and row group 2 group 16, each as the sum of what else its checks take. -/
theorem parity14_shift (hz : z < 1024) : parity14 w info t ((z + edgeShift 0 14 0) % 1024) = infoSum w info t 0 z := by
  rw [parity14, unshift_shift hz (edgeShift_lt _ _ _)]

theorem parity15_shift (hz : z < 1024) : parity15 w info t ((z + edgeShift 1 15 0) % 1024) =
    (infoSum w info t 1 z != parity14 w info t ((z + edgeShift 1 14 0) % 1024)) := by
  simp only [parity15, unshift_shift hz (edgeShift_lt _ _ _)]

theorem parity16_shift (hz : z < 1024) : parity16 w info t ((z + edgeShift 2 16 0) % 1024) =
    ((infoSum w info t 2 z != parity14 w info t ((z + edgeShift 2 14 0) % 1024)) !=
      parity15 w info t ((z + edgeShift 2 15 0) % 1024)) := by
  simp only [parity16, unshift_shift hz (edgeShift_lt _ _ _)]

theorem innerBit_info {x : Nat} (hx : x < 14336) : innerBit w info t x = info t x := if_pos hx

theorem innerBit_parity14 (y : Nat) : innerBit w info t (1024 * 14 + y % 1024) = parity14 w info t (y % 1024) := by
  have := Nat.mod_lt y (show 1024 > 0 by decide)
  rw [innerBit, if_neg (by omega), if_pos (by omega), Nat.add_sub_cancel_left]

theorem innerBit_parity15 (y : Nat) : innerBit w info t (1024 * 15 + y % 1024) = parity15 w info t (y % 1024) := by
  have := Nat.mod_lt y (show 1024 > 0 by decide)
  rw [innerBit, if_neg (by omega), if_neg (by omega), if_pos (by omega), Nat.add_sub_cancel_left]

theorem innerBit_parity16 (y : Nat) : innerBit w info t (1024 * 16 + y % 1024) = parity16 w info t (y % 1024) := by
  rw [innerBit, if_neg (by omega), if_neg (by omega), if_neg (by omega), Nat.add_sub_cancel_left]

/-- The information edges of a check see the information bits of the codewords alone. -/
theorem infoSum_innerBit (r : Nat) : infoSum w (innerBit w info) t r z = infoSum w info t r z := by
  refine List.foldl_ext _ _ _ fun a v hv => List.foldl_ext _ _ _ fun b k _ => ?_
  have inside : 1024 * v + (z + edgeShift r v k) % 1024 < 14336 := by
    have := List.mem_range.mp hv
    have := Nat.mod_lt (z + edgeShift r v k) (show 1024 > 0 by decide)
    omega
  rw [innerBit_info inside]

/-- Every check of an encoded position sums to 0: its last parity bit is the sum of its other bits. -/
theorem checkSum_innerBit {r : Nat} (hr : r < 3) (hz : z < 1024) : checkSum w (innerBit w info) t r z = false := by
  simp only [checkSum, infoSum_innerBit, innerBit_parity14, innerBit_parity15, innerBit_parity16]
  match r, hr with
  | 0, _ => simp [parity14_shift hz]
  | 1, _ => simp [parity15_shift hz]
  | 2, _ => simp [parity16_shift hz]

end

/-! #### The outer code's division -/

/-- One step of the division by g(x): the remainder takes in one bit. -/
def bchStep (r : Nat) (b : Bool) : Nat :=
  if decide (r / 2 ^ 32 % 2 = 1) != b then r * 2 % 2 ^ 33 ^^^ (bchGen % 2 ^ 33) else r * 2 % 2 ^ 33

theorem bchParity_eq (info : List Bool) : bchParity info = info.foldl bchStep 0 := (rfl)

theorem bchStep_lt (r : Nat) (b : Bool) : bchStep r b < 2 ^ 33 := by
  have shifted : r * 2 % 2 ^ 33 < 2 ^ 33 := Nat.mod_lt _ (by decide)
  unfold bchStep
  split
  · exact Nat.xor_lt_two_pow shifted (by decide)
  · exact shifted

theorem bchParity_lt (info : List Bool) : bchParity info < 2 ^ 33 := by
  rw [bchParity_eq]
  exact List.foldlRecOn (motive := (· < 2 ^ 33)) info bchStep (by decide) fun r _ b _ => bchStep_lt r b

theorem bitsBe_length (n v : Nat) : (bitsBe n v).length = n := by simp [bitsBe]

theorem bitsBe_succ (n v : Nat) : bitsBe (n + 1) v = decide (v / 2 ^ n % 2 = 1) :: bitsBe n v := by
  simp only [bitsBe, List.range_succ_eq_map, List.map_cons, List.map_map, Nat.add_sub_cancel, Nat.sub_zero]
  congr 1
  refine List.map_congr_left fun i _ => ?_
  simp only [Function.comp_apply, Nat.succ_eq_add_one, show n - (i + 1) = n - 1 - i by omega]

/-- A remainder that takes in its own leading bit only shifts. -/
theorem bchStep_top (r : Nat) : bchStep r (decide (r / 2 ^ 32 % 2 = 1)) = r * 2 % 2 ^ 33 := by simp [bchStep]

/-- A remainder that takes in its own bits from the first to the last becomes 0: after 33 − n of them it holds its last `n` bits,
shifted to the top. -/
theorem foldl_bchStep_bitsBe {n : Nat} (hn : n ≤ 33) (v : Nat) : (bitsBe n v).foldl bchStep (v * 2 ^ (33 - n) % 2 ^ 33) = 0 := by
  induction n with
  | zero => simp [bitsBe]
  | succ n ih =>
    have top : decide (v * 2 ^ (32 - n) % 2 ^ 33 / 2 ^ 32 % 2 = 1) = decide (v / 2 ^ n % 2 = 1) := by
      rw [← Nat.testBit_eq_decide_div_mod_eq, ← Nat.testBit_eq_decide_div_mod_eq, Nat.testBit_mod_two_pow, Nat.testBit_mul_two_pow]
      simp [show 32 - (32 - n) = n by omega]
    have shift : v * 2 ^ (32 - n) % 2 ^ 33 * 2 % 2 ^ 33 = v * 2 ^ (33 - n) % 2 ^ 33 := by
      rw [Nat.mod_mul_mod, Nat.mul_assoc, ← Nat.pow_succ, show (32 - n).succ = 33 - n by omega]
    rw [bitsBe_succ, List.foldl_cons, show 33 - (n + 1) = 32 - n by omega, ← top, bchStep_top, shift]
    exact ih (by omega)

/-- R161: division by the generator leaves nothing of a codeword. -/
theorem bchParity_bchEncode (info : List Bool) : bchParity (bchEncode info) = 0 := by
  have drained := foldl_bchStep_bitsBe (Nat.le_refl 33) (bchParity info)
  rw [Nat.sub_self, pow_zero, Nat.mul_one, Nat.mod_eq_of_lt (bchParity_lt info)] at drained
  rw [bchEncode, bchParity_eq, List.foldl_append, ← bchParity_eq, drained]

/-- Settles O10: each check by the parity bit solved from it, each outer codeword by dividing it out. -/
theorem innerEncoderChecks : Obligations.InnerEncoderChecks := by
  refine ⟨fun w info t r z _ _ => checkSum_innerBit, fun info => ⟨List.take_left, ?_, bchParity_bchEncode info⟩,
    by decide +kernel, by decide⟩
  rw [bchEncode, List.length_append, bitsBe_length]

/-! ### The interleaver (R164) -/

/-- At each net rate the search ends at a multiplier coprime to the number of coded bits. -/
theorem coprime_interleaveA {n : Nat} (lo : 2 ≤ n) (hi : n ≤ 24) : (interleaveA n).Coprime (fecC n) := by
  revert n
  decide +kernel

/-- Multiplication by a coprime multiplier is injective on the residues. -/
theorem linePosition_injective {n i j : Nat} (coprime : (interleaveA n).Coprime (fecC n)) (hi : i < fecC n) (hj : j < fecC n)
    (same : linePosition n i = linePosition n j) : i = j :=
  (Nat.ModEq.cancel_left_of_coprime coprime.symm same).eq_of_lt_of_lt hi hj

/-- Settles O11. -/
theorem interleaver : Obligations.Interleaver :=
  ⟨by decide +kernel, fun _ lo hi _ _ => linePosition_injective (coprime_interleaveA lo hi)⟩

end Sys2Proof.Machine

/-! ### The layout of the FEC and the decoder's slots (R155 to R157, R169, R172) -/

namespace Sys2Proof.Machine

/-! #### Punctured bits and owners -/

/-- The punctured bits of the codewords before one add up as a fraction of P(n), rounded down. -/
theorem sum_fecPunct_range (n k : Nat) : ((List.range k).map (fecPunct n)).sum = fecP n * k / fecW n := by
  have grows : Monotone fun t => fecP n * t / fecW n := fun a b hab => Nat.div_le_div_right (Nat.mul_le_mul_left _ hab)
  have telescope := Finset.sum_range_tsub grows k
  simp only [Nat.mul_zero, Nat.zero_div, Nat.sub_zero] at telescope
  exact telescope

/-- R155: the codewords lose P(n) bits between them. -/
theorem sum_fecPunct (n : Nat) : ((List.range (fecW n)).map (fecPunct n)).sum = fecP n := by
  rw [sum_fecPunct_range]
  rcases Nat.eq_zero_or_pos (fecW n) with none | some
  · simp [fecP, none]
  · exact Nat.mul_div_cancel _ some

/-- R172: the first bit of an outer codeword lies in an inner codeword of the superframe. -/
theorem outerOwner_lt {n v : Nat} (hv : v < fecV n) : outerOwner v < fecW n := by
  have first : fecV n ≤ fecV0 n := by
    unfold fecV
    split <;> omega
  unfold fecV0 ceilDiv fecI at first
  unfold outerOwner
  omega

/-! #### The slots of a superframe (R169) -/

/-- One codeword's turn in a pass: a slot, unless it is settled or, beyond the base share, the budget is spent. -/
def slotTurn (base : Nat) (settle : Nat → Option Nat) (pass : Nat) (acc : Nat × List (Nat × Nat)) (t : Nat) : Nat × List (Nat × Nat) :=
  if (settle t).any (fun q => decide (q < pass)) then acc
  else if base < pass ∧ 14000 ≤ acc.1 then acc
  else (acc.1 + 1, (pass, t) :: acc.2)

/-- A pass over the codewords of a superframe. -/
def slotPass (w base : Nat) (settle : Nat → Option Nat) (acc : Nat × List (Nat × Nat)) (p : Nat) : Nat × List (Nat × Nat) :=
  (List.range w).foldl (slotTurn base settle (p + 1)) acc

theorem slotOrder_eq (w limit : Nat) (settle : Nat → Option Nat) :
    slotOrder w limit settle = ((List.range limit).foldl (slotPass w (min limit (14000 / w)) settle) (0, [])).2.reverse := (rfl)

/-- What a turn can do: nothing, or one slot, which beyond the base share the budget still had. -/
theorem slotTurn_cases (base : Nat) (settle : Nat → Option Nat) (pass : Nat) (acc : Nat × List (Nat × Nat)) (t : Nat) :
    slotTurn base settle pass acc t = acc ∨
      slotTurn base settle pass acc t = (acc.1 + 1, (pass, t) :: acc.2) ∧ (base < pass → acc.1 < 14000) := by
  unfold slotTurn
  split_ifs with _ hspent
  · exact .inl rfl
  · exact .inl rfl
  · exact .inr ⟨rfl, fun beyond => by simpa [beyond] using hspent⟩

/-- What the turns of a pass can do: some of the codewords receive one slot each, and beyond the base share no more than the budget
allows. -/
theorem foldl_slotTurn (base : Nat) (settle : Nat → Option Nat) (pass : Nat) (l : List Nat) (acc : Nat × List (Nat × Nat)) :
    ∃ served : List Nat, served.Sublist l ∧
      l.foldl (slotTurn base settle pass) acc = (acc.1 + served.length, (served.map (Prod.mk pass)).reverse ++ acc.2) ∧
      (base < pass → acc.1 ≤ 14000 → acc.1 + served.length ≤ 14000) := by
  induction l generalizing acc with
  | nil => exact ⟨[], List.Sublist.refl _, by simp, by simp⟩
  | cons t l ih =>
    obtain ⟨served, hsub, hfold, hbudget⟩ := ih (slotTurn base settle pass acc t)
    rw [List.foldl_cons, hfold]
    rcases slotTurn_cases base settle pass acc t with skipped | ⟨turn, room⟩
    · rw [skipped] at hbudget ⊢
      exact ⟨served, hsub.cons t, rfl, hbudget⟩
    · rw [turn] at hbudget ⊢
      refine ⟨t :: served, hsub.cons_cons t, by simp [Nat.add_assoc, Nat.add_comm 1], fun beyond _ => ?_⟩
      rw [List.length_cons, Nat.add_comm _ 1, ← Nat.add_assoc]
      exact hbudget beyond (room beyond)

/-- The slots of passes 1 to `p`, in order, were every codeword served in each. -/
def fullSlots (w p : Nat) : List (Nat × Nat) := (List.range p).flatMap fun q => (List.range w).map (Prod.mk (q + 1))

theorem mem_fullSlots {w p : Nat} {x : Nat × Nat} : x ∈ fullSlots w p ↔ 1 ≤ x.1 ∧ x.1 ≤ p ∧ x.2 < w := by
  obtain ⟨a, t⟩ := x
  simp only [fullSlots, List.mem_flatMap, List.mem_map, List.mem_range, Prod.mk.injEq]
  constructor
  · rintro ⟨q, hq, t, ht, rfl, rfl⟩
    exact ⟨by omega, by omega, ht⟩
  · rintro ⟨h1, hp, ht⟩
    exact ⟨a - 1, by omega, t, ht, by omega, rfl⟩

theorem nodup_fullSlots (w p : Nat) : (fullSlots w p).Nodup := by
  refine List.nodup_flatMap.mpr ⟨fun q _ => List.nodup_range.map (Prod.mk_right_injective _), ?_⟩
  refine List.nodup_range.imp fun {a b} hab => List.disjoint_left.mpr fun x ha hb => ?_
  simp only [List.mem_map, List.mem_range] at ha hb
  obtain ⟨_, _, rfl⟩ := ha
  obtain ⟨_, _, he⟩ := hb
  simp only [Prod.mk.injEq] at he
  omega

/-- The account after `p` passes: the slots spent are some of those passes' slots, counted, and within the budget. -/
structure SlotAccount (w base p : Nat) (acc : Nat × List (Nat × Nat)) : Prop where
  count : acc.1 = acc.2.length
  slots : acc.2.reverse.Sublist (fullSlots w p)
  budget : acc.1 ≤ 14000
  share : p ≤ base → acc.1 ≤ p * w

theorem slotAccount_passes {w base : Nat} (hbase : base * w ≤ 14000) (settle : Nat → Option Nat) (p : Nat) :
    SlotAccount w base p ((List.range p).foldl (slotPass w base settle) (0, [])) := by
  induction p with
  | zero => exact ⟨rfl, List.Sublist.refl _, Nat.zero_le _, fun _ => Nat.zero_le _⟩
  | succ p ih =>
    rw [List.range_succ, List.foldl_append]
    generalize (List.range p).foldl (slotPass w base settle) (0, []) = acc at ih
    obtain ⟨served, hsub, hpass, hbudget⟩ := foldl_slotTurn base settle (p + 1) (List.range w) acc
    have few : served.length ≤ w := by simpa using hsub.length_le
    have share : p + 1 ≤ base → acc.1 + served.length ≤ (p + 1) * w := fun hp => by
      have := ih.share (by omega)
      rw [Nat.succ_mul]
      omega
    rw [List.foldl_cons, List.foldl_nil, slotPass, hpass]
    refine ⟨?count, ?slots, ?budget, share⟩
    case count => simp [ih.count, Nat.add_comm]
    case slots => simpa [fullSlots, List.range_succ] using ih.slots.append (hsub.map (Prod.mk (p + 1)))
    case budget =>
      rcases Nat.lt_or_ge base (p + 1) with beyond | within
      · exact hbudget beyond ih.budget
      · exact (share within).trans ((Nat.mul_le_mul_right w within).trans hbase)

theorem slotAccount_slotOrder (w limit : Nat) (settle : Nat → Option Nat) :
    (slotOrder w limit settle).Sublist (fullSlots w limit) ∧ (slotOrder w limit settle).length ≤ 14000 := by
  have share : min limit (14000 / w) * w ≤ 14000 :=
    (Nat.mul_le_mul_right w (Nat.min_le_right _ _)).trans (Nat.div_mul_le_self _ _)
  have account := slotAccount_passes share settle limit
  rw [slotOrder_eq, List.length_reverse, ← account.count]
  exact ⟨account.slots, account.budget⟩

/-- Settles O9, from the telescoping sum of the punctured bits, the owner of an outer codeword's first bit, and the slots' account. -/
theorem fecLayout : Obligations.FecLayout := by
  refine ⟨⟨by decide +kernel, fun n _ => sum_fecPunct n, fun n v _ => outerOwner_lt⟩, fun w limit settle _ => ?slots⟩
  case slots =>
    obtain ⟨hsub, hlen⟩ := slotAccount_slotOrder w limit settle
    have once : (slotOrder w limit settle).Nodup := (nodup_fullSlots w limit).sublist hsub
    refine ⟨hlen, once, fun p hp => mem_fullSlots.mp (hsub.subset hp), fun t _ => ?_⟩
    have each : (slotOrder w limit settle).filter (fun p => p.2 == t) ⊆ (List.range limit).map fun p => (p + 1, t) := fun p hp => by
      obtain ⟨hmem, ht⟩ := List.mem_filter.mp hp
      obtain ⟨h1, hp, -⟩ := mem_fullSlots.mp (hsub.subset hmem)
      exact List.mem_map.mpr ⟨p.1 - 1, List.mem_range.mpr (by omega), Prod.ext (by simp only; omega) (beq_iff_eq.mp ht).symm⟩
    simpa using ((once.filter _).subperm each).length_le

end Sys2Proof.Machine

/-! ### Faults and failed parity leave the fronds alone (R436, R551, R575, R576) -/

namespace Sys2Proof.Machine

section
variable (s : State)

/-! #### Messages of the mesh -/

@[simp] theorem State.meshQueue_fronds (p cls : Nat) (b : List Byte) : (s.meshQueue p cls b).fronds = s.fronds := by
  unfold State.meshQueue
  dsimp only
  split <;> simp [State.setMport]

@[simp] theorem State.noRoute_fronds (dst : Nat) : (s.noRoute dst).fronds = s.fronds := by
  unfold State.noRoute
  dsimp only
  split <;> simp

@[simp] theorem State.meshUnicast_fronds (typ cls dst : Nat) (b : List Byte) : (s.meshUnicast typ cls dst b).fronds = s.fronds := by
  unfold State.meshUnicast
  split
  case isTrue => rfl
  case isFalse =>
    dsimp only [State.nextMseq]
    split <;> simp

/-- Steps that leave the fronds alone, one after another. -/
theorem foldl_fronds {α : Type} {step : State → α → State} (h : ∀ t a, (step t a).fronds = t.fronds) (l : List α) (t : State) :
    (l.foldl step t).fronds = t.fronds :=
  List.foldlRecOn (motive := fun u => u.fronds = t.fronds) l step rfl fun u hu a _ => (h u a).trans hu

@[simp] theorem State.meshBroadcast_fronds (typ cls : Nat) (b : List Byte) : (s.meshBroadcast typ cls b).fronds = s.fronds := by
  unfold State.meshBroadcast
  split
  case isTrue => rfl
  case isFalse =>
    dsimp only [State.nextMseq]
    rw [foldl_fronds fun t p => t.meshQueue_fronds p _ _]
    rfl

@[simp] theorem State.faultReport_fronds (sev : Nat) (b : List Byte) : (s.faultReport sev b).fronds = s.fronds := by
  unfold State.faultReport
  dsimp only
  split_ifs <;> simp

/-! #### The collector -/

@[simp] theorem State.storePin_fronds (fails : List Nat) : (s.storePin fails).fronds = s.fronds := by
  unfold State.storePin
  dsimp only
  split <;> rfl

@[simp] theorem State.touchPin_fronds : s.touchPin.fronds = s.fronds := by
  unfold State.touchPin
  split
  · rfl
  · exact s.storePin_fronds []

@[simp] theorem State.pinFault_fronds (m : FaultMsg) : (s.pinFault m).fronds = s.fronds := by
  unfold State.pinFault
  split
  · rfl
  · simp

@[simp] theorem State.faultAction_fronds (m : FaultMsg) : (s.faultAction m).fronds = s.fronds := by
  unfold State.faultAction
  split
  · rfl
  · split <;> rfl
  · rfl
  · rfl

@[simp] theorem State.logFault_fronds (m : FaultMsg) : (s.logFault m).fronds = s.fronds := by
  unfold State.logFault
  dsimp only
  split_ifs <;> simp

@[simp] theorem State.sendFault_fronds (m : FaultMsg) : (s.sendFault m).fronds = s.fronds := by
  unfold State.sendFault
  dsimp only
  split_ifs <;> simp [State.latchAlert]

/-! #### A byte that fails parity -/

@[simp] theorem State.memLast_fronds (k kind : Nat) : (s.memLast k kind).fronds = s.fronds := by
  simp [State.memLast]

@[simp] theorem State.parityFail_fronds (k : Nat) : (s.parityFail k).fronds = s.fronds := by
  unfold State.parityFail
  dsimp only
  split
  · split_ifs <;> simp
  · simp

end

end Sys2Proof.Machine

/-! ### The FEC on receive and the pipeline counters (R169, R172, R176, R581 to R591) -/

namespace Sys2Proof.Machine

/-! #### Inner decoding (R169) -/

/-- Of fronds, `t` differs from `s` at most in the record of frond `f`, and not in what that frond's inner decoder has handed on. -/
structure KeepsInner (f : Nat) (s t : State) : Prop where
  fronds : FrondsBut f s t
  inner : (t.frond f).fec.inner = (s.frond f).fec.inner

namespace KeepsInner
variable {f : Nat} {s t u : State}

theorem refl (f : Nat) (s : State) : KeepsInner f s s := ⟨fun _ _ => rfl, rfl⟩

theorem of_fronds (h : KeepsInner f s t) (same : u.fronds = t.fronds) : KeepsInner f s u := by
  have frond (k : Nat) : u.frond k = t.frond k := congrArg (Tab.get (fun _ => ({} : Frond)) · k) same
  exact ⟨fun k hk => (frond k).trans (h.fronds k hk), by rw [frond, h.inner]⟩

theorem wr (h : KeepsInner f s t) (x : Fld) (v : Nat) : KeepsInner f s (t.wr x v) := h.of_fronds (State.wr_fronds t x v)

theorem raise (h : KeepsInner f s t) (code obj : Nat) (vals : List EVal) : KeepsInner f s (t.raise code obj vals) :=
  h.of_fronds (State.raise_fronds t code obj vals)

theorem modFrond (h : KeepsInner f s t) (g : Frond → Frond) (hg : (g (t.frond f)).fec.inner = (t.frond f).fec.inner) :
    KeepsInner f s (t.modFrond f g) :=
  ⟨fun k hk => (State.frond_modFrond_other t g hk).trans (h.fronds k hk), by rw [State.frond_modFrond_same, hg, h.inner]⟩

theorem pcCount (h : KeepsInner f s t) (code n : Nat) (place : Nat → Nat × Nat) : KeepsInner f s (t.pcCount f code n place) :=
  State.pcCount_keeps (fun _ x v h => h.wr x v) (fun _ _ h => h.modFrond _ rfl) (fun _ c o vals h => h.raise c o vals) h code n place

theorem pcList (h : KeepsInner f s t) (code : Nat) (l : List Nat) : KeepsInner f s (t.pcList f code l) := h.pcCount _ _ _

theorem pcMany (h : KeepsInner f s t) (code n detail : Nat) : KeepsInner f s (t.pcMany f code n detail) := h.pcCount _ _ _

theorem poolEmpty (h : KeepsInner f s t) (left : Nat) : KeepsInner f s (t.poolEmpty f left) := by
  unfold State.poolEmpty
  dsimp only
  split
  · exact h.wr _ _
  · exact ((h.wr _ _).modFrond _ rfl).raise _ _ _

theorem wholeUnits (h : KeepsInner f s t) (num den : Nat) : KeepsInner f s (t.wholeUnits num den).2 := by
  unfold State.wholeUnits
  split
  · exact h
  · exact h.of_fronds rfl

/-- A superframe without a decoded header takes a free value for its SF_COUNT. -/
theorem sfCount (h : KeepsInner f s t) (sf : Option Nat) :
    KeepsInner f s (match sf with | some v => (v, t) | none => t.fresh).2 := by
  cases sf
  · exact h.of_fronds rfl
  · exact h

theorem ite {c : Prop} [Decidable c] (h : KeepsInner f s t) (hu : KeepsInner f s t → KeepsInner f s u) :
    KeepsInner f s (if c then u else t) := by
  split
  · exact hu h
  · exact h

end KeepsInner

section
variable {s : State} {f : Fin 48}

theorem execInnerDecode_none (o : InnerObs) (harr : (s.frond f.val).fec.arrived = []) : exec (.innerDecode f o) s = .next s := by
  show execInnerDecode f o s = _
  rw [execInnerDecode, harr]

theorem execInnerDecode_early (o : InnerObs) {a : Arrived} {rest : List Arrived} (harr : (s.frond f.val).fec.arrived = a :: rest)
    (hearly : s.tick ≤ a.stamp) : exec (.innerDecode f o) s = .next s := by
  show execInnerDecode f o s = _
  simp only [execInnerDecode, harr, hearly, true_or, if_true]

/-- A superframe whose slot has come goes from the delivered ones to those handed on; what is counted and reported on the way leaves
the latter alone. -/
theorem execInnerDecode_due (o : InnerObs) {a : Arrived} {rest : List Arrived} (harr : (s.frond f.val).fec.arrived = a :: rest)
    (hdue : a.stamp < s.tick) (hn : s.rd (R.FRD_SC_PLAN_N f.val) ≠ 0) :
    ∃ (u : State) (r : InnerResult) (slots : Nat × Nat × Nat × Nat → Nat × Nat × Nat × Nat), KeepsInner f.val s u ∧
      r.stamp = a.stamp ∧ r.sf = a.sf ∧ r.settled.length = fecW (s.rd (R.FRD_SC_PLAN_N f.val)) ∧
      exec (.innerDecode f o) s = .next (u.modFrond f.val fun x => { x with
        fec := { x.fec with arrived := rest, inner := x.fec.inner ++ [r] }, pc := { x.pc with slots := slots x.pc.slots } }) := by
  change ∃ u r slots, _ ∧ _ ∧ _ ∧ _ ∧ execInnerDecode f o s = _
  unfold execInnerDecode
  rw [harr]
  dsimp -zeta only
  rw [if_neg (not_or.mpr ⟨hdue.not_ge, hn⟩)]
  refine ⟨_, _, fun x => (x.1 + _, x.2.1 + _, x.2.2.1 + _, x.2.2.2 + 1), ?keeps, ?stamp, ?sf, ?settled, rfl⟩
  case stamp => rfl
  case sf => rfl
  case settled => simp
  case keeps =>
    have parity : KeepsInner f.val s (o.work.foldl (fun s k => s.parityFail (memKey 2 f.val k.1))
        (o.dint.foldl (fun s k => s.parityFail (memKey 1 f.val k)) s)) :=
      (KeepsInner.refl f.val s).of_fronds ((foldl_fronds (fun t _ => t.parityFail_fronds _) _ _).trans
        (foldl_fronds (fun t _ => t.parityFail_fronds _) _ _))
    have reported (used w left most mean : Nat) := ((((parity.wholeUnits used w).wr (R.FRD_FEC_ITER_POOL_LEFT f.val) left).wr
      (R.FRD_FEC_ITER_MAX_ITER f.val) most).wr (R.FRD_FEC_ITER_MEAN f.val) mean).sfCount a.sf
    exact KeepsInner.ite (((((((reported _ _ _ _ _).pcMany _ _ _).pcList _ _).pcList _ _).pcMany _ _ _).pcList _ _).pcCount _ _ _)
      fun counted => (counted.pcMany _ _ _).poolEmpty _

/-! #### FROZEN and the exact records (R582, R587, R590, R591) -/

theorem execPcFrozenClear_frozen (hen : s.frondEnabled f.val = true) (hfrozen : s.flag (R.FRD_PC_STAT_FROZEN f.val) = true) :
    exec (.pcFrozenClear f) s = .next (s.modFrond f.val fun x => { x with pc := { x.pc with resume := true } }) := by
  show execPcFrozenClear f s = _
  rw [execPcFrozenClear, hen, hfrozen]
  rfl

/-- R591: the records present are delivered with their header, and the buffer is empty. -/
theorem execPcErbRead_ok {h : ReqHdr} {mem : HostMem} {addr : Nat} (hen : s.frondEnabled f.val = true) (hpf : h.isPf)
    (halign : addr % 64 = 0) (hfits : s.readFits (16 + 16 * (s.frond f.val).pc.erb.length)) :
    exec (.pcErbRead h mem f.val addr) s = .next (readOk h ((s.modFrond f.val fun x => { x with
      pc := { x.pc with erb := [], dropped := 0 } }).wr (R.FRD_PC_ERBSTAT_USED f.val) 0) 0xd8 addr
      (natLe 4 (s.frond f.val).pc.erb.length ++ natLe 4 (s.frond f.val).pc.dropped ++ natLe 1 f.val ++ List.replicate 7 0 ++
        (s.frond f.val).pc.erb.flatMap ExactRec.bytes)) := by
  have pass : ∀ c ∈ chkPcErbRead f.val addr (h.ctx s mem) s, c.bad = false := by
    simp only [chkPcErbRead, List.forall_mem_append, List.forall_mem_cons]
    unfold State.readFits at hfits
    exact ⟨pf_pass hpf, by simp [ckAlign, halign], ckFrond_pass hen, by simp [State.ckBacklog, ckCond, hfits], by simp⟩
  show execPcErbRead h mem f.val addr s = _
  rw [execPcErbRead, runOne_ok pass rfl]
  rfl

end

/-! #### A programmable counter (R581, R585) -/

section
variable {s : State} {f j code n : Nat} {place : Nat → Nat × Nat}

/-- What is left of an event's occurrences is added to a counter that it does not carry past 2^48 - 1. -/
theorem State.pcRun_within {fuel i : Nat} (hlen : (s.frond f).pc.counts.length = 8) (hj : j < 8)
    (hrun : (s.frond f).pc.stopped.getD j false = false) (hfuel : 0 < fuel)
    (hroom : (s.frond f).pc.counts.getD j 0 + (n - i) < 2 ^ 48) :
    ((s.pcRun f j code n place fuel i).frond f).pc.counts =
      (s.frond f).pc.counts.set j ((s.frond f).pc.counts.getD j 0 + (n - i)) ∧
    (s.pcRun f j code n place fuel i).regs = s.regs := by
  obtain ⟨fuel, rfl⟩ := Nat.exists_eq_succ_of_ne_zero hfuel.ne'
  unfold State.pcRun
  dsimp only
  rw [hrun]
  by_cases hleft : n ≤ i
  · rw [if_pos (.inr hleft), Nat.sub_eq_zero_of_le hleft, Nat.add_zero]
    refine ⟨?_, rfl⟩
    rw [List.getD_eq_getElem _ _ (by omega), List.set_getElem_self]
  · rw [if_neg (by simp [hleft]), if_pos (by omega)]
    exact ⟨by rw [State.modPc, State.frond_modFrond_same], rfl⟩

/-- An overflow of a counter that neither records it nor freezes changes FRD_PC_STAT and the count of overflows alone. -/
theorem State.pcOverflow_plain {cycle detail : Nat} (hj : j < 8) (hfreeze : s.flag (R.FRD_PC_CTL_FREEZE f j) = false)
    (hexact : s.flag (R.FRD_PC_CTL_EXACT f j) = false) :
    s.pcOverflow f j code cycle detail = (s.setBits (R.FRD_PC_STAT_OVF f) (2 ^ j)).modPc f fun y =>
      { y with ovf := y.ovf.set j ((y.ovf.getD j (0, 0)).1 + 1, 0) } := by
  have apart (x : Fld) (hx : x.off = 0x100810 + 0x10000 * f + 0x10 * j) :
      (s.setBits (R.FRD_PC_STAT_OVF f) (2 ^ j)).flag x = s.flag x :=
    congrArg (· != 0) (State.rd_wr_off s _ (by rw [hx]; simp only [R.FRD_PC_STAT_OVF]; omega))
  have noExact := (apart (R.FRD_PC_CTL_EXACT f j) rfl).trans hexact
  have noFreeze := (apart (R.FRD_PC_CTL_FREEZE f j) rfl).trans hfreeze
  simp only [State.pcOverflow, State.modPc, State.modFrond_flag, noExact, noFreeze, Bool.false_eq_true, if_false]

/-- The occurrence that carries a counter past 2^48 - 1 puts RELOAD in it. -/
theorem State.pcRun_overflow {fuel i : Nat} (hrun : (s.frond f).pc.stopped.getD j false = false) (hi : i < n)
    (hover : 2 ^ 48 - (s.frond f).pc.counts.getD j 0 ≤ n - i) :
    s.pcRun f j code n place (fuel + 1) i =
      let next := i + (2 ^ 48 - (s.frond f).pc.counts.getD j 0)
      ((s.modPc f fun y => { y with counts := y.counts.set j (s.pcReload f j) }).pcOverflow f j code (place (next - 1)).1
        (place (next - 1)).2).pcRun f j code n place fuel next := by
  rw [State.pcRun]
  dsimp only
  rw [hrun, if_neg (by simp [hi]), if_neg (by omega)]

/-- R585: the occurrence that carries a counter past 2^48 - 1 reloads it, and those after it count on. -/
theorem State.pcRun_reloads (hlen : (s.frond f).pc.counts.length = 8) (hj : j < 8)
    (hrun : (s.frond f).pc.stopped.getD j false = false) (hover : 2 ^ 48 ≤ (s.frond f).pc.counts.getD j 0 + n)
    (hcount : (s.frond f).pc.counts.getD j 0 < 2 ^ 48) (hfreeze : s.flag (R.FRD_PC_CTL_FREEZE f j) = false)
    (hexact : s.flag (R.FRD_PC_CTL_EXACT f j) = false) (honce : s.pcReload f j + n < 2 ^ 48) :
    ((s.pcRun f j code n place (n + 1) 0).frond f).pc.counts.getD j 0 =
      s.pcReload f j + ((s.frond f).pc.counts.getD j 0 + n - 2 ^ 48) := by
  have reloaded : ((s.frond f).pc.counts.set j (s.pcReload f j)).getD j 0 = s.pcReload f j := by
    rw [getD_set _ _ _ _ (by omega), if_pos rfl]
  rw [State.pcRun_overflow hrun (by omega) (by omega)]
  dsimp only
  rw [State.pcOverflow_plain (s := s.modPc f _) hj hfreeze hexact]
  generalize hu : State.modPc _ f _ = u
  have held : (u.frond f).pc.counts = (s.frond f).pc.counts.set j (s.pcReload f j) ∧
      (u.frond f).pc.stopped = (s.frond f).pc.stopped := by
    rw [← hu]
    simp [State.modPc]
  obtain ⟨hcounts, hstopped⟩ := held
  rw [(State.pcRun_within (by simp [hcounts, hlen]) hj (by rw [hstopped, hrun]) (by omega) (by rw [hcounts, reloaded]; omega)).1,
    getD_set _ _ _ _ (by simp [hcounts, hlen, hj]), if_pos rfl, hcounts, reloaded]
  omega

end

/-- Settles O20. -/
theorem fecAndCounterCommands : Obligations.FecAndCounterCommands := by
  refine ⟨fun s f hen => ⟨fun o => execInnerDecode_none o, fun o a rest => execInnerDecode_early o, fun o a rest harr hdue hn => ?inner,
    execPcFrozenClear_frozen hen, fun h mem addr => execPcErbRead_ok hen⟩, fun s f j code n place hlen hj hrun => ⟨fun hroom => ?_,
      State.pcRun_reloads hlen hj hrun⟩⟩
  case inner =>
    obtain ⟨u, r, slots, keeps, hstamp, hsf, hsettled, hexec⟩ := execInnerDecode_due o harr hdue hn
    refine ⟨_, r, hexec, ?_, ?_, hstamp, hsf, hsettled, fun k hk => (State.frond_modFrond_other _ _ hk).trans (keeps.fronds k hk)⟩
    · rw [State.frond_modFrond_same]
    · rw [State.frond_modFrond_same, ← keeps.inner]
  · exact State.pcRun_within hlen hj hrun n.succ_pos hroom

end Sys2Proof.Machine

/-! ### The line frame of a frond (R174, R178, R186 to R189, R198, R199, R203 to R206) -/

namespace Sys2Proof.Machine

/-! #### Defects judged at the end of a tick (R188, R189, R198, R199) -/

/-- A run of a condition that does not hold starts again. -/
theorem Run.step_false (r : Run) (t : Nat) : r.step t false = ⟨0, t⟩ := if_neg (by decide)

section
variable {s : State} {f : Fin 48} {n : Nat}

/-- A run that a tick makes 480 ticks long or longer. -/
theorem Run.step_480th {r : Run} {t : Nat} (hn : 479 ≤ n) (ht : 0 < t) (hr : r = ⟨n, t - 1⟩) : r.step t true = ⟨n + 1, t⟩ := by
  subst hr
  exact Run.step_next (show 0 < n by omega) (Nat.sub_add_cancel ht)

theorem execDlof_off (hoff : s.defectsOn f.val = false) : exec (.dlof f) s = .next s := by
  show execDlof f s = _
  rw [execDlof, hoff]
  rfl

theorem execDlof_declared (hon : s.defectsOn f.val = true) (hout : (s.frond f.val).slf.tickAllIf = false) (hn : 479 ≤ n) (ht : 0 < s.tick)
    (hrun : (s.frond f.val).slf.oofRun = ⟨n, s.tick - 1⟩) :
    exec (.dlof f) s = .next
      ((s.modSlf f.val fun y => { y with oofRun := ⟨n + 1, s.tick⟩, ifRun := ⟨0, s.tick⟩ }).setDefect f.val 2 true) := by
  have step := Run.step_480th hn ht hrun
  show execDlof f s = _
  simp [execDlof, hon, hout, step, Run.step_false, show 480 ≤ n + 1 by omega]

theorem execDlof_cleared (hon : s.defectsOn f.val = true) (hall : (s.frond f.val).slf.tickAllIf = true)
    (hin : (s.frond f.val).slf.inFrame = true) (hn : 479 ≤ n) (ht : 0 < s.tick) (hrun : (s.frond f.val).slf.ifRun = ⟨n, s.tick - 1⟩) :
    exec (.dlof f) s = .next
      ((s.modSlf f.val fun y => { y with oofRun := ⟨0, s.tick⟩, ifRun := ⟨n + 1, s.tick⟩ }).setDefect f.val 2 false) := by
  have step := Run.step_480th hn ht hrun
  show execDlof f s = _
  simp [execDlof, hon, hall, hin, step, Run.step_false, show 480 ≤ n + 1 by omega]

theorem execDlom_off (hoff : s.defectsOn f.val = false) : exec (.dlom f) s = .next s := by
  show execDlom f s = _
  rw [execDlom, hoff]
  rfl

theorem execDlom_disabled (hon : s.defectsOn f.val = true) (hmf : s.flag (R.FRD_SLF_CTL_MF_EN f.val) = false) :
    exec (.dlom f) s = .next (s.setDefect f.val 3 false) := by
  show execDlom f s = _
  rw [execDlom, hon, hmf]
  rfl

theorem execDlom_declared (hon : s.defectsOn f.val = true) (hmf : s.flag (R.FRD_SLF_CTL_MF_EN f.val) = true)
    (hout : (s.frond f.val).slf.inMf = false) (hn : 479 ≤ n) (ht : 0 < s.tick) (hrun : (s.frond f.val).slf.omRun = ⟨n, s.tick - 1⟩) :
    exec (.dlom f) s = .next
      ((s.modSlf f.val fun y => { y with omRun := ⟨n + 1, s.tick⟩, imRun := ⟨0, s.tick⟩ }).setDefect f.val 3 true) := by
  have step := Run.step_480th hn ht hrun
  show execDlom f s = _
  simp [execDlom, hon, hmf, hout, step, Run.step_false, show 480 ≤ n + 1 by omega]

theorem execDloa_off (hoff : s.defectsOn f.val = false) : exec (.dloa f) s = .next s := by
  show execDloa f s = _
  rw [execDloa, hoff]
  rfl

theorem execDloa_on (hon : s.defectsOn f.val = true) : exec (.dloa f) s = .next (s.setDefect f.val 1 (s.acqState f.val != 5)) := by
  show execDloa f s = _
  rw [execDloa, hon]
  rfl

end

/-! #### The end of a second (R198) -/

section
variable (s : State) (f : Nat)

theorem State.layer_setLayer_same (l : Nat) (x : OhLayer) : (s.setLayer f l x).layer f l = x := by
  simp [State.layer, State.setLayer]

theorem State.layer_setLayer_other {k l : Nat} (x : OhLayer) (h : k ≠ l) : (s.setLayer f l x).layer f k = s.layer f k := by
  simp [State.layer, State.setLayer, Tab.get_set_other _ _ _ h]

theorem State.layer_of_fronds {s t : State} (h : t.fronds = s.fronds) (l : Nat) : t.layer f l = s.layer f l :=
  congrArg (fun r => Tab.get (fun _ => ({} : OhLayer)) (Tab.get (fun _ => ({} : Frond)) r f).slf.layers l) h

@[simp] theorem State.setDefect_fronds (i : Nat) (on : Bool) (slot : Nat) : (s.setDefect f i on slot).fronds = s.fronds := by
  unfold State.setDefect
  split
  · rfl
  · simp [State.updateSsf]

@[simp] theorem State.tcmEvent_fronds (l i : Nat) (on : Bool) : (s.tcmEvent f l i on).fronds = s.fronds := by
  simp [State.tcmEvent, State.updateTcmDef]

/-- A declaration of dDEG touches no layer's count of errored blocks. -/
theorem State.setDeg_layer (l k : Nat) (on : Bool) : ((s.setDeg f l on).layer f k).blocks = (s.layer f k).blocks ∧
    ((s.setDeg f l on).layer f k).farBlocks = (s.layer f k).farBlocks := by
  unfold State.setDeg
  split_ifs
  · exact ⟨rfl, rfl⟩
  · rw [State.layer_of_fronds f (State.setDefect_fronds _ _ _ _ _)]
    exact ⟨rfl, rfl⟩
  · rw [State.layer_of_fronds f (State.setDefect_fronds _ _ _ _ _)]
    exact ⟨rfl, rfl⟩
  · exact ⟨rfl, rfl⟩
  · rw [State.layer_of_fronds f (State.tcmEvent_fronds _ _ _ _ _)]
    by_cases hk : k = l
    · subst hk
      rw [State.layer_setLayer_same]
      exact ⟨rfl, rfl⟩
    · rw [State.layer_setLayer_other _ _ _ hk]
      exact ⟨rfl, rfl⟩

end

/-- Layer `l` of frond `f` has counted no errored block. -/
def State.layerFresh (s : State) (f l : Nat) : Prop := (s.layer f l).blocks = 0 ∧ (s.layer f l).farBlocks = 0

section
variable {s : State} {f : Nat}

theorem State.layerFresh_setDeg {l k : Nat} {on : Bool} (h : s.layerFresh f k) : (s.setDeg f l on).layerFresh f k := by
  obtain ⟨hblocks, hfar⟩ := h
  obtain ⟨same, sameFar⟩ := s.setDeg_layer f l k on
  exact ⟨same.trans hblocks, sameFar.trans hfar⟩

/-- The second of a layer: its counts start again, and dDEG may change. -/
theorem State.degLayer_ind {P : State → Prop} {l : Nat} (ssf : Bool)
    (hset : ∀ x : OhLayer, x.blocks = 0 → x.farBlocks = 0 → P (s.setLayer f l x)) (hdeg : ∀ t on, P t → P (t.setDeg f l on)) :
    P (s.degLayer f l ssf) := by
  unfold State.degLayer
  dsimp only
  generalize hy : (if ssf = true then _ else _ : OhLayer) = y
  have set : P (s.setLayer f l y) := by
    cases ssf <;> subst hy <;> exact hset _ rfl rfl
  split
  · exact set
  · split
    · exact hdeg _ _ set
    · split
      · exact hdeg _ _ set
      · exact set

theorem State.layerFresh_degLayer_same (s : State) (f l : Nat) (ssf : Bool) : (s.degLayer f l ssf).layerFresh f l :=
  State.degLayer_ind (P := fun t => t.layerFresh f l) ssf
    (fun x hblocks hfar => by rw [State.layerFresh, State.layer_setLayer_same]; exact ⟨hblocks, hfar⟩)
    fun _ _ h => State.layerFresh_setDeg h

theorem State.layerFresh_degLayer_other {k l : Nat} (ssf : Bool) (hk : l ≠ k) (h : s.layerFresh f k) :
    (s.degLayer f l ssf).layerFresh f k :=
  State.degLayer_ind (P := fun t => t.layerFresh f k) ssf
    (fun x _ _ => by rw [State.layerFresh, State.layer_setLayer_other _ _ _ hk.symm]; exact h)
    fun _ _ h => State.layerFresh_setDeg h

end

section
variable {s : State} {f : Fin 48}

theorem execDdeg_within (ht : (s.tick + 1) % 160000 ≠ 0) : exec (.ddeg f) s = .next s :=
  congrArg _ (if_pos ht)

/-- At the end of a second every layer's counts and aSSF's start again. -/
theorem execDdeg_second (ht : (s.tick + 1) % 160000 = 0) : ∃ t, exec (.ddeg f) s = .next t ∧ (t.frond f.val).slf.ssfSecond = false ∧
    ∀ l, l < 8 → t.layerFresh f.val l := by
  refine ⟨_, congrArg Host.Outcome.next (if_neg (not_not.mpr ht)), ?_, fun l hl => ?_⟩
  · rw [State.modSlf, State.frond_modFrond_same]
  · generalize ((s.frond f.val).slf.ssfSecond || s.aSsf f.val) = ssf
    have fresh : ((List.range 8).foldl (fun s l => s.degLayer f.val l ssf) s).layerFresh f.val l :=
      foldl_of_mem (step := fun (t : State) l => t.degLayer f.val l ssf) (P := fun t => t.layerFresh f.val l) (Q := fun _ => True)
        (fun _ _ _ => trivial) (fun a _ => a.layerFresh_degLayer_same f.val l ssf) (fun _ _ hj => State.layerFresh_degLayer_other ssf hj) (List.mem_range.mpr hl)
        trivial
    simpa [State.layerFresh, State.layer, State.modSlf] using fresh

/-! #### Outer decoding (R172, R176) -/

theorem execOuterDecode_none (o : OuterObs) (hinner : (s.frond f.val).fec.inner = []) : exec (.outerDecode f o) s = .next s := by
  show execOuterDecode f o s = _
  rw [execOuterDecode, hinner]

theorem execOuterDecode_early (o : OuterObs) {r : InnerResult} {l : List InnerResult} (hinner : (s.frond f.val).fec.inner = r :: l)
    (hearly : s.tick < r.stamp + 2) : exec (.outerDecode f o) s = .next s := by
  show execOuterDecode f o s = _
  rw [execOuterDecode, hinner]
  exact congrArg _ (if_pos hearly)

theorem execOuterDecode_due (o : OuterObs) {r : InnerResult} {l : List InnerResult} {t : State}
    (hinner : (s.frond f.val).fec.inner = r :: l) (hdue : r.stamp + 2 ≤ s.tick)
    (ht : (s.modFrond f.val fun y => { y with fec := { y.fec with inner := l } }).outerFec f.val r o = t) :
    exec (.outerDecode f o) s = .next (if t.lineRun f.val then t.deframe f.val r o else t) := by
  subst ht
  show execOuterDecode f o s = _
  rw [execOuterDecode, hinner]
  exact congrArg _ (if_neg hdue.not_gt)

/-! #### The in-band GCC (R203 to R206) -/

theorem execGccFrameReceive_eq : exec (.gccFrameReceive f) s = .next (s.gccHunt f.val ((s.frond f.val).slf.gccRx.length + 1)) := (rfl)

theorem execGccFrameTransmit_idle (hfw : (s.frond f.val).slf.gccFw = []) (hhost : (s.frond f.val).slf.gccHost = []) :
    exec (.gccFrameTransmit f) s = .next s := by
  show execGccFrameTransmit f s = _
  simp [execGccFrameTransmit, hfw, hhost]

/-- GCC_SEL of 1 to 4 selects a channel. -/
theorem gccPos_ne_nil {sel : Nat} (lo : 1 ≤ sel) (hi : sel ≤ 4) : (gccPos sel).isEmpty = false := by
  interval_cases sel <;> rfl

/-- R206: a firmware frame goes before a host frame, but not two in a row. -/
theorem execGccFrameTransmit_both {x : SlfSt} {g h : GccFrame} {fw hs : List GccFrame} (hx : (s.frond f.val).slf = x)
    (hrun : s.lineRun f.val = true) (lo : 1 ≤ s.rd (R.FRD_SLF_CTL_GCC_SEL f.val)) (hi : s.rd (R.FRD_SLF_CTL_GCC_SEL f.val) ≤ 4)
    (hfw : x.gccFw = g :: fw) (hhost : x.gccHost = h :: hs) :
    exec (.gccFrameTransmit f) s = .next (if x.gccLastFw
      then (s.modSlf f.val fun _ => { x with gccHost := hs, gccLastFw := false, gccSeq := (x.gccSeq + 1) % 65536 }).emit
        (.gcc f.val (h.bytes x.gccSeq))
      else (s.modSlf f.val fun _ => { x with gccFw := fw, gccLastFw := true, gccSeq := (x.gccSeq + 1) % 65536 }).emit
        (.gcc f.val (g.bytes x.gccSeq))) := by
  show execGccFrameTransmit f s = _
  simp only [execGccFrameTransmit, hx, hrun, gccPos_ne_nil lo hi, hfw, hhost, Bool.not_true, Bool.or_self, Bool.false_eq_true, if_false]

/-! #### Transmit (R174, R178) -/

theorem execSlfFrameEncode_stopped (l : List Nat) (hstopped : s.lineRun f.val = false) : exec (.slfFrameEncode f l) s = .next s := by
  show execSlfFrameEncode f l s = _
  rw [execSlfFrameEncode, hstopped]
  rfl

theorem execTxAssembly_stopped (hstopped : s.lineRun f.val = false) : exec (.txAssembly f) s = .next s := by
  show execTxAssembly f s = _
  rw [execTxAssembly, hstopped]
  rfl

theorem execSuperframeTransmit_stopped (l : List (Nat × Nat)) (hstopped : s.lineRun f.val = false) :
    exec (.superframeTransmit f l) s = .next s := by
  show execSuperframeTransmit f l s = _
  rw [execSuperframeTransmit, hstopped]
  rfl

theorem execTxAssembly_run (hrun : s.lineRun f.val = true) : exec (.txAssembly f) s =
    .next (s.modSlf f.val fun y => { y with txHeader := (s.txHeader f.val (s.tick + 1)).word }) := by
  show execTxAssembly f s = _
  rw [execTxAssembly, hrun]
  rfl

/-- Counting leaves the line frame record of the frond alone. -/
theorem State.pcCount_slf (s : State) (f code n : Nat) (place : Nat → Nat × Nat) :
    ((s.pcCount f code n place).frond f).slf = (s.frond f).slf :=
  State.pcCount_keeps (P := fun t => (t.frond f).slf = (s.frond f).slf) (fun _ _ _ h => h)
    (fun t _ h => by rw [State.modPc, State.frond_modFrond_same]; exact h) (fun _ _ _ _ h => h) rfl _ _ _

/-- aSSF is read from FRD_SLF_DEF and FRD_SLF_CTL, which counting leaves alone. -/
theorem CountsOnly.aSsf {s t : State} {f : Nat} (h : CountsOnly f s t) : t.aSsf f = s.aSsf f := by
  have def' (i : Nat) : t.flag (slfDef f i) = s.flag (slfDef f i) :=
    congrArg (· != 0) (h.rd (by simp [slfDef, R.FRD_PC_STAT_OVF]) (by simp [slfDef, R.FRD_PC_ERBSTAT_USED]))
  have mfEn : t.flag (R.FRD_SLF_CTL_MF_EN f) = s.flag (R.FRD_SLF_CTL_MF_EN f) :=
    congrArg (· != 0) (h.rd (by simp [R.FRD_SLF_CTL_MF_EN, R.FRD_PC_STAT_OVF]) (by simp [R.FRD_SLF_CTL_MF_EN, R.FRD_PC_ERBSTAT_USED]))
  simp only [State.aSsf, def', mfEn]

/-- R174: the count of poisoned bits stands in a register of its own. -/
theorem State.aSsf_bump_poison (s : State) (f n : Nat) : (s.bump (R.FRD_FEC_EVT_TX_POISON f) n).aSsf f = s.aSsf f := by
  have other (x : Fld) (hx : x.off ≠ (R.FRD_FEC_EVT_TX_POISON f).off) : (s.bump (R.FRD_FEC_EVT_TX_POISON f) n).flag x = s.flag x :=
    congrArg (· != 0) (State.rd_wr_off s _ hx)
  have def' (i : Nat) := other (slfDef f i) (by simp [slfDef, R.FRD_FEC_EVT_TX_POISON])
  have mfEn := other (R.FRD_SLF_CTL_MF_EN f) (by simp [R.FRD_SLF_CTL_MF_EN, R.FRD_FEC_EVT_TX_POISON])
  simp only [State.aSsf, def', mfEn]

/-- R194: what was gathered for BEI is taken, and while aSSF holds none of it is sent. -/
theorem execSlfFrameEncode_run (l : List Nat) (hrun : s.lineRun f.val = true) : ∃ t, exec (.slfFrameEncode f l) s = .next t ∧
    (t.frond f.val).slf.beiSum = [] ∧ (s.aSsf f.val = true → (t.frond f.val).slf.txBei = []) := by
  have same : ((s.bump (R.FRD_FEC_EVT_TX_POISON f.val) l.length).pcList f.val 0x15 l).aSsf f.val = s.aSsf f.val :=
    ((CountsOnly.refl f.val _).pcList 0x15 l).aSsf.trans (s.aSsf_bump_poison f.val l.length)
  refine ⟨_, congrArg Host.Outcome.next (if_neg (by simp [hrun])), ?_, fun hssf => ?_⟩
  · rw [State.modSlf, State.frond_modFrond_same]
  · rw [State.modSlf, State.frond_modFrond_same, same, hssf]
    rfl

theorem execSuperframeTransmit_clipped (c : Nat × Nat) (l : List (Nat × Nat)) (hrun : s.lineRun f.val = true) :
    ∃ t : State, t.tick = s.tick ∧ exec (.superframeTransmit f (c :: l)) s = .next (t.wrB (R.FRD_TX_STAT_CLIP f.val) true) := by
  refine ⟨_, ?_, congrArg Host.Outcome.next (if_neg (by simp [hrun]))⟩
  rw [kept_tick (State.pcCount_kept _ _ _ _ _), kept_tick (State.pcMany_kept _ _ _ _ _), kept_tick (State.modSlf_kept _ _ _)]

/-- Table SLF-3: the body overhead of the superframe sent. -/
theorem execSuperframeTransmit_boh (hrun : s.lineRun f.val = true) : ∃ t, exec (.superframeTransmit f []) s = .next t ∧
    (t.frond f.val).slf.txBoh = bohWord (s.txLof f.val s.tick) (justBit s.tick) (s.frond f.val).slf.acqBoundary := by
  refine ⟨_, congrArg Host.Outcome.next (if_neg (by simp [hrun])), ?_⟩
  rw [List.isEmpty_nil, if_pos rfl, State.pcCount_slf, State.pcMany, State.pcCount_slf, State.modSlf, State.frond_modFrond_same]

end

end Sys2Proof.Machine

/-! ### The frames of the in-band GCC (R205, Table SLF-9) -/

namespace Sys2Proof.Machine

/-! #### Numbers and check codes as bytes -/

theorem length_natBe (n v : Nat) : (natBe n v).length = n := by
  rw [natBe, List.length_reverse]
  induction n generalizing v with
  | zero => rfl
  | succ n ih => rw [natLe, List.length_cons, ih]

theorem leNat_natLe {n v : Nat} (h : v < 256 ^ n) : leNat (natLe n v) = v := by
  induction n generalizing v with
  | zero => rw [natLe, leNat]; omega
  | succ n ih =>
    rw [natLe, leNat, ih (Nat.div_lt_of_lt_mul (by rwa [pow_succ'] at h)), BitVec.toNat_ofNat]
    omega

theorem beNat_natBe {n v : Nat} (h : v < 256 ^ n) : beNat (natBe n v) = v := by
  rw [beNat, natBe, List.reverse_reverse, leNat_natLe h]

theorem crc16_lt (l : List Bool) : crc16 l < 2 ^ 16 := by
  refine List.foldlRecOn (motive := (· < 2 ^ 16)) l _ (by decide) fun c _ b _ => ?_
  have shifted : c * 2 % 2 ^ 16 < 2 ^ 16 := Nat.mod_lt _ (by decide)
  dsimp only
  split
  · exact Nat.xor_lt_two_pow shifted (by decide)
  · exact shifted

theorem crc32cBit_lt {c : Nat} (h : c < 2 ^ 32) : crc32cBit c < 2 ^ 32 := by
  have half : c / 2 < 2 ^ 32 := (Nat.div_le_self c 2).trans_lt h
  unfold crc32cBit
  split
  · exact Nat.xor_lt_two_pow half (by decide)
  · exact half

theorem crc32c_lt (l : List Byte) : crc32c l < 2 ^ 32 := by
  refine Nat.xor_lt_two_pow (List.foldlRecOn (motive := (· < 2 ^ 32)) l _ (by decide) fun c hc b _ => ?_) (by decide)
  exact List.foldlRecOn (motive := (· < 2 ^ 32)) (List.range 8) _ (Nat.xor_lt_two_pow hc (b.isLt.trans (by decide)))
    fun _ h _ _ => crc32cBit_lt h

/-! #### The layout of a frame -/

/-- The first 8 bytes of a frame: the sync bytes, the type, a reserved byte, LENGTH and SEQ. -/
def GccFrame.header (g : GccFrame) (seq : Nat) : List Byte :=
  [0xc5, 0x3a, BitVec.ofNat 8 g.typ, 0] ++ natBe 2 g.payload.length ++ natBe 2 seq

theorem GccFrame.bytes_eq (g : GccFrame) (seq : Nat) : g.bytes seq =
    g.header seq ++ (natBe 2 (crc16 (bitsOfBytes (g.header seq))) ++ (g.payload ++ natBe 4 (crc32c g.payload))) := by
  simp only [GccFrame.bytes, GccFrame.header, List.append_assoc]

theorem GccFrame.header_length (g : GccFrame) (seq : Nat) : (g.header seq).length = 8 := by
  simp [GccFrame.header, length_natBe]

theorem GccFrame.bytes_length (g : GccFrame) (seq : Nat) : (g.bytes seq).length = 14 + g.payload.length := by
  simp only [GccFrame.bytes_eq, List.length_append, GccFrame.header_length, length_natBe]
  omega

/-- The first 10 bytes, the header and its check code. -/
theorem GccFrame.take_ten (g : GccFrame) (seq : Nat) : (g.bytes seq).take 10 =
    g.header seq ++ natBe 2 (crc16 (bitsOfBytes (g.header seq))) := by
  rw [GccFrame.bytes_eq, ← List.append_assoc, List.take_left' (by simp [GccFrame.header_length, length_natBe])]

theorem GccFrame.drop_ten (g : GccFrame) (seq : Nat) : (g.bytes seq).drop 10 = g.payload ++ natBe 4 (crc32c g.payload) := by
  rw [GccFrame.bytes_eq, ← List.append_assoc, List.drop_left' (by simp [GccFrame.header_length, length_natBe])]

/-! #### Received bytes with their marks -/

/-- Received bytes, of which those at the places `m` tells are in error. -/
def marked (b : List Byte) (m : Nat → Bool) : List OhByte := b.zipIdx.map fun p => (p.1, m p.2)

theorem marked_length (b : List Byte) (m : Nat → Bool) : (marked b m).length = b.length := by simp [marked]

theorem marked_values (b : List Byte) (m : Nat → Bool) : (marked b m).map Prod.fst = b := by
  simp [marked, Function.comp_def]

theorem marked_unmarked (b : List Byte) : marked b (fun _ => false) = b.map fun x => (x, false) := by
  refine List.ext_getElem (by simp [marked]) fun k _ _ => ?_
  simp [marked]

/-- The values of a stretch of a frame, whatever is marked and whatever follows. -/
theorem values_stretch {b : List Byte} {m : Nat → Bool} {rest : List OhByte} {k n : Nat} (h : k + n ≤ b.length) :
    (((marked b m ++ rest).drop k).take n).map Prod.fst = (b.drop k).take n := by
  rw [List.drop_append_of_le_length (by rw [marked_length]; omega),
    List.take_append_of_le_length (by rw [List.length_drop, marked_length]; omega), List.map_take, List.map_drop, marked_values]

theorem getElem?_marked {b : List Byte} (m : Nat → Bool) (rest : List OhByte) {k : Nat} (h : k < b.length) :
    (marked b m ++ rest)[k]? = some (b[k], m k) := by
  rw [List.getElem?_append_left (by rwa [marked_length])]
  simp [marked, h]

theorem getElem_take_marked {b : List Byte} {m : Nat → Bool} {rest : List OhByte} {k n : Nat}
    (hk : k < ((marked b m ++ rest).take n).length) (hn : n ≤ b.length) : (((marked b m ++ rest).take n)[k]).2 = m k := by
  have inside : k < b.length := by
    rw [List.length_take] at hk
    omega
  have at_k := getElem?_marked m rest inside
  rw [List.getElem_take, (List.getElem_eq_iff _).mpr at_k]

/-- A stretch with no marked byte is not cut. -/
theorem cutAt_unmarked {b : List Byte} {m : Nat → Bool} {rest : List OhByte} {n : Nat} (hn : n ≤ b.length) (hm : ∀ k, k < n → m k = false) :
    cutAt (marked b m ++ rest) n = none := by
  rw [cutAt, Option.map_eq_none_iff, List.findIdx?_eq_none_iff]
  intro x hx
  obtain ⟨k, hk, rfl⟩ := List.getElem_of_mem hx
  rw [getElem_take_marked hk hn]
  exact hm k (hk.trans_le (List.length_take_le _ _))

/-- A stretch is cut after its first marked byte. -/
theorem cutAt_marked {b : List Byte} {m : Nat → Bool} {rest : List OhByte} {i n : Nat} (hn : n ≤ b.length) (hi : i < n) (hm : m i = true)
    (first : ∀ k, k < i → m k = false) : cutAt (marked b m ++ rest) n = some (i + 1) := by
  have inside : i < ((marked b m ++ rest).take n).length := by
    rw [List.length_take, List.length_append, marked_length]
    omega
  rw [cutAt, List.findIdx?_eq_some_iff_getElem.mpr ⟨inside, ?_, fun k hk => ?_⟩, Option.map_some]
  · rw [getElem_take_marked _ hn, hm]
  · rw [getElem_take_marked _ hn, first k hk]
    decide

/-! #### The head of the channel (R205) -/

theorem gccHead_first_marked (b : Byte) (t : List OhByte) : gccHead ((b, true) :: t) = .drop 1 0 := by
  simp [gccHead]

theorem gccHead_second_marked (b : Byte) (t : List OhByte) : gccHead ((0xc5, false) :: (b, true) :: t) = .drop 2 0 := by
  simp [gccHead]

section
variable {l t : List OhByte} {k len : Nat} (hl : l = (0xc5, false) :: (0x3a, false) :: t)
include hl

/-- Past the sync bytes the head of the channel is read from the whole of it. -/
theorem gccHead_header_cut (hcut : cutAt l 10 = some k) : gccHead l = .drop k 0 := by
  subst hl
  simp only [gccHead, bne_self_eq_false, Bool.or_self, Bool.false_eq_true, if_false, List.getElem?_cons_succ, List.getElem?_cons_zero, hcut]

variable (hten : cutAt l 10 = none) (hlong : 10 ≤ l.length)
  (hcrc : crc16 (bitsOfBytes (((l.take 10).map Prod.fst).take 8)) = beNat (((l.take 10).map Prod.fst).drop 8))
  (hlen : beNat ((((l.take 10).map Prod.fst).drop 4).take 2) = len) (hmax : len ≤ 4352)
include hten hlong hcrc hlen hmax

theorem gccHead_body_cut (hcut : cutAt l (14 + len) = some k) : gccHead l = .drop k 0 := by
  subst hl
  simp only [gccHead, bne_self_eq_false, Bool.or_self, Bool.false_eq_true, if_false, List.getElem?_cons_succ, List.getElem?_cons_zero, hten,
    hlong.not_gt, hcrc, hlen, hmax.not_gt, ne_eq, not_true_eq_false, or_self, hcut]

theorem gccHead_whole (hcut : cutAt l (14 + len) = none) (hfull : 14 + len ≤ l.length)
    (hpay : crc32c (((l.drop 10).take len).map Prod.fst) = beNat (((l.drop (10 + len)).take 4).map Prod.fst)) :
    gccHead l = .frame (14 + len) { typ := (((l.take 10).map Prod.fst).getD 2 0).toNat, payload := ((l.drop 10).take len).map Prod.fst }
      (beNat ((((l.take 10).map Prod.fst).drop 6).take 2)) := by
  subst hl
  simp only [gccHead, bne_self_eq_false, Bool.or_self, Bool.false_eq_true, if_false, List.getElem?_cons_succ, List.getElem?_cons_zero, hten,
    hlong.not_gt, hcrc, hlen, hmax.not_gt, ne_eq, not_true_eq_false, or_self, hcut, hfull.not_gt, hpay]

end

/-! #### A frame laid out for the channel, and what the head of the channel gives of it -/

section
variable {g : GccFrame} {seq : Nat} {m : Nat → Bool} {rest : List OhByte}

/-- The frame begins with the sync bytes. -/
theorem marked_bytes_sync (g : GccFrame) (seq : Nat) (m : Nat → Bool) (rest : List OhByte) :
    ∃ t, marked (g.bytes seq) m ++ rest = (0xc5, m 0) :: (0x3a, m 1) :: t := ⟨_, rfl⟩

/-- The first 10 values are the frame's, marked or not. -/
theorem values_take_ten : ((marked (g.bytes seq) m ++ rest).take 10).map Prod.fst =
    g.header seq ++ natBe 2 (crc16 (bitsOfBytes (g.header seq))) := by
  have stretch := values_stretch (b := g.bytes seq) (m := m) (rest := rest) (k := 0) (n := 10) (by rw [GccFrame.bytes_length]; omega)
  simpa only [List.drop_zero, GccFrame.take_ten] using stretch

theorem header_crc : crc16 (bitsOfBytes ((((marked (g.bytes seq) m ++ rest).take 10).map Prod.fst).take 8)) =
    beNat ((((marked (g.bytes seq) m ++ rest).take 10).map Prod.fst).drop 8) := by
  rw [values_take_ten, List.take_left' (GccFrame.header_length g seq), List.drop_left' (GccFrame.header_length g seq),
    beNat_natBe (crc16_lt _)]

theorem header_len (hmax : g.payload.length ≤ 4352) :
    beNat (((((marked (g.bytes seq) m ++ rest).take 10).map Prod.fst).drop 4).take 2) = g.payload.length := by
  rw [values_take_ten]
  exact beNat_natBe (n := 2) (show g.payload.length < 256 ^ 2 by omega)

theorem header_seq (hseq : seq < 65536) :
    beNat (((((marked (g.bytes seq) m ++ rest).take 10).map Prod.fst).drop 6).take 2) = seq := by
  rw [values_take_ten]
  exact beNat_natBe (n := 2) hseq

theorem header_typ (htyp : g.typ < 256) : ((((marked (g.bytes seq) m ++ rest).take 10).map Prod.fst).getD 2 0).toNat = g.typ := by
  rw [values_take_ten]
  exact Nat.mod_eq_of_lt htyp

theorem values_payload : (((marked (g.bytes seq) m ++ rest).drop 10).take g.payload.length).map Prod.fst = g.payload := by
  rw [values_stretch (by rw [GccFrame.bytes_length]; omega), GccFrame.drop_ten, List.take_left]

theorem values_payload_crc : (((marked (g.bytes seq) m ++ rest).drop (10 + g.payload.length)).take 4).map Prod.fst =
    natBe 4 (crc32c g.payload) := by
  rw [values_stretch (by rw [GccFrame.bytes_length]; omega), ← List.drop_drop, GccFrame.drop_ten, List.drop_left,
    List.take_of_length_le (by rw [length_natBe])]

theorem long_marked : 14 + g.payload.length ≤ (marked (g.bytes seq) m ++ rest).length := by
  rw [List.length_append, marked_length, GccFrame.bytes_length]
  exact Nat.le_add_right _ _

/-- R205: a frame received without error gives its type, its payload and its sequence number. -/
theorem gccHead_frame (htyp : g.typ < 256) (hmax : g.payload.length ≤ 4352) (hseq : seq < 65536) (rest : List OhByte) :
    gccHead ((g.bytes seq).map (fun b => (b, false)) ++ rest) = .frame (14 + g.payload.length) g seq := by
  rw [← marked_unmarked]
  have whole := (GccFrame.bytes_length g seq).ge
  have long := long_marked (g := g) (seq := seq) (m := fun _ => false) (rest := rest)
  obtain ⟨t, ht⟩ := marked_bytes_sync g seq (fun _ => false) rest
  rw [gccHead_whole ht (cutAt_unmarked (by omega) fun _ _ => rfl) (by omega) header_crc (header_len hmax) hmax
    (cutAt_unmarked whole fun _ _ => rfl) long (by rw [values_payload, values_payload_crc, beNat_natBe (crc32c_lt _)]),
    header_typ htyp, header_seq hseq, values_payload]

/-- R205: of a frame with one byte in error, that byte and those before it are dropped, and no frame is counted or taken. -/
theorem gccHead_error (hmax : g.payload.length ≤ 4352) (rest : List OhByte) {i : Nat} (hi : i < 14 + g.payload.length) :
    gccHead (marked (g.bytes seq) (fun k => decide (k = i)) ++ rest) = .drop (i + 1) 0 := by
  have whole := (GccFrame.bytes_length g seq).ge
  have long := long_marked (g := g) (seq := seq) (m := fun k => decide (k = i)) (rest := rest)
  have first (k : Nat) (hk : k < i) : decide (k = i) = false := by simp [hk.ne]
  obtain ⟨t, ht⟩ := marked_bytes_sync g seq (fun k => decide (k = i)) rest
  rcases i with _ | _ | i
  · rw [ht]
    exact gccHead_first_marked _ _
  · rw [ht]
    exact gccHead_second_marked _ _
  · have sync : marked (g.bytes seq) (fun k => decide (k = i + 1 + 1)) ++ rest = (0xc5, false) :: (0x3a, false) :: t := by
      rw [ht]
      simp
    rcases Nat.lt_or_ge (i + 1 + 1) 10 with inHeader | beyond
    · exact gccHead_header_cut sync (cutAt_marked (by omega) inHeader (by simp) first)
    · exact gccHead_body_cut sync (cutAt_unmarked (by omega) fun k hk => first k (by omega)) (by omega) header_crc (header_len hmax) hmax
        (cutAt_marked whole hi (by simp) first)

end

/-- Settles O42: each command by its own equation, and the channel by the layout of a frame. -/
theorem lineFrameCommands : Obligations.LineFrameCommands := by
  refine ⟨fun s f x hx => ?commands, fun g seq rest htyp hmax hseq => ⟨?whole, fun i hi => ?error⟩⟩
  case commands =>
    refine ⟨fun hoff => ⟨execDlof_off hoff, execDlom_off hoff, execDloa_off hoff⟩, fun hon => ?defects, execDdeg_within, execDdeg_second,
      fun hinner o => execOuterDecode_none o hinner, fun r l o hinner =>
        ⟨execOuterDecode_early o hinner, fun t => execOuterDecode_due o hinner⟩,
      ?receive, ?idle, fun g h fw hs => execGccFrameTransmit_both hx, fun hstopped => ⟨fun l => execSlfFrameEncode_stopped l hstopped,
        execTxAssembly_stopped hstopped, fun l => execSuperframeTransmit_stopped l hstopped⟩, fun hrun => ?transmit⟩ <;> subst hx
    case defects =>
      exact ⟨fun n => execDlof_declared hon, fun n => execDlof_cleared hon, fun n => execDlom_declared hon, execDlom_disabled hon,
        execDloa_on hon⟩
    case receive => exact execGccFrameReceive_eq
    case idle => exact execGccFrameTransmit_idle
    case transmit =>
      exact ⟨execSlfFrameEncode_run [] hrun, execTxAssembly_run hrun, fun c l => execSuperframeTransmit_clipped c l hrun,
        execSuperframeTransmit_boh hrun⟩
  case whole =>
    rw [gccHead_frame htyp hmax hseq]
    exact ⟨rfl, rfl, rfl⟩
  case error =>
    have dropped := gccHead_error (g := g) (seq := seq) hmax rest hi
    dsimp only [marked] at dropped
    rw [dropped]
    exact ⟨i.succ_pos, le_rfl, rfl⟩

end Sys2Proof.Machine

/-! ### The fields of a word (Tables SUB-2, SUB-3, XC-3; R140, R178, R180, R233) -/

namespace Sys2Proof.Machine

/-! #### A word of two parts: a body above a check code, a field above those that follow -/

section
variable {m n k high low : Nat}

theorem stacked_div (hlow : low < 2 ^ k) : (high * 2 ^ k + low) / 2 ^ k = high := by
  rw [Nat.add_comm, Nat.add_mul_div_right _ _ (Nat.two_pow_pos _), Nat.div_eq_of_lt hlow, Nat.zero_add]

theorem stacked_body (hhigh : high < 2 ^ m) (hlow : low < 2 ^ k) : (high * 2 ^ k + low) / 2 ^ k % 2 ^ m = high := by
  rw [stacked_div hlow, Nat.mod_eq_of_lt hhigh]

theorem stacked_lt (hhigh : high < 2 ^ m) (hlow : low < 2 ^ k) (hn : n = m + k) : high * 2 ^ k + low < 2 ^ n :=
  calc high * 2 ^ k + low < (high + 1) * 2 ^ k := by rw [Nat.succ_mul]; exact Nat.add_lt_add_left hlow _
    _ ≤ 2 ^ m * 2 ^ k := Nat.mul_le_mul_right _ hhigh
    _ = 2 ^ n := by rw [hn, Nat.pow_add]

end

/-! #### A word laid out in fields -/

/-- The bits that fields take. A field is its width and its value. -/
def fieldsWidth (l : List (Nat × Nat)) : Nat := (l.map Prod.fst).sum

/-- The word that fields make, the most significant first: bits between fields are a field of value 0. -/
def packFields : List (Nat × Nat) → Nat
  | [] => 0
  | f :: l => f.2 * 2 ^ fieldsWidth l + packFields l

/-- Every value fits in the width of its field. -/
def FieldsFit (l : List (Nat × Nat)) : Prop := ∀ f ∈ l, f.2 < 2 ^ f.1

/-- The word reads as the fields, each at its place above the fields that follow it. -/
def ReadsAs (v : Nat) : List (Nat × Nat) → Prop
  | [] => True
  | f :: l => wordBits v (fieldsWidth l) f.1 = f.2 ∧ ReadsAs v l

/-! The equations by which words are unfolded are rewritten with, not left to reduction, which would compute powers of 2 as large as
2 ^ 495. -/

theorem fieldsWidth_nil : fieldsWidth [] = 0 := by rw [fieldsWidth, List.map_nil, List.sum_nil]

theorem fieldsWidth_cons (f : Nat × Nat) (l : List (Nat × Nat)) : fieldsWidth (f :: l) = f.1 + fieldsWidth l := by
  rw [fieldsWidth, List.map_cons, List.sum_cons, fieldsWidth]

theorem packFields_nil : packFields [] = 0 := by rw [packFields]

theorem packFields_cons (f : Nat × Nat) (l : List (Nat × Nat)) : packFields (f :: l) = f.2 * 2 ^ fieldsWidth l + packFields l := by
  rw [packFields]

theorem packFields_lt {l : List (Nat × Nat)} (fit : FieldsFit l) : packFields l < 2 ^ fieldsWidth l := by
  induction l with
  | nil => decide
  | cons f l ih =>
    obtain ⟨head, tail⟩ := List.forall_mem_cons.mp fit
    exact stacked_lt head (ih tail) (fieldsWidth_cons f l)

/-- The first field stands alone above the others. -/
theorem packFields_top {f : Nat × Nat} {l : List (Nat × Nat)} (fit : FieldsFit l) : packFields (f :: l) / 2 ^ fieldsWidth l = f.2 :=
  stacked_div (packFields_lt fit)

/-- What stands above the fields does not matter to what is read of them. -/
theorem readsAs_above {l : List (Nat × Nat)} (fit : FieldsFit l) (above : Nat) :
    ReadsAs (above * 2 ^ fieldsWidth l + packFields l) l := by
  induction l generalizing above with
  | nil => trivial
  | cons f l ih =>
    obtain ⟨head, tail⟩ := List.forall_mem_cons.mp fit
    have regroup : above * 2 ^ fieldsWidth (f :: l) + packFields (f :: l) =
        (above * 2 ^ f.1 + f.2) * 2 ^ fieldsWidth l + packFields l := by
      rw [packFields_cons, fieldsWidth_cons]
      ring
    rw [regroup]
    refine ⟨?_, ih tail _⟩
    rw [wordBits, stacked_div (packFields_lt tail), Nat.mul_add_mod_of_lt head]

/-- Fields are read as they were laid out. -/
theorem readsAs_packFields {l : List (Nat × Nat)} (fit : FieldsFit l) : ReadsAs (packFields l) l := by
  simpa only [Nat.zero_mul, Nat.zero_add] using readsAs_above fit 0

/-- A flag is a field of one bit. -/
theorem flag_eq_field (b : Bool) (i : Nat) : (if b then 2 ^ i else 0) = b.toNat * 2 ^ i := by cases b <;> simp

theorem toNat_beq_one (b : Bool) : (b.toNat == 1) = b := by cases b <;> rfl

/-! #### The code field (Table SUB-2) -/

theorem codeField_eq_ofDigits {codes : List Nat} (hlen : codes.length = 32) (hcodes : ∀ c ∈ codes, c < 128) :
    codeField codes = Nat.ofDigits 128 codes := by
  rw [codeField, Nat.ofDigits_eq_sum_mapIdx]
  congr 1
  refine List.ext_getElem (by simp [hlen]) fun k _ hk => ?_
  rw [List.length_mapIdx] at hk
  rw [List.getElem_map, List.getElem_range, List.getElem_mapIdx, List.getD_eq_getElem _ _ hk,
    Nat.mod_eq_of_lt (hcodes _ (List.getElem_mem hk)), Nat.pow_mul]

theorem codeField_lt {codes : List Nat} (hlen : codes.length = 32) (hcodes : ∀ c ∈ codes, c < 128) : codeField codes < 2 ^ 224 := by
  rw [codeField_eq_ofDigits hlen hcodes]
  exact (Nat.ofDigits_lt_base_pow_length (by decide) hcodes).trans_eq (by rw [hlen]; rfl)

theorem codesOf_codeField {codes : List Nat} (hlen : codes.length = 32) (hcodes : ∀ c ∈ codes, c < 128) :
    codesOf (codeField codes) = codes := by
  refine List.ext_getElem (by simp [codesOf, hlen]) fun k _ hk => ?_
  have digits := Nat.ofDigits_div_pow_eq_ofDigits_drop k (by decide : 0 < 128) codes hcodes
  simp only [codesOf, List.getElem_map, List.getElem_range]
  rw [codeField_eq_ofDigits hlen hcodes, Nat.pow_mul, digits, List.drop_eq_getElem_cons hk, Nat.ofDigits_cons,
    Nat.add_mul_mod_self_left, Nat.mod_eq_of_lt (hcodes _ (List.getElem_mem hk))]

/-! #### The header loading block -/

/-- The fields of the block (Table SUB-2). -/
def Hlb.fields (h : Hlb) : List (Nat × Nat) :=
  [(4, h.curTid), (224, codeField h.curCodes), (1, h.nxtValid.toNat), (4, h.nxtTid), (8, h.nxtIn), (2, h.nxtCause), (13, 0)]

theorem Hlb.ofWord_eq (w : Nat) : Hlb.ofWord w =
    { curTid := wordBits w 252 4, curCodes := codesOf (wordBits w 28 224), nxtValid := wordBits w 27 1 == 1
      nxtTid := wordBits w 23 4, nxtIn := wordBits w 15 8, nxtCause := wordBits w 13 2 } := rfl

section
variable {h : Hlb} (hr : h.InRange)
include hr

theorem Hlb.fields_fit : FieldsFit h.fields := by
  obtain ⟨tid, len, codes, nextTid, nextIn, cause⟩ := hr
  simp only [FieldsFit, Hlb.fields, List.forall_mem_cons]
  exact ⟨tid, codeField_lt len codes, h.nxtValid.toNat_lt, nextTid, nextIn, cause, by decide, nofun⟩

theorem Hlb.word_eq : h.word = packFields h.fields := by
  obtain ⟨tid, -, -, nextTid, nextIn, cause⟩ := hr
  rw [Hlb.word, Nat.mod_eq_of_lt tid, Nat.mod_eq_of_lt nextTid, Nat.mod_eq_of_lt nextIn, Nat.mod_eq_of_lt cause, flag_eq_field]
  simp [Hlb.fields, packFields_cons, packFields_nil, fieldsWidth_cons, fieldsWidth_nil, add_assoc]

theorem Hlb.word_lt : h.word < 2 ^ 256 := by
  rw [Hlb.word_eq hr]
  exact packFields_lt (Hlb.fields_fit hr)

theorem Hlb.ofWord_word : Hlb.ofWord h.word = h := by
  have read := readsAs_packFields (Hlb.fields_fit hr)
  rw [← Hlb.word_eq hr] at read
  obtain ⟨-, len, codes, -, -, -⟩ := hr
  simp only [Hlb.fields, ReadsAs, fieldsWidth_cons, fieldsWidth_nil, Nat.reduceAdd] at read
  simp only [Hlb.ofWord_eq, read, codesOf_codeField len codes, toNat_beq_one]

end

/-! #### The header word (R178, R180) -/

/-- The fields under the check code: VER, N, COUNT, the superframe count, the loading block and the reserved bits. -/
def HeaderWord.fields (h : HeaderWord) : List (Nat × Nat) :=
  [(4, 1), (5, h.n), (6, h.count), (24, h.sfCount), (256, h.hlb.word), (153, 0)]

theorem HeaderWord.fields_width (h : HeaderWord) : fieldsWidth h.fields = 448 := by simp [HeaderWord.fields, fieldsWidth]

theorem HeaderWord.ofWord_of_checked {w u : Nat} (hbody : w / 2 ^ 32 % 2 ^ 448 = u) (hcode : w % 2 ^ 32 = crc32c (natBe 56 u))
    (hver : u / 2 ^ 444 = 1) : HeaderWord.ofWord w =
      some { n := wordBits u 439 5, count := wordBits u 433 6, sfCount := wordBits u 409 24, hlb := Hlb.ofWord (wordBits u 153 256) } := by
  subst hbody
  exact if_pos ⟨hcode.symm, hver⟩

section
variable {h : HeaderWord} (hn : h.n < 32) (hcount : h.count < 64) (hsf : h.sfCount < 2 ^ 24) (hr : h.hlb.InRange)
include hn hcount hsf hr

theorem HeaderWord.fields_fit : FieldsFit h.fields := by
  simp only [FieldsFit, HeaderWord.fields, List.forall_mem_cons]
  exact ⟨by decide, hn, hcount, hsf, Hlb.word_lt hr, by decide, nofun⟩

theorem HeaderWord.body_lt : packFields h.fields < 2 ^ 448 := by
  rw [← HeaderWord.fields_width h]
  exact packFields_lt (HeaderWord.fields_fit hn hcount hsf hr)

omit hr in
theorem HeaderWord.word_eq : h.word = packFields h.fields * 2 ^ 32 + crc32c (natBe 56 (packFields h.fields)) := by
  have body : 2 ^ 444 + h.n * 2 ^ 439 + h.count * 2 ^ 433 + h.sfCount * 2 ^ 409 + h.hlb.word * 2 ^ 153 = packFields h.fields := by
    simp only [HeaderWord.fields, packFields_cons, packFields_nil, fieldsWidth_cons, fieldsWidth_nil, Nat.reduceAdd, one_mul, zero_mul,
      add_zero, add_assoc]
  rw [HeaderWord.word, Nat.mod_eq_of_lt hn, Nat.mod_eq_of_lt hcount, Nat.mod_eq_of_lt hsf, body]

theorem HeaderWord.word_lt : h.word < 2 ^ 480 := by
  rw [HeaderWord.word_eq hn hcount hsf]
  exact stacked_lt (n := 480) (HeaderWord.body_lt hn hcount hsf hr) (crc32c_lt _) rfl

theorem HeaderWord.ofWord_word : HeaderWord.ofWord h.word = some h := by
  have fit := HeaderWord.fields_fit hn hcount hsf hr
  have body : h.word / 2 ^ 32 % 2 ^ 448 = packFields h.fields := by
    rw [HeaderWord.word_eq hn hcount hsf]
    exact stacked_body (HeaderWord.body_lt hn hcount hsf hr) (crc32c_lt _)
  have code : h.word % 2 ^ 32 = crc32c (natBe 56 (packFields h.fields)) := by
    rw [HeaderWord.word_eq hn hcount hsf]
    exact Nat.mul_add_mod_of_lt (crc32c_lt _)
  have version : packFields h.fields / 2 ^ 444 = 1 := by
    have top := packFields_top (f := (4, 1)) (List.forall_mem_cons.mp fit).2
    simpa only [HeaderWord.fields, fieldsWidth_cons, fieldsWidth_nil, Nat.reduceAdd] using top
  rw [HeaderWord.ofWord_of_checked body code version]
  have read := readsAs_packFields fit
  simp only [HeaderWord.fields, ReadsAs, fieldsWidth_cons, fieldsWidth_nil, Nat.reduceAdd] at read
  simp only [HeaderWord.fields, read, Hlb.ofWord_word hr]

end

/-! #### The loading overhead field (R140, Table SUB-3) -/

/-- The fields under the check code. -/
def Lof.fields (l : Lof) : List (Nat × Nat) :=
  [(1, l.annValid.toNat), (4, l.annTid), (8, l.annIn), (224, codeField l.annCodes), (1, l.reqValid.toNat), (4, l.reqSeq),
    (4, l.reqBase), (224, codeField l.reqCodes), (4, l.ackSeq), (3, l.ackStatus), (19, 0)]

theorem Lof.fields_width (l : Lof) : fieldsWidth l.fields = 496 := by simp [Lof.fields, fieldsWidth]

theorem Lof.ofWord_of_checked {w u : Nat} (hbody : w / 2 ^ 16 % 2 ^ 496 = u) (hcode : w % 2 ^ 16 = crc16 (bitsBe 496 u)) :
    Lof.ofWord w = some { annValid := wordBits u 495 1 == 1, annTid := wordBits u 491 4, annIn := wordBits u 483 8
                          annCodes := codesOf (wordBits u 259 224), reqValid := wordBits u 258 1 == 1, reqSeq := wordBits u 254 4
                          reqBase := wordBits u 250 4, reqCodes := codesOf (wordBits u 26 224), ackSeq := wordBits u 22 4
                          ackStatus := wordBits u 19 3 } := by
  rw [Lof.ofWord, hbody]
  exact if_pos hcode.symm

theorem Lof.ofWord_of_wrong_code {w u : Nat} (hbody : w / 2 ^ 16 % 2 ^ 496 = u) (hcode : w % 2 ^ 16 ≠ crc16 (bitsBe 496 u)) :
    Lof.ofWord w = none := by
  rw [Lof.ofWord, hbody]
  exact if_neg hcode.symm

/-- The fields of a loading overhead field fit the bits that Table SUB-3 gives them. -/
structure Lof.InRange (l : Lof) : Prop where
  annTid : l.annTid < 16
  annIn : l.annIn < 256
  annLength : l.annCodes.length = 32
  annCodes : ∀ c ∈ l.annCodes, c < 128
  reqSeq : l.reqSeq < 16
  reqBase : l.reqBase < 16
  reqLength : l.reqCodes.length = 32
  reqCodes : ∀ c ∈ l.reqCodes, c < 128
  ackSeq : l.ackSeq < 16
  ackStatus : l.ackStatus < 8

section
variable {l : Lof} (hr : l.InRange)
include hr

theorem Lof.fields_fit : FieldsFit l.fields := by
  simp only [FieldsFit, Lof.fields, List.forall_mem_cons]
  exact ⟨l.annValid.toNat_lt, hr.annTid, hr.annIn, codeField_lt hr.annLength hr.annCodes, l.reqValid.toNat_lt, hr.reqSeq, hr.reqBase,
    codeField_lt hr.reqLength hr.reqCodes, hr.ackSeq, hr.ackStatus, by decide, nofun⟩

theorem Lof.upper_eq : l.upper = packFields l.fields := by
  rw [Lof.upper, Nat.mod_eq_of_lt hr.annTid, Nat.mod_eq_of_lt hr.annIn, Nat.mod_eq_of_lt hr.reqSeq, Nat.mod_eq_of_lt hr.reqBase,
    Nat.mod_eq_of_lt hr.ackSeq, Nat.mod_eq_of_lt hr.ackStatus, flag_eq_field, flag_eq_field]
  simp only [Lof.fields, packFields_cons, packFields_nil, fieldsWidth_cons, fieldsWidth_nil, Nat.reduceAdd, zero_mul, add_zero, add_assoc]

theorem Lof.upper_lt : l.upper < 2 ^ 496 := by
  rw [Lof.upper_eq hr, ← Lof.fields_width l]
  exact packFields_lt (Lof.fields_fit hr)

theorem Lof.word_lt : l.word < 2 ^ 512 := stacked_lt (n := 512) (Lof.upper_lt hr) (crc16_lt _) rfl

theorem Lof.word_body : l.word / 2 ^ 16 % 2 ^ 496 = l.upper := stacked_body (Lof.upper_lt hr) (crc16_lt _)

omit hr in
theorem Lof.word_code : l.word % 2 ^ 16 = crc16 (bitsBe 496 l.upper) := Nat.mul_add_mod_of_lt (crc16_lt _)

theorem Lof.ofWord_word : Lof.ofWord l.word = some l := by
  have read := readsAs_packFields (Lof.fields_fit hr)
  rw [← Lof.upper_eq hr] at read
  simp only [Lof.fields, ReadsAs, fieldsWidth_cons, fieldsWidth_nil, Nat.reduceAdd] at read
  rw [Lof.ofWord_of_checked (Lof.word_body hr) Lof.word_code]
  simp only [read, codesOf_codeField hr.annLength hr.annCodes, codesOf_codeField hr.reqLength hr.reqCodes, toNat_beq_one]

/-- A wrong bit of the check code leaves the fields as they were, and the code is no longer theirs. -/
theorem Lof.ofWord_wrong_bit {k : Nat} (hk : k < 16) : Lof.ofWord (l.word ^^^ 2 ^ k) = none := by
  have bit : 2 ^ k < 2 ^ 16 := Nat.pow_lt_pow_right (by decide) hk
  refine Lof.ofWord_of_wrong_code (u := l.upper) ?_ ?_
  · rw [Nat.xor_div_two_pow, Nat.div_eq_of_lt bit, Nat.xor_zero, Lof.word_body hr]
  · rw [Nat.xor_mod_two_pow, Nat.mod_eq_of_lt bit, Lof.word_code, Ne, xor_left_eq_self_iff]
    exact (Nat.two_pow_pos k).ne'

end

/-! #### The endpoint entry (R233, Table XC-3) -/

theorem slice_append_right (a b : List Byte) (off len : Nat) : slice (a ++ b) (a.length + off) len = slice b off len := by
  simp only [slice, Nat.add_assoc, List.getElem?_append_right (Nat.le_add_right ..), Nat.add_sub_cancel_left]

/-- Of 32-bit words, low byte first, the word at place `i` is read. -/
theorem fieldAt_words {words : List Nat} (fit : ∀ v ∈ words, v < 2 ^ 32) {i : Nat} (hi : i < words.length) :
    fieldAt (words.flatMap (natLe 4)) (4 * i) 4 = words[i] := by
  induction words generalizing i with
  | nil => exact absurd hi (Nat.not_lt_zero i)
  | cons v words ih =>
    obtain ⟨head, tail⟩ := List.forall_mem_cons.mp fit
    rw [List.flatMap_cons]
    cases i with
    | zero => exact leNat_natLe (n := 4) head
    | succ i =>
      have skip := slice_append_right (natLe 4 v) (words.flatMap (natLe 4)) (4 * i) 4
      rw [show (natLe 4 v).length + 4 * i = 4 * (i + 1) by simp only [natLe, List.length_cons, List.length_nil]; omega] at skip
      rw [fieldAt, skip]
      exact ih tail (Nat.lt_of_succ_lt_succ hi)

/-- The fields of words 1 and 2. -/
def XcEnd.fields (d : XcEnd) : List (Nat × Nat) := [(2, d.kind), (10, d.tsLow), (3, 0), (17, d.id)]

/-- The fields of the eight words. -/
def XcEntry.words (x : XcEntry) : List (List (Nat × Nat)) :=
  [[(2, x.kind), (10, x.tenant), (4, x.oduType), (2, 0), (2, x.state), (12, x.tsCount)],
    x.src.fields, x.dst.fields,
    [(2, x.legbKind), (10, x.legbTsLow), (14, 0), (6, x.legbFrond)],
    [(2, x.selMode), (1, x.prefMode), (1, x.taken), (2, x.imuxM), (1, x.imuxEnd), (2, x.lstate), (12, 0), (11, x.hold)],
    [(1, x.saEn.toNat), (1, 0), (14, x.saId), (2, 0), (14, x.granules)],
    [(8, 0), (24, x.members)],
    [(6, x.pmProfile), (1, x.pmEn.toNat), (1, 0), (3, x.tcmLevel), (3, x.layer), (2, 0), (8, x.expPt), (8, 0)]]

theorem XcEntry.words_width (x : XcEntry) : ∀ l ∈ x.words, fieldsWidth l = 32 := by
  simp [XcEntry.words, XcEnd.fields, fieldsWidth]

theorem XcEntry.bytes_eq (x : XcEntry) : x.bytes = (x.words.map packFields).flatMap (natLe 4) := by
  simp only [XcEntry.bytes, XcEntry.words, XcEnd.fields, List.map_cons, List.map_nil, List.flatMap_cons, List.flatMap_nil, List.append_nil,
    List.append_assoc, packFields_cons, packFields_nil, fieldsWidth_cons, fieldsWidth_nil, Nat.reduceAdd, zero_mul, add_zero, zero_add,
    pow_zero, mul_one, add_assoc, flag_eq_field]

theorem XcEntry.bytes_length (x : XcEntry) : x.bytes.length = 32 := by simp [XcEntry.bytes, natLe]

theorem XcEnd.fields_fit {d : XcEnd} (hd : d.kind < 4 ∧ d.tsLow < 1024 ∧ d.id < 2 ^ 17) : FieldsFit d.fields := by
  obtain ⟨kind, tsLow, id⟩ := hd
  simp only [FieldsFit, XcEnd.fields, List.forall_mem_cons]
  exact ⟨kind, tsLow, by decide, id, nofun⟩

section
variable {x : XcEntry} (fit : ∀ l ∈ x.words, FieldsFit l)
include fit

/-- Each of the eight words reads as its fields. -/
theorem XcEntry.bytes_readAs : ∀ p ∈ x.words.zipIdx, ReadsAs (fieldAt x.bytes (4 * p.2) 4) p.1 := by
  have bound : ∀ v ∈ x.words.map packFields, v < 2 ^ 32 := by
    refine List.forall_mem_map.mpr fun l hl => ?_
    rw [← x.words_width l hl]
    exact packFields_lt (fit l hl)
  intro (l, i) hp
  obtain ⟨hi, rfl⟩ := List.getElem?_eq_some_iff.mp (List.mk_mem_zipIdx_iff_getElem?.mp hp)
  rw [x.bytes_eq, fieldAt_words bound (by rwa [List.length_map]), List.getElem_map]
  exact readsAs_packFields (fit _ (List.getElem_mem hi))

theorem entryOf_bytes (hrsv : x.rsv = false) : entryOf x.bytes = { x with state := 0, taken := 0, lstate := 0, granules := 0 } := by
  have read := XcEntry.bytes_readAs fit
  simp only [XcEntry.words, XcEnd.fields, List.zipIdx_cons, List.zipIdx_nil, List.forall_mem_cons, ReadsAs, fieldsWidth_cons,
    fieldsWidth_nil, Nat.reduceAdd, Nat.reduceMul] at read
  simp [entryOf, endOf, read, hrsv]

end

/-- Settles O7: each word is its fields laid out from the most significant down, and a check code stands below the fields it covers. -/
theorem headerRoundTrip : Obligations.HeaderRoundTrip := by
  refine ⟨⟨?header, ?lof⟩, ?entry⟩
  case header => exact fun h hn hcount hsf hr => ⟨HeaderWord.ofWord_word hn hcount hsf hr, HeaderWord.word_lt hn hcount hsf hr⟩
  case lof =>
    intro l annTid annIn annLength annCodes reqSeq reqBase reqLength reqCodes ackSeq ackStatus
    have hr : l.InRange := ⟨annTid, annIn, annLength, annCodes, reqSeq, reqBase, reqLength, reqCodes, ackSeq, ackStatus⟩
    exact ⟨Lof.ofWord_word hr, Lof.word_lt hr, fun k => Lof.ofWord_wrong_bit hr⟩
  case entry =>
    intro x kind tenant oduType state tsCount ends legbKind legbTsLow legbFrond selMode prefMode taken imuxM imuxEnd lstate hold saId
      granules members pmProfile tcmLevel layer expPt hrsv
    have fit : ∀ l ∈ x.words, FieldsFit l := by
      simp only [XcEntry.words, List.forall_mem_cons]
      refine ⟨?_, XcEnd.fields_fit (ends _ (.inl rfl)), XcEnd.fields_fit (ends _ (.inr rfl)), ?_, ?_, ?_, ?_, ?_, nofun⟩ <;>
        simp only [FieldsFit, List.forall_mem_cons]
      · exact ⟨kind, tenant, oduType, by decide, state, tsCount, nofun⟩
      · exact ⟨legbKind, legbTsLow, by decide, legbFrond, nofun⟩
      · exact ⟨selMode, prefMode, taken, imuxM, imuxEnd, lstate, by decide, hold, nofun⟩
      · exact ⟨x.saEn.toNat_lt, by decide, saId, by decide, granules, nofun⟩
      · exact ⟨by decide, members, nofun⟩
      · exact ⟨pmProfile, x.pmEn.toNat_lt, by decide, tcmLevel, layer, by decide, expPt, by decide, nofun⟩
    exact ⟨x.bytes_length, entryOf_bytes fit hrsv⟩

end Sys2Proof.Machine

/-! ### Performance monitoring (R208, R209, R218 to R221, R224, R226) -/

namespace Sys2Proof.Machine

/-! #### A BER gauge is the nearest code (R219) -/

/-- When the test holds at the start of a search, it holds at the value found. -/
theorem searchMax_holds {test : Int → Bool} (n : Nat) {lo : Int} (hlo : test lo = true) : test (searchMax test n lo) = true := by
  induction n generalizing lo with
  | zero => exact hlo
  | succ n ih =>
    unfold searchMax
    split
    case isTrue hmid => exact ih hmid
    case isFalse => exact ih hlo

/-- The test fails just above the value found, within the search. -/
theorem searchMax_next_fails {test : Int → Bool} {n : Nat} {lo : Int} (hn : searchMax test n lo + 1 < lo + 2 ^ n) :
    test (searchMax test n lo + 1) = false := by
  induction n generalizing lo with
  | zero => simp [searchMax] at hn
  | succ n ih =>
    have hpow : (2 : Int) ^ (n + 1) = 2 ^ n + 2 ^ n := by ring
    unfold searchMax at hn ⊢
    split
    case isTrue hmid =>
      rw [if_pos hmid] at hn
      exact ih (by omega)
    case isFalse hmid =>
      rw [if_neg hmid] at hn
      by_cases hlast : searchMax test n lo + 1 < lo + 2 ^ n
      · exact ih hlast
      · have below := (searchMax_mem test n lo).2
        have top : searchMax test n lo + 1 = lo + 2 ^ n := by omega
        rw [top]
        exact eq_false_of_ne_true hmid

/-- The test of the gauge's search: `a` errors in `b` bits are coded `g` or more. -/
def gaugeTest (a b : Nat) (g : Int) : Bool := decide (g ≤ 0) || decide (a ^ 5120 * 10 ^ (2 * g - 1).toNat ≤ b ^ 5120)

theorem gaugeTest_natCast (a b k : Nat) : gaugeTest a b k = true ↔ k = 0 ∨ a ^ 5120 * 10 ^ (2 * k - 1) ≤ b ^ 5120 := by
  have exponent : (2 * (k : Int) - 1).toNat = 2 * k - 1 := by omega
  rw [gaugeTest, exponent, Bool.or_eq_true, decide_eq_true_iff, decide_eq_true_iff]
  simp

section
variable {a b : Nat}

theorem berGauge_no_errors (hb : 0 < b) : berGauge 0 b = 0xffff := by simp [berGauge, hb.ne']

theorem berGauge_all_errors (hb : 0 < b) (hab : b ≤ a) : berGauge a b = 0 := by
  simp [berGauge, hb.ne', (hb.trans_le hab).ne', hab]

theorem berGauge_eq_search (ha : 0 < a) (hab : a < b) :
    berGauge a b = min 0xfffe (searchMax (gaugeTest a b) 17 0).toNat := by
  rw [berGauge, if_neg (ha.trans hab).ne', if_neg ha.ne', if_neg hab.not_ge]
  rfl

/-- Below the greatest code, the gauge is the value of the search. -/
theorem searchMax_gaugeTest (ha : 0 < a) (hab : a < b) (hmax : berGauge a b < 0xfffe) :
    searchMax (gaugeTest a b) 17 0 = berGauge a b := by
  have found := searchMax_mem (gaugeTest a b) 17 0
  rw [berGauge_eq_search ha hab] at hmax ⊢
  omega

/-- R219: the code is within one half of -2,560 log10(a / b). -/
theorem berGauge_nearest (ha : 0 < a) (hab : a < b) (hmax : berGauge a b < 0xfffe) :
    a ^ 5120 * 10 ^ (2 * berGauge a b - 1) ≤ b ^ 5120 ∧ b ^ 5120 < a ^ 5120 * 10 ^ (2 * berGauge a b + 1) := by
  have found := searchMax_gaugeTest ha hab hmax
  constructor
  · have holds := searchMax_holds (test := gaugeTest a b) 17 (lo := 0) ((gaugeTest_natCast a b 0).mpr (.inl rfl))
    rw [found, gaugeTest_natCast] at holds
    rcases holds with zero | within
    · rw [zero, Nat.mul_zero, Nat.zero_sub, Nat.pow_zero, Nat.mul_one]
      exact pow_le_pow_left₀ a.zero_le hab.le 5120
    · exact within
  · have fails := searchMax_next_fails (test := gaugeTest a b) (n := 17) (lo := 0) (by rw [found]; omega)
    rw [found, ← Nat.cast_succ, ← Bool.not_eq_true, gaugeTest_natCast, not_or] at fails
    exact Nat.lt_of_not_le fails.2

end

/-! #### What the work on counts and records leaves alone -/

/-- Performance monitoring leaves the anchor, the profiles and every register but that of EXPORT_LOST as they were. -/
structure PmKeeps (s t : State) : Prop where
  regs : RegsBut [R.GLB_PM_STAT_EXPORT_LOST.off] s t
  anchor : t.pm.anchor = s.pm.anchor
  profiles : t.pm.profiles = s.pm.profiles

/-- The work on endpoints' counts and on waiting records leaves the fronds alone as well. -/
structure PmQuiet (s t : State) : Prop extends PmKeeps s t where
  fronds : t.fronds = s.fronds

theorem PmKeeps.refl (s : State) : PmKeeps s s := ⟨fun _ _ => rfl, rfl, rfl⟩

theorem PmKeeps.trans {s t u : State} (h : PmKeeps s t) (h' : PmKeeps t u) : PmKeeps s u where
  regs o ho := (h'.regs o ho).trans (h.regs o ho)
  anchor := h'.anchor.trans h.anchor
  profiles := h'.profiles.trans h.profiles

theorem PmKeeps.modFrond {s t : State} (h : PmKeeps s t) (f : Nat) (g : Frond → Frond) : PmKeeps s (t.modFrond f g) :=
  ⟨h.regs, h.anchor, h.profiles⟩

namespace PmQuiet

variable {s t : State}

theorem refl (s : State) : PmQuiet s s := ⟨.refl s, rfl⟩

theorem frond (h : PmQuiet s t) (f : Nat) : t.frond f = s.frond f := by
  unfold State.frond
  rw [h.fronds]

theorem raiseEv (h : PmQuiet s t) (e : Event) : PmQuiet s (t.raiseEv e) := ⟨⟨h.regs, h.anchor, h.profiles⟩, h.fronds⟩

theorem setEpPm (h : PmQuiet s t) (e : Nat) (p : Option EpPm) : PmQuiet s (t.setEpPm e p) :=
  ⟨⟨h.regs, h.anchor, h.profiles⟩, h.fronds⟩

theorem wrExportLost (h : PmQuiet s t) (n : Nat) : PmQuiet s (t.wr R.GLB_PM_STAT_EXPORT_LOST n) where
  regs o ho := (t.wr_regsBut _ n o ho).trans (h.regs o ho)
  anchor := (congrArg PmSt.anchor (t.wr_pm _ n)).trans h.anchor
  profiles := (congrArg PmSt.profiles (t.wr_pm _ n)).trans h.profiles
  fronds := (t.wr_fronds _ n).trans h.fronds

theorem setWaiting (h : PmQuiet s t) (l : List PmRecord) : PmQuiet s { t with pm := { t.pm with waiting := l } } :=
  ⟨⟨h.regs, h.anchor, h.profiles⟩, h.fronds⟩

theorem queueRecord (h : PmQuiet s t) (r : PmRecord) : PmQuiet s (t.queueRecord r) := by
  unfold State.queueRecord
  refine setWaiting ?_ _
  split
  · exact h.wrExportLost _
  · exact h

theorem binTca (h : PmQuiet s t) (e len now : Nat) (b : EpBin) (endTick : Nat) : PmQuiet s (t.binTca e len now b endTick).1 := by
  refine List.foldlRecOn (motive := fun r : State × EpBin => PmQuiet s r.1) (List.range 8) _ h fun r hr k _ => ?_
  dsimp only
  split
  · exact hr.raiseEv _
  · exact hr

theorem commitLen (h : PmQuiet s t) (e len now : Nat) (r : SecRec) (p : EpPm) : PmQuiet s (t.commitLen e len now r p).1 := by
  unfold State.commitLen
  split
  split <;> exact h.binTca _ _ _ _ _

theorem commitSec (h : PmQuiet s t) (e now : Nat) (r : SecRec) (p : EpPm) : PmQuiet s (t.commitSec e now r p).1 :=
  (h.commitLen e 0 now r p).commitLen _ _ _ _ _

theorem commitOldest (h : PmQuiet s t) (e now : Nat) (p : EpPm) : PmQuiet s (t.commitOldest e now p).1 := by
  unfold State.commitOldest
  split
  · split
    · exact h.commitSec _ _ _ _
    · exact h
  · exact h

theorem finalLen (h : PmQuiet s t) (e len now : Nat) (p : EpPm) : PmQuiet s (t.finalLen e len now p).1 :=
  List.foldlRecOn (motive := fun r : State × EpPm => PmQuiet s r.1) _ _ h fun _ hr _ _ => hr.queueRecord _

theorem epSecond (h : PmQuiet s t) (e now : Nat) (i : SecIn) : PmQuiet s (t.epSecond e now i) := by
  unfold State.epSecond
  split
  · exact h
  · exact (((h.commitOldest _ _ _).finalLen _ _ _ _).finalLen _ _ _ _).setEpPm _ _

theorem frondClose (h : PmQuiet s t) (f len now : Nat) (b : FrondBin) (start : Nat) : PmQuiet s (t.frondClose f len now b start) :=
  h.queueRecord _

end PmQuiet

/-! #### The bins of a frond (R218) -/

section
variable (s : State) (f t : Nat)

theorem State.frondClose_frond (len : Nat) (b : FrondBin) (start g : Nat) : (s.frondClose f len t b start).frond g = s.frond g :=
  ((PmQuiet.refl s).frondClose f len t b start).frond g

theorem State.frondCloseAll_keeps (c15 c24 : Bool) : PmKeeps s (s.frondCloseAll f t c15 c24) := by
  have close (u : State) (len : Nat) (b : FrondBin) (start : Nat) (g : Frond → Frond) :
      PmKeeps u ((u.frondClose f len t b start).modFrond f g) :=
    ((PmQuiet.refl u).frondClose f len t b start).toPmKeeps.modFrond f g
  cases c15 <;> cases c24 <;> simp only [State.frondCloseAll, if_true, if_false, Bool.false_eq_true]
  · exact .refl s
  · exact close s 1 _ _ _
  · exact close s 0 _ _ _
  · exact (close s 0 _ _ _).trans (close _ 1 _ _ _)

theorem State.frondCloseAll_frondsBut (c15 c24 : Bool) : FrondsBut f s (s.frondCloseAll f t c15 c24) := by
  have close (u : State) (len : Nat) (b : FrondBin) (start : Nat) (g : Frond → Frond) :
      FrondsBut f u ((u.frondClose f len t b start).modFrond f g) := fun k hk => by
    rw [State.frond_modFrond_other _ _ hk, State.frondClose_frond]
  cases c15 <;> cases c24 <;> simp only [State.frondCloseAll, if_true, if_false, Bool.false_eq_true]
  · exact fun _ _ => rfl
  · exact close s 1 _ _ _
  · exact close s 0 _ _ _
  · exact fun k hk => (close _ 1 _ _ _ k hk).trans (close s 0 _ _ _ k hk)

/-- A frond's monitoring record once the bins that end at `t` are closed: those open anew. -/
def FrondPm.reopen (m : FrondPm) (t : Nat) (c15 c24 : Bool) : FrondPm := { m with
  b15 := if c15 then {} else m.b15, start := if c15 then t else m.start
  b24 := if c24 then {} else m.b24, start24 := if c24 then t else m.start24 }

theorem State.frondCloseAll_pm (c15 c24 : Bool) : ((s.frondCloseAll f t c15 c24).frond f).pm = (s.frond f).pm.reopen t c15 c24 := by
  cases c15 <;> cases c24 <;> simp [State.frondCloseAll, FrondPm.reopen, State.frondClose_frond]

/-- A frond's monitoring record once the second that ends has been taken into its bins. -/
def FrondPm.endSecond (m : FrondPm) : FrondPm := { m with
  b15 := m.b15.take m, b24 := m.b24.take m, secCw := 0, secUnc := 0, secInner := 0, secSent := 0
  secAny := false, ssf := false, smBdi := false, pmBdi := false }

theorem State.frondSecond_keeps : PmKeeps s (s.frondSecond f t) :=
  ((PmKeeps.refl s).modFrond f _).trans (State.frondCloseAll_keeps _ f t _ _)

theorem State.frondSecond_frondsBut : FrondsBut f s (s.frondSecond f t) := fun g hg =>
  (State.frondCloseAll_frondsBut _ f t _ _ g hg).trans (State.frond_modFrond_other s _ hg)

theorem State.frondSecond_pm : ((s.frondSecond f t).frond f).pm =
    (s.frond f).pm.endSecond.reopen t (binBoundary s.pm.anchor 0 t) (binBoundary s.pm.anchor 1 t) := by
  unfold State.frondSecond
  rw [State.frondCloseAll_pm, State.frond_modFrond_same, State.modFrond_pm]
  rfl

end

/-! #### The end of a second (R208, R218) -/

/-- In a fold over distinct items, what the steps of the others keep holds when the turn of `k` comes, and what its step then establishes
and the others keep holds at the end. -/
theorem foldl_of_nodup_mem {σ ι : Type} {step : σ → ι → σ} {P Q : σ → Prop} {k : ι} (hQ : ∀ a j, j ≠ k → Q a → Q (step a j))
    (hset : ∀ a, Q a → P (step a k)) (hkeep : ∀ a j, j ≠ k → P a → P (step a j)) {l : List ι} (hl : l.Nodup) (hk : k ∈ l) {a : σ}
    (ha : Q a) : P (l.foldl step a) := by
  induction l generalizing a with
  | nil => cases hk
  | cons j l ih =>
    obtain ⟨hj, hl⟩ := List.nodup_cons.mp hl
    rw [List.foldl_cons]
    by_cases hjk : j = k
    · subst hjk
      exact List.foldlRecOn l step (hset a ha) fun b hb i hi => hkeep b i (ne_of_mem_of_not_mem hi hj) hb
    · exact ih hl ((List.mem_cons.mp hk).resolve_left (Ne.symm hjk)) (hQ a j hjk ha)

section
variable (s : State) (t : Nat)

/-- The state once the second of every endpoint has ended. -/
def State.epSeconds : State := s.pm.eps.foldl (fun a q => a.epSecond q.1 t (s.secInput q.1)) s

/-- The state once the second of every frond has ended. -/
def State.frondSeconds : State := s.frondIds.foldl (fun a f => a.frondSecond f t) s

theorem State.epSeconds_quiet : PmQuiet s (s.epSeconds t) :=
  List.foldlRecOn (motive := PmQuiet s) _ _ (.refl s) fun _ hu _ _ => hu.epSecond _ _ _

theorem State.epSeconds_frondEnabled (f : Nat) : (s.epSeconds t).frondEnabled f = s.frondEnabled f := by
  have kept : (s.epSeconds t).kept = s.kept := foldl_kept fun u q => u.epSecond_kept q.1 t _
  rw [State.frondEnabled, State.frondCount, kept_fuse kept]
  rfl

theorem State.frondSeconds_keeps : PmKeeps s (s.frondSeconds t) :=
  List.foldlRecOn (motive := PmKeeps s) _ _ (.refl s) fun u hu f _ => hu.trans (u.frondSecond_keeps f t)

/-- Each enabled frond has its turn once. -/
theorem State.frondSeconds_pm {f : Nat} (hen : s.frondEnabled f = true) : ((s.frondSeconds t).frond f).pm =
    (s.frond f).pm.endSecond.reopen t (binBoundary s.pm.anchor 0 t) (binBoundary s.pm.anchor 1 t) := by
  refine foldl_of_nodup_mem (P := fun u => (u.frond f).pm = _) (Q := fun u => PmKeeps s u ∧ u.frond f = s.frond f)
    ?before ?turn ?after List.nodup_range (List.mem_range.mpr (of_decide_eq_true hen)) ⟨.refl s, rfl⟩
  case before =>
    rintro u g hg ⟨keeps, same⟩
    exact ⟨keeps.trans (u.frondSecond_keeps g t), (u.frondSecond_frondsBut g t f hg.symm).trans same⟩
  case turn =>
    rintro u ⟨keeps, same⟩
    rw [State.frondSecond_pm, same, keeps.anchor]
  case after =>
    intro u g hg own
    rw [u.frondSecond_frondsBut g t f hg.symm, own]

end

section
variable {s : State}

theorem execPmSecondEnd_within (h : (s.tick + 1) % 160000 ≠ 0) : exec .pmSecondEnd s = .next s := congrArg _ (if_pos h)

theorem execPmSecondEnd_end (h : (s.tick + 1) % 160000 = 0) : ∃ ports, exec .pmSecondEnd s =
    .next { (s.epSeconds (s.tick + 1)).frondSeconds (s.tick + 1) with ports := ports } :=
  ⟨_, congrArg _ (if_neg (not_not_intro h))⟩

/-- R208, R218: at the end of a second every enabled frond's second is taken into its bins, and a bin that ends opens anew. -/
theorem pmSecondEnd_fronds (h : (s.tick + 1) % 160000 = 0) : ∃ t : State, exec .pmSecondEnd s = .next t ∧
    t.tick = s.tick ∧ RegsBut [R.GLB_PM_STAT_EXPORT_LOST.off] s t ∧ ∀ f, s.frondEnabled f = true → (t.frond f).pm =
      (s.frond f).pm.endSecond.reopen (s.tick + 1) (binBoundary s.pm.anchor 0 (s.tick + 1)) (binBoundary s.pm.anchor 1 (s.tick + 1)) := by
  obtain ⟨ports, hexec⟩ := execPmSecondEnd_end h
  have quiet := s.epSeconds_quiet (s.tick + 1)
  have keeps := quiet.toPmKeeps.trans (State.frondSeconds_keeps _ (s.tick + 1))
  refine ⟨_, hexec, kept_tick (execPmSecondEnd_kept s _ hexec), keeps.regs, fun f hen => ?_⟩
  have own := State.frondSeconds_pm (s.epSeconds (s.tick + 1)) (s.tick + 1) ((s.epSeconds_frondEnabled _ f).trans hen)
  rw [quiet.frond, quiet.anchor] at own
  exact own

end

/-! #### PM_SETUP (R209, R220, R221, R224) -/

section
variable {h : ReqHdr} {mem : HostMem} {s : State}

theorem chkPmAnchor_pass {a : Nat} (hpf : h.isPf) (ha : a % 160000 = 0) (ht : s.tick % 160000 = 0) :
    ∀ c ∈ chkPmAnchor a (h.ctx s mem) s, c.bad = false := by
  simp only [chkPmAnchor, List.forall_mem_append, List.forall_mem_cons]
  exact ⟨pf_pass hpf, by simp [ckFormat, pmSecond, ha], by simp [ReqHdr.ctx, pmSecond, ht], by simp⟩

/-- A new anchor changes no profile, and the two registers show it. -/
theorem appPmAnchor_effect (a : Nat) (c : Ctx) (s : State) : (appPmAnchor a c s).s.pm.anchor = a ∧
    (appPmAnchor a c s).s.rd R.GLB_PM_ANCHOR_LO_ANCHOR_LO = a % 2 ^ 32 ∧
    (appPmAnchor a c s).s.rd R.GLB_PM_ANCHOR_HI_ANCHOR_HI = a / 2 ^ 32 % 2 ^ 32 ∧
    (appPmAnchor a c s).s.pm.profiles = s.pm.profiles := by
  unfold appPmAnchor
  dsimp only
  refine ⟨rfl, ?low, State.rd_wr_same _ _ (by decide), ?profiles⟩
  case low => exact (State.rd_wr_off _ _ (by decide)).trans (State.rd_wr_same _ _ (by decide))
  case profiles =>
    simp only [State.wr_pm]
    refine PmKeeps.profiles ?_
    refine List.foldlRecOn (motive := PmKeeps s) _ _ ?_ fun u hu f _ => hu.trans (u.frondCloseAll_keeps f s.tick _ _)
    refine PmQuiet.toPmKeeps ?_
    refine List.foldlRecOn (motive := PmQuiet s) _ _ (.refl s) fun u hu q _ => ?_
    split
    · exact hu
    · exact hu.setEpPm _ _

theorem execPmSetupAnchor_ok {a : Nat} (hpf : h.isPf) (ha : a % 160000 = 0) (ht : s.tick % 160000 = 0) :
    exec (.pmSetupAnchor h mem a) s = .next ((appPmAnchor a (h.ctx s mem) s).s.complete (doneOk h s 0x24 0)) :=
  congrArg _ (runOne_done _ (chkPmAnchor_pass hpf ha ht) rfl rfl rfl (kept_tick (appPmAnchor_kept a _ s)))

/-- R209: a tick that ends no second is not one for a new anchor. -/
theorem execPmSetupAnchor_schedule {a : Nat} (hpf : h.isPf) (ha : a % 160000 = 0) (ht : s.tick % 160000 ≠ 0) :
    exec (.pmSetupAnchor h mem a) s = .next (s.complete (doneRefused h s 0x24 St.schedule 0)) := by
  have late : (s.tick % pmSecond != 0) = true := bne_iff_ne.mpr ht
  have fails : firstFail (chkPmAnchor a (h.ctx s mem) s) = some ⟨St.schedule, 0⟩ := by
    refine firstFail_eq_some ⟨⟨9, s.tick % pmSecond != 0, St.schedule, 0⟩, by simp [chkPmAnchor, ReqHdr.ctx], late⟩ ?_
    intro c hc hbad
    rcases List.mem_append.mp hc with hpass | hown
    · simp [pf_pass hpf c hpass] at hbad
    · rcases List.mem_pair.mp hown with rfl | rfl
      · simp [ckFormat, pmSecond, ha] at hbad
      · exact ⟨rfl, rfl⟩
  exact congrArg _ (runOne_refused fails (by decide) (by decide) (by simp) (by simp))

/-- R220: with no endpoint counting, a new profile is its 16 thresholds alone. -/
theorem execPmSetupProfile_ok {k addr : Nat} {b : List Byte} (hpf : h.isPf) (hk : k < 64) (haddr : addr % 64 = 0)
    (hread : readHost mem addr 64 = some b) (heps : s.pm.eps = []) :
    exec (.pmSetupProfile h mem k addr) s = .next (({ s with pm := { s.pm with
      profiles := Tab.set (fun _ => []) s.pm.profiles k ((List.range 16).map fun i => fieldAt b (4 * i) 4) } } : State).complete
      (doneOk h s 0x24 0)) := by
  have pass : ∀ c ∈ chkPmProfile k addr (h.ctx s mem) s, c.bad = false := by
    simp only [chkPmProfile, List.forall_mem_append, List.forall_mem_cons]
    exact ⟨pf_pass hpf, by simp [Ctx.ckRead, ReqHdr.ctx, hread], by simp [ckFormat, hk], by simp [ckAlign, haddr], by simp⟩
  have effect : appPmProfile k addr (h.ctx s mem) s = { s := { s with pm := { s.pm with
      profiles := Tab.set (fun _ => []) s.pm.profiles k ((List.range 16).map fun i => fieldAt b (4 * i) 4) } } } := by
    simp only [appPmProfile, ReqHdr.ctx, hread, heps, Option.getD_some, List.foldl_nil]
  exact congrArg _ (runOne_done _ pass effect rfl rfl rfl)

theorem execPmSetupZeroSuppress_ok (on : Bool) (hpf : h.isPf) : exec (.pmSetupZeroSuppress h mem on) s =
    .next ((s.wrB R.GLB_PM_STAT_ZERO_SUPPRESS on).complete (doneOk h s 0x24 0)) :=
  congrArg _ (runOne_done _ (pf_pass hpf) rfl rfl rfl rfl)

/-! #### PM_CLEAR and PM_READ (Table PM-3, R226) -/

/-- PM_CLEAR makes the checks that a stop of the endpoint's function makes. -/
theorem execPmClear_ok {e : Nat} {p : EpPm} (hany : h.any = false) (hact : (s.tenant h.tenant).active = true)
    (hrange : s.inRange h.fn h.tenant = true) (he : e < 131072) (hkind : (s.ep e).entry.kind ≠ 0)
    (hown : h.tenant = 0 ∨ h.tenant = (s.ep e).entry.tenant) (hp : s.epPm e = some p) :
    exec (.pmClear h mem e) s = .next ((s.setEpPm e (some { p with
      window := [], b15 := { p.b15 with counts := List.replicate 8 0, suspect := true }
      b24 := { p.b24 with counts := List.replicate 8 0, suspect := true } })).complete (doneOk h s 0x25 0)) := by
  have pass : ∀ c ∈ chkPmClear e (h.ctx s mem) s, c.bad = false :=
    chkFunc_ep_pass (start := false) hany hact hrange he hkind hown
  have effect : appPmClear e (h.ctx s mem) s = { s := s.setEpPm e (some { p with
      window := [], b15 := { p.b15 with counts := List.replicate 8 0, suspect := true }
      b24 := { p.b24 with counts := List.replicate 8 0, suspect := true } }) } := by
    simp only [appPmClear, State.pmZero, hp]
  exact congrArg _ (runOne_done _ pass effect rfl rfl rfl)

/-- R226: the four records of each endpoint of the range, one endpoint after another. -/
theorem execPmRead_ok {e n buf : Nat} (hany : h.any = false) (hact : (s.tenant h.tenant).active = true)
    (hrange : s.inRange h.fn h.tenant = true) (he : e + n ≤ 131072) (hn : 0 < n) (hmax : n ≤ 4096) (hbuf : buf % 64 = 0)
    (hfits : s.readFits (256 * n)) : exec (.pmRead h mem e n buf) s = .next (readOk h s 0x26 buf
      ((List.range n).flatMap fun i => s.pmRead1 h.tenant (e + i))) := by
  have range : (ckFormat (decide (131072 ≤ e) || n == 0 || decide (4096 < n) || decide (131072 < e + n))).bad = false := by
    simp [ckFormat, show e < 131072 by omega, hn.ne', hmax, he]
  have pass : ∀ c ∈ chkPmRead e n buf (h.ctx s mem) s, c.bad = false := by
    unfold State.readFits at hfits
    simp only [chkPmRead, List.cons_append, List.forall_mem_append, List.forall_mem_cons]
    exact ⟨hany, ckTenant_pass hact hrange, range, by simp [ckAlign, hbuf], by simp [State.ckBacklog, ckCond, hfits], by simp⟩
  exact congrArg _ (runOne_read pass rfl)

end

/-- Settles O51: each request by its own equation, the end of a second by each frond's turn, and the gauge by its search. -/
theorem monitoringCommands : Obligations.MonitoringCommands := by
  refine ⟨fun s h mem => ⟨fun a hpf ha ht => ⟨_, execPmSetupAnchor_ok hpf ha ht, appPmAnchor_effect a _ s⟩,
      fun _ => execPmSetupAnchor_schedule, fun _ _ _ => execPmSetupProfile_ok, execPmSetupZeroSuppress_ok, fun _ _ => execPmClear_ok,
      fun _ _ _ => execPmRead_ok, execPmSecondEnd_within, fun hend => ?second⟩,
    ?gauge, fun a b hb => ⟨?none, berGauge_all_errors hb⟩, by decide +kernel, by decide +kernel⟩
  case second =>
    obtain ⟨t, hexec, htick, hregs, hfronds⟩ := pmSecondEnd_fronds hend
    refine ⟨t, hexec, htick, hregs, fun f hen => ?_⟩
    rw [hfronds f hen]
    refine ⟨rfl, rfl, rfl, fun running => ?_, fun closes => ?_⟩
    · rw [running]
      rfl
    · rw [closes]
      exact ⟨rfl, rfl⟩
  case gauge =>
    rintro a b _ ha hab rfl hmax
    exact berGauge_nearest ha hab hmax
  case none =>
    rintro rfl
    exact berGauge_no_errors hb

end Sys2Proof.Machine

/-! ### Which leg, the joining of shares, and the adaptation (R243, R244, R250, R272) -/

namespace Sys2Proof.Machine

/-! #### The leg that a selection takes (R250) -/

section
variable {mode pref : Nat} {a b : Bool}

theorem pickLeg_no_copy : pickLeg mode pref false false = none := by simp [pickLeg]

theorem pickLeg_forced_A : pickLeg 1 pref a b = some 0 ↔ a = true := by simp [pickLeg]

theorem pickLeg_forced_B : pickLeg 2 pref a b = some 1 ↔ b = true := by simp [pickLeg]

theorem pickLeg_preferred (h1 : mode ≠ 1) (h2 : mode ≠ 2) : pickLeg mode pref true true = some pref := by simp [pickLeg, h1, h2]

theorem pickLeg_takes_one (h1 : mode ≠ 1) (h2 : mode ≠ 2) (h : a = true ∨ b = true) : (pickLeg mode pref a b).isSome = true := by
  cases a <;> cases b <;> simp_all [pickLeg]

/-- The leg taken is one of the two, and its copy is clean. -/
theorem pickLeg_clean {l : Nat} (hpref : pref < 2) (h : pickLeg mode pref a b = some l) :
    l < 2 ∧ (l = 0 → a = true) ∧ (l = 1 → b = true) := by
  unfold pickLeg at h
  split_ifs at h <;> simp only [Option.some.injEq] at h <;> subst h <;> simp_all

end

/-! #### The blocks of a frame, shared out and joined (R243, R244) -/

theorem slice_add (f : List Byte) (off m n : Nat) : slice f off (m + n) = slice f off m ++ slice f (off + m) n := by
  simp [slice, List.range_add, Nat.add_assoc]

/-- Blocks of one width, one after another, are one stretch. -/
theorem flatMap_slice_blocks (f : List Byte) (w n : Nat) : ((List.range n).flatMap fun b => slice f (w * b) w) = slice f 0 (w * n) := by
  induction n with
  | zero => simp [slice]
  | succ n ih => rw [List.range_succ, List.flatMap_append, ih, Nat.mul_succ, slice_add]; simp

theorem slice_whole (f : List Byte) : slice f 0 f.length = f :=
  List.ext_getElem (by simp [slice]) fun i _ hi => by simp [slice, hi]

/-- R243, R244: shares that hold the frame's blocks in turn make the frame again. -/
theorem joinShares_of_shared {m phase : Nat} {f : List Byte} {shares : List (List Byte)} (hlen : f.length = 15296)
    (hshared : ∀ b, b < 956 → slice (shares.getD ((phase + b) % m) []) (16 * (b / m)) 16 = slice f (16 * b) 16) :
    joinShares m phase shares = f := calc
  joinShares m phase shares = (List.range 956).flatMap fun b => slice f (16 * b) 16 :=
    List.flatMap_congr fun b hb => hshared b (List.mem_range.mp hb)
  _ = slice f 0 f.length := by rw [flatMap_slice_blocks, hlen]
  _ = f := slice_whole f

/-! #### The adaptation of an egress buffer (R272) -/

section
variable (level : Int)

theorem adaptation_natAbs_le : (adaptation level).natAbs ≤ 127 := by
  simp only [adaptation]
  split_ifs <;> omega

theorem adaptation_pos_iff : 0 < adaptation level ↔ level < 2040 := by
  simp only [adaptation]
  split_ifs <;> omega

theorem adaptation_neg_iff : adaptation level < 0 ↔ 2056 < level := by
  simp only [adaptation]
  split_ifs <;> omega

/-- The ADAPT field tells every adaptation of at most 127 blocks. -/
theorem adaptOf_adaptCode {a : Int} (h : a.natAbs ≤ 127) : adaptOf (adaptCode a) = a := by
  unfold adaptOf adaptCode
  split_ifs <;> omega

theorem adaptation_antitone : Antitone adaptation := fun l m h => by
  simp only [adaptation]
  split_ifs <;> omega

end

/-- Settles O46: the leg by the forced, the preferred and the only clean one; the joined frame by its blocks; the adaptation by its
bands. -/
theorem legSelection : Obligations.LegSelection := by
  refine ⟨fun mode pref a b hpref => ⟨pickLeg_no_copy, fun l hl => pickLeg_clean hpref hl, fun h1 h2 => ⟨pickLeg_preferred h1 h2,
      pickLeg_takes_one h1 h2⟩, ?_, ?_⟩,
    fun m phase f shares _ _ hlen _ hshared => joinShares_of_shared hlen hshared,
    fun level => ⟨adaptation_natAbs_le level, adaptation_pos_iff level, adaptation_neg_iff level,
      adaptOf_adaptCode (adaptation_natAbs_le level), fun l hl => adaptation_antitone hl⟩⟩
  · rintro rfl
    exact pickLeg_forced_A
  · rintro rfl
    exact pickLeg_forced_B

end Sys2Proof.Machine

/-! ### Traffic through the cross-connect (R237, R243 to R251) -/

namespace Sys2Proof.Machine

/-- A condition that holds in one tick more: a run of at least one tick that ended in the tick before grows by one. -/
theorem Run.step_of_previous {r : Run} {n t : Nat} (hn : 0 < n) (ht : 0 < t) (hr : r = ⟨n, t - 1⟩) : r.step t true = ⟨n + 1, t⟩ := by
  subst hr
  exact Run.step_next hn (Nat.sub_add_cancel ht)

section
variable {s : State} {e : Fin 131072} {x : Endpoint} (hx : s.xep e.val = x)
include hx

/-! #### Endpoints that take nothing -/

/-- Without a running Lichen pair there is no pair state to follow. -/
theorem lichen_commands_idle (h : lichenRuns x = false) : exec (.lichenPaired e) s = .next s ∧ exec (.lichenSingle e) s = .next s ∧
    exec (.deltaChange e) s = .next s ∧ exec (.lichenReanchor e) s = .next s ∧
    ∀ l, exec (.legFail e l) s = .next s ∧ exec (.legClear e l) s = .next s := by
  subst hx
  refine ⟨congrArg _ (if_pos ?_), congrArg _ (if_pos ?_), congrArg _ (if_pos ?_), congrArg _ (if_pos ?_),
    fun l => ⟨congrArg _ (if_pos ?_), congrArg _ (if_pos ?_)⟩⟩ <;> simp [h]

theorem execLichenPaired_paired (h : x.entry.lstate = 3) : exec (.lichenPaired e) s = .next s := by
  subst hx
  exact congrArg _ (if_pos (by simp [h]))

theorem execEgressDecision_idle (h : x.entry.kind ≠ 1) (a b : Nat) : exec (.egressDecision e a b) s = .next s := by
  subst hx
  exact congrArg _ (if_pos (.inl h))

theorem execXcSwitch_idle (h : x.entry.kind ≠ 1) (l : List UpObs) : exec (.xcSwitch e l) s = .next s := by
  subst hx
  exact congrArg _ (if_pos h)

theorem execImuxSkewExceeded_idle (h : isImux x.entry = false) : exec (.imuxSkewExceeded e) s = .next s := by
  subst hx
  exact congrArg _ (if_pos (by simp [h]))

/-! #### Extraction, decision, switching (R237) -/

section
variable (hkind : x.entry.kind = 1)
include hkind

theorem execOduExtract_copy {src : Fin 8} {o : OduObs} {f : Nat} (hst : x.entry.state = 1) (hf : s.copyFrond x.entry src.val = some f)
    (hpar : o.parity = []) : exec (.oduExtract e src o) s = .next (s.extractCopy e.val src.val (s.serverSignal f (copySlots x src.val))
      (s.inBlockReset (0x100 + f)) (!o.marked) x.entry o.bytes {
        src := src.val, stamp := o.stamp, arr := s.tick, mfas := o.mfas, sf := o.sf, clean := false, signal := none, auth := none
        phase := o.phase, bytes := [], oh := o.oh }) := by
  show execOduExtract e src o s = _
  simp [execOduExtract, hx, hkind, hst, hf, hpar]

theorem execEgressDecision_unlined (hst : x.entry.state = 1) (hsrc : s.lineEnd x.entry.src = false)
    (hdst : s.lineEnd x.entry.dst = false) (a b : Nat) :
    exec (.egressDecision e a b) s = .next ((s.portDecision e.val true).portDecision e.val false) := by
  show execEgressDecision e a b s = _
  simp [execEgressDecision, State.egressToDst, State.egressToSrc, hx, hkind, hst, hsrc, hdst]

variable (hreads : s.switchReads e.val = (s, false, false))
include hreads

theorem execXcSwitch_empty (hdec : x.decided = []) : exec (.xcSwitch e []) s = .next (s.setXep e.val { x with decided := [] }) := by
  show execXcSwitch e [] s = _
  simp [execXcSwitch, hx, hkind, hreads, hdec]

theorem execXcSwitch_one {d : Decided} (hdec : x.decided = [d]) (hmade : d.made < s.tick) (hep : s.epFenced e.val = false)
    (hslots : s.epSlotsFenced x = false) : exec (.xcSwitch e []) s =
      .next ((s.setXep e.val { x with decided := [] }).sendFrame e.val d.toDst false d.kind d.bytes) := by
  show execXcSwitch e [] s = _
  simp [execXcSwitch, hx, hkind, hreads, hdec, hmade, hep, hslots]

end

/-! #### The states of a Lichen pair (R248, R249) -/

section
variable (hrun : lichenRuns x = true)
include hrun

theorem execLichenPaired_within {d : Int} {m : List Int} {n : Nat} (hst : x.entry.lstate = 1)
    (hm : measured x s.tick (frameGap x.entry.tsCount) 0 = d :: m) (hlt : n < 15) (hn : 0 < n) (ht : 0 < s.tick)
    (hr : x.matchedRun = ⟨n, s.tick - 1⟩) :
    exec (.lichenPaired e) s = .next (s.setXep e.val { x with matchedRun := ⟨n + 1, s.tick⟩ }) := by
  have step := Run.step_of_previous hn ht hr
  show execLichenPaired e s = _
  simp [execLichenPaired, hx, hrun, hst, hm, step, show n + 1 < 16 by omega]

theorem execLichenPaired_16th {d : Int} {n : Nat} (hst : x.entry.lstate = 1) (hd : 0 ≤ d)
    (hm : measured x s.tick (frameGap x.entry.tsCount) 0 = [d]) (hn : 15 ≤ n) (ht : 0 < s.tick)
    (hr : x.matchedRun = ⟨n, s.tick - 1⟩) : exec (.lichenPaired e) s = .next (((s.setXep e.val { x with
      entry := { x.entry with lstate := 3 }, refLeg := 0, delta := d.natAbs, matchedRun := {}, aloneRun := {}
      deltaRun := {}, shiftRun := {}, refOffset := refOffsetNow x 0, failed := [], failRun := [], clearRun := [] }).raiseFor
      x.entry.tenant 0x0801 e.val [.w d.natAbs, .w 0]).checkExceeded e.val) := by
  have step := Run.step_of_previous (by omega) ht hr
  show execLichenPaired e s = _
  simp [execLichenPaired, hx, hrun, hst, hm, step, hd.not_gt, show ¬ n + 1 < 16 by omega]

theorem execLichenSingle_1600th {n : Nat} (hst : x.entry.lstate = 1)
    (hA : cleanSeen x s.tick (frameGap x.entry.tsCount) 0 = true) (hB : cleanSeen x s.tick (frameGap x.entry.tsCount) 1 = false)
    (hn : 1599 ≤ n) (ht : 0 < s.tick) (hleg : x.aloneLeg = 0) (hr : x.aloneRun = ⟨n, s.tick - 1⟩) :
    exec (.lichenSingle e) s = .next (s.setXep e.val { x with
      entry := { x.entry with lstate := 2 }, aloneRun := {}, refLeg := 0, delta := 0, refOffset := refOffsetNow x 0 }) := by
  have step := Run.step_of_previous (by omega) ht hr
  show execLichenSingle e s = _
  simp [execLichenSingle, hx, hrun, hst, hA, hB, hleg, step, show ¬ n + 1 < 1600 by omega]

section
variable (hst : x.entry.lstate = 3)
include hst

theorem execDeltaChange_16th {d : Int} {n : Nat} (hm : measured x s.tick (frameGap x.entry.tsCount) x.refLeg = [d]) (hd : 0 ≤ d)
    (hne : d ≠ (x.delta : Int)) (hn : 15 ≤ n) (ht : 0 < s.tick) (hr : x.deltaRun = ⟨n, s.tick - 1⟩) :
    exec (.deltaChange e) s = .next ((s.setXep e.val { x with delta := d.toNat, deltaRun := {} }).checkExceeded e.val) := by
  have step := Run.step_of_previous (by omega) ht hr
  have differs : (d != (x.delta : Int)) = true := bne_iff_ne.mpr hne
  show execDeltaChange e s = _
  simp [execDeltaChange, hx, hrun, hst, hm, differs, hd, step, show 16 ≤ n + 1 by omega]

theorem execLichenReanchor_unseen (hnow : refOffsetNow x x.refLeg = none) : exec (.lichenReanchor e) s = .next s := by
  show execLichenReanchor e s = _
  simp [execLichenReanchor, hx, hrun, hst, hnow]

theorem execLichenReanchor_first {n : Nat} (hnow : refOffsetNow x x.refLeg = some n) (hoff : x.refOffset = none) :
    exec (.lichenReanchor e) s = .next (s.setXep e.val { x with refOffset := some n }) := by
  show execLichenReanchor e s = _
  simp [execLichenReanchor, hx, hrun, hst, hnow, hoff]

/-! #### Failed legs (R251) -/

theorem execLegFail_16th {l : Fin 2} {n : Nat} (hdark : cleanSeen x s.tick 1 l.val = false) (hnew : x.failed.contains l.val = false)
    (hn : 15 ≤ n) (ht : 0 < s.tick) (hr : Tab.get (fun _ => {}) x.failRun l.val = ⟨n, s.tick - 1⟩) :
    exec (.legFail e l) s = .next ((s.setXep e.val { x with
      failRun := Tab.set (fun _ => {}) x.failRun l.val ⟨n + 1, s.tick⟩
      failed := x.failed ++ [l.val], clearRun := Tab.set (fun _ => {}) x.clearRun l.val {} }).raiseFor x.entry.tenant 0x0803 e.val
      [.w l.val]) := by
  have step := Run.step_of_previous (by omega) ht hr
  show execLegFail e l s = _
  simp only [execLegFail, hx, hrun, hst, hdark, hnew, step, Bool.not_false, Bool.not_true, bne_self_eq_false, Bool.or_self,
    Bool.false_eq_true, if_false, Bool.and_true, decide_eq_true_eq, show 16 ≤ n + 1 by omega, if_true]

theorem execLegClear_160th {l : Fin 2} {n : Nat} (hfailed : x.failed.contains l.val = true)
    (hseen : cleanSeen x s.tick (frameGap x.entry.tsCount) l.val = true) (hclean : ∀ c ∈ x.copies, c.clean = true) (hn : 159 ≤ n)
    (ht : 0 < s.tick) (hr : Tab.get (fun _ => {}) x.clearRun l.val = ⟨n, s.tick - 1⟩) :
    exec (.legClear e l) s = .next ((s.setXep e.val { x with
      clearRun := Tab.set (fun _ => {}) x.clearRun l.val ⟨n + 1, s.tick⟩
      failed := x.failed.filter (· != l.val) }).raiseFor x.entry.tenant 0x0804 e.val [.w l.val]) := by
  have good (p : Copy → Bool) : (x.copies.filter p).all Copy.clean = true :=
    List.all_eq_true.mpr fun c hc => hclean c (List.mem_of_mem_filter hc)
  have step := Run.step_of_previous (by omega) ht hr
  show execLegClear e l s = _
  simp only [execLegClear, hx, hrun, hst, hfailed, hseen, good, step, Bool.not_true, bne_self_eq_false, Bool.or_self,
    Bool.false_eq_true, if_false, Bool.and_self, show 160 ≤ n + 1 by omega, if_true]

end

end

/-! #### The skew of a group (R244) -/

section
variable (hmux : isImux x.entry = true) (hst : x.entry.state = 1)
include hmux hst

theorem execImuxSkewExceeded_no_copy (hcopies : x.copies = []) (hhold : 0 < x.entry.hold) :
    exec (.imuxSkewExceeded e) s = .next (s.setXep e.val { x with skewRun := ⟨0, s.tick⟩ }) := by
  show execImuxSkewExceeded e s = _
  simp [execImuxSkewExceeded, hx, hmux, hst, hcopies, hhold.ne', Run.step_false]

theorem execImuxSkewExceeded_16th {a b : Copy} {n : Nat} (hcopies : x.copies = [a, b]) (ha : a.src = 4) (hb : b.src = 5)
    (hsf : a.sf = b.sf) (hnow : a.arr = s.tick) (hpast : b.arr ≠ s.tick) (hskew : x.entry.hold ≤ a.stamp - b.stamp)
    (hbad : x.skewBad = false) (hn : 15 ≤ n) (ht : 0 < s.tick) (hr : x.skewRun = ⟨n, s.tick - 1⟩) :
    exec (.imuxSkewExceeded e) s = .next ((s.setXep e.val { x with skewRun := ⟨n + 1, s.tick⟩, skewBad := true }).raiseFor x.entry.tenant
      0x0807 e.val [.w (a.stamp - b.stamp)]) := by
  have step := Run.step_of_previous (by omega) ht hr
  show execImuxSkewExceeded e s = _
  simp [execImuxSkewExceeded, hx, hmux, hst, hcopies, ha, hb, hsf, hnow, hpast, hskew, hbad, step, show 16 ≤ n + 1 by omega]

end

end

/-- Settles O45: each command of the traffic by its own equation, for the endpoints that it passes over and for those that it acts on. -/
theorem trafficCommands : Obligations.TrafficCommands := by
  intro s e x hx
  refine ⟨lichen_commands_idle hx,
    fun h => ⟨execEgressDecision_idle hx h, execXcSwitch_idle hx h⟩, execImuxSkewExceeded_idle hx,
    fun _ _ _ hkind hst hf hpar => execOduExtract_copy hx hkind hst hf hpar,
    fun a b hkind hst hsrc hdst => execEgressDecision_unlined hx hkind hst hsrc hdst a b,
    fun hkind hdec hreads => execXcSwitch_empty hx hkind hreads hdec,
    fun _ hkind hdec hmade hreads hep hslots => execXcSwitch_one hx hkind hreads hdec hmade hep hslots,
    fun hrun => ?pair, execImuxSkewExceeded_no_copy hx,
    fun _ _ _ hmux hst hcopies ha hb hsf hnow hpast hskew _ hbad => execImuxSkewExceeded_16th hx hmux hst hcopies ha hb hsf hnow hpast
      hskew hbad⟩
  case pair =>
    exact ⟨execLichenPaired_paired hx, fun _ _ _ => execLichenPaired_within hx hrun,
      fun _ _ => execLichenPaired_16th hx hrun, fun _ => execLichenSingle_1600th hx hrun,
      fun _ _ hst hm hd hne => execDeltaChange_16th hx hrun hst hm hd hne, execLichenReanchor_unseen hx hrun,
      fun _ hst => execLichenReanchor_first hx hrun hst, fun _ _ hst => execLegFail_16th hx hrun hst,
      fun _ _ hst hfailed => execLegClear_160th hx hrun hst hfailed⟩

end Sys2Proof.Machine

/-! ### The endpoint table (R231 to R236, R258) -/

namespace Sys2Proof.Machine

/-! #### Sparse tables, read as lists -/

section
variable {α : Type}

/-- Where no listed value is `v`, no key reads as `v` but by the default. -/
theorem Tab.get_ne {d : Nat → α} {t : Tab α} {v : α} {k : Nat} (hd : d k ≠ v) (ht : ∀ p ∈ t, p.2 ≠ v) : Tab.get d t k ≠ v := by
  induction t with
  | nil => exact hd
  | cons p t ih =>
    obtain ⟨hp, ht⟩ := List.forall_mem_cons.mp ht
    unfold Tab.get
    split
    · exact hp
    · exact ih ht

/-- In a list whose keys rise, a key reads as the value it is listed with. -/
theorem Tab.get_of_mem {d : Nat → α} {t : Tab α} {lo k : Nat} {v : α} (r : Tab.rising lo t = true) (h : (k, v) ∈ t) :
    lo ≤ k ∧ Tab.get d t k = v := by
  induction t generalizing lo with
  | nil => cases h
  | cons p t ih =>
    obtain ⟨j, w⟩ := p
    simp only [Tab.rising, Bool.and_eq_true, decide_eq_true_eq] at r
    obtain ⟨hlo, ht⟩ := r
    rcases List.mem_cons.mp h with heq | hmem
    · cases heq
      exact ⟨hlo, if_pos rfl⟩
    · obtain ⟨hj, hget⟩ := ih ht hmem
      exact ⟨by omega, (if_neg (by omega)).trans hget⟩

/-- Every key of a list of writes of one value reads as that value. -/
theorem Tab.get_foldl_set [DecidableEq α] {d : Nat → α} {v : α} {keys : List Nat} {k : Nat} (hk : k ∈ keys) (t : Tab α) :
    Tab.get d (keys.foldl (fun t j => Tab.set d t j v) t) k = v :=
  foldl_of_mem (step := fun t j => Tab.set d t j v) (P := fun t => Tab.get d t k = v) (Q := fun _ => True) (fun _ _ _ => trivial)
    (fun _ _ => Tab.get_set_same _ _ _ _) (fun _ _ hj h => (Tab.get_set_other _ _ _ (Ne.symm hj)).trans h) hk trivial

end

/-! #### What leaves the endpoints and the owners of the slots alone -/

/-- The endpoints and the owners of the slots are as they were. -/
structure SameTable (s t : State) : Prop where
  eps : t.eps = s.eps
  owners : t.slotOwner = s.slotOwner

namespace SameTable

variable {s t u : State}

theorem refl (s : State) : SameTable s s := ⟨rfl, rfl⟩

theorem ep (h : SameTable s t) (e : Nat) : t.ep e = s.ep e := by
  unfold State.ep
  rw [h.eps]

theorem foldl {α : Type} {step : State → α → State} (h : SameTable s t) (hstep : ∀ u a, SameTable s u → SameTable s (step u a))
    (l : List α) : SameTable s (l.foldl step t) :=
  List.foldlRecOn (motive := SameTable s) l step h fun u hu a _ => hstep u a hu

theorem ite {c : Prop} [Decidable c] (ht : SameTable s t) (hu : SameTable s u) : SameTable s (if c then t else u) := by
  split
  · exact ht
  · exact hu

theorem wr (h : SameTable s t) (x : Fld) (v : Nat) : SameTable s (t.wr x v) := ⟨h.eps, h.owners⟩
theorem wrB (h : SameTable s t) (x : Fld) (b : Bool) : SameTable s (t.wrB x b) := ⟨h.eps, h.owners⟩
theorem raiseEv (h : SameTable s t) (v : Event) : SameTable s (t.raiseEv v) := ⟨h.eps, h.owners⟩
theorem setSa (h : SameTable s t) (i : Nat) (x : SaRec) : SameTable s (t.setSa i x) := ⟨h.eps, h.owners⟩
theorem bindSa (h : SameTable s t) (i : Nat) (o : Option Nat) : SameTable s (t.bindSa i o) := h.setSa _ _
theorem setEpPm (h : SameTable s t) (e : Nat) (p : Option EpPm) : SameTable s (t.setEpPm e p) := ⟨h.eps, h.owners⟩
theorem modMem (h : SameTable s t) (g : MemSt → MemSt) : SameTable s (t.modMem g) := ⟨h.eps, h.owners⟩

theorem fenceRegs (h : SameTable s t) : SameTable s t.fenceRegs :=
  (h.wr R.MEM_STAT_FENCED _).wrB R.MEM_STAT_FENCE_FULL _
theorem memWrite (h : SameTable s t) (m f off len : Nat) : SameTable s (t.memWrite m f off len) := (h.modMem _).fenceRegs
theorem slotsWritten (h : SameTable s t) (keys : List Nat) : SameTable s (t.slotsWritten keys) := (h.modMem _).fenceRegs

/-! ##### Counting -/

theorem setWaiting (h : SameTable s t) (l : List PmRecord) : SameTable s { t with pm := { t.pm with waiting := l } } := ⟨h.eps, h.owners⟩

theorem queueRecord (h : SameTable s t) (r : PmRecord) : SameTable s (t.queueRecord r) := by
  have counted : SameTable s (t.bump R.GLB_PM_STAT_EXPORT_LOST 1) := h.wr _ _
  exact (counted.ite h).setWaiting _

theorem binTca (h : SameTable s t) (e len now : Nat) (b : EpBin) (endTick : Nat) : SameTable s (t.binTca e len now b endTick).1 := by
  refine List.foldlRecOn (motive := fun r : State × EpBin => SameTable s r.1) (List.range 8) _ h fun r hr k _ => ?_
  dsimp only
  split
  · exact hr.raiseEv _
  · exact hr

theorem commitLen (h : SameTable s t) (e len now : Nat) (r : SecRec) (p : EpPm) : SameTable s (t.commitLen e len now r p).1 := by
  unfold State.commitLen
  split
  split <;> exact h.binTca _ _ _ _ _

theorem commitSec (h : SameTable s t) (e now : Nat) (r : SecRec) (p : EpPm) : SameTable s (t.commitSec e now r p).1 :=
  (h.commitLen e 0 now r p).commitLen _ _ _ _ _

theorem epRecord (h : SameTable s t) (e len due : Nat) (b : EpBin) (final : Bool) : SameTable s (t.epRecord e len due b final) :=
  h.queueRecord _

theorem pmCreate (h : SameTable s t) (e : Nat) : SameTable s (t.pmCreate e) := (h.setEpPm _ _).memWrite _ _ _ _

theorem pmDelete (h : SameTable s t) (e : Nat) : SameTable s (t.pmDelete e) := by
  unfold State.pmDelete
  split
  · exact h
  · dsimp only
    refine ((SameTable.foldl ?_ (fun u len hu => ?_) _).setEpPm _ _).memWrite _ _ _ _
    · exact List.foldlRecOn (motive := fun r : State × EpPm => SameTable s r.1) _ _ h fun _ hr _ _ => hr.commitSec _ _ _ _
    · have closed (l : List EpBin) := hu.foldl (fun a x (ha : SameTable s a) => ha.epRecord e len a.tick x false) l
      split <;> exact (closed _).epRecord _ _ _ _ _

/-! ##### Owners of slots, tenants and registers -/

theorem evalMsi (h : SameTable s t) (f slot : Nat) : SameTable s (t.evalMsi f slot) := by
  unfold State.evalMsi
  split
  · exact h
  · dsimp only
    split
    · exact h
    · exact ⟨h.eps, h.owners⟩

theorem msiAfter (h : SameTable s t) (keys : List Nat) : SameTable s (t.msiAfter keys) :=
  h.foldl (fun u k hu => by
    split
    · exact hu.evalMsi _ _
    · exact hu) keys

theorem quotaEvent (h : SameTable s t) (ten res : Nat) (above : Bool) : SameTable s (t.quotaEvent ten res above) := h.raiseEv _

theorem quotaRegs (h : SameTable s t) : SameTable s t.quotaRegs := (h.wrB R.XC_QUOTA_STAT_ANY _).wr R.XC_QUOTA_STAT_OVER _

theorem quotaUpdate (h : SameTable s t) (ten : Nat) : SameTable s (t.quotaUpdate ten) := by
  unfold State.quotaUpdate
  split
  · exact h
  · have recorded (r : TenantRec) : SameTable s (t.setTenant ten r) := ⟨h.eps, h.owners⟩
    have event {u : State} (hu : SameTable s u) (res : Nat) (c above : Bool) :
        SameTable s (if c then u.quotaEvent ten res above else u) := (hu.quotaEvent _ _ _).ite hu
    exact (event (event (event (recorded _) _ _ _) _ _ _) _ _ _).quotaRegs

theorem xcRegs (h : SameTable s t) : SameTable s t.xcRegs :=
  (((h.wr R.XC_EP_USED_USED _).wr R.XC_GRAN_USED _).wr R.XC_GRAN_FREE _).wr R.XC_UNITS_USED _

end SameTable

/-! #### Endpoints that leave the table (R236) -/

/-- An endpoint and its slots are free. -/
def State.freeEp (s : State) (e : Nat) : State := ({ s with slotOwner := s.slotOwner.filter fun q => q.2 != e + 1 } : State).setEp e {}

section
variable (s : State) (e : Nat)

/-- What is done beside it when one endpoint leaves the table does not touch the table. -/
theorem State.dropEp_frees : ∃ u, SameTable s u ∧ SameTable (u.freeEp e) (s.dropEp e) := by
  have uncounted := (SameTable.refl s).pmDelete e
  refine ⟨if (s.ep e).entry.saEn then (s.pmDelete e).bindSa (s.ep e).entry.saId none else s.pmDelete e,
    (uncounted.bindSa _ _).ite uncounted, ?_⟩
  exact ((((SameTable.refl _).memWrite _ _ _ _).slotsWritten _).msiAfter _).quotaUpdate _

theorem State.ep_dropEp (g : Nat) : (s.dropEp e).ep g = if g = e then {} else s.ep g := by
  obtain ⟨u, hu, ht⟩ := s.dropEp_frees e
  rw [ht.ep, ← hu.ep]
  exact Tab.get_set (fun _ => ({} : Endpoint)) u.eps e g {}

theorem State.slotOwner_dropEp : (s.dropEp e).slotOwner = s.slotOwner.filter fun q => q.2 != e + 1 := by
  obtain ⟨u, hu, ht⟩ := s.dropEp_frees e
  rw [ht.owners, ← hu.owners]
  rfl

theorem State.slotOwner_dropEp_ne (k : Nat) : Tab.get (fun _ => 0) (s.dropEp e).slotOwner k ≠ e + 1 := by
  rw [State.slotOwner_dropEp]
  exact Tab.get_ne (Nat.succ_ne_zero e).symm fun p hp => by simpa using (List.mem_filter.mp hp).2

/-- The endpoints listed as points that observe endpoint `e`. -/
def State.observers : List Nat :=
  (s.eps.filter fun q => decide (2 ≤ q.2.entry.kind) && q.2.entry.src.kind == 2 && q.2.entry.src.id == e).map Prod.fst

/-- An endpoint leaves the table, after the points that observe it. -/
def State.deleteEp : State := ((s.observers e).foldl State.dropEp s).dropEp e

theorem State.ep_foldl_dropEp (l : List Nat) (g : Nat) : (l.foldl State.dropEp s).ep g = if g ∈ l then {} else s.ep g := by
  induction l generalizing s with
  | nil => simp
  | cons k l ih =>
    rw [List.foldl_cons, ih, State.ep_dropEp]
    by_cases hk : g = k <;> simp [hk]

theorem State.ep_deleteEp (g : Nat) : (s.deleteEp e).ep g = if g = e ∨ g ∈ s.observers e then {} else s.ep g := by
  rw [State.deleteEp, State.ep_dropEp, State.ep_foldl_dropEp]
  by_cases hg : g = e <;> simp [hg]

/-- A canonical table lists an endpoint once, so what it lists is what is read. -/
theorem State.src_kind_of_observers {s : State} {e g : Nat} (hwf : Tab.wf (fun _ => {}) s.eps = true) (hg : g ∈ s.observers e) :
    (s.ep g).entry.src.kind = 2 := by
  obtain ⟨⟨k, y⟩, hmem, rfl⟩ := List.mem_map.mp hg
  simp only [List.mem_filter, Bool.and_eq_true, beq_iff_eq] at hmem
  obtain ⟨hlisted, ⟨-, hsrc⟩, -⟩ := hmem
  obtain ⟨-, hget⟩ := Tab.get_of_mem (d := fun _ => ({} : Endpoint)) (Bool.and_eq_true_iff.mp hwf).1 hlisted
  rw [State.ep, hget, hsrc]

end

/-! #### EP_CREATE, EP_CHANGE, EP_DELETE and EP_READ -/

section
variable {h : ReqHdr} {mem : HostMem} {s : State} {e : Nat} {x : XcEntry}

/-- The endpoint that EP_CREATE enters. -/
def createdEp (s : State) (x : XcEntry) (sets : List (List Nat)) : Endpoint :=
  { entry := { x with state := 1, taken := 0, lstate := if isLichen x || isImux x then 1 else 0, granules := entryGranules x }
    born := s.tick, slotsSrc := sets.getD 0 [], slotsDst := sets.getD 1 [], slotsLegB := sets.getD 2 [] }

/-- The table with an endpoint entered and its slots taken. -/
def State.enterEp (s : State) (e : Nat) (x : Endpoint) (keys : List Nat) : State :=
  { s.setEp e x with slotOwner := keys.foldl (fun t k => Tab.set (fun _ => 0) t k (e + 1)) s.slotOwner }

theorem State.ep_enterEp_same (y : Endpoint) (keys : List Nat) : (s.enterEp e y keys).ep e = y := State.ep_setEp_same s e y

theorem State.ep_enterEp_other {g : Nat} (y : Endpoint) (keys : List Nat) (hg : g ≠ e) : (s.enterEp e y keys).ep g = s.ep g :=
  State.ep_setEp_other s y hg

theorem State.slotOwner_enterEp {k : Nat} {keys : List Nat} (y : Endpoint) (hk : k ∈ keys) :
    Tab.get (fun _ => 0) (s.enterEp e y keys).slotOwner k = e + 1 := Tab.get_foldl_set hk _

/-- The association and the counting of a new endpoint. -/
def State.attachEp (s : State) (e : Nat) (x : XcEntry) : State :=
  let s := if x.saEn then s.bindSa x.saId (some e) else s
  if x.pmEn then s.pmCreate e else s

theorem SameTable.attachEp {t : State} (same : SameTable s t) (e : Nat) (x : XcEntry) : SameTable s (t.attachEp e x) := by
  have bound : SameTable s (if x.saEn then t.bindSa x.saId (some e) else t) := (same.bindSa _ _).ite same
  exact (bound.pmCreate e).ite bound

section
variable {sets : List (List Nat)} {clean : Bool} {addr : Nat}

theorem appEpCreate_eq {c : Ctx} (hany : c.any = false) (hsets : c.slotSets addr = (sets, clean))
    (hslots : (entryKeys x sets).any s.slotFenced = false) (hfence : s.epFenced e = false) : appEpCreate e x addr c s =
    { s := (((((s.enterEp e (createdEp s x sets) (entryKeys x sets)).memWrite 0x10 0 (32 * e) 32).slotsWritten
        (entryKeys x sets)).attachEp e x).msiAfter (entryKeys x sets)).quotaUpdate x.tenant |>.xcRegs } := by
  unfold appEpCreate
  rw [hsets, hany]
  exact if_neg (by simp [hslots, hfence])

theorem execEpCreate_ok (hany : h.any = false) (pass : ∀ k ∈ chkEpCreate e x addr (h.ctx s mem) s, k.bad = false)
    (hsets : (h.ctx s mem).slotSets addr = (sets, clean)) (hslots : (entryKeys x sets).any s.slotFenced = false)
    (hfence : s.epFenced e = false) : ∃ t : State, exec (.epCreate h mem e x addr) s = .next (t.complete (doneOk h s 0x20 0)) ∧
      t.ep e = createdEp s x sets ∧ (∀ g, g ≠ e → t.ep g = s.ep g) ∧
      ∀ k ∈ entryKeys x sets, Tab.get (fun _ => 0) t.slotOwner k = e + 1 := by
  have effect := appEpCreate_eq (c := h.ctx s mem) hany hsets hslots hfence
  have kept := appEpCreate_kept e x addr (h.ctx s mem) s
  rw [effect] at kept
  have same := (((((SameTable.refl (s.enterEp e (createdEp s x sets) (entryKeys x sets))).memWrite 0x10 0 (32 * e) 32).slotsWritten
    (entryKeys x sets)).attachEp e x).msiAfter (entryKeys x sets)).quotaUpdate x.tenant |>.xcRegs
  refine ⟨_, congrArg _ (runOne_done _ pass effect rfl rfl (kept_tick kept)), (same.ep e).trans (State.ep_enterEp_same _ _),
    fun g hg => (same.ep g).trans (State.ep_enterEp_other _ _ hg), fun k hk => ?_⟩
  rw [same.owners]
  exact State.slotOwner_enterEp _ hk

end

/-- The endpoint with the fields of SELECT changed. -/
def State.selectedEp (s : State) (e : Nat) (x : XcEntry) : Endpoint :=
  { s.ep e with entry := { (s.ep e).entry with selMode := x.selMode, prefMode := x.prefMode } }

theorem State.epRebind_host (old y : XcEntry) : (s.epRebind e old y).host = s.host := by
  unfold State.epRebind
  split_ifs <;> rfl

theorem SameTable.epRebind {t : State} (same : SameTable s t) (e : Nat) (old y : XcEntry) : SameTable s (t.epRebind e old y) := by
  have unbound : SameTable s (if old.saEn && !(y.saEn && y.saId == old.saId) then t.bindSa old.saId none else t) :=
    (same.bindSa _ _).ite same
  exact (unbound.bindSa _ _).ite unbound

/-- Counting that neither starts nor ends goes on. -/
theorem State.epRecount_unchanged {old y : XcEntry} (hpm : y.pmEn = old.pmEn) : s.epRecount e old y false = s := by
  cases hold : old.pmEn <;> simp [State.epRecount, hpm, hold]

theorem State.releaseEps_none (hrel : s.host.release = []) : s.releaseEps = s := by
  unfold State.releaseEps
  rw [hrel]
  exact State.release_nil hrel

theorem appEpChange_select {c : Ctx} (hfence : s.epFenced e = false) :
    ∃ t, appEpChange e 1 x c s = { s := t } ∧ t.host = s.host ∧ SameTable (s.setEp e (s.selectedEp e x)) t := by
  have effect : appEpChange e 1 x c s =
      { s := ((s.setEp e (s.selectedEp e x)).memWrite 0x10 0 (32 * e) 32).epRebind e (s.ep e).entry (s.selectedEp e x).entry } := by
    unfold appEpChange
    rw [hfence]
    exact congrArg (fun t : State => ({ s := t } : Applied)) (State.epRecount_unchanged rfl)
  exact ⟨_, effect, by simp [State.epRebind_host], ((SameTable.refl _).memWrite _ _ _ _).epRebind _ _ _⟩

/-- R235: a change of SELECT alone is made in place. -/
theorem execEpChange_select (pass : ∀ k ∈ chkEpChange e 1 x (h.ctx s mem) s, k.bad = false) (hfence : s.epFenced e = false)
    (hrel : s.host.release = []) : ∃ t : State, exec (.epChange h mem e 1 x) s = .next (t.complete (doneOk h s 0x21 0)) ∧
      t.ep e = s.selectedEp e x ∧ (∀ g, g ≠ e → t.ep g = s.ep g) ∧ t.slotOwner = s.slotOwner := by
  obtain ⟨t, effect, hhost, same⟩ := appEpChange_select (x := x) (c := h.ctx s mem) hfence
  have kept := appEpChange_kept e 1 x (h.ctx s mem) s
  rw [effect] at kept
  refine ⟨t, ?_, (same.ep e).trans (State.ep_setEp_same _ _ _), fun g hg => (same.ep g).trans (State.ep_setEp_other _ _ hg),
    same.owners⟩
  show execEpChange h mem e 1 x s = _
  rw [execEpChange, runOne_done _ pass effect rfl rfl (kept_tick kept), State.releaseEps_none (by simp [hhost, hrel])]

theorem execEpDelete_ok (pass : ∀ k ∈ chkEpDelete e (h.ctx s mem) s, k.bad = false) :
    ∃ t, exec (.epDelete h mem e) s = .next (t.complete (doneOk h s 0x22 0)) ∧ SameTable (s.deleteEp e) t :=
  ⟨_, congrArg _ (runOne_done _ pass rfl rfl rfl (kept_tick (appEpDelete_kept e (h.ctx s mem) s))), (SameTable.refl _).xcRegs⟩

/-- Where the table is canonical, no endpoint goes with a deleted connection but those whose SRC is a connection. -/
theorem execEpDelete_canonical (hwf : Tab.wf (fun _ => {}) s.eps = true) (pass : ∀ k ∈ chkEpDelete e (h.ctx s mem) s, k.bad = false) :
    ∃ t : State, exec (.epDelete h mem e) s = .next (t.complete (doneOk h s 0x22 0)) ∧ (t.ep e).entry.kind = 0 ∧
      (∀ k, Tab.get (fun _ => 0) t.slotOwner k ≠ e + 1) ∧ ∀ g, g ≠ e → (s.ep g).entry.src.kind ≠ 2 → t.ep g = s.ep g := by
  obtain ⟨t, hexec, same⟩ := execEpDelete_ok pass
  refine ⟨t, hexec, ?_, fun k => ?_, fun g hg hsrc => ?_⟩
  · rw [same.ep, State.ep_deleteEp, if_pos (.inl rfl)]
  · rw [same.owners]
    exact State.slotOwner_dropEp_ne _ e k
  · have hseen : g ∉ s.observers e := fun hmem => hsrc (State.src_kind_of_observers hwf hmem)
    rw [same.ep, State.ep_deleteEp, if_neg (by simp [hg, hseen])]

theorem execEpRead_ok {buf : Nat} {u : State} (pass : ∀ k ∈ chkEpRead e buf (h.ctx s mem) s, k.bad = false)
    (hread : s.memRead 0x10 0 (32 * e) 32 = (u, [])) :
    exec (.epRead h mem e buf) s = .next (readOk h u 0x23 buf (u.epRecordNow e) (u.epFenced e)) := by
  have htick : u.tick = s.tick := kept_tick (State.memRead_kept' hread)
  have effect : appEpRead e buf h.dn (h.ctx s mem) s = u.takeRead (h.ctx s mem) h.dn buf (u.epRecordNow e) (u.epFenced e) := by
    simp [appEpRead, hread]
  have request : h.request s 0x23 (.epRead e buf) = h.request u 0x23 (.epRead e buf) := by simp [ReqHdr.request, htick]
  show execEpRead h mem e buf s = _
  rw [execEpRead, runOne_ok pass (by rw [effect]; rfl), effect, request]
  rfl

end

/-! #### The statement at a table that is not canonical -/

/-- A table that lists endpoint 1 twice: first as a connection, which is what reads see, then as a point that observes connection 0. -/
def doublyEntered : State :=
  { State.reset with
    eps := [(0, { entry := { kind := 1 } }), (1, { entry := { kind := 1 } }), (1, { entry := { kind := 2, src := { kind := 2 } } })] }

/-- Refutes O43: it asks of every state, and the model's EP_DELETE looks for the observing points in the list of endpoints, where reads
see the first entry of an endpoint only. On a table that lists connection 1 a second time, as a point that observes connection 0, the
deletion of 0 takes connection 1 out as well. Where the table is canonical the clause holds (`execEpDelete_canonical`), and
`execEpCreate_ok`, `execEpChange_select` and `execEpRead_ok` give the other clauses of every state. -/
theorem not_endpointCommands : ¬ Obligations.EndpointCommands := by
  intro h
  obtain ⟨-, -, delete, -⟩ := h doublyEntered { fn := 0, ring := 0, dn := 0, tenant := 0 } [] 0 {}
  have pass : ∀ k ∈ chkEpDelete 0 (ReqHdr.ctx { fn := 0, ring := 0, dn := 0, tenant := 0 } doublyEntered []) doublyEntered,
      k.bad = false := by decide
  obtain ⟨t, hexec, -, -, stays⟩ := delete pass
  obtain ⟨u, hmodel, same⟩ := execEpDelete_ok pass
  have hlisted : 1 ∈ doublyEntered.observers 0 := by decide
  have agree := congrArg (fun v : State => v.ep 1) (Host.Outcome.next.inj (hexec.symm.trans hmodel))
  have gone : t.ep 1 = {} := calc
    t.ep 1 = u.ep 1 := agree
    _ = (doublyEntered.deleteEp 0).ep 1 := same.ep 1
    _ = {} := by rw [State.ep_deleteEp, if_pos (.inr hlisted)]
  have connection := stays 1 (by decide) (by decide)
  rw [gone] at connection
  exact absurd (congrArg XcEntry.kind connection) (by decide)

end Sys2Proof.Machine

/-! ### The fuses (R356, R358, R466, R517) -/

namespace Sys2Proof.Machine

theorem FuseGrows.of_eq {a b : FuseSt} (h : b = a) : FuseGrows a b := h ▸ FuseGrows.refl a

/-- A load takes the fuses of the part only where none are loaded yet. -/
theorem FuseGrows.of_load {a b : FuseSt} (h : a.loaded = true → b = a) : FuseGrows a b := by
  by_cases loaded : a.loaded = true
  · exact FuseGrows.of_eq (h loaded)
  · exact ⟨fun l => absurd l loaded, fun l => absurd l loaded, fun l => absurd l loaded, fun l => absurd l loaded,
      fun l => absurd l loaded⟩

/-- The boundary programs the state fuse of a module that retires, and no other. -/
theorem execTickBoundary_fuseGrows {mem : HostMem} {taps : List (Nat × Int × Int)} {s t : State}
    (h : execTickBoundary mem taps s = .next t) : FuseGrows s.fuse t.fuse := by
  by_cases dark : s.boot.pwrOk = false ∨ s.phase = 0
  · rw [execTickBoundary_dark dark] at h
    injection h with h
    exact .of_eq (h ▸ rfl)
  · obtain ⟨hp, h0⟩ : s.boot.pwrOk = true ∧ s.phase ≠ 0 := by simpa using dark
    cases hr : s.running with
    | false =>
      rw [execTickBoundary_boot hp h0 hr] at h
      injection h with h
      exact .of_eq (h ▸ s.bootTick_fuse)
    | true => exact (execTickBoundary_blown hp h0 hr h).fuse

/-- Every command leaves the fuse array as it is or blows fuses in it. -/
theorem exec_fuseGrows {c : Instr} {s t : State} (h : exec c s = .next t) : FuseGrows s.fuse t.fuse := by
  cases hc : movesKept c with
  | false => exact .of_eq (kept_fuse (exec_kept hc h))
  | true =>
    cases c with
    | tickBoundary mem taps => exact execTickBoundary_fuseGrows h
    | coldResetPower => exact .of_eq (execColdResetPower_kept' s t h).2
    | coldResetPin => exact .of_eq (execColdResetPin_kept' s t h).2
    | fuseLoadDone fuse fail bad => exact .of_load (execFuseLoadDone_kept' fuse fail bad s t h).2.2
    | secureSlotVerified => exact (execSecureSlotVerified_blown s t h).fuse
    | calPhaseDone => exact .of_eq (execCalPhaseDone_kept' s t h).2
    | mainSupplyLoss => exact .of_eq (execMainSupplyLoss_kept' s t h).2
    | fuseProgramming => exact (execFuseProgramming_blown s t h).fuse
    | _ => cases hc

/-- A step runs one command or idles. -/
theorem step_fuseGrows {s t : State} (h : step s = .next t) : FuseGrows s.fuse t.fuse := by
  cases hp : s.pending with
  | nil =>
    rw [step_of_pending_nil hp] at h
    injection h with h
    exact .of_eq (h ▸ rfl)
  | cons c rest =>
    rw [step_of_pending_cons hp] at h
    have grows : FuseGrows ({ s with pending := rest } : State).fuse t.fuse := exec_fuseGrows h
    exact grows

/-- Settles O4: a step extends a chain of blown fuses by one link, and RETIRED is one of the fuses that stay blown. -/
theorem fusesOnlyBlow : Obligations.FusesOnlyBlow :=
  ⟨fun _ _ _ _ past h => past.trans (step_fuseGrows h),
    fun _ _ ⟨loaded, retired⟩ h => ⟨(step_fuseGrows h).loaded loaded, (step_fuseGrows h).retired loaded retired⟩⟩

end Sys2Proof.Machine

/-! ### The calendar of Peat (R491, R492, R494) -/

namespace Sys2Proof.Machine

/-- A date and time that GO takes. -/
structure Cal.Valid (c : Cal) : Prop where
  year_lo : 2000 ≤ c.year
  year_hi : c.year ≤ 2199
  month_lo : 1 ≤ c.month
  month_hi : c.month ≤ 12
  day_lo : 1 ≤ c.day
  day_hi : c.day ≤ monthDays c.year c.month
  hour_hi : c.hour ≤ 23
  minute_hi : c.minute ≤ 59
  second_hi : c.second ≤ 59

theorem calReason_eq_zero {c : Cal} : calReason c = 0 ↔ c.Valid := by
  unfold calReason
  constructor
  · intro h
    split_ifs at h
    constructor <;> omega
  · rintro ⟨_, _, _, _, _, _, _, _, _⟩
    split_ifs <;> omega

theorem calReason_le (c : Cal) : calReason c ≤ 6 := by
  unfold calReason
  split_ifs <;> omega

theorem monthDays_bounds (y m : Nat) : 28 ≤ monthDays y m ∧ monthDays y m ≤ 31 := by
  unfold monthDays
  split_ifs <;> omega

/-- The fields of a date and time as digits of one number, which orders dates and times as they follow each other. -/
def Cal.key (c : Cal) : Nat := ((((c.year * 16 + c.month) * 32 + c.day) * 32 + c.hour) * 64 + c.minute) * 64 + c.second

/-- The digits of a date alone. -/
def Cal.dayKey (c : Cal) : Nat := (c.year * 16 + c.month) * 32 + c.day

theorem Cal.key_eq (c : Cal) : c.key = ((c.dayKey * 32 + c.hour) * 64 + c.minute) * 64 + c.second := (rfl)

theorem calOf_date_time {c : Cal} (h : c.Valid) : calOf c.date c.time = c := by
  have days := monthDays_bounds c.year c.month
  have := h.month_hi
  have := h.day_hi
  have := h.minute_hi
  have := h.second_hi
  obtain ⟨year, month, day, hour, minute, second⟩ := c
  simp only [calOf, Cal.date, Cal.time, Cal.mk.injEq] at *
  omega

/-! #### The next day -/

/-- The last day of the range. -/
def Cal.LastDay (c : Cal) : Prop := c.year = 2199 ∧ c.month = 12 ∧ c.day = 31

theorem Cal.Valid.nextDay {c : Cal} (h : c.Valid) (hlast : ¬ c.LastDay) : c.nextDay.Valid := by
  obtain ⟨hyl, hyh, hml, hmh, hdl, hdh, hh, hmin, hs⟩ := h
  unfold Cal.nextDay
  split_ifs with inMonth inYear
  · exact ⟨hyl, hyh, hml, hmh, by simp, inMonth, hh, hmin, hs⟩
  · have days := monthDays_bounds c.year (c.month + 1)
    exact ⟨hyl, hyh, by simp, inYear, le_refl 1, by simp only; omega, hh, hmin, hs⟩
  · have december : c.month = 12 := by omega
    have lastOfYear : c.day = 31 := by
      have : monthDays c.year 12 = 31 := by simp [monthDays]
      rw [december, this] at hdh inMonth
      omega
    have days := monthDays_bounds (c.year + 1) 1
    have : c.year ≠ 2199 := fun year => hlast ⟨year, december, lastOfYear⟩
    exact ⟨by simp only; omega, by simp only; omega, le_refl 1, by simp, le_refl 1, by simp only; omega, hh, hmin, hs⟩

/-- No valid date lies between a date and the next day. -/
theorem Cal.nextDay_least {c d : Cal} (hd : d.Valid) (h : c.dayKey < d.dayKey) (hm : c.month ≤ 12) (hday : c.day ≤ 31) :
    c.nextDay.dayKey ≤ d.dayKey := by
  obtain ⟨-, -, hml, hmh, hdl, hdh, -, -, -⟩ := hd
  have days := monthDays_bounds d.year d.month
  unfold Cal.dayKey at *
  unfold Cal.nextDay
  by_cases same : d.year = c.year ∧ d.month = c.month
  · obtain ⟨hy, hmo⟩ := same
    rw [hy, hmo] at hdh h ⊢
    rw [if_pos (by omega)]
    simp only
    omega
  · split_ifs <;> simp only <;> omega

theorem Cal.dayKey_lt_nextDay {c : Cal} (h : c.Valid) : c.dayKey < c.nextDay.dayKey := by
  have days := monthDays_bounds c.year c.month
  obtain ⟨-, -, -, hmh, -, hdh, -, -, -⟩ := h
  unfold Cal.dayKey Cal.nextDay
  split_ifs <;> simp only <;> omega

/-! #### The next second -/

theorem Cal.Valid.next {c : Cal} (h : c.Valid) (hlast : c ≠ Cal.last) : c.next.Valid := by
  have next := h.nextDay
  obtain ⟨hyl, hyh, hml, hmh, hdl, hdh, hh, hmin, hs⟩ := h
  unfold Cal.next
  split_ifs with second minute hour
  · exact ⟨hyl, hyh, hml, hmh, hdl, hdh, hh, hmin, second⟩
  · exact ⟨hyl, hyh, hml, hmh, hdl, hdh, hh, minute, by simp⟩
  · exact ⟨hyl, hyh, hml, hmh, hdl, hdh, hour, by simp, by simp⟩
  · obtain ⟨nyl, nyh, nml, nmh, ndl, ndh, -, -, -⟩ := next fun ⟨year, month, day⟩ => hlast (by
      obtain ⟨_, _, _, _, _, _⟩ := c
      simp only [Cal.last, Cal.mk.injEq] at *
      omega)
    exact ⟨nyl, nyh, nml, nmh, ndl, ndh, by simp, by simp, by simp⟩

theorem Cal.key_lt_next {c : Cal} (h : c.Valid) : c.key < c.next.key := by
  have day := Cal.dayKey_lt_nextDay h
  obtain ⟨-, -, -, -, -, -, hh, hmin, hs⟩ := h
  unfold Cal.next
  split_ifs
  · simp only [Cal.key]; omega
  · simp only [Cal.key]; omega
  · simp only [Cal.key]; omega
  · rw [Cal.key_eq, Cal.key_eq]
    simp only [Cal.dayKey] at day ⊢
    omega

/-- No valid date and time lies between one and its next second. -/
theorem Cal.next_least {c d : Cal} (hc : c.Valid) (hd : d.Valid) (h : c.key < d.key) : c.next.key ≤ d.key := by
  have day : c.dayKey < d.dayKey → c.nextDay.dayKey ≤ d.dayKey := fun later =>
    Cal.nextDay_least hd later hc.month_hi (hc.day_hi.trans (monthDays_bounds _ _).2)
  obtain ⟨-, -, -, -, -, -, hh, hmin, hs⟩ := hc
  obtain ⟨-, -, -, -, -, -, hh', hmin', hs'⟩ := hd
  rw [Cal.key_eq, Cal.key_eq] at h
  unfold Cal.next
  split_ifs
  · rw [Cal.key_eq, Cal.key_eq]; simp only [Cal.dayKey] at *; omega
  · rw [Cal.key_eq, Cal.key_eq]; simp only [Cal.dayKey] at *; omega
  · rw [Cal.key_eq, Cal.key_eq]; simp only [Cal.dayKey] at *; omega
  · have later := day (by omega)
    rw [Cal.key_eq, Cal.key_eq]
    simp only [Cal.dayKey] at *
    omega

/-! #### Events of Peat, and a GO that is turned away -/

@[simp] theorem State.peatRaise_reg (s : State) (code : Nat) (vals : List EVal) (o : Nat) : (s.peatRaise code vals).reg o = s.reg o := by
  unfold State.peatRaise
  split <;> rfl

@[simp] theorem State.peatRaise_rd (s : State) (code : Nat) (vals : List EVal) (x : Fld) : (s.peatRaise code vals).rd x = s.rd x := by
  unfold State.rd
  rw [State.peatRaise_reg]

/-- A Peat event leaves all of Peat alone but the list of the events that wait. -/
theorem State.peatRaise_peat (s : State) (code : Nat) (vals : List EVal) :
    ∃ held, (s.peatRaise code vals).peat = { s.peat with held := held } := by
  unfold State.peatRaise
  split
  · exact ⟨s.peat.held, rfl⟩
  · exact ⟨_, rfl⟩

theorem State.calGo_of_reason {s : State} {r : Nat}
    (h : calReason (calOf (s.rd R.PEAT_CAL_SETDATE_SETDATE) (s.rd R.PEAT_CAL_SETTIME_SETTIME)) = r) (hr : 0 < r) :
    s.calGo = ((s.wr R.PEAT_CAL_STAT_RESULT 2).wr R.PEAT_CAL_STAT_REASON r).peatRaise 0x1302 [.w r] := by
  obtain ⟨k, rfl⟩ := Nat.exists_eq_succ_of_ne_zero hr.ne'
  unfold State.calGo
  simp only [h]

/-- Settles O39: a date and time is a number with its fields for digits, and the next second adds one with the carries of the
calendar; a rejected GO writes its result and raises an event. -/
theorem calendar : Obligations.Calendar := by
  refine ⟨fun c hc => calOf_date_time (calReason_eq_zero.mp hc), fun c hc hlast => ?next, fun s r hr hpos => ?reject⟩
  case next =>
    have valid := calReason_eq_zero.mp hc
    exact ⟨calReason_eq_zero.mpr (valid.next hlast), Cal.key_lt_next valid,
      fun d hd => Cal.next_least valid (calReason_eq_zero.mp hd)⟩
  case reject =>
    have small : r ≤ 6 := hr ▸ calReason_le _
    rw [State.calGo_of_reason hr hpos]
    obtain ⟨held, hpeat⟩ := ((s.wr R.PEAT_CAL_STAT_RESULT 2).wr R.PEAT_CAL_STAT_REASON r).peatRaise_peat 0x1302 [.w r]
    rw [hpeat, State.peatRaise_rd, State.peatRaise_rd]
    refine ⟨rfl, rfl, rfl, ?_, ?_⟩
    · rw [State.rd_wr_apart _ _ (by decide) (.inr (by decide)), State.rd_wr_same _ _ (by decide)]
      rfl
    · rw [State.rd_wr_same _ _ (by decide)]
      exact Nat.mod_eq_of_lt (by simp only [R.PEAT_CAL_STAT_REASON]; omega)

end Sys2Proof.Machine

/-! ### AES-256 and the key wrap (R365, R368: FIPS 197, RFC 3394) -/

namespace Sys2Proof.Machine

/-- `n` byte values. -/
def IsBytes (n : Nat) (l : List Nat) : Prop := l.length = n ∧ ∀ b ∈ l, b < 256

theorem IsBytes.getD_lt {n : Nat} {l : List Nat} (h : IsBytes n l) (i : Nat) : l.getD i 0 < 256 := by
  rw [List.getD_eq_getElem?_getD]
  cases hi : l[i]? with
  | none => simp
  | some b => exact h.2 b (List.mem_of_getElem? hi)

theorem IsBytes.map {n : Nat} {l : List Nat} {f : Nat → Nat} (h : IsBytes n l) (hf : ∀ b < 256, f b < 256) : IsBytes n (l.map f) := by
  refine ⟨by rw [List.length_map, h.1], fun b hb => ?_⟩
  obtain ⟨a, ha, rfl⟩ := List.mem_map.mp hb
  exact hf a (h.2 a ha)

theorem IsBytes.take {n m : Nat} {l : List Nat} (h : IsBytes n l) (hm : m ≤ n) : IsBytes m (l.take m) :=
  ⟨by rw [List.length_take, h.1]; omega, fun b hb => h.2 b (List.mem_of_mem_take hb)⟩

theorem IsBytes.drop {n : Nat} {l : List Nat} (h : IsBytes n l) (m : Nat) : IsBytes (n - m) (l.drop m) :=
  ⟨by rw [List.length_drop, h.1], fun b hb => h.2 b (List.mem_of_mem_drop hb)⟩

theorem IsBytes.append {n m : Nat} {a b : List Nat} (ha : IsBytes n a) (hb : IsBytes m b) : IsBytes (n + m) (a ++ b) :=
  ⟨by rw [List.length_append, ha.1, hb.1], List.forall_mem_append.mpr ⟨ha.2, hb.2⟩⟩

theorem isBytes_map_range {n : Nat} {f : Nat → Nat} (hf : ∀ i < n, f i < 256) : IsBytes n ((List.range n).map f) := by
  refine ⟨by simp, fun b hb => ?_⟩
  obtain ⟨i, hi, rfl⟩ := List.mem_map.mp hb
  exact hf i (List.mem_range.mp hi)

/-- A string of `n` values is the list of its values. -/
theorem map_range_getD {n : Nat} {l : List Nat} (h : l.length = n) : (List.range n).map (fun i => l.getD i 0) = l := by
  subst h
  apply List.ext_getElem
  · simp
  · intro i _ hi
    simp [List.getElem?_eq_getElem hi]

theorem getD_map_range {n i : Nat} (f : Nat → Nat) (hi : i < n) : ((List.range n).map f).getD i 0 = f i := by
  simp [List.getElem?_range hi]

/-! #### Exclusive or -/

theorem xorBytes_eq_zipWith (a b : List Nat) : xorBytes a b = List.zipWith (· ^^^ ·) a b := by
  rw [xorBytes, List.zip, List.map_zipWith]

theorem xor_lt_byte {a b : Nat} (ha : a < 256) (hb : b < 256) : a ^^^ b < 256 := Nat.xor_lt_two_pow (n := 8) ha hb

theorem IsBytes.xorBytes {n : Nat} {a k : List Nat} (ha : IsBytes n a) (hk : IsBytes n k) : IsBytes n (xorBytes a k) := by
  rw [xorBytes_eq_zipWith]
  refine ⟨by rw [List.length_zipWith, ha.1, hk.1, min_self], fun b hb => ?_⟩
  rw [List.zipWith_eq_zipWith_take_min] at hb
  obtain ⟨i, hi, rfl⟩ := List.getElem_of_mem hb
  rw [List.getElem_zipWith]
  exact xor_lt_byte (ha.2 _ (List.mem_of_mem_take (List.getElem_mem _))) (hk.2 _ (List.mem_of_mem_take (List.getElem_mem _)))

/-- The key that is added twice cancels. -/
theorem xorBytes_cancel {a k : List Nat} (h : a.length ≤ k.length) : xorBytes (xorBytes a k) k = a := by
  simp only [xorBytes_eq_zipWith]
  induction a generalizing k with
  | nil => simp
  | cons x a ih =>
    cases k with
    | nil => simp at h
    | cons y k => simp [ih (by simpa using h)]

/-- The exclusive or of four values. -/
def xor4 (g : Nat → Nat) : Nat := g 0 ^^^ g 1 ^^^ g 2 ^^^ g 3

theorem xor4_congr {g g' : Nat → Nat} (h : ∀ k < 4, g k = g' k) : xor4 g = xor4 g' := by
  unfold xor4
  rw [h 0 (by decide), h 1 (by decide), h 2 (by decide), h 3 (by decide)]

theorem xor4_lt {g : Nat → Nat} (h : ∀ k < 4, g k < 256) : xor4 g < 256 :=
  xor_lt_byte (xor_lt_byte (xor_lt_byte (h 0 (by decide)) (h 1 (by decide))) (h 2 (by decide))) (h 3 (by decide))

theorem xor4_comm (g : Nat → Nat → Nat) : (xor4 fun k => xor4 (g k)) = xor4 fun j => xor4 fun k => g k j := by
  simp only [xor4]
  ac_rfl

theorem xor4_single {r : Nat} (g : Nat → Nat) (hr : r < 4) : (xor4 fun j => if j = r then g j else 0) = g r := by
  unfold xor4
  interval_cases r <;> simp

/-- The exclusive or round a circle does not depend on where it starts. -/
theorem xor4_rotate {r : Nat} (g : Nat → Nat) (hr : r < 4) : (xor4 fun k => g ((k + 4 - r) % 4)) = xor4 g := by
  unfold xor4
  interval_cases r <;> simp only [Nat.reduceAdd, Nat.reduceSub, Nat.reduceMod] <;> ac_rfl

/-! #### GF(2^8) -/

theorem gfTwice_lt {a : Nat} (ha : a < 256) : gfTwice a < 256 := by
  unfold gfTwice
  split
  · exact xor_lt_byte (Nat.mod_lt _ (by decide)) (by decide)
  · omega

/-- What leaves a byte at the top when it is doubled. -/
theorem gfTwice_eq {a : Nat} (ha : a < 256) : gfTwice a = (2 * a) % 256 ^^^ (if a.testBit 7 then 0x1b else 0) := by
  have top : a.testBit 7 = decide (128 ≤ a) := by
    rw [Nat.testBit_eq_decide_div_mod_eq]
    exact decide_eq_decide.mpr (by omega)
  unfold gfTwice
  rw [top]
  by_cases h : 128 ≤ a
  · simp [h]
  · simp [h, Nat.mod_eq_of_lt (show 2 * a < 256 by omega)]

theorem gfTwice_xor {a b : Nat} (ha : a < 256) (hb : b < 256) : gfTwice (a ^^^ b) = gfTwice a ^^^ gfTwice b := by
  have double : 2 * (a ^^^ b) % 256 = 2 * a % 256 ^^^ 2 * b % 256 := by
    have shift := Nat.shiftLeft_xor_distrib (a := a) (b := b) (i := 1)
    simp only [Nat.shiftLeft_eq, pow_one, Nat.mul_comm _ 2] at shift
    rw [shift, show 256 = 2 ^ 8 from rfl, Nat.xor_mod_two_pow]
  have carry : (if (a ^^^ b).testBit 7 then 0x1b else 0) = (if a.testBit 7 then 0x1b else 0) ^^^ (if b.testBit 7 then 0x1b else 0) := by
    rw [Nat.testBit_xor]
    cases a.testBit 7 <;> cases b.testBit 7 <;> rfl
  rw [gfTwice_eq (xor_lt_byte ha hb), gfTwice_eq ha, gfTwice_eq hb, double, carry]
  ac_rfl

/-- One step of a multiplication by `c`: the product so far, and the factor doubled as often as bits of `c` were taken. -/
def gfStep (c : Nat) (st : Nat × Nat) (i : Nat) : Nat × Nat :=
  (if c / 2 ^ i % 2 = 1 then st.1 ^^^ st.2 else st.1, gfTwice st.2)

theorem gfMul_eq_foldl (a c : Nat) : gfMul a c = ((List.range 8).foldl (gfStep c) (0, a)).1 := (rfl)

theorem foldl_gfStep_lt {c : Nat} {l : List Nat} {p a : Nat} (hp : p < 256) (ha : a < 256) : (l.foldl (gfStep c) (p, a)).1 < 256 := by
  induction l generalizing p a with
  | nil => exact hp
  | cons i l ih =>
    refine ih ?_ (gfTwice_lt ha)
    dsimp only
    split
    · exact xor_lt_byte hp ha
    · exact hp

theorem foldl_gfStep_xor {c : Nat} {l : List Nat} {p q a b : Nat} (ha : a < 256) (hb : b < 256) :
    (l.foldl (gfStep c) (p ^^^ q, a ^^^ b)).1 = (l.foldl (gfStep c) (p, a)).1 ^^^ (l.foldl (gfStep c) (q, b)).1 := by
  induction l generalizing p q a b with
  | nil => rfl
  | cons i l ih =>
    simp only [List.foldl_cons]
    rw [gfStep, gfStep, gfStep, gfTwice_xor ha hb, ← ih (gfTwice_lt ha) (gfTwice_lt hb)]
    split
    · rw [show p ^^^ q ^^^ (a ^^^ b) = p ^^^ a ^^^ (q ^^^ b) by ac_rfl]
    · rfl

theorem gfMul_lt {a c : Nat} (ha : a < 256) : gfMul a c < 256 := by
  rw [gfMul_eq_foldl]
  exact foldl_gfStep_lt (by decide) ha

theorem gfMul_xor {a b c : Nat} (ha : a < 256) (hb : b < 256) : gfMul (a ^^^ b) c = gfMul a c ^^^ gfMul b c := by
  simp only [gfMul_eq_foldl]
  rw [← foldl_gfStep_xor ha hb, Nat.xor_self]

theorem gfMul_xor4 {g : Nat → Nat} {c : Nat} (h : ∀ k < 4, g k < 256) : gfMul (xor4 g) c = xor4 fun k => gfMul (g k) c := by
  have h0 := h 0 (by decide)
  have h1 := h 1 (by decide)
  have h2 := h 2 (by decide)
  have h3 := h 3 (by decide)
  unfold xor4
  rw [gfMul_xor (xor_lt_byte (xor_lt_byte h0 h1) h2) h3, gfMul_xor (xor_lt_byte h0 h1) h2, gfMul_xor h0 h1]

/-! #### The substitution box -/

/-- Both maps of the box computed for each byte. -/
theorem aesInvSbox_aesSbox_all : ∀ a < 256, aesInvSbox (aesSbox a) = a ∧ aesSbox a < 256 := by decide +kernel

theorem aesSbox_lt {a : Nat} (ha : a < 256) : aesSbox a < 256 := (aesInvSbox_aesSbox_all a ha).2

theorem map_aesInvSbox_map_aesSbox {n : Nat} {b : List Nat} (hb : IsBytes n b) : (b.map aesSbox).map aesInvSbox = b := by
  rw [List.map_map]
  exact (List.map_congr_left fun a ha => (aesInvSbox_aesSbox_all a (hb.2 a ha)).1).trans (List.map_id b)

/-! #### Rows and columns -/

theorem IsBytes.shiftRows {b : List Nat} (hb : IsBytes 16 b) : IsBytes 16 (shiftRows b) :=
  isBytes_map_range fun _ _ => hb.getD_lt _

theorem invShiftRows_shiftRows {b : List Nat} (hb : b.length = 16) : invShiftRows (shiftRows b) = b := by
  conv_rhs => rw [← map_range_getD hb]
  unfold invShiftRows shiftRows
  refine List.map_congr_left fun i hi => ?_
  have : i < 16 := List.mem_range.mp hi
  rw [getD_map_range _ (by omega)]
  congr 1
  omega

/-- Byte `i` of a mixed column. -/
theorem mixWith_eq (m b : List Nat) : mixWith m b = (List.range 16).map fun i =>
    xor4 fun k => gfMul (b.getD (i / 4 * 4 + k) 0) (m.getD ((k + 4 - i % 4) % 4) 0) := by
  unfold mixWith xor4
  refine List.map_congr_left fun i _ => ?_
  simp [List.range_succ]

theorem IsBytes.mixWith {b : List Nat} (hb : IsBytes 16 b) (m : List Nat) : IsBytes 16 (mixWith m b) := by
  rw [mixWith_eq]
  exact isBytes_map_range fun _ _ => xor4_lt fun _ _ => gfMul_lt (hb.getD_lt _)

/-- The two circulant matrices are inverse: the products of the bytes of a column of one with a row of the other. -/
theorem gfMul_circulant_first : ∀ x < 256, ∀ d < 4,
    (xor4 fun k => gfMul (gfMul x ([2, 3, 1, 1].getD ((d + 4 - k) % 4) 0)) ([14, 11, 13, 9].getD k 0)) = if d = 0 then x else 0 := by
  decide +kernel

theorem gfMul_circulant {x j r : Nat} (hx : x < 256) (hj : j < 4) (hr : r < 4) :
    (xor4 fun k => gfMul (gfMul x ([2, 3, 1, 1].getD ((j + 4 - k) % 4) 0)) ([14, 11, 13, 9].getD ((k + 4 - r) % 4) 0)) =
      if j = r then x else 0 := by
  have first := gfMul_circulant_first x hx ((j + 4 - r) % 4) (by omega)
  rw [← xor4_rotate _ hr] at first
  refine (xor4_congr fun k hk => ?_).trans (first.trans (if_congr (by omega) rfl rfl))
  rw [show ((j + 4 - r) % 4 + 4 - (k + 4 - r) % 4) % 4 = (j + 4 - k) % 4 by omega]

/-- Mixing with the inverse matrix undoes mixing. -/
theorem mixWith_inverse {b : List Nat} (hb : IsBytes 16 b) : mixWith [14, 11, 13, 9] (mixWith [2, 3, 1, 1] b) = b := by
  conv_rhs => rw [← map_range_getD hb.1]
  rw [mixWith_eq, mixWith_eq]
  refine List.map_congr_left fun i hi => ?_
  have hi16 : i < 16 := List.mem_range.mp hi
  have column : ∀ k < 4, (i / 4 * 4 + k) / 4 = i / 4 ∧ (i / 4 * 4 + k) % 4 = k := by omega
  have byte : ∀ j < 4, gfMul (b.getD (i / 4 * 4 + j) 0) 1 < 256 := fun _ _ => gfMul_lt (hb.getD_lt _)
  calc (xor4 fun k => gfMul (((List.range 16).map fun i => xor4 fun j => gfMul (b.getD (i / 4 * 4 + j) 0)
          ([2, 3, 1, 1].getD ((j + 4 - i % 4) % 4) 0)).getD (i / 4 * 4 + k) 0) ([14, 11, 13, 9].getD ((k + 4 - i % 4) % 4) 0))
      = xor4 fun k => xor4 fun j => gfMul (gfMul (b.getD (i / 4 * 4 + j) 0) ([2, 3, 1, 1].getD ((j + 4 - k) % 4) 0))
          ([14, 11, 13, 9].getD ((k + 4 - i % 4) % 4) 0) := xor4_congr fun k hk => by
        rw [getD_map_range _ (by omega), (column k hk).1, (column k hk).2, gfMul_xor4 fun _ _ => gfMul_lt (hb.getD_lt _)]
    _ = xor4 fun j => xor4 fun k => gfMul (gfMul (b.getD (i / 4 * 4 + j) 0) ([2, 3, 1, 1].getD ((j + 4 - k) % 4) 0))
          ([14, 11, 13, 9].getD ((k + 4 - i % 4) % 4) 0) := xor4_comm _
    _ = xor4 fun j => if j = i % 4 then b.getD (i / 4 * 4 + j) 0 else 0 :=
        xor4_congr fun j hj => gfMul_circulant (hb.getD_lt _) hj (by omega)
    _ = b.getD i 0 := by
        rw [xor4_single (fun j => b.getD (i / 4 * 4 + j) 0) (by omega), show i / 4 * 4 + i % 4 = i by omega]

/-! #### The key schedule -/

theorem gfTwice_foldl_lt (l : List Nat) : l.foldl (fun r _ => gfTwice r) 1 < 256 :=
  List.foldlRecOn l (motive := (· < 256)) (fun r _ => gfTwice r) (by decide) fun _ h _ _ => gfTwice_lt h

theorem IsBytes.aesNextWord {i : Nat} {w8 w1 : List Nat} (h8 : IsBytes 4 w8) (h1 : IsBytes 4 w1) :
    IsBytes 4 (Machine.aesNextWord i w8 w1) := by
  have box : ∀ {l}, IsBytes 4 l → IsBytes 4 (l.map aesSbox) := fun hl => hl.map fun _ => aesSbox_lt
  suffices h : ∀ t, IsBytes 4 t → IsBytes 4 (Machine.xorBytes w8 t) by
    unfold Machine.aesNextWord
    apply h
    split_ifs
    · obtain ⟨hlen, hlt⟩ := h1
      cases w1 with
      | nil => simp at hlen
      | cons a rest =>
        have turned : IsBytes 4 ((rest ++ [a]).map aesSbox) :=
          box ⟨by simpa using hlen, fun b hb => hlt b (by simpa [or_comm] using hb)⟩
        refine ⟨by rw [List.length_map, List.length_zipIdx, turned.1], fun b hb => ?_⟩
        obtain ⟨⟨x, k⟩, hx, rfl⟩ := List.mem_map.mp hb
        have hx256 : x < 256 := turned.2 x (List.fst_mem_of_mem_zipIdx hx)
        dsimp only
        split_ifs
        · exact xor_lt_byte hx256 (gfTwice_foldl_lt _)
        · exact hx256
    · exact box h1
    · exact h1
  exact fun t ht => h8.xorBytes ht

/-- The words of the schedule are words of four bytes. -/
def IsWords (n : Nat) (ws : List (List Nat)) : Prop := ws.length = n ∧ ∀ w ∈ ws, IsBytes 4 w

theorem IsWords.getD {n i : Nat} {ws : List (List Nat)} (h : IsWords n ws) (hi : i < n) : IsBytes 4 (ws.getD i []) := by
  rw [List.getD_eq_getElem _ _ (by rw [h.1]; exact hi)]
  exact h.2 _ (List.getElem_mem _)

/-- Each step of the schedule adds a word. -/
theorem foldl_schedule_isWords {ws : List (List Nat)} (h : IsWords 8 ws) (n : Nat) : IsWords (n + 8)
    ((List.range n).foldl (fun ws k => ws ++ [aesNextWord (k + 8) (ws.getD k []) (ws.getD (k + 7) [])]) ws) := by
  induction n with
  | zero => exact h
  | succ n ih =>
    rw [List.range_succ, List.foldl_append, List.foldl_cons, List.foldl_nil]
    have word := (ih.getD (show n < n + 8 by omega)).aesNextWord (i := n + 8) (ih.getD (show n + 7 < n + 8 by omega))
    exact ⟨by rw [List.length_append, ih.1, List.length_singleton, Nat.succ_add],
      List.forall_mem_append.mpr ⟨ih.2, List.forall_mem_singleton.mpr word⟩⟩

theorem aesSchedule_isWords {key : List Nat} (hk : IsBytes 32 key) : IsWords 60 (aesSchedule key) := by
  unfold aesSchedule
  refine foldl_schedule_isWords ⟨by simp, fun w hw => ?_⟩ 52
  obtain ⟨i, hi, rfl⟩ := List.mem_map.mp hw
  have : i < 8 := List.mem_range.mp hi
  exact (hk.drop (4 * i)).take (by omega)

theorem IsWords.roundKey {ws : List (List Nat)} {r : Nat} (h : IsWords 60 ws) (hr : r < 15) : IsBytes 16 (roundKey ws r) := by
  have words : ∀ w ∈ (ws.drop (4 * r)).take 4, IsBytes 4 w := fun w hw => h.2 w (List.mem_of_mem_drop (List.mem_of_mem_take hw))
  unfold Machine.roundKey
  refine ⟨?_, fun b hb => ?_⟩
  · rw [List.length_flatten, List.map_congr_left fun w hw => (words w hw).1, List.map_const', List.sum_replicate, List.length_take,
      List.length_drop, h.1, Nat.min_eq_left (by omega),
      smul_eq_mul]
  · obtain ⟨w, hw, hbw⟩ := List.mem_flatten.mp hb
    exact (words w hw).2 b hbw

/-! #### Decryption undoes encryption -/

/-- A fold whose steps are undone one by one, seen through `φ`, is undone by the fold over the reversed list. -/
theorem foldl_undo {σ τ ι : Type} {P : σ → Prop} {Q : ι → Prop} {f : σ → ι → σ} {g : τ → ι → τ} (φ : σ → τ)
    (keep : ∀ s i, P s → Q i → P (f s i)) (undo : ∀ s i, P s → Q i → g (φ (f s i)) i = φ s) {l : List ι} (hl : ∀ i ∈ l, Q i) {s : σ}
    (hs : P s) : P (l.foldl f s) ∧ l.reverse.foldl g (φ (l.foldl f s)) = φ s := by
  induction l using List.reverseRecOn with
  | nil => exact ⟨hs, rfl⟩
  | append_singleton l i ih =>
    obtain ⟨hl, hi⟩ := List.forall_mem_append.mp hl
    obtain ⟨before, back⟩ := ih hl
    have hi := hi i (List.mem_singleton_self i)
    simp only [List.foldl_append, List.foldl_cons, List.foldl_nil, List.reverse_append, List.reverse_singleton, List.singleton_append]
    exact ⟨keep _ i before hi, by rw [undo _ i before hi, back]⟩

theorem reverse_map_range_succ (n : Nat) : ((List.range n).map (· + 1)).reverse = (List.range n).map (n - ·) := by
  apply List.ext_getElem
  · simp
  · intro i hi hi'
    simp at hi hi' ⊢
    omega

/-- The substitution and the row shift, with which a round begins. -/
def subShift (b : List Nat) : List Nat := shiftRows (b.map aesSbox)

/-- Round `r` of the cipher, and of the inverse cipher. -/
def encRound (ws : List (List Nat)) (b : List Nat) (r : Nat) : List Nat := xorBytes (mixWith [2, 3, 1, 1] (subShift b)) (roundKey ws r)
def decRound (ws : List (List Nat)) (b : List Nat) (r : Nat) : List Nat :=
  mixWith [14, 11, 13, 9] (xorBytes ((invShiftRows b).map aesInvSbox) (roundKey ws r))

theorem IsBytes.subShift {b : List Nat} (hb : IsBytes 16 b) : IsBytes 16 (subShift b) := (hb.map fun _ => aesSbox_lt).shiftRows

theorem inverse_subShift {b : List Nat} (hb : IsBytes 16 b) : (invShiftRows (subShift b)).map aesInvSbox = b := by
  rw [subShift, invShiftRows_shiftRows (by rw [List.length_map, hb.1]), map_aesInvSbox_map_aesSbox hb]

section
variable {ws : List (List Nat)} (hws : IsWords 60 ws)
include hws

theorem IsBytes.encRound {b : List Nat} (hb : IsBytes 16 b) {r : Nat} (hr : r < 15) : IsBytes 16 (encRound ws b r) :=
  (hb.subShift.mixWith _).xorBytes (hws.roundKey hr)

/-- A round of the inverse cipher undoes a round of the cipher: the substitution and the shift that follow it are undone first. -/
theorem decRound_subShift_encRound {b : List Nat} (hb : IsBytes 16 b) {r : Nat} (hr : r < 15) :
    decRound ws (subShift (encRound ws b r)) r = subShift b := by
  rw [decRound, inverse_subShift (IsBytes.encRound hws hb hr), Machine.encRound,
    xorBytes_cancel (by rw [(hws.roundKey hr).1, (hb.subShift.mixWith _).1]), mixWith_inverse hb.subShift]

end

theorem aesEncrypt_eq (key blk : List Nat) : aesEncrypt key blk = xorBytes (subShift (((List.range 13).map (· + 1)).foldl
    (encRound (aesSchedule key)) (xorBytes blk (roundKey (aesSchedule key) 0)))) (roundKey (aesSchedule key) 14) := by
  rw [List.foldl_map]
  rfl

theorem aesDecrypt_eq (key blk : List Nat) : aesDecrypt key blk = xorBytes ((invShiftRows (((List.range 13).map (13 - ·)).foldl
    (decRound (aesSchedule key)) (xorBytes blk (roundKey (aesSchedule key) 14)))).map aesInvSbox) (roundKey (aesSchedule key) 0) := by
  rw [List.foldl_map]
  rfl

section
variable {key blk : List Nat} (hk : IsBytes 32 key) (hb : IsBytes 16 blk)
include hk hb

/-- The rounds keep a block a block, and the inverse rounds take it back. -/
theorem aes_rounds : IsBytes 16 (((List.range 13).map (· + 1)).foldl (encRound (aesSchedule key))
      (xorBytes blk (roundKey (aesSchedule key) 0))) ∧
    ((List.range 13).map (13 - ·)).foldl (decRound (aesSchedule key)) (subShift (((List.range 13).map (· + 1)).foldl
      (encRound (aesSchedule key)) (xorBytes blk (roundKey (aesSchedule key) 0)))) =
      subShift (xorBytes blk (roundKey (aesSchedule key) 0)) := by
  have hws := aesSchedule_isWords hk
  rw [← reverse_map_range_succ]
  refine foldl_undo (Q := (· < 15)) subShift (fun b r h => IsBytes.encRound hws h) (fun b r h => decRound_subShift_encRound hws h)
    (fun r hr => ?_) (hb.xorBytes (hws.roundKey (by decide)))
  obtain ⟨i, hi, rfl⟩ := List.mem_map.mp hr
  have : i < 13 := List.mem_range.mp hi
  omega

theorem IsBytes.aesEncrypt : IsBytes 16 (aesEncrypt key blk) := by
  rw [aesEncrypt_eq]
  exact (aes_rounds hk hb).1.subShift.xorBytes ((aesSchedule_isWords hk).roundKey (by decide))

theorem aesDecrypt_aesEncrypt : aesDecrypt key (Machine.aesEncrypt key blk) = blk := by
  have hws := aesSchedule_isWords hk
  obtain ⟨block, back⟩ := aes_rounds hk hb
  have first := hws.roundKey (r := 0) (by decide)
  rw [aesDecrypt_eq, aesEncrypt_eq, xorBytes_cancel (by rw [(hws.roundKey (by decide)).1, block.subShift.1]), back,
    inverse_subShift (hb.xorBytes first), xorBytes_cancel (by rw [first.1, hb.1])]

end

/-! #### Key wrap -/

theorem isBytes_beList (n v : Nat) : IsBytes n (beList n v) := isBytes_map_range fun _ _ => Nat.mod_lt _ (by decide)

/-- One step of the wrap: block `k mod n` is encrypted behind the register, and the register takes the count. -/
def wrapStep (key : List Nat) (n : Nat) (st : List Nat × List (List Nat)) (t : Nat) : List Nat × List (List Nat) :=
  let b := aesEncrypt key (st.1 ++ st.2.getD ((t - 1) % n) [])
  (xorBytes (b.take 8) (beList 8 t), st.2.set ((t - 1) % n) (b.drop 8))

/-- The register and the `n` blocks of a wrap. -/
def WrapState (n : Nat) (st : List Nat × List (List Nat)) : Prop := IsBytes 8 st.1 ∧ st.2.length = n ∧ ∀ r ∈ st.2, IsBytes 8 r

section
variable {key : List Nat} {n t : Nat} {st : List Nat × List (List Nat)} (hk : IsBytes 32 key) (hn : 0 < n) (h : WrapState n st)
include hn h

theorem WrapState.block : IsBytes 8 (st.2.getD ((t - 1) % n) []) := by
  rw [List.getD_eq_getElem _ _ (by rw [h.2.1]; exact Nat.mod_lt _ hn)]
  exact h.2.2 _ (List.getElem_mem _)

include hk

theorem WrapState.wrapStep : WrapState n (Machine.wrapStep key n st t) := by
  have cipher : IsBytes 16 (aesEncrypt key (st.1 ++ st.2.getD ((t - 1) % n) [])) := IsBytes.aesEncrypt hk (h.1.append (h.block hn))
  unfold Machine.wrapStep
  generalize aesEncrypt key _ = b at cipher ⊢
  refine ⟨(cipher.take (by decide)).xorBytes (isBytes_beList 8 t), (List.length_set ..).trans h.2.1, fun r hr => ?_⟩
  rcases List.mem_or_eq_of_mem_set hr with old | new
  · exact h.2.2 r old
  · exact new ▸ cipher.drop 8

/-- A step of the unwrap undoes the step of the wrap with the same count. -/
theorem unwrapStep_wrapStep : unwrapStep key n (Machine.wrapStep key n st t) t = st := by
  have block : IsBytes 16 (st.1 ++ st.2.getD ((t - 1) % n) []) := h.1.append (h.block hn)
  have cipher := IsBytes.aesEncrypt hk block
  have index : (t - 1) % n < st.2.length := by rw [h.2.1]; exact Nat.mod_lt _ hn
  have entry : ∀ b, (st.2.set ((t - 1) % n) b).getD ((t - 1) % n) [] = b := fun b => by
    rw [List.getD_eq_getElem _ _ (by simpa using index), List.getElem_set_self]
  unfold unwrapStep Machine.wrapStep
  dsimp only
  rw [xorBytes_cancel (by rw [(cipher.take (by decide)).1, (isBytes_beList 8 t).1]),
    entry, List.take_append_drop, aesDecrypt_aesEncrypt hk block]
  refine Prod.ext ?_ ?_
  · rw [List.take_left' h.1.1]
  · rw [List.drop_left' h.1.1, List.set_set, List.getD_eq_getElem _ _ index, List.set_getElem_self]

end

theorem keyWrap_eq (key p : List Nat) : keyWrap key p =
    (((List.range (6 * (p.length / 8))).map (· + 1)).foldl (wrapStep key (p.length / 8))
      (List.replicate 8 0xa6, (List.range (p.length / 8)).map fun i => (p.drop (8 * i)).take 8)).1 ++
    (((List.range (6 * (p.length / 8))).map (· + 1)).foldl (wrapStep key (p.length / 8))
      (List.replicate 8 0xa6, (List.range (p.length / 8)).map fun i => (p.drop (8 * i)).take 8)).2.flatten := by
  rw [List.foldl_map]
  rfl

/-- The blocks of a string of whole blocks. -/
theorem flatten_blocks {n : Nat} {p : List Nat} (h : p.length = 8 * n) :
    ((List.range n).map fun i => (p.drop (8 * i)).take 8).flatten = p := by
  induction n generalizing p with
  | zero => exact (List.eq_nil_of_length_eq_zero h).symm
  | succ n ih =>
    rw [List.range_succ_eq_map, List.map_cons, List.flatten_cons, List.map_map]
    have rest := ih (p := p.drop 8) (by rw [List.length_drop]; omega)
    simp only [List.drop_drop] at rest
    rw [show ((fun i => (p.drop (8 * i)).take 8) ∘ Nat.succ) = fun i => (p.drop (8 + 8 * i)).take 8 by
      funext i; simp [Nat.mul_succ, Nat.add_comm], rest]
    exact List.take_append_drop 8 p

/-- Cutting joined blocks gives the blocks. -/
theorem blocks_flatten {n : Nat} {r : List (List Nat)} (hn : r.length = n) (h : ∀ b ∈ r, IsBytes 8 b) :
    ((List.range n).map fun i => (r.flatten.drop (8 * i)).take 8) = r := by
  induction r generalizing n with
  | nil => subst hn; rfl
  | cons b r ih =>
    subst hn
    obtain ⟨hb, hr⟩ := List.forall_mem_cons.mp h
    rw [List.length_cons, List.range_succ_eq_map, List.map_cons, List.map_map, List.flatten_cons]
    congr 1
    · simp [List.take_left' hb.1]
    · conv_rhs => rw [← ih rfl hr]
      refine List.map_congr_left fun i _ => ?_
      rw [Function.comp, Nat.mul_succ, Nat.add_comm, ← List.drop_drop, List.drop_left' hb.1]

theorem length_flatten_blocks {r : List (List Nat)} (h : ∀ b ∈ r, IsBytes 8 b) : r.flatten.length = 8 * r.length := by
  rw [List.length_flatten, List.map_congr_left fun b hb => (h b hb).1, List.map_const', List.sum_replicate, smul_eq_mul, Nat.mul_comm]

theorem isBytes_checkValue : IsBytes 8 (List.replicate 8 0xa6) := ⟨rfl, by decide⟩

/-- Unwrapping undoes wrapping, and finds the integrity check value. -/
theorem keyUnwrap_keyWrap {key p : List Nat} (hk : IsBytes 32 key) {n : Nat} (hn : 0 < n) (hp : IsBytes (8 * n) p) :
    keyUnwrap key (keyWrap key p) = some p := by
  have count : p.length / 8 = n := by rw [hp.1]; omega
  have start : WrapState n (List.replicate 8 0xa6, (List.range n).map fun i => (p.drop (8 * i)).take 8) := by
    refine ⟨isBytes_checkValue, by simp, fun r hr => ?_⟩
    obtain ⟨i, hi, rfl⟩ := List.mem_map.mp hr
    have : i < n := List.mem_range.mp hi
    exact (hp.drop (8 * i)).take (by omega)
  obtain ⟨done, back⟩ := foldl_undo (Q := fun _ => True) (f := wrapStep key n) (g := unwrapStep key n) id (fun _ t h _ => h.wrapStep (t := t) hk hn)
    (fun _ t h _ => unwrapStep_wrapStep (t := t) hk hn h) (l := (List.range (6 * n)).map (· + 1)) (fun _ _ => trivial) start
  rw [reverse_map_range_succ, List.foldl_map] at back
  rw [keyWrap_eq, count]
  generalize ((List.range (6 * n)).map (· + 1)).foldl (wrapStep key n) _ = w at done back ⊢
  obtain ⟨register, blocks, bytes⟩ := done
  have blockCount : (w.1 ++ w.2.flatten).length / 8 - 1 = n := by
    rw [List.length_append, register.1, length_flatten_blocks bytes, blocks]
    omega
  have cut : ((List.range n).map fun i => ((w.1 ++ w.2.flatten).drop (8 * (i + 1))).take 8) = w.2 := by
    conv_rhs => rw [← blocks_flatten blocks bytes]
    refine List.map_congr_left fun i _ => ?_
    rw [Nat.mul_succ, Nat.add_comm, ← List.drop_drop, List.drop_left' register.1]
  unfold keyUnwrap
  simp only [blockCount, cut, List.take_left' register.1]
  rw [show (w.1, w.2) = w from rfl, show (List.range (6 * n)).foldl (fun st k => unwrapStep key n st (6 * n - k)) w = _ from back]
  simp only [id, if_true]
  rw [flatten_blocks hp.1]

/-- Settles O33: each round and each step of the wrap has its inverse. -/
theorem aesInverse : Obligations.AesInverse := by
  refine ⟨fun key blk hk hb hkey hblk => aesDecrypt_aesEncrypt ⟨hk, hkey⟩ ⟨hb, hblk⟩, fun kek p hk hkek hmod hlo _ hp => ?_⟩
  exact keyUnwrap_keyWrap ⟨hk, hkek⟩ (n := p.length / 8) (by omega) ⟨by omega, hp⟩

end Sys2Proof.Machine

/-! ### The encrypted frame (R288 to R291, R294, R295, Table CRY-1) -/

namespace Sys2Proof.Machine

/-! #### Byte strings made of blocks of one length -/

theorem length_flatMap_range {α : Type} {g : Nat → List α} {m : Nat} (hg : ∀ r, (g r).length = m) (n : Nat) :
    ((List.range n).flatMap g).length = n * m := by
  rw [List.length_flatMap, List.map_congr_left fun r _ => hg r, List.map_const', List.sum_replicate, List.length_range, smul_eq_mul]

theorem getElem?_flatMap_range {α : Type} {g : Nat → List α} {m : Nat} (hg : ∀ r, (g r).length = m) {n i : Nat} (hi : i < n * m) :
    ((List.range n).flatMap g)[i]? = (g (i / m))[i % m]? := by
  have hm : 0 < m := Nat.pos_of_ne_zero fun h => by simp [h] at hi
  induction n with
  | zero => simp at hi
  | succ n ih =>
    rw [List.range_succ, List.flatMap_append, List.flatMap_singleton]
    by_cases before : i < n * m
    · rw [List.getElem?_append_left (by rw [length_flatMap_range hg]; exact before), ih before]
    · have row : i / m = n := Nat.div_eq_of_lt_le (by omega) hi
      rw [List.getElem?_append_right (by rw [length_flatMap_range hg]; omega), length_flatMap_range hg, row]
      congr 1
      rw [← row, Nat.mul_comm]
      exact (Nat.mod_eq_sub_mul_div).symm

theorem isBytes_toVals {n : Nat} {l : List Byte} (h : l.length = n) : IsBytes n (toVals l) := by
  refine ⟨by rw [toVals, List.length_map, h], fun v hv => ?_⟩
  obtain ⟨b, -, rfl⟩ := List.mem_map.mp hv
  exact b.isLt

theorem toVals_getElem? (l : List Byte) (i : Nat) : (toVals l)[i]? = l[i]?.map BitVec.toNat := List.getElem?_map

theorem toBytes_getElem? (l : List Nat) (i : Nat) : (toBytes l)[i]? = l[i]?.map (BitVec.ofNat 8) := List.getElem?_map

theorem length_toBytes (l : List Nat) : (toBytes l).length = l.length := List.length_map _

theorem length_toVals (l : List Byte) : (toVals l).length = l.length := List.length_map _

/-! #### The counter mode (SP 800-38D) -/

/-- The first `n` blocks of the key stream that the text of a frame is added to. -/
def gcmStream (key iv : List Nat) (n : Nat) : List Nat := (List.range n).flatMap fun i => aesEncrypt key (iv ++ beList 4 (i + 2))

theorem xorBytes_append (a k d : List Nat) :
    xorBytes a (k ++ d) = xorBytes (a.take k.length) k ++ xorBytes (a.drop k.length) d := by
  simp only [xorBytes_eq_zipWith]
  induction k generalizing a with
  | nil => simp
  | cons y k ih =>
    cases a with
    | nil => simp
    | cons x a => simp [ih]

/-- Adding the blocks of a stream to the blocks of a text adds the stream to the text. -/
theorem flatMap_xorBytes {ks : Nat → List Nat} (hks : ∀ i, (ks i).length = 16) (n : Nat) (text : List Nat) (h : text.length ≤ 16 * n) :
    ((List.range n).flatMap fun i => xorBytes ((text.drop (16 * i)).take 16) (ks i)) = xorBytes text ((List.range n).flatMap ks) := by
  induction n generalizing text ks with
  | zero =>
    rw [List.eq_nil_of_length_eq_zero (show text.length = 0 by omega)]
    rfl
  | succ n ih =>
    have rest := ih (ks := fun i => ks (i + 1)) (fun i => hks (i + 1)) (text.drop 16) (by rw [List.length_drop]; omega)
    rw [List.range_succ_eq_map, List.flatMap_cons, List.flatMap_cons, List.flatMap_map, List.flatMap_map, xorBytes_append, hks 0,
      ← rest]
    simp only [Nat.succ_eq_add_one, List.drop_drop, Nat.mul_zero, List.drop_zero, Nat.mul_add, Nat.mul_one, Nat.add_comm (16 * _)]

section
variable {key iv : List Nat} (hk : IsBytes 32 key) (hiv : IsBytes 12 iv)
include hk hiv

theorem isBytes_counterBlock (i : Nat) : IsBytes 16 (aesEncrypt key (iv ++ beList 4 i)) :=
  IsBytes.aesEncrypt hk (hiv.append (isBytes_beList 4 i))

theorem isBytes_gcmStream (n : Nat) : IsBytes (n * 16) (gcmStream key iv n) := by
  refine ⟨length_flatMap_range (fun i => (isBytes_counterBlock hk hiv (i + 2)).1) n, fun b hb => ?_⟩
  obtain ⟨i, -, hb⟩ := List.mem_flatMap.mp hb
  exact (isBytes_counterBlock hk hiv (i + 2)).2 b hb

theorem gcmCtr_eq (text : List Nat) : gcmCtr key iv text = xorBytes text (gcmStream key iv ((text.length + 15) / 16)) := by
  have stream := isBytes_gcmStream hk hiv ((text.length + 15) / 16)
  unfold gcmCtr
  rw [flatMap_xorBytes (fun i => (isBytes_counterBlock hk hiv (i + 2)).1) _ _ (by omega)]
  refine List.take_of_length_le ?_
  rw [xorBytes_eq_zipWith, List.length_zipWith]
  exact min_le_left _ _

theorem IsBytes.gcmCtr {n : Nat} {text : List Nat} (ht : IsBytes n text) : IsBytes n (gcmCtr key iv text) := by
  obtain ⟨rfl, -⟩ := id ht
  have stream := isBytes_gcmStream hk hiv ((text.length + 15) / 16)
  have split := xorBytes_append text ((gcmStream key iv ((text.length + 15) / 16)).take text.length)
    ((gcmStream key iv ((text.length + 15) / 16)).drop text.length)
  have used : IsBytes text.length ((gcmStream key iv ((text.length + 15) / 16)).take text.length) := stream.take (by omega)
  rw [List.take_append_drop, used.1, List.take_length, List.drop_length] at split
  rw [gcmCtr_eq hk hiv, split]
  exact (ht.xorBytes used).append (m := 0) ⟨rfl, by simp [Machine.xorBytes]⟩

/-- Decryption is the encryption over again. -/
theorem gcmCtr_gcmCtr {n : Nat} {text : List Nat} (ht : IsBytes n text) : Machine.gcmCtr key iv (Machine.gcmCtr key iv text) = text := by
  have stream := isBytes_gcmStream hk hiv ((text.length + 15) / 16)
  rw [gcmCtr_eq hk hiv (Machine.gcmCtr key iv text), (IsBytes.gcmCtr hk hiv ht).1, ← ht.1, gcmCtr_eq hk hiv,
    xorBytes_cancel (by rw [stream.1]; omega)]

theorem isBytes_gcmTag (aad ct : List Nat) : IsBytes 12 (gcmTag key iv aad ct) := by
  have mask : IsBytes 16 (aesEncrypt key (iv ++ [0, 0, 0, 1])) := IsBytes.aesEncrypt hk (hiv.append (m := 4) ⟨rfl, by decide⟩)
  unfold gcmTag
  exact ((isBytes_beList 16 _).xorBytes mask).take (by decide)

end

/-! #### Bytes put at positions -/

theorem length_putBytes (f : List Byte) (l : List (Nat × Nat)) : (putBytes f l).length = f.length := by
  induction l generalizing f with
  | nil => rfl
  | cons p l ih => exact (ih _).trans (List.length_set ..)

theorem putBytes_other {f : List Byte} {l : List (Nat × Nat)} {i : Nat} (h : i ∉ l.map Prod.fst) : (putBytes f l)[i]? = f[i]? := by
  induction l generalizing f with
  | nil => rfl
  | cons p l ih =>
    rw [List.map_cons, List.mem_cons, not_or] at h
    exact (ih h.2).trans (List.getElem?_set_ne (Ne.symm h.1))

theorem putBytes_mem {f : List Byte} {l : List (Nat × Nat)} {i v : Nat} (hl : (l.map Prod.fst).Nodup) (h : (i, v) ∈ l)
    (hi : i < f.length) : (putBytes f l)[i]? = some (BitVec.ofNat 8 v) := by
  induction l generalizing f with
  | nil => simp at h
  | cons p l ih =>
    rw [List.map_cons, List.nodup_cons] at hl
    rcases List.mem_cons.mp h with rfl | later
    · exact (putBytes_other hl.1).trans (by simp [hi])
    · exact ih hl.2 later (by rw [List.length_set]; exact hi)

/-- Two frames that agree off the positions are the same once the positions are written alike. -/
theorem putBytes_congr {f g : List Byte} {l : List (Nat × Nat)} (hl : (l.map Prod.fst).Nodup) (hlen : f.length = g.length)
    (h : ∀ i, i ∉ l.map Prod.fst → f[i]? = g[i]?) : putBytes f l = putBytes g l := by
  apply List.ext_getElem?
  intro i
  by_cases hi : i ∈ l.map Prod.fst
  · obtain ⟨⟨k, v⟩, hp, rfl⟩ := List.mem_map.mp hi
    by_cases hk : k < f.length
    · rw [putBytes_mem hl hp hk, putBytes_mem hl hp (hlen ▸ hk)]
    · rw [List.getElem?_eq_none (by rw [length_putBytes]; dsimp only; omega),
        List.getElem?_eq_none (by rw [length_putBytes]; dsimp only; omega)]
  · rw [putBytes_other hi, putBytes_other hi, h i hi]

/-! #### The positions and the body of a frame -/

/-- The encryption overhead lies in the first 16 columns of the frame. -/
theorem encPositions_columns : ∀ i ∈ encPositions, i < 15296 ∧ i % 3824 < 16 := by decide

theorem encPositions_nodup : encPositions.Nodup := by decide

theorem map_fst_zip_encPositions {v : List Nat} (hv : v.length = 17) : (encPositions.zip v).map Prod.fst = encPositions :=
  List.map_fst_zip (le_of_eq hv.symm)

/-- The overhead reads back as it was put. -/
theorem encOverhead_putBytes {f : List Byte} {v : List Nat} (hf : f.length = 15296) (hv : IsBytes 17 v) :
    encOverhead (putBytes f (encPositions.zip v)) = v := by
  have hlen : encPositions.length = 17 := rfl
  apply List.ext_getElem
  · rw [encOverhead, List.length_map, hlen, hv.1]
  · intro k hk hk'
    have k17 : k < 17 := hv.1 ▸ hk'
    have inside : k < encPositions.length := k17
    have pair : (encPositions[k], v[k]) ∈ encPositions.zip v := by
      have entry : (encPositions.zip v)[k]'(by rw [List.length_zip, hlen, hv.1]; exact k17) = (encPositions[k], v[k]) :=
        List.getElem_zip
      exact entry ▸ List.getElem_mem _
    have read := putBytes_mem (f := f) (by rw [map_fst_zip_encPositions hv.1]; exact encPositions_nodup) pair
      (by rw [hf]; exact (encPositions_columns _ (List.getElem_mem _)).1)
    simp only [encOverhead, List.getElem_map, frameByte, read, Option.map_some, Option.getD_some, BitVec.toNat_ofNat]
    exact Nat.mod_eq_of_lt (hv.2 _ (List.getElem_mem _))

section
variable {f : List Byte} (hf : f.length = 15296)
include hf

theorem length_frameRow {r : Nat} (hr : r < 4) : (toVals ((f.drop (3824 * r + 16)).take 3808)).length = 3808 := by
  rw [length_toVals, List.length_take, List.length_drop, hf]
  omega

/-- The body of a frame: byte `j` of row `r` stands in column `j + 17`. -/
theorem frameBody_getElem? {j : Nat} (hj : j < 15232) :
    (frameBody f)[j]? = f[3824 * (j / 3808) + 16 + j % 3808]?.map BitVec.toNat := by
  have rows : frameBody f = (List.range 4).flatMap fun r => if r < 4 then toVals ((f.drop (3824 * r + 16)).take 3808) else
      List.replicate 3808 0 := List.flatMap_congr fun r hr => (if_pos (List.mem_range.mp hr)).symm
  rw [rows, getElem?_flatMap_range (m := 3808) (fun r => ?_) hj, if_pos (by omega), toVals_getElem?,
    List.getElem?_take_of_lt (Nat.mod_lt _ (by decide)), List.getElem?_drop]
  split
  · exact length_frameRow hf ‹_›
  · exact List.length_replicate

theorem isBytes_frameBody : IsBytes 15232 (frameBody f) := by
  refine ⟨?_, fun v hv => ?_⟩
  · rw [frameBody, List.length_flatMap, List.map_congr_left fun r hr => length_frameRow hf (List.mem_range.mp hr)]
    rfl
  · obtain ⟨r, hr, hv⟩ := List.mem_flatMap.mp hv
    exact (isBytes_toVals rfl).2 v hv

variable {body : List Nat} (hb : body.length = 15232)
include hb

theorem length_withBodyRow {r : Nat} (hr : r < 4) :
    ((f.drop (3824 * r)).take 16 ++ toBytes ((body.drop (3808 * r)).take 3808)).length = 3824 := by
  rw [List.length_append, length_toBytes, List.length_take, List.length_take, List.length_drop, List.length_drop, hf, hb]
  omega

theorem length_withBody : (withBody f body).length = 15296 := by
  rw [withBody, List.length_flatMap, List.map_congr_left fun r hr => length_withBodyRow hf hb (List.mem_range.mp hr)]
  rfl

theorem withBody_getElem? {i : Nat} (hi : i < 15296) : (withBody f body)[i]? =
    if i % 3824 < 16 then f[i]? else body[3808 * (i / 3824) + (i % 3824 - 16)]?.map (BitVec.ofNat 8) := by
  have rows : withBody f body = (List.range 4).flatMap fun r =>
      if r < 4 then (f.drop (3824 * r)).take 16 ++ toBytes ((body.drop (3808 * r)).take 3808) else List.replicate 3824 0 :=
    List.flatMap_congr fun r hr => (if_pos (List.mem_range.mp hr)).symm
  have head : ((f.drop (3824 * (i / 3824))).take 16).length = 16 := by
    rw [List.length_take, List.length_drop, hf]
    omega
  rw [rows, getElem?_flatMap_range (m := 3824) (fun r => ?_) hi, if_pos (by omega)]
  · split
    · rw [List.getElem?_append_left (by rw [head]; assumption), List.getElem?_take_of_lt ‹_›, List.getElem?_drop, Nat.div_add_mod]
    · rw [List.getElem?_append_right (by rw [head]; omega), head, toBytes_getElem?, List.getElem?_take_of_lt (by omega),
        List.getElem?_drop]
  · split
    · exact length_withBodyRow hf hb ‹_›
    · exact List.length_replicate

/-- The first 16 columns, where the overhead is, do not touch the body. -/
theorem frameBody_withBody {g : List Byte} (hg : g.length = 15296) (hbytes : ∀ v ∈ body, v < 256)
    (h : ∀ i, 16 ≤ i % 3824 → g[i]? = (withBody f body)[i]?) : frameBody g = body := by
  apply List.ext_getElem?
  intro j
  by_cases hj : j < 15232
  · have column : (3824 * (j / 3808) + 16 + j % 3808) % 3824 = 16 + j % 3808 := by omega
    have row : (3824 * (j / 3808) + 16 + j % 3808) / 3824 = j / 3808 := by omega
    rw [frameBody_getElem? hg hj, h _ (by omega), withBody_getElem? hf hb (by omega), if_neg (by omega), column, row,
      show 3808 * (j / 3808) + (16 + j % 3808 - 16) = j by omega, List.getElem?_eq_getElem (hb.symm ▸ hj)]
    simp [Nat.mod_eq_of_lt (hbytes _ (List.getElem_mem _))]
  · rw [List.getElem?_eq_none (by rw [(isBytes_frameBody hg).1]; omega), List.getElem?_eq_none (by omega)]

end

/-- Putting the body of a frame into the first columns of another joins the two. -/
theorem withBody_frameBody_getElem? {e f : List Byte} (he : e.length = 15296) (hf : f.length = 15296) {i : Nat} (hi : i < 15296) :
    (withBody e (frameBody f))[i]? = if i % 3824 < 16 then e[i]? else f[i]? := by
  rw [withBody_getElem? he (isBytes_frameBody hf).1 hi]
  split
  · rfl
  · have column : (3808 * (i / 3824) + (i % 3824 - 16)) % 3808 = i % 3824 - 16 := by omega
    have row : (3808 * (i / 3824) + (i % 3824 - 16)) / 3808 = i / 3824 := by omega
    rw [frameBody_getElem? hf (by omega), column, row, show 3824 * (i / 3824) + 16 + (i % 3824 - 16) = i by omega,
      List.getElem?_eq_getElem (hf.symm ▸ hi)]
    simp

/-! #### A frame under a key -/

theorem beVal_beList_four {v : Nat} (hv : v < 2 ^ 32) : beVal (beList 4 v) = v := by
  simp only [beVal, beList, List.range_succ, List.range_zero, List.nil_append, List.cons_append, List.map_cons, List.map_nil,
    List.foldl_cons, List.foldl_nil]
  omega

section
variable {k : KeySlot} {kp dir inv : Nat} {f : List Byte} (hkey : k.key.length = 32) (hsalt : k.salt.length = 4) (hdir : dir < 2)
include hsalt hdir

theorem isBytes_frameIv : IsBytes 12 (frameIv k.salt dir inv) :=
  ((isBytes_toVals hsalt).append (m := 2) ⟨rfl, by simp; omega⟩).append (isBytes_beList 6 inv)

variable (hf : f.length = 15296) (hkp : kp < 2)
include hkey hf

/-- The body under encryption. -/
theorem isBytes_cipherBody : IsBytes 15232 (gcmCtr (toVals k.key) (frameIv k.salt dir inv) (frameBody f)) :=
  IsBytes.gcmCtr (isBytes_toVals hkey) (isBytes_frameIv hsalt hdir) (isBytes_frameBody hf)

omit hf in
/-- CTRL, SEQ and TAG. -/
theorem isBytes_encOverhead (hkp : kp < 2) (aad ct : List Nat) : IsBytes 17
    (encCtrl kp dir :: beList 4 (inv % 2 ^ 32) ++ gcmTag (toVals k.key) (frameIv k.salt dir inv) aad ct) := by
  have ctrl : IsBytes 1 [encCtrl kp dir] := ⟨rfl, by simp [encCtrl]; omega⟩
  exact (ctrl.append (isBytes_beList 4 _)).append (isBytes_gcmTag (isBytes_toVals hkey) (isBytes_frameIv hsalt hdir) aad ct)

theorem length_encryptFrame : (encryptFrame k kp dir inv f).length = 15296 :=
  (length_putBytes _ _).trans (length_withBody hf (isBytes_cipherBody hkey hsalt hdir hf).1)

include hkp

theorem encOverhead_encryptFrame : encOverhead (encryptFrame k kp dir inv f) = encCtrl kp dir :: beList 4 (inv % 2 ^ 32) ++
    gcmTag (toVals k.key) (frameIv k.salt dir inv) (frameAad (encCtrl kp dir) (inv % 2 ^ 32) f)
      (gcmCtr (toVals k.key) (frameIv k.salt dir inv) (frameBody f)) :=
  encOverhead_putBytes (length_withBody hf (isBytes_cipherBody hkey hsalt hdir hf).1) (isBytes_encOverhead hkey hsalt hdir hkp _ _)

omit hf in
/-- Off the positions of the overhead an encrypted frame is the frame with the encrypted body. -/
theorem encryptFrame_getElem? {i : Nat} (hi : i ∉ encPositions) : (encryptFrame k kp dir inv f)[i]? =
    (withBody f (gcmCtr (toVals k.key) (frameIv k.salt dir inv) (frameBody f)))[i]? :=
  putBytes_other (by rwa [map_fst_zip_encPositions (isBytes_encOverhead hkey hsalt hdir hkp _ _).1])

/-- What stays in clear. -/
theorem encryptFrame_clear {i : Nat} (hcol : i % 3824 < 16) (hi : i ∉ encPositions) : (encryptFrame k kp dir inv f)[i]? = f[i]? := by
  have body := isBytes_cipherBody (inv := inv) hkey hsalt hdir hf
  rw [encryptFrame_getElem? hkey hsalt hdir hkp hi]
  by_cases inside : i < 15296
  · rw [withBody_getElem? hf body.1 inside, if_pos hcol]
  · rw [List.getElem?_eq_none (by rw [length_withBody hf body.1]; omega), List.getElem?_eq_none (by omega)]

theorem frameBody_encryptFrame : frameBody (encryptFrame k kp dir inv f) =
    gcmCtr (toVals k.key) (frameIv k.salt dir inv) (frameBody f) := by
  have body := isBytes_cipherBody (inv := inv) hkey hsalt hdir hf
  refine frameBody_withBody hf body.1 (length_encryptFrame hkey hsalt hdir hf) body.2 fun i hcol => ?_
  exact encryptFrame_getElem? hkey hsalt hdir hkp fun mem => absurd (encPositions_columns i mem).2 (by omega)

/-- The additional data of Table CRY-1 is in clear. -/
theorem frameAad_encryptFrame (ctrl seq : Nat) : frameAad ctrl seq (encryptFrame k kp dir inv f) = frameAad ctrl seq f := by
  have clear : ∀ r < 4, ∀ c, c = 14 ∨ c = 15 → frameByte (encryptFrame k kp dir inv f) (3824 * r + c) = frameByte f (3824 * r + c) := by
    intro r hr c hc
    have off : ∀ r < 4, 3824 * r + 14 ∉ encPositions ∧ 3824 * r + 15 ∉ encPositions := by decide
    unfold frameByte
    rw [encryptFrame_clear hkey hsalt hdir hf hkp (by omega) (by rcases hc with rfl | rfl <;> simp [off r hr])]
  unfold frameAad
  refine congrArg _ (List.flatMap_congr fun r hr => ?_)
  rw [clear r (List.mem_range.mp hr) 14 (.inl rfl), clear r (List.mem_range.mp hr) 15 (.inr rfl)]

theorem beVal_encOverhead_encryptFrame : beVal ((encOverhead (encryptFrame k kp dir inv f)).drop 1 |>.take 4) = inv % 2 ^ 32 := by
  rw [encOverhead_encryptFrame hkey hsalt hdir hf hkp, List.cons_append, List.drop_one, List.tail_cons,
    List.take_left' (isBytes_beList 4 _).1, beVal_beList_four (Nat.mod_lt _ (by decide))]

theorem tagOk_encryptFrame : tagOk k dir inv (encryptFrame k kp dir inv f) = true := by
  have seq := beVal_encOverhead_encryptFrame (inv := inv) hkey hsalt hdir hf hkp
  have aad := frameAad_encryptFrame (inv := inv) hkey hsalt hdir hf hkp
  have body := frameBody_encryptFrame (inv := inv) hkey hsalt hdir hf hkp
  have overhead := encOverhead_encryptFrame (inv := inv) hkey hsalt hdir hf hkp
  generalize encryptFrame k kp dir inv f = e at seq aad body overhead ⊢
  unfold tagOk
  dsimp only
  rw [seq, aad, body, overhead, List.cons_append, List.headD_cons, ← List.cons_append, beq_iff_eq]
  generalize gcmTag _ _ _ _ = tag
  exact (List.drop_left' (show (encCtrl kp dir :: beList 4 (inv % 2 ^ 32)).length = 5 from rfl)).symm

theorem decryptFrame_encryptFrame :
    decryptFrame k dir inv (encryptFrame k kp dir inv f) = putBytes f (encPositions.map fun i => (i, 0)) := by
  have positions : (encPositions.map fun i => (i, 0)).map Prod.fst = encPositions := by rw [List.map_map]; exact List.map_id _
  have length := length_encryptFrame (kp := kp) (inv := inv) hkey hsalt hdir hf
  unfold decryptFrame
  rw [frameBody_encryptFrame hkey hsalt hdir hf hkp,
    gcmCtr_gcmCtr (isBytes_toVals hkey) (isBytes_frameIv hsalt hdir) (isBytes_frameBody hf)]
  refine putBytes_congr (positions ▸ encPositions_nodup) ((length_withBody length (isBytes_frameBody hf).1).trans hf.symm)
    fun i hi => ?_
  rw [positions] at hi
  by_cases inside : i < 15296
  · rw [withBody_frameBody_getElem? length hf inside]
    split
    · exact encryptFrame_clear hkey hsalt hdir hf hkp ‹_› hi
    · rfl
  · rw [List.getElem?_eq_none (by rw [length_withBody length (isBytes_frameBody hf).1]; omega), List.getElem?_eq_none (by omega)]

end

/-! #### The INV of a received frame -/

/-- Of the values congruent to SEQ the one taken is nearest to `t`, the larger of two. -/
theorem recoverInv_nearest {hi : Option Nat} {seq t : Nat} (hseq : seq < 2 ^ 32) (ht : (hi.map (· + 1)).getD 0 = t) :
    recoverInv hi seq % 2 ^ 32 = seq ∧ ∀ w, w % 2 ^ 32 = seq →
      (w < recoverInv hi seq → recoverInv hi seq - t + (t - recoverInv hi seq) ≤ w - t + (t - w)) ∧
      (recoverInv hi seq < w → recoverInv hi seq - t + (t - recoverInv hi seq) < w - t + (t - w)) := by
  unfold recoverInv
  rw [ht]
  dsimp only
  split_ifs <;> refine ⟨by omega, fun w hw => ⟨fun below => by omega, fun above => by omega⟩⟩

/-- Settles O49: what is put at the positions of the overhead leaves the body and the additional data alone, and the counter mode is
its own inverse. -/
theorem encryptedFrame : Obligations.EncryptedFrame := by
  refine ⟨fun k kp dir inv f hkey hsalt hkp hdir _ hf => ?_, fun hi seq hseq => recoverInv_nearest hseq rfl⟩
  refine ⟨length_encryptFrame hkey hsalt hdir hf, tagOk_encryptFrame hkey hsalt hdir hf hkp, ?_,
    beVal_encOverhead_encryptFrame hkey hsalt hdir hf hkp, decryptFrame_encryptFrame hkey hsalt hdir hf hkp, fun i hcol hi => ?_⟩
  · rw [encOverhead_encryptFrame hkey hsalt hdir hf hkp]
    rfl
  · exact encryptFrame_clear hkey hsalt hdir hf hkp hcol (by simpa using hi)

end Sys2Proof.Machine

/-! ### Writes of the PF, and the gate of a crypto unit (R286, R636, R642) -/

namespace Sys2Proof.Machine

theorem State.pfWrite_ok {s : State} {off : Nat} {act : State → State} (hv : s.pfVerdict off true = .ok) (hf : s.fuseFailed = false) :
    s.pfWrite off act = act s := by
  unfold State.pfWrite
  simp only [hv, hf, Bool.false_eq_true, if_false]

theorem identityOff_eq_false {off : Nat} (h : 0x24 < off) : identityOff off = false := by
  unfold identityOff
  rw [decide_eq_false (by omega), beq_eq_false_iff_ne.mpr (by omega), Bool.or_false]

/-- After a fuse error only the identity registers and the reset region answer (R467). -/
theorem State.fuseFailed_of_pfVerdict {s : State} {off : Nat} (h : s.pfVerdict off true = .ok) (hoff : off < 0x1000000)
    (hregion : off / 0x10000 ≠ 6) (hid : identityOff off = false) : s.fuseFailed = false := by
  by_contra intact
  have failed : s.fuseFailed = true := by simpa using intact
  unfold State.pfVerdict at h
  simp [hid, show ¬ 0x1000000 ≤ off by omega, hregion, failed] at h

section
variable {s : State} {f : Fin 48}

/-- GATE stands in word 1 of the region of its frond, apart from the identity of the module. -/
theorem gate_off (f : Fin 48) : (R.FRD_CRYGATE_GATE f.val).off < 0x1000000 ∧ (R.FRD_CRYGATE_GATE f.val).off / 0x10000 = 0x10 + f.val ∧
    (R.FRD_CRYGATE_GATE f.val).off % 0x10000 = 4 ∧ identityOff (R.FRD_CRYGATE_GATE f.val).off = false := by
  have := f.isLt
  refine ⟨?_, ?_, ?_, ?_⟩
  · simp only [R.FRD_CRYGATE_GATE]; omega
  · simp only [R.FRD_CRYGATE_GATE]; omega
  · simp only [R.FRD_CRYGATE_GATE]; omega
  · exact identityOff_eq_false (by simp only [R.FRD_CRYGATE_GATE]; omega)

theorem State.wrB_cryptoHeld (s : State) (x : Fld) (b : Bool) (f : Nat) : (s.wrB x b).cryptoHeld f = s.cryptoHeld f := (rfl)

/-- FRD_CRYGATE reads HELD alone while the unit is held, and GATE otherwise. -/
theorem State.liveReg_gate (s : State) (f : Fin 48) : (s.liveReg (R.FRD_CRYGATE_GATE f.val).off).1 =
    BitVec.ofNat 32 (if s.cryptoHeld f.val then 2 else s.rd (R.FRD_CRYGATE_GATE f.val)) := by
  obtain ⟨hlt, hregion, hword, -⟩ := gate_off f
  have frond : ((R.FRD_CRYGATE_GATE f.val).off - 0x100000) / 0x10000 = f.val := by omega
  generalize hoff : (R.FRD_CRYGATE_GATE f.val).off = off at *
  unfold State.liveReg
  simp only [Bool.and_eq_true, decide_eq_true_eq, beq_iff_eq, frond]
  repeat rw [if_neg (by omega)]
  rw [if_pos (by omega), if_neg (by omega), if_pos hword]

theorem execCryptoGateWrite_eq (h : s.pfVerdict (R.FRD_CRYGATE_GATE f.val).off true = .ok) (g : Bool) :
    execCryptoGateWrite f g s =
      .next (if s.cryptoHeld f.val then s.holdIgnored else s.wrB (R.FRD_CRYGATE_GATE f.val) g) := by
  obtain ⟨hlt, hregion, -, hid⟩ := gate_off f
  unfold execCryptoGateWrite
  rw [State.pfWrite_ok h (State.fuseFailed_of_pfVerdict h hlt (by omega) hid)]

end

/-- Settles O32: a write reaches the field or the count of ignored writes, and the register is computed from the hold. -/
theorem cryptoGate : Obligations.CryptoGate := by
  intro s f g off hoff hv
  subst hoff
  refine ⟨fun held => ⟨?_, ?_⟩, fun free => ⟨?_, ?_⟩⟩
  · exact (execCryptoGateWrite_eq hv g).trans (by rw [if_pos held]; rfl)
  · rw [State.liveReg_gate, if_pos held]
    decide
  · exact (execCryptoGateWrite_eq hv g).trans (by rw [if_neg (by simp [free])])
  · have field : (s.wrB (R.FRD_CRYGATE_GATE f.val) g).rd (R.FRD_CRYGATE_GATE f.val) = if g then 1 else 0 :=
      (State.rd_wr_same s _ (show 0 + 1 ≤ 32 by decide)).trans (by cases g <;> rfl)
    rw [State.liveReg_gate, State.wrB_cryptoHeld, if_neg (by simp [free]), field]
    cases g <;> decide

end Sys2Proof.Machine

/-! ### The test access port (R605, Table PIN-5) -/

namespace Sys2Proof.Machine

section
variable {s : State} {tms tdi trstN : Bool} {pads : List Bool}

theorem execBoundaryScan_dead (h : s.pow.railsOut.contains 13 = true) : execBoundaryScan tms tdi trstN pads s = .next s := by
  unfold execBoundaryScan
  rw [if_pos h]

variable (alive : s.pow.railsOut.contains 13 = false)
include alive

/-- TRST_N low resets the port whatever its state, and IDCODE is selected. -/
theorem execBoundaryScan_reset : execBoundaryScan tms tdi false pads s =
    .next { s with tap := { s.tap with st := .reset, ir := 0x01, drive := .normal } } := by
  unfold execBoundaryScan
  rw [if_neg (by rw [alive]; decide), if_pos (by decide)]
  rfl

theorem execBoundaryScan_clock : execBoundaryScan tms tdi true pads s = .next (s.tapRise tms tdi pads).tapFall := by
  unfold execBoundaryScan
  rw [if_neg (by rw [alive]; decide), if_neg (by decide)]

theorem execBoundaryScan_captureIdcode (hst : s.tap.st = .captureDr) (hir : s.tap.ir = 0x01) :
    execBoundaryScan false tdi true pads s =
      .next ({ s with tap := { s.tap with st := .shiftDr, dr := bitsLow 32 s.idcode } } : State).tapFall := by
  have capture : s.tapCapture pads = bitsLow 32 s.idcode := by simp [State.tapCapture, tapBoundary, hir]
  rw [execBoundaryScan_clock alive, State.tapRise, hst, capture]
  rfl

/-- A shift gives up its first bit, takes TDI as its last, and shows the bit that is first then. -/
theorem execBoundaryScan_shift {b : Bool} {l : List Bool} (hst : s.tap.st = .shiftDr) (hdr : s.tap.dr = b :: l) :
    execBoundaryScan false tdi true pads s = .next (({ s with tap := { s.tap with dr := l ++ [tdi] } } : State).emit
      (.tdo ((l ++ [tdi]).headD false))) := by
  have rise : s.tapRise false tdi pads = { s with tap := { s.tap with dr := l ++ [tdi] } } := by
    simp only [State.tapRise, hst, hdr, List.drop_one, List.tail_cons, TapState.next, Bool.false_eq_true, if_false]
  rw [execBoundaryScan_clock alive, rise]
  unfold State.tapFall
  simp only [hst]

theorem execBoundaryScan_update (hst : s.tap.st = .exit1Dr) (hir : tapBoundary s.tap.ir = true) :
    execBoundaryScan true tdi true pads s = .next { s with tap := { s.tap with st := .updateDr, latch := s.tap.dr } } := by
  have rise : s.tapRise true tdi pads = { s with tap := { s.tap with st := .updateDr } } := by
    simp only [State.tapRise, hst, TapState.next, if_true]
  rw [execBoundaryScan_clock alive, rise]
  simp only [State.tapFall, hir, if_true]

end

/-- Settles O40, edge by edge; the controller leaves every state by five edges with TMS high. -/
theorem boundaryScan : Obligations.BoundaryScan := by
  refine ⟨fun s tms tdi trstN pads => execBoundaryScan_dead, fun s tms tdi pads => execBoundaryScan_reset,
    fun s tdi pads => execBoundaryScan_captureIdcode, fun s tdi b pads l alive => execBoundaryScan_shift alive,
    fun s tdi pads => execBoundaryScan_update, fun st => ?five⟩
  case five => cases st <;> rfl

end Sys2Proof.Machine

/-! ### The outbound queue of a mailbox (R345, R347) -/

namespace Sys2Proof.Machine

section
variable (s : State) (c : Nat)

@[simp] theorem State.mbCh_setMbCh_same (x : MbxCh) : (s.setMbCh c x).mbCh c = x := Tab.get_set_same _ _ _ _

@[simp] theorem State.wr_mbCh (x : Fld) (v : Nat) : (s.wr x v).mbCh c = s.mbCh c := (rfl)
@[simp] theorem State.wrB_mbCh (x : Fld) (b : Bool) : (s.wrB x b).mbCh c = s.mbCh c := (rfl)

/-- A change of a channel writes OUT_QUEUED and no other register. -/
theorem State.reg_setMbCh (x : MbxCh) {o : Nat} (ho : o ≠ mbBase c + 0x80) : (s.setMbCh c x).reg o = s.reg o :=
  State.reg_wr_other _ _ ho

theorem State.rd_setMbCh (x : MbxCh) {y : Fld} (hy : y.off ≠ mbBase c + 0x80) : (s.setMbCh c x).rd y = s.rd y := by
  unfold State.rd
  rw [State.reg_setMbCh s c x hy]

theorem State.rd_congr {s t : State} (h : t.regs = s.regs) (x : Fld) : t.rd x = s.rd x := by
  unfold State.rd State.reg
  rw [h]

/-- A saturating counter adds up to its largest value. -/
theorem State.rd_bump_same {x : Fld} (hx : x.lo + x.w ≤ 32) (k : Nat) : (s.bump x k).rd x = min (2 ^ x.w - 1) (s.rd x + k) := by
  refine (State.rd_wr_same s _ hx).trans (Nat.mod_eq_of_lt ?_)
  have pos := Nat.two_pow_pos x.w
  exact Nat.lt_of_le_of_lt (min_le_left _ _) (by omega)

/-- An event with a running count touches the host interface alone. -/
theorem State.rateEvent_eq (code obj period : Nat) (last : Option Nat) (acc n : Nat) :
    ∃ host, (s.rateEvent code obj period last acc n).1 = { s with host := host } := by
  unfold State.rateEvent
  dsimp only
  split
  · exact ⟨_, rfl⟩
  · split_ifs
    · exact ⟨_, rfl⟩
    · exact ⟨_, rfl⟩
    · exact ⟨s.host, rfl⟩

/-- A full queue with a message after the loss it takes: the oldest notice, or the message itself. -/
def mbAfterLoss (q : List (Bool × List Nat)) (n : Bool) (m : List Nat) : List (Bool × List Nat) :=
  match q.findIdx? fun x => x.1 with
  | some i => q.eraseIdx i ++ [(n, m)]
  | none => q

variable {s c} {n : Bool} {m : List Nat}

theorem State.mbQueue_room (h : (s.mbCh c).queue.length < 8) :
    s.mbQueue c n m = s.setMbCh c { s.mbCh c with queue := (s.mbCh c).queue ++ [(n, m)] } := by
  unfold State.mbQueue
  rw [if_pos h]

/-- What a message for a full queue leaves of the queue and of the registers. -/
theorem State.mbQueue_full (h : 8 ≤ (s.mbCh c).queue.length) : ∃ (u : State) (x : MbxCh),
    s.mbQueue c n m = u.setMbCh c x ∧ u.regs = (s.bump (mbNoticeDrop c) 1).regs ∧ x.queue = mbAfterLoss (s.mbCh c).queue n m := by
  unfold State.mbQueue mbAfterLoss
  rw [if_neg (by omega)]
  dsimp only
  generalize s.bump (mbNoticeDrop c) 1 = u
  obtain ⟨host, hhost⟩ := u.rateEvent_eq 0x0d02 c 160 (s.mbCh c).dropTick (s.mbCh c).drops 1
  rw [hhost]
  cases (s.mbCh c).queue.findIdx? fun q => q.1 with
  | some i => exact ⟨_, _, rfl, rfl, rfl⟩
  | none => exact ⟨_, _, rfl, rfl, rfl⟩

theorem State.mbQueue_queue : ((s.mbQueue c n m).mbCh c).queue =
    if (s.mbCh c).queue.length < 8 then (s.mbCh c).queue ++ [(n, m)] else mbAfterLoss (s.mbCh c).queue n m := by
  split
  · rw [State.mbQueue_room ‹_›, State.mbCh_setMbCh_same]
  · obtain ⟨u, x, heq, -, hx⟩ := State.mbQueue_full (s := s) (c := c) (n := n) (m := m) (by omega)
    rw [heq, State.mbCh_setMbCh_same, hx]

theorem State.mbQueue_noticeDrop (h : 8 ≤ (s.mbCh c).queue.length) :
    (s.mbQueue c n m).rd (mbNoticeDrop c) = min 65535 (s.rd (mbNoticeDrop c) + 1) := by
  obtain ⟨u, x, heq, hu, -⟩ := State.mbQueue_full (n := n) (m := m) h
  have apart : (mbNoticeDrop c).off ≠ mbBase c + 0x80 := by simp only [mbNoticeDrop]; omega
  rw [heq, State.rd_setMbCh _ _ _ apart, State.rd_congr hu]
  exact State.rd_bump_same s (show 0 + 16 ≤ 32 by decide) 1

end

section
variable {q : List (Bool × List Nat)} {n : Bool} {m : List Nat}

/-- The notice that is lost is the first in the queue. -/
theorem mbAfterLoss_notice {pre post : List (Bool × List Nat)} {x : List Nat} (hq : q = pre ++ (true, x) :: post)
    (hpre : ∀ p ∈ pre, p.1 = false) : mbAfterLoss q n m = pre ++ post ++ [(n, m)] := by
  have first : q.findIdx? (fun x => x.1) = some pre.length := by
    subst hq
    rw [List.findIdx?_append, List.findIdx?_eq_none_iff.mpr hpre]
    simp [List.findIdx?_cons]
  unfold mbAfterLoss
  rw [first]
  subst hq
  dsimp only
  rw [List.eraseIdx_append_of_length_le (le_refl _), Nat.sub_self, List.eraseIdx_cons_zero]

/-- A reply is at no index that is lost. -/
theorem mem_mbAfterLoss_of_reply {r : List Nat} (h : (false, r) ∈ q) : (false, r) ∈ mbAfterLoss q n m := by
  unfold mbAfterLoss
  split
  case h_2 => exact h
  case h_1 i hi =>
    obtain ⟨hlt, hnotice, -⟩ := List.findIdx?_eq_some_iff_getElem.mp hi
    obtain ⟨j, hj, hget⟩ := List.getElem_of_mem h
    have ne : j ≠ i := by
      rintro rfl
      rw [hget] at hnotice
      exact Bool.false_ne_true hnotice
    exact List.mem_append_left _ (List.mem_eraseIdx_iff_getElem.mpr ⟨j, hj, ne, hget⟩)

theorem length_mbAfterLoss_le (h : q.length ≤ 8) : (mbAfterLoss q n m).length ≤ 8 := by
  unfold mbAfterLoss
  split
  case h_2 => exact h
  case h_1 i hi =>
    obtain ⟨hlt, -⟩ := List.findIdx?_eq_some_iff_getElem.mp hi
    rw [List.length_append, List.length_eraseIdx_of_lt hlt, List.length_singleton]
    omega

end

/-- Settles O30, from what a message leaves of a queue with and without room. -/
theorem mailboxQueueFull : Obligations.MailboxQueueFull := by
  refine fun s c n m _ => ⟨fun pre x post hlen hq hpre => ⟨?_, State.mbQueue_noticeDrop (le_of_eq hlen.symm)⟩, fun r hr => ?_,
    fun hlen => ?_⟩
  · rw [State.mbQueue_queue, if_neg (by omega), mbAfterLoss_notice hq hpre]
  · rw [State.mbQueue_queue]
    split
    · exact List.mem_append_left _ hr
    · exact mem_mbAfterLoss_of_reply hr
  · rw [State.mbQueue_queue]
    split
    · rw [List.length_append, List.length_singleton]
      omega
    · exact length_mbAfterLoss_le hlen

end Sys2Proof.Machine

/-! ### What a logged message touches (R575, R576, R579) -/

namespace Sys2Proof.Machine

/-- Only registers, events and the mesh queues differ. -/
def MeshTouches (s t : State) : Prop := t = { s with regs := t.regs, host := t.host, mesh := t.mesh }

namespace MeshTouches

variable {s t u : State}

theorem refl (s : State) : MeshTouches s s := rfl

theorem trans (h : MeshTouches s t) (h' : MeshTouches t u) : MeshTouches s u := by
  unfold MeshTouches at *
  exact h'.trans (by rw [h])

theorem tick (h : MeshTouches s t) : t.tick = s.tick := (congrArg State.tick h :)
theorem flt (h : MeshTouches s t) : t.flt = s.flt := (congrArg State.flt h :)
theorem peat (h : MeshTouches s t) : t.peat = s.peat := (congrArg State.peat h :)

theorem wr (s : State) (x : Fld) (v : Nat) : MeshTouches s (s.wr x v) := (rfl)
theorem raise (s : State) (code obj : Nat) (vals : List EVal) : MeshTouches s (s.raise code obj vals) := (rfl)
theorem modMesh (s : State) (g : MeshSt → MeshSt) : MeshTouches s (s.modMesh g) := (rfl)
theorem bump (s : State) (x : Fld) (n : Nat) : MeshTouches s (s.bump x n) := wr s x _

theorem foldl {α : Type} {g : State → α → State} (hg : ∀ s a, MeshTouches s (g s a)) (l : List α) (s : State) :
    MeshTouches s (l.foldl g s) := by
  induction l generalizing s with
  | nil => exact refl s
  | cons a l ih => exact (hg s a).trans (ih (g s a))

theorem meshQueue (s : State) (p cls : Nat) (b : List Byte) : MeshTouches s (s.meshQueue p cls b) := by
  unfold State.meshQueue
  dsimp only
  split
  · exact bump s _ _
  · exact modMesh s _

theorem noRoute (s : State) (dst : Nat) : MeshTouches s (s.noRoute dst) := by
  unfold State.noRoute
  dsimp only
  split
  · exact bump s _ _
  · exact (bump s _ _).trans ((modMesh _ _).trans (raise _ _ _ _))

theorem meshUnicast (s : State) (typ cls dst : Nat) (p : List Byte) : MeshTouches s (s.meshUnicast typ cls dst p) := by
  unfold State.meshUnicast State.nextMseq
  dsimp only
  split
  · exact refl s
  · split
    · exact (modMesh s _).trans (meshQueue _ _ _ _)
    · exact (modMesh s _).trans (noRoute _ _)

theorem meshBroadcast (s : State) (typ cls : Nat) (p : List Byte) : MeshTouches s (s.meshBroadcast typ cls p) := by
  unfold State.meshBroadcast State.nextMseq
  dsimp only
  split
  · exact refl s
  · exact (modMesh s _).trans (foldl (fun s p => meshQueue s _ _ _) _ _)

theorem faultReport (s : State) (sev : Nat) (b : List Byte) : MeshTouches s (s.faultReport sev b) := by
  unfold State.faultReport
  dsimp only
  generalize (if s.mesh.faultTick = some s.tick then s.mesh.faultSent else 0) = n
  split
  · exact refl s
  · split
    · exact bump s _ _
    · split
      · exact (modMesh s _).trans (meshBroadcast _ _ _ _)
      · exact (modMesh s _).trans (meshUnicast _ _ _ _ _)

end MeshTouches

/-- Beside these the collector, the boot's kept messages and Peat may differ. -/
def FaultTouches (s t : State) : Prop :=
  t = { s with regs := t.regs, host := t.host, flt := t.flt, boot := t.boot, mesh := t.mesh, peat := t.peat }

namespace FaultTouches

variable {s t u : State}

theorem refl (s : State) : FaultTouches s s := rfl

theorem trans (h : FaultTouches s t) (h' : FaultTouches t u) : FaultTouches s u := by
  unfold FaultTouches at *
  exact h'.trans (by rw [h])

theorem of_mesh (h : MeshTouches s t) : FaultTouches s t := by
  unfold FaultTouches
  unfold MeshTouches at h
  rw [h]

theorem mbx (h : FaultTouches s t) : t.mbx = s.mbx := (congrArg State.mbx h :)
theorem tick (h : FaultTouches s t) : t.tick = s.tick := (congrArg State.tick h :)

theorem modFlt (s : State) (g : FaultSt → FaultSt) : FaultTouches s (s.modFlt g) := (rfl)
theorem modPeat (s : State) (g : PeatSt → PeatSt) : FaultTouches s (s.modPeat g) := (rfl)
theorem wr (s : State) (x : Fld) (v : Nat) : FaultTouches s (s.wr x v) := (rfl)
theorem wrB (s : State) (x : Fld) (b : Bool) : FaultTouches s (s.wrB x b) := wr s x _
theorem raise (s : State) (code obj : Nat) (vals : List EVal) : FaultTouches s (s.raise code obj vals) := (rfl)

theorem storePin (s : State) (fails : List Nat) : FaultTouches s (s.storePin fails) := by
  unfold State.storePin
  dsimp only
  split
  · exact rfl
  · exact refl s

theorem touchPin (s : State) : FaultTouches s s.touchPin := by
  unfold State.touchPin
  split
  · exact modPeat s _
  · exact storePin s _

theorem pinFault (s : State) (m : FaultMsg) : FaultTouches s (s.pinFault m) := by
  unfold State.pinFault
  split
  · exact refl s
  · exact (((modFlt s _).trans (wrB _ _ _)).trans (storePin _ _)).trans (raise _ _ _ _)

end FaultTouches

/-! ### The pinned record (R576) -/

section
variable (s : State) (fails : List Nat) (m : FaultMsg)

theorem State.storePin_log : (s.storePin fails).flt.log = s.flt.log := by
  unfold State.storePin
  dsimp only
  split <;> rfl

theorem State.touchPin_log : s.touchPin.flt.log = s.flt.log := by
  unfold State.touchPin
  split
  · rfl
  · exact s.storePin_log _

theorem State.pinFault_log : (s.pinFault m).flt.log = s.flt.log := by
  unfold State.pinFault
  split
  · rfl
  · exact State.storePin_log _ _

theorem State.storePin_msg : (s.storePin fails).flt.pinned.map Pinned.msg = s.flt.pinned.map Pinned.msg := by
  unfold State.storePin
  dsimp only
  split
  · exact Option.map_map _ _ _
  · rfl

theorem State.touchPin_msg : s.touchPin.flt.pinned.map Pinned.msg = s.flt.pinned.map Pinned.msg := by
  unfold State.touchPin
  split
  · rfl
  · exact s.storePin_msg _

variable {s m}

theorem State.pinFault_msg (hnone : s.flt.pinned = none) (hclear : s.flt.pinClearTick ≠ some s.tick) (hm : m.clear = false) :
    (s.pinFault m).flt.pinned.map Pinned.msg = some m := by
  unfold State.pinFault
  rw [if_neg (by simp [hnone, hclear, hm])]
  exact State.storePin_msg _ _

end

/-! ### The log (R575, R579) -/

section
variable {s : State} {m : FaultMsg}

/-- The state of a message that has entered the log and been reported, before the pinned record is looked at. -/
def State.entered (s : State) (m : FaultMsg) (n : Nat) : State :=
  let t := s.modFlt fun x => { x with
    log := Tab.set (fun _ => none) x.log (s.rd R.FLT_LOG_WR_COUNT % 4096) (some (s.rd R.FLT_LOG_WR_COUNT, m))
    logged := n + 1, loggedTick := s.tick }
  let t := if t.flt.evSev != 0 && decide (t.flt.evSev ≤ m.sev) then t.raise 0x1801 m.source [.raw m.bytes] else t
  t.faultReport m.sev m.bytes

/-- The pinned record counts a message, or takes it. -/
def State.pinStep (s : State) (had : Bool) (m : FaultMsg) : State :=
  if had then (s.modFlt fun x => { x with pinned := x.pinned.map fun r => { r with count := satAdd 0xffffffff r.count 1 } }).touchPin
  else s.pinFault m

theorem State.logFault_eq (hroom : s.flt.loggedTick = s.tick → s.flt.logged < 64) : ∃ n, s.logFault m =
    ((s.entered m n).pinStep s.flt.pinned.isSome m).wr R.FLT_LOG_WR_COUNT (s.rd R.FLT_LOG_WR_COUNT + 1) := by
  refine ⟨if s.flt.loggedTick = s.tick then s.flt.logged else 0, ?_⟩
  have few : ¬64 ≤ if s.flt.loggedTick = s.tick then s.flt.logged else 0 := by
    split
    · exact Nat.not_le.mpr (hroom ‹_›)
    · decide
  unfold State.logFault
  rw [if_neg few]
  rfl

theorem State.entered_tick (n : Nat) : (s.entered m n).tick = s.tick := by
  unfold State.entered
  dsimp only
  rw [(MeshTouches.faultReport _ _ _).tick]
  split <;> rfl

theorem State.entered_flt (n : Nat) : (s.entered m n).flt = { s.flt with
    log := Tab.set (fun _ => none) s.flt.log (s.rd R.FLT_LOG_WR_COUNT % 4096) (some (s.rd R.FLT_LOG_WR_COUNT, m))
    logged := n + 1, loggedTick := s.tick } := by
  unfold State.entered
  dsimp only
  rw [(MeshTouches.faultReport _ _ _).flt]
  split <;> rfl

theorem State.pinStep_log (had : Bool) : (s.pinStep had m).flt.log = s.flt.log := by
  unfold State.pinStep
  split
  · exact State.touchPin_log _
  · exact State.pinFault_log _ _

theorem State.logFault_log (hroom : s.flt.loggedTick = s.tick → s.flt.logged < 64) : (s.logFault m).flt.log =
    Tab.set (fun _ => none) s.flt.log (s.rd R.FLT_LOG_WR_COUNT % 4096) (some (s.rd R.FLT_LOG_WR_COUNT, m)) := by
  obtain ⟨n, heq⟩ := State.logFault_eq (m := m) hroom
  rw [heq, State.wr_flt, State.pinStep_log, State.entered_flt]

theorem State.logFault_count (hroom : s.flt.loggedTick = s.tick → s.flt.logged < 64) :
    (s.logFault m).rd R.FLT_LOG_WR_COUNT = (s.rd R.FLT_LOG_WR_COUNT + 1) % 2 ^ 32 := by
  obtain ⟨n, heq⟩ := State.logFault_eq (m := m) hroom
  rw [heq]
  exact State.rd_wr_same _ _ (show 0 + 32 ≤ 32 by decide)

theorem State.logFault_keeps_pin (hroom : s.flt.loggedTick = s.tick → s.flt.logged < 64) {r : Pinned} (hr : s.flt.pinned = some r) :
    (s.logFault m).flt.pinned.map Pinned.msg = some r.msg := by
  obtain ⟨n, heq⟩ := State.logFault_eq (m := m) hroom
  rw [heq, State.wr_flt, State.pinStep, if_pos (by rw [hr]; rfl), State.touchPin_msg, State.modFlt_flt, State.entered_flt, hr]
  rfl

theorem State.logFault_pins (hroom : s.flt.loggedTick = s.tick → s.flt.logged < 64) (hnone : s.flt.pinned = none)
    (hclear : s.flt.pinClearTick ≠ some s.tick) (hm : m.clear = false) :
    (s.logFault m).flt.pinned.map Pinned.msg = some m := by
  obtain ⟨n, heq⟩ := State.logFault_eq (m := m) hroom
  have same := State.entered_flt (s := s) (m := m) n
  rw [heq, State.wr_flt, State.pinStep, if_neg (by rw [hnone]; decide)]
  refine State.pinFault_msg (by rw [same, hnone]) ?_ hm
  rw [same, State.entered_tick]
  exact hclear

end

/-! ### The first failing check -/

section
variable {α : Type} (k : α → Nat)

theorem insertBy_rising {l : List α} (x : α) (hl : l.Pairwise fun a b => k a ≤ k b) :
    (insertBy (fun a b => decide (k a ≤ k b)) x l).Pairwise fun a b => k a ≤ k b := by
  induction l with
  | nil => exact List.pairwise_singleton _ _
  | cons y l ih =>
    obtain ⟨hy, hl⟩ := List.pairwise_cons.mp hl
    unfold insertBy
    split
    case isTrue hle =>
      refine List.pairwise_cons.mpr ⟨fun z hz => ?_, ih hl⟩
      obtain rfl | hz := mem_insertBy.mp hz
      · exact of_decide_eq_true hle
      · exact hy z hz
    case isFalse hlt =>
      have lt : k x < k y := Nat.not_le.mp fun hle => hlt (decide_eq_true hle)
      refine List.pairwise_cons.mpr ⟨fun z hz => ?_, List.pairwise_cons.mpr ⟨hy, hl⟩⟩
      obtain rfl | hz := List.mem_cons.mp hz
      · exact lt.le
      · exact lt.le.trans (hy z hz)

theorem sortBy_rising (l : List α) : (sortBy (fun a b => decide (k a ≤ k b)) l).Pairwise fun a b => k a ≤ k b := by
  have rising : ∀ acc : List α, (acc.Pairwise fun a b => k a ≤ k b) →
      (l.foldl (fun acc x => insertBy (fun a b => decide (k a ≤ k b)) x acc) acc).Pairwise fun a b => k a ≤ k b := by
    induction l with
    | nil => exact fun _ h => h
    | cons x l ih => exact fun acc h => ih _ (insertBy_rising k x h)
  unfold sortBy
  split
  · exact List.Pairwise.nil
  · exact rising [] List.Pairwise.nil

end

/-- A failing check before which no other comes, save one that draws the same, decides the refusal. -/
theorem firstFail_first {l : List Ck} {c : Ck} (hc : c ∈ l) (hb : c.bad = true)
    (hmin : ∀ d ∈ l, d.bad = true → c.ord < d.ord ∨ (d.status = c.status ∧ d.detail = c.detail)) :
    firstFail l = some ⟨c.status, c.detail⟩ := by
  unfold firstFail
  split
  case h_2 hnone => exact absurd hb (List.find?_eq_none.mp hnone c (mem_sortBy.mpr hc))
  case h_1 d hd =>
    obtain later | ⟨hst, hdt⟩ := hmin d (mem_sortBy.mp (List.mem_of_find?_eq_some hd)) (List.find?_some hd)
    · obtain ⟨-, pre, post, hl, hpre⟩ := List.find?_eq_some_iff_append.mp hd
      have rising := sortBy_rising Ck.ord l
      have mem : c ∈ pre ++ d :: post := hl ▸ mem_sortBy.mpr hc
      rw [hl] at rising
      obtain hin | hin := List.mem_append.mp mem
      · exact absurd hb (by simpa using hpre c hin)
      · obtain rfl | hin := List.mem_cons.mp hin
        · exact absurd later (Nat.lt_irrefl _)
        · have le := (List.pairwise_cons.mp (List.pairwise_append.mp rising).2.1).1 c hin
          exact absurd later (Nat.not_lt.mpr le)
    · rw [hst, hdt]

section
variable {s : State} {h : ReqHdr} {mem : HostMem} (lost : s.flag R.FLT_STAT_LOST_ALL = true)
include lost

/-- With every collector lost a descriptor whose checks before that pass is refused with ABSENT and changes nothing (R577). -/
theorem runOne_collectors_lost {op : Nat} {b : ReqBody} {chk : Ctx → State → List Ck} {app : Ctx → State → Applied}
    (hck : s.ckCollector ∈ chk (h.ctx s mem) s) (hchk : ∀ d ∈ chk (h.ctx s mem) s, d.bad = true → d = s.ckCollector ∨ 7 < d.ord)
    (hkey : ∀ sa addr, b ≠ .keyLoad sa addr) (hspore : ∀ addr, b ≠ .updSpore addr) :
    runOne h mem op b s chk app = s.complete (doneRefused h s op 0x07 0) := by
  refine runOne_refused (firstFail_first hck lost fun d hd hb => ?_) (by decide) (by decide) hkey hspore
  obtain rfl | later := hchk d hd hb
  · exact .inr ⟨rfl, rfl⟩
  · exact .inl later

theorem execFltClear_collectors_lost (hpf : h.isPf) (alert first safe : Bool) :
    runOne h mem 0xb1 (.fltClear alert first safe) s (chkFltClear safe) (appFltClear alert first safe) =
      s.complete (doneRefused h s 0xb1 0x07 0) := by
  refine runOne_collectors_lost lost (by simp [chkFltClear]) (fun d hd hb => ?_) (by simp) (by simp)
  simp only [chkFltClear, List.mem_append, List.mem_cons, List.not_mem_nil, or_false] at hd
  obtain hd | rfl | rfl := hd
  · exact absurd hb (by rw [pf_pass hpf d hd]; decide)
  · exact .inl rfl
  · exact .inr (show 7 < 10 by decide)

theorem execFltSetup_collectors_lost (hpf : h.isPf) {ev : Nat} (hev : ev ≤ 7) :
    exec (.fltSetup h mem ev) s = .next (s.complete (doneRefused h s 0xb5 0x07 0)) := by
  refine congrArg _ (runOne_collectors_lost lost (by simp [chkFltSetup]) (fun d hd hb => ?_) (by simp) (by simp))
  simp only [chkFltSetup, List.mem_append, List.mem_cons, List.not_mem_nil, or_false] at hd
  obtain hd | rfl | rfl := hd
  · exact absurd hb (by rw [pf_pass hpf d hd]; decide)
  · exact absurd (of_decide_eq_true hb) (Nat.not_lt.mpr hev)
  · exact .inl rfl

theorem State.sendFault_lost (m : FaultMsg) : s.sendFault m = s := if_pos lost

theorem State.collectorFault_lost (c : Nat) : s.collectorFault c = s := if_pos lost

end

theorem State.logEntry_of_log {s : State} {n k : Nat} {m : FaultMsg} (h : Tab.get (fun _ => none) s.flt.log (n % 4096) = some (k, m))
    (hk : k = n % 2 ^ 32) : s.logEntry n = m.bytes := by
  unfold State.logEntry
  rw [h]
  exact if_pos hk

theorem State.logEntry_congr {s t : State} {n : Nat}
    (h : Tab.get (fun _ => none) t.flt.log (n % 4096) = Tab.get (fun _ => none) s.flt.log (n % 4096)) : t.logEntry n = s.logEntry n := by
  unfold State.logEntry
  rw [h]

/-- Settles O19, from the log and the pinned record after a message and from the check that every fault descriptor makes. -/
theorem faultLog : Obligations.FaultLog := by
  refine ⟨fun s m hroom => ⟨State.logFault_count hroom, ?own, fun n hn => ?other, fun r hr => ?keeps, fun hnone hclear hm => ?pins⟩,
    fun s h mem hpf lost => ⟨fun m => congrArg _ (State.sendFault_lost lost m), fun c => congrArg _ (State.collectorFault_lost lost c.val),
      fun ev hev => execFltSetup_collectors_lost lost hpf hev, congrArg _ (execFltClear_collectors_lost lost hpf _ _ _),
      congrArg _ (execFltClear_collectors_lost lost hpf _ _ _)⟩⟩
  case own =>
    refine State.logEntry_of_log (k := s.rd R.FLT_LOG_WR_COUNT) ?_ (Nat.mod_eq_of_lt (Nat.mod_lt _ (by decide))).symm
    rw [State.logFault_log hroom, Tab.get_set_same]
  case other =>
    refine State.logEntry_congr ?_
    rw [State.logFault_log hroom, Tab.get_set_other _ _ _ hn]
  case keeps => exact Option.map_eq_some_iff.mp (State.logFault_keeps_pin hroom hr)
  case pins => exact Option.map_eq_some_iff.mp (State.logFault_pins hroom hnone hclear hm)

end Sys2Proof.Machine

/-! ### Descriptors of the PF -/

namespace Sys2Proof.Machine

section
variable {h : ReqHdr} {mem : HostMem} {op addr : Nat} {b : ReqBody} {s : State} {chk : Ctx → State → List Ck}
  {app : Ctx → State → Applied} {l : List Ck}

/-- A request of the PF for T0000 whose other checks pass is applied and completed. -/
theorem runOne_pf (a : Applied) (hpf : h.isPf) (hchk : chk (h.ctx s mem) s = (h.ctx s mem).pf ++ l) (hl : ∀ c ∈ l, c.bad = false)
    (ha : app (h.ctx s mem) s = a) (hf : a.fail = none) (hh : a.held = false) (ht : a.s.tick = s.tick) :
    runOne h mem op b s chk app = a.s.complete (doneOk h s op a.result) := by
  refine runOne_done a ?_ ha hf hh ht
  rw [hchk]
  exact List.forall_mem_append.mpr ⟨pf_pass hpf, hl⟩

/-- The same for a read-out of the state it finds. -/
theorem runOne_pf_read {data : List Byte} (hpf : h.isPf) (hchk : chk (h.ctx s mem) s = (h.ctx s mem).pf ++ l)
    (hl : ∀ c ∈ l, c.bad = false) (ha : app (h.ctx s mem) s = s.takeRead (h.ctx s mem) h.dn addr data) :
    runOne h mem op b s chk app = readOk h s op addr data := by
  refine runOne_read ?_ ha
  rw [hchk]
  exact List.forall_mem_append.mpr ⟨pf_pass hpf, hl⟩

theorem ckFormat_pass {bad : Bool} (h : bad = false) : (ckFormat bad).bad = false := h
theorem ckAbsent_pass {bad : Bool} (h : bad = false) : (ckAbsent bad).bad = false := h
theorem ckCond_pass {bad : Bool} {st d : Nat} (h : bad = false) : (ckCond bad st d).bad = false := h
theorem ckAlign_pass {a n : Nat} (h : a % n = 0) : (ckAlign a n).bad = false := by
  rw [ckAlign, h]
  rfl
theorem ckBacklog_pass {n : Nat} (h : s.readFits n) : (s.ckBacklog n).bad = false := decide_eq_false (Nat.not_lt.mpr h)

end

/-! ### Fault messages and the fault descriptors (R569 to R579) -/

section
variable {s : State} {h : ReqHdr} {mem : HostMem}

variable (up : s.flag R.FLT_STAT_LOST_ALL = false)
include up

theorem State.sendFault_log {m : FaultMsg} (hw : s.boot.warm = false) (hact : (s.reaction m.kind).action = 0)
    (halert : (s.reaction m.kind).alert = false) : s.sendFault m = s.logFault m := by
  unfold State.sendFault State.faultAction
  simp [up, hw, hact, halert]

theorem State.sendFault_safe {m : FaultMsg} (hw : s.boot.warm = false) (hm : m.clear = false) (hact : (s.reaction m.kind).action = 2)
    (halert : (s.reaction m.kind).alert = true) : s.sendFault m = ((s.modFlt fun x => { x with
      safeNext := some (x.safeNext.getD (m.kind, m.source)) }).latchAlert m.kind).logFault m := by
  have same : (s.modFlt fun x => { x with safeNext := some (x.safeNext.getD (m.kind, m.source)) }).reaction m.kind =
    s.reaction m.kind := (rfl)
  unfold State.sendFault State.faultAction
  simp [up, hw, hm, hact, same, halert]

variable (hpf : h.isPf)
include hpf

theorem execFltReact_ok {kind action : Nat} {alert : Bool} {r : KindRow} (hr : kindRow kind = some r) (hfix : r.fixed = false)
    (hlow : r.least ≤ action) (hhigh : action ≤ 3) :
    exec (.fltReact h mem kind action alert) s = .next ((s.modFlt fun x => { x with
      react := Tab.set resetReact x.react kind ⟨action, alert⟩ }).complete (doneOk h s 0xb0 0)) := by
  have fits : reactBad kind action = false := by
    rw [reactBad, hr]
    simp [hfix, hlow, hhigh]
  exact congrArg _ (runOne_pf _ hpf rfl (by simp [fits, ckFormat, State.ckCollector, ckAbsent, up]) rfl rfl rfl rfl)

theorem execFltClear_ok {safe : Bool} (hsafe : (safe && s.flag R.FLT_STAT_SAFE && s.blocking) = false) {alert first : Bool} {t : State}
    (ha : appFltClear alert first safe (h.ctx s mem) s = { s := t }) (ht : t.tick = s.tick) :
    runOne h mem 0xb1 (.fltClear alert first safe) s (chkFltClear safe) (appFltClear alert first safe) =
      t.complete (doneOk h s 0xb1 0) := by
  refine runOne_pf { s := t } hpf rfl ?_ ha rfl rfl ht
  simp only [List.forall_mem_cons]
  exact ⟨up, hsafe, by simp⟩

theorem execFltLogRead_ok {first count buf : Nat} (hlow : 0 < count) (hhigh : count ≤ 4096) (halign : buf % 64 = 0)
    (hfits : s.readFits (16 * count)) : exec (.fltLogRead h mem first count buf) s =
      .next (readOk h s 0xb2 buf ((List.range count).flatMap fun i => s.logEntry (first + i))) := by
  refine congrArg _ (runOne_pf_read hpf rfl ?_ rfl)
  simp only [List.forall_mem_cons]
  exact ⟨ckFormat_pass (by simp; omega), ckAlign_pass halign, up, ckBacklog_pass hfits, by simp⟩

theorem execFltFirstRead_ok {buf : Nat} (halign : buf % 64 = 0) (hfits : s.readFits 64) :
    exec (.fltFirstRead h mem buf) s = .next (readOk h s 0xb3 buf s.pinRead) := by
  refine congrArg _ (runOne_pf_read hpf rfl ?_ rfl)
  simp only [List.forall_mem_cons]
  exact ⟨ckAlign_pass halign, up, ckBacklog_pass hfits, by simp⟩

theorem execFltSetup_ok {ev : Nat} (hev : ev ≤ 7) :
    exec (.fltSetup h mem ev) s = .next ((s.modFlt fun x => { x with evSev := ev }).complete (doneOk h s 0xb5 0)) := by
  refine congrArg _ (runOne_pf _ hpf rfl ?_ rfl rfl rfl rfl)
  simp only [List.forall_mem_cons]
  exact ⟨decide_eq_false (Nat.not_lt.mpr hev), up, by simp⟩

theorem execFltInject_ok {sev addr : Nat} (hsev : sev ≤ 7) (haddr : addr < 2 ^ 40) :
    ∃ source, source < 4096 ∧ exec (.fltInject h mem sev addr) s = .next ((({ s with freeCtr := s.freeCtr + 1 } : State).sendFault
      ⟨source, 0xfe, sev, false, addr, s.tick⟩).complete (doneOk h s 0xb4 0)) := by
  refine ⟨Config.free s.freeCtr % 4096, Nat.mod_lt _ (by decide), ?_⟩
  generalize sent : ({ s with freeCtr := s.freeCtr + 1 } : State).sendFault ⟨Config.free s.freeCtr % 4096, 0xfe, sev, false, addr, s.tick⟩ = t
  have tick : t.tick = s.tick := by
    rw [← sent]
    exact (kept_tick (State.sendFault_kept _ _)).trans rfl
  have app : appFltInject sev addr (h.ctx s mem) s = { s := t } := by
    rw [appFltInject, Nat.mod_eq_of_lt haddr, ← sent]
    rfl
  refine congrArg _ (runOne_pf { s := t } hpf rfl ?_ app rfl rfl tick)
  simp only [List.forall_mem_cons]
  exact ⟨decide_eq_false (Nat.not_lt.mpr hsev), up, by simp⟩

end

/-! #### The end of the safe state and the retirement of a collector -/

section
variable {s : State}

theorem State.clearSafe_of_safe (hsafe : s.flag R.FLT_STAT_SAFE = true) (hfree : s.blocking = false) :
    s.clearSafe = s.frondIds.foldl State.squelchUpdate ((s.exitSafe.raise 0x1804 0).driveFaultN) := by
  have kept : ((s.exitSafe.raise 0x1804 0).driveFaultN).kept = s.kept := by
    rw [State.driveFaultN_kept, State.raise_kept, State.exitSafe_kept]
  have ids : ((s.exitSafe.raise 0x1804 0).driveFaultN).frondIds = s.frondIds := by
    rw [State.frondIds, State.frondCount, kept_fuse kept]
    rfl
  unfold State.clearSafe
  rw [hsafe, hfree]
  refine (if_pos rfl).trans ?_
  dsimp only
  rw [ids]

/-- In the tick of a CLEAR_FIRST the empty record stays empty (R576). -/
theorem State.pinFault_cleared {m : FaultMsg} (hclear : s.flt.pinClearTick = some s.tick) : s.pinFault m = s := by
  unfold State.pinFault
  exact if_pos (.inr (.inr hclear))

theorem State.logFault_full {m : FaultMsg} (htick : s.flt.loggedTick = s.tick) (hfull : 64 ≤ s.flt.logged) :
    s.logFault m = s.bump R.FLT_CNT_LOST 1 := by
  unfold State.logFault
  rw [if_pos htick]
  exact if_pos hfull

theorem State.logFault_unpinned {m : FaultMsg} (hnone : s.flt.pinned = none) (hclear : s.flt.pinClearTick = some s.tick) :
    (s.logFault m).flt.pinned = none := by
  by_cases hroom : s.flt.loggedTick = s.tick → s.flt.logged < 64
  · obtain ⟨n, heq⟩ := State.logFault_eq (m := m) hroom
    have same := State.entered_flt (s := s) (m := m) n
    have cleared : (s.entered m n).flt.pinClearTick = some (s.entered m n).tick := by
      rw [same, State.entered_tick]
      exact hclear
    rw [heq, State.wr_flt, State.pinStep, if_neg (by rw [hnone]; decide), State.pinFault_cleared cleared, same]
    exact hnone
  · obtain ⟨htick, hfull⟩ := Classical.not_imp.mp hroom
    rw [State.logFault_full htick (Nat.not_lt.mp hfull), State.bump_flt]
    exact hnone

theorem State.faultAction_pinned (s : State) (m : FaultMsg) : (s.faultAction m).flt.pinned = s.flt.pinned ∧
    (s.faultAction m).flt.pinClearTick = s.flt.pinClearTick ∧ (s.faultAction m).tick = s.tick := by
  unfold State.faultAction
  split
  case h_1 => exact ⟨rfl, rfl, rfl⟩
  case h_2 =>
    split
    · exact ⟨rfl, rfl, rfl⟩
    · exact ⟨rfl, rfl, rfl⟩
  case h_3 => exact ⟨rfl, rfl, rfl⟩
  case h_4 => exact ⟨rfl, rfl, rfl⟩

theorem State.latchAlert_flt (k : Nat) : (s.latchAlert k).flt = s.flt := State.setBits_flt _ _ _
theorem State.latchAlert_tick (k : Nat) : (s.latchAlert k).tick = s.tick := State.setBits_tick _ _ _

/-- Neither the ALERT latch nor the action of a message touches the record. -/
theorem State.logFault_latched_unpinned {m : FaultMsg} (alert : Bool) (hnone : s.flt.pinned = none)
    (hclear : s.flt.pinClearTick = some s.tick) : ((if alert then s.latchAlert m.kind else s).logFault m).flt.pinned = none := by
  cases alert with
  | true =>
    rw [if_pos rfl]
    exact State.logFault_unpinned (by rwa [State.latchAlert_flt]) (by rwa [State.latchAlert_flt, State.latchAlert_tick])
  | false => exact State.logFault_unpinned hnone hclear

theorem State.sendFault_unpinned {m : FaultMsg} (hnone : s.flt.pinned = none) (hclear : s.flt.pinClearTick = some s.tick) :
    (s.sendFault m).flt.pinned = none := by
  obtain ⟨pinned, clearTick, tick⟩ := s.faultAction_pinned m
  unfold State.sendFault
  dsimp only
  split
  · exact hnone
  · split
    · exact hnone
    · split
      · exact State.logFault_latched_unpinned _ hnone hclear
      · exact State.logFault_latched_unpinned _ (pinned.trans hnone) (by rw [clearTick, tick, hclear])

theorem State.collectorFault_retires {c : Nat} (hup : s.flag R.FLT_STAT_LOST_ALL = false) (hgrade : s.fuse.grade ≠ 2)
    (hfirst : s.flag R.FLT_STAT_DEGRADED = false) (hnone : s.flt.pinned = none) (hclear : s.flt.pinClearTick = some s.tick) :
    s.collectorFault c = (((s.wrB R.FLT_STAT_DEGRADED true).wr R.FLT_STAT_RETIRED c).sendFault
      ⟨0x003 + (1 - c), 0x0c, 5, false, c, s.tick⟩).raise 0x1805 0 [.w c] := by
  have unpinned : (((s.wrB R.FLT_STAT_DEGRADED true).wr R.FLT_STAT_RETIRED c).sendFault
      ⟨0x003 + (1 - c), 0x0c, 5, false, c, s.tick⟩).flt.pinned = none := State.sendFault_unpinned hnone hclear
  unfold State.collectorFault
  rw [if_neg (by simp [hup]), if_neg (by simp [hgrade, hfirst]), if_neg (by simp [hfirst])]
  simp only [State.wr_tick, State.wrB_tick, unpinned]

end

/-- Settles O18, message by message and descriptor by descriptor. -/
theorem faultCommands : Obligations.FaultCommands := by
  intro s h mem hpf up
  refine ⟨fun m hw hact halert => congrArg _ (State.sendFault_log up hw hact halert),
    fun m hw hm hact halert => congrArg _ (State.sendFault_safe up hw hm hact halert),
    fun kind action alert r hr hfix hlow hhigh => execFltReact_ok up hpf hr hfix hlow hhigh, ?alert, ?first, fun hsafe hfree => ?safe,
    fun first count buf hlow hhigh halign hfits => execFltLogRead_ok up hpf hlow hhigh halign hfits,
    fun buf halign hfits => execFltFirstRead_ok up hpf halign hfits, fun sev addr hsev haddr => execFltInject_ok up hpf hsev haddr,
    fun ev hev => execFltSetup_ok up hpf hev,
    fun c hgrade hfirst hnone hclear => congrArg _ (State.collectorFault_retires up hgrade hfirst hnone hclear)⟩
  case alert => exact congrArg _ (execFltClear_ok (alert := true) (first := false) (safe := false) up hpf rfl rfl (kept_tick (State.clearAlert_kept s)))
  case first => exact congrArg _ (execFltClear_ok (alert := false) (first := true) (safe := false) up hpf rfl rfl (kept_tick (State.clearFirst_kept s)))
  case safe =>
    rw [← State.clearSafe_of_safe hsafe hfree]
    exact congrArg _ (execFltClear_ok (alert := false) (first := false) (safe := true) up hpf (by rw [hfree, Bool.and_false]) rfl
      (kept_tick (State.clearSafe_kept s)))

end Sys2Proof.Machine

/-! ### The messages of a mailbox (R342 to R351, Table MBX-1) -/

namespace Sys2Proof.Machine

/-- A channel's own registers lie beside MBX_SUMMARY. -/
theorem mbBase_add_ne_summary (c : Nat) {k : Nat} (hk : k < 0x100) : mbBase c + k ≠ 0x20800 := by
  unfold mbBase
  split <;> omega

section
variable {s : State} {c : Nat}

theorem State.mbSummary_rd {y : Fld} (hy : y.off ≠ 0x20800) : s.mbSummary.rd y = s.rd y := by
  unfold State.mbSummary
  dsimp only
  rw [State.rd_wr_off _ _ (show y.off ≠ R.MBX_SUMMARY_OUT_FULL.off from hy),
    State.rd_wr_off _ _ (show y.off ≠ R.MBX_SUMMARY_IN_FULL.off from hy)]

theorem State.mbSummary_flag {y : Fld} (hy : y.off ≠ 0x20800) : s.mbSummary.flag y = s.flag y := by
  unfold State.flag
  rw [State.mbSummary_rd hy]

@[simp] theorem State.mbSummary_mbCh (k : Nat) : s.mbSummary.mbCh k = s.mbCh k := (rfl)
@[simp] theorem State.wakeVector_mbCh (fn v k : Nat) : (s.wakeVector fn v).mbCh k = s.mbCh k := (rfl)
@[simp] theorem State.wakeVector_rd (fn v : Nat) (y : Fld) : (s.wakeVector fn v).rd y = s.rd y := (rfl)
@[simp] theorem State.mbSummary_out : s.mbSummary.out = s.out := (rfl)

theorem State.setMbCh_out (x : MbxCh) : (s.setMbCh c x).out = s.out := by
  unfold State.setMbCh
  rw [State.wr_out]

/-- A change of a channel writes OUT_QUEUED alone. -/
theorem State.rd_setMbCh_apart (x : MbxCh) {y : Fld} (hy : y.Apart (mbQueued c)) : (s.setMbCh c x).rd y = s.rd y :=
  State.rd_wr_apart _ _ (show 16 + 4 ≤ 32 by decide) hy

/-- The inbound slot emptied by the processor, which the host learns of by the vector it asked for. -/
def State.mbEmptied (s : State) (c : Nat) : State :=
  let t := (((s.wrB (mbInFull c) false).wrB (mbDamaged c) false).wr (mbRun c) 0).mbSummary
  let t := t.setMbCh c { t.mbCh c with read := true }
  if t.flag (mbEmptyIe c) then t.wakeVector 0 (mbVector c) else t

theorem State.mbTake_eq : s.mbTake c = if s.flag (mbDamaged c) then (s.mbEmptied c).mbReply c ((s.mbMessage c).headD 0) 3 []
    else if mbRsp ((s.mbMessage c).headD 0) || !mbKnown c (mbCode ((s.mbMessage c).headD 0)) then
      (s.mbEmptied c).mbReply c ((s.mbMessage c).headD 0) 1 []
    else (s.mbEmptied c).setMbCh c { (s.mbEmptied c).mbCh c with inHand := some (s.mbMessage c) } := by
  unfold State.mbTake State.mbEmptied
  rfl

theorem State.mbEmptied_mbCh : (s.mbEmptied c).mbCh c = { s.mbCh c with read := true } := by
  unfold State.mbEmptied
  dsimp only
  simp only [apply_ite (State.mbCh · c), State.wakeVector_mbCh, State.mbCh_setMbCh_same, State.mbSummary_mbCh, State.wr_mbCh,
    State.wrB_mbCh, ite_self]

/-- What the emptied slot shows in any register but OUT_QUEUED's. -/
theorem State.mbEmptied_rd {k lo w : Nat} (hk : k < 0x100) (hne : k ≠ 0x80) : (s.mbEmptied c).rd ⟨mbBase c + k, lo, w⟩ =
    (((s.wrB (mbInFull c) false).wrB (mbDamaged c) false).wr (mbRun c) 0).rd ⟨mbBase c + k, lo, w⟩ := by
  have apart : mbBase c + k ≠ mbBase c + 0x80 := by omega
  unfold State.mbEmptied
  dsimp only
  split
  · rw [State.wakeVector_rd, State.rd_setMbCh _ _ _ apart, State.mbSummary_rd (mbBase_add_ne_summary c hk)]
  · rw [State.rd_setMbCh _ _ _ apart, State.mbSummary_rd (mbBase_add_ne_summary c hk)]

theorem State.mbEmptied_inFull : (s.mbEmptied c).flag (mbInFull c) = false := by
  rw [State.flag, mbInFull, State.mbEmptied_rd (by decide) (by decide),
    State.rd_wr_off _ _ (show mbBase c + 0x84 ≠ mbBase c + 0x80 by omega), ← State.flag]
  exact (congrArg (· != 0) (State.rd_wr_apart _ _ (show 1 + 1 ≤ 32 by decide) (.inr (.inl (show 0 + 1 ≤ 1 by decide))))).trans
    (State.flag_wrB_same _ _ (show 0 + 1 ≤ 32 by decide) (show 0 < 1 by decide))

theorem State.mbEmptied_damaged : (s.mbEmptied c).flag (mbDamaged c) = false := by
  rw [State.flag, mbDamaged, State.mbEmptied_rd (by decide) (by decide),
    State.rd_wr_off _ _ (show mbBase c + 0x84 ≠ mbBase c + 0x80 by omega), ← State.flag]
  exact State.flag_wrB_same _ _ (show 1 + 1 ≤ 32 by decide) (show 0 < 1 by decide)

theorem State.headD_mbMessage : (s.mbMessage c).headD 0 = s.rd (mbIn c 0) := by
  unfold State.mbMessage
  rw [List.range_succ_eq_map]
  rfl

/-! #### A reply (R345) -/

theorem mbHeader_code {code len status tag : Nat} {rsp : Bool} (hlen : len < 16) (hst : status < 8) (htag : tag < 2 ^ 16) :
    mbCode (mbHeader code len rsp status tag) = code := by
  unfold mbCode mbHeader
  cases rsp <;> simp only [Bool.false_eq_true, if_true, if_false] <;> omega

theorem mbHeader_len {code len status tag : Nat} {rsp : Bool} (hlen : len < 16) (hst : status < 8) (htag : tag < 2 ^ 16) :
    mbLen (mbHeader code len rsp status tag) = len := by
  unfold mbLen mbHeader
  cases rsp <;> simp only [Bool.false_eq_true, if_true, if_false] <;> omega

theorem mbHeader_rsp {code len status tag : Nat} (hst : status < 8) (htag : tag < 2 ^ 16) :
    mbRsp (mbHeader code len true status tag) = true := by
  unfold mbRsp mbHeader
  simp only [if_true, beq_iff_eq]
  omega

theorem mbHeader_status {code len status tag : Nat} {rsp : Bool} (hst : status < 8) (htag : tag < 2 ^ 16) :
    mbHeader code len rsp status tag / 2 ^ 16 % 8 = status := by
  unfold mbHeader
  cases rsp <;> simp only [Bool.false_eq_true, if_true, if_false] <;> omega

theorem mbHeader_tag {code len status tag : Nat} {rsp : Bool} (htag : tag < 2 ^ 16) :
    mbTag (mbHeader code len rsp status tag) = tag := by
  unfold mbTag mbHeader
  cases rsp <;> simp only [Bool.false_eq_true, if_true, if_false] <;> omega

theorem mbTag_lt (d0 : Nat) : mbTag d0 < 2 ^ 16 := Nat.mod_lt _ (by decide)

/-- A reply with room in the queue: its header repeats the request's code and tag, and it has a payload only with status OK. -/
theorem State.mbReply_queue {d0 status : Nat} {p : List Nat} (hst : status < 8) (hp : p.length ≤ 15) (hroom : (s.mbCh c).queue.length < 8) :
    ∃ h q, ((s.mbReply c d0 status p).mbCh c).queue = (s.mbCh c).queue ++ [(false, h :: q)] ∧ mbCode h = mbCode d0 ∧ mbTag h = mbTag d0 ∧
      mbRsp h = true ∧ mbLen h = q.length ∧ h / 2 ^ 16 % 8 = status ∧ q = if status = 0 then p else [] := by
  have short : (if status = 0 then p else []).length < 16 := by
    split
    · omega
    · decide
  refine ⟨_, _, ?_, mbHeader_code short hst (mbTag_lt d0), mbHeader_tag (mbTag_lt d0), mbHeader_rsp hst (mbTag_lt d0),
    mbHeader_len short hst (mbTag_lt d0), mbHeader_status hst (mbTag_lt d0), rfl⟩
  unfold State.mbReply
  rw [State.mbQueue_queue, if_pos hroom]

end

/-! #### The host's side -/

section
variable {s : State} {c : Fin 10}

theorem execMbxPost_empty {v : Word} (hv : s.pfVerdict (mbBase c.val) true = .ok) (hf : s.fuseFailed = false)
    (hempty : (s.wr (mbIn c.val 0) v.toNat).flag (mbInFull c.val) = false) :
    exec (.mbxPost c v) s = .next (((s.wr (mbIn c.val 0) v.toNat).wrB (mbInFull c.val) true).mbSummary) := by
  refine congrArg _ ((State.pfWrite_ok hv hf).trans ?_)
  dsimp only
  rw [hempty]
  rfl

theorem execMbxPost_full {v : Word} (hv : s.pfVerdict (mbBase c.val) true = .ok) (hf : s.fuseFailed = false)
    (hfull : (s.wr (mbIn c.val 0) v.toNat).flag (mbInFull c.val) = true) :
    exec (.mbxPost c v) s = .next (((s.wr (mbIn c.val 0) v.toNat).wrB (mbCollision c.val) true).wrB (mbDamaged c.val) true) := by
  refine congrArg _ ((State.pfWrite_ok hv hf).trans ?_)
  dsimp only
  rw [hfull]
  rfl

theorem execMbxWordWrite_empty {v : Word} {w : Fin 15} (hv : s.pfVerdict (mbBase c.val + 4 * (w.val + 1)) true = .ok)
    (hf : s.fuseFailed = false) (hempty : (s.wr (mbIn c.val (w.val + 1)) v.toNat).flag (mbInFull c.val) = false) :
    exec (.mbxWordWrite c w v) s = .next (s.wr (mbIn c.val (w.val + 1)) v.toNat) := by
  refine congrArg _ ((State.pfWrite_ok hv hf).trans ?_)
  dsimp only
  rw [hempty]
  rfl

theorem execMbxOutboundRead_ok {w : Fin 16} {off : Nat} (hoff : mbBase c.val + 0x40 + 4 * w.val = off) (hv : s.pfVerdict off true = .ok) :
    exec (.mbxOutboundRead c w) s = .next ((s.emit (.readReply 0 off (s.reg off))).mbReadOut c.val w.val) := by
  subst hoff
  show execMbxOutboundRead c w s = _
  unfold execMbxOutboundRead
  dsimp only
  rw [hv]

/-- A read of any word but the last changes nothing. -/
theorem State.mbReadOut_inner {w : Nat} (hw : s.rd (mbOutLen c.val) ≠ w) : s.mbReadOut c.val w = s := by
  unfold State.mbReadOut
  rw [if_neg fun h => hw h.2]

theorem State.mbReadOut_last {w : Nat} (hw : s.rd (mbOutLen c.val) = w) (hfull : s.flag (mbOutFull c.val) = true) :
    (s.mbReadOut c.val w).out = s.out ∧ (s.mbReadOut c.val w).flag (mbOutFull c.val) = false ∧
      (s.mbReadOut c.val w).rd (mbRun c.val) = 0 := by
  have summary : mbBase c.val + 0x80 ≠ 0x20800 := mbBase_add_ne_summary _ (by decide)
  unfold State.mbReadOut
  rw [if_pos ⟨hfull, hw⟩]
  refine ⟨?_, ?_, ?_⟩
  · rw [State.setMbCh_out, State.mbSummary_out, State.wr_out, State.wrB_out]
  · rw [State.flag, State.rd_setMbCh_apart _ (.inr (.inl (show 8 + 1 ≤ 16 by decide))), State.mbSummary_rd summary,
      State.rd_wr_apart _ _ (show 0 + 7 ≤ 32 by decide) (.inr (.inr (show 0 + 7 ≤ 8 by decide)))]
    exact State.flag_wrB_same _ _ (show 8 + 1 ≤ 32 by decide) (show 0 < 1 by decide)
  · rw [State.rd_setMbCh_apart _ (.inr (.inl (show 0 + 7 ≤ 16 by decide))), State.mbSummary_rd summary]
    exact State.rd_wr_same _ _ (show 0 + 7 ≤ 32 by decide)

end

/-! #### The processor's side -/

section
variable {s : State} {c : Fin 10}

theorem execMbxProcessorRead_idle (h : s.flag (mbInFull c.val) = false ∨ 8 ≤ mbReplies (s.mbCh c.val)) :
    exec (.mbxProcessorRead c) s = .next s := by
  refine congrArg _ (if_neg ?_)
  obtain h | h := h
  · simp [h]
  · simp [h]

theorem execMbxProcessorRead_take (hfull : s.flag (mbInFull c.val) = true) (hroom : mbReplies (s.mbCh c.val) < 8)
    (hhand : (s.mbCh c.val).inHand = none) : exec (.mbxProcessorRead c) s = .next (s.mbTake c.val) :=
  congrArg _ (if_pos (by simp [hfull, hroom, hhand]))

theorem State.mbTake_known {c : Nat} (hgood : s.flag (mbDamaged c) = false) (hreq : mbRsp (s.rd (mbIn c 0)) = false)
    (hknown : mbKnown c (mbCode (s.rd (mbIn c 0))) = true) :
    ((s.mbTake c).mbCh c).inHand = some (s.mbMessage c) ∧ ((s.mbTake c).mbCh c).queue = (s.mbCh c).queue ∧
      (s.mbTake c).flag (mbInFull c) = false := by
  rw [State.mbTake_eq, if_neg (by rw [hgood]; decide), State.headD_mbMessage, if_neg (by simp [hreq, hknown]), State.mbEmptied_mbCh,
    State.mbCh_setMbCh_same]
  refine ⟨rfl, rfl, ?_⟩
  rw [State.flag, State.rd_setMbCh _ _ _ (show mbBase c + 0x84 ≠ mbBase c + 0x80 by omega)]
  exact State.mbEmptied_inFull

theorem State.mbTake_damaged {c : Nat} (hbad : s.flag (mbDamaged c) = true) (hempty : (s.mbCh c).queue = []) (hhand : (s.mbCh c).inHand = none) :
    ((s.mbTake c).mbCh c).inHand = none ∧
      ((s.mbTake c).mbCh c).queue = [(false, [mbHeader (mbCode (s.rd (mbIn c 0))) 0 true 3 (mbTag (s.rd (mbIn c 0)))])] ∧
      (s.mbTake c).flag (mbInFull c) = false ∧ (s.mbTake c).flag (mbDamaged c) = false := by
  have apart : mbBase c + 0x84 ≠ mbBase c + 0x80 := by omega
  have room : ((s.mbEmptied c).mbCh c).queue.length < 8 := by
    rw [State.mbEmptied_mbCh]
    exact (congrArg List.length hempty).trans_lt (by decide)
  rw [State.mbTake_eq, if_pos hbad, State.headD_mbMessage, State.mbReply, State.mbQueue_room room, State.mbCh_setMbCh_same,
    State.mbEmptied_mbCh, State.flag, State.flag, State.rd_setMbCh _ _ _ apart, State.rd_setMbCh _ _ _ apart]
  exact ⟨hhand, by rw [hempty]; rfl, State.mbEmptied_inFull, State.mbEmptied_damaged⟩

theorem execMbxReplyPost_idle (h : (s.mbCh c.val).queue = [] ∨ s.flag (mbOutFull c.val) = true) : exec (.mbxReplyPost c) s = .next s := by
  show Host.Outcome.next (s.mbPostOut c.val) = _
  unfold State.mbPostOut
  dsimp only
  split
  · rfl
  · next hq =>
    obtain h | h := h
    · rw [h] at hq
      exact absurd hq (by simp)
    · rw [if_pos h]

/-- The words of a message written to the outbound registers from word `n` on. -/
def State.putOut (s : State) (c : Nat) (m : List Nat) (n : Nat) : State :=
  (m.zipIdx n).foldl (fun s q => s.wr (mbOut c q.2) q.1) s

theorem State.putOut_cons (s : State) (c x : Nat) (m : List Nat) (n : Nat) :
    s.putOut c (x :: m) n = (s.wr (mbOut c n) x).putOut c m (n + 1) := by
  unfold State.putOut
  rw [List.zipIdx_cons, List.foldl_cons]

theorem State.putOut_mbCh (s : State) (c : Nat) (m : List Nat) (n k : Nat) : (s.putOut c m n).mbCh k = s.mbCh k := by
  induction m generalizing s n with
  | nil => rfl
  | cons x m ih => rw [State.putOut_cons, ih, State.wr_mbCh]

theorem State.putOut_rd_below (s : State) (c : Nat) (m : List Nat) {n w : Nat} (hw : w < n) :
    (s.putOut c m n).rd (mbOut c w) = s.rd (mbOut c w) := by
  induction m generalizing s n with
  | nil => rfl
  | cons x m ih =>
    rw [State.putOut_cons, ih _ (by omega), State.rd_wr_off]
    simp only [mbOut]
    omega

theorem State.putOut_rd (s : State) (c : Nat) {m : List Nat} {n w x : Nat} (hx : m[w]? = some x) :
    (s.putOut c m n).rd (mbOut c (n + w)) = x % 2 ^ 32 := by
  induction m generalizing s n w with
  | nil => exact absurd hx (by simp)
  | cons y m ih =>
    rw [State.putOut_cons]
    cases w with
    | zero =>
      obtain rfl : y = x := by simpa using hx
      rw [State.putOut_rd_below _ _ _ (by omega)]
      exact State.rd_wr_same _ _ (show 0 + 32 ≤ 32 by decide)
    | succ w =>
      rw [show n + (w + 1) = n + 1 + w by omega]
      exact ih _ (by simpa using hx)

/-- The outbound slot filled with a message, before the host learns of it. -/
def State.mbFilled (s : State) (c : Nat) (m : List Nat) : State :=
  (((s.putOut c m 0).wrB (mbOutFull c) true).wr (mbOutLen c) (mbLen (m.headD 0))).mbSummary

theorem State.mbPostOut_eq {c : Nat} {n : Bool} {m : List Nat} {l : List (Bool × List Nat)} (hempty : s.flag (mbOutFull c) = false)
    (hq : (s.mbCh c).queue = (n, m) :: l) : ∃ t, (t = (s.setMbCh c { s.mbCh c with queue := l }).mbFilled c m ∨
      t = ((s.setMbCh c { s.mbCh c with queue := l }).mbFilled c m).wakeVector 0 (mbVector c)) ∧ s.mbPostOut c = t := by
  refine ⟨_, ?_, rfl⟩
  unfold State.mbPostOut
  simp only [hq, hempty, Bool.false_eq_true, if_false]
  split
  · exact .inr rfl
  · exact .inl rfl

theorem execMbxReplyPost_fills {n : Bool} {m : List Nat} {l : List (Bool × List Nat)} (hempty : s.flag (mbOutFull c.val) = false)
    (hq : (s.mbCh c.val).queue = (n, m) :: l) (hlen : m.length ≤ 16) :
    ∃ t, exec (.mbxReplyPost c) s = .next t ∧ (t.mbCh c.val).queue = l ∧ t.flag (mbOutFull c.val) = true ∧
      t.rd (mbOutLen c.val) = mbLen (m.headD 0) ∧ ∀ w x, m[w]? = some x → t.rd (mbOut c.val w) = x % 2 ^ 32 := by
  generalize hu : s.setMbCh c.val { s.mbCh c.val with queue := l } = u
  have queue : (u.mbCh c.val).queue = l := by rw [← hu, State.mbCh_setMbCh_same]
  have summary : mbBase c.val + 0x80 ≠ 0x20800 := mbBase_add_ne_summary _ (by decide)
  have filled : ((u.mbFilled c.val m).mbCh c.val).queue = l ∧ (u.mbFilled c.val m).flag (mbOutFull c.val) = true ∧
      (u.mbFilled c.val m).rd (mbOutLen c.val) = mbLen (m.headD 0) ∧
      ∀ w x, m[w]? = some x → (u.mbFilled c.val m).rd (mbOut c.val w) = x % 2 ^ 32 := by
    unfold State.mbFilled
    refine ⟨?_, ?_, ?_, fun w x hx => ?_⟩
    · rw [State.mbSummary_mbCh, State.wr_mbCh, State.wrB_mbCh, State.putOut_mbCh, queue]
    · rw [State.mbSummary_flag summary, State.flag,
        State.rd_wr_apart _ _ (show 20 + 4 ≤ 32 by decide) (.inr (.inl (show 8 + 1 ≤ 20 by decide)))]
      exact State.flag_wrB_same _ _ (show 8 + 1 ≤ 32 by decide) (show 0 < 1 by decide)
    · rw [State.mbSummary_rd summary]
      exact (State.rd_wr_same _ _ (show 20 + 4 ≤ 32 by decide)).trans (Nat.mod_eq_of_lt (Nat.mod_lt _ (by decide)))
    · have hw : w < 16 := lt_of_lt_of_le (List.getElem?_eq_some_iff.mp hx).1 hlen
      have apart : mbBase c.val + 0x40 + 4 * w ≠ mbBase c.val + 0x80 := by omega
      have free : mbBase c.val + 0x40 + 4 * w ≠ 0x20800 := by
        rw [Nat.add_assoc]
        exact mbBase_add_ne_summary _ (by omega)
      rw [State.mbSummary_rd free, State.rd_wr_off _ _ apart, State.wrB, State.rd_wr_off _ _ apart]
      simpa using State.putOut_rd u c.val (n := 0) hx
  obtain ⟨t, ht, hpost⟩ := State.mbPostOut_eq hempty hq
  rw [hu] at ht
  refine ⟨t, congrArg _ hpost, ?_⟩
  obtain rfl | rfl := ht
  · exact filled
  · simpa only [State.wakeVector_mbCh, State.flag, State.wakeVector_rd] using filled

/-! #### Crossings and the requests of the normal channels -/

theorem FaultTouches.logFault (s : State) (m : FaultMsg) : FaultTouches s (s.logFault m) := by
  by_cases hroom : s.flt.loggedTick = s.tick → s.flt.logged < 64
  · obtain ⟨n, heq⟩ := State.logFault_eq (m := m) hroom
    rw [heq]
    refine FaultTouches.trans ?_ (FaultTouches.wr _ _ _)
    refine FaultTouches.trans (t := s.entered m n) ?_ ?_
    · unfold State.entered
      dsimp only
      refine FaultTouches.trans ?_ (FaultTouches.of_mesh (MeshTouches.faultReport _ _ _))
      split
      · exact (FaultTouches.modFlt s _).trans (FaultTouches.raise _ _ _ _)
      · exact FaultTouches.modFlt s _
    · unfold State.pinStep
      split
      · exact (FaultTouches.modFlt _ _).trans (FaultTouches.touchPin _)
      · exact FaultTouches.pinFault _ _
  · obtain ⟨htick, hfull⟩ := Classical.not_imp.mp hroom
    rw [State.logFault_full htick (Nat.not_lt.mp hfull)]
    exact FaultTouches.wr _ _ _

theorem FaultTouches.faultAction (s : State) (m : FaultMsg) : FaultTouches s (s.faultAction m) := by
  unfold State.faultAction
  split
  case h_1 => exact FaultTouches.refl s
  case h_2 =>
    split
    · exact FaultTouches.modFlt s _
    · exact FaultTouches.refl s
  case h_3 => exact FaultTouches.modFlt s _
  case h_4 => exact FaultTouches.modFlt s _

theorem FaultTouches.latchIf (s : State) (b : Bool) (k : Nat) : FaultTouches s (if b then s.latchAlert k else s) := by
  cases b with
  | true => exact FaultTouches.wr s _ _
  | false => exact FaultTouches.refl s

theorem FaultTouches.sendFault (s : State) (m : FaultMsg) : FaultTouches s (s.sendFault m) := by
  unfold State.sendFault
  dsimp only
  split
  · exact FaultTouches.refl s
  · split
    · exact rfl
    · split
      · exact (FaultTouches.latchIf _ _ _).trans (FaultTouches.logFault _ _)
      · exact (FaultTouches.faultAction s m).trans ((FaultTouches.latchIf _ _ _).trans (FaultTouches.logFault _ _))

theorem execMbxCrossing_none (h : s.rd (mbRun c.val) < 64) : exec (.mbxCrossing c) s = .next s := congrArg _ (if_pos h)

theorem execMbxCrossing_room (h : 64 ≤ s.rd (mbRun c.val)) (hroom : (s.mbCh c.val).queue.length < 8) : exec (.mbxCrossing c) s = .next
    ((((s.sendFault ⟨0x010, 0x03, 2, false, c.val, s.tick⟩).mbTake c.val).wr (mbRun c.val) 0).raise 0x0d01 c.val [.w 0]) := by
  have same : (s.sendFault ⟨0x010, 0x03, 2, false, c.val, s.tick⟩).mbCh c.val = s.mbCh c.val := by
    rw [State.mbCh, (FaultTouches.sendFault s _).mbx]
    rfl
  refine congrArg _ ((if_neg (Nat.not_lt.mpr h)).trans (if_pos ?_))
  rwa [same]

variable {p : Fin 8} {m : List Nat}

theorem State.mbHandle_known {k code : Nat} (hhand : (s.mbCh k).inHand = some m) (hmute : (s.mbCh k).mute = false)
    (hcode : mbCode (m.headD 0) = code) {act : List Nat → State → State × Nat × List Nat} {st : Nat} {q : List Nat}
    (hact : act (m.drop 1) (s.setMbCh k { s.mbCh k with inHand := none, mute := false }) =
      (s.setMbCh k { s.mbCh k with inHand := none, mute := false }, st, q)) :
    s.mbHandle k code act = (s.setMbCh k { s.mbCh k with inHand := none, mute := false }).mbReply k (m.headD 0) st q := by
  unfold State.mbHandle
  simp only [hhand, hcode, ne_eq, not_true_eq_false, if_false, hact, hmute, Bool.false_eq_true]

end

/-- Settles O29, register by register and message by message. -/
theorem mailboxCommands : Obligations.MailboxCommands := by
  refine ⟨fun s c v => ⟨fun hv hf => ⟨execMbxPost_empty hv hf, execMbxPost_full hv hf⟩, fun w hv hf => execMbxWordWrite_empty hv hf,
    fun w off hoff hv => ⟨fun hw => ?inner, fun hw hfull => ?last⟩, fun h => execMbxProcessorRead_idle (.inl h),
    fun h => execMbxProcessorRead_idle (.inr h), fun hfull hroom hhand hgood hreq hknown => ?known,
    fun hfull hempty hhand hbad => ?damaged, fun h => execMbxReplyPost_idle (.inl h), fun h => execMbxReplyPost_idle (.inr h),
    fun n m l hempty hq hlen => execMbxReplyPost_fills hempty hq hlen, execMbxCrossing_none, execMbxCrossing_room,
    fun p m hhand hmute => ⟨fun hcode => ?ping, fun hcode hnil => ?info, fun hcode hne => ?malformed⟩, fun p l hen hne hlen => ?text⟩,
    fun s c d0 status p _ _ hst hp hroom => State.mbReply_queue hst hp hroom⟩
  case inner => rw [execMbxOutboundRead_ok hoff hv, State.mbReadOut_inner (by rwa [State.emit_rd])]
  case last =>
    obtain ⟨out, full, run⟩ := State.mbReadOut_last (c := c) (s := s.emit (.readReply 0 off (s.reg off))) (w := w.val)
      (by rwa [State.emit_rd]) (by rwa [State.emit_flag])
    exact ⟨_, execMbxOutboundRead_ok hoff hv, out, full, run⟩
  case known => exact ⟨_, execMbxProcessorRead_take hfull hroom hhand, State.mbTake_known hgood hreq hknown⟩
  case damaged =>
    have room : mbReplies (s.mbCh c.val) < 8 := by
      rw [mbReplies, hempty]
      decide
    exact ⟨_, execMbxProcessorRead_take hfull room hhand, State.mbTake_damaged hbad hempty hhand⟩
  case ping => exact congrArg _ (State.mbHandle_known hhand hmute hcode rfl)
  case info => exact congrArg _ (State.mbHandle_known hhand hmute hcode (by rw [hnil]; rfl))
  case malformed => exact congrArg _ (State.mbHandle_known hhand hmute hcode (if_neg (by rwa [List.isEmpty_iff])))
  case text => exact congrArg _ (if_pos (by simp [hen, hne, hlen]))

end Sys2Proof.Machine

/-! ### The board controller's port (R463, Table PWR-5) -/

namespace Sys2Proof.Machine

/-! #### Quotients with an open rounding -/

theorem State.wholeUnits_exact (s : State) {num den : Nat} (h : num % den = 0) : s.wholeUnits num den = (num / den, s) := if_pos h

/-- The quotient is one of the two whole units next to it. -/
theorem State.wholeUnits_near (s : State) (num : Nat) {den : Nat} (hden : 0 < den) :
    (s.wholeUnits num den).1 ≤ num / den + 1 ∧ (s.wholeUnits num den).1 * den < num + den ∧
      num < (s.wholeUnits num den).1 * den + den := by
  have parts : num / den * den + num % den = num := Nat.div_add_mod' num den
  have low : num % den < den := Nat.mod_lt _ hden
  unfold State.wholeUnits
  split
  case isTrue exact => exact ⟨Nat.le_succ _, by simp only; omega, by simp only; omega⟩
  case isFalse inexact =>
    have parity : (Config.free s.freeCtr) % 2 = 0 ∨ (Config.free s.freeCtr) % 2 = 1 := by omega
    obtain even | odd := parity
    · simp only [State.fresh, even, Nat.add_zero]
      exact ⟨Nat.le_succ _, by omega, by omega⟩
    · simp only [State.fresh, odd, add_mul, one_mul]
      exact ⟨le_rfl, by omega, by omega⟩

/-- The finest of the 32 exponents whose mantissa fits, when the coarsest does. -/
theorem exists_linear11_exponent {fits : Nat → Bool} (h : fits 31 = true) :
    ((List.range 32).find? fits).getD 31 < 32 ∧ fits (((List.range 32).find? fits).getD 31) = true := by
  cases hfind : (List.range 32).find? fits with
  | none => exact ⟨by decide, h⟩
  | some n => exact ⟨List.mem_range.mp (List.mem_of_find?_eq_some hfind), List.find?_some hfind⟩

theorem linear11_near {s t : State} {num : Int} {den v : Nat} (hden : 0 < den) (hfit : num.natAbs * 2 ^ 16 / (den * 2 ^ 31) ≤ 1022)
    (h : linear11 s num den = (v, t)) :
    ∃ (n m : Nat), n < 32 ∧ m ≤ 1023 ∧ v = (n + 16) % 32 * 2048 + ofSigned 11 (if num < 0 then -(m : Int) else m) ∧
      m * (den * 2 ^ n) < num.natAbs * 2 ^ 16 + den * 2 ^ n ∧ num.natAbs * 2 ^ 16 < m * (den * 2 ^ n) + den * 2 ^ n := by
  obtain ⟨lt, fit⟩ := exists_linear11_exponent (fits := fun n => decide (num.natAbs * 2 ^ 16 / (den * 2 ^ n) ≤ 1022))
    (decide_eq_true hfit)
  unfold linear11 at h
  dsimp only at h
  generalize ((List.range 32).find? fun n => decide (num.natAbs * 2 ^ 16 / (den * 2 ^ n) ≤ 1022)).getD 31 = n at h lt fit
  obtain ⟨top, above, below⟩ := s.wholeUnits_near (num.natAbs * 2 ^ 16) (den := den * 2 ^ n) (by positivity)
  have le := of_decide_eq_true fit
  obtain ⟨rfl, -⟩ := Prod.mk.inj h
  exact ⟨n, _, lt, by omega, by rw [show n + 32 - 16 = n + 16 by omega], above, below⟩

section
variable {s : State}

theorem State.pmbus_off (act : State → State) (h : s.boot.pwrOk = false) : s.pmbus act = s := if_neg (by rw [h]; decide)

theorem State.pmbus_on (act : State → State) (h : s.boot.pwrOk = true) : s.pmbus act = act s := if_pos h

end

/-! #### The refresh of the telemetry -/

section
variable {s : State}

/-- The measured voltages of the eight rails, written to their registers. -/
def State.putAvsMeas (s : State) (volt : Tab Int) : State :=
  (List.range 8).foldl (fun s r => s.wr (R.PWR_AVS_MEAS r) (Tab.get (fun _ => 0) volt r).toNat) s

theorem State.putAvsMeas_pow (volt : Tab Int) : (s.putAvsMeas volt).pow = s.pow := by
  unfold State.putAvsMeas
  exact List.foldlRecOn (motive := fun t : State => t.pow = s.pow) _ _ rfl
    fun t ht r _ => by rw [State.wr_pow, ht]

theorem State.putAvsMeas_rd (volt : Tab Int) {r : Nat} (hr : r < 8) :
    (s.putAvsMeas volt).rd (R.PWR_AVS_MEAS r) = (Tab.get (fun _ => 0) volt r).toNat % 2 ^ (R.PWR_AVS_MEAS r).w := by
  unfold State.putAvsMeas
  refine foldl_of_mem (Q := fun _ => True)
    (P := fun t : State => t.rd (R.PWR_AVS_MEAS r) = (Tab.get (fun _ => 0) volt r).toNat % 2 ^ (R.PWR_AVS_MEAS r).w) (fun _ _ _ => trivial) (fun t _ => ?own) (fun t j hj ht => ?other) (List.mem_range.mpr hr)
    trivial
  case own => exact State.rd_wr_same _ _ (show 16 + 11 ≤ 32 by decide)
  case other =>
    rw [State.rd_wr_off, ht]
    simp only [R.PWR_AVS_MEAS]
    omega

theorem Tab.get_map_pair {α : Type} (d g : Nat → α) {l : List Nat} {r : Nat} (hr : r ∈ l) :
    Tab.get d (l.map fun p => (p, g p)) r = g r := by
  induction l with
  | nil => cases hr
  | cons p l ih =>
    rw [List.map_cons, Tab.get]
    split
    case isTrue same => rw [same]
    case isFalse other => exact ih ((List.mem_cons.mp hr).resolve_left other)

theorem execTelemetryRefresh_eq : ∃ u : State, exec .telemetryRefresh s = .next (u.putAvsMeas
    ((List.range 14).map fun p => (p, s.rdS (R.MON_RES_VALUE (0x34 + p))))) ∧
    u.pow.tele.volt = (List.range 14).map fun p => (p, s.rdS (R.MON_RES_VALUE (0x34 + p))) :=
  ⟨_, rfl, rfl⟩

theorem execTelemetryRefresh_reads : ∃ t, exec .telemetryRefresh s = .next t ∧
    ∀ r, r < 8 → s.rdS (R.MON_RES_VALUE (0x34 + r)) = ((s.rd (R.MON_RES_VALUE (0x34 + r)) : Nat) : Int) →
      t.rd (R.PWR_AVS_MEAS r) = s.rd (R.MON_RES_VALUE (0x34 + r)) % 2 ^ (R.PWR_AVS_MEAS r).w ∧
      t.teleVolt r = s.rd (R.MON_RES_VALUE (0x34 + r)) := by
  obtain ⟨u, hexec, hvolt⟩ := execTelemetryRefresh_eq (s := s)
  refine ⟨_, hexec, fun r hr hpos => ?_⟩
  have own := Tab.get_map_pair (fun _ => 0) (fun p => s.rdS (R.MON_RES_VALUE (0x34 + p))) (List.mem_range.mpr (show r < 14 by omega))
  rw [State.putAvsMeas_rd _ hr, State.teleVolt, State.putAvsMeas_pow, hvolt, own, hpos]
  exact ⟨rfl, rfl⟩

end

/-! #### The commands -/

section
variable {s : State}

theorem execPmbus_silent (off : s.boot.pwrOk = false) (p : Fin 256) : exec (.pmbusPageWrite p) s = .next s ∧ exec .pmbusPageRead s = .next s ∧
    exec .pmbusVoutMode s = .next s ∧ exec .pmbusStatusWord s = .next s ∧ exec .pmbusStatusCml s = .next s ∧
    exec .pmbusReadVout s = .next s ∧ exec .pmbusReadIout s = .next s ∧ exec .pmbusReadTemperature1 s = .next s ∧
    exec .pmbusReadPout s = .next s ∧ exec .pmbusMfrSpecific00 s = .next s ∧ exec .pmbusMfrSpecific01 s = .next s ∧
    exec .pmbusUnsupported s = .next s := by
  have silent : ∀ act, (Host.Outcome.next (s.pmbus act) : Host.Outcome State Fault Refusal) = .next s :=
    fun act => congrArg _ (State.pmbus_off act off)
  exact ⟨silent _, silent _, silent _, silent _, silent _, silent _, silent _, silent _, silent _, silent _, silent _, silent _⟩

variable (on : s.boot.pwrOk = true)
include on

/-- What a command does once the port answers. -/
theorem State.pmbus_next {act : State → State} {t : State} (h : act s = t) :
    (Host.Outcome.next (s.pmbus act) : Host.Outcome State Fault Refusal) = .next t := by
  rw [State.pmbus_on act on, h]

theorem execPmbusReadVout_page {mv : Nat} (hpage : s.pow.page < 14) (hmv : s.teleVolt s.pow.page = mv) (hexact : mv * 4096 % 1000 = 0) :
    exec .pmbusReadVout s = .next (s.emit (.pmbusReply (mv * 4096 / 1000 % 2 ^ 16) 2)) := by
  refine State.pmbus_next on ?_
  rw [if_neg (by omega), hmv, Int.toNat_natCast, State.wholeUnits_exact s hexact]

theorem execPmbusMfrSpecific00_page (hpage : s.pow.page < 8) (hexact : s.rd (R.PWR_AVS_TGT s.pow.page) * 4096 % 1000 = 0) :
    exec .pmbusMfrSpecific00 s = .next (s.emit (.pmbusReply (s.rd (R.PWR_AVS_TGT s.pow.page) * 4096 / 1000) 2)) := by
  refine State.pmbus_next on ?_
  rw [if_neg (by omega), State.wholeUnits_exact s hexact]

end

/-- Settles O24, command by command. -/
theorem boardController : Obligations.BoardController := by
  refine ⟨fun s => ⟨execPmbus_silent, fun on => ⟨fun p hp => State.pmbus_next on (if_pos hp),
    fun p hp => State.pmbus_next on (if_neg (by omega)),
    State.pmbus_next on rfl, State.pmbus_next on rfl, State.pmbus_next on rfl, State.pmbus_next on rfl,
    fun hpage => State.pmbus_next on (if_pos hpage), fun mv => execPmbusReadVout_page on, fun i v t hi hv => State.pmbus_next on ?iout,
    fun v t hv => State.pmbus_next on ?temperature, fun v t hpage hv => State.pmbus_next on ?pout, execPmbusMfrSpecific00_page on,
    fun hpage => State.pmbus_next on (if_pos hpage), State.pmbus_next on rfl, State.pmbus_next on rfl⟩, execTelemetryRefresh_reads⟩,
    fun s t num den v hden hfit h => linear11_near hden hfit h⟩
  case iout =>
    dsimp only
    rw [hi, hv]
  case temperature =>
    dsimp only
    rw [hv]
  case pout =>
    dsimp only
    rw [if_neg (by omega), hv]

end Sys2Proof.Machine

/-! ### Rings, tenant ranges and function resets (R310, R314, R337, R338) -/

namespace Sys2Proof.Machine

theorem next_congr {s t : State} (h : s = t) : (Host.Outcome.next s : Host.Outcome State Fault Refusal) = .next t := congrArg _ h

/-! #### Rings -/

section
variable {s : State} {fn : Fin 256} {r : Fin 5}

theorem execRingEnable_latches (hp : s.fnPresent fn.val = true) (hr : r.val < 4) (hoff : s.ringOn fn.val r.val = false) {n : Nat}
    (hn : s.rd (R.HST_RING_CFG_LOG2SIZE fn.val r.val) = n) (hlow : 4 ≤ n) (hhigh : n ≤ 16) :
    exec (.ringEnable fn r) s = .next ((((s.setRing fn.val r.val {
      crBase := s.baseOf (R.HST_CR_BASE_LO_BASE_LO fn.val r.val) (R.HST_CR_BASE_HI_ADDR_HI fn.val r.val)
      cqBase := s.baseOf (R.HST_CQ_BASE_LO_BASE_LO fn.val r.val) (R.HST_CQ_BASE_HI_ADDR_HI fn.val r.val), log2 := n }).wr
      (R.HST_CR_FETCHED_COUNT fn.val r.val) 0).wr (R.HST_CQ_WRITTEN_COUNT fn.val r.val) 0).setBits (R.HST_FN_CTL_CR_EN fn.val)
      (2 ^ r.val)) := by
  subst hn
  refine congrArg _ ((if_neg (by simp [hp])).trans ((if_pos hr).trans ((if_neg (by simp [hoff])).trans (if_neg ?_))))
  exact not_or.mpr ⟨Nat.not_lt.mpr hlow, Nat.not_lt.mpr hhigh⟩

theorem execRingEnable_long (hp : s.fnPresent fn.val = true) (hr : r.val < 4) (hoff : s.ringOn fn.val r.val = false)
    (hhigh : 16 < s.rd (R.HST_RING_CFG_LOG2SIZE fn.val r.val)) : exec (.ringEnable fn r) s = .next (s.fnError fn.val 0x400) :=
  congrArg _ ((if_neg (by simp [hp])).trans ((if_pos hr).trans ((if_neg (by simp [hoff])).trans (if_pos (.inr hhigh)))))

theorem execRingEnable_event_short (hp : s.fnPresent fn.val = true) (hoff : s.eqOn fn.val = false)
    (hlow : s.rd (R.HST_EQ_CFG_LOG2SIZE fn.val) < 4) : exec (.ringEnable fn 4) s = .next (s.fnError fn.val 0x400) :=
  congrArg _ ((if_neg (by simp [hp])).trans ((if_neg (by decide)).trans ((if_neg (by simp [hoff])).trans (if_pos (.inl hlow)))))

theorem execRingEnable_again (hp : s.fnPresent fn.val = true) (hr : r.val < 4) (hon : s.ringOn fn.val r.val = true) :
    exec (.ringEnable fn r) s = .next s :=
  congrArg _ ((if_neg (by simp [hp])).trans ((if_pos hr).trans (if_pos hon)))

/-- Taking the bit of an enabled ring out of the four enable bits leaves it 0. -/
theorem enable_bit_cleared {en k : Nat} (hlt : en < 16) (hk : k < 4) (hbit : en / 2 ^ k % 2 = 1) : (en - 2 ^ k) % 2 ^ 4 / 2 ^ k % 2 = 0 := by
  interval_cases k <;> omega

theorem State.rd_lt (s : State) (x : Fld) : s.rd x < 2 ^ x.w := Nat.mod_lt _ (by positivity)

theorem execRingDisable_on (hr : r.val < 4) (hon : s.ringOn fn.val r.val = true) : ∃ t, exec (.ringDisable fn r) s = .next t ∧
    t.ringOn fn.val r.val = false ∧ (∀ q, q ∈ t.host.requests ↔ q ∈ s.host.requests ∧ q.src ≠ .host fn.val r.val) ∧
    (∀ c, c ∈ t.host.done ↔ c ∈ s.host.done ∧ c.src ≠ .host fn.val r.val) := by
  have bit : s.rd (R.HST_FN_CTL_CR_EN fn.val) / 2 ^ r.val % 2 = 1 := by simpa [State.ringOn] using hon
  refine ⟨_, next_congr ((if_pos hr).trans (if_pos hon)), ?_, fun q => ?_, fun c => ?_⟩
  · rw [State.ringOn, State.rd_wr_same _ _ (show 0 + 4 ≤ 32 by decide)]
    have cleared := enable_bit_cleared (State.rd_lt s _) hr bit
    exact beq_eq_false_iff_ne.mpr (by rw [show (R.HST_FN_CTL_CR_EN fn.val).w = 4 from rfl, cleared]; decide)
  · simp only [State.wr_host, State.withdrawRing, List.mem_filter, bne_iff_ne]
  · simp only [State.wr_host, State.withdrawRing, List.mem_filter, bne_iff_ne]

end

/-! #### Tenant ranges -/

section
variable {s : State} {fn base count : Nat}

theorem execTenantRangeWrite_eq {fn : Fin 256} {b : Fin 1024} {c : Fin 2048} (hfn : 0 < fn.val)
    (hv : s.pfVerdict (R.HST_FN_TENANT_BASE fn.val).off true = .ok) (hf : s.fuseFailed = false) :
    exec (.tenantRangeWrite fn b c) s = .next (if s.rangeOk fn.val b.val c.val then
      (s.wr (R.HST_FN_TENANT_BASE fn.val) b.val).wr (R.HST_FN_TENANT_COUNT fn.val) c.val else s.fnError fn.val 0x200) :=
  next_congr ((State.pfWrite_ok hv hf).trans (if_neg hfn.ne'))

/-- An accepted range lies in T0001 to T1023, beside every other VF's, and its function has no ring enabled (R310). -/
theorem State.rangeOk_spec (h : s.rangeOk fn base count = true) (hcount : 0 < count) :
    1 ≤ base ∧ base + count ≤ 1024 ∧ s.eqOn fn = false ∧ s.rd (R.HST_FN_CTL_CR_EN fn) = 0 ∧
      ∀ g t, 1 ≤ g → g < 256 → g ≠ fn → base ≤ t → t < base + count → s.inRange g t = false := by
  unfold State.rangeOk at h
  simp only [Bool.and_eq_true, Bool.or_eq_true, beq_iff_eq, decide_eq_true_eq, List.all_eq_true, List.mem_range, Bool.not_eq_true'] at h
  obtain ⟨⟨⟨bounds, free⟩, rings⟩, events⟩ := h
  obtain ⟨low, high⟩ := bounds.resolve_left (by omega)
  refine ⟨low, high, events, rings, fun g t hg hlt hne ht ht' => ?_⟩
  have apart := free (g - 1) (by omega)
  rw [Nat.sub_add_cancel hg] at apart
  unfold State.inRange
  generalize s.tenantRange g = range at apart
  simp only [Bool.and_eq_false_iff, decide_eq_false_iff_not]
  omega

end

/-! #### Function resets -/

/-- What a ring's disabling leaves: the function's record but for the events that wait, and every register but its enables' and the
records' counts. -/
structure RingDisableKeeps (fn : Nat) (s t : State) : Prop where
  vfEnabled : (t.fnState fn).vfEnabled = (s.fnState fn).vfEnabled
  regs : RegsBut [0x10000 + 0x100 * fn, 0x68, 0x6c] s t

namespace RingDisableKeeps

variable {fn : Nat} {s t u : State}

theorem refl (fn : Nat) (s : State) : RingDisableKeeps fn s s := ⟨rfl, fun _ _ => rfl⟩

theorem trans (h : RingDisableKeeps fn s t) (h' : RingDisableKeeps fn t u) : RingDisableKeeps fn s u :=
  ⟨h'.vfEnabled.trans h.vfEnabled, fun o ho => (h'.regs o ho).trans (h.regs o ho)⟩

theorem of_host (h : (t.fnState fn).vfEnabled = (s.fnState fn).vfEnabled) (hregs : t.regs = s.regs) : RingDisableKeeps fn s t :=
  ⟨h, fun o _ => by rw [State.reg, hregs, State.reg]⟩

theorem withdrawRing (fn r : Nat) (s : State) : RingDisableKeeps fn s (s.withdrawRing fn r) := of_host rfl rfl

theorem wr (s : State) (x : Fld) (v : Nat) (hx : x.off ∈ [0x10000 + 0x100 * fn, 0x68, 0x6c]) : RingDisableKeeps fn s (s.wr x v) :=
  ⟨rfl, fun _ ho => State.reg_wr_other s v fun e => ho (e ▸ hx)⟩

theorem dropRecords (fn g : Nat) (s : State) : RingDisableKeeps fn s (s.dropRecords g) := by
  unfold State.dropRecords State.pmBacklog
  dsimp only
  split
  · exact refl fn s
  · refine RingDisableKeeps.trans ?_ (wr _ _ _ (by simp [R.GLB_PM_BACKLOG_RECORDS]))
    refine RingDisableKeeps.trans ?_ (wr _ _ _ (by simp [R.GLB_PM_STAT_EXPORT_LOST]))
    exact ⟨rfl, fun _ _ => rfl⟩

theorem disableEvents (fn : Nat) (s : State) : RingDisableKeeps fn s (s.wrB (R.HST_FN_CTL_EQ_EN fn) false) :=
  wr s (R.HST_FN_CTL_EQ_EN fn) _ (by simp [R.HST_FN_CTL_EQ_EN])

theorem dropWaiting (fn : Nat) (s : State) : RingDisableKeeps fn s (s.modFn fn fun x => { x with waiting := [] }) := by
  refine of_host ?_ rfl
  rw [State.modFn, State.fnState_setFn_same]

theorem ringDisable (fn r : Nat) (s : State) : RingDisableKeeps fn s (s.ringDisable fn r) := by
  unfold State.ringDisable
  split
  · split
    · exact (withdrawRing fn r s).trans (wr _ (R.HST_FN_CTL_CR_EN fn) _ (by simp [R.HST_FN_CTL_CR_EN]))
    · exact refl fn s
  · split
    · exact (dropRecords fn fn s).trans ((disableEvents fn _).trans (dropWaiting fn _))
    · exact refl fn s

theorem ringsDisabled (fn : Nat) (s : State) : RingDisableKeeps fn s ((List.range 5).foldl (fun s r => s.ringDisable fn r) s) :=
  List.foldlRecOn (motive := RingDisableKeeps fn s) _ _ (refl fn s) fun _ ht r _ => ht.trans (ringDisable fn r _)

end RingDisableKeeps

section
variable {s : State} {fn g : Nat}

theorem State.flr_fnState : (s.flr fn).fnState fn = { vfEnabled := (s.fnState fn).vfEnabled } := by
  unfold State.flr
  dsimp only
  rw [State.fnState_setFn_same]
  exact congrArg (fun b => ({ vfEnabled := b } : FnState)) (RingDisableKeeps.ringsDisabled fn s).vfEnabled

/-- Registers outside a range keep their values when the range is reset. -/
theorem State.reg_resetRegs (s : State) {lo hi o : Nat} (ho : ¬(lo ≤ o ∧ o ≤ hi)) : (s.resetRegs lo hi).reg o = s.reg o := by
  unfold State.resetRegs State.reg
  dsimp only
  induction s.regs with
  | nil => rfl
  | cons p l ih =>
    obtain ⟨j, v⟩ := p
    by_cases hj : o = j
    · subst hj
      rw [List.filter_cons_of_pos (by simp; omega)]
      simp only [Tab.get, if_true]
    · rw [List.filter_cons, Tab.get, if_neg hj, ← ih]
      split
      · rw [Tab.get, if_neg hj]
      · rfl

/-- An FLR of another function leaves a function's tenant range alone. -/
theorem State.flr_tenant (hne : g ≠ fn) : (s.flr fn).reg (R.HST_FN_TENANT_BASE g).off = s.reg (R.HST_FN_TENANT_BASE g).off := by
  unfold State.flr R.HST_FN_TENANT_BASE
  dsimp only
  refine (State.reg_setReg_other _ _ (by omega)).trans ((State.reg_resetRegs _ (by omega)).trans ?_)
  exact (RingDisableKeeps.ringsDisabled fn s).regs _ (by simp; omega)

theorem State.mbReset_host : s.mbReset.host = s.host := (rfl)
theorem State.zeroise_host : s.zeroise.host = s.host := (rfl)

theorem execFunctionLevelReset_vf {f : Fin 256} (hf : f.val ≠ 0) : exec (.functionLevelReset f) s = .next (s.flr f.val) :=
  next_congr (if_neg hf)

theorem execFunctionLevelReset_pf {f : Fin 256} (hf : f.val = 0) : ∃ t, exec (.functionLevelReset f) s = .next t ∧
    t.host = { (s.flr f.val).host with posted := [] } ∧ t.sec.ide = false := by
  refine ⟨_, next_congr (if_pos hf), ?_, rfl⟩
  generalize s.flr f.val = u
  dsimp only
  rw [State.zeroise_host, State.mbReset_host]

theorem execFunctionLevelReset_spec {f : Fin 256} : ∃ t, exec (.functionLevelReset f) s = .next t ∧
    t.fnState f.val = { vfEnabled := (s.fnState f.val).vfEnabled } ∧ (f.val = 0 → t.sec.ide = false ∧ t.host.posted = []) := by
  by_cases hf : f.val = 0
  · obtain ⟨t, hexec, host, ide⟩ := execFunctionLevelReset_pf (s := s) hf
    refine ⟨t, hexec, ?_, fun _ => ⟨ide, by rw [host]⟩⟩
    rw [State.fnState, host]
    exact State.flr_fnState
  · exact ⟨_, execFunctionLevelReset_vf hf, State.flr_fnState, fun h => absurd h hf⟩

theorem execVfEnableClear_tenant {f : Fin 256} (hf : 0 < f.val) : ∃ t, exec .vfEnableClear s = .next t ∧
    t.reg (R.HST_FN_TENANT_BASE f.val).off = 0 := by
  refine ⟨_, rfl, ?_⟩
  refine foldl_of_mem (Q := fun _ => True) (P := fun t : State => t.reg (R.HST_FN_TENANT_BASE f.val).off = 0) (k := f.val)
    (fun _ _ _ => trivial) (fun t _ => ?own) (fun t j hj ht => ?other) ?mem trivial
  case own =>
    dsimp only
    split
    · exact State.reg_setReg_same _ _ _
    · exact State.reg_setReg_same _ _ _
  case other =>
    have apart : (R.HST_FN_TENANT_BASE f.val).off ≠ (R.HST_FN_TENANT_BASE j).off := by
      simp only [R.HST_FN_TENANT_BASE]
      omega
    dsimp only
    split
    · exact (State.reg_setReg_other _ _ apart).trans ((State.flr_tenant (Ne.symm hj)).trans ht)
    · exact (State.reg_setReg_other _ _ apart).trans ht
  case mem => exact List.mem_map.mpr ⟨f.val - 1, List.mem_range.mpr (by omega), by omega⟩

end

/-- Settles O27, write by write. -/
theorem hostFunctions : Obligations.HostFunctions := by
  refine ⟨fun s fn hp => ⟨fun r n hr hoff hn hlow hhigh => execRingEnable_latches hp hr hoff hn hlow hhigh,
    fun r hr hoff hhigh => execRingEnable_long hp hr hoff hhigh, execRingEnable_event_short hp,
    fun r hr hon => execRingEnable_again hp hr hon, fun r hr hon => execRingDisable_on hr hon, fun b c hfn hv hf => ⟨fun ok => ?ok, fun bad => ?bad⟩,
    execFunctionLevelReset_spec, execVfEnableClear_tenant, rfl, fun lost => ?lost, fun none => ?none⟩,
    fun s fn base count h hcount => State.rangeOk_spec h hcount⟩
  case ok => rw [execTenantRangeWrite_eq hfn hv hf, ok, if_pos rfl]
  case bad =>
    rw [execTenantRangeWrite_eq hfn hv hf, bad]
    rfl
  case lost => exact next_congr (if_pos lost)
  case none => exact next_congr (if_neg (by rw [none]; decide))

end Sys2Proof.Machine

/-! ### What goes out to the host and what is taken in (R315 to R317, R330 to R337) -/

namespace Sys2Proof.Machine

/-! #### Waiting events, messages and data -/

section
variable {s : State} {fn : Fin 256}

theorem execWaitingEventWrite_space {e : Event} {l : List Event} (heq : s.eqOn fn.val = true) (hp : s.boot.pwrOk = true)
    (hbm : (s.fnState fn.val).busMaster = true) (hw : (s.fnState fn.val).waiting = e :: l) (hs : s.eqSpace fn.val = true) :
    exec (.waitingEventWrite fn) s = .next ((s.putEvent fn.val e).drainWaiting fn.val l) := by
  refine next_congr ((if_neg (by simp [heq, hp, hbm])).trans ?_)
  rw [hw, State.drainWaiting, if_pos hs]

theorem execWaitingEventWrite_full (hs : s.eqSpace fn.val = false) : ∃ t, exec (.waitingEventWrite fn) s = .next t ∧ t.out = s.out ∧
    (t.fnState fn.val).waiting = (s.fnState fn.val).waiting := by
  refine ⟨_, rfl, ?_⟩
  split
  · exact ⟨rfl, rfl⟩
  · cases hw : (s.fnState fn.val).waiting with
    | nil =>
      rw [State.drainWaiting, State.modFn, State.fnState_setFn_same]
      exact ⟨rfl, rfl⟩
    | cons e l =>
      rw [State.drainWaiting, if_neg (by rw [hs]; decide), State.modFn, State.fnState_setFn_same]
      exact ⟨rfl, rfl⟩

/-- Vector `v` of a function as the module keeps it. -/
def State.vector (s : State) (fn v : Nat) : Vector8 := Tab.get (fun _ => ({} : Vector8)) (s.fnState fn).vectors v

/-- Writes it. -/
def State.putVector (s : State) (fn v : Nat) (x : Vector8) : State :=
  s.modFn fn fun f => { f with vectors := Tab.set (fun _ => {}) f.vectors v x }

theorem State.vector_putVector (s : State) (fn v : Nat) (x : Vector8) : (s.putVector fn v x).vector fn v = x := by
  unfold State.vector State.putVector State.modFn
  rw [State.fnState_setFn_same, Tab.get_set_same]

theorem execMsixMessage_unmasked {v : Fin 8} {x : Vector8} (hx : s.vector fn.val v.val = x) (hp : s.boot.pwrOk = true)
    (hbm : (s.fnState fn.val).busMaster = true) (hfresh : x.fresh = true) (hlast : x.last = none) :
    exec (.msixMessage fn v false) s =
      .next ((s.putVector fn.val v.val ⟨false, false, false, some s.tick⟩).emit (.msix fn.val v.val)) := by
  subst hx
  unfold State.vector at hfresh hlast
  refine next_congr ((if_neg (by simp [hfresh, hlast, hp, hbm])).trans (if_neg (by decide)))

theorem execMsixMessage_masked {v : Fin 8} {x : Vector8} (hx : s.vector fn.val v.val = x) (hp : s.boot.pwrOk = true)
    (hbm : (s.fnState fn.val).busMaster = true) (hfresh : x.fresh = true) (hlast : x.last = none) :
    exec (.msixMessage fn v true) s = .next (s.putVector fn.val v.val ⟨true, true, false, none⟩) := by
  subst hx
  unfold State.vector at hfresh hlast
  refine next_congr ((if_neg (by simp [hfresh, hlast, hp, hbm])).trans ((if_pos rfl).trans ?_))
  rw [hlast]
  rfl

theorem State.hostWrite_on {g : Nat} {o : Output} (hp : s.boot.pwrOk = true) (hbm : (s.fnState g).busMaster = true) :
    s.hostWrite g o = s.emit o :=
  (if_neg (by rw [hp]; decide)).trans (if_pos hbm)

theorem execReadDataWrite_one {j : ReadJob} (hr : s.host.reads = [j]) (hp : s.boot.pwrOk = true) (hbm : (s.fnState j.fn).busMaster = true)
    (hlen : 0 < j.data.length) (hfit : s.host.readBudgetUsed + j.data.length ≤ 262144) (hdue : j.doneBy ≤ j.eff) :
    ∃ t, exec .readDataWrite s = .next t ∧ t.host.reads = [] ∧ t.out = s.out ++ [.data j.fn j.addr j.data j.poison] := by
  obtain ⟨jfn, ring, seq, addr, data, poison, eff, doneBy⟩ := j
  dsimp only at hbm hlen hfit hdue
  have whole : min (262144 - s.host.readBudgetUsed) data.length = data.length := by omega
  refine ⟨_, next_congr (by rw [hr]), ?_⟩
  unfold State.writeReads
  dsimp only at *
  rw [whole, if_neg (by omega), if_neg (by omega), if_neg (by omega), List.take_length, State.hostWrite_on (by exact hp) (by exact hbm)]
  exact ⟨rfl, rfl⟩

end

/-! #### PM bin records -/

section
variable {s : State}

theorem execPmRecordExport_dark (hp : s.boot.pwrOk = false) : exec .pmRecordExport s = .next s := next_congr (if_pos (by rw [hp]; rfl))

theorem State.exportRecord_written {r : PmRecord} (hf : r.frondRec = true) (heq : s.eqOn 0 = true) (hbm : (s.fnState 0).busMaster = true)
    (hw : (s.fnState 0).waiting = []) (hs : s.eqSpace 0 = true) :
    s.exportRecord r = (({ s with pm := { s.pm with budgetUsed := s.pm.budgetUsed + 1 } } : State).putEvent 0 r.event, false) := by
  unfold State.exportRecord
  simp [hf, heq, hbm, hw, hs]

theorem execPmRecordExport_one {r : PmRecord} (hp : s.boot.pwrOk = true) (hpm : s.pm.waiting = [r]) (hdue : r.due ≤ s.tick)
    (hf : r.frondRec = true) (heq : s.eqOn 0 = true) (hbm : (s.fnState 0).busMaster = true) (hw : (s.fnState 0).waiting = [])
    (hs : s.eqSpace 0 = true) (ht : s.pm.budgetTick = s.tick) (hu : s.pm.budgetUsed < 256) :
    ∃ t, exec .pmRecordExport s = .next t ∧ t.pm.waiting = [] ∧ t.pm.budgetUsed = s.pm.budgetUsed + 1 ∧
      t.out.length = s.out.length + 1 := by
  refine ⟨_, next_congr (if_neg (by rw [hp]; decide)), ?_⟩
  rw [if_pos ht]
  dsimp only
  rw [hpm, State.exportRecords, if_neg (by omega), State.exportRecord_written hf heq hbm hw hs]
  dsimp only
  rw [State.exportRecords]
  exact ⟨rfl, rfl, List.length_append⟩

end

/-! #### The doorbell records -/

section
variable {s : State} {mem : HostMem} {fn r : Nat}

theorem execDoorbellRead_off (hr : s.running = false) : exec (.doorbellRead mem) s = .next s :=
  next_congr (if_pos (by rw [hr, Bool.not_false, Bool.or_true]))

theorem execDoorbellRead_eq (hp : s.boot.pwrOk = true) (hr : s.running = true) {l : List Nat} (hl : s.doorbellFns = l) :
    exec (.doorbellRead mem) s = .next (l.foldl (State.fetchFn mem) (l.foldl (fun s fn => s.doorbell mem fn) s, 4096)).1 := by
  subst hl
  exact next_congr (if_neg (by rw [hp, hr]; decide))

theorem execDoorbellRead_unread (hp : s.boot.pwrOk = true) (hr : s.running = true) (hl : s.doorbellFns = [fn])
    (hrec : readHost mem (s.baseOf (R.HST_DB_ADDR_LO_ADDR_LO fn) (R.HST_DB_ADDR_HI_ADDR_HI fn)) 64 = none) :
    exec (.doorbellRead mem) s = .next (State.fetchFn mem (s.fnError fn 1, 4096) fn).1 := by
  have bell : s.doorbell mem fn = s.fnError fn 1 := by
    unfold State.doorbell
    rw [hrec]
  rw [execDoorbellRead_eq hp hr hl, List.foldl_cons, List.foldl_nil, List.foldl_cons, List.foldl_nil, bell]

/-- A fold over 0 to 3 whose steps act at `r` alone is the step of `r`. -/
theorem foldl_four_at {σ : Type} {step : σ → Nat → σ} {r : Nat} (hr : r < 4) (a : σ) (before : ∀ j, j < 4 → j ≠ r → step a j = a)
    (after : ∀ j, j < 4 → j ≠ r → step (step a r) j = step a r) : (List.range 4).foldl step a = step a r := by
  have four : List.range 4 = [0, 1, 2, 3] := by decide
  rw [four]
  simp only [List.foldl_cons, List.foldl_nil]
  interval_cases r
  · rw [after 1, after 2, after 3] <;> decide
  · rw [before 0, after 2, after 3] <;> decide
  · rw [before 0, before 1, after 3] <;> decide
  · rw [before 0, before 1, before 2] <;> decide

/-- A ring's enables are read from the register alone. -/
theorem State.ringOn_congr {t : State} (h : t.reg (0x10000 + 0x100 * fn) = s.reg (0x10000 + 0x100 * fn)) (q : Nat) :
    t.ringOn fn q = s.ringOn fn q := by
  unfold State.ringOn State.rd R.HST_FN_CTL_CR_EN
  rw [h]

theorem State.fnError_ctl (s : State) (mask : Nat) : (s.fnError fn mask).reg (0x10000 + 0x100 * fn) = s.reg (0x10000 + 0x100 * fn) := by
  unfold State.fnError
  dsimp only
  split
  · rfl
  · exact State.reg_setReg_other s _ (by omega)

theorem State.memWrite_ctl (s : State) (hfn : fn < 256) (m f off len : Nat) :
    (s.memWrite m f off len).reg (0x10000 + 0x100 * fn) = s.reg (0x10000 + 0x100 * fn) := by
  unfold State.memWrite State.fenceRegs
  dsimp only
  rw [State.wrB, State.reg_wr_other _ _ (show 0x10000 + 0x100 * fn ≠ R.MEM_STAT_FENCE_FULL.off by simp only [R.MEM_STAT_FENCE_FULL]; omega),
    State.reg_wr_other _ _ (show 0x10000 + 0x100 * fn ≠ R.MEM_STAT_FENCED.off by simp only [R.MEM_STAT_FENCED]; omega)]
  rfl

theorem State.pendRequest_ctl (s : State) (hfn : fn < 256) (q : Request) :
    (s.pendRequest q).reg (0x10000 + 0x100 * fn) = s.reg (0x10000 + 0x100 * fn) := by
  unfold State.pendRequest State.pendWrite
  split
  · exact List.foldlRecOn (motive := fun t : State => t.reg (0x10000 + 0x100 * fn) = s.reg (0x10000 + 0x100 * fn)) _ _ rfl
      fun t ht e _ => (t.memWrite_ctl hfn _ _ _ _).trans ht
  · rfl

theorem State.fetchCheck_ctl (s : State) (hfn : fn < 256) (q k : Nat) (l : List (List Byte)) (bad : Bool) :
    (s.fetchCheck fn q k l bad).reg (0x10000 + 0x100 * fn) = s.reg (0x10000 + 0x100 * fn) := by
  unfold State.fetchCheck State.refuseAtFetch
  dsimp only
  split
  · exact State.fnError_ctl s 2
  · split
    · rfl
    · split
      · rfl
      · exact State.pendRequest_ctl s hfn _

/-- What a fetch takes: the request that `collect` found, within the limits, while its completion has an entry (R316, R317). -/
theorem State.fetchOne_some {q ring all n : Nat} {t : State} (h : s.fetchOne mem fn q ring all = some (t, n)) :
    countDiff (s.ring fn q).requests (s.ring fn q).head < 2 ^ (s.ring fn q).log2 ∧ n ≤ ring ∧ n ≤ all ∧
      ∃ l bad, collect mem (s.ring fn q) (s.rd (R.HST_CR_FETCHED_COUNT fn q)) 16
        (countDiff (s.ring fn q).tail (s.rd (R.HST_CR_FETCHED_COUNT fn q))) = some (l, bad) ∧ n = l.length + (if bad then 1 else 0) ∧
        t = s.fetchTake fn q (s.rd (R.HST_CR_FETCHED_COUNT fn q)) n l bad := by
  unfold State.fetchOne at h
  dsimp only at h
  generalize collect mem (s.ring fn q) (s.rd (R.HST_CR_FETCHED_COUNT fn q)) 16
    (countDiff (s.ring fn q).tail (s.rd (R.HST_CR_FETCHED_COUNT fn q))) = c at h
  split at h
  · cases h
  · next free =>
    match c with
    | none => cases h
    | some (l, bad) =>
      unfold State.fetchWith at h
      dsimp only at h
      generalize hm : l.length + (if bad then 1 else 0) = m at h
      split at h
      · cases h
      · next fits =>
        obtain ⟨rfl, rfl⟩ := Prod.mk.inj (Option.some.inj h)
        exact ⟨Nat.not_le.mp free, by omega, by omega, l, bad, rfl, hm.symm, rfl⟩

theorem State.setRing_reg (s : State) (g q o : Nat) (x : Ring) : (s.setRing g q x).reg o = s.reg o := (rfl)

theorem State.fetchTake_ctl (s : State) (hfn : fn < 256) (q k n : Nat) (l : List (List Byte)) (bad : Bool) :
    (s.fetchTake fn q k n l bad).reg (0x10000 + 0x100 * fn) = s.reg (0x10000 + 0x100 * fn) := by
  have apart : 0x10000 + 0x100 * fn ≠ (R.HST_CR_FETCHED_COUNT fn q).off := by
    simp only [R.HST_CR_FETCHED_COUNT]
    omega
  unfold State.fetchTake
  dsimp only
  rw [State.fetchCheck_ctl _ hfn, State.reg_wr_other _ _ apart, State.setRing_reg]

theorem State.fetchRing_ctl (hfn : fn < 256) (q fuel ring all : Nat) :
    (s.fetchRing mem fn q fuel ring all).1.reg (0x10000 + 0x100 * fn) = s.reg (0x10000 + 0x100 * fn) := by
  induction fuel generalizing s ring all with
  | zero => rfl
  | succ fuel ih =>
    unfold State.fetchRing
    split
    · rfl
    · next t n h =>
      obtain ⟨-, -, -, l, bad, -, -, rfl⟩ := State.fetchOne_some h
      exact (ih _ _).trans (State.fetchTake_ctl s hfn _ _ _ _ _)

variable (only : ∀ q, q < 4 → s.ringOn fn q = decide (q = r))
include only

/-- With one ring enabled the fetch is that ring's. -/
theorem State.fetchFn_one (hfn : fn < 256) (hr : r < 4) (all : Nat) : State.fetchFn mem (s, all) fn = s.fetchRing mem fn r 256 256 all := by
  have own : (if s.ringOn fn r then s.fetchRing mem fn r 256 256 all else (s, all)) = s.fetchRing mem fn r 256 256 all :=
    if_pos (by rw [only r hr, decide_eq_true rfl])
  unfold State.fetchFn
  rw [foldl_four_at hr]
  · exact own
  · exact fun j hj hne => if_neg (by rw [only j hj, decide_eq_false hne]; decide)
  · intro j hj hne
    rw [own]
    exact if_neg (by rw [State.ringOn_congr (State.fetchRing_ctl hfn _ _ _ _), only j hj, decide_eq_false hne]; decide)

theorem State.doorbell_one {rec : List Byte} {n : Nat} (hr : r < 4) (heq : s.eqOn fn = false)
    (hrec : readHost mem (s.baseOf (R.HST_DB_ADDR_LO_ADDR_LO fn) (R.HST_DB_ADDR_HI_ADDR_HI fn)) 64 = some rec)
    (hn : 2 ^ (s.ring fn r).log2 = n) (htail : countDiff (fieldAt rec (4 * r) 4) (s.rd (R.HST_CR_FETCHED_COUNT fn r)) ≤ n)
    (hhead : countDiff (s.rd (R.HST_CQ_WRITTEN_COUNT fn r)) (fieldAt rec (16 + 4 * r) 4) ≤ n) :
    s.doorbell mem fn = s.setRing fn r { s.ring fn r with tail := fieldAt rec (4 * r) 4, head := fieldAt rec (16 + 4 * r) 4 } := by
  subst hn
  have own : s.doorbellRing fn rec r =
      s.setRing fn r { s.ring fn r with tail := fieldAt rec (4 * r) 4, head := fieldAt rec (16 + 4 * r) 4 } := by
    unfold State.doorbellRing
    rw [only r hr]
    simp [htail, hhead]
  unfold State.doorbell
  rw [hrec]
  dsimp only
  rw [foldl_four_at hr, own]
  · have off : (s.setRing fn r { s.ring fn r with tail := fieldAt rec (4 * r) 4, head := fieldAt rec (16 + 4 * r) 4 }).eqOn fn = false := heq
    exact if_pos (by rw [off]; decide)
  · exact fun j hj hne => if_pos (by rw [only j hj, decide_eq_false hne]; decide)
  · intro j hj hne
    rw [own]
    exact if_pos (by rw [State.ringOn_congr (State.setRing_reg s _ _ _ _), only j hj, decide_eq_false hne]; decide)

theorem execDoorbellRead_one {rec : List Byte} {n : Nat} (hp : s.boot.pwrOk = true) (hrun : s.running = true)
    (hl : s.doorbellFns = [fn]) (hr : r < 4) (heq : s.eqOn fn = false)
    (hrec : readHost mem (s.baseOf (R.HST_DB_ADDR_LO_ADDR_LO fn) (R.HST_DB_ADDR_HI_ADDR_HI fn)) 64 = some rec)
    (hn : 2 ^ (s.ring fn r).log2 = n) (htail : countDiff (fieldAt rec (4 * r) 4) (s.rd (R.HST_CR_FETCHED_COUNT fn r)) ≤ n)
    (hhead : countDiff (s.rd (R.HST_CQ_WRITTEN_COUNT fn r)) (fieldAt rec (16 + 4 * r) 4) ≤ n) :
    exec (.doorbellRead mem) s = .next ((s.setRing fn r { s.ring fn r with
      tail := fieldAt rec (4 * r) 4, head := fieldAt rec (16 + 4 * r) 4 }).fetchRing mem fn r 256 256 4096).1 := by
  have hfn : fn < 256 := by
    have mem : fn ∈ s.doorbellFns := hl ▸ List.mem_singleton.mpr rfl
    obtain ⟨i, -, rfl⟩ := List.mem_map.mp (List.mem_filter.mp mem).1
    exact Nat.mod_lt _ (by decide)
  rw [execDoorbellRead_eq hp hrun hl, List.foldl_cons, List.foldl_nil, List.foldl_cons, List.foldl_nil,
    State.doorbell_one only hr heq hrec hn htail hhead, State.fetchFn_one _ hfn hr]
  exact fun q hq => (State.ringOn_congr (State.setRing_reg s _ _ _ _) q).trans (only q hq)

end

/-! #### Limits of the fetch -/

theorem collect_length {mem : HostMem} {x : Ring} {k fuel n : Nat} {l : List (List Byte)} {bad : Bool}
    (h : collect mem x k fuel n = some (l, bad)) :
    l.length + (if bad then 1 else 0) ≤ fuel ∧ l.length + (if bad then 1 else 0) ≤ n ∧
      (0 < fuel → 1 ≤ l.length + (if bad then 1 else 0)) := by
  induction fuel generalizing k n l bad with
  | zero =>
    obtain ⟨rfl, rfl⟩ := Prod.mk.inj (Option.some.inj h)
    simp
  | succ fuel ih =>
    cases n with
    | zero => cases h
    | succ n =>
      unfold collect at h
      split at h
      · obtain ⟨rfl, rfl⟩ := Prod.mk.inj (Option.some.inj h)
        simp
      · split at h
        · obtain ⟨⟨m, b⟩, hm, heq⟩ := Option.map_eq_some_iff.mp h
          obtain ⟨rfl, rfl⟩ := Prod.mk.inj heq
          obtain ⟨hfuel, hn, -⟩ := ih hm
          rw [List.length_cons]
          exact ⟨by omega, by omega, fun _ => by omega⟩
        · obtain ⟨rfl, rfl⟩ := Prod.mk.inj (Option.some.inj h)
          simp

/-- Settles O28, output by output, with the limits from what a fetch collects. -/
theorem hostOutput : Obligations.HostOutput := by
  refine ⟨fun s => ⟨fun fn e l => execWaitingEventWrite_space, fun fn => execWaitingEventWrite_full, fun fn v x hx hp hbm hfresh hlast =>
      ⟨⟨_, execMsixMessage_unmasked hx hp hbm hfresh hlast, rfl, State.vector_putVector _ _ _ _⟩,
        ⟨_, execMsixMessage_masked hx hp hbm hfresh hlast, rfl, State.vector_putVector _ _ _ _⟩⟩,
    fun j => execReadDataWrite_one, execPmRecordExport_dark, fun r => execPmRecordExport_one, fun mem => execDoorbellRead_off,
    fun mem hp hr hl => execDoorbellRead_eq hp hr hl, fun mem fn => execDoorbellRead_unread,
    fun mem fn r rec n hp hrun hl hr heq only hrec hn htail hhead => execDoorbellRead_one only hp hrun hl hr heq hrec hn htail hhead,
    fun p errs b t ht => ?none, fun p errs b t m ht => ?some⟩, fun s t mem fn r ring all n h => ?fetch⟩
  case none =>
    show execRemoteCmd p errs b s = _
    rw [execRemoteCmd, ht]
  case some =>
    show execRemoteCmd p errs b s = _
    rw [execRemoteCmd, ht]
  case fetch =>
    obtain ⟨free, hring, hall, l, bad, hc, hn, ht⟩ := State.fetchOne_some h
    obtain ⟨le16, leVisible, pos⟩ := collect_length hc
    rw [← hn] at le16 leVisible pos
    exact ⟨hring, hall, pos (by decide), le16, leVisible, free, l, bad, hc, hn, ht⟩

end Sys2Proof.Machine

/-! ### The Peat domain (R449 to R451, R489, R492, R495, R496, R501, R503) -/

namespace Sys2Proof.Machine

section
variable {s : State}

/-! #### The Peat second -/

theorem State.calSecond_esec (s : State) : s.calSecond.peat.esec = s.peat.esec := by
  unfold State.calSecond
  dsimp only
  split
  · rfl
  · split
    · obtain ⟨held, hpeat⟩ := ({ s with peat := { s.peat with expired := true } } : State).peatRaise_peat 0x1303 []
      rw [hpeat]
    · rfl

theorem State.tally_esec (s : State) (i : Nat) (on : Bool) : (s.tally i on).peat.esec = s.peat.esec := by
  unfold State.tally
  split
  · rfl
  · rfl

theorem State.timeCounters_esec (s : State) : s.timeCounters.peat.esec = s.peat.esec := by
  unfold State.timeCounters
  dsimp only
  exact List.foldlRecOn (motive := fun t : State => t.peat.esec = s.peat.esec) _ _
    ((State.tally_esec _ _ _).trans (State.tally_esec _ _ _)) fun t ht f _ => (t.tally_esec _ _).trans ht

theorem execPeatSecond_powered (l : List Nat) (on : s.peat.powered = true) : ∃ t : State, t.peat.esec = s.peat.esec + 1 ∧
    t.tick = s.tick ∧ t.fuse = s.fuse ∧ exec (.peatSecond l) s = .next (t.peatCommit l) := by
  have kept : (((s.modPeat fun p => { p with esec := p.esec + 1 }).calSecond).timeCounters).kept = s.kept := by
    rw [State.timeCounters_kept, State.calSecond_kept]
    rfl
  exact ⟨_, (State.timeCounters_esec _).trans (State.calSecond_esec _), kept_tick kept, kept_fuse kept, next_congr (if_pos on)⟩

theorem execPeat_dark (off : s.peat.powered = false) : (∀ l, exec (.peatSecond l) s = .next s) ∧ exec .peatSwitchToVbak s = .next s ∧
    exec .peatReturnToVkeep s = .next s ∧ exec .peatPowerLoss s = .next s := by
  have no : ¬s.peat.powered = true := by rw [off]; decide
  have idle : ∀ b : Bool, ¬(s.peat.powered && b) = true := fun b => by rw [off, Bool.false_and]; decide
  exact ⟨fun _ => next_congr (if_neg no), next_congr (if_neg (idle _)), next_congr (if_neg (idle _)), next_congr (if_neg no)⟩

/-! #### The supplies -/

theorem State.peatSource_supplied (backup : Bool) (hp : s.boot.pwrOk = true) : s.peatSource backup =
    (({ s with peat := { s.peat with onBackup := backup } } : State).wrB R.PWR_MSTAT_PEAT_SRC backup).raise 0x1106 0
      [.w (if backup then 1 else 0)] := if_pos hp

theorem State.peatSource_dark (backup : Bool) (hp : s.boot.pwrOk = false) :
    s.peatSource backup = { s with peat := { s.peat with onBackup := backup } } :=
  if_neg (show ¬s.boot.pwrOk = true by rw [hp]; decide)

theorem State.peatRaise_boot (s : State) (code : Nat) (vals : List EVal) : (s.peatRaise code vals).boot = s.boot := by
  unfold State.peatRaise
  split
  · rfl
  · rfl

theorem execPeatPowerReturn_dark (b : Bool) (off : s.peat.powered = false) (hp : s.boot.pwrOk = false) :
    exec (.peatPowerReturn b) s = .next ((({ s with peat := s.peat.restored b } : State).bumpLife 3).peatRaise 0x1304
      [.q ((({ s with peat := s.peat.restored b } : State).bumpLife 3).peat.esec)]) := by
  refine next_congr ((if_neg (by rw [off]; decide)).trans (if_neg ?_))
  rw [State.peatRaise_boot]
  show ¬s.boot.pwrOk = true
  rw [hp]
  decide

end

/-! #### What the life store gives back -/

/-- A table filled over a range reads back what was put into it. -/
theorem Tab.get_foldl_set_range (g : Nat → Nat) {n i : Nat} (hi : i < n) :
    Tab.get (fun _ => 0) ((List.range n).foldl (fun t i => Tab.set (fun _ => 0) t i (g i)) []) i = g i :=
  foldl_of_mem (step := fun t j => Tab.set (fun _ => 0) t j (g j)) (Q := fun _ => True) (P := fun t : Tab Nat => Tab.get (fun _ => 0) t i = g i) (fun _ _ _ => trivial)
    (fun _ _ => Tab.get_set_same _ _ _ _) (fun _ _ hj ht => (Tab.get_set_other _ _ _ hj.symm).trans ht) (List.mem_range.mpr hi) trivial

section
variable {p : PeatSt} {backup : Bool}

theorem PeatSt.restored_common : (p.restored backup).powered = true ∧ (p.restored backup).onBackup = backup ∧
    (p.restored backup).valid = false ∧ (p.restored backup).store = p.store := by
  unfold PeatSt.restored
  dsimp only
  split
  · exact ⟨rfl, rfl, rfl, rfl⟩
  · exact ⟨rfl, rfl, rfl, rfl⟩

theorem PeatSt.restored_none (h : p.newest lifeSlots 1024 1020 0 8 = none) : (p.restored backup).esec = 64 := by
  unfold PeatSt.restored
  dsimp only
  rw [h]

theorem PeatSt.restored_some {a : Nat} (h : p.newest lifeSlots 1024 1020 0 8 = some a) :
    (p.restored backup).esec = fieldAt (p.bytes a 1024) 8 8 + 64 ∧ (p.restored backup).epoch = fieldAt (p.bytes a 1024) 16 8 ∧
      ∀ i, i < 160 → (p.restored backup).counter i = fieldAt (p.bytes a 1024) (40 + 4 * i) 4 := by
  unfold PeatSt.counter PeatSt.restored
  dsimp only
  rw [h]
  refine ⟨rfl, rfl, fun i hi => ?_⟩
  dsimp only
  exact Tab.get_foldl_set_range (fun i => fieldAt (p.bytes a 1024) (40 + 4 * i) 4) hi

end

/-- Settles O38, event by event. -/
theorem peatCommands : Obligations.PeatCommands := by
  refine ⟨fun s => ⟨execPeat_dark, execPeatSecond_powered, fun on main hp => ?toBackup, fun on backup => ?stays, fun on backup hp => ?back,
    fun on backup hp => ?backDark, fun on clean => ?loss, fun b on => next_congr (if_pos on), execPeatPowerReturn_dark,
    fun d t hv hf => next_congr (State.pfWrite_ok hv hf), fun e hv hf => next_congr (State.pfWrite_ok hv hf)⟩, fun p backup => ?restored⟩
  case toBackup => exact next_congr ((if_pos (by rw [on, main]; decide)).trans (by rw [State.peatSource_supplied _ hp]; rfl))
  case stays => exact next_congr (if_neg (by rw [on, backup]; decide))
  case back => exact next_congr ((if_pos (by rw [on, backup]; decide)).trans (State.peatSource_supplied _ hp))
  case backDark => exact next_congr ((if_pos (by rw [on, backup]; decide)).trans (State.peatSource_dark _ hp))
  case loss =>
    refine next_congr ((if_pos on).trans ?_)
    rw [clean]
    rfl
  case restored =>
    obtain ⟨powered, onBackup, valid, store⟩ := PeatSt.restored_common (p := p) (backup := backup)
    refine ⟨powered, onBackup, valid, store, ?_⟩
    cases h : p.newest lifeSlots 1024 1020 0 8 with
    | none => exact PeatSt.restored_none h
    | some a => exact PeatSt.restored_some h

end Sys2Proof.Machine

/-! ### The phases of a boot (Table BOOT-1, R446 to R448, R467 to R471, R478) -/

namespace Sys2Proof.Machine

section
variable {s : State}

/-! #### Cold resets -/

theorem execColdResetPower_dark (hp : s.boot.pwrOk = false) (hm : s.peat.newest markerSlots 32 28 0 8 = none) :
    exec .coldResetPower s = .next (((s.modBoot fun b => { b with pwrOk := true }).coldReset 0).writeMarker 1 0) := by
  refine next_congr ((if_neg (by rw [hp]; decide)).trans ?_)
  dsimp only
  rw [hm]

/-! #### The start of FUSE -/

theorem State.fuseStart_ready (hphase : s.phase = 0) (hrst : s.boot.rstN = true) (hp : s.boot.pwrOk = true) (hrails : s.pow.railsOut = []) :
    s.fuseStart = s.wr R.RST_BOOT_STAT_PHASE 1 := if_pos (by rw [hphase, hrst, hp, hrails]; rfl)

theorem State.fuseStart_started (hphase : s.phase ≠ 0) : s.fuseStart = s := if_neg (by simp [hphase])

theorem State.phase_wr (s : State) {v : Nat} (hv : v < 8) : (s.wr R.RST_BOOT_STAT_PHASE v).phase = v :=
  (State.rd_wr_same s v (show R.RST_BOOT_STAT_PHASE.lo + R.RST_BOOT_STAT_PHASE.w ≤ 32 by decide)).trans (Nat.mod_eq_of_lt hv)

theorem State.phase_wr_off (s : State) {x : Fld} (v : Nat) (hx : R.RST_BOOT_STAT_PHASE.off ≠ x.off) : (s.wr x v).phase = s.phase :=
  State.rd_wr_off s v hx

/-- The straps as the rising edge of RST_N samples them. -/
def State.sampleStraps (s : State) (b c : Nat) : State :=
  (((s.wr R.RST_STRAP_PIN_BOOT b).wr R.RST_STRAP_PIN_CLK c).wr R.RST_STRAP_BOOT_SRC b).wr R.RST_STRAP_CLK_MODE c

theorem State.sampleStraps_phase (b c : Nat) : (s.sampleStraps b c).phase = s.phase := by
  unfold State.sampleStraps
  rw [State.phase_wr_off _ _ (by decide), State.phase_wr_off _ _ (by decide), State.phase_wr_off _ _ (by decide),
    State.phase_wr_off _ _ (by decide)]

theorem State.sampleStraps_reads (b c : Fin 4) : (s.sampleStraps b.val c.val).rd R.RST_STRAP_BOOT_SRC = b.val ∧
    (s.sampleStraps b.val c.val).rd R.RST_STRAP_CLK_MODE = c.val := by
  unfold State.sampleStraps
  refine ⟨?_, (State.rd_wr_same _ _ (by decide)).trans (Nat.mod_eq_of_lt c.isLt)⟩
  rw [State.rd_wr_beside _ _ (by decide) (by decide)]
  exact (State.rd_wr_same _ _ (by decide)).trans (Nat.mod_eq_of_lt b.isLt)

theorem execRstNRelease_ignored {b c : Fin 4} {fl co : List (Nat × List Byte)} (h : s.phase ≠ 0 ∨ s.boot.rstN = true) :
    exec (.rstNRelease b c fl co) s = .next s := next_congr (if_pos h)

/-- The boot flash with the pages and the settings copies that the board has put into it. -/
def State.boardFlash (s : State) (fl co : List (Nat × List Byte)) : UpdSt :=
  let put := fun (t : Tab (Option (List Byte))) (q : Nat × List Byte) => Tab.set (fun _ => none) t q.1 (some q.2)
  { s.upd with
    flash := (fl.filter fun (q : Nat × List Byte) => decide (q.1 < 32768)).foldl (fun t (q : Nat × List Byte) => put t (q.1, slice q.2 0 4096))
      s.upd.flash
    copies := (co.filter fun (q : Nat × List Byte) => decide (q.1 < 2)).foldl put s.upd.copies }

theorem execRstNRelease_eq {b c : Fin 4} {fl co : List (Nat × List Byte)} (hphase : s.phase = 0) (hrst : s.boot.rstN = false)
    (hp : s.boot.pwrOk = true) : exec (.rstNRelease b c fl co) s = .next (({ s with
      upd := s.boardFlash fl co
      boot := { s.boot with rstN := true, pinBoot := b.val, pinClk := c.val } } : State).sampleStraps b.val c.val).fuseStart := by
  refine next_congr ((if_neg (by simp [hphase, hrst])).trans ?_)
  exact congrArg State.fuseStart (if_pos hp)

theorem execRstNRelease_starts {b c : Fin 4} {fl co : List (Nat × List Byte)} (hphase : s.phase = 0) (hrst : s.boot.rstN = false)
    (hp : s.boot.pwrOk = true) (hrails : s.pow.railsOut = []) : ∃ t, exec (.rstNRelease b c fl co) s = .next t ∧ t.phase = 1 ∧
      t.boot = { s.boot with rstN := true, pinBoot := b.val, pinClk := c.val } ∧ t.rd R.RST_STRAP_BOOT_SRC = b.val ∧
      t.rd R.RST_STRAP_CLK_MODE = c.val := by
  have hexec := execRstNRelease_eq (fl := fl) (co := co) (b := b) (c := c) hphase hrst hp
  generalize hu : ({ s with upd := s.boardFlash fl co, boot := { s.boot with rstN := true, pinBoot := b.val, pinClk := c.val } } : State) = u at hexec
  have boot : u.boot = { s.boot with rstN := true, pinBoot := b.val, pinClk := c.val } := by rw [← hu]
  have phase : u.phase = 0 := by
    rw [← hu]
    exact hphase
  have rails : u.pow.railsOut = [] := by rw [← hu, hrails]
  have start : (u.sampleStraps b.val c.val).fuseStart = (u.sampleStraps b.val c.val).wr R.RST_BOOT_STAT_PHASE 1 :=
    State.fuseStart_ready ((State.sampleStraps_phase _ _).trans phase) (congrArg BootSt.rstN boot)
      ((congrArg BootSt.pwrOk boot).trans hp) rails
  obtain ⟨src, mode⟩ := State.sampleStraps_reads (s := u) b c
  rw [start] at hexec
  exact ⟨_, hexec, State.phase_wr _ (by decide), boot, (State.rd_wr_off _ _ (by decide)).trans src, (State.rd_wr_off _ _ (by decide)).trans mode⟩

theorem execRailInTolerance_last {r : Fin 14} (hphase : s.phase = 0) (hrst : s.boot.rstN = true) (hp : s.boot.pwrOk = true)
    (hrails : s.pow.railsOut = [r.val]) : exec (.railInTolerance r) s =
      .next (({ s with pow := { s.pow with railsOut := [] } } : State).wr R.RST_BOOT_STAT_PHASE 1) := by
  have none : s.pow.railsOut.filter (· != r.val) = [] := by rw [hrails]; simp
  refine next_congr ?_
  dsimp only [State.modPow]
  rw [none]
  exact State.fuseStart_ready hphase hrst hp rfl

/-! #### The end of FUSE -/

theorem State.identity_fuse : s.identity.fuse = s.fuse := by
  unfold State.identity
  simp only [State.wr_fuse]

theorem State.fuseTake_fuse (x : FuseSt) : (s.fuseTake x).fuse.loaded = true ∧ (s.fuse.loaded = true → (s.fuseTake x).fuse = s.fuse) := by
  unfold State.fuseTake
  split
  · next h => exact ⟨h, fun _ => rfl⟩
  · next h => exact ⟨rfl, fun h' => absurd h' h⟩

/-- The identity registers of the failed words read 0. -/
def State.blankIdentity (s : State) (l : List Nat) : State := l.foldl (fun s o => s.setReg o 0) s

theorem State.blankIdentity_fuse (l : List Nat) : (s.blankIdentity l).fuse = s.fuse :=
  List.foldlRecOn (motive := fun t : State => t.fuse = s.fuse) _ _ rfl fun _ ht _ _ => ht

theorem State.blankIdentity_reg {l : List Nat} {o : Nat} (ho : o ∈ l) : (s.blankIdentity l).reg o = 0 :=
  foldl_of_mem (step := fun (s : State) o => s.setReg o 0) (Q := fun _ => True) (P := fun t : State => t.reg o = 0) (fun _ _ _ => trivial)
    (fun t _ => t.reg_setReg_same _ _) (fun t _ hj ht => (t.reg_setReg_other _ (Ne.symm hj)).trans ht) ho trivial

theorem execFuseLoadDone_eq {x : FuseSt} {fail : Bool} {bad : List Nat} (hphase : s.phase = 1) :
    exec (.fuseLoadDone x fail bad) s = .next ((s.fuseTake x).fuseEnd fail bad) := next_congr (if_neg (by simp [hphase]))

theorem execFuseLoadDone_failed {x : FuseSt} {bad : List Nat} (hphase : s.phase = 1) : ∃ t, exec (.fuseLoadDone x true bad) s = .next t ∧
    t.phase = 6 ∧ t.rd R.RST_BOOT_STAT_FAIL_REASON = 1 ∧ t.fuse.loaded = true ∧ (s.fuse.loaded = true → t.fuse = s.fuse) ∧
    ∀ o ∈ bad, identityOff o = true → t.reg o = 0 := by
  obtain ⟨loaded, stays⟩ := s.fuseTake_fuse x
  have fuse : ((s.fuseTake x).identity.blankIdentity (bad.filter identityOff)).fuse = (s.fuseTake x).fuse :=
    (State.blankIdentity_fuse _).trans State.identity_fuse
  refine ⟨_, (execFuseLoadDone_eq hphase).trans (next_congr (if_pos rfl)), ?_, State.rd_wr_same _ _ (by decide), ?_, fun h => ?_,
    fun o ho hid => ?_⟩
  · exact (State.rd_wr_beside _ _ (by decide) (by decide)).trans (State.phase_wr _ (by decide))
  · exact (congrArg FuseSt.loaded fuse).trans loaded
  · exact fuse.trans (stays h)
  · have low : o ≠ 0x60004 := by
      simp only [identityOff, Bool.or_eq_true, decide_eq_true_eq, beq_iff_eq] at hid
      omega
    rw [State.reg_wr_other _ _ low, State.reg_wr_other _ _ low]
    exact State.blankIdentity_reg (List.mem_filter.mpr ⟨ho, hid⟩)

theorem execFuseLoadDone_loaded {x : FuseSt} {bad : List Nat} (hphase : s.phase = 1) :
    exec (.fuseLoadDone x false bad) s = .next (s.fuseTake x).identity.fuseRegs.secureBegin :=
  (execFuseLoadDone_eq hphase).trans (next_congr (if_neg (by decide)))

/-! #### SECURE -/

/-- The verification of the slot in turn. -/
theorem execSecureSlotVerified_eq {k : Nat} (hphase : s.phase = 2) (hk : (if s.boot.tried.isEmpty then s.upd.active else 1 - s.upd.active) = k) :
    exec .secureSlotVerified s = .next (if (s.slotCheck k).isNone then (s.bootSlot k).blowFuses.configBegin
      else if s.boot.tried.isEmpty then { s with boot := { s.boot with tried := [k] } }
      else (s.wr R.RST_BOOT_STAT_PHASE 6).wr R.RST_BOOT_STAT_FAIL_REASON 2) := by
  subst hk
  refine next_congr ((if_neg (by simp [hphase])).trans ?_)
  dsimp only
  cases s.slotCheck (if s.boot.tried.isEmpty then s.upd.active else 1 - s.upd.active) with
  | none => rfl
  | some d => rfl

/-! #### Loss of the supplies -/

/-- Every transmitter squelched. -/
def State.squelchAll (s : State) : State := s.frondIds.foldl (fun s f =>
  let s := s.modFrond f fun x => { x with tx := { x.tx with squelched := true } }
  (s.wrB (R.FRD_TX_STAT_DARK f) true).wr (R.FRD_TX_STAT_PWR_MEAS f) 0x80) s

theorem State.squelchAll_keeps : s.squelchAll.boot = s.boot ∧ s.squelchAll.phase = s.phase := by
  unfold State.squelchAll
  refine List.foldlRecOn (motive := fun t : State => t.boot = s.boot ∧ t.phase = s.phase) _ _ ⟨rfl, rfl⟩ fun t ht f _ => ?_
  obtain ⟨boot, phase⟩ := ht
  have apart : R.RST_BOOT_STAT_PHASE.off ≠ 0x100520 + 0x10000 * f := by
    simp only [R.RST_BOOT_STAT_PHASE]
    omega
  refine ⟨boot, ?_⟩
  dsimp only
  rw [State.phase_wr_off _ _ apart, State.wrB, State.phase_wr_off _ _ apart]
  exact phase

/-- The end of a module whose supplies go down: nothing waits for host memory and every client port sends local fault. -/
def State.goDark (s : State) : State :=
  { s with
    ports := s.ports.map fun q => (q.1, { q.2 with txRow := 3, repl := true })
    host := { s.host with requests := [], done := [], events := [], reads := [] } }

theorem State.goDark_repl : ∀ q ∈ s.goDark.ports, q.2.repl = true := by
  intro q hq
  obtain ⟨_, _, rfl⟩ := List.mem_map.mp hq
  rfl

theorem State.goDark_phase : s.goDark.phase = s.phase := (rfl)

theorem execPowerDownOrderly_eq (hp : s.boot.pwrOk = true) : ∃ u : State, exec .powerDownOrderly s = .next u.squelchAll.goDark ∧
    u.boot.pwrOk = false ∧ u.phase = 0 :=
  ⟨_, next_congr (if_neg (by rw [hp]; decide)), rfl, State.phase_wr _ (by decide)⟩

theorem execPowerDownOrderly_supplied (hp : s.boot.pwrOk = true) : ∃ t, exec .powerDownOrderly s = .next t ∧ t.boot.pwrOk = false ∧
    t.phase = 0 ∧ t.host.done = [] ∧ t.host.reads = [] ∧ t.host.events = [] ∧ ∀ q ∈ t.ports, q.2.repl = true := by
  obtain ⟨u, hexec, hdark, hphase⟩ := execPowerDownOrderly_eq hp
  obtain ⟨boot, phase⟩ := u.squelchAll_keeps
  exact ⟨_, hexec, (congrArg BootSt.pwrOk boot).trans hdark, State.goDark_phase.trans (phase.trans hphase), rfl, rfl, rfl, State.goDark_repl⟩

theorem State.darkBase_phase : s.darkBase.phase = 0 := by
  unfold State.darkBase
  rw [State.wrB, State.phase_wr_off _ _ (by decide)]
  exact State.phase_wr _ (by decide)

theorem State.darkBase_keeps : s.darkBase.boot.pwrOk = s.boot.pwrOk ∧ s.darkBase.fuse = s.fuse ∧ s.darkBase.peat = s.peat ∧
    s.darkBase.upd.flash = s.upd.flash ∧ s.darkBase.upd.copies = s.upd.copies ∧ s.darkBase.tick = 0 ∧ s.darkBase.host.requests = [] := by
  unfold State.darkBase
  simp only [State.wrB_boot, State.wr_boot, State.wrB_fuse, State.wr_fuse, State.wrB_peat, State.wr_peat, State.wrB_upd, State.wr_upd,
    State.wrB_tick, State.wr_tick, State.wrB_host, State.wr_host, and_self]

/-- What is left on a module without main supplies, with every rail out of its tolerance. -/
def State.supplyLost (s : State) : State := ({ s with tap := {} } : State).modPow fun p => { p with railsOut := List.range 14 }

theorem State.supplyLost_phase : s.supplyLost.phase = s.phase := (rfl)

theorem execMainSupplyLoss_spec : ∃ t, exec .mainSupplyLoss s = .next t ∧ t.phase = 0 ∧ t.boot.pwrOk = false ∧ t.fuse = s.fuse ∧
    t.peat = s.peat ∧ t.upd.flash = s.upd.flash ∧ t.upd.copies = s.upd.copies ∧ t.tick = 0 ∧ t.pow.railsOut = List.range 14 ∧
    t.host.requests = [] := by
  obtain ⟨pwrOk, fuse, peat, flash, copies, tick, requests⟩ := (s.modBoot fun b => { b with pwrOk := false }).darkBase_keeps
  have hexec : exec .mainSupplyLoss s = .next (s.modBoot fun b => { b with pwrOk := false }).darkBase.supplyLost := (rfl)
  exact ⟨_, hexec, State.supplyLost_phase.trans State.darkBase_phase, pwrOk, fuse, peat, flash, copies, tick, rfl, requests⟩

end

/-- Settles O35, phase by phase. -/
theorem bootCommands : Obligations.BootCommands := by
  intro s
  refine ⟨fun hp => ⟨next_congr (if_pos hp), next_congr (if_pos hp)⟩, fun hp => ⟨next_congr (if_neg (by rw [hp]; decide)),
    execColdResetPower_dark hp⟩, fun b c fl co => ⟨execRstNRelease_ignored, execRstNRelease_starts⟩, fun r => execRailInTolerance_last,
    fun r hphase => next_congr (State.fuseStart_started hphase), fun x bad hphase => ⟨next_congr (if_pos hphase), next_congr (if_pos hphase)⟩,
    fun x bad => execFuseLoadDone_failed, fun x bad hphase => execFuseLoadDone_loaded hphase, fun hphase => next_congr (if_pos hphase),
    fun r hphase htried hr => ?first, fun k r hphase htried hr => ?second, fun hp => next_congr (if_pos (by rw [hp]; rfl)),
    execPowerDownOrderly_supplied, execMainSupplyLoss_spec, fun hphase => next_congr (if_neg fun h => hphase h.1),
    fun hphase hall => next_congr (if_pos ⟨hphase, hall⟩)⟩
  case first =>
    rw [execSecureSlotVerified_eq hphase (k := s.upd.active) (by rw [htried]; rfl), hr, htried]
    cases r <;> rfl
  case second =>
    rw [execSecureSlotVerified_eq hphase (k := 1 - s.upd.active) (by rw [htried]; rfl), hr, htried]
    cases r <;> rfl

end Sys2Proof.Machine

/-! ### Where the configuration comes from; watchdogs and block resets (R472 to R477, R481 to R487, R568) -/

namespace Sys2Proof.Machine

section
variable {s t : State}

/-! #### The settings copies and the load window -/

theorem execConfigImageRead_other (hphase : s.phase ≠ 3) : exec .configImageRead s = .next s := next_congr (if_neg fun h => hphase h.1)

theorem execConfigImageRead_none (hphase : s.phase = 3) (hsrc : s.rd R.RST_STRAP_BOOT_SRC = 0) (hbest : s.bestCopy = none) :
    exec .configImageRead s = .next (s.configEnd none 2) := by
  refine next_congr ((if_pos ⟨hphase, hsrc⟩).trans ?_)
  rw [hbest]

theorem execConfigImageRead_some {k : Nat} {i : Image} (hphase : s.phase = 3) (hsrc : s.rd R.RST_STRAP_BOOT_SRC = 0)
    (hbest : s.bestCopy = some (k, i)) : exec .configImageRead s = .next ((s.report 6 1 k).configEnd (some i) 0) := by
  refine next_congr ((if_pos ⟨hphase, hsrc⟩).trans ?_)
  rw [hbest]

variable {mem : HostMem} {k a n : Nat} {b : List Byte}

/-- The window closed. -/
def State.windowClosed (s : State) : State := { s with boot := { s.boot with load := none } }

theorem execLoadWindowTransferDone_none (hload : s.boot.load = none) : exec (.loadWindowTransferDone mem) s = .next s := by
  show execLoadWindowTransferDone mem s = _
  unfold execLoadWindowTransferDone
  rw [hload]

theorem execLoadWindowTransferDone_some (hload : s.boot.load = some (k, a, n)) : exec (.loadWindowTransferDone mem) s =
    .next (if (s.fnState 0).busMaster = false then s.windowClosed.wr R.RST_LOAD_CTL_RESULT 3
      else match readHost mem a n with
        | none => s.windowClosed.wr R.RST_LOAD_CTL_RESULT 3
        | some b => if k = 1 then s.windowClosed.loadConfig b else s.windowClosed.loadFirmware b) := by
  show execLoadWindowTransferDone mem s = _
  unfold execLoadWindowTransferDone
  rw [hload]
  rfl

theorem execLoadWindowTransferDone_unread (hload : s.boot.load = some (k, a, n))
    (h : (s.fnState 0).busMaster = false ∨ readHost mem a n = none) :
    exec (.loadWindowTransferDone mem) s = .next (s.windowClosed.wr R.RST_LOAD_CTL_RESULT 3) := by
  refine (execLoadWindowTransferDone_some hload).trans (next_congr ?_)
  split
  · rfl
  · next hbm => rw [h.resolve_left hbm]

theorem execLoadWindowTransferDone_read (hload : s.boot.load = some (k, a, n)) (hbm : (s.fnState 0).busMaster = true)
    (hread : readHost mem a n = some b) : exec (.loadWindowTransferDone mem) s =
      .next (if k = 1 then s.windowClosed.loadConfig b else s.windowClosed.loadFirmware b) := by
  refine (execLoadWindowTransferDone_some hload).trans (next_congr ((if_neg (by rw [hbm]; decide)).trans ?_))
  rw [hread]

theorem State.loadConfig_unparsed (hb : parseImage b = none) : s.loadConfig b = s.wr R.RST_LOAD_CTL_RESULT 4 := by
  unfold State.loadConfig
  rw [hb]

theorem State.loadFirmware_short (hb : b.length < 16384) : s.loadFirmware b = s.wr R.RST_LOAD_CTL_RESULT 4 := if_pos hb

/-! #### The mesh -/

variable {p : Fin 6} {errs : Nat} {m : MeshMsg}

theorem execCfgReq_unserved (ht : s.meshTake p.val 0x30 errs b = (t, some m)) (hi : t.served = none) :
    exec (.cfgReq p errs b) s = .next t := by
  show execCfgReq p errs b s = _
  unfold execCfgReq
  rw [ht]
  dsimp only
  rw [hi]

theorem execCfgReq_served {i : List Byte} {off : Nat} (ht : s.meshTake p.val 0x30 errs b = (t, some m)) (hi : t.served = some i)
    (hst : t.meshState = 2) (hserve : t.mesh.cfgServe = true) (hoff : beNat (slice m.payload 0 4) = off) (hlt : off < i.length) :
    exec (.cfgReq p errs b) s = .next (t.meshLink p.val 0x31 3 (natBe 4 off ++ natBe 4 i.length ++ (i.drop off).take 1016)) := by
  subst hoff
  show execCfgReq p errs b s = _
  unfold execCfgReq
  rw [ht]
  dsimp only
  rw [hi]
  exact next_congr (if_pos ⟨hst, hserve, hlt⟩)

theorem execCfgData_none (ht : s.meshTake p.val 0x31 errs b = (t, none)) : exec (.cfgData p errs b) s = .next t := by
  show execCfgData p errs b s = _
  unfold execCfgData
  rw [ht]

/-- A chunk that continues what is held from the port that answered, with more to come. -/
theorem State.cfgChunk_continues {port off total : Nat} {data : List Byte} (hport : s.boot.meshPort = some port)
    (htotal : s.boot.meshTotal = total) (hoff : off = s.boot.mesh.length) (hpos : 0 < off) (hmore : off + data.length < total) :
    s.cfgChunk port off total data =
      ({ s with boot := { s.boot with mesh := s.boot.mesh ++ data } } : State).cfgAsk port (off + data.length) := by
  have steady : (decide (s.boot.mesh ≠ []) && (decide (s.boot.meshTotal ≠ total) ||
      (decide (off = 0) && decide (16 ≤ s.boot.mesh.length) && decide (fieldAt s.boot.mesh 12 4 ≠ fieldAt data 12 4)))) = false := by
    simp [htotal, hpos.ne']
  have len : (s.boot.mesh ++ data).length = off + data.length := by rw [List.length_append, hoff]
  have got : (s.boot.mesh ++ data).take total = s.boot.mesh ++ data := List.take_of_length_le (by omega)
  unfold State.cfgChunk
  dsimp only
  rw [steady, if_neg (by simp), if_neg (by simpa using hoff)]
  simp only [Bool.false_eq_true, if_false]
  rw [got, if_pos (by omega), len, State.modBoot, ← hport, ← htotal]

theorem execCfgData_continues {off total : Nat} (ht : s.meshTake p.val 0x31 errs b = (t, some m)) (hbooting : t.meshBooting = true)
    (hport : t.boot.meshPort = some p.val) (htotal : t.boot.meshTotal = total) (hlen : m.payload.length ≤ 1024)
    (hm : beNat (slice m.payload 0 4) = off) (hm' : beNat (slice m.payload 4 4) = total) (hoff : off = t.boot.mesh.length) (hpos : 0 < off)
    (hmore : off + (m.payload.drop 8).length < total) (hne : m.payload.drop 8 ≠ []) :
    exec (.cfgData p errs b) s = .next (({ t with boot := { t.boot with mesh := t.boot.mesh ++ m.payload.drop 8 } } : State).cfgAsk
      p.val (off + (m.payload.drop 8).length)) := by
  have short : (m.payload.drop 8).length ≤ 1016 := by
    rw [List.length_drop]
    omega
  show execCfgData p errs b s = _
  unfold execCfgData
  rw [ht]
  dsimp only
  generalize m.payload.drop 8 = data at *
  rw [hm, hm', if_pos (by simp [hbooting, hport, hne, short])]
  exact next_congr (State.cfgChunk_continues hport htotal hoff hpos hmore)

theorem execCfgRequestRetry_up (hbooting : s.meshBooting = true) (hup : s.meshUp p.val = true) : exec (.cfgRequestRetry p) s = .next
    (({ s with boot := { s.boot with meshPort := none } } : State).cfgAsk p.val s.boot.mesh.length) :=
  next_congr (if_pos (by rw [hbooting, hup]; rfl))

/-! #### Watchdogs and the end of a block's reset -/

theorem execLoopWatchdog_enabled {f : Fin 48} (hen : s.frondEnabled f.val = true)
    (ht : s.sendFault ⟨0x180 + f.val, 0x0b, 4, false, 0, s.tick⟩ = t) (htrial : t.upd.state ≠ 7) : exec (.loopWatchdog f) s = .next t := by
  refine next_congr ((if_neg (by rw [hen]; decide)).trans ?_)
  dsimp only
  rw [ht, if_neg htrial]

variable {id : Fin 4096} {x : BlockReset}

theorem execBlockResetEnd_none (hx : s.boot.inReset.find? (fun x => x.id == id.val) = none) : exec (.blockResetEnd id) s = .next s := by
  show execBlockResetEnd id s = _
  unfold execBlockResetEnd
  rw [hx]

theorem execBlockResetEnd_some (hx : s.boot.inReset.find? (fun x => x.id == id.val) = some x) : exec (.blockResetEnd id) s =
    .next (if s.tick < x.ends ∨ (x.suspended ∧ s.pow.gated) then s
      else ((({ s with boot := { s.boot with inReset := s.boot.inReset.filter fun y => y.id != id.val } } : State).blockResetEnd
        id.val).raise 0x1203 id.val [.w x.refused])) := by
  show execBlockResetEnd id s = _
  unfold execBlockResetEnd
  rw [hx]
  rfl

end

/-- Settles O36, source by source and reset by reset. -/
theorem configCommands : Obligations.ConfigCommands := by
  refine ⟨fun s p => ⟨execConfigImageRead_other, execConfigImageRead_none, fun k i => execConfigImageRead_some,
    fun mem => execLoadWindowTransferDone_none, fun mem k a n => execLoadWindowTransferDone_unread, fun mem a n b hload hbm hread hb => ?config,
    fun mem a n b hload hbm hread hb => ?firmware, fun hno => ⟨next_congr (if_neg (by rw [hno, Bool.false_and]; decide)),
      next_congr (if_neg (by rw [hno]; decide))⟩, fun hbooting => next_congr (if_pos hbooting), execCfgRequestRetry_up,
    fun errs b t m => execCfgReq_unserved, fun errs b t m i off => execCfgReq_served, fun errs b t => execCfgData_none,
    fun errs b t m off total => execCfgData_continues⟩,
    fun s => ⟨rfl, fun f hoff => next_congr (if_pos (by rw [hoff]; rfl)), fun f t => execLoopWatchdog_enabled, fun id => execBlockResetEnd_none,
    fun id x hx => ⟨fun early => ?early, fun hsusp hgated => ?suspended, fun hends hsusp => ?ends⟩⟩⟩
  case config =>
    rw [execLoadWindowTransferDone_read hload hbm hread, if_pos rfl, State.loadConfig_unparsed hb]
    rfl
  case firmware =>
    rw [execLoadWindowTransferDone_read hload hbm hread, if_neg (by decide), State.loadFirmware_short hb]
    rfl
  case early => rw [execBlockResetEnd_some hx, if_pos (.inl early)]
  case suspended => rw [execBlockResetEnd_some hx, if_pos (.inr ⟨hsusp, hgated⟩)]
  case ends => rw [execBlockResetEnd_some hx, if_neg (by rw [hsusp]; simpa using hends)]

end Sys2Proof.Machine

/-! ### Accesses of the host to registers (R486, R636 to R638) -/

namespace Sys2Proof.Machine

section
variable {s : State} {fn off : Nat} {v : Word}

/-! #### The first rule that applies (R636) -/

theorem State.busRead_dead {form : Bool} (h : s.linkAlive = false) : s.busRead fn off form = s := if_pos (by rw [h]; rfl)

theorem State.busWrite_dead {form : Bool} (h : s.linkAlive = false) : s.busWrite fn off form v = s := if_pos (by rw [h]; rfl)

theorem State.verdict_malformed : ∃ o, s.verdict fn off false = (o, .badForm) := by
  unfold State.verdict
  split
  · exact ⟨off, congrArg (Prod.mk off) (if_pos rfl)⟩
  · exact ⟨off, if_pos rfl⟩

/-- What a read by function `fn` of the offset `off`, whose access names the register `o`, does after its verdict. -/
def State.answerRead (s : State) (fn off o : Nat) : Verdict → State
  | .badForm => (s.accError off).emit (.unsupportedRequest fn off)
  | .denied => s.bar2Denied.emit (.unsupportedRequest fn off)
  | .inReset b => (s.isoCount b).emit (.completerAbort fn off)
  | .zero => s.emit (.readReply fn off 0)
  | .ok => (s.readReg o).2.emit (.readReply fn off (s.readReg o).1)

/-- What a write does after its verdict. -/
def State.answerWrite (s : State) (fn off o : Nat) (v : Word) : Verdict → State
  | .badForm => s.accError off
  | .denied => s.bar2Denied
  | .inReset b => s.isoCount b
  | .zero => s
  | .ok => if s.fuseFailed then s else s.writeReg fn o v

variable (alive : s.linkAlive = true)
include alive

theorem State.busRead_of_verdict {form : Bool} {o : Nat} {d : Verdict} (h : s.verdict fn off form = (o, d)) :
    s.busRead fn off form = s.answerRead fn off o d := by
  refine (if_neg (by rw [alive]; decide)).trans ?_
  rw [h]
  cases d <;> rfl

theorem State.busWrite_of_verdict {form : Bool} {o : Nat} {d : Verdict} (h : s.verdict fn off form = (o, d)) :
    s.busWrite fn off form v = s.answerWrite fn off o v d := by
  refine (if_neg (by rw [alive]; decide)).trans ?_
  rw [h]
  cases d <;> rfl

theorem State.busRead_malformed : s.busRead fn off false = (s.accError off).emit (.unsupportedRequest fn off) := by
  obtain ⟨o, h⟩ := State.verdict_malformed (s := s) (fn := fn) (off := off)
  exact State.busRead_of_verdict alive h

theorem State.busWrite_malformed : s.busWrite fn off false v = s.accError off := by
  obtain ⟨o, h⟩ := State.verdict_malformed (s := s) (fn := fn) (off := off)
  exact State.busWrite_of_verdict alive h

theorem State.busWrite_ok {o : Nat} (h : s.verdict fn off true = (o, .ok)) (hf : s.fuseFailed = false) :
    s.busWrite fn off true v = s.writeReg fn o v := by
  exact (State.busWrite_of_verdict alive h).trans (if_neg (by rw [hf]; decide))

/-- A well-formed write of the PF to a register that is not refused. -/
theorem State.busWrite_pf (h : s.pfVerdict off true = .ok) (hf : s.fuseFailed = false) : s.busWrite 0 off true v = s.writeReg 0 off v :=
  State.busWrite_ok alive (congrArg (Prod.mk off) h) hf

end

/-! #### The keyed and the waiting writes -/

section
variable {s : State} {v : Word}

theorem State.writeReg_rstCtl : s.writeReg 0 0x60010 v = s.rstCtl v.toNat := by
  have described : (regAt 0x60010).isSome = true := by decide +kernel
  unfold State.writeReg
  cases h : regAt 0x60010 with
  | none => rw [h] at described; cases described
  | some r => rfl

theorem State.writeReg_loadCtl : s.writeReg 0 0x6002c v = if v.toNat % 2 = 1 then (s.wr R.RST_LOAD_CTL_KIND (v.toNat / 2 ^ 4)).loadGo (v.toNat / 2 ^ 4 % 4)
    else s.wr R.RST_LOAD_CTL_KIND (v.toNat / 2 ^ 4) := by
  have described : (regAt 0x6002c).isSome = true := by decide +kernel
  unfold State.writeReg
  cases h : regAt 0x6002c with
  | none => rw [h] at described; cases described
  | some r => rfl

/-- RST_BLOCK has one field, and it is WT. -/
theorem regAt_block : ∃ r, regAt 0x60014 = some r ∧ r.fields = [⟨0, 12, .wt, 0⟩] := ⟨_, rfl, rfl⟩

theorem State.writeReg_block : ∃ w, w = s.reg 0x60014 ∧ s.writeReg 0 0x60014 v = (s.setReg 0x60014 w).queueWt 0x60014 v.toNat := by
  obtain ⟨r, hr, hfields⟩ := regAt_block
  have waits : r.hasAcc .wt = true := by
    rw [RegD.hasAcc, hfields]
    decide
  refine ⟨putFields r [.rw, .wo, .w1c] (s.reg 0x60014) v, ?_, ?_⟩
  · rw [putFields, hfields]
    rfl
  · unfold State.writeReg
    rw [hr]
    exact if_pos waits

theorem execBlockResetRequest_waits {b : Fin 4096} (alive : s.linkAlive = true) (h : s.pfVerdict 0x60014 true = .ok) (hf : s.fuseFailed = false) :
    ∃ t, exec (.blockResetRequest b) s = .next t ∧ t = { s with regs := t.regs, wtq := t.wtq } ∧ (∀ o, t.reg o = s.reg o) ∧
      t.wtq = s.wtq.filter (fun q => q.1 != 0x60014) ++ [(0x60014, b.val)] := by
  obtain ⟨w, hw, hwrite⟩ := s.writeReg_block (v := BitVec.ofNat 32 b.val)
  refine ⟨_, next_congr ((State.busWrite_pf alive h hf).trans hwrite), rfl, fun o => ?_, ?_⟩
  · refine (State.reg_setReg s 0x60014 o w).trans ?_
    split
    · next ho => rw [hw, ho]
    · rfl
  · have lt : b.val < 2 ^ 32 := by omega
    exact congrArg (fun n => s.wtq.filter (fun q => q.1 != 0x60014) ++ [(0x60014, n)]) (Nat.mod_eq_of_lt lt)

theorem State.loadGo_firmware (hphase : s.rd R.RST_BOOT_STAT_PHASE = 6) (hreason : s.rd R.RST_BOOT_STAT_FAIL_REASON = 2)
    (hload : s.boot.load = none) (hlen : s.rd R.RST_LOAD_LEN_LEN ≤ 0x4000000) : s.loadGo 2 = ({ s with boot := { s.boot with
      load := some (2, s.rd R.RST_LOAD_ADDR_HI_ADDR_HI * 2 ^ 32 + s.rd R.RST_LOAD_ADDR_LO_ADDR_LO * 2 ^ 12, s.rd R.RST_LOAD_LEN_LEN) } } :
        State).wr R.RST_LOAD_CTL_RESULT 1 :=
  (if_pos (.inr ⟨rfl, hphase, hreason⟩)).trans (if_neg (by rw [hload]; simpa using hlen))

theorem execLoadWindowGo_firmware (alive : s.linkAlive = true) (h : s.pfVerdict 0x6002c true = .ok) (hf : s.fuseFailed = false)
    (hv : v.toNat = 0x21) (hphase : s.rd R.RST_BOOT_STAT_PHASE = 6) (hreason : s.rd R.RST_BOOT_STAT_FAIL_REASON = 2)
    (hload : s.boot.load = none) (hlen : s.rd R.RST_LOAD_LEN_LEN ≤ 0x4000000) : ∃ t, exec (.loadWindowGo v) s = .next t ∧
      t.boot = { s.boot with load := some (2, s.rd R.RST_LOAD_ADDR_HI_ADDR_HI * 2 ^ 32 +
        s.rd R.RST_LOAD_ADDR_LO_ADDR_LO * 2 ^ 12, s.rd R.RST_LOAD_LEN_LEN) } ∧ t.rd R.RST_LOAD_CTL_RESULT = 1 ∧
      RegsBut [0x6002c] s t := by
  generalize hu : s.wr R.RST_LOAD_CTL_KIND (v.toNat / 2 ^ 4) = u
  have same : ∀ x : Fld, x.off ≠ 0x6002c → u.rd x = s.rd x := fun x hx => by
    rw [← hu]
    exact State.rd_wr_off _ _ hx
  have boot : u.boot = s.boot := by rw [← hu, State.wr_boot]
  have write : s.writeReg 0 0x6002c v = u.loadGo 2 := by
    rw [State.writeReg_loadCtl, hu, hv]
    rfl
  have go := u.loadGo_firmware (by rw [same _ (by decide), hphase]) (by rw [same _ (by decide), hreason]) (by rw [boot, hload])
    (by rwa [same _ (by decide)])
  refine ⟨_, next_congr ((State.busWrite_pf alive h hf).trans (write.trans go)), ?_, ?_, fun o ho => ?_⟩
  · rw [State.wr_boot, boot, same _ (by decide), same _ (by decide), same _ (by decide)]
  · exact State.rd_wr_same _ _ (by decide)
  · have apart : o ≠ 0x6002c := fun e => ho (e ▸ List.mem_singleton.mpr rfl)
    refine (State.reg_wr_other _ _ apart).trans ?_
    rw [← State.reg_wr_other s (f := R.RST_LOAD_CTL_KIND) (v.toNat / 2 ^ 4) apart, hu]
    rfl

end

/-- Settles O25, verdict by verdict and register by register. -/
theorem registerAccess : Obligations.RegisterAccess := by
  intro s off v
  refine ⟨fun dead fn form => ⟨next_congr (State.busRead_dead dead), next_congr (State.busRead_dead dead), next_congr (State.busWrite_dead dead)⟩,
    fun alive fn => ⟨next_congr (State.busRead_malformed alive), next_congr (State.busRead_malformed alive),
      next_congr (State.busWrite_malformed alive)⟩,
    fun fn o alive h => ⟨fun w t hread => ?read, fun hf => next_congr (State.busWrite_ok alive h hf)⟩,
    fun fn o b alive h => ⟨next_congr (State.busRead_of_verdict alive h), next_congr (State.busWrite_of_verdict alive h)⟩,
    fun fn o alive h => ⟨next_congr (State.busRead_of_verdict alive h), next_congr (State.busWrite_of_verdict alive h)⟩,
    fun fn o alive h => ⟨next_congr (State.busRead_of_verdict alive h), next_congr (State.busWrite_of_verdict alive h)⟩,
    fun alive h hf => next_congr ((State.busWrite_pf alive h hf).trans State.writeReg_rstCtl), fun b => execBlockResetRequest_waits,
    fun alive h hf => ⟨fun even => ?even, execLoadWindowGo_firmware alive h hf⟩⟩
  case read =>
    have read : s.busRead fn.val off true = t.emit (.readReply fn.val off w) := by
      rw [State.busRead_of_verdict alive h, State.answerRead, hread]
    exact ⟨next_congr read, next_congr read⟩
  case even => exact next_congr ((State.busWrite_pf alive h hf).trans (State.writeReg_loadCtl.trans (if_neg (by omega))))

end Sys2Proof.Machine

/-! ### The secure mailbox requests, the entropy source and BAR2 (R359, R360, R371 to R376, R380) -/

namespace Sys2Proof.Machine

/-! #### The secure channels -/

section
variable {s u : State} {c : Fin 2} {m : List Nat}

/-- Taking a message out of hand changes the mailbox and its count of queued messages, nothing else. -/
theorem State.eq_of_setMbCh {k : Nat} {x : MbxCh} (h : s.setMbCh k x = u) : ∃ regs mbx, u = { s with regs := regs, mbx := mbx } :=
  ⟨_, _, h.symm⟩

variable (hhand : (s.mbCh (8 + c.val)).inHand = some m) (hmute : (s.mbCh (8 + c.val)).mute = false)
  (hu : s.setMbCh (8 + c.val) { s.mbCh (8 + c.val) with inHand := none, mute := false } = u)
include hhand hmute hu

theorem State.mbHandle_act {code : Nat} (hcode : mbCode (m.headD 0) = code) {act : List Nat → State → State × Nat × List Nat} {t : State}
    {st : Nat} {q : List Nat} (hact : act (m.drop 1) u = (t, st, q)) : s.mbHandle (8 + c.val) code act = t.mbReply (8 + c.val) (m.headD 0) st q := by
  subst hu
  unfold State.mbHandle
  simp only [hhand, hcode, ne_eq, not_true_eq_false, if_false, hact, hmute, Bool.false_eq_true]

theorem execSecFwInfo_answers (hcode : mbCode (m.headD 0) = 0x02) (hp : m.drop 1 = []) :
    exec (.secFwInfo c) s = .next (u.mbReply (8 + c.val) (m.headD 0) 0 u.fwInfo) :=
  next_congr (State.mbHandle_act hhand hmute hu hcode (by rw [hp]; rfl))

/-- What KEK_INSTALL of FORM 0 does with its payload. -/
theorem execKekInstall_clear {t : Nat} {w : List Nat} (ht : t < 1024) (hcode : mbCode (m.headD 0) = 0x40) (hp : m.drop 1 = t :: w)
    (hw : w.length = 8) (hret : s.retired = false) (hblock : u.secBlocked = false) (hent : u.entropyFailed = false)
    (hke : s.sec.keDown = false) (hact : (s.tenant t).active = true) :
    exec (.kekInstall c) s = .next ((u.kekAct (.install t (toBytes (wordsBytes w)))).mbReply (8 + c.val)
      (m.headD 0) 0 ([t] ++ words64 (s.tick + 1) ++ [kcv (toBytes (wordsBytes w))])) := by
  obtain ⟨regs, mbx, shape⟩ := State.eq_of_setMbCh hu
  have ret : u.retired = false := by rw [shape]; exact hret
  have ke : u.sec.keDown = false := by rw [shape]; exact hke
  have act : (u.tenant t).active = true := by rw [shape]; exact hact
  have tick : u.tick = s.tick := by rw [shape]
  refine next_congr (State.mbHandle_act hhand hmute hu hcode ?_)
  have low : t % 1024 = t := Nat.mod_eq_of_lt ht
  have form : t / 2 ^ 16 % 2 = 0 := by omega
  rw [hp, ← tick]
  simp only [List.headD_cons, low, form, ret, hblock, hent, ke, act, List.length_cons, hw, List.drop_one, List.tail_cons, Bool.or_self,
    Bool.false_eq_true, if_false, if_true, Bool.not_true, ne_eq, Nat.reduceAdd, not_true_eq_false]

theorem execKekInstall_failed {t : Nat} {w : List Nat} (ht : t < 1024) (hcode : mbCode (m.headD 0) = 0x40) (hp : m.drop 1 = t :: w)
    (hw : w.length = 8) (hret : s.retired = false) (hblock : u.secBlocked = false) (hent : u.entropyFailed = true) :
    exec (.kekInstall c) s = .next (u.mbReply (8 + c.val) (m.headD 0) 6 []) := by
  obtain ⟨regs, mbx, shape⟩ := State.eq_of_setMbCh hu
  have ret : u.retired = false := by rw [shape]; exact hret
  refine next_congr (State.mbHandle_act hhand hmute hu hcode ?_)
  have form : t / 2 ^ 16 % 2 = 0 := by omega
  rw [hp]
  simp only [List.headD_cons, form, ret, hblock, hent, List.length_cons, hw, Bool.or_self, Bool.false_eq_true, if_false, if_true, ne_eq,
    Nat.reduceAdd, not_true_eq_false, Bool.true_or]

theorem execKekErase_active {t : Nat} (ht : t < 1024) (hcode : mbCode (m.headD 0) = 0x41) (hp : m.drop 1 = [t])
    (hblock : u.secBlocked = false) (hact : (s.tenant t).active = true) :
    exec (.kekErase c) s = .next ((u.kekAct (.erase t 0)).mbReply (8 + c.val) (m.headD 0) 0 (t :: words64 (s.tick + 1))) := by
  obtain ⟨regs, mbx, shape⟩ := State.eq_of_setMbCh hu
  have act : (u.tenant t).active = true := by rw [shape]; exact hact
  have tick : u.tick = s.tick := by rw [shape]
  refine next_congr (State.mbHandle_act hhand hmute hu hcode ?_)
  have low : t % 1024 = t := Nat.mod_eq_of_lt ht
  rw [hp, ← tick]
  simp only [List.headD_cons, low, hblock, act, List.length_cons, List.length_nil, Bool.false_eq_true, if_false, Bool.not_true, ne_eq,
    Nat.reduceAdd, not_true_eq_false]

/-- The payload that tells of a KEK. -/
def kekPayload (t : Nat) : Option Kek → List Nat
  | some k => [t, 1, kcv k.key] ++ words64 k.tick
  | none => [t, 0, 0, 0, 0]

theorem execKekStatus_answers {t : Nat} (ht : t < 1024) (hcode : mbCode (m.headD 0) = 0x42) (hp : m.drop 1 = [t]) :
    exec (.kekStatus c) s = .next (u.mbReply (8 + c.val) (m.headD 0) 0 (kekPayload t (s.kek t))) := by
  obtain ⟨regs, mbx, shape⟩ := State.eq_of_setMbCh hu
  have kek : u.kek t = s.kek t := by rw [shape]; rfl
  refine next_congr (State.mbHandle_act hhand hmute hu hcode ?_)
  have low : t % 1024 = t := Nat.mod_eq_of_lt ht
  rw [hp, ← kek]
  simp only [List.headD_cons, low, List.length_cons, List.length_nil, if_false, ne_eq, Nat.reduceAdd, not_true_eq_false]
  cases u.kek t <;> rfl

theorem execHoldStatus_free {b : Nat} (hcode : mbCode (m.headD 0) = 0x48) (hp : m.drop 1 = [b]) (hblock : u.secBlocked = false)
    (hid : s.holdId b = true) (hdef : s.deferredOf b = none) :
    exec (.holdStatus c) s = .next (u.mbReply (8 + c.val) (m.headD 0) 0 [b, if s.isHeld b then 1 else 0]) := by
  obtain ⟨regs, mbx, shape⟩ := State.eq_of_setMbCh hu
  have id : u.holdId b = true := by rw [shape]; exact hid
  have deferred : u.deferredOf b = none := by rw [shape]; exact hdef
  have held : u.isHeld b = s.isHeld b := by rw [shape]; rfl
  refine next_congr (State.mbHandle_act hhand hmute hu hcode ?_)
  rw [hp]
  simp only [List.headD_cons, hblock, id, deferred, held, List.length_cons, List.length_nil, Bool.false_eq_true, if_false, Bool.not_true, ne_eq,
    Nat.reduceAdd, not_true_eq_false, Option.isSome_none, Option.map_none, Option.getD_none, Nat.add_zero, Nat.zero_mul]

theorem execHoldRelease_deferred {b : Nat} (hcode : mbCode (m.headD 0) = 0x49) (hp : m.drop 1 = [b]) (hblock : u.secBlocked = false)
    (hid : s.holdId b = true) (hdef : (s.deferredOf b).isSome = true) :
    exec (.holdRelease c) s = .next (({ u with sec := { s.sec with released := s.sec.released ++ [b] } } : State).mbReply (8 + c.val)
      (m.headD 0) 0 (b :: words64 (s.tick + 1))) := by
  obtain ⟨regs, mbx, shape⟩ := State.eq_of_setMbCh hu
  have id : u.holdId b = true := by rw [shape]; exact hid
  have deferred : (u.deferredOf b).isNone = false := by
    rw [shape, ← Option.not_isSome]
    exact congrArg not hdef
  have sec : u.sec = s.sec := by rw [shape]
  have tick : u.tick = s.tick := by rw [shape]
  refine next_congr (State.mbHandle_act hhand hmute hu hcode ?_)
  rw [hp, ← sec, ← tick]
  simp only [List.headD_cons, hblock, id, deferred, List.length_cons, List.length_nil, Bool.false_eq_true, if_false, Bool.not_true, ne_eq,
    Nat.reduceAdd, not_true_eq_false, Bool.or_self]

end

/-! #### The entropy source -/

/-- The state after `n` words of the entropy source, and the words. -/
def State.freshWords (s : State) (n : Nat) : State × List Nat :=
  (List.range n).foldl (fun (a : State × List Nat) _ => let (v, s) := a.1.fresh; (s, a.2 ++ [v % 2 ^ 32])) (s, [])

theorem State.freshWords_succ (s : State) (n : Nat) : s.freshWords (n + 1) =
    ({ (s.freshWords n).1 with freeCtr := (s.freshWords n).1.freeCtr + 1 },
      (s.freshWords n).2 ++ [Config.free (s.freshWords n).1.freeCtr % 2 ^ 32]) := by
  unfold State.freshWords
  rw [List.range_succ, List.foldl_append]
  rfl

theorem State.freshWords_spec (s : State) (n : Nat) : (s.freshWords n).1 = { s with freeCtr := s.freeCtr + n } ∧
    (s.freshWords n).2.length = n ∧ ∀ x ∈ (s.freshWords n).2, x < 2 ^ 32 := by
  induction n with
  | zero => exact ⟨rfl, rfl, fun x hx => nomatch hx⟩
  | succ n ih =>
    obtain ⟨state, len, words⟩ := ih
    rw [State.freshWords_succ]
    refine ⟨?_, ?_, fun x hx => ?_⟩
    · dsimp only
      rw [state]
      rfl
    · rw [List.length_append, len]
      rfl
    · obtain hx | hx := List.mem_append.mp hx
      · exact words x hx
      · rw [List.mem_singleton.mp hx]
        exact Nat.mod_lt _ (by decide)

section
variable {s u : State} {c : Fin 2} {m : List Nat} (hhand : (s.mbCh (8 + c.val)).inHand = some m)
  (hmute : (s.mbCh (8 + c.val)).mute = false)
  (hu : s.setMbCh (8 + c.val) { s.mbCh (8 + c.val) with inHand := none, mute := false } = u)
include hhand hmute hu

theorem execEntropyRead_healthy {n : Nat} (hcode : mbCode (m.headD 0) = 0x50) (hp : m.drop 1 = [n]) (hn : 0 < n) (hmax : n ≤ 12)
    (hstate : s.rd R.SEC_ENT_STAT_STATE = 1) (hke : s.sec.keDown = false) (hblock : u.secBlocked = false) (hent : u.entropyFailed = false) :
    ∃ w t, w.length = n ∧ (∀ x ∈ w, x < 2 ^ 32) ∧ t = { u with freeCtr := s.freeCtr + n } ∧
      exec (.entropyRead c) s = .next (t.mbReply (8 + c.val) (m.headD 0) 0 (n :: w)) := by
  obtain ⟨regs, mbx, shape⟩ := State.eq_of_setMbCh hu
  have ke : u.sec.keDown = false := by rw [shape]; exact hke
  have ctr : u.freeCtr = s.freeCtr := by rw [shape]
  obtain ⟨state, len, words⟩ := u.freshWords_spec n
  refine ⟨_, _, len, words, state.trans (by rw [ctr]), next_congr ((if_neg (by rw [hstate]; omega)).trans
    (State.mbHandle_act hhand hmute hu hcode ?_))⟩
  rw [hp]
  simp only [List.headD_cons, hblock, hent, ke, List.length_cons, List.length_nil, Bool.false_eq_true, if_false, ne_eq, Nat.reduceAdd,
    not_true_eq_false, Bool.or_self, false_or]
  exact if_neg (by omega)

/-! #### Decommissioning -/

theorem execDecommissionArm_arms (hcode : mbCode (m.headD 0) = 0x5e) (hp : m.drop 1 = []) (hret : s.retired = false)
    (hblock : u.secBlocked = false) : ∃ v, v < 2 ^ 32 ∧ exec (.decommissionArm c) s = .next
      (({ u with freeCtr := s.freeCtr + 1, sec := { s.sec with challenge := some (8 + c.val, v, s.tick) } } : State).mbReply (8 + c.val)
        (m.headD 0) 0 [v]) := by
  obtain ⟨regs, mbx, shape⟩ := State.eq_of_setMbCh hu
  have ret : u.retired = false := by rw [shape]; exact hret
  have ctr : u.freeCtr = s.freeCtr := by rw [shape]
  have sec : u.sec = s.sec := by rw [shape]
  have tick : u.tick = s.tick := by rw [shape]
  refine ⟨Config.free u.freeCtr % 2 ^ 32, Nat.mod_lt _ (by decide), next_congr (State.mbHandle_act hhand hmute hu hcode ?_)⟩
  rw [hp, ← ctr, ← sec, ← tick]
  simp only [ret, hblock, Bool.or_self, Bool.false_eq_true, if_false, List.isEmpty_nil, Bool.not_true]
  rfl

theorem execDecommission_valid {v t : Nat} (hcode : mbCode (m.headD 0) = 0x5f) (hp : m.drop 1 = [v]) (hret : s.retired = false)
    (hblock : u.secBlocked = false) (hch : s.sec.challenge = some (8 + c.val, v, t)) (hin : s.tick ≤ t + 160000) :
    exec (.decommission c) s = .next (({ u with sec := { s.sec with challenge := none, retireNext := true } } : State).mbReply
      (8 + c.val) (m.headD 0) 0 []) := by
  obtain ⟨regs, mbx, shape⟩ := State.eq_of_setMbCh hu
  have ret : u.retired = false := by rw [shape]; exact hret
  have sec : u.sec = s.sec := by rw [shape]
  have tick : u.tick = s.tick := by rw [shape]
  refine next_congr (State.mbHandle_act hhand hmute hu hcode ?_)
  rw [hp]
  simp only [ret, hblock, Bool.or_self, Bool.false_eq_true, if_false, List.length_cons, List.length_nil, ne_eq, Nat.reduceAdd,
    not_true_eq_false, sec, hch, tick, hin, List.headD_cons, secCh, and_self, if_true]

theorem execDecommission_invalid {v w t ch : Nat} (hcode : mbCode (m.headD 0) = 0x5f) (hp : m.drop 1 = [v]) (hret : s.retired = false)
    (hblock : u.secBlocked = false) (hch : s.sec.challenge = some (ch, w, t)) (hbad : v ≠ w ∨ ch ≠ 8 + c.val ∨ t + 160000 < s.tick) :
    exec (.decommission c) s = .next (u.mbReply (8 + c.val) (m.headD 0) 4 []) := by
  obtain ⟨regs, mbx, shape⟩ := State.eq_of_setMbCh hu
  have ret : u.retired = false := by rw [shape]; exact hret
  have sec : u.sec = s.sec := by rw [shape]
  have tick : u.tick = s.tick := by rw [shape]
  refine next_congr (State.mbHandle_act hhand hmute hu hcode ?_)
  rw [hp]
  simp only [ret, hblock, Bool.or_self, Bool.false_eq_true, if_false, List.length_cons, List.length_nil, ne_eq, Nat.reduceAdd,
    not_true_eq_false, sec, hch, tick, List.headD_cons, secCh]
  exact if_neg (by omega)

end

/-! #### Health tests, the BAR2 denial and IDE_KM -/

section
variable {s : State} {k : Fin 3}

theorem execEntropyHealthFailure_failed (h : s.rd R.SEC_ENT_STAT_STATE = 3) : exec (.entropyHealthFailure k) s = .next s :=
  next_congr (if_pos h)

variable {l : List Nat} (hl : (s.sec.entFails ++ [s.tick]).filter (fun t => decide (s.tick < t + 160000)) = l)
  (hstate : s.rd R.SEC_ENT_STAT_STATE ≠ 3)
include hl hstate

theorem execEntropyHealthFailure_restarts (few : l.length < 3) : exec (.entropyHealthFailure k) s = .next
    (((({ s with sec := { s.sec with entFails := l } } : State).wr R.SEC_ENT_STAT_STATE 2).bump R.SEC_ENT_STAT_RESTARTS 1).raise
      0x0e05 0 [.w k.val]) := by
  subst hl
  exact next_congr ((if_neg hstate).trans (if_neg (by omega)))

theorem execEntropyHealthFailure_fails (many : 3 ≤ l.length) : exec (.entropyHealthFailure k) s = .next
    (({ s with sec := { s.sec with entFails := l } } : State).entropyFail) := by
  subst hl
  exact next_congr ((if_neg hstate).trans (if_pos many))

end

/-- Settles O34, message by message. -/
theorem secureCommands : Obligations.SecureCommands := by
  refine ⟨fun s u c m hhand hmute hu hret _ hblock => ⟨execSecFwInfo_answers hhand hmute hu,
      fun t w ht hcode hp hw hent hke hact => execKekInstall_clear hhand hmute hu ht hcode hp hw hret hblock hent hke hact,
      fun t w ht hcode hp hw hent => execKekInstall_failed hhand hmute hu ht hcode hp hw hret hblock hent,
      fun t ht hcode hp hact => execKekErase_active hhand hmute hu ht hcode hp hblock hact, fun t ht hcode hp => ?status,
      fun b hcode hp hid hdef => execHoldStatus_free hhand hmute hu hcode hp hblock hid hdef,
      fun b hcode hp hid hdef => execHoldRelease_deferred hhand hmute hu hcode hp hblock hid hdef,
      fun n hcode hp hn hmax hstate hke hent => execEntropyRead_healthy hhand hmute hu hcode hp hn hmax hstate hke hblock hent,
      fun hcode hp => execDecommissionArm_arms hhand hmute hu hcode hp hret hblock,
      fun v t hcode hp hch hin => execDecommission_valid hhand hmute hu hcode hp hret hblock hch hin,
      fun v w t ch hcode hp hch hbad => execDecommission_invalid hhand hmute hu hcode hp hret hblock hch hbad⟩,
    fun s k => ⟨fun h => next_congr (if_pos h), fun h => ⟨next_congr (if_neg (by omega)), execEntropyHealthFailure_failed h⟩,
      fun l hl hstate => ⟨execEntropyHealthFailure_restarts hl hstate, execEntropyHealthFailure_fails hl hstate⟩,
      fun off read hide => ?ide, fun off hide => ?read, fun off hide => ?write, fun msg b => rfl⟩⟩
  case status =>
    refine (execKekStatus_answers hhand hmute hu ht hcode hp).trans (next_congr ?_)
    cases s.kek t <;> rfl
  case ide => exact next_congr (if_pos hide)
  case read => exact next_congr ((if_neg (by rw [hide]; decide)).trans rfl)
  case write => exact next_congr ((if_neg (by rw [hide]; decide)).trans rfl)

end Sys2Proof.Machine

/-! ### Client ports (R260 to R262, R264, R267 to R270, R274, R275, R281) -/

namespace Sys2Proof.Machine

/-! #### The records that differ are reported, and the plan stays -/

/-- Only the events differ. -/
def EventsOnly (s t : State) : Prop := t = { s with host := { s.host with events := t.host.events } }

theorem EventsOnly.raise (s : State) (code obj : Nat) (vals : List EVal) : EventsOnly s (s.raise code obj vals) := (rfl)

theorem EventsOnly.trans {s t u : State} (h : EventsOnly s t) (h' : EventsOnly t u) : EventsOnly s u := by
  unfold EventsOnly at *
  exact h'.trans (by rw [h])

theorem EventsOnly.foldl {α : Type} {g : State → α → State} (hg : ∀ s a, EventsOnly s (g s a)) (l : List α) (s : State) :
    EventsOnly s (l.foldl g s) := by
  induction l generalizing s with
  | nil => exact rfl
  | cons a l ih => exact (hg s a).trans (ih (g s a))

theorem EventsOnly.divergence (s : State) (p e : Nat) (own : Option TwinRec) : EventsOnly s (s.divergence p e own) := by
  refine EventsOnly.foldl (fun s l => ?_) _ s
  split
  · split
    · exact EventsOnly.raise s _ _ _
    · exact rfl
  · exact EventsOnly.raise s _ _ _
  · exact rfl

theorem State.divergence_adopted (s : State) (p e l f : Nat) (own : Option TwinRec) : (s.divergence p e own).adopted l f = s.adopted l f :=
  (congrArg (fun t => t.adopted l f) (EventsOnly.divergence s p e own)).trans rfl

/-! #### What is received on the lanes of a port -/

section
variable {s : State} {p : Fin 288}

section
variable (stopped : (s.port p.val).running = false)
include stopped

theorem execAmLock_stopped {k lane : Nat} {inv : Bool} : exec (.amLock p k lane inv) s = .next s := next_congr (if_pos (by simp [stopped]))

theorem execAmLockLoss_stopped {k : Nat} : exec (.amLockLoss p k) s = .next s := next_congr (if_pos (by simp [stopped]))

theorem execDeskewComplete_stopped : exec (.deskewComplete p) s = .next s := next_congr (if_neg (by simp [stopped]))

theorem execBlockLock_stopped {n : Nat} : exec (.blockLock p n) s = .next s := next_congr (if_neg (by simp [stopped]))

theorem execBlockLockLoss_stopped {n : Nat} : exec (.blockLockLoss p n) s = .next s := next_congr (if_neg (by simp [stopped]))

theorem execHiSerChange_stopped {b : Bool} : exec (.hiSerChange p b) s = .next s := next_congr (if_neg (by simp [stopped]))

theorem execClientFaultRx_stopped {lf rf : Bool} : exec (.clientFaultRx p lf rf) s = .next s := next_congr (if_pos (by simp [stopped]))

theorem execFlexoDefectSet_stopped {d : Fin 3} {i : Nat} : exec (.flexoDefectSet p d i) s = .next s := next_congr (if_pos (by simp [stopped]))

theorem execClientIngressMap_stopped {n u : Nat} {corr : List (Nat × Nat)} {sop : Bool} {otuc : Option (Bool × Bool)} :
    exec (.clientIngressMap p n u corr sop otuc) s = .next s := next_congr (if_pos (by simp [stopped]))

end

theorem execClientLaneSignal_good {l : Fin 288} {o : Nat} (ho : s.laneOwner l.val = o) (owned : o ≠ 0x1ff) (powered : s.pow.gated = false) :
    exec (.clientLaneSignal l true true) s = .next
      (((s.wrB (R.CLT_LANE_STAT_SIG_DET l.val) true).wrB (R.CLT_LANE_STAT_CDR_LOCK l.val) true).updatePort o) := by
  subst ho
  exact next_congr (if_neg (by simp [owned, powered]))

section
variable {x : PortSt} (hx : s.port p.val = x) (running : x.running = true)
include hx running

/-- The second marker in a row at its spacing locks PCS lane `k`. -/
theorem execAmLock_second {k lane : Nat} (hk : k < pcsLanes x) (hit : Tab.get (fun _ => 0) x.hits k = 1)
    (free : x.locked.contains k = false) : exec (.amLock p k lane false) s = .next
      ((s.setPort p.val { x with hits := Tab.set (fun _ => 0) x.hits k 2, misses := Tab.set (fun _ => 0) x.misses k 0
                                 locked := x.locked ++ [k] }).updatePort p.val) := by
  subst hx
  refine next_congr ((if_neg (by simp [running, hk])).trans ((if_neg (by decide)).trans ?_))
  rw [hit, free]
  rfl

/-- The fourth miss in a row unlocks it. -/
theorem execAmLockLoss_fourth {k : Nat} (hk : k < pcsLanes x) (miss : Tab.get (fun _ => 0) x.misses k = 3) :
    exec (.amLockLoss p k) s = .next ((s.setPort p.val { x with hits := Tab.set (fun _ => 0) x.hits k 0
                                                                misses := Tab.set (fun _ => 0) x.misses k 4
                                                                locked := x.locked.filter (· != k) }).updatePort p.val) := by
  subst hx
  refine next_congr ((if_neg (by simp [running, hk])).trans ?_)
  unfold State.markerMiss
  dsimp only
  rw [miss]
  rfl

theorem execDeskewComplete_locked (signal : s.portSignal p.val = true) (locked : portLocked x = true) :
    exec (.deskewComplete p) s = .next ((s.setPort p.val { x with aligned := true }).updatePort p.val) := by
  subst hx
  exact next_congr (if_pos (by simp [running, signal, locked]))

theorem execBlockLock_gain {n : Nat} (ether : x.client ≠ 6) (hn : 64 ≤ n) :
    exec (.blockLock p n) s = .next ((s.setPort p.val { x with blockLock := true }).updatePort p.val) := by
  subst hx
  exact next_congr (if_pos (by simp [running, ether, hn]))

theorem execBlockLockLoss_lose {n : Nat} (hn : 65 ≤ n) :
    exec (.blockLockLoss p n) s = .next ((s.setPort p.val { x with blockLock := false }).updatePort p.val) := by
  subst hx
  exact next_congr (if_pos (by simp [running, hn]))

theorem execHiSerChange_ether {b : Bool} (ether : x.client ≠ 6) :
    exec (.hiSerChange p b) s = .next ((s.setPort p.val { x with hiSer := b }).updatePort p.val) := by
  subst hx
  exact next_congr (if_pos (by simp [running, ether]))

theorem execClientFaultRx_changed {lf rf : Bool} (ether : x.client ≠ 6) (changed : x.lf ≠ lf) :
    exec (.clientFaultRx p lf rf) s = .next (((s.setPort p.val { x with lf := lf, rf := rf }).portRegs p.val).raise 0x0903 p.val
      [.w (if lf then 1 else 0), .w (if rf then 1 else 0)]) := by
  subst hx
  exact next_congr ((if_neg (by simp [running, ether])).trans (if_pos (by simp [changed])))

theorem execFlexoDefectSet_gidm {i : Nat} (flexo : x.client = 6) (clear : x.gidm = false) : exec (.flexoDefectSet p 0 i) s = .next
    (((s.raise 0x0906 p.val [.w 0, .w 0]).setPort p.val { x with gidm := true }).updatePort p.val) := by
  subst hx
  exact next_congr ((if_neg (by simp [running, flexo])).trans (if_neg (by simp [clear])))

omit running in
theorem execFlexoDefectClr_gidm {i : Nat} (flexo : x.client = 6) (declared : x.gidm = true) : exec (.flexoDefectClr p 0 i) s = .next
    (((s.raise 0x0907 p.val [.w 0, .w 0]).setPort p.val { x with gidm := false }).updatePort p.val) := by
  subst hx
  exact next_congr ((if_neg (by simp [flexo])).trans (if_neg (by simp [declared])))

theorem execClientIngressMap_codewords {n u : Nat} {sop : Bool} : exec (.clientIngressMap p n u [] sop none) s = .next
    (((s.bump (R.CLT_PORT_UNC_UNC p.val) u).bump (R.CLT_PORT_CW_CW p.val) ((x.cwRem + n) / 1024)).setPort p.val { x with
      cwRem := (x.cwRem + n) % 1024, secCw := x.secCw + n, secUnc := x.secUnc + u, waitSop := x.waitSop && !sop }) := by
  subst hx
  exact next_congr (if_neg (by simp [running]))

omit running in
/-- A lane without an own record or an adopted one sends its stream as the endpoint gives it. -/
theorem execClientEgressMap_plain {made : Nat} {level : Int} {ovf : Option (Fin 2)} {t : State} (formed : x.client ≠ 0)
    (hown : x.own.find? (fun r => r.egress == s.tick + 1) = none) (ht : s.divergence p.val (s.tick + 1) none = t)
    (alone : s.adopted p.val (s.tick + 1) = none) (clean : (x.kinds.filter fun q => decide (q.1 < s.tick)) = []) :
    exec (.clientEgressMap p made level ovf) s = .next (t.egressSend p.val (s.tick + 1) made level ovf x (0, false, none)) := by
  subst hx ht
  refine next_congr ((if_neg formed).trans ?_)
  have tick : (s.divergence p.val (s.tick + 1) none).tick = s.tick :=
    (congrArg State.tick (EventsOnly.divergence s p.val (s.tick + 1) none) :)
  dsimp only
  rw [hown, State.divergence_adopted, alone, tick, clean]
  rfl

end

end

/-! #### PORT_SETUP -/

/-- Between the two states no port appears, leaves or changes its form but in what `p`'s lanes receive, and nothing completes. -/
structure KeepsForm (p : Nat) (s t : State) : Prop where
  others : ∀ q, q ≠ p → t.port q = s.port q
  client : (t.port p).client = (s.port p).client
  width : (t.port p).width = (s.port p).width
  rate : (t.port p).rate = (s.port p).rate
  done : t.host.done = s.host.done
  release : t.host.release = s.host.release
  tick : t.tick = s.tick

/-- What a look at the lanes of a port leaves of it. -/
def PortSt.seen (x : PortSt) (good : Bool) : PortSt := if good then x else { x with aligned := false, blockLock := false }

/-- CLIENT_UP and CLIENT_DOWN, by the receive state and the one before. -/
def State.reportPort (s : State) (p st was : Nat) : State :=
  if st = 3 ∧ was ≠ 3 then s.raise 0x0901 p else if st ≠ 3 ∧ was = 3 then s.raise 0x0902 p [.w st] else s

theorem State.updatePort_eq {s : State} {p : Nat} (formed : (s.port p).client ≠ 0) : ∃ good st wait, s.updatePort p =
    (((s.setPort p ((s.port p).seen good)).setPort p { (s.port p).seen good with rxState := st, waitSop := wait }).reportPort p st
      ((s.port p).seen good).rxState).portRegs p :=
  ⟨_, _, _, if_neg formed⟩

namespace KeepsForm

variable {p : Nat} {s t u : State}

theorem refl (s : State) : KeepsForm p s s := ⟨fun _ _ => rfl, rfl, rfl, rfl, rfl, rfl, rfl⟩

theorem trans (h : KeepsForm p s t) (h' : KeepsForm p t u) : KeepsForm p s u :=
  ⟨fun q hq => (h'.others q hq).trans (h.others q hq), h'.client.trans h.client, h'.width.trans h.width, h'.rate.trans h.rate,
    h'.done.trans h.done, h'.release.trans h.release, h'.tick.trans h.tick⟩

theorem setReg (s : State) (o : Nat) (v : Word) : KeepsForm p s (s.setReg o v) := ⟨fun _ _ => rfl, rfl, rfl, rfl, rfl, rfl, rfl⟩

theorem wr (s : State) (x : Fld) (v : Nat) : KeepsForm p s (s.wr x v) := setReg s _ _

theorem wrB (s : State) (x : Fld) (v : Bool) : KeepsForm p s (s.wrB x v) := wr s x _

theorem raise (s : State) (code obj : Nat) (vals : List EVal) : KeepsForm p s (s.raise code obj vals) :=
  ⟨fun _ _ => rfl, rfl, rfl, rfl, rfl, rfl, rfl⟩

theorem setPort (s : State) {x : PortSt} (hc : x.client = (s.port p).client) (hw : x.width = (s.port p).width)
    (hr : x.rate = (s.port p).rate) : KeepsForm p s (s.setPort p x) := by
  refine ⟨fun q hq => s.port_setPort_other x hq, ?_, ?_, ?_, rfl, rfl, rfl⟩
  all_goals rwa [State.port_setPort_same]

theorem foldl {α : Type} {g : State → α → State} (hg : ∀ s a, KeepsForm p s (g s a)) (l : List α) (s : State) :
    KeepsForm p s (l.foldl g s) := by
  induction l generalizing s with
  | nil => exact refl s
  | cons a l ih => exact (hg s a).trans (ih (g s a))

theorem clearLanes (s : State) (q : Nat) : KeepsForm p s (s.clearLanes q) := foldl (fun s _ => setReg s _ _) _ s

theorem portRegs (s : State) (q : Nat) : KeepsForm p s (s.portRegs q) := by
  unfold State.portRegs
  dsimp only
  exact (wr s _ _).trans <| (wr _ _ _).trans <| (wr _ _ _).trans <| (wr _ _ _).trans <| (wr _ _ _).trans <| (wrB _ _ _).trans <|
    (wrB _ _ _).trans <| (wrB _ _ _).trans <| (wrB _ _ _).trans <| (wrB _ _ _).trans <| (wrB _ _ _).trans (wrB _ _ _)

theorem reportPort (s : State) (st was : Nat) : KeepsForm p s (s.reportPort p st was) := by
  unfold State.reportPort
  split
  · exact raise s _ _ _
  · split
    · exact raise s _ _ _
    · exact refl s

theorem updatePort (s : State) : KeepsForm p s (s.updatePort p) := by
  by_cases formed : (s.port p).client = 0
  · have same : s.updatePort p = s := if_pos formed
    rw [same]
    exact refl s
  · obtain ⟨good, st, wait, heq⟩ := State.updatePort_eq formed
    have seen : KeepsForm p s (s.setPort p ((s.port p).seen good)) := by cases good <;> exact setPort s rfl rfl rfl
    rw [heq]
    refine seen.trans (trans (setPort _ ?_ ?_ ?_) ((reportPort _ _ _).trans (portRegs _ _)))
    all_goals rw [State.port_setPort_same]

theorem releasePort (s : State) : KeepsForm p s (s.releasePort p) := by
  by_cases formed : (s.port p).client = 0
  · have same : s.releasePort p = s := if_pos formed
    rw [same]
    exact refl s
  · have shape : ∃ x : PortSt, s.releasePort p = ((s.setPort p x).updatePort p).portRegs p ∧ x.client = (s.port p).client ∧
        x.width = (s.port p).width ∧ x.rate = (s.port p).rate := ⟨_, if_neg formed, rfl, rfl, rfl⟩
    obtain ⟨x, heq, hc, hw, hr⟩ := shape
    rw [heq]
    exact (setPort s hc hw hr).trans ((updatePort _).trans (portRegs _ _))

end KeepsForm

/-- The ports that wait for release at step 4 are released. -/
def State.releasePorts (s : State) : State :=
  (s.host.release.filter fun r => r.1 == 2).foldl (fun s r => s.releasePort r.2)
    { s with host := { s.host with release := s.host.release.filter fun r => r.1 != 2 } }

theorem State.releasePorts_none {s : State} (h : s.host.release = []) : s.releasePorts = s := by
  have same : { s with host := { s.host with release := [] } } = s := by rw [← h]
  unfold State.releasePorts
  rw [h]
  exact same

/-- Nothing waits for release any more. -/
def State.noRelease (s : State) : State := { s with host := { s.host with release := [] } }

theorem State.releasePorts_one {s : State} {p : Nat} (h : s.host.release = [(2, p)]) : s.releasePorts = s.noRelease.releasePort p := by
  unfold State.releasePorts
  rw [h]
  rfl

section
variable {s : State} {h : ReqHdr} {mem : HostMem} {lane width client rate txclk rclk group : Nat}

/-- The old port stops and gives up its lanes. -/
def State.leaveLanes (s : State) (lane : Nat) : State :=
  (if (s.port lane).rxState = 3 then s.raise 0x0902 lane [.w 0] else s).clearLanes lane

theorem KeepsForm.leaveLanes (s : State) : KeepsForm lane s (s.leaveLanes lane) := by
  refine KeepsForm.trans ?_ (KeepsForm.clearLanes _ _)
  split
  · exact KeepsForm.raise s _ _ _
  · exact KeepsForm.refl s

theorem appPortSetup_out {c : Ctx} : ∃ v, appPortSetup lane width 0 rate txclk rclk group c s = { s := v } ∧ v.portExists lane = false ∧
    (∀ q, q ≠ lane → v.port q = s.port q) ∧ v.host.done = s.host.done ∧ v.host.release = s.host.release ∧ v.tick = s.tick := by
  have kept : KeepsForm lane s (s.leaveLanes lane) := KeepsForm.leaveLanes s
  have heq : appPortSetup lane width 0 rate txclk rclk group c s =
    { s := ((s.leaveLanes lane).setPort lane {}).resetRegs (0xe4000 + 0x10 * lane) (0xe400f + 0x10 * lane) } := (rfl)
  refine ⟨_, heq, ?_⟩
  generalize s.leaveLanes lane = u at kept ⊢
  have port : ∀ q, ((u.setPort lane {}).resetRegs (0xe4000 + 0x10 * lane) (0xe400f + 0x10 * lane)).port q = (u.setPort lane {}).port q :=
    fun _ => rfl
  refine ⟨?_, fun q hq => ?_, kept.done, kept.release, kept.tick⟩
  · rw [State.portExists, port, State.port_setPort_same]
    rfl
  · rw [port, State.port_setPort_other _ _ hq, kept.others q hq]

/-- The lanes of a new port name it. -/
def State.claimLanes (s : State) (lane rate : Nat) (x : PortSt) : State :=
  (portLanes lane x).foldl (fun s l => (s.wr (R.CLT_LANE_STAT_PORT l) lane).wr (R.CLT_LANE_STAT_RATE l) rate) s

/-- A new port waits for its release at step 4. -/
def State.releaseIf (s : State) (lane : Nat) (again : Bool) : State :=
  if again then { s with host := { s.host with release := s.host.release ++ [(2, lane)] } } else s

theorem appPortSetup_in {c : Ctx} (hc : client ≠ 0) : ∃ v, appPortSetup lane width client rate txclk rclk group c s = { s := v } ∧
    (v.port lane).client = client ∧ (v.port lane).width = width ∧ (v.port lane).rate = rate ∧ (∀ q, q ≠ lane → v.port q = s.port q) ∧
    v.host.done = s.host.done ∧ (v.host.release = s.host.release ∨ v.host.release = s.host.release ++ [(2, lane)]) ∧ v.tick = s.tick := by
  have kept : KeepsForm lane s (s.leaveLanes lane) := KeepsForm.leaveLanes s
  have shape : ∃ x again, appPortSetup lane width client rate txclk rclk group c s =
      { s := ((((s.leaveLanes lane).setPort lane x).claimLanes lane rate x).releaseIf lane again).portRegs lane } ∧ x.client = client ∧
      x.width = width ∧ x.rate = rate := ⟨_, _, if_neg hc, rfl, rfl, rfl⟩
  obtain ⟨x, again, heq, rfl, rfl, rfl⟩ := shape
  refine ⟨_, heq, ?_⟩
  generalize s.leaveLanes lane = u at kept ⊢
  have claimed : KeepsForm lane (u.setPort lane x) ((u.setPort lane x).claimLanes lane x.rate x) :=
    KeepsForm.foldl (fun s _ => (KeepsForm.wr s _ _).trans (KeepsForm.wr _ _ _)) _ _
  generalize (u.setPort lane x).claimLanes lane x.rate x = v at claimed ⊢
  have regs := KeepsForm.portRegs (p := lane) (v.releaseIf lane again) lane
  generalize (v.releaseIf lane again).portRegs lane = w at regs ⊢
  have same : ∀ q, (v.releaseIf lane again).port q = v.port q := fun q => by cases again <;> rfl
  have tick : (v.releaseIf lane again).tick = v.tick := by cases again <;> rfl
  have done : (v.releaseIf lane again).host.done = v.host.done := by cases again <;> rfl
  have at_lane : (u.setPort lane x).port lane = x := State.port_setPort_same _ _ _
  refine ⟨?_, ?_, ?_, fun q hq => ?_, ?_, ?_, ?_⟩
  · rw [regs.client, same, claimed.client, at_lane]
  · rw [regs.width, same, claimed.width, at_lane]
  · rw [regs.rate, same, claimed.rate, at_lane]
  · rw [regs.others q hq, same, claimed.others q hq, State.port_setPort_other _ _ hq, kept.others q hq]
  · rw [regs.done, done, claimed.done]
    exact kept.done
  · have waiting : v.host.release = s.host.release := claimed.release.trans kept.release
    cases again with
    | false => exact .inl (regs.release.trans waiting)
    | true => exact .inr (regs.release.trans (congrArg (· ++ [(2, lane)]) waiting))
  · rw [regs.tick, tick, claimed.tick]
    exact kept.tick

theorem chkPortSetup_out_pass (hpf : h.isPf) (hnamed : s.portNamed lane = false) (hlane : lane < 288) (hex : s.portExists lane = true) :
    ∀ c ∈ chkPortSetup lane width 0 rate txclk rclk (h.ctx s mem) s, c.bad = false := by
  refine List.forall_mem_append.mpr ⟨List.forall_mem_append.mpr ⟨pf_pass hpf, ?_⟩, ?_⟩
  · simp [ckFormat, ckAbsent, hlane, hex]
  · simp [ckCond, hnamed]

/-- A port whose form is allowed meets one check more: a lane that another port holds. -/
theorem chkPortSetup_in {c : Ctx} {busy : Bool} (hnamed : s.portNamed lane = false) (hc : client ≠ 0) (hhigh : client ≤ 6)
    (hform : portFormOk lane width client rate txclk = true) (hclk : 128 ≤ rclk)
    (hbusy : ((List.range width).any fun i => s.laneOwner (lane + i) != 0x1ff && s.laneOwner (lane + i) != lane) = busy) :
    chkPortSetup lane width client rate txclk rclk c s =
      c.pf ++ [ckFormat false] ++ [ckCond busy St.slotBusy, ckCond false St.slotBusy, ckCond false St.slotBusy] := by
  subst hbusy
  have clk : decide (rclk < 128) = false := decide_eq_false (by omega)
  have high : decide (6 < client) = false := decide_eq_false (by omega)
  have formed : (client != 0) = true := bne_iff_ne.mpr hc
  simp only [chkPortSetup, if_neg hc, hform, high, clk, hnamed, formed, Bool.not_true, Bool.or_self, Bool.true_and, Bool.false_and]

variable (hpf : h.isPf) (hrel : s.host.release = []) (hnamed : s.portNamed lane = false)
include hpf hrel hnamed

theorem execPortSetup_out (hlane : lane < 288) (hex : s.portExists lane = true) :
    ∃ t, exec (.portSetup h mem lane width 0 rate txclk rclk group) s = .next t ∧ t.portExists lane = false ∧
      (∀ q, q ≠ lane → t.port q = s.port q) ∧ t.host.done = s.host.done ++ [doneOk h s 0x16 0] := by
  obtain ⟨v, app, gone, others, done, release, tick⟩ := appPortSetup_out (s := s) (lane := lane) (width := width) (rate := rate)
    (txclk := txclk) (rclk := rclk) (group := group) (c := h.ctx s mem)
  have run := runOne_done (op := 0x16) (b := .portSetup lane width 0 rate txclk rclk group) { s := v }
    (chkPortSetup_out_pass (rate := rate) (width := width) (txclk := txclk) (rclk := rclk) hpf hnamed hlane hex) app rfl rfl tick
  refine ⟨v.complete (doneOk h s 0x16 0), next_congr ((congrArg State.releasePorts run).trans (State.releasePorts_none (release.trans hrel))),
    gone, others, congrArg (· ++ _) done⟩

theorem execPortSetup_in (hlow : 0 < client) (hhigh : client ≤ 5) (hform : portFormOk lane width client rate txclk = true)
    (hclk : 128 ≤ rclk) (hfree : ∀ i, i < width → s.laneOwner (lane + i) = 0x1ff ∨ s.laneOwner (lane + i) = lane) :
    ∃ t, exec (.portSetup h mem lane width client rate txclk rclk group) s = .next t ∧ (t.port lane).client = client ∧
      (t.port lane).width = width ∧ (t.port lane).rate = rate ∧ (∀ q, q ≠ lane → t.port q = s.port q) ∧
      t.host.done = s.host.done ++ [doneOk h s 0x16 0] ∧ t.host.release = [] := by
  have hc : client ≠ 0 := by omega
  obtain ⟨v, app, cl, wd, rt, others, done, release, tick⟩ := appPortSetup_in (s := s) (lane := lane) (width := width) (rate := rate)
    (txclk := txclk) (rclk := rclk) (group := group) (c := h.ctx s mem) hc
  have busy : ((List.range width).any fun i => s.laneOwner (lane + i) != 0x1ff && s.laneOwner (lane + i) != lane) = false := by
    simp only [List.any_eq_false, List.mem_range, Bool.and_eq_true, bne_iff_ne, not_and, not_not]
    exact fun i hi hne => (hfree i hi).resolve_left hne
  have pass : ∀ c ∈ chkPortSetup lane width client rate txclk rclk (h.ctx s mem) s, c.bad = false := by
    rw [chkPortSetup_in hnamed hc (by omega) hform hclk busy]
    exact List.forall_mem_append.mpr ⟨List.forall_mem_append.mpr ⟨pf_pass hpf, by simp [ckFormat]⟩, by simp [ckCond]⟩
  have run := runOne_done (op := 0x16) (b := .portSetup lane width client rate txclk rclk group) { s := v } pass app rfl rfl tick
  rw [hrel] at release
  obtain release | release := release
  · exact ⟨v.complete (doneOk h s 0x16 0), next_congr ((congrArg State.releasePorts run).trans (State.releasePorts_none release)), cl, wd, rt,
      others, congrArg (· ++ _) done, release⟩
  · generalize hw : (v.complete (doneOk h s 0x16 0)).noRelease = w
    have form : KeepsForm lane w (w.releasePort lane) := KeepsForm.releasePort w
    have port : ∀ q, w.port q = v.port q := fun q => by rw [← hw]; rfl
    have out : (v.complete (doneOk h s 0x16 0)).releasePorts = w.releasePort lane := by
      rw [State.releasePorts_one (s := v.complete (doneOk h s 0x16 0)) (p := lane) release, hw]
    refine ⟨_, next_congr ((congrArg State.releasePorts run).trans out), ?_, ?_, ?_, fun q hq => ?_, ?_, ?_⟩
    · rw [form.client, port, cl]
    · rw [form.width, port, wd]
    · rw [form.rate, port, rt]
    · rw [form.others q hq, port, others q hq]
    · rw [form.done, ← hw]
      exact congrArg (· ++ _) done
    · rw [form.release, ← hw]
      rfl

theorem execPortSetup_busy {i : Nat} (hlow : 0 < client) (hhigh : client ≤ 6) (hform : portFormOk lane width client rate txclk = true)
    (hclk : 128 ≤ rclk) (hi : i < width) (howned : s.laneOwner (lane + i) ≠ 0x1ff) (hother : s.laneOwner (lane + i) ≠ lane) :
    exec (.portSetup h mem lane width client rate txclk rclk group) s = .next (s.complete (doneRefused h s 0x16 St.slotBusy 0)) := by
  have hc : client ≠ 0 := by omega
  have busy : ((List.range width).any fun i => s.laneOwner (lane + i) != 0x1ff && s.laneOwner (lane + i) != lane) = true := by
    simp only [List.any_eq_true, List.mem_range, Bool.and_eq_true, bne_iff_ne]
    exact ⟨i, hi, howned, hother⟩
  have fails : firstFail (chkPortSetup lane width client rate txclk rclk (h.ctx s mem) s) = some ⟨St.slotBusy, 0⟩ := by
    rw [chkPortSetup_in hnamed hc hhigh hform hclk busy]
    refine firstFail_eq_some ⟨ckCond true St.slotBusy, by simp, rfl⟩ fun k hk hbad => ?_
    simp only [List.mem_append, List.mem_cons, List.not_mem_nil, or_false] at hk
    obtain (hk | rfl) | rfl | rfl | rfl := hk
    · exact absurd hbad (by rw [pf_pass hpf k hk]; decide)
    · exact absurd hbad (by decide)
    · exact ⟨rfl, rfl⟩
    · exact ⟨rfl, rfl⟩
    · exact ⟨rfl, rfl⟩
  have run := runOne_refused (op := 0x16) (b := .portSetup lane width client rate txclk rclk group)
    (app := appPortSetup lane width client rate txclk rclk group) fails (by decide) (by decide) (by simp) (by simp)
  exact next_congr ((congrArg State.releasePorts run).trans (State.releasePorts_none hrel))

end

/-- Settles O41, command by command. -/
theorem clientCommands : Obligations.ClientCommands := by
  refine ⟨fun s p x hx => ⟨fun stopped => ?stopped, fun l sig cdr o ho => ⟨fun none => ?unowned, fun owned powered hsig hcdr => ?signal⟩,
      fun running => ⟨fun k lane => execAmLock_second hx running, fun k => execAmLockLoss_fourth hx running,
        execDeskewComplete_locked hx running, fun unlocked => ?skew, fun n => execBlockLock_gain hx running, fun n few => ?fewGood,
        fun n => execBlockLockLoss_lose hx running, fun n few => ?fewBad, fun b => execHiSerChange_ether hx running,
        fun lf rf => execClientFaultRx_changed hx running, fun i => execFlexoDefectSet_gidm hx running,
        fun i => execFlexoDefectClr_gidm hx, fun n u sop => execClientIngressMap_codewords hx running⟩,
      fun made level ovf unformed => ?unformed, fun made level ovf t own formed hown ht alone noOwn clean => ?egress⟩,
    fun s h mem lane width client rate txclk rclk group hpf hrel hnamed => ⟨fun out hlane hex => ?out,
      fun hlow hhigh hform hclk hfree => execPortSetup_in hpf hrel hnamed hlow hhigh hform hclk hfree,
      fun i hlow hhigh hform hclk hi howned hother => execPortSetup_busy hpf hrel hnamed hlow hhigh hform hclk hi howned hother⟩⟩
  case stopped =>
    subst hx
    exact ⟨fun _ _ _ => execAmLock_stopped stopped, fun _ => execAmLockLoss_stopped stopped, execDeskewComplete_stopped stopped,
      fun _ => execBlockLock_stopped stopped, fun _ => execBlockLockLoss_stopped stopped, fun _ => execHiSerChange_stopped stopped,
      fun _ _ => execClientFaultRx_stopped stopped, fun _ _ => execFlexoDefectSet_stopped stopped,
      fun _ _ _ _ _ => execClientIngressMap_stopped stopped⟩
  case unowned => exact next_congr (if_pos (.inl (ho.trans none)))
  case signal =>
    subst hsig hcdr
    exact execClientLaneSignal_good ho owned powered
  case skew =>
    subst hx
    exact next_congr (if_neg (by simp [unlocked]))
  case fewGood => exact next_congr (if_neg (by simp [few]))
  case fewBad => exact next_congr (if_neg (by simp [few]))
  case unformed =>
    subst hx
    exact next_congr (if_pos unformed)
  case egress =>
    subst noOwn
    exact execClientEgressMap_plain hx formed hown ht alone clean
  case out =>
    subst out
    exact execPortSetup_out hpf hrel hnamed hlane hex

end Sys2Proof.Machine

/-! ### KEY_LOAD of a key that does not unwrap (R299, R307) -/

namespace Sys2Proof.Machine

/-- A module whose SA 0 belongs to T0000, is EMPTY, and has no KEK to unwrap with. -/
def noKekState : State := { sas := [(0, { state := 1 })] }

/-- A descriptor of the PF for T0000. -/
def noKekHdr : ReqHdr := { fn := 0, ring := 0, dn := 0, tenant := 0 }

/-- Host memory with 56 bytes that stand for a wrapped key. -/
def noKekMem : HostMem := [(64, List.replicate 56 0)]

/-- The events that wait after a step. -/
def waitingEvents : Host.Outcome State Fault Refusal → Nat
  | .next t => t.host.events.length
  | _ => 0

/-- The refused load leaves KEY_UNWRAP_FAIL behind. -/
theorem keyLoad_noKek_events : waitingEvents (exec (.keyLoad noKekHdr noKekMem 0 64) noKekState) = 1 := by decide +kernel

theorem noKekState_reason : noKekState.unwrapKey 0 (List.replicate 56 0) = .error 4 := (rfl)

/-- Refutes O48: a KEY_LOAD whose key does not unwrap also counts in UNWRAP_FAIL and raises KEY_UNWRAP_FAIL (R299, R307), which the
statement's refusal leaves out. -/
theorem not_associationCommands : ¬ Obligations.AssociationCommands := by
  intro claim
  obtain ⟨commands, -⟩ := claim noKekState noKekHdr noKekMem 0 { state := 1 } (by decide +kernel)
  obtain ⟨-, -, owned⟩ := commands (by decide) (by decide) (by decide +kernel)
  obtain ⟨-, -, -, load, -⟩ := owned (by decide) (.inl (by decide))
  have refused : exec (.keyLoad noKekHdr noKekMem 0 64) noKekState =
      .next (noKekState.complete (doneRefused noKekHdr noKekState 0x33 St.keyUnwrap 4)) :=
    load 64 (List.replicate 56 0) (.error 4) (by decide) (by decide +kernel) (by decide +kernel) noKekState_reason
  have none : waitingEvents (exec (.keyLoad noKekHdr noKekMem 0 64) noKekState) = 0 := by
    rw [refused]
    decide
  exact absurd (keyLoad_noKek_events.symm.trans none) (by decide)

end Sys2Proof.Machine

/-! ### What sending over the Rhizome and a port's coming up leave (R418, R422, R423, R428) -/

namespace Sys2Proof.Machine

/-! #### The mesh record -/

@[simp] theorem State.mport_setMport_same (s : State) (p : Nat) (x : MeshPort) : (s.setMport p x).mport p = x := Tab.get_set_same _ _ _ _

theorem State.mport_setMport_other (s : State) {p k : Nat} (x : MeshPort) (h : k ≠ p) : (s.setMport p x).mport k = s.mport k :=
  Tab.get_set_other _ _ _ h

@[simp] theorem State.wr_mport (s : State) (x : Fld) (v p : Nat) : (s.wr x v).mport p = s.mport p := (rfl)
@[simp] theorem State.setMport_rd (s : State) (p : Nat) (x : MeshPort) (y : Fld) : (s.setMport p x).rd y = s.rd y := (rfl)
@[simp] theorem State.setMport_regs (s : State) (p : Nat) (x : MeshPort) : (s.setMport p x).regs = s.regs := (rfl)

@[simp] theorem State.dbEntry_setDb_same (s : State) (a : Nat) (e : Option LsaRec) : (s.setDb a e).dbEntry a = e := Tab.get_set_same _ _ _ _

/-! #### Queueing -/

/-- Only messages were queued, or counted as dropped. -/
structure MeshQueues (s t : State) : Prop where
  touches : t = { s with regs := t.regs, mesh := t.mesh }
  rd : ∀ x : Fld, x.Apart R.MSH_CNT_TX_DROP → t.rd x = s.rd x
  port : ∀ p, ∃ q, t.mport p = { s.mport p with queue := q }
  mesh : t.mesh = { s.mesh with ports := t.mesh.ports }

namespace MeshQueues

variable {s t u : State}

theorem refl (s : State) : MeshQueues s s := ⟨rfl, fun _ _ => rfl, fun _ => ⟨_, rfl⟩, rfl⟩

theorem trans (h : MeshQueues s t) (h' : MeshQueues t u) : MeshQueues s u where
  touches := h'.touches.trans (by rw [h.touches])
  rd x hx := (h'.rd x hx).trans (h.rd x hx)
  port p := by
    obtain ⟨q, hq⟩ := h.port p
    obtain ⟨r, hr⟩ := h'.port p
    exact ⟨r, by rw [hr, hq]⟩
  mesh := h'.mesh.trans (by rw [h.mesh])

theorem foldl {α : Type} {g : State → α → State} (hg : ∀ s a, MeshQueues s (g s a)) (l : List α) (s : State) :
    MeshQueues s (l.foldl g s) := by
  induction l generalizing s with
  | nil => exact refl s
  | cons a l ih => exact (hg s a).trans (ih (g s a))

theorem meshQueue (s : State) (p cls : Nat) (b : List Byte) : MeshQueues s (s.meshQueue p cls b) := by
  unfold State.meshQueue
  dsimp only
  split
  · exact ⟨rfl, fun x hx => State.rd_wr_apart s _ (by decide) hx, fun _ => ⟨_, rfl⟩, rfl⟩
  · refine ⟨rfl, fun _ _ => rfl, fun k => ?_, rfl⟩
    by_cases hk : k = p
    · subst hk
      exact ⟨_, State.mport_setMport_same s k _⟩
    · exact ⟨_, State.mport_setMport_other s _ hk⟩

theorem meshLink (s : State) (p typ cls : Nat) (b : List Byte) : MeshQueues s (s.meshLink p typ cls b) := meshQueue s _ _ _

theorem meshFlood (s : State) (typ src : Nat) (b : List Byte) (skip : Option Nat) : MeshQueues s (s.meshFlood typ src b skip) :=
  foldl (fun s _ => meshQueue s _ _ _) _ s

theorem floodOn (s : State) (p : Nat) (m : MeshMsg) : MeshQueues s (s.floodOn p m) := by
  unfold State.floodOn
  split
  · exact foldl (fun s _ => meshQueue s _ _ _) _ s
  · exact refl s

theorem tick (h : MeshQueues s t) : t.tick = s.tick := (congrArg State.tick h.touches :)
theorem fuse (h : MeshQueues s t) : t.fuse = s.fuse := (congrArg State.fuse h.touches :)
theorem db (h : MeshQueues s t) : t.mesh.db = s.mesh.db := (congrArg MeshSt.db h.mesh :)
theorem dbEntry (h : MeshQueues s t) (a : Nat) : t.dbEntry a = s.dbEntry a := congrArg (fun l => Tab.get (fun _ => none) l a) h.db
theorem state (h : MeshQueues s t) : t.meshState = s.meshState := h.rd _ (.inl (by decide))
theorem addr (h : MeshQueues s t) : t.meshAddr = s.meshAddr := h.rd _ (.inl (by decide))

end MeshQueues

/-! #### Coming up and originating -/

/-- Beside that events were raised, own LSAs originated and collecting may have begun, with changes of the fields `l`. -/
structure MeshSends (l : List Fld) (s t : State) : Prop where
  touches : t = { s with regs := t.regs, host := { s.host with events := t.host.events }, mesh := t.mesh }
  rd : ∀ x : Fld, (∀ y ∈ l, x.Apart y) → t.rd x = s.rd x
  port : ∀ p, ∃ q, t.mport p = { s.mport p with queue := q }
  mesh : t.mesh = { s.mesh with ports := t.mesh.ports, db := t.mesh.db, dbChanged := t.mesh.dbChanged, lsaSeq := t.mesh.lsaSeq,
                                lsaTick := t.mesh.lsaTick, lsaSent := t.mesh.lsaSent, collect := t.mesh.collect }

/-- The fields that an origination may change. -/
def lsaFields : List Fld := [R.MSH_CNT_TX_DROP, R.MSH_STAT_HELD]

namespace MeshSends

variable {s t u : State} {l : List Fld}

theorem refl (s : State) : MeshSends l s s := ⟨rfl, fun _ _ => rfl, fun _ => ⟨_, rfl⟩, rfl⟩

theorem trans (h : MeshSends l s t) (h' : MeshSends l t u) : MeshSends l s u where
  touches := h'.touches.trans (by rw [h.touches])
  rd x hx := (h'.rd x hx).trans (h.rd x hx)
  port p := by
    obtain ⟨q, hq⟩ := h.port p
    obtain ⟨r, hr⟩ := h'.port p
    exact ⟨r, by rw [hr, hq]⟩
  mesh := h'.mesh.trans (by rw [h.mesh])

theorem mono {l' : List Fld} (h : MeshSends l s t) (hl : ∀ y ∈ l, y ∈ l') : MeshSends l' s t :=
  ⟨h.touches, fun x hx => h.rd x fun y hy => hx y (hl y hy), h.port, h.mesh⟩

theorem foldl {α : Type} {g : State → α → State} {m : List α} (hg : ∀ s, ∀ a ∈ m, MeshSends l s (g s a)) (s : State) :
    MeshSends l s (m.foldl g s) := by
  induction m generalizing s with
  | nil => exact refl s
  | cons a m ih => exact (hg s a List.mem_cons_self).trans (ih (fun s b hb => hg s b (List.mem_cons_of_mem a hb)) (g s a))

theorem of_queues (h : MeshQueues s t) : MeshSends lsaFields s t where
  touches := h.touches.trans (by rw [h.touches])
  rd x hx := h.rd x (hx _ List.mem_cons_self)
  port := h.port
  mesh := h.mesh.trans (by rw [h.mesh])

theorem wr (s : State) {x : Fld} (v : Nat) (hx : x.lo + x.w ≤ 32) (hl : x ∈ l) : MeshSends l s (s.wr x v) :=
  ⟨rfl, fun _ hy => State.rd_wr_apart s v hx (hy x hl), fun _ => ⟨_, rfl⟩, rfl⟩

theorem wrB (s : State) {x : Fld} (b : Bool) (hx : x.lo + x.w ≤ 32) (hl : x ∈ l) : MeshSends l s (s.wrB x b) := wr s _ hx hl

theorem raise (s : State) (code obj : Nat) (vals : List EVal) : MeshSends l s (s.raise code obj vals) :=
  ⟨rfl, fun _ _ => rfl, fun _ => ⟨_, rfl⟩, rfl⟩

theorem setDb (s : State) (a : Nat) (e : Option LsaRec) : MeshSends lsaFields s (s.setDb a e) :=
  ⟨rfl, fun y hy => State.rd_wr_apart _ _ (by decide) (hy R.MSH_STAT_HELD (by simp [lsaFields])), fun _ => ⟨_, rfl⟩, rfl⟩

theorem originate (s : State) : MeshSends lsaFields s s.originate := by
  unfold State.originate
  dsimp only
  refine trans (t := s.modMesh _) ⟨rfl, fun _ _ => rfl, fun _ => ⟨_, rfl⟩, rfl⟩ (trans (setDb _ _ _) (of_queues (MeshQueues.meshFlood _ _ _ _ _)))

theorem lsaRefresh (s : State) : MeshSends lsaFields s s.lsaRefresh := by
  unfold State.lsaRefresh
  split
  · exact originate s
  · exact refl s

theorem tick (h : MeshSends l s t) : t.tick = s.tick := (congrArg State.tick h.touches :)
theorem hopLimit (h : MeshSends l s t) : t.mesh.hopLimit = s.mesh.hopLimit := (congrArg MeshSt.hopLimit h.mesh :)
theorem addrMode (h : MeshSends l s t) : t.mesh.addrMode = s.mesh.addrMode := (congrArg MeshSt.addrMode h.mesh :)

end MeshSends

/-- What a port that came up sends first (R425, R477). -/
def State.greet (s : State) (p : Nat) (now : Bool) : State :=
  if now && s.mesh.started then (s.modMesh fun m => { m with collect := some (m.collect.getD s.tick) }).meshLink p 0x02 2 []
  else if now && s.meshBooting then s.meshLink p 0x30 3 (natBe 4 0) else s

theorem MeshSends.greet (s : State) (p : Nat) (now : Bool) : MeshSends lsaFields s (s.greet p now) := by
  unfold State.greet
  split
  · exact MeshSends.trans (t := s.modMesh _) ⟨rfl, fun _ _ => rfl, fun _ => ⟨_, rfl⟩, rfl⟩ (MeshSends.of_queues (MeshQueues.meshLink _ _ _ _ _))
  · split
    · exact MeshSends.of_queues (MeshQueues.meshLink _ _ _ _ _)
    · exact MeshSends.refl s

theorem State.upEval_same {s : State} {p : Nat} (h : s.meshUp p = s.upNow p) : s.upEval p = s := if_pos h

/-- A port whose conditions have changed: UP follows, the change is reported, and what it makes due is sent. -/
theorem State.upEval_changed {s : State} {p : Nat} (h : s.meshUp p ≠ s.upNow p) : ∃ vals, s.upEval p =
    (((s.wrB (R.MSH_PORT_STAT_UP p) (s.upNow p)).raise 0x1001 p vals).greet p (s.upNow p)).lsaRefresh := ⟨_, if_neg h⟩

theorem MeshSends.upEval (s : State) (p : Nat) : MeshSends (R.MSH_PORT_STAT_UP p :: lsaFields) s (s.upEval p) := by
  by_cases h : s.meshUp p = s.upNow p
  · rw [State.upEval_same h]
    exact refl s
  · obtain ⟨vals, heq⟩ := State.upEval_changed h
    rw [heq]
    exact (wrB s _ (show 1 + 1 ≤ 32 by decide) List.mem_cons_self).trans <| (raise _ _ _ _).trans <|
      ((MeshSends.greet _ _ _).mono fun _ => List.mem_cons_of_mem _).trans ((lsaRefresh _).mono fun _ => List.mem_cons_of_mem _)

/-- UP of a port stands apart from what an origination changes. -/
theorem up_apart_lsa (p : Nat) : ∀ y ∈ lsaFields, (R.MSH_PORT_STAT_UP p).Apart y := by
  intro y hy
  simp only [lsaFields, List.mem_cons, List.not_mem_nil, or_false] at hy
  obtain rfl | rfl := hy
  · exact .inl (show 0x40010 + 0x10 * p ≠ 0x4000c by omega)
  · exact .inl (show 0x40010 + 0x10 * p ≠ 0x40000 by omega)

theorem State.upEval_meshUp (s : State) (p : Nat) : (s.upEval p).meshUp p = s.upNow p := by
  by_cases h : s.meshUp p = s.upNow p
  · rw [State.upEval_same h, h]
  · obtain ⟨vals, heq⟩ := State.upEval_changed h
    have sent := (MeshSends.greet ((s.wrB (R.MSH_PORT_STAT_UP p) (s.upNow p)).raise 0x1001 p vals) p (s.upNow p)).trans (MeshSends.lsaRefresh _)
    rw [heq, State.meshUp, State.flag, sent.rd _ (up_apart_lsa p), State.raise_rd]
    exact State.flag_wrB_same _ _ (show 1 + 1 ≤ 32 by decide) (show 0 < 1 by decide)

/-! #### Receiving -/

/-- Taking a message counts, and nothing else. -/
theorem State.meshTake_tick {s t : State} {p typ errs : Nat} {b : List Byte} {o : Option MeshMsg} (h : s.meshTake p typ errs b = (t, o)) :
    t.tick = s.tick := kept_tick (State.meshTake_kept' h)

end Sys2Proof.Machine

/-! ### Mesh messages and the mesh descriptors (R302, R423, R432, R433, R435, R436, R441) -/

namespace Sys2Proof.Machine

/-! #### A message is delivered, forwarded or dropped -/

section
variable {s t : State} {p errs : Nat} {b : List Byte} {m : MeshMsg} {deliver : State → State} {bcast : Bool}
  (member : s.meshMember = true)
include member

theorem State.meshRoute_here (cast : m.dst ≠ 0xfff) (here : m.dst = s.meshAddr) : s.meshRoute p m bcast deliver = deliver s :=
  (if_neg (by rw [member]; decide)).trans ((if_neg cast).trans (if_pos here))

variable (cast : m.dst ≠ 0xfff) (away : m.dst ≠ s.meshAddr)

include cast away in
theorem State.meshRoute_spent (spent : m.hops ≤ 1) : s.meshRoute p m bcast deliver = s.bump R.MSH_CNT_HOP_DROP 1 :=
  (if_neg (by rw [member]; decide)).trans ((if_neg cast).trans ((if_neg away).trans (if_pos spent)))

include cast away in
theorem State.meshRoute_on {k q : Nat} (left : 1 < m.hops) (route : Tab.get (fun _ => none) s.mesh.routes m.dst = some (k, q)) :
    s.meshRoute p m bcast deliver = s.meshQueue q (meshClass m.typ) (meshBytes m.typ (m.hops - 1) m.dst m.src m.mseq m.payload) := by
  refine (if_neg (by rw [member]; decide)).trans ((if_neg cast).trans ((if_neg away).trans ((if_neg (by omega)).trans ?_)))
  rw [route]

include cast away in
theorem State.meshRoute_lost (left : 1 < m.hops) (route : Tab.get (fun _ => none) s.mesh.routes m.dst = none) :
    s.meshRoute p m bcast deliver = s.noRoute m.dst := by
  refine (if_neg (by rw [member]; decide)).trans ((if_neg cast).trans ((if_neg away).trans ((if_neg (by omega)).trans ?_)))
  rw [route]

/-- A broadcast from where its sender is reached, at the end of its hops. -/
theorem State.meshRoute_broadcast {k : Nat} (all : m.dst = 0xfff) (route : Tab.get (fun _ => none) s.mesh.routes m.src = some (k, p))
    (spent : m.hops ≤ 1) : s.meshRoute p m true deliver = deliver s := by
  refine (if_neg (by rw [member]; decide)).trans ((if_pos all).trans ((if_neg (by decide)).trans ((if_pos ?_).trans (if_pos spent))))
  rw [route]
  rfl

theorem State.meshRoute_stray (all : m.dst = 0xfff) (route : Tab.get (fun _ => none) s.mesh.routes m.src = none) :
    s.meshRoute p m true deliver = s := by
  refine (if_neg (by rw [member]; decide)).trans ((if_pos all).trans ((if_neg (by decide)).trans (if_neg ?_)))
  rw [route]
  exact nofun

end

section
variable {s t : State} {p : Fin 6} {errs : Nat} {b : List Byte} {m : MeshMsg}

theorem execRemoteCpl_taken (h : s.meshTake p.val 0x21 errs b = (t, some m)) : exec (.remoteCpl p errs b) s =
    .next (t.meshRoute p.val m false fun s => s.raise 0x1007 m.src [.raw (slice m.payload 0 32)]) := by
  show execRemoteCpl p errs b s = _
  rw [execRemoteCpl, h]

theorem execKeyRollMessage_taken (h : s.meshTake p.val 0x10 errs b = (t, some m)) : exec (.keyRollMessage p errs b) s =
    .next (t.meshRoute p.val m false fun s => s.keyRollRx m.src m.payload) := by
  show execKeyRollMessage p errs b s = _
  rw [execKeyRollMessage, h]

theorem execProtState_taken (h : s.meshTake p.val 0x11 errs b = (t, some m)) : exec (.protState p errs b) s =
    .next (t.meshRoute p.val m false fun s => s.raise 0x1008 m.src [.w (fieldAt m.payload 0 2), .raw (slice m.payload 16 36)]) := by
  show execProtState p errs b s = _
  rw [execProtState, h]

theorem execFaultReport_taken (h : s.meshTake p.val 0x12 errs b = (t, some m)) : exec (.faultReport p errs b) s =
    .next (t.meshRoute p.val m true fun s => s.raise 0x1009 m.src [.raw (slice m.payload 0 16)]) := by
  show execFaultReport p errs b s = _
  rw [execFaultReport, h]

/-- Each of the four types is routed, whatever its delivery does. -/
theorem execMeshMessage_taken {c : Instr × Nat} (hc : c ∈ ([(.remoteCpl p errs b, 0x21), (.keyRollMessage p errs b, 0x10),
    (.protState p errs b, 0x11), (.faultReport p errs b, 0x12)] : List (Instr × Nat))) (h : s.meshTake p.val c.2 errs b = (t, some m)) :
    ∃ bcast deliver, exec c.1 s = .next (t.meshRoute p.val m bcast deliver) := by
  simp only [List.mem_cons, List.not_mem_nil, or_false] at hc
  obtain rfl | rfl | rfl | rfl := hc
  · exact ⟨_, _, execRemoteCpl_taken h⟩
  · exact ⟨_, _, execKeyRollMessage_taken h⟩
  · exact ⟨_, _, execProtState_taken h⟩
  · exact ⟨_, _, execFaultReport_taken h⟩

theorem State.keyRollRx_apart {src : Nat} (h : s.twinState ≠ 2) : s.keyRollRx src b = s.raise 0x0a06 src
    [.w (beNat (slice b 0 2) % 16384), .w (beNat (slice b 4 4)), .q (beNat (slice b 8 8))] := if_neg fun both => h both.1

end

/-! #### MSH_SETUP -/

/-- The fields that MSH_SETUP may change when the addressing stays. -/
def setupFields : List Fld :=
  lsaFields ++ (List.range 6).map R.MSH_PORT_STAT_UP ++ (List.range 6).map R.MSH_PORT_STAT_ENABLED

/-- Enables or disables port `p` by its bit. -/
def State.enablePort (portEn : Nat) (s : State) (p : Nat) : State :=
  (s.wrB (R.MSH_PORT_STAT_ENABLED p) (portEn / 2 ^ p % 2 == 1)).upEval p

theorem up_mem_setupFields {p : Nat} (hp : p < 6) : ∀ y ∈ R.MSH_PORT_STAT_UP p :: lsaFields, y ∈ setupFields := by
  intro y hy
  simp only [setupFields, List.mem_append, List.mem_map, List.mem_range]
  obtain rfl | hy := List.mem_cons.mp hy
  · exact .inl (.inr ⟨p, hp, rfl⟩)
  · exact .inl (.inl hy)

theorem MeshSends.enablePort (s : State) (portEn : Nat) {p : Nat} (hp : p < 6) : MeshSends setupFields s (s.enablePort portEn p) := by
  have listed : R.MSH_PORT_STAT_ENABLED p ∈ setupFields := by
    simp only [setupFields, List.mem_append, List.mem_map, List.mem_range]
    exact .inr ⟨p, hp, rfl⟩
  exact (MeshSends.wrB s _ (show 0 + 1 ≤ 32 by decide) listed).trans ((MeshSends.upEval _ _).mono (up_mem_setupFields hp))

theorem enabled_apart_up (p k : Nat) : ∀ y ∈ R.MSH_PORT_STAT_UP p :: lsaFields, (R.MSH_PORT_STAT_ENABLED k).Apart y := by
  intro y hy
  simp only [lsaFields, List.mem_cons, List.not_mem_nil, or_false] at hy
  obtain rfl | rfl | rfl := hy
  · exact .inr (.inl (show 0 + 1 ≤ 1 by decide))
  · exact .inl (show 0x40010 + 0x10 * k ≠ 0x4000c by omega)
  · exact .inl (show 0x40010 + 0x10 * k ≠ 0x40000 by omega)

theorem State.enablePort_flag (s : State) (portEn p : Nat) :
    (s.enablePort portEn p).flag (R.MSH_PORT_STAT_ENABLED p) = (portEn / 2 ^ p % 2 == 1) := by
  rw [State.flag, State.enablePort, (MeshSends.upEval _ p).rd _ (enabled_apart_up p p)]
  exact State.flag_wrB_same _ _ (show 0 + 1 ≤ 32 by decide) (show 0 < 1 by decide)

theorem State.enablePort_flag_other (s : State) (portEn : Nat) {p k : Nat} (h : k ≠ p) :
    (s.enablePort portEn p).flag (R.MSH_PORT_STAT_ENABLED k) = s.flag (R.MSH_PORT_STAT_ENABLED k) := by
  rw [State.flag, State.enablePort, (MeshSends.upEval _ p).rd _ (enabled_apart_up p k), State.wrB,
    State.rd_wr_off _ _ (show 0x40010 + 0x10 * k ≠ 0x40010 + 0x10 * p by omega)]
  rfl

/-- Every port is enabled or disabled. -/
def State.enablePorts (s : State) (portEn n : Nat) : State := (List.range n).foldl (State.enablePort portEn) s

theorem State.enablePorts_succ (s : State) (portEn n : Nat) : s.enablePorts portEn (n + 1) = (s.enablePorts portEn n).enablePort portEn n := by
  rw [State.enablePorts, List.range_succ, List.foldl_append]
  rfl

theorem State.enablePorts_flag (s : State) (portEn : Nat) {n k : Nat} (hk : k < n) :
    (s.enablePorts portEn n).flag (R.MSH_PORT_STAT_ENABLED k) = (portEn / 2 ^ k % 2 == 1) := by
  induction n with
  | zero => omega
  | succ n ih =>
    rw [State.enablePorts_succ]
    by_cases h : k = n
    · rw [h, State.enablePort_flag]
    · rw [State.enablePort_flag_other _ _ h, ih (by omega)]

theorem MeshSends.enablePorts (s : State) (portEn : Nat) : MeshSends setupFields s (s.enablePorts portEn 6) :=
  MeshSends.foldl (fun s _ hp => MeshSends.enablePort s portEn (List.mem_range.mp hp)) s

theorem stat_apart_setup {x : Fld} (off : x.off = 0x40000) (beside : x.Apart R.MSH_STAT_HELD) : ∀ y ∈ setupFields, x.Apart y := by
  intro y hy
  simp only [setupFields, lsaFields, List.mem_append, List.mem_cons, List.not_mem_nil, or_false, List.mem_map, List.mem_range] at hy
  obtain ((rfl | rfl) | ⟨p, -, rfl⟩) | ⟨p, -, rfl⟩ := hy
  · exact .inl (by rw [off]; decide)
  · exact beside
  · exact .inl (by rw [off]; show 0x40000 ≠ 0x40010 + 0x10 * p; omega)
  · exact .inl (by rw [off]; show 0x40000 ≠ 0x40010 + 0x10 * p; omega)

section
variable {s : State} {h : ReqHdr} {mem : HostMem} (hpf : h.isPf)
include hpf

/-- The settings as MSH_SETUP gives them. -/
def MeshSt.setup (m : MeshSt) (mode addr hop : Nat) (remote serve : Bool) (sev fdst pdst : Nat) : MeshSt :=
  { m with addrMode := mode, addr := addr, hopLimit := hop, remoteEn := remote, cfgServe := serve, faultSev := sev, faultDst := fdst
           protDst := pdst, dbChanged := m.dbChanged || decide (m.hopLimit ≠ hop) }

theorem execMshSetup_same {ports mode addr hop sev fdst pdst : Nat} {remote serve : Bool} (hports : ports < 64) (hmode : mode < 2)
    (haddr : addr < 4096) (hlow : 0 < hop) (hhop : hop < 256) (hsev : sev < 8) (hfdst : fdst < 4096) (hpdst : pdst < 4096)
    (hfix : mode = 0 ∨ (addr ≠ 0 ∧ addr ≠ 0xfff)) (sameMode : s.mesh.addrMode = mode) (sameAddr : s.mesh.addr = addr) : ∃ t : State,
      exec (.mshSetup h mem ports mode addr hop remote serve sev fdst pdst) s = .next (t.complete (doneOk h s 0x70 0)) ∧
      t.mesh.hopLimit = hop ∧ t.mesh.remoteEn = remote ∧ t.mesh.cfgServe = serve ∧ t.mesh.faultSev = sev ∧ t.mesh.faultDst = fdst ∧
      t.mesh.protDst = pdst ∧ t.meshState = s.meshState ∧ t.meshAddr = s.meshAddr ∧
      ∀ k, k < 6 → t.flag (R.MSH_PORT_STAT_ENABLED k) = (ports / 2 ^ k % 2 == 1) := by
  generalize hu : s.modMesh (fun m => m.setup mode addr hop remote serve sev fdst pdst) = u
  have sends := MeshSends.enablePorts u ports
  have app : appMshSetup ports mode addr hop remote serve sev fdst pdst (h.ctx s mem) s = { s := u.enablePorts ports 6 } := by
    subst hu
    refine congrArg (fun t => ({ s := t } : Applied)) (if_neg ?_)
    simp [sameMode, sameAddr]
  have pass : ∀ c ∈ [ckFormat (decide (64 ≤ ports) || decide (1 < mode) || decide (4096 ≤ addr) || hop == 0 || decide (255 < hop) ||
      decide (7 < sev) || decide (4096 ≤ fdst) || decide (4096 ≤ pdst) || (mode == 1 && (addr == 0 || addr == 0xfff)))], c.bad = false := by
    simp only [List.mem_singleton, forall_eq]
    refine ckFormat_pass ?_
    simp only [Bool.or_eq_false_iff, decide_eq_false_iff_not, beq_eq_false_iff_ne, Bool.and_eq_false_iff]
    omega
  refine ⟨u.enablePorts ports 6, next_congr (runOne_pf { s := u.enablePorts ports 6 } hpf rfl pass app rfl rfl ?_), ?_, ?_, ?_, ?_, ?_, ?_, ?_, ?_,
    fun k hk => State.enablePorts_flag u ports hk⟩
  · exact sends.tick.trans (by rw [← hu]; rfl)
  iterate 6
    · rw [sends.mesh, ← hu]
      rfl
  iterate 2
    · exact (sends.rd _ (stat_apart_setup rfl (.inr (by decide)))).trans (by rw [← hu]; rfl)

theorem execMshRemote_ok {allow : List Nat} (hlen : allow.length = 16) (hallow : ∀ a ∈ allow, a < 0xfff) :
    exec (.mshRemote h mem allow) s = .next ((s.modMesh fun x => { x with allow := allow }).complete (doneOk h s 0x71 0)) := by
  have fits : (allow.any fun a => decide (4096 ≤ a) || a == 0xfff) = false := by
    simp only [List.any_eq_false, Bool.or_eq_true, decide_eq_true_eq, beq_iff_eq]
    intro a ha
    have := hallow a ha
    omega
  exact next_congr (runOne_pf _ hpf rfl (by simp [ckFormat, hlen, fits]) rfl rfl rfl rfl)

theorem execMshSend_ok {dst len addr k q : Nat} {b : List Byte} (halign : addr % 64 = 0) (hread : readHost mem addr len = some b)
    (hlayout : remoteLayoutOk b = true) (hlow : 0 < dst) (hhigh : dst < 0xfff) (hself : dst ≠ s.meshAddr) (hstate : s.meshState = 2)
    (route : Tab.get (fun _ => none) s.mesh.routes dst = some (k, q))
    (room : ((s.mport q).queue.filter fun x => x.1 == 3).length < 64) : exec (.mshSend h mem dst len addr) s = .next
      ((((s.modMesh fun x => { x with mseq := (x.mseq + 1) % 65536 }).meshQueue q 3
        (meshBytes 0x20 s.mesh.hopLimit dst s.meshAddr s.mesh.mseq b))).complete (doneOk h s 0x72 0)) := by
  have member : s.meshMember = true := by
    rw [State.meshMember, hstate]
    rfl
  have sent : s.meshUnicast 0x20 3 dst b = (s.modMesh fun x => { x with mseq := (x.mseq + 1) % 65536 }).meshQueue q 3
      (meshBytes 0x20 s.mesh.hopLimit dst s.meshAddr s.mesh.mseq b) := by
    refine (if_neg (by rw [member]; decide)).trans ?_
    dsimp only [State.nextMseq, State.modMesh]
    rw [route]
    rfl
  generalize (s.modMesh fun x => { x with mseq := (x.mseq + 1) % 65536 }).meshQueue q 3
    (meshBytes 0x20 s.mesh.hopLimit dst s.meshAddr s.mesh.mseq b) = t at sent ⊢
  have tick : t.tick = s.tick := by
    rw [← sent]
    exact (MeshTouches.meshUnicast s _ _ _ _).tick
  have pass : ∀ c ∈ [(h.ctx s mem).ckRead addr len, ckAlign addr 64,
      ckFormat (dst == 0 || decide (0xfff ≤ dst) || dst == s.meshAddr || (some b).any (fun b => !remoteLayoutOk b)),
      ckAbsent (s.meshMember && (some (k, q)).isNone), ⟨8, s.meshState == 3, St.ownership, 0⟩,
      ckCond (s.meshMember && decide (64 ≤ ((s.mport q).queue.filter fun q => q.1 == 3).length)) St.queueFull,
      ⟨12, !s.meshMember, St.addressSpaceFull, 0⟩], c.bad = false := by
    simp only [List.forall_mem_cons]
    refine ⟨?_, ckAlign_pass halign, ckFormat_pass ?_, ckAbsent_pass (by simp), ?_, ckCond_pass ?_, ?_, by simp⟩
    · show (addr % 64 == 0 && (readHost mem addr len).isNone) = false
      rw [hread]
      simp
    · simp [hlayout, hself]
      omega
    · simp [hstate]
    · simp
      omega
    · simp [member]
  refine next_congr (runOne_pf { s := t } hpf ?_ pass ?_ rfl rfl tick)
  · unfold chkMshSend
    dsimp only
    rw [show readHost (h.ctx s mem).mem addr len = some b from hread, route]
  · unfold appMshSend
    rw [show readHost (h.ctx s mem).mem addr len = some b from hread, Option.getD_some, sent]

theorem execMshDbRead_ok {buf : Nat} (halign : buf % 64 = 0) (hfits : s.readFits s.dbBytes.length) :
    exec (.mshDbRead h mem buf) s = .next (readOk h s 0x73 buf s.dbBytes) := by
  refine next_congr (runOne_pf_read hpf rfl ?_ rfl)
  simp only [List.forall_mem_cons]
  exact ⟨ckAlign_pass halign, ckBacklog_pass hfits, by simp⟩

end

/-- Settles O54, message by message and descriptor by descriptor. -/
theorem meshMessages : Obligations.MeshMessages := by
  refine ⟨fun s t p errs b m member => ⟨fun c hc taken cast away => ?routed, fun here cast => ⟨fun taken => ?cpl, fun taken => ?prot,
      fun taken => ?fault, fun taken apart => ?roll⟩, fun k all taken => ⟨fun route spent => ?broadcast, fun route => ?stray⟩⟩,
    fun s h mem hpf => ⟨?setup, fun allow hlen hallow => execMshRemote_ok hpf hlen hallow,
      fun dst len addr b k q halign hread hlayout hlow hhigh hself hstate route room =>
        execMshSend_ok hpf halign hread hlayout hlow hhigh hself hstate route room,
      fun buf halign hfits => execMshDbRead_ok hpf halign hfits⟩⟩
  case routed =>
    obtain ⟨bcast, deliver, run⟩ := execMeshMessage_taken hc taken
    exact ⟨fun spent => run.trans (next_congr (State.meshRoute_spent member cast away spent)),
      fun k q left route => run.trans (next_congr (State.meshRoute_on member cast away left route)),
      fun left route => run.trans (next_congr (State.meshRoute_lost member cast away left route))⟩
  case cpl => exact (execRemoteCpl_taken taken).trans (next_congr (State.meshRoute_here member cast here))
  case prot => exact (execProtState_taken taken).trans (next_congr (State.meshRoute_here member cast here))
  case fault => exact (execFaultReport_taken taken).trans (next_congr (State.meshRoute_here member cast here))
  case roll =>
    exact (execKeyRollMessage_taken taken).trans
      (next_congr ((State.meshRoute_here member cast here).trans (State.keyRollRx_apart apart)))
  case broadcast => exact (execFaultReport_taken taken).trans (next_congr (State.meshRoute_broadcast member all route spent))
  case stray => exact (execFaultReport_taken taken).trans (next_congr (State.meshRoute_stray member all route))
  case setup =>
    intro ports mode addr hop remote serve sev fdst pdst hports hmode haddr hlow hhop hsev hfdst hpdst hfix sameMode sameAddr
    exact execMshSetup_same hpf hports hmode haddr hlow hhop hsev hfdst hpdst hfix sameMode sameAddr

end Sys2Proof.Machine

/-! ### The mesh ports (R415, R416, R418, R422) -/

namespace Sys2Proof.Machine

/-! #### Lanes: block lock (R415) -/

section
variable {s : State} {p l : Nat}

@[simp] theorem State.mlane_setMlane_same (x : MeshLane) : (s.setMlane p l x).mlane p l = x := by
  rw [State.mlane, State.setMlane, State.mport_setMport_same]
  exact Tab.get_set_same _ _ _ _

theorem State.mlane_setMlane_other (x : MeshLane) {k : Nat} (h : k ≠ l) : (s.setMlane p l x).mlane p k = s.mlane p k := by
  rw [State.mlane, State.setMlane, State.mport_setMport_same]
  exact Tab.get_set_other _ _ _ h

theorem State.aMiss_setMlane (x : MeshLane) : ((s.setMlane p l x).mport p).aMiss = (s.mport p).aMiss := by
  rw [State.setMlane, State.mport_setMport_same]

@[simp] theorem State.mlocked_setMlane (x : MeshLane) (k : Nat) : (s.setMlane p l x).mlocked p k = s.mlocked p k := (rfl)

theorem State.mlocked_wr {x : Fld} (v k : Nat) (hx : x.lo + x.w ≤ 32) (h : (R.MSH_PORT_STAT_BLOCK_LOCK p).Apart x) :
    (s.wr x v).mlocked p k = s.mlocked p k := by
  rw [State.mlocked, State.rd_wr_apart s v hx h]
  rfl

/-- Setting a bit of a four-bit field sets it. -/
theorem bit_set_of_four : ∀ f < 16, ∀ l < 4, (f - f / 2 ^ l % 2 * 2 ^ l + 2 ^ l) % 2 ^ 4 / 2 ^ l % 2 = 1 := by decide +kernel

theorem State.mlocked_wrBit_true (hl : l < 4) : (s.wrBit (R.MSH_PORT_STAT_BLOCK_LOCK p) l true).mlocked p l = true := by
  rw [State.mlocked, State.wrBit, State.rd_wr_same _ _ (show 8 + 4 ≤ 32 by decide)]
  exact beq_iff_eq.mpr (bit_set_of_four _ (State.rd_lt s (R.MSH_PORT_STAT_BLOCK_LOCK p)) l hl)

theorem State.meshHeader_counts (h : s.mlocked p l = false) (few : (s.mlane p l).good + 1 < 64) :
    s.meshHeader p l true = s.setMlane p l { s.mlane p l with good := (s.mlane p l).good + 1 } :=
  (if_neg (by rw [h]; decide)).trans (if_neg (show ¬ 64 ≤ (s.mlane p l).good + 1 by omega))

theorem State.meshHeader_locks (h : s.mlocked p l = false) (many : 64 ≤ (s.mlane p l).good + 1) : s.meshHeader p l true =
    (s.wrBit (R.MSH_PORT_STAT_BLOCK_LOCK p) l true).setMlane p l { s.mlane p l with good := 0, recent := [] } :=
  (if_neg (by rw [h]; decide)).trans (if_pos many)

theorem State.meshHeader_restarts (h : s.mlocked p l = false) :
    s.meshHeader p l false = s.setMlane p l { s.mlane p l with good := 0 } := if_neg (by rw [h]; decide)

/-- A header of a locked lane that few enough of the last 64 were bad. -/
theorem State.meshHeader_stays {good : Bool} {r : List Bool} (h : s.mlocked p l = true)
    (hr : (if 64 < ((s.mlane p l).recent ++ [!good]).length then ((s.mlane p l).recent ++ [!good]).drop 1
      else (s.mlane p l).recent ++ [!good]) = r) (few : (r.filter id).length < 8) :
    s.meshHeader p l good = s.setMlane p l { s.mlane p l with recent := r } := by
  subst hr
  exact (if_pos h).trans (if_neg (by omega))

/-- The eighth bad one of the last 64. -/
theorem State.meshHeader_loses {good : Bool} {r : List Bool} (h : s.mlocked p l = true)
    (hr : (if 64 < ((s.mlane p l).recent ++ [!good]).length then ((s.mlane p l).recent ++ [!good]).drop 1
      else (s.mlane p l).recent ++ [!good]) = r) (many : 8 ≤ (r.filter id).length) :
    s.meshHeader p l good = ((((s.wrBit (R.MSH_PORT_STAT_BLOCK_LOCK p) l false).bump (R.MSH_PORT_ERR_LOCK_LOSS p) 1).setMlane p l {}).alignLoss
      p) := by
  subst hr
  exact (if_pos h).trans (if_pos many)

/-- `k` good headers in a row were seen: the lane is locked with none bad since, or counts them. -/
def State.LockProgress (s : State) (p l k : Nat) : Prop :=
  (s.mlocked p l = true ∧ ∀ b ∈ (s.mlane p l).recent, b = false) ∨
    (s.mlocked p l = false ∧ k ≤ (s.mlane p l).good ∧ (k = 0 ∨ (s.mlane p l).good < 64))

theorem State.LockProgress.next {k : Nat} (hl : l < 4) (h : s.LockProgress p l k) : (s.meshHeader p l true).LockProgress p l (k + 1) := by
  obtain ⟨locked, clean⟩ | ⟨unlocked, counted, -⟩ := h
  · generalize hr : (if 64 < ((s.mlane p l).recent ++ [!true]).length then ((s.mlane p l).recent ++ [!true]).drop 1
      else (s.mlane p l).recent ++ [!true]) = r
    have clean' : ∀ b ∈ r, b = false := by
      intro b hb
      have hb : b ∈ (s.mlane p l).recent ++ [!true] := by
        rw [← hr] at hb
        split at hb
        · exact List.mem_of_mem_drop hb
        · exact hb
      obtain hb | hb := List.mem_append.mp hb
      · exact clean b hb
      · exact List.mem_singleton.mp hb
    have none : r.filter id = [] := List.filter_eq_nil_iff.mpr fun b hb => by rw [clean' b hb]; decide
    rw [State.meshHeader_stays locked hr (by rw [none]; decide)]
    refine .inl ⟨locked, ?_⟩
    rw [State.mlane_setMlane_same]
    exact clean'
  · by_cases many : 64 ≤ (s.mlane p l).good + 1
    · rw [State.meshHeader_locks unlocked many]
      refine .inl ⟨(State.mlocked_setMlane _ _).trans (State.mlocked_wrBit_true hl), ?_⟩
      rw [State.mlane_setMlane_same]
      exact nofun
    · rw [State.meshHeader_counts unlocked (by omega)]
      refine .inr ⟨unlocked, ?_⟩
      rw [State.mlane_setMlane_same]
      dsimp only
      omega

theorem State.meshHeader_good_locks (hl : l < 4) {heads : List Bool} (good : ∀ b ∈ heads, b = true) {k : Nat} (h : s.LockProgress p l k) :
    (heads.foldl (fun s g => s.meshHeader p l g) s).LockProgress p l (k + heads.length) := by
  induction heads generalizing s k with
  | nil => exact h
  | cons b heads ih =>
    obtain rfl := good b List.mem_cons_self
    have next := ih (fun b hb => good b (List.mem_cons_of_mem _ hb)) (h.next hl)
    rwa [List.length_cons, Nat.add_right_comm, Nat.add_assoc] at *

/-- The code errors and the clock recovery that come with the headers of a lane. -/
def State.laneReport (s : State) (p l errs : Nat) (cdr : Bool) : State :=
  (s.bump (R.MSH_PORT_ERR_CODE_ERR p) errs).wrBit (R.MSH_PORT_STAT_CDR_LOCK p) l cdr

theorem State.mlocked_laneReport (s : State) (p l errs : Nat) (cdr : Bool) (k : Nat) :
    (s.laneReport p l errs cdr).mlocked p k = s.mlocked p k := by
  unfold State.laneReport State.wrBit
  rw [State.mlocked_wr _ _ (show 4 + 4 ≤ 32 by decide) (.inr (.inr (show 4 + 4 ≤ 8 by decide)))]
  exact State.mlocked_wr _ _ (show 16 + 16 ≤ 32 by decide) (.inl (show 0x40010 + 0x10 * p ≠ 0x40014 + 0x10 * p by omega))

theorem State.mlane_laneReport (s : State) (p l errs : Nat) (cdr : Bool) (k : Nat) :
    (s.laneReport p l errs cdr).mlane p k = s.mlane p k := by
  unfold State.mlane State.laneReport State.wrBit State.bump
  rw [State.wr_mport, State.wr_mport]

end

section
variable {s : State} {p : Fin 6} {l : Fin 4} {errs : Nat}

theorem execMeshBlockLock_eq {heads : List Bool} : exec (.meshBlockLock p l errs heads) s =
    .next (heads.foldl (fun s g => s.meshHeader p.val l.val g) (s.laneReport p.val l.val errs true)) := (rfl)

theorem execMeshBlockLockLoss_eq {cdr : Bool} {heads : List Bool} : exec (.meshBlockLockLoss p l errs cdr heads) s =
    .next (heads.foldl (fun s g => s.meshHeader p.val l.val g) (s.laneReport p.val l.val errs cdr)) := (rfl)

theorem execMeshBlockLockLoss_one {cdr good : Bool} : exec (.meshBlockLockLoss p l errs cdr [good]) s =
    .next ((s.laneReport p.val l.val errs cdr).meshHeader p.val l.val good) := by
  rw [execMeshBlockLockLoss_eq, List.foldl_cons, List.foldl_nil]

theorem execMeshBlockLock_locks {heads : List Bool} (unlocked : s.mlocked p.val l.val = false) (len : heads.length = 64)
    (good : ∀ b ∈ heads, b = true) : ∃ t : State, exec (.meshBlockLock p l errs heads) s = .next t ∧ t.mlocked p.val l.val = true := by
  refine ⟨_, execMeshBlockLock_eq, ?_⟩
  have open_ : (s.laneReport p.val l.val errs true).mlocked p.val l.val = false := (State.mlocked_laneReport _ _ _ _ _ _).trans unlocked
  have start : (s.laneReport p.val l.val errs true).LockProgress p.val l.val 0 := .inr ⟨open_, Nat.zero_le _, .inl rfl⟩
  have done := State.meshHeader_good_locks l.isLt good start
  rw [len] at done
  obtain ⟨locked, -⟩ | ⟨-, many, few⟩ := done
  · exact locked
  · omega

theorem execMeshBlockLock_restarts {n : Nat} (unlocked : s.mlocked p.val l.val = false) (lane : s.mlane p.val l.val = { good := n }) :
    exec (.meshBlockLock p l errs [false]) s = .next ((s.laneReport p.val l.val errs true).setMlane p.val l.val { good := 0 }) := by
  rw [execMeshBlockLock_eq, List.foldl_cons, List.foldl_nil,
    State.meshHeader_restarts ((State.mlocked_laneReport _ _ _ _ _ _).trans unlocked), State.mlane_laneReport, lane]

/-- The last 64 headers after one more, a bad one. -/
theorem recent_bad {r : List Bool} (short : r.length < 64) : (if 64 < (r ++ [!false]).length then (r ++ [!false]).drop 1 else r ++ [!false]) = r ++ [true] := by
  have len : (r ++ [true]).length = r.length + 1 := List.length_append
  exact if_neg (by rw [Bool.not_false, len]; omega)

variable {cdr : Bool} {r : List Bool} (locked : s.mlocked p.val l.val = true) (hr : (s.mlane p.val l.val).recent = r) (short : r.length < 64)
include locked hr short

theorem execMeshBlockLockLoss_eighth (bad : (r.filter id).length = 7) : exec (.meshBlockLockLoss p l errs cdr [false]) s =
    .next (((((s.laneReport p.val l.val errs cdr).wrBit (R.MSH_PORT_STAT_BLOCK_LOCK p.val) l.val false).bump
      (R.MSH_PORT_ERR_LOCK_LOSS p.val) 1).setMlane p.val l.val {}).alignLoss p.val) := by
  have held := (State.mlocked_laneReport s p.val l.val errs cdr l.val).trans locked
  refine execMeshBlockLockLoss_one.trans (next_congr (State.meshHeader_loses (r := r ++ [true]) held ?_ ?_))
  · rw [State.mlane_laneReport, hr, recent_bad short]
  · rw [List.filter_append, List.length_append, bad]
    decide

theorem execMeshBlockLockLoss_seventh (bad : (r.filter id).length < 7) : exec (.meshBlockLockLoss p l errs cdr [false]) s =
    .next ((s.laneReport p.val l.val errs cdr).setMlane p.val l.val { s.mlane p.val l.val with recent := r ++ [true] }) := by
  have held := (State.mlocked_laneReport s p.val l.val errs cdr l.val).trans locked
  refine execMeshBlockLockLoss_one.trans (next_congr ((State.meshHeader_stays (r := r ++ [true]) held ?_ ?_).trans
    (by rw [State.mlane_laneReport])))
  · rw [State.mlane_laneReport, hr, recent_bad short]
  · rw [List.filter_append, List.length_append]
    exact Nat.lt_of_lt_of_le (Nat.add_lt_add_right bad 1) (by decide)

end

/-! #### Alignment (R416) -/

section
variable {p : Nat} {o : List (Nat × Nat × Nat)}

/-- Lane `l` in a round. -/
def State.roundLane (p : Nat) (o : List (Nat × Nat × Nat)) (s : State) (l : Nat) : State :=
  if s.mlocked p l && decide (l < o.length) then
    s.setMlane p l { s.mlane p l with lane := (o[l]?).map fun y => y.1, blocks := (s.mlane p l).blocks + 1 }
  else s.setMlane p l { s.mlane p l with blocks := 0 }

/-- The first `n` lanes in a round. -/
def State.roundLanes (s : State) (p : Nat) (o : List (Nat × Nat × Nat)) (n : Nat) : State := (List.range n).foldl (State.roundLane p o) s

theorem State.roundLanes_succ (s : State) (n : Nat) : s.roundLanes p o (n + 1) = State.roundLane p o (s.roundLanes p o n) n := by
  rw [State.roundLanes, List.range_succ, List.foldl_append]
  rfl

theorem State.roundLane_regs (s : State) (l : Nat) : (State.roundLane p o s l).regs = s.regs := by
  unfold State.roundLane
  split <;> rfl

theorem State.roundLanes_regs (s : State) (n : Nat) : (s.roundLanes p o n).regs = s.regs := by
  induction n with
  | zero => rfl
  | succ n ih => rw [State.roundLanes_succ, State.roundLane_regs, ih]

theorem State.roundLane_aMiss (s : State) (l : Nat) : ((State.roundLane p o s l).mport p).aMiss = (s.mport p).aMiss := by
  unfold State.roundLane
  split <;> exact State.aMiss_setMlane _

theorem State.roundLanes_aMiss (s : State) (n : Nat) : ((s.roundLanes p o n).mport p).aMiss = (s.mport p).aMiss := by
  induction n with
  | zero => rfl
  | succ n ih => rw [State.roundLanes_succ, State.roundLane_aMiss, ih]

theorem State.mlane_roundLane_other (s : State) {k l : Nat} (h : k ≠ l) : (State.roundLane p o s l).mlane p k = s.mlane p k := by
  unfold State.roundLane
  split <;> exact State.mlane_setMlane_other _ h

theorem State.mlane_roundLanes_later (s : State) {k n : Nat} (h : n ≤ k) : (s.roundLanes p o n).mlane p k = s.mlane p k := by
  induction n with
  | zero => rfl
  | succ n ih => rw [State.roundLanes_succ, State.mlane_roundLane_other _ (by omega), ih (by omega)]

theorem State.rd_roundLanes (s : State) (n : Nat) (x : Fld) : (s.roundLanes p o n).rd x = s.rd x := State.rd_congr (State.roundLanes_regs s n) x

/-- A locked lane has one block more after its round. -/
theorem State.blocks_roundLanes (s : State) {k n : Nat} (hk : k < n) (locked : s.mlocked p k = true) (present : k < o.length) :
    ((s.roundLanes p o n).mlane p k).blocks = (s.mlane p k).blocks + 1 := by
  induction n with
  | zero => omega
  | succ n ih =>
    rw [State.roundLanes_succ]
    by_cases h : k = n
    · subst h
      have held : (s.roundLanes p o k).mlocked p k = true := by
        rw [State.mlocked, State.rd_roundLanes]
        exact locked
      rw [State.roundLane, if_pos (by simp [held, present]), State.mlane_setMlane_same, State.mlane_roundLanes_later s (Nat.le_refl k)]
    · rw [State.mlane_roundLane_other _ h, ih (by omega)]

/-- A round that keeps the conditions has the lanes 0 to 3, each once. -/
theorem roundOk_lanes (h : roundOk o = true) : o.length = 4 ∧ (o.zipIdx.map fun y => y.1.1 * 4 ^ y.2).sum < 256 := by
  simp only [roundOk, Bool.and_eq_true, beq_iff_eq, List.all_eq_true, List.mem_range, List.any_eq_true] at h
  obtain ⟨⟨⟨len, each⟩, -⟩, -⟩ := h
  have sub : List.range 4 ⊆ o.map Prod.fst := fun k hk => by
    obtain ⟨x, hx, hk⟩ := each k (List.mem_range.mp hk)
    exact List.mem_map.mpr ⟨x, hx, hk⟩
  have perm : (List.range 4).Perm (o.map Prod.fst) :=
    (List.nodup_range.subperm sub).perm_of_length_le (by simp [len])
  have small : ∀ x ∈ o, x.1 < 4 := fun x hx => List.mem_range.mp (perm.mem_iff.mpr (List.mem_map_of_mem hx))
  refine ⟨len, ?_⟩
  obtain ⟨a, b, c, d, rfl⟩ := List.length_eq_four.mp len
  simp only [List.forall_mem_cons] at small
  simp only [List.zipIdx_cons, List.zipIdx_nil, List.map_cons, List.map_nil, List.sum_cons, List.sum_nil]
  omega

/-- What a round does to the alignment of its port. -/
def State.judgeRound (s : State) (p : Nat) (o : List (Nat × Nat × Nat)) : State :=
  if s.maligned p then
    let m := if roundOk o then 0 else (s.mport p).aMiss + 1
    let s := s.setMport p { s.mport p with aMiss := m }
    if 3 ≤ m then s.alignLoss p else s
  else if roundOk o && (List.range 4).all (fun l => s.mlocked p l && decide (2 ≤ (s.mlane p l).blocks)) then
    ((s.wr (R.MSH_PORT_STAT_LANE_MAP p) (o.zipIdx.map fun y => y.1.1 * 4 ^ y.2).sum).wrB (R.MSH_PORT_STAT_ALIGNED p) true).upEval p
  else s

theorem State.meshRound_eq (s : State) (p : Nat) (o : List (Nat × Nat × Nat)) : s.meshRound p o = (s.roundLanes p o 4).judgeRound p o := (rfl)

theorem State.judgeRound_aligns {s : State} (off : s.maligned p = false) (good : roundOk o = true)
    (ready : ∀ k < 4, s.mlocked p k = true ∧ 2 ≤ (s.mlane p k).blocks) : s.judgeRound p o =
      ((s.wr (R.MSH_PORT_STAT_LANE_MAP p) (o.zipIdx.map fun y => y.1.1 * 4 ^ y.2).sum).wrB (R.MSH_PORT_STAT_ALIGNED p) true).upEval p := by
  refine (if_neg (by rw [off]; decide)).trans (if_pos ?_)
  simp only [good, Bool.true_and, List.all_eq_true, List.mem_range, Bool.and_eq_true, decide_eq_true_eq]
  exact ready

theorem State.judgeRound_waits {s : State} (off : s.maligned p = false) (bad : roundOk o = false) : s.judgeRound p o = s :=
  (if_neg (by rw [off]; decide)).trans (if_neg (by simp [bad]))

theorem State.judgeRound_holds {s : State} (on : s.maligned p = true) (good : roundOk o = true) :
    s.judgeRound p o = s.setMport p { s.mport p with aMiss := 0 } := by
  refine (if_pos on).trans ?_
  rw [good]
  rfl

theorem State.judgeRound_third {s : State} (on : s.maligned p = true) (bad : roundOk o = false) (misses : 2 ≤ (s.mport p).aMiss) :
    s.judgeRound p o = (s.setMport p { s.mport p with aMiss := (s.mport p).aMiss + 1 }).alignLoss p := by
  refine (if_pos on).trans ?_
  rw [bad]
  exact if_pos (show 3 ≤ (s.mport p).aMiss + 1 by omega)

/-- The fields of a port's state that its coming up leaves. -/
theorem stat_apart_up {x : Fld} (off : x.off = 0x40010 + 0x10 * p) (beside : 2 ≤ x.lo) : ∀ y ∈ R.MSH_PORT_STAT_UP p :: lsaFields, x.Apart y := by
  intro y hy
  simp only [lsaFields, List.mem_cons, List.not_mem_nil, or_false] at hy
  obtain rfl | rfl | rfl := hy
  · exact .inr (.inr beside)
  · exact .inl (by rw [off]; show 0x40010 + 0x10 * p ≠ 0x4000c; omega)
  · exact .inl (by rw [off]; show 0x40010 + 0x10 * p ≠ 0x40000; omega)

theorem State.alignLoss_spec {s : State} (on : s.maligned p = true) : (s.alignLoss p).maligned p = false ∧ ((s.alignLoss p).mport p).aMiss = 0 := by
  generalize hu : (s.bump (R.MSH_PORT_ERR_ALIGN_LOSS p) 1).wrB (R.MSH_PORT_STAT_ALIGNED p) false = u
  generalize hv : u.setMport p { u.mport p with aMiss := 0 } = v
  have heq : s.alignLoss p = v.upEval p := by
    rw [← hv, ← hu]
    exact if_pos on
  have sends := MeshSends.upEval v p
  refine ⟨?_, ?_⟩
  · rw [heq, State.maligned, State.flag, sends.rd _ (stat_apart_up rfl (show 2 ≤ 2 by decide)), ← hv, State.setMport_rd, ← hu]
    exact State.flag_wrB_same _ _ (show 2 + 1 ≤ 32 by decide) (show 0 < 1 by decide)
  · obtain ⟨q, hq⟩ := sends.port p
    rw [heq, hq, ← hv, State.mport_setMport_same]

variable {s : State}

theorem State.roundLanes_maligned (n : Nat) : (s.roundLanes p o n).maligned p = s.maligned p := by
  rw [State.maligned, State.flag, State.rd_roundLanes]
  rfl

theorem State.meshRound_aligns (locked : ∀ k < 4, s.mlocked p k = true) (off : s.maligned p = false) (good : roundOk o = true)
    (blocks : ∀ k < 4, 1 ≤ (s.mlane p k).blocks) : (s.meshRound p o).maligned p = true ∧
      (s.meshRound p o).rd (R.MSH_PORT_STAT_LANE_MAP p) = (o.zipIdx.map fun y => y.1.1 * 4 ^ y.2).sum := by
  obtain ⟨len, map⟩ := roundOk_lanes good
  have ready : ∀ k < 4, (s.roundLanes p o 4).mlocked p k = true ∧ 2 ≤ ((s.roundLanes p o 4).mlane p k).blocks := fun k hk => by
    refine ⟨by rw [State.mlocked, State.rd_roundLanes]; exact locked k hk, ?_⟩
    rw [State.blocks_roundLanes s hk (locked k hk) (by omega)]
    exact Nat.succ_le_succ (blocks k hk)
  rw [State.meshRound_eq, State.judgeRound_aligns ((State.roundLanes_maligned 4).trans off) good ready]
  generalize s.roundLanes p o 4 = u
  generalize (o.zipIdx.map fun y => y.1.1 * 4 ^ y.2).sum = n at map ⊢
  refine ⟨?_, ?_⟩
  · rw [State.maligned, State.flag, (MeshSends.upEval _ p).rd _ (stat_apart_up rfl (show 2 ≤ 2 by decide))]
    exact State.flag_wrB_same _ _ (show 2 + 1 ≤ 32 by decide) (show 0 < 1 by decide)
  · rw [(MeshSends.upEval _ p).rd _ (stat_apart_up rfl (show 2 ≤ 12 by decide)), State.wrB,
      State.rd_wr_apart _ _ (show 2 + 1 ≤ 32 by decide) (.inr (.inr (show 2 + 1 ≤ 12 by decide)))]
    exact (State.rd_wr_same _ _ (show 12 + 8 ≤ 32 by decide)).trans (Nat.mod_eq_of_lt map)

theorem State.meshRound_loses (on : s.maligned p = true) (bad : roundOk o = false) (misses : 2 ≤ (s.mport p).aMiss) :
    (s.meshRound p o).maligned p = false ∧ ((s.meshRound p o).mport p).aMiss = 0 := by
  have held : (s.roundLanes p o 4).maligned p = true := (State.roundLanes_maligned 4).trans on
  rw [State.meshRound_eq, State.judgeRound_third held bad ((State.roundLanes_aMiss s 4).symm ▸ misses)]
  exact State.alignLoss_spec held

theorem State.meshRound_holds (on : s.maligned p = true) (good : roundOk o = true) :
    (s.meshRound p o).regs = s.regs ∧ ((s.meshRound p o).mport p).aMiss = 0 := by
  rw [State.meshRound_eq, State.judgeRound_holds ((State.roundLanes_maligned 4).trans on) good]
  exact ⟨State.roundLanes_regs s 4, by rw [State.mport_setMport_same]⟩

theorem State.meshRound_waits (off : s.maligned p = false) (bad : roundOk o = false) : (s.meshRound p o).regs = s.regs := by
  rw [State.meshRound_eq, State.judgeRound_waits ((State.roundLanes_maligned 4).trans off) bad]
  exact State.roundLanes_regs s 4

end

/-! #### HELLO and what is sent (R418, R422) -/

section
variable {s t : State} {p : Fin 6} {errs : Nat} {b : List Byte}

theorem execHello_none (h : s.meshTake p.val 0x01 errs b = (t, none)) : exec (.hello p errs b) s = .next t := by
  show execHello p errs b s = _
  rw [execHello, h]

/-- The neighbour that a HELLO tells of. -/
def State.heardHello (s : State) (p : Nat) (m : MeshMsg) (late : Option Nat) : State :=
  (s.setMport p { s.mport p with
    uid := some (beNat (slice m.payload 0 8)), epoch := beNat (slice m.payload 10 8), flags := beNat (slice m.payload 19 1)
    helloTick := some s.tick, uidTick := late }).wr (R.MSH_PORT_STAT_NBR_ADDR p) (beNat (slice m.payload 8 2) % 4096)

theorem execHello_taken {m : MeshMsg} (h : s.meshTake p.val 0x01 errs b = (t, some m)) : ∃ late,
    exec (.hello p errs b) s = .next (((t.heardHello p.val m late).upEval p.val).lsaRefresh) := by
  show ∃ _, execHello p errs b s = _
  rw [execHello, h]
  exact ⟨_, rfl⟩

theorem execHello_learns {m : MeshMsg} (h : s.meshTake p.val 0x01 errs b = (t, some m)) : ∃ v : State, exec (.hello p errs b) s = .next v ∧
    (v.mport p.val).uid = some (beNat (slice m.payload 0 8)) ∧ (v.mport p.val).epoch = beNat (slice m.payload 10 8) ∧
    (v.mport p.val).flags = beNat (slice m.payload 19 1) ∧ (v.mport p.val).helloTick = some s.tick ∧
    v.rd (R.MSH_PORT_STAT_NBR_ADDR p.val) = beNat (slice m.payload 8 2) % 4096 := by
  obtain ⟨late, run⟩ := execHello_taken h
  have sends := (MeshSends.upEval (t.heardHello p.val m late) p.val).trans
    ((MeshSends.lsaRefresh _).mono fun _ => List.mem_cons_of_mem _)
  have port : (t.heardHello p.val m late).mport p.val = _ := (State.wr_mport _ _ _ _).trans (State.mport_setMport_same _ _ _)
  obtain ⟨q, hq⟩ := sends.port p.val
  refine ⟨_, run, ?_, ?_, ?_, ?_, ?_⟩
  · rw [hq, port]
  · rw [hq, port]
  · rw [hq, port]
  · rw [hq, port]
    exact congrArg some (State.meshTake_tick h)
  · rw [sends.rd _ (stat_apart_up rfl (show 2 ≤ 20 by decide))]
    exact (State.rd_wr_same _ _ (show 20 + 12 ≤ 32 by decide)).trans (Nat.mod_eq_of_lt (Nat.mod_lt _ (by decide)))

theorem execHelloSend_due {x : MeshPort} (enabled : s.flag (R.MSH_PORT_STAT_ENABLED p.val) = true) (aligned : s.maligned p.val = true)
    (hx : s.mport p.val = x) (hb : s.helloPayload p.val = b) (due : x.sentHello ≠ some b ∨ x.sentTick + 160 ≤ s.tick) :
    exec (.helloSend p) s = .next ((s.setMport p.val { x with sentHello := some b, sentTick := s.tick }).meshLink p.val 0x01 1 b) := by
  subst hx hb
  refine next_congr (if_pos ?_)
  simpa [enabled, aligned] using due

theorem execHelloSend_early {x : MeshPort} (hx : s.mport p.val = x) (hb : s.helloPayload p.val = b) (same : x.sentHello = some b)
    (early : s.tick < x.sentTick + 160) : exec (.helloSend p) s = .next s := by
  subst hx hb
  refine next_congr (if_neg ?_)
  simp [same, early]

theorem execMeshHelloTimeout_down {n : Nat} (heard : (s.mport p.val).helloTick = some n) (late : n + 2560 < s.tick) :
    ∃ t : State, exec (.meshHelloTimeout p) s = .next t ∧ t.meshUp p.val = false := by
  refine ⟨_, rfl, (State.upEval_meshUp s p.val).trans ?_⟩
  unfold State.upNow
  dsimp only
  rw [heard]
  simp [late]

end

/-! #### The head of the lowest class -/

section
variable {α : Type} {k : α → Nat} {x : α}

theorem insertBy_least {acc : List α} (h : ∀ y ∈ acc, k x < k y) : insertBy (fun a b => decide (k a ≤ k b)) x acc = x :: acc := by
  cases acc with
  | nil => rfl
  | cons y acc => exact if_neg (by have := h y List.mem_cons_self; simpa using this)

theorem foldl_insertBy_head {l acc : List α} (h : ∀ y ∈ l, k x ≤ k y) :
    (l.foldl (fun acc y => insertBy (fun a b => decide (k a ≤ k b)) y acc) (x :: acc)).head? = some x := by
  induction l generalizing acc with
  | nil => rfl
  | cons y l ih =>
    have later : insertBy (fun a b => decide (k a ≤ k b)) y (x :: acc) = x :: insertBy (fun a b => decide (k a ≤ k b)) y acc :=
      if_pos (decide_eq_true (h y List.mem_cons_self))
    rw [List.foldl_cons, later]
    exact ih fun z hz => h z (List.mem_cons_of_mem _ hz)

/-- The first of the elements with the least key comes first in the stable sort. -/
theorem sortBy_head {pre post : List α} (hpre : ∀ y ∈ pre, k x < k y) (hpost : ∀ y ∈ post, k x ≤ k y) :
    (sortBy (fun a b => decide (k a ≤ k b)) (pre ++ x :: post)).head? = some x := by
  have sorted : sortBy (fun a b => decide (k a ≤ k b)) (pre ++ x :: post) =
      (pre ++ x :: post).foldl (fun acc y => insertBy (fun a b => decide (k a ≤ k b)) y acc) [] := by
    cases pre <;> rfl
  rw [sorted, List.foldl_append, List.foldl_cons, insertBy_least]
  · exact foldl_insertBy_head hpost
  · exact fun y hy => hpre y ((mem_foldl_insertBy.mp hy).resolve_left (by simp))

end

theorem execMeshMessageTransmit_head {s : State} {p : Fin 6} {c : Nat} {b : List Byte} {pre rest : List (Nat × List Byte)}
    (enabled : s.flag (R.MSH_PORT_STAT_ENABLED p.val) = true) (up : s.meshUp p.val = true)
    (hq : (s.mport p.val).queue = pre ++ (c, b) :: rest) (hpre : ∀ q ∈ pre, c < q.1) (hrest : ∀ q ∈ rest, c ≤ q.1) :
    exec (.meshMessageTransmit p) s = .next ((s.setMport p.val { s.mport p.val with queue := pre ++ rest }).emit (.mesh p.val b)) := by
  have all : ((s.mport p.val).queue.zipIdx.filter fun q => s.meshUp p.val || (q.1.2[2]?) == some 0x01) =
      pre.zipIdx ++ ((c, b), pre.length) :: rest.zipIdx (pre.length + 1) := by
    rw [List.filter_eq_self.mpr fun q _ => by rw [up]; rfl, hq, List.zipIdx_append, List.zipIdx_cons, Nat.zero_add]
  have head := sortBy_head (k := fun q : (Nat × List Byte) × Nat => q.1.1) (x := ((c, b), pre.length)) (pre := pre.zipIdx)
    (post := rest.zipIdx (pre.length + 1)) (fun q hq => hpre q.1 (List.fst_mem_of_mem_zipIdx hq))
    (fun q hq => hrest q.1 (List.fst_mem_of_mem_zipIdx hq))
  have out : (s.mport p.val).queue.eraseIdx pre.length = pre ++ rest := by
    rw [hq, List.eraseIdx_append_of_length_le (Nat.le_refl _), Nat.sub_self]
    rfl
  show execMeshMessageTransmit p s = _
  unfold execMeshMessageTransmit
  dsimp only
  rw [if_neg (by rw [enabled]; decide), all, head]
  dsimp only
  rw [out]

theorem execMeshAlignLoss_round {s : State} {p : Fin 6} {o : List (Nat × Nat × Nat)} (locked : ∀ k < 4, s.mlocked p.val k = true) :
    exec (.meshAlignLoss p o) s = .next (s.meshRound p.val o) :=
  next_congr (if_pos (List.all_eq_true.mpr fun k hk => locked k (List.mem_range.mp hk)))

/-- Settles O52, lane by lane and port by port. -/
theorem meshPorts : Obligations.MeshPorts := by
  intro s p l errs cdr u hu
  subst hu
  refine ⟨fun heads _ unlocked len good => execMeshBlockLock_locks unlocked len good, fun n hcdr unlocked lane => ?restart,
    fun r locked hr short bad => execMeshBlockLockLoss_eighth locked hr short bad,
    fun r locked hr short bad => execMeshBlockLockLoss_seventh locked hr short bad,
    fun o locked => ⟨fun off good blocks => ⟨_, rfl, State.meshRound_aligns locked off good blocks⟩,
      fun off bad => ⟨_, rfl, State.meshRound_waits off bad⟩,
      fun on bad misses => ⟨_, execMeshAlignLoss_round locked, State.meshRound_loses on bad misses⟩,
      fun on good => ⟨_, execMeshAlignLoss_round locked, State.meshRound_holds on good⟩⟩,
    fun o unlocked => ?unlocked, fun off => ?off, fun x b enabled aligned hx hb => ⟨execHelloSend_due enabled aligned hx hb,
      execHelloSend_early hx hb⟩, fun b t h => execHello_none h, fun b t m h => execHello_learns h, fun same => ?same,
    fun n _ heard late => execMeshHelloTimeout_down heard late, fun disabled => ?disabled,
    fun c b pre rest enabled up hq hpre hrest => execMeshMessageTransmit_head enabled up hq hpre hrest⟩
  case restart =>
    subst hcdr
    exact execMeshBlockLock_restarts unlocked lane
  case unlocked =>
    refine next_congr (if_neg fun all => ?_)
    have held := List.all_eq_true.mp all l.val (List.mem_range.mpr l.isLt)
    rw [unlocked] at held
    cases held
  case off => exact next_congr (if_neg (by simp [off]))
  case same => exact next_congr (State.upEval_same same.symm)
  case disabled => exact next_congr (if_pos (by rw [disabled]; rfl))

end Sys2Proof.Machine

/-! ### The mesh database, admission and routes (R417, R419 to R421, R423, R425 to R430) -/

namespace Sys2Proof.Machine

/-! #### DB_REQ -/

section
variable {s t : State} {p : Fin 6} {errs : Nat} {b : List Byte} {m : MeshMsg}

/-- The messages of class `cls` that wait on port `p`. -/
def State.waiting (s : State) (p cls : Nat) : Nat := ((s.mport p).queue.filter fun q => q.1 == cls).length

theorem State.meshQueue_room {p cls : Nat} (room : s.waiting p cls < 64) :
    s.meshQueue p cls b = s.setMport p { s.mport p with queue := (s.mport p).queue ++ [(cls, b)] } := if_neg (Nat.not_le.mpr room)

/-- One entry of the database sent on port `p`. -/
def State.sendEntry (p : Nat) (s : State) (q : Nat × Option LsaRec) : State :=
  match q.2 with
  | some e => s.meshQueue p 2 (meshBytes 0x03 s.mesh.hopLimit 0xfff q.1 0 (lsaPayload q.1 e))
  | none => s

/-- While the class has room, the entries are all queued. -/
theorem State.sendEntries_room {p hop : Nat} {db : Tab (Option LsaRec)} (hhop : s.mesh.hopLimit = hop) (room : s.waiting p 2 + db.length ≤ 64) :
    (db.foldl (State.sendEntry p) s).regs = s.regs ∧ (∀ q ∈ (s.mport p).queue, q ∈ ((db.foldl (State.sendEntry p) s).mport p).queue) ∧
      ∀ a e, (a, some e) ∈ db → (2, meshBytes 0x03 hop 0xfff a 0 (lsaPayload a e)) ∈ ((db.foldl (State.sendEntry p) s).mport p).queue := by
  induction db generalizing s with
  | nil => exact ⟨rfl, fun _ h => h, nofun⟩
  | cons x db ih =>
    rw [List.length_cons] at room
    rw [List.foldl_cons]
    obtain ⟨a, _ | e⟩ := x
    · obtain ⟨regs, old, new⟩ := ih hhop (by omega)
      refine ⟨regs, old, fun c d hcd => new c d ((List.mem_cons.mp hcd).resolve_left ?_)⟩
      simp
    · have sent : State.sendEntry p s (a, some e) = s.setMport p { s.mport p with
          queue := (s.mport p).queue ++ [(2, meshBytes 0x03 s.mesh.hopLimit 0xfff a 0 (lsaPayload a e))] } :=
        State.meshQueue_room (by omega)
      generalize hu : State.sendEntry p s (a, some e) = u at sent ⊢
      have queue : (u.mport p).queue = (s.mport p).queue ++ [(2, meshBytes 0x03 s.mesh.hopLimit 0xfff a 0 (lsaPayload a e))] := by
        rw [sent, State.mport_setMport_same]
      have count : u.waiting p 2 = s.waiting p 2 + 1 := by
        rw [State.waiting, queue, List.filter_append, List.length_append]
        rfl
      obtain ⟨regs, old, new⟩ := ih (s := u) (by rw [sent]; exact hhop) (by omega)
      refine ⟨regs.trans (by rw [sent, State.setMport_regs]), fun q hq => old q (by rw [queue]; exact List.mem_append_left _ hq),
        fun c d hcd => ?_⟩
      obtain heq | hcd := List.mem_cons.mp hcd
      · cases heq
        refine old _ ?_
        rw [queue, hhop]
        exact List.mem_append_right _ List.mem_cons_self
      · exact new c d hcd

theorem execDbReq_taken (h : s.meshTake p.val 0x02 errs b = (t, some m)) : exec (.dbReq p errs b) s =
    .next (if 1 ≤ t.meshState ∧ t.meshState ≤ 3 then t.mesh.db.foldl (State.sendEntry p.val) t else t) := by
  show execDbReq p errs b s = _
  rw [execDbReq, h]
  rfl

/-! #### LSA -/

/-- The record that an LSA carries. -/
def lsaOf (m : MeshMsg) (tick : Nat) : LsaRec :=
  { uid := beNat (slice m.payload 2 8), seq := beNat (slice m.payload 10 4), epoch := beNat (slice m.payload 14 8)
    flags := beNat (slice m.payload 22 1)
    nbrs := (List.range 6).map fun i => beNat (slice m.payload (23 + 2 * i) 2) % 4096, tick := tick }

/-- What a received LSA of address `a` does. -/
def State.takeLsa (s : State) (p : Nat) (m : MeshMsg) (a : Nat) (e : LsaRec) : State :=
  if s.lsaNews a e = false ∨ a = 0 ∨ a = 0xfff then s.lsaConflict a e
  else if e.flags / 128 % 2 = 1 then (s.floodOn p m).dropDb a
  else ((s.setDb a (some e)).floodOn p m).lsaConflict a e

theorem execLsa_taken (h : s.meshTake p.val 0x03 errs b = (t, some m)) : exec (.lsa p errs b) s =
    .next (t.takeLsa p.val m (beNat (slice m.payload 0 2) % 4096) (lsaOf m s.tick)) := by
  rw [← State.meshTake_tick h]
  show execLsa p errs b s = _
  rw [execLsa, h]
  rfl

end

theorem stat_addr_apart : ∀ y ∈ lsaFields, R.MSH_STAT_ADDR.Apart y := by
  simp only [lsaFields, List.forall_mem_cons]
  exact ⟨.inl (by decide), .inr (.inr (by decide)), nofun⟩

theorem stat_state_apart : ∀ y ∈ lsaFields, R.MSH_STAT_STATE.Apart y := by
  simp only [lsaFields, List.forall_mem_cons]
  exact ⟨.inl (by decide), .inr (.inr (by decide)), nofun⟩

section
variable {t : State} {p a : Nat} {m : MeshMsg} {e d : LsaRec}

theorem State.lsaConflict_apart (haddr : t.meshAddr ≠ a) (hstate : t.meshState ≠ 1) : t.lsaConflict a e = t := by
  unfold State.lsaConflict
  split
  · rfl
  · rw [if_neg fun h => haddr h.2.1, if_neg fun h => hstate h.1]

theorem State.takeLsa_new (none : t.dbEntry a = none) (live : e.flags / 128 % 2 = 0) (low : a ≠ 0) (high : a ≠ 0xfff)
    (haddr : t.meshAddr ≠ a) (hstate : t.meshState ≠ 1) : t.takeLsa p m a e = (t.setDb a (some e)).floodOn p m := by
  have news : t.lsaNews a e = true := by
    rw [State.lsaNews, none]
    simp [live]
  have sends := (MeshSends.setDb t a (some e)).trans (MeshSends.of_queues (MeshQueues.floodOn (t.setDb a (some e)) p m))
  have addr : ((t.setDb a (some e)).floodOn p m).meshAddr = t.meshAddr := sends.rd _ stat_addr_apart
  have state : ((t.setDb a (some e)).floodOn p m).meshState = t.meshState := sends.rd _ stat_state_apart
  refine (if_neg (by simp [news, low, high])).trans ((if_neg (by omega)).trans (State.lsaConflict_apart ?_ ?_))
  · rwa [addr]
  · rwa [state]

theorem State.takeLsa_repeat (held : t.dbEntry a = some d) (huid : d.uid = e.uid) (old : seqLater e.seq d.seq = false)
    (haddr : t.meshAddr ≠ a) (hstate : t.meshState ≠ 1) : t.takeLsa p m a e = t := by
  have stale : t.lsaNews a e = false := by
    rw [State.lsaNews, held]
    exact (if_pos huid).trans old
  exact (if_pos (.inl stale)).trans (State.lsaConflict_apart haddr hstate)

theorem State.takeLsa_withdrawn (held : t.dbEntry a = some d) (huid : d.uid = e.uid) (later : seqLater e.seq d.seq = true)
    (dead : e.flags / 128 % 2 = 1) (low : a ≠ 0) (high : a ≠ 0xfff) : t.takeLsa p m a e = (t.floodOn p m).dropDb a := by
  have news : t.lsaNews a e = true := by
    rw [State.lsaNews, held]
    exact (if_pos huid).trans later
  exact (if_neg (by simp [news, low, high])).trans (if_pos dead)

theorem State.meshAddr_wr_state (s : State) (v : Nat) : (s.wr R.MSH_STAT_STATE v).meshAddr = s.meshAddr :=
  State.rd_wr_apart s v (by decide) (.inr (.inl (by decide)))

theorem State.meshState_wr (s : State) {v : Nat} (hv : v < 8) : (s.wr R.MSH_STAT_STATE v).meshState = v :=
  (State.rd_wr_same s v (by decide)).trans (Nat.mod_eq_of_lt hv)

theorem State.meshAddr_wr (s : State) {v : Nat} (hv : v < 4096) : (s.wr R.MSH_STAT_ADDR v).meshAddr = v :=
  (State.rd_wr_same s v (by decide)).trans (Nat.mod_eq_of_lt hv)

@[simp] theorem State.dbEntry_wr (s : State) (x : Fld) (v a : Nat) : (s.wr x v).dbEntry a = s.dbEntry a := (rfl)

/-- Giving up the address leaves the database and the addressing mode. -/
theorem State.withdraw_spec (s : State) : s.withdraw.meshAddr = 0 ∧ s.withdraw.meshState = 0 ∧ s.withdraw.mesh.db = s.mesh.db ∧
    s.withdraw.mesh.addrMode = s.mesh.addrMode := by
  have shape : ∃ u src l, s.withdraw = ((State.meshFlood u 0x03 src l none).wr R.MSH_STAT_ADDR 0).wr R.MSH_STAT_STATE 0 ∧
      u.mesh.db = s.mesh.db ∧ u.mesh.addrMode = s.mesh.addrMode := ⟨_, _, _, rfl, rfl, rfl⟩
  obtain ⟨u, src, l, heq, db, mode⟩ := shape
  have queues := MeshQueues.meshFlood u 0x03 src l none
  rw [heq]
  refine ⟨?_, State.meshState_wr _ (by decide), ?_, ?_⟩
  · rw [State.meshAddr_wr_state]
    exact State.meshAddr_wr _ (by decide)
  · rw [State.wr_mesh, State.wr_mesh, queues.db, db]
  · rw [State.wr_mesh, State.wr_mesh, queues.mesh, mode]

theorem State.beginClaim_spec (s : State) : s.beginClaim.meshAddr = s.meshAddr ∧ s.beginClaim.meshState = s.meshState ∧
    s.beginClaim.mesh.db = s.mesh.db := by
  have shape : ∃ u, s.beginClaim = s.upPorts.foldl (fun s p => s.meshLink p 0x02 2 []) u ∧ u.meshAddr = s.meshAddr ∧
      u.meshState = s.meshState ∧ u.mesh.db = s.mesh.db := ⟨_, rfl, rfl, rfl, rfl⟩
  obtain ⟨u, heq, addr, state, db⟩ := shape
  have queues : MeshQueues u (s.upPorts.foldl (fun s p => s.meshLink p 0x02 2 []) u) :=
    MeshQueues.foldl (fun s p => MeshQueues.meshLink s p _ _ _) _ u
  rw [heq]
  exact ⟨queues.addr.trans addr, queues.state.trans state, queues.db.trans db⟩

theorem State.lsaConflict_loses (other : e.uid < t.fuse.uid) (live : e.flags / 128 % 2 = 0) (member : t.meshMember = true)
    (mine : t.meshAddr = a) : (t.lsaConflict a e).meshAddr = 0 ∧ (t.lsaConflict a e).meshState = (if t.mesh.addrMode = 1 then 5 else 0) ∧
      (t.lsaConflict a e).mesh.db = t.mesh.db := by
  obtain ⟨addr, state, db, mode⟩ := t.withdraw_spec
  generalize hv : t.withdraw.raise 0x1004 a [.q e.uid] = v
  have heq : t.lsaConflict a e = if v.mesh.addrMode = 1 then v.wr R.MSH_STAT_STATE 5 else v.beginClaim := by
    rw [← hv]
    unfold State.lsaConflict
    rw [if_neg (by omega), if_pos ⟨member, mine, other⟩]
  have addr' : v.meshAddr = 0 := by rw [← hv, State.meshAddr, State.raise_rd]; exact addr
  have state' : v.meshState = 0 := by rw [← hv, State.meshState, State.raise_rd]; exact state
  have db' : v.mesh.db = t.mesh.db := by rw [← hv, State.raise_mesh, db]
  have mode' : v.mesh.addrMode = t.mesh.addrMode := by rw [← hv, State.raise_mesh, mode]
  rw [heq, mode']
  split
  · exact ⟨(v.meshAddr_wr_state 5).trans addr', State.meshState_wr v (by decide), by rw [State.wr_mesh, db']⟩
  · obtain ⟨addr, state, db⟩ := v.beginClaim_spec
    exact ⟨addr.trans addr', state.trans state', db.trans db'⟩

theorem State.takeLsa_loses (held : t.dbEntry a = some d) (own : d.uid = t.fuse.uid) (other : e.uid < t.fuse.uid)
    (live : e.flags / 128 % 2 = 0) (low : a ≠ 0) (high : a ≠ 0xfff) (member : t.meshMember = true) (mine : t.meshAddr = a) :
    (t.takeLsa p m a e).meshAddr = 0 ∧ (t.takeLsa p m a e).meshState = (if t.mesh.addrMode = 1 then 5 else 0) ∧
      (t.takeLsa p m a e).dbEntry a = some e := by
  have news : t.lsaNews a e = true := by
    rw [State.lsaNews, held]
    exact (if_neg (by omega)).trans (by simp [live, own, other])
  have heq : t.takeLsa p m a e = ((t.setDb a (some e)).floodOn p m).lsaConflict a e :=
    (if_neg (by simp [news, low, high])).trans (if_neg (by omega))
  have queues := MeshQueues.floodOn (t.setDb a (some e)) p m
  have sends := (MeshSends.setDb t a (some e)).trans (MeshSends.of_queues queues)
  have addr : ((t.setDb a (some e)).floodOn p m).meshAddr = t.meshAddr := sends.rd _ stat_addr_apart
  have state : ((t.setDb a (some e)).floodOn p m).meshState = t.meshState := sends.rd _ stat_state_apart
  have entry : ((t.setDb a (some e)).floodOn p m).dbEntry a = some e := (queues.dbEntry a).trans (State.dbEntry_setDb_same _ _ _)
  have fuse : ((t.setDb a (some e)).floodOn p m).fuse = t.fuse := (congrArg State.fuse sends.touches :)
  have mode := sends.addrMode
  rw [heq]
  generalize (t.setDb a (some e)).floodOn p m = u at addr state entry fuse mode ⊢
  have member' : u.meshMember = true := by
    rw [State.meshMember, state]
    exact member
  obtain ⟨addr', state', db'⟩ := State.lsaConflict_loses (t := u) (a := a) (e := e) (by rwa [fuse]) live member' (addr.trans mine)
  refine ⟨addr', by rw [state', mode], ?_⟩
  rw [State.dbEntry, db']
  exact entry

end

/-! #### CLAIM -/

section
variable {s t : State} {p : Fin 6} {errs : Nat} {b : List Byte} {m : MeshMsg} {uid a : Nat}

/-- A claim record is written and the claim flooded on. -/
def State.noteClaim (s : State) (p : Nat) (m : MeshMsg) (uid a : Nat) : State :=
  (s.modMesh fun x => { x with claims := Tab.set (fun _ => none) x.claims a (some (uid, s.tick)) }).floodOn p m

/-- What a received CLAIM does to a module that has begun. -/
def State.takeClaim (s : State) (p : Nat) (m : MeshMsg) (uid a : Nat) : State :=
  if (Tab.get (fun _ => none) s.mesh.claims a).all fun c => decide (uid < c.1) || decide (c.2 + 1600 ≤ s.tick) then
    let s := s.noteClaim p m uid a
    if s.meshState = 1 ∧ s.mesh.cand.map Prod.fst = some a ∧ uid < s.fuse.uid then
      if s.mesh.addrMode = 1 then s.isolateConflict a uid else s.choose (s.tick + 1)
    else s
  else s

theorem execClaim_taken (h : s.meshTake p.val 0x04 errs b = (t, some m)) (huid : beNat (slice m.payload 0 8) = uid)
    (ha : beNat (slice m.payload 8 2) % 4096 = a) : exec (.claim p errs b) s =
    .next (if t.meshState < 1 ∨ 3 < t.meshState then t.rxDiscard else t.takeClaim p.val m uid a) := by
  subst huid ha
  show execClaim p errs b s = _
  rw [execClaim, h]
  rfl

theorem State.takeClaim_old {p v n : Nat} (held : Tab.get (fun _ => none) t.mesh.claims a = some (v, n)) (higher : v ≤ uid)
    (fresh : t.tick < n + 1600) : t.takeClaim p m uid a = t := by
  refine if_neg ?_
  rw [held]
  simp
  omega

theorem State.takeClaim_yields {p n : Nat} (hstate : t.meshState = 1) (cand : t.mesh.cand = some (a, n)) (lower : uid < t.fuse.uid)
    (mode : t.mesh.addrMode = 0) (held : Tab.get (fun _ => none) t.mesh.claims a = some (t.fuse.uid, n)) :
    t.takeClaim p m uid a = (t.noteClaim p m uid a).choose (t.tick + 1) := by
  have queues : MeshQueues (t.modMesh fun x => { x with claims := Tab.set (fun _ => none) x.claims a (some (uid, t.tick)) })
      (t.noteClaim p m uid a) := MeshQueues.floodOn _ _ _
  refine (if_pos (by rw [held]; simp [lower])).trans ?_
  generalize t.noteClaim p m uid a = u at queues ⊢
  have state' : u.meshState = 1 := queues.state.trans hstate
  have cand' : u.mesh.cand = some (a, n) := (congrArg MeshSt.cand queues.mesh :).trans cand
  have mode' : u.mesh.addrMode = 0 := (congrArg MeshSt.addrMode queues.mesh :).trans mode
  have fuse' : u.fuse = t.fuse := queues.fuse
  have tick' : u.tick = t.tick := queues.tick
  dsimp only
  rw [if_pos ⟨state', by rw [cand']; rfl, by rwa [fuse']⟩, if_neg (by rw [mode']; decide), tick']

end

/-! #### Origination, expiry and admission -/

section
variable {s : State} {a : Nat}

theorem State.dropDb_held {e : LsaRec} (held : s.dbEntry a = some e) (hstate : s.meshState ≠ 4) : s.dropDb a = s.setDb a none := by
  have state : (s.setDb a none).meshState = s.meshState := (MeshSends.setDb s a none).rd _ stat_state_apart
  exact (if_pos (by rw [held]; rfl)).trans (if_neg (by rwa [state]))

theorem execLsaExpiry_held {a : Fin 4096} {e : LsaRec} (held : s.dbEntry a.val = some e) :
    exec (.lsaExpiry a) s = .next (if e.tick + 640000 ≤ s.tick then s.dropDb a.val else s) := by
  show execLsaExpiry a s = _
  rw [execLsaExpiry, held]

theorem find?_lowest {ok : Nat → Bool} {n : Nat} (low : 1 ≤ a) (high : a ≤ n) (fits : ok a = true) (least : ∀ c, 1 ≤ c → c < a → ok c = false) :
    ((List.range n).map (· + 1)).find? ok = some a := by
  rw [List.find?_eq_some_iff_getElem]
  refine ⟨fits, a - 1, by simp; omega, by simp; omega, fun j hj => ?_⟩
  simp [least (j + 1) (by omega) (by omega)]

theorem State.choose_lowest {t : Nat} (mode : s.mesh.addrMode = 0) (noPref : s.mesh.addr = 0) (low : 1 ≤ a) (high : a ≤ 4094)
    (free : s.addrFree a = true) (mine : s.claimedLower a = false)
    (least : ∀ c, 1 ≤ c → c < a → s.addrFree c = false ∨ s.claimedLower c = true) : s.choose t = s.claim a t := by
  have found : ((List.range 4094).map (· + 1)).find? (fun x => s.addrFree x && !s.claimedLower x) = some a := by
    refine find?_lowest low high (by simp [free, mine]) fun c hlow hc => ?_
    obtain h | h := least c hlow hc <;> simp [h]
  refine (if_neg (by rw [mode]; decide)).trans ((if_neg fun h => h.1 noPref).trans ?_)
  rw [found]

theorem State.choose_conflict {t : Nat} {e : LsaRec} (mode : s.mesh.addrMode = 1) (held : s.dbEntry s.mesh.addr = some e)
    (other : e.uid ≠ s.fuse.uid) : s.choose t = s.isolateConflict s.mesh.addr e.uid := by
  refine (if_pos mode).trans ?_
  rw [held]
  exact if_neg other

theorem execDbCollectEnd_due {n : Nat} (started : s.mesh.started = true) (hstate : s.meshState = 0) (collect : s.mesh.collect = some n)
    (due : n + 3200 ≤ s.tick) : exec .dbCollectEnd s = .next (s.choose s.tick) :=
  next_congr (if_pos ⟨started, hstate, by rw [collect]; simp [due]⟩)

theorem execDbCollectEnd_early {n : Nat} (collect : s.mesh.collect = some n) (early : s.tick < n + 3200) :
    exec .dbCollectEnd s = .next s := by
  refine next_congr (if_neg fun h => ?_)
  have due := h.2.2
  rw [collect] at due
  simp at due
  omega

/-- The own entry after an origination. -/
theorem State.originate_entry (s : State) : ∃ e, s.originate.dbEntry s.meshAddr = some e ∧ e.uid = s.fuse.uid ∧ e.epoch = s.peat.epoch := by
  have shape : ∃ (u : State) (a : Nat) (e : LsaRec) (l : List Byte), s.originate = (u.setDb a (some e)).meshFlood 0x03 a l none ∧ a = s.meshAddr ∧ e.uid = s.fuse.uid ∧
      e.epoch = s.peat.epoch := ⟨_, _, _, _, rfl, rfl, rfl, rfl⟩
  obtain ⟨u, a, e, l, heq, rfl, huid, hepoch⟩ := shape
  refine ⟨e, ?_, huid, hepoch⟩
  rw [heq, (MeshQueues.meshFlood _ _ _ _ _).dbEntry, State.dbEntry_setDb_same]

/-- The module with its new address, before its LSA goes out. -/
def State.joined (s : State) (a : Nat) : State :=
  ((s.modMesh fun m => { m with cand := none, recorded := if decide (s.peat.epoch < s.nbrEpoch) then s.nbrEpoch else m.recorded }).wr
    R.MSH_STAT_ADDR a).wr R.MSH_STAT_STATE (if decide (s.peat.epoch < s.nbrEpoch) then 3 else 2)

theorem execClaimComplete_due {n : Nat} (cand : s.mesh.cand = some (a, n)) (hstate : s.meshState = 1) (due : n + 1600 ≤ s.tick) :
    ∃ u, EventsOnly (s.joined a).originate u ∧ exec .claimComplete s = .next u := by
  have shape : ∃ v w, exec .claimComplete s = .next (if decide (s.peat.epoch < s.nbrEpoch) then
      ((s.joined a).originate.raise 0x1002 a v).raise 0x1005 0 w else (s.joined a).originate.raise 0x1002 a v) := by
    show ∃ v w, execClaimComplete s = _
    unfold execClaimComplete
    rw [cand]
    dsimp only
    rw [if_pos ⟨hstate, due⟩]
    exact ⟨_, _, rfl⟩
  obtain ⟨v, w, heq⟩ := shape
  refine ⟨_, ?_, heq⟩
  split
  · exact (EventsOnly.raise _ _ _ _).trans (EventsOnly.raise _ _ _ _)
  · exact EventsOnly.raise _ _ _ _

theorem State.joined_spec (low : 0 < a) (high : a < 4095) : (s.joined a).meshAddr = a ∧
    (s.joined a).meshState = (if s.peat.epoch < s.nbrEpoch then 3 else 2) ∧ (s.joined a).mesh.cand = none ∧
    (s.joined a).fuse = s.fuse ∧ (s.joined a).peat = s.peat := by
  unfold State.joined
  refine ⟨?_, ?_, ?_, ?_, ?_⟩
  · rw [State.meshAddr_wr_state, State.meshAddr_wr _ (by omega)]
  · rw [State.meshState_wr _ (by split <;> decide)]
    simp only [decide_eq_true_eq]
  · rw [State.wr_mesh, State.wr_mesh, State.modMesh]
  · rw [State.wr_fuse, State.wr_fuse, State.modMesh]
  · rw [State.wr_peat, State.wr_peat, State.modMesh]

/-- What an origination leaves, with what is raised after it. -/
theorem EventsOnly.originate_spec {w u : State} (events : EventsOnly w.originate u) : u.meshAddr = w.meshAddr ∧ u.meshState = w.meshState ∧
    u.mesh.cand = w.mesh.cand ∧ ∃ e, u.dbEntry w.meshAddr = some e ∧ e.uid = w.fuse.uid ∧ e.epoch = w.peat.epoch := by
  have sends := MeshSends.originate w
  obtain ⟨e, entry, huid, hepoch⟩ := w.originate_entry
  generalize w.originate = v at events sends entry
  have regs : ∀ x, u.rd x = v.rd x := State.rd_congr (congrArg State.regs events :)
  have mesh : u.mesh = v.mesh := (congrArg State.mesh events :)
  refine ⟨(regs _).trans (sends.rd _ stat_addr_apart), (regs _).trans (sends.rd _ stat_state_apart), ?_, e, ?_, huid, hepoch⟩
  · rw [mesh, sends.mesh]
  · rw [State.dbEntry, mesh]
    exact entry

theorem execClaimComplete_joins {n : Nat} (cand : s.mesh.cand = some (a, n)) (hstate : s.meshState = 1) (due : n + 1600 ≤ s.tick)
    (low : 0 < a) (high : a < 4095) : ∃ t : State, exec .claimComplete s = .next t ∧ t.meshAddr = a ∧
      t.meshState = (if s.peat.epoch < s.nbrEpoch then 3 else 2) ∧ t.mesh.cand = none ∧
      ∃ e, t.dbEntry a = some e ∧ e.uid = s.fuse.uid ∧ e.epoch = s.peat.epoch := by
  obtain ⟨u, events, run⟩ := execClaimComplete_due cand hstate due
  obtain ⟨addr, state, noCand, fuse, peat⟩ := State.joined_spec (s := s) low high
  obtain ⟨addr', state', cand', e, entry, huid, hepoch⟩ := events.originate_spec
  exact ⟨u, run, addr'.trans addr, state'.trans state, cand'.trans noCand, e, addr ▸ entry, huid.trans (congrArg FuseSt.uid fuse),
    hepoch.trans (congrArg PeatSt.epoch peat)⟩

end

/-! #### Routes (R429) -/

theorem Tab.all_set {α : Type} [DecidableEq α] {d : Nat → α} {t : Tab α} {k : Nat} {v : α} {f : Nat × α → Bool} (hk : f (k, v) = true)
    (h : t.all f = true) : (Tab.set d t k v).all f = true := by
  unfold Tab.set
  split
  · exact Tab.all_erase t k f h
  · exact Tab.all_insert t k v f hk h

/-- An entry of the search leads to another module in 1 to `lim` hops. -/
def routeFits (own lim : Nat) (q : Nat × Option (Nat × Nat)) : Bool :=
  q.1 != own && q.2.all fun x => decide (1 ≤ x.1) && decide (x.1 ≤ lim)

/-- Every entry does. -/
def RoutesFit (own lim : Nat) (t : Tab (Option (Nat × Nat))) : Prop := t.all (routeFits own lim) = true

section
variable {own lim : Nat}

theorem routeFits_some {y k f : Nat} (other : y ≠ own) (low : 1 ≤ k) (high : k ≤ lim) : routeFits own lim (y, some (k, f)) = true := by
  simp [routeFits, other, low, high]

theorem bfsLayer_fits {db : Tab (Option LsaRec)} {k : Nat} {seen : Tab (Option (Nat × Nat))} {front : List (Nat × Nat)} (low : 1 ≤ k)
    (high : k ≤ lim) : RoutesFit own lim (bfsLayer db own k seen front) := by
  unfold bfsLayer
  refine List.foldlRecOn front _ (motive := RoutesFit own lim) rfl fun acc hacc x _ => ?_
  refine List.foldlRecOn (linksOf db x.1) _ (motive := RoutesFit own lim) hacc fun acc hacc y _ => ?_
  dsimp only
  split
  · exact hacc
  · next fresh =>
    have other : y ≠ own := fun h => fresh (.inl h)
    split
    · exact Tab.all_set (routeFits_some other low high) hacc
    · exact Tab.all_set (routeFits_some other low high) hacc

theorem bfs_fits {db : Tab (Option LsaRec)} {n k : Nat} {seen : Tab (Option (Nat × Nat))} {front : List (Nat × Nat)} (low : 1 ≤ k)
    (high : k + n ≤ lim + 1) (hseen : RoutesFit own lim seen) : RoutesFit own lim (bfs db own n k seen front) := by
  induction n generalizing k seen front with
  | zero => exact hseen
  | succ n ih =>
    have layer := bfsLayer_fits (db := db) (own := own) (seen := seen) (front := front) (lim := lim) low (by omega)
    refine ih (by omega) (by omega) ?_
    exact List.foldlRecOn _ _ (motive := RoutesFit own lim) hseen fun acc hacc q hq =>
      Tab.all_set (List.all_eq_true.mp layer q hq) hacc

end

theorem State.routeTable_entry {s : State} {d k q : Nat} (h : (d, some (k, q)) ∈ s.routeTable) :
    1 ≤ k ∧ k ≤ s.mesh.hopLimit ∧ q < 6 ∧ s.meshUp q = true ∧ d ≠ s.meshAddr := by
  unfold State.routeTable at h
  split at h
  · obtain ⟨⟨c, v⟩, hx, hmap⟩ := List.mem_filterMap.mp h
    have fits := List.all_eq_true.mp (bfs_fits (own := s.meshAddr) (lim := s.mesh.hopLimit) (Nat.le_refl 1) (by omega) (show RoutesFit _ _ [] from rfl)) _ hx
    cases v with
    | none => cases hmap
    | some v =>
      obtain ⟨n, f⟩ := v
      obtain ⟨p, hp, heq⟩ := Option.map_eq_some_iff.mp hmap
      cases heq
      have up := List.mem_filter.mp (List.mem_of_find?_eq_some hp)
      simp only [routeFits, Bool.and_eq_true, bne_iff_ne, Option.all_some, decide_eq_true_eq] at fits
      obtain ⟨other, low, high⟩ := fits
      exact ⟨low, high, List.mem_range.mp up.1, up.2, other⟩
  · cases h

/-- Settles O53, message by message and from admission to routes. -/
theorem meshDatabase : Obligations.MeshDatabase := by
  refine ⟨fun s t p errs b m => ⟨fun taken => ⟨fun idle => ?dbIdle, fun low high room => ?dbSend⟩, fun a e taken ha he => ?lsa,
      fun uid a taken huid ha => ⟨fun idle => ?claimIdle, fun v n low high held higher fresh => ?claimOld,
        fun n hstate cand lower mode held => ?claimYields⟩, fun none => ?noReq, fun none => ?noLsa, fun none => ?noClaim⟩,
    fun s => ⟨fun member due => next_congr (if_pos ⟨member, due⟩), fun h => ?notDue, fun a e held hstate => ⟨fun due => ?expires, fun early => ?stays⟩,
      fun n _ _ collect early => execDbCollectEnd_early collect early, fun n started hstate collect due => ⟨fun a mode noPref low high free mine least =>
        ?lowest, fun e mode held other => ?conflict⟩, fun a n cand hstate => ⟨fun early => ?waits, fun due low high =>
        execClaimComplete_joins cand hstate due low high⟩, fun same => ?same, fun n computed early => ?soon, fun changed spaced => ?compute,
      fun d k q h => State.routeTable_entry h⟩⟩
  case dbIdle => rw [execDbReq_taken taken, if_neg (by omega)]
  case dbSend =>
    obtain ⟨regs, -, queued⟩ := State.sendEntries_room (s := t) (p := p.val) rfl room
    exact ⟨_, (execDbReq_taken taken).trans (next_congr (if_pos ⟨low, high⟩)), regs, queued⟩
  case lsa =>
    subst ha he
    have run := execLsa_taken taken
    refine ⟨fun none live low high addr state => ?_, fun d held huid old addr state => ?_, fun d held huid later dead low high => ?_,
      fun d held own other live low high member mine => ?_⟩
    · exact run.trans (next_congr (State.takeLsa_new none live low high addr state))
    · exact run.trans (next_congr (State.takeLsa_repeat held huid old addr state))
    · exact run.trans (next_congr (State.takeLsa_withdrawn held huid later dead low high))
    · exact ⟨_, run, State.takeLsa_loses held own other live low high member mine⟩
  case claimIdle => rw [execClaim_taken taken huid ha, if_pos (by omega)]
  case claimOld =>
    rw [execClaim_taken taken huid ha, if_neg (by omega), State.takeClaim_old held higher (by rwa [State.meshTake_tick taken])]
  case claimYields =>
    rw [execClaim_taken taken huid ha, if_neg (by omega), State.takeClaim_yields hstate cand lower mode held, State.noteClaim,
      State.meshTake_tick taken]
  case noReq =>
    show execDbReq p errs b s = _
    rw [execDbReq, none]
  case noLsa =>
    show execLsa p errs b s = _
    rw [execLsa, none]
  case noClaim =>
    show execClaim p errs b s = _
    rw [execClaim, none]
  case notDue =>
    refine next_congr (if_neg fun both => ?_)
    obtain h | h := h
    · rw [h] at both
      exact absurd both.1 (by decide)
    · omega
  case expires => rw [execLsaExpiry_held held, if_pos due, State.dropDb_held held hstate]
  case stays => rw [execLsaExpiry_held held, if_neg (by omega)]
  case lowest =>
    rw [execDbCollectEnd_due started hstate collect due, State.choose_lowest mode noPref low high free mine least]
  case conflict => rw [execDbCollectEnd_due started hstate collect due, State.choose_conflict mode held other]
  case waits =>
    show execClaimComplete s = _
    unfold execClaimComplete
    rw [cand]
    exact next_congr (if_neg fun h => by omega)
  case same => exact next_congr (if_neg fun h => by rw [same] at h; exact absurd h.1 (by decide))
  case soon =>
    refine next_congr (if_neg fun h => ?_)
    have due := h.2
    rw [computed] at due
    simp at due
    omega
  case compute =>
    refine next_congr (if_pos ⟨changed, ?_⟩)
    cases hr : s.mesh.routeTick with
    | none => rfl
    | some n => exact decide_eq_true (spaced n hr)

end Sys2Proof.Machine

/-! ### Timing: candidates, DPLLs, edges and outputs (R384 to R388, R391, R394, R395, R400, R403 to R405) -/

namespace Sys2Proof.Machine

/-! #### Candidates -/

section
variable {s : State} {src : Nat}

theorem State.setCand_eq (s : State) (src : Nat) (c : Cand) : s.setCand src c = ((s.modTim fun t => { t with
    cands := Tab.set (fun _ => {}) t.cands src c }).wrB ⟨(R.TIM_PRES_PRES (src / 32)).off, src % 32, 1⟩ c.since.isSome).wrB
      ⟨(R.TIM_QUAL_QUAL (src / 32)).off, src % 32, 1⟩ c.qual := (rfl)

theorem State.setCand_tim (s : State) (src : Nat) (c : Cand) :
    (s.setCand src c).tim = { s.tim with cands := Tab.set (fun _ => {}) s.tim.cands src c } := by
  rw [State.setCand_eq, State.wrB_tim, State.wrB_tim, State.modTim_tim]

@[simp] theorem State.setCand_host (s : State) (src : Nat) (c : Cand) : (s.setCand src c).host = s.host := by
  rw [State.setCand_eq, State.wrB_host, State.wrB_host, State.modTim_host]

@[simp] theorem State.setCand_tick (s : State) (src : Nat) (c : Cand) : (s.setCand src c).tick = s.tick := by
  rw [State.setCand_eq, State.wrB_tick, State.wrB_tick, State.modTim_tick]

@[simp] theorem State.cand_setCand_same (s : State) (src : Nat) (c : Cand) : (s.setCand src c).cand src = c := by
  rw [State.cand, State.setCand_tim]
  exact Tab.get_set_same _ _ _ _

theorem State.cand_setCand_other (s : State) {src k : Nat} (c : Cand) (h : k ≠ src) : (s.setCand src c).cand k = s.cand k := by
  rw [State.cand, State.setCand_tim]
  exact Tab.get_set_other _ _ _ h

/-- A candidate's bits lie in TIM_PRES and TIM_QUAL. -/
theorem State.rd_setCand (s : State) {src : Nat} (c : Cand) (hsrc : src < 128) {x : Fld} (hx : x.off < 0x30040 ∨ 0x30060 ≤ x.off) :
    (s.setCand src c).rd x = s.rd x := by
  rw [State.setCand_eq, State.wrB, State.wrB, State.rd_wr_off, State.rd_wr_off, State.modTim_rd]
  · show x.off ≠ 0x30040 + 4 * (src / 32)
    omega
  · show x.off ≠ 0x30050 + 4 * (src / 32)
    omega

@[simp] theorem State.raise_cand (s : State) (c o : Nat) (l : List EVal) (k : Nat) : (s.raise c o l).cand k = s.cand k := (rfl)

theorem State.disqualify_eq (s : State) (src reason : Nat) : s.disqualify src reason =
    if (s.cand src).qual then (s.setCand src { s.cand src with qual := false, disq := true }).raise 0x0f02 src [.w reason]
    else s.setCand src { s.cand src with qual := false, disq := true } := (rfl)

theorem State.cand_disqualify (s : State) (src reason k : Nat) : (s.disqualify src reason).cand k =
    (s.setCand src { s.cand src with qual := false, disq := true }).cand k := by
  rw [State.disqualify_eq]
  split <;> rfl

theorem State.disqualify_events {reason : Nat} (h : (s.cand src).qual = true) :
    (s.disqualify src reason).host.events = s.host.events ++ [eventOf s 0x0f02 src [.w reason]] := by
  rw [State.disqualify_eq, if_pos h, State.raise_host, State.setCand_host, State.setCand_tick]
  rfl

theorem State.cand_candAbsent (s : State) (src : Nat) : (s.candAbsent src).cand src =
    { s.cand src with since := none, offset := none, qual := false, disq := true } := by
  rw [State.candAbsent, State.cand_setCand_same, State.cand_disqualify, State.cand_setCand_same]

theorem State.cand_candAbsent_other (s : State) {src k : Nat} (h : k ≠ src) : (s.candAbsent src).cand k = s.cand k := by
  rw [State.candAbsent, State.cand_setCand_other _ _ h, State.cand_disqualify, State.cand_setCand_other _ _ h]

theorem execCandidateAbsent_lost {src : Fin 128} {n : Nat} (since : (s.cand src.val).since = some n)
    (lost : (src.val < 0x48 ∧ s.candPresent src.val = false) ∨ (0x48 ≤ src.val ∧ src.val ≤ 0x4d)) :
    exec (.candidateAbsent src) s = .next (s.candAbsent src.val) := by
  refine next_congr (if_pos ?_)
  obtain ⟨low, gone⟩ | ⟨high, last⟩ := lost
  · simp [low, gone, since]
  · have high' : ¬ src.val < 0x48 := by omega
    simp [high', last, since]

/-! #### The measurement window -/

theorem execMeasurementWindowEnd_one {off : Int} {n : Nat} (due : s.tick % 160000 = 159999) (known : sourceIds.contains src = true) :
    exec (.measurementWindowEnd [(src, off, n)]) s = .next (s.windowOf src off n) := by
  refine next_congr ((if_pos due).trans ?_)
  rw [List.filter_cons_of_pos (by exact known)]
  rfl

/-- The offset of a window is noted. -/
def State.measured (s : State) (src : Nat) (off : Int) : State := s.setCand src { s.cand src with offset := some off }

/-- What a full window of a present candidate does. -/
theorem State.windowOf_full {off : Int} {n p : Nat} (since : (s.cand src).since = some p) (full : p + 160000 ≤ s.tick + 1) :
    s.windowOf src off n =
      if (s.cand src).qual && decide (12000 < off.natAbs) then (s.measured src off).disqualify src 1
      else if !(s.cand src).qual && (decide (p + 160000 * s.tim.wtr ≤ s.tick + 1) || !(s.cand src).disq) &&
          decide (off.natAbs ≤ 10000) && ((s.measured src off).meshBar src).isNone then
        ((s.measured src off).setCand src { s.cand src with offset := some off, qual := true }).raise 0x0f01 src
      else s.measured src off := by
  have hfull : decide (p + 160000 ≤ s.tick + 1) = true := decide_eq_true full
  unfold State.windowOf State.measured
  dsimp only
  rw [if_neg (by rw [since]; exact fun h => nomatch h.2.2.1)]
  generalize s.cand src = c at since
  obtain ⟨first⟩ := c
  subst since
  dsimp only
  rw [hfull]
  simp only [if_true, Bool.and_true, State.setCand_tim, State.setCand_tick]

theorem State.windowOf_drifts {off : Int} {n p : Nat} (since : (s.cand src).since = some p) (full : p + 160000 ≤ s.tick + 1)
    (qual : (s.cand src).qual = true) (far : 12000 < off.natAbs) : (s.windowOf src off n).cand src =
      { s.cand src with offset := some off, qual := false, disq := true } ∧
      (s.windowOf src off n).host.events = s.host.events ++ [eventOf s 0x0f02 src [.w 1]] := by
  rw [State.windowOf_full since full, if_pos (by simp [qual, far])]
  have noted : (s.measured src off).cand src = { s.cand src with offset := some off } := State.cand_setCand_same _ _ _
  refine ⟨?_, ?_⟩
  · rw [State.cand_disqualify, State.cand_setCand_same, noted]
  · rw [State.disqualify_events (by rw [noted]; exact qual), State.measured, State.setCand_host, eventOf, State.setCand_tick]
    rfl

theorem State.windowOf_stays {off : Int} {n p : Nat} (since : (s.cand src).since = some p) (full : p + 160000 ≤ s.tick + 1)
    (qual : (s.cand src).qual = true) (near : off.natAbs ≤ 12000) : (s.windowOf src off n).cand src = { s.cand src with offset := some off } ∧
      (s.windowOf src off n).host = s.host := by
  rw [State.windowOf_full since full, if_neg (by simp [qual]; omega), if_neg (by simp [qual])]
  exact ⟨State.cand_setCand_same _ _ _, State.setCand_host _ _ _⟩

theorem sourceIds_lt {n : Nat} (h : sourceIds.contains n = true) : n < 128 := by
  have all : ∀ k ∈ sourceIds, k < 128 := by decide
  exact all n (List.contains_iff_mem.mp h)

theorem State.meshBar_measured {off : Int} (known : src < 128) : (s.measured src off).meshBar src = s.meshBar src := by
  have addr : (s.measured src off).meshAddr = s.meshAddr := State.rd_setCand s _ known (.inr (by decide))
  unfold State.meshBar
  rw [addr, State.measured, State.cand_setCand_same]

theorem State.windowOf_qualifies {off : Int} {n p : Nat} (known : src < 128) (since : (s.cand src).since = some p)
    (full : p + 160000 ≤ s.tick + 1) (unqual : (s.cand src).qual = false) (near : off.natAbs ≤ 10000) (free : s.meshBar src = none)
    (long : (s.cand src).disq = false ∨ p + 160000 * s.tim.wtr ≤ s.tick + 1) : (s.windowOf src off n).cand src =
      { s.cand src with offset := some off, qual := true } ∧
      (s.windowOf src off n).host.events = s.host.events ++ [eventOf s 0x0f01 src] := by
  have waited : (decide (p + 160000 * s.tim.wtr ≤ s.tick + 1) || !(s.cand src).disq) = true := by
    obtain h | h := long <;> simp [h]
  rw [State.windowOf_full since full, if_neg (by simp [unqual]), if_pos (by simp [unqual, waited, near, State.meshBar_measured known, free])]
  refine ⟨?_, ?_⟩
  · rw [State.raise_cand, State.cand_setCand_same]
  · rw [State.raise_host, State.setCand_host, State.setCand_tick, State.measured, State.setCand_host, State.setCand_tick]
    rfl

/-! #### Timing reports -/

section
variable {p : Fin 6} {state depth followed : Nat}

/-- The report of port `p` is noted. -/
def State.reported (s : State) (p state depth followed : Nat) : State :=
  s.setCand (0x40 + p) { s.cand (0x40 + p) with
    rptTick := some s.tick, rptState := state, rptDepth := depth, rptFollowed := followed }

theorem execTimingReport_up (up : s.meshUp p.val = true) : exec (.timingReport p state depth followed) s = .next
    (match (s.reported p.val state depth followed).meshBar (0x40 + p.val) with
      | some r => if ((s.reported p.val state depth followed).cand (0x40 + p.val)).qual then
          (s.reported p.val state depth followed).disqualify (0x40 + p.val) r else s.reported p.val state depth followed
      | none => s.reported p.val state depth followed) := by
  refine next_congr ((if_neg (by rw [up]; decide)).trans ?_)
  rfl

theorem State.cand_reported : (s.reported p.val state depth followed).cand (0x40 + p.val) = { s.cand (0x40 + p.val) with
    rptTick := some s.tick, rptState := state, rptDepth := depth, rptFollowed := followed } := State.cand_setCand_same _ _ _

theorem execTimingReport_unqualified (up : s.meshUp p.val = true) (unqual : (s.cand (0x40 + p.val)).qual = false) :
    exec (.timingReport p state depth followed) s = .next (s.reported p.val state depth followed) := by
  have quiet : ((s.reported p.val state depth followed).cand (0x40 + p.val)).qual = false := by
    rw [State.cand_reported]
    exact unqual
  rw [execTimingReport_up up]
  refine next_congr ?_
  split
  · exact if_neg (by rw [quiet]; decide)
  · rfl

/-- A candidate whose module follows this one is disqualified. -/
theorem execTimingReport_loop (up : s.meshUp p.val = true) (qual : (s.cand (0x40 + p.val)).qual = true) (loop : followed = s.meshAddr)
    (known : followed ≠ 0) : exec (.timingReport p state depth followed) s =
      .next ((s.reported p.val state depth followed).disqualify (0x40 + p.val) 2) := by
  have addr : (s.reported p.val state depth followed).meshAddr = s.meshAddr := State.rd_setCand s _ (by omega) (.inr (by decide))
  have bar : (s.reported p.val state depth followed).meshBar (0x40 + p.val) = some 2 := by
    unfold State.meshBar
    rw [State.cand_reported, addr]
    exact (if_neg (by omega)).trans (if_pos ⟨loop, known⟩)
  have held : ((s.reported p.val state depth followed).cand (0x40 + p.val)).qual = true := by
    rw [State.cand_reported]
    exact qual
  rw [execTimingReport_up up, bar]
  exact next_congr (if_pos held)

end

end

/-! #### DPLLs -/

section
variable {s : State} {d : Nat}

theorem State.setDpll_tim (s : State) (d : Nat) (x : Dpll) :
    (s.setDpll d x).tim = { s.tim with dplls := Tab.set (fun _ => {}) s.tim.dplls d x } := (rfl)

@[simp] theorem State.dpll_setDpll_same (s : State) (d : Nat) (x : Dpll) : (s.setDpll d x).dpll d = x := Tab.get_set_same _ _ _ _

@[simp] theorem State.setDpll_rd (s : State) (d : Nat) (x : Dpll) (f : Fld) : (s.setDpll d x).rd f = s.rd f := (rfl)

@[simp] theorem State.setDpll_host (s : State) (d : Nat) (x : Dpll) : (s.setDpll d x).host = s.host := (rfl)

@[simp] theorem State.setDpll_tick (s : State) (d : Nat) (x : Dpll) : (s.setDpll d x).tick = s.tick := (rfl)

theorem State.raise_dpll (s : State) (c o : Nat) (l : List EVal) (k : Nat) : (s.raise c o l).dpll k = s.dpll k := (rfl)

/-- A measurement is written to PHERR and FOFS alone. -/
theorem State.rd_dpllMeasure (s : State) {err fofs : Int} {x : Fld} (hx : x.off = 0x30000 + 0x10 * d) :
    (s.dpllMeasure d err fofs).rd x = s.rd x := by
  unfold State.dpllMeasure State.wrS
  rw [State.rd_wr_off, State.rd_wr_off]
  · show x.off ≠ 0x3000c + 0x10 * d
    omega
  · show x.off ≠ 0x30004 + 0x10 * d
    omega

@[simp] theorem State.dpllMeasure_dpll (s : State) (err fofs : Int) (k : Nat) : (s.dpllMeasure d err fofs).dpll k = s.dpll k := by
  rw [State.dpll, State.dpllMeasure, State.wrS_tim, State.wrS_tim, State.dpll]

@[simp] theorem State.dpllMeasure_host (s : State) (err fofs : Int) : (s.dpllMeasure d err fofs).host = s.host := by
  rw [State.dpllMeasure, State.wrS_host, State.wrS_host]

@[simp] theorem State.dpllMeasure_tick (s : State) (err fofs : Int) : (s.dpllMeasure d err fofs).tick = s.tick := by
  rw [State.dpllMeasure, State.wrS_tick, State.wrS_tick]

theorem State.ppsSelected_dpllMeasure (s : State) (err fofs : Int) : (s.dpllMeasure d err fofs).ppsSelected d = s.ppsSelected d := by
  unfold State.ppsSelected
  rw [State.rd_dpllMeasure s (x := R.TIM_DPLL_STAT_SOURCE d) rfl]

/-- An ACQUIRING DPLL becomes LOCKED. -/
theorem State.enterDpll_locked (acquiring : s.rd (R.TIM_DPLL_STAT_STATE d) = 1) :
    (s.enterDpll d 2).rd (R.TIM_DPLL_STAT_STATE d) = 2 ∧ ((s.enterDpll d 2).dpll d).lockedAt = some s.tick ∧
      (s.enterDpll d 2).host.events = s.host.events ++ [eventOf s 0x0f04 d [.w 2]] := by
  have eq : s.enterDpll d 2 =
      (((s.setDpll d { s.dpll d with inRun := {}, edgeRun := 0, outRun := {} }).wr (R.TIM_DPLL_STAT_STATE d) 2).raise 0x0f04 d [.w 2]).setDpll
        d { s.dpll d with inRun := {}, edgeRun := 0, outRun := {}, lockedAt := some s.tick, lockLen := 0 } := by
    unfold State.enterDpll
    dsimp only
    rw [acquiring]
    rfl
  rw [eq]
  refine ⟨?_, ?_, ?_⟩
  · rw [State.setDpll_rd, State.raise_rd, State.rd_wr_same _ _ (by decide : 0 + 2 ≤ 32)]
    rfl
  · rw [State.dpll_setDpll_same]
  · rfl

/-- A LOCKED DPLL returns to ACQUIRING. -/
theorem State.enterDpll_acquiring (locked : s.rd (R.TIM_DPLL_STAT_STATE d) = 2) :
    (s.enterDpll d 1).rd (R.TIM_DPLL_STAT_STATE d) = 1 ∧ ((s.enterDpll d 1).dpll d).lockedAt = none ∧
      (s.enterDpll d 1).host.events = s.host.events ++ [eventOf s 0x0f04 d [.w 1]] := by
  have eq : s.enterDpll d 1 = ((s.setDpll d { s.dpll d with
      lockLen := s.tick - (s.dpll d).lockedAt.getD s.tick, lockedAt := none, inRun := {}, edgeRun := 0, outRun := {} }).wr
        (R.TIM_DPLL_STAT_STATE d) 1).raise 0x0f04 d [.w 1] := by
    unfold State.enterDpll
    dsimp only
    rw [locked]
    rfl
  rw [eq]
  refine ⟨?_, ?_, ?_⟩
  · rw [State.raise_rd, State.rd_wr_same _ _ (by decide : 0 + 2 ≤ 32)]
    rfl
  · rw [State.raise_dpll]
    exact congrArg Dpll.lockedAt (State.dpll_setDpll_same _ _ _)
  · rfl

/-- A detector reading is noted with the runs of `x`. -/
def State.detected (s : State) (d : Nat) (err fofs : Int) (x : Dpll) : State := (s.dpllMeasure d err fofs).setDpll d x

theorem State.detected_state (s : State) (d : Nat) (err fofs : Int) (x : Dpll) :
    (s.detected d err fofs x).rd (R.TIM_DPLL_STAT_STATE d) = s.rd (R.TIM_DPLL_STAT_STATE d) := by
  rw [State.detected, State.setDpll_rd, State.rd_dpllMeasure s rfl]

@[simp] theorem State.detected_host (s : State) (d : Nat) (err fofs : Int) (x : Dpll) : (s.detected d err fofs x).host = s.host := by
  rw [State.detected, State.setDpll_host, State.dpllMeasure_host]

@[simp] theorem State.detected_tick (s : State) (d : Nat) (err fofs : Int) (x : Dpll) : (s.detected d err fofs x).tick = s.tick := by
  rw [State.detected, State.setDpll_tick, State.dpllMeasure_tick]

theorem execDpllLocked_ppsless {d : Fin 4} {err fofs : Int} {r : Run} (acquiring : s.rd (R.TIM_DPLL_STAT_STATE d.val) = 1)
    (free : s.ppsSelected d.val = false)
    (run : (s.dpll d.val).inRun.step s.tick (decide (err.natAbs ≤ 200)) = r) : exec (.dpllLocked d err fofs) s = .next
      (if 1600000 ≤ r.n then (s.detected d.val err fofs { s.dpll d.val with inRun := r }).enterDpll d.val 2
        else s.detected d.val err fofs { s.dpll d.val with inRun := r }) := by
  refine next_congr ((if_neg (by simp [acquiring])).trans ?_)
  dsimp only
  rw [State.ppsSelected_dpllMeasure, free]
  simp only [Bool.false_eq_true, if_false, false_and, false_or, not_false_eq_true, true_and, State.dpllMeasure_dpll, State.dpllMeasure_tick, run,
    State.detected]

theorem execDpllLockLost_ppsless {d : Fin 4} {err fofs : Int} {r : Run} (locked : s.rd (R.TIM_DPLL_STAT_STATE d.val) = 2)
    (free : s.ppsSelected d.val = false)
    (run : (s.dpll d.val).outRun.step s.tick (decide (2000 < err.natAbs)) = r) : exec (.dpllLockLost d err fofs) s = .next
      (if 160000 ≤ r.n then (s.detected d.val err fofs { s.dpll d.val with outRun := r }).enterDpll d.val 1
        else s.detected d.val err fofs { s.dpll d.val with outRun := r }) := by
  refine next_congr ((if_neg (by simp [locked])).trans ?_)
  dsimp only
  rw [State.ppsSelected_dpllMeasure, free]
  simp only [Bool.false_eq_true, if_false, State.dpllMeasure_dpll, State.dpllMeasure_tick, run, State.detected]

variable {e : Fin 4} {err fofs : Int} {n : Nat}

theorem execDpllLocked_locks (now : 0 < s.tick) (acquiring : s.rd (R.TIM_DPLL_STAT_STATE e.val) = 1) (free : s.ppsSelected e.val = false)
    (ran : (s.dpll e.val).inRun = ⟨n, s.tick - 1⟩) (long : 1599999 ≤ n) (near : err.natAbs ≤ 200) : ∃ t : State,
    exec (.dpllLocked e err fofs) s = .next t ∧ t.rd (R.TIM_DPLL_STAT_STATE e.val) = 2 ∧ (t.dpll e.val).lockedAt = some s.tick ∧
      t.host.events = s.host.events ++ [eventOf s 0x0f04 e.val [.w 2]] := by
  have run : (s.dpll e.val).inRun.step s.tick (decide (err.natAbs ≤ 200)) = ⟨n + 1, s.tick⟩ := by
    rw [decide_eq_true near]
    exact Run.step_of_previous (by omega) now ran
  refine ⟨_, (execDpllLocked_ppsless acquiring free run).trans (congrArg _ (if_pos (Nat.succ_le_succ long))), ?_⟩
  have entered := State.enterDpll_locked ((State.detected_state s e.val err fofs { s.dpll e.val with inRun := ⟨n + 1, s.tick⟩ }).trans acquiring)
  simp only [eventOf, State.detected_host, State.detected_tick] at entered
  exact entered

theorem execDpllLocked_strays (acquiring : s.rd (R.TIM_DPLL_STAT_STATE e.val) = 1) (free : s.ppsSelected e.val = false)
    (far : 200 < err.natAbs) : ∃ t : State, exec (.dpllLocked e err fofs) s = .next t ∧ t.rd (R.TIM_DPLL_STAT_STATE e.val) = 1 ∧
      (t.dpll e.val).inRun.n = 0 ∧ t.host = s.host := by
  have run : (s.dpll e.val).inRun.step s.tick (decide (err.natAbs ≤ 200)) = ⟨0, s.tick⟩ := by
    rw [decide_eq_false (by omega)]
    exact Run.step_false _ _
  refine ⟨_, (execDpllLocked_ppsless acquiring free run).trans (congrArg _ (if_neg (by simp))), ?_, ?_, ?_⟩
  · exact (State.detected_state _ _ _ _ _).trans acquiring
  · rw [State.detected, State.dpll_setDpll_same]
  · exact State.detected_host _ _ _ _ _

theorem execDpllLockLost_loses (now : 0 < s.tick) (locked : s.rd (R.TIM_DPLL_STAT_STATE e.val) = 2) (free : s.ppsSelected e.val = false)
    (ran : (s.dpll e.val).outRun = ⟨n, s.tick - 1⟩) (long : 159999 ≤ n) (far : 2000 < err.natAbs) : ∃ t : State,
    exec (.dpllLockLost e err fofs) s = .next t ∧ t.rd (R.TIM_DPLL_STAT_STATE e.val) = 1 ∧ (t.dpll e.val).lockedAt = none ∧
      t.host.events = s.host.events ++ [eventOf s 0x0f04 e.val [.w 1]] := by
  have run : (s.dpll e.val).outRun.step s.tick (decide (2000 < err.natAbs)) = ⟨n + 1, s.tick⟩ := by
    rw [decide_eq_true far]
    exact Run.step_of_previous (by omega) now ran
  refine ⟨_, (execDpllLockLost_ppsless locked free run).trans (congrArg _ (if_pos (Nat.succ_le_succ long))), ?_⟩
  have entered := State.enterDpll_acquiring ((State.detected_state s e.val err fofs { s.dpll e.val with outRun := ⟨n + 1, s.tick⟩ }).trans locked)
  simp only [eventOf, State.detected_host, State.detected_tick] at entered
  exact entered

/-! #### Holdover -/

theorem State.hoTimer_reached (held : s.rd (R.TIM_DPLL_STAT_STATE d) = 3) (len : (s.tick - (s.dpll d).hoTick) / 160000 = n)
    (due : (s.dpll d).hoSpec ≤ n) (fresh : s.flag (R.TIM_DPLL_STAT_HO_OOS d) = false) : s.hoTimer d =
      ((s.wr (R.TIM_DPLL_HOTIME_HOTIME d) n).wrB (R.TIM_DPLL_STAT_HO_OOS d) true).raise 0x0f05 d [.w n] := by
  have kept : (s.wr (R.TIM_DPLL_HOTIME_HOTIME d) n).flag (R.TIM_DPLL_STAT_HO_OOS d) = false := by
    rw [State.flag, State.rd_wr_off]
    · exact fresh
    · show 0x30000 + 0x10 * d ≠ 0x30008 + 0x10 * d
      omega
  unfold State.hoTimer
  dsimp only
  rw [if_neg (by simp [held]), len, if_pos (by simp [due, kept])]

end

/-! #### The edges of a PPS input -/

/-- What keeps the stamps of both PPS inputs. -/
def EdgeKeeps (s t : State) : Prop :=
  (∀ x : Fld, 0x30060 ≤ x.off → x.off < 0x30080 → t.rd x = s.rd x) ∧ t.tim.lastEdge = s.tim.lastEdge

namespace EdgeKeeps

variable {s t u : State}

theorem refl (s : State) : EdgeKeeps s s := ⟨fun _ _ _ => rfl, rfl⟩

theorem trans (h : EdgeKeeps s t) (k : EdgeKeeps t u) : EdgeKeeps s u :=
  ⟨fun x lo hi => (k.1 x lo hi).trans (h.1 x lo hi), k.2.trans h.2⟩

theorem setCand (h : EdgeKeeps s t) {src : Nat} (c : Cand) (known : src < 128) : EdgeKeeps s (t.setCand src c) :=
  h.trans ⟨fun _ lo _ => State.rd_setCand t c known (.inr lo), by rw [State.setCand_tim]⟩

theorem raise (h : EdgeKeeps s t) (c o : Nat) (l : List EVal) : EdgeKeeps s (t.raise c o l) := h.trans ⟨fun _ _ _ => rfl, rfl⟩

theorem modTim (h : EdgeKeeps s t) {g : TimSt → TimSt} (hg : (g t.tim).lastEdge = t.tim.lastEdge) : EdgeKeeps s (t.modTim g) :=
  h.trans ⟨fun _ _ _ => rfl, hg⟩

theorem wr (h : EdgeKeeps s t) {f : Fld} (v : Nat) (hf : 0x30080 ≤ f.off) : EdgeKeeps s (t.wr f v) :=
  h.trans ⟨fun x _ hi => State.rd_wr_off t v (by omega), by rw [State.wr_tim]⟩

theorem candAbsent (h : EdgeKeeps s t) {src : Nat} (known : src < 128) : EdgeKeeps s (t.candAbsent src) := by
  have disq : EdgeKeeps s (t.disqualify src 0) := by
    rw [State.disqualify_eq]
    split
    · exact (h.setCand _ known).raise _ _ _
    · exact h.setCand _ known
  exact disq.setCand _ known

theorem todStat (h : EdgeKeeps s t) : EdgeKeeps s t.todStat := by
  have set : ∀ n b, EdgeKeeps s ((t.wr R.TIM_TOD_STAT_SOURCE n).wrB R.TIM_TOD_STAT_LOCKED b) := fun n b =>
    (h.wr n (by decide)).wr _ (by decide)
  unfold State.todStat
  dsimp only
  split
  · exact (set _ _).raise _ _ _
  · exact set _ _

end EdgeKeeps

section
variable {s : State} {i : Fin 2} {cycle : Fin 10000}

/-- An edge's stamp `n`, in core cycles, is entered. -/
def State.stamped (s : State) (i n : Nat) : State :=
  ((((s.wr (R.TIM_PPS_EDGE_LO_TICK_LO i) (n / 10000)).wr (R.TIM_PPS_EDGE_HI_TICK_HI i) (n / 10000 / 2 ^ 32)).wrB
    (R.TIM_PPS_POS_VALID i) true).wr (R.TIM_PPS_POS_CYCLE i) (n % 10000)).modTim
      fun x => { x with lastEdge := Tab.set (fun _ => none) x.lastEdge i (some (n / 10000)) }

/-- What the label before an edge does at it. -/
def State.todApply (s : State) (i edge : Nat) : Option TodLabel → State
  | none => s
  | some l =>
    if s.todSource = i ∧ s.flag R.TIM_TOD_STAT_LOCKED = true ∧ s.tim.todStep = true then
      if l.cal = s.peat.cal then s.modPeat fun p => { p with subTick := some edge }
      else
        let time := l.cal.time + (if l.leap then 1 else 0)
        (s.modTim fun t => { t with stepDue := some (l.cal, edge) }).raise 0x0f07 i [.w l.cal.date, .w time, .q edge]
    else s

/-- The reception of time of day past an edge. -/
def TodIn.afterEdge (x : TodIn) : TodIn :=
  let run := match x.next, x.prev with
    | some n, some p => if todFollows p n then x.run + 1 else 1
    | some _, none => 1
    | none, _ => 0
  { x with run := run, prev := x.next, next := none }

theorem State.todEdge_eq (s : State) (i edge : Nat) :
    s.todEdge i edge = (s.setTod i (s.tod i).afterEdge).todStat.todApply i edge (s.tod i).next := by
  unfold State.todEdge State.todApply
  rfl

theorem EdgeKeeps.todApply {s t : State} (h : EdgeKeeps s t) (i edge : Nat) (l : Option TodLabel) : EdgeKeeps s (t.todApply i edge l) := by
  unfold State.todApply
  split
  · exact h
  · split
    · split
      · exact h.trans ⟨fun _ _ _ => rfl, rfl⟩
      · exact (h.modTim rfl).raise _ _ _
    · exact h

theorem EdgeKeeps.todEdge {s t : State} (h : EdgeKeeps s t) (i edge : Nat) : EdgeKeeps s (t.todEdge i edge) := by
  rw [State.todEdge_eq]
  exact (EdgeKeeps.todStat (h.modTim rfl)).todApply _ _ _

/-- What an edge does to the presence of its candidate. -/
def State.edgeCand (s : State) (src : Nat) (good : Bool) : State :=
  if good then
    if (s.cand src).since.isNone then s.setCand src { s.cand src with since := some s.tick } else s
  else if (s.cand src).since.isSome then s.candAbsent src else s

theorem EdgeKeeps.edgeCand {src : Nat} (known : src < 128) (good : Bool) : EdgeKeeps s (s.edgeCand src good) := by
  unfold State.edgeCand
  split
  · split
    · exact (refl s).setCand _ known
    · exact refl s
  · split
    · exact (refl s).candAbsent known
    · exact refl s

/-- The target that PPS_OUT takes from an edge of the source it follows. -/
def State.edgeTarget (s : State) (src edge : Nat) : State :=
  if s.tim.ppsMode = 2 ∧ s.rd (R.TIM_DPLL_STAT_SOURCE 0) = src then s.modTim fun x => { x with ppsTarget := edge % 160000 } else s

theorem EdgeKeeps.edgeTarget {s t : State} (h : EdgeKeeps s t) (src edge : Nat) : EdgeKeeps s (t.edgeTarget src edge) := by
  unfold State.edgeTarget
  split
  · exact h.modTim rfl
  · exact h

/-- An edge with no delay is stamped with the core cycle it comes at. -/
theorem State.edgeStamp_undelayed (s : State) (n : Nat) : s.edgeStamp n 0 = (s.tick * 10000 + n, s) := by
  have whole : 5 * ((s.tick * 10000 + n : Nat) : Int) - 8 * 0 = 5 * ((s.tick * 10000 + n : Nat) : Int) := by omega
  unfold State.edgeStamp
  dsimp only
  rw [whole, if_pos (Int.mul_emod_right _ _), Int.mul_ediv_cancel_left _ (by decide)]
  rfl

theorem execPpsEdgeStamp_undelayed (on : (s.timInput (4 + i.val)).enable = true) (delay : (s.timInput (4 + i.val)).delay = 0) :
    ∃ edge good, exec (.ppsEdgeStamp i cycle) s =
      .next ((((s.stamped i.val (s.tick * 10000 + cycle.val)).edgeCand (0x4c + i.val) good).edgeTarget (0x4c + i.val) edge).todEdge
        i.val edge) := by
  refine ⟨(s.tick * 10000 + cycle.val) / 10000, match Tab.get (fun _ => none) s.tim.lastEdge i.val with
    | none => true
    | some p => decide (p + 159984 ≤ (s.tick * 10000 + cycle.val) / 10000) && decide ((s.tick * 10000 + cycle.val) / 10000 ≤ p + 160016),
    next_congr ((if_neg (by simp [on])).trans ?_)⟩
  rw [delay, State.edgeStamp_undelayed]
  rfl

theorem State.flag_congr {s t : State} {x : Fld} (h : t.rd x = s.rd x) : t.flag x = s.flag x := by
  rw [State.flag, h, State.flag]

theorem State.stamped_lo (s : State) (i n : Nat) : (s.stamped i n).rd (R.TIM_PPS_EDGE_LO_TICK_LO i) = n / 10000 % 2 ^ 32 := by
  have hi : (R.TIM_PPS_EDGE_LO_TICK_LO i).off ≠ 0x30064 + 0x10 * i := by
    show 0x30060 + 0x10 * i ≠ _
    omega
  have pos : (R.TIM_PPS_EDGE_LO_TICK_LO i).off ≠ 0x30068 + 0x10 * i := by
    show 0x30060 + 0x10 * i ≠ _
    omega
  rw [State.stamped, State.modTim_rd, State.rd_wr_off _ _ pos, State.wrB, State.rd_wr_off _ _ pos, State.rd_wr_off _ _ hi]
  exact State.rd_wr_same _ _ (by decide : 0 + 32 ≤ 32)

theorem State.stamped_hi (s : State) (i n : Nat) : (s.stamped i n).rd (R.TIM_PPS_EDGE_HI_TICK_HI i) = n / 10000 / 2 ^ 32 % 2 ^ 32 := by
  have pos : (R.TIM_PPS_EDGE_HI_TICK_HI i).off ≠ 0x30068 + 0x10 * i := by
    show 0x30064 + 0x10 * i ≠ _
    omega
  rw [State.stamped, State.modTim_rd, State.rd_wr_off _ _ pos, State.wrB, State.rd_wr_off _ _ pos]
  exact State.rd_wr_same _ _ (by decide : 0 + 32 ≤ 32)

theorem State.stamped_cycle (s : State) (i n : Nat) : (s.stamped i n).rd (R.TIM_PPS_POS_CYCLE i) = n % 10000 := by
  have fits : n % 10000 < 2 ^ 14 := by omega
  rw [State.stamped, State.modTim_rd, State.rd_wr_same _ _ (by decide : 0 + 14 ≤ 32)]
  exact Nat.mod_eq_of_lt fits

theorem State.stamped_valid (s : State) (i n : Nat) : (s.stamped i n).flag (R.TIM_PPS_POS_VALID i) = true := by
  rw [State.stamped, State.modTim_flag, State.flag, State.rd_wr_beside _ _ (by decide : 0 + 14 ≤ 32) (.inr (by decide : 0 + 14 ≤ 31))]
  exact State.flag_wrB_same _ true (by decide : 31 + 1 ≤ 32) (by decide : 0 < 1)

theorem State.stamped_lastEdge (s : State) (i n : Nat) :
    Tab.get (fun _ => none) (s.stamped i n).tim.lastEdge i = some (n / 10000) := by
  rw [State.stamped, State.modTim_tim]
  simp only [Tab.get_set_same]

theorem execPpsEdgeStamp_spec (on : (s.timInput (4 + i.val)).enable = true) (delay : (s.timInput (4 + i.val)).delay = 0) : ∃ t : State,
    exec (.ppsEdgeStamp i cycle) s = .next t ∧ t.rd (R.TIM_PPS_EDGE_LO_TICK_LO i.val) = s.tick % 2 ^ 32 ∧
      t.rd (R.TIM_PPS_EDGE_HI_TICK_HI i.val) = s.tick / 2 ^ 32 % 2 ^ 32 ∧ t.rd (R.TIM_PPS_POS_CYCLE i.val) = cycle.val ∧
      t.flag (R.TIM_PPS_POS_VALID i.val) = true ∧ Tab.get (fun _ => none) t.tim.lastEdge i.val = some s.tick := by
  obtain ⟨edge, good, ran⟩ := execPpsEdgeStamp_undelayed (cycle := cycle) on delay
  obtain ⟨regs, last⟩ := ((EdgeKeeps.edgeCand (s := s.stamped i.val (s.tick * 10000 + cycle.val)) (src := 0x4c + i.val) (by omega)
    good).edgeTarget (0x4c + i.val) edge).todEdge i.val edge
  have tick : (s.tick * 10000 + cycle.val) / 10000 = s.tick := by omega
  have within : (s.tick * 10000 + cycle.val) % 10000 = cycle.val := by omega
  have inside : ∀ a lo w, 0x30060 ≤ a → a ≤ 0x3006f → 0x30060 ≤ (Fld.mk (a + 0x10 * i.val) lo w).off ∧
      (Fld.mk (a + 0x10 * i.val) lo w).off < 0x30080 := fun a lo w h k => by
    show 0x30060 ≤ a + 0x10 * i.val ∧ a + 0x10 * i.val < 0x30080
    omega
  have kept : ∀ a lo w, 0x30060 ≤ a → a ≤ 0x3006f → _ := fun a lo w h k => regs _ (inside a lo w h k).1 (inside a lo w h k).2
  refine ⟨_, ran, ?_, ?_, ?_, ?_, ?_⟩
  · exact (kept 0x30060 0 32 (by decide) (by decide)).trans ((State.stamped_lo _ _ _).trans (by rw [tick]))
  · exact (kept 0x30064 0 32 (by decide) (by decide)).trans ((State.stamped_hi _ _ _).trans (by rw [tick]))
  · exact (kept 0x30068 0 14 (by decide) (by decide)).trans ((State.stamped_cycle _ _ _).trans within)
  · exact (State.flag_congr (x := R.TIM_PPS_POS_VALID i.val) (kept 0x30068 31 1 (by decide) (by decide))).trans
      (State.stamped_valid _ _ _)
  · rw [last, State.stamped_lastEdge, tick]

end

/-! #### Time of day and the resumption of an output -/

section
variable {s : State} {i : Fin 2} {b : List Byte}

theorem execTodMessage_rejected (bad : todParse b (s.tod i.val).leapDay = none) :
    exec (.todMessage i b) s = .next (s.bump R.TIM_TOD_STAT_REJECT 1) := by
  show execTodMessage i b s = _
  unfold execTodMessage
  dsimp only
  rw [bad]

variable {x : TodLabel} {e : Nat}

theorem execTodMessage_inTime (good : todParse b (s.tod i.val).leapDay = some x)
    (edge : Tab.get (fun _ => none) s.tim.lastEdge i.val = some e) (late : e + 16000 ≤ s.tick) (soon : s.tick ≤ e + 152000)
    (day : x.flags / 2 % 2 = 0) : exec (.todMessage i b) s = .next (s.setTod i.val { s.tod i.val with next := some x }) := by
  show execTodMessage i b s = _
  unfold execTodMessage
  dsimp only
  rw [good, edge]
  dsimp only
  rw [if_pos (by simp [late, soon]), if_neg (by omega)]

theorem execTodMessage_mistimed (good : todParse b (s.tod i.val).leapDay = some x)
    (edge : Tab.get (fun _ => none) s.tim.lastEdge i.val = some e) (off : s.tick < e + 16000 ∨ e + 152000 < s.tick) :
    exec (.todMessage i b) s = .next (s.bump R.TIM_TOD_STAT_REJECT 1) := by
  show execTodMessage i b s = _
  unfold execTodMessage
  dsimp only
  rw [good, edge]
  dsimp only
  rw [if_neg (by simp; omega)]

/-! #### PPS_OUT -/

/-- A pulse of PPS_OUT that leaves its position at `next`. -/
def State.pulsed (s : State) (next : Nat) (before : Bool) : State :=
  (((((s.wrB R.TIM_PPSOUT_AT_TARGET before).modTim fun t => { t with ppsLast := some s.tick }).emit (.ppsOut s.tick)).wr
    R.TIM_PPSOUT_POSITION next).wrB R.TIM_PPSOUT_AT_TARGET (next == s.tim.ppsTarget))

variable {a gap : Nat}

theorem State.ppsOut_idle (idle : s.tim.ppsMode = 0 ∨ s.tick % 160000 ≠ (if s.tim.ppsStep then s.tim.ppsTarget else s.rd R.TIM_PPSOUT_POSITION)) :
    ∃ b, s.ppsOut = s.wrB R.TIM_PPSOUT_AT_TARGET b := by
  refine ⟨s.tim.ppsMode != 0 && s.rd R.TIM_PPSOUT_POSITION == s.tim.ppsTarget, ?_⟩
  unfold State.ppsOut
  dsimp only
  generalize (if s.tim.ppsStep then s.tim.ppsTarget else s.rd R.TIM_PPSOUT_POSITION) = a at idle ⊢
  rw [State.wrB_tick, if_pos (idle.imp_right .inl)]

theorem State.ppsOut_idle_out (idle : s.tim.ppsMode = 0 ∨
    s.tick % 160000 ≠ (if s.tim.ppsStep then s.tim.ppsTarget else s.rd R.TIM_PPSOUT_POSITION)) : (s.ppsOut).out = s.out := by
  obtain ⟨b, eq⟩ := State.ppsOut_idle idle
  rw [eq, State.wrB_out]

/-- PPS_OUT pulses where it stands and moves a cycle towards a target less than half a second ahead. -/
theorem State.ppsOut_pulses (on : s.tim.ppsMode ≠ 0) (last : s.tim.ppsLast = none)
    (at_ : (if s.tim.ppsStep then s.tim.ppsTarget else s.rd R.TIM_PPSOUT_POSITION) = a) (due : s.tick % 160000 = a)
    (ahead : (s.tim.ppsTarget + 160000 - a) % 160000 = gap) (short : gap < 80000) : ∃ before next u,
    next = (if gap = 0 then a else (a + 1) % 160000) ∧ u = s.pulsed next before ∧
      (s.ppsOut = u.raise 0x0f08 0 [.w next] ∨ s.ppsOut = u) := by
  refine ⟨s.tim.ppsMode != 0 && s.rd R.TIM_PPSOUT_POSITION == s.tim.ppsTarget, if gap = 0 then a else (a + 1) % 160000, _, rfl, rfl, ?_⟩
  unfold State.ppsOut
  dsimp only
  rw [at_, last, State.wrB_tick, if_neg (by simp [on, due]), ahead, if_neg (by omega : ¬ gap = 80000)]
  simp only [short, true_or, if_true]
  generalize (if gap = 0 then a else (a + 1) % 160000) = next
  split
  · exact .inl rfl
  · exact .inr rfl

theorem State.pulsed_out (s : State) (next : Nat) (before : Bool) : (s.pulsed next before).out = s.out ++ [.ppsOut s.tick] := by
  rw [State.pulsed, State.wrB_out, State.wr_out, State.emit_out, State.modTim_out, State.wrB_out]

theorem State.pulsed_position (s : State) {next : Nat} (before : Bool) (h : next < 160000) :
    (s.pulsed next before).rd R.TIM_PPSOUT_POSITION = next := by
  rw [State.pulsed, State.wrB, State.rd_wr_beside _ _ (by decide) (.inl (by decide)), State.rd_wr_same _ _ (by decide)]
  exact Nat.mod_eq_of_lt (lt_trans h (by decide))

theorem State.pulsed_atTarget (s : State) (before : Bool) : (s.pulsed s.tim.ppsTarget before).flag R.TIM_PPSOUT_AT_TARGET = true := by
  rw [State.pulsed, State.flag_wrB_same _ _ (by decide) (by decide)]
  exact beq_self_eq_true _

theorem State.ppsOut_spec {next : Nat} (on : s.tim.ppsMode ≠ 0) (last : s.tim.ppsLast = none)
    (at_ : (if s.tim.ppsStep then s.tim.ppsTarget else s.rd R.TIM_PPSOUT_POSITION) = a) (due : s.tick % 160000 = a)
    (ahead : (s.tim.ppsTarget + 160000 - a) % 160000 = gap) (short : gap < 80000)
    (hnext : (if gap = 0 then a else (a + 1) % 160000) = next) (small : next < 160000) :
    (s.ppsOut).out = s.out ++ [.ppsOut s.tick] ∧ (s.ppsOut).rd R.TIM_PPSOUT_POSITION = next ∧
      (next = s.tim.ppsTarget → (s.ppsOut).flag R.TIM_PPSOUT_AT_TARGET = true) := by
  obtain ⟨before, _, _, rfl, rfl, raised | quiet⟩ := State.ppsOut_pulses on last at_ due ahead short
  · rw [raised, hnext, State.raise_out, State.raise_rd, State.raise_flag]
    exact ⟨State.pulsed_out _ _ _, State.pulsed_position _ _ small, fun h => h ▸ State.pulsed_atTarget s before⟩
  · rw [quiet, hnext]
    exact ⟨State.pulsed_out _ _ _, State.pulsed_position _ _ small, fun h => h ▸ State.pulsed_atTarget s before⟩

end

/-- Settles O55, event by event: the candidate's, the detector's and the edge's lemmas. -/
theorem timingEvents : Obligations.TimingEvents := by
  intro s
  refine ⟨fun src none => ?_, fun src low present => ?_, fun src n since lost => ?_, fun obs due => ?_, fun src off n p c due known hc since full => ?_,
    fun d err fofs h => ?_, fun d err fofs h => ?_, fun d err fofs n now free => ⟨fun acquiring ran => ⟨?_, ?_⟩, fun locked ran long far => ?_⟩,
    fun d h => ?_, fun d n held len due fresh => ?_, fun b hb => ?_, fun p a b c down => ?_, fun p state depth followed x up hx => ?_,
    fun i cycle off => ?_, fun i cycle on delay => ?_, fun i b bad => ?_, fun i b x e good edge => ⟨?_, ?_⟩, fun k n held => ⟨?_, ?_⟩,
    fun k free => ?_, fun off => ?_, fun target on htarget small last => ⟨?_, ?_, ?_⟩⟩
  · exact next_congr (if_neg (by simp [none]))
  · exact next_congr (if_neg (by simp [low, present]))
  · exact ⟨_, execCandidateAbsent_lost since lost, State.cand_candAbsent s src.val, fun k hk => State.cand_candAbsent_other s hk⟩
  · exact next_congr (if_neg due)
  · subst hc
    have windowed := execMeasurementWindowEnd_one (off := off) (n := n) due known
    exact ⟨fun qual far => ⟨_, windowed, State.windowOf_drifts since full qual far⟩,
      fun qual near => ⟨_, windowed, State.windowOf_stays since full qual near⟩,
      fun unqual near bar long => ⟨_, windowed, State.windowOf_qualifies (sourceIds_lt known) since full unqual near bar long⟩⟩
  · exact next_congr (if_pos h)
  · exact next_congr (if_pos h)
  · exact execDpllLocked_locks now acquiring free ran
  · exact execDpllLocked_strays acquiring free
  · exact execDpllLockLost_loses now locked free ran long far
  · exact next_congr (if_pos h)
  · exact next_congr (State.hoTimer_reached held len due fresh)
  · subst hb
    rfl
  · exact next_congr (if_pos (by simp [down]))
  · subst hx
    refine ⟨fun unqual => ⟨_, execTimingReport_unqualified up unqual, State.setCand_host _ _ _, State.cand_reported⟩,
      fun qual loop known => ⟨_, execTimingReport_loop up qual loop known, ?_, ?_⟩⟩
    · rw [State.cand_disqualify, State.cand_setCand_same]
    · rw [State.disqualify_events (by rw [State.cand_reported]; exact qual), State.reported, State.setCand_host, eventOf,
        State.setCand_tick]
      rfl
  · exact next_congr (if_pos (by simp [off]))
  · exact execPpsEdgeStamp_spec on delay
  · exact execTodMessage_rejected bad
  · exact execTodMessage_inTime good edge
  · exact execTodMessage_mistimed good edge
  · exact fun early => next_congr (if_neg (by simp [held]; omega))
  · exact fun late => next_congr (if_pos (by simp [held, late]))
  · exact next_congr (if_neg (by simp [free]))
  · exact ⟨_, rfl, State.ppsOut_idle_out (.inl off)⟩
  · subst htarget
    intro step due
    have stands : (if s.tim.ppsStep then s.tim.ppsTarget else s.rd R.TIM_PPSOUT_POSITION) = s.tim.ppsTarget := if_pos step
    have pulse := State.ppsOut_spec on last stands due (by omega : _ = 0) (by decide) (if_pos rfl) small
    exact ⟨_, rfl, pulse.1, pulse.2.1, pulse.2.2 rfl⟩
  · subst htarget
    intro step due behind near
    have stands : (if s.tim.ppsStep then s.tim.ppsTarget else s.rd R.TIM_PPSOUT_POSITION) = s.rd R.TIM_PPSOUT_POSITION :=
      if_neg (by simp [step])
    have pulse := State.ppsOut_spec (next := s.rd R.TIM_PPSOUT_POSITION + 1) on last stands due rfl (by omega)
      ((if_neg (by omega)).trans (by omega)) (by omega)
    exact ⟨_, rfl, pulse.1, pulse.2.1⟩
  · exact fun step wait => ⟨_, rfl, State.ppsOut_idle_out (.inr (by simp [step, wait]))⟩

end Sys2Proof.Machine

/-! ### The timing descriptors and the set-up of the twin relationship (R389, R400, R408, R437, Table TIM-8) -/

namespace Sys2Proof.Machine

section
variable {s : State} {h : ReqHdr} {mem : HostMem}

/-! #### TIM_INPUT -/

/-- Input `input` is given a setting. -/
def State.setInput (s : State) (input : Nat) (x : TimInput) : State :=
  s.modTim fun t => { t with inputs := Tab.set (fun _ => {}) t.inputs input x }

theorem chkTimInput_pass {input code : Nat} {delay : Int} (inp : input < 6)
    (fits : if input < 4 then 1 ≤ code ∧ code ≤ 5 else code ≤ 1) (lo : -(2 ^ 31) ≤ delay) (hi : delay < 2 ^ 31) :
    ∀ c ∈ [ckFormat (decide (5 < input)), ckFormat (if input < 4 then !(decide (1 ≤ code) && decide (code ≤ 5)) else decide (1 < code)),
      ckFormat (decide (delay < -(2 ^ 31)) || decide (2 ^ 31 ≤ delay))], c.bad = false := by
  simp only [List.forall_mem_cons]
  refine ⟨ckFormat_pass (decide_eq_false (by omega)), ckFormat_pass ?_, ckFormat_pass ?_, by simp⟩
  · split at fits
    · rename_i low
      simp [low, fits]
    · rename_i high
      simp [high, fits]
  · simp
    omega

theorem execTimInput_disabled {input code : Nat} {delay : Int} (hpf : h.isPf) (inp : input < 6)
    (fits : if input < 4 then 1 ≤ code ∧ code ≤ 5 else code ≤ 1) (lo : -(2 ^ 31) ≤ delay) (hi : delay < 2 ^ 31) :
    exec (.timInput h mem input false code delay) s = .next ((s.setInput input
      { enable := false, code := code, delay := if input < 4 then 0 else delay }).complete (doneOk h s 0x60 0)) :=
  next_congr (runOne_pf { s := _ } hpf rfl (chkTimInput_pass inp fits lo hi) rfl rfl rfl rfl)

/-- Presence, quality and history of a candidate are all that its absence changes of the timing record. -/
theorem State.candAbsent_inputs (s : State) (src : Nat) : (s.candAbsent src).tim.inputs = s.tim.inputs := by
  rw [State.candAbsent, State.setCand_tim, State.disqualify_eq]
  split
  · rw [State.raise_tim, State.setCand_tim]
  · rw [State.setCand_tim]

@[simp] theorem State.candAbsent_tick (s : State) (src : Nat) : (s.candAbsent src).tick = s.tick := by
  rw [State.candAbsent, State.setCand_tick, State.disqualify_eq]
  split
  · rw [State.raise_tick, State.setCand_tick]
  · rw [State.setCand_tick]

/-- A candidate starts afresh, present from this tick. -/
def State.freshCand (s : State) (src : Nat) : State :=
  (if (s.cand src).since.isSome then s.candAbsent src else s).setCand src { since := some s.tick }

theorem State.freshCand_inputs (s : State) (src : Nat) : (s.freshCand src).tim.inputs = s.tim.inputs := by
  rw [State.freshCand, State.setCand_tim]
  split
  · exact s.candAbsent_inputs src
  · rfl

theorem State.freshCand_tick (s : State) (src : Nat) : (s.freshCand src).tick = s.tick := by
  rw [State.freshCand, State.setCand_tick]
  split
  · exact s.candAbsent_tick src
  · rfl

/-- A PPS input forgets its edges and its time of day. -/
def State.forgetEdges (s : State) (i : Nat) : State :=
  ((s.wrB (R.TIM_PPS_POS_VALID i) false).modTim fun t => { t with lastEdge := Tab.set (fun _ => none) t.lastEdge i none }).setTod i {}

theorem State.forgetEdges_tim (s : State) (i : Nat) : (s.forgetEdges i).tim.cands = s.tim.cands ∧
    (s.forgetEdges i).tim.inputs = s.tim.inputs := by
  rw [State.forgetEdges, State.setTod, State.modTim_tim, State.modTim_tim, State.wrB_tim]
  exact ⟨rfl, rfl⟩

theorem appTimInput_fresh {input code : Nat} {delay : Int} {c : Ctx} (off : (s.timInput input).enable = false) :
    appTimInput input true code delay c s = if 4 ≤ input then
      { s := ((s.setInput input { enable := true, code := code, delay := if input < 4 then 0 else delay }).freshCand
        (0x48 + input)).forgetEdges (input - 4) }
      else { s := (s.setInput input { enable := true, code := code, delay := if input < 4 then 0 else delay }).freshCand (0x48 + input) } :=
  if_pos (by simp [off])

theorem execTimInput_fresh {input code : Nat} {delay : Int} (hpf : h.isPf) (inp : input < 6)
    (fits : if input < 4 then 1 ≤ code ∧ code ≤ 5 else code ≤ 1) (lo : -(2 ^ 31) ≤ delay) (hi : delay < 2 ^ 31)
    (off : (s.timInput input).enable = false) : ∃ t : State,
      exec (.timInput h mem input true code delay) s = .next (t.complete (doneOk h s 0x60 0)) ∧
        t.cand (0x48 + input) = { since := some s.tick } ∧
        t.timInput input = { enable := true, code := code, delay := if input < 4 then 0 else delay } := by
  have app := appTimInput_fresh (code := code) (delay := delay) (c := h.ctx s mem) off
  generalize hx : (TimInput.mk true code (if input < 4 then 0 else delay)) = x at app ⊢
  generalize hu : (s.setInput input x).freshCand (0x48 + input) = u at app
  have tick : u.tick = s.tick := hu ▸ State.freshCand_tick _ _
  have cand : u.cand (0x48 + input) = { since := some s.tick } := hu ▸ State.cand_setCand_same _ _ _
  have inputs : u.timInput input = x := by
    rw [State.timInput, ← hu, State.freshCand_inputs]
    exact Tab.get_set_same _ _ _ _
  have checked := chkTimInput_pass inp fits lo hi
  by_cases pps : 4 ≤ input
  · rw [if_pos pps] at app
    obtain ⟨cands, ins⟩ := u.forgetEdges_tim (input - 4)
    refine ⟨_, next_congr (runOne_pf _ hpf rfl checked app rfl rfl ?_), ?_, ?_⟩
    · exact tick
    · rw [State.cand, cands]
      exact cand
    · rw [State.timInput, ins]
      exact inputs
  · rw [if_neg pps] at app
    exact ⟨_, next_congr (runOne_pf _ hpf rfl checked app rfl rfl tick), cand, inputs⟩

/-! #### TIM_PRIO -/

variable {wtr addr : Nat} {b : List Byte}

theorem execTimPrio_entered (hpf : h.isPf) (align : addr % 64 = 0) (read : readHost mem addr 64 = some b) (short : wtr ≤ 720)
    (good : prioOk (prioImage b) = true) (forced : s.forcedOk (prioImage b) = true)
    (lines : ∀ e ∈ prioImage b, prioOf e ≠ 0 → prioSource e < 48 → s.frondEnabled (prioSource e) = true) :
    exec (.timPrio h mem wtr addr) s =
      .next ((s.modTim fun x => { x with wtr := wtr, prio := prioImage b }).complete (doneOk h s 0x61 0)) := by
  have read' : readHost (h.ctx s mem).mem addr 64 = some b := read
  refine next_congr (runOne_pf { s := s.modTim fun x => { x with wtr := wtr, prio := prioImage b } } hpf rfl ?_ ?_ rfl rfl rfl)
  · simp only [List.forall_mem_cons, read']
    refine ⟨?_, ckAlign_pass align, ckFormat_pass (decide_eq_false (by omega)), ckFormat_pass ?_, ckAbsent_pass ?_, by simp⟩
    · simp [Ctx.ckRead, read']
    · simp [good, forced]
    · simp only [Option.map_some, Option.any_some, List.any_eq_false]
      intro e he
      by_cases on : prioOf e ≠ 0 ∧ prioSource e < 48
      · simp [lines e he on.1 on.2]
      · simp only [not_and_or, not_not] at on
        obtain off | high := on
        · simp [off]
        · simp [high]
  · rw [appTimPrio, read']

theorem execTimPrio_refused (hpf : h.isPf) (read : readHost mem addr 64 = some b)
    (bad : prioOk (prioImage b) = false) : exec (.timPrio h mem wtr addr) s = .next (s.complete (doneRefused h s 0x61 St.format 0)) := by
  have read' : readHost (h.ctx s mem).mem addr 64 = some b := read
  have checks : chkTimPrio wtr addr (h.ctx s mem) s = (h.ctx s mem).pf ++ [(h.ctx s mem).ckRead addr 64, ckAlign addr 64,
      ckFormat (decide (720 < wtr)), ckFormat (!prioOk (prioImage b) || !s.forcedOk (prioImage b)), ckAbsent ((prioImage b).any fun e =>
        prioOf e != 0 && decide (prioSource e < 48) && !s.frondEnabled (prioSource e))] := by
    rw [chkTimPrio, read']
    rfl
  have failed : firstFail (chkTimPrio wtr addr (h.ctx s mem) s) = some ⟨St.format, 0⟩ := by
    rw [checks]
    refine firstFail_first (c := ckFormat (!prioOk (prioImage b) || !s.forcedOk (prioImage b))) (by simp) (by simp [ckFormat, bad]) ?_
    intro k hk hbad
    obtain pf | here := List.mem_append.mp hk
    · exact absurd hbad (by rw [pf_pass hpf k pf]; decide)
    · simp only [List.mem_cons, List.not_mem_nil, or_false] at here
      obtain rfl | rfl | rfl | rfl | rfl := here
      · simp [Ctx.ckRead, read'] at hbad
      · exact .inr ⟨rfl, rfl⟩
      · exact .inr ⟨rfl, rfl⟩
      · exact .inr ⟨rfl, rfl⟩
      · exact .inl (show 6 < 7 by decide)
  exact next_congr (runOne_refused failed (by decide) (by decide) nofun nofun)

/-! #### TIM_DPLL, TIM_OUTPUT and TIM_TOD -/

theorem execTimDpll_set {d mode force bw spec : Nat} {revert : Bool} (hpf : h.isPf) (hd : d < 4) (hmode : mode < 4) (hforce : force < 16)
    (hbw : bwOk bw = true) (hspec : spec < 2 ^ 24) (entry : mode ≠ 1 ∨ prioMask (s.tim.prio.getD force 0) d = true) :
    exec (.timDpll h mem d mode force revert bw spec) s = .next ((s.setDpll d { s.dpll d with
      mode := mode, force := force, revert := revert, bw := bw, hoSpec := spec }).complete (doneOk h s 0x62 0)) := by
  refine next_congr (runOne_pf { s := _ } hpf rfl ?_ rfl rfl rfl rfl)
  simp only [List.forall_mem_cons]
  refine ⟨ckFormat_pass ?_, ckFormat_pass ?_, by simp⟩
  · simp [hbw]
    omega
  · obtain other | masked := entry
    · simp [other]
    · rw [masked]
      simp

theorem State.todStat_tick (s : State) : s.todStat.tick = s.tick := by
  unfold State.todStat
  dsimp only
  split <;> rfl

theorem execTimTod_set {src : Nat} {step : Bool} (hpf : h.isPf) (hsrc : src < 4) : exec (.timTod h mem src step) s =
    .next ((s.modTim fun x => { x with todSrc := src, todStep := step }).todStat.complete (doneOk h s 0x65 0)) := by
  refine next_congr (runOne_pf { s := _ } hpf rfl ?_ rfl rfl rfl (State.todStat_tick _))
  simp only [List.forall_mem_cons]
  exact ⟨ckFormat_pass (decide_eq_false (by omega)), by simp⟩

section
variable {output freq src sq mode phase : Nat} {step : Bool}

theorem chkTimOutput_pass (hout : output < 11) (hfreq : freq < 8) (hsrc : src < 4) (hsq : sq < 4) (hmode : mode < 3)
    (hphase : phase < 160000) : ∀ c ∈ [ckFormat (decide (10 < output) || decide (7 < freq) || decide (3 < src) || decide (3 < sq) ||
      decide (2 < mode) || decide (159999 < phase))], c.bad = false := by
  simp only [List.forall_mem_cons]
  refine ⟨ckFormat_pass ?_, by simp⟩
  simp
  omega

theorem execTimOutput_pps (hpf : h.isPf) (hfreq : freq < 8) (hsrc : src < 4) (hsq : sq < 4) (hmode : mode < 3) (hphase : phase < 160000) :
    exec (.timOutput h mem 10 freq src sq mode step phase) s = .next ((s.modTim fun x => { x with
      ppsMode := mode, ppsStep := step, ppsTarget := if mode = 1 then phase else x.ppsTarget }).complete (doneOk h s 0x63 0)) :=
  next_congr (runOne_pf { s := _ } hpf rfl (chkTimOutput_pass (by decide) hfreq hsrc hsq hmode hphase) rfl rfl rfl rfl)

/-- The tick to which a clock output is held static when it is given a frequency and a source. -/
def State.outHeld (s : State) (output freq src : Nat) : Option Nat :=
  if decide (output < 8) && ((s.timOut output).freq != freq || (s.timOut output).src != src) then some (s.tick + 2)
  else (s.timOut output).heldTo

theorem execTimOutput_clock (hpf : h.isPf) (hout : output < 10) (hfreq : freq < 8) (hsrc : src < 4) (hsq : sq < 4) (hmode : mode < 3)
    (hphase : phase < 160000) : ∃ t : State, exec (.timOutput h mem output freq src sq mode step phase) s =
      .next (t.complete (doneOk h s 0x63 0)) ∧ (t.timOut output).freq = freq ∧ (t.timOut output).src = src ∧ (t.timOut output).sq = sq ∧
      (∀ k, k ≠ output → t.timOut k = s.timOut k) ∧
      (output < 8 → (s.timOut output).freq ≠ freq ∨ (s.timOut output).src ≠ src →
        (t.timOut output).heldTo = some (s.tick + 2) ∧ t.clkRuns output = false) := by
  have app : appTimOutput output freq src sq mode step phase (h.ctx s mem) s = { s := s.modTim fun t => { t with
      outs := Tab.set (fun _ => {}) t.outs output { freq := freq, src := src, sq := sq, heldTo := s.outHeld output freq src } } } := if_neg (by omega)
  have same : ∀ x : TimOut, (s.modTim fun t => { t with outs := Tab.set (fun _ => {}) t.outs output x }).timOut output = x :=
    fun _ => Tab.get_set_same _ _ _ _
  refine ⟨_, next_congr (runOne_pf _ hpf rfl (chkTimOutput_pass (by omega) hfreq hsrc hsq hmode hphase) app rfl rfl rfl), ?_⟩
  refine ⟨by rw [same], by rw [same], by rw [same], fun k hk => Tab.get_set_other _ _ _ hk, fun low changed => ?_⟩
  have held : s.outHeld output freq src = some (s.tick + 2) := if_pos (by simpa [low] using changed)
  rw [State.clkRuns, same, held]
  simp

end

/-! #### TIM_TWIN -/

section
variable {lead peer lanes : Nat}

/-- The twin relationship is set up. -/
def State.pairedWith (s : State) (lead peer lanes : Nat) : State :=
  (s.modTwin fun _ => { on := true, uid := (s.mport 5).uid.getD 0, peer := peer, lanes := lanes }).wrB
    R.TIM_TWIN_LEAD (lead == 1 || (lead == 0 && decide (s.meshAddr < peer)))

theorem State.pairedWith_tick (s : State) (lead peer lanes : Nat) : (s.pairedWith lead peer lanes).tick = s.tick := by
  rw [State.pairedWith, State.wrB_tick, State.modTwin_tick]

theorem execTimTwinSetup_sets (hpf : h.isPf) (hlead : lead < 3) (hpeer : peer < 4096) (up : s.meshUp 5 = true)
    (nbr : s.rd (R.MSH_PORT_STAT_NBR_ADDR 5) = peer) (single : s.tim.twin.on = false) :
    exec (.timTwinSetup h mem lead peer lanes) s = .next ((s.pairedWith lead peer lanes).complete (doneOk h s 0x64 0)) := by
  have app : appTimTwin 1 lead peer lanes (h.ctx s mem) s = { s := s.pairedWith lead peer lanes } := if_pos rfl
  refine next_congr (runOne_pf _ hpf rfl ?_ app rfl rfl (s.pairedWith_tick lead peer lanes))
  simp only [List.forall_mem_cons]
  refine ⟨ckFormat_pass ?_, ckAbsent_pass ?_, ckCond_pass ?_, by simp⟩
  · simp
    omega
  · simp [up, nbr]
  · simp [single]

theorem execTimTwinSetup_paired (hpf : h.isPf) (hlead : lead < 3) (hpeer : peer < 4096) (up : s.meshUp 5 = true)
    (nbr : s.rd (R.MSH_PORT_STAT_NBR_ADDR 5) = peer) (paired : s.tim.twin.on = true) :
    exec (.timTwinSetup h mem lead peer lanes) s = .next (s.complete (doneRefused h s 0x64 St.slotBusy 0)) := by
  have failed : firstFail (chkTimTwin 1 lead peer (h.ctx s mem) s) = some ⟨St.slotBusy, 0⟩ := by
    refine firstFail_eq_some ⟨ckCond (1 == 1 && s.tim.twin.on) St.slotBusy, by simp [chkTimTwin], by simp [ckCond, paired]⟩ ?_
    intro k hk hbad
    obtain pf | here := List.mem_append.mp hk
    · exact absurd hbad (by rw [pf_pass hpf k pf]; decide)
    · simp only [List.mem_cons, List.not_mem_nil, or_false] at here
      obtain rfl | rfl | rfl := here
      · simp [ckFormat] at hbad
        omega
      · simp [ckAbsent, up, nbr] at hbad
      · exact ⟨rfl, rfl⟩
  exact next_congr (runOne_refused failed (by decide) (by decide) nofun nofun)

/-- The registers of a removed twin relationship. -/
def State.unpaired (s : State) : State :=
  (((s.modTwin fun w => { psi := w.psi, missTotal := w.missTotal }).wr R.TIM_TWIN_STATE 0).wrB R.TIM_TWIN_LEAD false).wr R.TIM_TWIN_OFFSET 0

theorem State.unpaired_tick (s : State) : s.unpaired.tick = s.tick := by
  rw [State.unpaired, State.wr_tick, State.wrB_tick, State.wr_tick, State.modTwin_tick]

theorem State.unpaired_off (s : State) : s.unpaired.tim.twin.on = false := by
  rw [State.unpaired, State.wr_tim, State.wrB_tim, State.wr_tim, State.modTwin_twin]

theorem State.unpaired_regs (s : State) :
    s.unpaired.twinState = 0 ∧ s.unpaired.twinLead = false ∧ s.unpaired.rd R.TIM_TWIN_OFFSET = 0 := by
  refine ⟨?_, ?_, ?_⟩
  · rw [State.unpaired, State.twinState, State.rd_wr_beside _ _ (by decide) (.inr (by decide)), State.wrB,
      State.rd_wr_beside _ _ (by decide) (.inr (by decide)), State.rd_wr_same _ _ (by decide)]
    rfl
  · rw [State.unpaired, State.twinLead, State.flag, State.rd_wr_beside _ _ (by decide) (.inr (by decide))]
    exact State.flag_wrB_same _ _ (by decide) (by decide)
  · rw [State.unpaired, State.rd_wr_same _ _ (by decide)]
    rfl

theorem execTimTwinRemove_removes (hpf : h.isPf) (hlead : lead < 3) (hpeer : peer < 4096) : ∃ t : State,
    exec (.timTwinRemove h mem lead peer lanes) s = .next (t.complete (doneOk h s 0x64 0)) ∧ t.tim.twin.on = false ∧
      t.twinState = 0 ∧ t.twinLead = false ∧ t.rd R.TIM_TWIN_OFFSET = 0 := by
  have app : appTimTwin 0 lead peer lanes (h.ctx s mem) s =
      { s := if s.twinState = 0 then s.unpaired else s.unpaired.raise 0x0b01 0 } := (if_neg (by decide)).trans rfl
  obtain ⟨state, lead', offset⟩ := s.unpaired_regs
  have removed : ∃ u : State, appTimTwin 0 lead peer lanes (h.ctx s mem) s = { s := u } ∧ u.tick = s.tick ∧ u.tim.twin.on = false ∧
      u.twinState = 0 ∧ u.twinLead = false ∧ u.rd R.TIM_TWIN_OFFSET = 0 := by
    rw [app]
    split
    · exact ⟨_, rfl, s.unpaired_tick, s.unpaired_off, state, lead', offset⟩
    · refine ⟨_, rfl, ?_, ?_, ?_, ?_, ?_⟩
      · rw [State.raise_tick, State.unpaired_tick]
      · rw [State.raise_tim, State.unpaired_off]
      · rw [State.twinState, State.raise_rd]
        exact state
      · rw [State.twinLead, State.raise_flag]
        exact lead'
      · rw [State.raise_rd, offset]
  obtain ⟨u, done, tick, twin⟩ := removed
  refine ⟨u, next_congr (runOne_pf { s := u } hpf rfl ?_ done rfl rfl tick), twin⟩
  simp only [List.forall_mem_cons]
  refine ⟨ckFormat_pass ?_, ckAbsent_pass rfl, ckCond_pass rfl, by simp⟩
  simp
  omega

end

end

/-- Settles O56, descriptor by descriptor. -/
theorem timingCommands : Obligations.TimingCommands := by
  intro s h mem hpf
  refine ⟨fun input code delay inp fits lo hi => ⟨?_, ?_⟩, fun wtr addr b l align read short hl good forced lines => ?_,
    fun wtr addr b l align read hl bad => ?_, fun d mode force bw spec revert hd hmode hforce hbw hspec entry => ?_,
    fun output freq src sq mode phase step hout hfreq hsrc hsq hmode hphase => ?_,
    fun freq src sq mode phase step hfreq hsrc hsq hmode hphase => ?_, fun src step hsrc => ?_,
    fun lead peer lanes hlead hpeer up nbr single => ?_, fun lead peer lanes hlead hpeer up nbr paired => ?_,
    fun lead peer lanes hlead hpeer => ?_⟩
  · exact execTimInput_disabled hpf inp fits lo hi
  · exact execTimInput_fresh hpf inp fits lo hi
  · subst hl
    exact execTimPrio_entered hpf align read short good forced lines
  · subst hl
    exact execTimPrio_refused hpf read bad
  · exact execTimDpll_set hpf hd hmode hforce hbw hspec entry
  · exact execTimOutput_clock hpf hout hfreq hsrc hsq hmode hphase
  · exact execTimOutput_pps hpf hfreq hsrc hsq hmode hphase
  · exact execTimTod_set hpf hsrc
  · exact execTimTwinSetup_sets hpf hlead hpeer up nbr single
  · exact execTimTwinSetup_paired hpf hlead hpeer up nbr paired
  · exact execTimTwinRemove_removes hpf hlead hpeer

end Sys2Proof.Machine

/-! ### The power manager's events and descriptors (R444, R445, R453 to R455, R459 to R462, R464, Table PWR-6) -/

namespace Sys2Proof.Machine

/-! #### Wakes -/

section
variable {s u : State} {f : Fin 48} {tgt : Nat}

theorem execWakeComplete_enters (waking : s.flag (R.PWR_FSTAT_WAKING f.val) = true)
    (target : s.holdTarget f.val (s.rawTarget f.val) = (u, tgt)) (straight : (u.frondPow f.val).viaCal = false) :
    exec (.wakeComplete f) s = .next (((((u.endWake f.val).wakeLate f.val).setFrondPow f.val (u.frondPow f.val)).enterPower
      f.val tgt).moduleState) := by
  refine next_congr ((if_neg (by simp [waking])).trans ?_)
  rw [target]
  dsimp only
  generalize u.frondPow f.val = x at straight
  obtain ⟨_, _, via⟩ := x
  subst straight
  rfl

theorem execWakeComplete_calibrates (waking : s.flag (R.PWR_FSTAT_WAKING f.val) = true)
    (target : s.holdTarget f.val (s.rawTarget f.val) = (u, tgt)) (up : tgt ≤ 1) (via : (u.frondPow f.val).viaCal = true)
    (stale : u.calUsable f.val = false) :
    exec (.wakeComplete f) s = .next ((((u.endWake f.val).enterPower f.val 1).calAdmit f.val 1).moduleState) := by
  refine next_congr ((if_neg (by simp [waking])).trans ?_)
  rw [target]
  dsimp only
  rw [if_pos (by simp [via, stale, up])]

end

/-! #### Throttling and shedding -/

section
variable {s : State}

/-- A tick of the thermal runs touches nothing but those runs. -/
theorem State.thermTick_rd (s : State) (x : Fld) : s.thermTick.rd x = s.rd x := State.modPow_rd _ _ x

theorem State.thermTick_tick (s : State) : s.thermTick.tick = s.tick := State.modPow_tick _ _

theorem State.thermTick_frondPow (s : State) (f : Nat) : s.thermTick.frondPow f = s.frondPow f := (rfl)

theorem State.thermTick_shedTick (s : State) : s.thermTick.pow.shedTick = s.pow.shedTick := (rfl)

theorem State.thermTick_tThr (s : State) : s.thermTick.tThr = s.tThr := (rfl)

theorem State.thermTick_sensor (s : State) (i : Nat) : s.thermTick.sensor i = s.sensor i := (rfl)

theorem State.capStep_lowers {f c : Nat} (cap : s.rd (R.PWR_CAP f) = c) (more : c < 2) (hot : s.tThr < s.sensor f)
    (first : (s.frondPow f).capTick = none) : s.capStep f =
      ((s.wr (R.PWR_CAP f) (c + 1)).setFrondPow f { s.frondPow f with capTick := some s.tick }).raise 0x110a f [.w (32 - 8 * (c + 1))] := by
  subst cap
  exact if_pos (by simp [hot, more, first])

theorem execThermThrottle_lowers {f : Fin 48} {c : Nat} (cap : s.rd (R.PWR_CAP f.val) = c) (more : c < 2) (hot : s.tThr < s.sensor f.val)
    (first : (s.frondPow f.val).capTick = none) : exec (.thermThrottle f) s =
      .next (((s.thermTick.wr (R.PWR_CAP f.val) (c + 1)).setFrondPow f.val { s.frondPow f.val with
        capTick := some s.tick }).raise 0x110a f.val [.w (32 - 8 * (c + 1))]) := by
  have step := State.capStep_lowers (s := s.thermTick) (f := f.val) ((s.thermTick_rd _).trans cap) more
    (by rw [s.thermTick_tThr, s.thermTick_sensor]; exact hot) (by rw [s.thermTick_frondPow]; exact first)
  rw [s.thermTick_frondPow, s.thermTick_tick] at step
  exact next_congr step

theorem State.shedStep_sheds {q : Nat × Run} {g : Nat} (mem : q ∈ s.pow.hot) (long : 1600 ≤ q.2.n) (hot : s.tThr < s.sensor q.1)
    (first : s.pow.shedTick = none) (next : s.frondIds.find? (fun f => s.mapBit R.PWR_SHED_SHED f && !s.isShed f) = some g) :
    s.shedStep = ((s.modPow fun p => { p with shedTick := some s.tick }).setMapBit R.PWR_SHEDACT_SHEDACT g true).raise 0x110b g [.w 1] := by
  have any : (s.pow.hot.any fun q => decide (1600 ≤ q.2.n) && decide (s.tThr < s.sensor q.1)) = true :=
    List.any_eq_true.mpr ⟨q, mem, by simp [long, hot]⟩
  unfold State.shedStep
  dsimp only
  rw [any, if_pos rfl, if_pos (by rw [first]; rfl), next]

theorem execThermShed_sheds {q : Nat × Run} {g : Nat} (mem : q ∈ s.thermTick.pow.hot) (long : 1600 ≤ q.2.n) (hot : s.tThr < s.sensor q.1)
    (first : s.pow.shedTick = none) (next : s.frondIds.find? (fun f => s.mapBit R.PWR_SHED_SHED f && !s.isShed f) = some g) :
    exec .thermShed s = .next (((s.thermTick.modPow fun p => { p with shedTick := some s.tick }).setMapBit R.PWR_SHEDACT_SHEDACT g
      true).raise 0x110b g [.w 1]) := by
  have step := State.shedStep_sheds (s := s.thermTick) mem long (by rw [s.thermTick_tThr, s.thermTick_sensor]; exact hot)
    (s.thermTick_shedTick.trans first) next
  rw [s.thermTick_tick] at step
  exact next_congr step

end

/-- The first trip of a sensor gates every frond and is sent as a fault. -/
theorem execThermalTrip_first {s : State} {i : Fin 52} {deg : Nat} (fresh : s.flag R.PWR_MSTAT_TRIPPED = false) :
    exec (.thermalTrip i deg) s = .next ((((((s.wrB R.PWR_MSTAT_TRIPPED true).modPow fun p => { p with
      gated := true }).updateBlocking.gateAll.raise 0x110c i.val [.w deg]).bumpLife 6).sendFault
        ⟨0x006, 0x05, 7, false, i.val + 256 * (deg % 256), s.tick⟩).moduleState) := by
  show execThermalTrip i deg s = _
  unfold execThermalTrip
  rw [if_neg (by rw [fresh]; decide)]
  dsimp only
  have tick : ((((s.wrB R.PWR_MSTAT_TRIPPED true).modPow fun p => { p with gated := true }).updateBlocking.gateAll.raise 0x110c i.val
      [.w deg]).bumpLife 6).tick = s.tick := by
    rw [kept_tick (State.bumpLife_kept _ _), State.raise_tick, kept_tick (State.gateAll_kept _), kept_tick (State.updateBlocking_kept _),
      State.modPow_tick, State.wrB_tick]
  rw [tick]

theorem execRailFault_counts {s : State} {r : Fin 14} {mv : Nat} (ok : s.boot.pwrOk = true) :
    exec (.railFault r mv) s = .next ((((s.modPow fun p => { p with railsOut := p.railsOut.filter (· != r.val) ++ [r.val] }).bump
      R.PWR_CNT_RAIL_FAULTS 1).raise 0x1107 r.val [.w mv]).sendFault
        ⟨0x006, 0x04, 6, false, r.val + 2 ^ 16 * (mv % 2 ^ 16), s.tick⟩) := by
  show execRailFault r mv s = _
  unfold execRailFault
  rw [if_neg (by rw [ok]; decide)]
  dsimp only
  rw [State.raise_tick, State.bump_tick, State.modPow_tick]

/-! #### Descriptors -/

section
variable {s u : State} {h : ReqHdr} {mem : HostMem} {f : Fin 48}

theorem chkPwrFrond_pass (enabled : s.frondEnabled f.val = true) :
    ∀ c ∈ [ckFormat (decide (48 ≤ f.val)), s.ckFrond f.val], c.bad = false := by
  simp only [List.forall_mem_cons]
  exact ⟨ckFormat_pass (decide_eq_false (by omega)), ckFrond_pass enabled, by simp⟩

theorem execPwrFrond_shed {set shed : Bool} {lt : Nat} (hpf : h.isPf) (enabled : s.frondEnabled f.val = true) :
    exec (.pwrFrond h mem f.val false set shed lt) s = .next
      ((if set then s.setMapBit R.PWR_SHED_SHED f.val shed else s).complete (doneOk h s 0x80 0)) := by
  have tick : (if set then s.setMapBit R.PWR_SHED_SHED f.val shed else s).tick = s.tick := by
    split
    · rw [State.setMapBit, State.wr_tick]
    · rfl
  have app : appPwrFrond f.val false set shed lt (h.ctx s mem) s = { s := if set then s.setMapBit R.PWR_SHED_SHED f.val shed else s } := by
    simp only [appPwrFrond, Bool.not_false, if_true]
  exact next_congr (runOne_pf _ hpf rfl (chkPwrFrond_pass enabled) app rfl rfl tick)

/-- A deeper target of a frond whose crypto unit is not held is taken as it stands. -/
theorem State.holdTarget_free {raw : Nat} (free : s.cryptoHeld f.val = false) (deep : 2 ≤ raw) :
    (s.holdTarget f.val raw).1.tick = s.tick := by
  unfold State.holdTarget
  dsimp only
  rw [if_pos (.inr free), if_neg (by omega)]
  rfl

theorem execPwrFrond_tolerance {shed : Bool} {lt : Nat} (hpf : h.isPf) (enabled : s.frondEnabled f.val = true)
    (set : s.wr (R.PWR_LT_LT f.val) lt = u) (deep : 2 ≤ u.ltTarget f.val) (free : u.cryptoHeld f.val = false)
    (kept : u.isShed f.val = false) : exec (.pwrFrond h mem f.val true false shed lt) s =
      .next ((u.holdTarget f.val (u.ltTarget f.val)).1.complete (doneOk h s 0x80 0)) := by
  have tick : (u.holdTarget f.val (u.ltTarget f.val)).1.tick = s.tick := by
    rw [State.holdTarget_free free deep, ← set, State.wr_tick]
  have app : appPwrFrond f.val true false shed lt (h.ctx s mem) s = { s := (u.holdTarget f.val (u.ltTarget f.val)).1 } := by
    unfold appPwrFrond
    simp only [Bool.not_true, Bool.false_eq_true, if_false, set]
    rw [if_neg (not_and_of_not_left _ (by omega)), kept, free]
    simp
  exact next_congr (runOne_pf _ hpf rfl (chkPwrFrond_pass enabled) app rfl rfl tick)

theorem execPwrThermal_set {warn thr : Nat} (hpf : h.isPf) (lo : 80 ≤ warn) (lo' : 90 ≤ thr) (hi : thr ≤ 124) (below : warn < thr) :
    exec (.pwrThermal h mem warn thr) s =
      .next (((s.wr R.PWR_THERM_T_WARN warn).wr R.PWR_THERM_T_THR thr).complete (doneOk h s 0x81 0)) := by
  refine next_congr (runOne_pf { s := (s.wr R.PWR_THERM_T_WARN warn).wr R.PWR_THERM_T_THR thr } hpf rfl ?_ rfl rfl rfl rfl)
  simp only [List.forall_mem_cons]
  refine ⟨ckFormat_pass ?_, by simp⟩
  simp
  omega

end

/-! #### AVS -/

/-- An AVS target within its bounds stays within them and moves by at most 10 mV, in steps of 5. -/
theorem avsNext_bounds {cur want : Nat} (lo : 550 ≤ cur) (hi : cur ≤ 700) : 550 ≤ avsNext cur want ∧ avsNext cur want ≤ 700 ∧
    avsNext cur want ≤ cur + 10 ∧ cur ≤ avsNext cur want + 10 ∧ avsNext cur want % 5 = cur % 5 := by
  have inside : 550 ≤ min 700 (max 550 want) ∧ min 700 (max 550 want) ≤ 700 := by omega
  unfold avsNext
  dsimp only
  generalize min 700 (max 550 want) = w at inside
  split <;> omega

section
variable {s : State} {r : Fin 8}

theorem execAvsEvaluation_moves (lit : 6 * r.val + 5 < s.frondCount) : ∃ want, exec (.avsEvaluation r) s = .next
    (if avsNext (s.rd (R.PWR_AVS_TGT r.val)) want = s.rd (R.PWR_AVS_TGT r.val) ∨
        (Tab.get (fun _ => none) s.pow.avsTick r.val).all (fun t => decide (t + 160000 ≤ s.tick)) = false then s
      else ((s.modPow fun p => { p with avsTick := Tab.set (fun _ => none) p.avsTick r.val (some s.tick) }).wr (R.PWR_AVS_TGT r.val)
        (avsNext (s.rd (R.PWR_AVS_TGT r.val)) want)).raise 0x1108 r.val [.w (avsNext (s.rd (R.PWR_AVS_TGT r.val)) want)]) := by
  have fed : 6 * r.val ∈ s.frondIds.filter fun f => f / 6 == r.val :=
    List.mem_filter.mpr ⟨List.mem_range.mpr (by omega), by simp⟩
  cases fronds : s.frondIds.filter fun f => f / 6 == r.val with
  | nil => rw [fronds] at fed; cases fed
  | cons f l =>
    refine ⟨s.avsFuse r.val (degrees (l.foldl (fun a i => max a (s.sensor i)) (s.sensor f))), ?_⟩
    show execAvsEvaluation r s = _
    unfold execAvsEvaluation
    dsimp only
    rw [fronds]

theorem execAvsEvaluation_soon {t : Nat} (lit : 6 * r.val + 5 < s.frondCount) (last : Tab.get (fun _ => none) s.pow.avsTick r.val = some t)
    (soon : s.tick < t + 160000) : exec (.avsEvaluation r) s = .next s := by
  obtain ⟨want, ran⟩ := execAvsEvaluation_moves lit
  rw [ran, last, if_pos (.inr (by simp; omega))]

end

/-- Settles O23, event by event and descriptor by descriptor. -/
theorem powerCommands : Obligations.PowerCommands := by
  refine ⟨fun s f h mem hpf enabled => ⟨?_, ?_, fun awake => ?_, ?_, ?_, fun i deg tripped => ?_, fun i deg fresh => ?_, fun r mv ok => ?_,
    fun set shed lt => ?_, ?_, ?_⟩, fun s r lit lo hi => ⟨?_, fun first => ?_⟩⟩
  · exact fun u tgt waking target straight => execWakeComplete_enters waking target straight
  · exact fun u tgt waking target up via stale => execWakeComplete_calibrates waking target up via stale
  · exact next_congr (if_pos (by simp [awake]))
  · exact fun c cap more hot first => execThermThrottle_lowers cap more hot first
  · exact fun q g mem long hot first next => execThermShed_sheds mem long hot first next
  · exact next_congr (if_pos tripped)
  · exact execThermalTrip_first fresh
  · exact execRailFault_counts ok
  · exact execPwrFrond_shed hpf enabled
  · exact fun shed lt u set deep free kept => execPwrFrond_tolerance hpf enabled set deep free kept
  · exact fun warn thr lo lo' hi below => execPwrThermal_set hpf lo lo' hi below
  · exact fun t last soon => execAvsEvaluation_soon lit last soon
  · obtain ⟨want, ran⟩ := execAvsEvaluation_moves lit
    obtain ⟨low, high, up, down, steps⟩ := avsNext_bounds (want := want) lo hi
    refine ⟨_, low, high, up, down, steps, ?_⟩
    rw [ran, first]
    simp only [Option.all_none, Bool.true_eq_false, or_false]

end Sys2Proof.Machine

/-! ### The update state and its descriptors (R504, R508 to R511, R513, R518, R519, Table UPD-9) -/

namespace Sys2Proof.Machine

/-! #### The rules of the update record -/

section
variable {s : State}

@[simp] theorem State.peatRaise_upd (s : State) (code : Nat) (vals : List EVal) : (s.peatRaise code vals).upd = s.upd := by
  unfold State.peatRaise
  split <;> rfl

/-- The wear of Peat's store is reported without the update record. -/
theorem State.storeWear_upd (s : State) (before : PeatSt) (copies : List Nat) (len crc : Nat) :
    (s.storeWear before copies len crc).upd = s.upd := by
  have reported : (if (before.spareUsed < 50 ∧ 50 ≤ s.peat.spareUsed) ∨ (before.spareUsed < 90 ∧ 90 ≤ s.peat.spareUsed) then
      s.peatRaise 0x1307 [.w s.peat.spareUsed] else s).upd = s.upd := by
    split
    · exact State.peatRaise_upd _ _ _
    · rfl
  unfold State.storeWear
  dsimp only
  generalize (if (before.spareUsed < 50 ∧ 50 ≤ s.peat.spareUsed) ∨ (before.spareUsed < 90 ∧ 90 ≤ s.peat.spareUsed) then
    s.peatRaise 0x1307 [.w s.peat.spareUsed] else s) = t at reported ⊢
  rw [← reported]
  have raised : ((t.peatRaise 0x1308 [.w (copies.headD 0)]).wrB R.PEAT_STAT_LS_ERR true).upd = t.upd := by
    rw [State.wrB_upd, State.peatRaise_upd]
  split
  · split
    · exact (State.modPeat_upd _ _).trans raised
    · exact raised
  · rfl

/-- A commit changes the sequence number and the DIRTY mark alone. -/
theorem State.commitUpd_upd (s : State) (fails : List Nat) :
    ∃ seq dirty, (s.commitUpd fails).upd = { s.upd with seq := seq, dirty := dirty } := by
  unfold State.commitUpd
  dsimp only
  split
  · exact ⟨_, _, State.storeWear_upd _ _ _ _ _⟩
  · exact ⟨_, _, rfl⟩

/-- A new STATE is entered and committed. -/
theorem State.updState_upd (s : State) {n : Nat} (new : s.upd.state ≠ n) :
    ∃ seq dirty, (s.updState n).upd = { s.upd with state := n, seq := seq, dirty := dirty } := by
  obtain ⟨seq, dirty, committed⟩ := (s.modUpd fun u => { u with state := n }).commitUpd_upd []
  refine ⟨seq, dirty, ?_⟩
  unfold State.updState
  rw [if_neg new, State.raise_upd, committed, State.modUpd_upd]

@[simp] theorem State.updState_tick (s : State) (n : Nat) : (s.updState n).tick = s.tick := kept_tick (State.updState_kept s n)

theorem State.updReject_upd (s : State) {reason : Nat} (new : s.upd.state ≠ 5) : ∃ seq dirty, (s.updReject reason).upd =
    { s.upd with reason := reason, queue := [], loaded := false, state := 5, seq := seq, dirty := dirty } := by
  obtain ⟨seq, dirty, entered⟩ :=
    (s.modUpd fun u => { u with reason := reason, queue := [], loaded := false }).updState_upd (n := 5) new
  exact ⟨seq, dirty, entered⟩

end

section
variable {s : State} {h : ReqHdr} {mem : HostMem}

/-! #### UPD_CONFIG and UPD_BEGIN -/

theorem execUpdConfig_set {host gcc : Bool} (hpf : h.isPf) : exec (.updConfig h mem host gcc) s =
    .next ((s.modUpd fun x => { x with acceptHost := host, acceptGcc := gcc }).complete (doneOk h s 0xc0 0)) :=
  next_congr (runOne_pf { s := s.modUpd fun x => { x with acceptHost := host, acceptGcc := gcc } } hpf (List.append_nil _).symm
    (by simp) rfl rfl rfl rfl)

section
variable {pkg total : Nat}

theorem UpdSt.sameBegin_of_state {u : UpdSt} (h1 : u.state ≠ 1) (h2 : u.state ≠ 2) : u.sameBegin pkg total = false := by
  simp [UpdSt.sameBegin, h1, h2]

theorem chkUpdBegin_pass (lo : 10 ≤ total) (hi : total ≤ 16384)
    (free : (s.upd.state == 0 || s.upd.state == 5 || s.upd.sameBegin pkg total) = true) :
    ∀ c ∈ [ckFormat (decide (total < 10) || decide (16384 < total)),
      ckCond (!(s.upd.state == 0 || s.upd.state == 5 || s.upd.sameBegin pkg total)) St.slotBusy], c.bad = false := by
  simp only [List.forall_mem_cons]
  refine ⟨ckFormat_pass ?_, ckCond_pass (by rw [free]; rfl), by simp⟩
  simp
  omega

/-- The record of a package that begins. -/
def UpdSt.begun (u : UpdSt) (pkg total : Nat) : UpdSt :=
  { u with pkg := pkg, total := total, bitmap := 0, received := 0, queue := [], ackFrond := none, acks := 0, ackDue := false }

theorem execUpdBegin_begins (hpf : h.isPf) (lo : 10 ≤ total) (hi : total ≤ 16384) (free : s.upd.state = 0 ∨ s.upd.state = 5) : ∃ t : State,
    exec (.updBegin h mem pkg total) s = .next (t.complete (doneOk h s 0xc1 0)) ∧
      t.upd.state = 1 ∧ t.upd.pkg = pkg ∧ t.upd.total = total ∧ t.upd.bitmap = 0 ∧ t.upd.received = 0 ∧ t.upd.flash = s.upd.flash := by
  have fresh : s.upd.sameBegin pkg total = false := UpdSt.sameBegin_of_state (by omega) (by omega)
  obtain ⟨seq, dirty, begun⟩ := (s.modUpd fun u => u.begun pkg total).updState_upd (n := 1) (show s.upd.state ≠ 1 by omega)
  have app : appUpdBegin pkg total (h.ctx s mem) s = { s := (s.modUpd fun u => u.begun pkg total).updState 1 } := if_neg (by simp [fresh])
  refine ⟨_, next_congr (runOne_pf _ hpf rfl (chkUpdBegin_pass lo hi ?_) app rfl rfl ?_), ?_⟩
  · obtain idle | rejected := free
    · simp [idle]
    · simp [rejected]
  · rw [State.updState_tick, State.modUpd_tick]
  · rw [begun]
    exact ⟨rfl, rfl, rfl, rfl, rfl, rfl⟩

theorem execUpdBegin_again (hpf : h.isPf) (lo : 10 ≤ total) (hi : total ≤ 16384) (same : s.upd.sameBegin pkg total = true) :
    exec (.updBegin h mem pkg total) s = .next (s.complete (doneOk h s 0xc1 0)) :=
  next_congr (runOne_pf { s := s } hpf rfl (chkUpdBegin_pass lo hi (by simp [same])) (if_pos same) rfl rfl rfl)

theorem execUpdBegin_busy (hpf : h.isPf) (lo : 10 ≤ total) (hi : total ≤ 16384)
    (busy : s.upd.state = 3 ∨ s.upd.state = 4 ∨ 6 ≤ s.upd.state) :
    exec (.updBegin h mem pkg total) s = .next (s.complete (doneRefused h s 0xc1 St.slotBusy 0)) := by
  have fresh : s.upd.sameBegin pkg total = false := UpdSt.sameBegin_of_state (by omega) (by omega)
  have taken : (!(s.upd.state == 0 || s.upd.state == 5 || s.upd.sameBegin pkg total)) = true := by
    simp [fresh]
    omega
  have failed : firstFail (chkUpdBegin pkg total (h.ctx s mem) s) = some ⟨St.slotBusy, 0⟩ := by
    refine firstFail_eq_some ⟨ckCond (!(s.upd.state == 0 || s.upd.state == 5 || s.upd.sameBegin pkg total)) St.slotBusy,
      by simp [chkUpdBegin], taken⟩ fun k hk hbad => ?_
    obtain pf | here := List.mem_append.mp hk
    · exact absurd hbad (by rw [pf_pass hpf k pf]; decide)
    · simp only [List.mem_cons, List.not_mem_nil, or_false] at here
      obtain rfl | rfl := here
      · simp [ckFormat] at hbad
        omega
      · exact ⟨rfl, rfl⟩
  exact next_congr (runOne_refused failed (by decide) (by decide) nofun nofun)

end

/-! #### UPD_SPORE -/

section
variable {addr i : Nat} {b : List Byte}

theorem execUpdSpore_taken (hpf : h.isPf) (align : addr % 4 = 0) (read : readHost mem addr 4160 = some b) (own : sporeOwn b = none)
    (accept : s.upd.acceptHost = true) (receiving : s.upd.state = 2) (same : s.upd.otherPackage b = false)
    (room : s.upd.bitmap.testBit (fieldAt b 12 4) = true ∨ s.upd.queue.length < 64) :
    exec (.updSpore h mem addr) s = .next ((s.modUpd fun u => u.takeSpore b).complete (doneOk h s 0xc2 0)) := by
  have read' : readHost (h.ctx s mem).mem addr 4160 = some b := read
  have app : appUpdSpore addr (h.ctx s mem) s = { s := s.modUpd fun u => u.takeSpore b } := by rw [appUpdSpore, read']
  refine next_congr (runOne_pf _ hpf rfl ?_ app rfl rfl rfl)
  simp only [List.forall_mem_cons, read', Option.getD_some]
  refine ⟨by simp [Ctx.ckRead, read'], ckAlign_pass align, by simp [own], by simp [accept, receiving], ckCond_pass (by simp [receiving]),
    ckCond_pass same, ckCond_pass ?_, by simp⟩
  obtain had | short := room
  · simp [had]
  · simp [Nat.not_le.mpr short]

theorem UpdSt.takeSpore_had {u : UpdSt} (had : u.bitmap.testBit (fieldAt b 12 4) = true) :
    u.takeSpore b = { u with dups := min 65535 (u.dups + 1) } := if_pos had

theorem UpdSt.takeSpore_new {u : UpdSt} (new : u.bitmap.testBit (fieldAt b 12 4) = false) :
    u.takeSpore b = { u with queue := u.queue ++ [(fieldAt b 12 4, slice b 64 4096)] } := if_neg (by simp [new])

/-- A change of the update record is given by what it makes of the record that it finds. -/
theorem State.modUpd_congr {g g' : UpdSt → UpdSt} (h : g s.upd = g' s.upd) : s.modUpd g = s.modUpd g' := by
  rw [State.modUpd, h, State.modUpd]

end

/-! #### UPD_ABORT and UPD_ACTIVATE -/

theorem execUpdAbort_idle (hpf : h.isPf) (idle : s.upd.state = 0) : exec (.updAbort h mem) s = .next (s.complete (doneOk h s 0xc3 0)) := by
  have app : appUpdAbort (h.ctx s mem) s = { s := s } := by rw [appUpdAbort, if_pos idle]
  refine next_congr (runOne_pf _ hpf rfl ?_ app rfl rfl rfl)
  simp only [List.forall_mem_cons]
  exact ⟨ckCond_pass (by simp [idle]), by simp⟩

theorem execUpdAbort_trial (hpf : h.isPf) (trial : s.upd.state = 7) :
    exec (.updAbort h mem) s = .next (s.complete (doneRefused h s 0xc3 St.slotBusy 0)) := by
  have failed : firstFail (chkUpdAbort (h.ctx s mem) s) = some ⟨St.slotBusy, 0⟩ := by
    refine firstFail_eq_some ⟨ckCond (s.upd.state == 7) St.slotBusy, by simp [chkUpdAbort], by simp [ckCond, trial]⟩ fun k hk hbad => ?_
    obtain pf | here := List.mem_append.mp hk
    · exact absurd hbad (by rw [pf_pass hpf k pf]; decide)
    · simp only [List.mem_cons, List.not_mem_nil, or_false] at here
      subst here
      exact ⟨rfl, rfl⟩
  exact next_congr (runOne_refused failed (by decide) (by decide) nofun nofun)

/-- The record with nothing staged. -/
def UpdSt.cleared (u : UpdSt) : UpdSt :=
  { u with pkg := 0, total := 0, received := 0, bitmap := 0, actTick := 0, queue := [], loaded := false, ackFrond := none }

theorem State.updIdle_upd (s : State) (busy : s.upd.state ≠ 0) : ∃ seq dirty, s.updIdle.upd =
    { s.upd.cleared with state := 0, seq := seq, dirty := dirty } := (s.modUpd UpdSt.cleared).updState_upd busy

theorem execUpdAbort_aborts (hpf : h.isPf) (busy : s.upd.state ≠ 0) (settled : s.upd.state ≠ 7) : ∃ t : State,
    exec (.updAbort h mem) s = .next (t.complete (doneOk h s 0xc3 0)) ∧ t.upd.state = 0 ∧ t.upd.total = 0 ∧ t.upd.bitmap = 0 ∧
      t.upd.queue = [] ∧ t.upd.flash = s.upd.flash ∧ t.upd.run = s.upd.run := by
  have app : appUpdAbort (h.ctx s mem) s = { s := s.updIdle } := by rw [appUpdAbort, if_neg busy]
  obtain ⟨seq, dirty, idle⟩ := s.updIdle_upd busy
  refine ⟨_, next_congr (runOne_pf _ hpf rfl ?_ app rfl rfl ?_), ?_⟩
  · simp only [List.forall_mem_cons]
    exact ⟨ckCond_pass (by simp [settled]), by simp⟩
  · exact (State.updState_tick _ _).trans (State.modUpd_tick _ _)
  · rw [idle]
    exact ⟨rfl, rfl, rfl, rfl, rfl, rfl⟩

theorem execUpdActivate_schedules {a : Nat} (hpf : h.isPf) (staged : s.upd.state = 4) (lo : s.tick + 160000 ≤ a)
    (hi : a ≤ s.tick + 16000000) : ∃ t : State, exec (.updActivate h mem a) s = .next (t.complete (doneOk h s 0xc4 0)) ∧
      t.upd.state = 6 ∧ t.upd.actTick = a ∧ t.upd.run = s.upd.run := by
  obtain ⟨seq, dirty, waiting⟩ := (s.modUpd fun u => { u with actTick := a, loaded := false }).updState_upd (n := 6)
    (show s.upd.state ≠ 6 by omega)
  refine ⟨_, next_congr (runOne_pf { s := (s.modUpd fun u => { u with actTick := a, loaded := false }).updState 6 } hpf rfl ?_ rfl rfl rfl ?_),
    ?_⟩
  · simp only [List.forall_mem_cons]
    refine ⟨ckAbsent_pass (by simp [staged]), ckCond_pass (by simp [staged]), ?_, by simp⟩
    show (!(decide (s.tick + 160000 ≤ a) && decide (a ≤ s.tick + 16000000))) = false
    rw [decide_eq_true lo, decide_eq_true hi]
    rfl
  · exact (State.updState_tick _ _).trans (State.modUpd_tick _ _)
  · rw [waiting]
    exact ⟨rfl, rfl, rfl⟩

theorem execUpdActivate_refused {a : Nat} (hpf : h.isPf) (staged : s.upd.state = 4)
    (off : a < s.tick + 160000 ∨ s.tick + 16000000 < a) :
    exec (.updActivate h mem a) s = .next (s.complete (doneRefused h s 0xc4 St.schedule 0)) := by
  have late : (!(decide (s.tick + 160000 ≤ a) && decide (a ≤ s.tick + 16000000))) = true := by
    simp
    omega
  have failed : firstFail (chkUpdActivate a (h.ctx s mem) s) = some ⟨St.schedule, 0⟩ := by
    refine firstFail_eq_some ⟨⟨9, !(decide (s.tick + 160000 ≤ a) && decide (a ≤ s.tick + 16000000)), St.schedule, 0⟩,
      List.mem_append_right _ (.tail _ (.tail _ (.head _))), late⟩ fun k hk hbad => ?_
    obtain pf | here := List.mem_append.mp hk
    · exact absurd hbad (by rw [pf_pass hpf k pf]; decide)
    · simp only [List.mem_cons, List.not_mem_nil, or_false] at here
      obtain rfl | rfl | rfl := here
      · simp [ckAbsent, staged] at hbad
      · simp [ckCond, staged] at hbad
      · exact ⟨rfl, rfl⟩
  exact next_congr (runOne_refused failed (by decide) (by decide) nofun nofun)

/-! #### UPD_RELAY -/

section
variable {f source first k total : Nat}

theorem chkUpdRelay_pass (enabled : s.frondEnabled f = true) (low : f < 48) (src : source < 2) (from' : s.relaySource source = (k, total))
    (some' : first < total) (staged : source = 0 → s.upd.state = 4) (quiet : s.relaying f = false) :
    ∀ c ∈ [ckFormat (decide (1 < source) || decide (47 < f)), ckFormat (decide ((s.relaySource source).2 ≤ first)), s.ckFrond f,
      ckAbsent (source == 0 && s.upd.state != 4), ckCond (s.relaying f) St.bankBusy], c.bad = false := by
  simp only [List.forall_mem_cons]
  refine ⟨ckFormat_pass ?_, ckFormat_pass ?_, ckFrond_pass enabled, ckAbsent_pass ?_, ckCond_pass quiet, by simp⟩
  · simp
    omega
  · rw [from']
    exact decide_eq_false (Nat.not_le.mpr some')
  · by_cases zero : source = 0
    · simp [zero, staged zero]
    · simp [zero]

theorem execUpdRelay_stopped (hpf : h.isPf) (enabled : s.frondEnabled f = true) (low : f < 48) (src : source < 2)
    (from' : s.relaySource source = (k, total)) (some' : first < total) (staged : source = 0 → s.upd.state = 4)
    (quiet : s.relaying f = false) (stopped : s.lineRun f = false) :
    exec (.updRelay h mem f source first) s = .next (s.complete (doneOk h s 0xc5 0)) := by
  have app : appUpdRelay f source first (h.ctx s mem) s = { s := s } := by
    unfold appUpdRelay
    rw [stopped]
    rfl
  exact next_congr (runOne_pf _ hpf rfl (chkUpdRelay_pass enabled low src from' some' staged quiet) app rfl rfl rfl)

theorem execUpdRelay_sends {pkg : Nat} (hpf : h.isPf) (enabled : s.frondEnabled f = true) (low : f < 48) (src : source < 2)
    (from' : s.relaySource source = (k, total)) (some' : first < total) (staged : source = 0 → s.upd.state = 4)
    (quiet : s.relaying f = false) (runs : s.lineRun f = true) (package : fieldAt (s.manifest k) 8 8 = pkg) :
    exec (.updRelay h mem f source first) s = .next ((s.modSlf f fun x => { x with
      gccFw := x.gccFw ++ (List.range (total - first)).map fun i => ⟨2, sporeBytes pkg (first + i) total (s.upd.page k (first + i))⟩
    }).complete (doneOk h s 0xc5 0)) := by
  have app : appUpdRelay f source first (h.ctx s mem) s = { s := s.modSlf f fun x => { x with
      gccFw := x.gccFw ++ (List.range (total - first)).map fun i =>
        ⟨2, sporeBytes pkg (first + i) total (s.upd.page k (first + i))⟩ } } := by
    unfold appUpdRelay
    rw [from', runs, ← package]
    rfl
  exact next_congr (runOne_pf _ hpf rfl (chkUpdRelay_pass enabled low src from' some' staged quiet) app rfl rfl rfl)

end

/-! #### UPD_STATUS and SETTINGS_STORE -/

theorem execUpdStatus_reads {buf : Nat} (hpf : h.isPf) (align : buf % 64 = 0) (fits : s.readFits 64) : exec (.updStatus h mem buf) s =
    .next (readOk h (s.modUpd fun x => { x with dups := 0, rejects := 0 }) 0xc6 buf s.updStatus) := by
  refine next_congr (runOne_pf _ hpf rfl ?_ rfl rfl rfl rfl)
  simp only [List.forall_mem_cons]
  exact ⟨ckAlign_pass align, ckBacklog_pass fits, by simp⟩

theorem execSettingsStore_starts {copy addr len : Nat} (hpf : h.isPf) (hcopy : copy < 2) (lo : 64 ≤ len) (hi : len ≤ 16777216)
    (align : addr % 64 = 0) (settled : s.upd.state < 6) (free : s.upd.store = none) :
    exec (.settingsStore h mem copy addr len) s = .next ((s.modUpd fun x => { x with
      store := some ⟨copy, addr, len⟩, copies := Tab.set (fun _ => none) x.copies copy none }).complete (doneOk h s 0xc7 0)) := by
  refine next_congr (runOne_pf { s := s.modUpd fun x => { x with
    store := some ⟨copy, addr, len⟩, copies := Tab.set (fun _ => none) x.copies copy none } } hpf rfl ?_ rfl rfl rfl rfl)
  simp only [List.forall_mem_cons]
  refine ⟨ckFormat_pass ?_, ckAlign_pass align, ckCond_pass (decide_eq_false (by omega)), ckCond_pass (by simp [free]), by simp⟩
  simp
  omega

end

/-- Settles O58, descriptor by descriptor. -/
theorem updateCommands : Obligations.UpdateCommands := by
  intro s h mem hpf
  refine ⟨fun host gcc => execUpdConfig_set hpf, fun pkg total lo hi => ⟨?_, ?_, ?_⟩,
    fun addr b i align read own accept receiving same hi => ⟨fun had => ?_, fun new room => ?_⟩, ?_, ?_, ?_,
    fun a staged => ⟨?_, ?_⟩, fun f source first k total enabled low src from' some' staged quiet => ⟨fun pkg runs package => ?_, fun stopped => ?_⟩,
    fun buf align fits => ?_, fun copy addr len hcopy lo hi align settled free => ?_⟩
  · exact execUpdBegin_begins hpf lo hi
  · exact execUpdBegin_again hpf lo hi
  · exact execUpdBegin_busy hpf lo hi
  · subst hi
    exact (execUpdSpore_taken hpf align read own accept receiving same (.inl had)).trans
      (next_congr (congrArg (fun t : State => t.complete (doneOk h s 0xc2 0)) (State.modUpd_congr (UpdSt.takeSpore_had had))))
  · subst hi
    exact (execUpdSpore_taken hpf align read own accept receiving same (.inr room)).trans
      (next_congr (congrArg (fun t : State => t.complete (doneOk h s 0xc2 0)) (State.modUpd_congr (UpdSt.takeSpore_new new))))
  · exact execUpdAbort_idle hpf
  · exact execUpdAbort_trial hpf
  · exact execUpdAbort_aborts hpf
  · exact execUpdActivate_schedules hpf staged
  · exact execUpdActivate_refused hpf staged
  · exact execUpdRelay_sends hpf enabled low src from' some' staged quiet runs package
  · exact execUpdRelay_stopped hpf enabled low src from' some' staged quiet stopped
  · exact execUpdStatus_reads hpf align fits
  · exact execSettingsStore_starts hpf hcopy lo hi align settled free

end Sys2Proof.Machine

/-! ### The events of an update (R508 to R519, Table SEC-3) -/

namespace Sys2Proof.Machine

section
variable {s : State}

/-! #### The staging slot -/

/-- A table from which a rule on the keys takes entries. -/
theorem Tab.get_filter {α : Type} (d : Nat → α) (p : Nat → Bool) (t : Tab α) (k : Nat) :
    Tab.get d (t.filter fun q => p q.1) k = if p k then Tab.get d t k else d k := by
  induction t with
  | nil => exact (ite_self _).symm
  | cons q t ih =>
    obtain ⟨j, v⟩ := q
    cases hj : p j with
    | true =>
      rw [List.filter_cons_of_pos (p := fun q : Nat × α => p q.1) hj]
      by_cases e : k = j
      · simp [Tab.get, e, hj]
      · simp only [Tab.get, if_neg e, ih]
    | false =>
      rw [List.filter_cons_of_neg (p := fun q : Nat × α => p q.1) (by simp [hj]), ih]
      by_cases e : k = j
      · simp [e, hj]
      · simp only [Tab.get, if_neg e]

/-- The pages of the slots after one of them is erased. -/
theorem UpdSt.page_eraseSlot (u : UpdSt) {k j p : Nat} (hp : p < 16384) :
    (u.eraseSlot k).page j p = if j = k then erasedPage else u.page j p := by
  have slot : (16384 * j + p) / 16384 = j := by omega
  unfold UpdSt.page UpdSt.eraseSlot
  rw [Tab.get_filter (fun _ => none) (fun a => decide (a / 16384 ≠ k)), slot]
  by_cases e : j = k
  · simp [e]
  · simp [e]

theorem execUpdEraseDone_erased (erasing : s.upd.state = 1) : ∃ t : State, exec .updEraseDone s = .next t ∧ t.upd.state = 2 ∧
    (∀ p, p < 16384 → t.upd.page s.upd.staging p = erasedPage ∧ t.upd.page (1 - s.upd.staging) p = s.upd.page (1 - s.upd.staging) p) := by
  obtain ⟨seq, dirty, entered⟩ := (s.modUpd fun u => { u.eraseSlot u.staging with ackTick := s.tick }).updState_upd (n := 2)
    (show s.upd.state ≠ 2 by omega)
  have other : 1 - s.upd.staging ≠ s.upd.staging := by omega
  refine ⟨_, next_congr (if_pos erasing), by rw [entered], fun p hp => ?_⟩
  rw [entered]
  exact ⟨(s.upd.page_eraseSlot hp).trans (if_pos rfl), (s.upd.page_eraseSlot hp).trans (if_neg other)⟩

/-! #### Programming -/

variable {i : Nat} {body : List Byte} {rest : List (Nat × List Byte)}

theorem execSporeProgrammed_bad (queue : s.upd.queue = (i, body) :: rest) (receiving : s.upd.state = 2) :
    ∃ t : State, exec (.sporeProgrammed false) s = .next t ∧ t.upd.state = 5 ∧ t.upd.reason = 9 ∧ t.upd.flash = s.upd.flash := by
  obtain ⟨seq, dirty, rejected⟩ := s.updReject_upd (reason := 9) (by omega)
  have ran : exec (.sporeProgrammed false) s = .next (s.updReject 9) := by
    show execSporeProgrammed false s = _
    unfold execSporeProgrammed
    rw [queue]
    dsimp only
    rw [if_neg (by simp [receiving]), if_pos (by decide)]
  refine ⟨_, ran, ?_⟩
  rw [rejected]
  exact ⟨rfl, rfl, rfl⟩

/-- The record with a newly received Spore programmed. -/
def UpdSt.programmed (u : UpdSt) (i : Nat) (body : List Byte) (rest : List (Nat × List Byte)) : UpdSt :=
  { u with queue := rest, flash := Tab.set (fun _ => none) u.flash (16384 * u.staging + i) (some body), bitmap := u.bitmap ||| 2 ^ i,
           received := u.received + 1, acks := u.acks + 1, dirty := true }

theorem execSporeProgrammed_new (queue : s.upd.queue = (i, body) :: rest) (receiving : s.upd.state = 2)
    (new : s.upd.bitmap.testBit i = false) : exec (.sporeProgrammed true) s =
      .next (if s.upd.received + 1 = s.upd.total then
        ((s.modUpd fun u => u.programmed i body rest).modUpd fun u => { u with queue := [], ackDue := u.ackFrond.isSome }).updState 3
      else s.modUpd fun u => u.programmed i body rest) := by
  show execSporeProgrammed true s = _
  unfold execSporeProgrammed
  rw [queue]
  dsimp only
  rw [if_neg (by simp [receiving]), if_neg (by decide), new]
  rfl

theorem UpdSt.programmed_page (u : UpdSt) (i : Nat) (body : List Byte) (rest : List (Nat × List Byte)) :
    (u.programmed i body rest).page u.staging i = body := by
  unfold UpdSt.page UpdSt.programmed
  dsimp only
  rw [Tab.get_set_same]
  rfl

theorem UpdSt.programmed_bitmap (u : UpdSt) (i : Nat) (body : List Byte) (rest : List (Nat × List Byte)) (j : Nat) :
    (u.programmed i body rest).bitmap.testBit j = (u.bitmap.testBit j || decide (j = i)) := by
  have bit : (2 ^ i).testBit j = decide (j = i) := by rw [Nat.testBit_two_pow, decide_eq_decide, eq_comm]
  exact (Nat.testBit_or _ _ _).trans (by rw [bit])

theorem execSporeProgrammed_more (queue : s.upd.queue = (i, body) :: rest) (receiving : s.upd.state = 2)
    (new : s.upd.bitmap.testBit i = false) (more : s.upd.received + 1 < s.upd.total) : ∃ t : State, exec (.sporeProgrammed true) s = .next t ∧
      t.upd.state = 2 ∧ t.upd.queue = rest ∧ t.upd.received = s.upd.received + 1 ∧ t.upd.page s.upd.staging i = body ∧
      (∀ j, t.upd.bitmap.testBit j = (s.upd.bitmap.testBit j || decide (j = i))) := by
  refine ⟨_, (execSporeProgrammed_new queue receiving new).trans (next_congr (if_neg (by omega))), ?_⟩
  rw [State.modUpd_upd]
  exact ⟨receiving, rfl, rfl, s.upd.programmed_page i body rest, s.upd.programmed_bitmap i body rest⟩

theorem execSporeProgrammed_last (queue : s.upd.queue = (i, body) :: rest) (receiving : s.upd.state = 2)
    (new : s.upd.bitmap.testBit i = false) (last : s.upd.received + 1 = s.upd.total) : ∃ t : State, exec (.sporeProgrammed true) s = .next t ∧
      t.upd.state = 3 ∧ t.upd.page s.upd.staging i = body := by
  obtain ⟨seq, dirty, verifying⟩ := ((s.modUpd fun u => u.programmed i body rest).modUpd fun u => { u with
    queue := [], ackDue := u.ackFrond.isSome }).updState_upd (n := 3) (show s.upd.state ≠ 3 by omega)
  refine ⟨_, (execSporeProgrammed_new queue receiving new).trans (next_congr (if_pos last)), ?_⟩
  rw [verifying]
  exact ⟨rfl, s.upd.programmed_page i body rest⟩

end

/-! #### Spores and acknowledgements over the GCC -/

section
variable {s u : State} {f : Fin 48} {b : List Byte} {rest : List GccFrame}

theorem execSporeFrame_taken (frame : (s.frond f.val).slf.gccFwRx = ⟨2, b⟩ :: rest)
    (hu : (s.modSlf f.val fun x => { x with gccFwRx := rest }) = u) (accept : s.upd.acceptGcc = true) (len : b.length = 4160)
    (own : sporeOwn b = none) (receiving : s.upd.state = 2) (same : s.upd.otherPackage b = false) (room : s.upd.queue.length < 64) :
    exec (.sporeFrame f) s = .next (u.modUpd fun x => { x.takeSpore b with ackFrond := some f.val }) := by
  have upd : u.upd = s.upd := hu ▸ State.modFrond_upd _ _ _
  show execSporeFrame f s = _
  unfold execSporeFrame
  dsimp only
  rw [frame, List.find?_cons_of_pos (by rfl), List.eraseP_cons_of_pos (by rfl)]
  dsimp only
  rw [hu, upd, if_neg (by simp [accept]), if_neg (by simp [len]), own]
  dsimp only
  rw [if_neg (by simp [receiving]), if_neg (by simp [same]), if_neg (by simp; omega)]

theorem execSporeFrame_closed (frame : (s.frond f.val).slf.gccFwRx = ⟨2, b⟩ :: rest)
    (hu : (s.modSlf f.val fun x => { x with gccFwRx := rest }) = u) (closed : s.upd.acceptGcc = false) (len : b.length = 4160) :
    exec (.sporeFrame f) s = .next (u.sporeReject 1 (fieldAt b 12 4) (1 + 2 ^ 8 * f.val)) := by
  have upd : u.upd = s.upd := hu ▸ State.modFrond_upd _ _ _
  show execSporeFrame f s = _
  unfold execSporeFrame
  dsimp only
  rw [frame, List.find?_cons_of_pos (by rfl), List.eraseP_cons_of_pos (by rfl)]
  dsimp only
  rw [hu, upd, if_pos closed, if_pos len]

theorem execSporeAck_first (frame : (s.frond f.val).slf.gccFwRx = ⟨3, b⟩ :: rest) (len : b.length = 24)
    (hu : (s.modSlf f.val fun x => { x with gccFwRx := rest }) = u) (first : Tab.get (fun _ => none) s.upd.peerTick f.val = none) :
    exec (.sporeAck f) s = .next ((u.modUpd fun x => { x with
      peerTick := Tab.set (fun _ => none) x.peerTick f.val (some s.tick) }).raise 0x1403 f.val [.raw b]) := by
  have upd : u.upd = s.upd := hu ▸ State.modFrond_upd _ _ _
  have tick : u.tick = s.tick := hu ▸ State.modFrond_tick _ _ _
  show execSporeAck f s = _
  unfold execSporeAck
  dsimp only
  rw [frame, List.find?_cons_of_pos (by rfl), List.eraseP_cons_of_pos (by rfl)]
  dsimp only
  rw [hu, upd, tick, first, if_neg (by simp [len])]

theorem execSporeAckSend_due {f : Nat} (link : s.upd.ackFrond = some f) (runs : s.lineRun f = true) (due : s.upd.ackDue = true)
    (few : s.upd.acks < 256) : exec .sporeAckSend s = .next ((s.modUpd fun x => { x with ackTick := s.tick, ackDue := false }).modSlf f
      fun x => { x with gccFw := ⟨3, s.upd.ack⟩ :: x.gccFw }) := by
  have record : (s.modUpd fun u => { u with ackTick := s.tick, acks := if u.acks < 256 then u.acks else u.acks - 256, ackDue := false }) =
      s.modUpd fun x => { x with ackTick := s.tick, ackDue := false } := by
    rw [State.modUpd, if_pos few]
    rfl
  show execSporeAckSend s = _
  unfold execSporeAckSend
  dsimp only
  rw [link]
  dsimp only
  rw [due, Bool.true_or, if_neg (by decide), record, if_pos (show (s.modUpd _).lineRun f = true from runs)]

theorem execSporeAckSend_waits {f : Nat} (link : s.upd.ackFrond = some f) (due : s.upd.ackDue = false) (receiving : s.upd.state = 2)
    (soon : s.tick < s.upd.ackTick + 160000) (few : s.upd.acks < 256) : exec .sporeAckSend s = .next s := by
  show execSporeAckSend s = _
  unfold execSporeAckSend
  dsimp only
  rw [link]
  dsimp only
  rw [if_pos (by simp [due, receiving]; omega)]

end

/-! #### Verification -/

section
variable {s : State}

theorem execUpdVerifyDone_ends (verifying : s.upd.state = 3) : exec .updVerifyDone s =
    .next (match s.verifyReason s.upd.staging with
      | some r => s.updReject r
      | none => s.updState 4) := next_congr (if_neg (by simp [verifying]))

theorem execUpdVerifyDone_result (verifying : s.upd.state = 3) : ∃ t : State, exec .updVerifyDone s = .next t ∧
    match s.verifyReason s.upd.staging with
      | none => t.upd.state = 4
      | some r => t.upd.state = 5 ∧ t.upd.reason = r ∧ t.upd.queue = [] := by
  refine ⟨_, execUpdVerifyDone_ends verifying, ?_⟩
  cases s.verifyReason s.upd.staging with
  | none =>
    obtain ⟨seq, dirty, staged⟩ := s.updState_upd (n := 4) (by omega)
    dsimp only
    rw [staged]
  | some r =>
    obtain ⟨seq, dirty, rejected⟩ := s.updReject_upd (reason := r) (by omega)
    dsimp only
    rw [rejected]
    exact ⟨rfl, rfl, rfl⟩

/-- A package below the fuse count fails one of the first six checks of Table SEC-3. -/
theorem State.secCheck_rollback {m : Manifest} {part : Nat → Nat → List Byte} (old : fieldAt m 20 2 < s.fuse.rollback) :
    ∃ r, s.secCheck m part = some r ∧ 1 ≤ r ∧ r ≤ 6 := by
  unfold State.secCheck
  dsimp only
  split
  · exact ⟨1, rfl, by decide, by decide⟩
  · split
    · exact ⟨2, rfl, by decide, by decide⟩
    · split
      · exact ⟨3, rfl, by decide, by decide⟩
      · split
        · exact ⟨4, rfl, by decide, by decide⟩
        · split
          · exact ⟨5, rfl, by decide, by decide⟩
          · exact ⟨6, rfl, by decide, by decide⟩

theorem execUpdVerifyDone_rollback (verifying : s.upd.state = 3) (old : fieldAt (s.manifest s.upd.staging) 20 2 < s.fuse.rollback) :
    ∃ t : State, exec .updVerifyDone s = .next t ∧ t.upd.state = 5 ∧ 1 ≤ t.upd.reason ∧ t.upd.reason ≤ 6 := by
  obtain ⟨r, check, lo, hi⟩ := s.secCheck_rollback (part := s.upd.slotBytes s.upd.staging) old
  have reason : s.verifyReason s.upd.staging = some r := by
    unfold State.verifyReason State.slotCheck
    dsimp only
    rw [check]
  obtain ⟨seq, dirty, rejected⟩ := s.updReject_upd (reason := r) (by omega)
  refine ⟨_, execUpdVerifyDone_ends verifying, ?_⟩
  rw [reason]
  dsimp only
  rw [rejected]
  exact ⟨rfl, lo, hi⟩

/-! #### Activation -/

theorem execPreloadDone_bad (waiting : s.upd.state = 6) (p : Fin 6) : ∃ t : State, exec (.preloadDone (some p)) s = .next t ∧
    t.upd.state = 5 ∧ t.upd.reason = 7 ∧ t.upd.loaded = false := by
  obtain ⟨seq, dirty, rejected⟩ := s.updReject_upd (reason := 7) (by omega)
  refine ⟨_, next_congr (if_neg (by simp [waiting])), ?_⟩
  dsimp only
  rw [State.raise_upd, rejected]
  exact ⟨rfl, rfl, rfl⟩

theorem execPreloadDone_old (waiting : s.upd.state = 6) (old : fieldAt (s.manifest s.upd.staging) 20 2 < s.fuse.rollback) :
    ∃ t : State, exec (.preloadDone none) s = .next t ∧ t.upd.state = 5 ∧ t.upd.reason = 6 := by
  obtain ⟨seq, dirty, rejected⟩ := s.updReject_upd (reason := 6) (by omega)
  refine ⟨_, next_congr ((if_neg (by simp [waiting])).trans (if_pos old)), ?_⟩
  rw [State.raise_upd, rejected]
  exact ⟨rfl, rfl⟩

theorem execPreloadDone_loaded (waiting : s.upd.state = 6) (good : s.fuse.rollback ≤ fieldAt (s.manifest s.upd.staging) 20 2) :
    exec (.preloadDone none) s = .next (s.modUpd fun x => { x with loaded := true }) :=
  next_congr ((if_neg (by simp [waiting])).trans (if_neg (by omega)))

theorem State.fwRegs_upd (s : State) : s.fwRegs.upd = s.upd := by
  unfold State.fwRegs
  split
  · rfl
  · dsimp only
    simp only [State.wr_upd, State.wrB_upd]

theorem State.fwRegs_fuse (s : State) : s.fwRegs.fuse = s.fuse := kept_fuse s.fwRegs_kept

/-- With firmware running, FW_STAT.TRIAL reads whether it is on trial. -/
theorem State.fwRegs_trial {x : Firmware} (run : s.upd.run = some x) : s.fwRegs.flag R.GLB_FW_STAT_TRIAL = (s.upd.state == 7) := by
  have fields : ∀ y ∈ [R.GLB_FW_STAT_FUSES, R.GLB_FW_STAT_SEC_VERSION, R.GLB_FW_STAT_RUN_SLOT, R.GLB_FW_STAT_ACTIVE_SLOT],
      y.lo + y.w ≤ 32 ∧ R.GLB_FW_STAT_TRIAL.Apart y := by
    simp only [List.mem_cons, List.not_mem_nil, or_false, forall_eq_or_imp, forall_eq]
    exact ⟨⟨by decide, .inr (.inr (by decide))⟩, ⟨by decide, .inr (.inr (by decide))⟩, ⟨by decide, .inr (.inr (by decide))⟩,
      by decide, .inr (.inr (by decide))⟩
  have apart : ∀ (t : State) (y : Fld) (v : Nat), y ∈ [R.GLB_FW_STAT_FUSES, R.GLB_FW_STAT_SEC_VERSION, R.GLB_FW_STAT_RUN_SLOT,
      R.GLB_FW_STAT_ACTIVE_SLOT] → (t.wr y v).flag R.GLB_FW_STAT_TRIAL = t.flag R.GLB_FW_STAT_TRIAL := fun t y v hy =>
    State.flag_congr (State.rd_wr_apart t v (fields y hy).1 (fields y hy).2)
  unfold State.fwRegs
  rw [run]
  dsimp only
  rw [apart _ _ _ (by simp), apart _ _ _ (by simp), apart _ _ _ (by simp), apart _ _ _ (by simp),
    State.flag_wrB_same _ _ (by decide) (by decide), State.wr_upd, State.wr_upd]

theorem State.setInsrc_upd (s : State) (f v : Nat) : (s.setInsrc f v).upd = s.upd := by
  unfold State.setInsrc
  split
  · rfl
  · rw [State.modFrond_upd, State.wr_upd]

theorem State.calEnd_upd (s : State) (f : Nat) : (s.calEnd f).upd = s.upd := by
  unfold State.calEnd
  dsimp only
  rw [State.setInsrc_upd, State.wr_upd, State.setFrondCal_upd]

theorem State.calAbort_upd (s : State) (f reason : Nat) : (s.calAbort f reason).upd = s.upd := by
  unfold State.calAbort
  cases (s.frondCal f).run with
  | none => rfl
  | some r =>
    dsimp only
    have ended : ((s.calEnd f).wr (R.CAL_RESULT_REASON f) reason).upd = s.upd := by rw [State.wr_upd, State.calEnd_upd]
    generalize (s.calEnd f).wr (R.CAL_RESULT_REASON f) reason = u at ended
    have counted : (if 1 ≤ reason ∧ reason ≤ 10 then u.bumpLife (112 + f) else u).upd = s.upd := by
      split
      · exact (State.modPeat_upd _ _).trans ended
      · exact ended
    generalize (if 1 ≤ reason ∧ reason ≤ 10 then u.bumpLife (112 + f) else u) = w at counted
    split
    · rw [State.raise_upd, counted]
    · split
      · rw [State.raise_upd, State.setFrondCal_upd, State.raise_upd, counted]
      · rw [State.setFrondCal_upd, State.raise_upd, counted]

theorem State.calResetAll_upd (s : State) : s.calResetAll.upd = s.upd :=
  List.foldlRecOn s.frondIds _ (motive := fun t : State => t.upd = s.upd) rfl fun t ht f _ => (t.calAbort_upd f 12).trans ht

theorem State.manifest_congr {t : State} (h : t.upd = s.upd) (k : Nat) : t.manifest k = s.manifest k := by
  rw [State.manifest, h, State.manifest]

/-- The record at the switch to firmware `x`. -/
def UpdSt.switched (u : UpdSt) (x : Firmware) : UpdSt := { u with prev := u.run, run := some x, passed := [], outcome := none, loaded := false }

theorem State.fwSwitch_early (early : s.upd.loaded = false ∨ s.tick < s.upd.actTick) : s.fwSwitch = s := by
  refine if_neg fun h => ?_
  obtain ⟨-, loaded, due⟩ := h
  obtain off | soon := early
  · exact absurd loaded (by simp [off])
  · omega

theorem State.fwSwitch_due (waiting : s.upd.state = 6) (loaded : s.upd.loaded = true) (due : s.upd.actTick ≤ s.tick) :
    s.fwSwitch = ((s.calResetAll.modUpd fun u =>
      u.switched (firmwareOf (s.calResetAll.manifest u.staging) u.staging)).updState 7).fwRegs := if_pos ⟨waiting, loaded, due⟩

theorem execFwActivationSwitch_switches (waiting : s.upd.state = 6) (loaded : s.upd.loaded = true) (due : s.upd.actTick ≤ s.tick) :
    ∃ t : State, exec .fwActivationSwitch s = .next t ∧ t.upd.state = 7 ∧
      t.upd.run = some (firmwareOf (s.manifest s.upd.staging) s.upd.staging) ∧ t.upd.prev = s.upd.run ∧ t.upd.passed = [] ∧
      t.upd.outcome = none ∧ t.flag R.GLB_FW_STAT_TRIAL = true := by
  have record : (s.calResetAll.modUpd fun u => u.switched (firmwareOf (s.calResetAll.manifest u.staging) u.staging)).upd =
      s.upd.switched (firmwareOf (s.manifest s.upd.staging) s.upd.staging) := by
    rw [State.modUpd_upd, s.calResetAll_upd, State.manifest_congr s.calResetAll_upd]
  refine ⟨_, next_congr (State.fwSwitch_due waiting loaded due), ?_⟩
  generalize s.calResetAll.modUpd _ = u at record
  obtain ⟨seq, dirty, entered⟩ := u.updState_upd (n := 7) (by rw [record]; show s.upd.state ≠ 7; omega)
  rw [record] at entered
  rw [State.fwRegs_trial (by rw [entered]; rfl), State.fwRegs_upd, entered]
  exact ⟨rfl, rfl, rfl, rfl, rfl, rfl⟩

/-! #### The trial -/

theorem execSelfCheckReport_passes {p : Fin 6} (trial : s.upd.state = 7) (new : s.upd.passed.contains (p.val + 1) = false) :
    exec (.selfCheckReport p true) s = .next (s.modUpd fun x => { x with
      passed := x.passed ++ [p.val + 1], outcome := if x.passed.length = 5 then some 0 else x.outcome }) := by
  refine next_congr ((if_neg (by simp [trial])).trans ((if_pos rfl).trans ?_))
  rw [State.modUpd, new]
  simp only [Bool.false_eq_true, if_false, List.length_append, List.length_cons, List.length_nil, Nat.zero_add, State.modUpd,
    Nat.reduceEqDiff]

theorem execSelfCheckReport_fails {p : Fin 6} (trial : s.upd.state = 7) (first : s.upd.outcome = none) :
    exec (.selfCheckReport p false) s = .next (s.modUpd fun x => { x with outcome := some (0x81 + p.val) }) := by
  refine next_congr ((if_neg (by simp [trial])).trans ((if_neg (by decide)).trans ?_))
  rw [State.modUpd, first, if_neg (by simp)]
  have code : 0x80 + p.val + 1 = 0x81 + p.val := by omega
  rw [code, State.modUpd]

theorem execTrialTimeout_expires (trial : s.upd.state = 7) (over' : s.upd.actTick + 1599999 ≤ s.tick) (open' : s.upd.outcome = none)
    (passed : s.upd.passed = [1, 2, 3, 4, 5]) :
    exec .trialTimeout s = .next (s.modUpd fun x => { x with outcome := some 0x96 }) := by
  refine next_congr ((if_pos ⟨trial, over', open'⟩).trans ?_)
  rw [passed]
  rfl

/-! #### The anti-rollback fuses -/

/-- One fuse of the anti-rollback count. -/
def State.blowCount (s : State) (i : Nat) : State :=
  if s.fuse.rollback = i then { s with fuse := { s.fuse with rollback := i + 1 } }.raise 0x1407 0 [.w 0, .w (i + 1)] else s

/-- The revoke fuse of key set `k`, when manifest `m` asks for it. -/
def State.blowRevoke (m : Manifest) (s : State) (k : Nat) : State :=
  if fieldAt m 7 1 / 2 ^ k % 2 = 1 ∧ s.fuse.revoked / 2 ^ k % 2 = 0 then
    { s with fuse := { s.fuse with revoked := s.fuse.revoked + 2 ^ k } }.raise 0x1407 0 [.w 1, .w k]
  else s

/-- The fuses that manifest `m` asks for are blown one after another. -/
def State.blown (s : State) (m : Manifest) : State :=
  (List.range 2).foldl (State.blowRevoke m) ((List.range (min (fieldAt m 20 2) 128)).foldl State.blowCount s)

theorem State.blowFuses_pending (pending : s.upd.fusePending = true) : s.blowFuses =
    (((if 128 < fieldAt (s.manifest s.upd.active) 20 2 then
      (s.blown (s.manifest s.upd.active)).raise 0x1408 0 [.w (fieldAt (s.manifest s.upd.active) 20 2)]
        else s.blown (s.manifest s.upd.active)).modUpd fun u => { u with fusePending := false }).commitUpd).fwRegs :=
  if_neg (by simp [pending])

theorem State.blowCount_fuse (s : State) (i : Nat) : (s.blowCount i).fuse =
    { s.fuse with rollback := if s.fuse.rollback = i then i + 1 else s.fuse.rollback } ∧ (s.blowCount i).upd = s.upd := by
  unfold State.blowCount
  split
  · exact ⟨rfl, rfl⟩
  · exact ⟨rfl, rfl⟩

/-- The count after fuses 0 to `n - 1`. -/
theorem State.blowCounts_fuse (s : State) (n : Nat) : ((List.range n).foldl State.blowCount s).fuse =
    { s.fuse with rollback := max s.fuse.rollback n } ∧ ((List.range n).foldl State.blowCount s).upd = s.upd := by
  induction n with
  | zero => exact ⟨by rw [List.range_zero, List.foldl_nil, Nat.max_zero], rfl⟩
  | succ n ih =>
    obtain ⟨fuse, upd⟩ := ih
    obtain ⟨fuse', upd'⟩ := ((List.range n).foldl State.blowCount s).blowCount_fuse n
    have count : (if max s.fuse.rollback n = n then n + 1 else max s.fuse.rollback n) = max s.fuse.rollback (n + 1) := by
      split <;> omega
    rw [List.range_succ, List.foldl_append, List.foldl_cons, List.foldl_nil, fuse', upd', fuse, upd, count]
    exact ⟨rfl, rfl⟩

theorem State.blowRevoke_spec (m : Manifest) (s : State) {k : Nat} (hk : k < 2) : (State.blowRevoke m s k).fuse.rollback = s.fuse.rollback ∧
    (State.blowRevoke m s k).upd = s.upd ∧ (fieldAt m 7 1 / 2 ^ k % 2 = 1 → (State.blowRevoke m s k).fuse.revoked / 2 ^ k % 2 = 1) ∧
    ∀ j, j < 2 → s.fuse.revoked / 2 ^ j % 2 = 1 → (State.blowRevoke m s k).fuse.revoked / 2 ^ j % 2 = 1 := by
  unfold State.blowRevoke
  split
  · rename_i blown
    obtain ⟨-, whole⟩ := blown
    refine ⟨rfl, rfl, fun _ => ?_, fun j hj old => ?_⟩
    · show (s.fuse.revoked + 2 ^ k) / 2 ^ k % 2 = 1
      rw [Nat.add_div_right _ (by positivity)]
      omega
    · show (s.fuse.revoked + 2 ^ k) / 2 ^ j % 2 = 1
      interval_cases k <;> interval_cases j <;> omega
  · rename_i kept
    exact ⟨rfl, rfl, fun asked => by omega, fun _ _ old => old⟩

theorem State.blowRevokes_spec (m : Manifest) (s : State) : ((List.range 2).foldl (State.blowRevoke m) s).fuse.rollback = s.fuse.rollback ∧
    ((List.range 2).foldl (State.blowRevoke m) s).upd = s.upd ∧
    ∀ k, k < 2 → fieldAt m 7 1 / 2 ^ k % 2 = 1 → ((List.range 2).foldl (State.blowRevoke m) s).fuse.revoked / 2 ^ k % 2 = 1 := by
  obtain ⟨count, upd, set, -⟩ := State.blowRevoke_spec m s (k := 0) (by decide)
  obtain ⟨count', upd', set', kept⟩ := State.blowRevoke_spec m (State.blowRevoke m s 0) (k := 1) (by decide)
  refine ⟨count'.trans count, upd'.trans upd, fun k hk asked => ?_⟩
  obtain rfl | rfl : k = 0 ∨ k = 1 := by omega
  · exact kept 0 (by decide) (set asked)
  · exact set' asked

theorem execFuseProgramming_blows {m : Manifest} (pending : s.upd.fusePending = true) (hm : s.manifest s.upd.active = m) : ∃ t : State,
    exec .fuseProgramming s = .next t ∧ t.fuse.rollback = max s.fuse.rollback (min (fieldAt m 20 2) 128) ∧ t.upd.fusePending = false ∧
      t.upd.state = s.upd.state ∧ ∀ k, k < 2 → fieldAt m 7 1 / 2 ^ k % 2 = 1 → t.fuse.revoked / 2 ^ k % 2 = 1 := by
  subst hm
  generalize hm : s.manifest s.upd.active = m
  obtain ⟨counted, kept⟩ := s.blowCounts_fuse (min (fieldAt m 20 2) 128)
  obtain ⟨count, upd, revoked⟩ := State.blowRevokes_spec m ((List.range (min (fieldAt m 20 2) 128)).foldl State.blowCount s)
  have told : ∃ w : State, s.blowFuses = ((w.modUpd fun u => { u with fusePending := false }).commitUpd).fwRegs ∧
      w.fuse = (s.blown m).fuse ∧ w.upd = (s.blown m).upd := by
    refine ⟨_, State.blowFuses_pending pending, ?_, ?_⟩
    · rw [hm]
      split
      · rw [kept_fuse (State.raise_kept _ _ _ _)]
      · rfl
    · rw [hm]
      split
      · rw [State.raise_upd]
      · rfl
  obtain ⟨w, ran, fuse, same⟩ := told
  obtain ⟨seq, dirty, committed⟩ := (w.modUpd fun u => { u with fusePending := false }).commitUpd_upd []
  refine ⟨_, next_congr ran, ?_⟩
  rw [State.fwRegs_fuse, kept_fuse (State.commitUpd_kept _ _), State.modUpd_fuse, fuse, State.fwRegs_upd, committed, State.modUpd_upd, same]
  refine ⟨?_, rfl, ?_, revoked⟩
  · rw [State.blown, count, counted]
  · rw [State.blown, upd, kept]

/-! #### The settings store -/

variable {mem : HostMem} {same : Bool} {j : StoreJob} {b : List Byte}

theorem execSettingsStoreDone_checked {i : Image} (job : s.upd.store = some j) (read : readHost mem j.addr j.len = some b)
    (parsed : parseImage b = some i) (good : s.imageCode i = 0) : exec (.settingsStoreDone mem same) s = .next ((s.modUpd fun x => { x with
      store := none, copies := Tab.set (fun _ => none) x.copies j.copy (if same then some b else none)
    }).raise 0x140a j.copy [.w (if same then 0 else 7)]) := by
  show execSettingsStoreDone mem same s = _
  unfold execSettingsStoreDone
  rw [job]
  dsimp only
  rw [read]
  dsimp only
  rw [parsed]
  dsimp only
  rw [good]
  cases same with
  | true => rfl
  | false => rfl

theorem execSettingsStoreDone_unparsed (job : s.upd.store = some j) (read : readHost mem j.addr j.len = some b)
    (bad : parseImage b = none) : exec (.settingsStoreDone mem same) s = .next ((s.modUpd fun x => { x with
      store := none, copies := Tab.set (fun _ => none) x.copies j.copy none }).raise 0x140a j.copy [.w 3]) := by
  show execSettingsStoreDone mem same s = _
  unfold execSettingsStoreDone
  rw [job]
  dsimp only
  rw [read]
  dsimp only
  rw [bad]

end

/-- Settles O59, event by event. -/
theorem updateEvents : Obligations.UpdateEvents := by
  intro s
  refine ⟨fun idle => next_congr (if_neg idle), execUpdEraseDone_erased, fun queue => ?_,
    fun i body rest queue receiving _ => ⟨execSporeProgrammed_bad queue receiving, execSporeProgrammed_more queue receiving,
      execSporeProgrammed_last queue receiving⟩,
    fun f none => ⟨?_, ?_⟩, fun f b rest u frame hu => ⟨execSporeFrame_taken frame hu, execSporeFrame_closed frame hu⟩,
    fun f b rest u frame len hu first => execSporeAck_first frame len hu first, fun none => ?_,
    fun f link runs due few => execSporeAckSend_due link runs due few,
    fun f link due receiving soon few => execSporeAckSend_waits link due receiving soon few, fun idle => next_congr (if_pos idle),
    fun verifying => ⟨execUpdVerifyDone_result verifying, execUpdVerifyDone_rollback verifying⟩, fun b idle => next_congr (if_pos idle),
    fun waiting => ⟨execPreloadDone_bad waiting, execPreloadDone_loaded waiting, execPreloadDone_old waiting,
      fun early => next_congr (State.fwSwitch_early early), execFwActivationSwitch_switches waiting⟩,
    fun p pass idle => ⟨next_congr (if_pos idle), next_congr (if_neg fun h => idle h.1)⟩,
    fun trial => ⟨fun p => execSelfCheckReport_passes trial, fun p => execSelfCheckReport_fails trial,
      fun early => next_congr (if_neg fun h => by omega), execTrialTimeout_expires trial⟩,
    fun none => next_congr (if_pos (by simp [none])), fun m pending hm => execFuseProgramming_blows pending hm, fun mem same none => ?_,
    fun mem same j b i job read parsed good => execSettingsStoreDone_checked job read parsed good,
    fun mem same j b job read bad => execSettingsStoreDone_unparsed job read bad⟩
  · show execSporeProgrammed true s = _
    unfold execSporeProgrammed
    rw [queue]
  · show execSporeFrame f s = _
    unfold execSporeFrame
    dsimp only
    rw [none]
    rfl
  · show execSporeAck f s = _
    unfold execSporeAck
    dsimp only
    rw [none]
    rfl
  · show execSporeAckSend s = _
    unfold execSporeAckSend
    dsimp only
    rw [none]
  · show execSettingsStoreDone mem same s = _
    unfold execSettingsStoreDone
    rw [none]

end Sys2Proof.Machine

/-! ### Calibration: admission, pre-checks, steps, swaps, aborts and the tone (R525 to R534, Tables CAL-1, CAL-2, CAL-4, CAL-7) -/

namespace Sys2Proof.Machine

section
variable {s : State} {f : Fin 48} {h : ReqHdr} {mem : HostMem} {x : FrondCal}

@[simp] theorem State.frondCal_setFrondCal (s : State) (f : Nat) (x : FrondCal) : (s.setFrondCal f x).frondCal f = x :=
  Tab.get_set_same _ _ _ _

/-! #### Descriptors -/

/-- A host calibration with a tone declared starts its pre-checks. -/
theorem State.calAdmit_host {f : Nat} (hx : s.frondCal f = x) (tone : s.calTone ≠ 0) : s.calAdmit f 2 =
    ((s.setFrondCal f { x with run := some { kind := 2, start := s.tick, tone := s.calTone, shadow := s.calBank f } }).raise 0x1501 f
      [.w 2]).wr (R.CAL_FSTAT_STEP f) 1 := by
  subst hx
  exact (if_neg tone).trans (if_pos rfl)

theorem execCalRun_starts (enabled : s.frondEnabled f.val = true) (hpf : h.isPf) (hx : s.frondCal f.val = x) (free : x.run = none)
    (settled : x.restore = none) (tone : s.calTone ≠ 0) : exec (.calRun h mem f.val) s = .next ((((s.setFrondCal f.val { x with
      run := some { kind := 2, start := s.tick, tone := s.calTone, shadow := s.calBank f.val } }).raise 0x1501 f.val [.w 2]).wr
        (R.CAL_FSTAT_STEP f.val) 1).complete (doneOk h s 0x90 0)) := by
  rw [← State.calAdmit_host hx tone]
  refine next_congr (runOne_pf { s := s.calAdmit f.val 2 } hpf rfl ?_ rfl rfl rfl ?_)
  · simp only [List.forall_mem_cons]
    exact ⟨ckFrond_pass enabled, ckCond_pass (by simp [State.calBusy, hx, free, settled]), by simp⟩
  · exact kept_tick (State.calAdmit_kept _ _ _)

theorem State.calAbort_idle {f reason : Nat} (idle : (s.frondCal f).run = none) : s.calAbort f reason = s := by
  rw [State.calAbort, idle]

theorem execCalAbort_aborts (enabled : s.frondEnabled f.val = true) (hpf : h.isPf) :
    exec (.calAbort h mem f.val) s = .next ((s.calAbort f.val 15).complete (doneOk h s 0x91 0)) := by
  refine next_congr (runOne_pf { s := s.calAbort f.val 15 } hpf rfl ?_ rfl rfl rfl (kept_tick (State.calAbort_kept _ _ _)))
  simp only [List.forall_mem_cons]
  exact ⟨ckFrond_pass enabled, by simp⟩

theorem execCalExport_reads {b : List Byte} {buf : Nat} (enabled : s.frondEnabled f.val = true) (hpf : h.isPf)
    (act : (s.frondCal f.val).act = some b) (align : buf % 64 = 0) (fits : s.readFits 2304) :
    exec (.calExport h mem f.val buf) s = .next (readOk h s 0x92 buf b) := by
  have bank : s.calBank f.val = b := by
    rw [State.calBank, act]
    rfl
  refine next_congr (runOne_pf_read hpf rfl ?_ (by rw [appCalExport, bank]))
  simp only [List.forall_mem_cons]
  exact ⟨ckAlign_pass align, ckFrond_pass enabled, ckAbsent_pass (by simp [act]), ckBacklog_pass fits, by simp⟩

theorem execCalRestore_takes {b : List Byte} {addr : Nat} (enabled : s.frondEnabled f.val = true) (hpf : h.isPf)
    (hx : s.frondCal f.val = x) (read : readHost mem addr 2304 = some b) (align : addr % 64 = 0) (good : s.setOk f.val b = true)
    (free : x.run = none) (settled : x.restore = none) : exec (.calRestore h mem f.val addr) s =
      .next ((s.setFrondCal f.val { x with restore := some (b, s.tick + 1) }).complete (doneOk h s 0x93 0)) := by
  have read' : readHost (h.ctx s mem).mem addr 2304 = some b := read
  have app : appCalRestore f.val addr (h.ctx s mem) s = { s := s.setFrondCal f.val { x with restore := some (b, s.tick + 1) } } := by
    rw [appCalRestore, read', ← hx]
  refine next_congr (runOne_pf _ hpf rfl ?_ app rfl rfl rfl)
  simp only [List.forall_mem_cons, read']
  exact ⟨by simp [Ctx.ckRead, read'], ckAlign_pass align, ckFormat_pass (by simp [good]), ckFrond_pass enabled,
    ckCond_pass (by simp [State.calBusy, hx, free, settled]), by simp⟩

/-! #### The swap of a restored set -/

theorem execCalBankSwap_restores {b : List Byte} {t : Nat} (hx : s.frondCal f.val = x) (free : x.run = none) (set : x.restore = some (b, t))
    (due : t ≤ s.tick) : exec (.calBankSwap f) s = .next (
      let u := (s.setFrondCal f.val { x with restore := none }).calForce f.val 3 b
      u.raise 0x1503 f.val [.w (fieldAt b 8 4), .w (if u.setUsable f.val b then 1 else 0)]) := by
  show Host.Outcome.next (s.calSwap f.val) = _
  refine next_congr ?_
  unfold State.calSwap
  rw [hx]
  dsimp only
  rw [free, set]
  dsimp only
  rw [if_pos due, hx, free]

/-! #### Pre-checks -/

section
variable {r : CalRun} {pwr fofs : Int} {spread : Nat}

theorem execCalMuteCheck_host (hx : s.frondCal f.val = x) (runs : x.run = some r) (open' : r.passed = false) (host : r.kind = 2)
    (mute : s.flag (R.FRD_RX_CTL_MUTE f.val) = true) (f1 : s.pState f.val = 1) (awake : s.flag (R.PWR_FSTAT_WAKING f.val) = false) :
    exec (.calMuteCheck f) s = .next (if (s.frond f.val).rx.dark
      then s.setFrondCal f.val { x with run := some { r with passed := true } } else s.calAbort f.val 4) := by
  show execCalMuteCheck f s = _
  unfold execCalMuteCheck
  dsimp only
  rw [hx, runs]
  dsimp only
  rw [if_neg (by simp [open']), if_neg (by simp [f1, awake]), if_pos host, mute, Bool.true_and]

theorem execCalPrecheckEnd_weak (hx : s.frondCal f.val = x) (runs : x.run = some r) (passed : r.passed = true)
    (step : s.rd (R.CAL_FSTAT_STEP f.val) = 1) (weak : pwr < -100) : exec (.calPrecheckEnd f pwr fofs spread) s =
      .next (((s.wrS R.CAL_INPUT_PWR pwr).wrS R.CAL_INPUT_FOFS (clampInt (-32768) 32767 fofs)).calAbort f.val 1) := by
  show execCalPrecheckEnd f pwr fofs spread s = _
  unfold execCalPrecheckEnd
  dsimp only
  rw [hx, runs]
  dsimp only
  rw [if_neg (by simp [passed, step]), if_pos weak, State.calInput]

theorem execCalPrecheckEnd_early (hx : s.frondCal f.val = x) (runs : x.run = some r) (passed : r.passed = true)
    (step : s.rd (R.CAL_FSTAT_STEP f.val) = 1) (strong : -100 ≤ pwr) (early : s.tick < r.start + 15999) :
    exec (.calPrecheckEnd f pwr fofs spread) s = .next s := by
  show execCalPrecheckEnd f pwr fofs spread s = _
  unfold execCalPrecheckEnd
  dsimp only
  rw [hx, runs]
  dsimp only
  rw [if_neg (by simp [passed, step]), if_neg (by omega), if_pos early]

theorem State.calInput_within (lo : -100 ≤ fofs) (hi : fofs ≤ 100) :
    s.calInput pwr fofs = (s.wrS R.CAL_INPUT_PWR pwr).wrS R.CAL_INPUT_FOFS fofs := by
  have clamp : clampInt (-32768) 32767 fofs = fofs := by
    unfold clampInt
    omega
  rw [State.calInput, clamp]

theorem execCalPrecheckEnd_passes (hx : s.frondCal f.val = x) (runs : x.run = some r) (passed : r.passed = true)
    (step : s.rd (R.CAL_FSTAT_STEP f.val) = 1) (strong : -100 ≤ pwr) (over' : r.start + 15999 ≤ s.tick) (lo : -100 ≤ fofs) (hi : fofs ≤ 100)
    (calm : spread ≤ 8) : exec (.calPrecheckEnd f pwr fofs spread) s = .next
      (((((s.wrS R.CAL_INPUT_PWR pwr).wrS R.CAL_INPUT_FOFS fofs).setFrondCal f.val { x with run := some { r with
        pwr := pwr, stepTick := s.tick + 1 } }).wr (R.CAL_FSTAT_STEP f.val) 2).setInsrc f.val 1) := by
  have input : (s.calInput pwr fofs).frondCal f.val = x := by
    rw [State.frondCal, State.calInput, State.wrS_cals, State.wrS_cals]
    exact hx
  have tick : (s.calInput pwr fofs).tick = s.tick := by rw [State.calInput, State.wrS_tick, State.wrS_tick]
  show execCalPrecheckEnd f pwr fofs spread s = _
  unfold execCalPrecheckEnd
  dsimp only
  rw [hx, runs]
  dsimp only
  rw [if_neg (by simp [passed, step]), if_neg (by omega), if_neg (by omega), if_neg (by omega), if_neg (by omega), input, tick,
    State.calInput_within lo hi]

/-! #### Steps -/

theorem execCalToneLost_aborts {n : Nat} (hx : s.frondCal f.val = x) (runs : x.run = some r) (step : s.rd (R.CAL_FSTAT_STEP f.val) = 3)
    (weak : pwr < -100) (long : 15 ≤ n) (now : 0 < s.tick) (ran : r.lost = ⟨n, s.tick - 1⟩) : exec (.calToneLost f pwr) s =
      .next ((s.setFrondCal f.val { x with run := some { r with lost := ⟨n + 1, s.tick⟩ } }).calAbort f.val 6) := by
  have lost : r.lost.step s.tick (decide (pwr < -100)) = ⟨n + 1, s.tick⟩ := by
    rw [decide_eq_true weak]
    exact Run.step_of_previous (by omega) now ran
  show execCalToneLost f pwr s = _
  unfold execCalToneLost
  dsimp only
  rw [hx, runs]
  dsimp only
  rw [if_neg (by omega), lost, if_pos (show 16 ≤ n + 1 by omega)]

variable {vals : List Int}

theorem execCalStepEnd_late {tap : Bool} {quad : Option (Nat × Nat)} (hx : s.frondCal f.val = x) (runs : x.run = some r)
    (open' : r.ready = none) (step : 2 ≤ s.rd (R.CAL_FSTAT_STEP f.val))
    (late : r.stepTick + stepLimit (s.rd (R.CAL_FSTAT_STEP f.val)) ≤ s.tick) :
    exec (.calStepEnd f vals tap quad) s = .next (s.calAbort f.val 9) := by
  show execCalStepEnd f vals tap quad s = _
  unfold execCalStepEnd
  dsimp only
  rw [hx, runs]
  dsimp only
  rw [if_neg (by simp [open']; omega), if_pos (by omega)]

/-- Values of a signed byte each fit the fields of step 2. -/
theorem stepTwo_fits (fit : ∀ v ∈ vals, -128 ≤ v ∧ v < 128) : (((stepFields 2).zip vals).any fun q => !inField q.1 q.2) = false := by
  simp only [List.any_eq_false, Bool.not_eq_true', Bool.not_eq_false]
  rintro ⟨fd, v⟩ hq
  obtain ⟨hfd, hv⟩ := List.of_mem_zip hq
  obtain ⟨i, -, rfl⟩ := List.mem_map.mp hfd
  obtain ⟨lo, hi⟩ := fit v hv
  show (decide (-((2 ^ 7 : Nat) : Int) ≤ v) && decide (v < ((2 ^ 7 : Nat) : Int))) = true
  simp [lo, hi]

theorem execCalStepEnd_two {tap : Bool} (hx : s.frondCal f.val = x) (runs : x.run = some r) (open' : r.ready = none)
    (step : s.rd (R.CAL_FSTAT_STEP f.val) = 2) (soon : s.tick < r.stepTick + 3200) (fit : ∀ v ∈ vals, -128 ≤ v ∧ v < 128) :
    exec (.calStepEnd f vals tap none) s = .next ((s.setFrondCal f.val { x with
      run := some { r with shadow := putValues r.shadow 2 vals, stepTick := s.tick + 1, lost := {} } }).wr (R.CAL_FSTAT_STEP f.val) 3) := by
  have limit : stepLimit 2 = 3200 := rfl
  show execCalStepEnd f vals tap none s = _
  unfold execCalStepEnd
  dsimp only
  rw [hx, runs]
  dsimp only
  rw [step, limit, if_neg (by simp [open']), if_neg (by omega), if_neg (by simp), stepTwo_fits fit,
    if_neg (by decide), if_neg (by decide), if_neg (by decide), ← open']

end

end

/-! #### The tone -/

theorem toneOk_iff (khz : Nat) :
    toneOk khz = true ↔ 2000000 ≤ khz ∧ khz ≤ 40000000 ∧ ∀ m, khz + 300000 ≤ 1500000 * m ∨ 1500000 * m + 300000 ≤ khz := by
  have unfolded : toneOk khz = true ↔ 2000000 ≤ khz ∧ khz ≤ 40000000 ∧
      (300000 ≤ khz % 3000000 ∧ khz % 3000000 ≤ 1200000 ∨ 1800000 ≤ khz % 3000000 ∧ khz % 3000000 ≤ 2700000) := by
    simp [toneOk, and_assoc]
  rw [unfolded]
  refine and_congr_right fun _ => and_congr_right fun _ => ⟨fun clear m => by omega, fun clear => ?_⟩
  have below := clear (2 * (khz / 3000000))
  have middle := clear (2 * (khz / 3000000) + 1)
  have above := clear (2 * (khz / 3000000) + 2)
  omega

theorem State.calTone_toneSet (s : State) (v : Word) : (s.toneSet v).calTone = if toneOk (bitsGet v 0 26) then bitsGet v 0 26 else 0 := by
  have khz : (s.toneSet v).rd R.CAL_TONE_KHZ = bitsGet v 0 26 := by
    rw [State.toneSet, State.wrB, State.rd_wr_beside _ _ (by decide) (.inl (by decide)), State.rd_wr_same _ _ (by decide)]
    exact Nat.mod_mod_of_dvd _ (Nat.dvd_refl _)
  have bad : (s.toneSet v).flag R.CAL_TONE_TONE_BAD = !toneOk (bitsGet v 0 26) := State.flag_wrB_same _ _ (by decide) (by decide)
  rw [State.calTone, khz, bad]
  cases toneOk (bitsGet v 0 26) <;> rfl

/-- Settles O22, descriptor by descriptor and event by event. -/
theorem calibrationCommands : Obligations.CalibrationCommands := by
  refine ⟨fun s f h mem x enabled hpf hx => ⟨?_, ?_, fun idle => ?_, ?_, ?_, ?_, ?_, ?_, ?_, ?_, ?_, ?_, ?_, ?_⟩, toneOk_iff,
    State.calTone_toneSet⟩
  · exact execCalRun_starts enabled hpf hx
  · exact execCalAbort_aborts enabled hpf
  · rw [execCalAbort_aborts enabled hpf, State.calAbort_idle (by rw [hx]; exact idle)]
  · exact fun b buf act _ align fits => execCalExport_reads enabled hpf (hx ▸ act) align fits
  · exact fun b addr read align good free settled => execCalRestore_takes enabled hpf hx read align good free settled
  · exact fun b t free set due => execCalBankSwap_restores hx free set due
  · exact fun r runs open' host mute f1 awake => execCalMuteCheck_host hx runs open' host mute f1 awake
  · exact fun r pwr fofs spread runs passed step weak => execCalPrecheckEnd_weak hx runs passed step weak
  · exact fun r pwr fofs spread runs passed step strong early => execCalPrecheckEnd_early hx runs passed step strong early
  · exact fun r pwr fofs spread runs passed step strong over' lo hi calm =>
      execCalPrecheckEnd_passes hx runs passed step strong over' lo hi calm
  · exact fun r pwr n runs step weak long now ran => execCalToneLost_aborts hx runs step weak long now ran
  · exact fun r vals tap quad runs open' step late => execCalStepEnd_late hx runs open' step late
  · exact fun r vals tap runs open' step soon fit => execCalStepEnd_two hx runs open' step soon fit
  · exact fun v verdict fuse => next_congr (State.pfWrite_ok verdict fuse)

end Sys2Proof.Machine

/-! ### Memory integrity (R553, R555, R556, R562, R563) -/

namespace Sys2Proof.Machine

section
variable {s : State} {h : ReqHdr} {mem : HostMem}

/-! #### The scrubber -/

theorem State.scrubByte_single {k : Nat} (one : bitCount (s.flip k) = 1) : s.scrubByte k = s.writeBack k := by
  rw [State.scrubByte, one]
  rfl

theorem execConfirmationRead_none (none : s.mem.confirm.find? (fun c => decide (c.2 < s.tick)) = none) :
    exec .confirmationRead s = .next s := by
  show execConfirmationRead s = _
  unfold execConfirmationRead
  rw [none]

theorem execConfirmationRead_corrects {k t : Nat} {l : List (Nat × Nat)} (confirm : s.mem.confirm = (k, t) :: l) (due : t < s.tick)
    (one : bitCount (s.flip k) = 1) :
    exec .confirmationRead s = .next ((s.modMem fun m => { m with confirm := l }).writeBack k) := by
  have taken : (s.modMem fun m => { m with confirm := m.confirm.erase (k, t) }) = s.modMem fun m => { m with confirm := l } := by
    rw [State.modMem, confirm, List.erase_cons_head, State.modMem]
  show execConfirmationRead s = _
  unfold execConfirmationRead
  rw [confirm, List.find?_cons_of_pos (p := fun c : Nat × Nat => decide (c.2 < s.tick)) (decide_eq_true due)]
  dsimp only
  have single : bitCount ((s.modMem fun m => { m with confirm := l }).flip k) = 1 := one
  rw [taken, State.scrubByte_single single]

/-- The background pass of one tick, when nothing goes before it. -/
theorem execScrubTick_background (idle : s.mem.pass = none) (enabled : s.flag R.MEM_CTL_SCRUB_EN = true) (quiet : s.mem.confirm = []) :
    exec (.scrubTick []) s = .next (((s.wrongBytes.filter fun k => decide (s.mem.scrub ≤ scrubPos k) &&
      decide (scrubPos k < s.mem.scrub + 16384)).foldl State.scrubByte s).modMem fun m => { m with
        scrub := if 24936448 ≤ s.mem.scrub + 16384 then 0 else s.mem.scrub + 16384 }) := by
  show execScrubTick [] s = _
  unfold execScrubTick
  rw [List.foldl_nil]
  dsimp only
  rw [idle, enabled, quiet]
  rfl

theorem execScrubTick_clean (idle : s.mem.pass = none) (clean : s.mem.flips = []) (enabled : s.flag R.MEM_CTL_SCRUB_EN = true)
    (quiet : s.mem.confirm = []) : exec (.scrubTick []) s = .next (s.modMem fun m => { m with
      scrub := if 24936448 ≤ s.mem.scrub + 16384 then 0 else s.mem.scrub + 16384 }) := by
  rw [execScrubTick_background idle enabled quiet, State.wrongBytes, clean]
  rfl

theorem execScrubTick_one {k v : Nat} (idle : s.mem.pass = none) (wrong : s.mem.flips = [(k, v)]) (one : bitCount v = 1)
    (enabled : s.flag R.MEM_CTL_SCRUB_EN = true) (quiet : s.mem.confirm = []) (lo : s.mem.scrub ≤ scrubPos k)
    (hi : scrubPos k < s.mem.scrub + 16384) : exec (.scrubTick []) s = .next ((s.writeBack k).modMem fun m => { m with
      scrub := if 24936448 ≤ s.mem.scrub + 16384 then 0 else s.mem.scrub + 16384 }) := by
  have flip : s.flip k = v := by
    rw [State.flip, wrong]
    exact if_pos rfl
  have due : (s.wrongBytes.filter fun k => decide (s.mem.scrub ≤ scrubPos k) && decide (scrubPos k < s.mem.scrub + 16384)) = [k] := by
    rw [State.wrongBytes, wrong, List.map_cons, List.map_nil, List.filter_cons_of_pos (by simp [lo, hi]), List.filter_nil]
  rw [execScrubTick_background idle enabled quiet, due, List.foldl_cons, List.foldl_nil, State.scrubByte_single (flip.symm ▸ one)]

/-! #### The range pass -/

/-- The range pass that MEM_PASS starts. -/
def State.passFrom (s : State) (memory frond off len buf : Nat) : MemPassSt :=
  { memory := memory, frond := if frond = 0xff then none else some frond, first := off, len := len, buf := buf, fn := 0, ring := 0,
    start := s.tick }

/-- The pass is under way. -/
def State.passStarted (s : State) (p : MemPassSt) : State := (s.modMem fun m => { m with pass := some p }).wrB R.MEM_STAT_PASS_BUSY true

theorem State.passStarted_tick (s : State) (p : MemPassSt) : (s.passStarted p).tick = s.tick := by
  rw [State.passStarted, State.wrB_tick, State.modMem_tick]

theorem execMemPass_starts {memory frond off len buf n : Nat} (hpf : h.isPf) (size : memSize memory = some n) (single : memory ≠ 0x17)
    (hoff : off % 4 = 0) (hlen : len % 4 = 0) (fits : off + len ≤ n) (align : buf % 64 = 0) (idle : s.mem.pass = none) :
    exec (.memPass h mem memory frond off len buf) s =
      .next ((s.passStarted (s.passFrom memory frond off len buf)).complete (doneOk h s 0xa0 0)) := by
  have app : appMemPass memory frond off len buf (h.ctx s mem) s = 
      { s := s.passStarted (s.passFrom memory frond off len buf) } := by
    have fn : (h.ctx s mem).src.fn = 0 := hpf.1
    rw [appMemPass, fn]
    rfl
  refine next_congr (runOne_pf _ hpf rfl ?_ app rfl rfl (s.passStarted_tick _))
  simp only [List.forall_mem_cons]
  refine ⟨ckFormat_pass ?_, ckAlign_pass align, ckAbsent_pass ?_, ckCond_pass (by simp [idle]), by simp⟩
  · rw [passBad, size]
    simp [hoff, hlen, fits, single]
  · simp [single]

theorem execMemPassDone_ends {p : MemPassSt} (running : s.mem.pass = some p) (whole : s.passTotal p ≤ p.done) (power : s.boot.pwrOk = true)
    (master : (s.fnState p.fn).busMaster = true) : exec .memPassDone s =
      .next ((((s.modMem fun m => { m with pass := none }).wrB R.MEM_STAT_PASS_BUSY false).emit
        (.data p.fn p.buf (s.passSummary p))).raise 0x1705 0 [.w p.memory, .w p.uncorrected]) := by
  have summary : ((s.modMem fun m => { m with pass := none }).wrB R.MEM_STAT_PASS_BUSY false).passSummary p = s.passSummary p := by
    rw [State.passSummary, State.passSummary, State.wrB_tick, State.modMem_tick]
  show execMemPassDone s = _
  unfold execMemPassDone
  rw [running]
  dsimp only
  rw [if_neg (by omega), summary, State.hostWrite_on]
  · rw [State.wrB_boot, State.modMem_boot]
    exact power
  · rw [State.wrB_fnState, State.modMem_fnState]
    exact master

/-! #### Injected errors -/

section
variable {memory frond flip off n : Nat}

theorem injectFormat_pass (size : memSize memory = some n) (inside : off < n) (lo : 0 < bitCount flip) (hi : bitCount flip ≤ 2)
    (mask : flip < 2 ^ 13) (single : memory ≠ 0x17) : ((memSize memory).all (fun n => decide (n ≤ off)) || bitCount flip == 0 ||
      decide (2 < bitCount flip) || decide (2 ^ 13 ≤ flip) || (memory == 0x17 && decide (48 ≤ frond))) = false := by
  rw [size]
  simp [single]
  omega

theorem execMemInject_flips (hpf : h.isPf) (size : memSize memory = some n) (inside : off < n) (lo : 0 < bitCount flip)
    (hi : bitCount flip ≤ 2) (mask : flip < 2 ^ 13) (key : memory ≠ 0x14) (kek : memory ≠ 0x15) (single : memory ≠ 0x17) :
    exec (.memInject h mem memory frond flip off) s = .next ((s.modMem fun m => { m with
      flips := Tab.set (fun _ => 0) m.flips (memKey memory frond off) (s.flip (memKey memory frond off) ^^^ flip) }).complete
        (doneOk h s 0xa1 0)) := by
  have app : appMemInject memory frond flip off (h.ctx s mem) s = { s := s.modMem fun m => { m with
      flips := Tab.set (fun _ => 0) m.flips (memKey memory frond off) (s.flip (memKey memory frond off) ^^^ flip) } } := by
    rw [appMemInject, State.upset, Nat.mod_eq_of_lt mask]
    rfl
  refine next_congr (runOne_pf _ hpf rfl ?_ app rfl rfl rfl)
  simp only [List.forall_mem_cons]
  exact ⟨ckFormat_pass (injectFormat_pass size inside lo hi mask single), ckAbsent_pass (by simp [single]), by simp [key, kek], by simp⟩

theorem execMemInject_refused (hpf : h.isPf) (secret : memory = 0x14 ∨ memory = 0x15) (size : memSize memory = some n) (inside : off < n)
    (lo : 0 < bitCount flip) (hi : bitCount flip ≤ 2) (mask : flip < 2 ^ 13) :
    exec (.memInject h mem memory frond flip off) s = .next (s.complete (doneRefused h s 0xa1 0x08 0)) := by
  have single : memory ≠ 0x17 := by omega
  have failed : firstFail (chkMemInject memory frond flip off (h.ctx s mem) s) = some ⟨0x08, 0⟩ := by
    refine firstFail_eq_some ⟨⟨8, memory == 0x14 || memory == 0x15, St.ownership, 0⟩, by simp [chkMemInject], by simpa using secret⟩
      fun k hk hbad => ?_
    obtain pf | here := List.mem_append.mp hk
    · exact absurd hbad (by rw [pf_pass hpf k pf]; decide)
    · simp only [List.mem_cons, List.not_mem_nil, or_false] at here
      obtain rfl | rfl | rfl := here
      · exact absurd hbad (by rw [ckFormat_pass (injectFormat_pass size inside lo hi mask single)]; decide)
      · exact absurd hbad (by rw [State.ckMemFrond, ckAbsent_pass (by simp [single])]; decide)
      · exact ⟨rfl, rfl⟩
  exact next_congr (runOne_refused failed (by decide) (by decide) nofun nofun)

end

/-! #### Writes -/

theorem State.memWrite_mem (s : State) (m f off len : Nat) : (s.memWrite m f off len).mem = { s.mem with
    flips := s.mem.flips.filter fun p => !(decide (memKey m f off ≤ p.1) && decide (p.1 < memKey m f off + len))
    fence := s.mem.fence.filter fun k => !(decide (memKey m f off ≤ k) && decide (k < memKey m f off + len)) } := by
  unfold State.memWrite State.fenceRegs
  dsimp only
  rw [State.wrB_mem, State.wr_mem, State.modMem_mem]

theorem State.flip_memWrite (s : State) (m f off len k : Nat) : (s.memWrite m f off len).flip k =
    if memKey m f off ≤ k ∧ k < memKey m f off + len then 0 else s.flip k := by
  rw [State.flip, State.memWrite_mem]
  refine (Tab.get_filter (fun _ => 0) (fun k => !(decide (memKey m f off ≤ k) && decide (k < memKey m f off + len))) s.mem.flips k).trans ?_
  by_cases inside : memKey m f off ≤ k ∧ k < memKey m f off + len
  · rw [if_pos inside, if_neg (by simp [inside])]
  · rw [if_neg inside, if_pos (by simp; omega), State.flip]

theorem State.mem_fence_memWrite (s : State) (m f off len k : Nat) : k ∈ (s.memWrite m f off len).mem.fence ↔
    k ∈ s.mem.fence ∧ ¬ (memKey m f off ≤ k ∧ k < memKey m f off + len) := by
  rw [State.memWrite_mem, List.mem_filter]
  refine and_congr_right fun _ => ?_
  simp
  omega

end

/-- Settles O21, event by event and descriptor by descriptor; a write clears the bytes of its range and no others. -/
theorem memoryCommands : Obligations.MemoryCommands := by
  refine ⟨fun s h mem hpf => ⟨execConfirmationRead_none, ?_, execScrubTick_clean, ?_, ?_, ?_, ?_⟩, ?_, ?_⟩
  · exact fun k t l confirm due one => execConfirmationRead_corrects confirm due one
  · exact fun k v idle wrong one enabled quiet lo hi => execScrubTick_one idle wrong one enabled quiet lo hi
  · exact fun memory frond off len buf n size single hoff hlen fits align idle =>
      execMemPass_starts hpf size single hoff hlen fits align idle
  · exact fun p running whole power master => execMemPassDone_ends running whole power master
  · exact fun memory frond flip off n size inside lo hi mask key kek single =>
      execMemInject_flips hpf size inside lo hi mask key kek single
  · exact fun s h mem memory frond flip off n hpf secret size inside lo hi mask => execMemInject_refused hpf secret size inside lo hi mask
  · exact fun s m f off len k _ => ⟨s.flip_memWrite m f off len k, s.mem_fence_memWrite m f off len k⟩

end Sys2Proof.Machine

/-! ### The monitor converter (R539 to R547) -/

namespace Sys2Proof.Machine

/-! #### Its descriptors (Table MON-2) -/

section
variable {s : State} {h : ReqHdr} {mem : HostMem}

/-- What MON_SEQ asks of each entry of a table. -/
def State.seqGood (s : State) (b : List Byte) : Prop :=
  ∀ e ∈ seqOf b, e.2 < 4 ∧ (e.1 = 0xff ∨ (monReserved e.1 = false ∧ s.monAbsent e.1 = false))

theorem seqOf_format {b : List Byte} (good : s.seqGood b) :
    ((seqOf b).any fun e => (e.1 != 0xff && monReserved e.1) || decide (4 ≤ e.2)) = false := by
  refine List.any_eq_false.mpr fun e he => ?_
  obtain ⟨filter, empty | ⟨known, -⟩⟩ := good e he
  · simp [empty, filter]
  · simp [known, filter]

theorem seqOf_present {b : List Byte} (good : s.seqGood b) : ((seqOf b).any fun e => e.1 != 0xff && s.monAbsent e.1) = false := by
  refine List.any_eq_false.mpr fun e he => ?_
  obtain ⟨-, empty | ⟨-, present⟩⟩ := good e he
  · simp [empty]
  · simp [present]

section
variable {addr : Nat} {b : List Byte} (align : addr % 64 = 0) (read' : readHost mem addr 336 = some b) (good : s.seqGood b)
include align read' good

theorem chkMonSeq_early : ∀ c ∈ [(h.ctx s mem).ckRead addr 336, ckAlign addr 64,
    ckFormat (((readHost mem addr 336).map seqOf).any fun l => l.any fun e => (e.1 != 0xff && monReserved e.1) || decide (4 ≤ e.2)),
    ckAbsent (((readHost mem addr 336).map seqOf).any fun l => l.any fun e => e.1 != 0xff && s.monAbsent e.1)], c.bad = false := by
  simp only [List.forall_mem_cons]
  refine ⟨by simp [Ctx.ckRead, ReqHdr.ctx, read'], ckAlign_pass align, ckFormat_pass ?_, ckAbsent_pass ?_, by simp⟩
  · rw [read']
    exact seqOf_format good
  · rw [read']
    exact seqOf_present good

theorem execMonSeq_taken (hpf : h.isPf) (frame : s.tick % 40 = 0) : exec (.monSeq h mem addr) s =
    .next ((s.modMon fun x => { x with table := seqOf b }).complete (doneOk h s 0xd0 0)) := by
  have app : appMonSeq addr (h.ctx s mem) s = { s := s.modMon fun x => { x with table := seqOf b } } := by
    unfold appMonSeq
    rw [show (h.ctx s mem).mem = mem from rfl, read']
  refine next_congr (runOne_pf _ hpf rfl ?_ app rfl rfl rfl)
  show ∀ c ∈ [_, _, _, _] ++ [_], Ck.bad c = false
  exact List.forall_mem_append.mpr ⟨chkMonSeq_early align read' good, by simp [ReqHdr.ctx, frame]⟩

theorem execMonSeq_late (hpf : h.isPf) (frame : s.tick % 40 ≠ 0) : exec (.monSeq h mem addr) s =
    .next (s.complete (doneRefused h s 0xd0 St.schedule 0)) := by
  have checks : chkMonSeq addr (h.ctx s mem) s = (h.ctx s mem).pf ++ ([_, _, _, _] ++ [⟨9, s.tick % 40 != 0, St.schedule, 0⟩]) := rfl
  refine next_congr (runOne_refused (firstFail_first (c := ⟨9, s.tick % 40 != 0, St.schedule, 0⟩) ?_ (by simp [frame]) ?_) (by decide)
    (by decide) (by simp) (by simp))
  · rw [checks]
    simp
  · rw [checks]
    intro c hc hbad
    rcases List.mem_append.mp hc with hc | hc
    · exact absurd hbad (by simp [pf_pass hpf c hc])
    · rcases List.mem_append.mp hc with hc | hc
      · exact absurd hbad (by simp [chkMonSeq_early align read' good c hc])
      · rw [List.mem_singleton.mp hc]
        exact .inr ⟨rfl, rfl⟩

end

/-- The state with limit `i` set to `l`. -/
def State.limited (s : State) (i : Nat) (l : MonLimit) : State :=
  (s.modMon fun x => { x with limits := Tab.set (fun _ => {}) x.limits i l }).restartPers fun c => Tab.get (fun _ => 0xff) s.mon.map c == i

theorem execMonLimit_taken {limit persist sev hyst : Nat} {fault : Bool} {low high : Int} (hpf : h.isPf) (hlimit : limit < 64)
    (pos : 0 < persist) (hpersist : persist < 256) (hsev : sev < 8) (gap : low ≤ high - 2 * (hyst : Int)) :
    exec (.monLimit h mem limit persist fault sev low high hyst) s = .next ((s.limited limit
      { low := low, high := high, hyst := hyst, persist := persist, fault := fault, sev := sev }).complete (doneOk h s 0xd1 0)) := by
  refine next_congr (runOne_pf (a := { s := s.limited limit _ }) hpf rfl ?_ rfl rfl rfl rfl)
  simp only [List.forall_mem_cons]
  exact ⟨ckFormat_pass (by simp [hlimit, pos.ne', hpersist, hsev, gap]), by simp⟩

/-- What MON_MAP asks of each channel of a map. -/
def State.mapGood (s : State) (b : List Byte) : Prop :=
  ∀ c, c < 256 → fieldAt b c 1 = 0xff ∨ (fieldAt b c 1 < 64 ∧ monReserved c = false ∧ s.monAbsent c = false)

theorem zipIdx_map_range (g : Nat → Nat) (n : Nat) : ((List.range n).map g).zipIdx = (List.range n).map fun i => (g i, i) := by
  refine List.ext_getElem (by simp) fun i h h' => ?_
  simp

theorem mapOf_unbound {b : List Byte} {p : Nat → Bool} (free : ∀ c, c < 256 → fieldAt b c 1 = 0xff ∨ p c = false) :
    ((mapOf b).zipIdx.any fun q => q.1 != 0xff && p q.2) = false := by
  rw [mapOf, zipIdx_map_range]
  refine List.any_eq_false.mpr fun q hq => ?_
  obtain ⟨c, hc, rfl⟩ := List.mem_map.mp hq
  obtain h | h := free c (List.mem_range.mp hc)
  · simp [h]
  · simp [h]

theorem mapOf_limits {b : List Byte} (good : s.mapGood b) : ((mapOf b).any fun k => k != 0xff && decide (64 ≤ k)) = false := by
  refine List.any_eq_false.mpr fun k hk => ?_
  obtain ⟨c, hc, rfl⟩ := List.mem_map.mp hk
  obtain h | ⟨h, -⟩ := good c (List.mem_range.mp hc)
  · simp [h]
  · simp [h]

/-- The state with the limits of the channels `l` bound. -/
def State.mapped (s : State) (l : List Nat) : State :=
  (s.modMon fun m => { m with map := l.zipIdx.foldl (fun t q => Tab.set (fun _ => 0xff) t q.2 q.1) m.map }).restartPers fun c =>
    Tab.get (fun _ => 0xff) s.mon.map c !=
      Tab.get (fun _ => 0xff) (l.zipIdx.foldl (fun t q => Tab.set (fun _ => 0xff) t q.2 q.1) s.mon.map) c

theorem State.mapped_map (l : List Nat) :
    (s.mapped l).mon.map = l.zipIdx.foldl (fun t q => Tab.set (fun _ => 0xff) t q.2 q.1) s.mon.map := (rfl)

theorem Tab.get_foldl_zipIdx (g : Nat → Nat) {n c : Nat} (hc : c < n) (m : Tab Nat) :
    Tab.get (fun _ => 0xff) (((List.range n).map g).zipIdx.foldl (fun t q => Tab.set (fun _ => 0xff) t q.2 q.1) m) c = g c := by
  rw [zipIdx_map_range, List.foldl_map]
  exact foldl_of_mem (step := fun t j => Tab.set (fun _ => 0xff) t j (g j)) (Q := fun _ => True)
    (P := fun t : Tab Nat => Tab.get (fun _ => 0xff) t c = g c) (fun _ _ _ => trivial) (fun _ _ => Tab.get_set_same _ _ _ _)
    (fun _ _ hj ht => (Tab.get_set_other _ _ _ hj.symm).trans ht) (List.mem_range.mpr hc) trivial

theorem State.mapped_get (b : List Byte) {c : Nat} (hc : c < 256) :
    Tab.get (fun _ => 0xff) (s.mapped (mapOf b)).mon.map c = fieldAt b c 1 := by
  rw [State.mapped_map, mapOf]
  exact Tab.get_foldl_zipIdx (fun c => fieldAt b c 1) hc s.mon.map

theorem execMonMap_taken {addr : Nat} {b : List Byte} (hpf : h.isPf) (align : addr % 64 = 0) (read' : readHost mem addr 256 = some b)
    (good : s.mapGood b) : exec (.monMap h mem addr) s = .next ((s.mapped (mapOf b)).complete (doneOk h s 0xd2 0)) := by
  have app : appMonMap addr (h.ctx s mem) s = { s := s.mapped (mapOf b) } := by
    unfold appMonMap
    rw [show (h.ctx s mem).mem = mem from rfl, read']
    dsimp only
    generalize mapOf b = l
    rfl
  have known := mapOf_unbound fun c hc => (good c hc).imp_right fun h => h.2.1
  have present := mapOf_unbound fun c hc => (good c hc).imp_right fun h => h.2.2
  refine next_congr (runOne_pf _ hpf rfl ?_ app rfl rfl rfl)
  simp only [List.forall_mem_cons]
  refine ⟨by simp [Ctx.ckRead, ReqHdr.ctx, read'], ckAlign_pass align, ckFormat_pass ?_, ckAbsent_pass ?_, by simp⟩
  · rw [show (h.ctx s mem).mem = mem from rfl, read']
    exact Bool.or_eq_false_iff.mpr ⟨known, mapOf_limits good⟩
  · rw [show (h.ctx s mem).mem = mem from rfl, read']
    exact present

/-- The state with a request in the converter's queue. -/
def State.monAsked (s : State) (src ch : Nat) : State :=
  let s := s.modMon fun m => { m with queue := m.queue ++ [(src, ch, false)] }
  s.wr R.MON_STAT_HOST_QUEUED s.monQueued

theorem execMonSample_taken {ch : Nat} (hpf : h.isPf) (known : monReserved ch = false) (present : s.monAbsent ch = false)
    (room : s.monQueued < 16) (frame : s.tick % 40 = 0) :
    exec (.monSample h mem ch) s = .next ((s.monAsked 2 ch).complete (doneOk h s 0xd3 0)) := by
  have app : appMonSample ch (h.ctx s mem) s = { s := s.monAsked 2 ch } := by
    unfold appMonSample
    dsimp only
    rw [if_pos (by rwa [State.wr_tick, State.modMon_tick])]
    rfl
  refine next_congr (runOne_pf _ hpf rfl ?_ app rfl rfl ?_)
  · simp only [List.forall_mem_cons]
    exact ⟨ckFormat_pass known, ckAbsent_pass present, ckCond_pass (by simp [room]), by simp⟩
  · rw [State.monAsked, State.wr_tick, State.modMon_tick]

/-- The state with the test of a channel asked for. -/
def State.testAsked (s : State) (ch d : Nat) : State :=
  (s.modMon fun x => { x with
    test := some (ch, d, 10000 * s.tick + 16000), queue := x.queue ++ [(2, ch, true)] }).wrB R.MON_STAT_TEST_BUSY true

theorem execMonTest_taken {ch d : Nat} (hpf : h.isPf) (known : monReserved ch = false) (present : s.monAbsent ch = false) (hd : d < 1024)
    (none : s.mon.test = none) : exec (.monTest h mem ch d) s = .next ((s.testAsked ch d).complete (doneOk h s 0xd4 0)) := by
  refine next_congr (runOne_pf (a := { s := s.testAsked ch d }) hpf rfl ?_ rfl rfl rfl ?_)
  · simp only [List.forall_mem_cons]
    exact ⟨ckFormat_pass (by simp [known, hd]), ckAbsent_pass present, ckCond_pass (by simp [none]), by simp⟩
  · rw [State.testAsked, State.wrB_tick, State.modMon_tick]

end

/-! #### Frames (R539, R540) -/

/-- What passing over entries and starting one may change: the place in the frame, the urgent queue, and the counters of both. -/
structure MonMoves (s t : State) : Prop where
  touches : t = { s with regs := t.regs, host := t.host, mon := t.mon }
  mon : t.mon = { s.mon with
    idx := t.mon.idx, start := t.mon.start, idle := t.mon.idle, urgent := t.mon.urgent, queue := t.mon.queue, used := t.mon.used
    skipTick := t.mon.skipTick, skipAcc := t.mon.skipAcc }
  rd : ∀ x : Fld, x.Apart R.MON_CNT_SKIPPED → x.Apart R.MON_CNT_ABORTS → x.Apart R.MON_STAT_HOST_QUEUED → t.rd x = s.rd x

namespace MonMoves

variable {s t u : State}

theorem refl (s : State) : MonMoves s s := ⟨rfl, rfl, fun _ _ _ _ => rfl⟩

theorem trans (h : MonMoves s t) (h' : MonMoves t u) : MonMoves s u where
  touches := h'.touches.trans (by rw [h.touches])
  mon := h'.mon.trans (by rw [h.mon])
  rd x hs ha hq := (h'.rd x hs ha hq).trans (h.rd x hs ha hq)

theorem foldl {α : Type} {g : State → α → State} (hg : ∀ s a, MonMoves s (g s a)) (l : List α) (s : State) :
    MonMoves s (l.foldl g s) := by
  induction l generalizing s with
  | nil => exact refl s
  | cons a l ih => exact (hg s a).trans (ih (g s a))

theorem tick (h : MonMoves s t) : t.tick = s.tick := (congrArg State.tick h.touches :)
theorem pub (h : MonMoves s t) : t.mon.pub = s.mon.pub := (congrArg MonSt.pub h.mon :)
theorem table (h : MonMoves s t) : t.mon.table = s.mon.table := (congrArg MonSt.table h.mon :)
theorem on (h : MonMoves s t) : t.mon.on = s.mon.on := (congrArg MonSt.on h.mon :)
theorem frameStart (h : MonMoves s t) : t.mon.frameStart = s.mon.frameStart := (congrArg MonSt.frameStart h.mon :)
theorem frameLen (h : MonMoves s t) : t.mon.frameLen = s.mon.frameLen := (congrArg MonSt.frameLen h.mon :)
theorem test (h : MonMoves s t) : t.mon.test = s.mon.test := (congrArg MonSt.test h.mon :)

theorem modMon (s : State) {g : MonSt → MonSt} (hg : ∀ m, g m = { m with
    idx := (g m).idx, start := (g m).start, idle := (g m).idle, urgent := (g m).urgent, queue := (g m).queue, used := (g m).used
    skipTick := (g m).skipTick, skipAcc := (g m).skipAcc }) : MonMoves s (s.modMon g) := ⟨rfl, hg _, fun _ _ _ _ => rfl⟩

theorem wr (s : State) {x : Fld} (v : Nat) (hx : x.lo + x.w ≤ 32)
    (apart : ∀ y : Fld, y.Apart R.MON_CNT_SKIPPED → y.Apart R.MON_CNT_ABORTS → y.Apart R.MON_STAT_HOST_QUEUED → y.Apart x) :
    MonMoves s (s.wr x v) := ⟨rfl, rfl, fun y hs ha hq => s.rd_wr_apart v hx (apart y hs ha hq)⟩

theorem wr_queued (s : State) (v : Nat) : MonMoves s (s.wr R.MON_STAT_HOST_QUEUED v) := wr s v (by decide) fun _ _ _ hq => hq
theorem bump_aborts (s : State) (n : Nat) : MonMoves s (s.bump R.MON_CNT_ABORTS n) := wr s _ (by decide) fun _ _ ha _ => ha
theorem bump_skipped (s : State) (n : Nat) : MonMoves s (s.bump R.MON_CNT_SKIPPED n) := wr s _ (by decide) fun _ hs _ _ => hs

theorem rateEvent (s : State) (code obj period : Nat) (last : Option Nat) (acc n : Nat) :
    MonMoves s (s.rateEvent code obj period last acc n).1 := by
  obtain ⟨host, hhost⟩ := s.rateEvent_eq code obj period last acc n
  rw [hhost]
  exact ⟨rfl, rfl, fun _ _ _ _ => rfl⟩

theorem monSkip (s : State) : MonMoves s s.monSkip := by
  unfold State.monSkip
  exact ((bump_skipped s 1).trans (rateEvent _ _ _ _ _ _ _)).trans (modMon _ fun _ => rfl)

theorem monNext (s : State) (n i t : Nat) : MonMoves s (s.monNext n i t) := by
  induction n generalizing s i t with
  | zero => exact modMon s fun _ => rfl
  | succ n ih =>
    unfold State.monNext
    split
    · exact modMon s fun _ => rfl
    split
    · split
      · exact modMon s fun _ => rfl
      · exact ih _ _ _
    split
    · exact modMon s fun _ => rfl
    · exact (monSkip s).trans (ih _ _ _)

theorem monUrgent (s : State) (t : Nat) : MonMoves s (s.monUrgent t) := by
  unfold State.monUrgent
  dsimp only
  split
  · exact refl s
  split
  · exact refl s
  refine trans (t := State.modMon _ _) ?_ (wr_queued _ _)
  refine trans (t := ite _ s (s.bump R.MON_CNT_ABORTS 1)) ?_ (modMon _ fun _ => rfl)
  split
  · exact refl s
  · exact bump_aborts s 1

theorem monResume (s : State) (t : Nat) : MonMoves s (s.monResume t) := by
  unfold State.monResume
  dsimp only
  refine trans (t := s.modMon fun m => { m with urgent := none }) (modMon s fun _ => rfl) ?_
  exact (monNext _ _ _ _).trans (monUrgent _ _)

theorem raise (s : State) (code obj : Nat) (vals : List EVal) : MonMoves s (s.raise code obj vals) := ⟨rfl, rfl, fun _ _ _ _ => rfl⟩

theorem rd_status (h : MonMoves s t) {x : Fld} (off : x.off = 0x90000) (below : x.lo + x.w ≤ 16) : t.rd x = s.rd x :=
  h.rd x (.inl (by rw [off]; decide)) (.inl (by rw [off]; decide)) (.inr (.inl below))

theorem rd_test (h : MonMoves s t) {x : Fld} (off : x.off = 0x90008) : t.rd x = s.rd x :=
  h.rd x (.inl (by rw [off]; decide)) (.inl (by rw [off]; decide)) (.inl (by rw [off]; decide))

theorem busy (h : MonMoves s t) : t.flag R.MON_STAT_TEST_BUSY = s.flag R.MON_STAT_TEST_BUSY :=
  State.flag_congr (h.rd_status rfl (by decide))

theorem valid (h : MonMoves s t) : t.flag R.MON_TEST_RES_VALID = s.flag R.MON_TEST_RES_VALID := State.flag_congr (h.rd_test rfl)
theorem pass (h : MonMoves s t) : t.flag R.MON_TEST_RES_PASS = s.flag R.MON_TEST_RES_PASS := State.flag_congr (h.rd_test rfl)
theorem code (h : MonMoves s t) : t.rd R.MON_TEST_RES_CODE = s.rd R.MON_TEST_RES_CODE := h.rd_test rfl
theorem d (h : MonMoves s t) : t.rd R.MON_TEST_RES_D = s.rd R.MON_TEST_RES_D := h.rd_test rfl

end MonMoves

section
variable (s : State)

/-- The state in which the frame of `len` cycles has begun, before its first entry. -/
def State.monOpened (s : State) (len : Nat) : State :=
  s.modMon fun m => { m with on := true, frameStart := s.tick, frameLen := len, urgent := none, used := [0, 0, 0], idle := false }

theorem State.monFrame_eq (len : Nat) : ∃ t, MonMoves s t ∧ MonMoves (t.monOpened len) (s.monFrame len) :=
  ⟨_, MonMoves.foldl (fun s _ => MonMoves.monSkip s) _ s, (MonMoves.monNext _ _ _ _).trans (MonMoves.monUrgent _ _)⟩

theorem State.monFrame_fields (len : Nat) : (s.monFrame len).mon.on = true ∧ (s.monFrame len).mon.frameStart = s.tick ∧
    (s.monFrame len).mon.frameLen = len ∧ (s.monFrame len).mon.pub = s.mon.pub ∧ (s.monFrame len).mon.table = s.mon.table := by
  obtain ⟨t, before, after'⟩ := s.monFrame_eq len
  exact ⟨after'.on, after'.frameStart.trans before.tick, after'.frameLen, after'.pub.trans before.pub, after'.table.trans before.table⟩

theorem State.monIdle_still (upto n : Nat) (still : s.mon.on = false ∨ s.mon.urgent ≠ none ∨ s.mon.idle = false) : s.monIdle upto n = s := by
  cases n with
  | zero => rfl
  | succ n =>
    unfold State.monIdle
    refine if_neg ?_
    obtain off | busy | run := still
    · simp [off]
    · simp [Option.isNone_iff_eq_none, busy]
    · simp [run]

end

section
variable {s : State}

theorem execMonFrameStart_between (h : s.tick % 40 ≠ 0) : exec .monFrameStart s = .next s := next_congr (if_neg fun g => h g.1)

theorem execMonFrameStart_begins (frame : s.tick % 40 = 0) (live : s.inBlockReset 0x012 = false) :
    exec .monFrameStart s = .next (s.monFrame 400000) := next_congr (if_pos ⟨frame, live⟩)

variable {code : Fin 4096} {v : Int}

theorem execMonConversionEnd_ignored (ignored : s.mon.on = false ∨ s.mon.urgent ≠ none) : exec (.monConversionEnd code v) s = .next s := by
  show execMonConversionEnd code v s = _
  unfold execMonConversionEnd
  rw [s.monIdle_still _ _ (ignored.imp_right .inl)]
  refine next_congr (if_pos ?_)
  obtain off | busy := ignored
  · simp [off]
  · simp [Option.isSome_iff_ne_none, busy]

/-- The state in which a result waits to be published. -/
def State.monResult (s : State) (ch code : Nat) (v : Int) (k : Nat) : State := s.modMon fun m => { m with pub := m.pub ++ [(ch, code, v, k)] }

theorem execMonConversionEnd_result {ch k : Nat} (on : s.mon.on = true) (free : s.mon.urgent = none) (run : s.mon.idle = false)
    (hidx : s.mon.idx < 250) (entry : s.monEntry s.mon.idx = (ch, k)) (test : s.mon.test = none) :
    exec (.monConversionEnd code v) s = .next (((s.monResult ch code.val v k).monNext 300 (s.mon.idx + 1) (s.mon.start + 1600)).monUrgent
      (s.mon.start + 1600)) := by
  show execMonConversionEnd code v s = _
  unfold execMonConversionEnd
  rw [s.monIdle_still _ _ (.inr (.inr run))]
  dsimp only
  rw [if_neg (by simp [on, free, run, hidx]), entry, if_neg (by simp [test])]
  rfl

/-! #### Urgent requests and the test DAC (R543 to R547) -/

variable {src : Fin 3} {ch : Fin 256} {at' : Fin 10000}

theorem execUrgentRequest_none (h : monReserved ch.val = true ∨ s.monAbsent ch.val = true) : exec (.urgentRequest src ch at') s = .next s := by
  refine next_congr (if_pos ?_)
  obtain h | h := h
  · simp [h]
  · simp [h]

/-- Urgent request `i` of the queue takes the converter at instant `t`. -/
def State.monTaken (s : State) (src ch : Nat) (test : Bool) (i t : Nat) : State :=
  s.modMon fun m => { m with
    idx := if m.idle then m.idx + 1 else m.idx
    idle := false
    urgent := some { src := src, ch := ch, start := t, test := test }
    queue := m.queue.eraseIdx i
    used := m.used.set src (m.used.getD src 0 + 1) }

/-- The state once HOST_QUEUED follows the queue. -/
def State.queueCounted (s : State) : State := s.wr R.MON_STAT_HOST_QUEUED s.monQueued

/-- Whether a waiting request may begin at instant `t` of the frame (R543, R544). -/
@[reducible] def State.monMay (s : State) (t : Nat) (q : Nat × Nat × Bool) : Bool :=
  decide (s.mon.used.getD q.1 0 < monShare q.1) &&
    (if q.2.2 then s.mon.test.any fun x => decide (x.2.2 ≤ 10000 * s.mon.frameStart + t) else !(s.mon.test.any fun x => x.1 == q.2.1))

theorem monShare_unused (src : Fin 3) : [0, 0, 0].getD src.val 0 < monShare src.val := by decide +revert

/-- The only urgent request is found under its source. -/
theorem urgentPick_single (src : Fin 3) {can : Nat × Nat × Bool → Bool} {q : Nat × Bool} (h : can (src.val, q) = true) :
    ([0, 1, 2].filterMap fun k => ([(src.val, q)].zipIdx.find? fun q => q.1.1 == k && can q.1)).head? = some ((src.val, q), 0) := by
  match src with
  | 0 => simp_all
  | 1 => simp_all
  | 2 => simp_all

theorem State.monUrgent_takes {t : Nat} (on : s.mon.on = true) (free : s.mon.urgent = none) (run : s.mon.idle = false)
    (hidx : s.mon.idx < 250) (fits : t + 1600 ≤ s.mon.frameLen) (test : s.mon.test = none) (used : s.mon.used = [0, 0, 0])
    (queue : s.mon.queue = [(src.val, ch.val, false)]) :
    s.monUrgent t = ((s.bump R.MON_CNT_ABORTS 1).monTaken src.val ch.val false 0 t).queueCounted := by
  unfold State.monUrgent
  dsimp only
  rw [if_neg (by simp [on, free, fits]), queue]
  rw [urgentPick_single src (can := s.monMay t) (q := (ch.val, false)) (by simpa [State.monMay, test, used] using monShare_unused src)]
  dsimp only
  rw [if_neg (by simp [run, hidx])]
  rfl

theorem State.monAsked_mon (s : State) (src ch : Nat) :
    (s.monAsked src ch).mon = { s.mon with queue := s.mon.queue ++ [(src, ch, false)] } := (rfl)

theorem execUrgentRequest_waits (known : monReserved ch.val = false) (present : s.monAbsent ch.val = false)
    (live : s.inBlockReset 0x012 = false) (run : s.mon.idle = false) : exec (.urgentRequest src ch at') s =
      .next ((s.monAsked src.val ch.val).monUrgent (10000 * (s.tick - s.mon.frameStart) + at'.val)) := by
  show execUrgentRequest src ch at' s = _
  unfold execUrgentRequest
  rw [if_neg (by simp [known, present, live])]
  dsimp only
  rw [State.monIdle_still _ _ _ (.inr (.inr (by rwa [State.wr_mon]))), State.monAsked]

theorem State.monTaken_fields (test : Bool) (src ch t : Nat) {q : Nat × Nat × Bool} (run : s.mon.idle = false) (queue : s.mon.queue = [q]) :
    (s.monTaken src ch test 0 t).queueCounted.mon.queue = [] ∧ (s.monTaken src ch test 0 t).queueCounted.mon.idx = s.mon.idx ∧
      (s.monTaken src ch test 0 t).queueCounted.mon.urgent = some ⟨src, ch, t, test⟩ := by
  have mon : (s.monTaken src ch test 0 t).queueCounted.mon = { s.mon with
    idx := if s.mon.idle then s.mon.idx + 1 else s.mon.idx
    idle := false
    urgent := some ⟨src, ch, t, test⟩
    queue := s.mon.queue.eraseIdx 0
    used := s.mon.used.set src (s.mon.used.getD src 0 + 1) } := rfl
  rw [mon, queue, run]
  exact ⟨rfl, rfl, rfl⟩

theorem State.monTaken_aborts (test : Bool) (src ch t : Nat) :
    ((s.bump R.MON_CNT_ABORTS 1).monTaken src ch test 0 t).queueCounted.rd R.MON_CNT_ABORTS = min 65535 (s.rd R.MON_CNT_ABORTS + 1) :=
  (State.rd_wr_apart _ _ (by decide) (.inl (by decide))).trans (State.rd_bump_same s (by decide) 1)

theorem State.monAsked_aborts (src ch : Nat) : (s.monAsked src ch).rd R.MON_CNT_ABORTS = s.rd R.MON_CNT_ABORTS :=
  State.rd_wr_apart _ _ (by decide) (.inl (by decide))

theorem execUrgentConversionEnd_host {u : MonUrgent} (urgent : s.mon.urgent = some u) (sample : u.test = false) (host : u.src = 2) :
    exec (.urgentConversionEnd code v) s = .next ((s.raise 0x1602 u.ch [.w code.val, EVal.s v]).monResume (u.start + 1600)) := by
  show execUrgentConversionEnd code v s = _
  unfold execUrgentConversionEnd
  rw [urgent]
  dsimp only
  rw [if_neg (by simp [sample]), if_pos host]

theorem execUrgentConversionEnd_other {u : MonUrgent} (urgent : s.mon.urgent = some u) (sample : u.test = false) (other : u.src ≠ 2) :
    exec (.urgentConversionEnd code v) s = .next (s.monResume (u.start + 1600)) := by
  show execUrgentConversionEnd code v s = _
  unfold execUrgentConversionEnd
  rw [urgent]
  dsimp only
  rw [if_neg (by simp [sample]), if_neg other]

theorem execUrgentConversionEnd_none (none : s.mon.urgent = none) : exec (.urgentConversionEnd code v) s = .next s := by
  show execUrgentConversionEnd code v s = _
  unfold execUrgentConversionEnd
  rw [none]

/-- The state with the outcome of a test of the converter. -/
def State.tested (s : State) (code d : Nat) (pass : Bool) : State :=
  (((((s.modMon fun m => { m with test := none }).wrB R.MON_STAT_TEST_BUSY false).wrB R.MON_TEST_RES_VALID true).wrB
    R.MON_TEST_RES_PASS pass).wr R.MON_TEST_RES_CODE code).wr R.MON_TEST_RES_D d

theorem execMonTestDone_none (none : s.mon.test = none) : exec (.monTestDone code) s = .next s := by
  show execMonTestDone code s = _
  unfold execMonTestDone
  rw [none]

theorem execMonTestDone_ends {u : MonUrgent} {ch d n : Nat} (test : s.mon.test = some (ch, d, n)) (urgent : s.mon.urgent = some u)
    (under : u.test = true) {pass : Bool} (hpass : decide (((code.val : Int) - 4 * d).natAbs ≤ 8) = pass) :
    exec (.monTestDone code) s = .next (((s.tested code.val d pass).raise 0x1603 ch
      [.w d, .w code.val, .w (if pass then 1 else 0)]).monResume (u.start + 1600)) := by
  show execMonTestDone code s = _
  unfold execMonTestDone
  rw [test]
  dsimp only
  rw [if_pos (by simp [urgent, under]), urgent]
  dsimp only
  rw [if_neg (by simp [under]), hpass]
  rfl

theorem State.tested_busy (code d : Nat) (pass : Bool) : (s.tested code d pass).flag R.MON_STAT_TEST_BUSY = false := by
  unfold State.tested
  rw [State.flag, State.rd_wr_off _ _ (by decide), State.rd_wr_off _ _ (by decide), State.wrB, State.rd_wr_off _ _ (by decide), State.wrB,
    State.rd_wr_off _ _ (by decide)]
  exact State.flag_wrB_same _ _ (by decide) (by decide)

theorem State.tested_valid (code d : Nat) (pass : Bool) : (s.tested code d pass).flag R.MON_TEST_RES_VALID = true := by
  unfold State.tested
  rw [State.flag, State.rd_wr_beside _ _ (by decide) (by decide), State.rd_wr_beside _ _ (by decide) (by decide), State.wrB,
    State.rd_wr_beside _ _ (by decide) (by decide)]
  exact State.flag_wrB_same _ _ (by decide) (by decide)

theorem State.tested_pass (code d : Nat) (pass : Bool) : (s.tested code d pass).flag R.MON_TEST_RES_PASS = pass := by
  unfold State.tested
  rw [State.flag, State.rd_wr_beside _ _ (by decide) (by decide), State.rd_wr_beside _ _ (by decide) (by decide)]
  exact State.flag_wrB_same _ _ (by decide) (by decide)

theorem State.tested_code {code : Nat} (hcode : code < 4096) (d : Nat) (pass : Bool) :
    (s.tested code d pass).rd R.MON_TEST_RES_CODE = code := by
  unfold State.tested
  rw [State.rd_wr_beside _ _ (by decide) (by decide), State.rd_wr_same _ _ (by decide)]
  exact Nat.mod_eq_of_lt hcode

theorem State.tested_d (code : Nat) {d : Nat} (hd : d < 1024) (pass : Bool) : (s.tested code d pass).rd R.MON_TEST_RES_D = d := by
  unfold State.tested
  rw [State.rd_wr_same _ _ (by decide)]
  exact Nat.mod_eq_of_lt hd

end

/-! #### A fault message leaves the converter's registers (R546, R569) -/

/-- The registers from the monitor converter's on are as they were. -/
def MonRegs (s t : State) : Prop := ∀ x : Fld, 0x90000 ≤ x.off → t.rd x = s.rd x

namespace MonRegs

variable {s t u : State}

theorem refl (s : State) : MonRegs s s := fun _ _ => rfl
theorem trans (h : MonRegs s t) (h' : MonRegs t u) : MonRegs s u := fun x hx => (h' x hx).trans (h x hx)
theorem of_regs (h : t.regs = s.regs) : MonRegs s t := fun x _ => State.rd_congr h x

theorem wr (s : State) {x : Fld} (v : Nat) (hx : x.off < 0x90000) : MonRegs s (s.wr x v) :=
  fun _ hy => State.rd_wr_off s v (hx.trans_le hy).ne'

theorem of_queues (h : MeshQueues s t) : MonRegs s t := fun x hx => h.rd x (.inl (Nat.lt_of_lt_of_le (by decide) hx).ne')

theorem raiseIf (s : State) (b : Bool) (code obj : Nat) (vals : List EVal) : MonRegs s (if b then s.raise code obj vals else s) := by
  cases b with
  | true => exact of_regs rfl
  | false => exact refl s

theorem noRoute (s : State) (dst : Nat) : MonRegs s (s.noRoute dst) := by
  unfold State.noRoute
  dsimp only
  split
  · exact wr s _ (by decide)
  · exact (wr s (x := R.MSH_CNT_NOROUTE) _ (by decide)).trans (of_regs rfl)

theorem meshUnicast (s : State) (typ cls dst : Nat) (p : List Byte) : MonRegs s (s.meshUnicast typ cls dst p) := by
  unfold State.meshUnicast State.nextMseq
  dsimp only
  split
  · exact refl s
  · split
    · exact trans (t := s.modMesh _) (of_regs rfl) (of_queues (MeshQueues.meshQueue _ _ _ _))
    · exact trans (t := s.modMesh _) (of_regs rfl) (noRoute _ _)

theorem meshBroadcast (s : State) (typ cls : Nat) (p : List Byte) : MonRegs s (s.meshBroadcast typ cls p) := by
  unfold State.meshBroadcast State.nextMseq
  dsimp only
  split
  · exact refl s
  · exact trans (t := s.modMesh _) (of_regs rfl) (of_queues (MeshQueues.foldl (fun s _ => MeshQueues.meshQueue s _ _ _) _ _))

theorem faultReport (s : State) (sev : Nat) (b : List Byte) : MonRegs s (s.faultReport sev b) := by
  unfold State.faultReport
  dsimp only
  generalize (if s.mesh.faultTick = some s.tick then s.mesh.faultSent else 0) = n
  split
  · exact refl s
  · split
    · exact wr s _ (by decide)
    · split
      · exact trans (t := s.modMesh _) (of_regs rfl) (meshBroadcast _ _ _ _)
      · exact trans (t := s.modMesh _) (of_regs rfl) (meshUnicast _ _ _ _ _)

theorem storePin (s : State) (fails : List Nat) : MonRegs s (s.storePin fails) := by
  unfold State.storePin
  dsimp only
  split
  · exact of_regs rfl
  · exact refl s

theorem touchPin (s : State) : MonRegs s s.touchPin := by
  unfold State.touchPin
  split
  · exact of_regs rfl
  · exact storePin s _

theorem pinFault (s : State) (m : FaultMsg) : MonRegs s (s.pinFault m) := by
  unfold State.pinFault
  split
  · exact refl s
  · refine trans (trans (t := State.wrB _ _ _) ?_ (storePin _ _)) (of_regs rfl)
    exact trans (t := s.modFlt _) (of_regs rfl) (wr _ _ (by decide))

theorem logFault (s : State) (m : FaultMsg) : MonRegs s (s.logFault m) := by
  by_cases hroom : s.flt.loggedTick = s.tick → s.flt.logged < 64
  · obtain ⟨n, heq⟩ := State.logFault_eq (m := m) hroom
    rw [heq]
    refine trans (trans (t := s.entered m n) ?entered ?pinned) (wr _ _ (by decide))
    case entered =>
      unfold State.entered
      dsimp only
      exact (trans (t := s.modFlt _) (of_regs rfl) (raiseIf _ _ _ _ _)).trans (faultReport _ _ _)
    case pinned =>
      unfold State.pinStep
      split
      · exact trans (t := State.modFlt _ _) (of_regs rfl) (touchPin _)
      · exact pinFault _ _
  · obtain ⟨htick, hfull⟩ := Classical.not_imp.mp hroom
    rw [State.logFault_full htick (Nat.not_lt.mp hfull)]
    exact wr s _ (by decide)

theorem faultAction (s : State) (m : FaultMsg) : MonRegs s (s.faultAction m) := by
  unfold State.faultAction
  split
  case h_1 => exact refl s
  case h_2 =>
    split
    · exact of_regs rfl
    · exact refl s
  case h_3 => exact of_regs rfl
  case h_4 => exact of_regs rfl

theorem latchIf (s : State) (b : Bool) {k : Nat} (hk : k < 128) : MonRegs s (if b then s.latchAlert k else s) := by
  cases b with
  | true => exact wr s (x := R.FLT_LATCH_LATCH (k / 32)) _ (show 0x80010 + 4 * (k / 32) < 0x90000 by omega)
  | false => exact refl s

theorem sendFault (s : State) {m : FaultMsg} (hkind : m.kind < 128) : MonRegs s (s.sendFault m) := by
  unfold State.sendFault
  dsimp only
  split
  · exact refl s
  · split
    · exact of_regs rfl
    · split
      · exact (latchIf _ _ hkind).trans (logFault _ _)
      · exact (faultAction s m).trans ((latchIf _ _ hkind).trans (logFault _ _))

end MonRegs

/-! #### Publication and limits (R541, R546) -/

section
variable (s : State) {c : Nat} (l : MonLimit) (v : Int)

/-- The registers of a limit state. -/
def State.limWritten (s : State) (c st : Nat) : State :=
  let s := (s.wrB (R.MON_RES_HIGH c) (st == 1)).wrB (R.MON_RES_LOW c) (st == 2)
  let o := s.rd (R.MON_LIMSTAT_OUT (c / 32))
  s.wr (R.MON_LIMSTAT_OUT (c / 32)) (o - o / 2 ^ (c % 32) % 2 * 2 ^ (c % 32) + (if st = 0 then 0 else 2 ^ (c % 32)))

/-- The event of a limit state. -/
def State.limRaised (s : State) (c st : Nat) (v : Int) : State := (s.limWritten c st).raise 0x1601 c [.w st, EVal.s v]

theorem State.setLim_eq (st : Nat) : s.setLim c st l v = if s.limState c = st then s
    else if l.fault && st != 0 then (s.limRaised c st v).sendFault
      ⟨0x012, 0x0a, l.sev, false, c + (if st = 1 then 256 else 0), (s.limRaised c st v).tick⟩
    else s.limRaised c st v := by
  unfold State.setLim State.limRaised State.limWritten
  rfl

theorem State.setLim_regs {st : Nat} (new : s.limState c ≠ st) : MonRegs (s.limWritten c st) (s.setLim c st l v) := by
  have raised : MonRegs (s.limWritten c st) (s.limRaised c st v) := MonRegs.of_regs (State.raise_regs _ _ _ _)
  rw [State.setLim_eq, if_neg new]
  generalize s.limRaised c st v = u at raised
  split
  · exact raised.trans (MonRegs.sendFault _ (show 0x0a < 128 by decide))
  · exact raised

theorem State.limWritten_high (hc : c < 256) (st : Nat) : (s.limWritten c st).flag (R.MON_RES_HIGH c) = (st == 1) := by
  have apart : (R.MON_RES_HIGH c).off ≠ (R.MON_LIMSTAT_OUT (c / 32)).off :=
    show 0x90400 + 4 * c ≠ 0x90010 + 4 * (c / 32) by omega
  unfold State.limWritten
  rw [State.flag, State.rd_wr_off _ _ apart, State.wrB, State.rd_wr_beside _ _ (show 29 + 1 ≤ 32 by decide) (.inr (show 29 + 1 ≤ 30 by decide))]
  exact State.flag_wrB_same _ _ (show 30 + 1 ≤ 32 by decide) (show 0 < 1 by decide)

theorem State.setLim_high (hc : c < 256) : (s.setLim c 1 l v).limState c = 1 := by
  by_cases new : s.limState c = 1
  · rwa [State.setLim, if_pos new]
  · have high : (s.setLim c 1 l v).flag (R.MON_RES_HIGH c) = true := by
      rw [State.flag_congr (s.setLim_regs l v new _ (show 0x90000 ≤ 0x90400 + 4 * c by omega)), State.limWritten_high s hc]
      rfl
    rw [State.limState, if_pos high]

/-- Beside its limit flags a channel's result keeps what it reads. -/
theorem State.setLim_result (hc : c < 256) (st : Nat) {x : Fld} (hoff : x.off = 0x90400 + 4 * c) (beside : x.lo + x.w ≤ 29 ∨ 31 ≤ x.lo) :
    (s.setLim c st l v).rd x = s.rd x := by
  by_cases new : s.limState c = st
  · rw [State.setLim, if_pos new]
  · have apart : x.off ≠ (R.MON_LIMSTAT_OUT (c / 32)).off := by
      rw [hoff]
      exact show 0x90400 + 4 * c ≠ 0x90010 + 4 * (c / 32) by omega
    rw [s.setLim_regs l v new x (by omega), State.limWritten, State.rd_wr_off _ _ apart, State.wrB,
      State.rd_wr_beside _ _ (show 29 + 1 ≤ 32 by decide) (beside.imp_right fun h => (show 29 + 1 ≤ x.lo by omega)), State.wrB,
      State.rd_wr_beside _ _ (show 30 + 1 ≤ 32 by decide) (beside.imp (fun h => show x.lo + x.w ≤ 30 by omega) id)]

/-- The counts of results in a row above, below and within a limit, after a result. -/
def limCounts (l : MonLimit) (v : Int) (p : Nat × Nat × Nat) : Nat × Nat × Nat :=
  (if l.high < v then p.1 + 1 else 0, if v < l.low then p.2.1 + 1 else 0, if l.low + l.hyst ≤ v ∧ v ≤ l.high - l.hyst then p.2.2 + 1 else 0)

/-- The limit state that the counts of a channel give. -/
def State.limCounted (s : State) (c : Nat) (v : Int) (l : MonLimit) (p : Nat × Nat × Nat) : State :=
  let s := s.modMon fun m => { m with pers := Tab.set (fun _ => (0, 0, 0)) m.pers c p }
  if l.persist ≤ p.1 then s.setLim c 1 l v
  else if l.persist ≤ p.2.1 then s.setLim c 2 l v
  else if l.persist ≤ p.2.2 then s.setLim c 0 l v
  else s

theorem State.limCheck_eq {k : Nat} (bound : Tab.get (fun _ => 0xff) s.mon.map c = k) (hk : k ≠ 0xff)
    (limit : Tab.get (fun _ => ({} : MonLimit)) s.mon.limits k = l) :
    s.limCheck c v = s.limCounted c v l (limCounts l v (Tab.get (fun _ => (0, 0, 0)) s.mon.pers c)) := by
  subst bound limit
  exact if_neg hk

theorem State.limCounted_result (hc : c < 256) (p : Nat × Nat × Nat) {x : Fld} (hoff : x.off = 0x90400 + 4 * c)
    (beside : x.lo + x.w ≤ 29 ∨ 31 ≤ x.lo) : (s.limCounted c v l p).rd x = s.rd x := by
  unfold State.limCounted
  dsimp only
  split
  · exact State.setLim_result _ _ _ hc _ hoff beside
  split
  · exact State.setLim_result _ _ _ hc _ hoff beside
  split
  · exact State.setLim_result _ _ _ hc _ hoff beside
  · rfl

theorem State.limCheck_result (hc : c < 256) {x : Fld} (hoff : x.off = 0x90400 + 4 * c) (beside : x.lo + x.w ≤ 29 ∨ 31 ≤ x.lo) :
    (s.limCheck c v).rd x = s.rd x := by
  by_cases bound : Tab.get (fun _ => 0xff) s.mon.map c = 0xff
  · exact congrArg (fun t : State => t.rd x) (if_pos bound)
  · rw [s.limCheck_eq _ v rfl bound rfl]
    exact s.limCounted_result _ v hc _ hoff beside

theorem State.limCheck_above {k n : Nat} (hc : c < 256) (bound : Tab.get (fun _ => 0xff) s.mon.map c = k) (hk : k < 64)
    (limit : Tab.get (fun _ => ({} : MonLimit)) s.mon.limits k = l) (count : (Tab.get (fun _ => (0, 0, 0)) s.mon.pers c).1 = n)
    (above : l.high < v) (enough : l.persist ≤ n + 1) : (s.limCheck c v).limState c = 1 := by
  have due : l.persist ≤ (limCounts l v (Tab.get (fun _ => (0, 0, 0)) s.mon.pers c)).1 := by
    rw [limCounts, if_pos above, count]
    exact enough
  rw [s.limCheck_eq l v bound (by omega) limit, State.limCounted]
  exact (congrArg (fun t : State => t.limState c) (if_pos due)).trans (State.setLim_high _ _ _ hc)

/-- The result of channel `c` as it is written, before its limit is looked at. -/
def State.published (s : State) (c code : Nat) (v : Int) : State :=
  ((s.wrB (R.MON_RES_VALID c) true).wr (R.MON_RES_CODE c) code).wrS (R.MON_RES_VALUE c) v

/-- A sequenced result through the filter of its entry. -/
def filtered (old new : Int) (k : Nat) : Int := if k = 0 then new else roundShift (old * (4 ^ k : Nat) + new - old) (2 * k)

theorem State.monPublish1_eq {code k : Nat} {new : Int} (cool : 0x34 ≤ c)
    (hv : filtered (s.rdS (R.MON_RES_VALUE c)) new k = v) : s.monPublish1 (c, code, new, k) = (s.published c code v).limCheck c v := by
  subst hv
  exact if_neg (Nat.not_lt.mpr cool)

theorem State.published_value (code : Nat) (lo : -32768 ≤ v) (hi : v < 32768) :
    (s.published c code v).rdS (R.MON_RES_VALUE c) = v :=
  State.rdS_wrS_same _ (w := 15) (show 0 + 16 ≤ 32 by decide) rfl lo hi

theorem State.published_code {code : Nat} (hcode : code < 4096) : (s.published c code v).rd (R.MON_RES_CODE c) = code := by
  rw [State.published, State.wrS, State.rd_wr_beside _ _ (show 0 + 16 ≤ 32 by decide) (.inr (show 0 + 16 ≤ 16 by decide)),
    State.rd_wr_same _ _ (show 16 + 12 ≤ 32 by decide)]
  exact Nat.mod_eq_of_lt hcode

theorem State.published_valid (code : Nat) : (s.published c code v).flag (R.MON_RES_VALID c) = true := by
  rw [State.published, State.wrS, State.flag, State.rd_wr_beside _ _ (show 0 + 16 ≤ 32 by decide) (.inr (show 0 + 16 ≤ 31 by decide)),
    State.rd_wr_beside _ _ (show 16 + 12 ≤ 32 by decide) (.inr (show 16 + 12 ≤ 31 by decide))]
  exact State.flag_wrB_same _ _ (show 31 + 1 ≤ 32 by decide) (show 0 < 1 by decide)

end

section
variable {s : State} {code : Fin 4096}

theorem execUrgentRequest_taken {src : Fin 3} {ch : Fin 256} {at' : Fin 10000} (known : monReserved ch.val = false)
    (present : s.monAbsent ch.val = false) (live : s.inBlockReset 0x012 = false) (on : s.mon.on = true) (run : s.mon.idle = false)
    (hidx : s.mon.idx < 250) (free : s.mon.urgent = none) (queue : s.mon.queue = []) (test : s.mon.test = none)
    (used : s.mon.used = [0, 0, 0]) {t : Nat} (ht : 10000 * (s.tick - s.mon.frameStart) + at'.val = t)
    (fits : t + 1600 ≤ s.mon.frameLen) : ∃ u : State, exec (.urgentRequest src ch at') s = .next u ∧ u.mon.queue = [] ∧
      u.mon.idx = s.mon.idx ∧ u.mon.urgent = some ⟨src.val, ch.val, t, false⟩ ∧
      u.rd R.MON_CNT_ABORTS = min 65535 (s.rd R.MON_CNT_ABORTS + 1) := by
  have aborts := s.monAsked_aborts src.val ch.val
  have waits := execUrgentRequest_waits (src := src) (at' := at') known present live run
  have mon := s.monAsked_mon src.val ch.val
  rw [queue] at mon
  rw [ht] at waits
  generalize s.monAsked src.val ch.val = w at aborts waits mon
  have one : w.mon.queue = [(src.val, ch.val, false)] := by rw [mon]; rfl
  have taken : w.monUrgent t = ((w.bump R.MON_CNT_ABORTS 1).monTaken src.val ch.val false 0 t).queueCounted := by
    refine State.monUrgent_takes ?_ ?_ ?_ ?_ ?_ ?_ ?_ one
    all_goals rwa [mon]
  obtain ⟨hqueue, idx, urgent⟩ := State.monTaken_fields (s := w.bump R.MON_CNT_ABORTS 1) false src.val ch.val t (by rwa [State.bump_mon, mon])
    (by rwa [State.bump_mon])
  refine ⟨_, waits.trans (congrArg _ taken), hqueue, idx.trans ?_, urgent, ?_⟩
  · rw [State.bump_mon, mon]
  · rw [State.monTaken_aborts, aborts]

theorem execMonTestDone_result {u : MonUrgent} {ch d n : Nat} {pass : Bool} (test : s.mon.test = some (ch, d, n))
    (urgent : s.mon.urgent = some u) (under : u.test = true) (hd : d < 1024)
    (hpass : decide (((code.val : Int) - 4 * d).natAbs ≤ 8) = pass) : ∃ t : State, exec (.monTestDone code) s = .next t ∧
      t.mon.test = none ∧ t.flag R.MON_STAT_TEST_BUSY = false ∧ t.flag R.MON_TEST_RES_VALID = true ∧
      t.flag R.MON_TEST_RES_PASS = pass ∧ t.rd R.MON_TEST_RES_CODE = code.val ∧ t.rd R.MON_TEST_RES_D = d := by
  have moves := (MonMoves.raise (s.tested code.val d pass) 0x1603 ch [.w d, .w code.val, .w (if pass then 1 else 0)]).trans
    (MonMoves.monResume _ (u.start + 1600))
  refine ⟨_, execMonTestDone_ends test urgent under hpass, moves.test, ?_⟩
  rw [moves.busy, moves.valid, moves.pass, moves.code, moves.d]
  exact ⟨s.tested_busy _ _ _, s.tested_valid _ _ _, s.tested_pass _ _ _, s.tested_code code.isLt _ _, s.tested_d _ hd _⟩

theorem State.monPublish1_result {c code k : Nat} {new v : Int} (cool : 0x34 ≤ c) (hc : c < 256) (hcode : code < 4096)
    (hv : filtered (s.rdS (R.MON_RES_VALUE c)) new k = v) (lo : -32768 ≤ v) (hi : v < 32768) :
    (s.monPublish1 (c, code, new, k)).rdS (R.MON_RES_VALUE c) = v ∧ (s.monPublish1 (c, code, new, k)).rd (R.MON_RES_CODE c) = code ∧
      (s.monPublish1 (c, code, new, k)).flag (R.MON_RES_VALID c) = true := by
  have kept := fun {x : Fld} => (s.published c code v).limCheck_result v hc (x := x)
  rw [s.monPublish1_eq v cool hv]
  refine ⟨?_, ?_, ?_⟩
  · rw [State.rdS, kept rfl (.inl (show 0 + 16 ≤ 29 by decide))]
    exact s.published_value v code lo hi
  · rw [kept rfl (.inl (show 16 + 12 ≤ 29 by decide))]
    exact s.published_code v hcode
  · rw [State.flag_congr (kept rfl (.inr (show 31 ≤ 31 by decide)))]
    exact s.published_valid v code

end

/-- Settles O60, from what a descriptor, a frame, an urgent request, a test and a published result each leave. -/
theorem monitorCommands : Obligations.MonitorCommands := by
  refine ⟨fun s h mem hpf => ⟨fun addr b align read' frame good => execMonSeq_taken align read' good hpf frame,
    fun addr b align read' late good => execMonSeq_late align read' good hpf late,
    fun limit persist sev hyst fault low high hlimit pos hpersist hsev gap => execMonLimit_taken hpf hlimit pos hpersist hsev gap,
    fun addr b align read' good => ⟨_, execMonMap_taken hpf align read' good, rfl, fun c hc => State.mapped_get b hc⟩,
    fun ch _ known present room frame => ⟨_, execMonSample_taken hpf known present room frame, rfl, State.monAsked_mon _ _ _⟩,
    fun ch d known present hd none => execMonTest_taken hpf known present hd none⟩,
    fun s => ⟨execMonFrameStart_between, fun frame live => ⟨_, execMonFrameStart_begins frame live, s.monFrame_fields _⟩,
      fun code v off => execMonConversionEnd_ignored (.inl off),
      fun code v u urgent => execMonConversionEnd_ignored (.inr (by simp [urgent])), ?conversion,
      fun src ch at' => execUrgentRequest_none,
      fun src ch at' known present live on run hidx free queue test used fits =>
        execUrgentRequest_taken known present live on run hidx free queue test used rfl fits,
      fun code v => execUrgentConversionEnd_none,
      fun code v u urgent sample => ⟨execUrgentConversionEnd_host urgent sample, execUrgentConversionEnd_other urgent sample⟩,
      fun code => execMonTestDone_none,
      fun code u ch d n pass test urgent under hd hpass => execMonTestDone_result test urgent under hd hpass,
      fun c code k new v cool hc hcode hv lo hi => State.monPublish1_result cool hc hcode hv lo hi,
      fun c k l n v hc bound hk limit count above enough => s.limCheck_above l v hc bound hk limit count above enough⟩⟩
  intro code v ch k on free run hidx entry test
  exact ⟨_, execMonConversionEnd_result on free run hidx entry test, ((MonMoves.monNext _ _ _ _).trans (MonMoves.monUrgent _ _)).pub⟩

end Sys2Proof.Machine
